-- ==== Sys2Proof/Word.lean ====
section
/-! DEFINITION. The word types of the PVK-4800 model (00_scope R4: bit 0 is the least significant bit). -/

namespace Sys2Proof

/-- One byte of a scratchpad slice, of HBM or of a packet. -/
abbrev Byte := BitVec 8
/-- A 16-bit quantity: arrival counters (R70), status values (R9), event codes (R11). -/
abbrev Half := BitVec 16
/-- A 32-bit quantity: scalar registers (R79), constants VK (R125), FP32 encodings (R37). -/
abbrev W32 := BitVec 32
/-- A 64-bit quantity: counters, time stamps, 64-bit registers. -/
abbrev W64 := BitVec 64
/-- An instruction word of a Stope core (R68). -/
abbrev Insn := BitVec 128

end Sys2Proof
end

