-- ==== Sys2Proof/Syntax.lean ====
section
/-! DEFINITION. The commands of the block: one constructor per row of spec/opcode_table.json, with its operands.
A command is either an instruction that a Stope core decodes (chapters 03 to 07), a host, mailbox or sideband
access, or an event of one of the module's units (95_what_each_step_holds.md lists what each step holds). The
operands are the values that the event brings with it: the instruction's fields, the value written, the bytes
that the module reads from outside, the readings of a sensor. -/

namespace Sys2Proof

/-- The header and sync word of a core instruction (R68) and the physical core that decodes it. `agree = false` is an
upset from outside: the trailing sequencer's decode of this instruction comes out other than its registers make it
(R84, R85). -/
structure InsnHdr where
  core      : Nat
  wait      : Bool := false
  signal    : Bool := false
  waitCtr   : BitVec 8 := 0
  count     : BitVec 12 := 0
  waitValue : BitVec 16 := 0
  signalCtr : BitVec 8 := 0
  agree     : Bool := true
  deriving DecidableEq, Repr

/-- The operand bits [71:0] of a sequencer instruction (R78). -/
structure SeqOps where
  d   : BitVec 5 := 0
  a   : BitVec 5 := 0
  b   : BitVec 5 := 0
  sel : BitVec 4 := 0
  rsv : BitVec 21 := 0
  imm : BitVec 32 := 0
  deriving DecidableEq, Repr

/-- MXL and A.MLOAD operands (R96). -/
structure MxlOps where
  wAddr  : BitVec 21 := 0
  wFmt   : BitVec 4 := 0
  sparse : Bool := false
  plane  : Bool := false
  alt    : Bool := false
  header : Bool := false
  rsv    : BitVec 43 := 0
  deriving DecidableEq, Repr

/-- MMS and A.MSTREAM operands (R103). -/
structure MmsOps where
  inAddr   : BitVec 21 := 0
  inMap    : BitVec 2 := 0
  rows     : BitVec 16 := 0
  accBase  : BitVec 9 := 0
  plane    : Bool := false
  alt      : Bool := false
  clear    : Bool := false
  dthru    : Bool := false
  outMap   : BitVec 2 := 0
  zrow     : Bool := false
  zrowAddr : BitVec 15 := 0
  rsv      : BitVec 2 := 0
  deriving DecidableEq, Repr

/-- MXD operands; MXCLR uses accBase and rows (R107). -/
structure MxdOps where
  outAddr : BitVec 21 := 0
  accBase : BitVec 9 := 0
  rows    : BitVec 10 := 0
  outMap  : BitVec 2 := 0
  release : Bool := false
  rsv     : BitVec 29 := 0
  deriving DecidableEq, Repr

/-- MXMAP operands (R101). -/
structure MxmapOps where
  elemBase  : BitVec 21 := 0
  scaleBase : BitVec 21 := 0
  rowStride : BitVec 15 := 0
  fmt       : BitVec 4 := 0
  sat       : Bool := false
  map       : BitVec 2 := 0
  rsv       : BitVec 8 := 0
  deriving DecidableEq, Repr

/-- The operands of the vector instructions 0x10 to 0x45 (R127). -/
structure VopOps where
  n    : BitVec 16 := 0
  d    : BitVec 4 := 0
  a    : BitVec 5 := 0
  b    : BitVec 5 := 0
  c    : BitVec 5 := 0
  fn   : BitVec 4 := 0
  sat  : Bool := false
  last : Bool := false
  rsv  : BitVec 1 := 0
  doff : BitVec 15 := 0
  aoff : BitVec 15 := 0
  deriving DecidableEq, Repr

/-- VXDSC operands (R130). -/
structure VxdscOps where
  base      : BitVec 21 := 0
  fmt       : BitVec 4 := 0
  int       : Bool := false
  idx       : BitVec 3 := 0
  form      : BitVec 2 := 0
  rowLen    : BitVec 14 := 0
  rowStride : BitVec 15 := 0
  rsv       : BitVec 12 := 0
  deriving DecidableEq, Repr

/-- VXDSS operands (R130): bits [50:46] and [42:0] are reserved. -/
structure VxdssOps where
  scaleBase : BitVec 21 := 0
  rsvHi     : BitVec 5 := 0
  idx       : BitVec 3 := 0
  rsvLo     : BitVec 43 := 0
  deriving DecidableEq, Repr

/-- VXK operands (R130): bits [71:67] and [63:32] are reserved. -/
structure VxkOps where
  rsvHi : BitVec 5 := 0
  idx   : BitVec 3 := 0
  rsvLo : BitVec 32 := 0
  value : BitVec 32 := 0
  deriving DecidableEq, Repr

/-- A.VOP operands (R152): [71:64] must be zero, [63:56] names the operation, [55:0] are laid out as R127. -/
structure AvopOps where
  rsv8 : BitVec 8 := 0
  vop  : BitVec 8 := 0
  low  : VopOps := {}
  deriving DecidableEq, Repr

/-- SRUN and A.XFER operands (R184). -/
structure SrunOps where
  fdisp : BitVec 32 := 0
  ldisp : BitVec 15 := 0
  desc  : BitVec 15 := 0
  alt   : Bool := false
  rsv   : BitVec 9 := 0
  deriving DecidableEq, Repr

/-- The three engines of a core (R68, R82). -/
inductive Engine where
  | matrix | vector | stream
  deriving DecidableEq, Repr

/-- Where traffic enters or leaves the gallery network (R31, R32): a core's local port, the ports of a drift die, the
edge port of an HBM controller in its row `row` of four, and a service port. -/
inductive NetPort where
  | core (p : Nat)
  | drift (die : Nat)
  | hbm (h row : Nat)
  | service (i : Nat)
  deriving DecidableEq, Repr

/-- An incoming write packet of the gallery network (R178): 0 to 4 words from `src`, in traffic class `cls` (R33: 0 request,
1 response, 2 class-0 request, 3 class-0 response). `fromLink` marks a write that a link delivered, which R175 reads. -/
structure WritePkt where
  addr   : Nat
  data   : List Byte
  ctx    : BitVec 10
  gen    : BitVec 8
  cls    : Nat := 0
  ctr    : BitVec 8 := 0
  raise  : Bool := false
  secure : Bool := false
  fromLink : Bool := false
  src    : NetPort := .service 0
  deriving DecidableEq, Repr

/-- The access of port A that a port B access meets (R163); `later` where it started after port B's. -/
structure PortA where
  write : Bool
  word  : Nat
  later : Bool := false
  deriving DecidableEq, Repr

/-- A port B access that waited for port A (R162), by its number `id` among the waiting ones: a read of one 64 B word, or a write
of bytes `off` on of it. `secure` marks an access that R175 serves in the secure tiles of a marked slice, `reissued` a read of a
stream unit, which reads again when it is flagged (R197). -/
structure PortB where
  id    : Nat := 0
  word  : Nat
  write : Bool
  off   : Nat := 0
  data  : List Byte := []
  secure : Bool := false
  reissued : Bool := false
  deriving DecidableEq, Repr

/-- The errors that a read of slice words finds in them (R165): the 16 B quarter, by number, and whether it is uncorrectable. -/
abbrev Finds := List (Nat × Bool)

/-- A fetched word that arrives (R72): its slice address, and the errors that its read found. -/
structure FetchRead where
  addr  : Nat
  finds : Finds := []
  deriving DecidableEq, Repr

/-- The cycles in which an engine was busy with an instruction, and those in which it stalled (03 R91, 04 R124, 05 R153). -/
structure Busy where
  cycles : Nat := 0
  stalls : Nat := 0
  deriving DecidableEq, Repr

/-- What the slice accesses of a stream transaction met: its collision flags (R197) and the errors that its reads found (R165). -/
structure TxnRead where
  collided : Nat := 0
  finds    : Finds := []
  deriving DecidableEq, Repr

/-- The completion of a stream descriptor: its core, and the cycles in which the unit was busy since the last one (03 R91). -/
structure DescEnd where
  core   : Nat
  cycles : Nat := 0
  deriving DecidableEq, Repr

/-- A write packet that port B takes (R178), and the collision flag of its completion (R163). -/
structure TakenPkt where
  pkt      : WritePkt
  collided : Bool := false
  deriving DecidableEq, Repr

/-- A waiting port B access of a slice, by its number (R162). -/
structure BWait where
  slice : Nat
  id    : Nat := 0
  deriving DecidableEq, Repr

/-- The outcome of a row test (R170, R172): the columns whose words fail, and those in which the test corrects an error. -/
structure RowResult where
  failed    : List Nat := []
  corrected : List Nat := []
  deriving DecidableEq, Repr

/-- The bytes that a BAR2 read asks for (20 R522), and the errors that it finds in slice words (R165). -/
structure Bar2Ask where
  len   : Nat
  finds : Finds := []
  deriving DecidableEq, Repr

/-- What a read of host memory answers (R300). -/
inductive HostRead where
  | ok (bytes : List Byte)
  | failed
  deriving DecidableEq, Repr

/-- A message's 48 B header (R366). `reservedZero` says that every reserved field is zero. The fields from `ackVc` on are
what the payload of an acknowledgement, a board-peer request or a board-peer response says, for which the spec gives no
layout: the virtual channel and the sequences or keys that are acknowledged and refused (R367, R369), the key slot,
the direction and the poison of a peer's access (R236), the protocol level that the message is pinned to (R373, R380), and the time
parent that a management message names (R362, R482). -/
structure MsgHdr where
  dest    : Nat
  src     : Nat
  ports   : List Nat := []
  next    : Nat := 0
  vc      : Nat := 2
  kind    : Nat := 1
  seq     : BitVec 32 := 0
  srcCtx  : BitVec 10 := 0
  tenant  : BitVec 6 := 0
  dstCtx  : BitVec 10 := 0
  ctxGen  : BitVec 8 := 0
  keyGen  : BitVec 8 := 0
  bytes   : Nat := 0
  target  : BitVec 64 := 0
  slice   : Bool := false
  raise   : Bool := false
  last    : Bool := false
  raiseCtr  : BitVec 8 := 0
  raiseCore : BitVec 8 := 0
  key     : BitVec 64 := 0
  reservedZero : Bool := true
  ackVc   : Nat := 0
  acked   : List (BitVec 32) := []
  refused : List (BitVec 32) := []
  ackedKeys : List (BitVec 64) := []
  keySlot : Nat := 0
  peerWrite : Bool := false
  poison  : Bool := false
  level   : Nat := 0
  timePort : Option Nat := none
  deriving DecidableEq, Repr

/-- A link frame (R359); `good` is the verdict of the FEC and the CRC, `corrected` the FEC symbols corrected (R381). -/
structure LinkFrame where
  good     : Bool := true
  corrected : Nat := 0
  seq      : BitVec 12 := 0
  type     : Nat := 0
  ack      : BitVec 12 := 0
  nak      : Bool := false
  vc       : Nat := 0
  lane     : Nat := 0
  creditVc : Nat := 0
  credits  : Nat := 0
  payload  : List Byte := []
  deriving DecidableEq, Repr

/-- What an identity frame carries (R374). -/
structure LinkIdentity where
  serial   : BitVec 64 := 0
  module   : Nat := 0
  slot     : Nat := 0
  die      : Nat := 0
  logical  : Nat := 0
  physical : Nat := 0
  loLevel  : Nat := 0
  hiLevel  : Nat := 0
  planVer  : Nat := 0
  deriving DecidableEq, Repr

/-- The header of a count, dispatch or return message (R288). -/
structure EduHdr where
  kind    : Nat
  slot    : Nat
  half    : Nat
  ctx     : BitVec 10
  ctxGen  : BitVec 8
  keyGen  : BitVec 8
  layer   : Nat
  version : Nat
  inst    : Nat := 0
  row     : Nat := 0
  token   : Nat := 0
  rank    : Nat := 0
  zeroed  : Bool := false
  fmt     : Nat := 0
  step    : BitVec 32 := 0
  bytes   : Nat := 0
  reservedZero : Bool := true
  poison  : Bool := false
  deriving DecidableEq, Repr

/-- The readings of a control tick (R383, R387): the draws in W, the junction in degrees C, and V_in in mV. -/
structure GovReading where
  draw     : Nat
  fixed    : Nat
  exempt   : Nat := 0
  dead     : Nat := 0
  junction : Nat
  vinMv    : Nat := 54000
  deriving DecidableEq, Repr

/-- A context entry as CONTEXT_WRITE carries it (R477); the fields marked "module" are not here but for
`moduleZero`, which says whether they and the reserved fields were written as zero. -/
structure CtxFields where
  ctxId   : BitVec 10 := 0
  tenant  : BitVec 6 := 0
  cls     : BitVec 2 := 0
  panel   : BitVec 4 := 0
  secure  : Bool := false
  kvSr    : Bool := false
  table   : BitVec 2 := 0
  rcPolicy : BitVec 2 := 0
  model   : Half := 0
  hidden  : Half := 0
  fn      : BitVec 7 := 0
  window  : BitVec 8 := 0
  memSlot : BitVec 8 := 0
  linkSlot : BitVec 8 := 0
  sessions : List (BitVec 8) := []
  level   : BitVec 8 := 0
  claimUs : Half := 0
  kvFmt   : BitVec 4 := 0
  kvD     : BitVec 2 := 0
  kvLogP  : BitVec 4 := 0
  kvSeed  : W32 := 0
  rcEntries : Half := 0
  rcTable : BitVec 21 := 0
  root    : W64 := 0
  kvPage  : W64 := 0
  postPage : W64 := 0
  sealedIo : W64 := 0
  saveArea : W64 := 0
  poolRing : W64 := 0
  moduleZero : Bool := true
  deriving DecidableEq, Repr

/-- A panel entry as PANEL_WRITE carries it (R328, R478). -/
structure PanelFields where
  cores   : BitVec 144 := 0
  tileOn  : W32 := 0
  tileRet : W32 := 0
  setMask : Half := 0
  wayMask : Half := 0
  credit  : List (BitVec 6) := []
  class0  : Bool := false
  envRate : List (BitVec 8) := []
  envBurst : List (BitVec 6) := []
  envPkt  : BitVec 4 := 0
  powerRes : BitVec 11 := 0
  preemptHold : Half := 0
  rsvZero : Bool := true
  deriving DecidableEq, Repr

/-- One path of a routing entry (R372). -/
structure RoutePath where
  ports  : List Nat := []
  hops   : Nat := 0
  broken : Bool := false
  rsvZero : Bool := true
  deriving DecidableEq, Repr

/-- A management-chain frame (R479). -/
structure ChainFrame where
  dst     : Nat
  src     : Nat
  type    : Nat
  payload : List Byte := []
  deriving DecidableEq, Repr

/-- The door a mailbox command came through (R475). -/
inductive Door where
  | bar4 | chain | vc4
  deriving DecidableEq, Repr

/-- The headframe roles (R482). -/
inductive HfRole where
  | board | group | site
  deriving DecidableEq, Repr

/-- Where an SPDM request arrives (R451): a function's DOE mailbox or MCTP over SMBus. -/
inductive SpdmDoor where
  | doe (fn : Nat) | smbus
  deriving DecidableEq, Repr

/-- What the scrubber's read of one word finds (R426 to R428). -/
inductive ScrubFind where
  | clean | corrected | uncorrectable
  deriving DecidableEq, Repr

/-- The tamper detectors (R463, SEC_TAMPER bits 0 to 3). -/
inductive TamperCause where
  | lid | mesh | voltage | clock
  deriving DecidableEq, Repr

/-- A PCIe configuration request (R470, R505). -/
inductive CfgReq where
  | read (fn : Nat) | writeNumVfs (n : Nat) | writeMsixEnable (fn : Nat) (on : Bool)
  deriving DecidableEq, Repr

/-- The BAR a host register write addresses (R518). -/
inductive HostBar where
  | pf0 | vf0 (fn : Nat) | bar4
  deriving DecidableEq, Repr

/-- The commands. One constructor per row of spec/opcode_table.json, in the table's order but for the
host's memory accesses, which stand with the doorbells. -/
inductive Instr where
  | nop (h : InsnHdr) (o : SeqOps)
  | halt (h : InsnHdr) (o : SeqOps)
  | coreHaltReport (core : Nat)
  | fence (h : InsnHdr) (o : SeqOps)
  | seqStallResume (core : Nat)
  | br (h : InsnHdr) (o : SeqOps)
  | brc (h : InsnHdr) (o : SeqOps)
  | loop (h : InsnHdr) (o : SeqOps)
  | loopi (h : InsnHdr) (o : SeqOps)
  | li (h : InsnHdr) (o : SeqOps)
  | add (h : InsnHdr) (o : SeqOps)
  | addi (h : InsnHdr) (o : SeqOps)
  | sub (h : InsnHdr) (o : SeqOps)
  | mul (h : InsnHdr) (o : SeqOps)
  | shift (h : InsnHdr) (o : SeqOps)
  | logic (h : InsnHdr) (o : SeqOps)
  | setoff (h : InsnHdr) (o : SeqOps)
  | addoff (h : InsnHdr) (o : SeqOps)
  | addoffi (h : InsnHdr) (o : SeqOps)
  | cset (h : InsnHdr) (o : SeqOps)
  | cadd (h : InsnHdr) (o : SeqOps)
  | cread (h : InsnHdr) (o : SeqOps)
  | time (h : InsnHdr) (o : SeqOps)
  | aWaitall (h : InsnHdr) (o : SeqOps)
  | aLoopn (h : InsnHdr) (o : SeqOps)
  | aSync (h : InsnHdr) (o : SeqOps)
  | aEnd (h : InsnHdr) (o : SeqOps)
  | fetchWordArrive (core : Nat) (word : FetchRead)
  | engineEntryStart (core : Nat) (e : Engine)
  | engineInstructionComplete (core : Nat) (e : Engine) (index : Nat) (busy : Busy) (finds : Finds)
  | mxl (h : InsnHdr) (o : MxlOps)
  | mms (h : InsnHdr) (o : MmsOps)
  | mxd (h : InsnHdr) (o : MxdOps)
  | mxmap (h : InsnHdr) (o : MxmapOps)
  | mxclr (h : InsnHdr) (o : MxdOps)
  | aMload (h : InsnHdr) (o : MxlOps)
  | aMstream (h : InsnHdr) (o : MmsOps)
  | issueWindowStart (core : Nat) (stream : Bool) (ready : W64) (finds : Finds)
  | activityReport (island : Nat) (counts : List Nat) (belowNs : Nat)
  | busyPeriodEnd (core : Nat)
  | vxdsc (h : InsnHdr) (o : VxdscOps)
  | vxdss (h : InsnHdr) (o : VxdssOps)
  | vxk (h : InsnHdr) (o : VxkOps)
  | vadd (h : InsnHdr) (o : VopOps)
  | vsub (h : InsnHdr) (o : VopOps)
  | vmul (h : InsnHdr) (o : VopOps)
  | vfma (h : InsnHdr) (o : VopOps)
  | vmax (h : InsnHdr) (o : VopOps)
  | vmin (h : InsnHdr) (o : VopOps)
  | vabs (h : InsnHdr) (o : VopOps)
  | vneg (h : InsnHdr) (o : VopOps)
  | vcmp (h : InsnHdr) (o : VopOps)
  | vsel (h : InsnHdr) (o : VopOps)
  | vcvt (h : InsnHdr) (o : VopOps)
  | vexp (h : InsnHdr) (o : VopOps)
  | vlog (h : InsnHdr) (o : VopOps)
  | vrcp (h : InsnHdr) (o : VopOps)
  | vrsq (h : InsnHdr) (o : VopOps)
  | vtanh (h : InsnHdr) (o : VopOps)
  | vsigm (h : InsnHdr) (o : VopOps)
  | vrsum (h : InsnHdr) (o : VopOps)
  | vrmax (h : InsnHdr) (o : VopOps)
  | vrmin (h : InsnHdr) (o : VopOps)
  | vrssq (h : InsnHdr) (o : VopOps)
  | vscan (h : InsnHdr) (o : VopOps)
  | vsmax (h : InsnHdr) (o : VopOps)
  | vsexp (h : InsnHdr) (o : VopOps)
  | vssum (h : InsnHdr) (o : VopOps)
  | vtopk (h : InsnHdr) (o : VopOps)
  | vgath (h : InsnHdr) (o : VopOps)
  | vscat (h : InsnHdr) (o : VopOps)
  | vhash (h : InsnHdr) (o : VopOps)
  | vrope (h : InsnHdr) (o : VopOps)
  | aVop (h : InsnHdr) (o : AvopOps)
  | vectorChainStart (core : Nat)
  | srun (h : InsnHdr) (o : SrunOps)
  | aXfer (h : InsnHdr) (o : SrunOps)
  | streamTxnComplete (core slot txn : Nat) (r : TxnRead)
  | streamDescComplete (d : DescEnd)
  | streamFaultHalt (core : Nat)
  | streamHaltRecord (core : Nat)
  | strResumeRetry (core : Nat)
  | strResumeSkip (core : Nat)
  | incomingWritePacket (slice : Nat) (p : TakenPkt)
  | portBDeferStart (slice : Nat) (b : PortB) (waited : Nat) (meets : Option PortA)
  | portBStarve (w : BWait)
  | tileStateReached (slice tile : Nat)
  | spmTileMaskWrite (slice : Nat) (ret : Bool) (value : W32)
  | rowTest (slice : Nat) (r : RowResult)
  | rowTestIntervalExpiry (slice : Nat)
  | seqCtrlWrite (core : Nat) (value : W32)
  | mxCtrlWrite (core : Nat) (value : W32)
  | pageWalk (core : Nat) (va : BitVec 48) (write : Bool)
  | pageWalkComplete (core : Nat)
  | xlInvGo (value : W32)
  | invalidationRun
  | invalidationComplete
  | cowResolve (core : Nat)
  | frameRetire (frame : Nat)
  | kvsTrigger (offset : Nat)
  | kvsCapture (sel : Nat)
  | kvsResultDeliver (sel index : Nat)
  | eduGoWrite (offset : Nat)
  | eduCountMsg (h : EduHdr) (counts : List Nat)
  | eduCapacityAssign (die job : Nat)
  | eduDispatchMsg (h : EduHdr) (row : List Byte)
  | eduReturnWrite (offset : Nat)
  | eduReturnMsg (h : EduHdr) (row : List Byte)
  | eduCountTimeout (die job : Nat)
  | eduRecvTimeout (die job : Nat)
  | placementRevision (ctx : Nat) (table : List Byte)
  | bar2Read (offset : Nat) (ask : Bar2Ask)
  | bar2Write (offset : Nat) (data : List Byte)
  | registerWrite (bar : HostBar) (offset size : Nat) (value : W64)
  | cmdStepDb (fn window : Nat) (value : W32)
  | cmdSvcDb (fn window : Nat) (value : W32)
  | cmdCqDb (fn window : Nat) (value : W32)
  | cmdRingCtrlWrite (fn window : Nat) (value : W32)
  | cmdRingCfgWrite (fn window offset : Nat) (value : W64)
  | packetFetch (fn window : Nat) (service : Bool) (read : HostRead)
  | stepRun (fn window : Nat)
  | stepHandoff (panel : Nat)
  | stepComplete (panel : Nat)
  | stepMark (fn window : Nat)
  | map (fn window : Nat)
  | unmap (fn window : Nat)
  | invalidate (fn window : Nat)
  | poolAdd (fn window : Nat)
  | streamResume (fn window : Nat)
  | svcFence (fn window : Nat)
  | accountRead (fn window : Nat)
  | deadlineCheckpoint (panel : Nat)
  | deadlineGrantWithdraw (ctx : Nat)
  | preemptSwitch (panel : Nat)
  | panelReset (panel : Nat)
  | c0AdmissionLapse (panel : Nat)
  | c0AdmissionReturn (panel : Nat)
  | shaperRelease (panel : Nat) (rsp : Bool) (payload : Nat) (waitedNs : Nat)
  | linkFrameRx (port : Nat) (f : LinkFrame)
  | replayTimeout (port : Nat)
  | linkDead (port : Nat)
  | linkTrained (port : Nat) (cableOk : Bool) (id : LinkIdentity)
  | portTrainTimeout (port : Nat) (signal : Bool)
  | holddownExpiry (port : Nat)
  | timeFrameTx (port : Nat)
  | linkMessageRx (port : Nat) (h : MsgHdr) (payload : List Byte) (tagOk : Bool)
  | ackTimer (src vc : Nat)
  | e2eTimeout (dest vc : Nat)
  | giveupTimeout (dest vc : Nat)
  | streamReclaim (dest vc : Nat)
  | linkPostTrigger (ctx slot : Nat)
  | linkTransferComplete (ctx slot : Nat)
  | pathBreakNotice (dest : Nat) (ports : List Nat)
  | rteSurveyGo (value : W32)
  | rtePortMapWrite (logical : Nat) (value : W32)
  | collectiveChunkRx (die : Nat) (h : MsgHdr) (payload : List Byte)
  | collectiveTimeout (die index : Nat)
  | governorTick (r : GovReading)
  | govBandWrite (value : W32)
  | govModeWrite (value : W32)
  | cageGrantRx (requestId watts validUs : Nat)
  | grantLate
  | grantValidExpiry
  | preRampFallback (panel : Nat)
  | corePowerStateReached (core : Nat)
  | thermalTrip
  | islandGroupPowerUp
  | clockHold (island : Nat)
  | clockResume (island : Nat)
  | relFrzPop (value : W32)
  | claimWindowExpiry (ctx : Nat)
  | rstClaim (value : W32)
  | rstRecover (value : W32)
  | watchdogExpiry (panel : Nat)
  | haltWatchdogExpiry (panel : Nat)
  | contextRecovery (ctx : Nat)
  | recoveryDrainTimeout (ctx : Nat)
  | hbmScrub (offset : Nat) (find : ScrubFind)
  | relUnpoisonGo (value : W64)
  | canaryWindowStart
  | canaryWindowEnd (pass noHotSpot : Bool) (calOffset : Int)
  | d2dLaneRetrain (die lane : Nat)
  | keyGen (slot type tenant : Nat)
  | keyShare (slot type tenant mask : Nat)
  | keyShareInstall (slot type tenant gen mask : Nat)
  | keyErase (slot : Nat)
  | keyRevoke (slot : Nat)
  | generationDestroy (slot : Nat)
  | tenantClear (tenant : Nat) (all : Bool)
  | tenantRemove (tenant : Nat)
  | tenantDrainTimeout (peer : Nat)
  | drainNotice (peer tenant : Nat) (drained : Bool)
  | lifecycleSet (target : Nat) (auth : List Byte)
  | tamperClear (standing : List TamperCause)
  | tamperDetect (cause : TamperCause)
  | entropyFail
  | entropyRecover
  | getVersion (d : SpdmDoor)
  | getCapabilities (d : SpdmDoor)
  | negotiateAlgorithms (d : SpdmDoor)
  | getDigests (d : SpdmDoor)
  | getCertificate (d : SpdmDoor) (offset len : Nat)
  | challenge (d : SpdmDoor) (nonce : List Byte)
  | getMeasurements (d : SpdmDoor) (nonce : List Byte)
  | sessionOpen (fn ctx : Nat) (clientKey nonce : List Byte)
  | sessionClose (fn slot : Nat)
  | coldBoot
  | mbxCmd (door : Door) (opcode seq : Half)
  | moduleInfo
  | moduleReset
  | configLoad (block : HostRead)
  | configRead (offset len : Nat)
  | fwInstall (image : HostRead)
  | fwActivate (revertMin : Nat) (approved : Bool)
  | fwApprovalTimeout
  | fwRevert
  | revertTimerExpiry
  | lockSet (groups : BitVec 2)
  | release (kind index : Nat)
  | eventRead (first : W32) (count : Nat)
  | tallyArm (time : W64) (number : Half)
  | mgtTallyGo (value : W32)
  | tallyLatch (island : Nat)
  | tallyIslandRecord
  | identitySet (moduleId : Nat)
  | survey
  | calUnpin (island : Nat)
  | contextWrite (ctx : Nat) (e : CtxFields)
  | contextDestroy (ctx : Nat)
  | contextRecover (ctx : Nat)
  | rootSet (ctx : Nat) (root : W64)
  | panelWrite (panel : Nat) (e : PanelFields) (linkAdmits : Bool)
  | fallbackSet (ctx fallback : Nat) (entry : BitVec 21) (argBlock : W64) (firstCore coreCount : Nat)
  | placementWrite (ctx : Nat) (table : List Byte)
  | routeWrite (table entry : Nat) (paths : List RoutePath)
  | levelPin (ctx level : Nat)
  | portRemap (logical physical : Nat)
  | repairWrite (index frame : Nat) (replica : W64) (slot : Nat)
  | chainFrameRx (up : Bool) (f : ChainFrame) (crcOk acked : Bool)
  | chainAckTimeout (up : Bool)
  | chainBackoffExpiry (up : Bool)
  | enumerationFrame (value : Nat)
  | chainAddressTimeout
  | heartbeatSend (role : HfRole)
  | heartbeatRx (role : HfRole) (epoch : W32) (moduleId : Nat)
  | headframeTakeover (role : HfRole)
  | grantRequestRx (moduleId requestId watts : Nat) (stamp : W64)
  | perstAssert
  | modEnAssert
  | modEnDeassert
  | inputTrip
  | inputRangeExcursion (high : Bool)
  | standbyPowerChange (on : Bool)
  | tsyncEdge
  | functionLevelReset (fn : Nat)
  | pciePowerStateChange (fn : Nat) (d3hot : Bool)
  | pcieLinkTrained (rate width : Nat) (flit : Bool)
  | ptmMessage (time : W64)
  | bar2PeerTimeout
  | jtagInstruction (op : W32)
  | uartRxByte (b : Byte)
  | pldmRequest (type sensor : Nat)
  | sensorUpdate (values : List Nat)
  | illegalInstruction (core : Nat) (word : Insn)
  | modulePowerStateReached
  | configurationRequest (r : CfgReq)
  | declaredWindowEnd (panel : Nat)
  | tagReuseWaitExpiry (ctx : Nat)
  | generationReuseWaitExpiry (slot : Nat)
  | keySharePeerTimeout
  deriving DecidableEq, Repr

end Sys2Proof
end

