-- ==== Sys2Proof/Config.lean ====
section
/-! DEFINITION. The free values: what the spec leaves open, as constants without a body. A claim about one holds for
every value. -/

namespace Sys2Proof

/-- A free byte for each draw (R150, R163, R219, R470: bytes the spec leaves unspecified). Log entry 4. -/
opaque Config.freeByte : Nat → BitVec 8

/-- A free 32-bit value for each draw (R111: accumulator rows that a fault leaves undefined). Log entry 4. -/
opaque Config.freeWord : Nat → BitVec 32

/-- A free event argument for each draw (R491 names the argument and no rule gives one a value). Log entry 4. -/
opaque Config.eventArg : Nat → BitVec 16

/-- Byte i of what the controller's decryption under one key material gives for a word that another material encrypted: the material
that wrote it, the one that reads it, the word's number, the plaintext written (R231, R232: XTS-AES-256 lies outside the spec's text).
Log entry 4. -/
opaque Config.wrongKey : Nat → Nat → Nat → List (BitVec 8) → Nat → BitVec 8

/-- The set of a cache slice that holds a line, by line number; only its value modulo 6,144 counts (R228 gives the
sets and no index function). Log entry 10. -/
opaque Config.mscSet : Nat → Nat

/-- How many ulps a special function's result lies from the correctly rounded one, for each function (0 exp, 1 log,
2 reciprocal, 3 rsqrt, 4 tanh, 5 sigmoid, 6 sine, 7 cosine) and each argument (R61, R63). A value outside the bound of
R61 counts as 0. Log entry 6. -/
opaque Config.ulpPick : Nat → Nat → Int

/-- The draw in W that `n` cores shed by entering a core state, 1 to 3 (R406: drop(p, s), for which no rule gives a value); `n` is
0 for the whole module, in states 4 (M-IDLE) and 5 (M-PARK). Log entry 22. -/
opaque Config.stateDrop : Nat → Nat → Nat

/-- The issue limit and the pace whose predicted draw fits what a domain is given, by want and give in hundredths of a W (R388: the
prediction is not given). Log entry 22. -/
opaque Config.fitLimit : Nat → Nat → Nat × Nat

/-- The draw in W of a domain, by the module's draw in W, the islands' latest activity reports (island, counts, nanoseconds below the
nominal clock) and the domain's code (R24, R383: the activity models are not given). Log entry 22. -/
opaque Config.domainDraw : Nat → List (Nat × List Nat × Nat) → Nat → Nat

/-- The draw in W of a panel, by the module's draw in W, the islands' latest activity reports and the panel's number (R24, R388: the
activity models are not given). Log entry 22. -/
opaque Config.panelWatts : Nat → List (Nat × List Nat × Nat) → Nat → Nat

/-- The lowest island clock in percent of nominal that the latest activity reports show, while some island was below nominal (R24,
R395: a report holds the time below nominal and no frequency). Log entry 22. -/
opaque Config.clockPct : List (Nat × List Nat × Nat) → Nat

/-- The verdict of the firmware signature over an image (18 R469 stage 1, R484). Log entry 25. -/
opaque Config.imageOk : List (BitVec 8) → Bool

/-- The release, the protocol level and the schema range that an image carries (18 R484 gives no layout). Log entry 25. -/
opaque Config.imageInfo : List (BitVec 8) → Nat × Nat × Nat × Nat

/-- The verdict of the signature in a configuration block (18 R473). Log entry 25. -/
opaque Config.blockSig : List (BitVec 8) → Bool

/-- SHA-384 (17 R461, 18 R473): its result lies outside the spec's text. Log entry 25. -/
opaque Config.sha384 : List (BitVec 8) → List (BitVec 8)

/-- The verdict of an owner signature: the owner key hash, the serial, the target state, the challenge, the signature (17 R461).
Log entry 25. -/
opaque Config.ownerSig : List (BitVec 8) → Nat → Nat → List (BitVec 32) → List (BitVec 8) → Bool

/-- The parts of SPDM responses that SPDM 1.3 and the device identity fix (17 R451): the body of a response by request, 0 version,
1 capabilities, 2 algorithms; and the certificate chain. Log entry 26. -/
opaque Config.spdmBody : Nat → List (BitVec 8)

/-- The device's certificate chain. Log entry 26. -/
opaque Config.certChain : List (BitVec 8)

/-- A signature by the device identity key. Log entry 26. -/
opaque Config.deviceSign : List (BitVec 8) → List (BitVec 8)

end Sys2Proof
end

