-- ==== Sys2Proof/Machine/Tab.lean ====
section
/-! DEFINITION. Sparse tables: the one container of the state. A table lists (key, value) pairs with strictly
rising keys; a key that is not listed reads as the table's default. A memory is a table of bytes that never lists
a byte equal to its default, so that equal memories are equal lists. -/

namespace Sys2Proof.Machine

/-- A sparse table. -/
abbrev Tab (α : Type) := List (Nat × α)

/-- The value listed for `k`, if any. -/
def Tab.find {α : Type} (t : Tab α) (k : Nat) : Option α :=
  match t with
  | [] => none
  | (k', v) :: rest => if k' = k then some v else Tab.find rest k

/-- The value at `k`, `d` where `k` is not listed. -/
def Tab.get {α : Type} (d : α) (t : Tab α) (k : Nat) : α := (Tab.find t k).getD d

/-- List `v` at `k`, in key order. -/
def Tab.set {α : Type} (t : Tab α) (k : Nat) (v : α) : Tab α :=
  match t with
  | [] => [(k, v)]
  | (k', w) :: rest =>
    if k' = k then (k, v) :: rest
    else if k < k' then (k, v) :: (k', w) :: rest
    else (k', w) :: Tab.set rest k v

/-- Take `k` out of the table. -/
def Tab.erase {α : Type} (t : Tab α) (k : Nat) : Tab α := t.filter (fun e => e.1 ≠ k)

/-- Change the value at `k`. -/
def Tab.modify {α : Type} (d : α) (t : Tab α) (k : Nat) (f : α → α) : Tab α := Tab.set t k (f (Tab.get d t k))

/-- The keys of a table, rising. -/
def Tab.keys {α : Type} (t : Tab α) : List Nat := t.map Prod.fst

/-- The keys rise strictly. -/
def Tab.sorted {α : Type} : Tab α → Bool
  | [] => true
  | [_] => true
  | a :: b :: rest => decide (a.1 < b.1) && Tab.sorted (b :: rest)

/-- A memory: addresses with their bytes; an unlisted address reads as 0. -/
abbrev Mem := Tab Byte

/-- One byte of a memory. -/
def Mem.read (m : Mem) (a : Nat) : Byte := Tab.get 0 m a

/-- Write one byte, keeping the canonical form: a zero byte is not listed. -/
def Mem.write (m : Mem) (a : Nat) (b : Byte) : Mem :=
  if b = 0 then Tab.erase m a else Tab.set m a b

/-- `n` bytes from `a` on. -/
def Mem.readN (m : Mem) (a n : Nat) : List Byte := (List.range n).map (fun i => Mem.read m (a + i))

/-- Write bytes from `a` on. -/
def Mem.writeN (m : Mem) (a : Nat) : List Byte → Mem
  | [] => m
  | b :: bs => Mem.writeN (Mem.write m a b) (a + 1) bs

/-- Write +0 into every byte from `lo` up to, not including, `hi`. -/
def Mem.zeroRange (m : Mem) (lo hi : Nat) : Mem := m.filter (fun e => e.1 < lo || hi ≤ e.1)

/-- The canonical form: strictly rising addresses and no byte equal to what an unlisted address reads as. -/
def Mem.wf (m : Mem) : Bool := Tab.sorted m && m.all (fun e => e.2 ≠ 0)

end Sys2Proof.Machine
end

