-- ==== Sys2Proof/Machine/State.lean ====
section
/-! DEFINITION. The state of the PVK-4800 block: every register, table, queue, counter, mode and pin the spec gives
the module, as plain data, and the queue of commands that wait (`pending`). A table lists only what differs from its
default. Registers that are views of other state (SEQ_STATUS, MX_STATUS, SPM_TILE_STATE and their like) are computed
by Machine/Registers.lean. Sections follow the chapters of spec/. -/

namespace Sys2Proof.Machine

/-! ## The Stope core (03) -/

/-- SEQ_STATUS.state (03 R91). -/
inductive SeqState where
  | idle | running | waiting | fence | queueFull | frozen | haltDrain
  deriving DecidableEq, Repr

/-- The sequencer operations (03 R79, R87). -/
inductive SeqOp where
  | nop | halt | fence | br | brc | loop | loopi | li | add | addi | sub | mul | shift | logic
  | setoff | addoff | addoffi | cset | cadd | cread | time | aWaitall | aLoopn | aSync | aEnd
  deriving DecidableEq, Repr

/-- The vector operations that stream elements (05 R126). -/
inductive VOp where
  | add | sub | mul | fma | max | min | abs | neg | cmp | sel | cvt
  | exp | log | rcp | rsq | tanh | sigm
  | rsum | rmax | rmin | rssq | scan | smax | sexp | ssum | topk | gath | scat | hash | rope
  deriving DecidableEq, Repr

/-- An engine instruction with its operands; `pva` marks the PVA-2200 form (04 R122, 05 R152, 07 R183). -/
inductive EngineOp where
  | mxl (o : MxlOps) (pva : Bool)
  | mms (o : MmsOps) (pva : Bool)
  | mxd (o : MxdOps)
  | mxmap (o : MxmapOps)
  | mxclr (o : MxdOps)
  | vxdsc (o : VxdscOps)
  | vxdss (o : VxdssOps)
  | vxk (o : VxkOps)
  | vop (op : VOp) (o : VopOps) (pva : Bool)
  | srun (o : SrunOps) (pva : Bool)
  deriving DecidableEq, Repr

/-- An entry of an engine queue: the instruction after its issue offsets (03 R73, R82). An entry that the trailing
sequencer's decode has not confirmed never starts (R74, R85). -/
structure QEntry where
  hdr : InsnHdr
  op  : EngineOp
  confirmed : Bool := true
  deriving DecidableEq, Repr

/-- An open loop (03 R80): the body's first address, its length in instructions and the passes left, this one
included. -/
structure LoopFrame where
  start  : Nat
  len    : Nat
  passes : Nat
  deriving DecidableEq, Repr

/-- A word of the fetch buffer (03 R72): `fault` is the code a decode from it freezes with, 0 for none. -/
structure FetchWord where
  addr  : Nat
  fault : Half
  data  : List Byte
  deriving DecidableEq, Repr

/-- What a stalled sequencer holds (03 R73, R75, R79): a sequencer instruction or an engine instruction for a full
queue. -/
inductive Held where
  | seq (h : InsnHdr) (op : SeqOp) (o : SeqOps)
  | eng (e : Engine) (q : QEntry)
  deriving DecidableEq, Repr

/-- The trailing sequencer's own registers (03 R84). -/
structure Trailing where
  pc      : Nat := 0
  regs    : Tab W32 := []
  offsets : Tab W32 := []
  loops   : List LoopFrame := []
  deriving DecidableEq, Repr

/-- The sequencer pair (03). `pc`, `regs`, `offsets` and `loops` are the leading sequencer's and `trail` holds the
trailing one's (R84); `loopBuf` holds the words of a loop body of 16 instructions or fewer (R80). -/
structure Sequencer where
  state     : SeqState := .idle
  pc        : Nat := 0
  entry     : Nat := 0
  faultPc   : Nat := 0
  faultCode : Half := 0
  lockstep  : Half := 0
  pvaCompat : Bool := false
  regs      : Tab W32 := []
  offsets   : Tab W32 := []
  loops     : List LoopFrame := []
  trail     : Trailing := {}
  fetch     : List FetchWord := []
  loopBuf   : Tab Insn := []
  held      : Option Held := none
  qMx       : List QEntry := []
  qVx       : List QEntry := []
  qStr      : List QEntry := []
  deriving DecidableEq, Repr

/-! ## The matrix array (04) -/

/-- MX_STATUS.plane0 and plane1 (04 R124). -/
inductive PlaneState where
  | empty | loading | loaded | zero
  deriving DecidableEq, Repr

/-- A weight plane (04 R93, R97, R99, R100): the image's regions after the header, its zero-block marks, and whether the image that MXL
loaded began with a header. -/
structure Plane where
  state  : PlaneState := .empty
  header : Bool := false
  fmt    : BitVec 4 := 0
  sparse : Bool := false
  image  : List Byte := []
  zero   : W64 := 0
  deriving DecidableEq, Repr

/-- A started matrix instruction (04 R109) with what it captured at its start: its plane, its maps (R101), the
address MXL reads from (R100) and the range-check bound (16 R415; `none` when nothing is checked). `nextRow` is the index of its
next unadmitted or unread row (R123). -/
structure MxActive where
  entry  : QEntry
  nextRow : Nat := 0
  plane  : Bool := false
  addr   : Nat := 0
  inMap  : MxmapOps := {}
  outMap : MxmapOps := {}
  index  : Half := 0
  bound  : Option W32 := none
  deriving DecidableEq, Repr

/-- The matrix array and its accumulator buffer (04). `mmsDone` says that the MMS started last has completed (R109). -/
structure Matrix where
  plane0    : Plane := {}
  plane1    : Plane := {}
  acc       : Tab (List W32) := []
  live      : List Nat := []
  maps      : Tab MxmapOps := []
  loadToggle   : Bool := false
  streamToggle : Bool := false
  active    : List MxActive := []
  mmsDone   : Bool := true
  freezeMode   : Bool := false
  freezeInForce : Bool := false
  flags     : BitVec 3 := 0
  fault     : Half := 0
  faultWord : Insn := 0
  limit     : Nat := 64
  fill      : Nat := 0
  hold      : Bool := false
  held      : Bool := false
  busy      : Bool := false
  deadGen   : W32 := 0
  lastPlane : Bool := false
  deriving DecidableEq, Repr

/-! ## The vector engine (05) -/

/-- A stream descriptor VSD (05 R125, R130). -/
structure VDesc where
  base      : BitVec 21 := 0
  fmt       : BitVec 4 := 0
  int       : Bool := false
  form      : BitVec 2 := 0
  rowLen    : BitVec 14 := 0
  rowStride : BitVec 15 := 0
  scaleBase : BitVec 21 := 0
  deriving DecidableEq, Repr

/-- The vector engine (05). `unit` holds the running unit's members, one for an unchained instruction. -/
structure VectorEngine where
  descs     : Tab VDesc := []
  consts    : Tab W32 := []
  kvSeed    : W32 := 0
  srEnable  : Bool := false
  flags     : BitVec 5 := 0
  fault     : Half := 0
  faultWord : Insn := 0
  unit      : List QEntry := []
  posRow    : Half := 0
  posBeat   : Half := 0
  deriving DecidableEq, Repr

/-! ## The stream unit and the translation cache (07, 09) -/

/-- A fault of the stream unit (07 R200, R201); `frame` is the physical frame of the leaf, for kind 2. -/
structure StrFault where
  kind  : Nat := 0
  slot  : Nat := 0
  dir   : Bool := false
  desc  : Nat := 0
  addr  : Nat := 0
  localAddr : Bool := false
  pos   : Nat := 0
  frame : Nat := 0
  deriving DecidableEq, Repr

/-- A transaction of a descriptor (07 R192): its first word's position, its words, its far address (the target offset of a
remote one), its local address, and the index or entry it belongs to. -/
structure Txn where
  pos : Nat
  n : Nat
  far : Nat
  loc : Nat
  elem : Nat
  deriving DecidableEq, Repr

/-- A transaction in flight (07 R193): its index in its descriptor, itself, and what it captured at its issue: the leaf and page
size that translated it (09 R242), and the generation and the material of the leaf's key slot (17 R441). -/
structure IssuedTxn where
  index : Nat
  txn   : Txn
  leaf  : W64 := 0
  large : Bool := false
  gen   : BitVec 8 := 0
  material : Nat := 0
  deriving DecidableEq, Repr

/-- A started descriptor (07 R185, R192): its captured 64 bytes (none until its word has been
read), its transactions in flight in issue order, those done with what they had captured, how many entries of its page-list it has
read, and whether its last packet was skipped and with it the raise. `elems` holds the indices or entries that it has read (R189, R190);
`redo` names the transactions that move their words again after a halt, and `latent` what such a one has written, which shows once the
descriptor completes (08 R219). -/
structure StrSlot where
  slot  : Nat
  entry : QEntry
  descAddr : Nat
  desc  : List Byte
  issued : List IssuedTxn := []
  done  : List Nat := []
  past  : List IssuedTxn := []
  reached : Nat := 0
  noRaise : Bool := false
  elems : Tab Nat := []
  redo  : List Nat := []
  latent : Tab (IssuedTxn × List Byte) := []
  deriving DecidableEq, Repr

/-- The stream unit (07). `slots` stands in start order; `handled` marks a copy-on-write halt that the command processor
left to the host (09 R245). -/
structure StreamUnit where
  slots    : List StrSlot := []
  toggle   : Bool := false
  halted   : Bool := false
  stopping : Bool := false
  handled  : Bool := false
  reported : List StrFault := []
  fault    : StrFault := {}
  viol     : Half := 0
  violWord : Insn := 0
  frozen   : Bool := false
  pace     : Nat := 0
  haltTime : W64 := 0
  deriving DecidableEq, Repr

/-- An entry of a translation cache (09 R240): `wOk` is the write flag of the refcount-1 fill. -/
structure TcEntry where
  ctx   : Nat
  gen   : BitVec 8
  vpage : Nat
  large : Bool
  leaf  : W64
  wOk   : Bool := false
  deriving DecidableEq, Repr

/-- A walk in flight (09 R239). -/
structure Walk where
  va    : Nat
  write : Bool
  redo  : Bool := false
  deriving DecidableEq, Repr

/-- The translation cache of a core, most recently used first (09 R240), and its walks in flight, oldest first (09 R239). -/
structure TransCache where
  entries : List TcEntry := []
  walks   : List Walk := []
  deriving DecidableEq, Repr

/-! ## The scratchpad slice (06) -/

/-- The state of a tile (06 R166); a transition holds its source's and its target's codes. -/
inductive TileState where
  | off | retention | on
  | toward (source target : Nat)
  deriving DecidableEq, Repr

/-- A slice (06). `bad` lists the uncorrectable words and `weak` those with a correctable error (R165). `undefReads` lists the words
whose port A read met a collision and `undefB` those whose port B read did: the access that reads them
gets undefined data (R163). `kept` is the model's own: the true contents of such words while that access reads free
bytes in their place; it is empty between commands. `parked` lists the tiles that C2 put in retention (R169), `starved` the waiting
port B accesses that raised their event (R162), `ingress` the queue of incoming packets (R178). `failedRow` is the row that the
shadow row keeps serving once a bank has no spare (R172). -/
structure Slice where
  mem       : Mem := []
  bad       : List Nat := []
  weak      : List Nat := []
  undefReads : List Nat := []
  undefB    : List Nat := []
  kept      : Tab (List Byte) := []
  arrival   : Tab Half := []
  tileOn    : W32 := 0xFFFFFFFF
  tileRet   : W32 := 0
  tiles     : Tab TileState := []
  parked    : List Nat := []
  secure    : Bool := false
  wipeBusy  : Bool := false
  resident  : Option (Nat × BitVec 8) := none
  testOn    : Bool := false
  testSuspended : Bool := false
  testInterval  : Half := 0
  testTile  : Nat := 0
  testRow   : Nat := 0
  testPasses : Half := 0
  testDue   : Bool := true
  sparesUsed : Tab Nat := []
  spareOut  : W32 := 0
  failedRow : Option (Nat × Nat) := none
  errWord   : Nat := 0
  errValid  : Bool := false
  collWord  : Nat := 0
  collPort  : Bool := false
  collValid : Bool := false
  dropRaised : Bool := false
  starved   : List Nat := []
  ingress   : List WritePkt := []
  deriving DecidableEq, Repr

/-- A physical core with its slice (03 R88, 13 R328, 15 R405, 16 R414). `logical` is 0xFF when unpaired; `ctx` to
`wayMask` are the values of the context and the panel entry that its step read at its start (01 R22). -/
structure Core where
  seq   : Sequencer := {}
  mx    : Matrix := {}
  vx    : VectorEngine := {}
  str   : StreamUnit := {}
  tc    : TransCache := {}
  slice : Slice := {}
  logical : Nat := 0xFF
  panel   : Option Nat := none
  retired : Bool := false
  ctx     : Nat := 0
  gen     : BitVec 8 := 0
  started : Bool := false
  haltReported : Bool := false
  rcPolicy  : Nat := 0
  rcTable   : Nat := 0
  rcEntries : Nat := 0
  rcViolated : Bool := false
  root      : Nat := 0
  tenant    : Nat := 0
  setMask   : Half := 0
  wayMask   : Half := 0
  cState    : Nat := 0
  cTarget   : Option Nat := none
  deriving DecidableEq, Repr

/-! ## HBM, cache and paging (09) -/

/-- HBM contents and its reliability state (09 R226, R231, R233; 16 R426 to R429). `tags` gives, for each 64 B word,
the number of the key material that last wrote it; a word without a tag was last written by the zero fill under the
material `fill`, or never (0). `corrected` keeps the times of a frame's corrected words. -/
structure Hbm where
  mem       : Mem := []
  tags      : Tab Nat := []
  bad       : List Nat := []
  poisoned  : List Nat := []
  remap     : Tab Nat := []
  reserve   : Tab Nat := []
  corrected : Tab (List Nat) := []
  fill      : Nat := 0
  deriving DecidableEq, Repr

/-- A cache line's key and dirt (09 R228, R230): keyed by line number (offset / 128). -/
structure MscLine where
  slot    : Nat
  gen     : BitVec 8
  valid   : List Bool
  dirty   : List Bool
  way     : Nat
  stamp   : Nat
  deriving DecidableEq, Repr

/-- The memory-side cache (09): the lines present, and MSC_SYS_WAYS of each slice. -/
structure Msc where
  lines   : Tab MscLine := []
  sysWays : Tab Half := []
  clock   : Nat := 0
  deriving DecidableEq, Repr

/-- Who issued an invalidation (09 R241). -/
inductive InvSource where
  | register | command (window : Nat) | internal
  deriving DecidableEq, Repr

/-- An invalidation (09 R241). -/
structure Inv where
  scope : Nat
  ctx   : Nat
  pages : Nat
  page  : Nat
  source : InvSource
  deriving DecidableEq, Repr

/-- The page walker (09 R239, R241, R247). `cache` holds level-1 and level-2 entries by (context, level, index); `boardPeers`
lists the board slots whose modules the identity exchange of a board-local port has shown (14 R374); `pinned` names the entries that
stay for an admitted context (13 R343). -/
structure Walker where
  boardSlot : Nat := 0
  boardPeers : List Nat := []
  refBase   : Nat := 0
  invScope  : BitVec 2 := 0
  invCtx    : BitVec 10 := 0
  invPages  : Half := 0
  invPage   : W32 := 0
  invBusy   : Bool := false
  queue     : List Inv := []
  running   : Option Inv := none
  cache     : List ((Nat × Nat × Nat) × W64) := []
  pinned    : List (Nat × Nat × Nat) := []
  deriving DecidableEq, Repr

/-! ## KV page selectors (10) -/

/-- A registered request page (10 R254): a module-local 2 MiB frame and the key slot of its leaf. -/
structure KvsReg where
  panel : Nat
  frame : Nat
  keySlot : Nat
  ctx   : Nat
  gen   : BitVec 8
  cls   : Nat
  deriving DecidableEq, Repr

/-- A captured request (10 R257): its header and query bytes, its status, its result and the entries of returned pages
that the program expects in host memory (R274). -/
structure KvsReq where
  reg    : KvsReg
  slot   : Nat
  header : List Byte
  query  : List Byte
  status : Half := 0
  result : List Byte := []
  hostPages : List (List Byte) := []
  deriving DecidableEq, Repr

/-- A selector (10). -/
structure Selector where
  regs    : List KvsReg := []
  pending : List (KvsReg × Nat) := []
  flight  : List KvsReq := []
  lastStatus : Half := 0
  lastCtx    : Nat := 0
  lastSlot   : Nat := 0
  lastValid  : Bool := false
  deriving DecidableEq, Repr

/-! ## Expert dispatch (11) -/

/-- The phase of a job (11 R293, EDU_DU_STATUS.phase), and its end. -/
inductive EduPhase where
  | waitGo | counting | sending | waitReturn | returning | done
  deriving DecidableEq, Repr

/-- A dispatch job (11 R279, R280, R284, R286) of drift die `die`, which is its half. `goOff` and `retOff` are the HBM
offsets of byte 0 of its go and return words; `slots` and `gate` are what the go phase read: the sequence slot of each token,
and (token, rank, expert, weight) of each assignment that is not none. An admitted assignment is (token, rank, instance,
row), a refused one (token, rank), and a row (instance, row). -/
structure EduJob where
  die    : Nat
  ctx    : Nat
  gen    : BitVec 8
  panel  : Nat
  goOff  : Nat
  retOff : Nat
  block  : List Byte
  step   : W32
  tableBytes : List Byte
  phase  : EduPhase := .waitGo
  slots  : List Nat := []
  gate   : List (Nat × Nat × Nat × W32) := []
  counts : Tab (List Nat) := []
  nRows  : List Nat := []
  admitted : List (Nat × Nat × Nat × Nat) := []
  refused  : List (Nat × Nat) := []
  received : List (Nat × Nat) := []
  zeroed   : List (Nat × Nat) := []
  returned : List (Nat × Nat) := []
  returnHeld : Bool := false
  sendRaised : Bool := false
  recvRaised : Bool := false
  combRaised : Bool := false
  failed   : Option Half := none
  lost     : List Nat := []
  back     : Bool := false
  deriving DecidableEq, Repr

/-- The expert dispatch unit (11 R278, R293). `current` and `pending` hold at most one table each, under its context, as
the bytes PLACEMENT_WRITE carried; `steps` the domain step of each context. `loadDelta` is the difference of the load shadows from the
previous tally (R290). -/
structure Edu where
  current : Tab (List Byte) := []
  pending : Tab (List Byte) := []
  jobs    : List EduJob := []
  steps   : Tab W32 := []
  countTimeout : Half := 100
  recvTimeout  : Half := 2000
  countTimeout1 : Half := 100
  recvTimeout1  : Half := 2000
  lastStatus : Half := 0
  lastCtx    : Nat := 0
  lastLayer  : Nat := 0
  lastHalf   : Nat := 0
  lastValid  : Bool := false
  dropRaised : List Nat := []
  revTally : Option (Nat × Half) := none
  revisions : Tab (Nat × List Byte) := []
  loadPrev : Tab W64 := []
  loadDelta : Tab W64 := []
  deriving DecidableEq, Repr

/-! ## The command plane and panels (12, 13) -/

/-- A packet that its ring has started (12 R301, R303). -/
structure Packet where
  opcode : Half
  tag    : W32
  irq    : Bool
  slots  : Nat
  params : List Byte
  nextEvent : Option W64 := none
  heavy  : Option (Nat × Nat × Nat) := none
  cls    : Nat := 0
  doorbell : Nat := 0
  start  : W64 := 0
  deriving DecidableEq, Repr

/-- A completion record (12 R312). -/
structure Record where
  tag    : W32
  status : Half
  ctx    : Nat
  kind   : Nat := 0
  start  : W64
  duration : W32
  energy : W32 := 0
  grantWait : Half := 0
  refused : Half := 0
  flags  : BitVec 24 := 0
  service : Bool := false
  deriving DecidableEq, Repr

/-- A stream-halt notice (12 R317) or a KV page-in notice (12 R316). -/
inductive Notice where
  | halt (stepTag : W32) (ctx : Nat) (time : W64) (fault : StrFault) (core : Nat)
  | pageIn (number : Nat) (ctx : Nat) (time : W64) (first entries slot : Nat) (stepTag : W32) (truncated : Bool)
  deriving DecidableEq, Repr

/-- A record or notice that the completion queue holds back while it is full (12 R298); `slots` are those that the
record's packet took in the step ring. -/
inductive CqItem where
  | record (r : Record) (irq : Bool) (slots : Nat)
  | notice (n : Notice)
  deriving DecidableEq, Repr

/-- A command window (12 R294 to R300, R327). `stepShort` and `svcShort` mark a ring whose next packet extends beyond
its tail (R297). -/
structure Window where
  ctx       : Option Nat := none
  stepBase  : W64 := 0
  svcBase   : W64 := 0
  cqBase    : W64 := 0
  noticeBase : W64 := 0
  stepLog   : Nat := 0
  svcLog    : Nat := 0
  cqLog     : Nat := 0
  noticeLog : Nat := 0
  enable    : Bool := false
  irqEn     : Bool := false
  error     : Bool := false
  stepHead  : Nat := 0
  stepTail  : Nat := 0
  svcHead   : Nat := 0
  svcTail   : Nat := 0
  cqHead    : Nat := 0
  cqTail    : Nat := 0
  phase     : Bool := true
  fullRaised : Bool := false
  errStatus : Half := 0
  errRing   : Bool := false
  consumed  : W32 := 0
  notices   : Nat := 0
  noticeIdx : Nat := 0
  held      : List CqItem := []
  stepPkt   : Option Packet := none
  svcPkt    : Option Packet := none
  stepDbs   : List (Nat × Nat) := []
  svcDbs    : List (Nat × Nat) := []
  stepShort : Bool := false
  svcShort  : Bool := false
  dbRaised  : Bool := false
  deriving DecidableEq, Repr

/-- A sequence of a step (12 R307) with its outcome (12 R315). -/
structure SeqEntry where
  slot : Nat
  h    : Nat
  t    : Nat
  eligible : Bool := false
  tree : Bool := false
  nodes : Nat := 0
  ordinal : Nat := 0
  status : Half := 0
  accepted : Nat := 0
  fallback : Bool := false
  moved : Bool := false
  overflow : Bool := false
  verifyMissing : Bool := false
  suspect : Bool := false
  hostPages : Bool := false
  deriving DecidableEq, Repr

/-- A dispatch block of a step (11 R280): the HBM offsets of its go and return words with the key slots of their leaves, and its bytes. -/
structure StepBlock where
  goOff   : Nat
  retOff  : Nat
  goSlot  : Nat
  retSlot : Nat
  bytes   : List Byte
  deriving DecidableEq, Repr

/-- A fallback template (13 R349, 18 R476). -/
structure Fallback where
  fallback : Nat
  entry    : Nat
  argBlock : W64
  firstCore : Nat
  coreCount : Nat
  deriving DecidableEq, Repr

/-- A step (12 R309): queued, running or switched out. `f`, `entry` and `place` are the context entry, the panel entry and the placement
table as the step read them at its start (01 R21, R22). `parents` holds the tree parents, by ordinal; `blocks` its
dispatch blocks; `cores` the physical cores that it started with
their buckets; `dirs` the page directories that its select requests named, by sequence slot (10 R270). `prepared` says that
point 5 has begun, `handed` is the time of the hand-off, 0 before it. `isComp` marks the companion of another step (13 R349),
`companion` names the fallback context of a companion that has not completed. `recorded` says that its record is written already, by a claim
(16 R420). `posted` says that it posted a link
transfer. `base` holds the four core counters of 13 R350 summed over the panel at the hand-off or restore, `busy` what they
gained before. `coEnergy` and `coRerun` are what its companion brought to its record. `placeNew` says that
`place` was the pending table (11 R278); a companion holds the template that it runs (13 R349). -/
structure Step where
  window  : Nat
  ctx     : Nat
  cls     : Nat
  gen     : BitVec 8
  tag     : W32
  irq     : Bool
  params  : List Byte
  seqs    : List SeqEntry
  parents : List (List Byte) := []
  blocks  : List StepBlock := []
  start   : W64
  doorbell : Nat := 0
  f       : CtxFields := {}
  entry   : PanelFields := {}
  place   : List Byte := []
  kv      : Option KvsReg := none
  keyGens : List (Nat × BitVec 8) := []
  needW   : Nat := 0
  granted : Bool := true
  waitSince : Nat := 0
  grantUs : Nat := 0
  prepared : Bool := false
  handed  : Nat := 0
  restored : Nat := 0
  switchedNs : Nat := 0
  checkpoints : Nat := 0
  overrun : Bool := false
  rerun   : Bool := false
  violFirst : List Nat := []
  cores   : List (Nat × Nat) := []
  dirs    : List (Nat × Nat) := []
  base    : List Nat := []
  busy    : List Nat := [0, 0, 0, 0]
  refused : Nat := 0
  limited : Bool := false
  haltedForHost : Bool := false
  pageIn  : Bool := false
  copied  : Bool := false
  suspect : Bool := false
  companion : Option Nat := none
  isComp  : Bool := false
  coEnergy : W32 := 0
  placeNew : Bool := false
  template : Option Fallback := none
  coRerun : Bool := false
  recorded : Bool := false
  posted  : Bool := false
  hints   : Option (Nat × Nat × Nat) := none
  nextEvent : Option W64 := none
  deriving DecidableEq, Repr

/-- The state of a panel (13 R353, CMD_PANEL_STATUS.state). -/
inductive PanelState where
  | idle | running | switching | resetting
  deriving DecidableEq, Repr

/-- What a core-level switch saves of one core (13 R334): by the physical id that it had and by its logical id. -/
structure SavedCore where
  core  : Nat
  logical : Nat := 0xFF
  seq   : Sequencer
  mx    : Matrix
  vx    : VectorEngine
  str   : StreamUnit
  slice : Slice
  rcViolated : Bool
  haltReported : Bool
  started : Bool
  deriving DecidableEq, Repr

/-- A step that is switched out (13 R333, R334). `paid` says that the switch of its preemptor counted the time of its restore. -/
structure SavedStep where
  step  : Step
  since : Nat
  cores : List SavedCore
  paid  : Bool := false
  deriving DecidableEq, Repr

/-- A panel (13 R328, R331, R332, R339, R340). `pairing` gives the physical core of each logical id (03 R88),
`lastModel` the model of the last step that it ran, `resetFor` that of the step for which it was reset since. -/
structure Panel where
  written : Bool := false
  entry   : PanelFields := {}
  pairing : Tab Nat := []
  state   : PanelState := .idle
  needsReset : Bool := true
  slept   : Bool := false
  lastModel : Option Half := none
  resetFor : Option Half := none
  running : Option Step := none
  queue   : List Step := []
  switched : List SavedStep := []
  admitted : Bool := false
  dedicated : Bool := false
  isolated : Bool := false
  path     : Bool := false
  failedOver : Bool := false
  govOk    : Bool := false
  windowOpen : Bool := false
  lapse    : Bool := false
  bucketReq : Nat := 0
  bucketRsp : Nat := 0
  bucketTime : Nat := 0
  lastHandoff : Nat := 0
  nextEvent : Nat := 0
  progress  : Nat := 0
  haltSince : Option Nat := none
  deriving DecidableEq, Repr

/-- A context entry with the module's own fields (18 R477), its moved set, its accounting block (13 R350) with
the amounts of steps not yet recorded in `usage`, its
frame pool's length (09 R245; its entries stand in HBM) and its placement, claim and recovery state (16 R420, R422). -/
structure Ctx where
  bound   : Bool := false
  f       : CtxFields := {}
  gen     : BitVec 8 := 0
  genUsed : List (BitVec 8 × Nat) := []
  capGens : List (BitVec 8) := []
  moved   : List Nat := []
  fallback : Option Fallback := none
  account : Tab W64 := []
  usage   : Tab Nat := []
  poolLen : Nat := 0
  claimOpen : Bool := false
  claimed : Bool := false
  claimCode : Half := 0
  recovering : Bool := false
  destroyWait : Bool := false
  ignoreDb : Bool := false
  deriving DecidableEq, Repr

/-- The command processors (12, 13). Windows are keyed by function × 256 + window. -/
structure Cmd where
  clamped  : Bool := false
  windows : Tab Window := []
  panels  : Tab Panel := []
  ctxs    : Tab Ctx := []
  deriving DecidableEq, Repr

/-! ## Links and routing (14) -/

/-- LNK_PORT_STATUS.state (14 R381). -/
inductive PortState where
  | down | training | identity | up | holddown | dead | spareIdle
  deriving DecidableEq, Repr

/-- The traffic of a panel on a link (14 R365): the panel and its share of a port's credits of the virtual channel. -/
structure LinkShare where
  panel : Nat
  share : Nat
  deriving DecidableEq, Repr

/-- A credit of a port that a frame took and the peer has not returned (14 R364, R365). -/
structure CreditUse where
  vc    : Nat
  lane  : Nat
  panel : Option Nat
  deriving DecidableEq, Repr

/-- A link port (14 R358 to R365, R374, R381). `credits` are those held at the peer and `rxHeld` the frames that this
side buffers, by virtual channel; `owed` are credits to be returned; `txBytes` the byte streams that wait, by virtual
channel × 8 + hop lane, and `txOwner` whose bytes they are, piece by piece. `inUse` lists the credits that frames hold, oldest first.
`c0Past` and `reqPast` say of the latest 63 frames, newest first, whether they were of class 0, and of those that were not, whether they
were of vc 2 or vc 5; `c0Turn` and `reqTurn` whose turn it is. `surveying` marks an up port that exchanges identities again. `seen` is the peer last seen: module, die, logical port. `deaths` are the times of dead
declarations within 24 h. -/
structure Port where
  state   : PortState := .down
  level   : Nat := 0
  seen    : Option (Nat × Nat × Nat) := none
  txSeq   : BitVec 12 := 0
  rxSeq   : BitVec 12 := 0
  replay  : List LinkFrame := []
  replays : Nat := 0
  credits : Tab Nat := []
  rxHeld  : Tab Nat := []
  owed    : Tab Nat := []
  txBytes : Tab (List Byte) := []
  txOwner : Tab (List (Option LinkShare × Nat)) := []
  inUse   : List CreditUse := []
  c0Past  : List Bool := []
  reqPast : List Bool := []
  c0Turn  : Bool := false
  reqTurn : Bool := false
  surveying : Bool := false
  result  : Nat := 0
  remapped : Bool := false
  frozen  : Bool := false
  wasDead : Bool := false
  failures : Nat := 0
  deaths  : List Nat := []
  deriving DecidableEq, Repr

/-- A message in an end-to-end buffer (14 R368): the physical port of its first link, and the transfer that sent it, by
context and slot. `since` is the time from which a waiting message's shaper has held it back, if it does (13 R340). -/
structure SentMsg where
  hdr   : MsgHdr
  data  : List Byte
  port  : Nat
  owner : Option (Nat × Nat) := none
  since : Option Nat := none
  deriving DecidableEq, Repr

/-- A send stream of this module (14 R367, R368), keyed by destination × 8 + vc; `die` is the die that sent its latest message. -/
structure TxStream where
  nextSeq : W32 := 0
  die     : Nat := 0
  unacked : List SentMsg := []
  lastUse : Nat := 0
  deriving DecidableEq, Repr

/-- A receive stream of this module (14 R367), keyed by source × 8 + vc: the next message that the cumulative
acknowledgement waits for, those accepted beyond it, acknowledgements not yet sent, raises not yet applied, the refused messages of the window, and the port of its last
message. -/
structure RxStream where
  cumAck   : W32 := 0
  accepted : List W32 := []
  due      : List W32 := []
  refused  : List W32 := []
  dueKeys  : List W64 := []
  raises   : List MsgHdr := []
  spoiled  : List (BitVec 10 × BitVec 10) := []
  bounced  : List W32 := []
  port     : Nat := 0
  lastUse  : Nat := 0
  deriving DecidableEq, Repr

/-- A registered link post page (14 R370): its 64 KiB frame of this module's HBM and the key slot of its leaf. -/
structure PostReg where
  panel   : Nat
  frame   : Nat
  keySlot : Nat
  ctx     : Nat
  gen     : BitVec 8
  deriving DecidableEq, Repr

/-- A link transfer (14 R370, R371), by context and slot. `sent` counts its messages sent, `got` the get data written,
`since` is the time from which the shaper has held its next message back, if it does (13 R340), and `status` is a failure it will complete with. -/
structure Transfer where
  ctx   : Nat
  gen   : BitVec 8
  panel : Nat
  slot  : Nat
  frame : Nat
  keySlot : Nat
  post  : List Byte
  table : Nat := 0
  sent  : Nat := 0
  got   : Nat := 0
  since : Option Nat := none
  status : Option Half := none
  deriving DecidableEq, Repr

/-- A collective in flight (14 R377 to R379): its block, its members (module, context), whether an engine serves it, and
the keys of the chunks it has accepted with their sources. -/
structure Collective where
  die   : Nat
  ctx   : Nat
  slot  : Nat
  id    : W32
  block : List Byte
  members : List (Nat × Nat) := []
  seen  : List (Nat × W64) := []
  engine : Bool := false
  deriving DecidableEq, Repr

/-- The links and the router (14). `routes` is keyed by table × 992 + entry; `keysSeen` holds the keys of accepted
dispatch messages with their sources; `backlog` the messages that wait for a buffer. -/
structure Link where
  ports  : Tab Port := []
  silenceNs : Half := 500
  replayMax : BitVec 4 := 4
  holddownMs : BitVec 12 := 1000
  replayNs : Half := 1000
  e2eUs    : Half := 20
  giveupMs : Half := 10
  collMs   : Half := 10
  tx     : Tab TxStream := []
  rx     : Tab RxStream := []
  posts  : List PostReg := []
  transfers : List Transfer := []
  collectives : List Collective := []
  keysSeen : List (Nat × W64) := []
  backlog : List SentMsg := []
  portMap : Tab Nat := []
  routes  : Tab (List RoutePath) := []
  surveyBusy : Bool := false
  plan    : Tab W64 := []
  planVersion : Nat := 0
  deriving DecidableEq, Repr

/-! ## Power (15) -/

/-- An entry of the throttle reason ring (15 R396, GOV_RING). -/
structure RingEntry where
  start    : W64 := 0
  duration : W32 := 0
  reason   : Nat := 0
  level    : Nat := 0
  deriving DecidableEq, Repr

/-- An open throttle reason (15 R395, R396): the ring entry it writes, its first and its last active tick. -/
structure OpenReason where
  entry : Nat
  first : Nat
  last  : Nat
  deriving DecidableEq, Repr

/-- A calibration record (15 R408, GOV_CAL): the voltage offset, whether it was gathered on this module (factory otherwise),
the pin, and the draw when gathered. Tag and guard are judged against the present cap and draw. -/
structure CalRecord where
  offset : Int := 0
  gathered : Bool := false
  pinned : Bool := false
  draw   : Nat := 0
  deriving DecidableEq, Repr

/-- An entry of the phase table (15 R389). -/
structure PhaseEntry where
  draw : Nat
  lenUs : Nat
  updated : Nat
  deriving DecidableEq, Repr

/-- A hint in a limiter slot (01 R24, 12 R301): the heavy phase and the next event of a packet. -/
structure Hint where
  model   : Half
  phase   : Option (Nat × Nat × Nat)
  nextEvent : Option W64
  posted  : Nat
  stepStart : Nat := 0
  deriving DecidableEq, Repr

/-- The activity report of an island (01 R24). -/
structure Activity where
  counts : List Nat := []
  belowNs : Nat := 0
  deriving DecidableEq, Repr

/-- The issue limiter's values for one core (01 R23): the array's L, F and grant hold, the stream unit's pace. The
requested power state is the core's `cTarget`. -/
structure Limit where
  l    : Nat := 64
  f    : Nat := 0
  hold : Bool := false
  q    : Nat := 0
  deriving DecidableEq, Repr

/-- The start of a step under the ramp reason (15 R403): its rise in W, and the cores not yet released. -/
structure RampStart where
  rise : Nat
  held : List Nat
  deriving DecidableEq, Repr

/-- A running phase of a panel (15 R389): model handle, phase_id, start and end. -/
structure PhaseRun where
  model : Half
  id    : Nat
  start : Nat
  stop  : Nat
  deriving DecidableEq, Repr

/-- GOV_STATUS.mstate (15 R405). -/
inductive MState where
  | active | idle | park
  deriving DecidableEq, Repr

/-- The governor and the issue limiter (15, 01 R23, R24). `waiting` is the queue of needs: a step of a window, the pre-ramp
of panel k under 0x10000 + k, or a raised floor, for which `floorWas` holds meanwhile (R385). `exempt` is the exempt draw of the last tick. `waking` lists the panels whose cores leave C3, in the order of their turns (15 R402). The accumulators hold hundredths of a mJ. -/
structure Gov where
  cap     : Nat := 1500
  floor   : Nat := 0
  floorWas : Nat := 0
  ramp    : Nat := 10
  learned : Bool := false
  order   : BitVec 8 := 0xE4
  authority : Nat := 0
  stepW   : Nat := 20
  windowUs : Nat := 10000
  validUs : Nat := 2000
  tThrottle : Nat := 95
  junction : Nat := 0
  marginUs : Nat := 10
  idleEn  : Bool := true
  parkEn  : Bool := false
  c3En    : Half := 0
  draw    : Nat := 0
  exempt  : Nat := 0
  deadW   : Nat := 0
  vinMv   : Nat := 54000
  mState  : MState := .active
  mTarget : Option MState := none
  reasons : BitVec 5 := 0
  reserve : Nat := 0
  ringNext : Nat := 0
  ring    : Tab RingEntry := []
  openReasons : Tab OpenReason := []
  cal     : Tab CalRecord := []
  phases  : Tab PhaseEntry := []
  hints   : Tab (List Hint) := []
  activity : Tab Activity := []
  limits  : Tab Limit := []
  pendingW : Nat := 0
  requestId : Nat := 0
  requestTime : Nat := 0
  grantW  : Nat := 0
  grantUntil : Nat := 0
  waiting : List (Nat × Nat) := []
  preRamp : Tab Nat := []
  rises   : List (Nat × Nat) := []
  thermalHold : Bool := false
  emergency : Bool := false
  throttleL : Nat := 64
  releasing : Tab RampStart := []
  waking : List Nat := []
  phaseOn : Tab PhaseRun := []
  lastTick : Nat := 0
  energyAcc : Nat := 0
  deadAcc : Nat := 0
  idleAcc : Nat := 0
  deriving DecidableEq, Repr

/-! ## Reliability, reset and recovery (16) -/

/-- A freeze record (01 R25, 16 R419, REL_FRZ_REC). -/
structure FreezeRec where
  time : W64
  subsystem : Nat
  master : Nat
  code : Half
  ctx : Nat
  gen : BitVec 8
  ctxValid : Bool
  deriving DecidableEq, Repr

/-- An entry of the poison log (16 R438). -/
structure PoisonEntry where
  frame : Nat := 0
  repaired : Bool := false
  demand : Bool := false
  valid : Bool := false
  time : W32 := 0
  deriving DecidableEq, Repr

/-- An entry of the repair table (16 R429): a local 2 MiB frame, its replica's address, and the key slot of both. -/
structure RepairEntry where
  frame : Nat
  replica : W64
  slot : Nat
  deriving DecidableEq, Repr

/-- REL_CANARY_STATUS.state (16 R438). -/
inductive CanaryState where
  | waiting | save | test | calibrate | restore
  deriving DecidableEq, Repr

/-- A recovery that runs (16 R422): the tag it raised to, whether it waits for the drain, the cause's code. -/
structure Recovery where
  ctx : Nat
  code : Half := 0
  claimed : Bool := false
  draining : Bool := false
  tagWait : Bool := false
  deriving DecidableEq, Repr

/-- Reliability, reset and recovery (16). `mismatches` keeps the times of each core's lockstep mismatches; `canaryNext` is the
rotation's place, `canaryPassed` the cores whose latest canary passed; `running` holds recoveries that drain or wait for a tag,
`queued` those that wait to start. -/
structure Rel where
  rcCore : Nat := 0
  rcIndex : Nat := 0
  rcRow : Nat := 0
  rcKind : Bool := false
  rcCtx : Nat := 0
  rcValid : Bool := false
  rcRaised : List Nat := []
  canaryOn : Bool := true
  canaryS : Half := 60
  marginMv : Nat := 30
  overclock : Nat := 6
  hotSpot : Bool := true
  canaryCore : Nat := 0
  canaryState : CanaryState := .waiting
  canaryPass : Bool := false
  noHotSpot : Bool := false
  canaryFirst : List Nat := []
  canaryNext : Nat := 0
  canaryPassed : List Nat := []
  canarySaved : Option Slice := none
  scrubOn : Bool := true
  passH : Nat := 12
  ceLimit : Nat := 8
  scrubPos : Nat := 0
  unpFrame : Nat := 0
  unpSlot : Nat := 0
  unpBusy : Bool := false
  poisonNext : Nat := 0
  poisonLog : Tab PoisonEntry := []
  repairs : Tab RepairEntry := []
  frozen : List FreezeRec := []
  overflowRaised : Bool := false
  mismatches : Tab (List Nat) := []
  wdMs : Half := 100
  haltMs : Half := 10000
  running : List Recovery := []
  queued : List Recovery := []
  recTime : W64 := 0
  recCtx : Nat := 0
  recGen : BitVec 8 := 0
  recCode : Half := 0
  recClaimed : Bool := false
  recOldRoot : W64 := 0
  d2dSpares : Tab Nat := []
  retired : List Nat := []
  deriving DecidableEq, Repr

/-! ## Security (17) -/

/-- A key slot (17 R440, SEC_SLOT). `material` numbers the material of the current generation and `retMaterial`
that of the retiring one; 0 is none. `destroyed` keeps the times at which generations were destroyed. The users that
SEC_SLOT counts are computed (Machine/Keys.lean). `mask` names the board slots that share the slot. -/
structure KeySlot where
  type : Nat := 0
  tenant : Nat := 0
  gen : BitVec 8 := 0
  material : Nat := 0
  retiring : Option (BitVec 8) := none
  retMaterial : Nat := 0
  shared : Bool := false
  mask : Nat := 0
  closing : Bool := false
  destroyed : List (BitVec 8 × Nat) := []
  deriving DecidableEq, Repr

/-- A session (17 R452, R453, R455). -/
structure Session where
  ctx : Nat
  fn : Nat
  inCounter : W64 := 0
  outCounter : W64 := 0
  deriving DecidableEq, Repr

/-- The lifecycle states (17 R461). -/
inductive Lifecycle where
  | manufacture | provisioned | deployed | returned
  deriving DecidableEq, Repr

/-- A wait of KEY_GEN or of a share install for a generation value (17 R447). -/
structure GenWait where
  slot : Nat
  type : Nat
  tenant : Nat
  gen : BitVec 8
  mask : Nat := 0
  deriving DecidableEq, Repr

/-- A tenant removal in progress (17 R465): its tenant and the peers that have not acknowledged. -/
structure Removal where
  tenant : Nat
  peers : List Nat
  deriving DecidableEq, Repr

/-- The security engine (17). `genWait` and `rewriteWait` are what KEY_GEN or KEY_SHARE waits for, `shareWait` an install from
another module; `sharePeers` are the modules whose answer to the KEY_SHARE of `shareSlot` is out; `drains` the drain notices not yet
acknowledged (peer, tenant). -/
structure Sec where
  slots : Tab KeySlot := []
  lifecycle : Lifecycle := .provisioned
  fusesLeft : Nat := 32
  ownerHash : Option (List Byte) := none
  busy : Bool := false
  tamper : BitVec 4 := 0
  tamperCount : Half := 0
  healthy : Bool := false
  challenge : List W32 := []
  sessions : Tab Session := []
  materials : Nat := 0
  genWait : Option GenWait := none
  rewriteWait : Option GenWait := none
  eraseWait : Option Nat := none
  shareWait : Option GenWait := none
  shareSlot : Nat := 0
  sharePeers : List Nat := []
  drains : List (Nat × Nat) := []
  removal : Option Removal := none
  ivs : Tab Nat := []
  closeWait : List (Nat × Nat) := []
  deriving DecidableEq, Repr

/-! ## Management (18) -/

/-- MGT_STATUS.state (18 R494). -/
inductive MgtState where
  | boot | hold | ready
  deriving DecidableEq, Repr

/-- A firmware slot in flash (18 R484). -/
structure FwSlot where
  release : Nat
  level : Nat
  schemaLo : Nat
  schemaHi : Nat
  valid : Bool
  image : List Byte := []
  deriving DecidableEq, Repr

/-- An entry of the event log (18 R491). -/
structure Event where
  seq : W32
  code : Half
  arg : Half
  time : W64
  deriving DecidableEq, Repr

/-- MGT_TALLY_ISLAND (18 R494), and the time and the number of the island's own last latch (18 R488). -/
structure TallyIsland where
  time : W64 := 0
  number : Half := 0
  stale : Bool := false
  lastTime : Nat := 0
  lastNumber : Half := 0
  deriving DecidableEq, Repr

/-- A grant request that a headframe or a standby holds (18 R483), and the grants it made. -/
structure GrantReq where
  module : Nat
  id : Nat
  watts : Nat
  stamp : Nat
  deriving DecidableEq, Repr

/-- One headframe role (18 R482, R483): `heard` is the module whose heartbeat came last and `last` its time. -/
structure RoleState where
  head : Bool := false
  standby : Bool := false
  epoch : W32 := 0
  heard : Option Nat := none
  last : Nat := 0
  deriving DecidableEq, Repr

/-- A chain segment's transmitter (18 R479, R480): the frames to be sent, the first of them on its way, how often it was sent again,
and the slots of its backoff. -/
structure ChainTx where
  queue : List ChainFrame := []
  tries : Nat := 0
  backoff : Nat := 0
  deriving DecidableEq, Repr

/-- The management plane (18): registers, mailbox, flash, roles, chain, tally and events. `sensorLimits` holds, by sensor, the
threshold that stands crossed: 1 lower critical, 2 upper critical, 3 fatal, 0 none (18 R492). `bootStage` is 4 while the islands power up
and 5 while the ports are surveyed for the first time; `chainOpen` says that a module reset has come since the chain address was
taken. -/
structure Mgt where
  state : MgtState := .boot
  holdCause : Nat := 0
  moduleId : Nat := 0
  assigned : Bool := false
  bootStage : Nat := 0
  chainAddr : Option Nat := none
  chainOpen : Bool := false
  runSlot : Bool := false
  activeSlot : Bool := false
  trial : Option Nat := none
  revertS : Nat := 0
  fwA : FwSlot := { release := 1, level := 1, schemaLo := 1, schemaHi := 1, valid := true }
  fwB : FwSlot := { release := 1, level := 1, schemaLo := 1, schemaHi := 1, valid := true }
  config : List Byte := []
  configHalf : Bool := false
  locks : BitVec 2 := 0
  lockedOffset : Nat := 0
  lockedWriter : Nat := 0
  lockedOpcode : Half := 0
  lockedValid : Bool := false
  mbxBusy : Bool := false
  mbxDoor : Door := .bar4
  mbxOpcode : Half := 0
  mbxLen : Nat := 0
  mbxSeq : Half := 0
  mbxStatus : Half := 0
  mbxRespLen : Nat := 0
  mbxRefSeq : Half := 0
  mbxRefStatus : Half := 0
  mbxParams : Mem := []
  mbxResp : Mem := []
  fwAsking : Option Nat := none
  tallyTime : W64 := 0
  tallyNumber : Half := 0
  tallyPending : Bool := false
  armTime : W64 := 0
  armNumber : Half := 0
  tallyLast : Half := 0
  tallyStale : Nat := 0
  islands : Tab TallyIsland := []
  events : List Event := []
  eventSeq : W32 := 0
  eventRead : W32 := 0
  evtLast : Tab Nat := []
  board : RoleState := {}
  group : RoleState := {}
  site : RoleState := {}
  grantReqs : List GrantReq := []
  grants : List (Nat × Nat) := []
  budgetW : Nat := 2000
  grantWindowMs : Nat := 100
  heartbeatMs : Nat := 100
  placeIntervalS : Nat := 30
  placeLead : Nat := 64
  timePort : Option Nat := none
  upTx : ChainTx := {}
  downTx : ChainTx := {}
  framesSent : Nat := 0
  sensors : List Nat := []
  sensorLimits : Tab Nat := []
  deriving DecidableEq, Repr

/-! ## Host interface, clocks, power input (19, 20) -/

/-- A BAR2 window (20 R521). -/
structure Bar2Win where
  enable : Bool := false
  keySlot : Nat := 0
  base : Half := 0
  deriving DecidableEq, Repr

/-- A board-peer read or write that waits for its response (20 R522). -/
structure PeerReq where
  write : Bool
  addr : Nat
  len : Nat
  deriving DecidableEq, Repr

/-- The host interface (19, 20). `numVfs` and `msixOn` are the parts of configuration space that the spec names; `deferred` holds, in
their order of arrival, the host accesses that wait for earlier posted writes (08 R222). -/
structure Hif where
  rate : Nat := 0
  width : Nat := 0
  flit : Bool := false
  ptmValid : Bool := false
  d3hot : List Nat := []
  frozen : List Nat := []
  windows : Tab Bar2Win := []
  numVfs : Nat := 0
  msixOn : List Nat := []
  peer : List PeerReq := []
  deferred : List Instr := []
  mbxIrqHeld : Bool := false
  deriving DecidableEq, Repr

/-- A packet on its way to a slice (01 R31 to R34): its target core, itself, and its injection stamp (13 R336). -/
structure NetPkt where
  dst : Nat
  pkt : WritePkt
  stamp : Half := 0
  deriving DecidableEq, Repr

/-- A router of the gallery network (01 R31, R33): the packets that wait in it, oldest first, in a buffer for each traffic class. -/
structure Router where
  bufs : Tab (List NetPkt) := []
  deriving DecidableEq, Repr

/-- The time base and the TSYNC capture (19 R509, R516; 20 R523), and the islands that are held or up (01 R29,
15 R401). `slew` is what the time base still has to be corrected by, in ns, and `slewCount` the ns since the last correction
(14 R362). `fifos` holds, by core island, the packets in the handshake FIFO into that island (01 R30). -/
structure Clk where
  now : W64 := 0
  tsyncOn : Bool := false
  tsyncValid : Bool := false
  tsyncIgnored : Half := 0
  tsyncCap : W64 := 0
  tsyncLast : Option Nat := none
  slew : Int := 0
  slewCount : Nat := 0
  held : List Nat := []
  groupsUp : Nat := 0
  fifos : Tab (List NetPkt) := []
  deriving DecidableEq, Repr

/-- The pins, the power domains and the sideband (19). -/
structure Pins where
  standby : Bool := true
  modEn : Bool := true
  pwrgd : Bool := true
  perst : Bool := true
  dieOn : Bool := true
  straps : Nat := 0
  serial : W64 := 0
  spares : List Nat := []
  jtag : W32 := 0xFFFFFFFF
  uartIn : List Byte := []
  deriving DecidableEq, Repr

/-- What the block sends out: memory writes toward the host, completions, messages and frames. A log that only
grows: the model's own view of its output ports, which nothing in the block reads. -/
inductive Out where
  | msix (fn vector : Nat)
  | hostBytes (addr : W64) (data : List Byte)
  | regRead (value : W64)
  | completion (sc : Bool) (ep : Bool) (data : List Byte)
  | abort
  | write (p : WritePkt) (core : Nat) (dropped refused collided : Bool)
  | linkFrame (port : Nat) (bytes : List Byte)
  | identity (port : Nat) (id : LinkIdentity)
  | message (vc : Nat) (h : MsgHdr) (data : List Byte)
  | placed (ctx version : Nat) (step : W32)
  | linkAck (port dest vc : Nat) (cum : W32) (acked refused : List W32) (keys : List W64)
  | grantRequest (id watts : Nat) (standby : Bool)
  | grant (module id watts validUs : Nat)
  | heartbeat (role : HfRole) (epoch : W32)
  | chain (up : Bool) (f : ChainFrame)
  | chainAck (up : Bool)
  | enumerate (value : Nat)
  | mailboxReply (door : Door) (status : Half) (data : List Byte)
  | spdm (d : SpdmDoor) (data : List Byte)
  | drain (peer tenant : Nat) (ack : Bool)
  | share (module slot : Nat) (gen : BitVec 8)
  | shareAnswer (slot : Nat) (gen : BitVec 8)
  | askHeadframe (release : Nat)
  | command (slot : Nat) (opcode : Half) (data : List Byte)
  | pathBreak (target dest : Nat) (ports : List Nat)
  | spareRequest (logical : Nat)
  | console (data : List Byte)
  | pldm (data : List Nat)
  | cfg (retry : Bool)
  deriving DecidableEq, Repr

/-- The whole block. `counters` holds every 64-bit counter register of 20 R524 and `shadows` every tally shadow, each
by the PF BAR0 offset of the counter; `draws` counts the free values taken so far (the model's own field). -/
structure State where
  pending  : List Instr
  cores    : Tab Core
  hbm      : Hbm
  msc      : Msc
  walker   : Walker
  kvs      : Tab Selector
  edu      : Edu
  cmd      : Cmd
  lnk      : Link
  gov      : Gov
  rel      : Rel
  sec      : Sec
  mgt      : Mgt
  hif      : Hif
  clk      : Clk
  net      : Tab Router
  pins     : Pins
  counters : Tab W64
  shadows  : Tab W64
  draws    : Nat
  out      : List Out
  deriving DecidableEq, Repr

/-- The machine's own faults. No command of the table ends the block with a fault: a violation freezes its master
and a refusal of the spec is a status, both of them next states. -/
inductive Fault where
  /-- Raised by nothing: the spec names no event that stops the module as a whole and that a command brings. Safe. -/
  | none_
  deriving DecidableEq, Repr

/-- What the model refuses. -/
inductive Refusal where
  /-- Raised by a dispatch arm that has no meaning yet. Safe: it proves nothing about the command. -/
  | notModelled (mnemonic : String)
  deriving DecidableEq, Repr

/-- The physical ids that the fuses of this module mark as spares (03 R88). The set differs between modules.
DESIGN CHOICE, log entry 3. -/
def fusedSpares : List Nat :=
  [144, 145, 146, 147, 148, 149, 150, 151, 152, 153, 154, 155, 156, 157, 158, 159]

/-- The module right after cold reset, before its boot (00 R2; 18 R469): every register at its Reset value, every
table empty, lifecycle PROVISIONED, both firmware slots holding the same release, and no configuration block. -/
def State.reset : State :=
  { pending := [], cores := [], hbm := {}, msc := {}, walker := {}, kvs := [], edu := {}, cmd := {}, lnk := {},
    gov := {}, rel := {}, sec := {}, mgt := {}, hif := {}, clk := {}, net := [], pins := { spares := fusedSpares },
    counters := [], shadows := [], draws := 0, out := [] }

end Sys2Proof.Machine
end

