-- ==== Sys2Proof/Machine/Ops.lean ====
section
/-! DEFINITION. The operations that the meanings share: access to units, counters, events, freeze records, the ports
of a slice and the arrival counters. -/

namespace Sys2Proof.Machine

/-- Every meaning answers with a next state. -/
abbrev Answer := Host.Outcome State Fault Refusal

/-! ## Time and free values -/

/-- One nanosecond of the time base. A correction that is due moves it by 1 ns in 10,000, which is 100 ppm, so that it never steps
back (R362). -/
def Clk.tick (c : Clk) : Clk :=
  if c.slewCount < 9999 ∨ c.slew = 0 then { c with now := c.now + 1, slewCount := min 9999 (c.slewCount + 1) }
  else if 0 < c.slew then { c with now := c.now + 2, slew := c.slew - 1, slewCount := 0 }
  else { c with slew := c.slew + 1, slewCount := 0 }

/-- Idle time: the time base counts while the die is powered (R509) and its island is not held (R29). Log entry 2. -/
def State.tick (s : State) : State := if s.pins.dieOn && !(s.clk.held.contains 245) then { s with clk := s.clk.tick } else s

/-- The time base in ns, as a number (R362). -/
def State.time (s : State) : Nat := s.clk.now.toNat

/-- Take `n` free bytes; the counter of draws moves on, so that later draws are other values. -/
def State.drawBytes (s : State) (n : Nat) : List Byte × State :=
  ((List.range n).map (fun i => Config.freeByte (s.draws + i)), { s with draws := s.draws + n })

/-- Take `n` free words. -/
def State.drawWords (s : State) (n : Nat) : List W32 × State :=
  ((List.range n).map (fun i => Config.freeWord (s.draws + i)), { s with draws := s.draws + n })

/-- Send something out of the block. -/
def State.emit (s : State) (o : Out) : State := { s with out := s.out ++ [o] }

/-! ## Units by number -/

/-- A core of a module fresh from cold reset: the slice of a spare has every tile off (R154, R181). -/
def coreAtReset (spares : List Nat) (p : Nat) : Core :=
  if p ∈ spares then { slice := { tileOn := 0, tiles := (List.range 32).map (fun t => (t, TileState.off)) } }
  else {}

/-- Physical core `p`. -/
def State.core (s : State) (p : Nat) : Core := (Tab.find s.cores p).getD (coreAtReset s.pins.spares p)

/-- Replace physical core `p`. -/
def State.setCore (s : State) (p : Nat) (c : Core) : State := { s with cores := Tab.set s.cores p c }

/-- Change physical core `p`. -/
def State.modCore (s : State) (p : Nat) (f : Core → Core) : State := s.setCore p (f (s.core p))

/-- Change the sequencer of core `p`. -/
def State.modSeq (s : State) (p : Nat) (f : Sequencer → Sequencer) : State :=
  s.modCore p (fun c => { c with seq := f c.seq })

/-- Change the slice of core `p`. -/
def State.modSlice (s : State) (p : Nat) (f : Slice → Slice) : State :=
  s.modCore p (fun c => { c with slice := f c.slice })

/-- Context `i`. -/
def State.ctx (s : State) (i : Nat) : Ctx := Tab.get {} s.cmd.ctxs i

/-- Change context `i`. -/
def State.modCtx (s : State) (i : Nat) (f : Ctx → Ctx) : State :=
  { s with cmd := { s.cmd with ctxs := Tab.modify {} s.cmd.ctxs i f } }

/-- Panel `k`. -/
def State.panel (s : State) (k : Nat) : Panel := Tab.get {} s.cmd.panels k

/-- Change panel `k`. -/
def State.modPanel (s : State) (k : Nat) (f : Panel → Panel) : State :=
  { s with cmd := { s.cmd with panels := Tab.modify {} s.cmd.panels k f } }

/-- The step of a context that stands in its panel: running, queued or switched out. -/
def State.stepOf (s : State) (ctx : Nat) : Option Step :=
  s.cmd.panels.findSome? (fun e =>
    (e.2.running.toList ++ e.2.queue ++ e.2.switched.map SavedStep.step).find? (fun st => decide (st.ctx = ctx)))

/-- The context entry and the panel entry that hold for a context: those that its step read at its start until the step ends, the
present ones without a step (01 R21, R22; R246). -/
def State.ctxNow (s : State) (ctx : Nat) : CtxFields × PanelFields :=
  match s.stepOf ctx with
  | some st => (st.f, st.entry)
  | none => ((s.ctx ctx).f, (s.panel (s.ctx ctx).f.panel.toNat).entry)

/-- The panel of a context, by the entry that holds for it. -/
def State.panelNow (s : State) (ctx : Nat) : Nat := (s.ctxNow ctx).1.panel.toNat

/-- A context is of class 0 and its panel is admitted. -/
def State.admittedCtx (s : State) (ctx : Nat) : Bool :=
  decide ((s.ctxNow ctx).1.cls = 0) && (s.panel (s.panelNow ctx)).admitted

/-- The panel entry that holds for a panel: what its running step read at its start, the present one without a step (01 R22). -/
def State.entryNow (s : State) (k : Nat) : PanelFields :=
  match (s.panel k).running with
  | some st => st.entry
  | none => (s.panel k).entry

/-- The key of window `w` of function `fn` (R294). -/
def winKey (fn w : Nat) : Nat := fn * 256 + w

/-- The window of a key. -/
def State.window (s : State) (k : Nat) : Window := Tab.get {} s.cmd.windows k

/-- Change the window of a key. -/
def State.modWindow (s : State) (k : Nat) (f : Window → Window) : State :=
  { s with cmd := { s.cmd with windows := Tab.modify {} s.cmd.windows k f } }

/-- Key slot `i`. -/
def State.slot (s : State) (i : Nat) : KeySlot := Tab.get {} s.sec.slots i

/-- Change key slot `i`. -/
def State.modSlot (s : State) (i : Nat) (f : KeySlot → KeySlot) : State :=
  { s with sec := { s.sec with slots := Tab.modify {} s.sec.slots i f } }

/-- Physical port `p` with its logical port: the identity at cold reset (R357). -/
def State.port (s : State) (p : Nat) : Port := Tab.get {} s.lnk.ports p

/-- Change physical port `p`. -/
def State.modPort (s : State) (p : Nat) (f : Port → Port) : State :=
  { s with lnk := { s.lnk with ports := Tab.modify {} s.lnk.ports p f } }

/-- Selector `h`. -/
def State.selector (s : State) (h : Nat) : Selector := Tab.get {} s.kvs h

/-- Change selector `h`. -/
def State.modSelector (s : State) (h : Nat) (f : Selector → Selector) : State :=
  { s with kvs := Tab.modify {} s.kvs h f }

/-- The physical core that holds logical id `l` in some panel's pairing (R88). -/
def State.physOf (s : State) (l : Nat) : Option Nat :=
  (List.range 160).find? (fun p => decide ((s.core p).logical = l) && decide (l < 144))

/-- The exit of the module from M-IDLE or M-PARK starts (15 R407). -/
def State.wakeModule (s : State) : State :=
  if s.gov.mState = .active ∧ s.gov.mTarget = none then s
  else { s with gov := { s.gov with mTarget := some .active } }

/-- A doorbell, a queued step or a link message starts the exit of a panel's cores, and of the module, from a deeper power state
(15 R407). A panel whose cores leave C3 takes its turn behind those that leave it already (15 R402). Log entry 61. -/
def State.wakePanel (s : State) (k : Nat) : State :=
  let deep := (Tab.keys s.cores).any (fun p => decide ((s.core p).panel = some k) && decide ((s.core p).cState = 3))
  let s := if deep && !s.gov.waking.contains k then { s with gov := { s.gov with waking := s.gov.waking ++ [k] } } else s
  (((Tab.keys s.cores).filter (fun p => decide ((s.core p).panel = some k) && (decide ((s.core p).cState ≠ 0) ||
    (s.core p).cTarget.isSome))).foldl (fun s p => s.modCore p (fun c => { c with cTarget := some 0 })) s).wakeModule

/-! ## Counters (R524) -/

/-- PF BAR0 offset of a register of core `p` (R519). -/
def coreReg (p off : Nat) : Nat := 0x400000 + p * 0x4000 + off
/-- PF BAR0 offset of a register of slice `p`. -/
def sliceReg (p off : Nat) : Nat := 0x800000 + p * 0x4000 + off
/-- PF BAR0 offset of a register of HBM controller `h`. -/
def hbmReg (h off : Nat) : Nat := 0x1000000 + h * 0x10000 + off
/-- PF BAR0 offset of a register of cache slice `h`. -/
def mscReg (h off : Nat) : Nat := 0x1400000 + h * 0x10000 + off
/-- PF BAR0 offset of a register of the page walker. -/
def xlReg (off : Nat) : Nat := 0x1800000 + off
/-- PF BAR0 offset of a register of selector `h`. -/
def kvsReg (h off : Nat) : Nat := 0x1C00000 + h * 0x10000 + off
/-- PF BAR0 offset of a register of the expert dispatch unit. -/
def eduReg (off : Nat) : Nat := 0x2000000 + off
/-- PF BAR0 offset of a register of link port `p`. -/
def portReg (p off : Nat) : Nat := 0x2400000 + p * 0x100 + off
/-- PF BAR0 offset of a common link register. -/
def lnkReg (off : Nat) : Nat := 0x2408000 + off
/-- PF BAR0 offset of a routing register. -/
def rteReg (off : Nat) : Nat := 0x2800000 + off
/-- PF BAR0 offset of a host interface register. -/
def hifReg (off : Nat) : Nat := 0x2C00000 + off
/-- PF BAR0 offset of a command processor register. -/
def cmdReg (off : Nat) : Nat := 0x3000000 + off
/-- PF BAR0 offset of a register of panel `k`. -/
def panelReg (k off : Nat) : Nat := 0x3001000 + k * 0x100 + off
/-- PF BAR0 offset of a governor register. -/
def govReg (off : Nat) : Nat := 0x3400000 + off
/-- PF BAR0 offset of a security register. -/
def secReg (off : Nat) : Nat := 0x3C00000 + off
/-- PF BAR0 offset of a reliability register. -/
def relReg (off : Nat) : Nat := 0x4000000 + off
/-- PF BAR0 offset of a reset and recovery register. -/
def rstReg (off : Nat) : Nat := 0x4400000 + off

/-- Raise the 64-bit counter at a PF BAR0 offset by `n`; it wraps at 2^64. -/
def State.count (s : State) (off n : Nat) : State :=
  { s with counters := Tab.modify 0 s.counters off (fun v => v + BitVec.ofNat 64 n) }

/-- The value of the counter at a PF BAR0 offset. -/
def State.counter (s : State) (off : Nat) : W64 := Tab.get 0 s.counters off

/-- Charge an amount to a context, at the byte offset of its accounting block (13 R350); it counts there once the step's
record is written. -/
def State.charge (s : State) (ctx off n : Nat) : State :=
  s.modCtx ctx (fun c => { c with usage := Tab.modify 0 c.usage off (fun v => v + n) })

/-! ## Events (R11, R491) -/

/-- Keep the newest 4,096 entries of the event log. -/
def keepEvents (l : List Event) : List Event := (l.reverse.take 4096).reverse

/-- Raise an event: an entry of the log with the next sequence number. The spec gives no event's argument: a free
value. Log entry 4. -/
def State.event (s : State) (code : Nat) : State :=
  { s with
    draws := s.draws + 1,
    mgt := { s.mgt with
      events := keepEvents (s.mgt.events ++
        [{ seq := s.mgt.eventSeq, code := BitVec.ofNat 16 code, arg := Config.eventArg s.draws, time := s.clk.now }]),
      eventSeq := s.mgt.eventSeq + 1 } }

/-- Raise an event at most once per millisecond. -/
def State.eventPerMs (s : State) (code : Nat) : State :=
  let s1 := s.event code
  let s2 := { s1 with mgt := { s1.mgt with evtLast := Tab.set s1.mgt.evtLast code s.time } }
  match Tab.find s.mgt.evtLast code with
  | some t => if s.time < t + 1000000 then s else s2
  | none => s2

/-! ## The freeze unit (R25, R417 to R420) -/

/-- The subsystem of a violation code (R11). -/
def subsystemOf (code : Nat) : Nat := code / 2048

/-- Open the claim window of a context for a freeze record, unless a window, a claim or a recovery of it stands
already (R420). -/
def Ctx.openClaim (c : Ctx) (code : Nat) : Ctx :=
  if c.claimOpen || c.claimed || c.recovering then c
  else { c with claimOpen := true, claimCode := BitVec.ofNat 16 code }

/-- The place of a record among the unread ones: after every record of an earlier time, and among those of its own time by
subsystem, then by master (R25). -/
def placeFreeze (l : List FreezeRec) (r : FreezeRec) : List FreezeRec :=
  let before (x : FreezeRec) : Bool :=
    decide (x.time ≠ r.time) || decide (x.subsystem < r.subsystem) ||
    (decide (x.subsystem = r.subsystem) && decide (x.master ≤ r.master))
  let later := (l.reverse.takeWhile (fun x => !before x)).reverse
  l.take (l.length - later.length) ++ r :: later

/-- Post a record to the freeze unit. A record that finds 128 unread ones is counted, and the event is raised once
for each period of fullness (R25, R419). A record with a context opens its claim window (R420). -/
def State.postFreeze (s : State) (sub master code : Nat) (cx : Option (Nat × BitVec 8)) : State :=
  let rec' : FreezeRec :=
    { time := s.clk.now, subsystem := sub, master := master, code := BitVec.ofNat 16 code,
      ctx := (cx.getD (0, 0)).1, gen := (cx.getD (0, 0)).2, ctxValid := cx.isSome }
  let s1 :=
    if s.rel.frozen.length < 128 then { s with rel := { s.rel with frozen := placeFreeze s.rel.frozen rec' } }
    else
      let s' := s.count (relReg 0x148) 1
      if s.rel.overflowRaised then s'
      else { s'.event 0x8007 with rel := { s'.rel with overflowRaised := true } }
  match cx with
  | some (i, _) => s1.modCtx i (fun c => c.openClaim code)
  | none => s1

/-- Freeze core `p` with a violation code: it halts itself and posts its record with the context and the tag of the
step that ran on it (R25, R419). -/
def State.freezeCore (s : State) (p code : Nat) : State :=
  (s.modSeq p (fun q => { q with state := .frozen })).postFreeze (subsystemOf code) p code
    (some ((s.core p).ctx, (s.core p).gen))

/-- The sequencer pair of core `p` freezes the core, with the address of the offending instruction (R86). -/
def State.freezeSeq (s : State) (p code : Nat) : State :=
  (s.freezeCore p code).modSeq p
    (fun q => { q with faultCode := BitVec.ofNat 16 code, faultPc := (s.core p).seq.pc, held := none })

/-- The core runs, or drains after HALT: engines of a core that is frozen start no entry (R85). -/
def Core.isFrozen (c : Core) : Bool := c.seq.state = .frozen

/-- Core `p` is clocked: the die is powered, the core's island has powered up and is not held (R29, 15 R401). -/
def State.clocked (s : State) (p : Nat) : Bool :=
  decide (p < 160) && s.pins.dieOn && decide (12 + p / 8 < s.clk.groupsUp) && !(s.clk.held.contains p)

/-- Core `p` is held off: a spare that no panel holds, or a retired core that its panel has let go (06 R154, 16 R433). -/
def State.heldOff (s : State) (p : Nat) : Bool :=
  (s.pins.spares.contains p || (s.core p).retired) && (s.core p).panel.isNone

/-- The power-up group of an island (15 R401). -/
def groupOfIsland (i : Nat) : Nat :=
  if i < 160 then 12 + i / 8
  else if i < 208 then 6 + (i - 160) / 8
  else if i < 224 then 2 + (i - 208) / 8
  else if i < 232 then 4
  else if i < 240 then 5
  else (i - 240) / 8

/-- Island `i` is clocked: the die is powered, the island's power-up group is up and its clock is not held (R29, R30, 15 R401). The core
islands are those of `clocked`. -/
def State.islandOn (s : State) (i : Nat) : Bool :=
  s.pins.dieOn && decide (groupOfIsland i < s.clk.groupsUp) && !(s.clk.held.contains i)

/-- The clock of an island is not held, so that it takes a register write (R29). -/
def State.runsFree (s : State) (i : Nat) : Bool := !(s.clk.held.contains i)

/-- The island of the command processor that serves a panel is clocked (R27, R304); a core of no panel is processor 0's. -/
def State.cmdIsland (s : State) (panel : Option Nat) : Bool := s.islandOn (246 + panel.getD 0 % 2)

/-- No island between the command processor and the HBM is held: rows of the gallery network, HBM controllers and cache slices. The command
processor's reads and writes stall while one is (R20, R29). Log entry 71. -/
def State.memFree (s : State) : Bool := s.clk.held.all (fun i => decide (i < 208) || decide (240 ≤ i))

/-- The command processor of a panel is clocked and reaches the memory of the module. -/
def State.cmdMem (s : State) (panel : Option Nat) : Bool := s.cmdIsland panel && s.memFree

/-- The power state of core `p`: a core of no panel is held in C3 (R405). -/
def State.corePower (s : State) (p : Nat) : Nat := if (s.core p).panel.isNone then 3 else (s.core p).cState

/-- Note progress on a core of a panel for its watchdog (R421). -/
def State.progress (s : State) (p : Nat) : State :=
  match (s.core p).panel with
  | some k => s.modPanel k (fun pn => { pn with progress := s.time })
  | none => s

/-! ## Issue windows (R117) -/

/-- Cycle `c` of a window permits an admission under the issue limit `l` (R117). -/
def permittedCycle (l c : Nat) : Bool := decide (c * l / 64 < (c + 1) * l / 64)

/-! ## Locked fields (R487) -/

/-- A PF write reached a locked field: the event, the record of the writer, and the freeze of the PF. -/
def State.pfLocked (s : State) (off : Nat) : State :=
  let s1 := s.event 1
  let s2 := { s1 with mgt := { s1.mgt with lockedOffset := off, lockedWriter := 0, lockedOpcode := 0, lockedValid := true } }
  let s3 := s2.postFreeze 11 0 0x5820 none
  { s3 with hif := { s3.hif with frozen := s3.hif.frozen ++ [0] } }

/-- Lock group 0 paging or 1 power is set. -/
def State.locked (s : State) (group : Nat) : Bool := bitAt s.mgt.locks.toNat group

/-! ## Retirement (R433, R434, R436) -/

/-- Place a core first in the canary rotation. -/
def State.canaryLead (s : State) (p : Nat) : State :=
  { s with rel := { s.rel with canaryFirst := p :: s.rel.canaryFirst.filter (fun q => decide (q ≠ p)) } }

/-- A core is paired in some panel's entry. -/
def State.isPaired (s : State) (p : Nat) : Bool := s.cmd.panels.any (fun e => e.2.pairing.any (fun x => decide (x.2 = p)))

/-- The lowest-numbered spare core that has passed its latest canary. -/
def State.nextSpare (s : State) (taken : List Nat := []) : Option Nat :=
  (List.range 160).find? (fun p => s.pins.spares.contains p && s.rel.canaryPassed.contains p && !(s.core p).retired &&
    !s.isPaired p && !taken.contains p)

/-- A panel's pairing after its core `p` is retired: a spare takes the logical id, or the id has no physical core. -/
def Panel.replaceCore (pn : Panel) (p : Nat) (spare : Option Nat) : Panel :=
  match pn.pairing.find? (fun x => decide (x.2 = p)) with
  | none => pn
  | some (l, _) =>
    { pn with needsReset := true, pairing := match spare with
        | some q => Tab.set pn.pairing l q
        | none => Tab.erase pn.pairing l }

/-- Every tile of a slice is off and holds nothing (R154, R166). -/
def Slice.allOff (sl : Slice) : Slice :=
  { sl with tiles := (List.range 32).map (fun t => (t, TileState.off)), mem := [], bad := [], weak := [], undefReads := [],
            undefB := [], parked := [] }

/-- A core leaves its panel for good: it has no logical id (R88), and its slice is held off (R154). -/
def Core.letGo (c : Core) : Core := { c with logical := 0xFF, panel := none, slice := c.slice.allOff }

/-- Retire a core: it is held off, after the running step of its panel where there is one, and never returns; a spare takes its place
at the panel's next reset. -/
def State.retireCore (s : State) (p : Nat) : State :=
  if (s.core p).retired then s
  else
    let s1 := { s with rel := { s.rel with
      retired := s.rel.retired ++ [p], canaryFirst := s.rel.canaryFirst.filter (fun q => decide (q ≠ p)) } }
    let running := match (s.core p).panel with
      | some k => (s.panel k).running.isSome
      | none => false
    let s2 := s1.modCore p (fun c => if running then { c with retired := true } else { c with retired := true }.letGo)
    let spare := s2.nextSpare
    let s3 := { s2 with cmd := { s2.cmd with panels := s2.cmd.panels.map (fun (e : Nat × Panel) => (e.1, e.2.replaceCore p spare)) } }
    (s3.count (relReg 0x150) 1).event 0x8005

/-! ## Host access (R417, R471, R504 to R506) -/

/-- The BARs of function `fn` take accesses: the die is powered and out of reset, PCIe is up and its island clocked, the function is the
PF or an enabled VF, and it is neither frozen nor in D3hot. -/
def State.barOpen (s : State) (fn : Nat) : Bool :=
  decide (fn ≤ s.hif.numVfs) && s.islandOn 240 && !s.pins.perst && !(s.hif.frozen.contains fn) &&
  !(s.hif.d3hot.contains fn)

/-- A posted write to a board peer has not been committed yet, or an access waits behind one (08 R222). -/
def State.hostWaits (s : State) : Bool := s.hif.peer.any (fun q => q.write) || !s.hif.deferred.isEmpty

/-- A host access `i` waits, in its order of arrival. -/
def State.deferHost (s : State) (i : Instr) : State := { s with hif := { s.hif with deferred := s.hif.deferred ++ [i] } }

/-- A host access `i` with the effect `f` takes effect once every posted write that arrived before it is committed, and the host interface's
island is not held; until then it waits in its order of arrival (01 R29, 08 R222). -/
def State.afterPosted (s : State) (i : Instr) (f : State → Answer) : Answer :=
  if s.hostWaits || !s.runsFree 240 then .next (s.deferHost i) else f s

/-- A host access `i` that goes to some islands: while the clock of one of them is held it stalls at the handshake into it, and so do the
accesses behind it (01 R29, R30). -/
def State.hostTo (s : State) (i : Instr) (islands : List Nat) (f : State → Answer) : Answer :=
  s.afterPosted i (fun s => if islands.all s.runsFree then f s else .next (s.deferHost i))

/-- The core is idle or frozen, so that its control registers may be written (R91, R124, R167). -/
def Core.settled (c : Core) : Bool := c.seq.state = .idle || c.seq.state = .frozen

/-! ## The ports of a slice (R165 to R168) -/

/-- The state of tile `t`; an unlisted tile is on (R181). -/
def Slice.tile (sl : Slice) (t : Nat) : TileState := Tab.get .on sl.tiles t

/-- Tile `t` is on. -/
def Slice.tileIsOn (sl : Slice) (t : Nat) : Bool := sl.tile t = .on

/-- Every tile that a range of bytes touches is on, and the range lies in the slice. -/
def Slice.rangeOn (sl : Slice) (off n : Nat) : Bool :=
  decide (off + n ≤ 0x200000) &&
    (n = 0 || ((List.range ((off + n - 1) / 65536 - off / 65536 + 1)).all
      (fun i => sl.tileIsOn (off / 65536 + i))))

/-- The first uncorrectable word, by word number, that a range of bytes touches (R165). -/
def Slice.badIn (sl : Slice) (off n : Nat) : Option Nat :=
  sl.bad.find? (fun w => decide (w * 64 < off + n) && decide (off < w * 64 + 64))

/-- The bytes of a range. -/
def Slice.bytes (sl : Slice) (off n : Nat) : List Byte := Mem.readN sl.mem off n

/-- The bytes `old` at address `at'` after a write of `bs` at `off`. -/
def laidOver (at' : Nat) (old : List Byte) (off : Nat) (bs : List Byte) : List Byte :=
  old.mapIdx (fun i b => if off ≤ at' + i then (bs[at' + i - off]?).getD b else b)

/-- Write bytes. A write of a whole word makes an uncorrectable word good again (R165). -/
def Slice.write (sl : Slice) (off : Nat) (bs : List Byte) : Slice :=
  { sl with
    mem := Mem.writeN sl.mem off bs,
    bad := sl.bad.filter (fun w => !(decide (off ≤ w * 64) && decide (w * 64 + 64 ≤ off + bs.length))),
    weak := sl.weak.filter (fun q => !(decide (q * 16 < off + bs.length) && decide (off < q * 16 + 16))),
    kept := sl.kept.map (fun k => (k.1, laidOver (k.1 * 64) k.2 off bs)) }

/-- Write a list of ranges in order. -/
def Slice.writeAll (sl : Slice) (ws : List (Nat × List Byte)) : Slice :=
  ws.foldl (fun sl w => sl.write w.1 w.2) sl

/-- The words that a range of bytes touches and in which a read corrects an error (R165). -/
def Slice.weakIn (sl : Slice) (off n : Nat) : List Nat :=
  ((sl.weak.map (fun q => q / 4)).filter (fun w => decide (w * 64 < off + n) && decide (off < w * 64 + 64) && !sl.bad.contains w)).dedup

/-- Errors come to stand in slice words, by 16 B quarter: a correctable one in the quarter, an uncorrectable one in its word (R165). -/
def Slice.found (sl : Slice) (fs : Finds) : Slice :=
  fs.foldl (fun sl f =>
    if 131072 ≤ f.1 then sl
    else if f.2 then { sl with bad := if sl.bad.contains (f.1 / 4) then sl.bad else f.1 / 4 :: sl.bad }
    else { sl with weak := if sl.weak.contains f.1 then sl.weak else f.1 :: sl.weak }) sl

/-- Count the reads of slice `p` that corrected an error: SPM_CORRECTED (R165). -/
def State.noteReads (s : State) (p : Nat) (rs : List (Nat × Nat)) : State :=
  let n := (rs.map (fun r => ((s.core p).slice.weakIn r.1 r.2).length)).sum
  if n = 0 then s else s.count (sliceReg p 0x110) n

/-- Note an uncorrectable read of word `w` of slice `p` (R165). -/
def State.noteBad (s : State) (p w : Nat) : State :=
  ((s.modSlice p (fun sl => { sl with errWord := w * 64, errValid := true })).count (sliceReg p 0x118) 1).event 0x1012

/-- Note a refused access to slice `p` (R168). -/
def State.noteRefused (s : State) (p : Nat) : State := s.count (sliceReg p 0x128) 1

/-- Note an access that the secure mark refuses (R175). -/
def State.noteSecure (s : State) (p : Nat) : State := (s.noteRefused p).event 0x1015

/-- What a port A access of an engine meets: nothing, a tile that is not on, or an uncorrectable word. -/
inductive PortCheck where
  | ok | refused | bad (word : Nat)
  deriving DecidableEq, Repr

/-- Check the reads and the writes of an engine instruction in order. -/
def Slice.portCheck (sl : Slice) (reads writes : List (Nat × Nat)) : PortCheck :=
  if (reads ++ writes).all (fun r => sl.rangeOn r.1 r.2) then
    match reads.findSome? (fun r => sl.badIn r.1 r.2) with
    | some w => .bad w
    | none => .ok
  else .refused

/-! ## Arrival counters (R70, R71, R177) -/

/-- Arrival counter `c` of core `p`. -/
def State.arrival (s : State) (p : Nat) (c : BitVec 8) : Half := Tab.get 0 (s.core p).slice.arrival c.toNat

/-- Set arrival counter `c` of core `p`. -/
def State.setArrival (s : State) (p : Nat) (c : BitVec 8) (v : Half) : State :=
  s.modSlice p (fun sl => { sl with arrival := Tab.set sl.arrival c.toNat v })

/-- Raise arrival counter `c` of core `p` by 1, modulo 65,536. -/
def State.raiseCtr (s : State) (p : Nat) (c : BitVec 8) : State := s.setArrival p c (s.arrival p c + 1)

/-- The wait condition of R70: (count - v) mod 65,536 is below 32,768. -/
def waitHolds (count v : Half) : Bool := decide ((count - v).toNat < 32768)

/-- The wait of an instruction is met on core `p` (R70, R75). -/
def State.waitMet (s : State) (p : Nat) (h : InsnHdr) : Bool :=
  !h.wait || waitHolds (s.arrival p h.waitCtr) h.waitValue

/-- A class-0 step waits in a ring of a context of panel `k` (13 R339): in the ring, or fetched while no step of the panel runs. -/
def State.c0Waits (s : State) (k : Nat) : Bool :=
  s.cmd.windows.any (fun e => match e.2.ctx with
    | some c => decide ((s.ctx c).f.panel.toNat = k) && decide ((s.ctx c).f.cls = 0) &&
        (decide (e.2.stepHead ≠ e.2.stepTail) || (e.2.stepPkt.isSome && (s.panel k).running.isNone))
    | none => false)

/-- The scrubber and the tests stay off the resources of panel `k`: it is admitted, and a declared window is open or a class-0 step waits
(13 R339). -/
def State.c0Keeps (s : State) (k : Nat) : Bool := (s.panel k).admitted && ((s.panel k).windowOpen || s.c0Waits k)

/-- The background row test stays off the slice of core `p` (06 R171, 13 R339). -/
def State.testHeld (s : State) (p : Nat) : Bool := match (s.core p).panel with
  | some k => s.c0Keeps k
  | none => false

/-- Raise the signal of an instruction that completes (R76). -/
def State.signal (s : State) (h : InsnHdr) : State := if h.signal then s.raiseCtr h.core h.signalCtr else s

end Sys2Proof.Machine
end

