-- ==== Sys2Proof/Machine/Rings.lean ====
section
/-! DEFINITION. Command windows and rings (12 R294 to R305): doorbells, ring configuration, packet fetch and checks,
records and notices in the completion queue, ring errors. A record or notice is emitted as its 32 B memory write. -/

namespace Sys2Proof.Machine

/-! ## The completion queue (R298, R312 to R317) -/

/-- The completion queue is full (R298). -/
def Window.cqFull (w : Window) : Bool := (w.cqTail + 1) % 2 ^ w.cqLog = w.cqHead

/-- A packet of either ring may start: the queue is not full and holds nothing back (R298). -/
def Window.canStart (w : Window) : Bool := !w.cqFull && w.held.isEmpty

/-- No started packet remains and every record is written (R299). -/
def Window.quiesced (w : Window) : Bool := w.stepPkt.isNone && w.svcPkt.isNone && w.held.isEmpty

/-- Raise an MSI-X vector of a function, where MSI-X is enabled there (R294). -/
def State.msix (s : State) (fn vector : Nat) : State :=
  if s.hif.msixOn.contains fn then s.emit (.msix fn vector) else s

/-- The vector is raised for a record whose packet set irq or whose status is not ST_OK, and for a notice, when irq_en
is 1 (R327). -/
def CqItem.wantsIrq (i : CqItem) : Bool :=
  match i with
  | .record r irq _ => irq || decide (r.status ≠ 0)
  | .notice _ => true

/-- Advance the completion tail; the phase inverts when it wraps to 0 (R298). -/
def Window.advance (w : Window) : Window :=
  let t := (w.cqTail + 1) % 2 ^ w.cqLog
  { w with cqTail := t, phase := if t = 0 then !w.phase else w.phase }

/-- Bytes 6 and 7 of a record: the context and the kind (R312). -/
def ctxKind (ctx kind : Nat) : List Byte := leBytes 2 (ctx % 1024 + kind * 1024)

/-- The 32 B of a completion record (R312). -/
def Record.bytes (r : Record) (phase : Bool) : List Byte :=
  leBytes 4 r.tag.toNat ++ leBytes 2 r.status.toNat ++ ctxKind r.ctx r.kind ++ leBytes 8 r.start.toNat ++
  leBytes 4 r.duration.toNat ++ leBytes 4 r.energy.toNat ++ leBytes 2 r.grantWait.toNat ++ leBytes 2 r.refused.toNat ++
  leBytes 3 r.flags.toNat ++ leBytes 1 (boolNat r.service + 128 * boolNat phase)

/-- The 32 B of a notice (R316, R317). -/
def Notice.bytes (n : Notice) (phase : Bool) : List Byte :=
  match n with
  | .halt tag ctx time f core =>
    leBytes 4 tag.toNat ++ zeros 2 ++ ctxKind ctx 2 ++ leBytes 8 time.toNat ++ leBytes 6 f.addr ++
    leBytes 1 (f.kind % 16 + 16 * boolNat f.localAddr + 32 * boolNat f.dir) ++ leBytes 1 core ++ leBytes 4 f.pos ++ zeros 3 ++
    leBytes 1 (128 * boolNat phase)
  | .pageIn number ctx time first entries slot tag truncated =>
    leBytes 4 number ++ zeros 2 ++ ctxKind ctx 1 ++ leBytes 8 time.toNat ++ leBytes 4 first ++ leBytes 2 entries ++ leBytes 2 slot ++
    leBytes 4 tag.toNat ++ leBytes 3 (boolNat truncated) ++ leBytes 1 (128 * boolNat phase)

/-- The bytes of an item. -/
def CqItem.bytes (i : CqItem) (phase : Bool) : List Byte :=
  match i with
  | .record r _ _ => r.bytes phase
  | .notice n => n.bytes phase

/-- The host address of the completion tail. -/
def Window.cqAddr (w : Window) : W64 := w.cqBase + BitVec.ofNat 64 (32 * w.cqTail)

/-- Raise E_CMD_CQ_FULL once for each period of fullness (R298). -/
def State.noteFull (s : State) (k : Nat) : State :=
  if (s.window k).cqFull && !(s.window k).fullRaised then
    (s.event 0x6001).modWindow k (fun w => { w with fullRaised := true })
  else s

/-- The duration field: ns from a start until now, holding at its maximum (R312). -/
def State.since (s : State) (start : W64) : W32 := BitVec.ofNat 32 (min 0xFFFFFFFF (s.time - start.toNat))

/-- An item as it is issued now: the duration of a record runs until its issue, also where it was held (R312). -/
def State.issued (s : State) (i : CqItem) : CqItem :=
  match i with
  | .record r irq slots => .record { r with duration := s.since r.start } irq slots
  | .notice n => .notice n

/-- Write an item at the completion tail, as one memory write of 32 B (R298, R312, R316, R317, R324). -/
def State.writeItem (s : State) (k : Nat) (i : CqItem) : State :=
  let w := s.window k
  let s0 := s.emit (.hostBytes w.cqAddr ((s.issued i).bytes w.phase))
  let s1 := match i with
    | .record _ _ slots =>
      (s0.count (cmdReg 0x110) 1).modWindow k (fun w => { w with consumed := w.consumed + BitVec.ofNat 32 slots })
    | .notice _ => s0.count (cmdReg 0x118) 1
  let s2 := s1.modWindow k (fun w => w.advance)
  (if w.irqEn && i.wantsIrq then s2.msix (k / 256) (k % 256) else s2).noteFull k

/-- The function of a window is in D3hot, so that the module writes nothing for it (19 R506). -/
def State.asleep (s : State) (k : Nat) : Bool := s.hif.d3hot.contains (k / 256)

/-- Write an item, or hold it in order while the queue is full (R298) or the function is in D3hot (19 R506). -/
def State.putItem (s : State) (k : Nat) (i : CqItem) : State :=
  if (s.window k).canStart && !s.asleep k then s.writeItem k i
  else s.modWindow k (fun w => { w with held := w.held ++ [i] })

/-- Write held items while there is space. -/
def State.drainHeld (s : State) (k : Nat) (items : List CqItem) : State :=
  match items with
  | [] => s
  | i :: rest =>
    if (s.window k).cqFull then s
    else ((s.modWindow k (fun w => { w with held := rest })).writeItem k i).drainHeld k rest

/-- A ring error stops both rings, is recorded, and writes one record with tag 0xFFFF_FFFF (R300). -/
def State.ringError (s : State) (k : Nat) (status : Half) (service : Bool) : State :=
  let s1 := s.modWindow k (fun w => { w with error := true, errStatus := status, errRing := service })
  let s2 := s1.putItem k (.record
    { tag := 0xFFFFFFFF, status := status, ctx := (s.window k).ctx.getD 0, start := s.clk.now, duration := 0,
      service := service } false 0)
  (s2.event 0x6003).count (cmdReg 0x128) 1

/-- The packet of a ring ends with a status and, for a service packet, a done count: its record is written and the
ring is free for the next packet (R303, R312, R324). -/
def State.endPacket (s : State) (k : Nat) (service : Bool) (p : Packet) (status : Half) (done : Nat := 0) : State :=
  let s1 := s.modWindow k (fun w => if service then { w with svcPkt := none } else { w with stepPkt := none })
  s1.putItem k (.record
    { tag := p.tag, status := status, ctx := (s.window k).ctx.getD 0, start := p.start, duration := s.since p.start,
      grantWait := BitVec.ofNat 16 done, service := service } p.irq (if service then 0 else p.slots))

/-! ## Doorbells (R294, R297, R298, R300) -/

/-- A doorbell finds its window able to take it: bound, enabled, without error, and the module out of HOLD (R300,
R471). -/
def Window.takesDb (w : Window) : Bool := w.ctx.isSome && w.enable && !w.error

/-- A doorbell to an unbound window raises E_CMD_DB_UNBOUND once until the window is next bound (R294). -/
def State.unboundDb (s : State) (k : Nat) : State :=
  if (s.window k).dbRaised then s else (s.event 0x6002).modWindow k (fun w => { w with dbRaised := true })

/-- The context bound to a window ignores doorbells: a removal of its tenant runs (17 R465). -/
def State.deafWindow (s : State) (k : Nat) : Bool :=
  match (s.window k).ctx with
  | some c => (s.ctx c).ignoreDb
  | none => false

/-- A doorbell that announces `n` new slots of a ring stands behind the earlier ones whose slots are not yet read (R305). -/
def addDb (l : List (Nat × Nat)) (n t : Nat) : List (Nat × Nat) := if n = 0 then l else l ++ [(n, t)]

/-- The doorbells after `n` slots have been read. -/
def eatDbs (l : List (Nat × Nat)) (n : Nat) : List (Nat × Nat) :=
  match l with
  | [] => []
  | d :: rest => if n < d.1 then (d.1 - n, d.2) :: rest else eatDbs rest (n - d.1)

/-- The doorbell time of a ring's next slot. -/
def Window.dbTime (w : Window) (service : Bool) : Nat := (((if service then w.svcDbs else w.stepDbs).head?).map Prod.snd).getD 0

/-- The new tail of a ring (R297); a tail at or above the size is a ring error (R300). -/
def State.ringDb (s : State) (k : Nat) (service : Bool) (tail : Nat) : State :=
  let w := s.window k
  if (if service then 2 ^ w.svcLog else 2 ^ w.stepLog) ≤ tail then s.ringError k 0x0D00 service
  else s.modWindow k (fun w =>
    if service then { w with svcTail := tail, svcShort := false,
                             svcDbs := addDb w.svcDbs ((tail + 2 ^ w.svcLog - w.svcTail) % 2 ^ w.svcLog) s.time }
    else { w with stepTail := tail, stepShort := false,
                  stepDbs := addDb w.stepDbs ((tail + 2 ^ w.stepLog - w.stepTail) % 2 ^ w.stepLog) s.time })

/-- A write of a submission doorbell. -/
def State.submitDb (s : State) (fn window : Nat) (service : Bool) (value : W32) : State :=
  let k := winKey fn window
  if !(decide (window < 256) && s.barOpen fn) || s.mgt.state = .hold then s
  else if (s.window k).ctx.isNone then s.unboundDb k
  else if !(s.window k).takesDb || s.deafWindow k then s
  else (s.ringDb k service (value.toNat % 65536)).wakePanel (s.ctx ((s.window k).ctx.getD 0)).f.panel.toNat

/-- CMD_STEP_DB: the new step tail. -/
def execCmdStepDb (fn window : Nat) (value : W32) (s : State) : Answer :=
  s.hostTo (.cmdStepDb fn window value) [246] (fun s => .next (s.submitDb fn window false value))

/-- CMD_SVC_DB: the new service tail. -/
def execCmdSvcDb (fn window : Nat) (value : W32) (s : State) : Answer :=
  s.hostTo (.cmdSvcDb fn window value) [246] (fun s => .next (s.submitDb fn window true value))

/-- The new completion head: held records are then written, also after the rings have been stopped (R298 to R300). -/
def State.takeHead (s : State) (k head : Nat) : State :=
  let s1 := s.modWindow k (fun w => { w with cqHead := head })
  let s2 := s1.modWindow k (fun w => { w with fullRaised := w.fullRaised && w.cqFull })
  (s2.drainHeld k (s2.window k).held).noteFull k

/-- CMD_CQ_DB: the new completion head; a head at or above the size is ignored. -/
def execCmdCqDb (fn window : Nat) (value : W32) (s : State) : Answer :=
  s.hostTo (.cmdCqDb fn window value) [246] (fun s =>
    let k := winKey fn window
    let head := value.toNat % 65536
    if !(decide (window < 256) && s.barOpen fn) || s.mgt.state = .hold then .next s
    else if (s.window k).ctx.isNone then .next (s.unboundDb k)
    else if s.deafWindow k || decide (2 ^ (s.window k).cqLog ≤ head) then .next s
    else .next (s.takeHead k head))

/-! ## Configuration (R295, R299) -/

/-- The sizes lie in the ranges of R295. -/
def Window.sizesOk (w : Window) : Bool :=
  decide (7 ≤ w.stepLog ∧ w.stepLog ≤ 16) && decide (6 ≤ w.svcLog ∧ w.svcLog ≤ 12) &&
  decide (6 ≤ w.cqLog ∧ w.cqLog ≤ 16) && decide (6 ≤ w.noticeLog ∧ w.noticeLog ≤ 16)

/-- The window right after its rings are enabled (R299). -/
def Window.started (w : Window) (irq : Bool) : Window :=
  { w with enable := true, irqEn := irq, error := false, stepHead := 0, stepTail := 0, svcHead := 0, svcTail := 0,
           cqHead := 0, cqTail := 0, phase := true, consumed := 0, notices := 0, noticeIdx := 0,
           stepShort := false, svcShort := false, stepDbs := [], svcDbs := [], fullRaised := false }

/-- CMD_RING_CTRL_WRITE (R299): records that were held are written to the new queue, which has space (R298). -/
def execCmdRingCtrlWrite (fn window : Nat) (value : W32) (s : State) : Answer :=
  s.hostTo (.cmdRingCtrlWrite fn window value) [246] (fun s =>
    if !(decide (window < 256) && s.barOpen fn) then .next s
    else
      let k := winKey fn window
      let w := s.window k
      let en := bitAt value.toNat 0
      let irq := bitAt value.toNat 1
      if en && !w.enable then
        if w.sizesOk then .next (((s.modWindow k (fun w => w.started irq)).drainHeld k w.held).noteFull k)
        else .next (s.modWindow k (fun w => { w with irqEn := irq, error := true }))
      else .next (s.modWindow k (fun w => { w with enable := en, irqEn := irq })))

/-- A base register keeps bits [63:12] (R327). -/
def baseBits (v : W64) : W64 := v &&& 0xFFFFFFFFFFFFF000

/-- CMD_RING_CFG_WRITE: a base or size register, refused while the rings are enabled or not quiesced (R299). -/
def execCmdRingCfgWrite (fn window offset : Nat) (value : W64) (s : State) : Answer :=
  s.hostTo (.cmdRingCfgWrite fn window offset value) [246] (fun s =>
    let k := winKey fn window
    let w := s.window k
    if !(decide (window < 256) && s.barOpen fn) || !([0x10, 0x18, 0x20, 0x28, 0x30].contains offset) then .next s
    else if w.enable || !w.quiesced then .next (s.event 0x6004)
    else .next (s.modWindow k (fun w =>
      match offset with
      | 0x10 => { w with stepBase := baseBits value }
      | 0x18 => { w with svcBase := baseBits value }
      | 0x20 => { w with cqBase := baseBits value }
      | 0x28 => { w with noticeBase := baseBits value }
      | _ => { w with stepLog := bits value.toNat 4 0, svcLog := bits value.toNat 9 5,
                      cqLog := bits value.toNat 14 10, noticeLog := bits value.toNat 19 15 })))

/-! ## Packet fetch (R296, R297, R300 to R305) -/

/-- The class in which a context's packets are fetched: class 0 only while its panel is admitted (R14, R305, R341). -/
def State.classInForce (s : State) (c : Nat) : Nat :=
  let cls := (s.ctx c).f.cls.toNat
  if cls = 0 && !(s.panel (s.ctx c).f.panel.toNat).admitted then 1 else cls

/-- A ring's slots that are not yet read. -/
def Window.waiting (w : Window) (service : Bool) : Nat :=
  if service then (w.svcTail + 2 ^ w.svcLog - w.svcHead) % 2 ^ w.svcLog
  else (w.stepTail + 2 ^ w.stepLog - w.stepHead) % 2 ^ w.stepLog

/-- A ring of a window has a packet that the command processor may fetch (R297, R298, R300, R303). -/
def Window.fetchable (w : Window) (service : Bool) : Bool :=
  w.takesDb && w.canStart && decide (0 < w.waiting service) &&
  (if service then w.svcPkt.isNone && !w.svcShort else w.stepPkt.isNone && !w.stepShort)

/-- A ring has a packet to fetch, and its function is in D0 (19 R506). -/
def State.mayFetch (s : State) (k : Nat) (service : Bool) : Bool := (s.window k).fetchable service && !s.asleep k

/-- The fetch order of a ring: its class, then the doorbell of its next packet (R305). -/
def State.fetchRank (s : State) (k : Nat) (service : Bool) : Nat × Nat :=
  (s.classInForce ((s.window k).ctx.getD 0), (s.window k).dbTime service)

/-- The command processor that serves a window (R304). -/
def State.windowParity (s : State) (k : Nat) : Nat := (s.ctx ((s.window k).ctx.getD 0)).f.panel.toNat % 2

/-- No other ring of the same command processor comes before this one (R305). -/
def State.fetchFirst (s : State) (k : Nat) (service : Bool) : Bool :=
  let mine := s.fetchRank k service
  (Tab.keys s.cmd.windows).all (fun j => [false, true].all (fun v =>
    !(s.mayFetch j v && decide (s.windowParity j = s.windowParity k)) ||
    (let r := s.fetchRank j v
     decide (mine.1 < r.1) || (decide (mine.1 = r.1) && decide (mine.2 ≤ r.2)))))

/-- The operations of a ring (R302). -/
def opcodeOn (service : Bool) (op : Nat) : Bool :=
  if service then decide (0x0110 ≤ op ∧ op ≤ 0x0116) else decide (op = 0x0101 ∨ op = 0x0102)

/-- The status of a header check, 0 where it passes (R301, R302). -/
def headerStatus (h : List Byte) (service : Bool) (ctx cls : Nat) : Half :=
  let b10 := fieldAt h 10 1
  if !opcodeOn service (fieldAt h 0 2) then 0x0D01
  else if fieldAt h 8 2 % 1024 ≠ ctx ∨ bits (fieldAt h 8 2) 11 10 ≠ cls then 0x0D02
  else if bits (fieldAt h 8 2) 15 12 ≠ 0 ∨ bits b10 7 3 ≠ 0 ∨ !zeroAt h 12 4 ∨ !zeroAt h 32 32 ∨
      (!bitAt b10 0 && !zeroAt h 16 8) ∨ (!bitAt b10 1 && !zeroAt h 24 8) ∨
      (fieldAt h 0 2 = 0x0102 ∧ fieldAt h 2 2 ≠ 0) then 0x0002
  else 0

/-- Post a hint: the newest replaces the oldest of a panel's 16 (R24). -/
def State.postHint (s : State) (k : Nat) (h : Hint) : State :=
  let l := Tab.get [] s.gov.hints k ++ [h]
  { s with gov := { s.gov with hints := Tab.set s.gov.hints k (l.drop (l.length - 16)) } }

/-- The packet that a header and its parameters spell. -/
def packetOf (h params : List Byte) (slots cls doorbell : Nat) (start : W64) : Packet :=
  let b10 := fieldAt h 10 1
  { opcode := BitVec.ofNat 16 (fieldAt h 0 2), tag := BitVec.ofNat 32 (fieldAt h 4 4), irq := bitAt b10 2,
    slots := slots, params := params,
    nextEvent := if bitAt b10 0 then some (BitVec.ofNat 64 (fieldAt h 16 8)) else none,
    heavy := if bitAt b10 1 then some (fieldAt h 24 1, fieldAt h 25 3, fieldAt h 28 4) else none,
    cls := cls, doorbell := doorbell, start := start }

/-- Take the packet's slots, and what announced them, from its ring. -/
def Window.consume (w : Window) (service : Bool) (slots : Nat) : Window :=
  if service then { w with svcHead := (w.svcHead + slots) % 2 ^ w.svcLog, svcDbs := eatDbs w.svcDbs slots }
  else { w with stepHead := (w.stepHead + slots) % 2 ^ w.stepLog, stepDbs := eatDbs w.stepDbs slots }

/-- A packet starts: it is its ring's running packet, its panel notes its next event, and its hint is posted, for a
STEP_RUN at point 5 (R24, R301, R309). -/
def State.startPacket (s : State) (k : Nat) (service : Bool) (p : Packet) (ctx : Nat) : State :=
  let s1 := s.modWindow k (fun w => if service then { w with svcPkt := some p } else { w with stepPkt := some p })
  let pn := (s.ctx ctx).f.panel.toNat
  let s2 := s1.modPanel pn (fun pan => { pan with nextEvent := (p.nextEvent.getD 0).toNat })
  if p.opcode = 0x0101 ∨ (p.heavy.isNone ∧ p.nextEvent.isNone) then s2
  else s2.postHint pn { model := (s.ctx ctx).f.model, phase := p.heavy, nextEvent := p.nextEvent, posted := s.time }

/-- A header and its parameters have been read: the checks of R300 and R301, and the start. -/
def State.takePacket (s : State) (k : Nat) (service : Bool) (bs : List Byte) : State :=
  let w := s.window k
  let ctx := w.ctx.getD 0
  let len := fieldAt bs 2 2
  if fieldAt bs 11 1 ≠ 1 ∨ 4096 < len then s.ringError k 0x0D00 service
  else
    let slots := 1 + ceilDiv len 64
    if w.waiting service < slots then
      s.modWindow k (fun w => if service then { w with svcShort := true } else { w with stepShort := true })
    else
      let p := packetOf bs (padTo len (bs.drop 64)) slots (s.ctx ctx).f.cls.toNat
        (w.dbTime service) s.clk.now
      let s1 := (s.modWindow k (fun w => w.consume service slots)).count (cmdReg 0x100) 1
      let st := headerStatus bs service ctx (s.ctx ctx).f.cls.toNat
      if st ≠ 0 then s1.endPacket k service p st
      else s1.startPacket k service p ctx

/-- PACKET_FETCH: the command processor reads the slots of a ring's next packet; `read` is what the host's memory
answered (R296, R300, R301, R305). -/
def execPacketFetch (fn window : Nat) (service : Bool) (read : HostRead) (s : State) : Answer :=
  let k := winKey fn window
  if !(decide (window < 256) && s.islandOn (246 + s.windowParity k) && decide (s.mgt.state = .ready) && s.mayFetch k service &&
      s.fetchFirst k service) then .next s
  else match read with
    | .failed => .next (s.ringError k 0x0D06 service)
    | .ok bs => .next (s.takePacket k service bs)

/-- STEP_MARK: completes when reached (R302). -/
def execStepMark (fn window : Nat) (s : State) : Answer :=
  let k := winKey fn window
  match (s.window k).stepPkt with
  | some p => if p.opcode = 0x0102 && s.islandOn (246 + s.windowParity k) then .next (s.endPacket k false p 0) else .next s
  | none => .next s

/-- The service FENCE: it completes once the step ring has consumed its target (R324). -/
def execSvcFence (fn window : Nat) (s : State) : Answer :=
  let k := winKey fn window
  match (s.window k).svcPkt with
  | some p =>
    if !(p.opcode = 0x0115 && s.islandOn (246 + s.windowParity k)) then .next s
    else if p.params.length ≠ 4 then .next (s.endPacket k true p 0x0002)
    else if ((s.window k).consumed - BitVec.ofNat 32 (leNat p.params)).toNat < 2 ^ 31 then
      .next (s.endPacket k true p 0)
    else .next s
  | none => .next s

end Sys2Proof.Machine
end

