-- ==== Sys2Proof/Machine/Mailbox.lean ====
section
/-! DEFINITION. The mailbox's running command and its reply (18 R475, R493). Each command of the management plane has a row of its
own, which acts while its opcode is the running one. -/

namespace Sys2Proof.Machine

/-- The command that runs has opcode `op`, the management processor is up, and the island of the bridge and mailbox is not held (R29). -/
def State.mbxRuns (s : State) (op : Nat) : Bool := s.pins.standby && !(s.clk.held.contains 241) && s.mgt.mbxBusy && decide (s.mgt.mbxOpcode.toNat = op)

/-- The management processor runs: it has power and is out of reset (19 R502, R504). -/
def State.mgtUp (s : State) : Bool := s.pins.standby && s.pins.modEn && !s.pins.perst

/-- The management chain works: the island of the chain and the sideband is not held (R29). -/
def State.chainUp (s : State) : Bool := s.mgtUp && !(s.clk.held.contains 242)

/-- The running command's reply is complete: at BAR4 the response and MBX_RESULT are written, busy clears last, and vector 256 of the
PF is raised, once the PF is in D0 (19 R506); through another door the reply goes out there. In HOLD no memory write goes toward the host (R471). -/
def State.mbxReply (s : State) (status : Half) (data : List Byte := []) : State :=
  let s1 := { s with mgt := { s.mgt with mbxBusy := false } }
  match s.mgt.mbxDoor with
  | .bar4 =>
    let s2 := { s1 with mgt := { s1.mgt with
      mbxStatus := status, mbxRespLen := data.length, mbxResp := Mem.writeN s1.mgt.mbxResp 0x8000 data } }
    if s.mgt.state = .hold then s2
    else if s.hif.d3hot.contains 0 then { s2 with hif := { s2.hif with mbxIrqHeld := true } }
    else s2.msix 0 256
  | d => s1.emit (.mailboxReply d status data)

end Sys2Proof.Machine
end

