-- ==== Sys2Proof/Machine/Hbm.lean ====
section
/-! DEFINITION. HBM (09 R226 to R236, 16 R426 to R429): placement, the memory-side cache, encryption by key material,
poison and retirement. The cache shows only in counters and in the users of key generations: it is the home of each
word, so a word has one content (R206), kept with the number of the key material that wrote it. -/

namespace Sys2Proof.Machine

/-! ## Placement (R226) -/

/-- The first offset that is not addressable (R226). -/
def hbmSize : Nat := 0x5C00000000

/-- Channel set of an offset. -/
def chanSet (off : Nat) : Nat := off / 2097152 % 16

/-- Stack, controller and cache slice of an offset. -/
def stackOf (off : Nat) : Nat := chanSet off / 2

/-- Channel of an offset within its stack: 2 KiB granules rotate over the 16 channels of its set. -/
def chanOf (off : Nat) : Nat := 16 * (chanSet off % 2) + off / 2048 % 16

/-- The router row that reaches the channel of an offset, on its controller's edge (R32, R226). -/
def rowOfChan (off : Nat) : Nat := 4 * (stackOf off % 4) + chanOf off % 4

/-- 64 KiB frame of an offset. -/
def frameOf (off : Nat) : Nat := off / 65536

/-! ## Requests -/

/-- A request at an HBM controller: the key slot it carries, the generation and the material captured at its issue,
and the ways it may allocate in, 0 for none (R229, R231, R441). -/
structure HReq where
  slot : Nat
  gen : BitVec 8
  material : Nat
  ways : Nat
  deriving DecidableEq, Repr

/-- A request under the present generation of a slot. -/
def State.hreq (s : State) (slot ways : Nat) : HReq :=
  { slot := slot, gen := (s.slot slot).gen, material := (s.slot slot).material, ways := ways }

/-- The ways of the agents of the last row of R229 at the cache slice of an offset. -/
def State.sysWays (s : State) (off : Nat) : Nat := (Tab.get (0 : Half) s.msc.sysWays (stackOf off)).toNat

/-- A request of the module for its own structures: slot 0 (R231). -/
def State.sysReq (s : State) (off : Nat) : HReq := s.hreq 0 (s.sysWays off)

/-- The controller takes a request that names a memory slot of the tenant, and refuses any other (R441). -/
def State.memSlotOk (s : State) (slot tenant : Nat) : Bool :=
  decide ((s.slot slot).type = 1) && decide (slot ≠ 0) && decide ((s.slot slot).tenant = tenant)

/-! ## The cache (R228 to R230) -/

/-- The cache set of a line: its slice and its set there. -/
def mscSetOf (line : Nat) : Nat × Nat := (stackOf (line * 128), Config.mscSet line % 6144)

/-- How many sectors of a line are dirty. -/
def MscLine.dirtyCount (l : MscLine) : Nat := (l.dirty.filter id).length

/-- Take a line out, writing its dirty sectors back where `back`. -/
def State.mscDrop (s : State) (line : Nat) (back : Bool) : State :=
  match Tab.find s.msc.lines line with
  | none => s
  | some l =>
    let s1 := { s with msc := { s.msc with lines := Tab.erase s.msc.lines line } }
    let h := stackOf (line * 128)
    if back && decide (0 < l.dirtyCount) then
      (s1.count (mscReg h 0x110) 1).count (hbmReg h 0x108) (64 * l.dirtyCount)
    else s1

/-- The lines that stand in the set of a line. -/
def State.mscPeers (s : State) (line : Nat) : List (Nat × MscLine) :=
  s.msc.lines.filter (fun e => decide (mscSetOf e.1 = mscSetOf line))

/-- The older of two lines. -/
def olderLine (a : Option (Nat × MscLine)) (b : Nat × MscLine) : Option (Nat × MscLine) :=
  match a with
  | none => some b
  | some x => if b.2.stamp < x.2.stamp then some b else some x

/-- Make room for a line in the ways of a mask, and name its way: a free way, or the way of the least recently used
line, which is written back if dirty (R229). -/
def State.mscRoom (s : State) (line ways : Nat) : Nat × State :=
  let peers := s.mscPeers line
  match firstBelow 16 (fun w => bitAt ways w && peers.all (fun e => decide (e.2.way ≠ w))) with
  | some w => (w, s)
  | none =>
    match (peers.filter (fun e => bitAt ways e.2.way)).foldl olderLine none with
    | some e => (e.2.way, s.mscDrop e.1 true)
    | none => (0, s)

/-- Mark one of two sectors. -/
def markSector (l : List Bool) (i : Nat) : List Bool :=
  [l.getD 0 false || decide (i = 0), l.getD 1 false || decide (i = 1)]

/-- Install or touch a sector of a line, and give it the newest stamp. -/
def State.mscPut (s : State) (line sec : Nat) (l : MscLine) (write : Bool) : State :=
  { s with msc := { s.msc with
      clock := s.msc.clock + 1,
      lines := Tab.set s.msc.lines line
        { l with valid := markSector l.valid sec,
                 dirty := if write then markSector l.dirty sec else l.dirty,
                 stamp := s.msc.clock } } }

/-- The DRAM traffic of a request served directly: a partial write reads its word first. -/
def State.dramTouch (s : State) (h : Nat) (write full : Bool) : State :=
  let s1 := if !write || !full then s.count (hbmReg h 0x100) 64 else s
  if write then s1.count (hbmReg h 0x108) 64 else s1

/-- The DRAM traffic of a sector fill: a whole-word write forces none. -/
def State.fillTouch (s : State) (h : Nat) (write full : Bool) : State :=
  if write && full then s else s.count (hbmReg h 0x100) 64

/-- A miss of a line: it allocates where the request may, and is served from HBM otherwise (R229). -/
def State.mscMiss (s : State) (off : Nat) (r : HReq) (write full : Bool) : State :=
  let line := off / 128
  let h := stackOf off
  let s1 := s.count (mscReg h 0x108) 1
  if r.ways = 0 then s1.dramTouch h write full
  else
    let wr := s1.mscRoom line r.ways
    (wr.2.fillTouch h write full).mscPut line (off / 64 % 2)
      { slot := r.slot, gen := r.gen, valid := [false, false], dirty := [false, false], way := wr.1, stamp := 0 } write

/-- One request for one word at the cache slice: hit, key mismatch, or miss (R228 to R230). -/
def State.mscAccess (s : State) (off : Nat) (r : HReq) (write full : Bool) : State :=
  let line := off / 128
  let sec := off / 64 % 2
  let h := stackOf off
  match Tab.find s.msc.lines line with
  | some l =>
    if l.slot = r.slot ∧ l.gen = r.gen then
      if l.valid.getD sec false then (s.count (mscReg h 0x100) 1).mscPut line sec l write
      else if r.ways = 0 then (s.count (mscReg h 0x108) 1).dramTouch h write full
      else ((s.count (mscReg h 0x108) 1).fillTouch h write full).mscPut line sec l write
    else ((s.count (mscReg h 0x118) 1).mscDrop line true).mscMiss off r write full
  | none => s.mscMiss off r write full

/-- Drop every line that a test names, without writing back. -/
def State.mscDropAll (s : State) (p : Nat → MscLine → Bool) : State :=
  { s with msc := { s.msc with lines := s.msc.lines.filter (fun e => !p e.1 e.2) } }

/-- Write back every dirty line of a slot; the lines stay, clean (R446). -/
def State.mscClean (s : State) (slot : Nat) : State :=
  (s.msc.lines.filter (fun e => decide (e.2.slot = slot) && decide (0 < e.2.dirtyCount))).foldl (fun s e =>
    let h := stackOf (e.1 * 128)
    let s1 := (s.count (mscReg h 0x110) 1).count (hbmReg h 0x108) (64 * e.2.dirtyCount)
    { s1 with msc := { s1.msc with lines := Tab.set s1.msc.lines e.1 { e.2 with dirty := [false, false] } } }) s

/-! ## Retirement and poison (R233, R234, R427 to R429) -/

/-- Frame F is poisoned. -/
def State.isPoisoned (s : State) (f : Nat) : Bool := s.hbm.poisoned.contains f

/-- Reserve frames used in a channel set. -/
def State.reserveUsed (s : State) (set : Nat) : Nat := Tab.get 0 s.hbm.reserve set

/-- Give the frame the next reserve frame of its set and copy it there (R233). -/
def State.remapFrame (s : State) (f : Nat) : State :=
  let set := f / 32 % 16
  let n := s.reserveUsed set
  let s1 := { s with hbm := { s.hbm with
    remap := Tab.set s.hbm.remap f n, reserve := Tab.set s.hbm.reserve set (n + 1),
    corrected := Tab.erase s.hbm.corrected f } }
  ((s1.count (hbmReg (set / 2) 0x100) 65536).count (hbmReg (set / 2) 0x108) 65536).event 0x2001

/-- Write +0 into every word of a frame, under a key material (R430, R464). -/
def State.zeroFrame (s : State) (f material : Nat) : State :=
  let s1 := (s.mscDropAll (fun line _ => decide (line / 512 = f))).count (hbmReg (stackOf (f * 65536)) 0x108) 65536
  { s1 with hbm := { s1.hbm with
      mem := Mem.zeroRange s1.hbm.mem (f * 65536) (f * 65536 + 65536),
      tags := (List.range 1024).foldl (fun t i => Tab.set t (f * 1024 + i) material) s1.hbm.tags,
      bad := s1.hbm.bad.filter (fun w => decide (w / 1024 ≠ f)) } }

/-- Write an entry of the poison log. -/
def State.logPoison (s : State) (f : Nat) (demand : Bool) : State :=
  { s with rel := { s.rel with
      poisonLog := Tab.set s.rel.poisonLog s.rel.poisonNext
        { frame := f, demand := demand, valid := true, time := BitVec.ofNat 32 (s.time / 1000) },
      poisonNext := (s.rel.poisonNext + 1) % 64 } }

/-- Write the poison pattern into every word of a frame, log it and raise E_REL_POISON (R428). -/
def State.poisonOnly (s : State) (f : Nat) (demand : Bool) : State :=
  let s1 := (s.mscDropAll (fun line _ => decide (line / 512 = f))).count (hbmReg (stackOf (f * 65536)) 0x108) 65536
  let s2 := { s1 with hbm := { s1.hbm with
      mem := Mem.zeroRange s1.hbm.mem (f * 65536) (f * 65536 + 65536),
      tags := s1.hbm.tags.filter (fun e => decide (e.1 / 1024 ≠ f)),
      bad := s1.hbm.bad.filter (fun w => decide (w / 1024 ≠ f)),
      poisoned := f :: s1.hbm.poisoned.filter (fun g => decide (g ≠ f)) } }
  (s2.logPoison f demand).event 0x8002

/-- The repair-table entry that covers a frame. -/
def State.repairFor (s : State) (f : Nat) : Option RepairEntry :=
  (s.rel.repairs.find? (fun e => decide (e.2.frame = f / 32))).map Prod.snd

/-- Clear the poison of a frame. -/
def State.unpoison (s : State) (f : Nat) : State :=
  { s with hbm := { s.hbm with poisoned := s.hbm.poisoned.filter (fun g => decide (g ≠ f)) } }

/-- Mark the newest log entry of a frame as repaired. -/
def State.markRepaired (s : State) (f : Nat) : State :=
  { s with rel := { s.rel with poisonLog := s.rel.poisonLog.map (fun e =>
      if e.2.frame = f ∧ e.2.valid = true ∧ e.1 = (s.rel.poisonNext + 63) % 64 then (e.1, { e.2 with repaired := true })
      else e) } }

/-- Repair a poisoned frame from its replica (R429). Whether the peer's read succeeds and what it returns come from
outside the module: free values (log entries 4 and 11). -/
def State.repairFrame (s : State) (f : Nat) : State :=
  match s.repairFor f with
  | none => s
  | some e =>
    let ok := s.drawBytes 1
    if ok.1 = [0] ∨ ¬ (s.slot e.slot).type = 1 ∨ 16384 ≤ s.reserveUsed (f / 32 % 16) then ok.2
    else
      let data := ok.2.drawBytes 65536
      let s1 := (data.2.zeroFrame f (s.slot e.slot).material)
      let s2 := { s1 with hbm := { s1.hbm with mem := Mem.writeN s1.hbm.mem (f * 65536) data.1 } }
      ((((s2.remapFrame f).unpoison f).markRepaired f).count (relReg 0x130) 1).event 0x8003

/-- An uncorrectable word poisons its whole frame, and a covered frame is repaired (R428, R429). -/
def State.poisonFrame (s : State) (f : Nat) (demand : Bool) : State := (s.poisonOnly f demand).repairFrame f

/-- The times of the frame's corrected words within the last 24 h (R427). -/
def State.recentCorrected (s : State) (f : Nat) : List Nat :=
  (Tab.get [] s.hbm.corrected f).filter (fun t => decide (s.time < t + 86400000000000))

/-- A frame is due for retirement: its corrected words reached the limit, or an uncorrectable word was found in it
(R427). -/
def State.retireDue (s : State) (f : Nat) : Bool :=
  decide (max 1 s.rel.ceLimit ≤ (s.recentCorrected f).length) ||
  (s.isPoisoned f && (Tab.find s.hbm.remap f).isNone)

/-- FRAME_RETIRE: the frame takes a reserve frame of its set, or is poisoned where none is left (R233, R234). -/
def execFrameRetire (frame : Nat) (s : State) : Answer :=
  if !(s.islandOn (224 + stackOf (frame * 65536)) && decide (frame < hbmSize / 65536) && s.retireDue frame) then .next s
  else if s.reserveUsed (frame / 32 % 16) < 16384 then .next (s.remapFrame frame)
  else
    let s1 := if s.isPoisoned frame then s else s.poisonOnly frame false
    .next ({ s1 with hbm := { s1.hbm with corrected := Tab.erase s1.hbm.corrected frame } }.event 0x2002)

/-! ## Words and ranges (R206, R208, R209, R231, R232) -/

/-- What a read of HBM answers. -/
inductive HAns where
  | data (bytes : List Byte)
  | poison
  deriving DecidableEq, Repr

/-- The material that the content of a word is under. -/
def State.wordTag (s : State) (w : Nat) : Nat := Tab.get s.hbm.fill s.hbm.tags w

/-- The 64 bytes of a word read under a request: its plaintext under the material that wrote it, and what the decryption makes of it
under any other (R231, R232). -/
def State.plainWord (s : State) (w : Nat) (r : HReq) : List Byte :=
  let bs := Mem.readN s.hbm.mem (w * 64) 64
  if r.material ≠ 0 ∧ s.wordTag w = r.material then bs
  else (List.range 64).map (Config.wrongKey (s.wordTag w) r.material w bs)

/-- Read one 64 B word of this module's HBM. -/
def State.hbmReadWord (s : State) (w : Nat) (r : HReq) : HAns × State :=
  if s.isPoisoned (w / 1024) then (.poison, s)
  else if s.hbm.bad.contains w then
    let s1 := s.poisonFrame (w / 1024) true
    if s1.isPoisoned (w / 1024) then (.poison, s1)
    else
      let s2 := s1.mscAccess (w * 64) r false true
      (.data (s2.plainWord w r), s2)
  else
    let s1 := s.mscAccess (w * 64) r false true
    (.data (s1.plainWord w r), s1)

/-- Put bytes over others from a position on. -/
def overlay (old : List Byte) (pos : Nat) (new : List Byte) : List Byte :=
  old.take pos ++ new ++ old.drop (pos + new.length)

/-- Write bytes `pos` on of one word; a poisoned frame discards it (R209, R428). -/
def State.hbmWriteWord (s : State) (w pos : Nat) (bs : List Byte) (r : HReq) : State :=
  let full := decide (64 ≤ bs.length)
  if s.isPoisoned (w / 1024) then s
  else if s.hbm.bad.contains w && !full then s.poisonFrame (w / 1024) true
  else
    let s1 := s.mscAccess (w * 64) r true full
    let old := if full then bs else s1.plainWord w r
    { s1 with hbm := { s1.hbm with
        mem := Mem.writeN s1.hbm.mem (w * 64) (overlay old pos bs),
        tags := Tab.set s1.hbm.tags w r.material,
        bad := s1.hbm.bad.filter (fun x => decide (x ≠ w)) } }

/-- Read the listed words in order; poison in one is the answer of all. -/
def State.hbmReadWords (s : State) (ws : List Nat) (r : HReq) : HAns × State :=
  match ws with
  | [] => (.data [], s)
  | w :: rest =>
    let a := s.hbmReadWord w r
    match a.1 with
    | .poison => a
    | .data bs =>
      let b := a.2.hbmReadWords rest r
      match b.1 with
      | .poison => b
      | .data cs => (.data (bs ++ cs), b.2)

/-- The words that `n` bytes at an offset touch. -/
def wordsOf (off n : Nat) : List Nat :=
  if n = 0 then [] else (List.range ((off + n - 1) / 64 - off / 64 + 1)).map (fun i => off / 64 + i)

/-- Read `n` bytes at an offset. -/
def State.hbmRead (s : State) (off n : Nat) (r : HReq) : HAns × State :=
  let a := s.hbmReadWords (wordsOf off n) r
  match a.1 with
  | .poison => a
  | .data bs => (.data (slicedAt bs (off % 64) n), a.2)

/-- Write bytes at an offset, word by word. -/
def State.hbmWrite (s : State) (off : Nat) (bs : List Byte) (r : HReq) : State :=
  (wordsOf off bs.length).foldl (fun s w =>
    let lo := max off (w * 64)
    let hi := min (off + bs.length) (w * 64 + 64)
    s.hbmWriteWord w (lo - w * 64) (slicedAt bs (lo - off) (hi - lo)) r) s

/-- The bytes of an answer, `n` zero bytes for poison. -/
def HAns.bytesOr (a : HAns) (n : Nat) : List Byte :=
  match a with
  | .data bs => bs
  | .poison => zeros n

/-! ## The board address space (R235) -/

/-- What a 48-bit physical address of the board names (R235). -/
inductive BoardAddr where
  | hbm (slot off : Nat)
  | slice (slot core off : Nat)
  | unassigned
  deriving DecidableEq, Repr

/-- Decode a board address. -/
def boardDecode (pa : Nat) : BoardAddr :=
  let slot := pa / 2 ^ 45 % 8
  let off := pa % 2 ^ 44
  if bitAt pa 44 then
    if off ≤ 0x11FFFFFF then .slice slot (off / 0x200000) (off % 0x200000) else .unassigned
  else if off < hbmSize then .hbm slot off
  else .unassigned

/-- The module-local HBM offset of an address in this module's addressable HBM. -/
def State.ownHbm (s : State) (pa : Nat) : Option Nat :=
  match boardDecode pa with
  | .hbm slot off => if slot = s.walker.boardSlot then some off else none
  | _ => none

/-- A board slot that holds a module: this one's, or one that the identity exchange has shown (R235). Log entry 12. -/
def State.slotHeld (s : State) (slot : Nat) : Bool :=
  decide (slot = s.walker.boardSlot) || s.walker.boardPeers.contains slot

end Sys2Proof.Machine
end

