-- ==== Sys2Proof/Machine/Ports.lean ====
section
/-! DEFINITION. Link ports (14 R355 to R365): port numbers, the port map, frames with their sequence numbers, replay buffer and
credits, and the choice of a path (14 R372, R373). -/

namespace Sys2Proof.Machine

/-! ## Ports and the port map (R355 to R357) -/

/-- The drift die of a physical port. -/
def dieOfPort (p : Nat) : Nat := p / 52

/-- The link-port island of a physical port within its die. -/
def islandOfPort (p : Nat) : Nat := if p % 52 < 40 then p % 52 / 2 else 20 + (p % 52 - 40) / 3

/-- LNK_PORT_STATUS.class: 0 board-local, 1 group-local, 2 global, 3 spare. -/
def portClass (p : Nat) : Nat :=
  if p % 52 < 21 then 0 else if p % 52 < 33 then 1 else if [42, 45, 48, 51].contains (p % 52) then 3 else 2

/-- The physical port of a logical port: the same number at cold reset. -/
def State.physPort (s : State) (l : Nat) : Nat := (Tab.find s.lnk.portMap l).getD l

/-- The logical port mapped onto a physical port: another number's mapping wins over its own. -/
def State.logicalPort (s : State) (p : Nat) : Option Nat :=
  match (List.range 104).find? (fun l => decide (l ≠ p) && decide (s.physPort l = p)) with
  | some l => some l
  | none => if s.physPort p = p then some p else none

/-- The links send and receive: the die is powered and the module has reached stage 5 of its boot (18 R469, R471). -/
def State.linksOn (s : State) : Bool := s.pins.dieOn && (decide (s.mgt.state = .ready) || decide (s.mgt.bootStage = 5))

/-- The island of a physical port (01 R27). -/
def portIsland (p : Nat) : Nat := 160 + 24 * dieOfPort p + islandOfPort p

/-- The island of a port is clocked, and the links send and receive. -/
def State.portOn (s : State) (p : Nat) : Bool := s.linksOn && s.islandOn (portIsland p)

/-- The control island of a drift die, which routes and surveys, is clocked (01 R27). -/
def State.dieCtl (s : State) (die : Nat) : Bool := s.islandOn (254 + die % 2)

/-- A port is up. -/
def Port.isUp (p : Port) : Bool := p.state = .up

/-- A port takes frames: it is up, in hold-down or exchanges identities. -/
def Port.hears (p : Port) : Bool := p.state = .up || p.state = .holddown || p.state = .identity

/-! ## Credits (R363, R364) -/

/-- The credits of a virtual channel at a port. -/
def vcCredits (vc : Nat) : Nat := [32, 32, 224, 224, 16, 240].getD vc 0

/-- The credits that a port holds at its peer. -/
def Port.credit (p : Port) (vc : Nat) : Nat := (Tab.find p.credits vc).getD (vcCredits vc)

/-! ## Frames (R359, R360) -/

/-- The acknowledgement that a port sends: the last frame received in sequence. -/
def Port.ack (p : Port) : BitVec 12 := p.rxSeq - 1

/-- One byte of the CRC-32 of IEEE 802.3, low bit first. -/
def crcByte (c : W32) (b : Byte) : W32 :=
  (List.range 8).foldl (fun (c : W32) _ => if bitAt c.toNat 0 then (c >>> 1) ^^^ 0xEDB88320 else c >>> 1) (c ^^^ b.setWidth 32)

/-- The CRC-32 of IEEE 802.3 over bytes. -/
def crc32 (bs : List Byte) : W32 := ~~~(bs.foldl crcByte 0xFFFFFFFF)

/-- Bytes 0 to 123 of a frame (R359). -/
def frameBody (f : LinkFrame) : List Byte :=
  leBytes 2 (f.seq.toNat + f.type % 8 * 2 ^ 12) ++ leBytes 2 (f.ack.toNat + boolNat f.nak * 2 ^ 15) ++
  leBytes 1 (f.vc % 8 + f.lane % 8 * 8) ++ leBytes 1 (f.creditVc % 8 + f.credits % 32 * 8) ++ padTo 118 f.payload

/-- The 128 B of a frame: its body and its CRC (R359). -/
def frameBytes (f : LinkFrame) : List Byte := frameBody f ++ leBytes 4 (crc32 (frameBody f)).toNat

/-- Send a frame out of a port. -/
def State.putFrame (s : State) (port : Nat) (f : LinkFrame) : State :=
  (s.emit (.linkFrame port (frameBytes f))).count (portReg port 0x40) 1

/-- Send an idle frame with the acknowledgement, a nak or none, and owed credits of one virtual channel. -/
def State.putIdle (s : State) (port : Nat) (nak : Bool) : State :=
  let p := s.port port
  match p.owed.find? (fun e => decide (0 < e.2)) with
  | some (vc, n) =>
    let k := min 31 n
    let f : LinkFrame := { ack := p.ack, nak := nak, creditVc := vc, credits := k }
    (s.modPort port (fun p => { p with owed := Tab.set p.owed vc (n - k) })).putFrame port f
  | none =>
    let f : LinkFrame := { ack := p.ack, nak := nak }
    s.putFrame port f

/-- Return every owed credit. -/
def State.returnCredits (fuel : Nat) (port : Nat) (s : State) : State :=
  match fuel with
  | 0 => s
  | fuel + 1 =>
    if (s.port port).owed.any (fun e => decide (0 < e.2)) then State.returnCredits fuel port (s.putIdle port false) else s

/-- Send a sequenced frame: it stays in the replay buffer until an ack covers it. -/
def State.putSequenced (s : State) (port : Nat) (f : LinkFrame) : State :=
  let p := s.port port
  let g : LinkFrame := { f with seq := p.txSeq, ack := p.ack }
  (s.modPort port (fun p => { p with txSeq := p.txSeq + 1, replay := p.replay ++ [g] })).putFrame port g

/-- The credits of a virtual channel that frames of a lane hold. -/
def Port.laneUse (p : Port) (vc lane : Nat) : Nat := (p.inUse.filter (fun u => decide (u.vc = vc) && decide (u.lane = lane))).length

/-- A lane may take another credit of a virtual channel: one of the two that it reserves, or one of those that the lanes share (R364). -/
def Port.laneRoom (p : Port) (vc lane : Nat) : Bool :=
  decide (p.laneUse vc lane < 2) ||
  decide (((List.range 6).map (fun l => p.laneUse vc l - 2)).sum + 12 < vcCredits vc)

/-- A panel may hold another credit of a virtual channel: below its share (R365). Traffic of no panel is not capped. -/
def Port.shareRoom (p : Port) (vc : Nat) (own : Option LinkShare) : Bool :=
  match own with
  | none => true
  | some o => decide ((p.inUse.filter (fun u => decide (u.vc = vc) && decide (u.panel = some o.panel))).length < vcCredits vc * o.share / 64)

/-- Whose bytes stand first in a stream. -/
def Port.owner (p : Port) (k : Nat) : Option LinkShare := ((Tab.get [] p.txOwner k).head?.map Prod.fst).getD none

/-- The first stream of a virtual channel that waits and may take a credit, by lane. -/
def Port.offer (p : Port) (vc : Nat) : Option (Nat × List Byte) :=
  (List.range 6).findSome? (fun lane =>
    match Tab.find p.txBytes (vc * 8 + lane) with
    | some bs =>
      if bs ≠ [] ∧ 0 < p.credit vc ∧ p.laneRoom vc lane = true ∧ p.shareRoom vc (p.owner (vc * 8 + lane)) = true then
        some (vc * 8 + lane, bs) else none
    | none => none)

/-- The stream that a port serves next (R365): vc 0 and vc 1 in turns, within 56 frames of 64; then vc 4; then vc 3 before vc 2 and vc 5,
which take turns and have 16 of every 64 other frames while they wait. -/
def Port.nextStream (p : Port) : Option (Nat × List Byte) :=
  let c0 := if p.c0Turn then p.offer 1 <|> p.offer 0 else p.offer 0 <|> p.offer 1
  let req := if p.reqTurn then p.offer 5 <|> p.offer 2 else p.offer 2 <|> p.offer 5
  let mgt := p.offer 4 <|> p.offer 3
  let rest := if 48 ≤ (p.reqPast.filter (fun b => !b)).length then req <|> mgt else mgt <|> req
  if 56 ≤ (p.c0Past.filter id).length then rest <|> c0 else c0 <|> rest

/-- Take `n` bytes off the front of the pieces of a stream. -/
def takePieces : Nat → List (Option LinkShare × Nat) → List (Option LinkShare × Nat)
  | _, [] => []
  | n, x :: rest => if x.2 ≤ n then takePieces (n - x.2) rest else (x.1, x.2 - n) :: rest

/-- A frame of stream `k` takes its bytes and a credit, and the output's turns move on (R364, R365). -/
def Port.serve (p : Port) (k : Nat) (bs : List Byte) : Port :=
  let vc := k / 8
  let c0 := decide (vc ≤ 1)
  { p with
    txBytes := Tab.set p.txBytes k (bs.drop 118), txOwner := Tab.modify [] p.txOwner k (takePieces 118),
    credits := Tab.set p.credits vc (p.credit vc - 1),
    inUse := p.inUse ++ [{ vc := vc, lane := k % 8, panel := (p.owner k).map LinkShare.panel }],
    c0Past := (c0 :: p.c0Past).take 63,
    reqPast := if c0 then p.reqPast else (decide (vc = 2 ∨ vc = 5) :: p.reqPast).take 63,
    c0Turn := if c0 then decide (vc = 0) else p.c0Turn,
    reqTurn := if vc = 2 ∨ vc = 5 then decide (vc = 2) else p.reqTurn }

/-- Send waiting bytes in data frames of 118 B while credits and the replay buffer allow; the bytes after the end of a stream
are free (log entry 20). -/
def State.pumpPort (fuel : Nat) (port : Nat) (s : State) : State :=
  match fuel with
  | 0 => s
  | fuel + 1 =>
    let p := s.port port
    match p.nextStream with
    | none => s
    | some (k, bs) =>
      if 1024 ≤ p.replay.length then s
      else
        let pad := s.drawBytes (118 - bs.length)
        let f : LinkFrame := { type := 1, vc := k / 8, lane := k % 8, payload := bs.take 118 ++ pad.1 }
        State.pumpPort fuel port ((pad.2.modPort port (fun p => p.serve k bs)).putSequenced port f)

/-- Hand bytes of a virtual channel and hop lane to a port; `own` says whose they are. -/
def State.portBytes (s : State) (port vc lane : Nat) (own : Option LinkShare) (bs : List Byte) : State :=
  State.pumpPort 1024 port (s.modPort port (fun p => { p with
    txBytes := Tab.modify [] p.txBytes (vc * 8 + lane) (fun o => o ++ bs),
    txOwner := Tab.modify [] p.txOwner (vc * 8 + lane) (fun o => o ++ [(own, bs.length)]) }))

/-- Credits of a virtual channel come back: the oldest frames give them up. Which of the frames it is, the frame that returns them does
not say (R359). DESIGN CHOICE, log entry 60. -/
def dropUses (vc : Nat) : Nat → List CreditUse → List CreditUse
  | _, [] => []
  | n, u :: rest => if u.vc = vc ∧ 0 < n then dropUses vc (n - 1) rest else u :: dropUses vc n rest

/-- The transmitter and the receiver of a port as they start to train: no sequence, no bytes, every credit. -/
def Port.fresh (p : Port) : Port :=
  { p with replay := [], replays := 0, txBytes := [], txOwner := [], inUse := [], rxHeld := [], owed := [], credits := [], txSeq := 0,
           rxSeq := 0, surveying := false }

/-- The replay buffer after an ack: everything up to and including the acknowledged frame goes. -/
def ackFrames (replay : List LinkFrame) (ack : BitVec 12) : List LinkFrame :=
  if replay.any (fun f => decide (f.seq = ack)) then (replay.dropWhile (fun f => decide (f.seq ≠ ack))).drop 1 else replay

/-- Send every frame of the replay buffer again. -/
def State.replayAll (s : State) (port : Nat) : State :=
  let p := s.port port
  if p.replay = [] then s
  else
    let s1 := s.modPort port (fun q => { q with replays := q.replays + 1 })
    (p.replay.foldl (fun s f => s.putFrame port { f with ack := p.ack }) s1).count (portReg port 0x60) p.replay.length

/-- The oldest frame of a port has been replayed replay_max times without an ack (R361; 0 acts as 1). -/
def State.replaySpent (s : State) (port : Nat) : Bool :=
  decide ((s.port port).replay ≠ []) && decide (max 1 s.lnk.replayMax.toNat ≤ (s.port port).replays)

/-- What the ack and the credits of a received frame do. -/
def State.takeAck (s : State) (port : Nat) (f : LinkFrame) : State :=
  let p := s.port port
  let left := ackFrames p.replay f.ack
  s.modPort port (fun p => { p with
    replay := left, replays := if left.length < p.replay.length then 0 else p.replays,
    credits := Tab.set p.credits f.creditVc (min (vcCredits f.creditVc) (p.credit f.creditVc + f.credits)),
    inUse := dropUses f.creditVc f.credits p.inUse })

/-- The sender goes on: after a nak the replay buffer goes out again, then waiting bytes. -/
def State.goOn (s : State) (port : Nat) (nak : Bool) : State :=
  State.pumpPort 1024 port (if nak then s.replayAll port else s)

/-- The logical port of a physical one is the time parent (R362). -/
def State.timeParent (s : State) (port : Nat) : Bool := s.mgt.timePort.isSome && decide (s.logicalPort port = s.mgt.timePort)

/-- A time frame of the time parent disciplines the time base, by slewing alone. The correction takes the two-way delay of a pair
of frames, which one module's frames do not give: a free value (log entry 46). -/
def State.discipline (s : State) : State :=
  let d := s.drawWords 1
  { d.2 with clk := { d.2.clk with slew := (d.1.headD 0).toInt } }

/-- TIME_FRAME_TX: an up port sends its time base in a time frame, where the replay buffer has room (R360, R362). -/
def execTimeFrameTx (port : Nat) (s : State) : Answer :=
  if s.portOn port && ((s.port port).isUp || (s.port port).state = .holddown) && decide ((s.port port).replay.length < 1024) then
    let f : LinkFrame := { type := 3, payload := padTo 118 (leBytes 8 s.time) }
    .next (s.putSequenced port f)
  else .next s

/-- The payload of an identity frame (R374): serial, module, board slot, die, logical and physical port, lowest and highest level, and
plan version. The places of the fields are the model's. DESIGN CHOICE, log entry 71. -/
def identityBytes (id : LinkIdentity) : List Byte :=
  padTo 118 (leBytes 8 id.serial.toNat ++ leBytes 2 id.module ++ leBytes 1 id.slot ++ leBytes 1 id.die ++ leBytes 1 id.logical ++
    leBytes 1 id.physical ++ leBytes 1 id.loLevel ++ leBytes 1 id.hiLevel ++ leBytes 4 id.planVer)

/-- Send an identity frame, which is sequenced like data (R360, R374). -/
def State.putIdentity (s : State) (port : Nat) (id : LinkIdentity) : State :=
  (s.emit (.identity port id)).putSequenced port { type := 2, payload := identityBytes id }

/-! ## Routing (R372, R373, R380) -/

/-- The module's own id. -/
def State.me (s : State) : Nat := s.mgt.moduleId

/-- Two modules sit on one board: the same group and the same eight positions. -/
def sameBoard (a b : Nat) : Bool := decide (a / 8 = b / 8)

/-- The entry of a routing table that a destination takes. -/
def State.routeIndex (s : State) (dest : Nat) : Nat := if dest / 32 = s.me / 32 then dest % 32 else 32 + dest / 32

/-- A logical port carries routed traffic of a pinned level. -/
def State.liveLink (s : State) (l level : Nat) : Bool :=
  let p := s.port (s.physPort l)
  decide (l < 104) && p.isUp && decide (level ≤ p.level)

/-- The live board-local links to a module of the board, in logical port order. -/
def State.boardLinks (s : State) (dest level : Nat) : List Nat :=
  (List.range 104).filter (fun l => decide (l % 52 < 21) && s.liveLink l level &&
    decide (((s.port (s.physPort l)).seen.map Prod.fst) = some dest))

/-- A chosen path: its hops, and its place in the entry. -/
structure Path where
  ports : List Nat
  place : Nat := 0
  deriving DecidableEq, Repr

/-- The first path of a table's entry that is not broken and whose first link is up. -/
def State.tablePath (s : State) (dest table level : Nat) : Option Path :=
  ((Tab.get [] s.lnk.routes (table * 992 + s.routeIndex dest)).zipIdx.find? (fun x =>
    !x.1.broken && decide (x.1.hops ≠ 0) && s.liveLink (x.1.ports.headD 104) level)).map (fun x =>
      { ports := x.1.ports.take x.1.hops, place := x.2 })

/-- The path of a message: a direct link of the board, by sequence or chunk, else the table's. -/
def State.route (s : State) (dest table level spread : Nat) : Option Path :=
  let ls := if sameBoard dest s.me then s.boardLinks dest level else []
  if dest = s.me then none
  else match ls[spread % ls.length]? with
    | some l => some { ports := [l] }
    | none => s.tablePath dest table level

end Sys2Proof.Machine
end

