-- ==== Sys2Proof/Machine/Power.lean ====
section
/-! DEFINITION. What the command plane asks of the governor and of class-0 admission: the predicted rise of a step and its
grant (15 R397 to R399), the conditions of admission (13 R339 to R341) and the shapers (13 R340). -/

namespace Sys2Proof.Machine

/-! ## Panels and their cores (R88, R328) -/

/-- The logical cores of a panel. -/
def State.panelLogical (s : State) (k : Nat) : List Nat := onesOf (s.panel k).entry.cores.toNat 144

/-- The physical cores that belong to a panel. -/
def State.panelCores (s : State) (k : Nat) : List Nat :=
  (Tab.keys s.cores).filter (fun p => decide ((s.core p).panel = some k))

/-- A panel has class0 = 1. -/
def State.class0Panel (s : State) (k : Nat) : Bool := (s.panel k).written && (s.panel k).entry.class0

/-- The written panels. -/
def State.panels (s : State) : List Nat := (List.range 16).filter (fun k => (s.panel k).written)

/-- The contexts bound to a panel. -/
def State.panelCtxs (s : State) (k : Nat) : List Nat :=
  (Tab.keys s.cmd.ctxs).filter (fun i => (s.ctx i).bound && decide ((s.ctx i).f.panel.toNat = k))

/-! ## Class-0 admission (R339, R341) -/

/-- The condition "dedicated". -/
def State.c0Dedicated (s : State) (k : Nat) : Bool := s.class0Panel k && decide ((s.panelCtxs k).length = 1)

/-- The condition "isolated": masks that share nothing with another panel or with MSC_SYS_WAYS of a slice. -/
def State.c0Isolated (s : State) (k : Nat) : Bool :=
  let e := (s.panel k).entry
  (s.panels.all (fun j => decide (j = k) || (decide ((s.panel j).entry.setMask &&& e.setMask = 0) &&
    decide ((s.panel j).entry.wayMask &&& e.wayMask = 0)))) &&
  (List.range 8).all (fun h => decide ((Tab.get (0 : Half) s.msc.sysWays h) &&& e.wayMask = 0))

/-- The links that failed over on the path which a routing-table entry gives now: the present paths before the first one that is not
broken and whose first link is up (14 R373). -/
def State.pathLost (s : State) (table idx : Nat) : Nat :=
  (((Tab.get [] s.lnk.routes (table * 992 + idx)).filter (fun p => decide (p.hops ≠ 0))).takeWhile (fun p =>
    p.broken || !s.liveLink (p.ports.headD 104) 0)).length

/-- A direct link of the board to a module is dead: its traffic goes over the others, or over the table's path (14 R373, R376). -/
def State.directLost (s : State) (dest : Nat) : Nat :=
  boolNat ((List.range 104).any (fun l => decide (l % 52 < 21) && decide ((s.port (s.physPort l)).state = .dead) &&
    decide (((s.port (s.physPort l)).seen.map Prod.fst) = some dest)))

/-- The failed-over links on the path to an entry's destination: a board module's live direct links stand before the table (14 R373). -/
def State.entryLost (s : State) (table idx : Nat) : Nat :=
  let dest := s.me / 32 * 32 + idx
  if idx < 32 ∧ sameBoard dest s.me = true ∧ dest ≠ s.me then
    s.directLost dest + (if s.boardLinks dest 0 = [] then s.pathLost table idx else 0)
  else s.pathLost table idx

/-- The most failed-over links on one path in use by a panel: the paths are those of its context's routing table and the direct links
of its board (R339). Which paths a panel uses, and which link of a broken path failed, the spec does not say. DESIGN CHOICE, log
entry 71. -/
def State.failedOver (s : State) (k : Nat) : Nat :=
  match s.panelCtxs k with
  | [] => 0
  | c :: _ =>
    let t := (s.ctx c).f.table.toNat
    ((((Tab.keys s.lnk.routes).filter (fun e => decide (e / 992 = t))).map (fun e => e % 992) ++
      (List.range 8).map (fun i => s.me / 8 * 8 % 32 + i)).map (s.entryLost t)).foldl max 0

/-- The condition "path". -/
def State.c0Path (s : State) (k : Nat) : Bool := decide (s.failedOver k ≤ 1)

/-- The condition "governor": the junction is at or below 100 degrees. -/
def State.c0Governor (s : State) : Bool := decide (s.gov.junction ≤ 100)

/-- A class-0 context and every condition of R339. -/
def State.c0Holds (s : State) (k : Nat) : Bool :=
  s.c0Dedicated k && s.c0Isolated k && s.c0Path k && s.c0Governor

/-- Evaluate admission: the conditions are shown, and admission follows them. A lapse is reported (R339, R341). -/
def State.evalAdmission (s : State) (k : Nat) : State :=
  let now := s.c0Holds k
  let was := (s.panel k).admitted
  let d := s.c0Dedicated k
  let i := s.c0Isolated k
  let p := s.c0Path k
  let g := s.c0Governor
  let f := decide (s.failedOver k = 1)
  let s1 := s.modPanel k (fun pn => { pn with
    admitted := now, dedicated := d, isolated := i, path := p, govOk := g, failedOver := f, lapse := pn.lapse || (was && !now) })
  if was && !now then
    let s2 := (s1.event 0x6010).count (panelReg k 0x58) 1
    match s.panelCtxs k with
    | c :: _ => s2.charge c 104 1
    | [] => s2
  else s1

/-- C0_ADMISSION_LAPSE: a condition of an admitted panel fails (R341). -/
def execC0AdmissionLapse (panel : Nat) (s : State) : Answer :=
  if s.cmdIsland (some panel) && (s.panel panel).admitted && !s.c0Holds panel then .next (s.evalAdmission panel) else .next s

/-- C0_ADMISSION_RETURN: every condition holds again (R341). -/
def execC0AdmissionReturn (panel : Nat) (s : State) : Answer :=
  if s.cmdIsland (some panel) && !(s.panel panel).admitted && s.c0Holds panel then .next (s.evalAdmission panel) else .next s

/-! ## The shapers (R340) -/

/-- The tokens of a bucket now, in thousandths of a byte: env_rate is in units of 64 MB/s, env_burst in units of 64 B. -/
def bucketNow (tokens dt rate burst : Nat) : Nat := min (burst * 64000) (tokens + dt * rate * 64)

/-- What the bucket of a panel for requests (side 0, vc 0) or responses (side 1, vc 1) holds now. -/
def State.tokens (s : State) (k side : Nat) : Nat :=
  let pn := s.panel k
  bucketNow (if side = 0 then pn.bucketReq else pn.bucketRsp) (s.time - pn.bucketTime) ((s.entryNow k).envRate.getD side 0).toNat
    ((s.entryNow k).envBurst.getD side 0).toNat

/-- A packet of `n` bytes leaves through a bucket of a panel: both buckets are brought up to now, and its own gives the payload. -/
def State.takeTokens (s : State) (k side n : Nat) : State :=
  let req := s.tokens k 0
  let rsp := s.tokens k 1
  s.modPanel k (fun pn => { pn with
    bucketReq := if side = 0 then req - n * 1000 else req, bucketRsp := if side = 0 then rsp else rsp - n * 1000,
    bucketTime := s.time })

/-- The longest payload of a class-0 packet of a panel. -/
def State.envLimit (s : State) (k : Nat) : Nat := ((s.entryNow k).envPkt.toNat + 1) * 64

/-- DECLARED_WINDOW_END: the declared window ends before its step, c0_window_us after the step's start (R339, 06 R171). -/
def execDeclaredWindowEnd (panel : Nat) (s : State) : Answer :=
  let pn := s.panel panel
  match pn.running with
  | some st =>
    if s.cmdIsland (some panel) && pn.windowOpen && decide (fieldAt st.params 96 4 ≠ 0) &&
        decide (st.start.toNat + 1000 * fieldAt st.params 96 4 ≤ s.time) then
      .next ((s.panelCores panel).foldl (fun s p => s.modSlice p (fun sl => { sl with testSuspended := false }))
        (s.modPanel panel (fun pn => { pn with windowOpen := false })))
    else .next s
  | none => .next s

/-! ## The predicted rise and its grant (R397 to R399) -/

/-- The entry of the phase table for a model and a phase (R389). -/
def State.phaseOf (s : State) (model : Half) (phase : Nat) : Option PhaseEntry := Tab.find s.gov.phases (model.toNat * 256 + phase)

/-- The predicted draw of a panel's step in W: the entry of its first hinted phase, else 5.28 W per core and 14 W per channel
set, rounded up (R399). -/
def State.predictedDraw (s : State) (k : Nat) (model : Half) (hint : Option (Nat × Nat × Nat)) : Nat :=
  match hint.bind (fun h => s.phaseOf model h.1) with
  | some e => e.draw
  | none => ceilDiv (528 * (s.panelLogical k).length + 1400 * (onesOf (s.panel k).entry.setMask.toNat 16).length) 100

/-- The present draw of an idle panel: its dead work, 4.0 W for an array at F = 64 (R392). Log entry 15. -/
def State.panelDraw (s : State) (k : Nat) : Nat :=
  ((s.panelCores k).map (fun p => (Tab.get {} s.gov.limits p).f)).foldl (· + ·) 0 * 4 / 64

/-- The rise of a step in W (R399). -/
def State.stepRise (s : State) (k : Nat) (model : Half) (hint : Option (Nat × Nat × Nat)) : Nat :=
  s.predictedDraw k model hint - s.panelDraw k

/-- The allowance of R398 that is still unused: step_w less the rises of the last window_us. -/
def State.allowance (s : State) : Nat :=
  s.gov.stepW - ((s.gov.rises.filter (fun r => decide (s.time < r.1 + max 1 s.gov.windowUs * 1000))).map Prod.snd).foldl (· + ·) 0

/-- No grant is needed: no authority, or an admitted class-0 panel (R339, R397). -/
def State.grantFree (s : State) (k : Nat) : Bool :=
  decide (s.gov.authority = 0) || decide (s.gov.authority = 3) || (s.panel k).admitted

/-- Note a rise that the allowance admits. -/
def State.takeRise (s : State) (w : Nat) : State :=
  if w = 0 then s else { s with gov := { s.gov with rises := (s.time, w) :: s.gov.rises } }

/-- Send the request of the oldest waiting need, where none is out (R399). -/
def State.sendRequest (s : State) : State :=
  match s.gov.waiting with
  | [] => s
  | x :: _ =>
    if s.gov.pendingW ≠ 0 then s
    else { (s.emit (.grantRequest (s.gov.requestId + 1) x.2 false)) with
           gov := { s.gov with pendingW := x.2, requestId := s.gov.requestId + 1, requestTime := s.time } }

/-- The number under which the rise to a raised floor waits (R385). -/
def floorKey : Nat := 0x30000

/-- The number under which a step's need waits. -/
def Step.needKey (st : Step) : Nat := if st.isComp then 0x20000 + st.window else st.window

/-- A need of `w` W waits: a step, the pre-ramp of panel `key - 0x10000`, or a raised floor (R385, R399). -/
def State.waitGrant (s : State) (key w : Nat) : State :=
  ({ s with gov := { s.gov with waiting := s.gov.waiting ++ [(key, w)] } }).sendRequest

/-- Take a need out of the queue (R311); where its request was out, that of the next need goes out. -/
def State.dropNeed (s : State) (key : Nat) : State :=
  let first := decide ((s.gov.waiting.head?.map Prod.fst) = some key)
  ({ s with gov := { s.gov with waiting := s.gov.waiting.filter (fun x => decide (x.1 ≠ key)),
                                pendingW := if first then 0 else s.gov.pendingW } } : State).sendRequest

end Sys2Proof.Machine
end

