-- ==== Sys2Proof/Machine/Formats.lean ====
section
/-! DEFINITION. Number formats, conversions and FP32 arithmetic (02). A value is exact (sign, mantissa, exponent)
until it is rounded into a format. Flags are the five bits of VX_FLAGS: invalid 0, division by zero 1, overflow 2,
underflow 3, saturate 4. -/

namespace Sys2Proof.Machine

/-- Sticky arithmetic flags in the layout of VX_FLAGS (R58, R153). -/
abbrev FFlags := BitVec 5

/-- The invalid flag. -/
def fInvalid : FFlags := 1
/-- The divide-by-zero flag. -/
def fDivZero : FFlags := 2
/-- The overflow flag. -/
def fOverflow : FFlags := 4
/-- The underflow flag. -/
def fUnderflow : FFlags := 8
/-- The saturate flag. -/
def fSaturate : FFlags := 16

/-- An exact value: ± m × 2^e, an infinity or NaN. A zero keeps its sign. -/
inductive FVal where
  | nan
  | inf (neg : Bool)
  | fin (neg : Bool) (m : Nat) (e : Int)
  deriving DecidableEq, Repr

/-- A floating-point format (R37): mantissa bits, the exponent of its smallest subnormal, the magnitude bits of the
largest finite value, of infinity where it has one and of the canonical NaN, and its sign position. -/
structure FFmt where
  man  : Nat
  qmin : Int
  maxb : Nat
  infb : Option Nat
  nanb : Nat
  sign : Nat
  deriving DecidableEq, Repr

/-- FP32. -/
def fp32 : FFmt := { man := 23, qmin := -149, maxb := 0x7F7FFFFF, infb := some 0x7F800000, nanb := 0x7FC00000, sign := 31 }
/-- bfloat16. -/
def bf16 : FFmt := { man := 7, qmin := -133, maxb := 0x7F7F, infb := some 0x7F80, nanb := 0x7FC0, sign := 15 }
/-- FP16. -/
def fp16 : FFmt := { man := 10, qmin := -24, maxb := 0x7BFF, infb := some 0x7C00, nanb := 0x7E00, sign := 15 }
/-- FP8 E4M3. -/
def e4m3 : FFmt := { man := 3, qmin := -9, maxb := 0x7E, infb := none, nanb := 0x7F, sign := 7 }
/-- FP8 E5M2. -/
def e5m2 : FFmt := { man := 2, qmin := -16, maxb := 0x7B, infb := some 0x7C, nanb := 0x7E, sign := 7 }
/-- The magnitude grid of SK4, an E2M1 number (R41). -/
def e2m1 : FFmt := { man := 1, qmin := -1, maxb := 7, infb := none, nanb := 7, sign := 3 }

/-- The floating-point format of a format code below 5 (R36). -/
def ffmtOf (code : Nat) : FFmt :=
  match code with
  | 1 => bf16
  | 2 => fp16
  | 3 => e4m3
  | 4 => e5m2
  | _ => fp32

/-- The format code is a skived one. -/
def isSkived (code : Nat) : Bool := decide (5 ≤ code) && decide (code ≤ 7)

/-- Bits of an element of a format code (R36). -/
def elemBits (code : Nat) : Nat :=
  match code with
  | 0 => 32
  | 1 | 2 => 16
  | 3 | 4 | 5 => 8
  | 6 => 4
  | _ => 2

/-- Element bytes of a skived block (R44). -/
def blockBytes (code : Nat) : Nat :=
  match code with
  | 5 => 32
  | 6 => 16
  | _ => 8

/-! ## Decoding and rounding -/

/-- Decode an encoding; any NaN encoding is NaN (R38). -/
def decodeF (f : FFmt) (x : Nat) : FVal :=
  let neg := bitAt x f.sign
  let mag := x % 2 ^ f.sign
  if some mag = f.infb then .inf neg
  else if f.maxb < mag then .nan
  else if mag < 2 ^ f.man then .fin neg mag f.qmin
  else .fin neg (mag % 2 ^ f.man + 2 ^ f.man) (f.qmin + (mag / 2 ^ f.man : Nat) - 1)

/-- Drop `s` low bits, to nearest with ties to even; says whether anything was lost. -/
def shiftRne (m s : Nat) : Nat × Bool :=
  if s = 0 then (m, false)
  else
    let q := m / 2 ^ s
    let r := m % 2 ^ s
    if r = 0 then (q, false)
    else if 2 ^ (s - 1) < r ∨ (r = 2 ^ (s - 1) ∧ q % 2 = 1) then (q + 1, true)
    else (q, true)

/-- The exponent of the last place that m × 2^e keeps in a format. -/
def quantumOf (f : FFmt) (m : Nat) (e : Int) : Int :=
  max (e + (Nat.log2 m : Int) - (f.man : Int)) f.qmin

/-- The magnitude bits that m × 2^e rounds to, without a bound above, and whether the rounding is inexact. -/
def roundMag (f : FFmt) (m : Nat) (e : Int) : Nat × Bool :=
  if m = 0 then (0, false)
  else
    let q := quantumOf f m e
    let r := if q ≤ e then (m * 2 ^ (e - q).toNat, false) else shiftRne m (q - e).toNat
    ((q - f.qmin).toNat * 2 ^ f.man + r.1, r.2)

/-- The encoding with a sign. -/
def withSign (f : FFmt) (neg : Bool) (mag : Nat) : Nat := if neg then 2 ^ f.sign + mag else mag

/-- Round a value into a format, with the saturate bit of R48. -/
def roundF (f : FFmt) (sat : Bool) (v : FVal) : Nat × FFlags :=
  match v with
  | .nan => (f.nanb, 0)
  | .inf neg =>
    match f.infb with
    | some b => (withSign f neg b, 0)
    | none => if sat then (withSign f neg f.maxb, fSaturate) else (f.nanb, fInvalid)
  | .fin neg m e =>
    let r := roundMag f m e
    if f.maxb < r.1 then
      if sat then (withSign f neg f.maxb, fSaturate)
      else match f.infb with
        | some b => (withSign f neg b, fOverflow)
        | none => (f.nanb, fInvalid)
    else (withSign f neg r.1, if r.2 && decide (r.1 < 2 ^ f.man) then fUnderflow else 0)

/-- The FP32 encoding of a value, with its flags. -/
def toFp32 (v : FVal) : W32 × FFlags :=
  let r := roundF fp32 false v
  (BitVec.ofNat 32 r.1, r.2)

/-- The value of an FP32 encoding. -/
def ofFp32 (x : W32) : FVal := decodeF fp32 x.toNat

/-- The canonical NaN of FP32. -/
def nan32 : W32 := 0x7FC00000

/-! ## FP32 arithmetic (R39, R58) -/

/-- A signed integer for ± m. -/
def signedOf (neg : Bool) (m : Nat) : Int := if neg then -(m : Int) else (m : Int)

/-- The exact sum of two finite values; a zero sum is -0 only where both terms are negative (R39). -/
def sumFin (n1 : Bool) (m1 : Nat) (e1 : Int) (n2 : Bool) (m2 : Nat) (e2 : Int) : FVal :=
  let e := min e1 e2
  let t := signedOf n1 m1 * 2 ^ (e1 - e).toNat + signedOf n2 m2 * 2 ^ (e2 - e).toNat
  if t = 0 then .fin (n1 && n2) 0 e else .fin (decide (t < 0)) t.natAbs e

/-- Addition, exact, with the invalid operations. -/
def addV (x y : FVal) : FVal × FFlags :=
  match x, y with
  | .nan, _ => (.nan, 0)
  | _, .nan => (.nan, 0)
  | .inf a, .inf b => if a = b then (.inf a, 0) else (.nan, fInvalid)
  | .inf a, _ => (.inf a, 0)
  | _, .inf b => (.inf b, 0)
  | .fin n1 m1 e1, .fin n2 m2 e2 => (sumFin n1 m1 e1 n2 m2 e2, 0)

/-- Multiplication, exact, with the invalid operations. -/
def mulV (x y : FVal) : FVal × FFlags :=
  match x, y with
  | .nan, _ => (.nan, 0)
  | _, .nan => (.nan, 0)
  | .inf a, .inf b => (.inf (a != b), 0)
  | .inf a, .fin n m _ => if m = 0 then (.nan, fInvalid) else (.inf (a != n), 0)
  | .fin n m _, .inf b => if m = 0 then (.nan, fInvalid) else (.inf (n != b), 0)
  | .fin n1 m1 e1, .fin n2 m2 e2 => (.fin (n1 != n2) (m1 * m2) (e1 + e2), 0)

/-- Round an exact result to FP32 and join its flags. -/
def roundRes (r : FVal × FFlags) : W32 × FFlags :=
  let t := toFp32 r.1
  (t.1, r.2 ||| t.2)

/-- x + y in FP32. -/
def addF (x y : W32) : W32 × FFlags := roundRes (addV (ofFp32 x) (ofFp32 y))

/-- The negation of a value. -/
def negV (v : FVal) : FVal :=
  match v with
  | .nan => .nan
  | .inf n => .inf (!n)
  | .fin n m e => .fin (!n) m e

/-- The magnitude of a value. -/
def absV (v : FVal) : FVal :=
  match v with
  | .nan => .nan
  | .inf _ => .inf false
  | .fin _ m e => .fin false m e

/-- x - y in FP32. -/
def subF (x y : W32) : W32 × FFlags := roundRes (addV (ofFp32 x) (negV (ofFp32 y)))

/-- x × y in FP32. -/
def mulF (x y : W32) : W32 × FFlags := roundRes (mulV (ofFp32 x) (ofFp32 y))

/-- x × y + z in FP32, rounded once. Infinity times 0 raises invalid also where z is a NaN, which IEEE 754 leaves open (R58). DESIGN CHOICE,
log entry 65. -/
def fmaF (x y z : W32) : W32 × FFlags :=
  let p := mulV (ofFp32 x) (ofFp32 y)
  let r := addV p.1 (ofFp32 z)
  roundRes (r.1, p.2 ||| r.2)

/-- The order of two values that are not NaN: less, equal or greater as an integer sign; -0 equals +0. -/
def cmpV (x y : FVal) : Int :=
  match x, y with
  | .inf a, .inf b => if a = b then 0 else if a then -1 else 1
  | .inf a, _ => if a then -1 else 1
  | _, .inf b => if b then 1 else -1
  | .fin n1 m1 e1, .fin n2 m2 e2 =>
    let e := min e1 e2
    let t := signedOf n1 m1 * 2 ^ (e1 - e).toNat - signedOf n2 m2 * 2 ^ (e2 - e).toNat
    if t < 0 then -1 else if t = 0 then 0 else 1
  | _, _ => 0

/-- The sign of a value. -/
def FVal.neg (v : FVal) : Bool :=
  match v with
  | .nan => false
  | .inf n => n
  | .fin n _ _ => n

/-- Make a NaN canonical and pass anything else (R38). -/
def canon (x : W32) : W32 := if ofFp32 x = .nan then nan32 else x

/-- Maximum: NaN if either is NaN, and -0 below +0 (R59). -/
def maxF (x y : W32) : W32 :=
  let a := ofFp32 x
  let b := ofFp32 y
  if a = .nan ∨ b = .nan then nan32
  else if cmpV a b = 0 then (if a.neg then y else x)
  else if cmpV a b < 0 then y else x

/-- Minimum: NaN if either is NaN, and -0 below +0 (R59). -/
def minF (x y : W32) : W32 :=
  let a := ofFp32 x
  let b := ofFp32 y
  if a = .nan ∨ b = .nan then nan32
  else if cmpV a b = 0 then (if a.neg then x else y)
  else if cmpV a b < 0 then x else y

/-- The order of top-k: NaN below -infinity, -0 equal to +0 (R59). -/
def topLt (x y : W32) : Bool :=
  let a := ofFp32 x
  let b := ofFp32 y
  match a, b with
  | .nan, .nan => false
  | .nan, _ => true
  | _, .nan => false
  | a, b => decide (cmpV a b < 0)

/-! ## Skived formats (R40 to R43, R49, R50, R52) -/

/-- The exact value of a skived element, before its scale. -/
def skElem (code x : Nat) : Bool × Nat × Int :=
  match code with
  | 5 => if 128 ≤ x % 256 then (true, 256 - x % 256, 0) else (false, x % 256, 0)
  | 6 =>
    match decodeF e2m1 (x % 8) with
    | .fin _ m e => if m = 0 then (false, 0, e) else (bitAt x 3, m, e)
    | _ => (false, 6, 0)
  | _ =>
    match x % 4 with
    | 1 => (false, 1, 0)
    | 3 => (true, 1, 0)
    | _ => (false, 0, 0)

/-- The value of a skived element under its scale byte; 255 marks a NaN block (R43). -/
def skValue (code x s : Nat) : FVal :=
  if s = 255 then .nan
  else
    let r := skElem code x
    .fin r.1 r.2.1 (r.2.2 + (s : Int) - 127)

/-- The largest element magnitude of a skived format (R50). -/
def skEmax (code : Nat) : Nat :=
  match code with
  | 5 => 127
  | 6 => 6
  | _ => 1

/-- The smallest e with M × 2^E ≤ emax × 2^e, for M above 0 (R50). -/
def skExponent (code m : Nat) (e : Int) : Int :=
  let base := e + (Nat.log2 m : Int) - 8
  let ok (i : Nat) : Bool :=
    let t := base + (i : Int)
    let lo := min e t
    decide (m * 2 ^ (e - lo).toNat ≤ skEmax code * 2 ^ (t - lo).toNat)
  base + ((List.range 10).find? ok |>.getD 9 : Nat)

/-- The grid code of a magnitude m × 2^e, without the sign: to nearest with ties to the even code (R50). -/
def skRound (code m : Nat) (e : Int) : Nat :=
  if code = 6 then (roundMag e2m1 m e).1
  else if 0 ≤ e then m * 2 ^ e.toNat
  else (shiftRne m (-e).toNat).1

/-- The grid code just at or below a magnitude, its distance to the magnitude and the distance to the next code, both
in the same unit. -/
def skFloor (code m : Nat) (e : Int) : Nat × Nat × Nat :=
  if m = 0 then (0, 0, 1)
  else
    let q : Int := if code = 6 then quantumOf e2m1 m e else 0
    if q ≤ e then
      ((if code = 6 then (q - e2m1.qmin).toNat * 2 else 0) + m * 2 ^ (e - q).toNat, 0, 1)
    else
      let s := (q - e).toNat
      ((if code = 6 then (q - e2m1.qmin).toNat * 2 else 0) + m / 2 ^ s, m % 2 ^ s, 2 ^ s)

/-- Stochastic rounding of a signed magnitude with the 16-bit value r (R52). -/
def skRoundSr (code : Nat) (neg : Bool) (m : Nat) (e : Int) (r : Nat) : Nat :=
  let f := skFloor code m e
  if f.2.1 = 0 then f.1
  else if neg then
    if r < (f.2.2 - f.2.1) * 65536 / f.2.2 then f.1 else f.1 + 1
  else
    if r < f.2.1 * 65536 / f.2.2 then f.1 + 1 else f.1

/-- The largest grid code. -/
def skMaxCode (code : Nat) : Nat :=
  match code with
  | 5 => 127
  | 6 => 7
  | _ => 1

/-- The element code of a signed grid code; a zero is +0 (R50). -/
def skEncode (code : Nat) (neg : Bool) (g : Nat) : Nat :=
  if g = 0 then 0
  else match code with
    | 5 => if neg then 256 - g else g
    | 6 => if neg then 8 + g else g
    | _ => if neg then 3 else 1

/-- Quantise a block: the scale byte, the element codes and the flags (R50). `rnd i` is the stochastic value of
element i, `none` for rounding to nearest. -/
def quantise (code : Nat) (xs : List W32) (rnd : Nat → Option Nat) : Nat × List Nat × FFlags :=
  let vs := xs.map ofFp32
  let bad := vs.any (fun v => match v with
    | .fin _ _ _ => false
    | _ => true)
  if bad then (255, xs.map (fun _ => 0), fInvalid)
  else
    let big := vs.foldl (fun a v => if cmpV a (absV v) < 0 then absV v else a) (.fin false 0 0)
    match big with
    | .fin _ m e =>
      if m = 0 then (0, xs.map (fun _ => 0), 0)
      else
        let e0 := skExponent code m e
        let e1 : Int := if 127 < e0 then 127 else if e0 < -127 then -127 else e0
        let codes := vs.zipIdx.map (fun vi =>
          match vi.1 with
          | .fin n m' e' =>
            let g := match rnd vi.2 with
              | some r => skRoundSr code n m' (e' - e1) r
              | none => skRound code m' (e' - e1)
            (skEncode code n (min g (skMaxCode code)), decide (skMaxCode code < g))
          | _ => (0, false))
        ((e1 + 127).toNat, codes.map Prod.fst,
          if decide (127 < e0) || codes.any Prod.snd then fSaturate else 0)
    | _ => (0, xs.map (fun _ => 0), 0)

/-- The random value of R53 for an element offset and a seed. -/
def srRandom (seed : W32) (o : Nat) : Nat :=
  let x0 := seed ^^^ (BitVec.ofNat 32 o * 0x9E3779B9)
  let x1 := (x0 ^^^ (x0 >>> 16)) * 0x85EBCA6B
  let x2 := (x1 ^^^ (x1 >>> 13)) * 0xC2B2AE35
  let x3 := x2 ^^^ (x2 >>> 16)
  x3.toNat % 65536

/-! ## Elements in memory (R44) -/

/-- The element at index i of a packed region of bytes, as raw bits. -/
def elemAt (code : Nat) (bs : List Byte) (i : Nat) : Nat :=
  match code with
  | 0 => fieldAt bs (4 * i) 4
  | 1 | 2 => fieldAt bs (2 * i) 2
  | 3 | 4 | 5 => fieldAt bs i 1
  | 6 => (fieldAt bs (i / 2) 1) / 2 ^ (4 * (i % 2)) % 16
  | _ => (fieldAt bs (i / 4) 1) / 2 ^ (2 * (i % 4)) % 4

/-- Pack element codes into bytes, in order; their number fills whole bytes. -/
def packElems (code : Nat) (xs : List Nat) : List Byte :=
  match code with
  | 0 => xs.flatMap (fun x => leBytes 4 x)
  | 1 | 2 => xs.flatMap (fun x => leBytes 2 x)
  | 3 | 4 | 5 => xs.map (fun x => BitVec.ofNat 8 x)
  | 6 => (List.range ((xs.length + 1) / 2)).map (fun i =>
      BitVec.ofNat 8 (xs.getD (2 * i) 0 + 16 * xs.getD (2 * i + 1) 0))
  | _ => (List.range ((xs.length + 3) / 4)).map (fun i =>
      BitVec.ofNat 8 (xs.getD (4 * i) 0 + 4 * xs.getD (4 * i + 1) 0 + 16 * xs.getD (4 * i + 2) 0 +
        64 * xs.getD (4 * i + 3) 0))

/-- Convert a row of FP32 values into a format: element bytes, scale bytes (none but for a skived format) and flags
(R48, R50). -/
def convertRow (code : Nat) (sat : Bool) (xs : List W32) (rnd : Nat → Option Nat) :
    List Byte × List Byte × FFlags :=
  if isSkived code then
    let blocks := (List.range (xs.length / 32)).map (fun b =>
      quantise code ((xs.drop (32 * b)).take 32) (fun i => rnd (32 * b + i)))
    (packElems code (blocks.flatMap (fun b => b.2.1)), blocks.map (fun b => BitVec.ofNat 8 b.1),
      blocks.foldl (fun f b => f ||| b.2.2) 0)
  else
    let rs := xs.map (fun x => roundF (ffmtOf code) sat (ofFp32 x))
    (packElems code (rs.map Prod.fst), [], rs.foldl (fun f r => f ||| r.2) 0)

end Sys2Proof.Machine
end

