-- ==== Sys2Proof/Machine/Operands.lean ====
section
/-! DEFINITION. Operand forms of the core instructions: scalar registers, issue offsets, instruction words, slice
runs in linear and 2D form, and skived tensors. -/

namespace Sys2Proof.Machine

/-! ## Scalar registers and issue offsets (R72, R82) -/

/-- Scalar register i: S0 reads as zero. -/
def Sequencer.reg (q : Sequencer) (i : BitVec 5) : W32 := if i = 0 then 0 else Tab.get 0 q.regs i.toNat

/-- Write scalar register i: a write to S0 is discarded. -/
def Sequencer.setReg (q : Sequencer) (i : BitVec 5) (v : W32) : Sequencer :=
  if i = 0 then q else { q with regs := Tab.set q.regs i.toNat v }

/-- The offset register that a sel value names, numbered as SEQ_OFF0 to SEQ_OFF8; a bad sel names none (R82, R83). -/
def offsetIndex (sel : BitVec 4) : Option Nat :=
  let e := sel.toNat / 4
  let k := sel.toNat % 4
  if e = 0 ∨ k = 3 then none else some ((e - 1) * 3 + k)

/-- Offset register i. -/
def Sequencer.offset (q : Sequencer) (i : Nat) : W32 := Tab.get 0 q.offsets i

/-- The value that an offset register keeps: slot W holds 16 bits. -/
def offsetValue (i : Nat) (v : W32) : W32 := if i % 3 = 2 then v &&& 0xFFFF else v

/-- The number of an engine's slot 0. -/
def engineOffsetBase (e : Engine) : Nat :=
  match e with
  | .matrix => 0
  | .vector => 3
  | .stream => 6

/-- An address operand with its offset added, `none` where the sum does not fit (R83). -/
def addOffset {w : Nat} (v : BitVec w) (off : W32) : Option (BitVec w) :=
  if v.toNat + off.toNat < 2 ^ w then some (BitVec.ofNat w (v.toNat + off.toNat)) else none

/-- An engine instruction with slot 0 added to address operand 0 and slot 1 to address operand 1 (R82, R95, R129,
R184). A.XFER has no displacement, so nothing is added to it (log entry 7). -/
def EngineOp.addOffsets (op : EngineOp) (o0 o1 : W32) : Option EngineOp :=
  match op with
  | .mxl o pva => (addOffset o.wAddr o0).map (fun a => .mxl { o with wAddr := a } pva)
  | .mms o pva => (addOffset o.inAddr o1).map (fun a => .mms { o with inAddr := a } pva)
  | .mxd o => (addOffset o.outAddr o0).map (fun a => .mxd { o with outAddr := a })
  | .vop k o pva =>
    match addOffset o.doff o0, addOffset o.aoff o1 with
    | some d, some a => some (.vop k { o with doff := d, aoff := a } pva)
    | _, _ => none
  | .srun o pva =>
    if pva then some op
    else match addOffset o.fdisp o0, addOffset o.ldisp o1 with
      | some f, some l => some (.srun { o with fdisp := f, ldisp := l } pva)
      | _, _ => none
  | other => some other

/-- The instruction is a PVA-2200 form. -/
def EngineOp.isPva (op : EngineOp) : Bool :=
  match op with
  | .mxl _ p => p
  | .mms _ p => p
  | .vop _ _ p => p
  | .srun _ p => p
  | _ => false

/-! ## Instruction words (R68) -/

/-- The opcode of a vector operation (R126). -/
def VOp.opcode (v : VOp) : Nat :=
  match v with
  | .add => 0x10 | .sub => 0x11 | .mul => 0x12 | .fma => 0x13 | .max => 0x14 | .min => 0x15 | .abs => 0x16
  | .neg => 0x17 | .cmp => 0x18 | .sel => 0x19 | .cvt => 0x1A | .exp => 0x20 | .log => 0x21 | .rcp => 0x22
  | .rsq => 0x23 | .tanh => 0x24 | .sigm => 0x25 | .rsum => 0x30 | .rmax => 0x31 | .rmin => 0x32 | .rssq => 0x33
  | .scan => 0x34 | .smax => 0x38 | .sexp => 0x39 | .ssum => 0x3A | .topk => 0x3C | .gath => 0x40 | .scat => 0x41
  | .hash => 0x44 | .rope => 0x45

/-- Every vector operation. -/
def VOp.all : List VOp :=
  [.add, .sub, .mul, .fma, .max, .min, .abs, .neg, .cmp, .sel, .cvt, .exp, .log, .rcp, .rsq, .tanh, .sigm, .rsum,
   .rmax, .rmin, .rssq, .scan, .smax, .sexp, .ssum, .topk, .gath, .scat, .hash, .rope]

/-- The vector operation of an opcode. -/
def VOp.ofOpcode (n : Nat) : Option VOp := VOp.all.find? (fun v => decide (v.opcode = n))

/-- The low 56 operand bits of a vector instruction (R127). -/
def vopLow56 (o : VopOps) : Nat :=
  o.d.toNat * 2 ^ 52 + o.a.toNat * 2 ^ 47 + o.b.toNat * 2 ^ 42 + o.c.toNat * 2 ^ 37 + o.fn.toNat * 2 ^ 33 +
  boolNat o.sat * 2 ^ 32 + boolNat o.last * 2 ^ 31 + o.rsv.toNat * 2 ^ 30 + o.doff.toNat * 2 ^ 15 + o.aoff.toNat

/-- Engine, opcode and operand bits [71:0] of an engine instruction. -/
def EngineOp.encoding (op : EngineOp) : Nat × Nat × Nat :=
  match op with
  | .mxl o p => (1, if p then 0xE8 else 0x00,
      o.wAddr.toNat * 2 ^ 51 + o.wFmt.toNat * 2 ^ 47 + boolNat o.sparse * 2 ^ 46 + boolNat o.plane * 2 ^ 45 +
      boolNat o.alt * 2 ^ 44 + boolNat o.header * 2 ^ 43 + o.rsv.toNat)
  | .mms o p => (1, if p then 0xE9 else 0x01,
      o.inAddr.toNat * 2 ^ 51 + o.inMap.toNat * 2 ^ 49 + o.rows.toNat * 2 ^ 33 + o.accBase.toNat * 2 ^ 24 +
      boolNat o.plane * 2 ^ 23 + boolNat o.alt * 2 ^ 22 + boolNat o.clear * 2 ^ 21 + boolNat o.dthru * 2 ^ 20 +
      o.outMap.toNat * 2 ^ 18 + boolNat o.zrow * 2 ^ 17 + o.zrowAddr.toNat * 2 ^ 2 + o.rsv.toNat)
  | .mxd o => (1, 0x02,
      o.outAddr.toNat * 2 ^ 51 + o.accBase.toNat * 2 ^ 42 + o.rows.toNat * 2 ^ 32 + o.outMap.toNat * 2 ^ 30 +
      boolNat o.release * 2 ^ 29 + o.rsv.toNat)
  | .mxmap o => (1, 0x03,
      o.elemBase.toNat * 2 ^ 51 + o.scaleBase.toNat * 2 ^ 30 + o.rowStride.toNat * 2 ^ 15 + o.fmt.toNat * 2 ^ 11 +
      boolNat o.sat * 2 ^ 10 + o.map.toNat * 2 ^ 8 + o.rsv.toNat)
  | .mxclr o => (1, 0x04,
      o.outAddr.toNat * 2 ^ 51 + o.accBase.toNat * 2 ^ 42 + o.rows.toNat * 2 ^ 32 + o.outMap.toNat * 2 ^ 30 +
      boolNat o.release * 2 ^ 29 + o.rsv.toNat)
  | .vxdsc o => (2, 0x01,
      o.base.toNat * 2 ^ 51 + o.fmt.toNat * 2 ^ 47 + boolNat o.int * 2 ^ 46 + o.idx.toNat * 2 ^ 43 +
      o.form.toNat * 2 ^ 41 + o.rowLen.toNat * 2 ^ 27 + o.rowStride.toNat * 2 ^ 12 + o.rsv.toNat)
  | .vxdss o => (2, 0x02,
      o.scaleBase.toNat * 2 ^ 51 + o.rsvHi.toNat * 2 ^ 46 + o.idx.toNat * 2 ^ 43 + o.rsvLo.toNat)
  | .vxk o => (2, 0x03,
      o.rsvHi.toNat * 2 ^ 67 + o.idx.toNat * 2 ^ 64 + o.rsvLo.toNat * 2 ^ 32 + o.value.toNat)
  | .vop v o p => if p then (2, 0xE0, v.opcode * 2 ^ 56 + vopLow56 o) else (2, v.opcode, o.n.toNat * 2 ^ 56 + vopLow56 o)
  | .srun o p => (3, if p then 0xEC else 0x00,
      o.fdisp.toNat * 2 ^ 40 + o.ldisp.toNat * 2 ^ 25 + o.desc.toNat * 2 ^ 10 + boolNat o.alt * 2 ^ 9 + o.rsv.toNat)

/-! ## Runs of words in a slice (R155 to R157) -/

/-- The slice offset of word (tile, row, column). -/
def wordOffset (tile row col : Nat) : Nat := tile * 65536 + row * 2048 + col * 64

/-- The tile, row and column of a slice offset. -/
def tileOf (off : Nat) : Nat := off / 65536
/-- The tile row of a slice offset. -/
def rowOf (off : Nat) : Nat := off / 2048 % 32
/-- The column of a slice offset. -/
def colOf (off : Nat) : Nat := off / 64 % 32

/-- The bank of a word (R156). -/
def bankOf (off : Nat) : Nat := (rowOf off + colOf off) % 32

/-- The slice size in bytes. -/
def sliceSize : Nat := 0x200000

/-! ## Skived tensors (R102) -/

/-- The scale byte's address of the block that holds the byte at element address a. -/
def scaleAddr (code elemBase scaleBase a : Nat) : Nat := scaleBase + (a - elemBase) / blockBytes code

/-- The FP32 values of `n` skived elements, read from a slice at bit address `b`, each with the scale of the block that its byte
lies in; the flags of an overflowing dequantisation (R47, R49). A value beyond the FP32 range becomes an infinity here, and its
conversion to a narrower format starts from that: R49 rounds once to the target and does not say what saturation does. DESIGN CHOICE,
log entry 65. -/
def Slice.readSkived (sl : Slice) (code elemBase scaleBase b n : Nat) : List W32 × FFlags :=
  let w := elemBits code
  let rs := (List.range n).map (fun i =>
    let a := (b + i * w) / 8
    toFp32 (skValue code (elemAt code (sl.bytes a 1) ((b + i * w) % 8 / w))
      (fieldAt (sl.bytes (scaleAddr code elemBase scaleBase a) 1) 0 1)))
  (rs.map Prod.fst, rs.foldl (fun f r => f ||| r.2) 0)

end Sys2Proof.Machine
end

