-- ==== Sys2Proof/Machine/Scratchpad.lean ====
section
/-! DEFINITION. The scratchpad fabric (06): incoming write packets, port B waits and collisions, tile power, the
background row test, fills and wipes of a slice. -/

namespace Sys2Proof.Machine

/-! ## Tile power (R166, R167, R169) -/

/-- The state that the masks request of tile t: 0 off, 1 retention, 2 on (R167). -/
def Slice.requested (sl : Slice) (t : Nat) : Nat :=
  if bitAt sl.tileOn.toNat t then 2 else if bitAt sl.tileRet.toNat t then 1 else 0

/-- The code of a tile's state; a transition is 3 (R181). -/
def TileState.code (t : TileState) : Nat :=
  match t with
  | .off => 0
  | .retention => 1
  | .on => 2
  | .toward _ _ => 3

/-- A tile on its way from off to on. -/
def TileState.rising (t : TileState) : Bool :=
  match t with
  | .toward 0 2 => true
  | _ => false

/-- The state of a code. -/
def tileStateOf (c : Nat) : TileState :=
  match c with
  | 0 => .off
  | 1 => .retention
  | _ => .on

/-- Start the transition of tile t toward `want`, if one is due. A tile in off goes on first, and at most four tiles
leave off at a time (R166, R167). -/
def Slice.startTile (sl : Slice) (t want : Nat) : Slice :=
  match sl.tile t with
  | .toward _ _ => sl
  | st =>
    let src := st.code
    if src = want then sl
    else if src = 0 then
      if ((List.range 32).filter (fun k => (sl.tile k).rising)).length < 4 then
        { sl with tiles := Tab.set sl.tiles t (.toward 0 2) }
      else sl
    else { sl with tiles := Tab.set sl.tiles t (.toward src want) }

/-- Start every transition that the masks request, in ascending tile index. -/
def Slice.retarget (sl : Slice) : Slice :=
  (List.range 32).foldl (fun sl t => sl.startTile t (sl.requested t)) sl

/-- Fill a tile with +0 and make its words good. -/
def Slice.zeroTile (sl : Slice) (t : Nat) : Slice :=
  { sl with mem := Mem.zeroRange sl.mem (t * 65536) (t * 65536 + 65536),
            bad := sl.bad.filter (fun w => decide (w / 1024 ≠ t)), weak := sl.weak.filter (fun q => decide (q / 4096 ≠ t)) }

/-- A tile reaches the target of its transition. A tile that goes off loses its contents, and one that leaves off
holds +0 (R166). -/
def Slice.reach (sl : Slice) (t : Nat) : Slice :=
  match sl.tile t with
  | .toward src dst =>
    let sl1 := if src = 0 ∨ dst = 0 then sl.zeroTile t else sl
    { sl1 with tiles := Tab.set sl1.tiles t (tileStateOf dst) }
  | _ => sl

/-- The tiles of slice `p` follow their masks: its core is in C0 or C1, which a core of no panel and a spare or retired core that is
held off are not (R154, R169, 15 R405). A mask written meanwhile takes effect when the core leaves that state. Log entry 66. -/
def State.tilesFollow (s : State) (p : Nat) : Bool := decide (s.corePower p ≤ 1) && !s.heldOff p

/-- TILE_STATE_REACHED: a tile finishes a power transition, and the next ones start (R166, R167). -/
def execTileStateReached (slice tile : Nat) (s : State) : Answer :=
  if s.clocked slice && decide (tile < 32) then
    match (s.core slice).slice.tile tile with
    | .toward _ _ =>
      let sl := (s.core slice).slice.reach tile
      .next (s.modSlice slice (fun _ => if s.tilesFollow slice then sl.retarget else sl))
    | _ => .next s
  else .next s

/-- SPM_TILE_MASK_WRITE: a PF write of SPM_TILE_ON, or of SPM_TILE_RET for `ret`; refused with E_SPM_CTRL_BUSY while
the slice's core is neither idle nor frozen (R167). -/
def execSpmTileMaskWrite (slice : Nat) (ret : Bool) (value : W32) (s : State) : Answer :=
  s.hostTo (.spmTileMaskWrite slice ret value) [slice] (fun s =>
    if !(decide (slice < 160) && s.barOpen 0) then .next s
    else if (s.core slice).settled then
      .next (s.modSlice slice (fun sl =>
        let sl1 := if ret then { sl with tileRet := value } else { sl with tileOn := value }
        if s.tilesFollow slice then sl1.retarget else sl1))
    else .next (s.event 0x1020))

/-! ## Fills and wipes (R173, R176) -/

/-- Change the contents of slice `p`, and with them what a canary window saved of it (16 R432). -/
def State.modContents (s : State) (p : Nat) (f : Slice → Slice) : State :=
  let s1 := s.modSlice p f
  if s.rel.canaryCore = p then { s1 with rel := { s1.rel with canarySaved := s1.rel.canarySaved.map f } } else s1

/-- A whole-slice zero fill: every tile that is on holds +0, and tiles not on are turned off (R173). -/
def Slice.fill (sl : Slice) : Slice :=
  (List.range 32).foldl (fun sl t =>
    if sl.tileIsOn t then sl.zeroTile t
    else { sl.zeroTile t with tiles := Tab.set sl.tiles t .off }) sl

/-- Wipe the secure tiles: +0 where they are on, turned off where they are not (R176). -/
def Slice.wipeSecure (sl : Slice) : Slice :=
  [30, 31].foldl (fun sl t =>
    if sl.tileIsOn t then sl.zeroTile t
    else { sl.zeroTile t with tiles := Tab.set sl.tiles t .off }) sl

/-! ## Incoming packets (R175, R178, R179) -/

/-- A range touches the secure tiles. -/
def touchesSecure (off n : Nat) : Bool := decide (0 < n) && decide (0x1E0000 < off + n)

/-- The secure mark refuses a packet (R175). -/
def Slice.refusesPacket (sl : Slice) (p : WritePkt) : Bool :=
  sl.secure && touchesSecure p.addr p.data.length && (!p.secure || p.fromLink)

/-- How a packet ends at port B. -/
inductive PktEnd where
  | done | dropped | refused
  deriving DecidableEq, Repr

/-- A packet that port B drops: counted, with its event once in a step (R179). -/
def State.noteDropped (s : State) (slice : Nat) : State :=
  let s1 := s.count (sliceReg slice 0x120) 1
  if (s.core slice).slice.dropRaised then s1
  else (s1.event 0x1013).modSlice slice (fun sl => { sl with dropRaised := true })

/-- A packet at port B of physical slice `slice`: dropped where its context or tag is not the resident one, refused by
the secure mark or a tile that is not on, otherwise committed, with its raise (R168, R175, R178, R179). A packet of another context is
dropped before the secure mark is asked, where R175 and R179 both have a word to say. DESIGN CHOICE, log entry 65. -/
def State.deliver (s : State) (slice : Nat) (p : WritePkt) : PktEnd × State :=
  let sl := (s.core slice).slice
  if sl.resident ≠ some (p.ctx.toNat, p.gen) then (.dropped, s.noteDropped slice)
  else if sl.refusesPacket p then (.refused, s.noteSecure slice)
  else if !sl.rangeOn p.addr p.data.length then (.refused, s.noteRefused slice)
  else
    let s1 := s.modSlice slice (fun sl => sl.write p.addr p.data)
    (.done, if p.raise then s1.raiseCtr slice p.ctr else s1)

/-- A packet from outside the core's own units, and the completion that port B returns for it (R163, R179). -/
def State.incoming (s : State) (slice : Nat) (p : WritePkt) (collided : Bool) : State :=
  let e := s.deliver slice p
  e.2.emit (.write p slice (e.1 = .dropped) (e.1 = .refused) collided)

/-! ## Port B waits and collisions (R162 to R164) -/

/-- An access of port B that writes, or reads, collides with that of port A: one is a read and the other a write (R163, R164). -/
def collides (write : Bool) (a : PortA) : Bool := a.write != write

/-- A port B access of slice `p` meets one of port A on its word: a collision is counted and recorded with the port of the later
access, the write commits, and the read, of either port, gets undefined data (R163); a flagged read that is reissued does not keep
them, and its flag counts in STR_COLLISIONS of the core (R197). -/
def State.meetWord (s : State) (p : Nat) (b : PortB) (a : PortA) : State :=
  if !collides b.write a then s
  else
    let s := if b.reissued && !b.write then s.count (coreReg p 0x2128) 1 else s
    (s.modSlice p (fun sl =>
      { sl with collWord := a.word * 64, collPort := !a.later, collValid := true,
                undefReads := if a.write then sl.undefReads else a.word :: sl.undefReads,
                undefB := if a.write && (a.later || !b.reissued) then a.word :: sl.undefB else sl.undefB })).count
      (sliceReg p 0x100) 1

/-- The bytes that port B reads: free ones in a word whose read met a write of port A (R163, R210). -/
def State.portBRead (s : State) (p off n : Nat) : List Byte × State :=
  let sl := (s.core p).slice
  let ws := sl.undefB.filter (fun w => decide (w * 64 < off + n) && decide (off < w * 64 + 64))
  if ws.isEmpty then (sl.bytes off n, s)
  else
    let d := s.drawBytes n
    ((sl.bytes off n).mapIdx (fun i b => if ws.contains ((off + i) / 64) then d.1.getD i b else b),
     d.2.modSlice p (fun sl => { sl with undefB := sl.undefB.filter (fun w => !ws.contains w) }))

/-- A port B access to its word (R162, R165, R168, R175): a tile that is not on, or the secure mark, refuses it; a write changes the
bytes that it covers. -/
def State.portBAccess (s : State) (p : Nat) (b : PortB) : State :=
  let sl := (s.core p).slice
  if sl.secure && touchesSecure (b.word * 64) 64 && !b.secure then s.noteSecure p
  else if !sl.rangeOn (b.word * 64) 64 then s.noteRefused p
  else if b.write then s.modSlice p (fun sl => sl.write (b.word * 64 + b.off) (b.data.take (64 - b.off)))
  else if sl.bad.contains b.word then s.noteBad p b.word
  else s.noteReads p [(b.word * 64, 64)]

/-- The access is served: its tile is on, and the secure mark lets it pass. -/
def Slice.servesB (sl : Slice) (b : PortB) : Bool :=
  sl.rangeOn (b.word * 64) 64 && !(sl.secure && touchesSecure (b.word * 64) 64 && !b.secure)

/-- PORT_B_DEFER_START: the access that waited starts, and may meet an access of port A (R162, R163). -/
def execPortBDeferStart (slice : Nat) (b : PortB) (waited : Nat) (meets : Option PortA) (s : State) : Answer :=
  if !(s.clocked slice && decide (b.word < 32768)) then .next s
  else
    let s1 := (s.count (sliceReg slice 0x108) waited).modSlice slice (fun sl =>
      { sl with starved := sl.starved.filter (fun i => decide (i ≠ b.id)) })
    let s2 := s1.portBAccess slice b
    match meets with
    | some a => .next (if decide (a.word = b.word) && (s.core slice).slice.servesB b then s2.meetWord slice b a else s2)
    | none => .next s2

/-- PORT_B_STARVE: access `id` has waited 1,024 cycles: it raises E_SPM_B_STARVE once and goes on waiting (R162). -/
def execPortBStarve (w : BWait) (s : State) : Answer :=
  if !s.clocked w.slice || (s.core w.slice).slice.starved.contains w.id then .next s
  else .next ((s.event 0x1014).modSlice w.slice (fun sl => { sl with starved := w.id :: sl.starved }))

/-! ## The background row test (R170 to R172) -/

/-- The tile row after (tile, row): rows within a tile, then the next tile; the pass ends after the last. -/
def nextTestRow (tile row : Nat) : Nat × Nat × Bool :=
  if row < 31 then (tile, row + 1, false) else if tile < 31 then (tile + 1, 0, false) else (0, 0, true)

/-- Step the test position, counting passes up to 0xFFFF. -/
def Slice.advanceTest (sl : Slice) : Slice :=
  let n := nextTestRow sl.testTile sl.testRow
  { sl with testTile := n.1, testRow := n.2.1,
            testPasses := if n.2.2 && sl.testPasses ≠ 0xFFFF then sl.testPasses + 1 else sl.testPasses }

/-- Skip the tiles that are not on (R170). -/
def Slice.skipTiles (fuel : Nat) (sl : Slice) : Slice :=
  match fuel with
  | 0 => sl
  | n + 1 => if sl.tileIsOn sl.testTile then sl else Slice.skipTiles n (Slice.advanceTest sl)

/-- One failing word of the row under test: a bank spare replaces it, or the bank runs out, the test stops and
the core is retired (R172, 16 R433). -/
def State.failWord (s : State) (slice : Nat) (tile row col : Nat) : State :=
  let bank := (row + col) % 32
  let used := Tab.get 0 (s.core slice).slice.sparesUsed bank
  if used < 4 then
    (s.modSlice slice (fun sl => { sl with sparesUsed := Tab.set sl.sparesUsed bank (used + 1) })).event 0x1011
  else
    ((s.modSlice slice (fun sl =>
      { sl with failedRow := some (tile, row), spareOut := sl.spareOut ||| BitVec.ofNat 32 (2 ^ bank) })).event 0x1010).retireCore slice

/-- ROW_TEST: the next tile row that is on is saved, tested and restored; `failed` lists the columns whose words fail, and
`corrected` those in whose words the test corrects an error (R170, R172). The contents stay as they were, and the restore leaves no
correctable error. -/
def execRowTest (slice : Nat) (r : RowResult) (s : State) : Answer :=
  let sl := ((s.core slice).slice).skipTiles 1024
  if !s.clocked slice || decide (s.corePower slice = 3) || !sl.testOn || sl.testSuspended || s.testHeld slice || !sl.testDue || sl.failedRow.isSome ||
      !sl.tileIsOn sl.testTile then .next s
  else
    let row := sl.testTile * 32 + sl.testRow
    let weak := ((sl.weak.filter (fun q => decide (q / 128 = row))).map (fun q => q / 4 % 32) ++
      r.corrected.filter (fun c => decide (c < 32))).dedup
    let s1 := (s.modSlice slice (fun _ =>
      { sl.advanceTest with testDue := false, weak := sl.weak.filter (fun q => decide (q / 128 ≠ row)) })).count (sliceReg slice 0x130) 1
    let s2 := if weak.isEmpty then s1 else s1.count (sliceReg slice 0x110) weak.length
    .next ((r.failed.filter (fun c => decide (c < 32))).foldl (fun s c => s.failWord slice sl.testTile sl.testRow c) s2)

/-- ROW_TEST_INTERVAL_EXPIRY: the row interval after a restore has passed (R171). -/
def execRowTestIntervalExpiry (slice : Nat) (s : State) : Answer :=
  if s.clocked slice && decide (s.corePower slice ≠ 3) && (s.core slice).slice.testOn && !(s.core slice).slice.testSuspended &&
      !s.testHeld slice then
    .next (s.modSlice slice (fun sl => { sl with testDue := true }))
  else .next s

/-- SEQ_CTRL_WRITE: a PF write of SEQ_CTRL, refused with E_SEQ_CTRL_BUSY unless the core is idle or frozen (R91). -/
def execSeqCtrlWrite (core : Nat) (value : W32) (s : State) : Answer :=
  s.hostTo (.seqCtrlWrite core value) [core] (fun s =>
    if !(decide (core < 160) && s.barOpen 0) then .next s
    else if (s.core core).settled then
      .next (s.modSeq core (fun q => { q with pvaCompat := bitAt value.toNat 0 }))
    else .next (s.event 0x0810))

/-- MX_CTRL_WRITE: a PF write of MX_CTRL, refused with E_MX_CTRL_BUSY unless the core is idle or frozen (R124). -/
def execMxCtrlWrite (core : Nat) (value : W32) (s : State) : Answer :=
  s.hostTo (.mxCtrlWrite core value) [core] (fun s =>
    if !(decide (core < 160) && s.barOpen 0) then .next s
    else if (s.core core).settled then
      .next (s.modCore core (fun c => { c with mx := { c.mx with freezeMode := bitAt value.toNat 0 } }))
    else .next (s.event 0x0830))

end Sys2Proof.Machine
end

