-- ==== Sys2Proof/Machine/PState.lean ====
section
/-! DEFINITION. Core and module power states (15 R402, R405 to R407; 06 R169). -/

namespace Sys2Proof.Machine

/-! ## What the governor may count on -/

/-- The floor in force: a raised floor waits for its grant, and what could be raised without one holds meanwhile (R385, R399). -/
def Gov.floorNow (g : Gov) : Nat := if g.waiting.any (fun x => decide (x.1 = floorKey)) then g.floorWas else g.floor

/-- The lower bound of the draw in hundredths of a W: the floor, or the ramp below the present draw (R388). -/
def Gov.lo (g : Gov) : Nat := max (100 * g.floorNow) (100 * g.draw - g.ramp)

/-- A core's array may run dead work (R392): its core is in C0, in a panel that is not admitted, not under a canary test, not
retired and not held. -/
def State.deadArray (s : State) (p : Nat) : Bool :=
  let c := s.core p
  match c.panel with
  | none => false
  | some k => !(s.panel k).admitted && decide (c.cState = 0) && c.cTarget.isNone && !c.retired &&
      !(decide (s.rel.canaryState ≠ .waiting) && decide (s.rel.canaryCore = p)) && !(Tab.get {} s.gov.limits p).hold

/-- The arrays that may run dead work. -/
def State.deadArrays (s : State) : List Nat := (Tab.keys s.cores).filter s.deadArray

/-- Without the draw `drop`, dead work on the arrays for which `p` holds can still hold the lower bound. -/
def State.canHold (s : State) (drop : Nat) (p : Nat → Bool) : Bool :=
  decide (s.gov.lo ≤ 100 * (s.gov.draw - drop) + 400 * (s.deadArrays.filter p).length)

/-! ## The choice (R406) -/

/-- A panel is idle: no step runs or is queued. -/
def Panel.quiet (pn : Panel) : Bool := pn.running.isNone && pn.queue.isEmpty

/-- Entry and exit time of a core state in ns. -/
def stateCost (c : Nat) : Nat := [0, 30, 10000, 42000].getD c 0

/-- The gap until the next event of a panel's last packet. -/
def State.gapOf (s : State) (k : Nat) : Nat := (s.panel k).nextEvent - s.time

/-- A denied power state is counted and reported (R406). -/
def State.denyState (s : State) : State := (s.count (govReg 0x148) 1).eventPerMs 0x6804

/-- Choose a state for the cores of an idle panel, deepest first. -/
def State.pickState (s : State) (k : Nat) (cs : List Nat) : Nat × State :=
  match cs with
  | [] => (1, s)
  | c :: rest =>
    if (c = 3 ∧ bitAt s.gov.c3En.toNat k = false) ∨ (c ≠ 1 ∧ (s.panel k).admitted = true) ∨
        s.gapOf k < stateCost c + s.gov.marginUs * 1000 then s.pickState k rest
    else if !s.canHold (Config.stateDrop (s.panelCores k).length c) (fun p => decide ((s.core p).panel ≠ some k)) then
      s.denyState.pickState k rest
    else (c, s)

/-- The cores of a panel that leave C3, or have not left it. -/
def State.leavesC3 (s : State) (k : Nat) : Bool :=
  (s.panelCores k).any (fun q => decide ((s.core q).cState = 3) && decide ((s.core q).cTarget = some 0))

/-- Request a power state for the cores of a panel; each reaches it by CORE_POWER_STATE_REACHED. -/
def State.askState (s : State) (k c : Nat) : State :=
  (s.panelCores k).foldl (fun s p => s.modCore p (fun x => { x with cTarget := if x.cState = c then none else some c })) s

/-- The governor chooses for a panel, if it is idle. -/
def State.chooseState (s : State) (k : Nat) : State :=
  if !(s.panel k).written || !(s.panel k).quiet then s
  else
    let a := s.pickState k [3, 2, 1]
    a.2.askState k a.1

/-! ## CORE_POWER_STATE_REACHED (R169, R402, R405) -/

/-- A tile is on or on its way to on. -/
def TileState.turnsOn (t : TileState) : Bool :=
  match t with
  | .on => true
  | .toward _ 2 => true
  | _ => false

/-- The tiles of a slice whose core enters C2: those that are on, or on their way, go to retention, which the slice remembers. Log entry
66. -/
def Slice.enterC2 (sl : Slice) : Slice :=
  let on := (List.range 32).filter (fun i => (sl.tile i).turnsOn)
  let sl1 := on.foldl Slice.reach sl
  { sl1 with tiles := on.foldl (fun t i => Tab.set t i TileState.retention) sl1.tiles, parked := sl1.parked ++ on }

/-- The tiles that C2 placed in retention return to on; masks written meanwhile then take effect. -/
def Slice.leaveC2 (sl : Slice) : Slice :=
  ({ sl with tiles := sl.parked.foldl (fun t i => Tab.set t i TileState.on) sl.tiles, parked := [] } : Slice).retarget

/-- After C3 the tiles return to the states that their masks request, zero-filled. -/
def Slice.leaveC3 (sl : Slice) : Slice :=
  { sl with tiles := (List.range 32).foldl (fun t i =>
      Tab.set t i (tileStateOf (if bitAt sl.tileOn.toNat i then 2 else if bitAt sl.tileRet.toNat i then 1 else 0))) sl.tiles }

/-- Cores leave C3 in groups of 8 by ascending logical id, and panels take their turns in the order in which they woke (R402): no core
of an earlier panel, and none of a lower group of the panel, is still leaving. -/
def State.mayLeaveC3 (s : State) (p : Nat) : Bool :=
  let c := s.core p
  (s.gov.waking.takeWhile (fun k => decide (some k ≠ c.panel))).all (fun k => !s.leavesC3 k) &&
  (Tab.keys s.cores).all (fun q => !(decide ((s.core q).panel = c.panel) && decide ((s.core q).logical / 8 < c.logical / 8) &&
    decide ((s.core q).cState = 3) && decide ((s.core q).cTarget = some 0)))

/-- The core applies its requested state: it leaves the one it is in, then enters the other. -/
def Core.applyState (c : Core) (t : Nat) : Core :=
  let out := if t = c.cState then c.slice else if c.cState = 3 then c.slice.leaveC3 else if c.cState = 2 then c.slice.leaveC2 else c.slice
  let sl := if t = 3 then out.allOff else if t = 2 then out.enterC2 else out
  { c with cState := t, cTarget := none, slice := sl }

/-- CORE_POWER_STATE_REACHED: between steps, a core reaches the state that the governor requests. -/
def execCorePowerStateReached (core : Nat) (s : State) : Answer :=
  let c := s.core core
  match c.cTarget, c.panel with
  | some t, some k =>
    if !s.clocked core || (s.panel k).running.any (fun st => decide (st.handed ≠ 0)) then .next s
    else if c.cState = 3 ∧ !s.mayLeaveC3 core then .next s
    else
      let s0 := s.modCore core (fun c => c.applyState t)
      let s1 := if s0.leavesC3 k then s0 else { s0 with gov := { s0.gov with waking := s0.gov.waking.filter (fun j => decide (j ≠ k)) } }
      .next (if t = 3 then s1.modPanel k (fun pn => { pn with slept := true }) else s1)
  | _, _ => .next s

/-! ## The module's states (R405, R406) -/

/-- Nothing runs or waits in the module. -/
def State.moduleQuiet (s : State) : Bool :=
  s.panels.all (fun k => (s.panel k).quiet && !(s.panel k).admitted) && s.lnk.transfers.isEmpty && s.lnk.collectives.isEmpty &&
  s.edu.jobs.isEmpty

/-- The module test of a state: its entry, exit and margin fit every panel's gap. -/
def State.moduleGap (s : State) (cost : Nat) : Bool := s.panels.all (fun k => decide (cost + s.gov.marginUs * 1000 ≤ s.gapOf k))

/-- Request at least a power state for the cores of a panel: a core in a deeper one stays there. -/
def State.askAtLeast (s : State) (k c : Nat) : State :=
  (s.panelCores k).foldl (fun s p => s.modCore p (fun x => { x with
    cTarget := if x.cState < c then some c else none })) s

/-- The cores of the panels are as deep as a module state needs them (R405): in C2 or C3 for M-IDLE, in C3 for M-PARK. -/
def State.coresDeep (s : State) (t : MState) : Bool :=
  (Tab.keys s.cores).all (fun p => (s.core p).panel.isNone || (match t with
    | .active => true
    | .idle => decide (2 ≤ (s.core p).cState)
    | .park => decide (3 ≤ (s.core p).cState)))

/-- Choose M-PARK or M-IDLE, or return to M-ACTIVE (R406). -/
def State.chooseModule (s : State) : State :=
  let go (t : MState) (c : Nat) (s : State) : State :=
    if s.gov.mState = t ∨ s.gov.mTarget = some t then s
    else s.panels.foldl (fun s k => s.askAtLeast k c) { s with gov := { s.gov with mTarget := some t } }
  if !s.moduleQuiet then
    if s.gov.mState = .active then s else { s with gov := { s.gov with mTarget := some .active } }
  else
    let park := s.gov.parkEn && s.moduleGap 3500000
    let s1 := if park && !s.canHold (Config.stateDrop 0 5) (fun _ => false) then s.denyState else s
    if park && s.canHold (Config.stateDrop 0 5) (fun _ => false) then go .park 3 s
    else
      let idle := s.gov.idleEn && s.moduleGap 30000
      if idle && s.canHold (Config.stateDrop 0 4) (fun _ => false) then go .idle 2 s1
      else if idle then s1.denyState
      else s1

/-- MODULE_POWER_STATE_REACHED: the module reaches its state once its cores are as deep as that needs; in M-PARK the cache has been
written back. -/
def execModulePowerStateReached (s : State) : Answer :=
  match s.gov.mTarget with
  | none => .next s
  | some t =>
    if !s.islandOn 244 || !s.coresDeep t then .next s
    else
      let s1 := { s with gov := { s.gov with mState := t, mTarget := none } }
      .next (if t = .park then (Tab.keys s1.msc.lines).foldl (fun s l => s.mscDrop l true) s1 else s1)

end Sys2Proof.Machine
end

