-- ==== Sys2Proof/Machine/Gallery.lean ====
section
/-! DEFINITION. The gallery network (01 R30 to R34): the router grid, its attachments, the route of each traffic class, and the
packets that wait where an island on their way is held. The model counts no cycles: a packet goes as far as open routers let it in
the step that sends it (log entry 2). -/

namespace Sys2Proof.Machine

/-! ## The grid and its attachments (R31, R32) -/

/-- Router (c, r), by the physical id of its core. -/
def routerAt (c r : Nat) : Nat := 10 * r + c

/-- The column of a router. -/
def routerCol (p : Nat) : Nat := p % 10

/-- The row of a router. -/
def routerRow (p : Nat) : Nat := p / 10

/-- The ports of a router: four mesh ports, one local port to its core, and the service port that four routers have. -/
inductive RouterPort where
  | north | east | south | west | local_ | service
  deriving DecidableEq, Repr

/-- The routers with a service port. -/
def serviceRouters : List Nat := [routerAt 4 7, routerAt 5 7, routerAt 4 8, routerAt 5 8]

/-- What a port of router `p` leads to: a neighbour's router, or an attachment (R31, R32). -/
def portTarget (p : Nat) (q : RouterPort) : Option (Nat ⊕ NetPort) :=
  let c := routerCol p
  let r := routerRow p
  match q with
  | .local_ => some (.inr (.core p))
  | .north => if r = 0 then some (.inr (.drift 0)) else some (.inl (routerAt c (r - 1)))
  | .south => if r = 15 then some (.inr (.drift 1)) else some (.inl (routerAt c (r + 1)))
  | .west => if c = 0 then some (.inr (.hbm (r / 4) (r % 4))) else some (.inl (routerAt (c - 1) r))
  | .east => if c = 9 then some (.inr (.hbm (4 + r / 4) (r % 4))) else some (.inl (routerAt (c + 1) r))
  | .service => (serviceRouters.findIdx? (fun x => decide (x = p))).map (fun i => .inr (.service i))

/-- The router at which traffic between `x` and `y` meets the network at `x`: a drift die's traffic takes the column of its other
end (R32, R33). -/
def attachedAt (x y : NetPort) : Nat :=
  match x with
  | .core p => p
  | .hbm h row => routerAt (if h < 4 then 0 else 9) (4 * (h % 4) + row % 4)
  | .service i => serviceRouters.getD i (routerAt 4 7)
  | .drift d =>
    let c := match y with
      | .core p => routerCol p
      | .hbm h _ => if h < 4 then 0 else 9
      | .service i => routerCol (serviceRouters.getD i (routerAt 4 7))
      | .drift _ => 0
    routerAt c (if d = 0 then 0 else 15)

/-- The edge port that reaches the channel of an HBM offset (R32, R226). -/
def hbmPort (off : Nat) : NetPort := .hbm (stackOf off) (chanOf off % 4)

/-! ## Routing (R33) -/

/-- The numbers from `a`, itself left out, to `b`. -/
def span (a b : Nat) : List Nat := if a ≤ b then List.range' (a + 1) (b - a) else (List.range' b (a - b)).reverse

/-- A class of responses. -/
def isResponse (cls : Nat) : Bool := cls % 2 = 1

/-- The routers from one to another: requests go along the column and then along the row, responses the other way round. -/
def routeOf (src dst : Nat) (response : Bool) : List Nat :=
  let c := routerCol src
  let r := routerRow src
  let c' := routerCol dst
  let r' := routerRow dst
  src :: (if response then (span c c').map (fun x => routerAt x r) ++ (span r r').map (fun y => routerAt c' y)
          else (span r r').map (fun y => routerAt c y) ++ (span c c').map (fun x => routerAt x r'))

/-- The routers between two ports of the network. -/
def netRoute (x y : NetPort) (cls : Nat) : List Nat := routeOf (attachedAt x y) (attachedAt y x) (isResponse cls)

/-- The traffic class of a context's packets: the class-0 pair only while its panel is admitted (R14, R33). -/
def State.netClass (s : State) (ctx : Nat) (response : Bool) : Nat :=
  (if s.admittedCtx ctx then 2 else 0) + boolNat response

/-! ## Packets on their way (R29, R30, R33, R34) -/

/-- The buffer of router `p` for a traffic class. -/
def State.netBuf (s : State) (p cls : Nat) : List NetPkt := Tab.get [] (Tab.get {} s.net p).bufs cls

/-- Set the buffer of a router. -/
def State.setNetBuf (s : State) (p cls : Nat) (l : List NetPkt) : State :=
  { s with net := Tab.modify {} s.net p (fun r => { r with bufs := Tab.set r.bufs cls l }) }

/-- The handshake FIFO into a core's island (R30). -/
def State.fifo (s : State) (p : Nat) : List NetPkt := Tab.get [] s.clk.fifos p

/-- Set a handshake FIFO. -/
def State.setFifo (s : State) (p : Nat) (l : List NetPkt) : State :=
  { s with clk := { s.clk with fifos := Tab.set s.clk.fifos p l } }

/-- A router's row island is clocked (R27). -/
def State.routerOn (s : State) (p : Nat) : Bool := s.islandOn (208 + routerRow p)

/-- A router takes a packet of a class and passes it on at once. -/
def State.passes (s : State) (cls p : Nat) : Bool := s.routerOn p && (s.netBuf p cls).isEmpty

/-- A packet leaves the network at its target's island: to port B, or into the handshake FIFO of a held island; where that is full
it stays in the last router. -/
def State.netArrive (s : State) (last : Nat) (n : NetPkt) : State :=
  if s.clocked n.dst && (s.fifo n.dst).isEmpty then s.incoming n.dst n.pkt false
  else if (s.fifo n.dst).length < 8 then s.setFifo n.dst (s.fifo n.dst ++ [n])
  else s.setNetBuf last n.pkt.cls (s.netBuf last n.pkt.cls ++ [n])

/-- The FIFO into a router has room for a packet of a class (R30). Log entry 71. -/
def State.netRoom (s : State) (cls p : Nat) : Bool := decide ((s.netBuf p cls).length < 8)

/-- A packet goes along a path as far as it can: into the FIFO of the first router that does not pass it on, or, where that is full, it
stays in the router before it; in the first router of its way it waits as at its source (R30). -/
def State.netGo (s : State) (path : List Nat) (last : Nat) (n : NetPkt) : State :=
  match path with
  | [] => s.netArrive last n
  | p :: rest =>
    if s.passes n.pkt.cls p then s.netGo rest p n
    else
      let q := if s.netRoom n.pkt.cls p then p else last
      s.setNetBuf q n.pkt.cls (s.netBuf q n.pkt.cls ++ [n])

/-- The path of a packet. -/
def NetPkt.route (n : NetPkt) : List Nat := netRoute n.pkt.src (.core n.dst) n.pkt.cls

/-- Send a packet to the slice of physical core `dst`, with the low bits of the time base as its stamp (13 R336). -/
def State.netSend (s : State) (dst : Nat) (p : WritePkt) : State :=
  let n : NetPkt := { dst := dst, pkt := p, stamp := BitVec.ofNat 16 s.time }
  s.netGo n.route (attachedAt p.src (.core dst)) n

/-- A packet sent now from `src` to the slice of core `dst` in a class reaches port B at once. -/
def State.netClear (s : State) (src : NetPort) (dst cls : Nat) : Bool :=
  (netRoute src (.core dst) cls).all (s.passes cls) && s.clocked dst && (s.fifo dst).isEmpty

/-- The islands between a core and the HBM of an offset are clocked: the routers of the request and of the response, the cache
slice and the controller (R27, R32). -/
def State.hbmReached (s : State) (p off : Nat) : Bool :=
  let h := stackOf off
  (netRoute (.core p) (hbmPort off) (s.netClass (s.core p).ctx false)).all s.routerOn &&
  (netRoute (hbmPort off) (.core p) (s.netClass (s.core p).ctx true)).all s.routerOn &&
  s.islandOn (224 + h) && s.islandOn (232 + h)

/-- Port B takes the packets of the ingress queue in order (R178). -/
def State.commitIngress (s : State) (p : Nat) : State :=
  (s.core p).slice.ingress.foldl (fun s k => s.incoming p k false) (s.modSlice p (fun sl => { sl with ingress := [] }))

/-- The packets in the FIFO of a clocked island cross into the ingress queue of 16 and are committed. -/
def State.drainFifo (s : State) (p : Nat) : State :=
  if s.clocked p && !(s.fifo p).isEmpty then
    ((s.modSlice p (fun sl => { sl with ingress := (sl.ingress ++ (s.fifo p).map NetPkt.pkt).take 16 })).setFifo p []).commitIngress p
  else s

/-- The packet at the head of a router's buffer may leave it: the FIFO into the next router, or into the target's island, has room. -/
def State.mayLeave (s : State) (p : Nat) (n : NetPkt) : Bool :=
  s.routerOn p &&
  (match (n.route.dropWhile (fun q => decide (q ≠ p))).drop 1 with
    | [] => s.clocked n.dst || decide ((s.fifo n.dst).length < 8)
    | q :: _ => s.netRoom n.pkt.cls q)

/-- Drain a router's buffer in order, up to `n` packets. -/
def State.drainBuf (s : State) (n p cls : Nat) : State :=
  match n with
  | 0 => s
  | n + 1 =>
    match s.netBuf p cls with
    | [] => s
    | x :: rest =>
      if s.mayLeave p x then
        ((s.setNetBuf p cls rest).netGo ((x.route.dropWhile (fun q => decide (q ≠ p))).drop 1) p x).drainBuf n p cls
      else s

/-- The packets that wait in the network. -/
def State.netWaiting (s : State) : Nat :=
  (s.net.map (fun e => (e.2.bufs.map (fun b => b.2.length)).sum)).sum + (s.clk.fifos.map (fun e => e.2.length)).sum

/-- Every FIFO and buffer of the network drains as far as it can, in up to `n` rounds: class-0 packets first, and responses before requests
(13 R335). -/
def State.netDrain (s : State) (n : Nat) : State :=
  match n with
  | 0 => s
  | n + 1 =>
    if s.netWaiting = 0 then s
    else
      let s1 := (Tab.keys s.clk.fifos).foldl (fun s p => s.drainFifo p) s
      let s2 := (Tab.keys s1.net).foldl (fun s p =>
        [3, 2, 1, 0].foldl (fun s cls => s.drainBuf (s.netBuf p cls).length p cls) s) s1
      s2.netDrain n

/-- The islands of the network go on: what waits moves. -/
def State.netResume (s : State) : State := s.netDrain (26 * s.netWaiting)

/-! ## INCOMING_WRITE_PACKET (R178, R179) -/

/-- An earlier packet of the same source and class to the same slice still waits in the network (R34). -/
def State.waitsBefore (s : State) (slice : Nat) (p : WritePkt) : Bool :=
  let same (n : NetPkt) : Bool := decide (n.dst = slice) && decide (n.pkt.src = p.src) && decide (n.pkt.cls = p.cls)
  (s.fifo slice).any same || s.net.any (fun e => e.2.bufs.any (fun b => b.2.any same))

/-- INCOMING_WRITE_PACKET: a packet of up to 4 words is committed at port B; `collided` is the collision flag of its completion. -/
def execIncomingWritePacket (slice : Nat) (p : TakenPkt) (s : State) : Answer :=
  let k := p.pkt
  if s.clocked slice && decide (k.data.length ≤ 256) && decide (k.data.length % 64 = 0) && decide (k.addr % 64 = 0) &&
      !s.waitsBefore slice k then
    .next (s.incoming slice k p.collided)
  else .next s

end Sys2Proof.Machine
end

