-- ==== Sys2Proof/Machine/Words.lean ====
section
/-! DEFINITION. Instruction words (03 R68, R78, R79, R87): the word of each core instruction, and the command that a
fetched word spells. A word whose opcode is reserved for its engine spells none. -/

namespace Sys2Proof.Machine

/-- The opcode of a sequencer operation (R79, R87). -/
def SeqOp.opcode (op : SeqOp) : Nat :=
  match op with
  | .nop => 0x00 | .halt => 0x01 | .fence => 0x02 | .br => 0x04 | .brc => 0x05 | .loop => 0x08 | .loopi => 0x09
  | .li => 0x10 | .add => 0x11 | .addi => 0x12 | .sub => 0x13 | .mul => 0x14 | .shift => 0x15 | .logic => 0x16
  | .setoff => 0x18 | .addoff => 0x19 | .addoffi => 0x1A | .cset => 0x20 | .cadd => 0x21 | .cread => 0x22
  | .time => 0x28 | .aWaitall => 0xE0 | .aLoopn => 0xE1 | .aSync => 0xE2 | .aEnd => 0xE3

/-- Every sequencer operation. -/
def SeqOp.all : List SeqOp :=
  [.nop, .halt, .fence, .br, .brc, .loop, .loopi, .li, .add, .addi, .sub, .mul, .shift, .logic, .setoff, .addoff,
   .addoffi, .cset, .cadd, .cread, .time, .aWaitall, .aLoopn, .aSync, .aEnd]

/-- The sequencer operation of an opcode. -/
def SeqOp.ofOpcode (n : Nat) : Option SeqOp := SeqOp.all.find? (fun v => decide (v.opcode = n))

/-- A word from its opcode, its engine, its header and sync word, and its operand bits (R68). -/
def wordOf (opcode engine : Nat) (h : InsnHdr) (operands : Nat) : Insn :=
  BitVec.ofNat 128 (opcode * 2 ^ 120 + engine * 2 ^ 118 + boolNat h.wait * 2 ^ 117 + boolNat h.signal * 2 ^ 116 +
    h.waitCtr.toNat * 2 ^ 108 + h.count.toNat * 2 ^ 96 + h.waitValue.toNat * 2 ^ 80 + h.signalCtr.toNat * 2 ^ 72 +
    operands)

/-- The operand bits of a sequencer instruction (R78). -/
def seqOperands (o : SeqOps) : Nat :=
  o.d.toNat * 2 ^ 67 + o.a.toNat * 2 ^ 62 + o.b.toNat * 2 ^ 57 + o.sel.toNat * 2 ^ 53 + o.rsv.toNat * 2 ^ 32 +
  o.imm.toNat

/-- The word of a sequencer instruction. -/
def seqWord (op : SeqOp) (h : InsnHdr) (o : SeqOps) : Insn := wordOf op.opcode 0 h (seqOperands o)

/-- The word of an engine instruction. -/
def engWord (op : EngineOp) (h : InsnHdr) : Insn := wordOf op.encoding.2.1 op.encoding.1 h op.encoding.2.2

/-- The word of an A.VOP (05 R152). -/
def avopWord (h : InsnHdr) (o : AvopOps) : Insn :=
  wordOf 0xE0 2 h (o.rsv8.toNat * 2 ^ 64 + o.vop.toNat * 2 ^ 56 + vopLow56 o.low)

/-- The 128-bit word of a queue entry, after its offsets. -/
def QEntry.word (x : QEntry) : Insn := engWord x.op x.hdr

/-! ## Reading a word -/

/-- `n` bits of a word from bit `lo` on. -/
def insnField (w : Insn) (lo n : Nat) : BitVec n := BitVec.extractLsb' lo n w

/-- One bit of a word. -/
def insnBit (w : Insn) (i : Nat) : Bool := w.getLsbD i

/-- The header and sync word of a word that core `p` decodes. -/
def hdrOf (p : Nat) (w : Insn) : InsnHdr :=
  { core := p, wait := insnBit w 117, signal := insnBit w 116, waitCtr := insnField w 108 8, count := insnField w 96 12,
    waitValue := insnField w 80 16, signalCtr := insnField w 72 8 }

/-- Sequencer operands (R78). -/
def seqOpsOf (w : Insn) : SeqOps :=
  { d := insnField w 67 5, a := insnField w 62 5, b := insnField w 57 5, sel := insnField w 53 4,
    rsv := insnField w 32 21, imm := insnField w 0 32 }

/-- MXL operands (04 R96). -/
def mxlOpsOf (w : Insn) : MxlOps :=
  { wAddr := insnField w 51 21, wFmt := insnField w 47 4, sparse := insnBit w 46, plane := insnBit w 45,
    alt := insnBit w 44, header := insnBit w 43, rsv := insnField w 0 43 }

/-- MMS operands (04 R103). -/
def mmsOpsOf (w : Insn) : MmsOps :=
  { inAddr := insnField w 51 21, inMap := insnField w 49 2, rows := insnField w 33 16, accBase := insnField w 24 9,
    plane := insnBit w 23, alt := insnBit w 22, clear := insnBit w 21, dthru := insnBit w 20, outMap := insnField w 18 2,
    zrow := insnBit w 17, zrowAddr := insnField w 2 15, rsv := insnField w 0 2 }

/-- MXD and MXCLR operands (04 R107). -/
def mxdOpsOf (w : Insn) : MxdOps :=
  { outAddr := insnField w 51 21, accBase := insnField w 42 9, rows := insnField w 32 10, outMap := insnField w 30 2,
    release := insnBit w 29, rsv := insnField w 0 29 }

/-- MXMAP operands (04 R101). -/
def mxmapOpsOf (w : Insn) : MxmapOps :=
  { elemBase := insnField w 51 21, scaleBase := insnField w 30 21, rowStride := insnField w 15 15, fmt := insnField w 11 4,
    sat := insnBit w 10, map := insnField w 8 2, rsv := insnField w 0 8 }

/-- The operands of a vector instruction (05 R127); `n` comes from bits [71:56]. -/
def vopOpsOf (w : Insn) : VopOps :=
  { n := insnField w 56 16, d := insnField w 52 4, a := insnField w 47 5, b := insnField w 42 5, c := insnField w 37 5,
    fn := insnField w 33 4, sat := insnBit w 32, last := insnBit w 31, rsv := insnField w 30 1, doff := insnField w 15 15,
    aoff := insnField w 0 15 }

/-- VXDSC operands (05 R130). -/
def vxdscOpsOf (w : Insn) : VxdscOps :=
  { base := insnField w 51 21, fmt := insnField w 47 4, int := insnBit w 46, idx := insnField w 43 3, form := insnField w 41 2,
    rowLen := insnField w 27 14, rowStride := insnField w 12 15, rsv := insnField w 0 12 }

/-- VXDSS operands (05 R130). -/
def vxdssOpsOf (w : Insn) : VxdssOps :=
  { scaleBase := insnField w 51 21, rsvHi := insnField w 46 5, idx := insnField w 43 3, rsvLo := insnField w 0 43 }

/-- VXK operands (05 R130). -/
def vxkOpsOf (w : Insn) : VxkOps :=
  { rsvHi := insnField w 67 5, idx := insnField w 64 3, rsvLo := insnField w 32 32, value := insnField w 0 32 }

/-- SRUN operands (07 R184). -/
def srunOpsOf (w : Insn) : SrunOps :=
  { fdisp := insnField w 40 32, ldisp := insnField w 25 15, desc := insnField w 10 15, alt := insnBit w 9,
    rsv := insnField w 0 9 }

/-- The command of a sequencer operation. -/
def SeqOp.command (op : SeqOp) (h : InsnHdr) (o : SeqOps) : Instr :=
  match op with
  | .nop => .nop h o | .halt => .halt h o | .fence => .fence h o | .br => .br h o | .brc => .brc h o
  | .loop => .loop h o | .loopi => .loopi h o | .li => .li h o | .add => .add h o | .addi => .addi h o
  | .sub => .sub h o | .mul => .mul h o | .shift => .shift h o | .logic => .logic h o | .setoff => .setoff h o
  | .addoff => .addoff h o | .addoffi => .addoffi h o | .cset => .cset h o | .cadd => .cadd h o
  | .cread => .cread h o | .time => .time h o | .aWaitall => .aWaitall h o | .aLoopn => .aLoopn h o
  | .aSync => .aSync h o | .aEnd => .aEnd h o

/-- The command of a vector operation. -/
def VOp.command (v : VOp) (h : InsnHdr) (o : VopOps) : Instr :=
  match v with
  | .add => .vadd h o | .sub => .vsub h o | .mul => .vmul h o | .fma => .vfma h o | .max => .vmax h o
  | .min => .vmin h o | .abs => .vabs h o | .neg => .vneg h o | .cmp => .vcmp h o | .sel => .vsel h o
  | .cvt => .vcvt h o | .exp => .vexp h o | .log => .vlog h o | .rcp => .vrcp h o | .rsq => .vrsq h o
  | .tanh => .vtanh h o | .sigm => .vsigm h o | .rsum => .vrsum h o | .rmax => .vrmax h o | .rmin => .vrmin h o
  | .rssq => .vrssq h o | .scan => .vscan h o | .smax => .vsmax h o | .sexp => .vsexp h o | .ssum => .vssum h o
  | .topk => .vtopk h o | .gath => .vgath h o | .scat => .vscat h o | .hash => .vhash h o | .rope => .vrope h o

/-- The matrix instruction of an opcode (04 R95, R122). -/
def matrixCommand (opcode : Nat) (h : InsnHdr) (w : Insn) : Option Instr :=
  match opcode with
  | 0x00 => some (.mxl h (mxlOpsOf w))
  | 0x01 => some (.mms h (mmsOpsOf w))
  | 0x02 => some (.mxd h (mxdOpsOf w))
  | 0x03 => some (.mxmap h (mxmapOpsOf w))
  | 0x04 => some (.mxclr h (mxdOpsOf w))
  | 0xE8 => some (.aMload h (mxlOpsOf w))
  | 0xE9 => some (.aMstream h (mmsOpsOf w))
  | _ => none

/-- The vector instruction of an opcode (05 R126, R152). -/
def vectorCommand (opcode : Nat) (h : InsnHdr) (w : Insn) : Option Instr :=
  match opcode with
  | 0x01 => some (.vxdsc h (vxdscOpsOf w))
  | 0x02 => some (.vxdss h (vxdssOpsOf w))
  | 0x03 => some (.vxk h (vxkOpsOf w))
  | 0xE0 => some (.aVop h { rsv8 := insnField w 64 8, vop := insnField w 56 8, low := { vopOpsOf w with n := 0 } })
  | n => (VOp.ofOpcode n).map (fun v => v.command h (vopOpsOf w))

/-- The stream instruction of an opcode (07 R184). -/
def streamCommand (opcode : Nat) (h : InsnHdr) (w : Insn) : Option Instr :=
  match opcode with
  | 0x00 => some (.srun h (srunOpsOf w))
  | 0xEC => some (.aXfer h (srunOpsOf w))
  | _ => none

/-- The command that a word spells on core `p`: `none` where its opcode is reserved for its engine (R68, R79, R87). -/
def decodeInsn (p : Nat) (w : Insn) : Option Instr :=
  let h := hdrOf p w
  let opcode := (insnField w 120 8).toNat
  match (insnField w 118 2).toNat with
  | 0 => (SeqOp.ofOpcode opcode).map (fun op => op.command h (seqOpsOf w))
  | 1 => matrixCommand opcode h w
  | 2 => vectorCommand opcode h w
  | _ => streamCommand opcode h w

end Sys2Proof.Machine
end

