-- ==== Sys2Proof/Machine/Sequencer.lean ====
section
/-! DEFINITION. The sequencer pair of a Stope core (03): decode, waits, loops, offsets, lockstep, the sequencer
instructions and the hand-over of engine instructions to their queues.

One command stands for the leading decode, the trailing decode and the comparison (R84, log entry 5). Each
sequencer works from its own registers; an upset of the trailing one comes with the command. -/

namespace Sys2Proof.Machine

/-! ## Program counter and loops (R80, R81) -/

/-- The last instruction address of a slice (R72). -/
def lastPc : Nat := 0x1FFFF0

/-- Where the sequencer goes when it would fetch from `next`, with the loops that stay open: at the end of the
innermost body it returns to the body's start while passes are left, and closes the loop after the last (R80). -/
def loopNext (next : Nat) (loops : List LoopFrame) : Nat × List LoopFrame :=
  match loops with
  | [] => (next, [])
  | fr :: rest =>
    if next = fr.start + 16 * fr.len then
      if 1 < fr.passes then (fr.start, { fr with passes := fr.passes - 1 } :: rest)
      else loopNext next rest
    else (next, fr :: rest)

/-- Go on at an address that follows in program order. -/
def Sequencer.goOn (q : Sequencer) (next : Nat) : Sequencer :=
  { q with pc := (loopNext next q.loops).1, loops := (loopNext next q.loops).2 }

/-- The body of a loop contains an address. -/
def LoopFrame.contains (fr : LoopFrame) (a : Nat) : Bool :=
  decide (fr.start ≤ a) && decide (a < fr.start + 16 * fr.len)

/-- A taken branch closes every open loop whose body does not contain the target (R80). -/
def Sequencer.branchTo (q : Sequencer) (target : Nat) : Sequencer :=
  { q with pc := target, loops := q.loops.filter (fun fr => fr.contains target) }

/-- A branch target is 16 B aligned and lies in the slice (R81). -/
def targetOk (t : Nat) : Bool := decide (t % 16 = 0) && decide (t ≤ lastPc)

/-! ## Checks at decode (R69, R86) -/

/-- The instruction that the loop buffer holds at the program counter (R80): the innermost open loop has a body of 16
instructions or fewer, and an earlier pass has decoded it. -/
def Sequencer.loopInsn (q : Sequencer) : Option Insn :=
  match q.loops with
  | fr :: _ => if fr.len ≤ 16 ∧ fr.contains q.pc = true then Tab.find q.loopBuf q.pc else none
  | [] => none

/-- The fetched word that the program counter lies in. -/
def Sequencer.fetched (q : Sequencer) : Option FetchWord :=
  q.fetch.find? (fun w => decide (w.addr = q.pc / 64 * 64))

/-- The fault mark of the fetched word that the program counter lies in, 0 for none (R72). -/
def Sequencer.fetchFault (q : Sequencer) : Nat :=
  match q.loopInsn, q.fetched with
  | none, some w => w.fault.toNat
  | _, _ => 0

/-- The instruction word at the program counter, from the loop buffer or the fetch buffer, where one of them holds it. -/
def Sequencer.insn (q : Sequencer) : Option Insn :=
  match q.loopInsn, q.fetched with
  | some w, _ => some w
  | none, some f => if f.fault = 0 then some (BitVec.ofNat 128 (fieldAt f.data (q.pc % 64) 16)) else none
  | none, none => none

/-- The sequencer can decode the word `w` next: the buffers hold no other word there (log entry 35). -/
def Sequencer.admits (q : Sequencer) (w : Insn) : Bool :=
  match q.insn with
  | some x => decide (x = w)
  | none => true

/-- The loop buffer takes a decoded instruction of the innermost body (R80). -/
def Sequencer.recordInsn (q : Sequencer) (w : Insn) : Sequencer :=
  match q.loops with
  | fr :: _ => if fr.len ≤ 16 ∧ fr.contains q.pc = true then { q with loopBuf := Tab.set q.loopBuf q.pc w } else q
  | [] => q

/-- The trailing sequencer, as a sequencer with its own registers (R84). -/
def Sequencer.trailView (q : Sequencer) : Sequencer :=
  { q with pc := q.trail.pc, regs := q.trail.regs, offsets := q.trail.offsets, loops := q.trail.loops }

/-- The registers of a sequencer, as the trailing one keeps them. -/
def Sequencer.asTrailing (q : Sequencer) : Trailing := { pc := q.pc, regs := q.regs, offsets := q.offsets, loops := q.loops }

/-- The sync word keeps its reserved fields at zero (R69). `ownsCtr` marks CSET, CADD and CREAD, which name their
counter in signal_ctr and carry signal = 0. -/
def syncOk (h : InsnHdr) (ownsCtr : Bool) : Bool :=
  (h.wait || (decide (h.waitCtr = 0) && decide (h.waitValue = 0))) &&
  (if ownsCtr then !h.signal else (h.signal || decide (h.signalCtr = 0)))

/-- The operand fields that an operation does not use are zero (R78); `count` counts as one of them. -/
def seqFieldsOk (op : SeqOp) (h : InsnHdr) (o : SeqOps) : Bool :=
  let d := decide (o.d = 0)
  let a := decide (o.a = 0)
  let b := decide (o.b = 0)
  let sel := decide (o.sel = 0)
  let imm := decide (o.imm = 0)
  let cnt := decide (h.count = 0)
  decide (o.rsv = 0) &&
  match op with
  | .nop | .halt | .aWaitall | .aSync | .aEnd => d && a && b && sel && imm && cnt
  | .fence => d && a && b && sel && decide (o.imm.toNat < 8) && cnt
  | .br => d && a && b && sel && cnt
  | .brc => d && cnt
  | .loop => d && b && sel && imm
  | .loopi => d && a && b && sel
  | .aLoopn => d && a && b && sel && decide (o.imm.toNat < 65536)
  | .li => a && b && sel && cnt
  | .add | .sub | .mul => sel && imm && cnt
  | .addi => b && sel && cnt
  | .shift => b && decide (o.imm.toNat < 32) && cnt
  | .logic => imm && cnt
  | .setoff | .addoff => d && b && imm && cnt
  | .addoffi => d && a && b && cnt
  | .cset => d && b && sel && imm && cnt
  | .cadd => d && a && b && sel && decide (o.imm.toNat < 65536) && cnt
  | .cread | .time => a && b && sel && imm && cnt

/-- The operation is a PVA-2200 form (R87). -/
def SeqOp.isPva (op : SeqOp) : Bool :=
  match op with
  | .aWaitall | .aLoopn | .aSync | .aEnd => true
  | _ => false

/-- The operation names its counter in signal_ctr (R69). -/
def SeqOp.ownsCtr (op : SeqOp) : Bool :=
  match op with
  | .cset | .cadd | .cread => true
  | _ => false

/-- The loop checks: a count field of 0 or a fifth loop is 0x0805, a body outside the slice 0x0803 (R80, R86). -/
def loopCheck (q : Sequencer) (h : InsnHdr) : Nat :=
  if h.count = 0 ∨ 4 ≤ q.loops.length then 0x0805
  else if 0x200000 < q.pc + 16 + 16 * h.count.toNat then 0x0803
  else 0

/-- The violation that an operation's own operands make, 0 for none (R81, R83, R86, R87). -/
def seqOperandCheck (q : Sequencer) (op : SeqOp) (h : InsnHdr) (o : SeqOps) : Nat :=
  match op with
  | .br => if targetOk o.imm.toNat then 0 else 0x0803
  | .brc => if 5 < o.sel.toNat then 0x0804 else if targetOk o.imm.toNat then 0 else 0x0803
  | .loop | .loopi | .aLoopn => loopCheck q h
  | .shift | .logic => if 2 < o.sel.toNat then 0x0804 else 0
  | .setoff | .addoff | .addoffi => if offsetIndex o.sel = none then 0x0804 else 0
  | .aSync => if h.wait then 0 else 0x0802
  | _ => 0

/-! ## Effects -/

/-- Engine `e` has an instruction that has not completed (R79, FENCE and HALT). -/
def Core.engineBusy (c : Core) (e : Engine) : Bool :=
  match e with
  | .matrix => !c.seq.qMx.isEmpty || !c.mx.active.isEmpty
  | .vector => !c.seq.qVx.isEmpty || !c.vx.unit.isEmpty
  | .stream => !c.seq.qStr.isEmpty || !c.str.slots.isEmpty

/-- Every queue is empty and every engine instruction has completed. -/
def Core.drained (c : Core) : Bool := !c.engineBusy .matrix && !c.engineBusy .vector && !c.engineBusy .stream

/-- The engines that a FENCE mask names have completed. -/
def Core.fenceDone (c : Core) (mask : Nat) : Bool :=
  !(bitAt mask 0 && c.engineBusy .matrix) && !(bitAt mask 1 && c.engineBusy .vector) &&
  !(bitAt mask 2 && c.engineBusy .stream)

/-- The engines that a sequencer instruction waits for: FENCE's mask, all three for A.WAITALL, none otherwise. -/
def fenceMask (op : SeqOp) (o : SeqOps) : Nat :=
  match op with
  | .fence => o.imm.toNat % 8
  | .aWaitall => 7
  | _ => 0

/-- The comparison of BRC (R79). -/
def brcHolds (sel : Nat) (x y : W32) : Bool :=
  match sel with
  | 0 => decide (x = y)
  | 1 => decide (x ≠ y)
  | 2 => x.slt y
  | 3 => !(x.slt y)
  | 4 => x.ult y
  | _ => !(x.ult y)

/-- The value that an operation writes into Sd, if any, for a sequencer with the registers `q` (R79). -/
def seqResult (s : State) (q : Sequencer) (p : Nat) (op : SeqOp) (h : InsnHdr) (o : SeqOps) : Option W32 :=
  let x := q.reg o.a
  let y := q.reg o.b
  match op with
  | .li => some o.imm
  | .add => some (x + y)
  | .addi => some (x + o.imm)
  | .sub => some (x - y)
  | .mul => some (x * y)
  | .shift =>
    match o.sel.toNat with
    | 0 => some (x <<< o.imm.toNat)
    | 1 => some (x >>> o.imm.toNat)
    | _ => some (x.sshiftRight o.imm.toNat)
  | .logic =>
    match o.sel.toNat with
    | 0 => some (x &&& y)
    | 1 => some (x ||| y)
    | _ => some (x ^^^ y)
  | .cread => some ((s.arrival p h.signalCtr).zeroExtend 32)
  | .time => some (s.clk.now.truncate 32)
  | _ => none

/-- The offset register after an operation, with its index, if the operation writes one (R82). -/
def seqOffset (q : Sequencer) (op : SeqOp) (o : SeqOps) : Option (Nat × W32) :=
  match offsetIndex o.sel with
  | none => none
  | some i =>
    match op with
    | .setoff => some (i, offsetValue i (q.reg o.a))
    | .addoff => some (i, offsetValue i (q.offset i + q.reg o.a))
    | .addoffi => some (i, offsetValue i (q.offset i + o.imm))
    | _ => none

/-- The arrival counter after an operation, if the operation writes one (R71). -/
def seqCounter (s : State) (q : Sequencer) (p : Nat) (op : SeqOp) (h : InsnHdr) (o : SeqOps) : Option Half :=
  match op with
  | .cset => some ((q.reg o.a).truncate 16)
  | .cadd => some (s.arrival p h.signalCtr + o.imm.truncate 16)
  | _ => none

/-- Open a loop of `trips` passes; 0 trips skip the body (R80). -/
def Sequencer.openLoop (q : Sequencer) (len trips : Nat) : Sequencer :=
  if trips = 0 then q.goOn (q.pc + 16 + 16 * len)
  else { q with pc := q.pc + 16, loops := { start := q.pc + 16, len := len, passes := trips } :: q.loops, loopBuf := [] }

/-- The program counter and the loop stack after an operation (R79 to R81). -/
def seqControl (q : Sequencer) (op : SeqOp) (h : InsnHdr) (o : SeqOps) : Sequencer :=
  match op with
  | .br => q.branchTo o.imm.toNat
  | .brc =>
    if brcHolds o.sel.toNat (q.reg o.a) (q.reg o.b) then q.branchTo o.imm.toNat else q.goOn (q.pc + 16)
  | .loop => q.openLoop h.count.toNat (q.reg o.a).toNat
  | .loopi | .aLoopn => q.openLoop h.count.toNat o.imm.toNat
  | .halt | .aEnd => q
  | _ => q.goOn (q.pc + 16)

/-- The instruction leaves the slice: the next address lies beyond it, which counts as a branch outside (R89). SEQ_FAULT_PC then holds the
address of the instruction that was executed last. DESIGN CHOICE, log entry 65. -/
def State.leaveCheck (s : State) (p at' : Nat) : State :=
  if lastPc < (s.core p).seq.pc then
    (s.modSeq p (fun q => { q with pc := at' })).freezeSeq p 0x0803
  else s

/-- One sequencer's registers after an instruction (R79 to R82): its scalar register, its offset register, the program
counter and the loops. -/
def seqStep (s : State) (q : Sequencer) (op : SeqOp) (h : InsnHdr) (o : SeqOps) : Sequencer :=
  let q1 := match seqResult s q h.core op h o with
    | some v => q.setReg o.d v
    | none => q
  let q2 := match seqOffset q op o with
    | some (i, v) => { q1 with offsets := Tab.set q1.offsets i v }
    | none => q1
  seqControl q2 op h o

/-- The operation is a halt. -/
def SeqOp.halts (op : SeqOp) : Bool :=
  match op with
  | .halt | .aEnd => true
  | _ => false

/-- What the pair compares for a sequencer instruction: the next program counter, the register, the offset and the counter
written, and the halt report (R84). -/
structure SeqEffect where
  next    : Nat
  reg     : Option (BitVec 5 × W32)
  offset  : Option (Nat × W32)
  counter : Option Half
  halts   : Bool
  deriving DecidableEq, Repr

/-- The effect of a sequencer instruction as a sequencer with the registers `q` works it out. -/
def seqEffect (s : State) (q : Sequencer) (op : SeqOp) (h : InsnHdr) (o : SeqOps) : SeqEffect :=
  { next := (seqStep s q op h o).pc, reg := (seqResult s q h.core op h o).map (fun v => (o.d, v)),
    offset := seqOffset q op o, counter := seqCounter s q h.core op h o, halts := op.halts }

/-- The two sequencers agree on a sequencer instruction (R84). -/
def seqAgrees (s : State) (q : Sequencer) (op : SeqOp) (h : InsnHdr) (o : SeqOps) : Bool :=
  h.agree && decide (seqEffect s q op h o = seqEffect s q.trailView op h o)

/-- The first violation that a decode of a sequencer instruction finds, 0 for none: the fetched word's fault, the
compatibility switch, the reserved fields, the operands, then the comparison of the pair (R72, R85 to R87). R86 does not say which of
several is recorded. DESIGN CHOICE, log entry 65. -/
def seqViolation (s : State) (q : Sequencer) (op : SeqOp) (h : InsnHdr) (o : SeqOps) : Nat :=
  if q.fetchFault ≠ 0 then q.fetchFault
  else if op.isPva && !q.pvaCompat then 0x0807
  else if !(syncOk h op.ownsCtr && seqFieldsOk op h o) then 0x0802
  else if seqOperandCheck q op h o ≠ 0 then seqOperandCheck q op h o
  else if !seqAgrees s q op h o then 0x0801
  else 0

/-- The pair after a confirmed instruction: both sequencers have stepped. HALT goes on to drain and keeps its instruction
until it completes (R76, R79). -/
def seqAfter (op : SeqOp) (h : InsnHdr) (o : SeqOps) (s : State) : Sequencer :=
  let q := (s.core h.core).seq
  { seqStep s q op h o with
    trail := (seqStep s q.trailView op h o).asTrailing
    held := if op.halts then some (.seq h op o) else none
    state := if op.halts then .haltDrain else .running }

/-- The effects of a confirmed sequencer instruction (R74, R79): its counter, the sequencers' registers, its signal, and
the count of confirmed instructions. HALT signals when it completes (R76). -/
def seqFinish (op : SeqOp) (h : InsnHdr) (o : SeqOps) (s : State) : State :=
  let p := h.core
  let s1 := match seqCounter s (s.core p).seq p op h o with
    | some v => s.setArrival p h.signalCtr v
    | none => s
  let s2 := s1.modSeq p (fun _ => seqAfter op h o s)
  (((if op.halts then s2 else s2.signal h).count (coreReg p 0x218) 1).progress p).leaveCheck p (s.core p).seq.pc

/-- The wait of a sequencer instruction: R70, or exact equality for A.SYNC (R87). -/
def seqWaitMet (op : SeqOp) (h : InsnHdr) (s : State) : Bool :=
  if op = .aSync then decide (s.arrival h.core h.waitCtr = h.waitValue) else s.waitMet h.core h

/-- Go on with a sequencer instruction: it waits on its counter, then for the engines of its fence, and then takes
effect (R73, R79). -/
def seqProceed (op : SeqOp) (h : InsnHdr) (o : SeqOps) (s : State) : State :=
  if !seqWaitMet op h s then
    s.modSeq h.core (fun q => { q with state := .waiting, held := some (.seq h op o) })
  else if !(s.core h.core).fenceDone (fenceMask op o) then
    s.modSeq h.core (fun q => { q with state := .fence, held := some (.seq h op o) })
  else seqFinish op h o s

/-- Count a disagreement of the pair; the count holds at 0xFFFF (R85, R91). The core stands first in the canary rotation, and a
second mismatch within 24 h retires it (16 R433). -/
def State.noteMismatch (s : State) (p : Nat) : State :=
  let times := s.time :: (Tab.get [] s.rel.mismatches p).filter (fun t => decide (s.time < t + 86400000000000))
  let s1 := s.modSeq p (fun q => { q with lockstep := if q.lockstep = 0xFFFF then q.lockstep else q.lockstep + 1 })
  let s2 := { s1 with rel := { s1.rel with mismatches := Tab.set s1.rel.mismatches p times } }.canaryLead p
  if 2 ≤ times.length then s2.retireCore p else s2

/-- The leading sequencer of a running core decodes a sequencer instruction. -/
def seqDecode (op : SeqOp) (h : InsnHdr) (o : SeqOps) (s : State) : State :=
  let q := (s.core h.core).seq
  if !(s.clocked h.core) || q.state ≠ .running || !q.admits (seqWord op h o) then s
  else
    match seqViolation s q op h o with
    | 0 => seqProceed op h o (s.modSeq h.core (fun q => q.recordInsn (seqWord op h o)))
    | 0x0801 => (s.noteMismatch h.core).freezeSeq h.core 0x0801
    | code => s.freezeSeq h.core code

/-! ## The sequencer instructions (R79, R87) -/

/-- NOP, with the forms WAIT and SIGNAL. -/
def execNop (h : InsnHdr) (o : SeqOps) (s : State) : Answer := .next (seqDecode .nop h o s)
/-- HALT: decode stops and the core drains. -/
def execHalt (h : InsnHdr) (o : SeqOps) (s : State) : Answer := .next (seqDecode .halt h o s)
/-- FENCE on the engines of its mask. -/
def execFence (h : InsnHdr) (o : SeqOps) (s : State) : Answer := .next (seqDecode .fence h o s)
/-- BR: go on at the target. -/
def execBr (h : InsnHdr) (o : SeqOps) (s : State) : Answer := .next (seqDecode .br h o s)
/-- BRC: go on at the target where the comparison holds. -/
def execBrc (h : InsnHdr) (o : SeqOps) (s : State) : Answer := .next (seqDecode .brc h o s)
/-- LOOP: Sa passes over the next count instructions. -/
def execLoop (h : InsnHdr) (o : SeqOps) (s : State) : Answer := .next (seqDecode .loop h o s)
/-- LOOPI: imm passes over the next count instructions. -/
def execLoopi (h : InsnHdr) (o : SeqOps) (s : State) : Answer := .next (seqDecode .loopi h o s)
/-- LI: Sd = imm. -/
def execLi (h : InsnHdr) (o : SeqOps) (s : State) : Answer := .next (seqDecode .li h o s)
/-- ADD: Sd = Sa + Sb. -/
def execAdd (h : InsnHdr) (o : SeqOps) (s : State) : Answer := .next (seqDecode .add h o s)
/-- ADDI: Sd = Sa + imm. -/
def execAddi (h : InsnHdr) (o : SeqOps) (s : State) : Answer := .next (seqDecode .addi h o s)
/-- SUB: Sd = Sa - Sb. -/
def execSub (h : InsnHdr) (o : SeqOps) (s : State) : Answer := .next (seqDecode .sub h o s)
/-- MUL: Sd = the low 32 bits of Sa × Sb. -/
def execMul (h : InsnHdr) (o : SeqOps) (s : State) : Answer := .next (seqDecode .mul h o s)
/-- SHIFT: Sd = Sa shifted by imm[4:0]. -/
def execShift (h : InsnHdr) (o : SeqOps) (s : State) : Answer := .next (seqDecode .shift h o s)
/-- LOGIC: Sd = Sa and, or, xor Sb. -/
def execLogic (h : InsnHdr) (o : SeqOps) (s : State) : Answer := .next (seqDecode .logic h o s)
/-- SETOFF: offset = Sa. -/
def execSetoff (h : InsnHdr) (o : SeqOps) (s : State) : Answer := .next (seqDecode .setoff h o s)
/-- ADDOFF: offset = offset + Sa. -/
def execAddoff (h : InsnHdr) (o : SeqOps) (s : State) : Answer := .next (seqDecode .addoff h o s)
/-- ADDOFFI: offset = offset + imm. -/
def execAddoffi (h : InsnHdr) (o : SeqOps) (s : State) : Answer := .next (seqDecode .addoffi h o s)
/-- CSET: counter = Sa[15:0]. -/
def execCset (h : InsnHdr) (o : SeqOps) (s : State) : Answer := .next (seqDecode .cset h o s)
/-- CADD: counter = counter + imm[15:0]. -/
def execCadd (h : InsnHdr) (o : SeqOps) (s : State) : Answer := .next (seqDecode .cadd h o s)
/-- CREAD: Sd = the counter, zero-extended. -/
def execCread (h : InsnHdr) (o : SeqOps) (s : State) : Answer := .next (seqDecode .cread h o s)
/-- TIME: Sd = bits [31:0] of the time base. -/
def execTime (h : InsnHdr) (o : SeqOps) (s : State) : Answer := .next (seqDecode .time h o s)
/-- A.WAITALL: FENCE with mask 0b111. -/
def execAWaitall (h : InsnHdr) (o : SeqOps) (s : State) : Answer := .next (seqDecode .aWaitall h o s)
/-- A.LOOPN: LOOPI with a 16-bit count. -/
def execALoopn (h : InsnHdr) (o : SeqOps) (s : State) : Answer := .next (seqDecode .aLoopn h o s)
/-- A.SYNC: waits until the counter equals wait_value exactly. -/
def execASync (h : InsnHdr) (o : SeqOps) (s : State) : Answer := .next (seqDecode .aSync h o s)
/-- A.END: HALT. -/
def execAEnd (h : InsnHdr) (o : SeqOps) (s : State) : Answer := .next (seqDecode .aEnd h o s)

/-! ## Engine instructions at the sequencer (R73, R74, R82) -/

/-- The queue of an engine. -/
def Sequencer.queue (q : Sequencer) (e : Engine) : List QEntry :=
  match e with
  | .matrix => q.qMx
  | .vector => q.qVx
  | .stream => q.qStr

/-- Replace the queue of an engine. -/
def Sequencer.setQueue (q : Sequencer) (e : Engine) (l : List QEntry) : Sequencer :=
  match e with
  | .matrix => { q with qMx := l }
  | .vector => { q with qVx := l }
  | .stream => { q with qStr := l }

/-- Write an engine instruction into its queue, or hold it while the queue is full (R73). An entry that the trailing decode
does not confirm stays in the queue unconfirmed, and the core freezes (R85). -/
def engPush (e : Engine) (x : QEntry) (s : State) : State :=
  let p := x.hdr.core
  let q := (s.core p).seq
  if 32 ≤ (q.queue e).length then
    s.modSeq p (fun q => { q with state := .queueFull, held := some (.eng e x) })
  else if !x.confirmed then
    ((s.modSeq p (fun q => q.setQueue e (q.queue e ++ [x]))).noteMismatch p).freezeSeq p 0x0801
  else
    let q1 := (q.setQueue e (q.queue e ++ [x])).goOn (q.pc + 16)
    let t := q.trailView.goOn (q.trail.pc + 16)
    (((s.modSeq p (fun _ => { q1 with trail := t.asTrailing, state := .running, held := none })).count
      (coreReg p 0x218) 1).progress p).leaveCheck p q.pc

/-- The entry after issue offsets (R82): `none` where a sum does not fit its operand (R83). -/
def engEntry (q : Sequencer) (e : Engine) (h : InsnHdr) (op : EngineOp) : Option QEntry :=
  match op.addOffsets (q.offset (engineOffsetBase e)) (q.offset (engineOffsetBase e + 1)) with
  | none => none
  | some op' =>
    some { hdr := if h.wait then { h with waitValue := h.waitValue + (q.offset (engineOffsetBase e + 2)).truncate 16 }
                  else h,
           op := op' }

/-- The two sequencers agree on an engine instruction: the word after offsets and the target queue (R84). -/
def engAgrees (q : Sequencer) (e : Engine) (h : InsnHdr) (op : EngineOp) : Bool :=
  h.agree && decide (engEntry q e h op = engEntry q.trailView e h op)

/-- The first violation that the leading decode of an engine instruction finds, 0 for none (R86). The check of reserved
fields and format codes is the instruction's own. -/
def engViolation (q : Sequencer) (e : Engine) (h : InsnHdr) (op : EngineOp) (fieldsOk : Bool) : Nat :=
  if q.fetchFault ≠ 0 then q.fetchFault
  else if op.isPva && !q.pvaCompat then 0x0807
  else if !(syncOk h false && fieldsOk) then 0x0802
  else if engEntry q e h op = none then 0x0804
  else 0

/-- The sequencer pair of a running core decodes the engine instruction of word `w` and queues it. -/
def engDecodeAs (w : Insn) (e : Engine) (h : InsnHdr) (op : EngineOp) (fieldsOk : Bool) (s : State) : State :=
  let q := (s.core h.core).seq
  if !(s.clocked h.core) || q.state ≠ .running || !q.admits w then s
  else
    match engViolation q e h op fieldsOk with
    | 0 =>
      match engEntry q e h op with
      | some x => engPush e { x with confirmed := engAgrees q e h op } (s.modSeq h.core (fun q => q.recordInsn w))
      | none => s
    | code => s.freezeSeq h.core code

/-- The sequencer pair of a running core decodes an engine instruction and queues it. -/
def engDecode (e : Engine) (h : InsnHdr) (op : EngineOp) (fieldsOk : Bool) (s : State) : State :=
  engDecodeAs (engWord op h) e h op fieldsOk s

/-! ## Stalls, halt, fetch and reserved opcodes -/

/-- SEQ_STALL_RESUME: the held instruction goes on where its wait, its fence or its queue lets it (R73, R79). -/
def execSeqStallResume (core : Nat) (s : State) : Answer :=
  if !(s.clocked core) then .next s
  else
    match (s.core core).seq.state, (s.core core).seq.held with
    | .waiting, some (.seq h op o) => .next (seqProceed op { h with core := core } o s)
    | .fence, some (.seq h op o) => .next (seqProceed op { h with core := core } o s)
    | .queueFull, some (.eng e x) => .next (engPush e { x with hdr := { x.hdr with core := core } } s)
    | _, _ => .next s

/-- The header of the halt that a core completes. -/
def Sequencer.haltHdr (q : Sequencer) : InsnHdr :=
  match q.held with
  | some (.seq h _ _) => h
  | _ => { core := 0 }

/-- CORE_HALT_REPORT: a halted core whose queues and engines are empty completes its HALT, with its signal, reports done and
goes idle (R76, R79, R89). -/
def execCoreHaltReport (core : Nat) (s : State) : Answer :=
  if s.clocked core && decide ((s.core core).seq.state = .haltDrain) && (s.core core).drained then
    .next ((s.signal { (s.core core).seq.haltHdr with core := core }).modCore core (fun c =>
      { c with seq := { c.seq with state := .idle, held := none }, haltReported := true, started := false }))
  else .next s

/-- The fault mark of a fetched word: its tile is not on, or the word is uncorrectable (R72). -/
def Slice.fetchMark (sl : Slice) (addr : Nat) : Nat :=
  if !sl.rangeOn addr 64 then 0x1001 else if (sl.badIn addr 64).isSome then 0x0806 else 0

/-- FETCH_WORD_ARRIVE: a 64 B word of the slice arrives in the fetch buffer of four words. A word that is
uncorrectable or in a tile that is not on is held marked faulty and nothing freezes (R72, R165, R168). A fifth word displaces the oldest.
DESIGN CHOICE, log entry 65. -/
def execFetchWordArrive (core : Nat) (word : FetchRead) (s : State) : Answer :=
  let a := word.addr / 64 * 64
  let st := (s.core core).seq.state
  if !(s.clocked core) || decide (lastPc < a) || st = .idle || st = .frozen || st = .haltDrain then .next s
  else
    let s0 := s.modSlice core (fun sl => sl.found (word.finds.filter (fun f => decide (f.1 / 4 = a / 64))))
    let sl := (s0.core core).slice
    let mark := sl.fetchMark a
    let free := s0.drawBytes 64
    let met := sl.undefReads.contains (a / 64)
    let w : FetchWord := { addr := a, fault := BitVec.ofNat 16 mark,
                           data := if mark ≠ 0 then [] else if met then free.1 else sl.bytes a 64 }
    let s1 := ((if met then free.2 else s0).modSlice core (fun sl =>
      { sl with undefReads := sl.undefReads.filter (fun x => decide (x ≠ a / 64)) })).modSeq core (fun q =>
      { q with fetch := (w :: q.fetch.filter (fun x => decide (x.addr ≠ a))).take 4 })
    if mark = 0x1001 then .next (s1.noteRefused core)
    else if mark = 0x0806 then .next (s1.noteBad core (a / 64))
    else .next (s1.noteReads core [(a, 64)])

/-- ILLEGAL_INSTRUCTION: the leading sequencer decodes a word whose opcode is reserved for its engine, and the core freezes
with 0x0802 (R86); a word from a faulty fetch freezes it with that fetch's code (R72). A word that spells an instruction is
none of these: the command of its mnemonic decodes it. -/
def execIllegalInstruction (core : Nat) (word : Insn) (s : State) : Answer :=
  let q := (s.core core).seq
  if !(s.clocked core) || q.state ≠ .running || !q.admits word then .next s
  else if q.fetchFault ≠ 0 then .next (s.freezeSeq core q.fetchFault)
  else if (decodeInsn core word).isSome then .next s
  else .next (s.freezeSeq core 0x0802)

end Sys2Proof.Machine
end

