-- ==== Sys2Proof/Machine/Send.lean ====
section
/-! DEFINITION. Sending a message (14 R366 to R368, 17 R458), its shaper (13 R340), and the requests to a board peer that go out as messages (09 R236). -/

namespace Sys2Proof.Machine

/-! ## Sending (R366 to R368, 17 R458) -/

/-- The 48 B of a header (R366). -/
def hdrBytes (h : MsgHdr) : List Byte :=
  let route := (h.ports.zipIdx.map (fun x => x.1 % 128 * 2 ^ (7 * x.2))).foldl (· + ·) 0
  leBytes 2 h.dest ++ leBytes 2 h.src ++ leBytes 6 (route + h.ports.length % 8 * 2 ^ 42) ++
  leBytes 1 (h.next % 8 + h.vc % 8 * 8) ++ leBytes 1 h.kind ++ leBytes 4 h.seq.toNat ++
  leBytes 2 (h.srcCtx.toNat + h.tenant.toNat * 1024) ++ leBytes 2 h.dstCtx.toNat ++ leBytes 1 h.ctxGen.toNat ++
  leBytes 1 h.keyGen.toNat ++ leBytes 2 h.bytes ++ leBytes 8 h.target.toNat ++
  leBytes 2 (boolNat h.slice + boolNat h.raise * 2 + boolNat h.last * 4) ++ leBytes 1 h.raiseCtr.toNat ++
  leBytes 1 h.raiseCore.toNat ++ leBytes 8 h.key.toNat ++ zeros 4

/-- The key of a stream: the other module and the virtual channel. -/
def streamKey (m vc : Nat) : Nat := m * 8 + vc

/-- The routing table that a message takes: its context's, and table 0 for traffic of no context. -/
def State.msgTable (s : State) (h : MsgHdr) : Nat := if 7 ≤ h.kind then 0 else (s.ctxNow h.srcCtx.toNat).1.table.toNat

/-- The protocol level that a message is pinned to (R380). -/
def State.msgLevel (s : State) (h : MsgHdr) : Nat := if 7 ≤ h.kind then 0 else (s.ctxNow h.srcCtx.toNat).1.level.toNat

/-- What spreads messages over direct links: the sequence, on vc 5 the chunk (R373). -/
def spreadOf (h : MsgHdr) : Nat := if h.vc = 5 then h.key.toNat / 2 ^ 48 else h.seq.toNat

/-- The bytes that a die's end-to-end buffer holds, in virtual channels that `p` names. -/
def State.buffered (s : State) (die : Nat) (p : Nat → Bool) : Nat :=
  ((s.lnk.tx.filter (fun e => p (e.1 % 8))).map (fun e => ((e.2.unacked.filter (fun m => decide (dieOfPort m.port = die))).map (fun m =>
    64 + m.data.length)).foldl (· + ·) 0)).foldl (· + ·) 0

/-- A stream takes a place in the table of a die: it holds a message there, or its latest message went out there and it has not been
reclaimed. -/
def TxStream.onDie (st : TxStream) (die : Nat) : Bool :=
  decide (st.die = die) || st.unacked.any (fun m => decide (dieOfPort m.port = die))

/-- The streams that a die tracks. -/
def State.openStreams (s : State) (die : Nat) : Nat := (s.lnk.tx.filter (fun e => e.2.onDie die)).length

/-- The end-to-end buffer of a die has room for a message: 8 MiB, of which the other virtual channels hold all but 256 KiB at most; and
its stream is open or the table of 4,096 has space. -/
def State.sendRoom (s : State) (die vc bytes : Nat) (isOpen : Bool) : Bool :=
  decide (s.buffered die (fun _ => true) + 64 + bytes ≤ 0x800000) &&
  (decide (vc ≤ 1) || decide (s.buffered die (fun v => decide (2 ≤ v)) + 64 + bytes ≤ 0x7C0000)) &&
  (isOpen || decide (s.openStreams die < 4096))

/-- The panel of a message's context and its share of the message's virtual channel, as read at the step's start (R365). Management
traffic and responses to a board peer belong to no panel. -/
def State.linkShare (s : State) (h : MsgHdr) : Option LinkShare :=
  if h.kind ∈ [1, 2, 3, 5, 6] ∨ (h.kind = 7 ∧ h.key ≠ 0) then
    ((s.ctxNow h.srcCtx.toNat).2.credit[h.vc]?).map (fun x => { panel := s.panelNow h.srcCtx.toNat, share := x.toNat })
  else none

/-- A panel's share leaves it no credit of the message's virtual channel (R365). -/
def State.barred (s : State) (h : MsgHdr) : Bool :=
  (s.linkShare h).any (fun o => decide (vcCredits h.vc * o.share / 64 = 0))

/-- The number of a sending engine's counter (17 R458): link key slot, die and engine. -/
def ivKey (slot die engine : Nat) : Nat := slot * 256 + die * 32 + engine

/-- Set the failure that a transfer will complete with, unless it has one. -/
def State.failTransfer (s : State) (c slot : Nat) (status : Half) : State :=
  { s with lnk := { s.lnk with transfers := s.lnk.transfers.map (fun t =>
      if t.ctx = c ∧ t.slot = slot ∧ t.status = none then { t with status := some status } else t) } }

/-- The islands of the dies that hold a stream's messages are clocked. -/
def State.streamOn (s : State) (k : Nat) : Bool :=
  (Tab.get {} s.lnk.tx k).unacked.all (fun m => s.dieCtl (dieOfPort m.port))

/-! ## The shaper of a message (13 R340, R341) -/

/-- The panel and the side of the bucket that a message leaves through: a put, a get request, get data or a board-peer request in a
class-0 virtual channel, of a context whose panel is admitted. -/
def State.shaper (s : State) (h : MsgHdr) : Option (Nat × Nat) :=
  let k := s.panelNow h.srcCtx.toNat
  if h.vc ≤ 1 ∧ h.kind ∈ [1, 2, 3, 7] ∧ (s.panel k).admitted = true then some (k, h.vc) else none

/-- The bucket of a message holds its payload, or none holds it back. -/
def State.shaperHolds (s : State) (h : MsgHdr) (n : Nat) : Bool :=
  match s.shaper h with
  | some (k, side) => decide (n * 1000 ≤ s.tokens k side)
  | none => true

/-- A message of `n` bytes takes its payload from its bucket. -/
def State.shape (s : State) (h : MsgHdr) (n : Nat) : State :=
  match s.shaper h with
  | some (k, side) => s.takeTokens k side n
  | none => s

/-- The virtual channel of a message that waits, as it is issued: a board-peer request of a panel that is admitted no more takes the bulk
one (R341), as do the data of a get, and a payload above env_pkt is demoted to the bulk one, which the second part says (R340). -/
def State.inClass (s : State) (h : MsgHdr) (n : Nat) : MsgHdr × Bool :=
  match s.shaper h with
  | some (k, _) => if s.envLimit k < n then ({ h with vc := h.vc + 2 }, true) else (h, false)
  | none =>
    if h.vc = 0 ∧ h.kind = 7 then ({ h with vc := 2 }, false)
    else if h.vc = 1 ∧ h.kind = 3 then ({ h with vc := 3 }, false) else (h, false)

/-- How a send ends. -/
inductive SendEnd where
  | sent | wait | noPath | exhausted
  deriving DecidableEq, Repr

/-- Put a message on its way: its header, and sealed bytes on the port of its first hop. The payload's cipher text and tag are
free (log entry 20). -/
def State.launch (s : State) (h : MsgHdr) (data : List Byte) (port : Nat) : State :=
  let d := s.drawBytes (data.length + 16)
  (d.2.emit (.message h.vc h data)).portBytes port h.vc 0 (s.linkShare h) (hdrBytes h ++ d.1)

/-- Send a message of a context (kinds 1 to 6) or of the module. `coll` names a collective engine, if one sends. It waits while its
shaper, its panel's share or the end-to-end buffer holds it. -/
def State.sendMsg (s : State) (h : MsgHdr) (data : List Byte) (owner : Option (Nat × Nat)) (coll : Option Nat := none) :
    SendEnd × State :=
  let k := streamKey h.dest h.vc
  let st := Tab.get {} s.lnk.tx k
  let h0 : MsgHdr := { h with seq := if h.vc = 5 then 0 else st.nextSeq }
  match s.route h.dest (s.msgTable h) (s.msgLevel h) (spreadOf h0) with
  | none => (.noPath, s)
  | some p =>
    let port := s.physPort (p.ports.headD 0)
    let die := dieOfPort port
    let iv := ivKey (s.ctxNow h.srcCtx.toNat).1.linkSlot.toNat die ((coll.map (fun c => 24 + c)).getD (islandOfPort port))
    if !s.shaperHolds h data.length || s.barred h || !s.sendRoom die h.vc data.length (st.onDie die && (Tab.find s.lnk.tx k).isSome) then
      (.wait, s)
    else if h.kind ≤ 6 ∧ 2 ^ 64 ≤ Tab.get 0 s.sec.ivs iv + 1 then (.exhausted, s.event 0x7806)
    else
      let h1 : MsgHdr := { h0 with src := s.me, ports := p.ports, next := 1, level := s.msgLevel h }
      let m : SentMsg := { hdr := h1, data := data, port := port, owner := owner }
      let st1 : TxStream :=
        { nextSeq := if h.vc = 5 then st.nextSeq else st.nextSeq + 1, die := die, unacked := st.unacked ++ [m], lastUse := s.time }
      let ivs := if h.kind ≤ 6 then Tab.modify 0 s.sec.ivs iv (fun n => n + 1) else s.sec.ivs
      let s0 := s.shape h data.length
      let s1 := { s0 with lnk := { s.lnk with tx := Tab.set s.lnk.tx k st1 }, sec := { s.sec with ivs := ivs } }
      let s2 := (s1.count (lnkReg 0x100) 1).count (rteReg 0xC00) 1
      (.sent, (if p.place = 0 then s2 else s2.count (rteReg 0xC08) 1).launch h1 data port)

/-- The wait of a message that leaves is counted, if the shaper of panel `k` held it back (R340). -/
def State.countWait (s : State) (k : Nat) (since : Option Nat) : State :=
  match since with
  | some t => s.count (panelReg k 0x60) (s.time - t)
  | none => s

/-- The time from which the shaper holds a message back, which has been so since `since`. -/
def State.shapedFrom (s : State) (h : MsgHdr) (n : Nat) (since : Option Nat) : Option Nat :=
  if since.isSome || s.shaperHolds h n then since else some s.time

/-- The link bytes of a context: what its transfers, its dispatch messages and its board-peer traffic sent and received (13 R351). -/
def State.chargeSent (s : State) (h : MsgHdr) (n : Nat) : State :=
  if h.kind ∈ [1, 2, 3, 5, 6] then s.charge h.srcCtx.toNat 48 n else s

/-- Send a message in the class of this moment, or let it wait (R368, 13 R340). `since` is the time from which the shaper has held it
back. -/
def State.sendOrWait (s : State) (h : MsgHdr) (data : List Byte) (owner : Option (Nat × Nat)) (coll : Option Nat := none)
    (since : Option Nat := none) : State :=
  let q := s.inClass h data.length
  let a := s.sendMsg q.1 data owner coll
  let k := s.panelNow h.srcCtx.toNat
  match a.1, owner with
  | .sent, _ =>
    let s1 := (a.2.countWait k since).chargeSent h data.length
    if q.2 then s1.count (panelReg k 0x68) 1 else s1
  | .noPath, some (c, slot) => a.2.failTransfer c slot 0x0A01
  | .exhausted, some (c, slot) => a.2.failTransfer c slot 0x0A02
  | _, _ => { a.2 with lnk := { a.2.lnk with backlog := a.2.lnk.backlog ++
      [{ hdr := h, data := data, port := 0, owner := owner, since := s.shapedFrom q.1 data.length since }] } }

/-- The die of the collective engine that sends a message, if one does. -/
def State.collDie (s : State) (m : SentMsg) : Option Nat :=
  if m.hdr.kind = 5 then
    (s.lnk.collectives.find? (fun c => decide (m.owner = some (c.ctx, c.slot)))).map Collective.die
  else none

/-- Try the waiting messages again, in order. -/
def State.pumpBacklog (s : State) : State :=
  s.lnk.backlog.foldl (fun s m => s.sendOrWait m.hdr m.data m.owner (s.collDie m) m.since) { s with lnk := { s.lnk with backlog := [] } }

/-- Send an unacknowledged message again, on the path of this moment (R368). -/
def State.resendMsg (s : State) (m : SentMsg) : SentMsg × State :=
  match s.route m.hdr.dest (s.msgTable m.hdr) (s.msgLevel m.hdr) (spreadOf m.hdr) with
  | none => (m, s)
  | some p =>
    let port := s.physPort (p.ports.headD 0)
    let h : MsgHdr := { m.hdr with ports := p.ports, next := 1 }
    let s1 := (s.count (lnkReg 0x110) 1).count (rteReg 0xC00) 1
    ({ m with hdr := h, port := port }, (if p.place = 0 then s1 else s1.count (rteReg 0xC08) 1).launch h m.data port)

/-- Send every unacknowledged message of a stream again. -/
def State.resendStream (s : State) (k : Nat) : State :=
  let st := Tab.get {} s.lnk.tx k
  let r := st.unacked.foldl (fun (acc : List SentMsg × State) m =>
    let a := acc.2.resendMsg m
    (acc.1 ++ [a.1], a.2)) ([], s)
  { r.2 with lnk := { r.2.lnk with tx := Tab.set r.2.lnk.tx k { st with unacked := r.1, lastUse := s.time } } }

/-- Send the streams again that have a message for which `p` holds. -/
def State.resendWhere (s : State) (p : SentMsg → Bool) : State :=
  (s.lnk.tx.filter (fun e => e.2.unacked.any p)).foldl (fun s e => s.resendStream e.1) s

/-! ## Board-peer requests (09 R236, 20 R522) -/

/-- The module in a board slot of this module's board. -/
def State.moduleAt (s : State) (slot : Nat) : Nat := s.me / 8 * 8 + slot

/-- The header of a board-peer request for a context: in the bulk virtual channels, or the class-0 ones of an admitted context, with
the tenant, the key slot and its generation `gen`. The key 1 tells its answer from that of a BAR2 access. Log entry 21. -/
def State.peerHdr (s : State) (ctx slot keySlot : Nat) (gen : BitVec 8) (write : Bool) (addr n : Nat) : MsgHdr :=
  { dest := s.moduleAt slot, src := s.me, vc := if s.admittedCtx ctx then 0 else 2, kind := 7, srcCtx := BitVec.ofNat 10 ctx,
    tenant := (s.ctxNow ctx).1.tenant, keyGen := gen, bytes := n, target := BitVec.ofNat 64 (slot * 2 ^ 45 + addr), key := 1,
    keySlot := keySlot, peerWrite := write }

/-- A request of `n` bytes to a board peer (R236), cut into messages of up to 4,096 B (R366); `data` is what a write carries. -/
def State.peerRequest (s : State) (ctx slot keySlot : Nat) (gen : BitVec 8) (write : Bool) (addr n : Nat) (data : List Byte) : State :=
  (List.range ((n + 4095) / 4096)).foldl (fun s i =>
    s.sendOrWait (s.peerHdr ctx slot keySlot gen write (addr + 4096 * i) (min 4096 (n - 4096 * i)))
      (if write then (data.drop (4096 * i)).take 4096 else []) none) s

end Sys2Proof.Machine
end

