-- ==== Sys2Proof/Machine/Translate.lean ====
section
/-! DEFINITION. Translation (09 R237 to R243): page-table entries, the page walk, the walker cache, the translation
caches and the reference counts. -/

namespace Sys2Proof.Machine

/-! ## Entries (R238) -/

/-- An entry is valid. -/
def pteValid (e : W64) : Bool := bitAt e.toNat 0
/-- An entry is a leaf. -/
def pteLeaf (e : W64) : Bool := bitAt e.toNat 1
/-- Poison bit of a leaf. -/
def ptePoison (e : W64) : Bool := bitAt e.toNat 2
/-- Copy-on-write bit of a leaf. -/
def pteCow (e : W64) : Bool := bitAt e.toNat 3
/-- A leaf allows reads. -/
def pteR (e : W64) : Bool := bitAt e.toNat 4
/-- A leaf allows writes. -/
def pteW (e : W64) : Bool := bitAt e.toNat 5
/-- Frame of a leaf: physical address bits [47:16]. -/
def pteFrame (e : W64) : Nat := bits e.toNat 47 16
/-- Key slot of a leaf. -/
def pteSlot (e : W64) : Nat := bits e.toNat 55 48
/-- Tenant of a leaf. -/
def pteTenant (e : W64) : Nat := bits e.toNat 61 56
/-- Physical address of the next table. -/
def pteNext (e : W64) : Nat := bits e.toNat 47 8 * 256
/-- A non-leaf entry has reserved bits set. -/
def pteNodeRsv (e : W64) : Bool := decide (bits e.toNat 7 2 ≠ 0) || decide (bits e.toNat 63 48 ≠ 0)
/-- A leaf has reserved bits set; a 2 MiB leaf has frame bits [20:16] at 0. -/
def pteLeafRsv (e : W64) (large : Bool) : Bool :=
  decide (bits e.toNat 15 6 ≠ 0) || decide (bits e.toNat 63 62 ≠ 0) || (large && decide (bits e.toNat 20 16 ≠ 0))

/-- A leaf entry from its fields. -/
def mkLeaf (frame slot tenant : Nat) (r w cow : Bool) : W64 :=
  BitVec.ofNat 64 (1 + 2 + 8 * boolNat cow + 16 * boolNat r + 32 * boolNat w + frame * 65536 + slot * 2 ^ 48 +
    tenant * 2 ^ 56)

/-- Bytes of the page of a leaf. -/
def pageBytes (large : Bool) : Nat := if large then 2097152 else 65536

/-! ## The walk (R227, R235, R239) -/

/-- The index of a virtual address at a level (R237). -/
def vaIndex (va level : Nat) : Nat :=
  match level with
  | 1 => bits va 47 34
  | 2 => bits va 33 21
  | _ => bits va 20 16

/-- What reading an entry gives. -/
inductive PteAns where
  | entry (e : W64)
  | fault (kind : Nat)
  deriving DecidableEq, Repr

/-- How a request may allocate in the memory-side cache (R229): in a panel's way mask, in MSC_SYS_WAYS, or not at all. -/
inductive Use where
  | mask (ways : Half)
  | sys
  | bare
  deriving DecidableEq, Repr

/-- The ways of a use at an offset. -/
def State.waysOf (s : State) (u : Use) (off : Nat) : Nat :=
  match u with
  | .mask w => w.toNat
  | .sys => s.sysWays off
  | .bare => 0

/-- Read the entry of a table: kind 4 outside this module's addressable HBM, kind 3 in a poisoned frame (R239,
R428). The walker reads under slot 0 (R231). -/
def State.readPte (s : State) (u : Use) (table idx : Nat) : PteAns × State :=
  match s.ownHbm table with
  | none => (.fault 4, s)
  | some base =>
    let off := base + 8 * idx
    if hbmSize < off + 8 then (.fault 4, s)
    else
      let a := s.hbmRead off 8 (s.hreq 0 (s.waysOf u off))
      match a.1 with
      | .poison => (.fault 3, a.2)
      | .data bs => (.entry (BitVec.ofNat 64 (leNat bs)), a.2)

/-! ## The walker cache (R239; 13 R343) -/

/-- An entry of the walker cache stays: it covers step tables of an admitted context (R343). -/
def State.isPinned (s : State) (key : Nat × Nat × Nat) : Bool := s.walker.pinned.contains key && s.admittedCtx key.1

/-- Pin an entry that a step table's translation used, up to 64 for a context. -/
def State.walkerPin (s : State) (key : Nat × Nat × Nat) : State :=
  let mine := s.walker.pinned.filter (fun k => decide (k.1 = key.1))
  if !s.admittedCtx key.1 || mine.contains key || decide (64 ≤ mine.length) then s
  else { s with walker := { s.walker with pinned := key :: s.walker.pinned } }

/-- The places of the entries that a full walker cache may give up. -/
def State.walkerLoose (s : State) : List Nat :=
  ((s.walker.cache.zipIdx).filter (fun x => !s.isPinned x.1.1)).map (fun x => x.2)

/-- Keep an entry in the walker cache. Which of its entries a full cache gives up is a free value; a pinned one stays. Log entry 13. -/
def State.walkerKeep (s : State) (key : Nat × Nat × Nat) (e : W64) : State :=
  if s.walker.cache.length < 1024 then { s with walker := { s.walker with cache := (key, e) :: s.walker.cache } }
  else
    let d := s.drawWords 1
    let l := s.walkerLoose
    match l[(d.1.headD 0).toNat % max 1 l.length]? with
    | some i => { d.2 with walker := { d.2.walker with cache := (key, e) :: d.2.walker.cache.eraseIdx i } }
    | none => d.2

/-- The key of the level-1 or level-2 entry of an address in the walker cache. -/
def walkerKey (ctx level va : Nat) : Nat × Nat × Nat := (ctx, level, va / (if level = 1 then 2 ^ 34 else 2 ^ 21))

/-- The walker cache's entry of a key. -/
def State.walkerFind (s : State) (key : Nat × Nat × Nat) : Option W64 :=
  (s.walker.cache.find? (fun x => decide (x.1 = key))).map Prod.snd

/-- Pin the level-2 entry of an address, and its level-1 entry where the cache holds that too. -/
def State.walkerPinBoth (s : State) (ctx va : Nat) : State :=
  let s1 := if (s.walkerFind (walkerKey ctx 1 va)).isSome then s.walkerPin (walkerKey ctx 1 va) else s
  s1.walkerPin (walkerKey ctx 2 va)

/-- Read a level-1 or level-2 entry, through the walker cache where `cached`; `pin` keeps it there for an admitted context. -/
def State.cachedPte (s : State) (u : Use) (cached pin : Bool) (ctx level va table : Nat) : PteAns × State :=
  let key := walkerKey ctx level va
  match (if cached then s.walkerFind key else none) with
  | some e => (.entry e, if pin then s.walkerPin key else s)
  | none =>
    let a := s.readPte u table (vaIndex va level)
    match a.1 with
    | .entry e =>
      if cached && pteValid e then (.entry e, if pin then (a.2.walkerKeep key e).walkerPin key else a.2.walkerKeep key e) else a
    | .fault _ => a

/-- What a walk ends with: a leaf, or a fault with the leaf's frame for kind 2. -/
inductive WalkAns where
  | leaf (e : W64) (large wOk : Bool)
  | fault (kind frame : Nat)
  deriving DecidableEq, Repr

/-- The walk from a level-2 entry on (R239). -/
def State.leafFrom2 (s : State) (u : Use) (va : Nat) (e2 : W64) : WalkAns × State :=
  if !pteValid e2 then (.fault 1 0, s)
  else if pteLeaf e2 then (.leaf e2 true false, s)
  else if pteNodeRsv e2 || (s.ownHbm (pteNext e2)).isNone then (.fault 4 0, s)
  else
    let a3 := s.readPte u (pteNext e2) (vaIndex va 3)
    match a3.1 with
    | .fault k => (.fault k 0, a3.2)
    | .entry e3 =>
      if !pteValid e3 then (.fault 1 0, a3.2)
      else if !pteLeaf e3 then (.fault 4 0, a3.2)
      else (.leaf e3 false false, a3.2)

/-- Find the leaf of an address: levels 1 to 3 of R239, without the leaf's checks. The walker reads through its cache, one level where
that holds the level-2 entry; the command processor reads at the home (R245). -/
def State.findLeaf (s : State) (u : Use) (cached pin : Bool) (ctx root va : Nat) : WalkAns × State :=
  if root = 0 then (.fault 1 0, s)
  else if (s.ownHbm root).isNone then (.fault 4 0, s)
  else match (if cached then s.walkerFind (walkerKey ctx 2 va) else none) with
  | some e2 => (if pin then s.walkerPinBoth ctx va else s).leafFrom2 u va e2
  | none =>
    let a1 := s.cachedPte u cached pin ctx 1 va root
    match a1.1 with
    | .fault k => (.fault k 0, a1.2)
    | .entry e1 =>
      if !pteValid e1 then (.fault 1 0, a1.2)
      else if pteLeaf e1 || pteNodeRsv e1 || (s.ownHbm (pteNext e1)).isNone then (.fault 4 0, a1.2)
      else
        let a2 := a1.2.cachedPte u cached pin ctx 2 va (pteNext e1)
        match a2.1 with
        | .fault k => (.fault k 0, a2.2)
        | .entry e2 => a2.2.leafFrom2 u va e2

/-- A frame may be named by a leaf: addressable HBM of a held board slot and, in this module, a channel set of the
mask (R227, R235). -/
def State.frameOk (s : State) (frame setMask : Nat) : Bool :=
  match boardDecode (frame * 65536) with
  | .hbm slot off => s.slotHeld slot && (decide (slot ≠ s.walker.boardSlot) || bitAt setMask (chanSet off))
  | _ => false

/-! ## Reference counts (R243) -/

/-- The place of the count of a module-local 64 KiB frame. -/
def State.countAt (s : State) (f : Nat) : Nat := s.walker.refBase + 2 * f

/-- The count of a module-local frame. -/
def State.readCount (s : State) (u : Use) (f : Nat) : Nat × State :=
  let a := s.hbmRead (s.countAt f) 2 (s.hreq 0 (s.waysOf u (s.countAt f)))
  (leNat (a.1.bytesOr 2), a.2)

/-- Write the count of a module-local frame. -/
def State.writeCount (s : State) (u : Use) (f v : Nat) : State :=
  s.hbmWrite (s.countAt f) (leBytes 2 v) (s.hreq 0 (s.waysOf u (s.countAt f)))

/-- The place of a peer frame's count in the peer's memory: in the refcount table at the base that this module's own table has. R243
does not say how a module learns a peer's base. DESIGN CHOICE, log entry 11. -/
def State.peerCountAt (s : State) (frame : Nat) : Nat := s.walker.refBase + 2 * (frame % 2 ^ 28)

/-- The count of a frame of the board, read for a context. A peer's table is read across the board and answers from outside: a free
value. Log entry 11. -/
def State.boardCount (s : State) (u : Use) (ctx frame : Nat) : Nat × State :=
  match s.ownHbm (frame * 65536) with
  | some off => s.readCount u (frameOf off)
  | none =>
    let d := (s.peerRequest ctx (frame * 65536 / 2 ^ 45) 0 (s.slot 0).gen false (s.peerCountAt frame) 2 []).drawBytes 2
    (leNat d.1, d.2)

/-- The checks of a leaf (R239): malformed, tenant, frame, poison, permission, copy-on-write. The count that the last one reads allocates
as a module structure, not at all in a walk that does not allocate (R229). -/
def State.checkLeaf (s : State) (u : Use) (ctx : Nat) (e : W64) (large : Bool) (tenant setMask : Nat) (write : Bool) : WalkAns × State :=
  if pteLeafRsv e large || decide (pteTenant e ≠ tenant) || !s.frameOk (pteFrame e) setMask then (.fault 4 0, s)
  else if ptePoison e then (.fault 3 0, s)
  else if (if write then !pteW e else !pteR e) then (.fault 4 0, s)
  else if write && pteCow e then
    let c := s.boardCount (if u = .bare then .bare else .sys) ctx (pteFrame e)
    if 1 < c.1 then (.fault 2 (pteFrame e), c.2) else (.leaf e large true, c.2)
  else (.leaf e large false, s)

/-- A whole walk for a context, with the root, tenant and channel-set mask that its step read (R239); it counts, and so does its fault
(R247). -/
def State.walk (s : State) (u : Use) (pin : Bool) (ctx root tenant setMask va : Nat) (write : Bool) : WalkAns × State :=
  let a := s.findLeaf u true pin ctx root va
  let b := match a.1 with
    | .fault _ _ => a
    | .leaf e large _ => a.2.checkLeaf u ctx e large tenant setMask write
  let s1 := b.2.count (xlReg 0x100) 1
  match b.1 with
  | .fault _ _ => (b.1, s1.count (xlReg 0x108) 1)
  | .leaf _ _ _ => (b.1, s1)

/-- The board address that a leaf gives a virtual address. -/
def leafAddr (e : W64) (large : Bool) (va : Nat) : Nat := pteFrame e * 65536 + va % pageBytes large

/-- Where an access on behalf of a context goes: a word of this module's HBM and the request under the leaf's slot, a board address of a
peer under the leaf's slot, or a fault kind of R239; a refused key slot counts as kind 4, and so does a frame of another module for an
agent that keeps to this one. -/
inductive OwnAns where
  | ok (off : Nat) (r : HReq)
  | peer (keySlot addr : Nat)
  | fault (kind : Nat)
  deriving DecidableEq, Repr

/-- Who accesses memory on behalf of a context, which decides the ways of R229 and whether frames of board peers are reached (08 R205):
the command processor, the same for the tables of a step (13 R343), the same for what has to lie in this module, a link DMA engine,
another agent of the module, or a reader that does not allocate. -/
inductive Agent where
  | command | table | own | dma | other | bare
  deriving DecidableEq, Repr

/-- An agent reaches the HBM of board peers (08 R205). -/
def Agent.reaches (g : Agent) : Bool := g = .command || g = .table || g = .dma

/-- The use of the cache of an agent. -/
def Agent.use (g : Agent) (pe : PanelFields) : Use :=
  match g with
  | .command | .table | .own => .mask pe.wayMask
  | .dma | .other => .sys
  | .bare => .bare

/-- A walk on behalf of a context, under the masks of its panel (R229, R235, R441). -/
def State.walkBy (s : State) (g : Agent) (ctx va : Nat) (write : Bool) : OwnAns × State :=
  let h := s.ctxNow ctx
  let u := g.use h.2
  let a := s.walk u (decide (g = .table)) ctx h.1.root.toNat h.1.tenant.toNat h.2.setMask.toNat va write
  match a.1 with
  | .fault k _ => (.fault k, a.2)
  | .leaf e large _ =>
    if !a.2.memSlotOk (pteSlot e) h.1.tenant.toNat then (.fault 4, a.2)
    else match a.2.ownHbm (leafAddr e large va) with
    | none => (if g.reaches then .peer (pteSlot e) (leafAddr e large va) else .fault 4, a.2)
    | some off => (.ok off (a.2.hreq (pteSlot e) (a.2.waysOf u off)), a.2)

/-- A walk by the command processor. -/
def State.walkOwn (s : State) (ctx va : Nat) (write : Bool) : OwnAns × State := s.walkBy .command ctx va write

/-- The answer of a board peer to a request, which comes from outside the module (R236, log entry 11): served,
poison, or refused. -/
inductive PeerAns where
  | served | poison | refused
  deriving DecidableEq, Repr

/-- Draw a peer's answer. -/
def State.peerAnswer (s : State) : PeerAns × State :=
  let d := s.drawBytes 1
  (match (d.1.headD 0).toNat % 4 with
   | 2 => .poison
   | 3 => .refused
   | _ => .served, d.2)

/-- Ask a board peer for its HBM on behalf of a context (R236); the traffic is charged to the context (13 R350). -/
def State.askPeer (s : State) (ctx keySlot addr : Nat) (write : Bool) (n : Nat) (data : List Byte) : State :=
  (s.peerRequest ctx (addr / 2 ^ 45) keySlot (s.slot keySlot).gen write (addr % 2 ^ 44) n data).charge ctx (if write then 48 else 56) n

/-- What a read at a virtual address answers. -/
inductive VaAns where
  | data (bytes : List Byte)
  | poison
  | fault
  deriving DecidableEq, Repr

/-- Read a range of a board peer: its bytes come from outside (R236, log entry 11). -/
def State.readPeer (s : State) (ctx keySlot addr n : Nat) : VaAns × State :=
  let p := (s.askPeer ctx keySlot addr false n []).peerAnswer
  match p.1 with
  | .poison => (.poison, p.2)
  | .refused => (.fault, p.2)
  | .served =>
    let d := p.2.drawBytes n
    (.data d.1, d.2)

/-- Read a range that lies in one page. -/
def State.readVa1 (s : State) (g : Agent) (ctx va n : Nat) : VaAns × State :=
  let w := s.walkBy g ctx va false
  match w.1 with
  | .fault k => (if k = 3 then .poison else .fault, w.2)
  | .peer ks addr => w.2.readPeer ctx ks addr n
  | .ok off r =>
    let a := w.2.hbmRead off n r
    match a.1 with
    | .poison => (.poison, a.2)
    | .data bs => (.data bs, a.2)

/-- The pieces of a range, one for each 64 KiB page it touches: address and length. -/
def pagePieces (va n : Nat) : List (Nat × Nat) :=
  if n = 0 then []
  else (List.range ((va + n - 1) / 65536 - va / 65536 + 1)).map (fun i =>
    let lo := max va ((va / 65536 + i) * 65536)
    (lo, min (va + n) ((va / 65536 + i + 1) * 65536) - lo))

/-- Read the pieces of a range in order; the first fault or poison is the answer. -/
def State.readPieces (s : State) (g : Agent) (ctx : Nat) (ps : List (Nat × Nat)) : VaAns × State :=
  match ps with
  | [] => (.data [], s)
  | p :: rest =>
    let a := s.readVa1 g ctx p.1 p.2
    match a.1 with
    | .data bs =>
      let b := a.2.readPieces g ctx rest
      match b.1 with
      | .data cs => (.data (bs ++ cs), b.2)
      | _ => b
    | _ => a

/-- Read `n` bytes at a virtual address of a context. -/
def State.readBy (s : State) (g : Agent) (ctx va n : Nat) : VaAns × State := s.readPieces g ctx (pagePieces va n)

/-- A read by the command processor. -/
def State.readVa (s : State) (ctx va n : Nat) : VaAns × State := s.readBy .command ctx va n

/-- The bytes of an answer. -/
def VaAns.bytes (a : VaAns) : List Byte :=
  match a with
  | .data bs => bs
  | _ => []

/-- Write bytes at a virtual address of a context, piece by piece; `false` where one does not translate. -/
def State.writeBy (s : State) (g : Agent) (ctx va : Nat) (bs : List Byte) : Bool × State :=
  (pagePieces va bs.length).foldl (fun acc p =>
    let w := acc.2.walkBy g ctx p.1 true
    match w.1 with
    | .fault _ => (false, w.2)
    | .peer ks addr => (acc.1, w.2.askPeer ctx ks addr true p.2 (slicedAt bs (p.1 - va) p.2))
    | .ok off r => (acc.1, w.2.hbmWrite off (slicedAt bs (p.1 - va) p.2) r)) (true, s)

/-- A write by the command processor. -/
def State.writeVa (s : State) (ctx va : Nat) (bs : List Byte) : Bool × State := s.writeBy .command ctx va bs

/-- The first fault kind that the pages of a range meet for an agent, 0 where all translate; a poisoned frame of this module is kind 3. -/
def State.rangeKind (s : State) (g : Agent) (ctx va n : Nat) (write : Bool) : Nat × State :=
  (pagePieces va n).foldl (fun acc p =>
    if acc.1 ≠ 0 then acc
    else
      let w := acc.2.walkBy g ctx p.1 write
      match w.1 with
      | .fault k => (k, w.2)
      | .peer _ _ => (0, w.2)
      | .ok off _ => (if w.2.isPoisoned (frameOf off) then 3 else 0, w.2)) (0, s)

/-! ## Translation caches (R240) -/

/-- An entry translates an address for a context and its tag. -/
def TcEntry.matches (t : TcEntry) (ctx : Nat) (gen : BitVec 8) (va : Nat) : Bool :=
  decide (t.ctx = ctx) && decide (t.gen = gen) && decide (t.vpage = va / pageBytes t.large)

/-- Look an address up. -/
def TransCache.find (tc : TransCache) (ctx : Nat) (gen : BitVec 8) (va : Nat) : Option TcEntry :=
  tc.entries.find? (fun t => t.matches ctx gen va)

/-- The same page. -/
def TcEntry.samePage (a b : TcEntry) : Bool :=
  decide (a.ctx = b.ctx) && decide (a.gen = b.gen) && decide (a.vpage = b.vpage) && (a.large == b.large)

/-- Make an entry the most recently used one. A new entry drops the least recently used of 512 (R240). -/
def TransCache.touch (tc : TransCache) (t : TcEntry) : TransCache :=
  { tc with entries := (t :: tc.entries.filter (fun x => !x.samePage t)).take 512 }

/-- Drop every entry of a core, whose resident context changes, and count the drops (R240). -/
def State.dropTc (s : State) (p : Nat) : State :=
  let n := (s.core p).tc.entries.length
  if n = 0 then s
  else (s.modCore p (fun c => { c with tc := { c.tc with entries := [] } })).count (coreReg p 0x2910) n

/-- An entry serves an access: a hit, except for a write to a copy-on-write entry without the write flag (R240). -/
def TcEntry.serves (t : TcEntry) (write : Bool) : Bool := !(write && pteCow t.leaf && !t.wOk)

end Sys2Proof.Machine
end

