-- ==== Sys2Proof/Machine/Stream.lean ====
section
/-! DEFINITION. The stream unit (07): descriptors and their checks, the transactions they are cut into, completion in
start order, faults, halts and resume. A transaction is issued in an issue window, with what it then captures, and takes effect whole
when it completes (log entry 8). -/

namespace Sys2Proof.Machine

/-! ## Descriptors (R184, R186 to R191) -/

/-- A field of a captured descriptor: `len` bytes at byte `off`. -/
def StrSlot.fld (d : StrSlot) (off len : Nat) : Nat := fieldAt d.desc off len

/-- The operands of the slot's instruction; A.XFER executes with fdisp, ldisp and alt at 0 (R183). -/
def StrSlot.ops (d : StrSlot) : SrunOps :=
  match d.entry.op with
  | .srun o pva => if pva then { desc := o.desc } else o
  | _ => {}

/-- Kind of the descriptor. -/
def StrSlot.kind (d : StrSlot) : Nat := d.fld 0 1 % 16
/-- dir: a store. -/
def StrSlot.store (d : StrSlot) : Bool := bitAt (d.fld 0 1) 4
/-- no_alloc. -/
def StrSlot.noAlloc (d : StrSlot) : Bool := bitAt (d.fld 0 1) 5
/-- The displaced far base, or page_off of a page-list; for a remote descriptor, the target slice offset. -/
def StrSlot.far (d : StrSlot) : Nat :=
  if d.kind = 4 then d.fld 24 4 + d.ops.fdisp.toNat
  else if d.kind = 5 then d.fld 2 6 % 2 ^ 21 + d.ops.fdisp.toNat
  else d.fld 2 6 + d.ops.fdisp.toNat
/-- The displaced local base. -/
def StrSlot.loc (d : StrSlot) : Nat := d.fld 8 4 % 2 ^ 21 + d.ops.ldisp.toNat * 64
/-- The target logical core of a remote descriptor (R191). -/
def StrSlot.target (d : StrSlot) : Nat := bits (d.fld 2 6) 28 21
/-- raise of a remote descriptor. -/
def StrSlot.raises (d : StrSlot) : Bool := d.kind = 5 && bitAt (d.fld 18 1) 0

/-- The reserved fields of a descriptor are zero and its kind is one of R186. -/
def StrSlot.reservedOk (d : StrSlot) : Bool :=
  decide (bits (d.fld 0 2) 15 6 = 0) && decide (d.fld 8 4 < 2 ^ 21) && zeroAt d.desc 12 4 &&
  match d.kind with
  | 1 => zeroAt d.desc 22 2 && zeroAt d.desc 30 2 && zeroAt d.desc 38 2 && zeroAt d.desc 44 20
  | 2 => decide (d.fld 17 1 < 2) && zeroAt d.desc 26 38
  | 3 => decide (d.fld 16 4 < 2 ^ 21) && zeroAt d.desc 30 2 && zeroAt d.desc 38 26
  | 4 => zeroAt d.desc 2 6 && decide (d.fld 16 4 < 2 ^ 21) && decide (d.fld 22 1 < 2) && zeroAt d.desc 23 1 &&
      zeroAt d.desc 32 32
  | 5 => decide (d.fld 2 6 < 2 ^ 29) && decide (d.fld 18 1 < 2) && zeroAt d.desc 20 44 &&
      (d.store || (!d.raises && decide (d.fld 19 1 = 0)))
  | _ => false

/-- Bases, strides, sums and lists are aligned and fit their fields (0x0861). -/
def StrSlot.alignedOk (d : StrSlot) : Bool :=
  decide (d.fld 8 4 % 64 = 0) && decide (d.loc < 2 ^ 21) && decide (d.far % 64 = 0) &&
  match d.kind with
  | 1 => decide (d.fld 2 6 % 64 = 0) && decide (d.far < 2 ^ 48) && decide (d.fld 24 6 % 64 = 0) &&
      decide (d.fld 32 6 % 64 = 0)
  | 2 => decide (d.fld 2 6 % 64 = 0) && decide (d.far < 2 ^ 48) && decide (d.fld 20 6 % 64 = 0)
  | 3 => decide (d.fld 2 6 % 64 = 0) && decide (d.far < 2 ^ 48) && decide (d.fld 24 6 % 64 = 0) &&
      decide (d.fld 16 4 % 4 = 0)
  | 4 => decide (d.fld 24 4 % 64 = 0) && decide (d.far < 2 ^ 32) && decide (d.fld 16 4 % 8 = 0)
  | _ => decide (d.fld 2 6 % 2 ^ 21 % 64 = 0) && decide (d.far < 2 ^ 21)

/-- Counts lie in the ranges of R187 to R191 (0x0862). -/
def StrSlot.countsOk (d : StrSlot) : Bool :=
  match d.kind with
  | 1 => decide (0 < d.fld 16 2) && decide (0 < d.fld 18 2) && decide (0 < d.fld 20 2)
  | 2 => decide (0 < d.fld 16 1 ∧ d.fld 16 1 ≤ 32) && decide (0 < d.fld 18 2 ∧ d.fld 18 2 ≤ 1024)
  | 3 => decide (0 < d.fld 20 2) && decide (0 < d.fld 22 2)
  | 4 => decide (0 < d.fld 20 2 ∧ d.fld 20 2 ≤ 2048) && decide (0 < d.fld 28 2 ∧ d.fld 28 2 ≤ 32768) &&
      decide (d.far + 64 * d.fld 28 2 ≤ if bitAt (d.fld 22 1) 0 then 2097152 else 65536)
  | _ => decide (0 < d.fld 16 2) || (d.store && d.raises)

/-- Local and target extents lie in the slice or the tile (0x0861). -/
def StrSlot.extentOk (d : StrSlot) : Bool :=
  match d.kind with
  | 1 => decide (d.loc + 64 * ((d.fld 20 2 - 1) * d.fld 42 2 + (d.fld 18 2 - 1) * d.fld 40 2 + d.fld 16 2) ≤ sliceSize)
  | 2 =>
    let w := d.fld 16 1
    let h := d.fld 18 2
    if bitAt (d.fld 17 1) 0 then
      decide (rowOf d.loc + w ≤ 32) && decide (tileOf d.loc + (colOf d.loc + h - 1) / 32 ≤ 31)
    else decide (colOf d.loc + w ≤ 32) && decide (tileOf d.loc + (rowOf d.loc + h - 1) / 32 ≤ 31)
  | 3 => decide (d.loc + 64 * ((d.fld 20 2 - 1) * d.fld 36 2 + d.fld 22 2) ≤ sliceSize) &&
      decide (d.fld 16 4 + 4 * d.fld 20 2 ≤ sliceSize)
  | 4 => decide (d.loc + 64 * ((d.fld 20 2 - 1) * d.fld 30 2 + d.fld 28 2) ≤ sliceSize) &&
      decide (d.fld 16 4 + 8 * d.fld 20 2 ≤ sliceSize)
  | _ => decide (d.loc + 64 * d.fld 16 2 ≤ sliceSize) && decide (d.far + 64 * d.fld 16 2 ≤ sliceSize)

/-- The violation of a descriptor, 0 for none (R199). -/
def StrSlot.check (d : StrSlot) : Nat :=
  if !d.reservedOk then 0x0860
  else if !d.alignedOk then 0x0861
  else if !d.countsOk then 0x0862
  else if !d.extentOk then 0x0861
  else 0

/-! ## Transactions (R192) -/

/-- Cut a row of words at every 2 KiB of the far and of the local address. -/
def cutRow (fuel pos words far loc elem : Nat) : List Txn :=
  match fuel with
  | 0 => []
  | fuel + 1 =>
    if words = 0 then []
    else
      let n := min words (min (32 - far / 64 % 32) (32 - loc / 64 % 32))
      { pos := pos, n := n, far := far, loc := loc, elem := elem } ::
        cutRow fuel (pos + n) (words - n) ((far + 64 * n) % 2 ^ 48) (loc + 64 * n) elem

/-- A whole row. -/
def rowTxns (pos words far loc elem : Nat) : List Txn := cutRow words pos words far loc elem

/-- A 48-bit two's complement stride times a count, added to an address. -/
def strided (base stride k : Nat) : Nat := (base + stride * k) % 2 ^ 48

/-- Index j of a gather descriptor, as the unit has read it, or as the slice holds it (R189). -/
def StrSlot.index (d : StrSlot) (sl : Slice) (j : Nat) : Nat := (Tab.find d.elems j).getD (leNat (sl.bytes (d.fld 16 4 + 4 * j) 4))

/-- Entry p of a page-list (R190). -/
def StrSlot.page (d : StrSlot) (sl : Slice) (p : Nat) : Nat := (Tab.find d.elems p).getD (leNat (sl.bytes (d.fld 16 4 + 8 * p) 8))

/-- The transactions of a descriptor in transfer order. A descriptor not yet captured has none. -/
def StrSlot.txns (d : StrSlot) (sl : Slice) : List Txn :=
  match d.kind with
  | 1 =>
    let rw := d.fld 16 2
    let rows := d.fld 18 2
    (List.range (d.fld 20 2)).flatMap (fun p => (List.range rows).flatMap (fun r =>
      rowTxns ((p * rows + r) * rw) rw (strided (strided d.far (d.fld 32 6) p) (d.fld 24 6) r)
        (d.loc + 64 * (p * d.fld 42 2 + r * d.fld 40 2)) 0))
  | 2 =>
    let w := d.fld 16 1
    let t := tileOf d.loc
    let r := rowOf d.loc
    let c := colOf d.loc
    (List.range (d.fld 18 2)).flatMap (fun i =>
      let far := strided d.far (d.fld 20 6) i
      if bitAt (d.fld 17 1) 0 then
        (List.range w).map (fun j =>
          { pos := i * w + j, n := 1, far := (far + 64 * j) % 2 ^ 48,
            loc := wordOffset (t + (c + i) / 32) (r + j) ((c + i) % 32), elem := 0 })
      else rowTxns (i * w) w far (wordOffset (t + (r + i) / 32) ((r + i) % 32) c) 0)
  | 3 =>
    let rw := d.fld 22 2
    (List.range (d.fld 20 2)).flatMap (fun j =>
      rowTxns (j * rw) rw (strided d.far (d.fld 24 6) (d.index sl j)) (d.loc + 64 * j * d.fld 36 2) j)
  | 4 =>
    let w := d.fld 28 2
    (List.range (d.fld 20 2)).flatMap (fun p =>
      let e := d.page sl p
      if bitAt e 0 then []
      else rowTxns (p * w) w ((bits e 47 16 * 65536 + d.far) % 2 ^ 48) (d.loc + 64 * p * d.fld 30 2) p)
  | 5 =>
    if d.fld 16 2 = 0 then [{ pos := 0, n := 0, far := d.far, loc := d.loc, elem := 0 }]
    else rowTxns 0 (d.fld 16 2) d.far d.loc 0
  | _ => []

/-- Every transaction of a captured descriptor has completed, and every entry of its page-list has been read. -/
def StrSlot.allDone (d : StrSlot) (sl : Slice) : Bool :=
  !d.desc.isEmpty && (decide (d.kind ≠ 4) || decide (d.fld 20 2 ≤ d.reached)) &&
  (List.range (d.txns sl).length).all (fun i => d.done.contains i)

/-- Transaction `i` is in flight. -/
def StrSlot.flies (d : StrSlot) (i : Nat) : Bool := d.issued.any (fun x => decide (x.index = i))

/-- The next transaction to issue, by index (R193). -/
def StrSlot.next (d : StrSlot) (sl : Slice) : Option Nat :=
  (List.range (d.txns sl).length).find? (fun i => !d.done.contains i && !d.flies i)

/-- The descriptor still has something to issue or an entry to read. -/
def StrSlot.left (d : StrSlot) (sl : Slice) : Bool :=
  !d.desc.isEmpty && ((d.next sl).isSome || (decide (d.kind = 4) && decide (d.reached < d.fld 20 2)))

/-- The first transaction, by index, that has not completed: the saved position (R202). -/
def StrSlot.saved (d : StrSlot) (sl : Slice) : Nat :=
  ((List.range (d.txns sl).length).find? (fun i => !d.done.contains i)).getD (d.txns sl).length

/-! ## Violations and faults (R199 to R201) -/

/-- The stream unit freezes the core with a code of R199 and records the instruction; the descriptor and those
started after it do not go on. -/
def State.strViolate (s : State) (p code slot : Nat) (x : QEntry) : State :=
  (s.modCore p (fun c => { c with str := { c.str with
    viol := BitVec.ofNat 16 code, violWord := x.word, frozen := true,
    slots := c.str.slots.takeWhile (fun d => decide (d.slot ≠ slot)) } })).freezeCore p code

/-- Report a fault of the stream unit (R200); the transaction at its position is no longer in flight. -/
def State.strReport (s : State) (p : Nat) (f : StrFault) : State :=
  s.modCore p (fun c => { c with str := { c.str with
    reported := c.str.reported ++ [f],
    slots := c.str.slots.map (fun d => if d.slot = f.slot then
      { d with issued := d.issued.filter (fun x => decide (x.txn.pos ≠ f.pos)) } else d) } })

/-- The fault of a transaction. -/
def StrSlot.fault (d : StrSlot) (kind pos addr : Nat) (isLocal : Bool) (frame : Nat := 0) : StrFault :=
  { kind := kind, slot := d.slot, dir := d.store, desc := d.descAddr / 64, addr := addr, localAddr := isLocal,
    pos := pos, frame := frame }

/-- Change a started descriptor. -/
def State.modStr (s : State) (p slot : Nat) (f : StrSlot → StrSlot) : State :=
  s.modCore p (fun c => { c with str := { c.str with
    slots := c.str.slots.map (fun d => if d.slot = slot then f d else d) } })

/-- The started descriptor in a slot. -/
def Core.strSlot (c : Core) (slot : Nat) : Option StrSlot := c.str.slots.find? (fun d => decide (d.slot = slot))

/-! ## Starting (R184, R185) -/

/-- Read and check the descriptor of a started slot; a refusal of its tile halts the unit with kind 6 (R168, R199). -/
def State.strCapture (s : State) (p : Nat) (d : StrSlot) : State :=
  let sl := (s.core p).slice
  if !sl.rangeOn d.descAddr 64 then
    (s.noteRefused p).strReport p (d.fault 6 0 d.descAddr true)
  else match sl.badIn d.descAddr 64 with
    | some w => (s.noteBad p w).strViolate p 0x0863 d.slot d.entry
    | none =>
      let rd := (s.noteReads p [(d.descAddr, 64)]).portBRead p d.descAddr 64
      let d1 := { d with desc := rd.1 }
      if d1.check = 0 then rd.2.modStr p d.slot (fun _ => d1)
      else rd.2.strViolate p d1.check d.slot d.entry

/-- The instruction's own reserved fields; A.XFER carries desc only (R183, R184). -/
def srunReserved (o : SrunOps) (pva : Bool) : Bool :=
  decide (o.rsv ≠ 0) || (pva && (decide (o.fdisp ≠ 0) || decide (o.ldisp ≠ 0) || o.alt))

/-- The stream unit starts the entry at the head of its queue: it takes the lowest free slot and inverts the toggle
for alt (R75, R184, R185). -/
def startStream (p : Nat) (s : State) : State :=
  let c := s.core p
  match c.seq.qStr with
  | [] => s
  | x :: rest =>
    if !s.waitMet p x.hdr || c.str.halted || c.str.stopping then s
    else match firstBelow 16 (fun i => (c.strSlot i).isNone), x.op with
      | some slot, .srun o pva =>
        if srunReserved o pva then s.strViolate p 0x0802 16 x
        else
          let u := !pva && o.alt && c.str.toggle
          let addr := o.desc.toNat * 64 + (if u then 64 else 0)
          let s1 := s.modCore p (fun c => { c with
            seq := { c.seq with qStr := rest },
            str := { c.str with toggle := c.str.toggle != (!pva && o.alt) } })
          if sliceSize < addr + 64 then s1.strViolate p 0x0861 16 x
          else
            let d : StrSlot := { slot := slot, entry := x, descAddr := addr, desc := [] }
            (s1.modCore p (fun c => { c with str := { c.str with slots := c.str.slots ++ [d] } })).strCapture p d
      | _, _ => s

/-! ## Issue (R189, R190, R193, R194) -/

/-- The physical core that holds a logical id in the panel of core `p` (R191). -/
def State.panelCore (s : State) (p logical : Nat) : Option Nat :=
  (List.range 160).find? (fun q => decide ((s.core q).logical = logical) && decide (logical < 144) &&
    decide ((s.core q).panel = (s.core p).panel) && (s.core q).panel.isSome)

/-- Transactions in flight. -/
def StreamUnit.inflight (u : StreamUnit) : Nat := (u.slots.map (fun d => d.issued.length)).sum

/-- The translation cache serves a transaction; a remote one needs no translation. -/
def Core.txnServed (c : Core) (d : StrSlot) (t : Txn) : Bool :=
  d.kind = 5 ||
  (match c.tc.find c.ctx c.gen t.far with
   | some e => e.serves d.store
   | none => false)

/-- What reading an index or entry word meets (R189, R190, R199, R200). -/
inductive ElemCheck where
  | ok | violation (code word : Nat) | refused (addr : Nat) | bound
  deriving DecidableEq, Repr

/-- The bytes of an index or of an entry. -/
def StrSlot.elemSize (d : StrSlot) : Nat := if d.kind = 3 then 4 else 8

/-- The address of an index or of an entry. -/
def StrSlot.elemAddr (d : StrSlot) (k : Nat) : Nat := d.fld 16 4 + d.elemSize * k

/-- Check index or entry `k` of a descriptor; a skipped entry is checked too. -/
def StrSlot.elemCheck (d : StrSlot) (sl : Slice) (k : Nat) : ElemCheck :=
  let addr := d.elemAddr k
  if d.kind ≠ 3 ∧ d.kind ≠ 4 then .ok
  else if !sl.rangeOn addr 4 then .refused (addr / 64 * 64)
  else match sl.badIn addr 4 with
    | some w => .violation 0x0863 w
    | none =>
      if d.kind = 3 then (if d.fld 32 4 ≤ d.index sl k then .bound else .ok)
      else
        let e := d.page sl k
        if bits e 15 1 ≠ 0 ∨ bits e 63 48 ≠ 0 then .violation 0x0860 sliceSize
        else if bitAt (d.fld 22 1) 0 && decide (bits e 20 16 ≠ 0) then .violation 0x0861 sliceSize
        else .ok

/-- The indices and entries that the unit reads next: those of a page-list up to the one of its next transaction, skipped ones among
them, or the index of the next transaction. -/
def StrSlot.toReach (d : StrSlot) (sl : Slice) : List Nat :=
  let e := (d.next sl).bind (fun i => ((d.txns sl)[i]?).map (fun t => t.elem))
  if d.kind = 4 then
    let n := match e with
      | some k => k + 1
      | none => d.fld 20 2
    List.range' d.reached (n - d.reached)
  else if d.kind = 3 then e.toList
  else []

/-- The first index or entry of a list whose word does not pass. -/
def StrSlot.elemsCheck (d : StrSlot) (sl : Slice) (ks : List Nat) : ElemCheck :=
  ((ks.map (fun k => d.elemCheck sl k)).find? (fun x => decide (x ≠ .ok))).getD .ok

/-- The unit issues from its oldest started descriptor that has something left (R193). -/
def Core.issuer (c : Core) : Option StrSlot := c.str.slots.find? (fun d => d.left c.slice)

/-- The unit may issue: it is not halted, nothing is reported, its core is not frozen, and fewer than 128 transactions are in
flight. -/
def Core.mayIssue (c : Core) : Bool :=
  !c.str.halted && !c.str.stopping && c.str.reported.isEmpty && !c.isFrozen && decide (c.str.inflight < 128)

/-- A transaction is ready to issue: its descriptor's turn has come, and it has its translation or needs none (R193, R194). -/
def Core.issueReady (c : Core) : Bool :=
  c.mayIssue &&
  (match c.issuer with
   | none => false
   | some d =>
     match (d.next c.slice).bind (fun i => (d.txns c.slice)[i]?) with
     | none => true
     | some t => decide (d.elemsCheck c.slice (d.toReach c.slice) ≠ .ok) || c.txnServed d t)

/-- Port B reads indices or entries that are not read yet, and the slot keeps them; a read that met a write of port A gives free bytes, and
one that is refused or finds an uncorrectable word gives nothing (06 R163, R165). -/
def State.readElems (s : State) (p : Nat) (d : StrSlot) (ks : List Nat) : State :=
  ks.foldl (fun s k =>
    let sl := (s.core p).slice
    let a := d.elemAddr k
    if (Tab.find d.elems k).isSome || !sl.rangeOn a d.elemSize || (sl.badIn a d.elemSize).isSome then s
    else
      let rd := (s.noteReads p [(a, d.elemSize)]).portBRead p a d.elemSize
      rd.2.modStr p d.slot (fun d => { d with elems := Tab.set d.elems k (leNat rd.1) })) s

/-- The position of the transaction that comes next, the end of the descriptor where none is left. -/
def StrSlot.nextPos (d : StrSlot) (sl : Slice) : Nat :=
  (((d.next sl).bind (fun i => (d.txns sl)[i]?)).map (fun t => t.pos)).getD (d.fld 20 2 * d.fld 28 2)

/-- Put a transaction in flight with what it captures: the leaf that translates it, and the generation and material of the leaf's key
slot (R242; 17 R441). A leaf that does not permit the access is a fault of kind 4. -/
def State.issueTxn (s : State) (p : Nat) (d : StrSlot) (i : Nat) (t : Txn) : State :=
  let c := s.core p
  let put (s : State) (x : IssuedTxn) : State := s.modStr p d.slot (fun d => { d with issued := d.issued ++ [x] })
  if d.kind = 5 then put s { index := i, txn := t }
  else match c.tc.find c.ctx c.gen t.far with
    | none => s
    | some e =>
      let s1 := (s.modCore p (fun c => { c with tc := c.tc.touch e })).count (coreReg p 0x2900) 1
      if (if d.store then !pteW e.leaf else !pteR e.leaf) then
        (s1.count (xlReg 0x108) 1).strReport p (d.fault 4 t.pos t.far false)
      else
        let k := s.slot (pteSlot e.leaf)
        put s1 { index := i, txn := t, leaf := e.leaf, large := e.large, gen := k.gen,
                 material := if s.memSlotOk (pteSlot e.leaf) c.tenant then k.material else 0 }

/-- The unit issues one transaction, after it has read the indices or entries on the way to it (R189, R190, R193). -/
def State.issueOne (s : State) (p : Nat) : State :=
  let c := s.core p
  if !c.issueReady then s
  else match c.issuer with
    | none => s
    | some d0 =>
      let ks := d0.toReach c.slice
      let s := s.readElems p d0 ks
      let c := s.core p
      let d := (c.strSlot d0.slot).getD d0
      let far := (((d.next c.slice).bind (fun i => (d.txns c.slice)[i]?)).map (fun t => t.far)).getD 0
      match d.elemsCheck c.slice ks with
      | .violation code w => (if w < 32768 then s.noteBad p w else s).strViolate p code d.slot d.entry
      | .refused a => (s.noteRefused p).strReport p (d.fault 6 (d.nextPos c.slice) a true)
      | .bound => s.strReport p (d.fault 5 (d.nextPos c.slice) far false)
      | .ok =>
        let s1 := s.modStr p d.slot (fun d => if d.kind = 4 then { d with reached := d.reached + ks.length } else d)
        match (d.next c.slice).bind (fun i => ((d.txns c.slice)[i]?).map (fun t => (i, t))) with
        | none => s1
        | some x =>
          if d.kind = 4 ∧ d.reached + ks.length ≤ x.2.elem then s1
          else if c.txnServed d x.2 then s1.issueTxn p d x.1 x.2 else s1

/-- The unit has a transaction left, not only entries of a page-list that skip. -/
def Core.hasTxn (c : Core) : Bool := c.issuer.any (fun d => (d.next c.slice).isSome)

/-- One cycle of an issue window: a ready transaction is issued in a cycle that the pace permits and counts in STR_PACED in another; a
pace of 0 places no limit (R117, R194). -/
def issueCycle (p q : Nat) (ready : W64) (s : State) (c : Nat) : State :=
  if !(ready.getLsbD c && (s.core p).issueReady) then s
  else if q = 0 ∨ permittedCycle q c then s.issueOne p
  else if (s.core p).hasTxn then s.count (coreReg p 0x2120) 1 else s

/-- An issue window of the stream unit: it reads its pace, and issues; bit c of `ready` says that the unit can issue in cycle c. -/
def streamWindow (p q : Nat) (ready : W64) (s : State) : State :=
  (List.range 64).foldl (issueCycle p q ready) (s.modCore p (fun c => { c with str := { c.str with pace := q } }))

/-! ## Transactions complete (R190 to R197) -/

/-- The words of a destination that a later transaction of the descriptor has already written: the last row in
transfer order stays for a load with repeated local rows (R187) and for a scatter with equal indices (R189). -/
def StrSlot.overwritten (d : StrSlot) (sl : Slice) (i : Nat) (t : Txn) : List Nat :=
  if (d.kind = 1 && !d.store) || (d.kind = 3 && d.store) then
    let addr (x : Txn) : Nat := if d.store then x.far else x.loc
    let later := (d.done.filter (fun k => decide (i < k))).filterMap (fun k => (d.txns sl)[k]?)
    (List.range t.n).filter (fun w => later.any (fun x =>
      decide (addr x ≤ addr t + 64 * w) && decide (addr t + 64 * w < addr x + 64 * x.n)))
  else []

/-- The words of a transaction that it writes, as (word, bytes). -/
def keptWords (t : Txn) (skip : List Nat) (data : List Byte) : List (Nat × List Byte) :=
  ((List.range t.n).filter (fun w => !skip.contains w)).map (fun w => (w, slicedAt data (64 * w) 64))

/-- Count a completed transaction (R204) and the panel's progress (R421). -/
def State.txnDone (s : State) (p slot i nIn nOut : Nat) : State :=
  (((s.modStr p slot (fun d => { d with
    done := i :: d.done, past := d.past ++ d.issued.filter (fun x => decide (x.index = i)),
    issued := d.issued.filter (fun x => decide (x.index ≠ i)) })).count (coreReg p 0x2108) 1).count
    (coreReg p 0x2110) nIn |>.count (coreReg p 0x2118) nOut).progress p

/-- Load data into the slice, or report the refusal (R168, R195). -/
def State.txnLoad (s : State) (p i : Nat) (d : StrSlot) (t : Txn) (data : List Byte) : State :=
  let sl := (s.core p).slice
  if !sl.rangeOn t.loc (64 * t.n) then
    (s.noteRefused p).strReport p (d.fault 6 t.pos t.loc true)
  else
    let ws := keptWords t (d.overwritten sl i t) data
    (s.modSlice p (fun sl => sl.writeAll (ws.map (fun w => (t.loc + 64 * w.1, w.2))))).txnDone p d.slot i (64 * t.n) 0

/-- The far end of a translated transaction: this module's HBM, or a board peer's, by the leaf and under the key that it captured at
its issue (R236, R242). A board peer answers a request that has gone out: one that still waits for a buffer or a shaper has not been
answered, and the transaction stays in flight (08 R211). A word that a later row has written is not sent (R189). -/
def State.txnHbm (s : State) (p : Nat) (d : StrSlot) (x : IssuedTxn) (out : List Byte) : State :=
  let c := s.core p
  let t := x.txn
  let pa := leafAddr x.leaf x.large t.far
  let bad (k : Nat) (s : State) : State := s.strReport p (d.fault k t.pos t.far false)
  match s.ownHbm pa with
  | some off =>
    if x.material = 0 then bad 4 s
    else
      let r : HReq := { slot := pteSlot x.leaf, gen := x.gen, material := x.material,
                        ways := if d.noAlloc then 0 else c.wayMask.toNat }
      if d.store then
        let ws := keptWords t (d.overwritten c.slice x.index t) out
        ((ws.foldl (fun s w => s.hbmWriteWord (off / 64 + w.1) 0 w.2 r) s).charge c.ctx 40 (64 * t.n)).txnDone p d.slot x.index
          0 (64 * t.n)
      else
        let a := s.hbmRead off (64 * t.n) r
        match a.1 with
        | .poison => bad 3 a.2
        | .data bs => (a.2.charge c.ctx 32 (64 * t.n)).txnLoad p x.index d t bs
  | none =>
    let s0 := if d.store then
        (keptWords t (d.overwritten c.slice x.index t) out).foldl (fun s w =>
          s.peerRequest c.ctx (pa / 2 ^ 45) (pteSlot x.leaf) x.gen true (pa % 2 ^ 44 + 64 * w.1) 64 w.2) s
      else s.peerRequest c.ctx (pa / 2 ^ 45) (pteSlot x.leaf) x.gen false (pa % 2 ^ 44) (64 * t.n) []
    if s.lnk.backlog.length < s0.lnk.backlog.length then s else
    let s1 := (s0.charge c.ctx (if d.store then 40 else 32) (64 * t.n)).charge c.ctx (if d.store then 48 else 56)
      (64 * t.n)
    let a := s1.peerAnswer
    match a.1 with
    | .refused => bad 4 a.2
    | .poison => if d.store then a.2.txnDone p d.slot x.index 0 (64 * t.n) else bad 3 a.2
    | .served =>
      if d.store then a.2.txnDone p d.slot x.index 0 (64 * t.n)
      else
        let bs := a.2.drawBytes (64 * t.n)
        bs.2.txnLoad p x.index d t bs.1

/-- A transaction with a translated far end (R193, R200). -/
def State.txnFar (s : State) (p : Nat) (d : StrSlot) (x : IssuedTxn) : State :=
  let sl := (s.core p).slice
  let t := x.txn
  if d.store then
    if !sl.rangeOn t.loc (64 * t.n) then (s.noteRefused p).strReport p (d.fault 6 t.pos t.loc true)
    else match sl.badIn t.loc (64 * t.n) with
      | some w => (s.noteBad p w).strReport p (d.fault 3 t.pos t.loc true)
      | none =>
        let rd := (s.noteReads p [(t.loc, 64 * t.n)]).portBRead p t.loc (64 * t.n)
        rd.2.txnHbm p d x rd.1
  else s.txnHbm p d x []

/-- The local end of a remote transfer lies in the secure tiles of a marked slice (R175, R178). -/
def Slice.secureEnd (sl : Slice) (off n : Nat) : Bool := sl.secure && touchesSecure off n

/-- The packets of a remote store: 4 words each, one without words for a pure signal (R178, R191). -/
def packetCuts (n : Nat) : List (Nat × Nat) :=
  if n = 0 then [(0, 0)] else (List.range (ceilDiv n 4)).map (fun k => (4 * k, min 4 (n - 4 * k)))

/-- A remote store or a pure signal: incoming write packets at the target, in order (R178, R191). The raise travels with the
packet that makes the descriptor whole. -/
def State.txnSend (s : State) (p q : Nat) (d : StrSlot) (x : IssuedTxn) : State :=
  let c := s.core p
  let t := x.txn
  let mine := c.slice.secureEnd t.loc (64 * t.n)
  let theirs := (s.core q).slice.secureEnd t.far (64 * t.n)
  if !c.slice.rangeOn t.loc (64 * t.n) then (s.noteRefused p).strReport p (d.fault 6 t.pos t.far true)
  else if mine && !theirs then (s.noteSecure p).strReport p (d.fault 6 t.pos t.far true)
  else match c.slice.badIn t.loc (64 * t.n) with
    | some w => (s.noteBad p w).strReport p (d.fault 3 t.pos t.far true)
    | none =>
      let rd := (s.noteReads p [(t.loc, 64 * t.n)]).portBRead p t.loc (64 * t.n)
      let last := ({ d with done := x.index :: d.done } : StrSlot).allDone c.slice
      let cuts := packetCuts t.n
      let r := cuts.zipIdx.foldl (fun (acc : Bool × State) k =>
        let e := acc.2.deliver q
          { addr := t.far + 64 * k.1.1, data := slicedAt rd.1 (64 * k.1.1) (64 * k.1.2), ctx := BitVec.ofNat 10 c.ctx,
            gen := c.gen, cls := s.netClass c.ctx false, ctr := BitVec.ofNat 8 (d.fld 19 1),
            raise := d.raises && last && !d.noRaise && decide (k.2 + 1 = cuts.length), secure := mine, src := .core p }
        (acc.1 || decide (e.1 = .refused), e.2)) (false, rd.2)
      if r.1 then r.2.strReport p (d.fault 6 t.pos t.far true) else r.2.txnDone p d.slot x.index 0 (64 * t.n)

/-- A remote load: a read request at the target's port B (R175, R178, R179, R191). -/
def State.txnFetch (s : State) (p q : Nat) (d : StrSlot) (x : IssuedTxn) : State :=
  let c := s.core p
  let t := x.txn
  let tsl := (s.core q).slice
  let n := 64 * t.n
  let mine := c.slice.secureEnd t.loc n
  let theirs := tsl.secureEnd t.far n
  if tsl.resident ≠ some (c.ctx, c.gen) then (s.noteDropped q).txnDone p d.slot x.index 0 0
  else if theirs && !mine then (s.noteSecure q).strReport p (d.fault 6 t.pos t.far true)
  else if mine && !theirs then (s.noteSecure p).strReport p (d.fault 6 t.pos t.far true)
  else if !tsl.rangeOn t.far n then (s.noteRefused q).strReport p (d.fault 6 t.pos t.far true)
  else match tsl.badIn t.far n with
    | some w => (s.noteBad q w).strReport p (d.fault 3 t.pos t.far true)
    | none =>
      if !c.slice.rangeOn t.loc n then (s.noteRefused p).strReport p (d.fault 6 t.pos t.far true)
      else
        let rd := (s.noteReads q [(t.far, n)]).portBRead q t.far n
        rd.2.txnLoad p x.index d t rd.1

/-- A remote transaction; a target outside the panel is a permission fault (R191, R200). -/
def State.txnRemote (s : State) (p : Nat) (d : StrSlot) (x : IssuedTxn) : State :=
  match s.panelCore p d.target with
  | none => s.strReport p (d.fault 4 x.txn.pos x.txn.far true)
  | some q => if d.store then s.txnSend p q d x else s.txnFetch p q d x

/-- The core whose slice a transaction reads: the target of a remote load, its own for a store. -/
def State.txnReader (s : State) (p : Nat) (d : StrSlot) : Nat :=
  if d.kind = 5 ∧ d.store = false then (s.panelCore p d.target).getD p else p

/-- One transaction in flight runs to its end, or reports its fault. -/
def State.runTxn (s : State) (p : Nat) (d : StrSlot) (x : IssuedTxn) : State :=
  if d.kind = 5 then s.txnRemote p d x else s.txnFar p d x

/-! ## Words that a halted descriptor moves again (08 R219) -/

/-- Where a transaction writes: a slice, or this module's HBM. -/
inductive TxnDest where
  | slice (core off : Nat)
  | hbm (off : Nat)
  deriving DecidableEq, Repr

/-- Where a transaction writes; nowhere for one of a board peer, and for a packet that port B drops or refuses. -/
def State.txnDest (s : State) (p : Nat) (d : StrSlot) (x : IssuedTxn) : Option TxnDest :=
  if !d.store then some (.slice p x.txn.loc)
  else if d.kind = 5 then
    (s.panelCore p d.target).bind (fun q =>
      if (s.core q).slice.resident = some ((s.core p).ctx, (s.core p).gen) ∧ (s.core q).slice.rangeOn x.txn.far (64 * x.txn.n) = true then
        some (.slice q x.txn.far)
      else none)
  else (s.ownHbm (leafAddr x.leaf x.large x.txn.far)).map TxnDest.hbm

/-- What stands at a destination. -/
def State.destBytes (s : State) (t : TxnDest) (n : Nat) : List Byte :=
  match t with
  | .slice q off => (s.core q).slice.bytes off n
  | .hbm off => Mem.readN s.hbm.mem off n

/-- Replace what stands at a destination. -/
def State.putDest (s : State) (t : TxnDest) (bs : List Byte) : State :=
  match t with
  | .slice q off => s.modSlice q (fun sl => { sl with mem := Mem.writeN sl.mem off bs })
  | .hbm off => { s with hbm := { s.hbm with mem := Mem.writeN s.hbm.mem off bs } }

/-- The words that a transaction has written become unspecified (R219). -/
def State.scrambleTxn (s : State) (p : Nat) (d : StrSlot) (x : IssuedTxn) : State :=
  match s.txnDest p d x with
  | some t =>
    let f := s.drawBytes (64 * x.txn.n)
    f.2.putDest t f.1
  | none => s

/-- A transaction that moved its words again after a halt: until the descriptor completes they stay unspecified, and the slot keeps what
they hold from then on (R219). -/
def State.hideAgain (s : State) (p slot : Nat) (x : IssuedTxn) : State :=
  match (s.core p).strSlot slot with
  | none => s
  | some d =>
    if !(d.redo.contains x.index && d.done.contains x.index) then s
    else match s.txnDest p d x with
      | some t => (s.modStr p slot (fun d => { d with latent := Tab.set d.latent x.index (x, s.destBytes t (64 * x.txn.n)) })).scrambleTxn p d x
      | none => s

/-- The words that the slot kept show as its descriptor completes, but for those of a later row (R219). -/
def State.showLatent (s : State) (p : Nat) (d : StrSlot) : State :=
  d.latent.foldl (fun s e =>
    match s.txnDest p d e.2.1 with
    | some (.slice q off) =>
      (keptWords e.2.1.txn (d.overwritten (s.core p).slice e.1 e.2.1.txn) e.2.2).foldl (fun s w => s.putDest (.slice q (off + 64 * w.1)) w.2) s
    | some (.hbm off) =>
      (keptWords e.2.1.txn (d.overwritten (s.core p).slice e.1 e.2.1.txn) e.2.2).foldl (fun s w => s.putDest (.hbm (off + 64 * w.1)) w.2) s
    | none => s) s

/-- The way of a transaction is open: its request and its response find every island of the gallery network clocked, and at a slice
of this module no earlier packet waits (R29, R30, R33). -/
def State.txnReached (s : State) (p : Nat) (d : StrSlot) (x : IssuedTxn) : Bool :=
  if d.kind = 5 then
    match s.panelCore p d.target with
    | none => true
    | some q => s.netClear (.core p) q (s.netClass (s.core p).ctx false) && s.netClear (.core q) p (s.netClass (s.core p).ctx true)
  else match s.ownHbm (leafAddr x.leaf x.large x.txn.far) with
    | some off => s.hbmReached p off
    | none => true

/-- Nothing that the unit sent earlier to the same slice is still on its way: the packets of one source to one slice arrive in the
order in which they were sent (R34, R211, R216). -/
def Core.sendsNext (c : Core) (d : StrSlot) (i : Nat) : Bool :=
  decide (d.kind ≠ 5) || !d.store ||
  (((c.str.slots.takeWhile (fun e => decide (e.slot ≠ d.slot))).all (fun e =>
      !(decide (e.kind = 5) && e.store && decide (e.target = d.target)) || e.issued.isEmpty)) &&
    (d.issued.takeWhile (fun x => decide (x.index ≠ i))).isEmpty)

/-- STREAM_TXN_COMPLETE: a transaction in flight completes. `collided` counts its collision flags; a flagged read was reissued until
one was not (R193, R195, R197). `finds` are the errors that its slice read found (R165). -/
def execStreamTxnComplete (core slot txn : Nat) (r : TxnRead) (s : State) : Answer :=
  let c := s.core core
  if !s.clocked core || c.str.halted then .next s
  else match c.strSlot slot with
    | none => .next s
    | some d =>
      match d.issued.find? (fun x => decide (x.index = txn)) with
      | none => .next s
      | some x =>
        if !s.txnReached core d x || !c.sendsNext d txn then .next s
        else
          let s1 := if r.collided = 0 then s else s.count (coreReg core 0x2128) r.collided
          .next (((s1.modSlice (s.txnReader core d) (fun sl => sl.found r.finds)).runTxn core d x).hideAgain core slot x)

/-! ## Completion in start order (R195) -/

/-- The oldest started descriptor completes and signals, once all its transactions are done; `cycles` are those in which the unit was
busy since the last completion (R76, R91). -/
def State.strRetire (s : State) (p cycles : Nat) : State :=
  let c := s.core p
  match c.str.slots with
  | [] => s
  | d :: rest =>
    if d.allDone c.slice then
      let s1 := (((s.showLatent p d).modCore p (fun c => { c with str := { c.str with slots := rest } })).count (coreReg p 0x2100) 1).count
        (coreReg p 0x210) cycles
      (if d.entry.hdr.signal then s1.raiseCtr p d.entry.hdr.signalCtr else s1).progress p
    else s

/-- Retire up to `n` descriptors. -/
def State.strRetireAll (s : State) (p n : Nat) : State :=
  match n with
  | 0 => s
  | n + 1 => (s.strRetire p 0).strRetireAll p n

/-- STREAM_DESC_COMPLETE. -/
def execStreamDescComplete (d : DescEnd) (s : State) : Answer :=
  if s.clocked d.core && !(s.core d.core).str.halted then .next (s.strRetire d.core d.cycles) else .next s

/-! ## Halts and resume (R200 to R202) -/

/-- STREAM_FAULT_HALT: the unit stops issuing once a fault is reported (R201). -/
def execStreamFaultHalt (core : Nat) (s : State) : Answer :=
  let c := s.core core
  if s.clocked core && !c.str.halted && !c.str.reported.isEmpty then
    .next (s.modCore core (fun c => { c with str := { c.str with stopping := true } }))
  else .next s

/-- The fault that a halt records: of the oldest descriptor, at the lowest position (R201). -/
def StreamUnit.chosen (u : StreamUnit) : Option StrFault :=
  u.slots.findSome? (fun d =>
    (u.reported.filter (fun f => decide (f.slot = d.slot))).foldl (fun best f =>
      match best with
      | none => some f
      | some b => if f.pos < b.pos then some f else some b) none)

/-- The unit is halted and waits for the host: kinds 1 and 3 to 6, and kind 2 left to the host (R421). -/
def Core.hostHalted (c : Core) : Bool := c.str.halted && (decide (c.str.fault.kind ≠ 2) || c.str.handled)

/-- Some stream unit of a panel is halted awaiting host action. -/
def State.panelHostHalted (s : State) (k : Nat) : Bool :=
  (Tab.keys s.cores).any (fun p => decide ((s.core p).panel = some k) && (s.core p).hostHalted)

/-- Keep the time since which a panel waits for the host; the wait does not count for its watchdog (R421). -/
def State.trackHostHalt (s : State) (p : Nat) : State :=
  match (s.core p).panel with
  | none => s
  | some k =>
    if s.panelHostHalted k then
      s.modPanel k (fun pn => { pn with haltSince := some (pn.haltSince.getD s.time) })
    else s.modPanel k (fun pn =>
      match pn.haltSince with
      | some t => { pn with haltSince := none, progress := pn.progress + (s.time - t) }
      | none => pn)

/-- The words of every halted descriptor beyond its saved position become unspecified (R219). -/
def State.scrambleHalted (s : State) (p : Nat) : State :=
  let c := s.core p
  c.str.slots.foldl (fun s d =>
    (d.past.filter (fun x => decide (d.saved c.slice < x.index))).foldl (fun s x => s.scrambleTxn p d x) s) s

/-- A descriptor goes back to its saved position: what it has moved beyond that moves again, and its indices and entries from there on
are read again (R202). -/
def StrSlot.rewind (d : StrSlot) (sl : Slice) : StrSlot :=
  let k := d.saved sl
  let e := ((d.txns sl)[k]?).map (fun t => t.elem)
  { d with done := d.done.filter (fun i => decide (i < k)), issued := [], past := d.past.filter (fun x => decide (x.index < k)),
           redo := d.redo ++ (d.past.filter (fun x => decide (k ≤ x.index))).map IssuedTxn.index,
           elems := match e with
             | some j => d.elems.filter (fun x => decide (x.1 < j))
             | none => d.elems,
           reached := min d.reached (e.getD d.reached) }

/-- Every started descriptor goes back to its saved position and reissues; one whose descriptor word was refused is
read again (R202). -/
def State.strReissue (s : State) (p : Nat) : State :=
  let s1 := s.modCore p (fun c => { c with str := { c.str with
    halted := false, stopping := false, handled := false, reported := [],
    slots := c.str.slots.map (fun d => d.rewind c.slice) } })
  ((s1.core p).str.slots.filter (fun d => d.desc.isEmpty)).foldl (fun s d => s.strCapture p d) (s1.trackHostHalt p)

/-- Retry: the recorded fault stays in the registers (R202, R204). -/
def State.strRetry (s : State) (p : Nat) : State :=
  if (s.core p).str.halted then s.strReissue p else s.event 0x0871

/-- The sequences that read a poisoned page which the unit skips fail with ST_POISON (02 R66, 16 R428). Which ones read it, nothing tells
the module: of each sequence of the panel's step it is a free value. DESIGN CHOICE, log entry 71. -/
def State.failReaders (s : State) (p : Nat) : State :=
  match (s.core p).panel with
  | none => s
  | some k =>
    let n := ((s.panel k).running.map (fun st => st.seqs.length)).getD 0
    let d := s.drawBytes n
    d.2.modPanel k (fun pn => { pn with running := pn.running.map (fun st => { st with
      seqs := st.seqs.mapIdx (fun i q => if bitAt (d.1.getD i 0).toNat 0 && decide (q.status = 0) then { q with status := 6 } else q) }) })

/-- Skip: as retry, except that the faulting transaction is not reissued: a load writes +0 into its local words and a
store discards its words (R202). A skip of a poisoned page fails sequences (16 R428). A refused read among the entries that a page-list
ends with has no transaction: the entries of its word are passed over. Log entry 71. -/
def State.strSkip (s : State) (p : Nat) : State :=
  let c := s.core p
  if !c.str.halted then s.event 0x0871
  else
    let f := c.str.fault
    let s1 := if f.kind = 3 then (s.strReissue p).failReaders p else s.strReissue p
    if (c.strSlot f.slot).all (fun d => d.desc.isEmpty) then s1
    else match (s1.core p).strSlot f.slot with
    | none => s1
    | some d =>
      let ts := d.txns c.slice
      match (List.range ts.length).find? (fun i => decide ((ts.map (·.pos)).getD i 0 = f.pos)) with
      | none =>
        if d.kind = 4 then s1.modStr p d.slot (fun d =>
          { d with reached := min (d.fld 20 2) (max d.reached ((f.addr + 64 - d.fld 16 4 + 7) / 8)) })
        else s1
      | some i =>
        match ts[i]? with
        | none => s1
        | some t =>
          if d.store then
            (s1.modStr p d.slot (fun d => { d with noRaise := d.noRaise || decide (i + 1 = ts.length) })).txnDone p
              d.slot i 0 0
          else s1.txnLoad p i d t (zeros (64 * t.n))

/-- STR_RESUME_RETRY: a write of action 1 to STR_RESUME. -/
def execStrResumeRetry (core : Nat) (s : State) : Answer :=
  s.hostTo (.strResumeRetry core) [core] (fun s =>
    if decide (core < 160) && s.barOpen 0 then .next (s.strRetry core) else .next s)

/-- STR_RESUME_SKIP: a write of action 2 to STR_RESUME. -/
def execStrResumeSkip (core : Nat) (s : State) : Answer :=
  s.hostTo (.strResumeSkip core) [core] (fun s =>
    if decide (core < 160) && s.barOpen 0 then .next (s.strSkip core) else .next s)

/-! ## The instructions (R183, R184) -/

/-- SRUN: the sequencer queues it at the stream unit. -/
def execSrun (h : InsnHdr) (o : SrunOps) (s : State) : Answer :=
  .next (engDecode .stream h (.srun o false) (h.count = 0) s)

/-- A.XFER: the PVA-2200 form of SRUN. -/
def execAXfer (h : InsnHdr) (o : SrunOps) (s : State) : Answer :=
  .next (engDecode .stream h (.srun o true) (h.count = 0) s)

end Sys2Proof.Machine
end

