-- ==== Sys2Proof/Machine/Paging.lean ====
section
/-! DEFINITION. Paging commands (09 R239 to R245) and the service commands that act on a context's pages (12 R318 to
R323): walks, invalidations, copy-on-write, MAP, UNMAP, INVALIDATE, POOL_ADD and STREAM_RESUME. -/

namespace Sys2Proof.Machine

/-! ## Walks of a stream unit (R239, R240) -/

/-- The next transaction of a descriptor that waits for a walk: its indices or entries pass, and it has no translation. -/
def Core.missOf (c : Core) (d : StrSlot) : Option Txn :=
  if d.kind = 5 ∨ d.elemsCheck c.slice (d.toReach c.slice) ≠ .ok then none
  else match (d.next c.slice).bind (fun i => (d.txns c.slice)[i]?) with
    | none => none
    | some t => if c.txnServed d t then none else some t

/-- The oldest started descriptor whose next transaction waits for the walk of an address, with that transaction. -/
def Core.waitingTxn (c : Core) (va : Nat) (write : Bool) : Option (StrSlot × Txn) :=
  c.str.slots.findSome? (fun d =>
    if d.store ≠ write then none
    else (c.missOf d).bind (fun t => if t.far / 65536 = va / 65536 then some (d, t) else none))

/-- Walks in flight in the module. -/
def State.walks (s : State) : Nat := ((Tab.keys s.cores).map (fun p => (s.core p).tc.walks.length)).sum

/-- A walk of the core for the same page and access is in flight. -/
def TransCache.walking (tc : TransCache) (va : Nat) (write : Bool) : Bool :=
  tc.walks.any (fun w => decide (w.va / 65536 = va / 65536) && (w.write == write))

/-- PAGE_WALK: the walker starts on a miss of the core's translation cache; at most 64 walks are in flight. -/
def execPageWalk (core : Nat) (va : BitVec 48) (write : Bool) (s : State) : Answer :=
  let c := s.core core
  if !(s.clocked core && s.islandOn 249 && decide (s.walks < 64) && !c.tc.walking va.toNat write && !c.str.halted &&
      !c.str.stopping && (c.waitingTxn va.toNat write).isSome) then .next s
  else .next ((s.modCore core (fun c => { c with tc := { c.tc with
    walks := c.tc.walks ++ [{ va := va.toNat, write := write }] } })).count (coreReg core 0x2908) 1)

/-- PAGE_WALK_COMPLETE: the core's oldest walk fills the translation cache or reports a fault. A walk that a running invalidation
discarded waits for its completion (R239 to R241). -/
def execPageWalkComplete (core : Nat) (s : State) : Answer :=
  let c := s.core core
  match c.tc.walks with
  | [] => .next s
  | w :: rest =>
    if !s.clocked core || !s.islandOn 249 || w.redo then .next s
    else
      let wait := c.waitingTxn w.va w.write
      let u := match wait with
        | some (d, _) => if d.noAlloc then Use.bare else Use.sys
        | none => Use.sys
      let a := s.walk u false c.ctx c.root c.tenant c.setMask.toNat w.va w.write
      let s1 := a.2.modCore core (fun c => { c with tc := { c.tc with walks := rest } })
      match a.1 with
      | .leaf e large wOk =>
        let t : TcEntry :=
          { ctx := c.ctx, gen := c.gen, vpage := w.va / pageBytes large, large := large, leaf := e, wOk := wOk }
        .next (s1.modCore core (fun c => { c with tc := c.tc.touch t }))
      | .fault k frame =>
        match wait with
        | some (d, t) => .next (s1.strReport core (d.fault k t.pos t.far false frame))
        | none => .next s1

/-! ## Invalidation (R241) -/

/-- Two ranges of numbers meet. -/
def spansMeet (a n b m : Nat) : Bool := decide (a < b + m) && decide (b < a + n)

/-- 64 KiB units of a page. -/
def pageUnits (large : Bool) : Nat := if large then 32 else 1

/-- The invalidation drops a translation-cache entry. -/
def Inv.hitsTc (v : Inv) (t : TcEntry) : Bool :=
  let n := pageUnits t.large
  match v.scope with
  | 0 => decide (t.ctx = v.ctx) && spansMeet (t.vpage * n) n v.page v.pages
  | 1 => decide (t.ctx = v.ctx)
  | 2 => spansMeet (pteFrame t.leaf) n v.page v.pages
  | _ => true

/-- The invalidation drops an entry of the walker cache: by the pages it covers, or by the frames a leaf names. -/
def Inv.hitsWalker (v : Inv) (key : Nat × Nat × Nat) (e : W64) : Bool :=
  let n := if key.2.1 = 1 then 2 ^ 18 else 32
  match v.scope with
  | 0 => decide (key.1 = v.ctx) && spansMeet (key.2.2 * n) n v.page v.pages
  | 1 => decide (key.1 = v.ctx)
  | 2 => pteLeaf e && spansMeet (pteFrame e) 32 v.page v.pages
  | _ => true

/-- The invalidation matches a walk in flight for a context; what frame a walk will find is not known yet, so scope 2
matches every walk. -/
def Inv.hitsWalk (v : Inv) (ctx : Nat) (w : Walk) : Bool :=
  match v.scope with
  | 0 => decide (ctx = v.ctx) && spansMeet (w.va / 65536) 1 v.page v.pages
  | 1 => decide (ctx = v.ctx)
  | _ => true

/-- Drop a core's matching entries and count them (R240, R247). -/
def State.invCore (s : State) (v : Inv) (p : Nat) : State :=
  let es := (s.core p).tc.entries
  let n := (es.filter (fun t => v.hitsTc t)).length
  if n = 0 then s
  else (s.modCore p (fun c => { c with tc := { c.tc with entries := es.filter (fun t => !v.hitsTc t) } })).count
    (coreReg p 0x2910) n

/-- Drop the matching entries of every translation cache and of the walker cache; what is dropped there is pinned no longer (13 R343). -/
def State.invApply (s : State) (v : Inv) : State :=
  let s1 := (Tab.keys s.cores).foldl (fun s p => s.invCore v p) s
  let left := s1.walker.cache.filter (fun x => !v.hitsWalker x.1 x.2)
  { s1 with walker := { s1.walker with
      cache := left, pinned := s1.walker.pinned.filter (fun k => left.any (fun x => decide (x.1 = k))) } }

/-- Mark the walks in flight that an invalidation discards. -/
def State.invMark (s : State) (v : Inv) (redo : Bool) : State :=
  (Tab.keys s.cores).foldl (fun s p => s.modCore p (fun c => { c with tc := { c.tc with
    walks := c.tc.walks.map (fun w => if v.hitsWalk c.ctx w then { w with redo := redo } else w) } })) s

/-- An invalidation completes: its entries are dropped, the walks that it discarded walk again, and its issuer's wait ends. -/
def State.invEnd (s : State) (v : Inv) : State :=
  let s1 := (s.invApply v).invMark v false
  match v.source with
  | .register => { s1 with walker := { s1.walker with invBusy := false } }
  | .internal => s1
  | .command k =>
    match (s1.window k).svcPkt with
    | some p => s1.endPacket k true p 0
    | none => s1

/-- The invalidation that runs and those that are queued complete, in the order in which they were issued. -/
def State.invDrain (s : State) : State :=
  (s.walker.running.toList ++ s.walker.queue).foldl (fun s v => s.invEnd v)
    { s with walker := { s.walker with running := none, queue := [] } }

/-- An invalidation that the command processor issues and waits for within one of its own operations: those issued before it
complete first (R241). -/
def State.invNow (s : State) (scope ctx pages page : Nat) : State :=
  s.invDrain.invApply { scope := scope, ctx := ctx, pages := pages, page := page, source := .internal }

/-- XL_INV_GO: a PF write of XL_INV_CTRL (R241, R247). -/
def execXlInvGo (value : W32) (s : State) : Answer :=
  s.hostTo (.xlInvGo value) [249] (fun s =>
    if !s.barOpen 0 then .next s
    else if s.walker.invBusy then .next (s.event 0x3003)
    else
      let scope := bits value.toNat 1 0
      let ctx := bits value.toNat 11 2
      let s1 := { s with walker := { s.walker with invScope := BitVec.ofNat 2 scope, invCtx := BitVec.ofNat 10 ctx } }
      if !bitAt value.toNat 12 || (decide (scope = 0 ∨ scope = 2) && decide (s.walker.invPages = 0)) then .next s1
      else .next { s1 with walker := { s1.walker with
        invBusy := true,
        queue := s1.walker.queue ++ [{ scope := scope, ctx := ctx, pages := s.walker.invPages.toNat,
                                       page := s.walker.invPage.toNat, source := .register }] } })

/-- INVALIDATION_RUN: the oldest queued invalidation starts once none runs. -/
def execInvalidationRun (s : State) : Answer :=
  match s.walker.running, s.walker.queue with
  | none, v :: rest =>
    if s.islandOn 249 then
      .next ({ s with walker := { s.walker with running := some v, queue := rest } }.invMark v true)
    else .next s
  | _, _ => .next s

/-- INVALIDATION_COMPLETE: the entries are dropped, and the issuer's wait ends. -/
def execInvalidationComplete (s : State) : Answer :=
  match s.walker.running with
  | none => .next s
  | some v =>
    if !s.islandOn 249 then .next s
    else .next ({ s with walker := { s.walker with running := none } }.invEnd v)

/-! ## Leaf positions (R319) -/

/-- Where a command finds the leaf position of a virtual address. -/
inductive PosAns where
  | pos (off : Nat) (e : W64)
  | covered
  | noTable
  | poison
  deriving DecidableEq, Repr

/-- The position in a table, with its entry. -/
def State.posAt (s : State) (u : Use) (table idx : Nat) : PosAns × State :=
  let a := s.readPte u table idx
  match a.1, s.ownHbm table with
  | .entry e, some base => (.pos (base + 8 * idx) e, a.2)
  | .fault k, _ => (if k = 3 then .poison else .noTable, a.2)
  | _, none => (.noTable, a.2)

/-- Walk a context's table to the leaf position of an address: level 2 for a 2 MiB page and level 3 for a 64 KiB one.
`covered` is a 64 KiB position under a valid 2 MiB leaf. -/
def State.leafPos (s : State) (u : Use) (root va : Nat) (large : Bool) : PosAns × State :=
  if root = 0 then (.noTable, s)
  else
    let a1 := s.posAt u root (vaIndex va 1)
    match a1.1 with
    | .pos _ e1 =>
      if !pteValid e1 || pteLeaf e1 || pteNodeRsv e1 then (.noTable, a1.2)
      else
        let a2 := a1.2.posAt u (pteNext e1) (vaIndex va 2)
        match a2.1 with
        | .pos _ e2 =>
          if large then a2
          else if pteValid e2 && pteLeaf e2 then (.covered, a2.2)
          else if !pteValid e2 || pteNodeRsv e2 then (.noTable, a2.2)
          else a2.2.posAt u (pteNext e2) (vaIndex va 3)
        | x => (x, a2.2)
    | x => (x, a1.2)

/-- The use of the cache by the command processor on behalf of a context (R229). -/
def State.cmdUse (s : State) (ctx : Nat) : Use := .mask (s.ctxNow ctx).2.wayMask

/-- Write a leaf: one 8 B write at its home, under slot 0. -/
def State.writePte (s : State) (u : Use) (off : Nat) (e : W64) : State :=
  s.hbmWrite off (leBytes 8 e.toNat) (s.hreq 0 (s.waysOf u off))

/-- Write the count of a frame of the board; a peer's count is written in the peer's table. -/
def State.setBoardCount (s : State) (u : Use) (ctx frame v : Nat) : State :=
  match s.ownHbm (frame * 65536) with
  | some off => s.writeCount u (frameOf off) v
  | none => s.peerRequest ctx (frame * 65536 / 2 ^ 45) 0 (s.slot 0).gen true (s.peerCountAt frame) 2 (leBytes 2 v)

/-- Lower a frame's count; a count of 0 stays (R320). -/
def State.lowerCount (s : State) (u : Use) (ctx frame : Nat) : State :=
  let c := s.boardCount u ctx frame
  if c.1 = 0 then c.2 else c.2.setBoardCount u ctx frame (c.1 - 1)

/-! ## The frame pool (R231, R245, R322) -/

/-- The offset of the pool's ring, whose address the context entry holds that the context's step read at its start (R246). -/
def State.poolBase (s : State) (ctx : Nat) : Option Nat := s.ownHbm (s.ctxNow ctx).1.poolRing.toNat

/-- An entry of the pool's ring, laid out as an entry of POOL_ADD (R322): the frame's address and its size. DESIGN CHOICE, log
entry 55. -/
def poolBytes (e : Nat × Bool) : List Byte := leBytes 6 (e.1 * 65536) ++ leBytes 2 (boolNat e.2)

/-- The entries of the pool, oldest first, as HBM holds them under slot 0. A ring that cannot be read gives none. -/
def State.readPool (s : State) (ctx : Nat) : List (Nat × Bool) × State :=
  let n := (s.ctx ctx).poolLen
  match s.poolBase ctx with
  | none => ([], s)
  | some base =>
    let a := s.hbmRead base (8 * n) (s.hreq 0 (s.waysOf (s.cmdUse ctx) base))
    match a.1 with
    | .poison => ([], a.2)
    | .data bs => ((List.range n).map (fun i => (fieldAt bs (8 * i) 6 / 65536, bitAt (fieldAt bs (8 * i + 6) 1) 0)), a.2)

/-- Write the pool's entries, oldest first. -/
def State.writePool (s : State) (ctx : Nat) (l : List (Nat × Bool)) : State :=
  let s1 := s.modCtx ctx (fun x => { x with poolLen := l.length })
  match s.poolBase ctx with
  | none => s1
  | some base => s1.hbmWrite base (l.flatMap poolBytes) (s1.hreq 0 (s1.waysOf (s1.cmdUse ctx) base))

/-- Append an entry to the pool. -/
def State.pushPool (s : State) (ctx : Nat) (e : Nat × Bool) : State :=
  let n := (s.ctx ctx).poolLen
  let s1 := s.modCtx ctx (fun x => { x with poolLen := n + 1 })
  match s.poolBase ctx with
  | none => s1
  | some base => s1.hbmWrite (base + 8 * n) (poolBytes e) (s1.hreq 0 (s1.waysOf (s1.cmdUse ctx) (base + 8 * n)))

/-! ## Copy-on-write (R245) and stream-halt notices (R317) -/

/-- A stream-halt notice of the running step of the core's panel, with the time of the halt (R317). -/
def State.haltNotice (s : State) (p : Nat) : State :=
  let c := s.core p
  match c.panel with
  | none => s
  | some k =>
    match (s.panel k).running with
    | none => s
    | some st =>
      let s1 := s.putItem st.window (.notice (.halt st.tag st.ctx c.str.haltTime c.str.fault c.logical))
      s1.modPanel k (fun pn => { pn with running := some { st with haltedForHost := true } })

/-- STREAM_HALT_RECORD: once no transaction is in flight, done descriptors complete, the oldest fault is recorded, and the halt is posted to the command
processor (R201, R317). -/
def execStreamHaltRecord (core : Nat) (s : State) : Answer :=
  if !(s.clocked core && (s.core core).str.stopping && !(s.core core).str.halted &&
      decide ((s.core core).str.inflight = 0)) then .next s
  else
    let s1 := s.strRetireAll core 16
    match (s1.core core).str.chosen with
    | none => .next (s1.modCore core (fun c => { c with str := { c.str with stopping := false, reported := [] } }))
    | some f =>
      let s2 := (s1.scrambleHalted core).modCore core (fun c => { c with str := { c.str with
        halted := true, stopping := false, handled := false, reported := [], fault := f, haltTime := s1.clk.now } })
      let s3 := (s2.count (coreReg core 0x2130) 1).event 0x0870
      .next ((if f.kind = 2 then s3 else s3.haltNotice core).trackHostHalt core)

/-- Leave a copy-on-write halt to the host, with a notice (R245, R317). -/
def State.leaveHalt (s : State) (p : Nat) : State :=
  ((s.modCore p (fun c => { c with str := { c.str with handled := true } })).haltNotice p).trackHostHalt p

/-- Take the oldest pool frame of a size; frames in use are skipped with E_CMD_POOL_FRAME_USED and leave the pool (R322). The answer
names the frame and the entries that stay. -/
def State.takeFrom (s : State) (ctx : Nat) (large : Bool) (kept pool : List (Nat × Bool)) :
    Option Nat × List (Nat × Bool) × State :=
  match pool with
  | [] => (none, kept, s)
  | (f, l) :: rest =>
    if l ≠ large then s.takeFrom ctx large (kept ++ [(f, l)]) rest
    else
      let c := s.boardCount (s.cmdUse ctx) ctx f
      if c.1 = 0 then (some f, kept ++ rest, c.2) else (c.2.event 0x6005).takeFrom ctx large kept rest

/-- Take a frame from a context's pool. -/
def State.takePool (s : State) (ctx : Nat) (large : Bool) : Option Nat × State :=
  let l := s.readPool ctx
  let t := l.2.takeFrom ctx large [] l.1
  (t.1, if t.2.1.length = l.1.length then t.2.2 else t.2.2.writePool ctx t.2.1)

/-- Copy a page under one key slot, in 64 B words. Frames of a board peer are copied by requests to it; what
they return comes from outside (log entry 11). -/
def State.copyPage (s : State) (ctx src dst slot bytes : Nat) : Bool × State :=
  let u := s.cmdUse ctx
  let rd := match s.ownHbm src with
    | some off => s.hbmRead off bytes (s.hreq slot (s.waysOf u off))
    | none =>
      let d := (s.peerRequest ctx (src / 2 ^ 45) slot (s.slot slot).gen false (src % 2 ^ 44) bytes []).drawBytes bytes
      (.data d.1, d.2)
  match rd.1 with
  | .poison => (false, rd.2)
  | .data bs =>
    match s.ownHbm dst with
    | some off => (true, rd.2.hbmWrite off bs (rd.2.hreq slot (rd.2.waysOf u off)))
    | none => (true, rd.2.peerRequest ctx (dst / 2 ^ 45) slot (rd.2.slot slot).gen true (dst % 2 ^ 44) bs.length bs)

/-- A leaf with another frame, cow at 0 and everything else as it was. -/
def leafMoved (e : W64) (f : Nat) : W64 :=
  BitVec.ofNat 64 (e.toNat - pteFrame e * 65536 - 8 * boolNat (pteCow e) + f * 65536)

/-- A write of the command processor to a board peer on behalf of a context has not gone out yet. -/
def State.peerWriteWaits (s : State) (ctx : Nat) : Bool :=
  s.lnk.backlog.any (fun m => decide (m.hdr.kind = 7) && m.hdr.peerWrite && decide (m.hdr.srcCtx.toNat = ctx))

/-- The stream unit of a core resumes once the repair is visible: while a write to a board peer waits to go out, the halt stands, and
COW_RESOLVE finds the repaired entry again (08 R221). -/
def State.repaired (s : State) (p : Nat) : State := if s.peerWriteWaits (s.core p).ctx then s else s.strRetry p

/-- Resolve a copy-on-write halt with the leaf that stands at its position. -/
def State.cowCopy (s : State) (p off : Nat) (e : W64) (large : Bool) : State :=
  let c := s.core p
  let t := s.takePool c.ctx large
  match t.1 with
  | none => (t.2.event 0x3001).leaveHalt p
  | some f =>
    let cp := t.2.copyPage c.ctx (pteFrame e * 65536) (f * 65536) (pteSlot e) (pageBytes large)
    if !cp.1 then
      let l := cp.2.readPool c.ctx
      ((l.2.writePool c.ctx ((f, large) :: l.1)).modCore p (fun c =>
        { c with str := { c.str with fault := { c.str.fault with kind := 3 } } })).leaveHalt p
    else
      let u := cp.2.cmdUse c.ctx
      let s1 := cp.2.writePte u off (leafMoved e f)
      let s2 := (s1.setBoardCount u c.ctx f 1).lowerCount u c.ctx (pteFrame e)
      let s3 := (s2.charge c.ctx 32 (pageBytes large)).charge c.ctx 40 (pageBytes large)
      let va := c.str.fault.addr
      (((s3.count (xlReg 0x110) 1).invNow 0 c.ctx (pageUnits large) (va / pageBytes large * pageUnits large))).repaired p

/-- COW_RESOLVE: the command processor resolves a copy-on-write halt without the host (R245, R304). -/
def execCowResolve (core : Nat) (s : State) : Answer :=
  let c := s.core core
  if !(s.cmdMem c.panel && decide (core < 160) && c.str.halted && decide (c.str.fault.kind = 2) && !c.str.handled) then .next s
  else
    let u := s.cmdUse c.ctx
    let a2 := s.leafPos u c.root c.str.fault.addr true
    let found : Option (Nat × W64 × Bool) × State :=
      match a2.1 with
      | .pos off e =>
        if pteValid e && pteLeaf e then (some (off, e, true), a2.2)
        else
          let a3 := a2.2.leafPos u c.root c.str.fault.addr false
          match a3.1 with
          | .pos off e => (if pteValid e && pteLeaf e then some (off, e, false) else none, a3.2)
          | _ => (none, a3.2)
      | _ => (none, a2.2)
    match found.1 with
    | none => .next (found.2.repaired core)
    | some (off, e, large) =>
      if pteFrame e ≠ c.str.fault.frame ∨ pteCow e = false then .next (found.2.repaired core)
      else
        let n := found.2.boardCount u c.ctx (pteFrame e)
        if n.1 = 1 then .next (n.2.repaired core) else .next (n.2.cowCopy core off e large)

/-! ## MAP, UNMAP, POOL_ADD (R318 to R320, R322) -/

/-- How an entry of a service command ends. -/
abbrev EntryAns := Half × State

/-- Process entries in order: the first failing one ends the command; the count is that of the completed ones. -/
def State.runEntries (s : State) (f : List Byte → State → EntryAns) (es : List (List Byte)) (done : Nat) :
    Half × Nat × State :=
  match es with
  | [] => (0, done, s)
  | e :: rest =>
    let a := f e s
    if a.1 = 0 then a.2.runEntries f rest (done + 1) else (a.1, done, a.2)

/-- The entries of a command with an 8 B head: `none` where its length or head is refused (R318). -/
def headedEntries (ps : List Byte) (size maxCount : Nat) : Option (List (List Byte)) :=
  let n := fieldAt ps 0 2
  if 0 < n ∧ n ≤ maxCount ∧ ps.length = 8 + n * size ∧ zeroAt ps 2 6 = true then
    some ((List.range n).map (fun i => slicedAt ps (8 + i * size) size))
  else none

/-- Raise a frame's count for a new mapping; a rise from 1 to 2 invalidates the frame in scope 2 (R243, R244). The first
part is the status. -/
def State.raiseCount (s : State) (ctx frame : Nat) (large : Bool) : Half × State :=
  let u := s.cmdUse ctx
  let c := s.boardCount u ctx frame
  if 65535 ≤ c.1 then (0x0700, c.2)
  else
    let s1 := c.2.setBoardCount u ctx frame (c.1 + 1)
    (0, if c.1 = 1 then s1.invNow 2 0 (pageUnits large) frame else s1)

/-- One MAP entry for a context (R319). -/
def mapEntry (ctx : Nat) (e : List Byte) (s : State) : EntryAns :=
  let f := (s.ctxNow ctx).1
  let u := s.cmdUse ctx
  let va := fieldAt e 0 6
  let fl := fieldAt e 6 1
  let large := bitAt fl 0
  let share := bitAt fl 1
  let src := fieldAt e 8 6
  if bits fl 7 5 ≠ 0 ∨ !zeroAt e 14 2 ∨ va % pageBytes large ≠ 0 ∨ src % pageBytes large ≠ 0 ∨
      (share = true ∧ fieldAt e 7 1 ≠ 0) then (0x0002, s)
  else
    let a := s.leafPos u f.root.toNat va large
    match a.1 with
    | .noTable => (0x0D03, a.2)
    | .poison => (0x0006, a.2)
    | .covered => (0x0D08, a.2)
    | .pos off old =>
      if pteValid old then (0x0D08, a.2)
      else if !share then
        if !a.2.frameOk (src / 65536) (s.ctxNow ctx).2.setMask.toNat then (0x0D09, a.2)
        else
          let c := a.2.raiseCount ctx (src / 65536) large
          if c.1 ≠ 0 then c
          else (0, c.2.writePte u off (mkLeaf (src / 65536) (fieldAt e 7 1) f.tenant.toNat (bitAt fl 3) (bitAt fl 4)
            (bitAt fl 2)))
      else
        let b := a.2.leafPos u f.root.toNat src large
        match b.1 with
        | .pos soff se =>
          if !(pteValid se && pteLeaf se) then (0x0002, b.2)
          else
            let c := b.2.raiseCount ctx (pteFrame se) large
            if c.1 ≠ 0 then c
            else
              let s1 := c.2.writePte u soff (se ||| 8)
              (0, s1.writePte u off (mkLeaf (pteFrame se) (pteSlot se) f.tenant.toNat (bitAt fl 3) (bitAt fl 4) true))
        | .poison => (0x0006, b.2)
        | _ => (0x0002, b.2)

/-- One UNMAP entry for a context (R320). -/
def unmapEntry (ctx : Nat) (e : List Byte) (s : State) : EntryAns :=
  let f := (s.ctxNow ctx).1
  let u := s.cmdUse ctx
  let va := fieldAt e 0 6
  let large := bitAt (fieldAt e 6 1) 0
  if 1 < fieldAt e 6 1 ∨ fieldAt e 7 1 ≠ 0 ∨ va % pageBytes large ≠ 0 then (0x0002, s)
  else
    let a := s.leafPos u f.root.toNat va large
    match a.1 with
    | .pos off old =>
      if !(pteValid old && pteLeaf old) then (0x0002, a.2)
      else
        let s1 := (a.2.writePte u off 0).lowerCount u ctx (pteFrame old)
        (0, s1.invNow 0 ctx (pageUnits large) (va / 65536))
    | .poison => (0x0006, a.2)
    | _ => (0x0002, a.2)

/-- One POOL_ADD entry for a context (R322). -/
def poolEntry (ctx : Nat) (e : List Byte) (s : State) : EntryAns :=
  let a := fieldAt e 0 6
  let large := bitAt (fieldAt e 6 1) 0
  if 1 < fieldAt e 6 1 ∨ fieldAt e 7 1 ≠ 0 ∨ a % pageBytes large ≠ 0 then (0x0002, s)
  else (0, s.pushPool ctx (a / 65536, large))

/-- The running service packet of a window, where it carries an opcode, with the window's context. -/
def State.svcRunning (s : State) (k op : Nat) : Option (Packet × Nat) :=
  match (s.window k).svcPkt, (s.window k).ctx with
  | some p, some c => if p.opcode = BitVec.ofNat 16 op ∧ s.cmdMem (some (s.ctx c).f.panel.toNat) = true then some (p, c) else none
  | _, _ => none

/-- Run a command of headed entries to its record (R318). -/
def State.runHeaded (s : State) (k : Nat) (p : Packet) (size maxCount : Nat) (f : List Byte → State → EntryAns) : State :=
  match headedEntries p.params size maxCount with
  | none => s.endPacket k true p 0x0002
  | some es =>
    let a := s.runEntries f es 0
    a.2.2.endPacket k true p a.1 a.2.1

/-- MAP. -/
def execMap (fn window : Nat) (s : State) : Answer :=
  let k := winKey fn window
  match s.svcRunning k 0x0110 with
  | some (p, c) => .next (s.runHeaded k p 16 255 (mapEntry c))
  | none => .next s

/-- UNMAP. -/
def execUnmap (fn window : Nat) (s : State) : Answer :=
  let k := winKey fn window
  match s.svcRunning k 0x0111 with
  | some (p, c) => .next (s.runHeaded k p 8 255 (unmapEntry c))
  | none => .next s

/-- POOL_ADD: a command that would take the pool above 4,096 frames adds none. -/
def execPoolAdd (fn window : Nat) (s : State) : Answer :=
  let k := winKey fn window
  match s.svcRunning k 0x0113 with
  | some (p, c) =>
    match headedEntries p.params 8 511 with
    | some es =>
      if 4096 < (s.ctx c).poolLen + es.length then .next (s.endPacket k true p 0x0D04)
      else .next (s.runHeaded k p 8 511 (poolEntry c))
    | none => .next (s.endPacket k true p 0x0002)
  | none => .next s

/-! ## INVALIDATE, STREAM_RESUME (R321, R323) -/

/-- The parameters of INVALIDATE, as an invalidation of a context; `none` where R321 refuses them. -/
def invParams (ps : List Byte) (k ctx : Nat) : Option Inv :=
  let scope := fieldAt ps 0 1
  let pages := fieldAt ps 2 2
  let addr := fieldAt ps 4 6
  if ps.length ≠ 16 ∨ 3 < scope ∨ fieldAt ps 1 1 ≠ 0 ∨ zeroAt ps 10 6 = false then none
  else if scope = 0 ∨ scope = 2 then
    if pages = 0 ∨ addr % 65536 ≠ 0 then none
    else some { scope := scope, ctx := ctx, pages := pages, page := addr / 65536, source := .command k }
  else if pages ≠ 0 ∨ addr ≠ 0 ∨ (scope = 3 ∧ 256 ≤ k) then none
  else some { scope := scope, ctx := ctx, pages := 0, page := 0, source := .command k }

/-- INVALIDATE: it queues with the others, and its record is written when it completes (R241, R321). -/
def execInvalidate (fn window : Nat) (s : State) : Answer :=
  let k := winKey fn window
  match s.svcRunning k 0x0112 with
  | none => .next s
  | some (p, c) =>
    if s.walker.queue.any (fun v => v.source = .command k) || s.walker.running.any (fun v => v.source = .command k) then
      .next s
    else match invParams p.params k c with
      | none => .next (s.endPacket k true p 0x0002)
      | some v => .next { s with walker := { s.walker with queue := s.walker.queue ++ [v] } }

/-- The physical cores of a context's panel that run the context. -/
def State.coresOf (s : State) (ctx : Nat) : List Nat :=
  (Tab.keys s.cores).filter (fun p => decide ((s.core p).panel = some (s.ctx ctx).f.panel.toNat) &&
    decide ((s.core p).ctx = ctx))

/-- STREAM_RESUME (R323). -/
def execStreamResume (fn window : Nat) (s : State) : Answer :=
  let k := winKey fn window
  match s.svcRunning k 0x0114 with
  | none => .next s
  | some (p, c) =>
    let core := fieldAt p.params 0 1
    let act := fieldAt p.params 1 1
    let resume (s : State) (q : Nat) : State := if act = 1 then s.strRetry q else s.strSkip q
    let halted := (s.coresOf c).filter (fun q => (s.core q).str.halted)
    if p.params.length ≠ 8 ∨ zeroAt p.params 2 6 = false ∨ (act ≠ 1 ∧ act ≠ 2) then .next (s.endPacket k true p 0x0002)
    else if core = 0xFF then
      if halted.isEmpty then .next (s.endPacket k true p 0x0D05)
      else .next ((halted.foldl resume s).endPacket k true p 0)
    else if !bitAt (s.ctxNow c).2.cores.toNat core then .next (s.endPacket k true p 0x0002)
    else match halted.find? (fun q => decide ((s.core q).logical = core)) with
      | none => .next (s.endPacket k true p 0x0D05)
      | some q => .next ((resume s q).endPacket k true p 0)

end Sys2Proof.Machine
end

