-- ==== Sys2Proof/Machine/Flags.lean ====
section
/-! DEFINITION. The sticky flags: MX_FLAGS of the matrix array (R121, R124) and VX_FLAGS of the vector engine (R146,
R153). -/

namespace Sys2Proof.Machine

/-- The bits of MX_FLAGS that a drain conversion raises: saturate 0, invalid 1, overflow 2 (R124). -/
def mxFlagsOf (f : FFlags) : BitVec 3 :=
  (if f &&& fSaturate ≠ 0 then 1 else 0) ||| (if f &&& fInvalid ≠ 0 then 2 else 0) |||
  (if f &&& fOverflow ≠ 0 then 4 else 0)

/-- Raise MX_FLAGS of core `p` for a drain conversion (R121). -/
def State.raiseMx (s : State) (p : Nat) (f : FFlags) : State :=
  s.modCore p (fun c => { c with mx := { c.mx with flags := c.mx.flags ||| mxFlagsOf f } })

/-- Raise VX_FLAGS of core `p` (R146). -/
def State.raiseVx (s : State) (p : Nat) (f : FFlags) : State :=
  s.modCore p (fun c => { c with vx := { c.vx with flags := c.vx.flags ||| f } })

end Sys2Proof.Machine
end

