-- ==== Sys2Proof/Machine/Matrix.lean ====
section
/-! DEFINITION. The matrix array (04): plane loads, row streams, drains, clears and maps, with the arithmetic of R54
to R57 and the range check of R415. Checks and captures take place when an instruction starts. An MMS admits its rows, and
an MXD reads its rows, in the issue windows that pass while it is active, and the rest when it completes; an MXL reads its image
when it completes (log entry 8). -/

namespace Sys2Proof.Machine

/-! ## Weight planes (R94, R97 to R99) -/

/-- Four times ρ, the weight slots of a cell, for a weight format code (R94). -/
def rho4 (fmt : Nat) : Nat :=
  match fmt with
  | 3 | 4 | 5 => 4
  | 6 => 8
  | 7 => 16
  | _ => 1

/-- The stored elements of a column. -/
def colElems (fmt : Nat) : Nat := 32 * rho4 fmt

/-- The dense K positions that an instruction covers. -/
def denseK (fmt : Nat) (sparse : Bool) : Nat := if sparse then 2 * colElems fmt else colElems fmt

/-- The element bytes of a column. -/
def colBytes (fmt : Nat) : Nat := colElems fmt * elemBits fmt / 8

/-- The index bytes of a column: one nibble per group of four dense positions of a 2:4 image (R98). -/
def colIdx (fmt : Nat) (sparse : Bool) : Nat := if sparse then denseK fmt sparse / 8 else 0

/-- The scale bytes of a column: one per 32 dense positions of skived weights. -/
def colScale (fmt : Nat) (sparse : Bool) : Nat := if isSkived fmt then denseK fmt sparse / 32 else 0

/-- The bytes of a tile image without its header (R97). -/
def imageSize (fmt : Nat) (sparse : Bool) : Nat := 128 * (colBytes fmt + colIdx fmt sparse + colScale fmt sparse)

/-- Where the index region starts in an image without its header. -/
def idxBase (fmt : Nat) : Nat := 128 * colBytes fmt

/-- Where the scale region starts in an image without its header. -/
def sclBase (fmt : Nat) (sparse : Bool) : Nat := 128 * (colBytes fmt + colIdx fmt sparse)

/-- The cell block (br, bc) is marked zero in a header bitmap (R99). -/
def zeroBlock (bitmap br bc : Nat) : Bool := bitAt bitmap (8 * br + bc)

/-- The ranges of an image, header not counted, that MXL reads: the elements and index bytes of every block that is
not zero, and each scale byte with a dense position in such a block (R99). -/
def imageReads (fmt : Nat) (sparse : Bool) (bitmap : Nat) : List (Nat × Nat) :=
  (List.range 128).flatMap (fun n =>
    (List.range 8).flatMap (fun br =>
      if zeroBlock bitmap br (n / 16) then []
      else
        (n * colBytes fmt + br * (colBytes fmt / 8), colBytes fmt / 8) ::
        (if sparse then [(idxBase fmt + n * colIdx fmt sparse + br * (colIdx fmt sparse / 8), colIdx fmt sparse / 8)]
         else []))
    ++ (List.range (colScale fmt sparse)).flatMap (fun j =>
      let lo := 32 * j * 8 / denseK fmt sparse
      let hi := (32 * j + 31) * 8 / denseK fmt sparse
      if (List.range (hi - lo + 1)).any (fun k => !zeroBlock bitmap (lo + k) (n / 16)) then
        [(sclBase fmt sparse + n * colScale fmt sparse + j, 1)]
      else []))

/-- The two positions of the group that index nibble g of column n gives (R98). -/
def idxNibble (fmt : Nat) (sparse : Bool) (image : List Byte) (n g : Nat) : Nat × Nat :=
  let b := fieldAt image (idxBase fmt + n * colIdx fmt sparse + g / 2) 1
  let v := if g % 2 = 0 then b % 16 else b / 16
  (v % 4, v / 4)

/-- Some index nibble of a block that is not zero has its first position not below its second (R98). -/
def badIndex (fmt : Nat) (sparse : Bool) (bitmap : Nat) (image : List Byte) : Bool :=
  sparse && (List.range 128).any (fun n => (List.range (denseK fmt sparse / 4)).any (fun g =>
    let r := idxNibble fmt sparse image n g
    !zeroBlock bitmap (2 * g * 8 / colElems fmt) (n / 16) && decide (r.2 ≤ r.1)))

/-- The stored element that stands at dense position d of column n: `none` for a 2:4 hole or a skipped block (R94,
R99). -/
def Plane.slotAt (pl : Plane) (n d : Nat) : Option Nat :=
  let fmt := pl.fmt.toNat
  let e : Option Nat :=
    if pl.sparse then
      let r := idxNibble fmt true pl.image n (d / 4)
      if r.1 = d % 4 then some (2 * (d / 4)) else if r.2 = d % 4 then some (2 * (d / 4) + 1) else none
    else some d
  match e with
  | none => none
  | some k => if zeroBlock pl.zero.toNat (k * 8 / colElems fmt) (n / 16) then none else some k

/-- The raw weight at dense position d of column n. -/
def Plane.weight (pl : Plane) (n d : Nat) : Option Nat :=
  (pl.slotAt n d).map (fun k =>
    elemAt pl.fmt.toNat (slicedAt pl.image (n * colBytes pl.fmt.toNat) (colBytes pl.fmt.toNat)) k)

/-- The scale byte of block j of column n. -/
def Plane.scale (pl : Plane) (n j : Nat) : Nat :=
  let fmt := pl.fmt.toNat
  fieldAt pl.image (sclBase fmt pl.sparse + n * colScale fmt pl.sparse + j) 1

/-! ## One row through a plane (R54, R55, R113) -/

/-- The pairs of weight and input formats that the array accepts (R54). -/
def pairOk (w x : Nat) : Bool :=
  match w with
  | 3 | 4 => x = 3 || x = 4
  | 5 => x = 5
  | 6 => x = 5 || x = 6
  | 7 => x = 5
  | 1 => x = 1
  | 2 => x = 2
  | _ => false

/-- An input row as the array reads it: its format, its elements and its scale bytes. -/
structure InRow where
  code   : Nat
  elems  : List Byte
  scales : List Byte
  deriving DecidableEq, Repr

/-- A zero result is +0. -/
def plusZero (v : FVal) : FVal :=
  match v with
  | .fin _ 0 _ => .fin false 0 0
  | v => v

/-- The exact product of an input and a weight that is not skipped: +0 where either is zero and the other finite. -/
def cellProduct (x w : FVal) : FVal := plusZero (mulV x w).1

/-- The exact sum of the products of an FP8 block, rounded once to FP32 (R55, steps 1 to 3). -/
def blockFp8 (pl : Plane) (x : InRow) (n j : Nat) : W32 :=
  let terms := (List.range 32).map (fun i =>
    match pl.weight n (32 * j + i) with
    | none => FVal.fin false 0 0
    | some w => cellProduct (decodeF (ffmtOf x.code) (elemAt x.code x.elems (32 * j + i)))
                  (decodeF (ffmtOf pl.fmt.toNat) w))
  (toFp32 (plusZero (terms.foldl (fun a t => (addV a t).1) (.fin false 0 0)))).1

/-- The exact block sum of a skived pair, scaled by 2^(s_w + s_x - 254); NaN where a slot that is not skipped meets a
NaN block (R55, R51, R113). -/
def blockSkived (pl : Plane) (x : InRow) (n j : Nat) : W32 :=
  let used := (List.range 32).filterMap (fun i => (pl.weight n (32 * j + i)).map (fun w => (i, w)))
  let sw := pl.scale n j
  let sx := fieldAt x.scales j 1
  if used.isEmpty then 0
  else if sw = 255 ∨ sx = 255 then nan32
  else
    let sum : FVal := used.foldl (fun a (iw : Nat × Nat) =>
      let xe := skElem x.code (elemAt x.code x.elems (32 * j + iw.1))
      let we := skElem pl.fmt.toNat iw.2
      (addV a (plusZero (.fin (xe.1 != we.1) (xe.2.1 * we.2.1) (xe.2.2 + we.2.2)))).1) (.fin false 0 0)
    match plusZero sum with
    | .fin ng m e => (toFp32 (.fin ng m (e + (sw : Int) + (sx : Int) - 254))).1
    | v => (toFp32 v).1

/-- A product of a bfloat16 or FP16 pair, rounded to FP32 (R55). -/
def productHalf (pl : Plane) (x : InRow) (n d : Nat) : W32 :=
  match pl.weight n d with
  | none => 0
  | some w => (toFp32 (cellProduct (decodeF (ffmtOf x.code) (elemAt x.code x.elems d))
                (decodeF (ffmtOf pl.fmt.toNat) w))).1

/-- One level of a balanced tree of FP32 additions: element 2j with element 2j + 1. -/
def treeLevel (xs : List W32) : List W32 :=
  match xs with
  | a :: b :: rest => (addF a b).1 :: treeLevel rest
  | xs => xs

/-- A balanced tree of `n` levels (R55, step 4). -/
def treeSum (n : Nat) (xs : List W32) : W32 :=
  match n with
  | 0 => xs.headD 0
  | n + 1 => treeSum n (treeLevel xs)

/-- The tree result t of column n for one input row. -/
def columnResult (pl : Plane) (x : InRow) (n : Nat) : W32 :=
  let k := denseK pl.fmt.toNat pl.sparse
  let leaves :=
    if isSkived pl.fmt.toNat then (List.range (k / 32)).map (blockSkived pl x n)
    else if rho4 pl.fmt.toNat = 1 then (List.range k).map (productHalf pl x n)
    else (List.range (k / 32)).map (blockFp8 pl x n)
  treeSum (Nat.log2 leaves.length) leaves

/-- The 128 tree results of one row. -/
def rowResults (pl : Plane) (x : InRow) : List W32 := (List.range 128).map (columnResult pl x)

/-- The decoded input at dense position d is zero. -/
def InRow.zeroAt (x : InRow) (d : Nat) : Bool :=
  if isSkived x.code then
    decide (fieldAt x.scales (d / 32) 1 ≠ 255) && decide ((skElem x.code (elemAt x.code x.elems d)).2.1 = 0)
  else match decodeF (ffmtOf x.code) (elemAt x.code x.elems d) with
    | .fin _ 0 _ => true
    | _ => false

/-- The weights of feeder group f include an infinity or a NaN (R115). -/
def Plane.groupUngated (pl : Plane) (f : Nat) : Bool :=
  let k := denseK pl.fmt.toNat pl.sparse / 8
  (List.range 128).any (fun n => (List.range k).any (fun i =>
    match pl.weight n (f * k + i) with
    | none => false
    | some w =>
      if isSkived pl.fmt.toNat then decide (pl.scale n ((f * k + i) / 32) = 255)
      else match decodeF (ffmtOf pl.fmt.toNat) w with
        | .fin _ _ _ => false
        | _ => true))

/-- The feeder groups whose cells are gated for an input row (R115). -/
def gatedGroups (pl : Plane) (x : InRow) : Nat :=
  let k := denseK pl.fmt.toNat pl.sparse / 8
  ((List.range 8).filter (fun f => (List.range k).all (fun i => x.zeroAt (f * k + i)) && !pl.groupUngated f)).length

/-! ## The accumulator buffer (R56, R105, R107, R108) -/

/-- Accumulator row r: +0 in every word where nothing is listed. -/
def Matrix.accRow (m : Matrix) (r : Nat) : List W32 := Tab.get (List.replicate 128 0) m.acc r

/-- Set accumulator row r, which is live from then on. -/
def Matrix.setAcc (m : Matrix) (r : Nat) (xs : List W32) : Matrix :=
  { m with acc := Tab.set m.acc r xs, live := if m.live.contains r then m.live else r :: m.live }

/-- Write +0 into row r and free it. -/
def Matrix.freeRow (m : Matrix) (r : Nat) : Matrix :=
  { m with acc := Tab.erase m.acc r, live := m.live.filter (fun x => decide (x ≠ r)) }

/-- The accumulator rows that an instruction of `rows` rows from `base` touches. -/
def accRows (base rows : Nat) : List Nat := (List.range (min rows 512)).map (fun i => (base + i) % 512)

/-- Add a tree result into an accumulator row, or write it (R55, step 5). -/
def accumulate (clear : Bool) (acc t : List W32) : List W32 :=
  if clear then t else List.zipWith (fun a b => (addF a b).1) acc t

/-! ## Maps and addresses (R101, R102, R103, R107) -/

/-- Map i: zero where nothing is set. -/
def Matrix.mapAt (m : Matrix) (i : BitVec 2) : MxmapOps := Tab.get {} m.maps i.toNat

/-- The first byte of row i of a tensor that starts at `addr` under a map. -/
def mapRow (mp : MxmapOps) (addr i : Nat) : Nat := addr + i * mp.rowStride.toNat * 64

/-- The bytes of `n` elements. -/
def elemsBytes (code n : Nat) : Nat := ceilDiv (n * elemBits code) 8

/-- The rows of a tensor lie in the slice, aligned, with their scale bytes, and not below elem_base for a skived
format; a drained row's stride covers its bytes (R102, R103, R107, R111). -/
def mapFits (mp : MxmapOps) (addr rows n : Nat) (drained : Bool) : Bool :=
  let code := mp.fmt.toNat
  let last := mapRow mp addr (rows - 1)
  decide (addr % 64 = 0) &&
  (!drained || decide (elemsBytes code n ≤ mp.rowStride.toNat * 64)) &&
  decide (last + elemsBytes code n ≤ sliceSize) &&
  (!isSkived code ||
    (decide (mp.elemBase.toNat ≤ addr) &&
     decide (scaleAddr code mp.elemBase.toNat mp.scaleBase.toNat last + n / 32 ≤ sliceSize)))

/-- The ranges of one row of a tensor: elements, then scale bytes. -/
def mapRanges (mp : MxmapOps) (addr i n : Nat) : List (Nat × Nat) :=
  let code := mp.fmt.toNat
  let a := mapRow mp addr i
  (a, elemsBytes code n) ::
  (if isSkived code then [(scaleAddr code mp.elemBase.toNat mp.scaleBase.toNat a, n / 32)] else [])

/-- Row i of an input tensor. -/
def mapInput (sl : Slice) (mp : MxmapOps) (addr i n : Nat) : InRow :=
  let code := mp.fmt.toNat
  let a := mapRow mp addr i
  { code := code, elems := sl.bytes a (elemsBytes code n),
    scales := if isSkived code then
      sl.bytes (scaleAddr code mp.elemBase.toNat mp.scaleBase.toNat a) (n / 32) else [] }

/-- The writes of one drained row: its converted elements and scale bytes, with the flags (R57, R107). -/
def drainRow (mp : MxmapOps) (addr i : Nat) (xs : List W32) : List (Nat × List Byte) × FFlags :=
  let code := mp.fmt.toNat
  let a := mapRow mp addr i
  let r := convertRow code mp.sat xs (fun _ => none)
  ((a, r.1) :: (if isSkived code then [(scaleAddr code mp.elemBase.toNat mp.scaleBase.toNat a, r.2.1)] else []),
   r.2.2)

/-! ## The range check (R414, R415) -/

/-- The violation of one row against a bound: kind 0 for a non-finite value, 1 for a magnitude; `none` where it holds.
A negative or NaN bound checks nothing. -/
def rangeViolation (b : W32) (xs : List W32) : Option Bool :=
  let vals := xs.map ofFp32
  let nonFinite := vals.any (fun v => match v with
    | .fin _ _ _ => false
    | _ => true)
  match ofFp32 b with
  | .fin false m e =>
    if nonFinite then some false
    else if vals.any (fun v => decide (0 < cmpV (absV v) (.fin false m e))) then some true
    else none
  | .inf false => if nonFinite then some false else none
  | _ => none

/-- A bound checks something: its sign is 0 and it is not NaN. -/
def boundActive (b : W32) : Bool :=
  match ofFp32 b with
  | .fin false _ _ => true
  | .inf false => true
  | _ => false

/-- Record a range-check violation of core p on accumulator row r (R415). -/
def State.noteRange (s : State) (p : Nat) (index : Half) (r : Nat) (kind : Bool) : State :=
  let c := s.core p
  let s1 := (s.modCore p (fun c => { c with rcViolated := true })).count (relReg 0x110) 1
  let s2 := { s1 with rel := { s1.rel with rcCore := p, rcIndex := index.toNat % 1024, rcRow := r, rcKind := kind,
                                           rcCtx := c.ctx, rcValid := true } }
  let k := c.panel.getD 16
  if s2.rel.rcRaised.contains k then s2
  else { s2.event 0x8001 with rel := { s2.rel with rcRaised := k :: s2.rel.rcRaised } }

/-- Check one drained row (R415). -/
def State.checkRow (s : State) (p : Nat) (a : MxActive) (r : Nat) (xs : List W32) : State :=
  if (s.core p).rcPolicy = 0 then s
  else match a.bound with
    | none => s.count (relReg 0x108) 1
    | some b =>
      if boundActive b then
        match rangeViolation b xs with
        | some k => (s.count (relReg 0x100) 1).noteRange p a.index r k
        | none => s.count (relReg 0x100) 1
      else s.count (relReg 0x108) 1

/-! ## Violations (R111) -/

/-- The array of core p freezes the core with a code of R111 and records the instruction. -/
def State.mxFault (s : State) (p code : Nat) (x : QEntry) : State :=
  (s.modCore p (fun c => { c with mx := { c.mx with fault := BitVec.ofNat 16 code, faultWord := x.word } })).freezeCore
    p code

/-- A port A access of the array to a tile that is not on freezes the core (R168). -/
def State.refusedA (s : State) (p : Nat) : State := (s.noteRefused p).freezeCore p 0x1001

/-- An uncorrectable read of the array freezes the core with 0x0826 (R111, R165). -/
def State.mxBad (s : State) (p w : Nat) (x : QEntry) : State := (s.noteBad p w).mxFault p 0x0826 x

/-! ## Starting (R100, R106, R109, R111) -/

/-- The active instruction is of a kind. -/
def MxActive.isMxl (a : MxActive) : Bool := match a.entry.op with
  | .mxl _ _ => true
  | _ => false
/-- The active instruction is an MMS. -/
def MxActive.isMms (a : MxActive) : Bool := match a.entry.op with
  | .mms _ _ => true
  | _ => false
/-- The active instruction is an MXD. -/
def MxActive.isMxd (a : MxActive) : Bool := match a.entry.op with
  | .mxd _ => true
  | _ => false

/-- An MMS with its rows: A.MSTREAM holds them in the count field (R122). -/
def mmsRows (h : InsnHdr) (o : MmsOps) (pva : Bool) : Nat := if pva then h.count.toNat else o.rows.toNat

/-- The accumulator rows that an active instruction touches. -/
def MxActive.rows (a : MxActive) : List Nat :=
  match a.entry.op with
  | .mms o pva => accRows o.accBase.toNat (mmsRows a.entry.hdr o pva)
  | .mxd o => accRows o.accBase.toNat o.rows.toNat
  | .mxclr o => accRows o.accBase.toNat o.rows.toNat
  | _ => []

/-- The active instruction is an MXMAP. -/
def MxActive.isMxmap (a : MxActive) : Bool := match a.entry.op with
  | .mxmap _ => true
  | _ => false

/-- The rows that an active instruction has in all: input rows of an MMS, accumulator rows of the others. -/
def MxActive.total (a : MxActive) : Nat :=
  match a.entry.op with
  | .mms o pva => mmsRows a.entry.hdr o pva
  | .mxd o => o.rows.toNat
  | .mxclr o => o.rows.toNat
  | _ => 0

/-- Rows of the instruction have not been admitted or read. -/
def MxActive.unfinished (a : MxActive) : Bool := decide (a.nextRow < a.total)

/-- Two sets of accumulator rows meet. -/
def rowsMeet (a b : List Nat) : Bool := a.any (fun r => b.contains r)

/-- A plane by its number. -/
def Matrix.plane (m : Matrix) (p : Bool) : Plane := if p then m.plane1 else m.plane0

/-- Replace a plane. -/
def Matrix.setPlane (m : Matrix) (p : Bool) (pl : Plane) : Matrix :=
  if p then { m with plane1 := pl } else { m with plane0 := pl }

/-- The zero-row flag of input row i (R105). -/
def zrowFlag (sl : Slice) (o : MmsOps) (i : Nat) : Bool :=
  o.zrow && bitAt (fieldAt (sl.bytes (o.zrowAddr.toNat * 64 + i / 8) 1) 0 1) (i % 8)

/-- The rows that an active MMS has still to admit: the rows left that are not skipped, on a loaded plane (R105, R106). -/
def Matrix.todo (m : Matrix) (sl : Slice) (a : MxActive) : Nat :=
  match a.entry.op with
  | .mms o pva =>
    if (m.plane a.plane).state = .loaded then
      ((List.range' a.nextRow (mmsRows a.entry.hdr o pva - a.nextRow)).filter (fun i => !zrowFlag sl o i)).length
    else 0
  | _ => 0

/-- A later active instruction waits for an earlier one: rows are admitted in order over all MMS (R109, R114), accesses to one
accumulator row keep program order (R56, R109), and MXD drain in order (R109). -/
def Matrix.waitsFor (m : Matrix) (sl : Slice) (a b : MxActive) : Bool :=
  (a.isMms && b.isMms && decide (0 < m.todo sl a) && decide (0 < m.todo sl b)) ||
  (b.unfinished && rowsMeet a.rows b.rows) || (a.isMxd && b.isMxd)

/-- Active instruction `i` waits for no earlier one. -/
def Matrix.goes (m : Matrix) (sl : Slice) (i : Nat) (a : MxActive) : Bool := !((m.active.take i).any (m.waitsFor sl a))

/-- Take the head of the matrix queue and make it active. -/
def State.mxStart (s : State) (p : Nat) (a : MxActive) (f : Matrix → Matrix) : State :=
  s.modCore p (fun c => { c with seq := { c.seq with qMx := c.seq.qMx.tail },
                                 mx := f { c.mx with active := c.mx.active ++ [a] } })

/-- MXL at the head of the queue (R96, R100, R109). -/
def startMxl (p : Nat) (x : QEntry) (o : MxlOps) (pva : Bool) (s : State) : State :=
  let m := (s.core p).mx
  let pl := o.plane ^^ (o.alt && m.loadToggle)
  let addr := o.wAddr.toNat + (if o.alt && m.loadToggle then x.hdr.count.toNat * 64 else 0)
  let fmt := o.wFmt.toNat
  let size := imageSize fmt o.sparse + (if o.header then 64 else 0)
  if m.active.any (fun a => a.isMxl || (a.isMms && a.plane == pl)) then s
  else if o.rsv ≠ 0 ∨ (pva = true ∧ (o.sparse = true ∨ o.alt = true ∨ o.header = true)) then s.mxFault p 0x0802 x
  else if fmt = 0 ∨ (pva = true ∧ fmt = 7) then s.mxFault p 0x0802 x
  else if addr % 64 ≠ 0 ∨ sliceSize < addr + size then s.mxFault p 0x0821 x
  else s.mxStart p { entry := x, plane := pl, addr := addr } (fun m =>
    { m.setPlane pl { state := .loading } with loadToggle := m.loadToggle ^^ o.alt })

/-- The range-check bound that a draining instruction takes at its start: the freeze code of its read, or the bound
(R415). -/
def takeBound (c : Core) : Half × PortCheck × Option W32 :=
  let index : Half := Tab.get 0 c.slice.arrival 253
  let a := c.rcTable + 4 * index.toNat
  if c.rcPolicy = 0 then (index, .ok, none)
  else if c.rcEntries ≤ index.toNat then (index, .ok, none)
  else (index, c.slice.portCheck [(a, 4)] [], some (BitVec.ofNat 32 (fieldAt (c.slice.bytes a 4) 0 4)))

/-- Go on with a start after its bound is read. -/
def State.withBound (s : State) (p : Nat) (x : QEntry) (drains : Bool)
    (go : Half → Option W32 → State → State) : State :=
  let b := takeBound (s.core p)
  if !drains then go 0 none s
  else match b.2.1 with
    | .ok => go b.1 b.2.2 s
    | .refused => s.refusedA p
    | .bad w => s.mxBad p w x

/-- Reserved fields of MMS and of A.MSTREAM (R103, R122). -/
def mmsReserved (o : MmsOps) (pva : Bool) : Bool :=
  decide (o.rsv ≠ 0) || (!o.dthru && decide (o.outMap ≠ 0)) || (!o.zrow && decide (o.zrowAddr ≠ 0)) ||
  (pva && (decide (o.inMap ≠ 0) || decide (o.rows ≠ 0) || o.alt || o.dthru || o.zrow))

/-- MMS at the head of the queue (R103 to R106, R109). R111 gives no order among its checks: of several violations the first in the
order reserved fields, row count, empty plane, format pair, addresses is recorded. DESIGN CHOICE, log entry 65. -/
def startMms (p : Nat) (x : QEntry) (o : MmsOps) (pva : Bool) (s : State) : State :=
  let c := s.core p
  let m := c.mx
  let pn := o.plane ^^ (o.alt && m.streamToggle)
  let pl := m.plane pn
  let rows := mmsRows x.hdr o pva
  let im := m.mapAt o.inMap
  let om := m.mapAt o.outMap
  let k := denseK pl.fmt.toNat pl.sparse
  let earlier := m.active.filter MxActive.isMms
  let before := if m.mmsDone then earlier else earlier.dropLast
  if 3 ≤ earlier.length ∨ pl.state = .loading ∨ before.any (fun a => decide (0 < m.todo c.slice a)) = true then s
  else if m.active.any (fun a => a.isMxd && a.unfinished && rowsMeet a.rows (accRows o.accBase.toNat rows)) then s
  else if mmsReserved o pva then s.mxFault p 0x0802 x
  else if rows = 0 ∨ (512 < rows ∧ !(o.clear && o.dthru)) then s.mxFault p 0x0820 x
  else if pl.state = .empty then s.mxFault p 0x0823 x
  else if !pairOk pl.fmt.toNat im.fmt.toNat then s.mxFault p 0x0802 x
  else if !mapFits im o.inAddr.toNat rows k false then s.mxFault p 0x0821 x
  else if o.dthru && !mapFits om om.elemBase.toNat rows 128 true then s.mxFault p 0x0821 x
  else if o.zrow && decide (sliceSize < o.zrowAddr.toNat * 64 + ceilDiv rows 8) then s.mxFault p 0x0821 x
  else s.withBound p x o.dthru (fun index bound s =>
    let s1 := if pl.state = .zero then s.count (coreReg p 0x1110) 1 else s
    s1.mxStart p { entry := x, plane := pn, inMap := im, outMap := om, index := index, bound := bound } (fun m =>
      { m with streamToggle := m.streamToggle ^^ o.alt, lastPlane := pn, mmsDone := false }))

/-- MXD at the head of the queue (R107, R109, R415). -/
def startMxd (p : Nat) (x : QEntry) (o : MxdOps) (s : State) : State :=
  let m := (s.core p).mx
  let om := m.mapAt o.outMap
  let rs := accRows o.accBase.toNat o.rows.toNat
  if m.active.any (fun a => a.isMxd && a.unfinished) then s
  else if m.active.any (fun a => !a.isMxd && rowsMeet a.rows rs) then s
  else if o.rsv ≠ 0 then s.mxFault p 0x0802 x
  else if o.rows.toNat = 0 ∨ 512 < o.rows.toNat then s.mxFault p 0x0820 x
  else if !mapFits om o.outAddr.toNat o.rows.toNat 128 true then s.mxFault p 0x0821 x
  else s.withBound p x true (fun index bound s =>
    s.mxStart p { entry := x, outMap := om, index := index, bound := bound } id)

/-- MXCLR at the head of the queue (R107, R109). -/
def startMxclr (p : Nat) (x : QEntry) (o : MxdOps) (s : State) : State :=
  let m := (s.core p).mx
  if m.active.any (fun a => (a.isMms || a.isMxd) && rowsMeet a.rows (accRows o.accBase.toNat o.rows.toNat)) then s
  else if o.rsv ≠ 0 ∨ o.outAddr ≠ 0 ∨ o.outMap ≠ 0 ∨ o.release = true then s.mxFault p 0x0802 x
  else if o.rows.toNat = 0 ∨ 512 < o.rows.toNat then s.mxFault p 0x0820 x
  else s.mxStart p { entry := x } id

/-- MXMAP at the head of the queue: its bases are aligned, and a format without a scale has no scale base (R101). The map is
set for the instructions that start after it. -/
def startMxmap (p : Nat) (x : QEntry) (o : MxmapOps) (s : State) : State :=
  if o.rsv ≠ 0 ∨ (!isSkived o.fmt.toNat ∧ o.scaleBase ≠ 0) then s.mxFault p 0x0802 x
  else if o.elemBase.toNat % 64 ≠ 0 ∨ o.scaleBase.toNat % 64 ≠ 0 then s.mxFault p 0x0821 x
  else s.mxStart p { entry := x } (fun m => { m with maps := Tab.set m.maps o.map.toNat o })

/-- The matrix engine starts the entry at the head of its queue (R75, R109). An MXMAP completes in one cycle, before the next
entry starts. -/
def startMatrix (p : Nat) (s : State) : State :=
  match (s.core p).seq.qMx with
  | [] => s
  | x :: _ =>
    if !s.waitMet p x.hdr || (s.core p).mx.active.any MxActive.isMxmap then s
    else match x.op with
      | .mxl o pva => startMxl p x o pva s
      | .mms o pva => startMms p x o pva s
      | .mxd o => startMxd p x o s
      | .mxclr o => startMxclr p x o s
      | .mxmap o => startMxmap p x o s
      | _ => s

/-! ## Completing (R100, R104 to R108, R110) -/

/-- MXL completes: the plane holds the image, or the load's fault leaves it empty (R98 to R100, R111). -/
def finishMxl (p : Nat) (a : MxActive) (o : MxlOps) (s : State) : State × Bool :=
  let sl := (s.core p).slice
  let fmt := o.wFmt.toNat
  let setPl (pl : Plane) (s : State) : State :=
    s.modCore p (fun c => { c with mx := c.mx.setPlane a.plane pl })
  let hdr := if o.header then [(a.addr, 64)] else []
  let bitmap := if o.header then fieldAt (sl.bytes a.addr 8) 0 8 else 0
  let base := a.addr + (if o.header then 64 else 0)
  match sl.portCheck hdr [] with
  | .refused => ((setPl {} s).refusedA p, false)
  | .bad w => ((setPl {} s).mxBad p w a.entry, false)
  | .ok =>
    if o.header && !zeroAt (sl.bytes a.addr 64) 8 56 then ((setPl {} s).mxFault p 0x0824 a.entry, false)
    else
      match sl.portCheck ((imageReads fmt o.sparse bitmap).map (fun r => (base + r.1, r.2))) [] with
      | .refused => ((setPl {} s).refusedA p, false)
      | .bad w => ((setPl {} s).mxBad p w a.entry, false)
      | .ok =>
        let image := if bitmap = 0xFFFFFFFFFFFFFFFF then [] else sl.bytes base (imageSize fmt o.sparse)
        if badIndex fmt o.sparse bitmap image then ((setPl {} s).mxFault p 0x0824 a.entry, false)
        else
          (setPl { state := if bitmap = 0xFFFFFFFFFFFFFFFF then .zero else .loaded, fmt := o.wFmt,
                   sparse := o.sparse, header := o.header, image := image, zero := BitVec.ofNat 64 bitmap } s, true)

/-- One input row of an MMS (R104 to R106): the accumulator, the drained row, the counts and the range check. A skipped row that
clear = 0 leaves as it is counts as written, so that it is live (R108 does not say). DESIGN CHOICE, log entry 65. -/
def mmsRow (p : Nat) (a : MxActive) (o : MmsOps) (pl : Plane) (s : State) (i : Nat) : State :=
  let c := s.core p
  let r := (o.accBase.toNat + i) % 512
  let old := c.mx.accRow r
  let zeroT : List W32 := List.replicate 128 0
  let setAcc (xs : List W32) (s : State) : State := s.modCore p (fun c => { c with mx := c.mx.setAcc r xs })
  if zrowFlag c.slice o i then (setAcc (accumulate o.clear old zeroT) s).count (coreReg p 0x1108) 1
  else
    let x := mapInput c.slice a.inMap o.inAddr.toNat i (denseK pl.fmt.toNat pl.sparse)
    let xs := accumulate o.clear old (if pl.state = .zero then zeroT else rowResults pl x)
    let s1 := setAcc xs s
    let s2 := if pl.state = .zero then s1
      else (s1.count (coreReg p 0x1100) 1).count (coreReg p 0x1118) (gatedGroups pl x)
    if o.dthru then
      let d := drainRow a.outMap a.outMap.elemBase.toNat i xs
      ((s2.modSlice p (fun sl => sl.writeAll d.1)).raiseMx p d.2).checkRow p a r xs
    else s2

/-- The ranges that row `i` of an MMS reads and writes: its zero-row flag, its elements and scales where it is admitted, and the
row it drains. -/
def mmsRanges (a : MxActive) (o : MmsOps) (pl : Plane) (sl : Slice) (i : Nat) : List (Nat × Nat) × List (Nat × Nat) :=
  ((if o.zrow then [(o.zrowAddr.toNat * 64 + i / 8, 1)] else []) ++
     (if pl.state = .zero ∨ zrowFlag sl o i = true then []
      else mapRanges a.inMap o.inAddr.toNat i (denseK pl.fmt.toNat pl.sparse)),
   if o.dthru && !zrowFlag sl o i then mapRanges a.outMap a.outMap.elemBase.toNat i 128 else [])

/-- The accumulator rows of a faulting instruction hold free values until recovery (R111). -/
def State.scrambleAcc (s : State) (p : Nat) (rs : List Nat) : State :=
  rs.foldl (fun s r =>
    let d := s.drawWords 128
    d.2.modCore p (fun c => { c with mx := c.mx.setAcc r d.1 })) s

/-- Change active instruction number `i` of core p. -/
def State.modActive (s : State) (p i : Nat) (f : MxActive → MxActive) : State :=
  s.modCore p (fun c => { c with mx := { c.mx with active := c.mx.active.modify i f } })

/-- How far a run over the rows of an active instruction has come: the rows that it may still take, whether it stopped before its
last row, and whether it met a violation. -/
structure RowRun where
  s    : State
  left : Nat
  stop : Bool := false
  bad  : Bool := false

/-- The instruction meets a violation at a row: its accumulator rows are free values and the core freezes (R111, R168). -/
def State.rowFault (s : State) (p : Nat) (a : MxActive) (rows : Nat) (accBase : Nat) (k : PortCheck) : State :=
  let s1 := s.scrambleAcc p (accRows accBase rows)
  match k with
  | .bad w => s1.mxBad p w a.entry
  | _ => s1.refusedA p

/-- One step of a run of an MMS: row `r` is admitted, or passed where it is skipped (R104 to R106, R116). -/
def mmsAdmit (p i : Nat) (a : MxActive) (o : MmsOps) (pl : Plane) (rows : Nat) (u : RowRun) (r : Nat) : RowRun :=
  let sl := (u.s.core p).slice
  let real := decide (pl.state = .loaded) && !zrowFlag sl o r
  if u.stop || (real && decide (u.left = 0)) then { u with stop := true }
  else
    let rg := mmsRanges a o pl sl r
    match sl.portCheck rg.1 rg.2 with
    | .ok =>
      let s1 := (mmsRow p a o pl u.s r).modActive p i (fun a => { a with nextRow := r + 1 })
      { u with s := if real then s1.modCore p (fun c => { c with mx := { c.mx with busy := true } }) else s1,
               left := if real then u.left - 1 else u.left }
    | k => { u with s := u.s.rowFault p a rows o.accBase.toNat k, stop := true, bad := true }

/-- Active MMS number `i` admits up to `n` rows. -/
def runMms (p i n : Nat) (a : MxActive) (o : MmsOps) (rows : Nat) (s : State) : RowRun :=
  let pl := (s.core p).mx.plane a.plane
  (List.range' a.nextRow (rows - a.nextRow)).foldl (mmsAdmit p i a o pl rows) { s := s, left := n }

/-- One step of a run of an MXD: a row is read, checked, converted, written, and freed under release (R107, R108, R415). -/
def mxdDrain (p i : Nat) (a : MxActive) (o : MxdOps) (u : RowRun) (r : Nat) : RowRun :=
  if u.stop || decide (u.left = 0) then { u with stop := true }
  else
    match (u.s.core p).slice.portCheck [] (mapRanges a.outMap o.outAddr.toNat r 128) with
    | .refused => { u with s := u.s.rowFault p a o.rows.toNat o.accBase.toNat .refused, stop := true, bad := true }
    | _ =>
      let row := (o.accBase.toNat + r) % 512
      let xs := (u.s.core p).mx.accRow row
      let d := drainRow a.outMap o.outAddr.toNat r xs
      let s1 := ((u.s.modSlice p (fun sl => sl.writeAll d.1)).raiseMx p d.2).checkRow p a row xs
      let s2 := if o.release then s1.modCore p (fun c => { c with mx := c.mx.freeRow row }) else s1
      { u with s := s2.modActive p i (fun a => { a with nextRow := r + 1 }), left := u.left - 1 }

/-- Active MXD number `i` drains up to `n` rows. -/
def runMxd (p i n : Nat) (a : MxActive) (o : MxdOps) (s : State) : RowRun :=
  (List.range' a.nextRow (o.rows.toNat - a.nextRow)).foldl (mxdDrain p i a o) { s := s, left := n }

/-- MXCLR completes: its rows hold +0 and are free (R107, R108). -/
def finishMxclr (p : Nat) (o : MxdOps) (s : State) : State × Bool :=
  (s.modCore p (fun c => { c with mx :=
    (accRows o.accBase.toNat o.rows.toNat).foldl (fun m r => m.freeRow r) c.mx }), true)

/-- An active instruction may complete: it waits for no earlier one, and the windows have admitted its rows (R110, R117, R118). -/
def Matrix.mayComplete (m : Matrix) (sl : Slice) (i : Nat) (a : MxActive) : Bool :=
  m.goes sl i a && decide (m.todo sl a = 0)

/-- Active instruction `i` is done: it leaves the list, and the MMS started last may be done with it (R109). -/
def Matrix.done (m : Matrix) (i : Nat) (a : MxActive) : Matrix :=
  { m with active := m.active.eraseIdx i, mmsDone := m.mmsDone || (a.isMms && !((m.active.drop (i + 1)).any MxActive.isMms)) }

/-- The matrix engine completes its active instruction number `i`: the rest of its effects, busy cycles, stalls, signal (R76,
R110). An MMS passes the skipped rows that are left; an MXMAP has taken effect at its start. -/
def completeMatrix (p i cycles stalls : Nat) (s : State) : State :=
  let m := (s.core p).mx
  match m.active[i]? with
  | none => s
  | some a =>
    if !m.mayComplete (s.core p).slice i a then s
    else
      let r := match a.entry.op with
        | .mxl o _ => finishMxl p a o s
        | .mms o _ => let u := runMms p i 0 a o a.total s; (u.s, !u.bad)
        | .mxd o => let u := runMxd p i (a.total + 1) a o s; (u.s, !u.bad)
        | .mxclr o => finishMxclr p o s
        | _ => (s, true)
      let s1 := r.1.modCore p (fun c => { c with mx := c.mx.done i a })
      let s2 := (s1.count (coreReg p 0x200) cycles).count (coreReg p 0x1120) stalls
      if r.2 then (s2.signal { a.entry.hdr with core := p }).progress p else s2

/-! ## The commands -/

/-- The count field is reserved but for MXL under alternation and A.MSTREAM (R95, R96, R122). -/
def mxHeaderOk (h : InsnHdr) (usesCount : Bool) : Bool := usesCount || decide (h.count = 0)

/-- MXL: queued; it loads a weight tile image into a plane. -/
def execMxl (h : InsnHdr) (o : MxlOps) (s : State) : Answer :=
  .next (engDecode .matrix h (.mxl o false) (mxHeaderOk h o.alt && decide (o.wFmt.toNat < 8)) s)
/-- MMS: queued; it streams rows through a loaded plane. -/
def execMms (h : InsnHdr) (o : MmsOps) (s : State) : Answer :=
  .next (engDecode .matrix h (.mms o false) (mxHeaderOk h false) s)
/-- MXD: queued; it drains accumulator rows with conversion. -/
def execMxd (h : InsnHdr) (o : MxdOps) (s : State) : Answer :=
  .next (engDecode .matrix h (.mxd o) (mxHeaderOk h false) s)
/-- MXMAP: queued; it sets an operand map. -/
def execMxmap (h : InsnHdr) (o : MxmapOps) (s : State) : Answer :=
  .next (engDecode .matrix h (.mxmap o) (mxHeaderOk h false && decide (o.fmt.toNat < 8)) s)
/-- MXCLR: queued; it clears and frees accumulator rows. -/
def execMxclr (h : InsnHdr) (o : MxdOps) (s : State) : Answer :=
  .next (engDecode .matrix h (.mxclr o) (mxHeaderOk h false) s)
/-- A.MLOAD: MXL with sparse, alt and header at 0. -/
def execAMload (h : InsnHdr) (o : MxlOps) (s : State) : Answer :=
  .next (engDecode .matrix h (.mxl o true) (mxHeaderOk h false && decide (o.wFmt.toNat < 8)) s)
/-- A.MSTREAM: MMS with in_map 0 and alt, dthru and zrow at 0, its rows in the count field. -/
def execAMstream (h : InsnHdr) (o : MmsOps) (s : State) : Answer :=
  .next (engDecode .matrix h (.mms o true) (mxHeaderOk h true) s)

/-- The limiter's values for a core (R23). -/
def State.limitOf (s : State) (p : Nat) : Limit := Tab.get {} s.gov.limits p

/-- What a window comes to: the real rows admitted, the cycles in which a ready row was refused, and the dead rows. -/
structure Window64 where
  real : Nat := 0
  refused : Nat := 0
  dead : Nat := 0
  deriving DecidableEq, Repr

/-- One cycle of a window: a ready row is admitted in a permitted cycle and refused in another; a permitted cycle without a ready
row takes a dead row until the admissions reach the fill (R117 to R119). A hold refuses every admission. -/
def windowCycle (l f : Nat) (held : Bool) (ready : W64) (avail : Nat) (w : Window64) (c : Nat) : Window64 :=
  if ready.getLsbD c && decide (w.real < avail) then
    if permittedCycle l c && !held then { w with real := w.real + 1 } else { w with refused := w.refused + 1 }
  else if permittedCycle l c && !held && decide (w.real + w.dead < f) then { w with dead := w.dead + 1 }
  else w

/-- A window of 64 cycles; bit c of `ready` says that a real row is ready in cycle c, and `avail` is how many the array has. -/
def windowOf (l f : Nat) (held : Bool) (ready : W64) (avail : Nat) : Window64 :=
  (List.range 64).foldl (windowCycle l f held ready avail) {}

/-- The rows that the active MMS, in order, can admit: those of the first that has any, and of the next after it. -/
def Core.rowsReady (c : Core) : Nat :=
  ((c.mx.active.zipIdx).map (fun x =>
    if x.1.isMms && !((c.mx.active.take x.2).any (fun b => decide (c.mx.todo c.slice b = 0) && c.mx.waitsFor c.slice x.1 b)) then c.mx.todo c.slice x.1
    else 0)).foldl (· + ·) 0

/-- Active MMS number `i` admits its share of `n` rows; the answer is how many are left for the next. -/
def admitFrom (p : Nat) (x : State × Nat) (i : Nat) : State × Nat :=
  let c := x.1.core p
  match c.mx.active[i]? with
  | some a =>
    match a.entry.op with
    | .mms o _ =>
      if 0 < x.2 ∧ 0 < c.mx.todo c.slice a ∧ c.mx.goes c.slice i a = true then
        let u := runMms p i x.2 a o a.total x.1
        (if u.bad then u.s.modCore p (fun c => { c with mx := { c.mx with active := c.mx.active.eraseIdx i } }) else u.s, u.left)
      else x
    | _ => x
  | none => x

/-- The MXD that reads drains 64 rows in a window, one in each cycle (R114). -/
def drainFrom (p : Nat) (s : State) (i : Nat) : State :=
  let c := s.core p
  match c.mx.active[i]? with
  | some a =>
    match a.entry.op with
    | .mxd o =>
      if a.unfinished && !((c.mx.active.take i).any (fun b => b.isMxd && b.unfinished)) then
        let u := runMxd p i 64 a o s
        if u.bad then u.s.modCore p (fun c => { c with mx := { c.mx with active := c.mx.active.eraseIdx i } }) else u.s
      else s
    | _ => s
  | none => s

/-- A window of the matrix array: it latches its limit, fill and grant hold, admits real rows and dead rows, and drains
(R23, R116 to R119). A ready row under a hold counts as refused. DEDUCED, log entry 51. The spec does not give the generator of dead
rows: a window with dead rows leaves one free word in it. DESIGN CHOICE, log entries 4 and 65. -/
def matrixWindow (p : Nat) (g : Limit) (ready : W64) (s : State) : State :=
  let c := s.core p
  let held := g.hold && (c.mx.held || !c.mx.busy)
  let w := windowOf g.l g.f held ready c.rowsReady
  let d := s.drawWords (if w.dead = 0 then 0 else 1)
  let s1 := d.2.modCore p (fun c => { c with mx :=
    { c.mx with limit := g.l, fill := g.f, hold := g.hold, held := held,
                busy := c.mx.busy || decide (0 < w.dead), deadGen := d.1.headD c.mx.deadGen } })
  let s2 := ((List.range c.mx.active.length).foldl (admitFrom p) (s1, w.real)).1
  let s3 := (List.range c.mx.active.length).foldl (drainFrom p) s2
  (s3.count (coreReg p 0x1130) w.dead).count (coreReg p 0x1128) w.refused

/-- BUSY_PERIOD_END: the busy period ends; a grant hold that is still set then applies (R116, R118). -/
def execBusyPeriodEnd (core : Nat) (s : State) : Answer :=
  if s.clocked core && (s.core core).mx.busy then
    .next (s.modCore core (fun c => { c with mx := { c.mx with busy := false, held := c.mx.hold } }))
  else .next s

/-- ACTIVITY_REPORT: an island's report replaces its previous one (R24). -/
def execActivityReport (island : Nat) (counts : List Nat) (belowNs : Nat) (s : State) : Answer :=
  if decide (island < 256) && s.pins.dieOn && !(s.clk.held.contains island) then
    let r : Activity := { counts := counts, belowNs := belowNs }
    .next { s with gov := { s.gov with activity := Tab.set s.gov.activity island r } }
  else .next s

end Sys2Proof.Machine
end

