-- ==== Sys2Proof/Machine/Special.lean ====
section
/-! DEFINITION. The special functions (R61, R62). The spec bounds their error and gives their special values. Each
is approximated here far more closely than its bound; the result is any FP32 value within the bound, chosen by the
free function Config.ulpPick (log entry 6). -/

namespace Sys2Proof.Machine

/-- Fraction bits of the fixed-point working values. -/
def workBits : Nat := 320

/-- ln 2 in units of 2^-320, rounded down. -/
def ln2Fix : Int := 0xb17217f7d1cf79abc9e3b39803f2f6af40f343267298b62d8a0d175b8baafa2be7b876206debac98

/-- C of R62: 2π rounded to the nearest multiple of 2^-128, in that unit. -/
def twoPi128 : Nat := 0x6487ed5110b4611a62633145c06e0e689

/-- ± m × 2^e in units of 2^-320, rounded toward minus infinity. -/
def toFix (neg : Bool) (m : Nat) (e : Int) : Int :=
  let t := e + (workBits : Int)
  if 0 ≤ t then signedOf neg m * 2 ^ t.toNat else signedOf neg m / 2 ^ (-t).toNat

/-- Sum of terms t(k), each made from the one before, in fixed point. -/
def seriesFix (n : Nat) (first : Int) (next : Nat → Int → Int) : Int :=
  ((List.range n).foldl (fun (a : Int × Int) k => (a.1 + a.2, next k a.2)) (0, first)).1

/-- exp of a fixed-point value x, as m × 2^e. -/
def expFix (x : Int) : Nat × Int :=
  let k := x / ln2Fix
  let r := x - k * ln2Fix
  let t := seriesFix 80 (2 ^ workBits) (fun i t => t * r / 2 ^ workBits / ((i : Int) + 1))
  (t.toNat, k - (workBits : Int))

/-- The natural logarithm of m × 2^e, m above 0, in fixed point. -/
def logFix (m : Nat) (e : Int) : Int :=
  let l := Nat.log2 m
  let y := ((m : Int) - 2 ^ l) * 2 ^ workBits / ((m : Int) + 2 ^ l)
  let y2 := y * y / 2 ^ workBits
  let s := ((List.range 110).foldl (fun (a : Int × Int) k =>
    (a.1 + a.2 / (2 * (k : Int) + 1), a.2 * y2 / 2 ^ workBits)) (0, y)).1
  (e + (l : Int)) * ln2Fix + 2 * s

/-- The integer square root of n, from the digit of weight 2^k down. -/
def isqrt (n : Nat) : Nat → Nat → Nat
  | 0, r => if (r + 1) * (r + 1) ≤ n then r + 1 else r
  | k + 1, r => isqrt n k (if (r + 2 ^ (k + 1)) * (r + 2 ^ (k + 1)) ≤ n then r + 2 ^ (k + 1) else r)

/-- The sine of a fixed-point angle in [0, 2π). -/
def sinFix (x : Int) : Int :=
  let x2 := x * x / 2 ^ workBits
  seriesFix 60 x (fun i t => -(t * x2 / 2 ^ workBits / ((2 * (i : Int) + 2) * (2 * (i : Int) + 3))))

/-- The cosine of a fixed-point angle in [0, 2π). -/
def cosFix (x : Int) : Int :=
  let x2 := x * x / 2 ^ workBits
  seriesFix 60 (2 ^ workBits) (fun i t => -(t * x2 / 2 ^ workBits / ((2 * (i : Int) + 1) * (2 * (i : Int) + 2))))

/-- The magnitude bits `k` ulps away from `b`, kept among the finite values. -/
def shiftUlp (b : Nat) (k : Int) : Nat := min fp32.maxb ((b : Int) + k).toNat

/-- The distance of the magnitude bits c from m × 2^e is at most n ulps, an ulp being the last place of the correctly
rounded result. -/
def withinUlp (n m : Nat) (e : Int) (c : Nat) : Bool :=
  match decodeF fp32 c with
  | .fin _ cm ce =>
    let q := if m = 0 then fp32.qmin else quantumOf fp32 m e
    let lo := min (min e ce) q
    let a : Int := (m : Int) * 2 ^ (e - lo).toNat - (cm : Int) * 2 ^ (ce - lo).toNat
    decide (a.natAbs ≤ n * 2 ^ (q - lo).toNat)
  | _ => false

/-- The FP32 result of a special function whose exact value is near ± m × 2^e: the correctly rounded one, or the one
that the free function picks within the bound (R61). -/
def specialRound (fn key bound : Nat) (neg : Bool) (m : Nat) (e : Int) : W32 × FFlags :=
  let r := roundMag fp32 m e
  let c := shiftUlp r.1 (Config.ulpPick fn key)
  let b := if withinUlp bound m e c then c else r.1
  if fp32.maxb < r.1 then (BitVec.ofNat 32 (withSign fp32 neg 0x7F800000), fOverflow)
  else (BitVec.ofNat 32 (withSign fp32 neg b), if r.2 && decide (b < 2 ^ 23) then fUnderflow else 0)

/-- exp (R61): +0 at -infinity, +infinity at +infinity and on overflow. -/
def expF (x : W32) : W32 × FFlags :=
  match ofFp32 x with
  | .nan => (nan32, 0)
  | .inf true => (0, 0)
  | .inf false => (0x7F800000, 0)
  | .fin n m e =>
    if m = 0 then (0x3F800000, 0)
    else
      let v := toFix n m (min e 40)
      let lim : Int := 2 ^ (workBits + 8)
      let r := expFix (max (-lim) (min lim v))
      specialRound 0 x.toNat 2 false r.1 r.2

/-- The natural logarithm (R61). -/
def logF (x : W32) : W32 × FFlags :=
  match ofFp32 x with
  | .nan => (nan32, 0)
  | .inf true => (nan32, fInvalid)
  | .inf false => (0x7F800000, 0)
  | .fin n m e =>
    if m = 0 then (0xFF800000, fDivZero)
    else if n then (nan32, fInvalid)
    else
      let t := logFix m e
      if x = 0x3F800000 then (0, 0)
      else specialRound 1 x.toNat 2 (decide (t < 0)) t.natAbs (-(workBits : Int))

/-- The reciprocal (R61). -/
def rcpF (x : W32) : W32 × FFlags :=
  match ofFp32 x with
  | .nan => (nan32, 0)
  | .inf n => (if n then 0x80000000 else 0, 0)
  | .fin n m e =>
    if m = 0 then (if n then 0xFF800000 else 0x7F800000, fDivZero)
    else specialRound 2 x.toNat 1 n (2 ^ 160 / m) (-e - 160)

/-- The reciprocal square root (R61). -/
def rsqrtF (x : W32) : W32 × FFlags :=
  match ofFp32 x with
  | .nan => (nan32, 0)
  | .inf n => if n then (nan32, fInvalid) else (0, 0)
  | .fin n m e =>
    if m = 0 then (if n then 0xFF800000 else 0x7F800000, fDivZero)
    else if n then (nan32, fInvalid)
    else
      let m2 := if e % 2 = 0 then m else 2 * m
      let e2 := if e % 2 = 0 then e else e - 1
      specialRound 3 x.toNat 2 false (isqrt (2 ^ 240 / m2) 120 0) (-(e2 / 2) - 120)

/-- The hyperbolic tangent (R61). Below 2^-39 it lies between x - 2^-64 ulp and x, and is not exact. -/
def tanhF (x : W32) : W32 × FFlags :=
  match ofFp32 x with
  | .nan => (nan32, 0)
  | .inf n => (if n then 0xBF800000 else 0x3F800000, 0)
  | .fin n m e =>
    if m = 0 then (x, 0)
    else if e + (Nat.log2 m : Int) < -40 then specialRound 4 x.toNat 3 n (m * 2 ^ 64 - 1) (e - 64)
    else
      let v := min (toFix false m (min e 40 + 1)) (2 ^ (workBits + 7))
      let t := expFix (-v)
      let tf := toFix false t.1 t.2
      specialRound 4 x.toNat 3 n (((2 ^ workBits - tf) * 2 ^ workBits / (2 ^ workBits + tf)).toNat)
        (-(workBits : Int))

/-- The sigmoid (R61). -/
def sigmoidF (x : W32) : W32 × FFlags :=
  match ofFp32 x with
  | .nan => (nan32, 0)
  | .inf n => (if n then 0 else 0x3F800000, 0)
  | .fin n m e =>
    let v := min (toFix false m (min e 40)) (2 ^ (workBits + 8))
    let t := expFix (-v)
    let j := (-t.2).toNat
    let num := if n then t.1 else 2 ^ j
    specialRound 5 x.toNat 3 false (num * 2 ^ (workBits + j) / (2 ^ j + t.1)) (-((workBits + j : Nat) : Int))

/-- The reduced angle of R62 for p × f, f finite, in units of 2^-149: exact, in [0, C). -/
def ropeAngle (p : Nat) (neg : Bool) (m : Nat) (e : Int) : Nat :=
  let x : Int := signedOf neg (p * m) * 2 ^ (e + 149).toNat
  (x % ((twoPi128 * 2 ^ 21 : Nat) : Int)).toNat

/-- Sine and cosine of p × f (R62), within 2 ulp. Whether their own rounding raises a flag is not said: it raises none, and the
rounded multiply and the fused multiply-add of the rotation raise theirs. DESIGN CHOICE, log entry 65. -/
def sinCosF (p : Nat) (neg : Bool) (m : Nat) (e : Int) : W32 × W32 :=
  let th := ropeAngle p neg m e
  let x : Int := (th : Int) * 2 ^ (workBits - 149)
  let s := sinFix x
  let c := cosFix x
  if th = 0 then (0, 0x3F800000)
  else
    ((specialRound 6 th 2 (decide (s < 0)) s.natAbs (-(workBits : Int))).1,
     (specialRound 7 th 2 (decide (c < 0)) c.natAbs (-(workBits : Int))).1)

/-- Rotate a pair (a, b) at position p with frequency f (R62). -/
def ropePair (p : Nat) (f a b : W32) : W32 × W32 × FFlags :=
  match ofFp32 f with
  | .nan => (nan32, nan32, 0)
  | .inf _ => (nan32, nan32, fInvalid)
  | .fin n m e =>
    let sc := sinCosF p n m e
    let ac := mulF a sc.2
    let as' := mulF a sc.1
    let o1 := fmaF (b ^^^ 0x80000000) sc.1 ac.1
    let o2 := fmaF b sc.2 as'.1
    (o1.1, o2.1, ac.2 ||| as'.2 ||| o1.2 ||| o2.2)

end Sys2Proof.Machine
end

