-- ==== Sys2Proof/Machine/Kvs.lean ====
section
/-! DEFINITION. The KV page selectors (10): triggers, capture, the choice of pages, the seal of a page, and the delivery
of results. A request is worked out when it is captured and shown when it is delivered. -/

namespace Sys2Proof.Machine

/-! ## Geometry (R248 to R251) -/

/-- Head dimension d. -/
def kvDim (f : CtxFields) : Nat := 32 * 2 ^ f.kvD.toNat
/-- Positions per page P. -/
def kvP (f : CtxFields) : Nat := 2 ^ f.kvLogP.toNat
/-- Value tile length. -/
def kvTile (f : CtxFields) : Nat := if f.kvFmt = 6 then 256 else 128
/-- Elements of a page: keys and values. -/
def kvElems (f : CtxFields) : Nat := (kvP f) * (kvDim f) + max (kvP f) (kvTile f) * (kvDim f)
/-- Bytes of a page record (R251). -/
def recordBytes (f : CtxFields) : Nat := 256 + 64 * ceilDiv (kvElems f) 2048
/-- Bytes of n elements of the KV format. -/
def kvBytes (f : CtxFields) (n : Nat) : Nat := if f.kvFmt = 6 then (n + 1) / 2 else n
/-- A context's KV geometry meets the limits of R248. -/
def kvOk (f : CtxFields) : Bool :=
  decide (f.kvFmt = 5 ∨ f.kvFmt = 6) && decide (f.kvD.toNat ≤ 2) && decide (4 ≤ f.kvLogP.toNat ∧ f.kvLogP.toNat ≤ 10) &&
  decide ((kvElems f) ≤ if f.kvFmt = 6 then 131072 else 65536)

/-! ## Arithmetic (R253, R259) -/

/-- A value divided by a positive count, exact up to a sticky bit. -/
def divV (v : FVal) (c : Nat) : FVal :=
  match v with
  | .fin neg m e => .fin neg (2 * (m * 2 ^ 64 / c) + (if m * 2 ^ 64 % c = 0 then 0 else 1)) (e - 65)
  | x => x

/-- The correctly rounded square root of a value that is not negative. -/
def sqrtF (x : W32) : W32 :=
  match ofFp32 x with
  | .nan => nan32
  | .inf false => 0x7F800000
  | .inf true => nan32
  | .fin _ m e =>
    let odd := e % 2 ≠ 0
    let m1 := (if odd then 2 * m else m) * 2 ^ 64
    let e1 := (if odd then e - 1 else e) - 64
    let r := isqrt m1 64 0
    (toFp32 (.fin false (2 * r + (if r * r = m1 then 0 else 1)) (e1 / 2 - 1))).1

/-- The first level of a tree over exact values: pairs are added and rounded once. -/
def exactLevel (xs : List FVal) : List W32 :=
  match xs with
  | a :: b :: rest => (roundRes (addV a b)).1 :: exactLevel rest
  | [a] => [(toFp32 a).1]
  | [] => []

/-- A balanced pairwise tree over a power of two of exact values (R55 step 4). -/
def exactTree (xs : List FVal) : W32 :=
  let l := exactLevel xs
  treeSum (Nat.log2 l.length) l

/-- Element e of a skived vector: element bytes and one scale byte for each 32 elements. -/
def skAt (code : Nat) (elems scales : List Byte) (e : Nat) : FVal :=
  skValue code (elemAt code elems e) (fieldAt scales (e / 32) 1)

/-- Element e of a bfloat16 vector. -/
def bfAt (q : List Byte) (e : Nat) : FVal := decodeF bf16 (elemAt 1 q e)

/-- The score of a query vector against a summary block (R259). -/
def kvScore (d : Nat) (q summary : List Byte) (beta : Nat) : W32 :=
  let mu := summary.take 128
  let sc := slicedAt summary 128 4
  let dot := exactTree ((List.range d).map (fun e => (mulV (bfAt q e) (ofFp32 (toFp32 (skAt 5 mu sc e)).1)).1))
  let nrm := sqrtF (exactTree ((List.range d).map (fun e => (mulV (bfAt q e) (bfAt q e)).1)))
  let b := (toFp32 (decodeF fp16 beta)).1
  (fmaF (mulF b nrm).1 (BitVec.ofNat 32 (fieldAt summary 132 4)) dot).1

/-- The best score of the request's vectors (R258). -/
def bestScore (d v : Nat) (query summary : List Byte) (beta : Nat) : W32 :=
  (List.range v).foldl (fun s i =>
    let x := kvScore d (slicedAt query (2 * d * i) (2 * d)) summary beta
    if topLt s x then x else s) 0xFF800000

/-- Take the k best candidates, a higher score first and the lower index among equals; the list is in ascending index. -/
def takeBest (k : Nat) (cands : List (W32 × Nat)) : List Nat :=
  match k with
  | 0 => []
  | k + 1 =>
    match cands with
    | [] => []
    | c :: rest =>
      let b := rest.foldl (fun a x => if topLt a.1 x.1 then x else a) c
      b.2 :: takeBest k (cands.filter (fun x => decide (x.2 ≠ b.2)))

/-! ## Requests (R255, R256) -/

/-- A field of a request's header. -/
def KvsReq.fld (r : KvsReq) (off len : Nat) : Nat := fieldAt r.header off len
/-- The operation: 1 select, 2 seal. -/
def KvsReq.op (r : KvsReq) : Nat := r.fld 0 1 % 4
/-- Entries of a select's result. -/
def KvsReq.nSel (r : KvsReq) : Nat := r.fld 4 2
/-- Slice offset of the result. -/
def KvsReq.res (r : KvsReq) : Nat := bits (r.fld 24 4) 20 0
/-- Logical core of the result. -/
def KvsReq.core (r : KvsReq) : Nat := bits (r.fld 24 4) 28 21

/-- Round up to 64. -/
def up64 (n : Nat) : Nat := 64 * ceilDiv n 64

/-- Bytes of a result (R261). -/
def KvsReq.resultBytes (r : KvsReq) (f : CtxFields) : Nat :=
  if r.op = 1 then 64 + up64 (8 * r.nSel) + 2 * up64 (4 * r.nSel) + r.nSel * (kvP f) / 8 else 64

/-- The core is one of the context's panel, as the step read it (R246). -/
def State.coreInPanel (s : State) (ctx core : Nat) : Bool := bitAt (s.ctxNow ctx).2.cores.toNat core

/-- The header meets R256. -/
def KvsReq.headerOk (r : KvsReq) (f : CtxFields) (inPanel : Bool) : Bool :=
  decide (bits (r.fld 0 1) 7 2 = 0) && zeroAt r.header 14 2 && decide (r.fld 23 1 = 0) &&
  decide (bits (r.fld 24 4) 31 29 = 0) && decide (r.fld 29 1 = 0) && zeroAt r.header 36 28 && inPanel &&
  decide (r.fld 8 6 % 64 = 0) && decide (r.res % 64 = 0) && decide (r.res + r.resultBytes f ≤ 0x200000) &&
  match r.op with
  | 1 => decide (1 ≤ r.fld 1 1 ∧ r.fld 1 1 ≤ 16) && decide (r.fld 2 1 ≤ 16) && decide (1 ≤ r.fld 3 1 ∧ r.fld 3 1 ≤ 64) &&
      decide (1 ≤ r.nSel ∧ r.nSel ≤ 2048) && decide (1 ≤ r.fld 16 4 ∧ r.fld 16 4 ≤ 65536) &&
      decide (r.fld 16 4 * (kvP f) ≤ 2 ^ 24) && decide (bits (r.fld 30 2) 14 10 ≠ 31)
  | 2 => zeroAt r.header 1 5 && decide (r.fld 30 2 = 0) && decide (1 ≤ r.fld 16 4 ∧ r.fld 16 4 ≤ (kvP f))
  | _ => false

/-! ## Select (R258 to R261) -/

/-- What reading one summary block gives, with the selector of the stack that homes it. -/
structure KvsRecord where
  index : Nat
  stack : Nat
  block : List Byte
  deriving DecidableEq, Repr

/-- Read the summary blocks of the listed records, without allocating (R229, R260); a status on the first failure. -/
def State.readRecords (s : State) (ctx dir size : Nat) (is : List Nat) : Half × List KvsRecord × State :=
  match is with
  | [] => (0, [], s)
  | i :: rest =>
    let w := s.walkBy .bare ctx (dir + i * size) false
    match w.1 with
    | .fault k => (if k = 3 then 0x0006 else 0x0802, [], w.2)
    | .peer _ _ => (0x0802, [], w.2)
    | .ok off _ =>
      let a := w.2.readBy .bare ctx (dir + i * size) 256
      match a.1 with
      | .fault => (0x0802, [], a.2)
      | .poison => (0x0006, [], a.2)
      | .data bs =>
        let b := a.2.readRecords ctx dir size rest
        (b.1, { index := i, stack := stackOf off, block := bs } :: b.2.1, b.2.2)

/-- A record is mandatory: among the sinks or the recent ones, pinned, or not sealed (R258). -/
def KvsRecord.mandatory (k : KvsRecord) (n sinks recent : Nat) : Bool :=
  decide (k.index < min sinks n) || decide (n - recent ≤ k.index) || bitAt (fieldAt k.block 144 1) 0 ||
  decide (fieldAt k.block 145 1 ≠ 1)

/-- The row flags of an entry: slots above q_max, all of a padding entry (R261). -/
def rowFlags (p : Nat) (page : Option Nat) (qMax : Nat) : List Byte :=
  (List.range (p / 8)).map (fun b => BitVec.ofNat 8 (maskOf ((List.range 8).filter (fun j =>
    match page with
    | none => true
    | some i => decide (qMax < i * p + 8 * b + j)))))

/-- The result of a select: the chosen records in ascending order, padded to N entries (R261). `pad` is the index that
padding carries. -/
def selectResult (r : KvsReq) (f : CtxFields) (status : Half) (mand : Nat) (out : List KvsRecord) (pad : List Byte) :
    List Byte :=
  let n := r.nSel
  let host := (out.filter (fun k => bitAt (fieldAt k.block 144 1) 1)).length
  let fill := n - out.length
  let word := leBytes 2 status.toNat ++ leBytes 2 out.length ++ leBytes 2 mand ++ leBytes 2 host ++
    slicedAt r.header 32 4 ++ zeros 52
  let entries := out.flatMap (fun k => slicedAt k.block 136 8) ++ (List.replicate fill (leBytes 8 1)).flatten
  let bases := out.flatMap (fun k => leBytes 4 (toFp32 (.fin false (k.index * (kvP f)) 0)).1.toNat) ++
    (List.replicate fill (leBytes 4 0x7F800000)).flatten
  let index := out.flatMap (fun k => leBytes 4 k.index) ++ (List.replicate fill pad).flatten
  let flags := out.flatMap (fun k => rowFlags (kvP f) (some k.index) (r.fld 20 3)) ++
    (List.replicate fill (rowFlags (kvP f) none 0)).flatten
  word ++ padTo (up64 (8 * n)) entries ++ padTo (up64 (4 * n)) bases ++ padTo (up64 (4 * n)) index ++ flags

/-- A request that fails delivers its full result with K = 0. The index of its padding names no returned page: a free
value. Log entry 4. -/
def State.failedReq (s : State) (r : KvsReq) (f : CtxFields) (status : Half) : KvsReq × State :=
  let d := s.drawBytes 4
  ({ r with status := status,
            result := if r.op = 1 then selectResult r f status 0 [] d.1
                      else leBytes 2 status.toNat ++ zeros 6 ++ slicedAt r.header 32 4 ++ zeros 52 }, d.2)

/-- Count the records that each selector scored. -/
def State.countScored (s : State) (ks : List KvsRecord) : State :=
  ks.foldl (fun s k => s.count (kvsReg k.stack 0x110) 1) s

/-- Work a select out (R258). -/
def State.kvSelect (s : State) (h : Nat) (r : KvsReq) (f : CtxFields) : KvsReq × State :=
  let n := r.fld 16 4
  let rd := s.readRecords r.reg.ctx (r.fld 8 6) (recordBytes f) (List.range n)
  let s1 := rd.2.2.charge r.reg.ctx 32 (256 * rd.2.1.length)
  if rd.1 ≠ 0 then s1.failedReq r f rd.1
  else
    let mand := rd.2.1.filter (fun k => k.mandatory n (r.fld 2 1) (r.fld 3 1))
    if r.nSel < mand.length then s1.failedReq r f 0x0801
    else
      let cand := rd.2.1.filter (fun k => !k.mandatory n (r.fld 2 1) (r.fld 3 1) && decide (k.index * (kvP f) ≤ r.fld 20 3))
      let best := takeBest (r.nSel - mand.length)
        (cand.map (fun k => (bestScore (kvDim f) (r.fld 1 1) r.query k.block (r.fld 30 2), k.index)))
      let out := rd.2.1.filter (fun k => mand.any (fun m => m.index = k.index) || best.contains k.index)
      let pad := match out.getLast? with
        | some k => leBytes 4 k.index
        | none => zeros 4
      let host := out.filter (fun k => bitAt (fieldAt k.block 144 1) 1)
      ({ r with result := selectResult r f 0 mand.length out pad,
                hostPages := host.map (fun k => slicedAt k.block 136 8) },
        (s1.countScored cand).count (kvsReg h 0x118) out.length)

/-! ## Seal (R253) -/

/-- The summary of slots 0 to c - 1: the mean key, its scales and the largest key norm (R253). -/
def sealSummary (f : CtxFields) (keys scales : List Byte) (c : Nat) : List Byte :=
  let d := (kvDim f)
  let code := f.kvFmt.toNat
  let row (j : Nat) : List Byte := slicedAt keys (kvBytes f (j * d)) (kvBytes f d)
  let at' (j e : Nat) : FVal := skAt code (row j) (slicedAt scales (j * (d / 32)) (d / 32)) e
  let mean := (List.range d).map (fun e =>
    (toFp32 (divV (ofFp32 ((List.range c).foldl (fun a j => (addF a (toFp32 (at' j e)).1).1) 0)) c)).1)
  let norms := (List.range c).map (fun j => sqrtF (exactTree ((List.range d).map (fun e => (mulV (at' j e) (at' j e)).1))))
  let q := convertRow 5 false mean (fun _ => none)
  padTo 128 q.1 ++ padTo 4 q.2.1 ++ leBytes 4 (norms.foldl maxF (norms.headD 0)).toNat

/-- Work a seal out; a failure leaves the record unchanged. -/
def State.kvSeal (s : State) (h : Nat) (r : KvsReq) (f : CtxFields) : KvsReq × State :=
  let rec' := r.fld 8 6
  let c := r.fld 16 4
  let scaleN := c * ((kvDim f) / 32)
  let own := s.rangeKind .own r.reg.ctx rec' (recordBytes f) true
  if own.1 ≠ 0 then own.2.failedReq r f (if own.1 = 3 then 0x0006 else 0x0802)
  else
    let sc := own.2.readBy .other r.reg.ctx (rec' + 256) scaleN
    let en := sc.2.readBy .other r.reg.ctx (rec' + 136) 8
    let va := bits (leNat en.1.bytes) 47 16 * 65536
    let ks := en.2.readBy .dma r.reg.ctx va (kvBytes f (c * (kvDim f)))
    if sc.1 = .poison ∨ en.1 = .poison ∨ ks.1 = .poison then ks.2.failedReq r f 0x0006
    else if sc.1 = .fault ∨ en.1 = .fault ∨ ks.1 = .fault then ks.2.failedReq r f 0x0802
    else
      let sum := sealSummary f ks.1.bytes sc.1.bytes c
      let w1 := ks.2.writeBy .other r.reg.ctx rec' sum
      let w2 := w1.2.writeBy .other r.reg.ctx (rec' + 148) (leBytes 4 c)
      let w3 := w2.2.writeBy .other r.reg.ctx (rec' + 145) [1]
      ({ r with result := leBytes 2 0 ++ zeros 6 ++ slicedAt r.header 32 4 ++ zeros 52 },
        w3.2.count (kvsReg h 0x108) 1)

/-! ## Triggers and capture (R255, R257) -/

/-- The slot of a registration is busy. -/
def Selector.busy (l : Selector) (g : KvsReg) (slot : Nat) : Bool :=
  l.pending.any (fun x => decide (x.1.frame = g.frame) && decide (x.2 = slot)) ||
  l.flight.any (fun r => decide (r.reg.frame = g.frame) && decide (r.slot = slot))

/-- Capture a trigger: read the header and the query vectors, and work the request out. -/
def State.kvCapture (s : State) (h : Nat) (g : KvsReg) (slot : Nat) : State :=
  let off := g.frame * 2097152 + slot * 8192
  let f := (s.ctxNow g.ctx).1
  let hd := s.hbmRead off 64 (s.hreq g.keySlot 0)
  let header := hd.1.bytesOr 64
  let qn := if fieldAt header 0 1 % 4 = 1 then min 4096 (fieldAt header 1 1 * 2 * (kvDim f)) else 0
  let qs := hd.2.hbmRead (off + 64) qn (s.hreq g.keySlot 0)
  let r : KvsReq := { reg := g, slot := slot, header := header, query := qs.1.bytesOr qn }
  let s1 := if r.op = 1 then (qs.2.count (kvsReg h 0x100) 1).modPanel g.panel (fun pn => { pn with
      running := pn.running.map (fun st => { st with dirs := (r.fld 6 2, r.fld 8 6) :: st.dirs }) }) else qs.2
  let done :=
    if hd.1 = .poison ∨ qs.1 = .poison then s1.failedReq r f 0x0006
    else if !r.headerOk f (s.coreInPanel g.ctx r.core) then s1.failedReq r f 0x0800
    else if r.op = 1 then s1.kvSelect h r f
    else s1.kvSeal h r f
  done.2.modSelector h (fun l => { l with flight := l.flight ++ [done.1] })

/-- KVS_TRIGGER: a write of byte 0 of a slot of a registered page, serialised at its home, with op not 0. A busy slot
ignores it; a free one is captured, or waits while 32 requests are in flight. -/
def execKvsTrigger (offset : Nat) (s : State) : Answer :=
  let h := stackOf offset
  let l := s.selector h
  match l.regs.find? (fun g => decide (g.frame = offset / 2097152)) with
  | none => .next s
  | some g =>
    let slot := offset % 2097152 / 8192
    if !(s.islandOn (224 + h) && decide (offset < hbmSize) && decide (offset % 8192 = 0) &&
        decide ((Mem.read s.hbm.mem offset).toNat % 4 ≠ 0)) then .next s
    else if l.busy g slot then .next ((s.count (kvsReg h 0x128) 1).event 0x3802)
    else if l.flight.length < 32 ∧ l.pending.isEmpty = true then .next (s.kvCapture h g slot)
    else .next (s.modSelector h (fun l => { l with pending := l.pending ++ [(g, slot)] }))

/-- The next waiting trigger: the oldest of class 0, else the oldest (R257). -/
def Selector.nextPending (l : Selector) (class0 : KvsReg → Bool) : Option (KvsReg × Nat) :=
  match l.pending.find? (fun x => class0 x.1) with
  | some x => some x
  | none => l.pending.head?

/-- KVS_CAPTURE: a waiting trigger is captured once a request has left flight. -/
def execKvsCapture (sel : Nat) (s : State) : Answer :=
  let l := s.selector sel
  match l.nextPending (fun g => decide (g.cls = 0)) with
  | none => .next s
  | some x =>
    if s.islandOn (224 + sel) && decide (sel < 8) && decide (l.flight.length < 32) then
      .next ((s.modSelector sel (fun l => { l with pending := l.pending.erase x })).kvCapture sel x.1 x.2)
    else .next s

/-! ## Delivery (R261, R262, R274) -/

/-- Cut bytes into packets of at most 4 words. -/
def resultCuts (fuel : Nat) (addr : Nat) (bs : List Byte) : List (Nat × List Byte) :=
  match fuel with
  | 0 => []
  | fuel + 1 => if bs.isEmpty then [] else (addr, bs.take 256) :: resultCuts fuel (addr + 256) (bs.drop 256)

/-- The traffic class of a registration's packets: the class-0 requests for one that was class 0 when it was made (R33, R262). -/
def KvsReg.netCls (g : KvsReg) : Nat := if g.cls = 0 then 2 else 0

/-- Where a registration's selector meets the network: at the edge router of the channel that holds the request page's first
byte. The spec gives a selector no router of its own. Log entry 2. -/
def KvsReg.port (g : KvsReg) : NetPort := hbmPort (g.frame * 2097152)

/-- A packet of a request's result (R262). -/
def KvsReq.packet (r : KvsReq) (p : Nat × List Byte) (last : Bool) : WritePkt :=
  { addr := p.1, data := p.2, ctx := BitVec.ofNat 10 r.reg.ctx, gen := r.reg.gen, cls := r.reg.netCls,
    ctr := BitVec.ofNat 8 (r.fld 28 1), raise := last, src := r.reg.port }

/-- Send bytes to a slice as write packets of a request; only the last carries the raise (R262). -/
def State.deliverAll (s : State) (slice : Nat) (r : KvsReq) (ps : List (Nat × List Byte)) : State :=
  match ps with
  | [] => s
  | p :: rest => (s.netSend slice (r.packet p rest.isEmpty)).deliverAll slice r rest

/-- The physical core that holds a logical id in a panel. -/
def State.physIn (s : State) (panel logical : Nat) : Option Nat :=
  (Tab.keys s.cores).find? (fun p => decide ((s.core p).panel = some panel) && decide ((s.core p).logical = logical))

/-- Give a failure status to the sequences of the running step that a test names: the numerically lowest stands
(R315). -/
def State.failSeqs (s : State) (panel : Nat) (status : Half) (p : SeqEntry → Bool) : State :=
  s.modPanel panel (fun pn => { pn with running := pn.running.map (fun st => { st with seqs := st.seqs.map (fun q =>
    if p q then { q with status := if q.status = 0 ∨ status.toNat < q.status.toNat then status else q.status } else q) }) })

/-- A selection of a slot returned pages with flags.host = 1: its sequences say so, and so does the step where a notice of it was written
(R315). -/
def State.noteHostPages (s : State) (panel slot : Nat) (noticed : Bool) : State :=
  s.modPanel panel (fun pn => { pn with running := pn.running.map (fun st => { st with
    pageIn := st.pageIn || noticed,
    seqs := st.seqs.map (fun q => if q.slot = slot then { q with hostPages := true } else q) }) })

/-- A KV page-in notice, dropped while the queue is full or the function is in D3hot (R298, R316; 19 R506). -/
def State.pageInNotice (s : State) (r : KvsReq) : State :=
  match (s.panel r.reg.panel).running with
  | none => s
  | some st =>
    let w := s.window st.window
    if !w.canStart || s.asleep st.window then (s.count (cmdReg 0x120) 1).noteHostPages r.reg.panel (r.fld 6 2) false
    else
      let size := 2 ^ w.noticeLog
      let es := r.hostPages.take size
      let s1 := (es.zipIdx).foldl (fun s e =>
        s.emit (.hostBytes (w.noticeBase + BitVec.ofNat 64 (8 * ((w.noticeIdx + e.2) % size))) e.1)) s
      let s2 := s1.modWindow st.window (fun w =>
        { w with notices := w.notices + 1, noticeIdx := w.noticeIdx + es.length })
      let s3 := s2.putItem st.window (.notice (.pageIn w.notices r.reg.ctx s.clk.now w.noticeIdx es.length (r.fld 6 2) st.tag
        (decide (es.length < r.hostPages.length))))
      s3.noteHostPages r.reg.panel (r.fld 6 2) true

/-- A failed request is reported (R262). -/
def State.reportReq (s : State) (h : Nat) (r : KvsReq) : State :=
  let s1 := ((s.count (kvsReg h 0x120) 1).event 0x3801).modSelector h (fun l =>
    { l with lastStatus := r.status, lastCtx := r.reg.ctx, lastSlot := r.slot, lastValid := true })
  s1.failSeqs r.reg.panel r.status (fun q => decide (q.slot = r.fld 6 2))

/-- KVS_RESULT_DELIVER: request `index` in flight delivers its result and leaves flight. -/
def execKvsResultDeliver (sel index : Nat) (s : State) : Answer :=
  match (s.selector sel).flight[index]? with
  | none => .next s
  | some r =>
    if !(s.islandOn (224 + sel) && decide (sel < 8)) then .next s
    else
      let s1 := s.modSelector sel (fun l => { l with flight := l.flight.eraseIdx index })
      let s2 := if r.status = 0 then s1 else s1.reportReq sel r
      let s3 := match s2.physIn r.reg.panel r.core with
        | some p =>
          if s.coreInPanel r.reg.ctx r.core && decide (r.res + r.result.length ≤ 0x200000) then
            s2.deliverAll p r (resultCuts (r.result.length + 1) r.res r.result)
          else s2
        | none => s2
      .next (if r.hostPages.isEmpty then s3 else s3.pageInNotice r)

/-- Cancel the requests of a context: in flight or waiting, they deliver nothing (R264). -/
def State.cancelReqs (s : State) (ctx : Nat) : State :=
  (List.range 8).foldl (fun s h => s.modSelector h (fun l =>
    { l with pending := l.pending.filter (fun x => decide (x.1.ctx ≠ ctx)),
             flight := l.flight.filter (fun r => decide (r.reg.ctx ≠ ctx)) })) s

/-- A request of a context is in flight or waits. -/
def State.reqsOpen (s : State) (ctx : Nat) : Bool :=
  (List.range 8).any (fun h => (s.selector h).pending.any (fun x => decide (x.1.ctx = ctx)) ||
    (s.selector h).flight.any (fun r => decide (r.reg.ctx = ctx)))

/-- Register a request page with the selector of the stack that homes its frame, in the place of its panel (R254). -/
def State.installKv (s : State) (g : KvsReg) : State :=
  let h := stackOf (g.frame * 2097152)
  ((List.range 8).foldl (fun s i => s.modSelector i (fun l => { l with regs := l.regs.filter (fun x => decide (x.panel ≠ g.panel)) }))
    s).modSelector h (fun l => { l with regs := l.regs ++ [g] })

/-- A panel has a registration. -/
def State.panelKv (s : State) (k : Nat) : Bool := (List.range 8).any (fun h => (s.selector h).regs.any (fun g => decide (g.panel = k)))

/-- A request page is checked at step start. A selector holds one registration for each panel, so that of a step which waits behind
another one is taken up when the step starts. Log entry 67. -/
def State.offerKv (s : State) (g : KvsReg) : State := if s.panelKv g.panel then s else s.installKv g

/-- The registration of a step that starts or is restored. -/
def State.startKv (s : State) (st : Step) : State :=
  match st.kv with
  | some g => s.installKv g
  | none => s

/-- End the registration of a context's request page (R254). -/
def State.unregisterKvs (s : State) (ctx : Nat) : State :=
  (List.range 8).foldl (fun s h => s.modSelector h (fun l =>
    { l with regs := l.regs.filter (fun g => decide (g.ctx ≠ ctx)) })) s

end Sys2Proof.Machine
end

