-- ==== Sys2Proof/Machine/Vector.lean ====
section
/-! DEFINITION. The vector engine (05): descriptors and constants, units and chains, streams, the operations, faults
and counters. A unit is checked when it starts; its reads and writes take effect when it completes (log entry 8). -/

namespace Sys2Proof.Machine

/-! ## Classes and operand uses (R126, R138) -/

/-- The class of an operation. -/
inductive VClass where
  | e | s | r | t | g
  deriving DecidableEq, Repr

/-- The class of an operation (R126). -/
def VOp.cls (v : VOp) : VClass :=
  match v with
  | .exp | .log | .rcp | .rsq | .tanh | .sigm | .sexp | .rope => .s
  | .rsum | .rmax | .rmin | .rssq | .smax | .ssum => .r
  | .topk => .t
  | .gath | .scat => .g
  | _ => .e

/-- How an operation uses a selector field: not at all, as a source, as a per-row or constant source, as either of
these or a latch, as a source or none, as a second destination (or none), or as a constant. -/
inductive SelUse where
  | unused | src | rowSrc | rowOrLatch | rowOrNone | dest | destOrNone | const
  deriving DecidableEq, Repr

/-- The uses of the fields a, b and c (R126, R140 to R145). -/
def VOp.uses (v : VOp) (fn : Nat) : SelUse × SelUse × SelUse :=
  match v with
  | .add | .sub | .mul | .max | .min | .cmp => (.src, .src, .unused)
  | .fma | .sel => (.src, .src, .src)
  | .cvt => (.src, .unused, if fn % 2 = 1 then .const else .unused)
  | .smax => (.src, .rowSrc, .unused)
  | .sexp => (.src, .rowOrLatch, .rowOrNone)
  | .ssum => (.src, .rowSrc, .destOrNone)
  | .topk => (.src, .dest, .unused)
  | .gath | .scat => (.src, .src, .unused)
  | .hash => (.src, .rowSrc, if fn = 1 then .const else .unused)
  | .rope => (.src, .src, .rowSrc)
  | _ => (.src, .unused, .unused)

/-- How many values of fn an operation has; the others are reserved (R126, R127, R142). -/
def VOp.fnCount (v : VOp) : Nat :=
  match v with
  | .cmp => 6
  | .cvt | .hash | .rope => 2
  | .scan => 3
  | .topk => 16
  | _ => 1

/-! ## Streams (R131 to R134) -/

/-- A descriptor with its displacement applied; `elem0` is the base that the scale region goes with (R129, R132). -/
structure Strm where
  base   : Nat
  elem0  : Nat
  code   : Nat
  int    : Bool
  form   : Nat
  rowLen : Nat
  stride : Nat
  scale  : Nat
  deriving DecidableEq, Repr

/-- Descriptor `i` displaced by `disp` words. -/
def VectorEngine.stream (v : VectorEngine) (i disp : Nat) : Strm :=
  let d := Tab.get {} v.descs i
  { base := d.base.toNat + disp * 64, elem0 := d.base.toNat, code := d.fmt.toNat, int := d.int, form := d.form.toNat,
    rowLen := d.rowLen.toNat, stride := d.rowStride.toNat, scale := d.scaleBase.toNat }

/-- Bits of an element. -/
def Strm.bits (t : Strm) : Nat := if t.int then 32 else elemBits t.code

/-- The stream is of a skived format. -/
def Strm.skived (t : Strm) : Bool := !t.int && isSkived t.code

/-- The first byte of row r of a linear stream of `cnt` elements per row; with row_len 0 the rows are packed (R131,
R134). -/
def Strm.rowStart (t : Strm) (r cnt : Nat) : Nat :=
  if t.rowLen = 0 then t.base + r * cnt * t.bits / 8 else t.base + r * t.stride * 64

/-- The byte address of element j of row r, for element sizes of whole bytes (R131). -/
def Strm.addr (t : Strm) (r j cnt : Nat) : Nat :=
  let e := t.bits / 8
  match t.form with
  | 1 => wordOffset (tileOf t.base) (rowOf t.base + j * e / 64) (colOf t.base + r * t.stride) + j * e % 64
  | 2 => t.base + r * e
  | _ => t.rowStart r cnt + j * e

/-- The scale byte's address of the block of a skived row (R132). -/
def Strm.scaleAt (t : Strm) (a : Nat) : Nat := scaleAddr t.code t.elem0 t.scale a

/-- The bit address of element 0 of row r of a linear stream: packed rows run on from element to element (R131, R134). -/
def Strm.rowBit (t : Strm) (r cnt : Nat) : Nat :=
  if t.rowLen = 0 then t.base * 8 + r * cnt * t.bits else (t.base + r * t.stride * 64) * 8

/-- The byte ranges of row r. -/
def Strm.ranges (t : Strm) (r cnt : Nat) : List (Nat × Nat) :=
  if t.skived then
    let lo := t.rowBit r cnt / 8
    let hi := ceilDiv (t.rowBit r cnt + cnt * t.bits) 8
    [(lo, hi - lo), (t.scaleAt lo, t.scaleAt (hi - 1) + 1 - t.scaleAt lo)]
  else match t.form with
    | 1 => (List.range cnt).map (fun j => (t.addr r j cnt, t.bits / 8))
    | 2 => [(t.addr r 0 cnt, t.bits / 8)]
    | _ => [(t.rowStart r cnt, cnt * t.bits / 8)]

/-- The elements of row r, one by one: the byte range of each, and the scale byte of a skived one. -/
def Strm.elemRanges (t : Strm) (r cnt : Nat) : List ((Nat × Nat) × Option Nat) :=
  if t.skived then (List.range cnt).map (fun j =>
    let a := (t.rowBit r cnt + j * t.bits) / 8
    ((a, 1), some (t.scaleAt a)))
  else if t.form = 2 then [((t.addr r 0 cnt, t.bits / 8), none)]
  else (List.range cnt).map (fun j => ((t.addr r j cnt, t.bits / 8), none))

/-- The FP32 values (for an integer stream the raw words) of row r, with the flags of an overflowing dequantisation. A
skived value beyond the FP32 range is an infinity before it is converted on. DESIGN CHOICE, log entry 65. -/
def Strm.readRow (t : Strm) (sl : Slice) (r cnt : Nat) : List W32 × FFlags :=
  if t.skived then sl.readSkived t.code t.elem0 t.scale (t.rowBit r cnt) cnt
  else
    let raw (j : Nat) : Nat := leNat (sl.bytes (t.addr r j cnt) (t.bits / 8))
    if t.int then ((List.range cnt).map (fun j => BitVec.ofNat 32 (raw j)), 0)
    else ((List.range cnt).map (fun j => (toFp32 (decodeF (ffmtOf t.code) (raw j))).1), 0)

/-- The writes of row r: bytes by address, the values as stored (a skived row's decoded elements, otherwise the values
given), and the flags (R136, R138). The decoding of a stored element into a latch (`latched`) raises the overflow of R49. -/
def Strm.writeRow (t : Strm) (r cnt : Nat) (sat : Bool) (xs : List W32) (rnd : Nat → Option Nat) (latched : Bool := false) :
    List (Nat × List Byte) × List W32 × FFlags :=
  if t.skived then
    let c := convertRow t.code sat xs rnd
    let a := t.rowStart r cnt
    let back := (List.range cnt).map (fun j => toFp32 (skValue t.code (elemAt t.code c.1 j) (fieldAt c.2.1 (j / 32) 1)))
    ([(a, c.1), (t.scaleAt a, c.2.1)], back.map Prod.fst,
     if latched then back.foldl (fun f x => f ||| x.2) c.2.2 else c.2.2)
  else
    let enc := xs.map (fun x => if t.int then (x.toNat, (0 : FFlags)) else roundF (ffmtOf t.code) sat (ofFp32 x))
    (enc.zipIdx.map (fun e => (t.addr r e.2 cnt, leBytes (t.bits / 8) e.1.1)), xs,
     enc.foldl (fun f e => f ||| e.2) 0)

/-- The stream is aligned and lies in its slice or tile, for `rows` rows of `cnt` elements (R131, R132). -/
def Strm.fits (t : Strm) (rows cnt : Nat) : Bool :=
  let aligned := if t.skived then decide (t.base % 64 = 0) && decide (t.scale % 64 = 0)
    else decide (t.base % (t.bits / 8) = 0)
  aligned &&
  match t.form with
  | 1 => decide (rowOf t.base + ceilDiv (cnt * t.bits / 8) 64 ≤ 32) &&
         decide (colOf t.base + (rows - 1) * t.stride ≤ 31) && decide (t.base < sliceSize)
  | 2 => decide (t.base + rows * (t.bits / 8) ≤ sliceSize)
  | _ => (t.ranges (rows - 1) cnt).all (fun x => decide (x.1 + x.2 ≤ sliceSize))

/-- The address of element i of an indexed operand, `none` beyond the slice or tile (R144). -/
def Strm.indexed (t : Strm) (i : Nat) : Option Nat :=
  let row := if t.rowLen = 0 then 0 else i / t.rowLen
  let j := if t.rowLen = 0 then i else i % t.rowLen
  let e := t.bits / 8
  let a := match t.form with
    | 1 => wordOffset (tileOf t.base) (rowOf t.base + j * e / 64) (colOf t.base + row * t.stride) + j * e % 64
    | 2 => t.base + row * e
    | _ => t.base + row * t.stride * 64 + j * e
  let inTile := t.form ≠ 1 || (decide (rowOf t.base + j * e / 64 ≤ 31) && decide (colOf t.base + row * t.stride ≤ 31))
  if inTile && decide (a + e ≤ sliceSize) then some a else none

/-! ## Members (R127 to R130, R135) -/

/-- A source selector's meaning. -/
inductive Src where
  | none
  | stream (t : Strm)
  | const (i : Nat) (v : W32)
  | latch (i : Nat)
  deriving DecidableEq, Repr

/-- The source is a latch. -/
def Src.isLatch (x : Src) : Bool :=
  match x with
  | .latch _ => true
  | _ => false

/-- The source is a stream. -/
def Src.isStream (x : Src) : Bool :=
  match x with
  | .stream _ => true
  | _ => false

/-- Decode a selector; `none` for a reserved value (R128). -/
def srcOf (v : VectorEngine) (sel : BitVec 5) (disp : Nat) : Option Src :=
  let x := sel.toNat % 8
  match sel.toNat / 8 with
  | 0 => some (.stream (v.stream x disp))
  | 1 => some (.const x (Tab.get 0 v.consts x))
  | 2 => some (.latch x)
  | _ => if sel.toNat = 24 then some .none else Option.none

/-- A member of a unit with its operands decoded. -/
structure VMember where
  entry : QEntry
  op    : VOp
  n     : Nat
  fn    : Nat
  sat   : Bool
  a     : Src
  b     : Src
  c     : Src
  d     : Option Strm
  deriving DecidableEq, Repr

/-- The chain tag of an entry: 0 for A.VOP, which is never chained (R126). -/
def QEntry.tag (x : QEntry) : Nat :=
  match x.op with
  | .vop _ _ true => 0
  | _ => x.hdr.count.toNat % 16

/-- The entry is a setup instruction. -/
def QEntry.isSetup (x : QEntry) : Bool :=
  match x.op with
  | .vxdsc _ => true
  | .vxdss _ => true
  | .vxk _ => true
  | _ => false

/-- The last bit of a vector operation. -/
def QEntry.last (x : QEntry) : Bool :=
  match x.op with
  | .vop _ o _ => o.last
  | _ => false

/-- An unused selector field is zero; a used one must not be a reserved value (R127, R128). -/
def selFieldOk (u : SelUse) (sel : BitVec 5) (r : Option Src) : Bool :=
  if u = .unused then decide (sel = 0) else r.isSome

/-- The operand kind fits the use (R138 to R145). -/
def kindOk (u : SelUse) (x : Src) : Bool :=
  match u, x with
  | .unused, _ => true
  | .src, .none => false
  | .src, _ => true
  | .rowSrc, .stream t => decide (t.form = 2)
  | .rowSrc, .const _ _ => true
  | .rowSrc, _ => false
  | .rowOrLatch, .stream t => decide (t.form = 2)
  | .rowOrLatch, .none => false
  | .rowOrLatch, _ => true
  | .rowOrNone, .stream t => decide (t.form = 2)
  | .rowOrNone, .latch _ => false
  | .rowOrNone, _ => true
  | .dest, .stream _ => true
  | .dest, _ => false
  | .destOrNone, .stream _ => true
  | .destOrNone, .none => true
  | .destOrNone, _ => false
  | .const, .const _ _ => true
  | .const, _ => false

/-- A source that is not used is none. -/
def usedSrc (u : SelUse) (r : Option Src) : Src := if u = .unused then .none else r.getD .none

/-- The fields of a vector operation, or the code of a bad one (R127, R152). An A.VOP with last = 1 is illegal, 0x0802: R152 names no
code for it. The sat bit of a VHASH is accepted and has no effect (R127). DESIGN CHOICE, log entry 65. -/
def memberOf (v : VectorEngine) (x : QEntry) : Except Nat VMember :=
  match x.op with
  | .vop op o pva =>
    let u := op.uses o.fn.toNat
    let n := if pva then x.hdr.count.toNat else o.n.toNat
    let ra := srcOf v o.a o.aoff.toNat
    let rb := srcOf v o.b 0
    let rc := srcOf v o.c 0
    let okFields := decide (o.rsv = 0) && decide (o.d.toNat ≤ 8) && decide (n ≠ 0) &&
      decide (o.fn.toNat < op.fnCount) && selFieldOk u.1 o.a ra && selFieldOk u.2.1 o.b rb &&
      selFieldOk u.2.2 o.c rc && (!pva || (!o.last && decide (o.n = 0)))
    let a := usedSrc u.1 ra
    let b := usedSrc u.2.1 rb
    let c := usedSrc u.2.2 rc
    if !okFields then .error 0x0802
    else if !(kindOk u.1 a && kindOk u.2.1 b && kindOk u.2.2 c) then .error 0x0840
    else .ok { entry := x, op := op, n := n, fn := o.fn.toNat, sat := o.sat, a := a, b := b, c := c,
               d := if o.d.toNat = 8 then none else some (v.stream o.d.toNat o.doff.toNat) }
  | _ => .error 0x0842

/-! ## Checks of a unit (R133 to R139, R150) -/

/-- The row length that a member's own operands give: from a, or d, or the indices for class G; a latch source of a
reduction or of a latch-only member gives none (R133; log entry 9). -/
def VMember.rowLen (m : VMember) : Option Nat :=
  let len (t : Strm) : Nat := if t.rowLen = 0 then m.n else t.rowLen
  if m.op.cls = .g then
    match m.b with
    | .stream t => some (len t)
    | _ => none
  else match m.a with
    | .stream t => some (len t)
    | .latch _ => if m.op.cls = .r ∨ m.op.cls = .t then none else m.d.map len
    | _ => m.d.map len

/-- The elements per row of an operand: field 0 is d, 1 a, 2 b, 3 c. -/
def VMember.count (m : VMember) (l field : Nat) : Nat :=
  match field with
  | 0 => if m.op.cls = .r then 1 else if m.op = .topk then m.fn + 1 else l
  | 2 => if m.op = .rope then l / 2 else if m.op = .topk then m.fn + 1 else l
  | 3 => if m.op = .ssum then 1 else l
  | _ => l

/-- An operand must be integer: VHASH's a, b and d, VROPE's positions, indices (R138). -/
def VMember.needInt (m : VMember) (field : Nat) : Bool :=
  match m.op with
  | .hash => decide (field ≠ 3)
  | .rope => decide (field = 3)
  | .topk | .gath | .scat => decide (field = 2)
  | _ => false

/-- The streams of a member with their fields. -/
def VMember.streams (m : VMember) : List (Nat × Strm) :=
  let of' (f : Nat) (x : Src) : List (Nat × Strm) := match x with
    | .stream t => [(f, t)]
    | _ => []
  (match m.d with
    | some t => [(0, t)]
    | none => []) ++ of' 1 m.a ++ of' 2 m.b ++ of' 3 m.c

/-- The operand at `field` of a class G operation is addressed by its index, not as rows (R144). -/
def VMember.isIndexed (m : VMember) (field : Nat) : Bool :=
  decide (m.op.cls = .g) && (decide (field = 0) || decide (field = 1))

/-- The check of one stream operand, 0 when it holds (R131 to R134, R138, R139, R144). Only a skived destination needs rows of a
multiple of 32 elements; a skived source of another row length, VROPE's frequencies of L / 2 elements among them, is read on, and
a skived destination of a class R or T member, or VSSUM's second one, is refused. DESIGN CHOICE, log entry 52. -/
def streamCheck (m : VMember) (l rows : Nat) (ft : Nat × Strm) : Nat :=
  let f := ft.1
  let t := ft.2
  let cls := m.op.cls
  let want := if m.op = .rope ∧ f = 2 then l / 2 else l
  let isDest := decide (f = 0) || (decide (f = 3) && decide (m.op = .ssum))
  if t.skived && (decide (t.form ≠ 0) || decide (cls = .g) ||
      (isDest && (decide (l % 32 ≠ 0) || decide (cls = .r) || decide (cls = .t)))) then 0x0840
  else if !m.isIndexed f && t.int != m.needInt f then 0x0840
  else if f = 0 && decide (t.form = 2) && decide (cls ≠ .r) && decide (cls ≠ .t) then 0x0840
  else if f = 0 && decide (cls = .r) && !(decide (t.form = 2) || (decide (t.form = 0) && decide (t.rowLen = 0))) then
    0x0840
  else if (decide (cls = .e) || decide (cls = .s)) && decide (t.form ≠ 2) && decide (f ≠ 1) &&
      !(decide (t.rowLen = want) || (decide (t.form = 0) && decide (t.rowLen = 0))) then 0x0840
  else if m.isIndexed f then (if t.base % (t.bits / 8) = 0 then 0 else 0x0841)
  else if !t.fits rows (if t.form = 2 then 1 else m.count l f) then 0x0841
  else 0

/-- The checks of one member beside its streams, 0 when they hold (R141, R143 to R145). -/
def memberCheck (v : VectorEngine) (m : VMember) (l : Nat) : Nat :=
  let bothInt := match m.a, m.d with
    | .stream t, some d => t.int == d.int
    | .const _ _, some _ => true
    | _, some d => !d.int
    | _, none => false
  if m.op = .topk ∧ 1024 < l then 0x0840
  else if m.op = .rope ∧ l % 2 = 1 then 0x0840
  else if m.op = .cvt ∧ m.fn = 1 ∧ !(match m.d with
      | some t => !t.int && (decide (t.code = 5) || decide (t.code = 6))
      | none => false) then 0x0840
  else if m.op = .cvt ∧ m.fn = 1 ∧ !v.srEnable then 0x0843
  else if m.op = .hash ∧ m.a.isLatch = true then 0x0840
  else if m.op.cls = .g ∧ (bothInt = false ∨ m.b.isStream = false) then 0x0840
  else 0

/-- The latches that a member reads are of earlier members, and a latch-only destination is not the last member's
(R135). -/
def latchesOk (j nm : Nat) (m : VMember) : Bool :=
  let ok (x : Src) : Bool := match x with
    | .latch i => decide (i < j) && decide (1 < nm)
    | _ => true
  ok m.a && ok m.b && ok m.c && (m.d.isSome || decide (j + 1 < nm))

/-- A unit that may run: its members, its row length and its rows. -/
structure VUnit where
  members : List VMember
  l       : Nat
  rows    : Nat
  deriving DecidableEq, Repr

/-- The first member that fails a check, with its code. -/
def firstFail (ms : List VMember) (chk : Nat → VMember → Nat) : Option (Nat × QEntry) :=
  ms.zipIdx.findSome? (fun mj => let c := chk mj.2 mj.1; if c = 0 then none else some (c, mj.1.entry))

/-- Check a unit: fields, kinds, chain rules, rows, then each member (R135, R137, R150). Of several violations the first in this order is
recorded, and where no member gives rows they are those of the unit, n without one (R133). DESIGN CHOICE, log entry 65. -/
def unitOf (v : VectorEngine) (xs : List QEntry) : Except (Nat × QEntry) VUnit :=
  let bad := xs.findSome? (fun x => match memberOf v x with
    | .error c => some (c, x)
    | .ok _ => none)
  match bad with
  | some e => .error e
  | none =>
    let ms := xs.filterMap (fun x => match memberOf v x with
      | .ok m => some m
      | .error _ => none)
    let nm := ms.length
    let n0 := (ms.head?.map (fun m => m.n)).getD 0
    let l := (ms.findSome? VMember.rowLen).getD n0
    match firstFail ms (fun j m =>
        if !latchesOk j nm m then 0x0842
        else if 1 < nm ∧ (m.n ≠ n0 ∨ (0 < j ∧ m.entry.hdr.wait = true) ∨ (m.rowLen.getD l ≠ l) ∨
            (m.op.cls = .r ∧ 0 < j ∧ j + 1 < nm) ∨ (m.op.cls = .t ∧ j + 1 < nm) ∨ m.op.cls = .g) then 0x0842
        else if n0 % l ≠ 0 then 0x0840
        else 0) with
    | some e => .error e
    | none =>
      match firstFail ms (fun _ m =>
          if memberCheck v m l ≠ 0 then memberCheck v m l
          else (m.streams.findSome? (fun ft =>
            let c := streamCheck m l (n0 / l) ft
            if c = 0 then none else some c)).getD 0) with
      | some e => .error e
      | none => .ok { members := ms, l := l, rows := n0 / l }

/-! ## Row arithmetic (R58 to R62, R138 to R145) -/

/-- Element j of an operand's values: a constant or a per-row scalar has one value for every element. -/
def pick (xs : List W32) (j : Nat) : W32 := if xs.length = 1 then xs.headD 0 else xs.getD j 0

/-- A running combination with its flags. -/
def runWith (f : W32 → W32 → W32 × FFlags) (first : W32) (xs : List W32) : W32 × FFlags :=
  xs.foldl (fun a x => let r := f a.1 x; (r.1, a.2 ||| r.2)) (first, 0)

/-- One level of the pairwise tree over the lanes (R60). -/
def laneLevel (f : W32 → W32 → W32 × FFlags) (xs : List (W32 × FFlags)) : List (W32 × FFlags) :=
  match xs with
  | a :: b :: rest => (let r := f a.1 b.1; (r.1, a.2 ||| b.2 ||| r.2)) :: laneLevel f rest
  | xs => xs

/-- Join 2^n lanes in a tree of n levels. -/
def laneTree (f : W32 → W32 → W32 × FFlags) (n : Nat) (xs : List (W32 × FFlags)) : W32 × FFlags :=
  match n with
  | 0 => xs.headD (0, 0)
  | n + 1 => laneTree f n (laneLevel f xs)

/-- The elements of lane k. -/
def laneElems (xs : List W32) (k : Nat) : List W32 :=
  (xs.zipIdx.filter (fun e => decide (e.2 % 64 = k))).map Prod.fst

/-- A reduction in the fixed order of R60: 64 lanes, each from its first element, then six pairwise levels. -/
def reduceRow (ident : W32) (first : W32 → W32 × FFlags) (step join : W32 → W32 → W32 × FFlags) (xs : List W32) :
    W32 × FFlags :=
  let lanes := (List.range 64).map (fun k =>
    match laneElems xs k with
    | [] => (ident, 0)
    | x :: rest => let f := first x; let r := runWith step f.1 rest; (r.1, f.2 ||| r.2))
  laneTree join 6 lanes

/-- A function without flags. -/
def noFlags (f : W32 → W32 → W32) (x y : W32) : W32 × FFlags := (f x y, 0)

/-- The row sum. -/
def rowSum (xs : List W32) : W32 × FFlags := reduceRow 0 (fun x => (canon x, 0)) addF addF xs
/-- The row maximum. -/
def rowMax (xs : List W32) : W32 × FFlags :=
  reduceRow 0xFF800000 (fun x => (canon x, 0)) (noFlags maxF) (noFlags maxF) xs
/-- The row minimum. -/
def rowMin (xs : List W32) : W32 × FFlags :=
  reduceRow 0x7F800000 (fun x => (canon x, 0)) (noFlags minF) (noFlags minF) xs
/-- The row sum of squares, by fused multiply-add in each lane. -/
def rowSsq (xs : List W32) : W32 × FFlags := reduceRow 0 (fun x => mulF x x) (fun a x => fmaF x x a) addF xs

/-- The inclusive prefix of a row (R60). -/
def scanRow (f : W32 → W32 → W32 × FFlags) (xs : List W32) : List W32 × FFlags :=
  match xs with
  | [] => ([], 0)
  | x :: rest =>
    let r := rest.foldl (fun (a : List W32 × W32 × FFlags) y =>
      let t := f a.2.1 y
      (t.1 :: a.1, t.1, a.2.2 ||| t.2)) ([canon x], canon x, 0)
    (r.1.reverse, r.2.2)

/-- The comparison of VCMP (R59, R126). -/
def cmpHolds (fn : Nat) (x y : W32) : Bool :=
  let a := ofFp32 x
  let b := ofFp32 y
  let nan := decide (a = .nan) || decide (b = .nan)
  let c := cmpV a b
  match fn with
  | 0 => !nan && decide (c = 0)
  | 1 => nan || decide (c ≠ 0)
  | 2 => !nan && decide (c < 0)
  | 3 => !nan && decide (c ≤ 0)
  | 4 => !nan && decide (0 < c)
  | _ => !nan && decide (0 ≤ c)

/-- The routing hash (R142). With fn = 1 a constant E outside 1 to 1,024 is taken as it is. DESIGN CHOICE, log entry 65. -/
def hashWord (fn : Nat) (x salt e : W32) : W32 :=
  let h0 := (x ^^^ salt) * 0xCC9E2D51
  let h1 := (h0 ^^^ (h0 >>> 15)) * 0x1B873593
  let h2 := h1 ^^^ (h1 >>> 13)
  if fn = 1 then ((h2 >>> 16) * e) >>> 16 else h2

/-- The value is ±0. -/
def isZeroF (x : W32) : Bool := decide (x.toNat % 2 ^ 31 = 0)

/-- One element of a class E or S operation (R138). -/
def elemOp (op : VOp) (fn : Nat) (x y z : W32) : W32 × FFlags :=
  match op with
  | .add => addF x y
  | .sub => subF x y
  | .mul => mulF x y
  | .fma => fmaF x y z
  | .max => (maxF x y, 0)
  | .min => (minF x y, 0)
  | .abs => (canon (x &&& 0x7FFFFFFF), 0)
  | .neg => (canon (x ^^^ 0x80000000), 0)
  | .cmp => (if cmpHolds fn x y then 0x3F800000 else 0, 0)
  | .sel => (canon (if isZeroF x then z else y), 0)
  | .exp => expF x
  | .log => logF x
  | .rcp => rcpF x
  | .rsq => rsqrtF x
  | .tanh => tanhF x
  | .sigm => sigmoidF x
  | .hash => (hashWord fn x y z, 0)
  | _ => (canon x, 0)

/-- The k largest values of a row in descending order, lower index first among equals, with their indices (R141). -/
def topRow (k : Nat) (xs : List W32) : List W32 × List W32 :=
  let r := (List.range k).foldl (fun (acc : List (W32 × Nat) × List (W32 × Nat)) _ =>
    match acc.2 with
    | [] => ((nan32, 0xFFFFFFFF) :: acc.1, [])
    | e :: rest =>
      let best := rest.foldl (fun b x => if topLt b.1 x.1 then x else b) e
      ((canon best.1, best.2) :: acc.1, acc.2.filter (fun x => decide (x.2 ≠ best.2)))) ([], xs.zipIdx)
  (r.1.reverse.map Prod.fst, r.1.reverse.map (fun e => BitVec.ofNat 32 e.2))

/-- The rotated row (R143): the position of the row, its frequencies and its elements. -/
def ropeRow (fn p : Nat) (fs xs : List W32) : List W32 × FFlags :=
  let half := xs.length / 2
  let prs := (List.range half).map (fun j =>
    let i0 := if fn % 2 = 1 then j else 2 * j
    let i1 := if fn % 2 = 1 then j + half else 2 * j + 1
    (i0, i1, ropePair (p % 2 ^ 24) (pick fs j) (xs.getD i0 0) (xs.getD i1 0)))
  let out := prs.foldl (fun (o : List W32) r => (o.set r.1 r.2.2.1).set r.2.1 r.2.2.2.1) xs
  (out, prs.foldl (fun f r => f ||| r.2.2.2.2) (if 2 ^ 24 ≤ p then fInvalid else 0))

/-- What a member leaves in its latch: a value per element and a side value (R136, R140). -/
structure Latch where
  vals : List W32
  side : W32 := 0x3F800000
  deriving DecidableEq, Repr

/-- The values of a source for row r (R134, R136). -/
def Src.values (x : Src) (sl : Slice) (ls : List Latch) (r cnt : Nat) : List W32 × FFlags :=
  match x with
  | .none => ([], 0)
  | .const _ v => ([v], 0)
  | .latch i => ((ls.getD i { vals := [] }).vals, 0)
  | .stream t => if t.form = 2 then t.readRow sl r 1 else t.readRow sl r cnt

/-- The result of a member on row r: values for d, the side value, values for the second destination, flags. The side value of a
member other than VSEXP is 1.0 where a VSSUM reads it as q: R140 gives it none. DESIGN CHOICE, log entry 65. -/
structure RowOut where
  vals : List W32
  side : W32 := 0x3F800000
  second : List W32 := []
  flags : FFlags := 0
  deriving DecidableEq, Repr

/-- Compute row r of a member (R138 to R143). A VSSUM whose a is a constant takes 1.0 as q (R140). DESIGN CHOICE, log entry 65. -/
def rowOp (m : VMember) (l r : Nat) (sl : Slice) (ls : List Latch) : RowOut :=
  let a := m.a.values sl ls r l
  let b := m.b.values sl ls r (m.count l 2)
  let c := if m.op = .ssum then ([], 0) else m.c.values sl ls r l
  let fin := a.2 ||| b.2 ||| c.2
  let av := (List.range l).map (fun j => pick a.1 j)
  let one (x : W32 × FFlags) : RowOut := { vals := [x.1], flags := fin ||| x.2 }
  match m.op with
  | .rsum => one (rowSum av)
  | .rmax => one (rowMax av)
  | .rmin => one (rowMin av)
  | .rssq => one (rowSsq av)
  | .smax => one (maxF (pick b.1 0) (rowMax av).1, 0)
  | .ssum =>
    let q := match m.a with
      | .latch i => (ls.getD i { vals := [] }).side
      | _ => 0x3F800000
    let t := rowSum av
    let s := fmaF (pick b.1 0) q t.1
    { vals := [s.1], side := q, second := [q], flags := fin ||| t.2 ||| s.2 }
  | .scan =>
    let x := scanRow (match m.fn with
      | 0 => addF
      | 1 => noFlags maxF
      | _ => noFlags minF) av
    { vals := x.1, flags := fin ||| x.2 }
  | .topk => let t := topRow (m.fn + 1) av; { vals := t.1, second := t.2, flags := fin }
  | .rope =>
    let p := match m.c with
      | .const _ v => v.toNat + r
      | _ => (pick c.1 0).toNat
    let x := ropeRow m.fn p b.1 av
    { vals := x.1, flags := fin ||| x.2 }
  | .sexp =>
    let es := (List.range l).map (fun j =>
      let d := subF (pick a.1 j) (pick b.1 j)
      let e := expF d.1
      (e.1, d.2 ||| e.2))
    let q := match m.c with
      | .none => ((0x3F800000 : W32), (0 : FFlags))
      | _ =>
        let d := subF (pick c.1 0) (pick b.1 0)
        let e := expF d.1
        (e.1, d.2 ||| e.2)
    { vals := es.map Prod.fst, side := q.1, flags := es.foldl (fun f e => f ||| e.2) (fin ||| q.2) }
  | op =>
    let es := (List.range l).map (fun j => elemOp op m.fn (pick a.1 j) (pick b.1 j) (pick c.1 j))
    { vals := es.map Prod.fst, flags := es.foldl (fun f e => f ||| e.2) fin }

/-- The stochastic value of element j of row r for VCVT, `none` for rounding to nearest (R145). -/
def VMember.random (m : VMember) (v : VectorEngine) (l r : Nat) (j : Nat) : Option Nat :=
  if m.op = .cvt ∧ m.fn = 1 then
    match m.c with
    | .const x k =>
      let o := ((Tab.get 0 v.consts ((x + 1) % 8)).toNat % 65536 + r * l + j) % 65536
      some (srRandom (v.kvSeed ^^^ k) o)
    | _ => none
  else none

/-- The writes of a unit's row and its flags, with each member's latch in turn (R136). The latch of a VHASH member holds its integer
result: R136 speaks of FP32 values alone. DESIGN CHOICE, log entry 65. -/
def rowUnit (v : VectorEngine) (u : VUnit) (sl : Slice) (r : Nat) : List (Nat × List Byte) × FFlags :=
  let res := u.members.foldl (fun (acc : List Latch × List (Nat × List Byte) × FFlags) m =>
    let o := rowOp m u.l r sl acc.1
    let w := match m.d with
      | none => (([] : List (Nat × List Byte)), o.vals, (0 : FFlags))
      | some t => t.writeRow r (m.count u.l 0) m.sat o.vals (m.random v u.l r) (decide (1 < u.members.length))
    let w2 := match m.op, m.b, m.c with
      | .topk, .stream t, _ => t.writeRow r (m.fn + 1) m.sat o.second (fun _ => none)
      | .ssum, _, .stream t => t.writeRow r 1 m.sat o.second (fun _ => none)
      | _, _, _ => ([], [], 0)
    (acc.1 ++ [{ vals := w.2.1, side := o.side }], acc.2.1 ++ w.1 ++ w2.1, acc.2.2 ||| o.flags ||| w.2.2 ||| w2.2.2))
    ([], [], 0)
  (res.2.1, res.2.2)

/-! ## Gather and scatter (R144) -/

/-- The address of element i of the data operand of a class G unit: none for a constant, which is the same for every element
(R134); `none` where a descriptor's element lies beyond the slice. -/
def dataAt (a : Src) (i : Nat) : Option (Option Nat) :=
  match a with
  | .stream t => (t.indexed i).map some
  | _ => some none

/-- The moves of a class G unit in stream order: source and destination addresses; `none` for an index beyond the
slice. -/
def moves (m : VMember) (u : VUnit) (sl : Slice) : List (Option (Option Nat × Nat)) :=
  match m.b, m.d with
  | .stream ix, some d =>
    (List.range u.rows).flatMap (fun r =>
      ((ix.readRow sl r u.l).1).zipIdx.map (fun iv =>
        let k := r * u.l + iv.2
        let i := iv.1.toNat
        match dataAt m.a (if m.op = .gath then i else k), d.indexed (if m.op = .gath then k else i) with
        | some x, some y => some (x, y)
        | _, _ => none))
  | _, _ => []

/-- An element in the destination's format: raw for integers, converted otherwise. -/
def moveInto (d : Strm) (sat : Bool) (raw : Nat) (v : W32) : List Byte × FFlags :=
  if d.int then (leBytes 4 raw, 0)
  else
    let r := roundF (ffmtOf d.code) sat (ofFp32 (canon v))
    (leBytes (d.bits / 8) r.1, r.2)

/-- The element that a move carries. -/
def moveElem (m : VMember) (sl : Slice) (x : Option Nat) : List Byte × FFlags :=
  match m.a, m.d, x with
  | .stream t, some d, some x =>
    let raw := leNat (sl.bytes x (t.bits / 8))
    moveInto d m.sat raw (toFp32 (decodeF (ffmtOf t.code) raw)).1
  | .const _ v, some d, _ => moveInto d m.sat v.toNat v
  | _, _, _ => ([], 0)

/-! ## Overlap (R148) -/

/-- A stream of a member with its elements per row; a per-row scalar has one. -/
def VMember.counted (m : VMember) (l : Nat) (ft : Nat × Strm) : Strm × Nat := (ft.2, if ft.2.form = 2 then 1 else m.count l ft.1)

/-- The source streams of a unit with their elements per row. -/
def VUnit.sources (u : VUnit) : List (Strm × Nat) :=
  u.members.flatMap (fun m => (m.streams.filter (fun ft =>
    decide (ft.1 ≠ 0) && !(decide (ft.1 = 2) && decide (m.op = .topk)) &&
    !(decide (ft.1 = 3) && decide (m.op = .ssum)))).map (m.counted u.l))

/-- The destination streams of a unit with their elements per row. -/
def VUnit.dests (u : VUnit) : List (Strm × Nat) :=
  u.members.flatMap (fun m => (m.streams.filter (fun ft =>
    decide (ft.1 = 0) || (decide (ft.1 = 2) && decide (m.op = .topk)) ||
    (decide (ft.1 = 3) && decide (m.op = .ssum)))).map (m.counted u.l))

/-- Two byte ranges meet. -/
def rangesMeet (x y : Nat × Nat) : Bool := decide (x.1 < y.1 + y.2) && decide (y.1 < x.1 + x.2)

/-- Two streams place every element of every row alike. -/
def sameStream (x y : Strm × Nat) (rows : Nat) : Bool :=
  decide (x.2 = y.2) && decide (x.1.bits = y.1.bits) &&
  (List.range rows).all (fun r => decide (x.1.ranges r x.2 = y.1.ranges r y.2))

/-- The bytes of the elements of a stream's rows. -/
def allElems (x : Strm × Nat) (rows : Nat) : List ((Nat × Nat) × Option Nat) :=
  (List.range rows).flatMap (fun r => x.1.elemRanges r x.2)

/-- The elements of the streams of `xs` that meet an element of a stream of `ys` which does not coincide with theirs exactly
(R148): their bytes, with the scale byte of a block where it is met. -/
def overlapOf (xs ys : List (Strm × Nat)) (rows : Nat) : List (Nat × Nat) :=
  xs.flatMap (fun x =>
    let zs := (ys.filter (fun y => !sameStream x y rows)).flatMap (fun y =>
      (allElems y rows).flatMap (fun e => e.1 :: (e.2.map (fun b => (b, 1))).toList))
    (allElems x rows).flatMap (fun e =>
      let scale := (e.2.toList.map (fun b => (b, 1))).filter (fun a => zs.any (rangesMeet a))
      if zs.any (rangesMeet e.1) || !scale.isEmpty then e.1 :: scale else []))

/-! ## Time and counters (R134, R147) -/

/-- The beat width of a unit (R134). -/
def VUnit.beat (u : VUnit) : Nat :=
  if u.members.all (fun m => decide (m.op.cls = .e) && decide (m.op ≠ .scan) && decide (m.op ≠ .hash) &&
      m.streams.all (fun ft => !ft.2.int && decide (1 ≤ ft.2.code) && decide (ft.2.code ≤ 4))) then 128 else 64

/-- The first member is a leading reduction: of class R in a unit of more than one (R137). -/
def VUnit.leads (u : VUnit) : Bool :=
  decide (1 < u.members.length) && (u.members.head?.map (fun m => decide (m.op.cls = .r))).getD false

/-- The cycles of one beat of a class G unit: the most distinct words that its lanes touch in one bank (R147). -/
def beatCycles (addrs : List Nat) : Nat :=
  let words := (addrs.map (fun a => a / 64 * 64)).eraseDups
  max 1 ((List.range 32).foldl (fun m k => max m (words.filter (fun w => decide (bankOf w = k))).length) 0)

/-- C of R147 without its stalls, for a unit that is not of class G. -/
def VUnit.cost (u : VUnit) : Nat :=
  let beats := ceilDiv u.l u.beat
  let pre := if u.leads then beats + 8 else 0
  let cb := (u.members.zipIdx.map (fun mj =>
    if u.leads && decide (mj.2 = 0) then 0 else if mj.1.op.cls = .s then 2 else 1)).sum
  let lastOp := u.members.getLast?
  let kt := match lastOp with
    | some m => if m.op = .topk then m.fn + 9 else 0
    | none => 0
  let tail := match lastOp with
    | some m => if m.op.cls = .r then 8 else 0
    | none => 0
  u.rows * (pre + beats * cb + kt) + tail

/-- C of R147 for a class G unit: the sum over the beats of each row. -/
def gatherCost (u : VUnit) (ms : List (Option (Option Nat × Nat))) (gath : Bool) : Nat :=
  let addrs := ms.filterMap (fun x => x.bind (fun p => if gath then p.1 else some p.2))
  ((List.range u.rows).flatMap (fun r => (List.range (ceilDiv u.l 64)).map (fun k =>
    beatCycles (((addrs.drop (r * u.l)).take u.l |>.drop (64 * k)).take 64)))).sum

/-! ## Violations (R150) -/

/-- The vector engine freezes the core with a code of R150 and records the instruction. -/
def State.vxFault (s : State) (p code : Nat) (x : QEntry) : State :=
  (s.modCore p (fun c => { c with vx := { c.vx with fault := BitVec.ofNat 16 code, faultWord := x.word,
                                                    unit := [] } })).freezeCore p code

/-- The bytes that a faulting unit may have written are free until recovery (R150). -/
def State.scrambleRanges (s : State) (p : Nat) (rs : List (Nat × Nat)) : State :=
  rs.foldl (fun s r =>
    let d := s.drawBytes r.2
    d.2.modSlice p (fun sl => if sl.rangeOn r.1 r.2 then sl.write r.1 d.1 else sl)) s

/-! ## Starting (R75, R135) -/

/-- Take `k` entries from the vector queue and run them as the unit. -/
def State.vxTake (s : State) (p k : Nat) : State :=
  s.modCore p (fun c => { c with seq := { c.seq with qVx := c.seq.qVx.drop k },
                                 vx := { c.vx with unit := c.seq.qVx.take k, posRow := 0, posBeat := 0 } })

/-- Reserved fields of a setup instruction; an integer descriptor has fmt 0 and form 0b11 is reserved (R130, R131). R131 names no code
for an integer descriptor of another fmt: it freezes with 0x0802 when the VXDSC starts. DESIGN CHOICE, log entry 65. -/
def setupReserved (x : QEntry) : Bool :=
  match x.op with
  | .vxdsc o => decide (o.rsv ≠ 0) || decide (o.form = 3) || (o.int && decide (o.fmt ≠ 0))
  | .vxdss o => decide (o.rsvHi ≠ 0) || decide (o.rsvLo ≠ 0)
  | .vxk o => decide (o.rsvHi ≠ 0) || decide (o.rsvLo ≠ 0)
  | _ => false

/-- Start a checked unit, or fault. -/
def startUnit (p : Nat) (xs : List QEntry) (s : State) : State :=
  match unitOf (s.core p).vx xs with
  | .error e => s.vxFault p e.1 e.2
  | .ok _ => s.vxTake p xs.length

/-- The vector engine starts the unchained entry at the head of its queue (R75, R150). An A.VOP with last = 1 is illegal, 0x0802.
DESIGN CHOICE, log entry 65. -/
def startVector (p : Nat) (s : State) : State :=
  let c := s.core p
  match c.seq.qVx with
  | [] => s
  | x :: _ =>
    if !c.vx.unit.isEmpty || !s.waitMet p x.hdr then s
    else if x.isSetup then
      if x.tag ≠ 0 then s.vxFault p 0x0842 x
      else if setupReserved x then s.vxFault p 0x0802 x
      else s.vxTake p 1
    else if x.tag ≠ 0 then s
    else match x.op with
      | .vop _ o true => if o.last then s.vxFault p 0x0802 x else startUnit p [x] s
      | _ => if x.last then s.vxFault p 0x0842 x else startUnit p [x] s

/-- The run of a chain at the head of a queue: a complete run, a broken one with its offending entry, or one whose
last member is not queued yet (R135). -/
inductive ChainRun where
  | whole (n : Nat)
  | broken (x : QEntry)
  | short
  deriving DecidableEq, Repr

/-- Walk the run of a tag: `k` members seen so far. The entry that breaks the run is the one that the fault registers show (R135). DESIGN
CHOICE, log entry 65. -/
def chainRun (tag k : Nat) (q : List QEntry) : ChainRun :=
  match q with
  | [] => .short
  | x :: rest =>
    let isG := match x.op with
      | .vop op _ _ => decide (op.cls = .g)
      | _ => false
    if x.isSetup || isG || decide (x.tag ≠ tag) then .broken x
    else if x.last then (if k = 0 then .broken x else .whole (k + 1))
    else if k = 7 then .broken x
    else chainRun tag (k + 1) rest

/-- VECTOR_CHAIN_START: the chain at the head of the queue starts as one unit once its first member's wait holds and
its last member is queued; a broken run is a chain fault (R135). -/
def execVectorChainStart (core : Nat) (s : State) : Answer :=
  let c := s.core core
  match c.seq.qVx with
  | [] => .next s
  | x :: _ =>
    if !s.clocked core || c.isFrozen || !c.vx.unit.isEmpty || !s.waitMet core x.hdr || x.isSetup ||
        decide (x.tag = 0) then .next s
    else match chainRun x.tag 0 c.seq.qVx with
      | .short => .next s
      | .broken y => .next (s.vxFault core 0x0842 y)
      | .whole n => .next (startUnit core (c.seq.qVx.take n) s)

/-! ## Completing (R76, R136, R147) -/

/-- A setup instruction takes effect (R130). VXDSC leaves scale_base unchanged. -/
def setupEffect (x : QEntry) (v : VectorEngine) : VectorEngine :=
  match x.op with
  | .vxdsc o =>
    let old := Tab.get {} v.descs o.idx.toNat
    let new : VDesc := { base := o.base, fmt := o.fmt, int := o.int, form := o.form, rowLen := o.rowLen,
                         rowStride := o.rowStride, scaleBase := old.scaleBase }
    { v with descs := Tab.set v.descs o.idx.toNat new }
  | .vxdss o =>
    { v with descs := Tab.modify {} v.descs o.idx.toNat (fun d => { d with scaleBase := o.scaleBase }) }
  | .vxk o => { v with consts := Tab.set v.consts o.idx.toNat o.value }
  | _ => v

/-- The end of a unit: signals of every member, counters, and the engine free again (R76, R135, R153). -/
def State.vxEnd (s : State) (p : Nat) (xs : List QEntry) (cycles beats opbeats stalls : Nat) : State :=
  let s1 := s.modCore p (fun c => { c with vx := { c.vx with unit := [] } })
  let s2 := xs.foldl (fun s x => s.signal { x.hdr with core := p }) s1
  (((((s2.count (coreReg p 0x208) cycles).count (coreReg p 0x1A00) beats).count (coreReg p 0x1A08) opbeats).count
    (coreReg p 0x1A10) 1).count (coreReg p 0x1A18) stalls).progress p

/-- Put free bytes into ranges of slice p. -/
def State.freeRanges (s : State) (p : Nat) (rs : List (Nat × Nat)) : State :=
  rs.foldl (fun s r =>
    let d := s.drawBytes r.2
    d.2.modSlice p (fun sl => sl.write r.1 d.1)) s

/-- The slice as a unit reads it: elements that its own destinations overlap are free bytes (R148). -/
def State.readView (s : State) (p : Nat) (rs : List (Nat × Nat)) : Slice × State :=
  rs.foldl (fun x r =>
    let d := x.2.drawBytes r.2
    (x.1.write r.1 d.1, d.2)) ((s.core p).slice, s)

/-- The writes of a row with its flags. -/
def State.vxRow (s : State) (p : Nat) (v : VectorEngine) (u : VUnit) (sl0 : Slice) (r : Nat) : State :=
  let w := rowUnit v u sl0 r
  (s.modSlice p (fun sl => sl.writeAll w.1)).raiseVx p w.2

/-- The member of a unit that reads a word, by its sources: the first of them (R150). -/
def VUnit.readerOf (u : VUnit) (w : Nat) : Option QEntry :=
  (u.members.find? (fun m => ({ u with members := [m] } : VUnit).sources.any (fun x =>
    (List.range u.rows).any (fun r => (x.1.ranges r x.2).any (fun a => rangesMeet a (w * 64, 64)))))).map VMember.entry

/-- Run a unit of element, special, reduction or top-k operations to its end. -/
def finishRows (p : Nat) (xs : List QEntry) (u : VUnit) (stalls : Nat) (s : State) : State :=
  let c := s.core p
  let rd := u.sources.flatMap (fun x => (List.range u.rows).flatMap (fun r => x.1.ranges r x.2))
  let wr := u.dests.flatMap (fun x => (List.range u.rows).flatMap (fun r => x.1.ranges r x.2))
  match c.slice.portCheck rd wr with
  | .refused => ((s.scrambleRanges p wr).noteRefused p |>.modCore p (fun c =>
      { c with vx := { c.vx with unit := [] } })).freezeCore p 0x1001
  | .bad w => ((s.scrambleRanges p wr).noteBad p w).vxFault p 0x0844
      ((u.readerOf w).getD (xs.headD { hdr := { core := p }, op := .vxk {} }))
  | .ok =>
    let beats := u.rows * ceilDiv u.l u.beat
    let v := s.readView p (overlapOf u.sources u.dests u.rows)
    (((List.range u.rows).foldl (fun s r => s.vxRow p c.vx u v.1 r) v.2).freeRanges p
      (overlapOf u.dests u.sources u.rows)).vxEnd p xs (8 + u.cost + stalls) beats (beats * u.members.length) stalls

/-- Run a gather or a scatter to its end: the moves in stream order, so that the larger index stays (R144). A destination
element that overlaps an index or a data element of another place is free (R148). -/
def finishMoves (p : Nat) (x : QEntry) (m : VMember) (u : VUnit) (stalls : Nat) (s : State) : State :=
  let c := s.core p
  let ix := match m.b with
    | .stream t => (List.range u.rows).flatMap (fun r => t.ranges r u.l)
    | _ => []
  match c.slice.portCheck ix [] with
  | .refused => ((s.noteRefused p).modCore p (fun c => { c with vx := { c.vx with unit := [] } })).freezeCore p 0x1001
  | .bad w => (s.noteBad p w).vxFault p 0x0844 x
  | .ok =>
    let mv := moves m u c.slice
    let good := mv.filterMap id
    let ea := match m.a with
      | .stream t => t.bits / 8
      | _ => 4
    let ed := (m.d.map (fun t => t.bits / 8)).getD 4
    let wr := good.map (fun q => (q.2, ed))
    let reads := good.filterMap (fun q => q.1.map (fun a => (a, ea)))
    if mv.any (fun q => q.isNone) then (s.scrambleRanges p wr).vxFault p 0x0841 x
    else match c.slice.portCheck reads wr with
      | .refused => (((s.scrambleRanges p wr).noteRefused p).modCore p (fun c =>
          { c with vx := { c.vx with unit := [] } })).freezeCore p 0x1001
      | .bad w => ((s.scrambleRanges p wr).noteBad p w).vxFault p 0x0844 x
      | .ok =>
        let beats := u.rows * ceilDiv u.l 64
        (good.foldl (fun s q =>
          let e := moveElem m c.slice q.1
          let clash := (reads.any (fun r => rangesMeet r (q.2, ed)) && decide (q.1 ≠ some q.2)) ||
            ix.any (fun r => rangesMeet r (q.2, ed))
          if clash then (s.freeRanges p [(q.2, ed)]).raiseVx p e.2
          else (s.modSlice p (fun sl => sl.write q.2 e.1)).raiseVx p e.2) s).vxEnd p [x]
          (8 + gatherCost u mv (decide (m.op = .gath)) + stalls) beats beats stalls

/-- The vector engine completes its unit (R76, R147). -/
def completeVector (p stalls : Nat) (s : State) : State :=
  let v := (s.core p).vx
  match v.unit with
  | [] => s
  | x :: rest =>
    if x.isSetup then
      (s.modCore p (fun c => { c with vx := setupEffect x c.vx })).vxEnd p [x] 1 0 0 0
    else match unitOf v (x :: rest) with
      | .error e => s.vxFault p e.1 e.2
      | .ok u =>
        match u.members with
        | [m] => if m.op.cls = .g then finishMoves p x m u stalls s else finishRows p (x :: rest) u stalls s
        | _ => finishRows p (x :: rest) u stalls s

/-! ## The commands -/

/-- The count field holds the chain tag; its bits [11:4] are reserved (R126). -/
def vxHeaderOk (h : InsnHdr) : Bool := decide (h.count.toNat < 16)

/-- Queue a vector operation. -/
def vopDecode (v : VOp) (h : InsnHdr) (o : VopOps) (s : State) : State :=
  engDecode .vector h (.vop v o false) (vxHeaderOk h) s

/-- VXDSC: queued; it sets a stream descriptor. -/
def execVxdsc (h : InsnHdr) (o : VxdscOps) (s : State) : Answer :=
  .next (engDecode .vector h (.vxdsc o) (vxHeaderOk h && decide (o.fmt.toNat < 8)) s)
/-- VXDSS: queued; it sets a descriptor's scale base. -/
def execVxdss (h : InsnHdr) (o : VxdssOps) (s : State) : Answer :=
  .next (engDecode .vector h (.vxdss o) (vxHeaderOk h) s)
/-- VXK: queued; it sets a constant register. -/
def execVxk (h : InsnHdr) (o : VxkOps) (s : State) : Answer := .next (engDecode .vector h (.vxk o) (vxHeaderOk h) s)
/-- VADD: d = a + b. -/
def execVadd (h : InsnHdr) (o : VopOps) (s : State) : Answer := .next (vopDecode .add h o s)
/-- VSUB: d = a - b. -/
def execVsub (h : InsnHdr) (o : VopOps) (s : State) : Answer := .next (vopDecode .sub h o s)
/-- VMUL: d = a × b. -/
def execVmul (h : InsnHdr) (o : VopOps) (s : State) : Answer := .next (vopDecode .mul h o s)
/-- VFMA: d = a × b + c, rounded once. -/
def execVfma (h : InsnHdr) (o : VopOps) (s : State) : Answer := .next (vopDecode .fma h o s)
/-- VMAX: maximum under R59. -/
def execVmax (h : InsnHdr) (o : VopOps) (s : State) : Answer := .next (vopDecode .max h o s)
/-- VMIN: minimum under R59. -/
def execVmin (h : InsnHdr) (o : VopOps) (s : State) : Answer := .next (vopDecode .min h o s)
/-- VABS: the magnitude of a. -/
def execVabs (h : InsnHdr) (o : VopOps) (s : State) : Answer := .next (vopDecode .abs h o s)
/-- VNEG: -a. -/
def execVneg (h : InsnHdr) (o : VopOps) (s : State) : Answer := .next (vopDecode .neg h o s)
/-- VCMP: 1.0 where the comparison holds, else +0. -/
def execVcmp (h : InsnHdr) (o : VopOps) (s : State) : Answer := .next (vopDecode .cmp h o s)
/-- VSEL: b where a is not ±0, else c. -/
def execVsel (h : InsnHdr) (o : VopOps) (s : State) : Answer := .next (vopDecode .sel h o s)
/-- VCVT: a in d's format, with stochastic rounding under fn[0]. -/
def execVcvt (h : InsnHdr) (o : VopOps) (s : State) : Answer := .next (vopDecode .cvt h o s)
/-- VEXP: exp(a). -/
def execVexp (h : InsnHdr) (o : VopOps) (s : State) : Answer := .next (vopDecode .exp h o s)
/-- VLOG: the natural logarithm of a. -/
def execVlog (h : InsnHdr) (o : VopOps) (s : State) : Answer := .next (vopDecode .log h o s)
/-- VRCP: 1 / a. -/
def execVrcp (h : InsnHdr) (o : VopOps) (s : State) : Answer := .next (vopDecode .rcp h o s)
/-- VRSQ: 1 / √a. -/
def execVrsq (h : InsnHdr) (o : VopOps) (s : State) : Answer := .next (vopDecode .rsq h o s)
/-- VTANH: tanh(a). -/
def execVtanh (h : InsnHdr) (o : VopOps) (s : State) : Answer := .next (vopDecode .tanh h o s)
/-- VSIGM: 1 / (1 + exp(-a)). -/
def execVsigm (h : InsnHdr) (o : VopOps) (s : State) : Answer := .next (vopDecode .sigm h o s)
/-- VRSUM: the sum of a row. -/
def execVrsum (h : InsnHdr) (o : VopOps) (s : State) : Answer := .next (vopDecode .rsum h o s)
/-- VRMAX: the maximum of a row. -/
def execVrmax (h : InsnHdr) (o : VopOps) (s : State) : Answer := .next (vopDecode .rmax h o s)
/-- VRMIN: the minimum of a row. -/
def execVrmin (h : InsnHdr) (o : VopOps) (s : State) : Answer := .next (vopDecode .rmin h o s)
/-- VRSSQ: the sum of squares of a row. -/
def execVrssq (h : InsnHdr) (o : VopOps) (s : State) : Answer := .next (vopDecode .rssq h o s)
/-- VSCAN: the inclusive prefix of a row. -/
def execVscan (h : InsnHdr) (o : VopOps) (s : State) : Answer := .next (vopDecode .scan h o s)
/-- VSMAX: the softmax running maximum. -/
def execVsmax (h : InsnHdr) (o : VopOps) (s : State) : Answer := .next (vopDecode .smax h o s)
/-- VSEXP: the softmax exponent with its rescale factor. -/
def execVsexp (h : InsnHdr) (o : VopOps) (s : State) : Answer := .next (vopDecode .sexp h o s)
/-- VSSUM: the softmax running sum. -/
def execVssum (h : InsnHdr) (o : VopOps) (s : State) : Answer := .next (vopDecode .ssum h o s)
/-- VTOPK: the k largest values of a row and their indices. -/
def execVtopk (h : InsnHdr) (o : VopOps) (s : State) : Answer := .next (vopDecode .topk h o s)
/-- VGATH: d[i] = a[b[i]]. -/
def execVgath (h : InsnHdr) (o : VopOps) (s : State) : Answer := .next (vopDecode .gath h o s)
/-- VSCAT: d[b[i]] = a[i]. -/
def execVscat (h : InsnHdr) (o : VopOps) (s : State) : Answer := .next (vopDecode .scat h o s)
/-- VHASH: the routing hash. -/
def execVhash (h : InsnHdr) (o : VopOps) (s : State) : Answer := .next (vopDecode .hash h o s)
/-- VROPE: the rotary embedding. -/
def execVrope (h : InsnHdr) (o : VopOps) (s : State) : Answer := .next (vopDecode .rope h o s)

/-- A.VOP: the class E, S or R operation that bits [63:56] name, unchained; bits [71:64] are zero (R152). An opcode
that names no such operation is reserved. -/
def execAVop (h : InsnHdr) (o : AvopOps) (s : State) : Answer :=
  match VOp.ofOpcode o.vop.toNat with
  | some v =>
    .next (engDecodeAs (avopWord h o) .vector h (.vop v { o.low with n := 0 } true)
      (decide (o.rsv8 = 0) && decide (v.cls ≠ .t) && decide (v.cls ≠ .g)) s)
  | none => .next (engDecodeAs (avopWord h o) .vector h (.vop .add { o.low with n := 0 } true) false s)

end Sys2Proof.Machine
end

