-- ==== Sys2Proof/Machine/Edu.lean ====
section
/-! DEFINITION. The expert dispatch unit (11): placement tables, gates, capacity, rows, returns, failures. Log entry 14. -/

namespace Sys2Proof.Machine

/-! ## The placement table (R277, R278) -/

/-- The version of a table. -/
def plVersion (t : List Byte) : Nat := fieldAt t 0 2
/-- The domain mask: bit m for board slot m. -/
def plMask (t : List Byte) : Nat := fieldAt t 2 1
/-- The number of MoE layers. -/
def plLayers (t : List Byte) : Nat := fieldAt t 3 1
/-- The effective step number. -/
def plStep (t : List Byte) : Nat := fieldAt t 4 4
/-- A field of the descriptor of layer `l`. -/
def plDesc (t : List Byte) (l off len : Nat) : Nat := fieldAt t (64 + 16 * l + off) len
/-- The experts E of layer `l`. -/
def plExperts (t : List Byte) (l : Nat) : Nat := plDesc t l 0 2
/-- The ranks k of layer `l`. -/
def plK (t : List Byte) (l : Nat) : Nat := plDesc t l 2 1
/-- Hash mode. -/
def plHash (t : List Byte) (l : Nat) : Bool := bitAt (plDesc t l 3 1) 0
/-- The salt. -/
def plSalt (t : List Byte) (l : Nat) : W32 := BitVec.ofNat 32 (plDesc t l 4 4)
/-- The instances value. -/
def plInstances (t : List Byte) (l : Nat) : Nat := plDesc t l 8 2
/-- The place of the entry of expert `e` of layer `l`. -/
def plEntry (t : List Byte) (l e : Nat) : Nat :=
  64 + 16 * plLayers t + 32 * ((List.range l).foldl (fun a i => a + plExperts t i) 0 + e)
/-- The cap of an expert. -/
def plCap (t : List Byte) (l e : Nat) : Nat := fieldAt t (plEntry t l e) 2
/-- The replicas of an expert. -/
def plRep (t : List Byte) (l e : Nat) : Nat := fieldAt t (plEntry t l e + 2) 1
/-- Placement `q` of an expert. -/
def plPlace (t : List Byte) (l e q : Nat) : Nat := fieldAt t (plEntry t l e + 4 + 2 * q) 2

/-- An instance: its expert, its replica, its cap, its board slot and its local index. -/
structure Instance where
  expert : Nat
  cap    : Nat
  slot   : Nat
  loc    : Nat
  deriving DecidableEq, Repr

/-- The instances of a layer, numbered in expert order. -/
def plInst (t : List Byte) (l : Nat) : List Instance :=
  (List.range (plExperts t l)).flatMap (fun e => (List.range (plRep t l e)).map (fun q =>
    let p := plPlace t l e q
    { expert := e, cap := plCap t l e, slot := p % 8, loc := bits p 13 3 }))

/-- The first instance of an expert. -/
def plFirst (t : List Byte) (l e : Nat) : Nat := (List.range e).foldl (fun a i => a + plRep t l i) 0

/-- The layer obeys R277, R282: ranges, reserved fields, the sum of instances, local indices dense in id order. -/
def plLayerOk (t : List Byte) (l : Nat) : Bool :=
  let ex := plExperts t l
  let is := plInst t l
  decide (1 ≤ ex ∧ ex ≤ 1024) && decide (1 ≤ plK t l ∧ plK t l ≤ 16) && decide (plDesc t l 3 1 ≤ 1) &&
  (!plHash t l || decide (plK t l ≤ ex)) && zeroAt t (64 + 16 * l + 10) 6 &&
  decide (1 ≤ plInstances t l ∧ plInstances t l ≤ 2048) &&
  (List.range ex).all (fun e =>
    let a := plEntry t l e
    decide (1 ≤ plCap t l e ∧ plCap t l e ≤ 4096) && decide (1 ≤ plRep t l e ∧ plRep t l e ≤ 8) && zeroAt t (a + 3) 1 &&
    (List.range (plRep t l e)).all (fun q => decide (plPlace t l e q < 2 ^ 14) &&
      bitAt (plMask t) (plPlace t l e q % 8)) &&
    zeroAt t (a + 4 + 2 * plRep t l e) (32 - 4 - 2 * plRep t l e)) &&
  decide (is.length = plInstances t l) &&
  (List.range 8).all (fun m =>
    let ls := (is.filter (fun i => decide (i.slot = m))).map Instance.loc
    decide (ls = List.range ls.length))

/-- A table obeys R277: its parts fill it exactly. -/
def plOk (t : List Byte) : Bool :=
  let n := plLayers t
  decide (64 ≤ t.length) && decide (1 ≤ n ∧ n ≤ 128) && decide (plMask t ≠ 0) && zeroAt t 8 56 &&
  decide (t.length = plEntry t n 0) && (List.range n).all (plLayerOk t)

/-- At a step start of a context, a pending table whose effective step has come replaces the current one (R278). -/
def Edu.takePending (e : Edu) (ctx step : Nat) : Edu :=
  match Tab.find e.pending ctx with
  | some t => if plStep t ≤ step then { e with current := [(ctx, t)], pending := [] } else e
  | none => e

/-! ## Jobs -/

/-- A field of the dispatch block (R279). -/
def EduJob.b (j : EduJob) (off len : Nat) : Nat := fieldAt j.block off len
/-- The layer. -/
def EduJob.layer (j : EduJob) : Nat := j.b 128 1
/-- The tokens of the half. -/
def EduJob.n (j : EduJob) : Nat := j.b 130 2
/-- The ranks. -/
def EduJob.k (j : EduJob) : Nat := plK j.tableBytes j.layer
/-- The instances of the layer. -/
def EduJob.insts (j : EduJob) : List Instance := plInst j.tableBytes j.layer
/-- The board slots of the domain, ascending. -/
def EduJob.domain (j : EduJob) : List Nat := onesOf (plMask j.tableBytes) 8

/-- The bytes of a row of `h` elements, and its size in an area, rounded up to 64 B. -/
def eduRow (h code : Nat) : Nat := h * elemBits code / 8

/-- The hidden size of a job's context, as its step read it (R246). -/
def State.hidden (s : State) (j : EduJob) : Nat := (s.ctxNow j.ctx).1.hidden.toNat

/-- PF BAR0 offset of a register of data half `d` (R293). -/
def duReg (d off : Nat) : Nat := eduReg (0x10000 + d * 0x10000 + off)

/-- The control island of drift die `d`, where its data half runs, is clocked (01 R27, R284). -/
def State.eduOn (s : State) (d : Nat) : Bool := s.islandOn (254 + d % 2)

/-- Change job `i`. -/
def State.modJob (s : State) (i : Nat) (f : EduJob → EduJob) : State :=
  { s with edu := { s.edu with jobs := s.edu.jobs.mapIdx (fun n j => if n = i then f j else j) } }

/-- Raise a counter of a logical core of a panel. -/
def State.raiseIn (s : State) (panel core ctr : Nat) : State :=
  match s.physIn panel core with
  | some p => s.raiseCtr p (BitVec.ofNat 8 ctr)
  | none => s

/-- Raise send_ctr, once. -/
def State.eduSendRaise (s : State) (i : Nat) (j : EduJob) : State :=
  if j.sendRaised then s else (s.raiseIn j.panel (j.b 190 1) (j.b 191 1)).modJob i (fun j => { j with sendRaised := true })
/-- Raise recv_ctr, once. -/
def State.eduRecvRaise (s : State) (i : Nat) (j : EduJob) : State :=
  if j.recvRaised then s else (s.raiseIn j.panel (j.b 192 1) (j.b 193 1)).modJob i (fun j => { j with recvRaised := true })
/-- Raise comb_ctr, once. -/
def State.eduCombRaise (s : State) (i : Nat) (j : EduJob) : State :=
  if j.combRaised then s else (s.raiseIn j.panel (j.b 194 1) (j.b 195 1)).modJob i (fun j => { j with combRaised := true })

/-- Add to the two halves of an entry of the load array (R293). -/
def State.loadAdd (s : State) (layer expert req ref : Nat) : State :=
  { s with counters := Tab.modify 0 s.counters (eduReg (0x100000 + (layer * 1024 + expert) * 8)) (fun v =>
      BitVec.ofNat 64 ((v.toNat + req) % 2 ^ 32 + (v.toNat / 2 ^ 32 + ref) % 2 ^ 32 * 2 ^ 32)) }

/-- Report a failure: the event and EDU_LAST (R291). -/
def State.eduReport (s : State) (j : EduJob) (status : Half) : State :=
  let s1 := s.event 0x4001
  { s1 with edu := { s1.edu with lastStatus := status, lastCtx := j.ctx, lastLayer := j.layer, lastHalf := j.die,
                                 lastValid := true } }

/-- The sequences of tokens receive a status (R291). -/
def State.eduFailToks (s : State) (j : EduJob) (status : Half) (p : Nat → Bool) : State :=
  s.failSeqs j.panel status (fun q => (j.slots.zipIdx).any (fun x => decide (x.1 = q.slot) && p x.2))

/-- The status of a read (R291). -/
def VaAns.status (a : VaAns) : Half :=
  match a with
  | .data _ => 0
  | .poison => 6
  | .fault => 0x900

/-- The combined row of a token: its admitted ranks in order (R286). `ys` gives the returned row of each rank. -/
def combine (h ret comb : Nat) (ys : List (W32 × List Byte)) : List Byte :=
  let acc := ys.foldl (fun acc y => (List.range h).map (fun e =>
    (fmaF y.1 (toFp32 (decodeF (ffmtOf ret) (elemAt ret y.2 e))).1 (acc.getD e 0)).1)) (List.replicate h 0)
  (convertRow comb false acc (fun _ => none)).1

/-- Write the combined row of token `t` from the returned rows in memory. The answer is 0, 6 where a returned row reads as poison,
or 0x900 where an access faults (R291). -/
def State.combineRow (s : State) (j : EduJob) (t : Nat) : Half × State :=
  let h := s.hidden j
  let ret := j.b 133 1
  let size := up64 (eduRow h ret)
  let mine := j.admitted.filter (fun a => decide (a.1 = t))
  let ranks := (List.range j.k).filter (fun r => mine.any (fun a => decide (a.2.1 = r)))
  let rd := ranks.foldl (fun (acc : Half × List (W32 × List Byte) × State) r =>
    let a := acc.2.2.readBy .other j.ctx (j.b 156 6 + (t * j.k + r) * size) (eduRow h ret)
    let w := ((j.gate.find? (fun g => decide (g.1 = t ∧ g.2.1 = r))).map (fun g => g.2.2.2)).getD 0
    (if acc.1 = 0 then a.1.status else acc.1, acc.2.1 ++ [(w, a.1.bytes)], a.2)) (0, [], s)
  let comb := j.b 134 1
  if rd.1 ≠ 0 then (rd.1, rd.2.2)
  else
    let w := rd.2.2.writeBy .other j.ctx (j.b 162 6 + t * up64 (eduRow h comb)) (combine h ret comb rd.2.1)
    (if w.1 then 0 else 0x900, w.2)

/-- Count assignments of a job as refused: the load array, the counter, the step's count and the capacity flag of the sequences
(R285). -/
def State.eduCountRefused (s : State) (j : EduJob) (xs : List (Nat × Nat)) : State :=
  let s1 := (j.gate.filter (fun g => xs.contains (g.1, g.2.1))).foldl (fun s g => s.loadAdd j.layer g.2.2.1 0 1) s
  let toks := xs.map (fun x => j.slots.getD x.1 0)
  (s1.count (duReg j.die 0x120) xs.length).modPanel j.panel (fun pn => { pn with running := pn.running.map (fun st =>
    { st with refused := st.refused + xs.length,
              seqs := st.seqs.map (fun q => if toks.contains q.slot then { q with overflow := true } else q) }) })

/-- The assignments of a job that are refused when it fails: those admitted, or, before capacity is assigned, every one that its gate named,
which then counts as requested too (R285, R291, R293). -/
def State.eduRefuseAll (s : State) (j : EduJob) : State :=
  if j.phase = .waitGo ∨ j.phase = .counting then
    (j.gate.foldl (fun s g => s.loadAdd j.layer g.2.2.1 1 0) s).eduCountRefused j (j.gate.map (fun g => (g.1, g.2.1)))
  else s.eduCountRefused j (j.admitted.map (fun a => (a.1, a.2.1)))

/-- A job fails at this module: every assignment is to or from it and is refused, nothing more is sent, the combined rows are +0,
its counters rise and its sequences receive the status (R285, R291). Log entry 14. -/
def State.eduFail (s : State) (i : Nat) (status : Half) : State :=
  match s.edu.jobs[i]? with
  | none => s
  | some j =>
    let s0 := s.eduRefuseAll j
    let s1 := (List.range j.n).foldl (fun s t => (s.combineRow { j with admitted := [] } t).2) s0
    let s2 := ((s1.eduSendRaise i j).eduRecvRaise i j).eduCombRaise i j
    let s3 := s2.failSeqs j.panel status (fun q => (j.slots.isEmpty && decide (j.n ≠ 0)) || j.slots.contains q.slot)
    ((s3.modJob i (fun j => { j with phase := .done, failed := some status })).eduReport j status).count (duReg j.die 0x100) 1

/-- The assignments of a token are refused: a poisoned row or gate entry touches it (R291). -/
def State.eduPoisonTok (s : State) (i : Nat) (j : EduJob) (t : Nat) : State :=
  let hit := (j.admitted.filter (fun a => decide (a.1 = t))).map (fun a => (a.1, a.2.1))
  (((s.eduCountRefused j hit).modJob i (fun j => { j with
    admitted := j.admitted.filter (fun a => decide (a.1 ≠ t)), refused := j.refused ++ hit })).eduFailToks j 6
    (fun x => decide (x = t))).eduReport j 6

/-- Combine a token of job `i`: a fault fails the job, and poison refuses the token, whose row is then +0 (R285, R291). -/
def State.eduCombine (s : State) (i t : Nat) : State :=
  match s.edu.jobs[i]? with
  | none => s
  | some j =>
    let a := s.combineRow j t
    if a.1 = 0 then a.2
    else if a.1 = 6 then
      let z := (a.2.eduPoisonTok i j t).combineRow { j with admitted := [] } t
      if z.1 = 0 then z.2 else z.2.eduFail i 0x900
    else a.2.eduFail i a.1

/-- A peer of a job fails it: the peer counts as directing nothing, and what goes to it will be refused (R291). The other
assignments of the half go on. Log entry 14. -/
def State.eduLose (s : State) (i : Nat) (m : Nat) (status : Half) : State :=
  match s.edu.jobs[i]? with
  | none => s
  | some j =>
    let s1 := s.failSeqs j.panel status (fun q => j.slots.contains q.slot)
    (s1.modJob i (fun j => { j with
      failed := some status, lost := m :: j.lost, counts := Tab.set j.counts m (List.replicate j.insts.length 0) })).eduReport j status

/-! ## Gates (R281 to R283) -/

/-- The experts of a token in hash mode (R282). -/
def hashExperts (k ex : Nat) (salt tok : W32) : List Nat :=
  (List.range k).foldl (fun acc j =>
    let e := (hashWord 1 tok (salt ^^^ BitVec.ofNat 32 (j * 0x9E3779B9)) (BitVec.ofNat 32 ex)).toNat
    acc ++ [((List.range ex).map (fun i => (e + i) % ex)).find? (fun e => !acc.contains e) |>.getD e]) []

/-- The instance that serves an expert for a token (R283). -/
def EduJob.instOf (j : EduJob) (boardSlot t e : Nat) : Nat :=
  let x := boardSlot * 65536 + j.slots.getD t 0
  plFirst j.tableBytes j.layer e + (hashWord 1 (BitVec.ofNat 32 x) (plSalt j.tableBytes j.layer ^^^ 0xA5A5A5A5)
    (BitVec.ofNat 32 (plRep j.tableBytes j.layer e))).toNat

/-- The assignments that a token's gate bytes name; `none` for an entry that R281 refuses. -/
def EduJob.gateOf (j : EduJob) (t : Nat) (bs : List Byte) : Option (List (Nat × Nat × Nat × W32)) :=
  let ex := plExperts j.tableBytes j.layer
  if plHash j.tableBytes j.layer then
    let w := (toFp32 (divV (.fin false 1 0) j.k)).1
    some ((hashExperts j.k ex (plSalt j.tableBytes j.layer) (BitVec.ofNat 32 (fieldAt bs 0 4))).zipIdx.map
      (fun e => (t, e.2, e.1, w)))
  else
    let es := (List.range j.k).map (fun r => (r, fieldAt bs (8 * r) 4, BitVec.ofNat 32 (fieldAt bs (8 * r + 4) 4)))
    if es.any (fun e => decide (bits e.2.1 14 10 ≠ 0) || decide (bits e.2.1 31 16 ≠ 0) || (!bitAt e.2.1 15 && decide (ex ≤ e.2.1 % 1024))) then none
    else some ((es.filter (fun e => !bitAt e.2.1 15)).map (fun e => (t, e.1, e.2.1 % 1024, e.2.2)))

/-- What the go phase reads: a status, the assignments, and the tokens whose gate entry is poisoned. -/
structure GateRead where
  status : Half := 0
  gate   : List (Nat × Nat × Nat × W32) := []
  poison : List Nat := []
  deriving DecidableEq, Repr

/-- Read the gate of every token, in order; the first fault or refused entry ends it. -/
def State.eduGate (s : State) (j : EduJob) : GateRead × State :=
  let size := if plHash j.tableBytes j.layer then 4 else 8 * j.k
  (List.range j.n).foldl (fun (acc : GateRead × State) t =>
    if acc.1.status ≠ 0 then acc
    else
      let a := acc.2.readBy .other j.ctx (j.b 144 6 + t * size) size
      match a.1 with
      | .fault => ({ acc.1 with status := 0x900 }, a.2)
      | .poison => ({ acc.1 with poison := acc.1.poison ++ [t] }, a.2)
      | .data bs =>
        match j.gateOf t bs with
        | none => ({ acc.1 with status := 2 }, a.2)
        | some g => ({ acc.1 with gate := acc.1.gate ++ g }, a.2)) ({}, s)

/-- The header of a message of a job, with `n` bytes of payload (R288). -/
def State.eduHdr (s : State) (j : EduJob) (kind inst row tok rank : Nat) (zeroed : Bool) (fmt n : Nat) : EduHdr :=
  { kind := kind, slot := s.walker.boardSlot, half := j.die, ctx := BitVec.ofNat 10 j.ctx, ctxGen := j.gen,
    keyGen := (s.slot (s.ctxNow j.ctx).1.linkSlot.toNat).gen, layer := j.layer, version := plVersion j.tableBytes,
    inst := inst, row := row, token := tok, rank := rank, zeroed := zeroed, fmt := fmt, step := j.step, bytes := n }

/-- The 64 B of a header (R288). -/
def eduHdrBytes (h : EduHdr) : List Byte :=
  [BitVec.ofNat 8 (h.kind % 16), BitVec.ofNat 8 (h.slot % 8 + h.half % 2 * 8)] ++ leBytes 2 h.ctx.toNat ++
  [h.ctxGen, h.keyGen, BitVec.ofNat 8 h.layer, 0] ++ leBytes 2 h.version ++ leBytes 2 (h.inst % 2048) ++ leBytes 2 h.row ++
  leBytes 2 h.token ++ [BitVec.ofNat 8 (h.rank % 16 + boolNat h.zeroed * 16), BitVec.ofNat 8 h.fmt] ++ zeros 2 ++
  leBytes 4 h.step.toNat ++ leBytes 4 h.bytes ++ zeros 36

/-- The key of segment `i` of a message (14 R366): layer, half, kind, instance and row, and the segment where a put has its chunk.
The spec places none of them. Log entry 21. -/
def eduKey (h : EduHdr) (i : Nat) : W64 :=
  BitVec.ofNat 64 (h.layer % 128 + h.half % 2 * 2 ^ 7 + h.kind % 16 * 2 ^ 8 + h.inst % 2 ^ 16 * 2 ^ 16 + h.row % 2 ^ 16 * 2 ^ 32 +
    i % 2 ^ 16 * 2 ^ 48)

/-- Send a message of a job to a module of the board: encrypted link messages of up to 4,096 B on vc 5, held until they are
acknowledged (R288, 14 R366 to R368). Where a row is longer, how it is cut is log entry 21. -/
def State.eduMsg (s : State) (dest : Nat) (j : EduJob) (h : EduHdr) (data : List Byte) : State :=
  let bs := eduHdrBytes h ++ data
  let n := (bs.length + 4095) / 4096
  (List.range n).foldl (fun s i =>
    let m : MsgHdr :=
      { dest := s.moduleAt dest, src := s.me, vc := 5, kind := 6, srcCtx := h.ctx, tenant := (s.ctxNow j.ctx).1.tenant,
        dstCtx := h.ctx, ctxGen := h.ctxGen, keyGen := h.keyGen, bytes := min 4096 (bs.length - 4096 * i), key := eduKey h i,
        last := decide (i + 1 = n) }
    s.sendOrWait m ((bs.drop (4096 * i)).take 4096) none) s

/-- The counts that this module directs to each instance (R284). -/
def EduJob.ownCounts (j : EduJob) (boardSlot : Nat) : List Nat :=
  let rs := j.gate.map (fun g => j.instOf boardSlot g.1 g.2.2.1)
  (List.range j.insts.length).map (fun r => rs.count r)

/-- The go phase: slots and gates are read, and every other module of the domain gets a count message (R280, R284). A poisoned
gate entry refuses the k assignments of its token, and a peer that has failed the job already gives its sequences their status (R291).
Log entry 14. -/
def State.eduGo (s : State) (i : Nat) (j : EduJob) : State :=
  let a := s.readBy .other j.ctx (j.b 150 6) (2 * j.n)
  match a.1 with
  | .fault => a.2.eduFail i 0x900
  | .poison => a.2.eduFail i 6
  | .data bs =>
    let j1 := { j with phase := .counting, slots := (List.range j.n).map (fun t => fieldAt bs (2 * t) 2) }
    let g := a.2.eduGate j1
    if g.1.status ≠ 0 then (g.2.modJob i (fun _ => { j1 with gate := g.1.gate })).eduFail i g.1.status
    else
      let own := g.2.walker.boardSlot
      let j2 := { j1 with gate := g.1.gate }
      let cs := j2.ownCounts own
      let s0 := g.2.modJob i (fun _ => { j2 with counts := Tab.set j2.counts own cs })
      let s1 := match j.failed with
        | some st => s0.eduFailToks j2 st (fun _ => true)
        | none => s0
      let s2 := if g.1.poison.isEmpty then s1
        else ((s1.eduFailToks j2 6 (fun t => g.1.poison.contains t)).eduCountRefused j2 (g.1.poison.flatMap (fun t =>
          (List.range j2.k).map (fun r => (t, r))))).eduReport j2 6
      (j.domain.filter (fun m => decide (m ≠ own))).foldl (fun s m =>
        s.eduMsg m j2 (s.eduHdr j2 1 0 0 0 0 false 0 (4 * cs.length)) (cs.flatMap (fun c => leBytes 4 c))) s2

/-- The job whose go word, or return word, stands at an HBM offset. -/
def State.jobAt (s : State) (ret : Bool) (offset : Nat) : Option (EduJob × Nat) :=
  s.edu.jobs.zipIdx.find? (fun x => decide ((if ret then x.1.retOff else x.1.goOff) = offset))

/-- A write at its home that covers byte 0 of a word and leaves it non-zero (R280). -/
def State.wordSet (s : State) (offset : Nat) : Bool :=
  s.islandOn (224 + stackOf offset) && decide (offset < hbmSize) && decide (Mem.read s.hbm.mem offset ≠ 0)

/-! ## Dropped messages (R288) -/

/-- A message of a context is dropped: counted, and the event is raised once per step of that context. -/
def State.eduDrop (s : State) (die ctx : Nat) : State :=
  let s1 := s.count (duReg die 0x128) 1
  if s1.edu.dropRaised.contains ctx then s1
  else { s1.event 0x4002 with edu := { s1.edu with dropRaised := ctx :: s1.edu.dropRaised } }

/-- A receiver takes a key generation that its slot holds as the present or the retiring one (17 R442). -/
def State.genCurrent (s : State) (slot : Nat) (g : BitVec 8) : Bool :=
  (decide ((s.slot slot).type ≠ 0) && decide ((s.slot slot).gen = g)) || decide ((s.slot slot).retiring = some g)

/-- The job that a message belongs to: resident context, its tag, the current key generation, the step in progress. -/
def State.jobOf (s : State) (h : EduHdr) : Option (EduJob × Nat) :=
  s.edu.jobs.zipIdx.find? (fun x => decide (x.1.ctx = h.ctx.toNat) && decide (x.1.gen = h.ctxGen) &&
    s.genCurrent (s.ctxNow x.1.ctx).1.linkSlot.toNat h.keyGen && decide (x.1.layer = h.layer) &&
    decide (x.1.die = h.half) && decide (x.1.step = h.step) && x.1.domain.contains h.slot && h.reservedZero)

/-! ## Capacity and sending (R284 to R286, R289) -/

/-- The domain in the order of a step: rotated by the step number. -/
def EduJob.order (j : EduJob) : List Nat :=
  let d := j.domain
  let r := j.step.toNat % d.length
  d.drop r ++ d.take r

/-- The rows that an instance gets from a module of the domain. -/
def EduJob.countAt (j : EduJob) (m r : Nat) : Nat := (Tab.get [] j.counts m).getD r 0

/-- The rows of instance `r` before module `m` in the order. -/
def EduJob.usedBefore (j : EduJob) (m r : Nat) : Nat :=
  ((j.order.takeWhile (fun x => decide (x ≠ m))).map (fun x => j.countAt x r)).foldl (· + ·) 0

/-- n_rows of instance `r`. -/
def EduJob.rowsOf (j : EduJob) (r cap : Nat) : Nat := min cap ((j.order.map (fun x => j.countAt x r)).foldl (· + ·) 0)

/-- The assignments in the order of the procedure: rank-major, then token. -/
def EduJob.ranked (j : EduJob) : List (Nat × Nat × Nat × W32) :=
  (List.range j.k).flatMap (fun r => j.gate.filter (fun g => decide (g.2.1 = r)))

/-- Run the procedure of R284 for this module; what goes to a peer that failed the job is refused (R291). -/
def EduJob.assign (j : EduJob) (own : Nat) : EduJob :=
  let is := j.insts
  let j0 := { j with nRows := is.mapIdx (fun r x => j.rowsOf r x.cap), phase := .sending }
  let used0 : Tab Nat := is.mapIdx (fun r _ => (r, j.usedBefore own r))
  ((j.ranked).foldl (fun (acc : Tab Nat × EduJob) g =>
    let r := j.instOf own g.1 g.2.2.1
    let u := Tab.get 0 acc.1 r
    if u < (is[r]?.map Instance.cap).getD 0 ∧ j.lost.contains ((is[r]?.map Instance.slot).getD 0) = false then
      (Tab.set acc.1 r (u + 1), { acc.2 with admitted := acc.2.admitted ++ [(g.1, g.2.1, r, u)] })
    else (acc.1, { acc.2 with refused := acc.2.refused ++ [(g.1, g.2.1)] })) (used0, j0)).2

/-- Report what was assigned: every assignment is a request of the load array, and the refused ones are counted (R285, R293). -/
def State.eduRefusals (s : State) (j : EduJob) : State :=
  (j.gate.foldl (fun s g => s.loadAdd j.layer g.2.2.1 1 0) s).eduCountRefused j j.refused

/-- The 8 B tag of a row: source slot, token, rank. -/
def eduTag (slot t r : Nat) : List Byte := leBytes 8 (slot + t * 8 + r * 2 ^ 19)

/-- Write a received row and its tag into the areas of a local instance (R279, R286); a fault fails the job (R291). -/
def State.eduPlace (s : State) (i : Nat) (j : EduJob) (inst row slot tok rank : Nat) (data : List Byte) : State :=
  let loc := (j.insts[inst]?.map Instance.loc).getD 0
  let size := up64 (eduRow (s.hidden j) (j.b 132 1))
  let base := loc * j.b 186 4
  let a := s.writeBy .other j.ctx (j.b 168 6 + base + row * size) data
  let b := a.2.writeBy .other j.ctx (j.b 180 6 + base + 64 + 8 * row) (eduTag slot tok rank)
  if a.1 && b.1 then b.2.modJob i (fun j => { j with received := j.received ++ [(inst, row)] }) else b.2.eduFail i 0x900

/-- The instances that this module hosts, with their number. -/
def EduJob.hosted (j : EduJob) (own : Nat) : List (Instance × Nat) := j.insts.zipIdx.filter (fun x => decide (x.1.slot = own))

/-- Every hosted instance holds all its rows. -/
def EduJob.allIn (j : EduJob) (own : Nat) : Bool :=
  (j.hosted own).all (fun x => (List.range (j.nRows.getD x.2 0)).all (fun a => j.received.contains (x.2, a)))

/-- A returned row is written, and the token is combined once all its admitted ranks have arrived (R286). -/
def State.eduArrive (s : State) (i : Nat) (t r : Nat) (data : List Byte) : State :=
  match s.edu.jobs[i]? with
  | none => s
  | some j =>
    let a := s.writeBy .other j.ctx (j.b 156 6 + (t * j.k + r) * up64 (eduRow (s.hidden j) (j.b 133 1))) data
    if !a.1 then a.2.eduFail i 0x900
    else
      let j1 := { j with returned := j.returned ++ [(t, r)] }
      let s1 := a.2.modJob i (fun _ => j1)
      if (j1.admitted.filter (fun x => decide (x.1 = t))).all (fun x => j1.returned.contains (t, x.2.1)) then s1.eduCombine i t
      else s1

/-- The rows of a job have all been sent, and the job has not ended. -/
def EduJob.sent (j : EduJob) : Bool := decide (j.phase = .waitReturn) || decide (j.phase = .returning)

/-- Close a job whose combined rows are all written: comb_ctr rises; it is done once its return phase has ended too. -/
def State.eduClose (s : State) (i : Nat) : State :=
  match s.edu.jobs[i]? with
  | none => s
  | some j =>
    if !j.sent || !j.admitted.all (fun x => j.returned.contains (x.1, x.2.1)) then s
    else
      let s1 := s.eduCombRaise i j
      if j.back then (s1.modJob i (fun j => { j with phase := .done })).count (duReg j.die 0x100) 1 else s1

/-- The module that sent row `a` of instance `r`, by the order of the counts (R284). -/
def EduJob.sourceOf (j : EduJob) (r a : Nat) : Nat :=
  (j.order.find? (fun m => decide (j.usedBefore m r ≤ a) && decide (a < j.usedBefore m r + j.countAt m r))).getD 0

/-- The host returns one row to the source of its tag; a row that was missing, and one whose output is poisoned, is +0 and carries
the zeroed bit (R286, R291). That poison is told to the source beside the header is log entry 14. -/
def State.eduReturnRow (s : State) (i : Nat) (j : EduJob) (x : Instance × Nat) (a : Nat) : State :=
  let own := s.walker.boardSlot
  let ret := j.b 133 1
  let n := eduRow (s.hidden j) ret
  let base := x.1.loc * j.b 186 4
  let o := s.readBy .other j.ctx (j.b 174 6 + base + a * up64 n) n
  let g := o.2.readBy .other j.ctx (j.b 180 6 + base + 64 + 8 * a) 8
  let tag := fieldAt g.1.bytes 0 8
  let late := j.zeroed.contains (x.2, a)
  let src := if late then j.sourceOf x.2 a else tag % 8
  let tok := if late then 0 else bits tag 18 3
  let rank := if late then 0 else bits tag 22 19
  let bad := decide (o.1 = .poison)
  let data := if late || bad then zeros n else padTo n o.1.bytes
  if (o.1 = .fault ∨ g.1.status ≠ 0) ∧ late = false then g.2.eduFail i 0x900
  else if src = own then
    match j.admitted.find? (fun y => decide (y.2.2.1 = x.2 ∧ y.2.2.2 = a)) with
    | none => g.2
    | some y =>
      if bad then (g.2.eduPoisonTok i j y.1).eduCombine i y.1
      else
        let s1 := if late then g.2.eduFailToks j 0x902 (fun t => decide (t = y.1)) else g.2
        s1.eduArrive i y.1 y.2.1 data
  else
    let h := g.2.eduHdr j 3 x.2 a tok rank (late || bad) ret n
    (g.2.eduMsg src j { h with poison := bad && !late } data).count (duReg j.die 0x118) 1

/-- The return phase: every row of every hosted instance goes back (R286). -/
def State.eduReturn (s : State) (i : Nat) (j : EduJob) : State :=
  let s1 := s.modJob i (fun j => { j with phase := if j.phase = .waitReturn then .returning else j.phase, back := true, returnHeld := false })
  let s2 := (j.hosted s.walker.boardSlot).foldl (fun s x =>
    (List.range (j.nRows.getD x.2 0)).foldl (fun s a =>
      match s.edu.jobs[i]? with
      | some j => if j.phase = .done then s else s.eduReturnRow i j x a
      | none => s) s) s1
  s2.eduClose i

/-- Once capacity is assigned and every hosted instance holds its rows, the row counts are written and recv_ctr rises, whether or
not the job's own rows have been sent; a return write that was held starts its phase (R286, R289). -/
def State.eduReceive (s : State) (i : Nat) : State :=
  match s.edu.jobs[i]? with
  | none => s
  | some j =>
    let own := s.walker.boardSlot
    if j.recvRaised || !(decide (j.phase = .sending) || j.sent) || !j.allIn own then s
    else
      let w := (j.hosted own).foldl (fun (acc : Bool × State) x =>
        let a := acc.2.writeBy .other j.ctx (j.b 180 6 + x.1.loc * j.b 186 4) (leBytes 2 (j.nRows.getD x.2 0))
        (acc.1 && a.1, a.2)) (true, s)
      let s2 := w.2.eduRecvRaise i j
      if !w.1 then w.2.eduFail i 0x900
      else if j.returnHeld then s2.eduReturn i { j with recvRaised := true } else s2

/-- Send one admitted row: a message to the host of its instance, or a local copy. A poisoned row refuses its token and a fault
fails the job (R286, R291). -/
def State.eduSendRow (s : State) (i : Nat) (a : Nat × Nat × Nat × Nat) : State :=
  match s.edu.jobs[i]? with
  | none => s
  | some j =>
    if j.phase ≠ .sending ∨ !j.admitted.contains a then s
    else
      let n := eduRow (s.hidden j) (j.b 132 1)
      let rd := s.readBy .other j.ctx (j.b 136 6 + a.1 * (j.b 142 2 * 64)) n
      match rd.1 with
      | .fault => rd.2.eduFail i 0x900
      | .poison => rd.2.eduPoisonTok i j a.1
      | .data bs =>
        let own := rd.2.walker.boardSlot
        let host := (j.insts[a.2.2.1]?.map Instance.slot).getD 0
        if host = own then rd.2.eduPlace i j a.2.2.1 a.2.2.2 own a.1 a.2.1 bs
        else (rd.2.eduMsg host j (rd.2.eduHdr j 2 a.2.2.1 a.2.2.2 a.1 a.2.1 false (j.b 132 1) n) bs).count (duReg j.die 0x108) 1

/-- Send every row of job `i`, then raise send_ctr and combine the tokens without an admitted rank (R285, R286). -/
def State.eduSend (s : State) (i : Nat) (j : EduJob) : State :=
  let s1 := j.admitted.foldl (fun s a => s.eduSendRow i a) s
  match s1.edu.jobs[i]? with
  | none => s1
  | some j1 =>
    if j1.phase ≠ .sending then s1
    else
      let s2 := (s1.eduSendRaise i j1).modJob i (fun j => { j with phase := if j.back then .returning else .waitReturn })
      let none' := (List.range j1.n).filter (fun t => !j1.admitted.any (fun a => decide (a.1 = t)))
      ((none'.foldl (fun s t => s.eduCombine i t) s2).eduReceive i).eduClose i

/-- A dispatch message of half 0 of a job's layer waits to be handed to the links; its key tells it (log entry 21). -/
def State.eduWaits (s : State) (j : EduJob) : Bool :=
  s.lnk.backlog.any (fun m => decide (m.hdr.kind = 6) && decide (m.hdr.srcCtx.toNat = j.ctx) &&
    decide (bits m.hdr.key.toNat 11 0 = j.layer % 128 + 2 * 2 ^ 8))

/-- Half 1 starts no send before half 0 of its layer has handed its last one to the links (R289). -/
def State.mayEduSend (s : State) (j : EduJob) : Bool :=
  decide (j.phase = .sending) &&
  (decide (j.die = 0) || !s.eduWaits j && !s.edu.jobs.any (fun x => decide (x.die = 0 ∧ x.layer = j.layer ∧ x.ctx = j.ctx) &&
    (decide (x.phase = .waitGo) || decide (x.phase = .counting) || decide (x.phase = .sending))))

/-- Start the sends that may start, those of half 0 first. -/
def State.eduPump (s : State) : State :=
  let is := List.range s.edu.jobs.length
  (is ++ is).foldl (fun s i =>
    match s.edu.jobs[i]? with
    | some j => if s.mayEduSend j then s.eduSend i j else s
    | none => s) s

/-! ## Placement revision (R290) -/

/-- A table becomes the pending one (R278). -/
def State.placePending (s : State) (ctx : Nat) (t : List Byte) : State := { s with edu := { s.edu with pending := [(ctx, t)] } }

/-- A table with a version and an effective step of the context's current domain step plus the lead (R290). -/
def State.stamped (s : State) (ctx v : Nat) (t : List Byte) : List Byte :=
  leBytes 2 v ++ slicedAt t 2 2 ++ leBytes 4 ((Tab.get (0 : W32) s.edu.steps ctx).toNat + s.mgt.placeLead) ++ t.drop 8

/-- The version of the last table of a context that this module knows: its revision, its pending table or its current one. -/
def State.lastVersion (s : State) (ctx : Nat) : Nat :=
  (([Tab.find s.edu.current ctx, Tab.find s.edu.pending ctx, (Tab.find s.edu.revisions ctx).map Prod.snd].filterMap id).map plVersion).foldl
    max 0

/-- The table of a revision: version + 1 (R290). -/
def State.revised (s : State) (ctx : Nat) (t : List Byte) : List Byte := s.stamped ctx (s.lastVersion ctx + 1) t

/-- The headframe writes a table to every module of the domain, itself included (R290, 18 R482). -/
def State.writeRevision (s : State) (ctx : Nat) (t : List Byte) : State :=
  let s1 := { s with edu := { s.edu with revisions := Tab.set s.edu.revisions ctx (s.time, t) } }
  ((onesOf (plMask t) 8).filter (fun m => decide (m ≠ s.walker.boardSlot))).foldl
    (fun s m => s.emit (.command m 0x0216 (leBytes 2 ctx ++ t)))
    (if bitAt (plMask t) s.walker.boardSlot then s1.placePending ctx t else s1)

/-- The count exchange has found that the last revision reached some module too late: the headframe writes the same table again,
with a later effective step (R290). -/
def State.reviseAgain (s : State) (ctx : Nat) : State :=
  match Tab.find s.edu.revisions ctx with
  | some x => if s.mgt.group.head then s.writeRevision ctx (s.stamped ctx (plVersion x.2) x.2) else s
  | none => s

/-! ## The commands of a job (R280, R284 to R289) -/

/-- EDU_GO_WRITE: a go write starts the dispatch phase; one that comes later raises E_EDU_GO_IGNORED. -/
def execEduGoWrite (offset : Nat) (s : State) : Answer :=
  match s.jobAt false offset with
  | none => .next s
  | some (j, i) =>
    if !(s.wordSet offset && s.eduOn j.die) then .next s
    else if j.phase = .waitGo then .next (s.eduGo i j).eduPump
    else .next (s.event 0x4003)

/-- EDU_COUNT_MSG: a peer's counts are held; another placement version fails the job, and the headframe writes the table again
(R284, R290, R291). A repeat is discarded by its key (14 R367). -/
def execEduCountMsg (h : EduHdr) (counts : List Nat) (s : State) : Answer :=
  if !s.eduOn h.half then .next s
  else match s.jobOf h with
    | none => .next (s.eduDrop (h.half % 2) h.ctx.toNat)
    | some (j, i) =>
      if j.lost.contains h.slot then .next (s.eduDrop j.die j.ctx)
      else if (Tab.find j.counts h.slot).isSome then .next s
      else if !(decide (j.phase = .waitGo) || decide (j.phase = .counting)) then .next (s.eduDrop j.die j.ctx)
      else if h.version ≠ plVersion j.tableBytes then .next ((s.eduLose i h.slot 0x901).reviseAgain j.ctx)
      else if counts.length ≠ j.insts.length ∨ h.bytes ≠ 4 * counts.length then .next (s.eduDrop j.die j.ctx)
      else .next (s.modJob i (fun j => { j with counts := Tab.set j.counts h.slot counts }))

/-- EDU_CAPACITY_ASSIGN: with the counts of every module of the domain, capacity is assigned, refusals are reported, and the
sends start. -/
def execEduCapacityAssign (die job : Nat) (s : State) : Answer :=
  match s.edu.jobs[job]? with
  | none => .next s
  | some j =>
    if !s.eduOn die || decide (j.die ≠ die) || decide (j.phase ≠ .counting) ||
        !j.domain.all (fun m => (Tab.find j.counts m).isSome) then .next s
    else
      let j1 := j.assign s.walker.boardSlot
      .next ((((s.modJob job (fun _ => j1)).eduRefusals j1).eduReceive job).eduPump)

/-- The row of a message lies within what this module computed: the instance stands here and the row is one that R284 gives its sender, or,
before the counts are all held, below the cap (R288). -/
def EduJob.rowOk (j : EduJob) (own src inst row : Nat) : Bool :=
  match j.insts[inst]? with
  | some x => decide (x.slot = own) && (if j.nRows.isEmpty then decide (row < x.cap)
      else decide (row < j.nRows.getD inst 0) && decide (j.sourceOf inst row = src))
  | none => false

/-- EDU_DISPATCH_MSG: a dispatch row is written with its tag; the last one raises recv_ctr. A repeat is discarded by its key (14 R367). -/
def execEduDispatchMsg (h : EduHdr) (row : List Byte) (s : State) : Answer :=
  if !s.eduOn h.half then .next s
  else match s.jobOf h with
    | none => .next (s.eduDrop (h.half % 2) h.ctx.toNat)
    | some (j, i) =>
      if j.received.contains (h.inst, h.row) && !j.zeroed.contains (h.inst, h.row) then .next s
      else if decide (j.phase = .done) || j.recvRaised || j.lost.contains h.slot || !j.rowOk s.walker.boardSlot h.slot h.inst h.row ||
          decide (row.length ≠ eduRow (s.hidden j) (j.b 132 1)) || decide (h.bytes ≠ row.length) then .next (s.eduDrop j.die j.ctx)
      else .next (((s.eduPlace i j h.inst h.row h.slot h.token h.rank row).count (duReg j.die 0x110) 1).eduReceive i).eduPump

/-- EDU_RETURN_WRITE: a return write starts the return phase, which waits for the job's own receive raise; one that comes later
raises E_EDU_GO_IGNORED (R280, R289). -/
def execEduReturnWrite (offset : Nat) (s : State) : Answer :=
  match s.jobAt true offset with
  | none => .next s
  | some (j, i) =>
    if !(s.wordSet offset && s.eduOn j.die) then .next s
    else if j.back || decide (j.phase = .done) then .next (s.event 0x4003)
    else if j.recvRaised then .next (s.eduReturn i j).eduPump
    else .next (s.modJob i (fun j => { j with returnHeld := true }))

/-- EDU_RETURN_MSG: a returned row is written and its token combined; a zeroed row fails its token's sequence (R286, R291). A repeat is
discarded by its key (14 R367). -/
def execEduReturnMsg (h : EduHdr) (row : List Byte) (s : State) : Answer :=
  if !s.eduOn h.half then .next s
  else match s.jobOf h with
    | none => .next (s.eduDrop (h.half % 2) h.ctx.toNat)
    | some (j, i) =>
      match j.admitted.find? (fun y => decide (y.2.2.1 = h.inst ∧ y.2.2.2 = h.row) &&
          (h.zeroed || decide (y.1 = h.token ∧ y.2.1 = h.rank))) with
      | none => .next (s.eduDrop j.die j.ctx)
      | some y =>
        if j.returned.contains (y.1, y.2.1) then .next s
        else if decide (j.phase = .done) || decide (row.length ≠ eduRow (s.hidden j) (j.b 133 1)) || decide (h.bytes ≠ row.length) then
          .next (s.eduDrop j.die j.ctx)
        else if h.poison then .next (((s.eduPoisonTok i j y.1).eduCombine i y.1).eduClose i).eduPump
        else
          let s1 := if h.zeroed then (s.eduFailToks j 0x902 (fun t => decide (t = y.1))).eduReport j 0x902 else s
          .next ((s1.eduArrive i y.1 y.2.1 row).eduClose i).eduPump

/-! ## Timeouts and cancelling (R291, R292) -/

/-- EDU_COUNT_TIMEOUT: a peer's counts have not come within count_timeout: the job fails. -/
def execEduCountTimeout (die job : Nat) (s : State) : Answer :=
  match s.edu.jobs[job]? with
  | none => .next s
  | some j =>
    if !s.eduOn die || decide (j.die ≠ die) || decide (j.phase ≠ .counting) ||
        j.domain.all (fun m => (Tab.find j.counts m).isSome) then .next s
    else .next ((j.domain.filter (fun m => (Tab.find j.counts m).isNone)).foldl (fun s m => s.eduLose job m 0x902) s)

/-- EDU_RECV_TIMEOUT: the host writes +0 rows in place of the missing ones and raises recv_ctr. -/
def execEduRecvTimeout (die job : Nat) (s : State) : Answer :=
  match s.edu.jobs[job]? with
  | none => .next s
  | some j =>
    let own := s.walker.boardSlot
    if !s.eduOn die || decide (j.die ≠ die) || !(decide (j.phase = .sending) || j.sent) || j.recvRaised || j.allIn own then .next s
    else
      let missing := (j.hosted own).flatMap (fun x =>
        ((List.range (j.nRows.getD x.2 0)).filter (fun a => !j.received.contains (x.2, a))).map (fun a => (x.2, a)))
      let n := eduRow (s.hidden j) (j.b 132 1)
      let s1 := missing.foldl (fun s m => s.eduPlace job j m.1 m.2 (j.sourceOf m.1 m.2) 0 0 (zeros n)) s
      let s2 := s1.modJob job (fun j => { j with zeroed := missing })
      .next ((s2.eduReport j 0x902).eduReceive job).eduPump

/-- Cancel the jobs of a context (R292). -/
def State.eduCancel (s : State) (ctx : Nat) : State :=
  { s with edu := { s.edu with jobs := s.edu.jobs.filter (fun j => decide (j.ctx ≠ ctx)) } }

/-- A job of a context has not raised comb_ctr yet. -/
def State.eduOpen (s : State) (ctx : Nat) : Bool := s.edu.jobs.any (fun j => decide (j.ctx = ctx) && !j.combRaised)

end Sys2Proof.Machine
end

