-- ==== Sys2Proof/Machine/Keys.lean ====
section
/-! DEFINITION. Key slots (17 R440 to R447): users of a generation, new material, destruction, rewriting, erasing, and the
opcode-free parts of sessions (17 R453, R457). -/

namespace Sys2Proof.Machine

/-! ## Users (R441) -/

/-- The steps that a panel holds. -/
def Panel.steps (pn : Panel) : List Step :=
  pn.running.toList ++ pn.queue ++ (pn.switched.map SavedStep.step).filter (fun x =>
    !pn.queue.any (fun y => decide (y.window = x.window) && (y.isComp == x.isComp)))

/-- The steps that captured a generation of a slot. -/
def State.stepUsers (s : State) (slot : Nat) (g : BitVec 8) : Nat :=
  (s.cmd.panels.map (fun e => (e.2.steps.filter (fun st => st.keyGens.contains (slot, g))).length)).foldl (· + ·) 0

/-- The dirty lines of a generation. -/
def State.lineUsers (s : State) (slot : Nat) (g : BitVec 8) : Nat :=
  (s.msc.lines.filter (fun e => decide (e.2.slot = slot) && decide (e.2.gen = g) && decide (0 < e.2.dirtyCount))).length

/-- The messages in the end-to-end buffers under a generation. -/
def State.msgUsers (s : State) (slot : Nat) (g : BitVec 8) : Nat :=
  (s.lnk.tx.map (fun e => (e.2.unacked.filter (fun m => decide (m.hdr.keyGen = g) &&
    decide ((s.ctx m.hdr.srcCtx.toNat).f.linkSlot.toNat = slot))).length)).foldl (· + ·) 0

/-- The users of a generation. -/
def State.usersOf (s : State) (slot : Nat) (g : BitVec 8) : Nat := s.stepUsers slot g + s.lineUsers slot g + s.msgUsers slot g

/-- The users of both generations of a slot (SEC_SLOT.users). -/
def State.slotUsers (s : State) (i : Nat) : Nat :=
  s.usersOf i (s.slot i).gen + (match (s.slot i).retiring with
    | some g => s.usersOf i g
    | none => 0)

/-! ## Material -/

/-- Draw new material: the next number. -/
def State.newMaterial (s : State) : Nat × State :=
  (s.sec.materials + 1, { s with sec := { s.sec with materials := s.sec.materials + 1 } })

/-- Drop every cache line of a generation of a slot (R445). -/
def State.dropGenLines (s : State) (slot : Nat) (g : BitVec 8) : State :=
  s.mscDropAll (fun _ l => decide (l.slot = slot) && decide (l.gen = g))

/-- Note a destroyed generation and its time. -/
def State.noteDestroyed (s : State) (slot : Nat) (g : BitVec 8) : State :=
  (s.modSlot slot (fun k => { k with destroyed := (g, s.time) :: k.destroyed.filter (fun d => decide (d.1 ≠ g)) })).count
    (secReg 0x128) 1

/-- Destroy the retiring generation of a slot: its material is gone and its lines are dropped (R445). -/
def State.destroyRetiring (s : State) (slot : Nat) : State :=
  match (s.slot slot).retiring with
  | none => s
  | some g =>
    ((s.modSlot slot (fun k => { k with retiring := none, retMaterial := 0 })).dropGenLines slot g).noteDestroyed slot g

/-- Destroy both generations of a slot and leave it empty; the generation counter stays (R446, R447). A session slot ends its
session (R453). -/
def State.emptySlot (s : State) (slot : Nat) : State :=
  let k := s.slot slot
  if k.type = 0 then s.modSlot slot (fun k => { k with closing := false })
  else
    let s1 := ((s.destroyRetiring slot).dropGenLines slot k.gen).noteDestroyed slot k.gen
    let s2 := s1.modSlot slot (fun k => { k with type := 0, tenant := 0, material := 0, shared := false, closing := false })
    { s2 with sec := { s2.sec with sessions := Tab.erase s2.sec.sessions slot } }

/-- The value that the next generation of a slot takes. -/
def State.nextGen (s : State) (slot : Nat) : BitVec 8 := (s.slot slot).gen + 1

/-- A generation value was destroyed within the last 20 ms, so that it may not be issued yet (R447). -/
def State.genBlocked (s : State) (slot : Nat) (g : BitVec 8) : Bool :=
  (s.slot slot).destroyed.any (fun d => decide (d.1 = g) && decide (s.time < d.2 + 20000000))

/-- Install material in a slot at a generation: an old generation becomes retiring (R445, R459). -/
def State.installKey (s : State) (slot type tenant : Nat) (g : BitVec 8) (shared : Bool) : State :=
  let m := s.newMaterial
  let s1 := m.2.modSlot slot (fun k => { k with
    type := type, tenant := tenant, gen := g, material := m.1,
    retiring := if k.type = 0 then none else some k.gen, retMaterial := if k.type = 0 then 0 else k.material,
    shared := shared, closing := false })
  { s1 with sec := { s1.sec with ivs := s1.sec.ivs.filter (fun e => decide (e.1 / 256 ≠ slot)) } }

/-- The slot may take a new generation now: no retiring generation has users, and the value is free (R445, R447). -/
def State.mayInstall (s : State) (slot : Nat) (g : BitVec 8) : Bool :=
  !s.genBlocked slot g && (match (s.slot slot).retiring with
    | none => true
    | some r => decide (s.usersOf slot r = 0))

/-- Regenerate slot 0 (R440, R462): the module's own memory slot. -/
def State.newSlot0 (s : State) : State :=
  let m := s.newMaterial
  m.2.modSlot 0 (fun k => { k with type := 1, tenant := 0, gen := k.gen + 1, material := m.1, retiring := none, retMaterial := 0 })

/-! ## Erasing (R446, R453, R457) -/

/-- Begin an erase: no new captures, and the dirty lines are written back. -/
def State.beginErase (s : State) (slot : Nat) : State := (s.mscClean slot).modSlot slot (fun k => { k with closing := true })

/-- A slot takes new captures: it is not being erased (R446). -/
def State.slotOpen (s : State) (i : Nat) : Bool := !(s.slot i).closing

end Sys2Proof.Machine
end

