-- ==== Sys2Proof/Machine/StepRun.lean ====
section
/-! DEFINITION. STEP_RUN (12 R306 to R309): points 1 to 3, the checks of its parameters and tables, and the way into the
queue of its panel with its grant (point 4). -/

namespace Sys2Proof.Machine

/-! ## The parameters (R306) -/

/-- The sequences of a step. -/
def nSeq (ps : List Byte) : Nat := fieldAt ps 8 2
/-- The sequences with candidate trees. -/
def nTree (ps : List Byte) : Nat := fieldAt ps 10 2
/-- The length buckets. -/
def nBuckets (ps : List Byte) : Nat := fieldAt ps 82 1
/-- The dispatch blocks. -/
def nDisp (ps : List Byte) : Nat := fieldAt ps 100 2
/-- The bytes of the program image. -/
def progBytes (ps : List Byte) : Nat := fieldAt ps 64 4
/-- Where the image goes in a slice. -/
def progLocal (ps : List Byte) : Nat := fieldAt ps 68 4
/-- The deadline, 0 for none. -/
def deadlineNs (ps : List Byte) : Nat := fieldAt ps 72 8
/-- The fallback context, if the field is valid. -/
def fallbackCtx (ps : List Byte) : Option Nat := if bitAt (fieldAt ps 80 2) 15 then some (fieldAt ps 80 2 % 1024) else none
/-- Edge `i` of the length buckets. -/
def edgeAt (ps : List Byte) (i : Nat) : Nat := fieldAt ps (104 + 4 * i) 4
/-- The first core and the core count of bucket `b`. -/
def bucketRange (ps : List Byte) (b : Nat) : Nat × Nat := (fieldAt ps (168 + 8 * b) 1, fieldAt ps (169 + 8 * b) 1)
/-- The entry address of bucket `b`. -/
def bucketEntry (ps : List Byte) (b : Nat) : Nat := fieldAt ps (172 + 8 * b) 4
/-- The logical cores of bucket `b`. -/
def bucketCores (ps : List Byte) (b : Nat) : List Nat :=
  (List.range (bucketRange ps b).2).map (fun i => (bucketRange ps b).1 + i)

/-- The bucket of a length h + t (10 R271). -/
def bucketOf (ps : List Byte) (len : Nat) : Nat :=
  ((List.range (nBuckets ps - 1)).filter (fun i => decide (edgeAt ps i ≤ len))).length

/-- An address field holds a 64 B-aligned virtual address in [47:0]. -/
def vaFieldOk (ps : List Byte) (off : Nat) : Bool := decide (fieldAt ps off 8 < 2 ^ 48) && decide (fieldAt ps off 8 % 64 = 0)

/-- The fields of R306 by themselves. -/
def paramsOk (ps : List Byte) (cls : Nat) : Bool :=
  decide (ps.length = 320) && [0, 16, 24, 32, 48, 56, 88].all (vaFieldOk ps) && decide (fieldAt ps 40 8 % 64 = 0) &&
  decide (1 ≤ nSeq ps ∧ nSeq ps ≤ 2048) && decide (nTree ps ≤ nSeq ps) &&
  decide (progBytes ps % 64 = 0 ∧ progBytes ps ≤ 262144) &&
  decide (progLocal ps % 64 = 0 ∧ progLocal ps < 0x200000 ∧ progLocal ps + progBytes ps ≤ 0x200000) &&
  decide (bits (fieldAt ps 80 2) 14 10 = 0) && decide (1 ≤ nBuckets ps ∧ nBuckets ps ≤ 16) && zeroAt ps 83 1 &&
  (decide (cls = 0) || zeroAt ps 96 4) && decide (nDisp ps ≤ 256) && zeroAt ps 102 2 && zeroAt ps 164 4 && zeroAt ps 296 24

/-- The bucket edges and core ranges of a panel (10 R271). -/
def bucketsOk (ps : List Byte) (cores : List Nat) : Bool :=
  let nb := nBuckets ps
  (List.range (nb - 1)).all (fun i => decide (edgeAt ps i < 2 ^ 24) &&
    (decide (i = 0) || decide (edgeAt ps (i - 1) < edgeAt ps i))) &&
  zeroAt ps (104 + 4 * (nb - 1)) (60 - 4 * (nb - 1)) &&
  (List.range nb).all (fun b => decide ((bucketRange ps b).2 ≤ 144) && zeroAt ps (170 + 8 * b) 2 &&
    decide (bucketEntry ps b < 2 ^ 21 ∧ bucketEntry ps b % 16 = 0)) &&
  zeroAt ps (168 + 8 * nb) (128 - 8 * nb) &&
  (let ids := (List.range nb).flatMap (bucketCores ps)
   ids.all (fun l => cores.contains l) && decide (ids.dedup.length = ids.length))

/-- Point 2: the status of the parameters, 0 where they pass (R306, R309, R437, 15 R407). A fallback context that is not bound belongs to no
tenant and is met at point 4 (13 R349). Log entry 67. -/
def State.point2 (s : State) (ps : List Byte) (c : Nat) : Nat :=
  let f := (s.ctx c).f
  let k := f.panel.toNat
  let fb := match fallbackCtx ps with
    | some x => !(s.ctx x).bound || decide ((s.ctx x).f.tenant = f.tenant)
    | none => true
  if !paramsOk ps f.cls.toNat || !bucketsOk ps (s.panelLogical k) || !fb then 2
  else if progBytes ps = 0 ∧ (s.panel k).slept = true then 2
  else if ((List.range (nBuckets ps)).flatMap (bucketCores ps)).any (fun l => (s.physIn k l).isNone) then 0x1100
  else 0

/-! ## Point 1: keys (17 R441) -/

/-- The key slots that a context names: its memory slot, its link slot and its session slots. -/
def ctxSlots (f : CtxFields) : List Nat :=
  f.memSlot.toNat :: ((f.linkSlot :: f.sessions).map BitVec.toNat).filter (fun i => decide (i ≠ 0))

/-- A slot has a type and a tenant. -/
def State.slotIs (s : State) (i type tenant : Nat) : Bool :=
  decide ((s.slot i).type = type) && decide ((s.slot i).tenant = tenant)

/-- Every named slot is of its type and of the tenant, and a dispatch domain of more than one module has a link slot. -/
def State.keysOk (s : State) (c : Nat) (ps : List Byte) (table : List Byte) : Bool :=
  let f := (s.ctx c).f
  let t := f.tenant.toNat
  (ctxSlots f).all s.slotOpen && s.memSlotOk f.memSlot.toNat t && (decide (f.linkSlot = 0) || s.slotIs f.linkSlot.toNat 2 t) &&
  f.sessions.all (fun x => decide (x = 0) || s.slotIs x.toNat 3 t) &&
  (decide (nDisp ps = 0) || decide (f.linkSlot ≠ 0) || decide ((onesOf (plMask table) 8).length ≤ 1))

/-- The placement table that a step of a context uses: the pending one where its step has come (11 R278). -/
def State.stepTable (s : State) (c : Nat) (ps : List Byte) : List Byte :=
  Tab.get [] (s.edu.takePending c (fieldAt ps 84 4)).current c

/-! ## Point 3 (R307, R309) -/

/-- The status that a fault kind of a table gives. -/
def tableStatus (kind : Nat) : Nat := if kind = 0 then 0 else if kind = 3 then 6 else 0x0D07

/-- Translate a list of (address, length, write) ranges for an agent; the first failure is the answer. -/
def State.rangesKind (s : State) (g : Agent) (c : Nat) (rs : List (Nat × Nat × Bool)) : Nat × State :=
  rs.foldl (fun acc r => if acc.1 ≠ 0 then acc else acc.2.rangeKind g c r.1 r.2.1 r.2.2) (0, s)

/-- The tables that STEP_RUN names, and the sealed I/O table of a secure context (17 R454). -/
def stepTables (ps : List Byte) (f : CtxFields) : List (Nat × Nat × Bool) :=
  [(fieldAt ps 0 8, 16 * nSeq ps, false), (fieldAt ps 16 8, 64 * nTree ps, false),
   (fieldAt ps 24 8, 17472 * nTree ps, true), (fieldAt ps 32 8, 16384 * nBuckets ps, true),
   (fieldAt ps 56 8, progBytes ps, false), (fieldAt ps 88 8, 8 * nDisp ps, false)] ++
  (if f.secure && decide (f.sealedIo ≠ 0) then [(f.sealedIo.toNat, 16384, true)] else [])

/-- Entry `i` of the sequence table (R307). -/
def seqAt (bs : List Byte) (i : Nat) : SeqEntry :=
  let a := 16 * i
  let fl := fieldAt bs (a + 8) 1
  { slot := fieldAt bs a 2, h := fieldAt bs (a + 2) 3, t := fieldAt bs (a + 5) 3 + 1, eligible := bitAt fl 0,
    tree := bitAt fl 1, nodes := fieldAt bs (a + 9) 1, ordinal := fieldAt bs (a + 10) 2 }

/-- The reserved fields of entry `i`. -/
def seqRsvOk (bs : List Byte) (i : Nat) : Bool :=
  let a := 16 * i
  decide (fieldAt bs (a + 8) 1 < 4) && (bitAt (fieldAt bs (a + 8) 1) 1 || zeroAt bs (a + 9) 3) && zeroAt bs (a + 12) 4

/-- The rules of R307 over the sequences. -/
def seqsOk (ps : List Byte) (q : List SeqEntry) : Bool :=
  let trees := q.filter SeqEntry.tree
  decide ((q.map SeqEntry.t).foldl (· + ·) 0 ≤ 65536) && decide ((q.map SeqEntry.slot).dedup.length = q.length) &&
  q.all (fun x => decide (x.t ≤ 65536) && decide (x.h + x.t ≤ 2 ^ 24) &&
    (!x.tree || (decide (1 ≤ x.nodes ∧ x.nodes ≤ 64) && decide (x.t = x.nodes))) &&
    (!x.eligible || (fallbackCtx ps).isSome)) &&
  decide (trees.length = nTree ps) && (List.range (nTree ps)).all (fun o => trees.any (fun x => decide (x.ordinal = o))) &&
  q.all (fun x => decide (0 < (bucketRange ps (bucketOf ps (x.h + x.t))).2))

/-- The parent bytes of a tree of `n` nodes obey R267: the root first, parents below their nodes, at most 16 leaves. -/
def treeOk (par : List Byte) (n : Nat) : Bool :=
  decide (fieldAt par 0 1 = 0xFF) && (List.range n).all (fun i => decide (i = 0) || decide (fieldAt par i 1 < i)) &&
  decide (((List.range n).filter (fun i => (List.range n).all (fun j => decide (j = 0) || decide (fieldAt par j 1 ≠ i)))).length ≤ 16)

/-- Translate the KV request page of a context: a writable 2 MiB leaf in this module's HBM. `true` with its registration, if it has a
page; `false` where it fails (10 R254). -/
def State.checkKv (s : State) (c : Nat) : (Bool × Option KvsReg) × State :=
  let x := s.ctx c
  let pn := (s.panel x.f.panel.toNat).entry
  if x.f.kvPage = 0 then ((true, none), s)
  else
    let va := x.f.kvPage.toNat
    let a := s.walk (.mask pn.wayMask) true c x.f.root.toNat x.f.tenant.toNat pn.setMask.toNat va true
    match a.1 with
    | .fault _ _ => ((false, none), a.2)
    | .leaf e large _ =>
      match a.2.ownHbm (leafAddr e large va) with
      | none => ((false, none), a.2)
      | some off =>
        if !large || va % 2097152 ≠ 0 || !a.2.memSlotOk (pteSlot e) x.f.tenant.toNat then ((false, none), a.2)
        else ((true, some { panel := x.f.panel.toNat, frame := off / 2097152, keySlot := pteSlot e, ctx := c, gen := x.gen,
                            cls := a.2.classInForce c }), a.2)

/-- Translate the KV request page and offer its registration. -/
def State.registerKv (s : State) (c : Nat) : (Bool × Option KvsReg) × State :=
  let a := s.checkKv c
  (a.1, match a.1.2 with
    | some g => a.2.offerKv g
    | none => a.2)

/-- The link post page: writable and in this module's HBM; its registration (14 R370). -/
def State.registerPost (s : State) (c : Nat) : Bool × State :=
  let x := s.ctx c
  if x.f.postPage = 0 then (true, s)
  else
    let a := s.walkBy .own c x.f.postPage.toNat true
    match a.1 with
    | .fault _ | .peer _ _ => (false, a.2)
    | .ok off r =>
      if x.f.postPage.toNat % 65536 ≠ 0 then (false, a.2)
      else (true, { a.2 with lnk := { a.2.lnk with posts := a.2.lnk.posts.filter (fun g => decide (g.ctx ≠ c)) ++
        [{ panel := x.f.panel.toNat, frame := off / 65536, keySlot := r.slot, ctx := c, gen := x.gen }] } })

/-- End the registration of a context's link post page. -/
def State.unregisterPost (s : State) (c : Nat) : State :=
  { s with lnk := { s.lnk with posts := s.lnk.posts.filter (fun g => decide (g.ctx ≠ c)) } }

/-- End both registrations of a context. -/
def State.unregister (s : State) (c : Nat) : State := (s.unregisterKvs c).unregisterPost c

/-- A step for which `p` holds is queued or switched out on some panel, or runs there. -/
def State.anyStep (s : State) (p : Step → Bool) : Bool :=
  s.cmd.panels.any (fun (e : Nat × Panel) => e.2.queue.any p || e.2.running.any p || e.2.switched.any (fun v => p v.step))

/-- A step of a context is over: its registrations end, but for those that another step of the context holds, such as a companion that runs
in it (R309, 13 R349). -/
def State.release (s : State) (c : Nat) : State :=
  let of (st : Step) : Bool := decide (st.ctx = c)
  let s1 := if s.cmd.panels.any (fun (e : Nat × Panel) => e.2.running.any of) then s else s.unregisterKvs c
  if s.anyStep of then s1 else s1.unregisterPost c

/-- A format code that token, output and combined rows may have: FP32 where allowed, bfloat16, FP16 (11 R279). -/
def eduFmtOk (code : Nat) (fp32Ok : Bool) : Bool := decide (code = 1) || decide (code = 2) || (fp32Ok && decide (code = 0))

/-- A dispatch block's fields obey R279, R280 for a table and a hidden size. -/
def blockOk (b table : List Byte) (h : Nat) : Bool :=
  let addr (o : Nat) : Bool := decide (fieldAt b o 6 % 64 = 0)
  decide (fieldAt b 128 1 < plLayers table) && decide (fieldAt b 129 1 < 2) && decide (fieldAt b 130 2 ≤ 32768) &&
  eduFmtOk (fieldAt b 132 1) false && eduFmtOk (fieldAt b 133 1) true && eduFmtOk (fieldAt b 134 1) true && zeroAt b 135 1 &&
  [136, 144, 150, 156, 162, 168, 174, 180].all addr && zeroAt b 196 60 &&
  decide (eduRow h (fieldAt b 132 1) ≤ fieldAt b 142 2 * 64) && decide (fieldAt b 186 4 % 64 = 0)

/-- The areas of a dispatch block with their lengths, which must be present, writable and in this module's HBM (R280). -/
def blockAreas (b table : List Byte) (h own : Nat) : List (Nat × Nat × Bool) :=
  let l := fieldAt b 128 1
  let n := fieldAt b 130 2
  let k := plK table l
  let hosted := ((plInst table l).filter (fun i => decide (i.slot = own))).length
  let inst := hosted * fieldAt b 186 4
  [(fieldAt b 136 6, n * fieldAt b 142 2 * 64, true),
   (fieldAt b 144 6, n * (if plHash table l then 4 else 8 * k), true), (fieldAt b 150 6, 2 * n, true),
   (fieldAt b 156 6, n * k * up64 (eduRow h (fieldAt b 133 1)), true), (fieldAt b 162 6, n * up64 (eduRow h (fieldAt b 134 1)), true),
   (fieldAt b 168 6, inst, true), (fieldAt b 174 6, inst, true), (fieldAt b 180 6, inst, true)]

/-- Read and translate one dispatch block at a virtual address (R280): its status and the block. -/
def State.readBlock (s : State) (c va : Nat) (table : List Byte) : Nat × StepBlock × State :=
  let none' : StepBlock := ⟨0, 0, 0, 0, []⟩
  if 2 ^ 48 ≤ va ∨ va % 64 ≠ 0 then (2, none', s)
  else
    let g := s.walkOwn c va true
    let r := g.2.walkOwn c (va + 64) true
    let a := r.2.readVa c va 256
    match g.1, r.1, a.1 with
    | .ok go gr, .ok ret rr, .data b =>
      if !blockOk b table (s.ctx c).f.hidden.toNat then (2, none', a.2)
      else
        let k := a.2.rangesKind .own c (blockAreas b table (s.ctx c).f.hidden.toNat s.walker.boardSlot)
        (if k.1 = 0 then 0 else 0x900, ⟨go, ret, gr.slot, rr.slot, b⟩, k.2)
    | _, _, .poison => (6, none', a.2)
    | _, _, _ => (0x900, none', a.2)

/-- Read every dispatch block in order; the first failure is the answer. -/
def State.readBlocks (s : State) (c : Nat) (table : List Byte) (vas : List Nat) : Nat × List StepBlock × State :=
  vas.foldl (fun acc va =>
    if acc.1 ≠ 0 then acc
    else
      let a := acc.2.2.readBlock c va table
      (a.1, acc.2.1 ++ [a.2.1], a.2.2)) (0, [], s)

/-- What point 3 ends with. -/
structure Point3 where
  status  : Nat
  seqs    : List SeqEntry := []
  parents : List (List Byte) := []
  blocks  : List StepBlock := []
  kv      : Option KvsReg := none
  deriving DecidableEq, Repr

/-- The reads and the registrations of point 3, after its translations. -/
def State.point3b (s : State) (c : Nat) (ps table : List Byte) : Point3 × State :=
  let a := s.readVa c (fieldAt ps 0 8) (16 * nSeq ps)
  let b := a.2.readVa c (fieldAt ps 16 8) (64 * nTree ps)
  let d := b.2.readVa c (fieldAt ps 88 8) (8 * nDisp ps)
  match a.1, b.1, d.1 with
  | .data sq, .data tp, .data dl =>
    let q := (List.range (nSeq ps)).map (seqAt sq)
    let par := (List.range (nTree ps)).map (fun o => slicedAt tp (64 * o) 64)
    if !((List.range (nSeq ps)).all (seqRsvOk sq) && seqsOk ps q &&
        q.all (fun x => !x.tree || treeOk (par.getD x.ordinal []) x.nodes)) then ({ status := 2 }, d.2)
    else
      let kv := d.2.registerKv c
      if !kv.1.1 then ({ status := 0x0802 }, kv.2)
      else
        let po := kv.2.registerPost c
        if !po.1 then ({ status := 0x0A00 }, po.2)
        else if nDisp ps ≠ 0 ∧ table = [] then ({ status := 2 }, po.2)
        else
          let bl := po.2.readBlocks c table ((List.range (nDisp ps)).map (fun i => fieldAt dl (8 * i) 8))
          ({ status := bl.1, seqs := q, parents := par, blocks := bl.2.1, kv := kv.1.2 }, bl.2.2)
  | _, _, _ => ({ status := 6 }, d.2)

/-- Point 3. A failure withdraws the registrations already made. -/
def State.point3 (s : State) (c : Nat) (ps table : List Byte) : Point3 × State :=
  let k := s.rangesKind .table c (stepTables ps (s.ctx c).f)
  if k.1 ≠ 0 then ({ status := tableStatus k.1 }, k.2)
  else
    let r := k.2.point3b c ps table
    if r.1.status = 0 then r else (r.1, r.2.release c)

/-! ## Moved sequences (13 R349) -/

/-- The sequences of a step that its companion takes: those in the moved set with eligible = 1. -/
def State.movedOut (s : State) (c : Nat) (q : List SeqEntry) : List SeqEntry :=
  q.filter (fun x => x.eligible && (s.ctx c).moved.contains x.slot)

/-- The template that the mailbox registered for a context with a fallback context that is still bound (R349, 18 R476). -/
def State.fallbackOf (s : State) (c : Nat) (fb : Option Nat) : Option (Nat × Fallback) :=
  match fb, (s.ctx c).fallback with
  | some x, some t => if (s.ctx x).bound ∧ t.fallback = x then some (x, t) else none
  | _, _ => none

/-! ## Point 4 (R309, R332, 15 R399) -/

/-- A step joins the queue of its panel; a rise above the allowance waits for a grant. -/
def State.joinQueue (s0 : State) (k : Nat) (st : Step) (model : Half) : State :=
  let s := s0.wakePanel k
  let rise := s.stepRise k model st.hints
  if s.grantFree k then s.modPanel k (fun pn => { pn with queue := pn.queue ++ [st] })
  else if rise ≤ s.allowance then (s.modPanel k (fun pn => { pn with queue := pn.queue ++ [st] })).takeRise rise
  else
    let need := rise - s.allowance
    ((s.modPanel k (fun pn => { pn with queue := pn.queue ++
      [{ st with granted := false, needW := need, waitSince := s.time, limited := true }] })).takeRise s.allowance).waitGrant
        st.needKey need

/-- Some panel holds a step of a window. -/
def State.hasStep (s : State) (k : Nat) : Bool :=
  (Tab.keys s.cmd.panels).any (fun p =>
    (s.panel p).queue.any (fun x => decide (x.window = k) && !x.isComp) ||
    (s.panel p).running.any (fun x => decide (x.window = k) && !x.isComp) ||
    (s.panel p).switched.any (fun x => decide (x.step.window = k)))

/-- The companion of a step: the moved sequences in the fallback context, which queues on that context's panel with the entries and
the request page of that context. -/
def State.startCompanion (s : State) (st : Step) (fb : Nat) (t : Fallback) (out : List SeqEntry) (kv : Option KvsReg) : State :=
  let x := s.ctx fb
  let co : Step :=
    { st with
      ctx := fb, cls := x.f.cls.toNat, gen := x.gen, seqs := out, parents := [], blocks := [], companion := none,
      isComp := true, hints := none, nextEvent := none, f := x.f, entry := (s.panel x.f.panel.toNat).entry, place := [], placeNew := false,
      template := some t, kv := kv }
  s.joinQueue x.f.panel.toNat co x.f.model

/-- A step starts under the table that it read as the pending one, which becomes the current one, and the module confirms it (11 R278,
R290). A table written since stays pending. -/
def State.takePlacement (s : State) (st : Step) : State :=
  if !st.placeNew then s
  else
    let e := s.edu
    let left := if Tab.find e.pending st.ctx = some st.place then [] else e.pending
    ({ s with edu := { e with current := [(st.ctx, st.place)], pending := left } } : State).emit
      (.placed st.ctx (plVersion st.place) (BitVec.ofNat 32 (fieldAt st.params 84 4)))

/-- A checked step joins its panel's queue, at point 4 (13 R332). It holds the entries that it read at point 1 (01 R21); nothing of the
context is changed before it has passed that point (R309). -/
def State.enqueueStep (s : State) (c k : Nat) (p : Packet) (r : Point3) : State :=
  let f := (s.ctx c).f
  let st : Step :=
    { window := k, ctx := c, cls := f.cls.toNat, gen := (s.ctx c).gen, tag := p.tag, irq := p.irq, params := p.params,
      seqs := r.seqs, parents := r.parents, blocks := r.blocks, start := s.clk.now, doorbell := p.doorbell,
      keyGens := (ctxSlots f).map (fun i => (i, (s.slot i).gen)), hints := p.heavy, nextEvent := p.nextEvent, f := f,
      entry := (s.panel f.panel.toNat).entry, place := s.stepTable c p.params, kv := r.kv
      placeNew := decide ((s.edu.takePending c (fieldAt p.params 84 4)).current ≠ s.edu.current) }
  s.joinQueue f.panel.toNat st f.model

/-- A step of a context has passed point 4 (R309): its placement table and its key generations are in force, slots that are not eligible
leave the moved set, and its moved sequences go to a companion (13 R349). A companion whose request page does not translate does not
start, and its sequences fail, and so does one whose link post page does not (14 R370): log entry 67. -/
def State.passPoint4 (s : State) (st : Step) : Step × State :=
  let stay := (st.seqs.filter (fun x => !x.eligible)).map SeqEntry.slot
  let s1 := (s.takePlacement st).modCtx st.ctx (fun x => { x with
    moved := x.moved.filter (fun i => !stay.contains i), capGens := st.keyGens.map Prod.snd })
  let out := s1.movedOut st.ctx st.seqs
  if out.isEmpty then (st, s1)
  else match s1.fallbackOf st.ctx (fallbackCtx st.params) with
    | none => (st, s1.event 0x6012)
    | some (fb, t) =>
      let a := s1.registerKv fb
      let b := if a.1.1 then a.2.registerPost fb else (true, a.2)
      let bad : Half := if !a.1.1 then 0x0802 else if !b.1 then 0x0A00 else 0
      let marked := st.seqs.map (fun x => if out.any (fun y => decide (y.slot = x.slot)) then
        { x with fallback := true, status := if bad = 0 then x.status else bad } else x)
      if bad = 0 then ({ st with seqs := marked, companion := some fb }, b.2.startCompanion st fb t out a.1.2)
      else ({ st with seqs := marked }, b.2.release fb)

/-- STEP_RUN: points 1 to 3; then the step waits at point 4. -/
def execStepRun (fn window : Nat) (s : State) : Answer :=
  let k := winKey fn window
  match (s.window k).stepPkt, (s.window k).ctx with
  | some p, some c =>
    if !(p.opcode = 0x0101 && s.cmdMem (some (s.ctx c).f.panel.toNat)) || s.hasStep k || (s.ctx c).recovering then .next s
    else
      let p1 := { p with start := s.clk.now }
      let table := s.stepTable c p.params
      if !s.keysOk c p.params table then .next (s.endPacket k false p1 5)
      else
        let e := s.point2 p.params c
        if e = 0x1100 then .next ((s.event 0x8006).endPacket k false p1 0x1100)
        else if e ≠ 0 then .next (s.endPacket k false p1 (BitVec.ofNat 16 e))
        else
          let r := (s.evalAdmission (s.ctx c).f.panel.toNat).point3 c p.params table
          if r.1.status ≠ 0 then .next (r.2.endPacket k false p1 (BitVec.ofNat 16 r.1.status))
          else .next (r.2.enqueueStep c k p1 r.1)
  | _, _ => .next s

end Sys2Proof.Machine
end

