-- ==== Sys2Proof/Machine/StepData.lean ====
section
/-! DEFINITION. What the command processor and the security engine write for a step: tree blocks and bucket lists before it
(10 R268, R272), compaction after it (10 R270), sealed inputs and outputs (17 R454 to R457). -/

namespace Sys2Proof.Machine

/-! ## Trees (10 R267, R268) -/

/-- The ancestors of node `i`, itself first: at most 64 steps up the parents. -/
def nodePath (par : List Byte) (fuel i : Nat) : List Nat :=
  match fuel with
  | 0 => [i]
  | fuel + 1 => if i = 0 then [0] else i :: nodePath par fuel (fieldAt par i 1)

/-- The depth of a node. -/
def nodeDepth (par : List Byte) (i : Nat) : Nat := (nodePath par 64 i).length - 1

/-- The ancestor bitmap A_i. -/
def nodeMask (par : List Byte) (i : Nat) : Nat := maskOf (nodePath par 64 i)

/-- Negative infinity in FP32. -/
def negInf32 : Nat := 0xFF800000

/-- The tree block of a sequence with history `h` and `n` nodes. The positions of nodes at or above `n` are free bytes `pad`
(512 of them are given; the spec states none). -/
def treeBlock (h n : Nat) (par pad : List Byte) : List Byte :=
  (List.range 64).flatMap (fun i => if i < n then leBytes 8 (nodeMask par i) else zeros 8) ++
  (List.range 64).flatMap (fun i => if i < n then leBytes 4 (h + nodeDepth par i) else slicedAt pad (4 * i) 4) ++
  (List.range 64).flatMap (fun i => if i < n then leBytes 4 (toFp32 (.fin false (h + i) 0)).1.toNat
                                    else slicedAt pad (256 + 4 * i) 4) ++
  (List.range 64).flatMap (fun r => (List.range 64).flatMap (fun i =>
    leBytes 4 (if r < n ∧ i < n ∧ bitAt (nodeMask par r) i = true then 0 else negInf32))) ++
  zeros 64

/-- The place of the tree block of an ordinal. -/
def treeAt (ps : List Byte) (ordinal : Nat) : Nat := fieldAt ps 24 8 + 17472 * ordinal

/-- Write the tree blocks of a step. -/
def State.writeTrees (s : State) (st : Step) : State :=
  ((st.seqs.filter (fun q => q.tree && !q.fallback)).foldl (fun s q =>
    let d := s.drawBytes 512
    (d.2.writeVa st.ctx (treeAt st.params q.ordinal) (treeBlock q.h q.nodes (st.parents.getD q.ordinal []) d.1)).2) s)

/-! ## Bucket lists (10 R271, R272) -/

/-- The sequences of bucket `b` that run in the step, in ascending slot. -/
def Step.bucketSeqs (st : Step) (b : Nat) : List SeqEntry :=
  ((st.seqs.filter (fun q => !q.fallback && decide (bucketOf st.params (q.h + q.t) = b))).mergeSort
    (fun x y => decide (x.slot ≤ y.slot)))

/-- The address of the list of bucket `b`. -/
def bucketList (ps : List Byte) (b : Nat) : Nat := fieldAt ps 32 8 + 16384 * b

/-- Write the bucket lists of a step. -/
def State.writeBuckets (s : State) (st : Step) : State :=
  (List.range (nBuckets st.params)).foldl (fun s b =>
    (s.writeVa st.ctx (bucketList st.params b) ((st.bucketSeqs b).flatMap (fun q =>
      leBytes 2 q.slot ++ leBytes 3 q.h ++ leBytes 3 q.t))).2) s

/-! ## Compaction (10 R250, R270) -/

/-- A value element re-stored under another page's scale byte, and the saturate flag of the store (R250). -/
def restoreElem (code x sFrom sTo : Nat) : Nat × Bool :=
  match skValue code x sFrom with
  | .fin n m e =>
    let g := skRound code m (e - ((sTo : Int) - 127))
    (skEncode code n (min g (skMaxCode code)), decide (skMaxCode code < g))
  | _ => (0, false)

/-- The element `i` of packed bytes as raw bits, and packed bytes with element `i` replaced. -/
def putElem (code : Nat) (bs : List Byte) (i v : Nat) : List Byte :=
  if code = 6 then
    let old := fieldAt bs (i / 2) 1
    bs.set (i / 2) (BitVec.ofNat 8 (if i % 2 = 0 then old / 16 * 16 + v else old % 16 + 16 * v))
  else bs.set i (BitVec.ofNat 8 v)

/-- Where the value of dimension `e` at slot `j` lies, as an element index from the start of the values (R249). -/
def valueIndex (f : CtxFields) (j e : Nat) : Nat :=
  let tv := kvTile f
  (j / tv) * (kvDim f) * tv + e * tv + j % tv

/-- Move the key and value of one position to another, in the directory `dir`, wherever their pages lie on the board (R273): keys
unchanged, values under the destination's scale. `false` where a read or a write fails. -/
def State.movePos (s : State) (c dir src dst : Nat) : Bool × State :=
  let f := (s.ctxNow c).1
  let p := kvP f
  let d := kvDim f
  let z := recordBytes f
  let code := f.kvFmt.toNat
  let ra := dir + src / p * z
  let rb := dir + dst / p * z
  let ea := s.readVa c (ra + 136) 8
  let eb := ea.2.readVa c (rb + 136) 8
  let pa := bits (leNat ea.1.bytes) 47 16 * 65536
  let pb := bits (leNat eb.1.bytes) 47 16 * 65536
  let js := src % p
  let jd := dst % p
  let k := eb.2.readVa c (pa + kvBytes f (js * d)) (kvBytes f d)
  let ks := k.2.readVa c (ra + 256 + js * (d / 32)) (d / 32)
  let sa := ks.2.readVa c (ra + 256 + p * d / 32) 1
  let sb := sa.2.readVa c (rb + 256 + p * d / 32) 1
  let vals := (List.range d).foldl (fun (acc : List (Nat × Bool) × Bool × State) e =>
    let i := valueIndex f js e
    let a := acc.2.2.readVa c (pa + kvBytes f (p * d) + (if code = 6 then i / 2 else i)) 1
    (acc.1 ++ [restoreElem code (elemAt code a.1.bytes (if code = 6 then i % 2 else 0)) (fieldAt sa.1.bytes 0 1)
      (fieldAt sb.1.bytes 0 1)], acc.2.1 && decide (a.1.bytes.length = 1), a.2)) ([], true, sb.2)
  if ea.1.bytes.length = 8 ∧ eb.1.bytes.length = 8 ∧ k.1.bytes.length = kvBytes f d ∧ ks.1.bytes.length = d / 32 ∧
      sa.1.bytes.length = 1 ∧ sb.1.bytes.length = 1 ∧ vals.2.1 = true then
    let s1 := if vals.1.any Prod.snd then { vals.2.2 with cmd := { vals.2.2.cmd with clamped := true } } else vals.2.2
    let w1 := s1.writeVa c (pb + kvBytes f (jd * d)) k.1.bytes
    let w2 := w1.2.writeVa c (rb + 256 + jd * (d / 32)) ks.1.bytes
    ((vals.1.map Prod.fst).zipIdx).foldl (fun (acc : Bool × State) v =>
      let i := valueIndex f jd v.2
      let at' := pb + kvBytes f (p * d) + (if code = 6 then i / 2 else i)
      let o := acc.2.readVa c at' 1
      let w := o.2.writeVa c at' (putElem code o.1.bytes (if code = 6 then i % 2 else 0) v.1)
      (acc.1 && w.1, w.2)) (w1.1 && w2.1, w2.2)
  else (false, vals.2.2)

/-- Compact one tree sequence (R270): the accepted path's positions move down; its outcome fields. Log entry 16. -/
def State.compactSeq (s : State) (st : Step) (q : SeqEntry) : SeqEntry × State :=
  let par := st.parents.getD q.ordinal []
  let v := s.readVa st.ctx (treeAt st.params q.ordinal + 17408) 64
  let x := fieldAt v.1.bytes 0 1 % 64
  if fieldAt v.1.bytes 1 1 ≠ 1 ∨ q.nodes ≤ x then ({ q with accepted := 1, verifyMissing := true }, v.2)
  else
    let path := (nodePath par 64 x).reverse
    let mine := ((st.dirs.filter (fun d => decide (d.1 = q.slot))).map Prod.snd).dedup
    let moved := mine.foldl (fun (acc : Bool × State) dir =>
      (List.range path.length).foldl (fun (acc : Bool × State) j =>
        let n := path.getD j 0
        if j = 0 ∨ n = j then acc
        else
          let m := acc.2.movePos st.ctx dir (q.h + n) (q.h + j)
          (acc.1 && m.1, m.2)) acc) (true, v.2)
    ({ q with accepted := path.length, status := if moved.1 then q.status else if q.status = 0 ∨ 6 < q.status.toNat then 6 else q.status }, moved.2)

/-- Compact every tree of a step. -/
def State.compactTrees (s : State) (st : Step) : Step × State :=
  let r := st.seqs.foldl (fun (acc : List SeqEntry × State) q =>
    if q.tree && !q.fallback then
      let a := acc.2.compactSeq st q
      (acc.1 ++ [a.1], a.2)
    else (acc.1 ++ [q], acc.2)) ([], s)
  ({ st with seqs := r.1 }, r.2)

/-! ## Sealed inputs and outputs (17 R454 to R457) -/

/-- Write the module's fields of a sealed entry: status, and pending cleared. -/
def State.sealDone (s : State) (c at' : Nat) (e : List Byte) (status : Half) : State :=
  let w := s.writeVa c (at' + 22) (leBytes 2 status.toNat)
  (w.2.writeVa c at' [BitVec.ofNat 8 (fieldAt e 0 1 % 128)]).2

/-- An entry is pending and of a kind. -/
def sealPending (e : List Byte) (kind : Nat) : Bool := bitAt (fieldAt e 0 1) 7 && decide (fieldAt e 0 1 % 4 = kind)

/-- The checks of an entry (R454, R455): reserved fields, the local range in the secure tiles, a core of the panel. -/
def State.sealOk (s : State) (c : Nat) (e : List Byte) : Bool :=
  let n := fieldAt e 16 4
  let loc := fieldAt e 4 4
  decide (bits (fieldAt e 0 1) 6 2 = 0) && zeroAt e 3 1 && zeroAt e 48 16 && decide (loc % 64 = 0) &&
  decide (0x1E0000 ≤ loc ∧ loc + n ≤ 0x200000) && decide (16 ≤ n ∧ n ≤ 131072 ∧ n % 16 = 0) &&
  decide (fieldAt e 8 8 % 64 = 0) && decide (fieldAt e 1 1 < 4) && (s.physIn (s.ctxNow c).1.panel.toNat (fieldAt e 2 1)).isSome

/-- The session slot that an entry names. -/
def State.sealSession (s : State) (c : Nat) (e : List Byte) : Nat := ((s.ctxNow c).1.sessions.getD (fieldAt e 1 1) 0).toNat

/-- Change a session. -/
def State.modSession (s : State) (slot : Nat) (f : Session → Session) : State :=
  match Tab.find s.sec.sessions slot with
  | some x => { s with sec := { s.sec with sessions := Tab.set s.sec.sessions slot (f x) } }
  | none => s

/-- The session of a slot, until its counter is exhausted: an entry after that finds it closed (R457). -/
def State.liveSession (s : State) (slot : Nat) : Option Session :=
  (Tab.find s.sec.sessions slot).filter (fun x => !(x.inCounter.toNat + 1 == 2 ^ 64) && !(x.outCounter.toNat + 1 == 2 ^ 64))

/-- One input entry: its status, and the plaintext or +0 in the tile. What the host's memory holds comes from outside, so the
verdict on the tag and the plaintext are free values. A tile that is not on refuses the write (06 R168), and the entry then ends with
ST_BAD_PARAM. Log entry 17. -/
def State.openInput (s : State) (st : Step) (e : List Byte) : Half × State :=
  let c := st.ctx
  let slot := s.sealSession c e
  let ctr := fieldAt e 24 8
  match s.liveSession slot with
  | none => (if s.sealOk c e && st.f.secure then 5 else 2, s)
  | some ses =>
    if !st.f.secure || !s.sealOk c e then (2, s)
    else if slot = 0 ∨ ses.ctx ≠ c then (5, s)
    else if ctr ≤ ses.inCounter.toNat then (0x1004, (s.event 0x7804).count (secReg 0x120) 1)
    else
      let n := fieldAt e 16 4
      let p := (s.physIn st.f.panel.toNat (fieldAt e 2 1)).getD 0
      let v := s.drawBytes 1
      let ok := decide (v.1 ≠ [0])
      let d := v.2.drawBytes n
      let s0 := if ok then d.2 else v.2
      let s1 := s0.modSlice p (fun sl => sl.write (fieldAt e 4 4) (if ok then d.1 else zeros n))
      if !(s0.core p).slice.rangeOn (fieldAt e 4 4) n then (2, s0.noteRefused p)
      else if ok then
        let s2 := (s1.modSession slot (fun x => { x with inCounter := BitVec.ofNat 64 ctr })).count (secReg 0x108) 1
        (0, if ctr = 2 ^ 64 - 1 then s2.beginErase slot else s2)
      else (0x1003, (s1.event 0x7803).count (secReg 0x118) 1)

/-- One output entry: sealed under the session's next counter and written to the host; ciphertext and tag are free values. A tile that
is not on refuses the read (06 R168), as for an input; a word that cannot be corrected is a poisoned read (06 R165), which fails the entry
with ST_POISON. Log entry 71. -/
def State.sealOutput (s : State) (st : Step) (at' : Nat) (e : List Byte) : Half × State :=
  let c := st.ctx
  let slot := s.sealSession c e
  match s.liveSession slot with
  | none => (if s.sealOk c e && st.f.secure then 5 else 2, s)
  | some ses =>
    if !st.f.secure || !s.sealOk c e then (2, s)
    else if slot = 0 ∨ ses.ctx ≠ c then (5, s)
    else
      let n := fieldAt e 16 4
      let p := (s.physIn st.f.panel.toNat (fieldAt e 2 1)).getD 0
      if !(s.core p).slice.rangeOn (fieldAt e 4 4) n then (2, s.noteRefused p)
      else match (s.core p).slice.badIn (fieldAt e 4 4) n with
      | some w => (6, s.noteBad p w)
      | none =>
      let ctr := ses.outCounter + 1
      let d := ((s.noteReads p [(fieldAt e 4 4, n)]).portBRead p (fieldAt e 4 4) n).2.drawBytes n
      let t := d.2.drawBytes 16
      let s1 := t.2.emit (.hostBytes (BitVec.ofNat 64 (fieldAt e 8 8)) d.1)
      let w := (s1.writeVa c (at' + 24) (leBytes 8 ctr.toNat ++ t.1)).2
      let s2 := (w.modSession slot (fun x => { x with outCounter := ctr })).count (secReg 0x110) 1
      (0, if ctr = BitVec.ofNat 64 (2 ^ 64 - 1) then s2.beginErase slot else s2)

/-- Process the pending entries of a kind in ascending index; a failure fails the entry's sequence. -/
def State.runSealed (s : State) (k : Nat) (st : Step) (kind : Nat) : State :=
  let tab := st.f.sealedIo.toNat
  if tab = 0 then s
  else (List.range 256).foldl (fun s i =>
    let at' := tab + 64 * i
    let a := s.readVa st.ctx at' 64
    match a.1 with
    | .data e =>
      if !sealPending e kind then a.2
      else
        let r := if kind = 1 then a.2.openInput st e else a.2.sealOutput st at' e
        let s1 := r.2.sealDone st.ctx at' e r.1
        if r.1 = 0 then s1 else s1.failSeqs k r.1 (fun q => decide (q.slot = fieldAt e 20 2))
    | _ => a.2) s

end Sys2Proof.Machine
end

