-- ==== Sys2Proof/Machine/Panels.lean ====
section
/-! DEFINITION. Steps on panels (12 R309 to R315; 13 R331 to R334, R347 to R350): panel resets, hand-off, completion, deadlines,
preemption, accounting. -/

namespace Sys2Proof.Machine

/-! ## Panel resets (13 R331) -/

/-- A slice after a panel reset: +0 everywhere and every tile in the state that the masks request. Its secure mark stays until a hand-off
(06 R174). -/
def Slice.panelReset (sl : Slice) (on ret : W32) : Slice :=
  let sl1 := { sl with mem := [], bad := [], undefReads := [], tileOn := on, tileRet := ret, resident := none,
                       weak := [], undefB := [], parked := [] }
  { sl1 with tiles := (List.range 32).filterMap (fun t =>
      match sl1.requested t with
      | 2 => none
      | 1 => some (t, TileState.retention)
      | _ => some (t, TileState.off)) }

/-- The panel reset of a core's slice: the tiles of a core in C2 or C3 are as those states place them (06 R169). -/
def Core.resetSlice (c : Core) (on ret : W32) (sl : Slice) : Slice :=
  let x := sl.panelReset on ret
  if c.cState = 3 then x.allOff else if c.cState = 2 then x.enterC2 else x

/-- Apply the pairing of a panel to the cores: a core that it no longer names leaves the panel and is held off (03 R88, 06 R154,
R169). -/
def State.applyPairing (s : State) (k : Nat) : State :=
  let pr := (s.panel k).pairing
  let s1 := (s.panelCores k).foldl (fun s p => s.modCore p (fun c =>
    if pr.any (fun e => decide (e.2 = p)) then { c with logical := 0xFF, panel := none } else c.letGo)) s
  pr.foldl (fun s e => s.modCore e.2 (fun c => { c with logical := e.1, panel := some k })) s1

/-- The head of a panel's queue: lowest class, then oldest doorbell, then lowest context id (13 R332). -/
def stepBefore (a b : Step) : Bool :=
  decide (a.cls < b.cls) || (decide (a.cls = b.cls) && (decide (a.doorbell < b.doorbell) ||
    (decide (a.doorbell = b.doorbell) && decide (a.ctx ≤ b.ctx))))

/-- The queued step that starts next. -/
def Panel.next (pn : Panel) : Option Step :=
  pn.queue.foldl (fun acc x => match acc with
    | none => some x
    | some y => if stepBefore y x then some y else some x) none

/-- A reset of the panel is due before its next step. -/
def State.resetDue (s : State) (k : Nat) : Bool :=
  let pn := s.panel k
  pn.needsReset || (match pn.next with
    | some st => decide (pn.lastModel ≠ some st.f.model) && decide (pn.resetFor ≠ some st.f.model)
    | none => false)

/-- The pairing of a panel names a core that another panel still runs a step on: a pairing never changes within a step (03 R88). -/
def State.takesRunning (s : State) (k : Nat) : Bool :=
  (s.panel k).pairing.any (fun e => match (s.core e.2).panel with
    | some j => decide (j ≠ k) && (s.panel j).running.isSome
    | none => false)

/-- PANEL_RESET: between steps, translations are dropped, the pairing is applied, and the slices are zero-filled under the
masks of the entry. -/
def execPanelReset (panel : Nat) (s : State) : Answer :=
  let pn := s.panel panel
  if !(s.cmdIsland (some panel) && pn.written && pn.running.isNone && s.resetDue panel) || s.takesRunning panel then .next s
  else
    let s1 := ((s.panelCores panel).foldl (fun s p => s.dropTc p) s).applyPairing panel
    let s2 := (s1.panelCores panel).foldl (fun s p => (s.modContents p
      ((s.core p).resetSlice pn.entry.tileOn pn.entry.tileRet)).dropTc p) s1
    .next (((s2.event 0x6014).count (panelReg panel 0x78) 1).modPanel panel (fun pn => { pn with
      needsReset := false, resetFor := pn.next.map (fun st => st.f.model) }))

/-! ## Point 5 (12 R309) -/

/-- The cores that a step starts: each physical core, its bucket, its index there and the entry address. A re-run gives each
core the next index of its bucket (16 R416); the companion's bucket is that of the template (13 R349). -/
def State.stepCores (s : State) (k : Nat) (st : Step) : List (Nat × Nat × Nat × Nat) :=
  let of (b entry : Nat) (ls : List Nat) : List (Nat × Nat × Nat × Nat) :=
    (ls.zipIdx).filterMap (fun x => (s.physIn k x.1).map (fun p =>
      (p, b, if st.rerun then (x.2 + 1) % ls.length else x.2, entry)))
  if st.isComp then
    match st.template with
    | some t => of 0 t.entry ((List.range t.coreCount).map (fun i => t.firstCore + i))
    | none => []
  else (List.range (nBuckets st.params)).flatMap (fun b => of b (bucketEntry st.params b) (bucketCores st.params b))

/-- Every tile of a slice is in the state that its masks request. -/
def Slice.tilesReached (sl : Slice) : Bool := (List.range 32).all (fun t => decide ((sl.tile t).code = sl.requested t))

/-- Post the dispatch jobs of a step and clear byte 0 of their go and return words (11 R280). -/
def State.postJobs (s : State) (k : Nat) (st : Step) : State :=
  let step := fieldAt st.params 84 4
  let e := s.edu
  let jobs := st.blocks.map (fun b => ({ die := fieldAt b.bytes 129 1 % 2, ctx := st.ctx, gen := st.gen, panel := k, goOff := b.goOff,
                                         retOff := b.retOff, block := b.bytes, step := BitVec.ofNat 32 step,
                                         tableBytes := st.place } : EduJob))
  let s1 := { s with edu := { e with
    jobs := e.jobs ++ jobs, steps := Tab.set e.steps st.ctx (BitVec.ofNat 32 step)
    dropRaised := e.dropRaised.filter (fun c => decide (c ≠ st.ctx)) } }
  let clear (s : State) (off slot : Nat) : State := s.hbmWrite off [0] (s.hreq slot st.entry.wayMask.toNat)
  st.blocks.foldl (fun s b => clear (clear s b.goOff b.goSlot) b.retOff b.retSlot) s1

/-- Change the running step of a panel. -/
def State.modRunning (s : State) (k : Nat) (f : Step → Step) : State :=
  s.modPanel k (fun pn => { pn with running := pn.running.map f })

/-- The first part of point 5: hints, trees, bucket lists, jobs, tile masks. -/
def State.prepareStep (s : State) (k : Nat) (st : Step) : State :=
  let pe := st.entry
  let s1 := if st.hints.isNone ∧ st.nextEvent.isNone then s
    else
      let h : Hint :=
        { model := st.f.model, phase := st.hints, nextEvent := st.nextEvent, posted := s.time,
          stepStart := st.start.toNat }
      s.postHint k h
  let s2 := if st.isComp then s1 else ((s1.writeTrees st).writeBuckets st).postJobs k st
  (s2.panelCores k).foldl (fun s p => s.modSlice p (fun sl =>
    ({ sl with tileOn := pe.tileOn, tileRet := pe.tileRet } : Slice).retarget)) s2

/-- A step ends without having started: its record carries a status and no outcome array (12 R309). -/
def State.endUnstarted (s : State) (st : Step) (status : Half) (waitUs : Nat := 0) : State :=
  let w := s.window st.window
  let slots := (w.stepPkt.map Packet.slots).getD 0
  let s1 := (s.release st.ctx).modWindow st.window (fun w => { w with stepPkt := none })
  let r : Record :=
    { tag := st.tag, status := status, ctx := st.ctx, start := st.start, duration := s.since st.start,
      grantWait := BitVec.ofNat 16 (min 0xFFFF waitUs) }
  s1.putItem st.window (.record r st.irq slots)

/-- Take the companion of a window off its panel's queue, with its need of a grant. -/
def State.dropCompanion (s : State) (w : Nat) : State :=
  ({ s with cmd := { s.cmd with panels := s.cmd.panels.map (fun e => (e.1, { e.2 with
      queue := e.2.queue.filter (fun y => decide (y.window ≠ w) || !y.isComp) })) } } : State).dropNeed (0x20000 + w)

/-- The panel is free again. -/
def State.freePanel (s : State) (k : Nat) : State :=
  (s.panelCores k).foldl (fun s p => s.modSlice p (fun sl => { sl with testSuspended := false }))
    (s.modPanel k (fun pn => { pn with state := .idle, running := none, windowOpen := false, haltSince := none }))

/-! ## Point 6: the hand-off (03 R89, 12 R308) -/

/-- The step arguments of a core: S1 to S8. -/
def stepArgs (list b idx seqs cores arg step user : Nat) : Tab W32 :=
  ([list % 2 ^ 32, list / 2 ^ 32 % 65536 + b % 256 * 65536 + idx % 256 * 2 ^ 24, seqs, cores, arg % 2 ^ 32,
    arg / 2 ^ 32 % 65536, step, user].zipIdx).map (fun x => (x.2 + 1, BitVec.ofNat 32 x.1))

/-- A core takes the values of the context and panel entries that a step read at its start (01 R21, R22). -/
def Core.capture (c : Core) (st : Step) : Core :=
  { c with
    ctx := st.ctx, gen := st.gen, rcPolicy := st.f.rcPolicy.toNat, rcTable := st.f.rcTable.toNat,
    rcEntries := st.f.rcEntries.toNat, root := st.f.root.toNat, tenant := st.f.tenant.toNat, setMask := st.entry.setMask,
    wayMask := st.entry.wayMask }

/-- A core after its hand-off: sequencer fresh at the entry address, array and vector engine fresh, range checks and the
values of the context and panel entries captured. -/
def Core.handoff (c : Core) (st : Step) (entry : Nat) (regs : Tab W32) : Core :=
  { c with
    seq := { c.seq with state := .running, pc := entry, entry := entry, regs := regs, offsets := [], loops := [], fetch := [],
                        trail := { pc := entry, regs := regs }, loopBuf := [], held := none, qMx := [], qVx := [], qStr := [] },
    mx := { c.mx with plane0 := {}, plane1 := {}, acc := [], live := [], maps := [], loadToggle := false, streamToggle := false,
                      active := [], freezeInForce := c.mx.freezeMode, flags := 0, lastPlane := false, mmsDone := true },
    vx := { c.vx with descs := [], consts := [], kvSeed := st.f.kvSeed, srEnable := st.f.kvSr, flags := 0, unit := [] },
    str := { c.str with slots := [], toggle := false, halted := false, stopping := false, handled := false, reported := [], frozen := false },
    started := true, haltReported := false, rcViolated := false }.capture st

/-- A slice at hand-off: counters zeroed; a change of a marked slice's resident wipes its secure tiles; the mark follows the
context (06 R174, R176, R177). -/
def Slice.handoff (sl : Slice) (ctxId : Nat) (gen : BitVec 8) (secure : Bool) : Slice :=
  let sl1 := if sl.secure && decide (sl.resident.map Prod.fst ≠ some ctxId) then sl.wipeSecure else sl
  { sl1 with arrival := [], secure := secure, resident := some (ctxId, gen), dropRaised := false }

/-- The translations of a core go when its resident context changes (09 R240). -/
def State.dropForeign (s : State) (p ctxId : Nat) : State :=
  if (s.core p).slice.resident.map Prod.fst = some ctxId then s else s.dropTc p

/-- Hand off one core. -/
def State.startCore (s : State) (st : Step) (cores : List (Nat × Nat × Nat × Nat)) (x : Nat × Nat × Nat × Nat) : State :=
  let n := (cores.filter (fun y => decide (y.2.1 = x.2.1))).length
  let d := if st.isComp then s.drawWords 2 else ([0, 0], s)
  let list := if st.isComp then (d.1.getD 0 0).toNat + (d.1.getD 1 0).toNat % 65536 * 2 ^ 32 else bucketList st.params x.2.1
  let seqs := if st.isComp then st.seqs.length else (st.bucketSeqs x.2.1).length
  let arg := match st.isComp, st.template with
    | true, some t => t.argBlock.toNat
    | _, _ => fieldAt st.params 48 8
  let regs := stepArgs list x.2.1 x.2.2.1 seqs n arg (fieldAt st.params 84 4) (fieldAt st.params 12 4)
  d.2.modCore x.1 (fun c => c.handoff st x.2.2.2 regs)

/-- The four counters of 13 R350 summed over a panel: busy cycles of the engines and instructions issued. -/
def State.busySums (s : State) (k : Nat) : List Nat :=
  [0x200, 0x208, 0x210, 0x218].map (fun o => ((s.panelCores k).map (fun p => (s.counter (coreReg p o)).toNat)).foldl (· + ·) 0)

/-- Add what the panel's counters gained since a base. -/
def Step.addBusy (st : Step) (now : List Nat) : Step :=
  { st with busy := (List.range 4).map (fun i => st.busy.getD i 0 + (now.getD i 0 + 2 ^ 64 - st.base.getD i 0) % 2 ^ 64) }

/-- Write a program image into a slice in packets of up to 4 words, which are not marked secure: one that touches a secure tile of a
marked slice is refused (06 R175), and so is one to a tile that is not on (06 R168). -/
def State.copyImage (s : State) (p at' : Nat) (bs : List Byte) : State :=
  (resultCuts (bs.length + 1) at' bs).foldl (fun s c =>
    if (s.core p).slice.secure && touchesSecure c.1 c.2.length then s.noteSecure p
    else if (s.core p).slice.rangeOn c.1 c.2.length then s.modSlice p (fun sl => sl.write c.1 c.2)
    else s.noteRefused p) s

/-- Copy the program image into the slices of the cores to be started; `none` where a read returns poison (12 R310). -/
def State.copyProgram (s : State) (st : Step) (cores : List (Nat × Nat × Nat × Nat)) : Option State :=
  if st.isComp || decide (progBytes st.params = 0) then some s
  else
    let a := s.readVa st.ctx (fieldAt st.params 56 8) (progBytes st.params)
    match a.1 with
    | .data bs => some (cores.foldl (fun s x => s.copyImage x.1 (progLocal st.params) bs) a.2)
    | _ => none

/-- The end of point 5 and point 6, once every tile has reached its requested state. The program is copied first, then the secure tiles
are wiped where the resident context changes, then the sealed inputs are opened: the spec gives these three no order. DESIGN CHOICE, log
entry 65. -/
def State.finishHandoff (s : State) (k : Nat) (st : Step) : State :=
  let cores := s.stepCores k st
  match s.copyProgram st cores with
  | none => (((s.freePanel k).eduCancel st.ctx).dropCompanion st.window).endUnstarted st 6 st.grantUs
  | some s1 =>
    let s2 := (s1.panelCores k).foldl (fun s p => (s.dropForeign p st.ctx).modSlice p (fun sl =>
      sl.handoff st.ctx st.gen st.f.secure)) s1
    let s3 := if st.isComp then s2 else s2.runSealed k st 1
    let s4 := cores.foldl (fun s y => s.startCore st cores y) s3
    let base := s4.busySums k
    let s5 := (s4.modRunning k (fun st => { st with
      handed := s.time + 1, restored := s.time, base := base, cores := cores.map (fun y => (y.1, y.2.1)),
      copied := st.copied || (!st.isComp && decide (progBytes st.params ≠ 0)) })).modPanel k (fun pn => { pn with
      lastHandoff := s.time, progress := s.time, haltSince := none,
      slept := pn.slept && (st.isComp || decide (progBytes st.params = 0)) })
    { s5 with rel := { s5.rel with rcRaised := s5.rel.rcRaised.filter (fun p => decide (p ≠ k)) } }

/-- A sealed input needs the host's memory while the function is in D3hot (19 R506). -/
def State.inputWaits (s : State) (st : Step) : Bool :=
  s.asleep st.window && !st.isComp && decide (st.f.sealedIo ≠ 0) && (List.range 256).any (fun i =>
    match (s.readVa st.ctx (st.f.sealedIo.toNat + 64 * i) 64).1 with
    | .data e => sealPending e 1
    | _ => false)

/-- Hand off if the tiles have reached their states; a core whose island is held stalls it (01 R29). -/
def State.tryHandoff (s : State) (k : Nat) (st : Step) : State :=
  if s.inputWaits st then s
  else if (s.panelCores k).all (fun p => (s.core p).slice.tilesReached && s.clocked p) then s.finishHandoff k st else s

/-! ## Restoring a switched-out step (13 R334) -/

/-- The sequencer takes back what R90 saves; its control and fault registers stay. Its trailing sequencer starts even with it. -/
def Sequencer.restore (q v : Sequencer) : Sequencer :=
  { q with state := v.state, pc := v.pc, entry := v.entry, regs := v.regs, offsets := v.offsets, loops := v.loops,
           trail := { pc := v.pc, regs := v.regs, offsets := v.offsets, loops := v.loops }, fetch := [], loopBuf := [], held := v.held,
           qMx := v.qMx, qVx := v.qVx, qStr := v.qStr }

/-- The array takes back what 04 R123 saves; its control, its fault and its limits stay. -/
def Matrix.restore (m v : Matrix) : Matrix :=
  { m with plane0 := v.plane0, plane1 := v.plane1, acc := v.acc, live := v.live, maps := v.maps, loadToggle := v.loadToggle,
           streamToggle := v.streamToggle, flags := v.flags, active := v.active, lastPlane := v.lastPlane, mmsDone := v.mmsDone }

/-- The vector engine takes back what 05 R151 saves; its fault registers stay. The seed is the context's (10 R250). -/
def VectorEngine.restore (x v : VectorEngine) (st : Step) : VectorEngine :=
  { x with descs := v.descs, consts := v.consts, flags := v.flags, unit := v.unit, posRow := v.posRow, posBeat := v.posBeat,
           kvSeed := st.f.kvSeed, srEnable := st.f.kvSr }

/-- The stream unit takes back what 07 R203 saves, its fault record if it was halted; its violation registers stay. -/
def StreamUnit.restore (u v : StreamUnit) : StreamUnit :=
  { u with slots := v.slots, toggle := v.toggle, halted := v.halted, stopping := v.stopping, handled := v.handled,
           reported := v.reported, frozen := false, fault := if v.halted then v.fault else u.fault, haltTime := v.haltTime }

/-- A slice takes back what 06 R180 saves: the counters, the masks, the mark, and every word of every tile that was on. The other
tiles follow the masks. -/
def Slice.takeBack (sl v : Slice) (st : Step) : Slice :=
  let on := (List.range 32).filter v.tileIsOn
  let sl0 := if sl.secure && decide (sl.resident.map Prod.fst ≠ some st.ctx) then sl.wipeSecure else sl
  let sl1 := on.foldl (fun x t => ({ x with tiles := Tab.set x.tiles t TileState.on } : Slice).zeroTile t) sl0
  let cells := v.mem.filter (fun c => on.contains (c.1 / 65536))
  ({ sl1 with
    mem := cells.foldl (fun m c => Mem.write m c.1 c.2) sl1.mem,
    bad := sl1.bad ++ v.bad.filter (fun w => on.contains (w / 1024)), arrival := v.arrival, tileOn := v.tileOn,
    tileRet := v.tileRet, secure := v.secure, resident := some (st.ctx, st.gen) } : Slice).retarget

/-- The physical core that holds the logical id of a saved core now: a panel reset may have paired that id with a spare since (03 R88). -/
def State.coreNow (s : State) (k : Nat) (v : SavedCore) : Nat := (s.physIn k v.logical).getD v.core

/-- Restore what a switch saved of a core to its place: only that, so that what was written to its other registers since stays. Its stream
unit reissues (07 R203). -/
def State.restoreCore (s : State) (st : Step) (v : SavedCore) : State :=
  ((s.dropForeign v.core st.ctx).modCore v.core (fun c => { c with
    seq := c.seq.restore v.seq, mx := c.mx.restore v.mx, vx := c.vx.restore v.vx st, str := c.str.restore v.str,
    slice := c.slice.takeBack v.slice st, rcViolated := v.rcViolated, haltReported := v.haltReported,
    started := v.started }.capture st)).strReissue v.core

/-- The bytes of a plane's image, with its 64 B header where it has one (04 R97, R123). -/
def Plane.bytes (p : Plane) : Nat := p.image.length + if p.header then 64 else 0

/-- The live bytes of a core that a switch moves (13 R334). -/
def Core.liveBytes (c : Core) : Nat :=
  (onesOf (maskOf ((List.range 32).filter c.slice.tileIsOn)) 32).length * 65536 + c.mx.plane0.bytes + c.mx.plane1.bytes + c.mx.live.length * 512 + 2048 + 512 + 256 + 64 * c.str.slots.length + 64

/-- The live bytes of what a switch saved of a core. -/
def SavedCore.liveBytes (v : SavedCore) : Nat :=
  ({ seq := v.seq, mx := v.mx, vx := v.vx, str := v.str, slice := v.slice } : Core).liveBytes

/-- The bytes that a save or a restore moves, which are charged to the context whose state they are (R351). -/
def savedBytes (vs : List SavedCore) : Nat := (vs.map SavedCore.liveBytes).sum

/-- The time of a switch in ns for a core that moves `n` bytes and has `open'` descriptors: bw is the lower of 300 GB/s and the core's part
of the panel's bandwidth of 1 TB/s for each channel set (13 R334). -/
def switchTime (e : PanelFields) (cores n open' : Nat) : Nat :=
  let sets := max 1 (onesOf e.setMask.toNat 16).length
  1600 + max (n / 300) (n * max 1 cores / (1000 * sets)) + 20 * open'

/-- The time of a restore by itself: the slowest core's. -/
def SavedStep.restoreNs (sv : SavedStep) : Nat :=
  (sv.cores.map (fun v => switchTime sv.step.entry sv.cores.length v.liveBytes v.str.slots.length)).foldl max 0

/-- Restore a step: its cores, the values that it read at its start, and its time switched out. The switch counts its time unless the one
that brought its preemptor's place counted it (13 R334, R353). -/
def State.restoreStep (s : State) (k : Nat) (sv0 : SavedStep) : State :=
  let move (p : Nat) : Nat := ((sv0.cores.find? (fun v => decide (v.core = p))).map (s.coreNow k)).getD p
  let sv : SavedStep := { sv0 with
    cores := sv0.cores.map (fun v => { v with core := s.coreNow k v }),
    step := { sv0.step with cores := sv0.step.cores.map (fun (x : Nat × Nat) => (move x.1, x.2)) } }
  let s0 := s.modPanel k (fun pn => { pn with switched := pn.switched.filter (fun y =>
    decide (y.step.window ≠ sv.step.window) || (y.step.isComp != sv.step.isComp)) })
  let s1 := sv.cores.foldl (fun s v => s.restoreCore sv.step v) ((s0.startKv sv.step).charge sv.step.ctx 32 (savedBytes sv.cores))
  let base := s1.busySums k
  (if sv.paid then s1 else s1.count (panelReg k 0x50) sv.restoreNs).modPanel k (fun pn => { pn with
    state := .running, progress := s.time,
    running := some { sv.step with restored := s.time, switchedNs := sv.step.switchedNs + (s.time - sv.since), base := base } })

/-! ## Canary windows on a panel (16 R432) -/

/-- The core under a canary test belongs to the panel. -/
def State.canaryOn (s : State) (k : Nat) : Bool :=
  decide (s.rel.canaryState ≠ .waiting) && decide ((s.core s.rel.canaryCore).panel = some k)

/-- A slice takes back the words and counters that a canary window saved, in the tiles that still hold words; its registers stay. -/
def Slice.reload (sl v : Slice) : Slice :=
  { sl with mem := v.mem.filter (fun c => decide (sl.tile (c.1 / 65536) ≠ .off)), bad := v.bad, weak := v.weak, arrival := v.arrival }

/-- Abort the window: the core is restored and stays next in the rotation. -/
def State.canaryAbort (s : State) : State :=
  let p := s.rel.canaryCore
  let s1 := match s.rel.canarySaved with
    | some sl => s.modSlice p (fun x => x.reload sl)
    | none => s
  { s1 with rel := { s1.rel with
      canaryState := .waiting, canarySaved := none, canaryFirst := p :: s1.rel.canaryFirst.filter (fun q => decide (q ≠ p)) } }

/-! ## STEP_HANDOFF (13 R332) -/

/-- Every core of the panel is in C0 (15 R407). -/
def State.panelAwake (s : State) (k : Nat) : Bool :=
  (s.panelCores k).all (fun p => decide ((s.core p).cState = 0) && (s.core p).cTarget.isNone)

/-- Take a step off the queue and make it the running step, with its registration (10 R254). -/
def State.takeStep (s : State) (k : Nat) (st : Step) : State :=
  (s.startKv st).modPanel k (fun pn => { pn with
    queue := pn.queue.filter (fun y => decide (y.window ≠ st.window) || (y.isComp != st.isComp)),
    running := some st, state := .running, lastModel := some st.f.model, resetFor := none })

/-- Point 5 of a step that has passed point 4; its declared window opens with it (13 R339). -/
def State.enterStep (s : State) (k : Nat) (st : Step) : State :=
  let st1 := { st with prepared := true }
  let open' := decide (st.cls = 0) && (s.panel k).admitted
  let s1 := (s.takeStep k st1).modPanel k (fun pn => { pn with windowOpen := open' })
  let s2 := (s1.panelCores k).foldl (fun s p => s.modSlice p (fun sl => { sl with testSuspended := open' })) s1
  let s3 := if st.isComp then s2 else s2.count (cmdReg 0x108) 1
  (s3.prepareStep k st1).tryHandoff k st1

/-- Start a step: points 4 and 5. A companion has passed point 4 with its main step. -/
def State.beginStep (s : State) (k : Nat) (st : Step) : State :=
  if st.isComp then s.enterStep k st else (s.passPoint4 st).2.enterStep k (s.passPoint4 st).1

/-- STEP_HANDOFF: the panel's next step starts, or, while tiles move, the step under way is handed off. -/
def execStepHandoff (panel : Nat) (s : State) : Answer :=
  let pn := s.panel panel
  if !s.cmdMem (some panel) then .next s
  else match pn.running, pn.next with
    | some st, _ => if st.prepared && decide (st.handed = 0) then .next (s.tryHandoff panel st) else .next s
    | none, none => .next s
    | none, some st =>
      if !st.granted || s.resetDue panel || !s.panelAwake panel || (s.ctx st.ctx).recovering then .next s
      else if s.canaryOn panel && decide (2 ≤ st.cls) then .next s
      else
        let s1 := if s.canaryOn panel then s.canaryAbort else s
        match pn.switched.find? (fun y => decide (y.step.window = st.window) && (y.step.isComp == st.isComp)) with
        | some sv => .next ((s1.takeStep panel st).restoreStep panel { sv with step := { sv.step with granted := true } })
        | none => .next (s1.beginStep panel st)

/-! ## Points 7 and 8 (12 R309, R312 to R315) -/

/-- A transfer of a context has not completed. -/
def State.transfersOpen (s : State) (c : Nat) : Bool := s.lnk.transfers.any (fun t => decide (t.ctx = c))

/-- Every started core of a step has reported its halt. -/
def State.allHalted (s : State) (st : Step) : Bool := st.cores.all (fun x => (s.core x.1).haltReported)

/-- The cores of a step that reported a range-check violation. -/
def State.violators (s : State) (st : Step) : List Nat := (st.cores.map Prod.fst).filter (fun p => (s.core p).rcViolated)

/-- An entry of the outcome array (12 R315). -/
def outcomeEntry (q : SeqEntry) : List Byte :=
  let status : Nat := if q.status ≠ 0 then q.status.toNat else if q.fallback then 8 else 0
  leBytes 8 (status + q.slot * 2 ^ 16 + (if q.tree then q.accepted else 0) % 128 * 2 ^ 32 + boolNat q.fallback * 2 ^ 40 +
    boolNat q.moved * 2 ^ 41 + boolNat q.overflow * 2 ^ 42 + boolNat q.verifyMissing * 2 ^ 43 + boolNat q.suspect * 2 ^ 44 +
    boolNat q.hostPages * 2 ^ 45)

/-- The numerically lowest failure status among sequences, 0 for none. -/
def lowestStatus (q : List SeqEntry) : Nat :=
  (q.map (fun x => x.status.toNat)).foldl (fun a b => if b = 0 then a else if a = 0 then b else min a b) 0

/-- The status of a step that started, frozen and revoked steps aside (12 R314). -/
def Step.status (st : Step) : Half :=
  if st.suspect then 9
  else if lowestStatus st.seqs ≠ 0 then BitVec.ofNat 16 (lowestStatus st.seqs)
  else if st.seqs.any (fun q => q.fallback) then 8
  else 0

/-- The flags of a STEP_RUN record (12 R313). -/
def Step.flags (st : Step) (outcome : Bool) : BitVec 24 :=
  BitVec.ofNat 24 (maskOf ((([outcome, decide (lowestStatus st.seqs ≠ 0), st.seqs.any SeqEntry.overflow,
    st.seqs.any (fun q => q.fallback || q.moved), st.suspect && !(st.rerun || st.coRerun), st.rerun || st.coRerun, st.seqs.any SeqEntry.verifyMissing, st.pageIn,
    st.haltedForHost, st.limited, st.copied]).zipIdx.filter Prod.fst).map Prod.snd))

/-- The accounting block takes a step's amounts: those charged while it ran, and its own (13 R350). -/
def Ctx.takeAccount (x : Ctx) (st : Step) (energy : W32) : Ctx :=
  let own : List (Nat × Nat) := [(0, st.busy.getD 0 0), (8, st.busy.getD 1 0), (16, st.busy.getD 2 0), (24, st.busy.getD 3 0),
    (64, energy.toNat), (72, 1), (80, st.switchedNs), (88, st.grantUs), (96, if st.isComp then st.seqs.length else 0)]
  { x with
    account := (x.usage ++ own).foldl (fun a e => Tab.modify 0 a e.1 (fun v => v + BitVec.ofNat 64 e.2)) x.account,
    usage := [] }

/-- The record of a step, with or without its outcome array (12 R312, R315). -/
def State.writeRecord (s : State) (st : Step) (status : Half) (outcome : Bool) (energy : W32) : State :=
  let slots := ((s.window st.window).stepPkt.map Packet.slots).getD 0
  let s1 := if outcome then s.emit (.hostBytes (BitVec.ofNat 64 (fieldAt st.params 40 8)) (st.seqs.flatMap outcomeEntry)) else s
  let s2 := s1.modWindow st.window (fun w => { w with stepPkt := none })
  s2.putItem st.window (.record
    { tag := st.tag, status := status, ctx := st.ctx, start := st.start, duration := s.since st.start, energy := energy,
      grantWait := BitVec.ofNat 16 (min 0xFFFF st.grantUs), refused := BitVec.ofNat 16 (min 0xFFFF st.refused),
      flags := st.flags outcome } st.irq slots)

/-- Report violations: the suspect mark of the step and of every sequence of the buckets concerned (16 R416). A companion has one
bucket. -/
def Step.markSuspect (st : Step) (bad : List Nat) : Step :=
  if bad.isEmpty then st
  else
    let bs := (st.cores.filter (fun x => bad.contains x.1)).map Prod.snd
    { st with suspect := true, seqs := st.seqs.map (fun q =>
        if st.isComp || (!q.fallback && bs.contains (bucketOf st.params (q.h + q.t))) then { q with suspect := true } else q) }

/-- Change the main step of a window, running or switched out. -/
def State.modMain (s : State) (w : Nat) (f : Step → Step) : State :=
  let g (st : Step) : Step := if st.window = w ∧ st.isComp = false then f st else st
  { s with cmd := { s.cmd with panels := s.cmd.panels.map (fun e => (e.1, { e.2 with
      running := e.2.running.map g, queue := e.2.queue.map g,
      switched := e.2.switched.map (fun v => { v with step := g v.step }) })) } }

/-- What a sequence takes from its companion: the lower failure status and the marks of its outcome (12 R315). -/
def SeqEntry.takeFrom (q y : SeqEntry) : SeqEntry :=
  { q with
    status := if y.status ≠ 0 ∧ (q.status = 0 ∨ y.status.toNat < q.status.toNat) then y.status else q.status
    suspect := q.suspect || y.suspect, hostPages := q.hostPages || y.hostPages, overflow := q.overflow || y.overflow }

/-- The companion of a step is done: what it found goes to the main step and its sequences, its energy and its re-execution to the
record (13 R349). -/
def State.endCompanion (s : State) (st : Step) (energy : W32) : State :=
  s.modMain st.window (fun m => { m with
    companion := none, suspect := m.suspect || st.suspect, coEnergy := m.coEnergy + energy, coRerun := m.coRerun || st.rerun,
    seqs := m.seqs.map (fun q => match st.seqs.find? (fun y => decide (y.slot = q.slot)) with
      | some y => q.takeFrom y
      | none => q) })

/-- The energy of a step in mJ: an estimate of the island activities (13 R352), here a free value. Log entry 18. -/
def State.stepEnergy (s : State) : W32 × State :=
  let d := s.drawWords 1
  (d.1.getD 0 0, d.2)

/-- A step has ended on its panel: the panel is free and the step's jobs are gone. -/
def State.leavePanel (s : State) (k : Nat) (st : Step) : State :=
  let s1 := ((s.freePanel k).eduCancel st.ctx).count (panelReg k 0x40) 1
  (s1.release st.ctx).chooseState k

/-- The cores that violated in the first run of a step that its re-run clears come first in the canary rotation (16 R416, R433). -/
def State.rotateFirst (s : State) (st : Step) (bad : List Nat) : State :=
  let first := if st.rerun && bad.isEmpty then st.violFirst else []
  { s with rel := { s.rel with canaryFirst := first ++ s.rel.canaryFirst.filter (fun p => !first.contains p) } }

/-- A step with violations is re-executed once: it sent nothing to a peer (16 R416). A companion posts no dispatch job. -/
def Step.mayRerun (st : Step) : Bool :=
  decide (st.f.rcPolicy = 2) && !st.rerun && !st.posted && (st.isComp || decide (nDisp st.params = 0))

/-- Points 7 and 8 of a step that ran to its end. -/
def State.endStep (s : State) (k : Nat) (st : Step) (bad : List Nat) : State :=
  let e := (s.rotateFirst st bad).stepEnergy
  let st1 := ((if st.rerun ∨ st.isComp ∨ st.f.rcPolicy ≠ 0 then st.markSuspect bad else st)).addBusy (s.busySums k)
  if st.isComp then
    ((e.2.endCompanion st1 e.1).modCtx st.ctx (fun x => x.takeAccount st1 e.1)).leavePanel k st1
  else
    let c := e.2.compactTrees st1
    let s1 := (c.2.modPanel k (fun pn => { pn with running := some c.1 })).runSealed k c.1 2
    let st2 := ((s1.panel k).running).getD c.1
    ((s1.modCtx st.ctx (fun x => x.takeAccount st2 e.1)).leavePanel k st2).writeRecord st2 st2.status true (e.1 + st2.coEnergy)

/-- Re-execute a step once: points 5 and 6 again (16 R416). -/
def State.rerunStep (s : State) (k : Nat) (st : Step) (bad : List Nat) : State :=
  let st1 := { st.addBusy (s.busySums k) with rerun := true, violFirst := bad, handed := 0 }
  let s1 := (s.modPanel k (fun pn => { pn with running := some st1 })).count (relReg 0x118) 1
  (s1.prepareStep k st1).tryHandoff k st1

/-- STEP_COMPLETE: every started core has halted, and the step's requests, jobs, transfers and companion are done. -/
def execStepComplete (panel : Nat) (s : State) : Answer :=
  match (s.panel panel).running with
  | none => .next s
  | some st =>
    if !s.cmdMem (some panel) || decide (st.handed = 0) || !s.allHalted st || s.reqsOpen st.ctx || s.eduOpen st.ctx ||
        s.transfersOpen st.ctx || st.companion.isSome || (s.asleep st.window && !st.isComp) || (s.ctx st.ctx).recovering || (s.ctx st.ctx).claimOpen ||
        (s.ctx st.ctx).claimed then .next s
    else
      let bad := s.violators st
      if !bad.isEmpty && st.mayRerun then .next (s.rerunStep panel st bad)
      else .next (s.endStep panel st bad)

/-! ## Deadlines (12 R311, 13 R347, R348) -/

/-- A checkpoint is due: 0.25, 0.50 and 0.75 of the way from the start to the deadline. -/
def State.checkpointDue (s : State) (st : Step) : Bool :=
  let d := deadlineNs st.params
  decide (d ≠ 0) && decide (st.checkpoints < 3) &&
  decide ((st.checkpoints + 1) * (d - st.start.toNat) ≤ 4 * (s.time - st.start.toNat))

/-- The monitor predicts an overrun from counters 254 and 255 of the started cores that still run or have halted. -/
def State.predictsOverrun (s : State) (st : Step) : Bool :=
  let ps := (st.cores.map Prod.fst).filter (fun p => !(s.core p).isFrozen)
  let total := (ps.map (fun p => (s.arrival p 254).toNat)).foldl (· + ·) 0
  let done := (ps.map (fun p => (s.arrival p 255).toNat)).foldl (· + ·) 0
  if total = 0 ∨ s.allHalted st = true then false
  else decide (done = 0) ||
    decide (deadlineNs st.params * done < st.start.toNat * done + (s.time - st.start.toNat) * total)

/-- The eligible sequences of a step join the context's moved set, while it has room (R348). -/
def State.moveSeqs (s : State) (k : Nat) (st : Step) : State :=
  (st.seqs.filter (fun q => q.eligible && !q.fallback)).foldl (fun s q =>
    let m := (s.ctx st.ctx).moved
    if m.contains q.slot then s.modRunning k (fun st => { st with seqs := st.seqs.map (fun y =>
      if y.slot = q.slot then { y with moved := true } else y) })
    else if 4096 ≤ m.length then s.event 0x6013
    else ((s.modCtx st.ctx (fun x => { x with moved := x.moved ++ [q.slot] })).count (panelReg k 0x70) 1).modRunning k
      (fun st => { st with seqs := st.seqs.map (fun y => if y.slot = q.slot then { y with moved := true } else y) })) s

/-- DEADLINE_CHECKPOINT: at a checkpoint the monitor predicts; the first predicted overrun moves the eligible sequences. -/
def execDeadlineCheckpoint (panel : Nat) (s : State) : Answer :=
  match (s.panel panel).running with
  | none => .next s
  | some st =>
    if !s.cmdIsland (some panel) || decide (st.handed = 0) || st.isComp || !s.checkpointDue st then .next s
    else
      let s1 := s.modRunning panel (fun st => { st with checkpoints := st.checkpoints + 1 })
      if st.overrun || !s.predictsOverrun st then .next s1
      else .next ((s1.modRunning panel (fun st => { st with overrun := true })).moveSeqs panel st)

/-- The queued main step of a context that waits for a grant, with its panel. -/
def State.waitingStep (s : State) (c : Nat) : Option (Nat × Step) :=
  (List.range 16).findSome? (fun k => ((s.panel k).queue.find? (fun st => decide (st.ctx = c) && !st.granted && !st.isComp)).map (fun st => (k, st)))

/-- DEADLINE_GRANT_WITHDRAW: a step whose grant has not come by its deadline is withdrawn (R311). -/
def execDeadlineGrantWithdraw (ctx : Nat) (s : State) : Answer :=
  match s.waitingStep ctx with
  | none => .next s
  | some (k, st) =>
    if !s.cmdIsland (some k) || st.isComp || decide (deadlineNs st.params = 0) || decide (s.time < deadlineNs st.params) then .next s
    else
      let s1 := s.modPanel k (fun pn => { pn with queue := pn.queue.filter (fun y =>
        decide (y.window ≠ st.window) || (y.isComp != st.isComp)) })
      .next ((s1.dropNeed st.needKey).endUnstarted st 0xA ((s.time - st.waitSince) / 1000))

/-! ## Preemption (13 R333, R334) -/

/-- The time of a switch in ns: the slowest core's, under the panel entry that the running step read at its start (13 R334, 01 R22). -/
def State.switchNs (s : State) (k : Nat) (st : Step) (restore : List SavedCore) : Nat :=
  let ps := s.panelCores k
  (ps.map (fun p =>
    let c := s.core p
    let back := restore.filter (fun v => decide (s.coreNow k v = p))
    switchTime st.entry ps.length (c.liveBytes + savedBytes back) (c.str.slots.length + (back.map (fun v => v.str.slots.length)).sum))).foldl
      max 0

/-- A sequencer at its switch point: an instruction that waits is decoded again after the restore, and unconfirmed entries are
discarded (R90). A HALT that waits for its core to drain is kept. -/
def Sequencer.atSwitch (q : Sequencer) : Sequencer :=
  { q with
    state := if q.state = .waiting ∨ q.state = .fence ∨ q.state = .queueFull then .running else q.state
    held := if q.state = .haltDrain then q.held else none
    fetch := [], loopBuf := [], qMx := q.qMx.filter QEntry.confirmed, qVx := q.qVx.filter QEntry.confirmed,
    qStr := q.qStr.filter QEntry.confirmed }

/-- An array at its switch point: an active MXL restarts from the start of its image; an MMS or MXD keeps its next row (R123). -/
def Matrix.atSwitch (m : Matrix) : Matrix :=
  { m with active := m.active.map (fun a => match a.entry.op with
      | .mxl _ _ => { a with nextRow := 0 }
      | _ => a) }

/-- What a switch saves of a core. -/
def Core.save (c : Core) (p : Nat) : SavedCore :=
  { core := p, logical := c.logical, seq := c.seq.atSwitch, mx := c.mx.atSwitch, vx := c.vx, str := c.str, slice := c.slice,
    rcViolated := c.rcViolated, haltReported := c.haltReported, started := c.started }

/-- A core that a switch has left: its sequencer idle and its engines empty. -/
def Core.vacate (c : Core) : Core :=
  { c with
    seq := { c.seq with state := .idle, held := none, fetch := [], loopBuf := [], loops := [], qMx := [], qVx := [], qStr := [] },
    mx := { c.mx with active := [] }, vx := { c.vx with unit := [] },
    str := { c.str with slots := [], halted := false, stopping := false, handled := false, reported := [] },
    started := false, haltReported := false }

/-- The step that may preempt the running one (R333). -/
def State.preemptor (s : State) (k : Nat) : Option (Step × Step) :=
  let pn := s.panel k
  match pn.running, pn.next with
  | some r, some q =>
    if q.cls < r.cls ∧ q.granted = true ∧ r.handed ≠ 0 ∧ (r.isComp = true ∨ nDisp r.params = 0) ∧
        r.restored + r.entry.preemptHold.toNat * 1000 ≤ s.time then some (r, q)
    else none
  | _, _ => none

/-- The sequencer's block in the save area (R90): 512 B for the program counter, the registers, the loop stack and the offsets, whose
places the spec leaves open and which are free values, and the images of up to 96 queue entries. -/
def Sequencer.block (q : Sequencer) (head : List Byte) : List Byte :=
  head ++ padTo 1536 ((q.qMx ++ q.qVx ++ q.qStr).take 96 |>.flatMap (fun e => leBytes 16 e.word.toNat))

/-- A switch writes the sequencer block of every core to the save area of the step's context, in ascending core order. What else it
saves, and where the area holds it, the spec does not lay out. Log entry 19. -/
def State.writeSaveArea (s : State) (st : Step) (vs : List SavedCore) : State :=
  match s.ownHbm st.f.saveArea.toNat with
  | none => s
  | some base => (vs.zipIdx).foldl (fun s v =>
      let d := s.drawBytes 512
      (d.2.hbmWrite (base + 2048 * v.2) (v.1.seq.block d.1) (d.2.hreq 0 st.entry.wayMask.toNat))) s

/-- The switch points of a panel are reached: no request is out, no transaction of its stream units is in flight, and every link
message of the step is acknowledged. -/
def State.switchReady (s : State) (k c : Nat) : Bool :=
  !s.reqsOpen c && (s.panelCores k).all (fun p => decide ((s.core p).str.inflight = 0)) && s.lnk.tx.all (fun e => e.2.unacked.all (fun m => decide (m.hdr.srcCtx.toNat ≠ c)))

/-- PREEMPT_SWITCH: the running step is switched out and rejoins the queue with its doorbell time. What is saved is kept in the state,
and the sequencer blocks go to the save area (log entry 19). -/
def execPreemptSwitch (panel : Nat) (s : State) : Answer :=
  match s.preemptor panel with
  | none => .next s
  | some (r, q) =>
    let ctxBad := (s.ctx r.ctx).recovering || (s.ctx r.ctx).claimOpen || (s.ctx r.ctx).claimed
    if !s.cmdMem (some panel) || !s.switchReady panel r.ctx || ctxBad then .next s
    else
      let r1 := r.addBusy (s.busySums panel)
      let saved := (s.panelCores panel).map (fun p => (s.core p).save p)
      let isQ (y : SavedStep) : Bool := decide (y.step.window = q.window) && (y.step.isComp == q.isComp)
      let back := (((s.panel panel).switched.find? isQ).map SavedStep.cores).getD []
      let ns := s.switchNs panel r back
      let s1 := ((s.panelCores panel).foldl (fun s p => s.modCore p Core.vacate) s).writeSaveArea r saved |>.charge r.ctx 40 (savedBytes saved)
      .next (((s1.freePanel panel).modPanel panel (fun pn => { pn with
        queue := pn.queue ++ [r1],
        switched := pn.switched.map (fun y => { y with paid := y.paid || isQ y }) ++ [{ step := r1, since := s.time, cores := saved }] })).count (panelReg panel 0x48) 1 |>.count
        (panelReg panel 0x50) ns)

/-! ## ACCOUNT_READ (12 R325, 13 R350) -/

/-- The accounting block of a context. -/
def State.accountBlock (s : State) (c : Nat) : List Byte :=
  (List.range 14).flatMap (fun i => leBytes 8 (Tab.get (0 : W64) (s.ctx c).account (8 * i)).toNat) ++
  leBytes 8 s.time ++ zeros 8

/-- ACCOUNT_READ: the accounting block goes to a 64 B-aligned host address. -/
def execAccountRead (fn window : Nat) (s : State) : Answer :=
  let k := winKey fn window
  match s.svcRunning k 0x0116 with
  | none => .next s
  | some (p, c) =>
    if p.params.length ≠ 8 ∨ leNat p.params % 64 ≠ 0 then .next (s.endPacket k true p 0x0002)
    else .next ((s.emit (.hostBytes (BitVec.ofNat 64 (leNat p.params)) (s.accountBlock c))).endPacket k true p 0)

end Sys2Proof.Machine
end

