-- ==== Sys2Proof/Machine/Messages.lean ====
section
/-! DEFINITION. Messages and their end-to-end delivery (14 R366 to R369): sending, retransmission, acknowledgements, and the
ways of an arriving message. -/

namespace Sys2Proof.Machine

/-! ## A port goes down (R361, R376) -/

/-- The module requests a spare for a logical port (16 R435). -/
def State.askSpare (s : State) (port : Nat) : State :=
  match s.logicalPort port with
  | some l => s.emit (.spareRequest l)
  | none => s

/-- A link is dead: its replay buffer is discarded, the loss of a time parent is reported and the
time base goes on without a correction, and streams that used it send
again. Three deaths within 24 h request a spare. -/
def State.portDead (s : State) (port : Nat) : State :=
  let p := s.port port
  let times := s.time :: p.deaths.filter (fun t => decide (s.time < t + 86400000000000))
  let s1 := s.modPort port (fun p => { p.fresh with state := .dead, wasDead := true, deaths := times })
  let s2 := (s1.event 0x4802).count (portReg port 0x68) 1
  let s3 := if s.timeParent port then { s2.event 0x4805 with clk := { s2.clk with slew := 0 } } else s2
  (if 3 ≤ times.length then s3.askSpare port else s3).resendWhere (fun m => decide (m.port = port))

/-! ## Received frames and replays (R360, R361) -/

/-- Send the replay buffer again, or declare the link dead where that has been done replay_max times. -/
def State.replayOr (s : State) (port : Nat) : State := if s.replaySpent port then s.portDead port else s.replayAll port

/-- LINK_FRAME_RX: a frame that is bad, of a reserved type or out of sequence is discarded and answered with nak. -/
def execLinkFrameRx (port : Nat) (f : LinkFrame) (s : State) : Answer :=
  if !s.portOn port || !(s.port port).hears then .next s
  else
    let s1 := s.count (portReg port 0x50) f.corrected
    if !f.good then .next ((s1.count (portReg port 0x58) 1).putIdle port true)
    else if 3 < f.type then .next (s1.putIdle port true)
    else
      let a := s1.takeAck port f
      let s2 := a.goOn port f.nak
      if f.type ≠ 0 ∧ f.seq ≠ (s1.port port).rxSeq then .next (s1.putIdle port true)
      else if f.nak = true ∧ a.replaySpent port = true then .next (a.portDead port)
      else if f.type = 0 then .next s2
      else
        let s3 := (s2.modPort port (fun p => { p with
          rxSeq := p.rxSeq + 1,
          rxHeld := if f.type = 1 then Tab.modify 0 p.rxHeld f.vc (fun n => n + 1) else p.rxHeld })).count (portReg port 0x48) 1
        let s4 := if f.type = 3 && s3.timeParent port then s3.discipline else s3
        .next (s4.putIdle port false)

/-- REPLAY_TIMEOUT: the sender replays from its oldest unacknowledged frame; after replay_max times the link is dead (R361). -/
def execReplayTimeout (port : Nat) (s : State) : Answer :=
  if s.portOn port && (s.port port).hears then .next (s.replayOr port) else .next s

/-- A link ingress freezes: its port is taken down and does not retrain until released (16 R417, R418). -/
def State.freezePort (s : State) (port code : Nat) : State :=
  ((s.postFreeze 9 port code none).modPort port (fun p => { p with frozen := true })).portDead port

/-! ## Acknowledgements (R367, R368) -/

/-- The path of a stream's acknowledgements: the reverse direction of the link on which its last message came, or any path where that link
is not up (R367). -/
def State.ackPath (s : State) (k : Nat) : Option (Nat × List Nat) :=
  let p := (Tab.get {} s.lnk.rx k).port
  let r := s.route (k / 8) 0 0 0
  if (s.port p).isUp then some (p, (s.logicalPort p).getD p :: ((r.map Path.ports).getD []).drop 1)
  else r.map (fun r => (s.physPort (r.ports.headD 0), r.ports))

/-- The virtual channel of the acknowledgements of a channel (R363): vc 1 for vc 0, vc 3 for the others, and vc 4 for vc 4. -/
def ackVcOf (vc : Nat) : Nat := if vc ≤ 1 then 1 else if vc = 4 then 4 else 3

/-- The message of the acknowledgements that a receive stream owes (R366, R367). Its payload holds the cumulative acknowledgement, then
the numbers or keys; it is no message of a sequence itself. Log entry 59. -/
def ackHdr (me k : Nat) (ports : List Nat) (st : RxStream) : MsgHdr :=
  { dest := k / 8, src := me, ports := ports, next := 1, vc := ackVcOf (k % 8), kind := 4,
    bytes := min 4096 (4 + 4 * (st.due.length + st.refused.length) + 8 * st.dueKeys.length), ackVc := k % 8, acked := st.due,
    refused := st.refused, ackedKeys := st.dueKeys }

/-- The payload of an acknowledgement. -/
def ackBytes (st : RxStream) : List Byte :=
  leBytes 4 st.cumAck.toNat ++ (st.due ++ st.refused).flatMap (fun q => leBytes 4 q.toNat) ++ st.dueKeys.flatMap (fun q => leBytes 8 q.toNat)

/-- Send the acknowledgements that a receive stream owes; they wait while no path is up. -/
def State.sendAcks (s : State) (k : Nat) : State :=
  let st := Tab.get {} s.lnk.rx k
  if st.due = [] ∧ st.refused = [] ∧ st.dueKeys = [] then s
  else match s.ackPath k with
    | none => s
    | some p =>
      { (s.emit (.linkAck p.1 (k / 8) (k % 8) st.cumAck st.due st.refused st.dueKeys)) with
        lnk := { s.lnk with rx := Tab.set s.lnk.rx k { st with due := [], refused := [], dueKeys := [] } } }.launch
        (ackHdr s.me k p.2 st) (ackBytes st) p.1

/-- Change a receive stream. -/
def State.modRx (s : State) (k : Nat) (f : RxStream → RxStream) : State :=
  { s with lnk := { s.lnk with rx := Tab.modify {} s.lnk.rx k f } }

/-- Owe an acknowledgement; after 32 messages they are sent. -/
def State.oweAck (s : State) (h : MsgHdr) (refused : Bool) : State :=
  let k := streamKey h.src h.vc
  let s1 := s.modRx k (fun st =>
    if h.vc = 5 then { st with dueKeys := st.dueKeys ++ [h.key], lastUse := s.time }
    else if refused then { st with refused := st.refused ++ [h.seq], lastUse := s.time }
    else { st with due := st.due ++ [h.seq], lastUse := s.time })
  let st := Tab.get {} s1.lnk.rx k
  if 32 ≤ st.due.length + st.refused.length + st.dueKeys.length then s1.sendAcks k else s1

/-- ACK_TIMER: the acknowledgements of a stream are sent. -/
def execAckTimer (src vc : Nat) (s : State) : Answer :=
  if s.linksOn && s.dieCtl 0 && s.dieCtl 1 then .next (s.sendAcks (streamKey src vc)) else .next s

/-- A stream has accepted a sequence number already. -/
def RxStream.has (st : RxStream) (q : W32) : Bool := decide (2 ^ 31 ≤ (q - st.cumAck).toNat) || st.accepted.contains q

/-- Move the cumulative acknowledgement over what is accepted. -/
def RxStream.settle (fuel : Nat) (st : RxStream) : RxStream :=
  match fuel with
  | 0 => st
  | fuel + 1 =>
    if st.accepted.contains st.cumAck then
      RxStream.settle fuel { st with cumAck := st.cumAck + 1, accepted := st.accepted.filter (fun q => decide (q ≠ st.cumAck)) }
    else st

/-- How a receive stream takes a message: new, a repeat, or beyond the window of 1,024. -/
inductive RxTake where
  | fresh | again | beyond
  deriving DecidableEq, Repr

/-- Remember that a message was refused, while it lies in the window: a repeat of it is refused again (R369). -/
def RxStream.bounce (st : RxStream) (q : W32) : RxStream :=
  { st with bounced := q :: st.bounced.filter (fun x => decide ((st.cumAck - x).toNat < 4096) || decide ((x - st.cumAck).toNat < 1024)) }

/-- Take a message of a sequenced virtual channel. -/
def State.takeSeq (s : State) (h : MsgHdr) : RxTake × State :=
  let k := streamKey h.src h.vc
  let st := Tab.get {} s.lnk.rx k
  if st.has h.seq then (.again, (s.count (lnkReg 0x118) 1).oweAck h (st.bounced.contains h.seq))
  else if 1024 ≤ (h.seq - st.cumAck).toNat then (.beyond, s)
  else (.fresh, (s.modRx k (fun st => ({ st with accepted := h.seq :: st.accepted } : RxStream).settle 1025)).count (lnkReg 0x108) 1)

/-- Fail the transfer that owns a message. -/
def State.failOwner (s : State) (m : SentMsg) (status : Half) : State :=
  match m.owner with
  | some (c, slot) => s.failTransfer c slot status
  | none => s

/-- An arriving acknowledgement frees messages of the stream it names; a refusal fails their transfers (R369). -/
def State.takeAckMsg (s : State) (h : MsgHdr) : State :=
  let k := streamKey h.src h.ackVc
  let st := Tab.get {} s.lnk.tx k
  let hit (m : SentMsg) : Bool :=
    if h.ackVc = 5 then h.ackedKeys.contains m.hdr.key else h.acked.contains m.hdr.seq || h.refused.contains m.hdr.seq
  let bad := st.unacked.filter (fun m => hit m && h.refused.contains m.hdr.seq && decide (h.ackVc ≠ 5))
  let s1 := { s with lnk := { s.lnk with tx := Tab.set s.lnk.tx k { st with
    unacked := st.unacked.filter (fun m => !hit m), lastUse := s.time } } }
  bad.foldl (fun s m => s.failOwner m 0x0A03) s1

/-- Count a message that is dropped or refused (R369). -/
def State.noteLinkDrop (s : State) : State := (s.count (lnkReg 0x120) 1).eventPerMs 0x4803

/-! ## What a put and a get do at their target (R366, R367, R369) -/

/-- The physical core that a slice target or a raise names, if it runs the target context. -/
def State.targetCore (s : State) (c logical : Nat) : Option Nat :=
  match s.physIn (s.panelNow c) logical with
  | some p => if (s.core p).slice.resident = some (c, (s.ctx c).gen) then some p else none
  | none => none

/-- Write bytes into a slice as write packets of up to 4 words that come in at a drift die, not marked secure; `false` where the slice
refuses one. A packet that is dropped completes with no effect (06 R178, R179). -/
def State.putSlice (s : State) (die p at' : Nat) (bs : List Byte) (w : WritePkt) : Bool × State :=
  (resultCuts (bs.length + 1) at' bs).foldl (fun (acc : Bool × State) c =>
    let e := acc.2.deliver p { w with addr := c.1, data := c.2, src := .drift die }
    (acc.1 && decide (e.1 ≠ .refused), e.2)) (true, s)

/-- Write the bytes of a put; `false` where the target refuses them. -/
def State.putWrite (s : State) (die : Nat) (h : MsgHdr) (data : List Byte) : Bool × State :=
  let c := h.dstCtx.toNat
  let t := h.target.toNat
  if data = [] then (true, s)
  else if h.slice then
    match s.targetCore c (bits t 28 21) with
    | none => (false, s)
    | some p =>
      let w : WritePkt :=
        { addr := 0, data := [], ctx := h.dstCtx, gen := (s.ctx c).gen, cls := s.netClass c false, fromLink := true }
      s.putSlice die p (bits t 20 0) data w
  else s.writeBy .dma c (t % 2 ^ 48) data

/-- The raise of a message, in a core of the target context (14 R367). -/
def State.msgRaise (s : State) (h : MsgHdr) : State :=
  match s.targetCore h.dstCtx.toNat h.raiseCore.toNat with
  | some p => s.raiseCtr p h.raiseCtr
  | none => s

/-- A message of a transfer between two contexts was refused: its bytes never become visible (08 R225), and a repeat of it is refused
too (R369). -/
def State.spoil (s : State) (k : Nat) (h : MsgHdr) : State :=
  s.modRx k (fun st => ({ st with spoiled := (h.srcCtx, h.dstCtx) :: st.spoiled } : RxStream).bounce h.seq)

/-- The last message of a transfer: its raise is applied, unless a message of the transfer was refused (R367, 08 R225). -/
def State.endTransfer (s : State) (k : Nat) (h : MsgHdr) : State :=
  let pair := (h.srcCtx, h.dstCtx)
  let bad := (Tab.get {} s.lnk.rx k).spoiled.contains pair
  let s1 := if h.raise && !bad then s.msgRaise h else s
  if h.last then s1.modRx k (fun st => { st with spoiled := st.spoiled.filter (fun x => decide (x ≠ pair)) }) else s1

/-- Apply the raises of a stream whose earlier messages have all been accepted. -/
def State.runRaises (s : State) (k : Nat) : State :=
  let st := Tab.get {} s.lnk.rx k
  let ready := st.raises.filter (fun h => decide (2 ^ 31 ≤ (h.seq - st.cumAck).toNat))
  ready.foldl (fun s h => s.endTransfer k h)
    (s.modRx k (fun st => { st with raises := st.raises.filter (fun h => decide ((h.seq - st.cumAck).toNat < 2 ^ 31)) }))

/-- The bytes that a get request asks for. -/
def State.getRead (s : State) (h : MsgHdr) : Option (List Byte) × State :=
  let c := h.dstCtx.toNat
  let t := h.target.toNat
  if h.slice then
    match s.targetCore c (bits t 28 21) with
    | none => (none, s)
    | some p =>
      let sl := (s.core p).slice
      let off := bits t 20 0
      if sl.secure && touchesSecure off h.bytes then (none, s.noteSecure p)
      else if !sl.rangeOn off h.bytes then (none, s.noteRefused p)
      else match sl.badIn off h.bytes with
        | some w => (none, s.noteBad p w)
        | none =>
          let rd := (s.noteReads p [(off, h.bytes)]).portBRead p off h.bytes
          (some rd.1, rd.2)
  else
    let a := s.readBy .dma c (t % 2 ^ 48) h.bytes
    match a.1 with
    | .data bs => (some bs, a.2)
    | _ => (none, a.2)

/-- The tag of the context that a message meets at its target: the data of a get carry the requester's tag in bits [39:32] of the key
(log entry 21). -/
def msgTag (h : MsgHdr) : BitVec 8 := if h.kind = 3 then BitVec.ofNat 8 (bits h.key.toNat 39 32) else h.ctxGen

/-- The header of the data that answers a get request; its key holds the request's key and the requester's tag (log entry 21). -/
def State.getReply (s : State) (h : MsgHdr) : MsgHdr :=
  { dest := h.src, src := s.me, vc := h.vc + 1, kind := 3, srcCtx := h.dstCtx, tenant := h.tenant, dstCtx := h.srcCtx,
    ctxGen := (s.ctx h.dstCtx.toNat).gen, keyGen := (s.slot (s.ctxNow h.dstCtx.toNat).1.linkSlot.toNat).gen, bytes := h.bytes,
    key := BitVec.ofNat 64 (bits h.key.toNat 31 0 + h.ctxGen.toNat * 2 ^ 32) }

/-- Write the data of a get at the requester. The key names the transfer's slot and the message. -/
def State.getWrite (s : State) (die : Nat) (h : MsgHdr) (data : List Byte) : State :=
  let c := h.dstCtx.toNat
  let slot := h.key.toNat % 65536
  let i := bits h.key.toNat 31 16
  match s.lnk.transfers.find? (fun t => decide (t.ctx = c) && decide (t.slot = slot)) with
  | none => s
  | some t =>
    let loc := fieldAt t.post 8 6 + 4096 * i
    let w : Bool × State :=
      if bitAt (fieldAt t.post 0 1) 4 then
        match s.physIn t.panel (bits (fieldAt t.post 8 6) 28 21) with
        | none => (false, s)
        | some p =>
          let k : WritePkt :=
            { addr := 0, data := [], ctx := BitVec.ofNat 10 c, gen := t.gen, cls := s.netClass c false, fromLink := true }
          s.putSlice die p (bits (fieldAt t.post 8 6) 20 0 + 4096 * i) data k
      else s.writeBy .dma c loc data
    let s1 := if w.1 then w.2 else w.2.failTransfer c slot 0x0A00
    { s1 with lnk := { s1.lnk with transfers := s1.lnk.transfers.map (fun t =>
        if t.ctx = c ∧ t.slot = slot then { t with got := t.got + 1 } else t) } }

/-! ## Board peers (09 R236, 20 R522) -/

/-- The request that serves a board peer: the slot of the same number, under the generation that the message carries, which may be the
retiring one with its own material (17 R442, R449). Slot 0, whose material is each module's own, serves the refcount table alone
(09 R231, R243). -/
def State.peerReq (s : State) (h : MsgHdr) (off : Nat) : Option HReq :=
  let k := s.slot h.keySlot
  if h.keySlot = 0 then
    if s.walker.refBase ≤ off ∧ off + h.bytes ≤ s.walker.refBase + 2 * (hbmSize / 65536) then some (s.sysReq off) else none
  else if !s.genCurrent h.keySlot h.keyGen || !s.memSlotOk h.keySlot h.tenant.toNat then none
  else if h.keyGen = k.gen then some (s.hreq h.keySlot (s.sysWays off))
  else some { slot := h.keySlot, gen := h.keyGen, material := k.retMaterial, ways := s.sysWays off }

/-- A board peer's request is served at this home with the slot of the same number; one whose generation is not current is
dropped and never visible. -/
def State.servePeer (s : State) (h : MsgHdr) (data : List Byte) : State :=
  match (s.ownHbm h.target.toNat).bind (fun off => (s.peerReq h off).map (fun r => (off, r))) with
    | none => s.noteLinkDrop
    | some (off, r) =>
      let reply : MsgHdr :=
        { dest := h.src, src := s.me, vc := h.vc + 1, kind := 8, tenant := h.tenant, key := h.key, bytes := h.bytes,
          keySlot := h.keySlot, peerWrite := h.peerWrite }
      if h.peerWrite then (s.hbmWrite off data r).sendOrWait { reply with bytes := 0 } [] none
      else
        let a := s.hbmRead off h.bytes r
        match a.1 with
        | .data bs => a.2.sendOrWait reply bs none
        | .poison => a.2.sendOrWait { reply with poison := true } (zeros h.bytes) none

/-- A board peer's response completes the oldest BAR2 access that waits for one; the answer to a request of a core, which carries the
key 1, is shown by the command that ends the request (log entry 11). -/
def State.peerResponse (s : State) (h : MsgHdr) (data : List Byte) : State :=
  if h.key ≠ 0 then s
  else match s.hif.peer with
  | [] => s
  | q :: rest =>
    let s1 := { s with hif := { s.hif with peer := rest } }
    if q.write then s1 else s1.emit (.completion true h.poison data)

/-! ## LINK_MESSAGE_RX (R366 to R369, R373) -/

/-- Frames of a message leave the receive buffer, and their credits are returned (R364). -/
def State.freeFrames (s : State) (port : Nat) (h : MsgHdr) (n : Nat) : State :=
  let k := min (Tab.get 0 (s.port port).rxHeld h.vc) (ceilDiv (64 + n) 118)
  State.returnCredits 16 port (s.modPort port (fun p => { p with
    rxHeld := Tab.modify 0 p.rxHeld h.vc (fun x => x - k), owed := Tab.modify 0 p.owed h.vc (fun x => x + k) }))

/-- A forwarded message leaves as it came, one lane higher: its sealed bytes unchanged, and its tag, which no operand gives (log entry 20). -/
def State.launchForward (s : State) (h : MsgHdr) (data : List Byte) (port lane : Nat) : State :=
  let d := s.drawBytes 16
  (d.2.emit (.message h.vc h data)).portBytes port h.vc lane none (hdrBytes h ++ data ++ d.1)

/-- The header of a path-break notice to the source of a message (R363, R366, R373). -/
def breakHdr (me : Nat) (h : MsgHdr) : MsgHdr := { dest := h.src, src := me, vc := 4, kind := 9, bytes := 8 }

/-- What a path-break notice names: the destination, and the path as the route of a header. -/
def breakBytes (h : MsgHdr) : List Byte := leBytes 2 h.dest ++ ((hdrBytes h).drop 4).take 6

/-- Forward a message on its next hop, or discard it with a path-break notice to its source (R373). Log entry 59. -/
def State.forward (s : State) (h : MsgHdr) (data : List Byte) : State :=
  let l := h.ports.getD h.next 104
  let g : MsgHdr := { h with next := h.next + 1 }
  if s.liveLink l h.level then s.launchForward g data (s.physPort l) h.next
  else (s.emit (.pathBreak h.src h.dest h.ports)).sendOrWait (breakHdr s.me h) (breakBytes h) none

/-- A message for this module that its context refuses: it is acknowledged with a refusal, once. -/
def State.refuseMsg (s : State) (h : MsgHdr) : State :=
  let a := s.takeSeq h
  match a.1 with
  | .fresh => (a.2.spoil (streamKey h.src h.vc) h).noteLinkDrop.oweAck h true
  | _ => a.2

/-- The slice that a put or a get's data goes to, if it goes to one. -/
def State.msgSlice (s : State) (h : MsgHdr) : Option Nat :=
  if h.kind = 1 ∧ h.slice = true then s.targetCore h.dstCtx.toNat (bits h.target.toNat 28 21)
  else if h.kind = 3 then
    match s.lnk.transfers.find? (fun t => decide (t.ctx = h.dstCtx.toNat) && decide (t.slot = h.key.toNat % 65536)) with
    | some t => if bitAt (fieldAt t.post 0 1) 4 then s.physIn t.panel (bits (fieldAt t.post 8 6) 28 21) else none
    | none => none
  else none

/-- An island on the way of a message is held, to the slice that it writes or reads or to the memory of the module: the message is not taken
and comes again (01 R29). -/
def State.msgHeld (s : State) (die : Nat) (h : MsgHdr) : Bool :=
  match s.msgSlice h with
  | some p => !s.netClear (.drift die) p (s.netClass h.dstCtx.toNat false)
  | none => !s.memFree || (decide (h.kind = 2) && h.slice &&
      (s.targetCore h.dstCtx.toNat (bits h.target.toNat 28 21)).any (fun p => !s.clocked p))

/-- A put, get request or get data of a target context that takes it; a payload counts as received for the context (13 R351). -/
def State.acceptMsg (s : State) (die : Nat) (h : MsgHdr) (data : List Byte) : State :=
  let k := streamKey h.src h.vc
  let a := s.takeSeq h
  match a.1 with
  | .again => a.2
  | .beyond => a.2
  | .fresh =>
    if h.kind = 1 then
      let w := (a.2.charge h.dstCtx.toNat 56 data.length).putWrite die h data
      let s1 := if w.1 then w.2 else (w.2.spoil k h).noteLinkDrop
      let s2 := if h.raise || h.last then s1.modRx k (fun st => { st with raises := st.raises ++ [h] }) else s1
      (s2.runRaises k).oweAck h (!w.1)
    else if h.kind = 2 then
      let r := a.2.getRead h
      let s1 := match r.1 with
        | none => (r.2.spoil k h).noteLinkDrop
        | some bs => r.2.sendOrWait (r.2.getReply h) bs none
      let s2 := if h.raise || h.last then s1.modRx k (fun st => { st with raises := st.raises ++ [h] }) else s1
      (s2.oweAck h r.1.isNone).runRaises k
    else (((a.2.charge h.dstCtx.toNat 56 data.length).getWrite die h data).oweAck h false).runRaises k

/-- An expert dispatch message is taken once by its key while a job is open (R367); the row of its kind acts on it. One of a tag or a key
generation that is not current is dropped (R369). Its bytes count as received for the context (13 R351). -/
def State.keyedMsg (s : State) (h : MsgHdr) : State :=
  let seen := if s.edu.jobs.isEmpty then [] else s.lnk.keysSeen
  let x := s.ctx h.dstCtx.toNat
  if decide (h.ctxGen ≠ x.gen) || !s.genCurrent (s.ctxNow h.dstCtx.toNat).1.linkSlot.toNat h.keyGen then s.noteLinkDrop
  else if seen.contains (h.src, h.key) then (s.count (lnkReg 0x118) 1).oweAck h false
  else (({ s with lnk := { s.lnk with keysSeen := (h.src, h.key) :: seen } }.count (lnkReg 0x108) 1).charge h.dstCtx.toNat 56 h.bytes).oweAck
    h false

/-- The drain notices that this module can acknowledge: no message toward the removing module is held under the tenant, and no
board-peer access to it is in flight (17 R466). -/
def State.drained (s : State) (peer tenant : Nat) : Bool :=
  s.lnk.tx.all (fun e => decide (e.1 / 8 ≠ peer) || e.2.unacked.all (fun m => decide (m.hdr.tenant.toNat ≠ tenant) || decide (7 ≤ m.hdr.kind))) &&
  s.lnk.backlog.all (fun m => decide (m.hdr.dest ≠ peer) || decide (m.hdr.tenant.toNat ≠ tenant)) &&
  s.hif.peer.all (fun q => decide (s.me / 8 * 8 + q.addr / 2 ^ 45 ≠ peer))

/-- Acknowledge the drain notices whose conditions hold. -/
def State.settleDrains (s : State) : State :=
  let ready := s.sec.drains.filter (fun d => s.drained d.1 d.2)
  ready.foldl (fun s d => s.emit (.drain d.1 d.2 true))
    { s with sec := { s.sec with drains := s.sec.drains.filter (fun d => !s.drained d.1 d.2) } }

/-- A module's answer to this module's KEY_SHARE; the command ends with the last one (17 R459). -/
def State.shareAnswered (s : State) (peer slot : Nat) : State :=
  if slot = 0 ∨ slot ≠ s.sec.shareSlot ∨ !s.sec.sharePeers.contains peer then s
  else
    let left := s.sec.sharePeers.filter (fun m => decide (m ≠ peer))
    let s1 := { s with sec := { s.sec with sharePeers := left, shareSlot := if left.isEmpty then 0 else slot } }
    if left.isEmpty then s1.mbxReply 0 (leBytes 1 (s.slot slot).gen.toNat) else s1

/-- The headframe of the group names this module's time parent (R362, 18 R482). -/
def State.nameParent (s : State) (h : MsgHdr) : State :=
  match h.timePort with
  | some l => if s.mgt.group.heard = some h.src ∧ l < 104 then { s with mgt := { s.mgt with timePort := some l } } else s
  | none => s

/-- A message that ends at this module. A put, a get, its data and a board-peer request wait for the exit of the module from M-IDLE or
M-PARK, whose link DMA engines are gated (15 R405, R407): they are not taken and come again. -/
def State.localMsg (s : State) (port : Nat) (h : MsgHdr) (data : List Byte) (tagOk : Bool) : State :=
  let c := h.dstCtx.toNat
  let x := s.ctx c
  let slot := (s.ctxNow c).1.linkSlot.toNat
  if h.kind ≤ 3 then
    if x.bound && (decide (msgTag h ≠ x.gen) || !s.genCurrent slot h.keyGen) then s.noteLinkDrop
    else if !x.bound || decide (x.f.tenant ≠ h.tenant) then s.refuseMsg h
    else if !tagOk then s.freezePort port 0x4821
    else if decide (s.gov.mState ≠ .active) then s.wakePanel x.f.panel.toNat
    else if s.msgHeld (dieOfPort port) h then s
    else (s.wakePanel x.f.panel.toNat).acceptMsg (dieOfPort port) h data
  else if !tagOk then s.freezePort port 0x4821
  else if h.kind = 4 then (s.takeAckMsg h).pumpBacklog.eduPump.settleDrains
  else if h.kind = 5 then s
  else if h.kind = 6 then s.keyedMsg h
  else if h.kind = 7 ∧ s.gov.mState ≠ .active then s.wakeModule
  else if h.kind = 7 ∧ s.memFree = false then s
  else
    let a := s.takeSeq h
    match a.1 with
    | .fresh =>
      let s1 := a.2.wakeModule.oweAck h false
      if h.kind = 7 then s1.servePeer h data else if h.kind = 8 then (s1.peerResponse h data).settleDrains
      else if h.kind = 10 then (s1.nameParent h).shareAnswered h.src h.keySlot else s1
    | _ => a.2

/-- The way of an arriving message: a malformed header freezes the ingress; a message of another module is forwarded; the rest
end here. -/
def State.messageRx (s : State) (port : Nat) (h : MsgHdr) (payload : List Byte) (tagOk : Bool) : State :=
  let s1 := s.freeFrames port h payload.length
  if h.kind = 0 ∨ 10 < h.kind ∨ h.reservedZero = false ∨ 4096 < h.bytes then s1.freezePort port 0x4820
  else if h.dest = s.me then
    (if h.kind = 4 then s1 else s1.modRx (streamKey h.src h.vc) (fun st => { st with port := port })).localMsg port h payload tagOk
  else if h.next < h.ports.length then s1.forward h payload
  else s1.freezePort port 0x4822

/-! ## Timers of streams (R368) -/

/-- E2E_TIMEOUT: every unacknowledged message of the stream is sent again. -/
def execE2eTimeout (dest vc : Nat) (s : State) : Answer :=
  let k := streamKey dest vc
  if s.linksOn && s.streamOn k && !(Tab.get {} s.lnk.tx k).unacked.isEmpty then .next (s.resendStream k) else .next s

/-- GIVEUP_TIMEOUT: the stream's transfers fail. -/
def execGiveupTimeout (dest vc : Nat) (s : State) : Answer :=
  let k := streamKey dest vc
  let st := Tab.get {} s.lnk.tx k
  if !s.pins.dieOn || !s.streamOn k || st.unacked.isEmpty then .next s
  else
    let s1 := st.unacked.foldl (fun s m => s.failOwner m 0x0A02) s
    .next { s1 with lnk := { s1.lnk with tx := Tab.set s1.lnk.tx k { st with unacked := [], lastUse := s.time } } }

/-- STREAM_RECLAIM: a stream idle for 1 ms with nothing unacknowledged is reclaimed. -/
def execStreamReclaim (dest vc : Nat) (s : State) : Answer :=
  let k := streamKey dest vc
  let t := Tab.get {} s.lnk.tx k
  let r := Tab.get {} s.lnk.rx k
  let tIdle := t.unacked.isEmpty && decide (t.lastUse + 1000000 ≤ s.time)
  let rIdle := r.due.isEmpty && r.refused.isEmpty && r.dueKeys.isEmpty && r.raises.isEmpty && decide (r.lastUse + 1000000 ≤ s.time)
  if !(s.dieCtl 0 && s.dieCtl 1) then .next s
  else .next { s with lnk := { s.lnk with
    tx := if tIdle then Tab.erase s.lnk.tx k else s.lnk.tx, rx := if rIdle then Tab.erase s.lnk.rx k else s.lnk.rx } }

/-- PATH_BREAK_NOTICE: the named path is marked broken, and its messages go again on another (R373). -/
def execPathBreakNotice (dest : Nat) (ports : List Nat) (s : State) : Answer :=
  if !(s.linksOn && s.dieCtl 0 && s.dieCtl 1) then .next s
  else
    let i := s.routeIndex dest
    let mark (p : RoutePath) : RoutePath := if p.ports.take p.hops = ports ∧ p.hops ≠ 0 then { p with broken := true } else p
    let s1 := { s with lnk := { s.lnk with routes := s.lnk.routes.map (fun (e : Nat × List RoutePath) =>
      if e.1 % 992 = i then (e.1, e.2.map mark) else e) } }
    .next (((s1.event 0x5004).count (rteReg 0xC10) 1).resendWhere (fun m =>
      decide (m.hdr.dest = dest) && decide (m.hdr.ports = ports)))

end Sys2Proof.Machine
end

