-- ==== Sys2Proof/Machine/Transfers.lean ====
section
/-! DEFINITION. Link transfers and collectives (14 R370, R371, R377 to R379): triggers of the link post page, the messages of
puts, gets and signals, the ring of a collective, and completion. -/

namespace Sys2Proof.Machine

/-! ## The post (R370) -/

/-- A field of a transfer's post. -/
def Transfer.b (t : Transfer) (off len : Nat) : Nat := fieldAt t.post off len
/-- The operation: 1 put, 2 get, 3 signal, 4 collective. -/
def Transfer.op (t : Transfer) : Nat := t.b 0 1 % 8
/-- A flag of byte 0. -/
def Transfer.flag (t : Transfer) (i : Nat) : Bool := bitAt (t.b 0 1) i
/-- The bytes to move. -/
def Transfer.bytes (t : Transfer) : Nat := t.b 24 4
/-- The messages of a put, get or signal: the last one carries the raise. -/
def Transfer.total (t : Transfer) : Nat := if t.op = 4 then 0 else max 1 (ceilDiv t.bytes 4096)
/-- The bytes of message `i`. -/
def Transfer.piece (t : Transfer) (i : Nat) : Nat := min 4096 (t.bytes - 4096 * i)

/-- The post's fields obey R370: reserved fields zero, the byte count in range, cores of the panel, another module. -/
def State.postOk (s : State) (t : Transfer) : Bool :=
  let inPanel (l : Nat) : Bool := (s.physIn t.panel l).isSome
  decide (1 ≤ t.op ∧ t.op ≤ 4) && !t.flag 7 && decide (t.b 5 1 = 0) && decide (t.b 6 2 < 32768) && decide (t.b 14 2 < 1024) &&
  decide (t.b 22 2 = 0) && zeroAt t.post 32 16 && zeroAt t.post 50 6 && decide (t.bytes % 64 = 0) && decide (t.bytes ≤ 0x1000000) &&
  (decide (t.op ≤ 2) || decide (t.bytes = 0)) && inPanel (t.b 2 1) &&
  (!t.flag 4 || decide (t.op = 4) || inPanel (bits (t.b 8 6) 28 21)) && (decide (t.op = 4) || decide (t.b 6 2 ≠ s.me))

/-! ## Puts, gets and signals (R371) -/

/-- The messages that the engine of a port's island has outstanding. -/
def State.outstanding (s : State) (port : Nat) : Nat :=
  (s.lnk.tx.map (fun e => (e.2.unacked.filter (fun m => decide (dieOfPort m.port = dieOfPort port) &&
    decide (islandOfPort m.port = islandOfPort port))).length)).foldl (· + ·) 0

/-- The bytes of message `i` of a put, or the status that its local address ends with. -/
def State.localRead (s : State) (t : Transfer) (i : Nat) : Except Half (List Byte) × State :=
  let n := t.piece i
  if t.op ≠ 1 ∨ n = 0 then (.ok [], s)
  else if t.flag 4 then
    let a := bits (t.b 8 6) 20 0 + 4096 * i
    match s.physIn t.panel (bits (t.b 8 6) 28 21) with
    | none => (.error 2, s)
    | some p =>
      let sl := (s.core p).slice
      if sl.secure && touchesSecure a n then (.error 0x0A00, s.noteSecure p)
      else if !sl.rangeOn a n then (.error 0x0A00, s.noteRefused p)
      else match sl.badIn a n with
        | some w => (.error 6, s.noteBad p w)
        | none =>
          let rd := (s.noteReads p [(a, n)]).portBRead p a n
          (.ok rd.1, rd.2)
  else
    let a := s.readBy .dma t.ctx (t.b 8 6 + 4096 * i) n
    match a.1 with
    | .data bs => (.ok bs, a.2)
    | .poison => (.error 6, a.2)
    | .fault => (.error 0x0A00, a.2)

/-- The virtual channel of message `i`: vc 0 for class0 on an admitted panel, unless the message is longer than env_pkt, which
demotes it (R371, 13 R340). The flag says that it was demoted. -/
def State.postVc (s : State) (t : Transfer) (i : Nat) : Nat × Bool :=
  if !(t.flag 3 && (s.panel t.panel).admitted) then (2, false)
  else if s.envLimit t.panel < t.piece i then (2, true) else (0, false)

/-- The header of message `i` (R366). A get request names its slot and message in its key (log entry 21). -/
def State.postHdr (s : State) (t : Transfer) (i vc : Nat) : MsgHdr :=
  let f := (s.ctxNow t.ctx).1
  let final := decide (i + 1 = t.total)
  let rem := t.b 16 6
  let target := if t.flag 5 then bits rem 28 21 * 2 ^ 21 + (bits rem 20 0 + 4096 * i) % 2 ^ 21 else rem + 4096 * i
  { dest := t.b 6 2, src := s.me, vc := vc, kind := if t.op = 2 then 2 else 1, srcCtx := BitVec.ofNat 10 t.ctx, tenant := f.tenant,
    dstCtx := BitVec.ofNat 10 (t.b 14 2), ctxGen := t.gen, keyGen := (s.slot f.linkSlot.toNat).gen, bytes := t.piece i,
    target := BitVec.ofNat 64 target, slice := t.flag 5, raise := t.flag 6 && final, last := final,
    raiseCtr := BitVec.ofNat 8 (t.b 3 1), raiseCore := BitVec.ofNat 8 (t.b 4 1),
    key := BitVec.ofNat 64 (if t.op = 2 then t.slot + 65536 * i else 0) }

/-- Change a transfer. -/
def State.modTransfer (s : State) (c slot : Nat) (f : Transfer → Transfer) : State :=
  { s with lnk := { s.lnk with transfers := s.lnk.transfers.map (fun t => if t.ctx = c ∧ t.slot = slot then f t else t) } }

/-- Send the messages of a transfer while its engine keeps below 128 outstanding, the buffers have room and its panel has a
share of the channel. -/
def State.pumpTransfer (fuel : Nat) (c slot : Nat) (s : State) : State :=
  match fuel, s.lnk.transfers.find? (fun t => decide (t.ctx = c) && decide (t.slot = slot)) with
  | fuel + 1, some t =>
    let v := s.postVc t t.sent
    let h := s.postHdr t t.sent v.1
    let first := (s.route h.dest (s.msgTable h) (s.msgLevel h) ((Tab.get {} s.lnk.tx (streamKey h.dest h.vc)).nextSeq.toNat)).map
      (fun p => s.physPort (p.ports.headD 0))
    if t.status.isSome ∨ t.total ≤ t.sent ∨ s.barred h = true then s
    else match first with
      | none => s.failTransfer c slot 0x0A01
      | some port =>
        if 128 ≤ s.outstanding port then s
        else
          let r := s.localRead t t.sent
          match r.1 with
          | .error e => r.2.failTransfer c slot e
          | .ok bs =>
            let a := r.2.sendMsg h bs (some (c, slot))
            match a.1 with
            | .wait => s.modTransfer c slot (fun t => { t with since := s.shapedFrom h bs.length t.since })
            | .noPath => a.2.failTransfer c slot 0x0A01
            | .exhausted => a.2.failTransfer c slot 0x0A02
            | .sent =>
              let s1 := ((a.2.modTransfer c slot (fun t => { t with sent := t.sent + 1, since := none })).countWait t.panel t.since).chargeSent h
                bs.length
              let s2 := if v.2 then s1.count (panelReg t.panel 0x68) 1 else s1
              State.pumpTransfer fuel c slot s2
  | _, _ => s

/-- Serve the waiting triggers: class-0 ones first, then in trigger order. -/
def State.pumpTransfers (s : State) : State :=
  let c0 (t : Transfer) : Bool := t.flag 3 && (s.panel t.panel).admitted
  let ts := s.lnk.transfers.filter c0 ++ s.lnk.transfers.filter (fun t => !c0 t)
  ts.foldl (fun s t => State.pumpTransfer 4096 t.ctx t.slot s) s

/-- The payload of the next message of a transfer: a get request carries none. -/
def Transfer.nextBytes (t : Transfer) : Nat := if t.op = 1 then t.piece t.sent else 0

/-- The next message of a transfer waits for a bucket of a panel. -/
def State.postShaped (s : State) (k side : Nat) (t : Transfer) : Bool :=
  decide (side = 0) && decide (t.panel = k) && t.status.isNone && decide (t.sent < t.total) && decide (s.postVc t t.sent = (0, false))

/-- A message of the backlog waits for a bucket of a panel. -/
def State.msgShaped (s : State) (k side : Nat) (m : SentMsg) : Bool :=
  decide (s.shaper m.hdr = some (k, side)) && !(s.inClass m.hdr m.data.length).2

/-- The payloads of the messages that wait for a bucket of a panel (13 R340): the next of each class-0 put, and those of the backlog. -/
def State.shaperQueue (s : State) (k side : Nat) : List Nat :=
  (s.lnk.transfers.filter (s.postShaped k side)).map Transfer.nextBytes ++
  (s.lnk.backlog.filter (s.msgShaped k side)).map (fun m => m.data.length)

/-- The first waiting message of a payload counts its wait no more by itself: the command that releases it names the wait. -/
def State.namedWait (s : State) (k side payload : Nat) : State :=
  match s.lnk.transfers.find? (fun t => s.postShaped k side t && decide (t.nextBytes = payload)) with
  | some t => s.modTransfer t.ctx t.slot (fun t => { t with since := none })
  | none =>
    let i := s.lnk.backlog.findIdx (fun m => s.msgShaped k side m && decide (m.data.length = payload))
    { s with lnk := { s.lnk with backlog := s.lnk.backlog.mapIdx (fun n m => if n = i then { m with since := none } else m) } }

/-- SHAPER_RELEASE: a class-0 packet of a panel waits, and its bucket holds its payload: it leaves, and its wait, which the command names,
is counted. -/
def execShaperRelease (panel : Nat) (rsp : Bool) (payload waitedNs : Nat) (s : State) : Answer :=
  let side := if rsp then 1 else 0
  if !(s.cmdIsland (some panel) && (s.panel panel).admitted && (s.shaperQueue panel side).contains payload) ||
      decide (s.tokens panel side < payload * 1000) then .next s
  else .next (((s.namedWait panel side payload).pumpBacklog.eduPump.pumpTransfers).count (panelReg panel 0x60) waitedNs)

/-! ## Collectives (R377 to R379) -/

/-- A field of a collective's block. -/
def Collective.b (c : Collective) (off len : Nat) : Nat := fieldAt c.block off len
/-- The operation: 1 all-reduce, 2 all-gather, 3 reduce-scatter, 4 all-to-all. -/
def Collective.op (c : Collective) : Nat := c.b 0 1
/-- The format of src and dst. -/
def Collective.fmt (c : Collective) : Nat := c.b 2 1
/-- The members. -/
def Collective.n (c : Collective) : Nat := c.b 8 2
/-- The own rank. -/
def Collective.rank (c : Collective) : Nat := c.b 10 2
/-- The elements of a rank block. -/
def Collective.count (c : Collective) : Nat := c.b 12 4
/-- The bytes of an element. -/
def elemBytes (fmt : Nat) : Nat := elemBits fmt / 8
/-- The format in which partials travel. -/
def Collective.travel (c : Collective) : Nat := if bitAt (c.b 1 1) 2 then c.fmt else 0
/-- The bytes of a rank block. -/
def Collective.blockBytes (c : Collective) : Nat := c.count * elemBytes c.fmt
/-- The chunks of a reduce-scatter step. -/
def Collective.rsChunks (c : Collective) : Nat := ceilDiv (c.count * elemBytes c.travel) 4096
/-- The chunks of an all-gather or all-to-all step. -/
def Collective.agChunks (c : Collective) : Nat := ceilDiv c.blockBytes 4096
/-- The reduce-scatter steps. -/
def Collective.rsSteps (c : Collective) : Nat := if c.op = 1 ∨ c.op = 3 then c.n - 1 else 0
/-- The all-gather steps. -/
def Collective.agSteps (c : Collective) : Nat := if c.op = 1 ∨ c.op = 2 then c.n - 1 else 0
/-- The chunks that a member receives in all. -/
def Collective.expected (c : Collective) : Nat :=
  c.rsSteps * c.rsChunks + c.agSteps * c.agChunks + (if c.op = 4 then (c.n - 1) * c.agChunks else 0)

/-- The block obeys R377. -/
def collOk (b : List Byte) : Bool :=
  let x (o l : Nat) : Nat := fieldAt b o l
  decide (1 ≤ x 0 1 ∧ x 0 1 ≤ 4) && decide (x 1 1 < 8) && decide (x 1 1 % 4 ≤ 2) && decide (x 2 1 ≤ 2) && decide (x 3 1 = 0) &&
  decide (2 ≤ x 8 2 ∧ x 8 2 ≤ 256) && decide (x 10 2 < x 8 2) && decide (x 12 4 * elemBytes (x 2 1) % 64 = 0) &&
  zeroAt b 22 2 && zeroAt b 30 2 && zeroAt b 38 90

/-- The key of a chunk: collective id, step, chunk. -/
def chunkKey (id : W32) (step chunk : Nat) : W64 := BitVec.ofNat 64 (id.toNat + step % 65536 * 2 ^ 32 + chunk % 65536 * 2 ^ 48)

/-- Send a chunk to a member. -/
def State.sendChunk (s : State) (c : Collective) (step chunk to' : Nat) (data : List Byte) : State :=
  let f := (s.ctxNow c.ctx).1
  let m := c.members.getD to' (0, 0)
  let h : MsgHdr :=
    { dest := m.1, src := s.me, vc := 5, kind := 5, srcCtx := BitVec.ofNat 10 c.ctx, tenant := f.tenant,
      dstCtx := BitVec.ofNat 10 m.2, ctxGen := (s.ctx c.ctx).gen, keyGen := (s.slot f.linkSlot.toNat).gen, bytes := data.length,
      key := chunkKey c.id step chunk }
  s.sendOrWait h data (some (c.ctx, c.slot)) (some c.die)

/-- The elements of a row as FP32 (02 R47). -/
def widenRow (fmt : Nat) (bs : List Byte) : List W32 :=
  (List.range (bs.length / elemBytes fmt)).map (fun i => (toFp32 (decodeF (ffmtOf fmt) (elemAt fmt bs i))).1)

/-- FP32 values rounded to a format (02 R48). -/
def narrowRow (fmt : Nat) (xs : List W32) : List Byte := packElems fmt (xs.map (fun x => (roundF (ffmtOf fmt) false (ofFp32 x)).1))

/-- Combine two FP32 values under fn. -/
def collFn (fn : Nat) (x y : W32) : W32 :=
  match fn with
  | 0 => (addF x y).1
  | 1 => maxF x y
  | _ => minF x y

/-- Read elements of block `blk` of src, or of dst, from byte `off`; the status of a failure. -/
def State.collRead (s : State) (c : Collective) (dst : Bool) (blk off n : Nat) : Except Half (List Byte) × State :=
  let a := s.readBy .dma c.ctx (c.b (if dst then 24 else 16) 6 + blk * c.blockBytes + off) n
  match a.1 with
  | .data bs => (.ok bs, a.2)
  | .poison => (.error 6, a.2)
  | .fault => (.error 0x0A00, a.2)

/-- The src and dst of a collective overlap otherwise than in an all-reduce with src equal to dst, which leaves dst unspecified (R377). -/
def Collective.overlaps (c : Collective) : Bool :=
  let src := c.b 16 6
  let dst := c.b 24 6
  let inB := (if c.op = 2 then 1 else c.n) * c.blockBytes
  let outB := (if c.op = 3 then 1 else c.n) * c.blockBytes
  !(decide (c.op = 1) && decide (src = dst)) && decide (src < dst + outB) && decide (dst < src + inB)

/-- Write bytes into block `blk` of dst; a reduce-scatter has one block there. An overlap leaves free bytes (log entry 4). -/
def State.collWrite (s : State) (c : Collective) (blk off : Nat) (bs : List Byte) : State :=
  let d := if c.overlaps then s.drawBytes bs.length else (bs, s)
  let s := d.2
  let bs := d.1
  let w := s.writeBy .dma c.ctx (c.b 24 6 + (if c.op = 3 then 0 else blk) * c.blockBytes + off) bs
  if w.1 then w.2 else w.2.failTransfer c.ctx c.slot 0x0A00

/-- Run an action on what a read of a collective gave. -/
def State.collWith (s : State) (c : Collective) (dst : Bool) (blk off n : Nat) (f : List Byte → State → State) : State :=
  let a := s.collRead c dst blk off n
  match a.1 with
  | .ok bs => f bs a.2
  | .error e => a.2.failTransfer c.ctx c.slot e

/-- The bytes of chunk `j` of a length. -/
def chunkLen (total j : Nat) : Nat := min 4096 (total - 4096 * j)

/-- The rank that a member sends to. -/
def Collective.next (c : Collective) : Nat := (c.rank + 1) % c.n

/-- Copy chunk `j` of the own block from src to dst. -/
def State.collCopy (s : State) (c : Collective) (srcBlk j : Nat) : State :=
  s.collWith c false srcBlk (4096 * j) (chunkLen c.blockBytes j) (fun bs s => s.collWrite c c.rank (4096 * j) bs)

/-- The first sends of a member: step 0 (R378). -/
def State.collStart (s : State) (c : Collective) : State :=
  let r := c.rank
  if c.op = 1 ∨ c.op = 3 then
    let e := 4096 / elemBytes c.travel
    (List.range c.rsChunks).foldl (fun s j =>
      let n := min e (c.count - e * j)
      s.collWith c false ((r + c.n - 1) % c.n) (e * j * elemBytes c.fmt) (n * elemBytes c.fmt) (fun bs s =>
        s.sendChunk c 0 j c.next (narrowRow c.travel (widenRow c.fmt bs)))) s
  else if c.op = 2 then
    (List.range c.agChunks).foldl (fun s j =>
      (s.collCopy c 0 j).collWith c false 0 (4096 * j) (chunkLen c.blockBytes j) (fun bs s => s.sendChunk c 0 j c.next bs)) s
  else
    (List.range c.agChunks).foldl (fun s j =>
      ((List.range c.n).filter (fun q => decide (q ≠ r))).foldl (fun s q =>
        s.collWith c false q (4096 * j) (chunkLen c.blockBytes j) (fun bs s => s.sendChunk c 0 j q bs)) (s.collCopy c r j)) s

/-- After the last reduce-scatter step of an all-reduce, send the all-gather chunk that the combined elements complete. -/
def State.collGather (s : State) (c : Collective) (chunk : Nat) : State :=
  let er := 4096 / elemBytes c.travel
  let ea := 4096 / elemBytes c.fmt
  let j := chunk * er / ea
  let need := (List.range c.rsChunks).filter (fun q => decide (q * er / ea = j))
  if c.op = 1 ∧ need.all (fun q => c.seen.any (fun e => decide (e.2 = chunkKey c.id (c.rsSteps - 1) q))) then
    s.collWith c true c.rank (4096 * j) (chunkLen c.blockBytes j) (fun bs s => s.sendChunk c c.rsSteps j c.next bs)
  else s

/-- Combine a chunk and forward what follows from it (R378). `c` has taken the chunk's key. -/
def State.collTake (s : State) (c : Collective) (from' step chunk : Nat) (data : List Byte) : State :=
  let r := c.rank
  if c.op = 4 then s.collWrite c from' (4096 * chunk) data
  else if step < c.rsSteps then
    let e := 4096 / elemBytes c.travel
    let off := e * chunk * elemBytes c.fmt
    let part := widenRow c.travel data
    s.collWith c false ((r + 2 * c.n - step - 2) % c.n) off (part.length * elemBytes c.fmt) (fun bs s =>
      let out := (part.zip (widenRow c.fmt bs)).map (fun x => collFn (c.b 1 1 % 4) x.1 x.2)
      if step + 1 = c.rsSteps then (s.collWrite c r off (narrowRow c.fmt out)).collGather c chunk
      else s.sendChunk c (step + 1) chunk c.next (narrowRow c.travel out))
  else
    let g := step - c.rsSteps
    let s1 := s.collWrite c ((r + 2 * c.n - 1 - g) % c.n) (4096 * chunk) data
    if g + 1 < c.agSteps then s1.sendChunk c (step + 1) chunk c.next data else s1

/-- Give waiting collectives of the dies an engine: four a die, in post order (R379). -/
def State.collEngines (s : State) : State :=
  s.lnk.collectives.foldl (fun s c =>
    let busy := (s.lnk.collectives.filter (fun x => x.engine && decide (x.die = c.die))).length
    if c.engine ∨ 4 ≤ busy then s
    else ({ s with lnk := { s.lnk with collectives := s.lnk.collectives.map (fun (x : Collective) =>
      if x.ctx = c.ctx ∧ x.slot = c.slot then { x with engine := true } else x) } }).collStart { c with engine := true }) s

/-- COLLECTIVE_CHUNK_RX: a chunk of a collective that an engine serves is taken once, combined and forwarded. One of a collective that
has failed here is dropped (R379). -/
def execCollectiveChunkRx (die : Nat) (h : MsgHdr) (payload : List Byte) (s : State) : Answer :=
  let k := h.key.toNat
  let c0 := s.lnk.collectives.find? (fun c => decide (c.die = die) && decide (c.ctx = h.dstCtx.toNat) &&
    decide (c.id.toNat = k % 2 ^ 32) && c.engine)
  match c0 with
  | none => .next s
  | some c =>
    let x := s.ctx c.ctx
    if !(s.linksOn && s.dieCtl die) || decide (x.f.tenant ≠ h.tenant) then .next s
    else if s.lnk.transfers.any (fun t => decide (t.ctx = c.ctx) && decide (t.slot = c.slot) && t.status.isSome) then .next s.noteLinkDrop
    else if decide (h.ctxGen ≠ x.gen) || !s.genCurrent x.f.linkSlot.toNat h.keyGen then .next s.noteLinkDrop
    else if c.seen.contains (h.src, h.key) then .next ((s.count (lnkReg 0x118) 1).oweAck h false)
    else
      let c1 := { c with seen := (h.src, h.key) :: c.seen }
      let from' := (c.members.zipIdx.find? (fun m => decide (m.1 = (h.src, h.srcCtx.toNat)))).map Prod.snd
      let s1 := { s with lnk := { s.lnk with collectives := s.lnk.collectives.map (fun (y : Collective) =>
        if y.ctx = c.ctx ∧ y.slot = c.slot then c1 else y) } }
      let s2 := (s1.count (lnkReg 0x108) 1).oweAck h false
      .next (s2.collTake c1 (from'.getD 0) (k / 2 ^ 32 % 65536) (k / 2 ^ 48) payload)

/-- COLLECTIVE_TIMEOUT: a member that makes no progress fails. -/
def execCollectiveTimeout (die index : Nat) (s : State) : Answer :=
  match (s.lnk.collectives.filter (fun c => decide (c.die = die) && c.engine))[index]? with
  | some c => if s.dieCtl die then .next (s.failTransfer c.ctx c.slot 0x0A02) else .next s
  | none => .next s

/-! ## LINK_POST_TRIGGER (R370, R371, R377) -/

/-- A member's entry has a reserved bit set (R377). -/
def memberRsv (e : Nat) : Bool := bitAt e 15 || decide (bits e 31 26 ≠ 0)

/-- Post a collective: its block and its members are read. -/
def State.postCollective (s : State) (t : Transfer) : State :=
  let fail (st : Half) (s : State) : State := s.failTransfer t.ctx t.slot st
  let va := t.b 8 6
  let a := s.readBy .dma t.ctx va 128
  match a.1 with
  | .poison => fail 6 a.2
  | .fault => fail 0x0A00 a.2
  | .data b =>
    let id := BitVec.ofNat 32 (fieldAt b 4 4)
    if va % 64 ≠ 0 ∨ collOk b = false ∨ a.2.lnk.collectives.any (fun c => decide (c.ctx = t.ctx) && decide (c.id = id)) = true then
      fail 2 a.2
    else
      let m := a.2.readBy .dma t.ctx (fieldAt b 32 6) (4 * fieldAt b 8 2)
      match m.1 with
      | .poison => fail 6 m.2
      | .fault => fail 0x0A00 m.2
      | .data ms =>
        if (List.range (fieldAt b 8 2)).any (fun i => memberRsv (fieldAt ms (4 * i) 4)) then fail 2 m.2 else
        let members := (List.range (fieldAt b 8 2)).map (fun i =>
          (fieldAt ms (4 * i) 4 % 32768, bits (fieldAt ms (4 * i) 4) 25 16))
        let c0 : Collective := { die := 0, ctx := t.ctx, slot := t.slot, id := id, block := b, members := members }
        let f := (m.2.ctxNow t.ctx).1
        match m.2.route (members.getD c0.next (0, 0)).1 f.table.toNat f.level.toNat 0 with
        | none => fail 0x0A01 m.2
        | some p =>
          let die := dieOfPort (m.2.physPort (p.ports.headD 0))
          ({ m.2 with lnk := { m.2.lnk with collectives := m.2.lnk.collectives ++ [{ c0 with die := die }] } }).collEngines

/-- The die whose engine serves a post: that of its first hop. -/
def State.postDie (s : State) (t : Transfer) : Nat :=
  match s.lnk.collectives.find? (fun c => decide (c.ctx = t.ctx) && decide (c.slot = t.slot)) with
  | some c => c.die
  | none =>
    match s.route (t.b 6 2) t.table (s.ctxNow t.ctx).1.level.toNat 0 with
    | some p => dieOfPort (s.physPort (p.ports.headD 0))
    | none => 0

/-- A post waits in the queue of its die: its transfer has sent nothing, or its collective has no engine (R371, R379). -/
def State.postWaits (s : State) (t : Transfer) : Bool :=
  t.status.isNone && (if t.op = 4 then s.lnk.collectives.any (fun c => decide (c.ctx = t.ctx) && decide (c.slot = t.slot) && !c.engine)
    else decide (t.sent = 0))

/-- The posts that wait in the queue of a die. -/
def State.postsWaiting (s : State) (die : Nat) : Nat :=
  (s.lnk.transfers.filter (fun t => s.postWaits t && decide (s.postDie t = die))).length

/-- The queue of 1,024 triggers of a post's die is full, or, for a collective, whose die its block tells, that of some die. -/
def State.postsFull (s : State) (t : Transfer) : Bool :=
  if t.op = 4 then decide (1024 ≤ s.postsWaiting 0) || decide (1024 ≤ s.postsWaiting 1) else decide (1024 ≤ s.postsWaiting (s.postDie t))

/-- LINK_POST_TRIGGER: a store into a registered post page left op non-zero. A slot whose transfer has not completed changes
the memory only. A trigger that finds its die's queue full is not taken and comes again (R371). Log entry 71. -/
def execLinkPostTrigger (ctx slot : Nat) (s : State) : Answer :=
  match s.lnk.posts.find? (fun g => decide (g.ctx = ctx)) with
  | none => .next s
  | some g =>
    let f := (s.ctxNow ctx).1
    let off := g.frame * 65536 + slot * 64
    let a := s.hbmRead off 64 (s.hreq g.keySlot (s.sysWays off))
    let post := a.1.bytesOr 64
    if !s.islandOn (224 + stackOf (g.frame * 65536)) || decide (1024 ≤ slot) || decide (fieldAt post 0 1 % 8 = 0) then .next s
    else if s.lnk.transfers.any (fun t => decide (t.ctx = ctx) && decide (t.slot = slot)) then .next (s.event 0x4804)
    else
      let t : Transfer :=
        { ctx := ctx, gen := g.gen, panel := g.panel, slot := slot, frame := g.frame, keySlot := g.keySlot, post := post,
          table := f.table.toNat }
      if s.postsFull t then .next s else
      let s1 := { a.2 with lnk := { a.2.lnk with transfers := a.2.lnk.transfers ++ [t] } }
      let s2 := s1.modPanel g.panel (fun pn => { pn with running := pn.running.map (fun st => { st with posted := true }) })
      if !s2.postOk t then .next (s2.failTransfer ctx slot 2)
      else if f.linkSlot = 0 then .next (s2.failTransfer ctx slot 5)
      else if t.op = 4 then .next (s2.postCollective t)
      else .next (s2.pumpTransfers)

/-- LINK_MESSAGE_RX: the message takes its way, and freed buffers let waiting transfers go on. -/
def execLinkMessageRx (port : Nat) (h : MsgHdr) (payload : List Byte) (tagOk : Bool) (s : State) : Answer :=
  if !s.portOn port || !((s.port port).isUp || decide ((s.port port).state = .holddown)) then .next s
  else .next ((s.messageRx port h payload tagOk).pumpTransfers)

/-! ## LINK_TRANSFER_COMPLETE (R371, R379) -/

/-- No message of a transfer is unacknowledged or waits. -/
def State.transferQuiet (s : State) (c slot : Nat) : Bool :=
  s.lnk.tx.all (fun e => e.2.unacked.all (fun m => decide (m.owner ≠ some (c, slot)))) &&
  s.lnk.backlog.all (fun m => decide (m.owner ≠ some (c, slot)))

/-- A transfer is done: by its failure, its acknowledgements, its data, or its collective's chunks. -/
def State.transferDone (s : State) (t : Transfer) : Bool :=
  t.status.isSome ||
  (s.transferQuiet t.ctx t.slot && (match t.op with
    | 4 => s.lnk.collectives.any (fun c => decide (c.ctx = t.ctx) && decide (c.slot = t.slot) && decide (c.expected ≤ c.seen.length))
    | 2 => decide (t.total ≤ t.got)
    | _ => decide (t.total ≤ t.sent)))

/-- A transfer leaves the tables: its collective, and its messages that wait or are not acknowledged. -/
def State.dropTransfer (s : State) (c slot : Nat) : State :=
  { s with lnk := { s.lnk with
      transfers := s.lnk.transfers.filter (fun t => decide (t.ctx ≠ c) || decide (t.slot ≠ slot)),
      collectives := s.lnk.collectives.filter (fun x => decide (x.ctx ≠ c) || decide (x.slot ≠ slot)),
      backlog := s.lnk.backlog.filter (fun m => decide (m.owner ≠ some (c, slot))),
      tx := s.lnk.tx.map (fun e => (e.1, { e.2 with unacked := e.2.unacked.filter (fun m => decide (m.owner ≠ some (c, slot))) })) } }

/-- LINK_TRANSFER_COMPLETE: the slot's status and end time are written; once they are visible, done_ctr is raised. -/
def execLinkTransferComplete (ctx slot : Nat) (s : State) : Answer :=
  match s.lnk.transfers.find? (fun t => decide (t.ctx = ctx) && decide (t.slot = slot)) with
  | none => .next s
  | some t =>
    if !(s.dieCtl 0 && s.dieCtl 1) || !s.transferDone t then .next s
    else
      let st := t.status.getD 0
      let s1 := s.hbmWrite (t.frame * 65536 + t.slot * 64 + 48) (leBytes 2 st.toNat ++ zeros 6 ++ leBytes 8 s.time)
        (s.hreq t.keySlot (s.sysWays (t.frame * 65536)))
      let s2 := s1.raiseIn t.panel (t.b 2 1) (t.b 1 1)
      let s3 := if t.op = 4 ∧ t.status = none then s2.count (lnkReg 0x128) 1 else s2
      .next (((s3.dropTransfer ctx slot).collEngines).pumpTransfers)

/-- A recovery, a change of tag or a revocation cancels the transfers of a context (R371). -/
def State.cancelTransfers (s : State) (c : Nat) : State :=
  let s1 := (s.lnk.transfers.filter (fun t => decide (t.ctx = c))).foldl (fun s t => s.dropTransfer c t.slot) s
  { s1 with lnk := { s1.lnk with
      tx := s1.lnk.tx.map (fun e => (e.1, { e.2 with unacked := e.2.unacked.filter (fun m =>
        decide (m.hdr.srcCtx.toNat ≠ c) || decide (7 ≤ m.hdr.kind)) })),
      backlog := s1.lnk.backlog.filter (fun m => decide (m.hdr.srcCtx.toNat ≠ c) || decide (7 ≤ m.hdr.kind)) } }

end Sys2Proof.Machine
end

