-- ==== Sys2Proof/Machine/Abort.lean ====
section
/-! DEFINITION. Stopping steps and revoking keys (16 R422, 17 R447, R448): the cores of a panel are stopped and cleared, queued steps
are withdrawn, and a key slot's users are aborted. -/

namespace Sys2Proof.Machine

/-! ## Stopping and clearing a panel (R422 phases 2 and 4) -/

/-- Stop every core of a panel: phase 2. -/
def State.stopPanel (s : State) (k : Nat) : State :=
  (s.panelCores k).foldl (fun s p => s.modSeq p (fun q => { q with state := .frozen, held := none })) s

/-- A slice after phase 4: zero-filled, secure tiles wiped, counters zero, no resident context. Its secure mark stays until a hand-off
(06 R174). -/
def Slice.cleared (sl : Slice) : Slice :=
  let a := sl.fill.wipeSecure
  { a with arrival := [], resident := none }

/-- A core after phase 4, released: its sequencer idle, its engines empty and fresh. -/
def Core.cleared (c : Core) : Core :=
  { c with
    seq := { c.seq with state := .idle, held := none, fetch := [], loops := [], regs := [], offsets := [], trail := {}, loopBuf := [],
                        qMx := [], qVx := [], qStr := [] },
    mx := { c.mx with plane0 := {}, plane1 := {}, acc := [], live := [], maps := [], loadToggle := false, streamToggle := false,
                      active := [], lastPlane := false, mmsDone := true },
    vx := { c.vx with descs := [], consts := [], unit := [] },
    str := { c.str with slots := [], toggle := false, halted := false, stopping := false, handled := false, frozen := false,
                        reported := [] },
    slice := c.slice.cleared, started := false, haltReported := false, rcViolated := false }

/-- Clear the cores of a panel and drop the translations of a context (scope 1). -/
def State.clearPanel (s : State) (k c : Nat) : State :=
  ((s.panelCores k).foldl (fun s p => s.modCore p Core.cleared) s).invNow 1 c 0 0

/-- Cancel the selector requests, dispatch jobs and link transfers of a context. -/
def State.cancelWork (s : State) (c : Nat) : State := ((s.cancelReqs c).eduCancel c).cancelTransfers c

/-! ## Ending steps early -/

/-- Every sequence of a step that has no failure takes a status. -/
def Step.failAll (st : Step) (status : Half) : Step :=
  { st with seqs := st.seqs.map (fun q => if q.status = 0 then { q with status := status } else q) }

/-- A context is frozen: a recovery or a claim is to end its steps (16 R420, R422). -/
def State.stopping (s : State) (c : Nat) : Bool := (s.ctx c).recovering || (s.ctx c).claimOpen || (s.ctx c).claimed

/-- The record of a stopped step, unless a claim wrote it: ST_FROZEN comes before ST_REVOKED (12 R314) and stops the window's rings (12
R300). -/
def State.recordStop (s : State) (st : Step) (status0 : Half) : State :=
  let status : Half := if s.stopping st.ctx then 0x000B else status0
  if st.recorded then s
  else
    let e := s.stepEnergy
    let s1 := (e.2.modCtx st.ctx (fun x => x.takeAccount st e.1)).writeRecord st status false e.1
    if status = 0x000B then s1.ringError st.window status false else s1

/-- A companion is stopped: its sequences fail, and its context is charged (13 R349). -/
def State.stopCompanion (s : State) (st : Step) (status : Half) : State :=
  let e := s.stepEnergy
  (e.2.endCompanion (st.failAll status) e.1).modCtx st.ctx (fun x => x.takeAccount st e.1)

/-- A step that leaves its panel's queue: its record, or its companion's end. Its time switched out counts (13 R333). -/
def State.withdraw (s : State) (k : Nat) (st : Step) (status : Half) : State :=
  let same (y : Step) : Bool := decide (y.window = st.window) && (y.isComp == st.isComp)
  let st := match (s.panel k).switched.find? (fun v => same v.step) with
    | some v => { st with switchedNs := st.switchedNs + (s.time - v.since) }
    | none => st
  let s1 := (s.modPanel k (fun pn => { pn with
    queue := pn.queue.filter (fun y => !same y), switched := pn.switched.filter (fun v => !same v.step) })).dropNeed st.needKey
  if st.isComp then s1.stopCompanion st status
  else ((s1.release st.ctx).dropCompanion st.window).recordStop st status

/-- Withdraw the queued steps for which `p` holds. -/
def State.withdrawWhere (s : State) (p : Step → Bool) (status : Half) : State :=
  (List.range 16).foldl (fun s k => ((s.panel k).queue.filter p).foldl (fun s st => s.withdraw k st status) s) s

/-- A running step is stopped: phases 2 to 4 for its panel, its record, and the panel is free. -/
def State.killRunning (s : State) (k : Nat) (st : Step) (status : Half) : State :=
  let s1 := ((s.stopPanel k).cancelWork st.ctx).clearPanel k st.ctx
  let s2 := s1.freePanel k
  let s3 := if st.isComp then s2.stopCompanion (st.addBusy (s.busySums k)) status
    else ((s2.release st.ctx).dropCompanion st.window).recordStop (st.addBusy (s.busySums k)) status
  s3.chooseState k

/-- Stop the running steps for which `p` holds. -/
def State.killWhere (s : State) (p : Step → Bool) (status : Half) : State :=
  (List.range 16).foldl (fun s k => match (s.panel k).running with
    | some st => if p st then s.killRunning k st status else s
    | none => s) s

/-- STEP_RUN packets of a context that have not reached point 1. -/
def State.dropPackets (s : State) (c : Nat) (status : Half) : State :=
  ((Tab.keys s.cmd.windows).filter (fun k => decide ((s.window k).ctx = some c) && !s.hasStep k)).foldl (fun s k =>
    match (s.window k).stepPkt with
    | some p =>
      if p.opcode = 0x0101 then
        let s1 := s.endPacket k false p status
        if status = 0x000B then s1.ringError k status false else s1
      else s
    | none => s) s

/-! ## Revoking a slot (17 R447, R449) -/

/-- A step captured a generation of a slot that the slot still holds. -/
def State.capturedBy (s : State) (slot : Nat) (st : Step) : Bool :=
  st.keyGens.any (fun g => decide (g.1 = slot) && s.genCurrent slot g.2)

/-- Complete an erase that waits on a slot that has become empty: the mailbox's, or a session's (R446, R452). -/
def State.eraseDone (s : State) (slot : Nat) : State :=
  let s1 := if s.sec.eraseWait = some slot then { s with sec := { s.sec with eraseWait := none } }.mbxReply 0 else s
  match s1.sec.closeWait.find? (fun x => decide (x.1 = slot)) with
  | none => s1
  | some (_, fn) =>
    { s1 with sec := { s1.sec with closeWait := s1.sec.closeWait.filter (fun x => decide (x.1 ≠ slot)) } }.emit (.spdm (.doe fn) [0])

/-- Revoke a slot: its users are aborted, its dirty lines dropped, both generations destroyed. The steps of a context that is frozen end with
its recovery or its claim (12 R314). -/
def State.revokeSlot (s : State) (slot : Nat) : State :=
  if (s.slot slot).type = 0 then s
  else
    let hit (st : Step) : Bool := s.capturedBy slot st && !s.stopping st.ctx
    let s1 := (s.killWhere hit 7).withdrawWhere hit 7
    let cs := (Tab.keys s1.cmd.ctxs).filter (fun c => (s1.ctx c).bound && (ctxSlots (s1.ctx c).f).contains slot)
    let s2 := cs.foldl (fun s c => s.cancelWork c) s1
    (s2.emptySlot slot).eraseDone slot

/-! ## Contexts that go (16 R425, 18 R476) -/

/-- A context is destroyed: its window is unbound and disabled, and its entry is cleared but for its tag; frames are not freed. -/
def State.destroyCtx (s : State) (c : Nat) : State :=
  let x := s.ctx c
  if !x.bound then s
  else
    let w := winKey x.f.fn.toNat x.f.window.toNat
    let s1 := s.modWindow w (fun y => if y.ctx = some c then { y with ctx := none, enable := false } else y)
    let s2 := (s1.unregister c).invNow 1 c 0 0
    { s2 with
      cmd := { s2.cmd with ctxs := Tab.set s2.cmd.ctxs c { gen := x.gen, genUsed := x.genUsed } },
      edu := { s2.edu with current := Tab.erase s2.edu.current c, pending := Tab.erase s2.edu.pending c,
                           steps := Tab.erase s2.edu.steps c } }

end Sys2Proof.Machine
end

