-- ==== Sys2Proof/Machine/Governor.lean ====
section
/-! DEFINITION. The governor's tick and its registers (15 R383 to R401): allocation, dead work, throttle reasons, phases, pre-ramps,
grants, thermal limits, and the power-up of islands (01 R29, R30). Draws are in hundredths of a W unless said otherwise. -/

namespace Sys2Proof.Machine

/-! ## Registers (R384, R388) -/

/-- The sum of power_res over the class-0 panels, with entry `e` in place of panel `k`'s if given. -/
def State.class0Reserve (s : State) (k : Nat) (e : Option PanelFields) : Nat :=
  (((List.range 16).map (fun j =>
    let x := if j = k then e else if (s.panel j).written then some (s.panel j).entry else none
    match x with
    | some f => if f.class0 then f.powerRes.toNat else 0
    | none => 0))).foldl (· + ·) 0

/-- The values of GOV_BAND lie in their ranges, and the cap covers the class-0 reserve and 400 W (R384). -/
def State.bandOk (s : State) (cap floor ramp : Nat) : Bool :=
  decide (400 ≤ cap ∧ cap ≤ 1500) && decide (floor ≤ cap) && decide (1 ≤ ramp ∧ ramp ≤ 100) &&
  decide (s.class0Reserve 16 none + 400 ≤ cap)

/-- A floor above the present draw is a rise that needs a grant beyond the allowance; until then what the allowance admits holds (R385,
R399). -/
def State.raiseFloor (s0 : State) (floor : Nat) : State :=
  let s := s0.dropNeed floorKey
  let rise := floor - max s.gov.draw s.gov.floorNow
  if rise = 0 ∨ s.gov.authority = 0 ∨ s.gov.authority = 3 then s
  else if rise ≤ s.allowance then s.takeRise rise
  else
    let have' := s.allowance
    ({ s.takeRise have' with gov := { (s.takeRise have').gov with floorWas := floor - (rise - have') } } : State).waitGrant floorKey
      (rise - have')

/-- GOV_BAND_WRITE: a PF write of the band; one out of range changes nothing. -/
def execGovBandWrite (value : W32) (s : State) : Answer :=
  s.hostTo (.govBandWrite value) [244] (fun s =>
    let v := value.toNat
    let cap := bits v 10 0
    let floor := bits v 21 11
    let ramp := bits v 28 22
    if !s.barOpen 0 then .next s
    else if s.locked 1 then .next (s.pfLocked (govReg 0))
    else if !s.bandOk cap floor ramp then .next (s.event 0x6801)
    else
      let s1 := s.raiseFloor floor
      .next { s1 with gov := { s1.gov with cap := cap, floor := floor, ramp := ramp } })

/-- The four 2-bit codes of an order. -/
def orderCodes (o : Nat) : List Nat := (List.range 4).map (fun i => o / 4 ^ i % 4)

/-- GOV_MODE_WRITE: a PF write of mode and order; an order that is no permutation changes nothing. -/
def execGovModeWrite (value : W32) (s : State) : Answer :=
  s.hostTo (.govModeWrite value) [244] (fun s =>
    let v := value.toNat
    if !s.barOpen 0 then .next s
    else if s.locked 1 then .next (s.pfLocked (govReg 4))
    else if !(List.range 4).all (fun d => (orderCodes (bits v 9 2)).contains d) then .next (s.event 0x6801)
    else .next { s with gov := { s.gov with learned := bitAt v 0, order := BitVec.ofNat 8 (bits v 9 2) } })

/-! ## Thermal limits (R410) -/

/-- The thermal throttle's issue limit after a tick. -/
def Gov.throttled (g : Gov) (junction : Nat) : Nat :=
  if g.tThrottle ≤ junction then max 1 (g.throttleL - 8)
  else if junction + 2 ≤ g.tThrottle then min 64 (g.throttleL + 1)
  else g.throttleL

/-- The thermal emergency and hold, with their events. -/
def State.thermal (s : State) (junction : Nat) : State :=
  let g := s.gov
  let em := decide (100 < junction)
  let hold := if 105 ≤ junction then true else if junction < 100 then false else g.thermalHold
  let s1 := { s with gov := { g with throttleL := g.throttled junction, emergency := em, thermalHold := hold } }
  let s2 := if em && !g.emergency then s1.event 0x6806 else s1
  if hold && !g.thermalHold then s2.event 0x6807 else s2

/-! ## Phases and pre-ramps (R389, R390) -/

/-- The newest hint of a panel. -/
def State.lastHint (s : State) (k : Nat) : Option Hint := (Tab.get [] s.gov.hints k).getLast?

/-- The phase that a hint announces, once its step has started. -/
def Hint.run (h : Hint) : Option PhaseRun :=
  match h.phase with
  | some (id, start, len) =>
    if h.stepStart = 0 then none
    else some { model := h.model, id := id, start := h.stepStart + start * 1000, stop := h.stepStart + (start + len) * 1000 }
  | none => none

/-- Replace the least recently updated entry of a full phase table. -/
def makePhaseRoom (t : Tab PhaseEntry) (key : Nat) : Tab PhaseEntry :=
  if t.length < 1024 ∨ (Tab.find t key).isSome then t
  else match t.foldl (fun (a : Option (Nat × PhaseEntry)) e => match a with
      | some x => if x.2.updated ≤ e.2.updated then some x else some e
      | none => some e) none with
    | some x => Tab.erase t x.1
    | none => t

/-- An exponential average with weight 1/8. -/
def average (old new : Nat) : Nat := if old ≤ new then old + (new - old) / 8 else old - (old - new) / 8

/-- A phase ends: its mean draw and length enter the table. The draw of one panel is no reading of R383: a free value
(log entry 23). -/
def State.endPhase (s : State) (k : Nat) (r : PhaseRun) : State :=
  let d := s.drawWords 1
  let draw := (d.1.headD 0).toNat % 2048
  let len := (min s.time r.stop - r.start) / 1000
  let key := r.model.toNat * 256 + r.id
  let e : PhaseEntry := match Tab.find s.gov.phases key with
    | some o => { draw := average o.draw draw, lenUs := average o.lenUs len, updated := s.time }
    | none => { draw := draw, lenUs := len, updated := s.time }
  { d.2 with gov := { s.gov with
      phases := Tab.set (makePhaseRoom s.gov.phases key) key e, phaseOn := Tab.erase s.gov.phaseOn k } }

/-- End the phase of a panel that is over or that a newer hint follows, and begin the one that the newest hint announces, at which its
pre-ramp ends with its need of a grant. -/
def State.phaseStep (s : State) (k : Nat) : State :=
  let now := (s.lastHint k).bind Hint.run
  let s1 := match Tab.find s.gov.phaseOn k with
    | some r => if r.stop ≤ s.time ∨ now ≠ some r then s.endPhase k r else s
    | none => s
  match now, Tab.find s1.gov.phaseOn k with
  | some r, none =>
    if r.start ≤ s.time ∧ s.time < r.stop then
      ({ s1 with gov := { s1.gov with phaseOn := Tab.set s1.gov.phaseOn k r, preRamp := Tab.erase s1.gov.preRamp k } } : State).dropNeed
        (0x10000 + k)
    else s1
  | _, _ => s1

/-- A hint posted since the last tick whose phase has a table entry starts a pre-ramp: a rise in draw (R390, R399). -/
def State.startPreRamp (s : State) (k : Nat) : State :=
  match s.lastHint k with
  | none => s
  | some h =>
    match h.phase with
    | none => s
    | some (id, _, _) =>
      match s.phaseOf h.model id with
      | none => s
      | some e =>
        let rise := e.draw - s.panelDraw k
        if h.posted < s.gov.lastTick ∨ rise = 0 ∨ (Tab.find s.gov.preRamp k).isSome then s
        else
          let s1 := { s with gov := { s.gov with preRamp := Tab.set s.gov.preRamp k rise } }
          if s.grantFree k then s1
          else if rise ≤ s.allowance then s1.takeRise rise
          else (s1.takeRise s.allowance).waitGrant (0x10000 + k) (rise - s.allowance)

/-- The dead work that pre-ramps which wait for no grant ask for, in W. -/
def State.preRampW (s : State) : Nat :=
  ((s.gov.preRamp.filter (fun e => !s.gov.waiting.any (fun w => decide (w.1 = 0x10000 + e.1)))).map Prod.snd).foldl (· + ·) 0

/-- PRE_RAMP_FALLBACK: the phase has not started 1 ms after its expected start. -/
def execPreRampFallback (panel : Nat) (s : State) : Answer :=
  let late := match s.lastHint panel with
    | some h => match h.run with
      | some r => decide (r.start + 1000000 ≤ s.time)
      | none => decide (h.posted + 1000000 ≤ s.time)
    | none => true
  if s.islandOn 244 && (Tab.find s.gov.preRamp panel).isSome && (Tab.find s.gov.phaseOn panel).isNone && late then
    .next ({ s with gov := { s.gov with preRamp := Tab.erase s.gov.preRamp panel } }.dropNeed (0x10000 + panel))
  else .next s

/-! ## Allocation (R387, R388) -/

/-- What 34 A draw at the input voltage of the last tick (19 R501). -/
def Gov.inputLimit (g : Gov) : Nat := 34 * g.vinMv / 10

/-- The effective cap: GOV_BAND.cap, or 34 A at the input voltage (19 R501). -/
def Gov.capNow (g : Gov) : Nat := min (100 * g.cap) g.inputLimit

/-- The upper bound of the draw: the effective cap, or the ramp above the present draw; a cap below it is reached at the ramp rate (R385,
R388). -/
def Gov.hi (g : Gov) : Nat := max (min g.capNow (100 * g.draw + g.ramp)) (100 * g.draw - g.ramp)

/-- The latest report of every island (01 R24). -/
def Gov.reports (g : Gov) : List (Nat × List Nat × Nat) := g.activity.map (fun e => (e.1, e.2.counts, e.2.belowNs))

/-- The draw of a domain at this tick, in W: a free value of the reports (01 R24, R383). Log entry 22. -/
def Gov.domainW (g : Gov) (d : Nat) : Nat := Config.domainDraw g.draw g.reports d % 2048

/-- The lowest island clock in percent of nominal: 100 while no report shows time below nominal (01 R24, R395). -/
def Gov.clockPct (g : Gov) : Nat := if g.activity.all (fun e => e.2.belowNs = 0) then 100 else Config.clockPct g.reports % 100

/-- The domain of a core's units: class-0 compute or other compute. -/
def State.domainOf (s : State) (k : Nat) : Nat := if s.class0Panel k then 0 else 3

/-- The panels inside a hinted phase with a table entry that are not exempt, earliest start first, with the entry's mean draw (R389). -/
def State.phaseNeeds (s : State) : List (Nat × Nat) :=
  ((s.gov.phaseOn.filter (fun e => !(s.panel e.1).admitted)).mergeSort (fun a b => decide (a.2.start ≤ b.2.start))).filterMap (fun e =>
    (s.phaseOf e.2.model e.2.id).map (fun x => (e.1, 100 * x.draw)))

/-- The draw of a panel at this tick: a free value of the reports. Log entry 22. -/
def Gov.panelW (g : Gov) (k : Nat) : Nat := 100 * (Config.panelWatts g.draw g.reports k % 2048)

/-- The sum of a quantity over the panels of a domain that are inside a phase with an entry. -/
def State.phaseSum (s : State) (d : Nat) (f : Nat × Nat → Nat) : Nat :=
  ((s.phaseNeeds.filter (fun x => decide (s.domainOf x.1 = d))).map f).sum

/-- What each domain wants: its draw, and the rise that the running phases of its panels predict (R388, R389). -/
def State.wants (s : State) : List Nat :=
  (List.range 4).map (fun d => 100 * s.gov.domainW d + s.phaseSum d (fun x => x.2 - s.gov.panelW x.1))

/-- Give the available draw to the domains in their order. -/
def giveAll (order wants : List Nat) (avail : Nat) : List Nat × Nat :=
  order.foldl (fun (acc : List Nat × Nat) d =>
    let g := min (wants.getD d 0) acc.2
    (acc.1.set d g, acc.2 - g)) ([0, 0, 0, 0], avail)

/-- L and Q of a domain or of a panel: 64 and 0 where its want is given, else values whose predicted draw fits, here free. -/
def fitOf (want give : Nat) : Nat × Nat :=
  if want ≤ give then (64, 0)
  else (1 + (Config.fitLimit want give).1 % 64, (Config.fitLimit want give).2 % 65)

/-- What a tick gives: to each panel that is served by itself, and to each domain for its other panels, with what each wants. -/
structure Gives where
  panels  : List (Nat × Nat × Nat) := []
  wants   : List Nat := []
  domains : List Nat := []
  deriving DecidableEq, Repr

/-- All that a tick gives. -/
def Gives.total (g : Gives) : Nat := (g.panels.map (fun x => x.2.2)).sum + g.domains.sum

/-- The fit of a domain. -/
def Gives.domainFit (g : Gives) (d : Nat) : Nat × Nat := fitOf (g.wants.getD d 0) (g.domains.getD d 0)

/-- The fit of the units of a panel of a domain. -/
def Gives.panelFit (g : Gives) (d k : Nat) : Nat × Nat :=
  match g.panels.find? (fun x => decide (x.1 = k)) with
  | some x => fitOf x.2.1 x.2.2
  | none => g.domainFit d

/-- The allocation of a tick (R388, R389): by the register's order, in learned mode after the panels inside a phase with an entry, each of
which is given by itself. -/
def State.giveNow (s : State) (wants : List Nat) (avail : Nat) : Gives :=
  let codes := orderCodes s.gov.order.toNat
  if s.gov.learned then
    let first := s.phaseNeeds.foldl (fun (acc : List (Nat × Nat × Nat) × Nat) x =>
      (acc.1 ++ [(x.1, x.2, min x.2 acc.2)], acc.2 - min x.2 acc.2)) ([], avail)
    let rest := wants.zipIdx.map (fun x => x.1 - s.phaseSum x.2 (fun y => max y.2 (s.gov.panelW y.1)))
    { panels := first.1, wants := rest, domains := (giveAll codes rest first.2).1 }
  else { wants := wants, domains := (giveAll codes wants avail).1 }

/-- The reserve: power_res of every admitted class-0 panel that is idle, in W (R394). -/
def State.reserveW (s : State) : Nat :=
  ((s.panels.filter (fun k => (s.panel k).admitted && (s.panel k).running.isNone)).map (fun k =>
    (s.panel k).entry.powerRes.toNat)).foldl (· + ·) 0

/-- Cores of panels whose step starts under the ramp reason are released one by one, as the ramp admits their shares (R403). -/
def State.releaseCores (s : State) : State :=
  let start (s : State) (k : Nat) : State :=
    match (s.panel k).running with
    | some st =>
      if st.handed ≠ 0 ∧ s.gov.lastTick < st.handed ∧ bitAt s.gov.reasons.toNat 3 = true then
        let rise := s.stepRise k (s.ctx st.ctx).f.model st.hints
        { s with gov := { s.gov with releasing := Tab.set s.gov.releasing k { rise := rise, held := s.panelLogical k } } }
      else s
    | none => { s with gov := { s.gov with releasing := Tab.erase s.gov.releasing k } }
  let s1 := s.panels.foldl start s
  { s1 with gov := { s1.gov with releasing := s1.gov.releasing.filterMap (fun e =>
      let all := s1.panelLogical e.1
      let share := max 1 (100 * e.2.rise / max 1 all.length)
      let n := 1 + (s1.time - (s1.panel e.1).lastHandoff) * s1.gov.ramp / 10000 / share
      let left := all.drop n
      if left = [] then none else some (e.1, { e.2 with held := left })) } }

/-- The stream units of a panel carry memory traffic: a descriptor of one is open (R387). -/
def State.streamsOpen (s : State) (k : Nat) : Bool := (s.panelCores k).any (fun p => !(s.core p).str.slots.isEmpty)

/-- The limits of one core of panel `k`. The memory's pace binds the panels whose stream units carry its traffic, and the links' those that
have posted a transfer (R387). -/
def State.limitFor (s : State) (g : Gives) (p k : Nat) : Limit :=
  let l := g.panelFit (s.domainOf k) k
  let q := max l.2 (max (if s.streamsOpen k then (g.domainFit 1).2 else 0)
    (if s.lnk.transfers.any (fun t => decide (t.panel = k)) then (g.domainFit 2).2 else 0))
  let starting := (Tab.find s.gov.releasing k).any (fun r => r.held.contains (s.core p).logical)
  if s.gov.thermalHold then { l := s.gov.throttleL, f := 0, hold := true, q := 1 }
  else if (s.panel k).admitted then {}
  else if starting then { l := min l.1 s.gov.throttleL, f := 0, hold := true, q := 1 }
  else { l := min l.1 s.gov.throttleL, f := 0, hold := false, q := q }

/-- Write the limits of every core of a panel. -/
def State.setLimits (s : State) (g : Gives) : State :=
  (Tab.keys s.cores).foldl (fun s p =>
    match (s.core p).panel with
    | some k => { s with gov := { s.gov with limits := Tab.set s.gov.limits p (s.limitFor g p k) } }
    | none => { s with gov := { s.gov with limits := Tab.erase s.gov.limits p } }) s

/-- Spread dead work of `need` over the arrays that may run it (R392): a slot adds 4 W / 64. Where they cannot supply `low`, what the lower
bound asks for, that is reported (R393). -/
def State.spreadDead (s : State) (need low : Nat) : State :=
  let as := s.deadArrays
  let slots := ceilDiv (need * 4) 25
  let n := as.length
  let f (i : Nat) : Nat := if 64 * n ≤ slots then 64 else slots / n + (if i < slots % n then 1 else 0)
  let s1 := as.zipIdx.foldl (fun (s : State) x =>
    let l := Tab.get {} s.gov.limits x.1
    { s with gov := { s.gov with limits := Tab.set s.gov.limits x.1 { l with f := f x.2 } } }) s
  if 64 * n < ceilDiv (low * 4) 25 then s1.eventPerMs 0x6802 else s1

/-! ## Throttle reasons (R395, R396) -/

/-- A core is limited and not exempt. -/
def State.isLimited (s : State) (p : Nat) : Bool :=
  let g := Tab.get {} s.gov.limits p
  decide (g.l < 64) || decide (g.q ≠ 0)

/-- The cores of panels that are not exempt. -/
def State.openCores (s : State) : List Nat :=
  (Tab.keys s.cores).filter (fun p => match (s.core p).panel with
    | some k => !(s.panel k).admitted
    | none => false)

/-- The lowest L applied, 0 where an array is held. -/
def State.lowestL (s : State) : Nat :=
  ((s.openCores).map (fun p => if (Tab.get {} s.gov.limits p).hold then 0 else (Tab.get {} s.gov.limits p).l)).foldl min 64

/-- The active reasons with their levels, by bit. Where 34 A at the input voltage sets the cap, the cap is reported (19 R501). -/
def State.reasonsNow (s : State) (r : GovReading) : List (Bool × Nat) :=
  let g := s.gov
  let limited := s.openCores.any s.isLimited
  let top := decide (g.capNow ≤ 100 * g.draw + g.ramp)
  let needs := g.waiting.filter (fun x => decide (x.1 ≠ floorKey))
  [((top && limited) || decide (g.inputLimit < 100 * g.cap), s.lowestL), (decide (g.tThrottle ≤ r.junction), s.lowestL), (decide (g.clockPct < 100), g.clockPct),
   (!top && (limited || !g.releasing.isEmpty), s.lowestL), (!needs.isEmpty, min 255 needs.length)]

/-- One reason at a tick: its counter, and its entry of the ring. -/
def State.tickReason (s : State) (i : Nat) (on : Bool) (level : Nat) : State :=
  let g := s.gov
  match Tab.find g.openReasons i with
  | some o =>
    if on then
      let old := Tab.get ({} : RingEntry) g.ring o.entry
      ({ s with gov := { g with
        ring := Tab.set g.ring o.entry { old with level := if i = 4 then old.level else min old.level level },
        openReasons := Tab.set g.openReasons i { o with last := s.time } } }).count (govReg (0x100 + 8 * i)) 10
    else if o.last + 100000 ≤ s.time then
      let old := Tab.get ({} : RingEntry) g.ring o.entry
      { s with gov := { g with
        ring := Tab.set g.ring o.entry { old with duration := BitVec.ofNat 32 ((o.last - o.first) / 1000) },
        openReasons := Tab.erase g.openReasons i } }
    else s
  | none =>
    if on then
      ({ s with gov := { g with
        ring := Tab.set g.ring g.ringNext { start := s.clk.now, duration := 0xFFFFFFFF, reason := i, level := level },
        ringNext := (g.ringNext + 1) % 256,
        openReasons := Tab.set g.openReasons i { entry := g.ringNext, first := s.time, last := s.time } } }).count
          (govReg (0x100 + 8 * i)) 10
    else s

/-- Every reason at a tick. -/
def State.tickReasons (s : State) (rs : List (Bool × Nat)) : State :=
  let s1 := rs.zipIdx.foldl (fun s x => s.tickReason x.2 x.1.1 x.1.2) s
  { s1 with gov := { s1.gov with reasons := BitVec.ofNat 5 (maskOf ((rs.zipIdx.filter (fun x => x.1.1)).map Prod.snd)) } }

/-- Steps whose panel a reason other than droop limits or holds set flag 9 (R396). -/
def State.markLimited (s : State) : State :=
  s.panels.foldl (fun s k =>
    let hit := (s.panelCores k).any (fun p => s.isLimited p || (Tab.get {} s.gov.limits p).hold)
    if hit then s.modPanel k (fun pn => { pn with running := pn.running.map (fun st => { st with limited := true }) }) else s) s

/-! ## Energy (13 R352) -/

/-- One tick of 10 µs adds a hundredth of a mJ for each W: the module's, the dead work's, and what no context is charged. -/
def State.tickEnergy (s : State) (r : GovReading) : State :=
  let g := s.gov
  let busy := s.panels.any (fun k => (s.panel k).running.isSome)
  let e := g.energyAcc + r.draw
  let d := g.deadAcc + r.dead
  let i := g.idleAcc + (if busy then r.fixed + r.dead else r.draw)
  (({ s with gov := { g with energyAcc := e % 100, deadAcc := d % 100, idleAcc := i % 100 } }.count (govReg 0x128) (e / 100)).count
    (govReg 0x130) (d / 100)).count (govReg 0x138) (i / 100)

/-! ## The tick (R383) -/

/-- The readings of a tick, the thermal response, and class-0 admission (R339). -/
def State.tickReadings (s : State) (r : GovReading) : State :=
  let s1 := { s with gov := { s.gov with draw := r.draw, exempt := r.exempt, deadW := r.dead, vinMv := r.vinMv, junction := r.junction } }
  let s2 := s1.thermal r.junction
  s2.panels.foldl (fun s k => s.evalAdmission k) s2

/-- Phases and pre-ramps of every panel. -/
def State.tickPhases (s : State) : State := s.panels.foldl (fun s k => (s.phaseStep k).startPreRamp k) s

/-- The module enters, is in or leaves M-PARK, to which the band does not apply (R386). -/
def State.parking (s : State) : Bool := decide (s.gov.mState = .park) || decide (s.gov.mTarget = some .park)

/-- The draw has risen beyond the ramp since the tick `g` with a rise of exempt draw (R394). -/
def State.rampExceeded (s : State) (g : Gov) : Bool :=
  decide (g.lastTick ≠ 0) && decide (100 * g.draw + g.ramp < 100 * s.gov.draw) && decide (g.exempt < s.gov.exempt)

/-- The allocation of a tick: limits, reserve and dead work (R388, R394). Near M-PARK nothing is limited or filled (R386). -/
def State.tickAllocate (s : State) (r : GovReading) : State :=
  let s1 := s.releaseCores
  let reserve := s1.reserveW
  let taken := 100 * (r.fixed + reserve + r.exempt)
  let avail := s1.gov.hi - taken
  let wants := s1.wants
  let gives := if s1.parking then {} else s1.giveNow wants avail
  let s2 := { s1 with gov := { s1.gov with reserve := reserve } }.setLimits gives
  let predicted := 100 * (r.fixed + r.exempt) + gives.total
  let want := max (s2.gov.lo + 100 * reserve) (min s2.gov.hi (predicted + 100 * s2.preRampW))
  let need := if s2.gov.emergency then 0 else min (want - predicted) (s2.gov.hi - predicted)
  if s2.parking then s2 else s2.spreadDead need (if s2.gov.emergency then 0 else s2.gov.lo - predicted)

/-- GOVERNOR_TICK: readings, phases, allocation, reasons, energy and power states. In boot and HOLD the readings alone go on (R386, 18
R471). -/
def execGovernorTick (r : GovReading) (s : State) : Answer :=
  if !s.islandOn 244 then .next s
  else if s.mgt.state ≠ .ready then
    let s1 := (s.tickReadings r).tickEnergy r
    .next { s1 with gov := { s1.gov with lastTick := s.time } }
  else
    let s0 := ((s.tickReadings r).tickPhases).tickAllocate r
    let s1 := if s0.rampExceeded s.gov then s0.event 0x6803 else s0
    let s2 := (((s1.tickReasons (s1.reasonsNow r)).markLimited).tickEnergy r)
    let s3 := (s2.panels.foldl (fun s k => s.chooseState k) s2).chooseModule
    .next { s3 with gov := { s3.gov with lastTick := s.time } }

/-! ## Cage grants (R399, R400) -/

/-- A grant goes to the oldest waiting need: a step, whose wait ends, or a pre-ramp. -/
def State.applyGrant (s : State) : State :=
  match s.gov.waiting with
  | [] => s
  | (key, _) :: rest =>
    let s1 := { s with gov := { s.gov with waiting := rest } }
    { s1 with cmd := { s1.cmd with panels := s1.cmd.panels.map (fun (e : Nat × Panel) => (e.1, { e.2 with
        queue := e.2.queue.map (fun (st : Step) =>
          if st.needKey = key ∧ st.granted = false then
            { st with granted := true, grantUs := st.grantUs + (s.time - st.waitSince) / 1000 } else st) })) } }

/-- CAGE_GRANT_RX: the grant of the request that is out. -/
def execCageGrantRx (requestId watts validUs : Nat) (s : State) : Answer :=
  if !s.islandOn 244 || decide (s.gov.pendingW = 0) || decide (requestId ≠ s.gov.requestId) then .next s
  else
    let s1 := s.count (govReg 0x140) 1
    let s2 := { s1 with gov := { s1.gov with pendingW := 0, grantW := watts, grantUntil := s.time + validUs * 1000 } }
    .next (s2.applyGrant).sendRequest

/-- GRANT_LATE: no answer within 10 ms; the request goes to the standby headframe. -/
def execGrantLate (s : State) : Answer :=
  let g := s.gov
  if s.islandOn 244 && decide (g.pendingW ≠ 0) && decide (g.requestTime + 10000000 ≤ s.time) then
    .next ((({ s with gov := { g with requestTime := s.time } }.emit (.grantRequest g.requestId g.pendingW true))).event 0x6808)
  else .next s

/-- GRANT_VALID_EXPIRY: a grant that has not been taken up lapses, and a step that it admitted waits again. -/
def execGrantValidExpiry (s : State) : Answer :=
  let g := s.gov
  if !s.islandOn 244 || decide (g.grantW = 0) || decide (s.time < g.grantUntil) then .next s
  else
    let idle := s.cmd.panels.flatMap (fun e => e.2.queue.filter (fun st => st.granted && decide (st.needW ≠ 0) && !st.prepared))
    let keys := idle.map (fun st => (st.needKey, st.needW))
    let s1 := { s with
      gov := { g with grantW := 0, waiting := g.waiting ++ keys },
      cmd := { s.cmd with panels := s.cmd.panels.map (fun (e : Nat × Panel) => (e.1, { e.2 with
        queue := e.2.queue.map (fun (st : Step) => if st.granted && decide (st.needW ≠ 0) && !st.prepared then
          { st with granted := false, waitSince := s.time } else st) })) } }
    .next s1.sendRequest

/-! ## Islands (01 R29, R30, R401) -/

/-- CLOCK_HOLD: an island stops its clock and holds all state. -/
def execClockHold (island : Nat) (s : State) : Answer :=
  if s.pins.dieOn && decide (island < 256) && !(s.clk.held.contains island) then
    .next ({ s with clk := { s.clk with held := s.clk.held ++ [island] } }.event 0x7001)
  else .next s

/-- CLOCK_RESUME: the island restarts at its floor, and what its neighbours held for it moves on (R29, R30). -/
def execClockResume (island : Nat) (s : State) : Answer :=
  if s.pins.dieOn && s.clk.held.contains island then
    .next { s with clk := { s.clk with held := s.clk.held.filter (fun i => decide (i ≠ island)) } }.netResume
  else .next s

end Sys2Proof.Machine
end

