-- ==== Sys2Proof/Machine/Recovery.lean ====
section
/-! DEFINITION. Freeze records, claims, watchdogs, context recovery, scrubbing, canary windows and die-to-die lanes (16 R408, R409,
R419 to R438). -/

namespace Sys2Proof.Machine

/-! ## Freeze records and claims (R419, R420) -/

/-- REL_FRZ_POP: a PF write of 1 discards the oldest unread record. -/
def execRelFrzPop (value : W32) (s : State) : Answer :=
  s.hostTo (.relFrzPop value) [250] (fun s =>
    if !(s.barOpen 0 && bitAt value.toNat 0) || s.rel.frozen.isEmpty then .next s
    else .next { s with rel := { s.rel with frozen := s.rel.frozen.tail, overflowRaised := false } })

/-- Ask for the recovery of a context: its window and its claim end, and it waits for one of the four places. -/
def State.requestRecovery (s : State) (c : Nat) (code : Half) (claimed : Bool) : State :=
  if !(s.ctx c).bound || (s.ctx c).recovering then s
  else
    let s1 := s.modCtx c (fun x => { x with
      recovering := true, claimOpen := false, claimed := false })
    { s1 with rel := { s1.rel with queued := s1.rel.queued ++ [{ ctx := c, code := code, claimed := claimed }] } }

/-- A recovery that a command asks for: the code is that of the context's freeze record, 0 without one. -/
def State.commandRecovery (s : State) (c : Nat) : State :=
  let x := s.ctx c
  s.requestRecovery c (if x.claimed ∨ x.claimOpen then x.claimCode else 0) x.claimed

/-- CLAIM_WINDOW_EXPIRY: an unclaimed window ends, and the context is recovered. -/
def execClaimWindowExpiry (ctx : Nat) (s : State) : Answer :=
  if s.islandOn 251 && (s.ctx ctx).claimOpen then .next (s.requestRecovery ctx (s.ctx ctx).claimCode false) else .next s

/-- Change every running step of a context. -/
def State.modRunningOf (s : State) (c : Nat) (f : Step → Step) : State :=
  { s with cmd := { s.cmd with panels := s.cmd.panels.map (fun (e : Nat × Panel) => (e.1, { e.2 with
      running := e.2.running.map (fun (st : Step) => if st.ctx = c then f st else st) })) } }

/-- The running steps of a context, with their panels. -/
def State.runningOf (s : State) (c : Nat) : List (Nat × Step) :=
  (List.range 16).filterMap (fun k => match (s.panel k).running with
    | some st => if st.ctx = c then some (k, st) else none
    | none => none)

/-- The record of a claimed step is written at once with ST_FROZEN, and its registrations end (10 R254). -/
def State.recordClaimed (s : State) (c : Nat) : State :=
  let s1 := (s.runningOf c).foldl (fun s (x : Nat × Step) =>
    if x.2.isComp then s else (s.recordStop (x.2.addBusy (s.busySums x.1)) 0x000B).unregister c) s
  s1.modRunningOf c (fun st => if st.isComp then st else { st with recorded := true })

/-- RST_CLAIM: a PF write claims a context within its window; a claim without an open window is late. -/
def execRstClaim (value : W32) (s : State) : Answer :=
  s.hostTo (.rstClaim value) [251] (fun s =>
    let c := value.toNat % 1024
    let x := s.ctx c
    if !(s.barOpen 0 && bitAt value.toNat 10) then .next s
    else if !x.claimOpen || decide (x.f.claimUs = 0) then .next (s.event 0x8812)
    else
      let s1 := s.modCtx c (fun y => { y with claimOpen := false, claimed := true })
      .next ((s1.recordClaimed c).count (rstReg 0x110) 1))

/-- RST_RECOVER: a PF write recovers a context at once. -/
def execRstRecover (value : W32) (s : State) : Answer :=
  s.hostTo (.rstRecover value) [251] (fun s =>
    if s.barOpen 0 && bitAt value.toNat 10 then .next (s.commandRecovery (value.toNat % 1024)) else .next s)

/-! ## The watchdog (R421) -/

/-- The watchdog of a panel watches its running step. -/
def State.watched (s : State) (st : Step) : Bool :=
  let x := s.ctx st.ctx
  s.islandOn 251 && decide (st.handed ≠ 0) && !x.claimOpen && !x.claimed && !x.recovering

/-- Post a watchdog's record: the panel's cores are frozen (R417). -/
def State.watchdogFires (s : State) (k code : Nat) (st : Step) : State :=
  ((s.stopPanel k).postFreeze 17 k code (some (st.ctx, (s.ctx st.ctx).gen))).count (rstReg 0x108) 1

/-- WATCHDOG_EXPIRY: wd_ms without progress, time halted for the host aside. -/
def execWatchdogExpiry (panel : Nat) (s : State) : Answer :=
  let pn := s.panel panel
  match pn.running with
  | none => .next s
  | some st =>
    if s.watched st && pn.haltSince.isNone && decide (pn.progress + 1000000 * max 1 s.rel.wdMs.toNat ≤ s.time) then
      .next (s.watchdogFires panel 0x8801 st)
    else .next s

/-- HALT_WATCHDOG_EXPIRY: a halt that waits for the host has lasted halt_ms. -/
def execHaltWatchdogExpiry (panel : Nat) (s : State) : Answer :=
  let pn := s.panel panel
  match pn.running, pn.haltSince with
  | some st, some t =>
    if s.watched st && decide (t + 1000000 * max 1 s.rel.haltMs.toNat ≤ s.time) then .next (s.watchdogFires panel 0x8802 st)
    else .next s
  | _, _ => .next s

/-! ## Recovery (R422 to R424) -/

/-- The context used tag `g` less than 20 ms ago. -/
def State.tagBlocked (s : State) (c : Nat) (g : BitVec 8) : Bool :=
  (s.ctx c).genUsed.any (fun u => decide (u.1 = g) && decide (s.time < u.2 + 20000000))

/-- Phase 1: the tag is raised in the context entry and at every port B. -/
def State.raiseTag (s : State) (c : Nat) : State :=
  let old := (s.ctx c).gen
  let s1 := s.modCtx c (fun x => { x with
    gen := old + 1, genUsed := (old, s.time) :: x.genUsed.filter (fun u => decide (s.time < u.2 + 20000000)) })
  (Tab.keys s1.cores).foldl (fun s p => s.modSlice p (fun sl =>
    if sl.resident.map Prod.fst = some c then { sl with resident := some (c, old + 1) } else sl)) s1

/-- A panel whose running step is the context's has stream transactions in flight. -/
def State.mustDrain (s : State) (c : Nat) : Bool :=
  (s.runningOf c).any (fun x => (s.panelCores x.1).any (fun p => !(s.core p).str.slots.isEmpty))

/-- Revoke the session key generations of a context: phase 5. -/
def State.revokeSessions (s : State) (c : Nat) : State :=
  ((s.ctx c).f.sessions.filter (fun i => decide (i ≠ 0) && decide ((s.slot i.toNat).type = 3))).foldl
    (fun s i => s.revokeSlot i.toNat) s

/-- Discard the switched-out state of a context. -/
def State.dropSwitched (s : State) (c : Nat) : State :=
  { s with cmd := { s.cmd with panels := s.cmd.panels.map (fun (e : Nat × Panel) => (e.1, { e.2 with
      switched := e.2.switched.filter (fun v => decide (v.step.ctx ≠ c)) })) } }

/-- Phases 4 to 6: clear, revoke, close. The recovery record is written, and the context may start steps once a root is installed; a
CONTEXT_DESTROY that waits goes on. -/
def State.finishRecovery (s : State) (r : Recovery) : State :=
  let c := r.ctx
  let mine (st : Step) : Bool := decide (st.ctx = c)
  let s1 := (((s.killWhere mine 0x000B).withdrawWhere mine 0x000B).dropPackets c 0x000B).dropSwitched c
  let s2 := (s1.invNow 1 c 0 0).revokeSessions c
  let old := (s2.ctx c).f.root
  let s3 := s2.modCtx c (fun x => { x with
    f := { x.f with root := 0 }, moved := [], recovering := false, claimed := false, claimOpen := false })
  let s4 := { s3 with rel := { s3.rel with
    running := s3.rel.running.filter (fun x => decide (x.ctx ≠ c)),
    recTime := s3.clk.now, recCtx := c, recGen := (s3.ctx c).gen, recCode := r.code, recClaimed := r.claimed,
    recOldRoot := BitVec.ofNat 64 (old.toNat / 256 % 2 ^ 40) } }
  let s5 := (s4.count (rstReg 0x100) 1).event 0x8810
  if (s5.ctx c).destroyWait then (s5.destroyCtx c).mbxReply 0 else s5

/-- Phases 1 and 2 of a recovery that has a place; without transactions in flight it ends at once. -/
def State.beginRecovery (s : State) (r : Recovery) : State :=
  let c := r.ctx
  let s1 := s.raiseTag c
  let s2 := ((s1.runningOf c).foldl (fun s (x : Nat × Step) => s.stopPanel x.1) s1).cancelWork c
  if s2.mustDrain c then
    { s2 with rel := { s2.rel with
      running := s2.rel.running.filter (fun x => decide (x.ctx ≠ c)) ++ [{ r with draining := true, tagWait := false }] } }
  else s2.finishRecovery r

/-- CONTEXT_RECOVERY: the recovery at the head of the queue takes one of the four places and runs, or waits for its tag; a
recovery that drains ends once its transactions have. -/
def execContextRecovery (ctx : Nat) (s : State) : Answer :=
  if !s.islandOn 251 then .next s
  else match s.rel.running.find? (fun r => decide (r.ctx = ctx)) with
    | some r => if r.draining then .next (s.finishRecovery r) else .next s
    | none =>
      match s.rel.queued with
      | [] => .next s
      | r :: rest =>
        if r.ctx ≠ ctx ∨ 4 ≤ s.rel.running.length then .next s
        else
          let s1 := { s with rel := { s.rel with queued := rest } }
          if s1.tagBlocked ctx ((s1.ctx ctx).gen + 1) then
            .next { s1 with rel := { s1.rel with running := s1.rel.running ++ [{ r with tagWait := true }] } }
          else .next (s1.beginRecovery r)

/-- RECOVERY_DRAIN_TIMEOUT: after 10 µs the remaining transactions are abandoned. -/
def execRecoveryDrainTimeout (ctx : Nat) (s : State) : Answer :=
  match s.rel.running.find? (fun r => decide (r.ctx = ctx) && r.draining) with
  | some r => if s.islandOn 251 then .next (s.finishRecovery r) else .next s
  | none => .next s

/-- TAG_REUSE_WAIT_EXPIRY: 20 ms have passed since the last use of the tag that a recovery raises to. -/
def execTagReuseWaitExpiry (ctx : Nat) (s : State) : Answer :=
  match s.rel.running.find? (fun r => decide (r.ctx = ctx) && r.tagWait) with
  | some r =>
    if s.islandOn 251 && !s.tagBlocked ctx ((s.ctx ctx).gen + 1) then
      .next ({ s with rel := { s.rel with running := s.rel.running.filter (fun x => decide (x.ctx ≠ ctx)) } }.beginRecovery
        { r with tagWait := false })
    else .next s
  | none => .next s

/-! ## Scrubbing and poison (R426 to R430) -/

/-- The scrubber stays off a channel set of an admitted class-0 panel (13 R339). -/
def State.scrubSkips (s : State) (set : Nat) : Bool :=
  s.panels.any (fun k => s.c0Keeps k && bitAt (s.panel k).entry.setMask.toNat set)

/-- The scrubber's request for a word (09 R229). It names the key of the line that holds the word, slot 0 where none does. DESIGN CHOICE,
log entry 68. -/
def State.scrubReq (s : State) (off : Nat) : HReq :=
  let r := s.hreq 0 (s.sysWays off)
  match Tab.find s.msc.lines (off / 128) with
  | some l => { r with slot := l.slot, gen := l.gen }
  | none => r

/-- The scrubber's read of a word: a request at the cache slice, and a read of the DRAM word that the cache's hit does not replace. -/
def State.scrubRead (s : State) (off : Nat) : State :=
  let hit := match Tab.find s.msc.lines (off / 128) with
    | some l => l.valid.getD (off / 64 % 2) false
    | none => false
  let s1 := s.mscAccess off (s.scrubReq off) false true
  if hit then s1.dramTouch (stackOf off) false true else s1

/-- HBM_SCRUB: the scrubber reads the word at an offset, writes a corrected one back, and poisons the frame of an uncorrectable
one. A word of a poisoned frame reads as poison. -/
def execHbmScrub (offset : Nat) (find : ScrubFind) (s : State) : Answer :=
  let f := frameOf offset
  if !(s.islandOn (224 + stackOf offset) && s.rel.scrubOn && decide (offset < hbmSize)) || s.scrubSkips (chanSet offset) then .next s
  else
    let s1 := { s with rel := { s.rel with scrubPos := offset } }
    let found := if s.hbm.bad.contains (offset / 64) then .uncorrectable else find
    let s2 := s1.scrubRead offset
    if s.isPoisoned f then .next s1
    else match found with
      | .clean => .next s2
      | .corrected =>
        let s3 := s2.dramTouch (stackOf offset) true true
        .next ({ s3 with hbm := { s3.hbm with corrected := Tab.set s3.hbm.corrected f (s.recentCorrected f ++ [s.time]) } }.count
          (relReg 0x120) 1)
      | .uncorrectable => .next ((s2.count (relReg 0x128) 1).poisonFrame f false)

/-- REL_UNPOISON_GO: a PF write fills a frame with +0 under a memory slot and clears its poison, or is refused. -/
def execRelUnpoisonGo (value : W64) (s : State) : Answer :=
  s.hostTo (.relUnpoisonGo value) [250] (fun s =>
    let frame := bits value.toNat 22 0
    let slot := bits value.toNat 30 23
    if !s.barOpen 0 then .next s
    else
      let s1 := { s with rel := { s.rel with unpFrame := frame, unpSlot := slot } }
      if !bitAt value.toNat 31 || decide (hbmSize / 65536 ≤ frame) then .next s1
      else
        let n := s1.readCount .sys frame
        if n.1 ≠ 0 ∨ (s.slot slot).type ≠ 1 then .next (n.2.event 0x8008)
        else .next ((n.2.zeroFrame frame (s.slot slot).material).unpoison frame))

/-! ## Canary windows (R431 to R433, R408, R409) -/

/-- A core is free for a canary window. -/
def State.canaryFree (s : State) (p : Nat) : Bool :=
  !(s.core p).retired && s.clocked p && (match (s.core p).panel with
    | none => true
    | some k => (s.panel k).quiet && !s.c0Keeps k)

/-- The core that the rotation tests next: one placed first, else the next free one in ascending order. -/
def State.canaryPick (s : State) : Option Nat :=
  match s.rel.canaryFirst.find? s.canaryFree with
  | some p => some p
  | none => ((List.range 160).map (fun i => (s.rel.canaryNext + i) % 160)).find? s.canaryFree

/-- CANARY_WINDOW_START: the interval has passed; the slice of the next free core is saved and its test begins. -/
def execCanaryWindowStart (s : State) : Answer :=
  if !s.islandOn 250 || !s.rel.canaryOn || decide (s.rel.canaryState ≠ .waiting) then .next s
  else match s.canaryPick with
    | none => .next s
    | some p =>
      .next { s with rel := { s.rel with canaryCore := p, canaryState := .test, canarySaved := some (s.core p).slice } }

/-- P_m exceeds 60 percent of cap. -/
def Gov.loaded (g : Gov) : Bool := decide (60 * g.cap < 100 * g.draw)

/-- A record carries the light tag under the present cap. -/
def Gov.isLight (g : Gov) (r : CalRecord) : Bool := r.gathered && decide (100 * r.draw < 60 * g.cap)

/-- The island that a window recalibrates: its core's, unless that record needs nothing and another island's is light (log
entry 24). -/
def State.calIsland (s : State) (core : Nat) : Nat :=
  let lightAt (i : Nat) : Bool := s.gov.isLight (Tab.get {} s.gov.cal i) && !(Tab.get {} s.gov.cal i).pinned
  if lightAt core then core
  else (((List.range 96).map (fun i => 160 + i)).find? lightAt).getD core

/-- The at-load recalibration of an island: a result far from a light record pins the island, another one replaces the record. -/
def State.recalibrate (s : State) (island : Nat) (offset : Int) : State :=
  let r : CalRecord := Tab.get {} s.gov.cal island
  let setCal (s : State) (r : CalRecord) : State := { s with gov := { s.gov with cal := Tab.set s.gov.cal island r } }
  if r.pinned then s
  else if s.gov.isLight r ∧ 25 < (offset - r.offset).natAbs then (setCal s { r with pinned := true }).event 0x6805
  else
    let r1 : CalRecord := { offset := offset, gathered := true, pinned := false, draw := s.gov.draw }
    setCal s r1

/-- CANARY_WINDOW_END: the signatures are compared, the island is recalibrated under load, the slice is reloaded, and a core that
failed is retired. -/
def execCanaryWindowEnd (pass noHotSpot : Bool) (calOffset : Int) (s : State) : Answer :=
  if !s.islandOn 250 || decide (s.rel.canaryState = .waiting) then .next s
  else
    let p := s.rel.canaryCore
    let s1 := if s.gov.loaded then s.recalibrate (s.calIsland p) calOffset else s
    let s2 := match s1.rel.canarySaved with
      | some sl => s1.modSlice p (fun x => x.reload sl)
      | none => s1
    let others := s2.rel.canaryPassed.filter (fun q => decide (q ≠ p))
    let next := if s2.rel.canaryFirst.contains p then s2.rel.canaryNext else (p + 1) % 160
    let s3 := { s2 with rel := { s2.rel with
      canaryState := .waiting, canarySaved := none, canaryPass := pass, noHotSpot := noHotSpot || !s2.rel.hotSpot,
      canaryFirst := s2.rel.canaryFirst.filter (fun q => decide (q ≠ p)),
      canaryNext := next, canaryPassed := if pass then others ++ [p] else others } }
    let s4 := s3.count (relReg 0x138) 1
    if pass then .next s4 else .next (((s4.count (relReg 0x140) 1).event 0x8004).retireCore p)

/-! ## Die-to-die lanes (R434) -/

/-- D2D_LANE_RETRAIN: a lane with more than 1,000 corrected errors in a second is replaced by one of 8 spares, at a retrain that
loses nothing. -/
def execD2dLaneRetrain (die _lane : Nat) (s : State) : Answer :=
  let used := Tab.get 0 s.rel.d2dSpares die
  if !s.islandOn (252 + die) || decide (2 ≤ die) then .next s
  else if used < 8 then .next { s with rel := { s.rel with d2dSpares := Tab.set s.rel.d2dSpares die (used + 1) } }
  else .next (s.event 0x8009)

end Sys2Proof.Machine
end

