-- ==== Sys2Proof/Machine/Survey.lean ====
section
/-! DEFINITION. Dead links, training, the survey and spare ports (14 R361, R374, R375; 16 R435; 19 R513). -/

namespace Sys2Proof.Machine

/-! ## The plan (R356, R374) -/

/-- The firmware slot that runs: false for A (18 R484). -/
def State.firmware (s : State) : FwSlot := if s.mgt.runSlot then s.mgt.fwB else s.mgt.fwA

/-- The plan entry of the wiring of a board-local port (R356). -/
def State.boardPlan (s : State) (l : Nat) : W64 :=
  let j := l % 52
  let slot := (s.walker.boardSlot + 1 + j % 7) % 8
  BitVec.ofNat 64 (s.me / 8 * 8 + slot + l / 52 * 2 ^ 15 + (7 * (j / 7) + 6 - j % 7) * 2 ^ 16 + 2 ^ 22)

/-- The plan entry of a logical port: a board-local port without one takes its wiring. -/
def State.planOf (s : State) (l : Nat) : W64 :=
  match Tab.find s.lnk.plan l with
  | some e => e
  | none => if l % 52 < 21 then s.boardPlan l else 0

/-- The state of a plan entry: 0 expected-empty, 1 planned, 2 spare idle. -/
def planState (e : W64) : Nat := bits e.toNat 23 22

/-- The expected peer: module, die, local logical port. -/
def planPeer (e : W64) : Nat × Nat × Nat := (bits e.toNat 14 0, bits e.toNat 15 15, bits e.toNat 21 16)

/-- The peer that an identity shows. -/
def identitySeen (id : LinkIdentity) : Nat × Nat × Nat := (id.module, id.die, id.logical % 52)

/-- The other logical port of the same class whose planned peer was seen. -/
def State.swapOf (s : State) (l : Nat) (seen : Nat × Nat × Nat) : Option Nat :=
  (List.range 104).find? (fun x => decide (x ≠ l) && decide (portClass x = portClass l) && decide (planState (s.planOf x) = 1) &&
    decide (planPeer (s.planOf x) = seen))

/-! ## Up and down -/

/-- A port's link is up; one that was dead waits out its hold-down (R361). -/
def State.bringUp (s : State) (port level result : Nat) : State :=
  let dead := (s.port port).wasDead
  let s1 := s.modPort port (fun p => { p with
    state := if dead then .holddown else .up, level := level, result := result, failures := 0, surveying := false })
  if dead then s1 else (s1.event 0x4801).pumpTransfers

/-- A surveyed port stays down with a result. -/
def State.keepDown (s : State) (port result : Nat) (st : PortState) : State :=
  s.modPort port (fun p => { p with state := st, result := result })

/-- Stage 6: the module is ready, and a trial slot becomes the active slot (18 R469, R485). A time base that nothing disciplines is
reported (19 R507). -/
def State.becomeReady (s : State) : State :=
  let s := if s.hif.ptmValid || s.mgt.timePort.isSome then s else s.event 0x7002
  { s with mgt := { s.mgt with
      state := .ready, bootStage := 0, holdCause := 0, activeSlot := s.mgt.runSlot,
      trial := if s.mgt.runSlot = s.mgt.activeSlot then s.mgt.trial else none, revertS := 0 } }

/-- The survey runs while a port trains or exchanges identities; at its end a boot is complete, and the SURVEY command replies. -/
def State.settleSurvey (s : State) : State :=
  let run := (List.range 104).any (fun p => decide ((s.port p).state = .training) || decide ((s.port p).state = .identity) ||
    (s.port p).surveying)
  let s1 := { s with lnk := { s.lnk with surveyBusy := s.lnk.surveyBusy && run } }
  if run || !s.lnk.surveyBusy then s1
  else if s.mgt.bootStage = 5 then s1.becomeReady
  else if s.mbxRuns 0x020D then s1.mbxReply 0
  else s1

/-- LINK_DEAD: a port declares its link dead; it retrains next, unless frozen. -/
def execLinkDead (port : Nat) (s : State) : Answer :=
  if s.portOn port && (s.port port).hears then .next (s.portDead port) else .next s

/-- HOLDDOWN_EXPIRY: routed traffic uses the port again. -/
def execHolddownExpiry (port : Nat) (s : State) : Answer :=
  if s.portOn port && decide ((s.port port).state = .holddown) then
    .next (((s.modPort port (fun p => { p with state := .up, wasDead := false })).event 0x4801).pumpTransfers)
  else .next s

/-! ## The survey of a port (R374) -/

/-- What the identity frames of a port carry (R374). -/
def State.ownIdentity (s : State) (port : Nat) : LinkIdentity :=
  { serial := s.pins.serial, module := s.me, slot := s.walker.boardSlot, die := dieOfPort port,
    logical := (s.logicalPort port).getD port, physical := port, loLevel := s.firmware.level - 1, hiLevel := s.firmware.level,
    planVer := s.lnk.planVersion }

/-- A port sends its identity, and its exchange is open (R374). -/
def State.askIdentity (s : State) (port : Nat) : State := s.putIdentity port (s.ownIdentity port)

/-- Two swapped logical ports change places in the map, and both are to exchange identities again (result 2). -/
def State.swapPorts (s : State) (l x : Nat) : State :=
  let p := s.physPort l
  let q := s.physPort x
  let s1 := { s with lnk := { s.lnk with portMap := Tab.set (Tab.set s.lnk.portMap l q) x p } }
  let again (r : Port) : Port := { r with remapped := true, state := .identity, result := 2 }
  ((s1.modPort p again).modPort q again).event 0x5001

/-- The result of a port that matches its plan: 2 where it was remapped for that, which stays (R374). -/
def Port.matched (p : Port) : Nat := if p.result = 2 then 2 else 1

/-- Compare what a trained port saw with the plan entry of its logical port. -/
def State.surveyPort (s : State) (port l : Nat) (id : LinkIdentity) : State :=
  let e := s.planOf l
  let own := s.firmware.level
  let level := min own id.hiLevel
  let seen := identitySeen id
  if planState e = 2 then s.keepDown port 8 .spareIdle
  else if planState e = 0 then (s.keepDown port 6 .down).event 0x5002
  else if level < max (own - 1) id.loLevel then s.keepDown port 7 .down
  else if planPeer e = seen then s.bringUp port level (s.port port).matched
  else match s.swapOf l seen with
    | none => (s.keepDown port 3 .down).event 0x5002
    | some x =>
      match (s.port (s.physPort x)).seen with
      | none => s.keepDown port 0 .identity
      | some other =>
        if other ≠ planPeer e then (s.keepDown port 3 .down).event 0x5002
        else if s.me < id.module then s.swapPorts l x
        else (s.keepDown port 2 .identity).event 0x5001

/-- A port that is up has exchanged identities again: its traffic goes on while the result is 1 or 2, and it is taken down as a dead link
otherwise (R374). -/
def State.resurveyed (s : State) (port : Nat) (id : LinkIdentity) : State :=
  let own := s.firmware.level
  let s1 := s.modPort port (fun p => { p with surveying := false, seen := some (identitySeen id) })
  match s.logicalPort port with
  | none => (s1.keepDown port 8 .up).portDead port
  | some l =>
    let e := s.planOf l
    if planState e = 2 then (s1.modPort port (fun p => { p with result := 8 })).portDead port
    else if min own id.hiLevel < max (own - 1) id.loLevel then (s1.modPort port (fun p => { p with result := 7 })).portDead port
    else if planState e = 1 ∧ planPeer e = identitySeen id then s1.modPort port (fun p => { p with result := p.matched })
    else ((s1.modPort port (fun p => { p with result := if planState e = 0 then 6 else 3 })).event 0x5002).portDead port

/-- LINK_TRAINED: a port that finished training exchanges identities with its peer and is surveyed; the command stands for one identity
frame each way (log entry 71). A port that is up while a survey runs has only exchanged them again. A cable outside R512 is not trained. -/
def execLinkTrained (port : Nat) (cableOk : Bool) (id : LinkIdentity) (s : State) : Answer :=
  let p := s.port port
  if s.portOn port && !p.frozen && p.surveying then
    .next ((s.modPort port (fun p => { p with rxSeq := p.rxSeq + 1 })).resurveyed port id).settleSurvey
  else if !s.portOn port || p.frozen || p.isUp || decide (p.state = .holddown) then .next s
  else if !cableOk && decide (portClass port ≠ 0) then
    .next (((s.keepDown port 4 .down).event 0x4806).event 0x5003).settleSurvey
  else
    let s1 := (s.askIdentity port).modPort port (fun p =>
      { p with seen := some (identitySeen id), rxSeq := p.rxSeq + 1 })
    let s2 := if portClass port = 0 ∧ !s1.walker.boardPeers.contains id.slot then
        { s1 with walker := { s1.walker with boardPeers := s1.walker.boardPeers ++ [id.slot] } } else s1
    .next (match s2.logicalPort port with
      | none => s2.keepDown port 8 .spareIdle
      | some l => s2.surveyPort port l id).settleSurvey

/-- PORT_TRAIN_TIMEOUT: a planned port has not trained, or its partner has not finished its exchange, within 100 ms. -/
def execPortTrainTimeout (port : Nat) (signal : Bool) (s : State) : Answer :=
  let p := s.port port
  let planned := match s.logicalPort port with
    | some l => decide (planState (s.planOf l) = 1)
    | none => false
  if s.portOn port && p.surveying then
    .next ((((s.modPort port (fun p => { p with result := 3 })).event 0x5002).portDead port).settleSurvey)
  else if !s.portOn port || p.isUp || decide (p.state = .holddown) || decide (p.state = .spareIdle) then .next s
  else if p.state = .identity then .next ((s.keepDown port 3 .down).event 0x5002).settleSurvey
  else if planned then
    let s1 := ((s.keepDown port 4 .down).modPort port (fun p => { p with failures := p.failures + 1 })).event 0x5003
    .next (if 3 ≤ p.failures + 1 then s1.askSpare port else s1).settleSurvey
  else if signal then .next ((s.keepDown port 6 .down).event 0x5002).settleSurvey
  else .next (s.keepDown port 5 .down).settleSurvey

/-- Survey one port: an up port exchanges identities again without interrupting its traffic, the others train. -/
def State.resurvey (s : State) (port : Nat) : State :=
  let p := s.port port
  match s.logicalPort port with
  | none => if p.frozen then s else s.keepDown port 8 .spareIdle
  | some l =>
    let e := s.planOf l
    if p.isUp ∨ p.state = .holddown then
      (s.modPort port (fun p => { p with surveying := true })).askIdentity port
    else if p.frozen then s
    else if planState e = 2 ∨ portClass l = 3 then s.keepDown port 8 .spareIdle
    else if planState e = 0 then s.keepDown port 5 .down
    else s.modPort port (fun p => { p.fresh with state := .training, result := 0 })

/-- Survey every port. -/
def State.surveyAll (s : State) : State :=
  ((List.range 104).foldl (fun (s : State) p => s.resurvey p) { s with lnk := { s.lnk with surveyBusy := true } }).settleSurvey

/-- RTE_SURVEY_GO: a write of go surveys every port; it is ignored while a survey runs. -/
def execRteSurveyGo (value : W32) (s : State) : Answer :=
  s.hostTo (.rteSurveyGo value) [254] (fun s =>
    if s.barOpen 0 && bitAt value.toNat 0 && !s.lnk.surveyBusy then .next s.surveyAll else .next s)

/-! ## Spare ports (R375) -/

/-- A spare physical port may take a logical port: a mezzanine spare reaches only the ring neighbour of its side, a cable spare a
cable port of its die; the spare carries no logical port of its own. -/
def State.spareFits (s : State) (l p : Nat) : Bool :=
  let j := l % 52
  let peer := (s.walker.boardSlot + 1 + j % 7) % 8
  decide (portClass p = 3) && decide (dieOfPort p = dieOfPort l) && decide (s.logicalPort p = some p) && decide (portClass l ≠ 3) &&
  (if p % 52 = 42 then decide (j < 21) && decide (peer = (s.walker.boardSlot + 1) % 8)
   else if p % 52 = 45 then decide (j < 21) && decide (peer = (s.walker.boardSlot + 7) % 8)
   else decide (21 ≤ j))

/-- A spare takes over a logical port that is down: it inherits the plan entry and is surveyed; the port it replaces becomes
spare idle. -/
def State.takeSpare (s : State) (l p : Nat) : State :=
  let old := s.physPort l
  let s1 := { s with lnk := { s.lnk with portMap := Tab.set s.lnk.portMap l p } }
  let s2 := s1.modPort old (fun r => { r with state := .spareIdle, result := 8 })
  (s2.modPort p (fun r => { r.fresh with state := .training, result := 0, wasDead := false, failures := 0 })).event 0x5005

/-- RTE_PORT_MAP_WRITE: a PF remap of a logical port; one that is up leaves the map unchanged. -/
def execRtePortMapWrite (logical : Nat) (value : W32) (s : State) : Answer :=
  s.hostTo (.rtePortMapWrite logical value) [254] (fun s =>
    let p := value.toNat % 128
    if !s.barOpen 0 || decide (104 ≤ logical) then .next s
    else if (s.port (s.physPort logical)).isUp then .next (s.event 0x5006)
    else if s.spareFits logical p then .next (s.takeSpare logical p)
    else .next s)

end Sys2Proof.Machine
end

