-- ==== Sys2Proof/Machine/Boot.lean ====
section
/-! DEFINITION. Resets, boot and the configuration block (16 R425; 18 R469 to R473, R481, R485; 15 R401; 19 R502 to R504). -/

namespace Sys2Proof.Machine

/-! ## The configuration block (18 R472, R473) -/

/-- A section: its type, whether it must be understood, and its body. -/
structure CfgSection where
  type : Nat
  must : Bool
  body : List Byte
  deriving DecidableEq, Repr

/-- The sections from an offset on; `none` where a length overruns the block. -/
def cfgSections (fuel : Nat) (bs : List Byte) : Option (List CfgSection) :=
  match fuel with
  | 0 => none
  | fuel + 1 =>
    if bs = [] then some []
    else
      let head := fieldAt bs 0 4
      let n := 8 * (head / 65536)
      if n = 0 ∨ bs.length < n then none
      else match cfgSections fuel (bs.drop n) with
        | none => none
        | some rest => some ({ type := head % 32768, must := bitAt head 15, body := slicedAt bs 4 (n - 4) } :: rest)

/-- The body of the section of a type. -/
def cfgBody (ss : List CfgSection) (t : Nat) : List Byte :=
  match ss.find? (fun x => decide (x.type = t)) with
  | some x => x.body
  | none => []

/-- A section of a type is present. -/
def cfgHas (ss : List CfgSection) (t : Nat) : Bool := ss.any (fun x => decide (x.type = t))

/-- The bytes that a section's body must have. -/
def cfgSize (t : Nat) : Nat := [0, 8, 840, 16, 4, 10, 4].getD t 0

/-- The 104 entries of the cabling plan. -/
def cfgPlan (ss : List CfgSection) : List Nat := (List.range 104).map (fun i => fieldAt (cfgBody ss 2) (8 + 8 * i) 8)

/-- The identity word: planned module id, roles, standby roles. -/
def cfgIdentity (ss : List CfgSection) : Nat := fieldAt (cfgBody ss 1) 0 4

/-- The power section's values lie in the ranges of their registers (15 R384, R412). -/
def cfgPowerOk (s : State) (ss : List CfgSection) : Bool :=
  let p := cfgBody ss 3
  let band := fieldAt p 0 4
  let t := fieldAt p 12 4 % 128
  s.bandOk (bits band 10 0) (bits band 21 11) (bits band 28 22) &&
  (List.range 4).all (fun d => (orderCodes (bits (fieldAt p 4 4) 9 2)).contains d) && decide (70 ≤ t ∧ t ≤ 100)

/-- Two planned entries name the same peer port. -/
def cfgPlanClash (ss : List CfgSection) : Bool :=
  let peers := ((cfgPlan ss).filter (fun e => decide (bits e 23 22 = 1))).map (fun e => e % 2 ^ 22)
  !decide (peers.Nodup)

/-- The checks of the sections: 0, or the HOLD cause. -/
def cfgSectionsCause (s : State) (bs : List Byte) : Nat :=
  match cfgSections (bs.length + 1) (bs.drop 256) with
  | none => 4
  | some ss =>
    let known := ss.filter (fun x => decide (1 ≤ x.type ∧ x.type ≤ 6))
    let id := cfgIdentity ss
    let roles := bits id 17 15
    if ss.any (fun x => x.must && !decide (1 ≤ x.type ∧ x.type ≤ 6)) then 5
    else if !decide ((known.map CfgSection.type).Nodup) then 4
    else if !([1, 2, 3].all (cfgHas ss)) || (decide (bits id 20 15 ≠ 0) && !cfgHas ss 5) then 4
    else if known.any (fun x => decide (x.body.length < cfgSize x.type)) then 4
    else if !cfgPowerOk s ss || cfgPlanClash ss || decide (roles &&& bits id 20 18 ≠ 0) then 4
    else 0

/-- The fields that R472 and R374 mark reserved in a block are zero (00 R5). -/
def cfgReservedOk (blk : List Byte) : Bool :=
  let ss := (cfgSections (blk.length + 1) (blk.drop 256)).getD []
  decide (fieldAt blk 6 2 = 0) && (slicedAt blk 113 15).all (fun b => b = 0) && (slicedAt blk 224 32).all (fun b => b = 0) &&
  decide (bits (cfgIdentity ss) 31 21 = 0) && decide (fieldAt (cfgBody ss 2) 1 7 = 0) &&
  (cfgPlan ss).all (fun e => decide (e / 2 ^ 24 = 0))

/-- The bytes that a block's signature covers, with the signer and the signature. -/
def cfgSigned (bs : List Byte) : List Byte := bs.take 224 ++ bs.drop 256

/-- The checks of R473 in order: 0, or the HOLD cause of the first failure. `half` marks a block that was left half-written. -/
def State.cfgCause (s : State) (half : Bool) (bs : List Byte) : Nat :=
  let len := fieldAt bs 8 4
  let lenOk := decide (256 ≤ len ∧ len ≤ 262144 ∧ len % 8 = 0 ∧ len ≤ bs.length)
  let blk := bs.take len
  if half then 3
  else if bs = [] ∨ bs.all (fun b => b = 0xFF) then 1
  else if fieldAt bs 0 4 ≠ 0x4643564B then (if lenOk then 3 else 1)
  else if !lenOk then 3
  else if !Config.blockSig (cfgSigned blk) then 2
  else if s.sec.lifecycle = .deployed ∧ s.sec.ownerHash ≠ some (Config.sha384 (slicedAt blk 16 97)) then 2
  else if fieldAt blk 4 2 < s.firmware.schemaLo ∨ s.firmware.schemaHi < fieldAt blk 4 2 then 5
  else cfgSectionsCause s blk

/-- The role of a bit of the identity word. -/
def cfgRole (old : RoleState) (id i : Nat) (epoch : W32) : RoleState :=
  { old with head := bitAt id (15 + i), standby := bitAt id (18 + i), epoch := epoch }

/-- Stage 4 takes the sections: locks, power, identity, plan, headframe and time. -/
def State.applyConfig (s : State) : State :=
  let blk := s.mgt.config.take (fieldAt s.mgt.config 8 4)
  let ss := ((cfgSections (blk.length + 1) (blk.drop 256)).getD [])
  let id := cfgIdentity ss
  let epoch := BitVec.ofNat 32 (fieldAt (cfgBody ss 1) 4 4)
  let p := cfgBody ss 3
  let band := fieldAt p 0 4
  let mode := fieldAt p 4 4
  let cage := fieldAt p 8 4
  let h := cfgBody ss 5
  let time := fieldAt (cfgBody ss 6) 0 4 % 128
  let gov : Gov := { s.gov with
    cap := bits band 10 0, floor := bits band 21 11, ramp := bits band 28 22, learned := bitAt mode 0,
    order := BitVec.ofNat 8 (bits mode 9 2), authority := bits cage 1 0, stepW := bits cage 11 2,
    windowUs := bits cage 27 12, tThrottle := fieldAt p 12 4 % 128 }
  let plan := ((cfgPlan ss).zipIdx.filter (fun x => decide (x.1 ≠ 0))).map (fun x => (x.2, BitVec.ofNat 64 x.1))
  let lnk : Link := { s.lnk with plan := plan, planVersion := fieldAt (cfgBody ss 2) 0 1 }
  let m := s.mgt
  let heads : Mgt := if cfgHas ss 5 then { m with
      placeIntervalS := max 1 (fieldAt h 0 2), placeLead := fieldAt h 2 2, budgetW := fieldAt h 4 2,
      grantWindowMs := fieldAt h 6 2, heartbeatMs := fieldAt h 8 2 } else m
  { s with
    gov := gov, lnk := lnk,
    mgt := { heads with
      locks := m.locks ||| BitVec.ofNat 2 (fieldAt (cfgBody ss 4) 0 4 % 4),
      moduleId := id % 32768, assigned := false,
      board := cfgRole m.board id 0 epoch, group := cfgRole m.group id 1 epoch, site := cfgRole m.site id 2 epoch,
      timePort := if cfgHas ss 6 && decide (time ≠ 0x7F) then some time else none } }

/-! ## Resets (16 R425) -/

/-- What a module reset keeps of a core: its retirement, for which it is held off like a spare (06 R154), and the registers that count or
hold since cold reset. -/
def Core.moduleReset (spares : List Nat) (p : Nat) (c : Core) : Core :=
  let z := coreAtReset (if c.retired then p :: spares else spares) p
  { z with
    retired := c.retired,
    seq := { z.seq with faultCode := c.seq.faultCode, lockstep := c.seq.lockstep },
    mx := { z.mx with fault := c.mx.fault },
    vx := { z.vx with fault := c.vx.fault },
    str := { z.str with fault := c.str.fault, viol := c.str.viol },
    slice := { z.slice with testPasses := c.slice.testPasses } }

/-- Calibration pins come back from flash at every boot. -/
def keepPins (t : Tab CalRecord) : Tab CalRecord :=
  (t.filter (fun e => e.2.pinned)).map (fun (e : Nat × CalRecord) => (e.1, ({ pinned := true } : CalRecord)))

/-- The HBM across a reset: contents, retirement and poison stay; counts of corrected words go. -/
def Hbm.afterReset (h : Hbm) : Hbm := { h with corrected := [] }

/-- The fuses and the tamper count of the security engine, and the numbering of material. -/
def Sec.fused (c : Sec) : Sec :=
  { lifecycle := c.lifecycle, fusesLeft := c.fusesLeft, ownerHash := c.ownerHash, tamperCount := c.tamperCount,
    materials := c.materials }

/-- The counters of the management processor, and those that count since cold reset. -/
def keptCounter (off : Nat) : Bool := decide (off < 0x400000) || decide (off = secReg 0x138) || decide (off = hifReg 0x100)

/-- The state of a module reset: every island but the management processor is cleared, with the context table and the rings. -/
def State.clearModule (s : State) : State :=
  { State.reset with
    pending := s.pending, draws := s.draws, out := s.out, pins := { s.pins with perst := false },
    cores := s.cores.map (fun (e : Nat × Core) => (e.1, e.2.moduleReset s.pins.spares e.1)),
    hbm := s.hbm.afterReset, walker := { boardSlot := s.walker.boardSlot },
    gov := { cal := keepPins s.gov.cal },
    rel := { retired := s.rel.retired, poisonLog := s.rel.poisonLog, poisonNext := s.rel.poisonNext, repairs := s.rel.repairs,
             canaryPassed := s.rel.canaryPassed, d2dSpares := s.rel.d2dSpares },
    sec := { s.sec.fused with tamper := s.sec.tamper },
    mgt := { s.mgt with
      state := .boot, bootStage := 0, holdCause := 0, locks := 0, chainOpen := true, tallyPending := false, tallyLast := 0,
      tallyStale := 0, islands := [], evtLast := [], fwAsking := none,
      trial := if s.mgt.state = .boot ∧ s.mgt.runSlot ≠ s.mgt.activeSlot then none else s.mgt.trial },
    hif := { rate := s.hif.rate, width := s.hif.width, flit := s.hif.flit },
    counters := s.counters.filter (fun e => keptCounter e.1), shadows := s.shadows.filter (fun e => keptCounter e.1) }

/-- The state of a cold reset: flash and fuses alone are kept, and the HBM contents while the die stays powered. A configuration
block that was being written is left half-written. -/
def State.clearCold (s : State) : State :=
  { State.reset with
    pending := s.pending, draws := s.draws, out := s.out,
    cores := s.rel.retired.foldl (fun t p => Tab.set t p { coreAtReset (p :: s.pins.spares) p with retired := true }) [],
    hbm := s.hbm.afterReset,
    gov := { cal := keepPins s.gov.cal },
    rel := { retired := s.rel.retired, poisonLog := s.rel.poisonLog, poisonNext := s.rel.poisonNext, d2dSpares := s.rel.d2dSpares },
    sec := s.sec.fused,
    mgt := { fwA := s.mgt.fwA, fwB := s.mgt.fwB, activeSlot := s.mgt.activeSlot, runSlot := s.mgt.activeSlot, trial := s.mgt.trial,
             config := s.mgt.config, configHalf := s.mgt.configHalf || s.mbxRuns 0x0203 },
    pins := { s.pins with perst := true, uartIn := [], jtag := 0xFFFFFFFF } }

/-- The die loses power: its state and the HBM contents are lost; the management processor stays up (15 R410, 19 R503). -/
def State.losePower (s : State) : State :=
  let s1 := s.clearModule
  { s1 with
    mgt := { s.mgt with tallyPending := false, locks := 0 },
    cores := s.rel.retired.foldl (fun t p => Tab.set t p { coreAtReset (p :: s.pins.spares) p with retired := true }) [],
    hbm := { poisoned := s.hbm.poisoned, remap := s.hbm.remap, reserve := s.hbm.reserve },
    hif := {}, pins := { s1.pins with dieOn := false, pwrgd := false, perst := s.pins.perst } }

/-! ## Boot (18 R469, R471) -/

/-- Enter HOLD with a cause. -/
def State.enterHold (s : State) (cause : Nat) : State :=
  let trial := decide (cause = 5) && (s.mgt.runSlot != s.mgt.activeSlot)
  let m : Mgt := { s.mgt with
    state := .hold, holdCause := cause, bootStage := 0,
    revertS := if trial then 60 * s.mgt.trial.getD 10 else s.mgt.revertS }
  { s with mgt := m }.event 2

/-- Stage 5: with a chain address held, the transmitters turn on and every port is surveyed. -/
def State.bootLinks (s : State) : State :=
  match s.mgt.chainAddr with
  | none => s.enterHold 7
  | some a =>
    let m : Mgt := { s.mgt with state := .boot, holdCause := 0, bootStage := 5 }
    let w : Walker := { s.walker with boardSlot := a - 1 }
    let s2 := State.surveyAll { s with walker := w, mgt := m }
    if s2.mgt.bootStage = 5 ∧ !s2.lnk.surveyBusy then s2.becomeReady else s2

/-- Stage 4: the sections are applied and the remaining islands power up. -/
def State.bootIslands (s : State) : State :=
  let s1 := { s.applyConfig with mgt := { s.applyConfig.mgt with state := .boot, holdCause := 0, bootStage := 4 } }
  if 32 ≤ s1.clk.groupsUp then s1.bootLinks else s1

/-- Stage 3: the configuration block is checked. -/
def State.bootConfig (s : State) : State :=
  let c := s.cfgCause s.mgt.configHalf s.mgt.config
  if s.sec.tamper ≠ 0 then s.enterHold 6
  else if c ≠ 0 then s.enterHold c
  else s.bootIslands

/-- Draw a random challenge (17 R461). -/
def State.newChallenge (s : State) : State :=
  let d := s.drawWords 8
  { d.2 with sec := { d.2.sec with challenge := d.1 } }

/-- Stage 2: the DRBG is seeded, slot 0 is generated, and island group 0 powers up. -/
def State.bootSecurity (s : State) : State :=
  let s1 := { s with sec := { s.sec with healthy := true }, clk := { s.clk with groupsUp := 1 } }
  s1.newSlot0.newChallenge

/-- The firmware slot of a number: false for A. -/
def Mgt.fw (m : Mgt) (b : Bool) : FwSlot := if b then m.fwB else m.fwA

/-- Stage 1 and the stages after it. The trial slot is tried before the active one; an image that fails is reported, and a trial
that fails is over. -/
def State.boot (s : State) : State :=
  let first := if s.mgt.trial.isSome then !s.mgt.activeSlot else s.mgt.activeSlot
  if (s.mgt.fw first).valid then ({ s with mgt := { s.mgt with runSlot := first } }.bootSecurity).bootConfig
  else
    let s1 := s.event 4
    let trial := if s1.mgt.trial.isSome then none else s1.mgt.trial
    if (s1.mgt.fw !first).valid then ({ s1 with mgt := { s1.mgt with runSlot := !first, trial := trial } }.bootSecurity).bootConfig
    else
      let s2 := { s1.event 4 with clk := { s1.clk with groupsUp := 1 }, mgt := { (s1.event 4).mgt with trial := trial } }
      s2.enterHold (if s.sec.tamper ≠ 0 then 6 else 8)

/-- A module reset, which boots again (16 R425). -/
def State.moduleReset (s : State) : State := s.clearModule.boot

/-- COLD_BOOT: PERST# is deasserted; the JTAG port leaves its boundary-scan modes (19 R511), and the module boots. -/
def execColdBoot (s : State) : Answer :=
  if !(s.pins.standby && s.pins.modEn && s.pins.pwrgd && s.pins.dieOn && s.pins.perst) then .next s
  else .next ({ s with pins := { s.pins with perst := false, jtag := 0xFFFFFFFF } }.boot)

/-- ISLAND_GROUP_POWER_UP: the next of the 32 groups of islands powers up; after the last, stage 4 ends. -/
def execIslandGroupPowerUp (s : State) : Answer :=
  if !(s.pins.dieOn && decide (s.mgt.bootStage = 4) && decide (s.clk.groupsUp < 32)) then .next s
  else
    let s1 := { s with clk := { s.clk with groupsUp := s.clk.groupsUp + 1 } }
    .next (if s1.clk.groupsUp = 32 then s1.bootLinks else s1)

end Sys2Proof.Machine
end

