-- ==== Sys2Proof/Machine/Security.lean ====
section
/-! DEFINITION. The commands and events of the security engine (17): keys, shares, tenants, lifecycle, tamper, entropy, SPDM and
sessions. -/

namespace Sys2Proof.Machine

/-! ## KEY_GEN and KEY_SHARE (R444, R445, R447, R459) -/

/-- A slot takes a new generation: the material is installed, and offered to the board-slot mask of a share. The command replies at
once, or once every other module of the mask has answered. -/
def State.finishKey (s : State) (w : GenWait) : State :=
  let s1 := if w.mask = 0 ∨ bitAt w.mask s.walker.boardSlot then
      ((s.destroyRetiring w.slot).installKey w.slot w.type w.tenant w.gen (decide (w.mask ≠ 0))).modSlot w.slot
        (fun k => { k with mask := w.mask })
    else s
  let peers := ((onesOf w.mask 8).filter (fun m => decide (m ≠ s.walker.boardSlot))).map (fun m => s.me / 8 * 8 + m)
  if peers.isEmpty then s1.mbxReply 0 (leBytes 1 w.gen.toNat)
  else peers.foldl (fun s m => s.emit (.share m w.slot w.gen))
    { s1 with sec := { s1.sec with shareSlot := w.slot, sharePeers := peers } }

/-- The slot can take the generation now, or the command waits: for a value destroyed less than 20 ms ago, or for users of a
retiring or erased generation. -/
def State.tryKey (s : State) (w : GenWait) : State :=
  if s.genBlocked w.slot w.gen then { s with sec := { s.sec with genWait := some w } }
  else if !s.mayInstall w.slot w.gen || (s.slot w.slot).closing then { s with sec := { s.sec with rewriteWait := some w } }
  else s.finishKey w

/-- Install a shared slot from another module, and answer it, or wait as `tryKey` does (R459). -/
def State.tryShare (s : State) (w : GenWait) : State :=
  if !s.mayInstall w.slot w.gen || (s.slot w.slot).closing then { s with sec := { s.sec with shareWait := some w } }
  else
    (((s.destroyRetiring w.slot).installKey w.slot w.type w.tenant w.gen true).modSlot w.slot
      (fun k => { k with mask := w.mask })).emit (.shareAnswer w.slot w.gen)

/-- Go on with the waits that may have ended. -/
def State.retryKeys (s : State) : State :=
  let s1 := match s.sec.rewriteWait with
    | some w => { s with sec := { s.sec with rewriteWait := none } }.tryKey w
    | none => s
  let s2 := match s1.sec.genWait with
    | some w => { s1 with sec := { s1.sec with genWait := none } }.tryKey w
    | none => s1
  match s2.sec.shareWait with
  | some w => { s2 with sec := { s2.sec with shareWait := none } }.tryShare w
  | none => s2

/-- The refusal of a key command by its parameters and the lifecycle, 0 for none (R444, R460). -/
def State.keyRefusal (s : State) (slot type tenant : Nat) : Half :=
  if slot = 0 then 3
  else if 256 ≤ slot ∨ type = 0 ∨ 4 ≤ type ∨ 64 ≤ tenant then 2
  else if s.sec.lifecycle ≠ .deployed then 0x1000
  else if !s.sec.healthy then 0x1002
  else 0

/-- KEY_GEN. -/
def execKeyGen (slot type tenant : Nat) (s : State) : Answer :=
  if !s.mbxRuns 0x0220 || s.sec.genWait.isSome || s.sec.rewriteWait.isSome then .next s
  else
    let r := s.keyRefusal slot type tenant
    if r ≠ 0 then .next (s.mbxReply r)
    else .next (s.tryKey { slot := slot, type := type, tenant := tenant, gen := s.nextGen slot })

/-- KEY_SHARE. -/
def execKeyShare (slot type tenant mask : Nat) (s : State) : Answer :=
  if !s.mbxRuns 0x0221 || s.sec.genWait.isSome || s.sec.rewriteWait.isSome || !s.sec.sharePeers.isEmpty then .next s
  else
    let r := s.keyRefusal slot type tenant
    if r ≠ 0 then .next (s.mbxReply r)
    else if mask = 0 ∨ 256 ≤ mask then .next (s.mbxReply 2)
    else .next (s.tryKey { slot := slot, type := type, tenant := tenant, gen := s.nextGen slot, mask := mask })

/-- KEY_SHARE_INSTALL: wrapped material arrives from the board headframe. -/
def execKeyShareInstall (slot type tenant gen mask : Nat) (s : State) : Answer :=
  if !s.linksOn || decide (slot = 0 ∨ 256 ≤ slot ∨ type = 0 ∨ 4 ≤ type) || s.sec.shareWait.isSome then .next s
  else .next (s.tryShare { slot := slot, type := type, tenant := tenant, gen := BitVec.ofNat 8 gen, mask := mask })

/-- KEY_SHARE_PEER_TIMEOUT: a module of the mask has not answered within 10 ms. -/
def execKeySharePeerTimeout (s : State) : Answer :=
  if s.mbxRuns 0x0221 && !s.sec.sharePeers.isEmpty then
    .next ({ s with sec := { s.sec with sharePeers := [], shareSlot := 0 } }.mbxReply 0x1006)
  else .next s

/-- GENERATION_REUSE_WAIT_EXPIRY: 20 ms have passed since the value of a waiting generation was destroyed. -/
def execGenerationReuseWaitExpiry (slot : Nat) (s : State) : Answer :=
  if s.islandOn 243 && ((s.sec.genWait.any (fun w => decide (w.slot = slot))) || s.sec.shareWait.any (fun w => decide (w.slot = slot)))
  then .next s.retryKeys else .next s

/-! ## Erase, revoke, destroy (R444 to R447) -/

/-- The refusal of a command that names a slot alone. -/
def slotRefusal (slot : Nat) : Half := if slot = 0 then 3 else if 256 ≤ slot then 2 else 0

/-- End an erase whose slot has no user left. -/
def State.settleErase (s : State) (slot : Nat) : State :=
  if (s.slot slot).closing && decide (s.slotUsers slot = 0) then (s.emptySlot slot).eraseDone slot else s

/-- KEY_ERASE. -/
def execKeyErase (slot : Nat) (s : State) : Answer :=
  if !s.mbxRuns 0x0222 || s.sec.eraseWait.isSome then .next s
  else if slotRefusal slot ≠ 0 then .next (s.mbxReply (slotRefusal slot))
  else if (s.slot slot).type = 0 then .next (s.mbxReply 0)
  else .next (({ s with sec := { s.sec with eraseWait := some slot } }.beginErase slot).settleErase slot)

/-- KEY_REVOKE. -/
def execKeyRevoke (slot : Nat) (s : State) : Answer :=
  if !s.mbxRuns 0x0223 then .next s
  else if slotRefusal slot ≠ 0 then .next (s.mbxReply (slotRefusal slot))
  else .next ((s.revokeSlot slot).retryKeys.mbxReply 0)

/-- GENERATION_DESTROY: a retiring or erased generation without users is destroyed, and what waited for it goes on. -/
def execGenerationDestroy (slot : Nat) (s : State) : Answer :=
  if !s.islandOn 243 then .next s
  else
    let k := s.slot slot
    if k.closing then .next (s.settleErase slot).retryKeys
    else match k.retiring with
      | some g => if s.usersOf slot g = 0 then .next (s.destroyRetiring slot).retryKeys else .next s
      | none => .next s.retryKeys

/-! ## Clearing a tenant (R464) -/

/-- The entries of a table of `n` entries as the security engine reads them, word by word under slot 0 (09 R229, R247): 0 in a word that
cannot be read. -/
def State.readTable (s : State) (base n : Nat) : List W64 × State :=
  (List.range (ceilDiv n 8)).foldl (fun acc i =>
    let off := base + 64 * i
    let k := min 8 (n - 8 * i)
    if hbmSize < off + 8 * k then (acc.1 ++ List.replicate k 0, acc.2)
    else
      let a := acc.2.hbmRead off (8 * k) (acc.2.sysReq off)
      let bs := a.1.bytesOr (8 * k)
      (acc.1 ++ (List.range k).map (fun e => BitVec.ofNat 64 (fieldAt bs (8 * e) 8)), a.2)) ([], s)

/-- The valid entries of the tables of `n` entries at some offsets. -/
def State.readTables (s : State) (bases : List Nat) (n : Nat) : List W64 × State :=
  bases.foldl (fun acc b =>
    let a := acc.2.readTable b n
    (acc.1 ++ a.1.filter pteValid, a.2)) ([], s)

/-- This module's frames that a leaf maps. -/
def State.leafFrames (s : State) (e : W64) (large : Bool) : List Nat :=
  match s.ownHbm (pteFrame e * 65536) with
  | some off => (List.range (if large then 32 else 1)).map (fun i => frameOf off + i)
  | none => []

/-- The offsets of the tables that entries point to. -/
def State.nextTables (s : State) (es : List W64) : List Nat :=
  (es.filter (fun e => !pteLeaf e)).filterMap (fun e => s.ownHbm (pteNext e))

/-- The frames of this module that a pool entry names. -/
def State.poolFrames (s : State) (e : W64) : List Nat :=
  match s.ownHbm (bits e.toNat 47 16 * 65536) with
  | some off => (List.range (if bitAt e.toNat 48 then 32 else 1)).map (fun i => frameOf off + i)
  | none => []

/-- The frames of a context on this module: those that hold its tables, those that their leaves map, and its pool. -/
def State.ctxFrames (s : State) (c : Nat) : List Nat × State :=
  let x := s.ctx c
  let ring := match s.poolBase c with
    | some b => s.readTable b x.poolLen
    | none => ([], s)
  let pool := ring.1.flatMap s.poolFrames
  match s.ownHbm x.f.root.toNat with
  | none => (pool, ring.2)
  | some base =>
    if x.f.root = 0 then (pool, ring.2)
    else
      let e1 := ring.2.readTables [base] 16384
      let t2 := s.nextTables e1.1
      let e2 := e1.2.readTables t2 8192
      let t3 := s.nextTables e2.1
      let e3 := e2.2.readTables t3 32
      ((pool ++ [frameOf base, frameOf base + 1] ++ t2.map frameOf ++ t3.map frameOf ++
        (e2.1.filter pteLeaf).flatMap (fun e => s.leafFrames e true) ++
        (e3.1.filter pteLeaf).flatMap (fun e => s.leafFrames e false)).dedup, e3.2)

/-- The contexts of a tenant. -/
def State.tenantCtxs (s : State) (t : Nat) : List Nat :=
  (Tab.keys s.cmd.ctxs).filter (fun c => (s.ctx c).bound && decide ((s.ctx c).f.tenant.toNat = t))

/-- The panels of a tenant's contexts. -/
def State.tenantPanels (s : State) (t : Nat) : List Nat := ((s.tenantCtxs t).map (fun c => (s.ctx c).f.panel.toNat)).dedup

/-- Overwrite the HBM of a tenant: its frames take +0 under slot 0 and the count 0, and the lines in the ways of its panels are
dropped. -/
def State.clearTenant (s : State) (t : Nat) : State :=
  let rd := (s.tenantCtxs t).foldl (fun acc c =>
    let a := acc.2.ctxFrames c
    (acc.1 ++ a.1, a.2)) (([] : List Nat), s)
  let fs := rd.1.dedup
  let ways := (s.tenantPanels t).foldl (fun m k => m ||| (s.panel k).entry.wayMask.toNat) 0
  let s1 := fs.foldl (fun s f => s.zeroFrame f (s.slot 0).material) rd.2
  let s2 := fs.foldl (fun s f => s.writeCount .sys f 0) s1
  s2.mscDropAll (fun _ l => bitAt ways l.way)

/-- Zero-fill every addressable frame under slot 0 (log entry 27: the system area is not located); a poisoned frame takes nothing. -/
def State.zeroAll (s : State) : State :=
  let s0 := s.mscDropAll (fun _ _ => true)
  let s1 := (List.range 8).foldl (fun s h => s.count (hbmReg h 0x108)
    (hbmSize / 8 - 65536 * (s.hbm.poisoned.filter (fun f => decide (stackOf (f * 65536) = h))).length)) s0
  { s1 with hbm := { s1.hbm with mem := [], tags := [], bad := [], fill := (s1.slot 0).material } }

/-- TENANT_CLEAR. -/
def execTenantClear (tenant : Nat) (all : Bool) (s : State) : Answer :=
  if !s.mbxRuns 0x0224 then .next s
  else if all then
    if (Tab.keys s.cmd.ctxs).any (fun c => (s.ctx c).bound) then .next (s.mbxReply 2) else .next (s.zeroAll.mbxReply 0)
  else if 64 ≤ tenant then .next (s.mbxReply 2)
  else .next ((s.clearTenant tenant).mbxReply 0)

/-! ## Removing a tenant (R465, R466) -/

/-- The slots of a tenant. -/
def State.tenantSlots (s : State) (t : Nat) : List Nat :=
  (Tab.keys s.sec.slots).filter (fun i => decide (i ≠ 0) && decide ((s.slot i).type ≠ 0) && decide ((s.slot i).tenant = t))

/-- Phases 4 and 5 of a removal: the tenant's frames and slices are cleared, its contexts destroyed, its slots empty. A panel
that runs another tenant's step meanwhile keeps its slices (log entry 28). -/
def State.finishRemoval (s : State) (t : Nat) : State :=
  let cs := s.tenantCtxs t
  let ks := (s.tenantPanels t).filter (fun k => (s.panel k).running.isNone)
  let s1 := s.clearTenant t
  let s2 := ks.foldl (fun s k => (s.panelCores k).foldl (fun s p => s.modContents p Slice.cleared) s) s1
  let s3 := cs.foldl (fun s c => s.destroyCtx c) s2
  let s4 := (s3.tenantSlots t).foldl (fun s i => s.emptySlot i) s3
  { s4 with sec := { s4.sec with removal := none } }.mbxReply 0

/-- A peer is done, or its links were reset: the removal goes on once none is left. -/
def State.removalPeer (s : State) (peer : Nat) : State :=
  match s.sec.removal with
  | none => s
  | some r =>
    let left := r.peers.filter (fun m => decide (m ≠ peer))
    let s1 := { s with sec := { s.sec with removal := some { r with peers := left } } }
    if left.isEmpty then s1.finishRemoval r.tenant else s1

/-- Phases 1 and 2: the tenant's cores stop, its doorbells are ignored, its steps end with ST_REVOKED, its slots are revoked. -/
def State.beginRemoval (s : State) (t : Nat) : State :=
  let cs := s.tenantCtxs t
  let s1 := cs.foldl (fun s c => (s.runningOf c).foldl (fun s (x : Nat × Step) => s.stopPanel x.1) s) s
  let s2 := cs.foldl (fun s c => s.modCtx c (fun x => { x with ignoreDb := true, claimOpen := false, claimed := false })) s1
  let mine (st : Step) : Bool := cs.contains st.ctx
  let s3 := (s2.killWhere mine 7).withdrawWhere mine 7
  let s4 := cs.foldl (fun s c => ((s.dropPackets c 7).cancelWork c).dropSwitched c) s3
  let s5 := { s4 with rel := { s4.rel with
    running := s4.rel.running.filter (fun r => !cs.contains r.ctx), queued := s4.rel.queued.filter (fun r => !cs.contains r.ctx) } }
  (s5.tenantSlots t).foldl (fun s i => s.revokeSlot i) s5

/-- TENANT_REMOVE. -/
def execTenantRemove (tenant : Nat) (s : State) : Answer :=
  if !s.mbxRuns 0x0225 || s.sec.removal.isSome then .next s
  else if 64 ≤ tenant then .next (s.mbxReply 2)
  else
    let mask := (s.tenantSlots tenant).foldl (fun m i => if (s.slot i).shared then m ||| (s.slot i).mask else m) 0
    let peers := ((onesOf mask 8).filter (fun m => decide (m ≠ s.walker.boardSlot))).map (fun m => s.me / 8 * 8 + m)
    let s1 := s.beginRemoval tenant
    if peers.isEmpty then .next (s1.finishRemoval tenant)
    else .next (peers.foldl (fun s m => s.emit (.drain m tenant false))
      { s1 with sec := { s1.sec with removal := some { tenant := tenant, peers := peers } } })

/-- TENANT_DRAIN_TIMEOUT: a notified peer has not acknowledged; every board-local link to it is reset. -/
def execTenantDrainTimeout (peer : Nat) (s : State) : Answer :=
  if !(s.islandOn 243 && s.sec.removal.any (fun r => r.peers.contains peer)) then .next s
  else
    let ps := (List.range 104).filter (fun p => decide (portClass p = 0) && (s.port p).hears &&
      (s.port p).seen.any (fun x => decide (x.1 = peer)))
    .next (((ps.foldl (fun s p => s.portDead p) s).event 0x7807).removalPeer peer)

/-- DRAIN_NOTICE: a notice from the removing module is acknowledged once this module has drained; an acknowledgement reaches the
removing module. -/
def execDrainNotice (peer tenant : Nat) (drained : Bool) (s : State) : Answer :=
  if !s.linksOn then .next s
  else if drained then
    if s.sec.removal.any (fun r => decide (r.tenant = tenant) && r.peers.contains peer) then .next (s.removalPeer peer) else .next s
  else .next { s with sec := { s.sec with drains := s.sec.drains ++ [(peer, tenant)] } }.settleDrains

/-! ## Lifecycle (R461, R462) -/

/-- The code of a lifecycle state. -/
def Lifecycle.code (l : Lifecycle) : Nat :=
  match l with
  | .manufacture => 0
  | .provisioned => 1
  | .deployed => 2
  | .returned => 3

/-- The state of a code. -/
def lifecycleOf (c : Nat) : Option Lifecycle := [Lifecycle.manufacture, .provisioned, .deployed, .returned][c]?

/-- The status of a transition: 0 where it is authorised. -/
def State.lifecycleStatus (s : State) (target : Lifecycle) (auth : List Byte) : Half :=
  let hash := s.sec.ownerHash
  let signed := match hash with
    | some h => Config.ownerSig h s.pins.serial.toNat target.code s.sec.challenge auth
    | none => false
  if s.sec.fusesLeft = 0 then 0x1000
  else match s.sec.lifecycle, target with
    | .provisioned, .deployed => if hash = none ∨ hash = some auth then 0 else 0x1005
    | .deployed, .provisioned => if signed then 0 else 0x1005
    | .provisioned, .returned => if signed then 0 else 0x1005
    | .deployed, .returned => if signed then 0 else 0x1005
    | _, _ => 0x1000

/-- Wipe the secure tiles of a slice, which it has while its mark is set (06 R174, R176). -/
def Slice.wipeMarked (sl : Slice) : Slice := if sl.secure then sl.wipeSecure else sl

/-- Wipe the secure tiles over the reset lines, those that a canary window has saved too. -/
def State.wipeTiles (s : State) : State :=
  let s1 := (Tab.keys s.cores).foldl (fun s p => s.modSlice p Slice.wipeMarked) s
  { s1 with rel := { s1.rel with canarySaved := s1.rel.canarySaved.map Slice.wipeMarked } }

/-- The actions of a transition, in their order; the fuse is burned last. -/
def State.transition (s : State) (target : Lifecycle) (auth : List Byte) : State :=
  let s1 := ((List.range 256).filter (fun i => decide (i ≠ 0))).foldl (fun s i => s.revokeSlot i) s
  let all (_ : Step) : Bool := true
  let s2 := (s1.killWhere all 7).withdrawWhere all 7
  let s3 := (Tab.keys s2.cmd.ctxs).foldl (fun s c => ((s.dropPackets c 7).cancelWork c).destroyCtx c) s2
  let s4 := ({ s3 with cmd := { s3.cmd with ctxs := [] }, rel := { s3.rel with running := [], queued := [] } }).wipeTiles
  let s5 := s4.zeroAll.newSlot0
  let owner := if s.sec.lifecycle = .provisioned ∧ target = .deployed then some auth else s5.sec.ownerHash
  { s5 with sec := { s5.sec with lifecycle := target, fusesLeft := s5.sec.fusesLeft - 1, ownerHash := owner } }.event 0x7805

/-- LIFECYCLE_SET. The challenge is drawn anew whether the command succeeds or fails. -/
def execLifecycleSet (target : Nat) (auth : List Byte) (s : State) : Answer :=
  if !s.mbxRuns 0x0226 then .next s
  else match lifecycleOf target with
    | none => .next (s.newChallenge.mbxReply 2)
    | some t =>
      let st := s.lifecycleStatus t auth
      if st = 0 then .next ((s.transition t auth).newChallenge.mbxReply 0) else .next (s.newChallenge.mbxReply st)

/-! ## Tamper and entropy (R460, R463) -/

/-- The bit of a detector in SEC_TAMPER. -/
def tamperBit (c : TamperCause) : Nat :=
  match c with
  | .lid => 0
  | .mesh => 1
  | .voltage => 2
  | .clock => 3

/-- The latch with the listed causes. -/
def tamperMask (l : List TamperCause) : BitVec 4 := BitVec.ofNat 4 (maskOf (l.map tamperBit))

/-- TAMPER_CLEAR: the latch is cleared, causes that still stand latch again, and a HOLD with cause 6 goes on with stage 3. -/
def execTamperClear (standing : List TamperCause) (s : State) : Answer :=
  if !s.mbxRuns 0x0227 then .next s
  else
    let s1 := { s with sec := { s.sec with tamper := tamperMask standing } }.mbxReply 0
    if s1.mgt.state = .hold ∧ s1.mgt.holdCause = 6 ∧ s1.sec.tamper = 0 then
      if (s1.mgt.fw s1.mgt.runSlot).valid then .next s1.bootConfig else .next (s1.enterHold 8)
    else .next s1

/-- Destroy the material of every slot and every retiring generation. -/
def State.destroyAll (s : State) : State :=
  let s1 := (Tab.keys s.sec.slots).foldl (fun s i => s.emptySlot i) s
  let c : Sec := { s1.sec with
    sessions := [], eraseWait := none, closeWait := [], genWait := none, rewriteWait := none, shareWait := none, sharePeers := [],
    shareSlot := 0, removal := none }
  { s1 with sec := c }

/-- A key command that runs ends with ST_REVOKED (R449). -/
def State.abortKeyCommand (s : State) : State :=
  if s.mgt.mbxBusy && decide (0x0220 ≤ s.mgt.mbxOpcode.toNat ∧ s.mgt.mbxOpcode.toNat ≤ 0x0227) then s.mbxReply 7 else s

/-- TAMPER_DETECT: every key is destroyed, secure memory is wiped, the cause is latched, and the module resets into HOLD. -/
def execTamperDetect (cause : TamperCause) (s : State) : Answer :=
  if !s.pins.standby then .next s
  else
    let s1 := s.destroyAll.wipeTiles.abortKeyCommand
    let n := if s1.sec.tamperCount = 0xFFFF then s1.sec.tamperCount else s1.sec.tamperCount + 1
    let s2 := { s1 with sec := { s1.sec with tamper := s1.sec.tamper ||| tamperMask [cause], tamperCount := n } }
    let s3 := (s2.event 0x7801).count (secReg 0x138) 1
    .next (if s3.pins.dieOn && !s3.pins.perst then s3.moduleReset else s3)

/-- ENTROPY_FAIL: a health test fails and the DRBG stops. -/
def execEntropyFail (s : State) : Answer :=
  if s.islandOn 243 && s.sec.healthy then
    .next (({ s with sec := { s.sec with healthy := false } }.event 0x7802).count (secReg 0x130) 1)
  else .next s

/-- ENTROPY_RECOVER: 1,024 consecutive samples have passed. -/
def execEntropyRecover (s : State) : Answer :=
  if s.islandOn 243 then .next { s with sec := { s.sec with healthy := true } } else .next s

/-! ## SPDM (R451) -/

/-- A door takes SPDM requests: the DOE mailbox of a function that answers configuration requests, or the sideband. -/
def State.spdmOpen (s : State) (d : SpdmDoor) : Bool :=
  s.pins.standby && s.pins.modEn && !s.pins.perst && (match d with
    | .doe fn => s.islandOn 243 && decide (fn ≤ s.hif.numVfs)
    | .smbus => true)

/-- Answer an SPDM request. -/
def State.spdm (s : State) (d : SpdmDoor) (data : List Byte) : Answer := if s.spdmOpen d then .next (s.emit (.spdm d data)) else .next s

/-- The measurements: the firmware images, the configuration block, the lifecycle state, the tamper count. -/
def State.measurements (s : State) : List Byte :=
  Config.sha384 s.mgt.fwA.image ++ Config.sha384 s.mgt.fwB.image ++ Config.sha384 s.mgt.config ++
  leBytes 1 s.sec.lifecycle.code ++ leBytes 2 s.sec.tamperCount.toNat

/-- GET_VERSION. -/
def execGetVersion (d : SpdmDoor) (s : State) : Answer := s.spdm d (Config.spdmBody 0)

/-- GET_CAPABILITIES. -/
def execGetCapabilities (d : SpdmDoor) (s : State) : Answer := s.spdm d (Config.spdmBody 1)

/-- NEGOTIATE_ALGORITHMS. -/
def execNegotiateAlgorithms (d : SpdmDoor) (s : State) : Answer := s.spdm d (Config.spdmBody 2)

/-- GET_DIGESTS: the digest of the certificate chain. -/
def execGetDigests (d : SpdmDoor) (s : State) : Answer := s.spdm d (Config.sha384 Config.certChain)

/-- GET_CERTIFICATE: a part of the certificate chain. -/
def execGetCertificate (d : SpdmDoor) (offset len : Nat) (s : State) : Answer := s.spdm d (slicedAt Config.certChain offset len)

/-- CHALLENGE: a signature of the device over the chain's digest, the measurements' digest and the nonce. -/
def execChallenge (d : SpdmDoor) (nonce : List Byte) (s : State) : Answer :=
  s.spdm d (Config.deviceSign (Config.sha384 Config.certChain ++ Config.sha384 s.measurements ++ nonce))

/-- GET_MEASUREMENTS: the measurements and a signature over them and the nonce. -/
def execGetMeasurements (d : SpdmDoor) (nonce : List Byte) (s : State) : Answer :=
  s.spdm d (s.measurements ++ Config.deviceSign (s.measurements ++ nonce))

/-! ## Sessions (R452, R453) -/

/-- The free slot that a session takes: the lowest whose next generation may be issued. -/
def State.freeSlot (s : State) : Option Nat :=
  (List.range 256).find? (fun i => decide (i ≠ 0) && decide ((s.slot i).type = 0) && !(s.slot i).closing &&
    !s.genBlocked i (s.nextGen i))

/-- SESSION_OPEN. The module's ephemeral key, nonce and signature are free values (log entry 26). -/
def execSessionOpen (fn ctx : Nat) (_clientKey _nonce : List Byte) (s : State) : Answer :=
  let x := s.ctx ctx
  if !s.spdmOpen (.doe fn) then .next s
  else
    let refuse (st : Nat) : Answer := .next (s.emit (.spdm (.doe fn) (leBytes 2 st)))
    if !x.bound || !x.f.secure || decide (x.f.fn.toNat ≠ fn) then refuse 2
    else if s.sec.lifecycle ≠ .deployed then refuse 0x1000
    else if !s.sec.healthy then refuse 0x1002
    else match s.freeSlot with
      | none => refuse 0x1001
      | some i =>
        let g := s.nextGen i
        let s1 := (s.installKey i 3 x.f.tenant.toNat g false)
        let s2 := { s1 with sec := { s1.sec with sessions := Tab.set s1.sec.sessions i { ctx := ctx, fn := fn } } }
        let d := s2.drawBytes 225
        .next ((d.2.count (secReg 0x100) 1).emit (.spdm (.doe fn) (leBytes 2 0 ++ leBytes 1 i ++ leBytes 1 g.toNat ++ d.1)))

/-- SESSION_CLOSE: the slot is erased, and the response is sent once the erase completes. -/
def execSessionClose (fn slot : Nat) (s : State) : Answer :=
  if !s.spdmOpen (.doe fn) then .next s
  else match Tab.find s.sec.sessions slot with
    | none => .next (s.emit (.spdm (.doe fn) (leBytes 2 2)))
    | some ses =>
      if ses.fn ≠ fn then .next (s.emit (.spdm (.doe fn) (leBytes 2 2)))
      else
        let c : Sec := { s.sec with
          closeWait := s.sec.closeWait.filter (fun (x : Nat × Nat) => decide (x.1 ≠ slot)) ++ [(slot, fn)] }
        let s1 := { s with sec := c }
        .next ((s1.beginErase slot).settleErase slot)

end Sys2Proof.Machine
end

