-- ==== Sys2Proof/Machine/Commands.lean ====
section
/-! DEFINITION. The mailbox and its commands on the module, its firmware and its tables (18 R472 to R478, R484 to R487; 14 R372, R375,
R380; 13 R329, R330, R349). -/

namespace Sys2Proof.Machine

/-! ## The mailbox (R471, R475, R476) -/

/-- The opcodes of the management plane. -/
def mbxOpcodes : List Nat :=
  [0x0201, 0x0202, 0x0203, 0x0204, 0x0205, 0x0206, 0x0207, 0x0208, 0x0209, 0x020A, 0x020B, 0x020C, 0x020D, 0x020E, 0x0210, 0x0211,
   0x0212, 0x0213, 0x0214, 0x0215, 0x0216, 0x0217, 0x0218, 0x0219, 0x021A, 0x0220, 0x0221, 0x0222, 0x0223, 0x0224, 0x0225, 0x0226,
   0x0227]

/-- The commands that are allowed in HOLD; RELEASE is for host functions alone. -/
def mbxInHold (op : Nat) : Bool :=
  [0x0201, 0x0202, 0x0203, 0x0204, 0x0205, 0x0206, 0x0207, 0x0209, 0x020A, 0x0226, 0x0227].contains op

/-- A door brings commands: BAR4 of the PF, the chain, or vc 4; no island on the way is held (R29). -/
def State.doorOpen (s : State) (d : Door) : Bool :=
  match d with
  | .bar4 => s.islandOn 240 && s.islandOn 241 && !s.pins.perst
  | .chain => s.chainUp && !(s.clk.held.contains 241)
  | .vc4 => s.linksOn && s.islandOn 241

/-- A command that finds the mailbox busy is refused through its door. -/
def State.mbxRefuse (s : State) (door : Door) (seq : Half) : State :=
  let s1 := s.count 0x128 1
  match door with
  | .bar4 => { s1 with mgt := { s1.mgt with mbxRefSeq := seq, mbxRefStatus := 1 } }
  | d => s1.emit (.mailboxReply d 1 [])

/-- A command is accepted and runs. -/
def State.mbxAccept (s : State) (door : Door) (opcode seq : Half) : State :=
  let s1 := s.count 0x120 1
  let m : Mgt := { s1.mgt with mbxBusy := true, mbxDoor := door, mbxOpcode := opcode, mbxSeq := if door = .bar4 then seq else s1.mgt.mbxSeq }
  { s1 with mgt := m }

/-- A command at a door: it runs, or is refused as busy. Outside the ready state a command that is not allowed in HOLD ends with
ST_HOLD; an opcode of no command ends with ST_BAD_PARAM (log entry 29). -/
def State.mbxArrive (s : State) (door : Door) (opcode seq : Half) : State :=
  if !s.doorOpen door then s
  else if s.mgt.mbxBusy then s.mbxRefuse door seq
  else
    let s1 := s.mbxAccept door opcode seq
    if !mbxOpcodes.contains opcode.toNat then s1.mbxReply 2
    else if s.mgt.state ≠ .ready ∧ !mbxInHold opcode.toNat then s1.mbxReply 0x000C
    else s1

/-- MBX_CMD: at BAR4 it is a doorbell of the host, which waits for the posted writes before it (08 R222). -/
def execMbxCmd (door : Door) (opcode seq : Half) (s : State) : Answer :=
  if door = .bar4 then s.hostTo (.mbxCmd door opcode seq) [241] (fun s => .next (s.mbxArrive door opcode seq))
  else .next (s.mbxArrive door opcode seq)

/-! ## The module and its firmware (R476, R484, R485) -/

/-- MGT_STATUS.state as a number. -/
def MgtState.code (m : MgtState) : Nat :=
  match m with
  | .boot => 0
  | .hold => 1
  | .ready => 2

/-- MODULE_INFO. -/
def execModuleInfo (s : State) : Answer :=
  if !s.mbxRuns 0x0201 then .next s
  else
    let f := s.firmware
    let slot (x : FwSlot) : List Byte := leBytes 2 x.release ++ leBytes 2 x.schemaLo ++ leBytes 2 x.schemaHi
    .next (s.mbxReply 0 (leBytes 8 s.pins.serial.toNat ++ leBytes 2 f.release ++ leBytes 1 f.level ++ slot s.mgt.fwA ++ slot s.mgt.fwB ++
      leBytes 1 s.sec.lifecycle.code ++ leBytes 1 s.mgt.state.code ++ leBytes 1 (s.mgt.chainAddr.getD 0) ++ leBytes 2 s.mgt.moduleId))

/-- MODULE_RESET: the reply, then the reset. -/
def execModuleReset (s : State) : Answer := if s.mbxRuns 0x0202 then .next (s.mbxReply 0).moduleReset else .next s

/-- CONFIG_LOAD: a candidate block that passes the checks is written to flash; in HOLD the boot goes on with stage 4, unless
tamper is latched or no image is valid. A block with a reserved field that is not zero is a bad parameter (00 R5). -/
def execConfigLoad (block : HostRead) (s : State) : Answer :=
  if !s.mbxRuns 0x0203 then .next s
  else match block with
    | .failed => .next (s.mbxReply 0x0103)
    | .ok bs =>
      let c := s.cfgCause false bs
      if c = 5 then .next (s.mbxReply 4)
      else if c ≠ 0 then .next (s.mbxReply 0x0103)
      else if !cfgReservedOk (bs.take (fieldAt bs 8 4)) then .next (s.mbxReply 2)
      else
        let s1 := { s with mgt := { s.mgt with config := bs, configHalf := false } }.mbxReply 0
        if s.mgt.state = .hold ∧ s.mgt.holdCause ≠ 6 ∧ s.mgt.holdCause ≠ 8 then .next s1.bootIslands else .next s1

/-- CONFIG_READ: bytes of the block's area in flash; erased bytes read as 0xFF. -/
def execConfigRead (offset len : Nat) (s : State) : Answer :=
  if !s.mbxRuns 0x0204 then .next s
  else if 32768 < len ∨ 262144 < offset + len then .next (s.mbxReply 2)
  else .next (s.mbxReply 0 ((List.range len).map (fun i => (s.mgt.config[offset + i]?).getD 0xFF)))

/-- FW_INSTALL: a verified image goes into the inactive slot. -/
def execFwInstall (image : HostRead) (s : State) : Answer :=
  if !s.mbxRuns 0x0205 then .next s
  else match image with
    | .failed => .next (s.mbxReply 0x0102)
    | .ok bs =>
      if 33554432 < bs.length ∨ !Config.imageOk bs then .next (s.mbxReply 0x0102)
      else
        let i := Config.imageInfo bs
        let f : FwSlot := { release := i.1, level := i.2.1, schemaLo := i.2.2.1, schemaHi := i.2.2.2, valid := true, image := bs }
        .next ({ s with mgt := if s.mgt.activeSlot then { s.mgt with fwA := f } else { s.mgt with fwB := f } }.mbxReply 0)

/-- The group of this module has a headframe: this module, or one whose heartbeat came. -/
def State.hasHeadframe (s : State) : Bool := s.mgt.group.head || s.mgt.group.heard.isSome

/-- Mark the inactive slot as the trial slot. -/
def State.markTrial (s : State) (minutes : Nat) : State :=
  { s with mgt := { s.mgt with trial := some (if minutes = 0 then 10 else minutes), fwAsking := none } }.mbxReply 0

/-- FW_ACTIVATE: without a group headframe the slot is marked at once; with one the module asks first, and the command is issued again
with the answer. -/
def execFwActivate (revertMin : Nat) (approved : Bool) (s : State) : Answer :=
  if !s.mbxRuns 0x0206 then .next s
  else match s.mgt.fwAsking with
    | some m => if approved then .next (s.markTrial m)
      else .next ({ s with mgt := { s.mgt with fwAsking := none } }.mbxReply 0x0100)
    | none =>
      if 1440 < revertMin then .next (s.mbxReply 2)
      else if !(s.mgt.fw !s.mgt.activeSlot).valid then .next (s.mbxReply 0x0102)
      else if !s.hasHeadframe then .next (s.markTrial revertMin)
      else .next ({ s with mgt := { s.mgt with fwAsking := some revertMin } }.emit (.askHeadframe (s.mgt.fw !s.mgt.activeSlot).release))

/-- FW_APPROVAL_TIMEOUT: no answer within 100 ms. -/
def execFwApprovalTimeout (s : State) : Answer :=
  if s.mbxRuns 0x0206 && s.mgt.fwAsking.isSome then .next ({ s with mgt := { s.mgt with fwAsking := none } }.mbxReply 0x0101)
  else .next s

/-- The previous slot becomes the active one, and the module resets. A trial that has not become active leaves the active slot as it
is. -/
def State.revertFw (s : State) : State :=
  let trial := s.mgt.trial.isSome || (s.mgt.runSlot != s.mgt.activeSlot)
  ({ s with mgt := { s.mgt with
      activeSlot := if trial then s.mgt.activeSlot else !s.mgt.activeSlot, trial := none, revertS := 0 } }.event 3).moduleReset

/-- FW_REVERT: the reply, then the reset. -/
def execFwRevert (s : State) : Answer := if s.mbxRuns 0x0207 then .next (s.mbxReply 0).revertFw else .next s

/-- REVERT_TIMER_EXPIRY: the revert timer of a trial in HOLD with cause 5 expires. -/
def execRevertTimerExpiry (s : State) : Answer :=
  if s.pins.standby && decide (s.mgt.state = .hold ∧ s.mgt.holdCause = 5 ∧ s.mgt.revertS ≠ 0) then .next s.revertFw else .next s

/-! ## Locks, releases, events (R476, R487, R491) -/

/-- LOCK_SET. -/
def execLockSet (groups : BitVec 2) (s : State) : Answer :=
  if s.mbxRuns 0x0208 then .next ({ s with mgt := { s.mgt with locks := s.mgt.locks ||| groups } }.mbxReply 0) else .next s

/-- RELEASE: the freeze of a host function or of a port ingress is lifted; a released port trains. -/
def execRelease (kind index : Nat) (s : State) : Answer :=
  if !s.mbxRuns 0x0209 then .next s
  else if kind = 0 then
    if s.hif.frozen.contains index then
      .next ({ s with hif := { s.hif with frozen := s.hif.frozen.filter (fun i => decide (i ≠ index)) } }.mbxReply 0)
    else .next (s.mbxReply 2)
  else if kind = 1 then
    if s.mgt.state ≠ .ready then .next (s.mbxReply 0x000C)
    else if (s.port index).frozen then
      .next ((s.modPort index (fun p => { p with frozen := false, state := .training, result := 0 })).mbxReply 0)
    else .next (s.mbxReply 2)
  else .next (s.mbxReply 2)

/-- The 16 bytes of an event log entry. -/
def eventBytes (e : Event) : List Byte := leBytes 4 e.seq.toNat ++ leBytes 2 e.code.toNat ++ leBytes 2 e.arg.toNat ++ leBytes 8 e.time.toNat

/-- EVENT_READ: entries in sequence order from the first named on; the alert line follows the last one passed. -/
def execEventRead (first : W32) (count : Nat) (s : State) : Answer :=
  if !s.mbxRuns 0x020A then .next s
  else if 2048 < count then .next (s.mbxReply 2)
  else
    let es := (s.mgt.events.filter (fun e => decide ((e.seq - first).toNat < 2 ^ 31))).take count
    let read := match es.getLast? with
      | some e => e.seq + 1
      | none => s.mgt.eventRead
    .next ({ s with mgt := { s.mgt with eventRead := read } }.mbxReply 0 (es.flatMap eventBytes))

/-! ## Identity, survey, calibration (R374, R409, R482) -/

/-- IDENTITY_SET. -/
def execIdentitySet (moduleId : Nat) (s : State) : Answer :=
  if !s.mbxRuns 0x020C then .next s
  else if 32768 ≤ moduleId then .next (s.mbxReply 2)
  else .next ({ s with mgt := { s.mgt with moduleId := moduleId, assigned := true } }.mbxReply 0)

/-- SURVEY: every port is surveyed; the mailbox is busy until the last. -/
def execSurvey (s : State) : Answer := if s.mbxRuns 0x020D && s.pins.dieOn then .next s.surveyAll else .next s

/-- CAL_UNPIN. -/
def execCalUnpin (island : Nat) (s : State) : Answer :=
  if !s.mbxRuns 0x020E then .next s
  else if 256 ≤ island then .next (s.mbxReply 2)
  else
    let r : CalRecord := { Tab.get {} s.gov.cal island with pinned := false }
    .next ({ s with gov := { s.gov with cal := Tab.set s.gov.cal island r } }.mbxReply 0)

/-! ## Contexts (R330, R477; 10 R248; 16 R414) -/

/-- The range-check fields lie in their ranges; they count while rc_policy is not 0. -/
def rcOk (f : CtxFields) : Bool :=
  decide (f.rcPolicy.toNat ≤ 2) &&
  (decide (f.rcPolicy = 0) || (decide (1 ≤ f.rcEntries.toNat ∧ f.rcEntries.toNat ≤ 1024) && decide (f.rcTable.toNat % 4 = 0)))

/-- A class-0 panel holds one context, of class 0. -/
def State.bindOk (s : State) (c : Nat) (f : CtxFields) : Bool :=
  let k := f.panel.toNat
  (s.panel k).written &&
  (!(s.panel k).entry.class0 || (decide (f.cls = 0) && (s.panelCtxs k).all (fun i => decide (i = c))))

/-- The window is free for the context. -/
def State.windowFree (s : State) (c : Nat) (f : CtxFields) : Bool :=
  let w := (s.window (winKey f.fn.toNat f.window.toNat)).ctx
  decide (f.fn.toNat ≤ 64) && (decide (w = none) || decide (w = some c))

/-- Bind a context to its window; a window that it leaves is disabled. -/
def State.bindWindow (s : State) (c : Nat) (f : CtxFields) : State :=
  let old := s.ctx c
  let w := winKey f.fn.toNat f.window.toNat
  let v := winKey old.f.fn.toNat old.f.window.toNat
  let s1 := if old.bound && decide (v ≠ w) then s.modWindow v (fun y => { y with ctx := none, enable := false }) else s
  s1.modWindow w (fun y => { y with ctx := some c, dbRaised := false })

/-- CONTEXT_WRITE. -/
def execContextWrite (ctx : Nat) (e : CtxFields) (s : State) : Answer :=
  if !s.mbxRuns 0x0210 then .next s
  else if !(decide (ctx < 1024) && e.moduleZero && decide (e.ctxId.toNat = ctx) && rcOk e && kvOk e && s.bindOk ctx e && s.windowFree ctx e)
  then .next (s.mbxReply 2)
  else
    let old := s.ctx ctx
    let s1 := (s.bindWindow ctx e).modCtx ctx (fun x => { x with bound := true, f := e })
    let s2 := s1.evalAdmission e.panel.toNat
    .next ((if old.bound && decide (old.f.panel ≠ e.panel) then s2.evalAdmission old.f.panel.toNat else s2).mbxReply 0)

/-- A step of a context runs or waits. -/
def State.ctxBusy (s : State) (c : Nat) : Bool :=
  (List.range 16).any (fun k => (s.panel k).running.any (fun st => decide (st.ctx = c)) || (s.panel k).queue.any (fun st => decide (st.ctx = c)) ||
    (s.panel k).switched.any (fun v => decide (v.step.ctx = c))) ||
  (Tab.keys s.cmd.windows).any (fun k => decide ((s.window k).ctx = some c) && (s.window k).stepPkt.any (fun p => decide (p.opcode = 0x0101)))

/-- CONTEXT_DESTROY: the context is recovered first if a step runs or waits, then unbound. -/
def execContextDestroy (ctx : Nat) (s : State) : Answer :=
  if !s.mbxRuns 0x0211 || (s.ctx ctx).destroyWait then .next s
  else if !(s.ctx ctx).bound then .next (s.mbxReply 2)
  else if (s.ctx ctx).recovering || s.ctxBusy ctx then
    .next ((s.modCtx ctx (fun x => { x with destroyWait := true })).commandRecovery ctx)
  else
    let k := (s.ctx ctx).f.panel.toNat
    .next (((s.destroyCtx ctx).evalAdmission k).mbxReply 0)

/-- CONTEXT_RECOVER: at once, without a claim window. -/
def execContextRecover (ctx : Nat) (s : State) : Answer :=
  if !s.mbxRuns 0x0212 then .next s
  else if !(s.ctx ctx).bound then .next (s.mbxReply 2)
  else .next ((s.commandRecovery ctx).mbxReply 0)

/-- ROOT_SET. -/
def execRootSet (ctx : Nat) (root : W64) (s : State) : Answer :=
  if !s.mbxRuns 0x0213 then .next s
  else if !(s.ctx ctx).bound then .next (s.mbxReply 2)
  else .next ((s.modCtx ctx (fun x => { x with f := { x.f with root := root } })).mbxReply 0)

/-- FALLBACK_SET: the template of a fallback context; a count of 0 removes it. -/
def execFallbackSet (ctx fallback : Nat) (entry : BitVec 21) (argBlock : W64) (firstCore coreCount : Nat) (s : State) : Answer :=
  if !s.mbxRuns 0x0215 then .next s
  else if !(s.ctx ctx).bound then .next (s.mbxReply 2)
  else
    let t : Fallback := { fallback := fallback, entry := entry.toNat, argBlock := argBlock, firstCore := firstCore, coreCount := coreCount }
    .next ((s.modCtx ctx (fun x =>
      if coreCount = 0 then { x with fallback := none, moved := [] } else { x with fallback := some t })).mbxReply 0)

/-- PLACEMENT_WRITE: a table that obeys R277 becomes pending. -/
def execPlacementWrite (ctx : Nat) (table : List Byte) (s : State) : Answer :=
  if !s.mbxRuns 0x0216 then .next s
  else if !(s.ctx ctx).bound || !plOk table then .next (s.mbxReply 2)
  else .next ((s.placePending ctx table).mbxReply 0)

/-! ## Panels (13 R328 to R331, 15 R384, R478, 03 R88) -/

/-- The class-0 panels beside panel `k`. -/
def State.otherClass0 (s : State) (k : Nat) : List Nat := (s.panels.filter (fun j => decide (j ≠ k))).filter s.class0Panel

/-- The envelopes of the class-0 panels stay within the sums of R329. -/
def State.envelopeOk (s : State) (k : Nat) (e : PanelFields) : Bool :=
  let es := (s.otherClass0 k).map (fun j => (s.panel j).entry) ++ (if e.class0 then [e] else [])
  [0, 1].all (fun v =>
    decide ((es.map (fun x => (x.envBurst.getD v 0).toNat)).foldl (· + ·) 0 * 64 ≤ 2048) &&
    decide ((es.map (fun x => (x.envRate.getD v 0).toNat)).foldl (· + ·) 0 * 64 ≤ 11500))

/-- The mailbox takes a panel entry. -/
def State.panelOk (s : State) (k : Nat) (e : PanelFields) : Bool :=
  let others := s.panels.filter (fun j => decide (j ≠ k))
  e.rsvZero && decide (e.envPkt.toNat ≤ 7) &&
  others.all (fun j => decide ((s.panel j).entry.cores &&& e.cores = 0)) &&
  others.all (fun j => !e.class0 ||
    (decide ((s.panel j).entry.setMask &&& e.setMask = 0) && decide ((s.panel j).entry.wayMask &&& e.wayMask = 0))) &&
  (!e.class0 || (decide ((s.otherClass0 k).length ≤ 1) && (s.otherClass0 k).all (fun j => decide (j % 2 ≠ k % 2)) &&
    decide ((s.panelCtxs k).length ≤ 1) && (s.panelCtxs k).all (fun c => decide ((s.ctx c).f.cls = 0)) &&
    decide (s.class0Reserve k (some e) + 400 ≤ s.gov.cap))) &&
  s.envelopeOk k e

/-- The physical core that the management plane pairs with a logical id: the core of that rank among those that are no spares, or a
spare for one that is retired, other than those `taken` already (log entry 30). -/
def State.pairOf (s : State) (taken : List Nat) (l : Nat) : Option Nat :=
  match ((List.range 160).filter (fun p => !s.pins.spares.contains p))[l]? with
  | some p => if (s.core p).retired then s.nextSpare taken else some p
  | none => none

/-- The pairing of a panel for new cores: an id that it held keeps its core, and no two ids share one (03 R88). -/
def State.pairAll (s : State) (k : Nat) (e : PanelFields) : Tab Nat :=
  (onesOf e.cores.toNat 144).foldl (fun acc l =>
    match Tab.find (s.panel k).pairing l with
    | some p => acc ++ [(l, p)]
    | none =>
      match s.pairOf (acc.map Prod.snd) l with
      | some p => acc ++ [(l, p)]
      | none => acc) []

/-- PANEL_WRITE. A class-0 panel of a group with a headframe is admitted on its links first; `linkAdmits` is the headframe's answer
(R482). -/
def execPanelWrite (panel : Nat) (e : PanelFields) (linkAdmits : Bool) (s : State) : Answer :=
  if !s.mbxRuns 0x0214 then .next s
  else if 16 ≤ panel ∨ !s.panelOk panel e then .next (s.mbxReply 2)
  else if e.class0 && s.hasHeadframe && !linkAdmits then .next (s.mbxReply 0x0104)
  else
    let old := s.panel panel
    let pairing := s.pairAll panel e
    let moved := !old.written || decide (old.entry.cores ≠ e.cores) || decide (old.pairing ≠ pairing)
    let s1 := s.modPanel panel (fun pn => { pn with
      written := true, entry := e, pairing := pairing, needsReset := pn.needsReset || moved })
    .next ((s1.evalAdmission panel).mbxReply 0)

/-! ## Routing, levels, ports, repairs (14 R372, R375, R380; 16 R429) -/

/-- A path is absent. -/
def pathAbsent (p : RoutePath) : Bool := decide (p.hops = 0)

/-- A routing entry may be installed. -/
def State.pathsOk (s : State) (ps : List RoutePath) : Bool :=
  decide (ps.length ≤ 4) &&
  ps.all (fun p => pathAbsent p || (decide (p.hops ≤ 6) && decide (p.ports.length = p.hops) &&
    (match p.ports with
     | l :: _ => decide (l < 104) && decide (planState (s.planOf l) ≠ 2) && (decide (l % 52 < 21) || (Tab.find s.lnk.plan l).isSome)
     | [] => false))) &&
  !((ps.zip (ps.drop 1)).any (fun x => pathAbsent x.1 && !pathAbsent x.2))

/-- ROUTE_WRITE: one entry, whole; a reserved bit, and the broken mark, which is written as 0, must be 0 (00 R5). -/
def execRouteWrite (table entry : Nat) (paths : List RoutePath) (s : State) : Answer :=
  if !s.mbxRuns 0x0217 then .next s
  else if 4 ≤ table ∨ 992 ≤ entry ∨ paths.any (fun p => !p.rsvZero || p.broken) = true then .next (s.mbxReply 2)
  else if !s.pathsOk paths then .next (s.mbxReply 0x0B00)
  else .next (({ s with lnk := { s.lnk with routes := Tab.set s.lnk.routes (table * 992 + entry) paths } }.pumpTransfers).mbxReply 0)

/-- LEVEL_PIN: the module supports its own level and the one below. -/
def execLevelPin (ctx level : Nat) (s : State) : Answer :=
  if !s.mbxRuns 0x0218 then .next s
  else if !(s.ctx ctx).bound then .next (s.mbxReply 2)
  else if level ≠ s.firmware.level ∧ level + 1 ≠ s.firmware.level then .next (s.mbxReply 0x0A04)
  else .next ((s.modCtx ctx (fun x => { x with f := { x.f with level := BitVec.ofNat 8 level } })).mbxReply 0)

/-- PORT_REMAP: a spare takes over a logical port that is down. -/
def execPortRemap (logical physical : Nat) (s : State) : Answer :=
  if !s.mbxRuns 0x0219 then .next s
  else if logical < 104 ∧ (s.port (s.physPort logical)).isUp = true then .next (s.mbxReply 0x0B01)
  else if 104 ≤ logical ∨ !s.spareFits logical physical then .next (s.mbxReply 2)
  else .next ((s.takeSpare logical physical).mbxReply 0)

/-- REPAIR_WRITE: an entry of the repair table, which repairs the poisoned frames that it covers; a zero frame deletes the entry. -/
def execRepairWrite (index frame : Nat) (replica : W64) (slot : Nat) (s : State) : Answer :=
  if !s.mbxRuns 0x021A then .next s
  else if 4096 ≤ index then .next (s.mbxReply 2)
  else if frame = 0 then .next ({ s with rel := { s.rel with repairs := Tab.erase s.rel.repairs index } }.mbxReply 0)
  else
    let e : RepairEntry := { frame := frame, replica := replica, slot := slot }
    let s1 := { s with rel := { s.rel with repairs := Tab.set s.rel.repairs index e } }
    let bad := (List.range 32).map (fun i => frame * 32 + i)
    .next (((bad.filter s1.isPoisoned).foldl (fun s f => s.repairFrame f) s1).mbxReply 0)

end Sys2Proof.Machine
end

