-- ==== Sys2Proof/Machine/Engines.lean ====
section
/-! DEFINITION. The engines of a core take entries from their queues and complete instructions (03 R75, R76). -/

namespace Sys2Proof.Machine

/-- The entry at the head of an engine's queue. -/
def Core.queueHead (c : Core) (e : Engine) : Option QEntry :=
  match e with
  | .matrix => c.seq.qMx.head?
  | .vector => c.seq.qVx.head?
  | .stream => c.seq.qStr.head?

/-- ENGINE_ENTRY_START: the engine starts the confirmed entry at the head of its queue once the entry's wait holds, unless the core
is frozen (R74, R75, R85). -/
def execEngineEntryStart (core : Nat) (e : Engine) (s : State) : Answer :=
  if !s.clocked core || (s.core core).isFrozen || !((s.core core).queueHead e).any (fun q => q.confirmed) then .next s
  else match e with
    | .matrix => .next (startMatrix core s)
    | .vector => .next (startVector core s)
    | .stream => .next (startStream core s)

/-! ## Reads that met a collision (06 R163) -/

/-- The ranges of the slice that the instruction about to complete reads. -/
def Core.readsOf (c : Core) (e : Engine) (index : Nat) : List (Nat × Nat) :=
  match e with
  | .matrix =>
    match c.mx.active[index]? with
    | some a =>
      match a.entry.op with
      | .mxl o _ =>
        let bitmap := if o.header then fieldAt (c.slice.bytes a.addr 8) 0 8 else 0
        let base := a.addr + (if o.header then 64 else 0)
        (if o.header then [(a.addr, 64)] else []) ++ (imageReads o.wFmt.toNat o.sparse bitmap).map (fun r => (base + r.1, r.2))
      | .mms o _ => (List.range' a.nextRow (a.total - a.nextRow)).flatMap (fun i =>
          (mmsRanges a o (c.mx.plane a.plane) c.slice i).1)
      | _ => []
    | none => []
  | .vector =>
    match unitOf c.vx c.vx.unit with
    | .ok u =>
      u.sources.flatMap (fun x => (List.range u.rows).flatMap (fun r => x.1.ranges r x.2)) ++
      (match u.members with
       | [m] => if m.op.cls = .g then (moves m u c.slice).filterMap (fun q => q.bind (fun q => q.1.map (fun a => (a, 4)))) else []
       | _ => [])
    | .error _ => []
  | .stream => []

/-- Put free bytes into the collided words of `ws`, keeping what they hold. -/
def State.hideWords (s : State) (p : Nat) (ws : List Nat) : State :=
  ws.foldl (fun s w =>
    let d := s.drawBytes 64
    d.2.modSlice p (fun sl =>
      { sl with mem := Mem.writeN sl.mem (w * 64) d.1, kept := Tab.set sl.kept w (sl.bytes (w * 64) 64) })) s

/-- Put the kept words back, with what was written to them since. -/
def Slice.showWords (sl : Slice) : Slice :=
  { sl with mem := sl.kept.foldl (fun m k => Mem.writeN m (k.1 * 64) k.2) sl.mem, kept := [] }

/-- Run `f` with the collided words of the ranges `rs` read as free bytes (R163). -/
def State.withFreeReads (s : State) (p : Nat) (rs : List (Nat × Nat)) (f : State → State) : State :=
  let ws := ((s.core p).slice.undefReads.filter (fun w => rs.any (fun r => rangesMeet r (w * 64, 64)))).dedup
  let s1 := (f (s.hideWords p ws)).modSlice p Slice.showWords
  let c1 := s1.core p
  s1.modSlice p (fun sl =>
    { sl with undefReads := if c1.mx.active.isEmpty && c1.vx.unit.isEmpty then []
                            else sl.undefReads.filter (fun w => !ws.contains w) })

/-- Errors come to light in the words that an instruction reads, and the corrected reads count (R165). -/
def State.readWords (s : State) (p : Nat) (rs : List (Nat × Nat)) (finds : Finds) : State :=
  let s1 := s.modSlice p (fun sl => sl.found (finds.filter (fun f => rs.any (fun r => rangesMeet r (f.1 * 16, 16)))))
  if (s1.core p).slice.weak.isEmpty then s1 else s1.noteReads p rs

/-- Complete an instruction of core `p`. The stream unit's oldest descriptor completes once its transactions are done (R195). -/
def completeEngine (p : Nat) (e : Engine) (index cycles stalls : Nat) (s : State) : State :=
  match e with
  | .matrix => completeMatrix p index cycles stalls s
  | .vector => completeVector p stalls s
  | .stream => if (s.core p).str.halted then s else s.strRetire p cycles

/-- ENGINE_INSTRUCTION_COMPLETE: the instruction's effects, its counts and its signal (R76). A collided word reads as free
bytes. A core without an active array or vector instruction has no collided read outstanding. -/
def execEngineInstructionComplete (core : Nat) (e : Engine) (index : Nat) (busy : Busy) (finds : Finds) (s : State) : Answer :=
  if !s.clocked core then .next s
  else
    let rs := (s.core core).readsOf e index
    .next ((s.readWords core rs finds).withFreeReads core rs (completeEngine core e index busy.cycles busy.stalls))

/-! ## Issue windows (01 R23, 04 R117 to R119, 07 R194) -/

/-- The ranges of the slice that a window's rows read: those of the rows that an active MMS had still to take in `c` and has taken in `c'`. -/
def Core.windowReads (c c' : Core) : List (Nat × Nat) :=
  c.mx.active.zipIdx.flatMap (fun x =>
    let upTo := match c'.mx.active[x.2]? with
      | some b => if b.entry = x.1.entry then b.nextRow else x.1.total
      | none => x.1.total
    match x.1.entry.op with
    | .mms o _ => (List.range' x.1.nextRow (upTo - x.1.nextRow)).flatMap (fun i => (mmsRanges x.1 o (c.mx.plane x.1.plane) c.slice i).1)
    | _ => [])

/-- ISSUE_WINDOW_START: an array or a stream unit reads its limiter values at a 64-cycle window and issues in the cycles that they
permit; bit c of `ready` says that a row or transaction is ready in cycle c. -/
def execIssueWindowStart (core : Nat) (stream : Bool) (ready : W64) (finds : Finds) (s : State) : Answer :=
  if !s.clocked core then .next s
  else
    let g := Tab.get {} s.gov.limits core
    if stream then .next (streamWindow core g.q ready (s.modSlice core (fun sl => sl.found finds)))
    else
      let rs := (s.core core).windowReads ((matrixWindow core g ready s).core core)
      .next ((s.readWords core rs finds).withFreeReads core rs (matrixWindow core g ready))

end Sys2Proof.Machine
end

