-- ==== Sys2Proof/Machine/RegMap.lean ====
section
/-! DEFINITION. The register index of PF BAR0 (20 R519, R524): where each register lies, how wide it is, how far its tally shadow is,
and the island that holds it (01 R27; 18 R489). -/

namespace Sys2Proof.Machine

/-- A row of the index: `n` registers `step` apart in each of `units` units `stride` apart; `shadow` is the distance of the tally
shadow, 0 for a register that has none. -/
structure RegRow where
  base   : Nat
  units  : Nat := 1
  stride : Nat := 1
  n      : Nat := 1
  step   : Nat := 4
  bits   : Nat := 32
  shadow : Nat := 0
  deriving DecidableEq, Repr

/-- `n` 32-bit registers of every core window. -/
def coreRegs (off n : Nat) : RegRow := { base := coreReg 0 off, units := 160, stride := 0x4000, n := n }
/-- `n` counters of every core window. -/
def coreCtrs (off n : Nat) : RegRow :=
  { base := coreReg 0 off, units := 160, stride := 0x4000, n := n, step := 8, bits := 64, shadow := 0x100 }
/-- `n` 32-bit registers at an offset. -/
def regs32 (base n : Nat) : RegRow := { base := base, n := n }
/-- `n` 64-bit registers at an offset. -/
def regs64 (base n : Nat) : RegRow := { base := base, n := n, step := 8, bits := 64 }
/-- `n` counters at an offset. -/
def ctrs (base n : Nat) : RegRow := { base := base, n := n, step := 8, bits := 64, shadow := 0x100 }
/-- The same in each of several units. -/
def RegRow.inUnits (r : RegRow) (units stride : Nat) : RegRow := { r with units := units, stride := stride }

/-- Blocks 0 to 2. -/
def regRowsA : List RegRow :=
  [regs32 0 3, regs64 0x10 1, regs32 0x18 3, regs64 0x28 1, regs32 0x40 1, ctrs 0x100 6,
   { base := 0x1000, n := 256, step := 16, bits := 128 },
   coreRegs 0 7, coreRegs 0x20 5, coreRegs 0x40 9, coreRegs 0x100 32, coreCtrs 0x200 4, coreRegs 0x1000 8, coreCtrs 0x1100 7,
   coreRegs 0x1804 8, coreRegs 0x1880 8, coreCtrs 0x1A00 4, coreRegs 0x2000 2,
   { coreRegs 0x2008 1 with step := 8, bits := 64 }, coreRegs 0x2010 1, coreRegs 0x2018 6, coreCtrs 0x2100 7, coreRegs 0x2800 1,
   coreCtrs 0x2900 3,
   (regs32 (sliceReg 0 0) 2).inUnits 160 0x4000, (regs64 (sliceReg 0 8) 1).inUnits 160 0x4000,
   (regs32 (sliceReg 0 0x10) 1).inUnits 160 0x4000, (regs32 (sliceReg 0 0x20) 6).inUnits 160 0x4000,
   (ctrs (sliceReg 0 0x100) 7).inUnits 160 0x4000, (regs32 (sliceReg 0 0x400) 128).inUnits 160 0x4000]

/-- Blocks 4 to 10. -/
def regRowsB : List RegRow :=
  [(regs32 (hbmReg 0 0) 1).inUnits 8 0x10000, (ctrs (hbmReg 0 0x100) 2).inUnits 8 0x10000,
   (regs32 (mscReg 0 0) 1).inUnits 8 0x10000, (ctrs (mscReg 0 0x100) 4).inUnits 8 0x10000,
   regs32 (xlReg 0) 1, regs64 (xlReg 8) 1, regs32 (xlReg 0x10) 1, regs64 (xlReg 0x18) 1, ctrs (xlReg 0x100) 3,
   (regs32 (kvsReg 0 0) 1).inUnits 8 0x10000, (regs64 (kvsReg 0 8) 1).inUnits 8 0x10000,
   (ctrs (kvsReg 0 0x100) 6).inUnits 8 0x10000,
   regs32 (eduReg 0) 3, regs64 (eduReg 0x10) 1, (regs32 (eduReg 0x10000) 2).inUnits 2 0x10000,
   (ctrs (eduReg 0x10100) 6).inUnits 2 0x10000, { ctrs (eduReg 0x100000) 131072 with shadow := 0x100000 },
   { (regs32 (portReg 0 0) 2).inUnits 104 0x100 with step := 8 }, { (ctrs (portReg 0 0x40) 6).inUnits 104 0x100 with shadow := 0x40 },
   regs32 (lnkReg 0) 6, ctrs (lnkReg 0x100) 6,
   regs32 (rteReg 0) 104, regs32 (rteReg 0x400) 1, regs64 (rteReg 0x800) 104, ctrs (rteReg 0xC00) 3]

/-- Blocks 11 to 17. -/
def regRowsC : List RegRow :=
  [regs32 (hifReg 0) 1, ctrs (hifReg 0x100) 1, regs64 (hifReg 0x1000) 16,
   ctrs (cmdReg 0x100) 6, (regs32 (panelReg 0 0) 4).inUnits 16 0x100,
   { (ctrs (panelReg 0 0x40) 8).inUnits 16 0x100 with shadow := 0x40 },
   (regs32 (cmdReg 0x100000) 3).inUnits 256 0x1000, (regs64 (cmdReg 0x100010) 4).inUnits 256 0x1000,
   (regs32 (cmdReg 0x100030) 7).inUnits 256 0x1000,
   regs32 (govReg 0) 6, regs32 (govReg 0x20) 3, ctrs (govReg 0x100) 10, { base := govReg 0x1000, n := 256, step := 16, bits := 128 },
   regs32 (govReg 0x2000) 256,
   regs64 0x3800000 1, regs64 0x3800018 1, regs32 0x3800010 1,
   regs32 (secReg 0) 3, regs32 (secReg 0x10) 8, ctrs (secReg 0x100) 8, regs64 (secReg 0x1000) 256,
   regs64 (relReg 0) 1, regs64 (relReg 0x28) 1, regs32 (relReg 0x10) 2, regs32 (relReg 0x20) 1, regs32 (relReg 0x30) 1,
   regs32 (relReg 0x40) 1, regs32 (relReg 0x60) 1, { base := relReg 0x50, bits := 128 }, ctrs (relReg 0x100) 11,
   regs64 (relReg 0x1000) 64,
   regs32 (rstReg 0) 4, { base := rstReg 0x10, bits := 192 }, ctrs (rstReg 0x100) 3]

/-- Every row of R524. -/
def regRows : List RegRow := regRowsA ++ regRowsB ++ regRowsC

/-- The register of a row that holds the byte at an offset: its first byte. -/
def RegRow.holds (r : RegRow) (off : Nat) : Option Nat :=
  let u := (off - r.base) / r.stride
  let i := (off - r.base) % r.stride
  let i := if r.units = 1 then off - r.base else i
  let u := if r.units = 1 then 0 else u
  if r.base ≤ off ∧ u < r.units ∧ i < r.n * r.step ∧ i % r.step < r.bits / 8 then some (r.base + u * r.stride + i / r.step * r.step)
  else none

/-- What lies at an offset of PF BAR0. -/
inductive RegAt where
  | none
  | reg (start bits : Nat) (counter : Bool)
  | shadow (counter : Nat)
  deriving DecidableEq, Repr

/-- The register that an offset lies in, with its first byte, its width, and whether it is a counter. A tally shadow names its counter. -/
def regAt (off : Nat) : RegAt :=
  match regRows.findSome? (fun r => (r.holds off).map (fun a => (a, r.bits, decide (r.shadow ≠ 0)))) with
  | some x => .reg x.1 x.2.1 x.2.2
  | none =>
    match regRows.findSome? (fun r => if r.shadow ≠ 0 ∧ r.shadow ≤ off then r.holds (off - r.shadow) else none) with
    | some c => .shadow c
    | none => .none

/-! ## Islands (01 R27, R401, 18 R489) -/

/-- The island of a register. R27 does not say where the common link and routing registers lie, nor which command processor holds the
common CMD counters and the ring windows of the PF: islands 254 and 246. DESIGN CHOICE, log entry 31. -/
def islandOfReg (off : Nat) : Nat :=
  let o := off % 0x400000
  match off / 0x400000 with
  | 0 => if o = 0x120 ∨ o = 0x128 then 241 else if 0x10 ≤ o ∧ o ≤ 0x1C ∨ 0x1000 ≤ o then 245 else 242
  | 1 => o / 0x4000
  | 2 => o / 0x4000
  | 4 => 224 + o / 0x10000 % 8
  | 5 => 232 + o / 0x10000 % 8
  | 6 => 249
  | 7 => 224 + o / 0x10000 % 8
  | 8 => if o / 0x10000 = 1 ∨ o / 0x10000 = 2 then 253 + o / 0x10000 else 248
  | 9 => if o < 0x8000 then 160 + 24 * dieOfPort (o / 0x100) + islandOfPort (o / 0x100) else 254
  | 10 => 254
  | 11 => 240
  | 12 => if 0x1000 ≤ o ∧ o < 0x2000 then 246 + o / 0x100 % 2 else 246
  | 13 => 244
  | 14 => 245
  | 15 => 243
  | 16 => 250
  | _ => 251

/-- An island has power. -/
def State.islandUp (s : State) (i : Nat) : Bool :=
  s.pins.dieOn && decide (groupOfIsland i < s.clk.groupsUp) && !(decide (i < 160) && decide (s.corePower i = 3))

/-- An island latches a tally: it is up and not held, and a core is in C0 (R488). -/
def State.islandRuns (s : State) (i : Nat) : Bool :=
  s.pins.dieOn && decide (groupOfIsland i < s.clk.groupsUp) && !(s.clk.held.contains i) &&
  !(decide (i < 160) && decide (s.corePower i ≠ 0))

/-! ## Shadows (18 R489) -/

/-- A shadow that latches a counter under a tally number. A register of EDU_LOAD is two 32-bit fields. -/
def shadowOf (off : Nat) (v : W64) (number : Half) : W64 :=
  let n := number.toNat % 128 * 2 ^ 56
  if 0x2100000 ≤ off ∧ off < 0x2400000 then BitVec.ofNat 64 (bits v.toNat 27 0 + bits v.toNat 59 32 * 2 ^ 28 + n)
  else BitVec.ofNat 64 (v.toNat % 2 ^ 56 + n)

/-- The shadow of the counter at an offset: one that was never latched with a count has the number of its island's last latch. -/
def State.shadowAt (s : State) (off : Nat) : W64 :=
  match Tab.find s.shadows off with
  | some v => v
  | none => shadowOf off 0 (Tab.get {} s.mgt.islands (islandOfReg off)).lastNumber

end Sys2Proof.Machine
end

