-- ==== Sys2Proof/Machine/Management.lean ====
section
/-! DEFINITION. The tally, the management chain, the headframe roles and telemetry (18 R479 to R483, R488 to R492). -/

namespace Sys2Proof.Machine

/-! ## The tally (R488 to R490) -/

/-- A tally may not be armed for a time: it is too near or too far, or another tally is pending. -/
def State.tallyRefused (s : State) (t : Nat) : Bool :=
  s.mgt.tallyPending || decide (t < s.time + 10000) || decide (s.time + 10000000000 < t)

/-- Arm a tally. -/
def State.armTally (s : State) (t : W64) (n : Half) : State :=
  { s with mgt := { s.mgt with tallyPending := true, armTime := t, armNumber := n } }

/-- TALLY_ARM: the mailbox arms a tally, or refuses it. -/
def execTallyArm (time : W64) (number : Half) (s : State) : Answer :=
  if !s.mbxRuns 0x020B then .next s
  else if s.tallyRefused time.toNat then .next ((s.event 5).mbxReply 0x0105)
  else
    let s1 := { s with mgt := { s.mgt with tallyTime := time, tallyNumber := number } }
    .next ((s1.armTally time number).mbxReply 0)

/-- MGT_TALLY_GO: a PF write of MGT_TALLY_CTRL; go arms a tally for MGT_TALLY_ARM. -/
def execMgtTallyGo (value : W32) (s : State) : Answer :=
  s.hostTo (.mgtTallyGo value) [245] (fun s =>
    let n := BitVec.ofNat 16 value.toNat
    if !s.barOpen 0 then .next s
    else
      let s1 := { s with mgt := { s.mgt with tallyNumber := n } }
      if !bitAt value.toNat 16 then .next s1
      else if s1.tallyRefused s1.mgt.tallyTime.toNat then .next (s1.event 5)
      else .next (s1.armTally s1.mgt.tallyTime n))

/-- Every counter of an island is copied into its shadow. -/
def State.latchShadows (s : State) (island : Nat) (n : Half) : Tab W64 :=
  (s.counters.filter (fun e => decide (islandOfReg e.1 = island))).foldl (fun t e => Tab.set t e.1 (shadowOf e.1 e.2 n)) s.shadows

/-- TALLY_LATCH: at T an island that runs latches its counters, once. -/
def execTallyLatch (island : Nat) (s : State) : Answer :=
  let m := s.mgt
  let e := Tab.get ({} : TallyIsland) m.islands island
  if !(m.tallyPending && decide (island < 256) && decide (m.armTime.toNat ≤ s.time) && decide (e.lastTime < m.armTime.toNat) &&
      s.islandRuns island) then .next s
  else
    let t : TallyIsland := { e with lastTime := s.time, lastNumber := m.armNumber }
    .next { s with shadows := s.latchShadows island m.armNumber, mgt := { m with islands := Tab.set m.islands island t } }

/-- The record of an island at T + 1 µs. -/
def recordIsland (armed : Nat) (e : TallyIsland) : TallyIsland :=
  { e with time := BitVec.ofNat 64 e.lastTime, number := e.lastNumber, stale := decide (e.lastTime < armed) }

/-- TALLY_ISLAND_RECORD: each island's last latch is recorded, and the tally is complete. -/
def execTallyIslandRecord (s : State) : Answer :=
  let m := s.mgt
  if !(m.tallyPending && s.islandRuns 245 && decide (m.armTime.toNat + 1000 ≤ s.time)) then .next s
  else
    let es := (List.range 256).map (fun i => (i, recordIsland m.armTime.toNat (Tab.get {} m.islands i)))
    let stale := (es.filter (fun e => e.2.stale)).length
    .next { s with mgt := { m with islands := es, tallyPending := false, tallyLast := m.armNumber, tallyStale := stale } }

/-! ## Placement revision (11 R290) -/

/-- The tally of a revision, 10 µs ahead, at this module and at the others of the table's domain (18 R488). -/
def State.armRevision (s : State) (ctx : Nat) (t : List Byte) : State :=
  let at' := s.time + 10000
  let n := s.mgt.tallyLast + 1
  let s1 := ((onesOf (plMask t) 8).filter (fun m => decide (m ≠ s.walker.boardSlot))).foldl
    (fun s m => s.emit (.command m 0x020B (leBytes 8 at' ++ leBytes 2 n.toNat)))
    (s.armTally (BitVec.ofNat 64 at') n)
  { s1 with edu := { s1.edu with revTally := some (ctx, n) } }

/-- The load array's shadows, which the headframe keeps to take the next revision's differences from. -/
def State.loadShadows (s : State) : Tab W64 :=
  s.shadows.filter (fun e => decide (eduReg 0x100000 ≤ e.1) && decide (e.1 < eduReg 0x200000))

/-- A context's table was written less than a second ago, or less than the configured interval. -/
def State.revisedLately (s : State) (ctx : Nat) : Bool :=
  match Tab.find s.edu.revisions ctx with
  | some x => decide (s.time < x.1 + max 1 s.mgt.placeIntervalS * 1000000000)
  | none => false

/-- The first step of a revision, unless it is too early or the tally is refused. -/
def State.startRevision (s : State) (ctx : Nat) (t : List Byte) : State :=
  if s.revisedLately ctx || s.tallyRefused (s.time + 10000) then s else s.armRevision ctx t

/-- What the load shadows gained since the previous tally, in each half of an entry (R290). -/
def State.loadDelta (s : State) : Tab W64 :=
  s.loadShadows.map (fun (e : Nat × W64) =>
    let o : W64 := Tab.get 0 s.edu.loadPrev e.1
    (e.1, (e.2.extractLsb' 32 32 - o.extractLsb' 32 32) ++ (e.2.extractLsb' 0 32 - o.extractLsb' 0 32)))

/-- PLACEMENT_REVISION: as group headframe, the module first arms a tally; a revision after it reads the load array's shadows and writes
the new table to every module of the domain, itself included (R290; 18 R482). The choice of the instances is the headframe's policy, so
that the table is the command's operand. -/
def execPlacementRevision (ctx : Nat) (table : List Byte) (s : State) : Answer :=
  let t := s.revised ctx table
  if !s.mgt.group.head || decide (s.mgt.state ≠ .ready) || !plOk t || !(s.ctx ctx).bound then .next s
  else match s.edu.revTally with
    | none => .next (s.startRevision ctx t)
    | some (c, n) =>
      if c = ctx ∧ s.mgt.tallyLast = n ∧ !s.mgt.tallyPending then
        .next ({ s with edu := { s.edu with revTally := none, loadPrev := s.loadShadows, loadDelta := s.loadDelta } }.writeRevision ctx t)
      else if s.mgt.tallyPending then .next s
      else .next (s.startRevision ctx t)

/-! ## The management chain (R479 to R481) -/

/-- The transmitter of a segment. -/
def State.chainTx (s : State) (up : Bool) : ChainTx := if up then s.mgt.upTx else s.mgt.downTx

/-- Change the transmitter of a segment. -/
def State.setTx (s : State) (up : Bool) (t : ChainTx) : State :=
  { s with mgt := if up then { s.mgt with upTx := t } else { s.mgt with downTx := t } }

/-- Drive the first frame of a segment. -/
def State.chainDrive (s : State) (up : Bool) : State :=
  match (s.chainTx up).queue with
  | [] => s
  | f :: _ => ({ s with mgt := { s.mgt with framesSent := s.mgt.framesSent + 1 } }.count 0x100 1).emit (.chain up f)

/-- Send a frame on a segment; it waits for those before it. The segment below the last slot is not connected (19 R498). -/
def State.chainSend (s : State) (up : Bool) (f : ChainFrame) : State :=
  let t := s.chainTx up
  if !up && decide (s.mgt.chainAddr = some 8) then s
  else
    let s1 := s.setTx up { t with queue := t.queue ++ [f] }
    if t.queue.isEmpty then s1.chainDrive up else s1

/-- The first frame of a segment is done; the next is driven. -/
def State.chainPop (s : State) (up : Bool) : State :=
  (s.setTx up { queue := (s.chainTx up).queue.drop 1, tries := 0, backoff := 0 }).chainDrive up

/-- A frame that is not addressed to this module goes on, away from where it came. -/
def State.chainForward (s : State) (up : Bool) (f : ChainFrame) : State :=
  let on := match s.mgt.chainAddr with
    | none => true
    | some a => decide (f.dst = 15) || (if up then decide (a < f.dst) else decide (f.dst < a))
  if on then s.chainSend (!up) f else s

/-- This end of the upstream segment was driving when the other end's frame came: it is the higher end, stops and backs off
(R480). -/
def State.chainCollide (s : State) (up : Bool) : State :=
  let t := s.chainTx up
  if up && !t.queue.isEmpty && decide (t.backoff = 0) then
    (s.setTx up { t with backoff := 1 + (s.pins.serial.toNat ^^^ s.mgt.framesSent) % 4 }).count 0x110 1
  else s

/-- CHAIN_FRAME_RX: a frame arrives on the upstream or downstream segment, or the acknowledgement of this module's own frame there.
A good frame is acknowledged and forwarded unless it is for this module. -/
def execChainFrameRx (up : Bool) (f : ChainFrame) (crcOk acked : Bool) (s : State) : Answer :=
  if !s.chainUp then .next s
  else if acked then
    if (s.chainTx up).queue.isEmpty || decide ((s.chainTx up).backoff ≠ 0) then .next s else .next (s.chainPop up)
  else
    let s1 := s.chainCollide up
    if !crcOk then .next (s1.count 0x118 1)
    else
      let s2 := (s1.count 0x108 1).emit (.chainAck up)
      .next (if s2.mgt.chainAddr = some f.dst then s2 else s2.chainForward up f)

/-- CHAIN_ACK_TIMEOUT: a frame without acknowledgement is sent again, up to 3 times. -/
def execChainAckTimeout (up : Bool) (s : State) : Answer :=
  let t := s.chainTx up
  if !s.chainUp || t.queue.isEmpty || decide (t.backoff ≠ 0) then .next s
  else if t.tries < 3 then .next ((s.setTx up { t with tries := t.tries + 1 }).chainDrive up)
  else .next ((s.event 0x000A).chainPop up)

/-- CHAIN_BACKOFF_EXPIRY: the frame is sent again. -/
def execChainBackoffExpiry (up : Bool) (s : State) : Answer :=
  let t := s.chainTx up
  if !s.chainUp || decide (t.backoff = 0) then .next s else .next ((s.setTx up { t with backoff := 0 }).chainDrive up)

/-- Take a chain address: the board slot follows it, the next value goes downstream, and a boot that waits goes on with stage 5. -/
def State.takeAddress (s : State) (v : Nat) : State :=
  let s1 := { s with
    mgt := { s.mgt with chainAddr := some v, chainOpen := false }, walker := { s.walker with boardSlot := v - 1 } }.emit (.enumerate (v + 1))
  let s2 := if s.pins.straps ≠ v - 1 then s1.event 0x000B else s1
  if s2.mgt.state = .hold ∧ s2.mgt.holdCause = 7 then s2.bootLinks else s2

/-- ENUMERATION_FRAME. -/
def execEnumerationFrame (value : Nat) (s : State) : Answer :=
  if !s.chainUp then .next s
  else match s.mgt.chainAddr with
    | none => if 1 ≤ value ∧ value ≤ 8 then .next (s.takeAddress value) else .next (s.event 9)
    | some a =>
      if value = a ∧ !s.mgt.chainOpen then .next s
      else if s.mgt.chainOpen ∧ 1 ≤ value ∧ value ≤ 8 then .next (s.takeAddress value)
      else .next (s.event 9)

/-- CHAIN_ADDRESS_TIMEOUT: no address 2 s after stage 4; the module goes on waiting. -/
def execChainAddressTimeout (s : State) : Answer :=
  if s.chainUp && decide (s.mgt.state = .hold ∧ s.mgt.holdCause = 7 ∧ s.mgt.chainAddr = none) then .next (s.event 8) else .next s

/-! ## Headframe roles (R482, R483) -/

/-- A role's state. -/
def State.role (s : State) (r : HfRole) : RoleState :=
  match r with
  | .board => s.mgt.board
  | .group => s.mgt.group
  | .site => s.mgt.site

/-- Replace a role's state. -/
def State.setRole (s : State) (r : HfRole) (x : RoleState) : State :=
  match r with
  | .board => { s with mgt := { s.mgt with board := x } }
  | .group => { s with mgt := { s.mgt with group := x } }
  | .site => { s with mgt := { s.mgt with site := x } }

/-- The role that issues cage grants: the board's under authority 1, the group's under 2 (15 R397). -/
def State.grantRole (s : State) : Option HfRole :=
  if s.gov.authority = 1 then some .board else if s.gov.authority = 2 then some .group else none

/-- The grants of the last window. -/
def State.windowGrants (s : State) : List (Nat × Nat) :=
  s.mgt.grants.filter (fun g => decide (s.time < g.1 + s.mgt.grantWindowMs * 1000000))

/-- A request fits the budget; one larger than the budget fits an empty window. -/
def State.grantFits (s : State) (w : Nat) : Bool :=
  let gs := s.windowGrants
  decide (w + (gs.map Prod.snd).foldl (· + ·) 0 ≤ s.mgt.budgetW) || (decide (s.mgt.budgetW < w) && gs.isEmpty)

/-- Grant the oldest requests that fit; one that does not fit blocks those behind it (15 R400). -/
def State.serveGrants (s : State) (qs : List GrantReq) : State :=
  match qs with
  | [] => { s with mgt := { s.mgt with grantReqs := [] } }
  | q :: rest =>
    if s.grantFits q.watts then
      State.serveGrants ({ s with mgt := { s.mgt with grants := s.windowGrants ++ [(s.time, q.watts)] } }.emit
        (.grant q.module q.id q.watts s.gov.validUs)) rest
    else { s with mgt := { s.mgt with grantReqs := q :: rest } }

/-- Serve the waiting requests while the granting role is held. -/
def State.settleGrants (s : State) : State :=
  match s.grantRole with
  | some r => if (s.role r).head then s.serveGrants s.mgt.grantReqs else s
  | none => s

/-- One request comes before another: by time stamp, ties to the lower module id (15 R400). -/
def GrantReq.before (a b : GrantReq) : Bool := decide (a.stamp < b.stamp) || (decide (a.stamp = b.stamp) && decide (a.module ≤ b.module))

/-- Put a request into the queue by age. -/
def ageInsert (q : GrantReq) (l : List GrantReq) : List GrantReq :=
  (l.filter (fun x => x.before q)) ++ [q] ++ (l.filter (fun x => !x.before q))

/-- GRANT_REQUEST_RX: a headframe grants within its budget; a standby holds the request until its takeover. -/
def execGrantRequestRx (moduleId requestId watts : Nat) (stamp : W64) (s : State) : Answer :=
  match s.grantRole with
  | none => .next s
  | some r =>
    if !s.mgtUp || !((s.role r).head || (s.role r).standby) then .next s
    else
      let q : GrantReq := { module := moduleId, id := requestId, watts := watts, stamp := stamp.toNat }
      let others := s.mgt.grantReqs.filter (fun x => !(decide (x.module = moduleId) && decide (x.id = requestId)))
      .next ({ s with mgt := { s.mgt with grantReqs := ageInsert q others } }.settleGrants)

/-- HEARTBEAT_SEND: a headframe sends a heartbeat with its epoch. -/
def execHeartbeatSend (role : HfRole) (s : State) : Answer :=
  if s.mgtUp && (s.role role).head then .next (s.emit (.heartbeat role (s.role role).epoch)).settleGrants else .next s

/-- HEARTBEAT_RX: a headframe that sees a higher epoch, or an equal one of a lower module id, becomes standby; the others note the
headframe. -/
def execHeartbeatRx (role : HfRole) (epoch : W32) (moduleId : Nat) (s : State) : Answer :=
  let r := s.role role
  if !s.mgtUp then .next s
  else if r.head then
    if r.epoch.toNat < epoch.toNat ∨ (epoch = r.epoch ∧ moduleId < s.me) then
      .next (s.setRole role { head := false, standby := true, epoch := epoch, heard := some moduleId, last := s.time })
    else .next s
  else if epoch.toNat < r.epoch.toNat then .next s
  else .next (s.setRole role { r with epoch := epoch, heard := some moduleId, last := s.time })

/-- HEADFRAME_TAKEOVER: a standby that has missed three heartbeats takes over with the epoch raised by 1. -/
def execHeadframeTakeover (role : HfRole) (s : State) : Answer :=
  let r := s.role role
  if s.mgtUp && r.standby && !r.head && decide (r.last + 3 * s.mgt.heartbeatMs * 1000000 ≤ s.time) then
    .next ((s.setRole role { r with head := true, standby := false, epoch := r.epoch + 1 }).event 6).settleGrants
  else .next s

/-! ## Telemetry (R492) -/

/-- The threshold that a sensor's value crosses. Sensor 2 counts in mV. -/
def Gov.sensorLimit (g : Gov) (sensor v : Nat) : Nat :=
  if sensor = 1 then (if g.cap ≤ v then 2 else 0)
  else if sensor = 2 then (if v < 46000 then 1 else if 60000 < v then 2 else 0)
  else if 4 ≤ sensor ∧ sensor ≤ 7 then (if 105 ≤ v then 3 else if g.tThrottle ≤ v then 2 else 0)
  else 0

/-- Note a sensor's threshold: a crossing sends a PlatformEventMessage. -/
def State.noteLimit (s : State) (sensor limit : Nat) : State :=
  if Tab.get 0 s.mgt.sensorLimits sensor = limit then s
  else { s with mgt := { s.mgt with sensorLimits := Tab.set s.mgt.sensorLimits sensor limit } }.emit (.pldm [sensor, limit])

/-- The value of sensor 17. -/
def State.stateSensor (s : State) : Nat :=
  match s.mgt.state with
  | .boot => 0
  | .hold => 1
  | .ready => match s.gov.mState with
    | .active => 2
    | .idle => 3
    | .park => 4

/-- SENSOR_UPDATE: the readings of sensors 1 to 15; sensors 16 and 17 show the module's own energy and state. -/
def execSensorUpdate (values : List Nat) (s : State) : Answer :=
  if !s.mgtUp then .next s
  else
    let vs := (List.range 15).map (fun i => values.getD i 0) ++ [(s.counter (govReg 0x128)).toNat, s.stateSensor]
    let s1 := { s with mgt := { s.mgt with sensors := vs } }
    .next ((List.range 17).foldl (fun s i => s.noteLimit (i + 1) (s.gov.sensorLimit (i + 1) (vs.getD i 0))) s1)

/-- PLDM_REQUEST: a sensor of platform monitoring (type 2) is read; the base and FRU types (0 and 4) answer with what DSP0240 and
DSP0257 say, a free value; any other type has no data. Log entry 32. -/
def execPldmRequest (type sensor : Nat) (s : State) : Answer :=
  if !s.mgtUp then .next s
  else if type = 2 then
    .next (s.emit (.pldm (match s.mgt.sensors[sensor - 1]? with
      | some v => if 1 ≤ sensor then [sensor, v] else []
      | none => [])))
  else if type = 0 ∨ type = 4 then
    let d := s.drawWords 1
    .next (d.2.emit (.pldm [(d.1.headD 0).toNat]))
  else .next (s.emit (.pldm []))

end Sys2Proof.Machine
end

