-- ==== Sys2Proof/Machine/Pins.lean ====
section
/-! DEFINITION. Pins, power input, PCIe and the sideband (15 R410; 16 R425; 18 R470; 19 R499 to R511). -/

namespace Sys2Proof.Machine

/-! ## Power and resets (R410, R425, R500 to R504) -/

/-- The management and die rails are off: flash and fuses alone are kept. -/
def State.powerOff (s : State) : State :=
  let s1 := s.clearCold
  { s1 with
    hbm := { poisoned := s.hbm.poisoned, remap := s.hbm.remap, reserve := s.hbm.reserve },
    pins := { s1.pins with dieOn := false, pwrgd := false } }

/-- THERMAL_TRIP: a junction at 110 degrees takes the power of the dies. -/
def execThermalTrip (s : State) : Answer := if s.pins.dieOn then .next s.losePower else .next s

/-- PERST_ASSERT: a cold reset. The die rails that a trip turned off return with it. -/
def execPerstAssert (s : State) : Answer :=
  if s.pins.standby && s.pins.modEn then
    let s1 := s.clearCold
    .next { s1 with pins := { s1.pins with dieOn := true, pwrgd := true } }
  else .next { s with pins := { s.pins with perst := true } }

/-- MOD_EN_ASSERT: the management and die rails ramp, and PWRGD goes high at the end; the module waits for the end of PERST#. -/
def execModEnAssert (s : State) : Answer :=
  if s.pins.standby && !s.pins.modEn then
    let s1 := s.powerOff
    .next { s1 with pins := { s1.pins with modEn := true, dieOn := true, pwrgd := true } }
  else .next s

/-- MOD_EN_DEASSERT: an input trip, after which the management processor is without power too. -/
def execModEnDeassert (s : State) : Answer :=
  if s.pins.modEn then
    let s1 := s.powerOff
    .next { s1 with pins := { s1.pins with modEn := false } }
  else .next s

/-- INPUT_TRIP: under- or overvoltage, or a fall of PWRGD. The management processor logs the cause on its console; the text is a
free value. -/
def execInputTrip (s : State) : Answer :=
  if s.pins.dieOn then
    let d := s.losePower.drawBytes 1
    .next (if d.2.mgtUp then d.2.emit (.console d.1) else d.2)
  else .next s

/-- INPUT_RANGE_EXCURSION: V_in has been in the extended range for 1 ms. -/
def execInputRangeExcursion (high : Bool) (s : State) : Answer :=
  if s.mgtUp then .next ((s.event (if high then 0x000D else 0x000C)).noteLimit 2 (if high then 2 else 1)) else .next s

/-- STANDBY_POWER_CHANGE: V_in rises above 40 V or falls below 36 V. -/
def execStandbyPowerChange (on : Bool) (s : State) : Answer :=
  if on = s.pins.standby then .next s
  else
    let s1 := s.powerOff
    .next { s1 with pins := { s1.pins with standby := on } }

/-! ## TSYNC and PTM (R362, R507, R509) -/

/-- The time base runs. -/
def State.clockUp (s : State) : Bool := s.pins.dieOn && !s.pins.perst && decide (0 < s.clk.groupsUp)

/-- TSYNC_EDGE: an edge latches the time base, or is ignored within 1 microsecond of the one before. -/
def execTsyncEdge (s : State) : Answer :=
  let c := s.clk
  let near := match c.tsyncLast with
    | some t => decide (s.time < t + 1000)
    | none => false
  if !(s.clockUp && s.islandOn 245) || !c.tsyncOn then .next s
  else if near then
    .next { s with clk := { c with
      tsyncLast := some s.time, tsyncIgnored := if c.tsyncIgnored = 0xFFFF then c.tsyncIgnored else c.tsyncIgnored + 1 } }
  else .next { s with clk := { c with tsyncLast := some s.time, tsyncCap := c.now, tsyncValid := true } }

/-- PTM_MESSAGE: the host's time, while no port is the time parent. The time base is corrected by slewing alone. -/
def execPtmMessage (time : W64) (s : State) : Answer :=
  if s.clockUp && s.islandOn 245 && s.mgt.timePort.isNone then
    .next { s with hif := { s.hif with ptmValid := true }, clk := { s.clk with slew := (time.toNat : Int) - s.time } }
  else .next s

/-! ## PCIe functions (R425, R470, R505, R506) -/

/-- The PCIe link takes requests: the host interface's island is clocked (R29). -/
def State.barLink (s : State) : Bool := s.clockUp && s.islandOn 240

/-- A function exists: the PF or an enabled VF. -/
def State.hasFn (s : State) (fn : Nat) : Bool := decide (fn ≤ s.hif.numVfs)

/-- FUNCTION_LEVEL_RESET: the VF's windows are disabled and its contexts recovered; a freeze of the VF stays. -/
def execFunctionLevelReset (fn : Nat) (s : State) : Answer :=
  if !s.barLink || decide (fn = 0) || !s.hasFn fn then .next s
  else
    let ks := (Tab.keys s.cmd.windows).filter (fun k => decide (k / 256 = fn))
    let s1 := ks.foldl (fun s k => s.modWindow k (fun w => { w with enable := false })) s
    let cs := (Tab.keys s1.cmd.ctxs).filter (fun c => (s1.ctx c).bound && decide ((s1.ctx c).f.fn.toNat = fn))
    .next (cs.foldl (fun s c => s.commandRecovery c) s1)

/-- What waited for a function's return to D0 is written: held records and notices, and the mailbox's interrupt. -/
def State.wakeFn (s : State) (fn : Nat) : State :=
  let s1 := { s with hif := { s.hif with d3hot := s.hif.d3hot.filter (fun i => decide (i ≠ fn)) } }
  let ks := (Tab.keys s1.cmd.windows).filter (fun k => decide (k / 256 = fn))
  let s2 := ks.foldl (fun s k => s.drainHeld k (s.window k).held) s1
  if decide (fn = 0) && s2.hif.mbxIrqHeld then
    let s3 := s2.msix 0 256
    { s3 with hif := { s3.hif with mbxIrqHeld := false } }
  else s2

/-- PCIE_POWER_STATE_CHANGE: a function enters or leaves D3hot. -/
def execPciePowerStateChange (fn : Nat) (d3hot : Bool) (s : State) : Answer :=
  if !s.barLink || !s.hasFn fn || (s.hif.d3hot.contains fn == d3hot) then .next s
  else if d3hot then .next { s with hif := { s.hif with d3hot := s.hif.d3hot ++ [fn] } }
  else .next (s.wakeFn fn)

/-- The link is below x16 at 64 GT/s. -/
def Hif.degraded (h : Hif) : Bool := decide (h.rate ≠ 0) && (decide (h.rate ≠ 6) || decide (h.width ≠ 16))

/-- PCIE_LINK_TRAINED: the link trains at a rate code and a width. -/
def execPcieLinkTrained (rate width : Nat) (flit : Bool) (s : State) : Answer :=
  if !s.barLink || !(decide (1 ≤ rate ∧ rate ≤ 6) && decide (width = 8 ∨ width = 16)) then .next s
  else
    let s1 := if s.hif.rate = 0 then s else s.count (hifReg 0x100) 1
    let s2 := { s1 with hif := { s1.hif with rate := rate, width := width, flit := flit } }
    .next (if s2.hif.degraded then s2.event 0x5801 else s2)

/-- CONFIGURATION_REQUEST: Request Retry Status until the end of stage 2, then the access to configuration space. -/
def execConfigurationRequest (r : CfgReq) (s : State) : Answer :=
  if !s.pins.dieOn || s.pins.perst || s.clk.held.contains 240 then .next s
  else if s.clk.groupsUp = 0 then .next (s.emit (.cfg true))
  else
    let s1 := s.emit (.cfg false)
    match r with
    | .read _ => .next s1
    | .writeNumVfs n => .next (if n ≤ 64 then { s1 with hif := { s1.hif with numVfs := n } } else s1)
    | .writeMsixEnable fn on =>
      let l := s1.hif.msixOn.filter (fun i => decide (i ≠ fn))
      .next (if s.hasFn fn then { s1 with hif := { s1.hif with msixOn := if on then l ++ [fn] else l } } else s1)

/-! ## The sideband (R510, R511) -/

/-- Factory access: MANUFACTURE and RETURNED. -/
def State.factoryMode (s : State) : Bool := decide (s.sec.lifecycle = .manufacture) || decide (s.sec.lifecycle = .returned)

/-- UART_RX_BYTE: the console takes a byte in factory mode and ignores it otherwise. -/
def execUartRxByte (b : Byte) (s : State) : Answer :=
  if s.chainUp && s.factoryMode then .next { s with pins := { s.pins with uartIn := s.pins.uartIn ++ [b] } } else .next s

/-- The instruction that the JTAG port runs for a loaded one. -/
def State.jtagRuns (s : State) (op : W32) : W32 :=
  if op = 1 ∨ op = 2 then op
  else if op = 0 ∨ op = 4 ∨ op = 8 then (if s.pins.perst then op else 0xFFFFFFFF)
  else if s.factoryMode then op
  else 0xFFFFFFFF

/-- JTAG_INSTRUCTION: IDCODE reads the part's code. -/
def execJtagInstruction (op : W32) (s : State) : Answer :=
  if !s.pins.dieOn then .next s
  else
    let s1 := { s with pins := { s.pins with jtag := s.jtagRuns op } }
    .next (if op = 1 then s1.emit (.regRead 0x14800ABF) else s1)

end Sys2Proof.Machine
end

