-- ==== Sys2Proof/Machine/HostMem.lean ====
section
/-! DEFINITION. The BAR2 windows onto the board's address space (20 R521, R522). -/

namespace Sys2Proof.Machine

/-- BAR2 takes accesses: the module is ready, and the PF is neither frozen nor in D3hot (16 R417; 18 R471; 19 R506). -/
def State.bar2Open (s : State) : Bool := s.barOpen 0 && decide (s.mgt.state = .ready)

/-- A TLP lies in one 4 KiB block of the 64 GiB. -/
def tlpOk (off len : Nat) : Bool := decide (1 ≤ len) && decide (off % 4096 + len ≤ 4096) && decide (off < 2 ^ 36)

/-- The window of an offset, and the board address that it maps. -/
def State.bar2Win (s : State) (off : Nat) : Bar2Win := Tab.get {} s.hif.windows (off / 2 ^ 32)

/-- The board address of an offset. -/
def State.bar2Addr (s : State) (off : Nat) : Nat := (s.bar2Win off).base.toNat * 2 ^ 32 + off % 2 ^ 32

/-- Where a BAR2 access goes: the first row of R522 that applies. -/
inductive Bar2Target where
  | refused
  | hbm (off : Nat)
  | slice (core off : Nat)
  | peer (module : Nat)
  deriving DecidableEq, Repr

/-- The target of an access, before the target's own checks. -/
def State.bar2Target (s : State) (off : Nat) : Bar2Target :=
  let w := s.bar2Win off
  let slotOk := decide ((s.slot w.keySlot).type = 1)
  if !w.enable then .refused
  else match boardDecode (s.bar2Addr off) with
    | .hbm slot a =>
      let dest := s.me / 8 * 8 + slot
      if !slotOk then .refused
      else if slot = s.walker.boardSlot then .hbm a
      else if (s.boardLinks dest 0).isEmpty then .refused
      else .peer dest
    | .slice slot core a =>
      match s.physOf core with
      | some p => if slot = s.walker.boardSlot then .slice p a else .refused
      | none => .refused
    | .unassigned => .refused

/-- The row islands that traffic between two ports of the network crosses, requests and responses (01 R27, R33). -/
def rowIslands (x y : NetPort) : List Nat := ((netRoute x y 0 ++ netRoute y x 1).map (fun p => 208 + routerRow p)).dedup

/-- The islands that a BAR2 access crosses: its target's, and the rows of the gallery network on the way from service port 0, where the
host interface meets it (01 R29, R32). Log entry 71. -/
def State.bar2Islands (s : State) (off : Nat) : List Nat :=
  if !s.bar2Open then []
  else match s.bar2Target off with
    | .hbm a => [224 + stackOf a, 232 + stackOf a] ++ rowIslands (.service 0) (hbmPort a)
    | .slice p _ => p :: rowIslands (.service 0) (.core p)
    | _ => []

/-- The request that an HBM access carries. -/
def State.bar2Req (s : State) (off a : Nat) : HReq := s.hreq (s.bar2Win off).keySlot (s.sysWays a)

/-- The message to a board peer (09 R236). -/
def State.bar2Msg (s : State) (off dest len : Nat) (write : Bool) : MsgHdr :=
  let slot := (s.bar2Win off).keySlot
  { dest := dest, src := s.me, vc := 2, kind := 7, tenant := BitVec.ofNat 6 (s.slot slot).tenant, keyGen := (s.slot slot).gen,
    bytes := len, target := BitVec.ofNat 64 (s.bar2Addr off), keySlot := slot, peerWrite := write }

/-- Send an access to a board peer; it waits for its response. -/
def State.bar2Peer (s : State) (off dest len : Nat) (write : Bool) (data : List Byte) : State :=
  let q : PeerReq := { write := write, addr := s.bar2Addr off, len := len }
  { s with hif := { s.hif with peer := s.hif.peer ++ [q] } }.sendOrWait (s.bar2Msg off dest len write) data none

/-- An Unsupported Request of R522. -/
def State.bar2Refuse (s : State) : State := (s.eventPerMs 0x5803).emit (.completion false false [])

/-- A slice refuses an access: its tile is not on, or its secure mark covers the bytes (06 R168, R175). -/
def Slice.hostRefused (sl : Slice) (a n : Nat) : Bool := !sl.rangeOn a n || (sl.secure && touchesSecure a n)

/-- Count the refusal of a slice: by the secure mark, whatever the tile, or by the tile alone (06 R168, R175). -/
def State.noteHostRefused (s : State) (p a n : Nat) : State :=
  let sl := (s.core p).slice
  if sl.secure && touchesSecure a n then s.noteSecure p else s.noteRefused p

/-- What a BAR2 read answers (R522; 06 R163, R168, R175). A read of a slice word that meets a write of port A gets free bytes (08 R224),
and finds the errors of its words as any read of port B does (06 R165). -/
def State.bar2Answer (s : State) (offset len : Nat) (finds : Finds) : State :=
  match s.bar2Target offset with
  | .refused => s.bar2Refuse
  | .peer dest => s.bar2Peer offset dest len false []
  | .hbm a =>
    let r := s.hbmRead a len (s.bar2Req offset a)
    r.2.emit (.completion true (decide (r.1 = .poison)) (r.1.bytesOr len))
  | .slice p a =>
    if ((s.core p).slice).hostRefused a len then (s.noteHostRefused p a len).bar2Refuse
    else
      let s1 := (s.modSlice p (fun sl => sl.found finds)).noteReads p [(a, len)]
      match ((s1.core p).slice).badIn a len with
      | some w => (s1.noteBad p w).emit (.completion true true (zeros len))
      | none =>
        let d := s1.portBRead p a len
        d.2.emit (.completion true false d.1)

/-- BAR2_READ: it includes every posted write that arrived before it (08 R222). -/
def execBar2Read (offset : Nat) (ask : Bar2Ask) (s : State) : Answer :=
  s.hostTo (.bar2Read offset ask) (s.bar2Islands offset) (fun s =>
    if !s.barLink || !tlpOk offset ask.len then .next s
    else if !s.bar2Open then .next (s.emit (.completion false false []))
    else .next (s.bar2Answer offset ask.len ask.finds))

/-- What a BAR2 write does: what is refused is discarded (R522). -/
def State.bar2Store (s : State) (offset : Nat) (data : List Byte) : State :=
  match s.bar2Target offset with
  | .refused => s.eventPerMs 0x5803
  | .peer dest => s.bar2Peer offset dest data.length true data
  | .hbm a =>
    let poison := (wordsOf a data.length).any (fun w => s.isPoisoned (w / 1024))
    let s1 := s.hbmWrite a data (s.bar2Req offset a)
    if poison then s1.eventPerMs 0x5803 else s1
  | .slice p a =>
    if ((s.core p).slice).hostRefused a data.length then (s.noteHostRefused p a data.length).eventPerMs 0x5803
    else s.modSlice p (fun sl => sl.write a data)

/-- BAR2_WRITE: posted writes commit in the order of their arrival (08 R222). -/
def execBar2Write (offset : Nat) (data : List Byte) (s : State) : Answer :=
  s.hostTo (.bar2Write offset data) (s.bar2Islands offset) (fun s =>
    if !s.barLink || !tlpOk offset data.length || !s.bar2Open then .next s else .next (s.bar2Store offset data))

/-- BAR2_PEER_TIMEOUT: the oldest board-peer access has had no response for 1 ms; a read completes with Completer Abort. -/
def execBar2PeerTimeout (s : State) : Answer :=
  match s.hif.peer with
  | [] => .next s
  | q :: rest =>
    if !s.barLink then .next s
    else
      let s1 := { s with hif := { s.hif with peer := rest } }.event 0x5804
      .next (if q.write then s1 else s1.emit .abort).settleDrains

end Sys2Proof.Machine
end

