-- ==== Sys2Proof/Machine/RegWrite.lean ====
section
/-! DEFINITION. REGISTER_WRITE: a host write of a register without a row of its own, under its access code (00 R6 to R8; 18 R475, R486,
R487; 20 R520, R524, R525). A well-formed write of a register that has a row of its own is that row's command and nothing here. -/

namespace Sys2Proof.Machine

/-- A W1C flag after a write. -/
def w1c (flag : Bool) (v bit : Nat) : Bool := flag && !bitAt v bit

/-- Registers of a core window (04 R124, 05 R153). -/
def State.writeCore (s : State) (p o v : Nat) : State :=
  match o with
  | 0x1008 => s.modCore p (fun c => { c with mx := { c.mx with flags := c.mx.flags &&& ~~~BitVec.ofNat 3 v } })
  | 0x1808 => s.modCore p (fun c => { c with vx := { c.vx with flags := c.vx.flags &&& ~~~BitVec.ofNat 5 v } })
  | _ => s

/-- Registers of a slice window (06 R181). -/
def State.writeSlice (s : State) (p o v : Nat) : State :=
  match o with
  | 0x20 => s.modSlice p (fun sl => { sl with testOn := bitAt v 0, testInterval := BitVec.ofNat 16 (bits v 31 16) })
  | 0x30 => s.modSlice p (fun sl => { sl with errValid := w1c sl.errValid v 31 })
  | 0x34 => s.modSlice p (fun sl => { sl with collValid := w1c sl.collValid v 31 })
  | _ => s

/-- MSC_SYS_WAYS of a cache slice; admission sees the change (09 R247, 13 R339). -/
def State.writeMsc (s : State) (h o v : Nat) : State :=
  if o = 0 then
    let s1 := { s with msc := { s.msc with sysWays := Tab.set s.msc.sysWays h (BitVec.ofNat 16 v) } }
    s1.panels.foldl (fun s k => s.evalAdmission k) s1
  else s

/-- Registers of the page walker (09 R247). -/
def State.writeWalker (s : State) (o v : Nat) : State :=
  match o with
  | 0x08 =>
    if s.locked 0 then s.pfLocked (xlReg 8)
    else { s with walker := { s.walker with refBase := bits v 43 6 * 64 } }
  | 0x18 =>
    { s with walker := { s.walker with invPages := BitVec.ofNat 16 v, invPage := BitVec.ofNat 32 (bits v 47 16) } }
  | _ => s

/-- Registers of the expert dispatch unit (11 R293). -/
def State.writeEdu (s : State) (o v : Nat) : State :=
  match o with
  | 0x10 => { s with edu := { s.edu with lastValid := w1c s.edu.lastValid v 63 } }
  | 0x10004 =>
    { s with edu := { s.edu with countTimeout := BitVec.ofNat 16 v, recvTimeout := BitVec.ofNat 16 (bits v 31 16) } }
  | 0x20004 =>
    { s with edu := { s.edu with countTimeout1 := BitVec.ofNat 16 v, recvTimeout1 := BitVec.ofNat 16 (bits v 31 16) } }
  | _ => s

/-- Common registers of the links (14 R381). -/
def State.writeLink (s : State) (o v : Nat) : State :=
  match o with
  | 0x8000 =>
    { s with lnk := { s.lnk with
        silenceNs := BitVec.ofNat 16 v, replayMax := BitVec.ofNat 4 (bits v 19 16), holddownMs := BitVec.ofNat 12 (bits v 31 20) } }
  | 0x8004 => { s with lnk := { s.lnk with replayNs := BitVec.ofNat 16 v, e2eUs := BitVec.ofNat 16 (bits v 31 16) } }
  | 0x8008 => { s with lnk := { s.lnk with giveupMs := BitVec.ofNat 16 v, collMs := BitVec.ofNat 16 (bits v 31 16) } }
  | _ => s

/-- HIF_BAR2_WIN_n (20 R521). -/
def State.writeWindow (s : State) (n v : Nat) : State :=
  let w : Bar2Win := { enable := bitAt v 0, keySlot := bits v 15 8, base := BitVec.ofNat 16 (bits v 47 32) }
  { s with hif := { s.hif with windows := Tab.set s.hif.windows n w } }

/-- Registers of the governor (15 R412); its lockable fields are lock group 1 (20 R525). -/
def State.writeGov (s : State) (o v : Nat) : State :=
  match o with
  | 0x08 =>
    if s.locked 1 then s.pfLocked (govReg 8)
    else { s with gov := { s.gov with authority := bits v 1 0, stepW := bits v 11 2, windowUs := bits v 27 12 } }
  | 0x0C => { s with gov := { s.gov with validUs := bits v 15 0 } }
  | 0x10 =>
    if s.locked 1 then s.pfLocked (govReg 0x10)
    else if 70 ≤ bits v 6 0 ∧ bits v 6 0 ≤ 100 then { s with gov := { s.gov with tThrottle := bits v 6 0 } }
    else s.event 0x6801
  | 0x14 =>
    { s with gov := { s.gov with
        marginUs := bits v 7 0, idleEn := bitAt v 8, parkEn := bitAt v 9, c3En := BitVec.ofNat 16 (bits v 31 16) } }
  | _ => s

/-- Registers of the reliability unit (16 R438). -/
def State.writeRel (s : State) (o v : Nat) : State :=
  match o with
  | 0x00 => { s with rel := { s.rel with rcValid := w1c s.rel.rcValid v 63 } }
  | 0x10 =>
    { s with rel := { s.rel with
        canaryOn := bitAt v 0, canaryS := BitVec.ofNat 16 (bits v 16 1), marginMv := bits v 22 17, overclock := bits v 26 23,
        hotSpot := bitAt v 27 } }
  | 0x20 => { s with rel := { s.rel with scrubOn := bitAt v 0, passH := bits v 8 1, ceLimit := bits v 16 9 } }
  | _ => s

/-- Registers of the management block (18 R494). -/
def State.writeMgt (s : State) (o v : Nat) : State :=
  match o with
  | 0x10 => { s with mgt := { s.mgt with tallyTime := BitVec.ofNat 64 v } }
  | 0x28 => { s with mgt := { s.mgt with lockedValid := w1c s.mgt.lockedValid v 63 } }
  | _ => s

/-- CMD_PANEL_C0 of a panel: its lapse flag (13 R353). -/
def State.writePanel (s : State) (o v : Nat) : State :=
  if 0x1000 ≤ o ∧ o < 0x2000 ∧ o % 0x100 = 4 then
    s.modPanel (bits o 11 8) (fun pn => { pn with lapse := w1c pn.lapse v 31 })
  else s

/-- Write a register of PF BAR0 that starts at an offset. -/
def State.writeReg (s : State) (off v : Nat) : State :=
  let o := off % 0x400000
  match off / 0x400000 with
  | 0 => s.writeMgt o v
  | 1 => s.writeCore (o / 0x4000) (o % 0x4000) v
  | 2 => s.writeSlice (o / 0x4000) (o % 0x4000) v
  | 5 => s.writeMsc (o / 0x10000) (o % 0x10000) v
  | 6 => s.writeWalker o v
  | 7 => if o % 0x10000 = 8 then s.modSelector (o / 0x10000) (fun k => { k with lastValid := w1c k.lastValid v 63 }) else s
  | 8 => s.writeEdu o v
  | 9 => s.writeLink o v
  | 11 => if 0x1000 ≤ o then s.writeWindow ((o - 0x1000) / 8) v else s
  | 12 => s.writePanel o v
  | 13 => s.writeGov o v
  | 14 =>
    if o = 0x10 then
      { s with clk := { s.clk with tsyncOn := bitAt v 0, tsyncValid := w1c s.clk.tsyncValid v 1 } }
    else s
  | 16 => s.writeRel o v
  | 17 =>
    if o = 0 then { s with rel := { s.rel with wdMs := BitVec.ofNat 16 v, haltMs := BitVec.ofNat 16 (bits v 31 16) } } else s
  | _ => s

/-- A write is discarded for its size or its place within a register (R520). -/
def State.badAccess (s : State) : State := s.eventPerMs 0x5802

/-- A write at an offset of PF BAR0, or of the same window registers in a VF: the whole register at once, or discarded. A register of
an island without power takes nothing. -/
def State.barWrite (s : State) (off size v : Nat) : State :=
  match regAt off with
  | .none => s
  | .shadow _ => if size = 8 ∧ off % 8 = 0 then s else s.badAccess
  | .reg start width _ =>
    if off ≠ start ∨ size * 8 ≠ width ∨ 64 < width then s.badAccess
    else if s.islandUp (islandOfReg off) then s.writeReg off v
    else s

/-- A write at BAR4: MBX_LEN and the parameters, while no command runs. -/
def State.bar4Write (s : State) (off size v : Nat) : State :=
  if 0x100 ≤ off ∧ off < 0x8000 then
    if !((size = 4 || size = 8) && off % size = 0) then s.badAccess
    else if s.mgt.mbxBusy then s
    else { s with mgt := { s.mgt with mbxParams := Mem.writeN s.mgt.mbxParams off (leBytes size v) } }
  else if 0x18 ≤ off then s
  else if off % 4 ≠ 0 ∨ size ≠ 4 then s.badAccess
  else if off = 4 && !s.mgt.mbxBusy then { s with mgt := { s.mgt with mbxLen := v % 32768 } }
  else s

/-- The island of the register that a write goes to (01 R27, R29). -/
def hostIsland (bar : HostBar) (offset : Nat) : Nat :=
  match bar with
  | .pf0 => islandOfReg offset
  | .vf0 _ => 246
  | .bar4 => 241

/-- REGISTER_WRITE. -/
def execRegisterWrite (bar : HostBar) (offset size : Nat) (value : W64) (s : State) : Answer :=
  s.hostTo (.registerWrite bar offset size value) [hostIsland bar offset] (fun s =>
    match bar with
    | .pf0 => if s.barOpen 0 then .next (s.barWrite offset size value.toNat) else .next s
    | .vf0 fn =>
      if decide (fn ≠ 0) && s.barOpen fn && decide (offset < 0x100000) then
        .next (s.barWrite (cmdReg (0x100000 + offset)) size value.toNat)
      else .next s
    | .bar4 => if s.doorOpen .bar4 then .next (s.bar4Write offset size value.toNat) else .next s)

end Sys2Proof.Machine
end

