-- ==== Sys2Proof/Machine/Dispatch.lean ====
section
/-! DEFINITION. What each command does: one arm per constructor, each a direct call of its meaning. -/

namespace Sys2Proof.Machine

/-- The effect of a command on everything but the queue. -/
def exec (i : Instr) (s : State) : Host.Outcome State Fault Refusal :=
  match i with
  | .nop h o => Sys2Proof.Machine.execNop h o s
  | .halt h o => Sys2Proof.Machine.execHalt h o s
  | .coreHaltReport core => Sys2Proof.Machine.execCoreHaltReport core s
  | .fence h o => Sys2Proof.Machine.execFence h o s
  | .seqStallResume core => Sys2Proof.Machine.execSeqStallResume core s
  | .br h o => Sys2Proof.Machine.execBr h o s
  | .brc h o => Sys2Proof.Machine.execBrc h o s
  | .loop h o => Sys2Proof.Machine.execLoop h o s
  | .loopi h o => Sys2Proof.Machine.execLoopi h o s
  | .li h o => Sys2Proof.Machine.execLi h o s
  | .add h o => Sys2Proof.Machine.execAdd h o s
  | .addi h o => Sys2Proof.Machine.execAddi h o s
  | .sub h o => Sys2Proof.Machine.execSub h o s
  | .mul h o => Sys2Proof.Machine.execMul h o s
  | .shift h o => Sys2Proof.Machine.execShift h o s
  | .logic h o => Sys2Proof.Machine.execLogic h o s
  | .setoff h o => Sys2Proof.Machine.execSetoff h o s
  | .addoff h o => Sys2Proof.Machine.execAddoff h o s
  | .addoffi h o => Sys2Proof.Machine.execAddoffi h o s
  | .cset h o => Sys2Proof.Machine.execCset h o s
  | .cadd h o => Sys2Proof.Machine.execCadd h o s
  | .cread h o => Sys2Proof.Machine.execCread h o s
  | .time h o => Sys2Proof.Machine.execTime h o s
  | .aWaitall h o => Sys2Proof.Machine.execAWaitall h o s
  | .aLoopn h o => Sys2Proof.Machine.execALoopn h o s
  | .aSync h o => Sys2Proof.Machine.execASync h o s
  | .aEnd h o => Sys2Proof.Machine.execAEnd h o s
  | .fetchWordArrive core word => Sys2Proof.Machine.execFetchWordArrive core word s
  | .engineEntryStart core e => Sys2Proof.Machine.execEngineEntryStart core e s
  | .engineInstructionComplete core e index busy finds => Sys2Proof.Machine.execEngineInstructionComplete core e index busy finds s
  | .mxl h o => Sys2Proof.Machine.execMxl h o s
  | .mms h o => Sys2Proof.Machine.execMms h o s
  | .mxd h o => Sys2Proof.Machine.execMxd h o s
  | .mxmap h o => Sys2Proof.Machine.execMxmap h o s
  | .mxclr h o => Sys2Proof.Machine.execMxclr h o s
  | .aMload h o => Sys2Proof.Machine.execAMload h o s
  | .aMstream h o => Sys2Proof.Machine.execAMstream h o s
  | .issueWindowStart core stream ready finds => Sys2Proof.Machine.execIssueWindowStart core stream ready finds s
  | .activityReport island counts belowNs => Sys2Proof.Machine.execActivityReport island counts belowNs s
  | .busyPeriodEnd core => Sys2Proof.Machine.execBusyPeriodEnd core s
  | .vxdsc h o => Sys2Proof.Machine.execVxdsc h o s
  | .vxdss h o => Sys2Proof.Machine.execVxdss h o s
  | .vxk h o => Sys2Proof.Machine.execVxk h o s
  | .vadd h o => Sys2Proof.Machine.execVadd h o s
  | .vsub h o => Sys2Proof.Machine.execVsub h o s
  | .vmul h o => Sys2Proof.Machine.execVmul h o s
  | .vfma h o => Sys2Proof.Machine.execVfma h o s
  | .vmax h o => Sys2Proof.Machine.execVmax h o s
  | .vmin h o => Sys2Proof.Machine.execVmin h o s
  | .vabs h o => Sys2Proof.Machine.execVabs h o s
  | .vneg h o => Sys2Proof.Machine.execVneg h o s
  | .vcmp h o => Sys2Proof.Machine.execVcmp h o s
  | .vsel h o => Sys2Proof.Machine.execVsel h o s
  | .vcvt h o => Sys2Proof.Machine.execVcvt h o s
  | .vexp h o => Sys2Proof.Machine.execVexp h o s
  | .vlog h o => Sys2Proof.Machine.execVlog h o s
  | .vrcp h o => Sys2Proof.Machine.execVrcp h o s
  | .vrsq h o => Sys2Proof.Machine.execVrsq h o s
  | .vtanh h o => Sys2Proof.Machine.execVtanh h o s
  | .vsigm h o => Sys2Proof.Machine.execVsigm h o s
  | .vrsum h o => Sys2Proof.Machine.execVrsum h o s
  | .vrmax h o => Sys2Proof.Machine.execVrmax h o s
  | .vrmin h o => Sys2Proof.Machine.execVrmin h o s
  | .vrssq h o => Sys2Proof.Machine.execVrssq h o s
  | .vscan h o => Sys2Proof.Machine.execVscan h o s
  | .vsmax h o => Sys2Proof.Machine.execVsmax h o s
  | .vsexp h o => Sys2Proof.Machine.execVsexp h o s
  | .vssum h o => Sys2Proof.Machine.execVssum h o s
  | .vtopk h o => Sys2Proof.Machine.execVtopk h o s
  | .vgath h o => Sys2Proof.Machine.execVgath h o s
  | .vscat h o => Sys2Proof.Machine.execVscat h o s
  | .vhash h o => Sys2Proof.Machine.execVhash h o s
  | .vrope h o => Sys2Proof.Machine.execVrope h o s
  | .aVop h o => Sys2Proof.Machine.execAVop h o s
  | .vectorChainStart core => Sys2Proof.Machine.execVectorChainStart core s
  | .srun h o => Sys2Proof.Machine.execSrun h o s
  | .aXfer h o => Sys2Proof.Machine.execAXfer h o s
  | .streamTxnComplete core slot txn r => Sys2Proof.Machine.execStreamTxnComplete core slot txn r s
  | .streamDescComplete d => Sys2Proof.Machine.execStreamDescComplete d s
  | .streamFaultHalt core => Sys2Proof.Machine.execStreamFaultHalt core s
  | .streamHaltRecord core => Sys2Proof.Machine.execStreamHaltRecord core s
  | .strResumeRetry core => Sys2Proof.Machine.execStrResumeRetry core s
  | .strResumeSkip core => Sys2Proof.Machine.execStrResumeSkip core s
  | .incomingWritePacket slice p => Sys2Proof.Machine.execIncomingWritePacket slice p s
  | .portBDeferStart slice b waited meets => Sys2Proof.Machine.execPortBDeferStart slice b waited meets s
  | .portBStarve w => Sys2Proof.Machine.execPortBStarve w s
  | .tileStateReached slice tile => Sys2Proof.Machine.execTileStateReached slice tile s
  | .spmTileMaskWrite slice ret value => Sys2Proof.Machine.execSpmTileMaskWrite slice ret value s
  | .rowTest slice r => Sys2Proof.Machine.execRowTest slice r s
  | .rowTestIntervalExpiry slice => Sys2Proof.Machine.execRowTestIntervalExpiry slice s
  | .seqCtrlWrite core value => Sys2Proof.Machine.execSeqCtrlWrite core value s
  | .mxCtrlWrite core value => Sys2Proof.Machine.execMxCtrlWrite core value s
  | .pageWalk core va write => Sys2Proof.Machine.execPageWalk core va write s
  | .pageWalkComplete core => Sys2Proof.Machine.execPageWalkComplete core s
  | .xlInvGo value => Sys2Proof.Machine.execXlInvGo value s
  | .invalidationRun => Sys2Proof.Machine.execInvalidationRun s
  | .invalidationComplete => Sys2Proof.Machine.execInvalidationComplete s
  | .cowResolve core => Sys2Proof.Machine.execCowResolve core s
  | .frameRetire frame => Sys2Proof.Machine.execFrameRetire frame s
  | .kvsTrigger offset => Sys2Proof.Machine.execKvsTrigger offset s
  | .kvsCapture sel => Sys2Proof.Machine.execKvsCapture sel s
  | .kvsResultDeliver sel index => Sys2Proof.Machine.execKvsResultDeliver sel index s
  | .eduGoWrite offset => Sys2Proof.Machine.execEduGoWrite offset s
  | .eduCountMsg h counts => Sys2Proof.Machine.execEduCountMsg h counts s
  | .eduCapacityAssign die job => Sys2Proof.Machine.execEduCapacityAssign die job s
  | .eduDispatchMsg h row => Sys2Proof.Machine.execEduDispatchMsg h row s
  | .eduReturnWrite offset => Sys2Proof.Machine.execEduReturnWrite offset s
  | .eduReturnMsg h row => Sys2Proof.Machine.execEduReturnMsg h row s
  | .eduCountTimeout die job => Sys2Proof.Machine.execEduCountTimeout die job s
  | .eduRecvTimeout die job => Sys2Proof.Machine.execEduRecvTimeout die job s
  | .placementRevision ctx table => Sys2Proof.Machine.execPlacementRevision ctx table s
  | .bar2Read offset ask => Sys2Proof.Machine.execBar2Read offset ask s
  | .bar2Write offset data => Sys2Proof.Machine.execBar2Write offset data s
  | .registerWrite bar offset size value => Sys2Proof.Machine.execRegisterWrite bar offset size value s
  | .cmdStepDb fn window value => Sys2Proof.Machine.execCmdStepDb fn window value s
  | .cmdSvcDb fn window value => Sys2Proof.Machine.execCmdSvcDb fn window value s
  | .cmdCqDb fn window value => Sys2Proof.Machine.execCmdCqDb fn window value s
  | .cmdRingCtrlWrite fn window value => Sys2Proof.Machine.execCmdRingCtrlWrite fn window value s
  | .cmdRingCfgWrite fn window offset value => Sys2Proof.Machine.execCmdRingCfgWrite fn window offset value s
  | .packetFetch fn window service read => Sys2Proof.Machine.execPacketFetch fn window service read s
  | .stepRun fn window => Sys2Proof.Machine.execStepRun fn window s
  | .stepHandoff panel => Sys2Proof.Machine.execStepHandoff panel s
  | .stepComplete panel => Sys2Proof.Machine.execStepComplete panel s
  | .stepMark fn window => Sys2Proof.Machine.execStepMark fn window s
  | .map fn window => Sys2Proof.Machine.execMap fn window s
  | .unmap fn window => Sys2Proof.Machine.execUnmap fn window s
  | .invalidate fn window => Sys2Proof.Machine.execInvalidate fn window s
  | .poolAdd fn window => Sys2Proof.Machine.execPoolAdd fn window s
  | .streamResume fn window => Sys2Proof.Machine.execStreamResume fn window s
  | .svcFence fn window => Sys2Proof.Machine.execSvcFence fn window s
  | .accountRead fn window => Sys2Proof.Machine.execAccountRead fn window s
  | .deadlineCheckpoint panel => Sys2Proof.Machine.execDeadlineCheckpoint panel s
  | .deadlineGrantWithdraw ctx => Sys2Proof.Machine.execDeadlineGrantWithdraw ctx s
  | .preemptSwitch panel => Sys2Proof.Machine.execPreemptSwitch panel s
  | .panelReset panel => Sys2Proof.Machine.execPanelReset panel s
  | .c0AdmissionLapse panel => Sys2Proof.Machine.execC0AdmissionLapse panel s
  | .c0AdmissionReturn panel => Sys2Proof.Machine.execC0AdmissionReturn panel s
  | .shaperRelease panel rsp payload waitedNs => Sys2Proof.Machine.execShaperRelease panel rsp payload waitedNs s
  | .linkFrameRx port f => Sys2Proof.Machine.execLinkFrameRx port f s
  | .replayTimeout port => Sys2Proof.Machine.execReplayTimeout port s
  | .linkDead port => Sys2Proof.Machine.execLinkDead port s
  | .linkTrained port cableOk id => Sys2Proof.Machine.execLinkTrained port cableOk id s
  | .portTrainTimeout port signal => Sys2Proof.Machine.execPortTrainTimeout port signal s
  | .holddownExpiry port => Sys2Proof.Machine.execHolddownExpiry port s
  | .timeFrameTx port => Sys2Proof.Machine.execTimeFrameTx port s
  | .linkMessageRx port h payload tagOk => Sys2Proof.Machine.execLinkMessageRx port h payload tagOk s
  | .ackTimer src vc => Sys2Proof.Machine.execAckTimer src vc s
  | .e2eTimeout dest vc => Sys2Proof.Machine.execE2eTimeout dest vc s
  | .giveupTimeout dest vc => Sys2Proof.Machine.execGiveupTimeout dest vc s
  | .streamReclaim dest vc => Sys2Proof.Machine.execStreamReclaim dest vc s
  | .linkPostTrigger ctx slot => Sys2Proof.Machine.execLinkPostTrigger ctx slot s
  | .linkTransferComplete ctx slot => Sys2Proof.Machine.execLinkTransferComplete ctx slot s
  | .pathBreakNotice dest ports => Sys2Proof.Machine.execPathBreakNotice dest ports s
  | .rteSurveyGo value => Sys2Proof.Machine.execRteSurveyGo value s
  | .rtePortMapWrite logical value => Sys2Proof.Machine.execRtePortMapWrite logical value s
  | .collectiveChunkRx die h payload => Sys2Proof.Machine.execCollectiveChunkRx die h payload s
  | .collectiveTimeout die index => Sys2Proof.Machine.execCollectiveTimeout die index s
  | .governorTick r => Sys2Proof.Machine.execGovernorTick r s
  | .govBandWrite value => Sys2Proof.Machine.execGovBandWrite value s
  | .govModeWrite value => Sys2Proof.Machine.execGovModeWrite value s
  | .cageGrantRx requestId watts validUs => Sys2Proof.Machine.execCageGrantRx requestId watts validUs s
  | .grantLate => Sys2Proof.Machine.execGrantLate s
  | .grantValidExpiry => Sys2Proof.Machine.execGrantValidExpiry s
  | .preRampFallback panel => Sys2Proof.Machine.execPreRampFallback panel s
  | .corePowerStateReached core => Sys2Proof.Machine.execCorePowerStateReached core s
  | .thermalTrip => Sys2Proof.Machine.execThermalTrip s
  | .islandGroupPowerUp => Sys2Proof.Machine.execIslandGroupPowerUp s
  | .clockHold island => Sys2Proof.Machine.execClockHold island s
  | .clockResume island => Sys2Proof.Machine.execClockResume island s
  | .relFrzPop value => Sys2Proof.Machine.execRelFrzPop value s
  | .claimWindowExpiry ctx => Sys2Proof.Machine.execClaimWindowExpiry ctx s
  | .rstClaim value => Sys2Proof.Machine.execRstClaim value s
  | .rstRecover value => Sys2Proof.Machine.execRstRecover value s
  | .watchdogExpiry panel => Sys2Proof.Machine.execWatchdogExpiry panel s
  | .haltWatchdogExpiry panel => Sys2Proof.Machine.execHaltWatchdogExpiry panel s
  | .contextRecovery ctx => Sys2Proof.Machine.execContextRecovery ctx s
  | .recoveryDrainTimeout ctx => Sys2Proof.Machine.execRecoveryDrainTimeout ctx s
  | .hbmScrub offset find => Sys2Proof.Machine.execHbmScrub offset find s
  | .relUnpoisonGo value => Sys2Proof.Machine.execRelUnpoisonGo value s
  | .canaryWindowStart => Sys2Proof.Machine.execCanaryWindowStart s
  | .canaryWindowEnd pass noHotSpot calOffset => Sys2Proof.Machine.execCanaryWindowEnd pass noHotSpot calOffset s
  | .d2dLaneRetrain die lane => Sys2Proof.Machine.execD2dLaneRetrain die lane s
  | .keyGen slot type tenant => Sys2Proof.Machine.execKeyGen slot type tenant s
  | .keyShare slot type tenant mask => Sys2Proof.Machine.execKeyShare slot type tenant mask s
  | .keyShareInstall slot type tenant gen mask => Sys2Proof.Machine.execKeyShareInstall slot type tenant gen mask s
  | .keyErase slot => Sys2Proof.Machine.execKeyErase slot s
  | .keyRevoke slot => Sys2Proof.Machine.execKeyRevoke slot s
  | .generationDestroy slot => Sys2Proof.Machine.execGenerationDestroy slot s
  | .tenantClear tenant all => Sys2Proof.Machine.execTenantClear tenant all s
  | .tenantRemove tenant => Sys2Proof.Machine.execTenantRemove tenant s
  | .tenantDrainTimeout peer => Sys2Proof.Machine.execTenantDrainTimeout peer s
  | .drainNotice peer tenant drained => Sys2Proof.Machine.execDrainNotice peer tenant drained s
  | .lifecycleSet target auth => Sys2Proof.Machine.execLifecycleSet target auth s
  | .tamperClear standing => Sys2Proof.Machine.execTamperClear standing s
  | .tamperDetect cause => Sys2Proof.Machine.execTamperDetect cause s
  | .entropyFail => Sys2Proof.Machine.execEntropyFail s
  | .entropyRecover => Sys2Proof.Machine.execEntropyRecover s
  | .getVersion d => Sys2Proof.Machine.execGetVersion d s
  | .getCapabilities d => Sys2Proof.Machine.execGetCapabilities d s
  | .negotiateAlgorithms d => Sys2Proof.Machine.execNegotiateAlgorithms d s
  | .getDigests d => Sys2Proof.Machine.execGetDigests d s
  | .getCertificate d offset len => Sys2Proof.Machine.execGetCertificate d offset len s
  | .challenge d nonce => Sys2Proof.Machine.execChallenge d nonce s
  | .getMeasurements d nonce => Sys2Proof.Machine.execGetMeasurements d nonce s
  | .sessionOpen fn ctx clientKey nonce => Sys2Proof.Machine.execSessionOpen fn ctx clientKey nonce s
  | .sessionClose fn slot => Sys2Proof.Machine.execSessionClose fn slot s
  | .coldBoot => Sys2Proof.Machine.execColdBoot s
  | .mbxCmd door opcode seq => Sys2Proof.Machine.execMbxCmd door opcode seq s
  | .moduleInfo => Sys2Proof.Machine.execModuleInfo s
  | .moduleReset => Sys2Proof.Machine.execModuleReset s
  | .configLoad block => Sys2Proof.Machine.execConfigLoad block s
  | .configRead offset len => Sys2Proof.Machine.execConfigRead offset len s
  | .fwInstall image => Sys2Proof.Machine.execFwInstall image s
  | .fwActivate revertMin approved => Sys2Proof.Machine.execFwActivate revertMin approved s
  | .fwApprovalTimeout => Sys2Proof.Machine.execFwApprovalTimeout s
  | .fwRevert => Sys2Proof.Machine.execFwRevert s
  | .revertTimerExpiry => Sys2Proof.Machine.execRevertTimerExpiry s
  | .lockSet groups => Sys2Proof.Machine.execLockSet groups s
  | .release kind index => Sys2Proof.Machine.execRelease kind index s
  | .eventRead first count => Sys2Proof.Machine.execEventRead first count s
  | .tallyArm time number => Sys2Proof.Machine.execTallyArm time number s
  | .mgtTallyGo value => Sys2Proof.Machine.execMgtTallyGo value s
  | .tallyLatch island => Sys2Proof.Machine.execTallyLatch island s
  | .tallyIslandRecord => Sys2Proof.Machine.execTallyIslandRecord s
  | .identitySet moduleId => Sys2Proof.Machine.execIdentitySet moduleId s
  | .survey => Sys2Proof.Machine.execSurvey s
  | .calUnpin island => Sys2Proof.Machine.execCalUnpin island s
  | .contextWrite ctx e => Sys2Proof.Machine.execContextWrite ctx e s
  | .contextDestroy ctx => Sys2Proof.Machine.execContextDestroy ctx s
  | .contextRecover ctx => Sys2Proof.Machine.execContextRecover ctx s
  | .rootSet ctx root => Sys2Proof.Machine.execRootSet ctx root s
  | .panelWrite panel e linkAdmits => Sys2Proof.Machine.execPanelWrite panel e linkAdmits s
  | .fallbackSet ctx fallback entry argBlock firstCore coreCount => Sys2Proof.Machine.execFallbackSet ctx fallback entry argBlock firstCore coreCount s
  | .placementWrite ctx table => Sys2Proof.Machine.execPlacementWrite ctx table s
  | .routeWrite table entry paths => Sys2Proof.Machine.execRouteWrite table entry paths s
  | .levelPin ctx level => Sys2Proof.Machine.execLevelPin ctx level s
  | .portRemap logical physical => Sys2Proof.Machine.execPortRemap logical physical s
  | .repairWrite index frame replica slot => Sys2Proof.Machine.execRepairWrite index frame replica slot s
  | .chainFrameRx up f crcOk acked => Sys2Proof.Machine.execChainFrameRx up f crcOk acked s
  | .chainAckTimeout up => Sys2Proof.Machine.execChainAckTimeout up s
  | .chainBackoffExpiry up => Sys2Proof.Machine.execChainBackoffExpiry up s
  | .enumerationFrame value => Sys2Proof.Machine.execEnumerationFrame value s
  | .chainAddressTimeout => Sys2Proof.Machine.execChainAddressTimeout s
  | .heartbeatSend role => Sys2Proof.Machine.execHeartbeatSend role s
  | .heartbeatRx role epoch moduleId => Sys2Proof.Machine.execHeartbeatRx role epoch moduleId s
  | .headframeTakeover role => Sys2Proof.Machine.execHeadframeTakeover role s
  | .grantRequestRx moduleId requestId watts stamp => Sys2Proof.Machine.execGrantRequestRx moduleId requestId watts stamp s
  | .perstAssert => Sys2Proof.Machine.execPerstAssert s
  | .modEnAssert => Sys2Proof.Machine.execModEnAssert s
  | .modEnDeassert => Sys2Proof.Machine.execModEnDeassert s
  | .inputTrip => Sys2Proof.Machine.execInputTrip s
  | .inputRangeExcursion high => Sys2Proof.Machine.execInputRangeExcursion high s
  | .standbyPowerChange on => Sys2Proof.Machine.execStandbyPowerChange on s
  | .tsyncEdge => Sys2Proof.Machine.execTsyncEdge s
  | .functionLevelReset fn => Sys2Proof.Machine.execFunctionLevelReset fn s
  | .pciePowerStateChange fn d3hot => Sys2Proof.Machine.execPciePowerStateChange fn d3hot s
  | .pcieLinkTrained rate width flit => Sys2Proof.Machine.execPcieLinkTrained rate width flit s
  | .ptmMessage time => Sys2Proof.Machine.execPtmMessage time s
  | .bar2PeerTimeout => Sys2Proof.Machine.execBar2PeerTimeout s
  | .jtagInstruction op => Sys2Proof.Machine.execJtagInstruction op s
  | .uartRxByte b => Sys2Proof.Machine.execUartRxByte b s
  | .pldmRequest type sensor => Sys2Proof.Machine.execPldmRequest type sensor s
  | .sensorUpdate values => Sys2Proof.Machine.execSensorUpdate values s
  | .illegalInstruction core word => Sys2Proof.Machine.execIllegalInstruction core word s
  | .modulePowerStateReached => Sys2Proof.Machine.execModulePowerStateReached s
  | .configurationRequest r => Sys2Proof.Machine.execConfigurationRequest r s
  | .declaredWindowEnd panel => Sys2Proof.Machine.execDeclaredWindowEnd panel s
  | .tagReuseWaitExpiry ctx => Sys2Proof.Machine.execTagReuseWaitExpiry ctx s
  | .generationReuseWaitExpiry slot => Sys2Proof.Machine.execGenerationReuseWaitExpiry slot s
  | .keySharePeerTimeout => Sys2Proof.Machine.execKeySharePeerTimeout s

end Sys2Proof.Machine
end

