-- ==== Sys2Proof/Machine/Idle.lean ====
section
/-! DEFINITION. What the block does while no command waits: the next host write that waited for posted writes takes effect, or a
nanosecond passes (08 R222; log entries 2 and 69). -/

namespace Sys2Proof.Machine

/-- Host accesses still wait behind the one that takes effect. -/
def State.keepWaiting (rest : List Instr) (s : State) : State := { s with hif := { s.hif with deferred := s.hif.deferred ++ rest } }

/-- Apply a function to a next state. -/
def onNext (f : State → State) (a : Host.Outcome State Fault Refusal) : Host.Outcome State Fault Refusal :=
  match a with
  | .next s => .next (f s)
  | .fault e => .fault e
  | .refused r => .refused r

/-- What follows the oldest waiting host access `i`: the others wait behind it; where it stalls again before a held island, time passes
(01 R29). -/
def State.afterHost (i : Instr) (rest : List Instr) (s : State) : State :=
  if s.hif.deferred = [i] then (State.keepWaiting rest s).tick else State.keepWaiting rest s

/-- The block with no command in its queue: once every posted write to a board peer is committed, the oldest host access that waited for
it takes effect; otherwise time passes. -/
def idle (s : State) : Host.Outcome State Fault Refusal :=
  match s.hif.deferred with
  | i :: rest =>
    if s.hif.peer.any (fun q => q.write) then .next s.tick
    else onNext (State.afterHost i rest) (exec i { s with hif := { s.hif with deferred := [] } })
  | [] => .next s.tick

end Sys2Proof.Machine
end

