-- ==== Sys2Proof/Machine/Registers.lean ====
section
/-! DEFINITION. What a host read of a register of PF BAR0, of a VF's windows or of BAR4 shows (00 R5, R6, R8; 20 R520, R524): the
registers that are views of other state are computed here. No row of the table is a register read, so no command calls this. -/

namespace Sys2Proof.Machine

/-- A register from its fields: each at its lowest bit. -/
def pack (fs : List (Nat × Nat)) : Nat := fs.foldl (fun a f => a + f.2 * 2 ^ f.1) 0

/-- A number that holds at a maximum. -/
def holdAt (max n : Nat) : Nat := min max n

/-- Word `i` of an instruction. -/
def insnWord (x : Insn) (i : Nat) : Nat := x.toNat / 2 ^ (32 * i) % 2 ^ 32

/-! ## Core windows (03 R91, 04 R124, 05 R153, 07 R204, 09 R247) -/

/-- SEQ_STATUS.state. -/
def SeqState.code (x : SeqState) : Nat :=
  match x with
  | .idle => 0
  | .running => 1
  | .waiting => 2
  | .fence => 3
  | .queueFull => 4
  | .frozen => 5
  | .haltDrain => 6

/-- SEQ_WAIT_* of an instruction: the counter and value that its wait names, and whether the wait is unmet. -/
def waitView (h : InsnHdr) (met : Bool) : Nat :=
  if h.wait then pack [(0, h.waitCtr.toNat), (8, h.waitValue.toNat), (24, boolNat (!met))] else 0

/-- SEQ_WAIT_MX, SEQ_WAIT_VX and SEQ_WAIT_STR: the entry at the head of a queue. -/
def State.queueView (s : State) (p : Nat) (q : List QEntry) : Nat :=
  match q with
  | e :: _ => waitView e.hdr (s.waitMet p e.hdr)
  | [] => 0

/-- SEQ_WAIT_SEQ: the sequencer instruction that is held, whose wait is R70's or, for A.SYNC, equality (R87). An engine instruction
that waits for room in its queue is no wait of the sequencer. -/
def State.seqWaitView (s : State) (held : Option Held) : Nat :=
  match held with
  | some (.seq h op _) => waitView h (seqWaitMet op h s)
  | _ => 0

/-- Sequencer registers. -/
def State.seqView (s : State) (p o : Nat) : Nat :=
  let c := s.core p
  let q := c.seq
  match o with
  | 0x00 => pack [(0, p), (8, if c.panel.isSome && !c.retired then c.logical else 0xFF), (16, c.panel.getD 0), (20, boolNat c.panel.isSome),
      (21, boolNat (s.pins.spares.contains p && !s.isPaired p)), (22, boolNat c.retired)]
  | 0x04 => boolNat q.pvaCompat
  | 0x08 => pack [(0, q.state.code), (3, q.loops.length - 1), (5, boolNat (!q.loops.isEmpty)), (6, q.qMx.length), (12, q.qVx.length),
      (18, q.qStr.length)]
  | 0x0C => q.pc
  | 0x10 => q.entry
  | 0x14 => q.faultCode.toNat
  | 0x18 => q.faultPc
  | 0x20 => s.queueView p q.qMx
  | 0x24 => s.queueView p q.qVx
  | 0x28 => s.queueView p q.qStr
  | 0x2C => s.seqWaitView q.held
  | 0x30 => q.lockstep.toNat
  | _ =>
    if 0x40 ≤ o ∧ o ≤ 0x60 then (q.offset ((o - 0x40) / 4)).toNat
    else if 0x100 ≤ o ∧ o ≤ 0x17C then (q.reg (BitVec.ofNat 5 ((o - 0x100) / 4))).toNat
    else 0

/-- MX_STATUS.plane0 and plane1. -/
def PlaneState.code (x : PlaneState) : Nat :=
  match x with
  | .empty => 0
  | .loading => 1
  | .loaded => 2
  | .zero => 3

/-- Matrix array registers. -/
def Core.mxView (c : Core) (o : Nat) : Nat :=
  let m := c.mx
  match o with
  | 0x1000 => boolNat m.freezeMode
  | 0x1004 =>
    pack [(0, boolNat (m.active.any (fun a => match a.entry.op with
            | .mxl _ _ => true
            | _ => false))),
          (1, boolNat (m.active.any (fun a => match a.entry.op with
            | .mms _ _ => true
            | _ => false))),
          (2, boolNat (m.active.any (fun a => match a.entry.op with
            | .mxd _ => true
            | _ => false))),
          (3, boolNat m.busy), (4, m.plane0.state.code), (6, m.plane1.state.code), (8, boolNat m.loadToggle),
          (9, boolNat m.streamToggle), (10, boolNat m.held), (11, boolNat c.isFrozen)]
  | 0x1008 => m.flags.toNat
  | 0x100C => m.fault.toNat
  | _ => if 0x1010 ≤ o ∧ o ≤ 0x101C then insnWord m.faultWord ((o - 0x1010) / 4) else 0

/-- Vector engine registers. -/
def Core.vxView (c : Core) (o : Nat) : Nat :=
  let v := c.vx
  let wide := match unitOf v v.unit with
    | .ok u => decide (u.beat = 128)
    | .error _ => false
  match o with
  | 0x1804 => pack [(0, boolNat (!v.unit.isEmpty)), (1, boolNat (decide (1 < v.unit.length))), (2, v.unit.length - 1),
      (5, boolNat c.isFrozen), (6, boolNat v.srEnable), (7, boolNat (!v.unit.isEmpty && wide))]
  | 0x1808 => v.flags.toNat
  | 0x180C => v.fault.toNat
  | 0x1820 => pack [(0, v.posRow.toNat), (16, v.posBeat.toNat)]
  | _ =>
    if 0x1810 ≤ o ∧ o ≤ 0x181C then insnWord v.faultWord ((o - 0x1810) / 4)
    else if 0x1880 ≤ o then (Tab.get (0 : W32) v.consts ((o - 0x1880) / 4)).toNat
    else 0

/-- Stream unit and translation cache registers. -/
def Core.strView (c : Core) (o : Nat) : Nat :=
  let t := c.str
  match o with
  | 0x2000 => pack [(0, boolNat (!t.slots.isEmpty)), (1, boolNat t.halted), (2, boolNat (t.frozen && c.isFrozen)), (3, t.slots.length),
      (8, t.inflight), (16, boolNat t.toggle)]
  | 0x2004 => pack [(0, t.fault.kind), (4, t.fault.slot), (8, boolNat t.fault.dir), (9, t.fault.desc)]
  | 0x2008 => pack [(0, t.fault.addr % 2 ^ 48), (48, boolNat t.fault.localAddr)]
  | 0x2010 => t.fault.pos
  | 0x201C => t.viol.toNat
  | 0x2800 => pack [(0, c.tc.entries.length), (10, boolNat (!c.tc.walks.isEmpty))]
  | _ => if 0x2020 ≤ o ∧ o ≤ 0x202C then insnWord t.violWord ((o - 0x2020) / 4) else 0

/-- A register of a core window. -/
def State.coreView (s : State) (p o : Nat) : Nat :=
  if o < 0x1000 then s.seqView p o
  else if o < 0x1800 then (s.core p).mxView o
  else if o < 0x2000 then (s.core p).vxView o
  else (s.core p).strView o

/-! ## Slices (06 R181) -/

/-- A register of a slice window. -/
def Slice.view (sl : Slice) (o : Nat) : Nat :=
  match o with
  | 0x00 => sl.tileOn.toNat
  | 0x04 => sl.tileRet.toNat
  | 0x08 => pack ((List.range 32).map (fun t => (2 * t, (sl.tile t).code)))
  | 0x10 => pack [(0, boolNat sl.secure), (1, boolNat sl.wipeBusy)]
  | 0x20 => pack [(0, boolNat sl.testOn), (1, boolNat (sl.testSuspended || sl.failedRow.isSome)), (16, sl.testInterval.toNat)]
  | 0x24 => pack [(0, sl.testRow), (5, sl.testTile), (16, sl.testPasses.toNat)]
  | 0x28 => (sl.sparesUsed.map Prod.snd).foldl (· + ·) 0
  | 0x2C => sl.spareOut.toNat
  | 0x30 => pack [(0, sl.errWord), (31, boolNat sl.errValid)]
  | 0x34 => pack [(0, sl.collWord), (21, boolNat sl.collPort), (31, boolNat sl.collValid)]
  | _ =>
    if 0x400 ≤ o then
      let i := (o - 0x400) / 4
      pack [(0, (Tab.get (0 : Half) sl.arrival (2 * i)).toNat), (16, (Tab.get (0 : Half) sl.arrival (2 * i + 1)).toNat)]
    else 0

/-! ## HBM, cache, walker, selectors, dispatch (09 R247, 10 R275, 11 R293) -/

/-- A register of the page walker. -/
def Walker.view (w : Walker) (o : Nat) : Nat :=
  match o with
  | 0x00 => w.boardSlot
  | 0x08 => w.refBase
  | 0x10 => pack [(0, w.invScope.toNat), (2, w.invCtx.toNat), (13, boolNat w.invBusy)]
  | 0x18 => pack [(0, w.invPages.toNat), (16, w.invPage.toNat)]
  | _ => 0

/-- A register of a selector. -/
def Selector.view (k : Selector) (o : Nat) : Nat :=
  match o with
  | 0x00 => pack [(0, k.flight.length), (6, boolNat (k.flight.any (fun r => decide (r.op = 2)))), (7, k.regs.length), (12, holdAt 4096 k.pending.length)]
  | 0x08 => pack [(0, k.lastStatus.toNat), (16, k.lastCtx), (26, k.lastSlot), (63, boolNat k.lastValid)]
  | _ => 0

/-- The code of a phase; a job that waits for its capacity is still counting and sending. -/
def EduPhase.code (x : EduPhase) : Nat :=
  match x with
  | .waitGo => 0
  | .counting => 1
  | .sending => 1
  | .waitReturn => 2
  | .returning => 3
  | .done => 3

/-- A register of the expert dispatch unit. -/
def Edu.view (e : Edu) (o : Nat) : Nat :=
  let pend := (e.pending.head?.map Prod.snd).getD []
  let half (d : Nat) : Nat :=
    let js := e.jobs.filter (fun j => decide (j.die = d) && decide (j.phase ≠ .done))
    pack [(0, js.length), (9, ((js.head?).map (fun j => j.phase.code)).getD 0)]
  match o with
  | 0x00 => pack [(0, e.jobs.length), (9, boolNat (!e.pending.isEmpty))]
  | 0x04 => pack [(0, plVersion ((e.current.head?.map Prod.snd).getD [])), (16, plVersion pend)]
  | 0x08 => plStep pend
  | 0x10 => pack [(0, e.lastStatus.toNat), (16, e.lastCtx), (26, e.lastLayer), (33, e.lastHalf), (63, boolNat e.lastValid)]
  | 0x10000 => half 0
  | 0x10004 => pack [(0, e.countTimeout.toNat), (16, e.recvTimeout.toNat)]
  | 0x20000 => half 1
  | 0x20004 => pack [(0, e.countTimeout1.toNat), (16, e.recvTimeout1.toNat)]
  | _ => 0

/-! ## Links and routing (14 R381) -/

/-- LNK_PORT_STATUS.state. -/
def PortState.code (x : PortState) : Nat :=
  match x with
  | .down => 0
  | .training => 1
  | .identity => 2
  | .up => 3
  | .holddown => 4
  | .dead => 5
  | .spareIdle => 6

/-- The peer that a port has last seen, from bit `lo` on. -/
def Port.peerView (p : Port) (lo : Nat) : List (Nat × Nat) :=
  match p.seen with
  | some x => [(lo, x.1), (lo + 15, x.2.1), (lo + 16, x.2.2)]
  | none => []

/-- A register of a port or of the common link block. -/
def State.linkView (s : State) (o : Nat) : Nat :=
  let l := s.lnk
  let die (d : Nat) : Nat := pack [
    (0, holdAt 1024 (s.postsWaiting d)),
    (11, (l.collectives.filter (fun c => c.engine && decide (c.die = d))).length), (14, holdAt 4096 (s.openStreams d))]
  if o < 0x8000 then
    let n := o / 0x100
    let p := s.port n
    if o % 0x100 = 0 then
      pack [(0, p.state.code), (3, (s.logicalPort n).getD 0x7F), (10, portClass n), (12, p.level),
        (20, boolNat (decide (s.mgt.timePort.isSome) && decide (s.logicalPort n = s.mgt.timePort)))]
    else pack (p.peerView 0)
  else match o with
    | 0x8000 => pack [(0, l.silenceNs.toNat), (16, l.replayMax.toNat), (20, l.holddownMs.toNat)]
    | 0x8004 => pack [(0, l.replayNs.toNat), (16, l.e2eUs.toNat)]
    | 0x8008 => pack [(0, l.giveupMs.toNat), (16, l.collMs.toNat)]
    | 0x800C => pack [(0, s.firmware.level), (8, s.firmware.level - 1)]
    | 0x8010 => die 0
    | 0x8014 => die 1
    | _ => 0

/-- A routing register. -/
def State.routeView (s : State) (o : Nat) : Nat :=
  if o < 0x400 then s.physPort (o / 4)
  else if o < 0x800 then pack [(1, boolNat s.lnk.surveyBusy), (8, s.lnk.planVersion)]
  else
    let p := s.port (s.physPort ((o - 0x800) / 8))
    pack ([(0, p.result), (26, boolNat p.remapped)] ++ p.peerView 4)

/-! ## Command processors and panels (12 R327, 13 R353) -/

/-- A register of a command window. -/
def State.windowView (s : State) (k o : Nat) : Nat :=
  let w := s.window k
  match o with
  | 0x10 => w.stepBase.toNat
  | 0x18 => w.svcBase.toNat
  | 0x20 => w.cqBase.toNat
  | 0x28 => w.noticeBase.toNat
  | 0x30 => pack [(0, w.stepLog), (5, w.svcLog), (10, w.cqLog), (15, w.noticeLog)]
  | 0x34 => pack [(0, boolNat w.enable), (1, boolNat w.irqEn), (2, boolNat w.ctx.isSome), (3, boolNat w.error), (4, boolNat w.quiesced)]
  | 0x38 => pack [(0, w.stepHead), (16, w.svcHead)]
  | 0x3C => pack [(0, w.cqTail), (16, boolNat w.phase), (17, boolNat (decide (w.cqLog ≠ 0) && w.cqFull))]
  | 0x40 => pack [(0, w.errStatus.toNat), (16, boolNat w.errRing)]
  | 0x44 => match w.ctx with
    | some c => pack [(0, c), (10, (s.ctx c).f.cls.toNat)]
    | none => 0
  | 0x48 => w.consumed.toNat
  | _ => 0

/-- CMD_PANEL_STATUS.state. -/
def PanelState.code (x : PanelState) : Nat :=
  match x with
  | .idle => 0
  | .running => 1
  | .switching => 2
  | .resetting => 3

/-- A register of a panel. -/
def Panel.view (p : Panel) (o : Nat) : Nat :=
  match o with
  | 0x00 => pack [(0, p.state.code), (2, (p.running.map Step.ctx).getD 0), (12, boolNat (!p.switched.isEmpty)),
      (13, holdAt 2047 p.queue.length)]
  | 0x04 => pack [(0, boolNat p.admitted), (1, boolNat p.dedicated), (2, boolNat p.isolated), (3, boolNat p.path),
      (4, boolNat p.failedOver), (5, boolNat p.govOk), (6, boolNat p.windowOpen), (31, boolNat p.lapse)]
  | 0x08 => pack [(0, p.entry.preemptHold.toNat), (16, p.entry.powerRes.toNat), (27, boolNat p.entry.class0), (28, p.entry.envPkt.toNat)]
  | 0x0C => pack [(0, (p.entry.envRate.getD 0 0).toNat), (8, (p.entry.envBurst.getD 0 0).toNat), (16, (p.entry.envRate.getD 1 0).toNat),
      (24, (p.entry.envBurst.getD 1 0).toNat)]
  | _ => 0

/-- A register of the command processor block. -/
def State.cmdView (s : State) (o : Nat) : Nat :=
  if 0x100000 ≤ o then s.windowView ((o - 0x100000) / 0x1000) (o % 0x1000)
  else if 0x1000 ≤ o then (s.panel ((o - 0x1000) / 0x100)).view (o % 0x100)
  else 0

/-! ## Governor, clocks, host interface (15 R412, 19 R516, 20 R521, R523) -/

/-- A calibration record: the tag is light or at-load as the present cap judges it, and the guard is the 15 mV of R409. -/
def Gov.calView (g : Gov) (i : Nat) : Nat :=
  let r := Tab.get ({} : CalRecord) g.cal i
  pack [(0, (r.offset % 256).toNat), (8, if !r.gathered then 0 else if g.isLight r then 1 else 2),
    (10, boolNat (g.isLight r && g.loaded)), (11, boolNat r.pinned), (12, r.draw)]

/-- GOV_STATUS.mstate. -/
def Gov.mstateCode (g : Gov) : Nat :=
  if g.mTarget.isSome then 3
  else match g.mState with
    | .active => 0
    | .idle => 1
    | .park => 2

/-- A register of the governor. -/
def Gov.view (g : Gov) (o : Nat) : Nat :=
  match o with
  | 0x00 => pack [(0, g.cap), (11, g.floor), (22, g.ramp)]
  | 0x04 => pack [(0, boolNat g.learned), (2, g.order.toNat)]
  | 0x08 => pack [(0, g.authority), (2, g.stepW), (12, g.windowUs)]
  | 0x0C => pack [(0, g.validUs), (16, holdAt 65535 g.pendingW)]
  | 0x10 => pack [(0, g.tThrottle), (7, holdAt 127 g.junction)]
  | 0x14 => pack [(0, g.marginUs), (8, boolNat g.idleEn), (9, boolNat g.parkEn), (16, g.c3En.toNat)]
  | 0x20 => pack [(0, holdAt 2047 g.draw), (11, holdAt 2047 g.deadW), (22, g.mstateCode), (24, g.reasons.toNat)]
  | 0x24 => holdAt 2047 g.reserve
  | 0x28 => g.ringNext
  | _ =>
    if 0x2000 ≤ o then g.calView ((o - 0x2000) / 4)
    else if 0x1000 ≤ o then
      let e := Tab.get ({} : RingEntry) g.ring ((o - 0x1000) / 16)
      pack [(0, e.start.toNat), (64, e.duration.toNat), (96, e.reason), (99, e.level)]
    else 0

/-- A register of the host interface. -/
def Hif.view (h : Hif) (o : Nat) : Nat :=
  if 0x1000 ≤ o then
    let w := Tab.get ({} : Bar2Win) h.windows ((o - 0x1000) / 8)
    pack [(0, boolNat w.enable), (8, w.keySlot), (32, w.base.toNat)]
  else if o = 0 then
    pack [(0, h.rate), (3, h.width), (8, boolNat h.flit), (9, boolNat h.ptmValid), (10, boolNat h.degraded),
      (11, boolNat (h.d3hot.contains 0))]
  else 0

/-- A register of the clocks and time block. -/
def Clk.view (c : Clk) (o : Nat) : Nat :=
  match o with
  | 0x00 => c.now.toNat
  | 0x10 => pack [(0, boolNat c.tsyncOn), (1, boolNat c.tsyncValid), (16, c.tsyncIgnored.toNat)]
  | 0x18 => c.tsyncCap.toNat
  | _ => 0

/-! ## Security, reliability, recovery, management (16 R438, 17 R467, 18 R494) -/

/-- A register of the security engine. -/
def State.secView (s : State) (o : Nat) : Nat :=
  let c := s.sec
  match o with
  | 0x00 => pack [(0, c.lifecycle.code), (2, c.fusesLeft), (8, boolNat c.ownerHash.isSome), (9, boolNat c.busy)]
  | 0x04 => pack [(0, c.tamper.toNat), (16, c.tamperCount.toNat)]
  | 0x08 => boolNat c.healthy
  | _ =>
    if 0x1000 ≤ o then
      let i := (o - 0x1000) / 8
      let k := s.slot i
      pack [(0, k.type), (2, k.tenant), (8, k.gen.toNat), (16, boolNat k.retiring.isSome), (17, (k.retiring.getD 0).toNat),
        (25, holdAt 4194303 (s.slotUsers i)), (47, boolNat k.shared), (48, boolNat k.closing)]
    else if 0x10 ≤ o then ((c.challenge[(o - 0x10) / 4]?).getD 0).toNat
    else 0

/-- REL_CANARY_STATUS.state. -/
def CanaryState.code (x : CanaryState) : Nat :=
  match x with
  | .waiting => 0
  | .save => 1
  | .test => 2
  | .calibrate => 3
  | .restore => 4

/-- A register of the reliability unit. -/
def Rel.view (r : Rel) (o : Nat) : Nat :=
  match o with
  | 0x00 => pack [(0, r.rcCore), (8, r.rcIndex), (18, r.rcRow), (27, boolNat r.rcKind), (28, r.rcCtx), (63, boolNat r.rcValid)]
  | 0x10 => pack [(0, boolNat r.canaryOn), (1, r.canaryS.toNat), (17, r.marginMv), (23, r.overclock), (27, boolNat r.hotSpot)]
  | 0x14 => pack [(0, if r.canaryState = .waiting then r.canaryFirst.headD r.canaryNext else r.canaryCore), (8, r.canaryState.code), (11, boolNat r.canaryPass), (12, boolNat r.noHotSpot)]
  | 0x20 => pack [(0, boolNat r.scrubOn), (1, r.passH), (9, r.ceLimit)]
  | 0x28 => pack [(0, r.unpFrame), (23, r.unpSlot), (32, boolNat r.unpBusy)]
  | 0x30 => r.poisonNext
  | 0x40 => holdAt 128 r.frozen.length
  | 0x50 => match r.frozen with
    | [] => 0
    | f :: _ => pack [(0, f.time.toNat), (64, f.subsystem), (69, f.master), (77, f.code.toNat), (93, f.ctx), (103, f.gen.toNat),
        (111, boolNat f.ctxValid)]
  | _ =>
    if 0x1000 ≤ o then
      let e := Tab.get ({} : PoisonEntry) r.poisonLog ((o - 0x1000) / 8)
      pack [(0, e.frame), (23, boolNat e.repaired), (24, boolNat e.demand), (25, boolNat e.valid), (32, e.time.toNat)]
    else 0

/-- A register of the recovery unit. -/
def Rel.rstView (r : Rel) (o : Nat) : Nat :=
  match o with
  | 0x00 => pack [(0, r.wdMs.toNat), (16, r.haltMs.toNat)]
  | 0x0C => pack [(0, r.running.length), (3, r.queued.length)]
  | 0x10 => pack [(0, r.recTime.toNat), (64, r.recCtx), (74, r.recGen.toNat), (82, r.recCode.toNat), (98, boolNat r.recClaimed),
      (128, r.recOldRoot.toNat)]
  | _ => 0

/-- The alert line: an event is unread (R479). The other modules that drive the line are not in the model. -/
def Mgt.alert (m : Mgt) : Bool := decide (m.eventRead ≠ m.eventSeq)

/-- A register of the management block. -/
def State.mgtView (s : State) (o : Nat) : Nat :=
  let m := s.mgt
  let f := s.firmware
  let busy (t : ChainTx) : Bool := !t.queue.isEmpty && decide (t.backoff = 0)
  match o with
  | 0x00 => pack [(0, m.state.code), (2, boolNat m.board.head), (3, boolNat m.group.head), (4, boolNat m.site.head),
      (5, boolNat m.board.standby), (6, boolNat m.group.standby), (7, boolNat m.site.standby)]
  | 0x04 => pack [(0, m.moduleId), (15, boolNat m.assigned), (16, m.chainAddr.getD 0), (20, boolNat m.chainAddr.isSome)]
  | 0x08 => pack [(0, f.release), (16, f.level), (24, boolNat m.runSlot), (25, boolNat m.trial.isSome)]
  | 0x10 => m.tallyTime.toNat
  | 0x18 => pack [(0, m.tallyNumber.toNat), (17, boolNat (m.tallyPending && decide (s.time < m.armTime.toNat)))]
  | 0x1C => pack [(0, m.tallyLast.toNat), (16, m.tallyStale)]
  | 0x20 => m.locks.toNat
  | 0x28 => pack [(0, m.lockedOffset), (28, m.lockedWriter), (32, m.lockedOpcode.toNat), (63, boolNat m.lockedValid)]
  | 0x40 => pack [(0, boolNat m.alert), (1, boolNat m.alert), (2, boolNat (busy m.upTx)), (3, boolNat (busy m.downTx))]
  | _ =>
    if 0x1000 ≤ o then
      let e := Tab.get ({} : TallyIsland) m.islands ((o - 0x1000) / 16)
      pack [(0, e.time.toNat), (64, e.number.toNat), (80, boolNat e.stale)]
    else 0

/-! ## Reads (20 R520) -/

/-- A register of PF BAR0 that starts at an offset and is no counter. -/
def State.regView (s : State) (off : Nat) : Nat :=
  let o := off % 0x400000
  match off / 0x400000 with
  | 0 => s.mgtView o
  | 1 => s.coreView (o / 0x4000) (o % 0x4000)
  | 2 => ((s.core (o / 0x4000)).slice).view (o % 0x4000)
  | 4 => pack [(0, s.reserveUsed (2 * (o / 0x10000))), (16, s.reserveUsed (2 * (o / 0x10000) + 1))]
  | 5 => (Tab.get (0 : Half) s.msc.sysWays (o / 0x10000)).toNat
  | 6 => s.walker.view o
  | 7 => (s.selector (o / 0x10000)).view (o % 0x10000)
  | 8 => s.edu.view o
  | 9 => s.linkView o
  | 10 => s.routeView o
  | 11 => s.hif.view o
  | 12 => s.cmdView o
  | 13 => s.gov.view o
  | 14 => s.clk.view o
  | 15 => s.secView o
  | 16 => s.rel.view o
  | 17 => s.rel.rstView o
  | _ => 0

/-- One byte of PF BAR0: a register of an island without power reads 0 (18 R488), as does an offset that no register occupies. -/
def State.barByte (s : State) (off : Nat) : Nat :=
  match regAt off with
  | .none => 0
  | .shadow c => if s.islandUp (islandOfReg c) then (s.shadowAt (c / 8 * 8)).toNat / 2 ^ (8 * (off % 8)) % 256 else 0
  | .reg start _ counter =>
    if !s.islandUp (islandOfReg start) then 0
    else (if counter then (s.counter start).toNat else s.regView start) / 2 ^ (8 * (off - start)) % 256

/-- A read of PF BAR0: `none` is Unsupported Request (R520). -/
def State.barRead (s : State) (off size : Nat) : Option Nat :=
  if !s.barOpen 0 || !([1, 2, 4, 8].contains size && decide (off % size = 0)) then none
  else some (pack ((List.range size).map (fun i => (8 * i, s.barByte (off + i)))))

/-- One byte of a VF's BAR0: its window registers. -/
def State.vfByte (s : State) (fn off : Nat) : Nat :=
  match regAt (cmdReg (0x100000 + off)) with
  | .reg start _ _ => s.windowView (winKey fn (off / 0x1000)) (start % 0x1000) / 2 ^ (8 * (off % 0x1000 - start % 0x1000)) % 256
  | _ => 0

/-- A read of a VF's BAR0. -/
def State.vfRead (s : State) (fn off size : Nat) : Option Nat :=
  if !s.barOpen fn || decide (fn = 0) || decide (0x100000 ≤ off) || !([1, 2, 4, 8].contains size && decide (off % size = 0)) then none
  else some (pack ((List.range size).map (fun i => (8 * i, s.vfByte fn (off + i)))))

/-- The 32-bit registers of BAR4 (18 R493). -/
def State.mbxView (s : State) (off : Nat) : Nat :=
  let m := s.mgt
  match off with
  | 0x04 => m.mbxLen
  | 0x08 => pack [(0, boolNat m.mbxBusy), (1, match m.mbxDoor with
      | .bar4 => 0
      | .chain => 1
      | .vc4 => 2), (16, m.mbxSeq.toNat)]
  | 0x0C => pack [(0, m.mbxStatus.toNat), (16, m.mbxRespLen)]
  | 0x10 => pack [(0, m.mbxRefSeq.toNat), (16, m.mbxRefStatus.toNat)]
  | 0x14 => pack [(0, m.holdCause), (15, m.revertS)]
  | _ => 0

end Sys2Proof.Machine
end

