-- ==== Sys2Proof/Safety.lean ====
section
/-! DEFINITION. What a run keeps, and the words that claims are stated in: the invariants, what an update may touch, and
when a unit is ready for a command. -/

namespace Sys2Proof.Machine

/-- Every memory of the block is in its one canonical form: HBM, every slice, the slices that a switch or a canary window keeps,
and the mailbox's two areas. -/
def State.memWf (s : State) : Bool :=
  Mem.wf s.hbm.mem && s.cores.all (fun e => Mem.wf e.2.slice.mem) &&
  s.cmd.panels.all (fun e => e.2.switched.all (fun v => v.cores.all (fun x => Mem.wf x.slice.mem))) &&
  s.rel.canarySaved.all (fun sl => Mem.wf sl.mem) && Mem.wf s.mgt.mbxParams && Mem.wf s.mgt.mbxResp

/-! ## Frames -/

/-- From s to t only core p changed, with counters and with the note of progress on a panel. -/
structure CoreOnly (p : Nat) (s t : State) : Prop where
  pending : t.pending = s.pending
  hbm : t.hbm = s.hbm
  msc : t.msc = s.msc
  walker : t.walker = s.walker
  kvs : t.kvs = s.kvs
  edu : t.edu = s.edu
  lnk : t.lnk = s.lnk
  gov : t.gov = s.gov
  rel : t.rel = s.rel
  sec : t.sec = s.sec
  mgt : t.mgt = s.mgt
  hif : t.hif = s.hif
  clk : t.clk = s.clk
  net : t.net = s.net
  pins : t.pins = s.pins
  shadows : t.shadows = s.shadows
  draws : t.draws = s.draws
  out : t.out = s.out
  other : ∀ q, q ≠ p → t.core q = s.core q
  cmd : t.cmd = { s.cmd with panels := t.cmd.panels }
  panel : ∀ k, t.panel k = { s.panel k with progress := (t.panel k).progress }

/-- From s to t only these counters moved, each by the given amount. -/
def countersMoved (l : List (Nat × Nat)) (s t : State) : Prop :=
  ∀ j, t.counter j = s.counter j + BitVec.ofNat 64 ((l.filter (fun e => e.1 = j)).map Prod.snd).sum

/-- An instruction's signal went up by 1, modulo 65,536, and every other arrival counter of the module stayed (R76). -/
def signalled (h : InsnHdr) (s t : State) : Prop :=
  ∀ q c, t.arrival q c = if h.signal = true ∧ q = h.core ∧ c = h.signalCtr then s.arrival q c + 1 else s.arrival q c

/-! ## The sequencer -/

/-- The sequencer form of a command: its operation, its header and its operands. -/
def seqForm (i : Instr) : Option (SeqOp × InsnHdr × SeqOps) :=
  match i with
  | .nop h o => some (.nop, h, o)
  | .halt h o => some (.halt, h, o)
  | .fence h o => some (.fence, h, o)
  | .br h o => some (.br, h, o)
  | .brc h o => some (.brc, h, o)
  | .loop h o => some (.loop, h, o)
  | .loopi h o => some (.loopi, h, o)
  | .li h o => some (.li, h, o)
  | .add h o => some (.add, h, o)
  | .addi h o => some (.addi, h, o)
  | .sub h o => some (.sub, h, o)
  | .mul h o => some (.mul, h, o)
  | .shift h o => some (.shift, h, o)
  | .logic h o => some (.logic, h, o)
  | .setoff h o => some (.setoff, h, o)
  | .addoff h o => some (.addoff, h, o)
  | .addoffi h o => some (.addoffi, h, o)
  | .cset h o => some (.cset, h, o)
  | .cadd h o => some (.cadd, h, o)
  | .cread h o => some (.cread, h, o)
  | .time h o => some (.time, h, o)
  | .aWaitall h o => some (.aWaitall, h, o)
  | .aLoopn h o => some (.aLoopn, h, o)
  | .aSync h o => some (.aSync, h, o)
  | .aEnd h o => some (.aEnd, h, o)
  | _ => none

/-- The instruction word of a sequencer instruction (R68, R78). -/
def insnOf (i : Instr) : Insn :=
  match seqForm i with
  | some (op, h, o) => seqWord op h o
  | none => 0

/-- The trailing sequencer holds the same registers, loops and program counter as the leading one (R84). -/
abbrev inStep (q : Sequencer) : Prop := q.trail = q.asTrailing

/-- The loop buffer of core p once it has taken the word that it decodes (R80). -/
def bufAfter (s : State) (p : Nat) (w : Insn) : Tab Insn := ((s.core p).seq.recordInsn w).loopBuf

/-- A core's sequencer pair stands ready to run a sequencer instruction to its end: the core is clocked and running, no other word
stands at its program counter and the word there is good, the form is enabled, the fields and operands are legal, the pair stands in
step, no upset comes with the command, and the wait holds. -/
def seqReady (s : State) (op : SeqOp) (h : InsnHdr) (o : SeqOps) : Prop :=
  s.clocked h.core = true ∧ (s.core h.core).seq.state = .running ∧ (s.core h.core).seq.admits (seqWord op h o) = true ∧
  inStep (s.core h.core).seq ∧ (s.core h.core).seq.fetchFault = 0 ∧
  (op.isPva = true → (s.core h.core).seq.pvaCompat = true) ∧ syncOk h op.ownsCtr = true ∧ seqFieldsOk op h o = true ∧
  seqOperandCheck (s.core h.core).seq op h o = 0 ∧ h.agree = true ∧ seqWaitMet op h s = true

/-- What a confirmed sequencer instruction leaves alone: all but its core's sequencer and arrival counters, the note of
progress, and SEQ's counter of confirmed instructions, which rises by 1. -/
def seqFrame (h : InsnHdr) (s t : State) : Prop :=
  CoreOnly h.core s t ∧ countersMoved [(coreReg h.core 0x218, 1)] s t ∧
  t.core h.core = { s.core h.core with
    seq := (t.core h.core).seq,
    slice := { (s.core h.core).slice with arrival := (t.core h.core).slice.arrival } }

/-- The command answers a next state in which scalar register d reads v (S0 reads as zero), every other register is as
before, the program counter went on in program order, the trailing sequencer stays in step, the signal is raised, and nothing
else changed. -/
def seqWrites (i : Instr) (h : InsnHdr) (d : BitVec 5) (v : W32) (s : State) : Prop :=
  ∃ t, exec i s = .next t ∧
    (∀ r, (t.core h.core).seq.reg r = if r = d ∧ r ≠ 0 then v else (s.core h.core).seq.reg r) ∧
    inStep (t.core h.core).seq ∧
    (t.core h.core).seq = { (s.core h.core).seq with
      regs := (t.core h.core).seq.regs, held := none, trail := (t.core h.core).seq.trail, loopBuf := bufAfter s h.core (insnOf i),
      pc := (loopNext ((s.core h.core).seq.pc + 16) (s.core h.core).seq.loops).1,
      loops := (loopNext ((s.core h.core).seq.pc + 16) (s.core h.core).seq.loops).2 } ∧
    signalled h s t ∧ seqFrame h s t

/-- The sequencer pair of core p at `pc` with these open loops and this loop buffer, and otherwise as in s. -/
def pairAt (s : State) (p pc : Nat) (loops : List LoopFrame) (buf : Tab Insn) : Sequencer :=
  { (s.core p).seq with
    held := none, pc := pc, loops := loops, loopBuf := buf, trail := { (s.core p).seq.asTrailing with pc := pc, loops := loops } }

/-- The command answers a next state in which the sequencer pair runs on at `pc` with these open loops and this loop buffer, no
register changed, the signal is raised, and nothing else changed. -/
def seqMovesWith (i : Instr) (h : InsnHdr) (pc : Nat) (loops : List LoopFrame) (buf : Tab Insn) (s : State) : Prop :=
  ∃ t, exec i s = .next t ∧ (t.core h.core).seq = pairAt s h.core pc loops buf ∧ signalled h s t ∧ seqFrame h s t

/-- The same where no loop opens: the loop buffer keeps its words and takes this one. -/
def seqMoves (i : Instr) (h : InsnHdr) (pc : Nat) (loops : List LoopFrame) (s : State) : Prop :=
  seqMovesWith i h pc loops (bufAfter s h.core (insnOf i)) s

/-- The command answers a next state in which the sequencer pair holds the halt and drains: no register changed, no signal is raised
yet (R76), and nothing else changed. -/
def seqHalts (i : Instr) (op : SeqOp) (h : InsnHdr) (o : SeqOps) (s : State) : Prop :=
  ∃ t, exec i s = .next t ∧
    (t.core h.core).seq = { pairAt s h.core (s.core h.core).seq.pc (s.core h.core).seq.loops (bufAfter s h.core (insnOf i)) with
      held := some (.seq h op o), state := .haltDrain } ∧
    signalled { h with signal := false } s t ∧ seqFrame h s t

/-- The program counter and the loops that follow in program order (R80). -/
def seqOnward (s : State) (p : Nat) : Nat × List LoopFrame :=
  loopNext ((s.core p).seq.pc + 16) (s.core p).seq.loops

/-- The entry that an engine instruction makes: its operands after the issue offsets, and its header, whose wait value takes
the offset of slot W (R82). -/
def queuedEntry (s : State) (e : Engine) (h : InsnHdr) (op : EngineOp) : QEntry :=
  let w : Half := BitVec.ofNat 16 ((s.core h.core).seq.offset (engineOffsetBase e + 2)).toNat
  { hdr := if h.wait then { h with waitValue := h.waitValue + w } else h, op := op }

/-- The sequencer pair of core p after it wrote an entry into a queue: it goes on in program order. -/
def afterPush (s : State) (p : Nat) (e : Engine) (x : QEntry) (buf : Tab Insn) : Sequencer :=
  let q := pairAt s p (seqOnward s p).1 (seqOnward s p).2 buf
  { q.setQueue e ((s.core p).seq.queue e ++ [x]) with state := .running }

/-- Core p froze with a code (R25, R86, R420): it is halted with the address and the code, one record with the step's context
stands in its place in the freeze unit, and the claim window of that context is open unless one, a claim or a recovery stands. -/
def seqFroze (p code : Nat) (s t : State) : Prop :=
  t.core p = { s.core p with seq := { (s.core p).seq with
    state := .frozen, faultPc := (s.core p).seq.pc, faultCode := BitVec.ofNat 16 code, held := none } } ∧
  (∀ q, q ≠ p → t.core q = s.core q) ∧
  (s.rel.frozen.length < 128 →
    let r : FreezeRec := { time := s.clk.now, subsystem := subsystemOf code, master := p, code := BitVec.ofNat 16 code,
                           ctx := (s.core p).ctx, gen := (s.core p).gen, ctxValid := true }
    t.rel = { s.rel with frozen := placeFreeze s.rel.frozen r }) ∧
  t.ctx (s.core p).ctx = (s.ctx (s.core p).ctx).openClaim code ∧
  (∀ i, i ≠ (s.core p).ctx → t.ctx i = s.ctx i) ∧
  t.hbm = s.hbm ∧ t.sec = s.sec ∧ t.lnk = s.lnk ∧ t.hif = s.hif ∧ t.gov = s.gov

/-- The comparison of BRC (R79): sel 0 equal, 1 not equal, 2 signed less, 3 signed not less, 4 unsigned less, 5 unsigned
not less. -/
def brcTaken (sel : BitVec 4) (x y : W32) : Prop :=
  (sel = 0 ∧ x = y) ∨ (sel = 1 ∧ x ≠ y) ∨ (sel = 2 ∧ x.toInt < y.toInt) ∨ (sel = 3 ∧ y.toInt ≤ x.toInt) ∨
  (sel = 4 ∧ x.toNat < y.toNat) ∨ (sel = 5 ∧ y.toNat ≤ x.toNat)

/-! ## The mailbox -/

/-- The mailbox's command ended with this status and these bytes: BUSY is clear, and MBX_RESULT with the response area shows them
at the BAR4 door, or they went out at the door that the command came from (R475, R493). -/
def replied (st : Half) (data : List Byte) (t : State) : Prop :=
  t.mgt.mbxBusy = false ∧
  (t.mgt.mbxDoor = .bar4 → t.mgt.mbxStatus = st ∧ t.mgt.mbxRespLen = data.length ∧
    ∀ i (h : i < data.length), t.mgt.mbxResp.read (0x8000 + i) = data[i]) ∧
  (t.mgt.mbxDoor ≠ .bar4 → Out.mailboxReply t.mgt.mbxDoor st data ∈ t.out)

/-! ## The host -/

/-- The accesses of the host that keep the order of its posted writes: its doorbells, its registers, BAR2, and the mailbox at BAR4
(08 R222). -/
def hostAccess (i : Instr) : Bool :=
  match i with
  | .spmTileMaskWrite _ _ _ | .seqCtrlWrite _ _ | .mxCtrlWrite _ _ | .strResumeRetry _ | .strResumeSkip _ => true
  | .cmdStepDb _ _ _ | .cmdSvcDb _ _ _ | .cmdCqDb _ _ _ | .cmdRingCtrlWrite _ _ _ | .cmdRingCfgWrite _ _ _ _ => true
  | .xlInvGo _ | .rteSurveyGo _ | .rtePortMapWrite _ _ | .govBandWrite _ | .govModeWrite _ | .mgtTallyGo _ => true
  | .relFrzPop _ | .rstClaim _ | .rstRecover _ | .relUnpoisonGo _ => true
  | .registerWrite _ _ _ _ | .bar2Read _ _ | .bar2Write _ _ => true
  | .mbxCmd d _ _ => d == .bar4
  | _ => false

/-! ## The engines -/

/-- No read of the core met a collision (R163), and no word of its slice holds a correctable error (R165). -/
def quiet (c : Core) : Prop := c.slice.undefReads = [] ∧ c.slice.kept = [] ∧ c.slice.weak = []

/-- An engine instruction of core p ended: core p is as given but for its arrival counters, the signal went up, and all but
core p, its counters and the note of progress is as before. -/
def engineDone (p : Nat) (x : QEntry) (c : Core) (s t : State) : Prop :=
  t.core p = { c with slice := { c.slice with arrival := (t.core p).slice.arrival } } ∧
  signalled { x.hdr with core := p } s t ∧ CoreOnly p s t

/-- An engine instruction at decode: its engine, its header, its operation, and whether its count field and its format
code are legal (R95, R96, R122, R126, R152, R183). -/
def engForm (i : Instr) : Option (Engine × InsnHdr × EngineOp × Bool) :=
  match i with
  | .mxl h o => some (.matrix, h, .mxl o false, mxHeaderOk h o.alt && decide (o.wFmt.toNat < 8))
  | .mms h o => some (.matrix, h, .mms o false, mxHeaderOk h false)
  | .mxd h o => some (.matrix, h, .mxd o, mxHeaderOk h false)
  | .mxmap h o => some (.matrix, h, .mxmap o, mxHeaderOk h false && decide (o.fmt.toNat < 8))
  | .mxclr h o => some (.matrix, h, .mxclr o, mxHeaderOk h false)
  | .aMload h o => some (.matrix, h, .mxl o true, mxHeaderOk h false && decide (o.wFmt.toNat < 8))
  | .aMstream h o => some (.matrix, h, .mms o true, mxHeaderOk h true)
  | .vxdsc h o => some (.vector, h, .vxdsc o, vxHeaderOk h && decide (o.fmt.toNat < 8))
  | .vxdss h o => some (.vector, h, .vxdss o, vxHeaderOk h)
  | .vxk h o => some (.vector, h, .vxk o, vxHeaderOk h)
  | .vadd h o => some (.vector, h, .vop .add o false, vxHeaderOk h)
  | .vsub h o => some (.vector, h, .vop .sub o false, vxHeaderOk h)
  | .vmul h o => some (.vector, h, .vop .mul o false, vxHeaderOk h)
  | .vfma h o => some (.vector, h, .vop .fma o false, vxHeaderOk h)
  | .vmax h o => some (.vector, h, .vop .max o false, vxHeaderOk h)
  | .vmin h o => some (.vector, h, .vop .min o false, vxHeaderOk h)
  | .vabs h o => some (.vector, h, .vop .abs o false, vxHeaderOk h)
  | .vneg h o => some (.vector, h, .vop .neg o false, vxHeaderOk h)
  | .vcmp h o => some (.vector, h, .vop .cmp o false, vxHeaderOk h)
  | .vsel h o => some (.vector, h, .vop .sel o false, vxHeaderOk h)
  | .vcvt h o => some (.vector, h, .vop .cvt o false, vxHeaderOk h)
  | .vexp h o => some (.vector, h, .vop .exp o false, vxHeaderOk h)
  | .vlog h o => some (.vector, h, .vop .log o false, vxHeaderOk h)
  | .vrcp h o => some (.vector, h, .vop .rcp o false, vxHeaderOk h)
  | .vrsq h o => some (.vector, h, .vop .rsq o false, vxHeaderOk h)
  | .vtanh h o => some (.vector, h, .vop .tanh o false, vxHeaderOk h)
  | .vsigm h o => some (.vector, h, .vop .sigm o false, vxHeaderOk h)
  | .vrsum h o => some (.vector, h, .vop .rsum o false, vxHeaderOk h)
  | .vrmax h o => some (.vector, h, .vop .rmax o false, vxHeaderOk h)
  | .vrmin h o => some (.vector, h, .vop .rmin o false, vxHeaderOk h)
  | .vrssq h o => some (.vector, h, .vop .rssq o false, vxHeaderOk h)
  | .vscan h o => some (.vector, h, .vop .scan o false, vxHeaderOk h)
  | .vsmax h o => some (.vector, h, .vop .smax o false, vxHeaderOk h)
  | .vsexp h o => some (.vector, h, .vop .sexp o false, vxHeaderOk h)
  | .vssum h o => some (.vector, h, .vop .ssum o false, vxHeaderOk h)
  | .vtopk h o => some (.vector, h, .vop .topk o false, vxHeaderOk h)
  | .vgath h o => some (.vector, h, .vop .gath o false, vxHeaderOk h)
  | .vscat h o => some (.vector, h, .vop .scat o false, vxHeaderOk h)
  | .vhash h o => some (.vector, h, .vop .hash o false, vxHeaderOk h)
  | .vrope h o => some (.vector, h, .vop .rope o false, vxHeaderOk h)
  | .aVop h o =>
    match VOp.ofOpcode o.vop.toNat with
    | some v => some (.vector, h, .vop v { o.low with n := 0 } true,
        decide (o.rsv8 = 0) && decide (v.cls ≠ .t) && decide (v.cls ≠ .g))
    | none => none
  | .srun h o => some (.stream, h, .srun o false, decide (h.count = 0))
  | .aXfer h o => some (.stream, h, .srun o true, decide (h.count = 0))
  | _ => none

/-- The instruction word of an engine instruction (R68; 05 R152). -/
def engInsn (i : Instr) : Insn :=
  match i with
  | .aVop h o => avopWord h o
  | _ =>
    match engForm i with
    | some (_, h, op, _) => engWord op h
    | none => 0

end Sys2Proof.Machine
end

