-- ==== Sys2Proof/Certificates/Slice0/Obligations.lean ====
section
/-! DEFINITION. The statements about the block, one definition each, in the words of Sys2Proof/Safety.lean. -/

open Sys2Proof Sys2Proof.Machine

/-! ## The queue of commands -/

/-- A step runs the command at the front of the queue with the queue's rest. -/
def Obligations.StepRunsFront : Prop :=
  ∀ (c : Instr) (rest : List Instr) (s : State),
    step { s with pending := c :: rest } = exec c { s with pending := rest }

/-! ## 03: the sequencer -/

/-- The register instructions (R79): each answers a next state, writes its one register (S0 stays zero), goes on in
program order, raises its signal and changes nothing else. -/
def Obligations.RegisterInstructionResults : Prop :=
  ∀ (s : State) (h : InsnHdr) (o : SeqOps),
    (seqOnward s h.core).1 ≤ lastPc →
    (seqReady s .li h o → seqWrites (.li h o) h o.d o.imm s) ∧
    (seqReady s .add h o → seqWrites (.add h o) h o.d ((s.core h.core).seq.reg o.a + (s.core h.core).seq.reg o.b) s) ∧
    (seqReady s .addi h o → seqWrites (.addi h o) h o.d ((s.core h.core).seq.reg o.a + o.imm) s) ∧
    (seqReady s .sub h o → seqWrites (.sub h o) h o.d ((s.core h.core).seq.reg o.a - (s.core h.core).seq.reg o.b) s) ∧
    (seqReady s .mul h o → seqWrites (.mul h o) h o.d ((s.core h.core).seq.reg o.a * (s.core h.core).seq.reg o.b) s) ∧
    (seqReady s .shift h o →
      (o.sel = 0 → seqWrites (.shift h o) h o.d ((s.core h.core).seq.reg o.a <<< o.imm.toNat) s) ∧
      (o.sel = 1 → seqWrites (.shift h o) h o.d ((s.core h.core).seq.reg o.a >>> o.imm.toNat) s) ∧
      (o.sel = 2 → seqWrites (.shift h o) h o.d (((s.core h.core).seq.reg o.a).sshiftRight o.imm.toNat) s)) ∧
    (seqReady s .logic h o →
      (o.sel = 0 → seqWrites (.logic h o) h o.d ((s.core h.core).seq.reg o.a &&& (s.core h.core).seq.reg o.b) s) ∧
      (o.sel = 1 → seqWrites (.logic h o) h o.d ((s.core h.core).seq.reg o.a ||| (s.core h.core).seq.reg o.b) s) ∧
      (o.sel = 2 → seqWrites (.logic h o) h o.d ((s.core h.core).seq.reg o.a ^^^ (s.core h.core).seq.reg o.b) s)) ∧
    (seqReady s .cread h o →
      seqWrites (.cread h o) h o.d (BitVec.ofNat 32 (s.arrival h.core h.signalCtr).toNat) s) ∧
    (seqReady s .time h o → seqWrites (.time h o) h o.d (BitVec.ofNat 32 (s.time % 2 ^ 32)) s)

/-- The control instructions (R79 to R81, R87): where the program counter and the loop stack go. HALT and A.END leave the
program counter and go on to drain, and signal only when they complete (R76); a fence and A.WAITALL complete once their engines
are done. -/
def Obligations.ControlInstructionResults : Prop :=
  ∀ (s : State) (h : InsnHdr) (o : SeqOps),
    (seqReady s .nop h o → (seqOnward s h.core).1 ≤ lastPc →
      seqMoves (.nop h o) h (seqOnward s h.core).1 (seqOnward s h.core).2 s) ∧
    (seqReady s .aSync h o → (seqOnward s h.core).1 ≤ lastPc →
      seqMoves (.aSync h o) h (seqOnward s h.core).1 (seqOnward s h.core).2 s) ∧
    (seqReady s .fence h o → (seqOnward s h.core).1 ≤ lastPc → (s.core h.core).fenceDone o.imm.toNat = true →
      seqMoves (.fence h o) h (seqOnward s h.core).1 (seqOnward s h.core).2 s) ∧
    (seqReady s .aWaitall h o → (seqOnward s h.core).1 ≤ lastPc → (s.core h.core).drained = true →
      seqMoves (.aWaitall h o) h (seqOnward s h.core).1 (seqOnward s h.core).2 s) ∧
    (seqReady s .br h o →
      seqMoves (.br h o) h o.imm.toNat ((s.core h.core).seq.loops.filter (fun fr => fr.contains o.imm.toNat)) s) ∧
    (seqReady s .brc h o → brcTaken o.sel ((s.core h.core).seq.reg o.a) ((s.core h.core).seq.reg o.b) →
      seqMoves (.brc h o) h o.imm.toNat ((s.core h.core).seq.loops.filter (fun fr => fr.contains o.imm.toNat)) s) ∧
    (seqReady s .brc h o → ¬ brcTaken o.sel ((s.core h.core).seq.reg o.a) ((s.core h.core).seq.reg o.b) →
      (seqOnward s h.core).1 ≤ lastPc →
      seqMoves (.brc h o) h (seqOnward s h.core).1 (seqOnward s h.core).2 s) ∧
    (seqReady s .halt h o → (s.core h.core).seq.pc ≤ lastPc → seqHalts (.halt h o) .halt h o s) ∧
    (seqReady s .aEnd h o → (s.core h.core).seq.pc ≤ lastPc → seqHalts (.aEnd h o) .aEnd h o s)

/-- The loop instructions (R80, R87): with trips above 0 the body follows, a loop of that many passes opens, and the loop buffer
holds no word of it yet; with 0 trips the program goes on behind the body. -/
def Obligations.LoopInstructionResults : Prop :=
  ∀ (s : State) (h : InsnHdr) (o : SeqOps) (i : Instr) (trips : Nat),
    (i = .loop h o ∧ seqReady s .loop h o ∧ trips = ((s.core h.core).seq.reg o.a).toNat) ∨
    (i = .loopi h o ∧ seqReady s .loopi h o ∧ trips = o.imm.toNat) ∨
    (i = .aLoopn h o ∧ seqReady s .aLoopn h o ∧ trips = o.imm.toNat) →
    let pc := (s.core h.core).seq.pc
    let loops := (s.core h.core).seq.loops
    let skip := loopNext (pc + 16 + 16 * h.count.toNat) loops
    (0 < trips →
      seqMovesWith i h (pc + 16) ({ start := pc + 16, len := h.count.toNat, passes := trips } :: loops) [] s) ∧
    (trips = 0 → skip.1 ≤ lastPc → seqMoves i h skip.1 skip.2 s)

/-- The offset instructions (R82): the named offset register takes its new value, slot W keeps 16 bits, and every other offset
and register stays. CSET and CADD (R71, R79): the named arrival counter takes its new value, modulo 65,536, and every
other counter of the module stays. -/
def Obligations.OffsetAndCounterResults : Prop :=
  (∀ (s : State) (h : InsnHdr) (o : SeqOps) (i : Instr) (k : Nat) (v : W32),
     (seqOnward s h.core).1 ≤ lastPc → offsetIndex o.sel = some k →
     (i = .setoff h o ∧ seqReady s .setoff h o ∧ v = (s.core h.core).seq.reg o.a) ∨
     (i = .addoff h o ∧ seqReady s .addoff h o ∧ v = (s.core h.core).seq.offset k + (s.core h.core).seq.reg o.a) ∨
     (i = .addoffi h o ∧ seqReady s .addoffi h o ∧ v = (s.core h.core).seq.offset k + o.imm) →
     ∃ t, exec i s = .next t ∧
       (∀ j, (t.core h.core).seq.offset j =
         if j = k then (if k % 3 = 2 then v &&& 0xFFFF else v) else (s.core h.core).seq.offset j) ∧
       inStep (t.core h.core).seq ∧
       (t.core h.core).seq = { pairAt s h.core (seqOnward s h.core).1 (seqOnward s h.core).2 (bufAfter s h.core (insnOf i)) with
         offsets := (t.core h.core).seq.offsets, trail := (t.core h.core).seq.trail } ∧
       signalled h s t ∧ seqFrame h s t) ∧
  (∀ (s : State) (h : InsnHdr) (o : SeqOps) (i : Instr) (v : Half),
     (seqOnward s h.core).1 ≤ lastPc →
     (i = .cset h o ∧ seqReady s .cset h o ∧ v = BitVec.ofNat 16 ((s.core h.core).seq.reg o.a).toNat) ∨
     (i = .cadd h o ∧ seqReady s .cadd h o ∧ v = s.arrival h.core h.signalCtr + BitVec.ofNat 16 o.imm.toNat) →
     ∃ t, exec i s = .next t ∧
       (∀ q c, t.arrival q c = if q = h.core ∧ c = h.signalCtr then v else s.arrival q c) ∧
       (t.core h.core).seq = pairAt s h.core (seqOnward s h.core).1 (seqOnward s h.core).2 (bufAfter s h.core (insnOf i)) ∧
       seqFrame h s t)

/-- An instruction whose wait does not hold stands in the sequencer and changes nothing else; so does a fence whose engines
still work (R70, R73, R79). A decode that finds a violation freezes its core: the code, the address and the freeze record are
kept, and no register, queue or memory changes (R25, R86). The word of a sequencer instruction decodes to it (R68, R78);
ILLEGAL_INSTRUCTION is the decode of a word whose opcode is reserved, code 0x0802, and none of a word that spells an
instruction. -/
def Obligations.WaitsAndViolations : Prop :=
  (∀ (s : State) (i : Instr) (op : SeqOp) (h : InsnHdr) (o : SeqOps),
     seqForm i = some (op, h, o) → s.clocked h.core = true → (s.core h.core).seq.state = .running →
     (s.core h.core).seq.admits (seqWord op h o) = true → seqViolation s (s.core h.core).seq op h o = 0 →
     let s1 := s.modSeq h.core (fun q => q.recordInsn (seqWord op h o))
     (seqWaitMet op h s = false →
       exec i s = .next (s1.modSeq h.core (fun q => { q with state := .waiting, held := some (.seq h op o) }))) ∧
     (seqWaitMet op h s = true → (s.core h.core).fenceDone (fenceMask op o) = false →
       exec i s = .next (s1.modSeq h.core (fun q => { q with state := .fence, held := some (.seq h op o) })))) ∧
  (∀ (s : State),
     (∀ (i : Instr) (op : SeqOp) (h : InsnHdr) (o : SeqOps) (code : Nat),
       seqForm i = some (op, h, o) → s.clocked h.core = true → (s.core h.core).seq.state = .running →
       (s.core h.core).seq.admits (seqWord op h o) = true →
       seqViolation s (s.core h.core).seq op h o = code → code ≠ 0 → code ≠ 0x0801 →
       ∃ t, exec i s = .next t ∧ seqFroze h.core code s t) ∧
     (∀ (p : Nat) (w : Insn),
       s.clocked p = true → (s.core p).seq.state = .running → (s.core p).seq.admits w = true →
       (s.core p).seq.fetchFault = 0 →
       (decodeInsn p w = none → ∃ t, exec (.illegalInstruction p w) s = .next t ∧ seqFroze p 0x0802 s t) ∧
       (decodeInsn p w ≠ none → exec (.illegalInstruction p w) s = .next s))) ∧
  (∀ (i : Instr) (op : SeqOp) (h : InsnHdr) (o : SeqOps),
     seqForm i = some (op, h, o) → h.agree = true → decodeInsn h.core (seqWord op h o) = some i)

/-- SEQ_STALL_RESUME: once its wait or its fence is met, a held instruction has exactly the effects that it has when it is
decoded at that time; once its queue has room, a held engine instruction is queued (R73, R79). -/
def Obligations.StallResumeRunsHeld : Prop :=
  (∀ (s : State) (p : Nat) (e : Engine) (x : QEntry),
    s.clocked p = true → (s.core p).seq.state = .queueFull → (s.core p).seq.held = some (.eng e x) → x.hdr.core = p →
    x.confirmed = true → inStep (s.core p).seq →
    ((s.core p).seq.queue e).length < 32 → (seqOnward s p).1 ≤ lastPc →
    ∃ t, exec (.seqStallResume p) s = .next t ∧ (t.core p).seq = afterPush s p e x (s.core p).seq.loopBuf ∧
      signalled { x.hdr with signal := false } s t ∧ seqFrame x.hdr s t) ∧
  ∀ (s : State) (i : Instr) (op : SeqOp) (h : InsnHdr) (o : SeqOps),
    seqForm i = some (op, h, o) → s.clocked h.core = true →
    ((s.core h.core).seq.state = .waiting ∨ (s.core h.core).seq.state = .fence) →
    (s.core h.core).seq.held = some (.seq h op o) → (s.core h.core).seq.recordInsn (seqWord op h o) = (s.core h.core).seq →
    seqReady (s.modSeq h.core (fun q => { q with state := .running, held := none })) op h o →
    (s.core h.core).fenceDone (fenceMask op o) = true →
    exec (.seqStallResume h.core) s = exec i (s.modSeq h.core (fun q => { q with state := .running, held := none }))

/-- CORE_HALT_REPORT (R76, R79, R89): a halted core whose engines are done completes its HALT, with its signal, goes idle and
reports, and nothing else changes. FETCH_WORD_ARRIVE (R72): a good word of the slice stands first in the fetch buffer, which keeps
at most four words; slice, registers and program counter stay. -/
def Obligations.HaltAndFetch : Prop :=
  (∀ (s : State) (p : Nat) (h : InsnHdr) (op : SeqOp) (o : SeqOps),
     s.clocked p = true → (s.core p).seq.state = .haltDrain → (s.core p).drained = true →
     (s.core p).seq.held = some (.seq h op o) →
     ∃ t, exec (.coreHaltReport p) s = .next t ∧
       t.core p = { s.core p with
         seq := { (s.core p).seq with state := .idle, held := none }, haltReported := true, started := false,
         slice := { (s.core p).slice with arrival := (t.core p).slice.arrival } } ∧
       signalled { h with core := p } s t ∧ (∀ q, q ≠ p → t.core q = s.core q) ∧ t = { s with cores := t.cores }) ∧
  (∀ (s : State) (p addr : Nat),
     s.clocked p = true → addr / 64 * 64 ≤ lastPc →
     ((s.core p).seq.state = .running ∨ (s.core p).seq.state = .waiting ∨ (s.core p).seq.state = .fence ∨
       (s.core p).seq.state = .queueFull) →
     quiet (s.core p) → (s.core p).slice.fetchMark (addr / 64 * 64) = 0 →
     ∃ t, exec (.fetchWordArrive p { addr := addr }) s = .next t ∧ t = { s with cores := t.cores } ∧
       (∀ q, q ≠ p → t.core q = s.core q) ∧
       t.core p = { s.core p with seq := { (s.core p).seq with fetch := (t.core p).seq.fetch } } ∧
       (t.core p).seq.fetch.head? = some
         { addr := addr / 64 * 64, fault := 0, data := (s.core p).slice.bytes (addr / 64 * 64) 64 } ∧
       (t.core p).seq.fetch.length ≤ 4)

/-! ## 03 to 05, 07: engine instructions at the sequencer -/

/-- Every engine instruction, once decoded, stands last in its engine's queue with the issue offsets added; the sequencer goes
on, and the engines themselves, the slice and the registers are as before (R73, R74, R82). A full queue of 32 entries holds
the sequencer, which keeps the instruction; nothing else changes (R73). -/
def Obligations.EngineInstructionsQueue : Prop :=
  (∀ (s : State) (i : Instr) (e : Engine) (h : InsnHdr) (op op' : EngineOp) (ok : Bool),
     engForm i = some (e, h, op, ok) → ok = true →
     s.clocked h.core = true → (s.core h.core).seq.state = .running → (s.core h.core).seq.admits (engInsn i) = true →
     inStep (s.core h.core).seq → (s.core h.core).seq.fetchFault = 0 →
     (op.isPva = true → (s.core h.core).seq.pvaCompat = true) → syncOk h false = true → h.agree = true →
     op.addOffsets ((s.core h.core).seq.offset (engineOffsetBase e)) ((s.core h.core).seq.offset (engineOffsetBase e + 1)) =
       some op' →
     ((s.core h.core).seq.queue e).length < 32 → (seqOnward s h.core).1 ≤ lastPc →
     ∃ t, exec i s = .next t ∧
       (t.core h.core).seq = afterPush s h.core e (queuedEntry s e h op') (bufAfter s h.core (engInsn i)) ∧
       signalled { h with signal := false } s t ∧ seqFrame h s t) ∧
  (∀ (s : State) (i : Instr) (e : Engine) (h : InsnHdr) (op : EngineOp) (ok : Bool) (x : QEntry),
     engForm i = some (e, h, op, ok) → s.clocked h.core = true → (s.core h.core).seq.state = .running →
     (s.core h.core).seq.admits (engInsn i) = true →
     engViolation (s.core h.core).seq e h op ok = 0 → engEntry (s.core h.core).seq e h op = some x →
     32 ≤ ((s.core h.core).seq.queue e).length →
     exec i s = .next ((s.modSeq h.core (fun q => q.recordInsn (engInsn i))).modSeq h.core (fun q =>
       { q with state := .queueFull,
                held := some (.eng e { x with confirmed := engAgrees (s.core h.core).seq e h op }) })))

/-! ## 04, 05: the engines -/

/-- ISSUE_WINDOW_START (R23, R55, R56, R104, R117 to R119, R194): the array latches limit, fill and grant hold. An array with nothing to admit
takes dead rows until they reach the fill; one whose single MMS has a row ready in every cycle admits its next rows up to the
limit, and none while it is held: an admitted row i, multiplied through the loaded plane, is written into accumulator row acc_base + i
modulo 512 under clear and added into it in FP32 otherwise, and every other row stays. The stream unit latches its pace, and a ready transaction whose translation stands in the
cache goes in flight under the leaf and the key that it captures. BUSY_PERIOD_END (R116, R118) ends the period, and a grant hold
that is set then applies. ACTIVITY_REPORT (R24) replaces the island's last report. -/
def Obligations.IssueWindows : Prop :=
  ∀ (s : State) (p : Nat) (c : Core), c = s.core p → s.clocked p = true → quiet c →
    let g := s.limitOf p
    let m := c.mx
    let held := g.hold && (m.held || !m.busy)
    let latched := { m with limit := g.l, fill := g.f, hold := g.hold, held := held }
    (∀ ready : W64, g.l ≤ 64 → m.active = [] →
      let dead := if held then 0 else min g.f g.l
      ∃ t, exec (.issueWindowStart p false ready []) s = .next t ∧
        t.core p = { c with mx :=
          { latched with busy := m.busy || decide (0 < dead), deadGen := (t.core p).mx.deadGen } } ∧
        (dead = 0 → (t.core p).mx.deadGen = m.deadGen) ∧ (∀ q, q ≠ p → t.core q = s.core q) ∧
        countersMoved [(coreReg p 0x1130, dead)] s t ∧
        t = { s with cores := t.cores, counters := t.counters, draws := t.draws }) ∧
    (∀ (a : MxActive) (o : MmsOps), g.l ≤ 64 → m.active = [a] → a.entry.op = .mms o false → a.nextRow ≤ o.rows.toNat →
      o.zrow = false → o.dthru = false → o.rows.toNat ≤ 512 → (m.plane a.plane).state = .loaded →
      let pl := m.plane a.plane
      let k := denseK pl.fmt.toNat pl.sparse
      let reads := (List.range' a.nextRow (o.rows.toNat - a.nextRow)).flatMap (fun i => mapRanges a.inMap o.inAddr.toNat i k)
      let real := if held then 0 else min g.l (o.rows.toNat - a.nextRow)
      let dead := if held then 0 else min g.f g.l - real
      (∀ r ∈ reads, c.slice.rangeOn r.1 r.2 = true) → (∀ r ∈ reads, c.slice.badIn r.1 r.2 = none) →
      ∃ t, exec (.issueWindowStart p false (BitVec.allOnes 64) []) s = .next t ∧
        t.core p = { c with mx := { latched with
          busy := m.busy || decide (0 < real) || decide (0 < dead), deadGen := (t.core p).mx.deadGen,
          active := [{ a with nextRow := a.nextRow + real }], acc := (t.core p).mx.acc, live := (t.core p).mx.live } } ∧
        (∀ i, a.nextRow ≤ i → i < a.nextRow + real →
          let new := rowResults pl (mapInput c.slice a.inMap o.inAddr.toNat i k)
          let r := (o.accBase.toNat + i) % 512
          (t.core p).mx.accRow r =
            (if o.clear then new else List.zipWith (fun x y => (addF x y).1) (m.accRow r) new) ∧ r ∈ (t.core p).mx.live) ∧
        (∀ r, (∀ i, a.nextRow ≤ i → i < a.nextRow + real → r ≠ (o.accBase.toNat + i) % 512) →
          (t.core p).mx.accRow r = m.accRow r) ∧
        t.counter (coreReg p 0x1100) = s.counter (coreReg p 0x1100) + BitVec.ofNat 64 real ∧
        t.counter (coreReg p 0x1130) = s.counter (coreReg p 0x1130) + BitVec.ofNat 64 dead ∧
        (∀ q, q ≠ p → t.core q = s.core q) ∧ t.hbm = s.hbm) ∧
    (∃ t, exec (.issueWindowStart p true 0 []) s = .next t ∧
      t.core p = { c with str := { c.str with pace := g.q } } ∧ (∀ q, q ≠ p → t.core q = s.core q) ∧
      t = { s with cores := t.cores }) ∧
    (∀ (d : StrSlot) (i : Nat) (x : Txn) (e : TcEntry),
      g.q = 0 → c.mayIssue = true → c.issuer = some d → c.strSlot d.slot = some d → d.kind < 3 → d.next c.slice = some i →
      (d.txns c.slice)[i]? = some x → c.tc.find c.ctx c.gen x.far = some e → e.serves d.store = true →
      (if d.store then pteW e.leaf else pteR e.leaf) = true → s.memSlotOk (pteSlot e.leaf) c.tenant = true →
      ∃ t, exec (.issueWindowStart p true 1 []) s = .next t ∧
        (t.core p).strSlot d.slot = some { d with issued := d.issued ++
          [{ index := i, txn := x, leaf := e.leaf, large := e.large, gen := (s.slot (pteSlot e.leaf)).gen,
             material := (s.slot (pteSlot e.leaf)).material }] } ∧
        (t.core p).tc = c.tc.touch e ∧ countersMoved [(coreReg p 0x2900, 1)] s t ∧
        (t.core p).seq = c.seq ∧ (t.core p).mx = c.mx ∧ (t.core p).vx = c.vx ∧ (t.core p).slice = c.slice ∧
        (∀ q, q ≠ p → t.core q = s.core q)) ∧
    (m.busy = true → ∃ t, exec (.busyPeriodEnd p) s = .next t ∧
      t.core p = { c with mx := { m with busy := false, held := m.hold } } ∧
      (∀ q, q ≠ p → t.core q = s.core q) ∧ t = { s with cores := t.cores }) ∧
    (∀ (island belowNs : Nat) (counts : List Nat),
      island < 256 → s.pins.dieOn = true → s.clk.held.contains island = false →
      ∃ t, exec (.activityReport island counts belowNs) s = .next t ∧
        (∀ j, Tab.find t.gov.activity j =
          if j = island then some { counts := counts, belowNs := belowNs } else Tab.find s.gov.activity j) ∧
        t = { s with gov := { s.gov with activity := t.gov.activity } })

/-- The matrix engine takes the legal entry at the head of its queue (R75, R100, R101, R103, R107, R109): an array with
nothing active makes it active, an MXMAP sets its map, an MXL marks its plane as loading, and an alternating entry inverts its toggle. -/
def Obligations.MatrixEntriesStart : Prop :=
  ∀ (s : State) (p : Nat) (x : QEntry) (rest : List QEntry) (c : Core),
    c = s.core p → s.clocked p = true → c.isFrozen = false → c.seq.qMx = x :: rest → s.waitMet p x.hdr = true →
    x.confirmed = true → c.mx.active = [] → c.rcPolicy = 0 →
    let starts (a : MxActive) (m : Sys2Proof.Machine.Matrix) : Prop :=
      ∃ t, exec (.engineEntryStart p .matrix) s = .next t ∧
        t.core p = { c with seq := { c.seq with qMx := rest }, mx := { m with active := [a] } } ∧
        (∀ q, q ≠ p → t.core q = s.core q) ∧ t = { s with cores := t.cores, counters := t.counters }
    (∀ o, x.op = .mxmap o → o.rsv = 0 → (isSkived o.fmt.toNat = false → o.scaleBase = 0) → o.elemBase.toNat % 64 = 0 →
      o.scaleBase.toNat % 64 = 0 →
      starts { entry := x } { c.mx with maps := Tab.set c.mx.maps o.map.toNat o }) ∧
    (∀ o, x.op = .mxclr o → o.rsv = 0 → o.outAddr = 0 → o.outMap = 0 → o.release = false → 0 < o.rows.toNat →
      o.rows.toNat ≤ 512 → starts { entry := x } c.mx) ∧
    (∀ o, x.op = .mxl o false → o.rsv = 0 → o.wFmt ≠ 0 →
      let pl := o.plane ^^ (o.alt && c.mx.loadToggle)
      let addr := o.wAddr.toNat + (if o.alt && c.mx.loadToggle then x.hdr.count.toNat * 64 else 0)
      addr % 64 = 0 → addr + (imageSize o.wFmt.toNat o.sparse + if o.header then 64 else 0) ≤ sliceSize →
      starts { entry := x, plane := pl, addr := addr }
        { c.mx.setPlane pl { state := .loading } with loadToggle := c.mx.loadToggle ^^ o.alt }) ∧
    (∀ o, x.op = .mxd o → o.rsv = 0 → 0 < o.rows.toNat → o.rows.toNat ≤ 512 →
      mapFits (c.mx.mapAt o.outMap) o.outAddr.toNat o.rows.toNat 128 true = true →
      starts { entry := x, outMap := c.mx.mapAt o.outMap, index := Tab.get 0 c.slice.arrival 253 } c.mx) ∧
    (∀ o, x.op = .mms o false → mmsReserved o false = false → o.zrow = false → o.dthru = false → 0 < o.rows.toNat →
      o.rows.toNat ≤ 512 →
      let pn := o.plane ^^ (o.alt && c.mx.streamToggle)
      let pl := c.mx.plane pn
      let im := c.mx.mapAt o.inMap
      pl.state = .loaded → pairOk pl.fmt.toNat im.fmt.toNat = true →
      mapFits im o.inAddr.toNat o.rows.toNat (denseK pl.fmt.toNat pl.sparse) false = true →
      starts { entry := x, plane := pn, inMap := im, outMap := c.mx.mapAt o.outMap }
        { c.mx with streamToggle := c.mx.streamToggle ^^ o.alt, lastPlane := pn, mmsDone := false })

/-- MXMAP and MXCLR complete (R76, R101, R107, R108): the map stays as its start set it, or the rows hold +0 and are free; then
the signal goes up and the busy cycles are counted. MXL completes (R97, R100): a dense image without a header, read from tiles that are
on and words that are good, stands in its plane, which is loaded; slice, accumulator and the other plane stay. -/
def Obligations.MatrixSetupCompletes : Prop :=
  (∀ (s : State) (p cycles stalls : Nat) (a : MxActive) (c : Core),
     c = s.core p → s.clocked p = true → quiet c → c.mx.active = [a] →
     let done (m : Sys2Proof.Machine.Matrix) : Prop :=
       ∃ t, exec (.engineInstructionComplete p .matrix 0 { cycles := cycles, stalls := stalls } []) s = .next t ∧
         engineDone p a.entry { c with mx := { m with active := [] } } s t ∧
         countersMoved [(coreReg p 0x200, cycles), (coreReg p 0x1120, stalls)] s t
     (∀ o, a.entry.op = .mxmap o → done c.mx) ∧
     (∀ o, a.entry.op = .mxclr o →
       ∃ (m : Sys2Proof.Machine.Matrix), done m ∧ m = { c.mx with acc := m.acc, live := m.live } ∧
         (∀ r, m.accRow r = if r ∈ accRows o.accBase.toNat o.rows.toNat then List.replicate 128 0 else c.mx.accRow r) ∧
         ∀ r, r ∈ m.live ↔ r ∈ c.mx.live ∧ r ∉ accRows o.accBase.toNat o.rows.toNat)) ∧
  (∀ (s : State) (p cycles stalls : Nat) (a : MxActive) (o : MxlOps) (c : Core),
     c = s.core p → s.clocked p = true → quiet c → c.mx.active = [a] → a.entry.op = .mxl o false →
     o.sparse = false → o.header = false → o.wFmt.toNat < 8 →
     (∀ r ∈ imageReads o.wFmt.toNat false 0, c.slice.rangeOn (a.addr + r.1) r.2 = true) →
     (∀ r ∈ imageReads o.wFmt.toNat false 0, c.slice.badIn (a.addr + r.1) r.2 = none) →
     let pl : Plane := { state := .loaded, fmt := o.wFmt, image := c.slice.bytes a.addr (imageSize o.wFmt.toNat false) }
     ∃ t, exec (.engineInstructionComplete p .matrix 0 { cycles := cycles, stalls := stalls } []) s = .next t ∧
       engineDone p a.entry { c with mx := { c.mx.setPlane a.plane pl with active := [] } } s t ∧
       countersMoved [(coreReg p 0x200, cycles), (coreReg p 0x1120, stalls)] s t)

/-- MMS completes (R76, R104, R110): once the windows have admitted its rows, it leaves the array with its signal and its cycles, and
every accumulator row stays; one with rows left waits, and nothing changes. MXD completes (R57, R107, R108): the rows are converted under
the output map and written to the slice in order, each freed under release; nothing else of the slice changes. -/
def Obligations.MatrixRowsComplete : Prop :=
  (∀ (s : State) (p cycles stalls : Nat) (a : MxActive) (o : MmsOps) (c : Core),
     c = s.core p → s.clocked p = true → quiet c → c.mx.active = [a] → a.entry.op = .mms o false →
     o.zrow = false → (c.mx.plane a.plane).state = .loaded →
     (o.rows.toNat ≤ a.nextRow →
       ∃ t, exec (.engineInstructionComplete p .matrix 0 { cycles := cycles, stalls := stalls } []) s = .next t ∧
         engineDone p a.entry { c with mx := { c.mx with active := [], mmsDone := true } } s t ∧
         countersMoved [(coreReg p 0x200, cycles), (coreReg p 0x1120, stalls)] s t) ∧
     (a.nextRow < o.rows.toNat →
       ∃ t, exec (.engineInstructionComplete p .matrix 0 { cycles := cycles, stalls := stalls } []) s = .next t ∧
         t.core p = c ∧ (∀ q, q ≠ p → t.core q = s.core q) ∧ t = { s with cores := t.cores })) ∧
  (∀ (s : State) (p cycles stalls : Nat) (a : MxActive) (o : MxdOps) (c : Core),
     c = s.core p → s.clocked p = true → quiet c → c.mx.active = [a] → a.entry.op = .mxd o →
     a.nextRow = 0 → c.rcPolicy = 0 → o.rows.toNat ≤ 512 →
     (∀ r ∈ (List.range o.rows.toNat).flatMap (fun i => mapRanges a.outMap o.outAddr.toNat i 128),
       c.slice.rangeOn r.1 r.2 = true) →
     let row (i : Nat) : Nat := (o.accBase.toNat + i) % 512
     let drains := (List.range o.rows.toNat).map (fun i => drainRow a.outMap o.outAddr.toNat i (c.mx.accRow (row i)))
     ∃ (m : Sys2Proof.Machine.Matrix) (t : State), exec (.engineInstructionComplete p .matrix 0 { cycles := cycles, stalls := stalls } []) s = .next t ∧
       engineDone p a.entry
         { c with mx := { m with active := [] }, slice := c.slice.writeAll (drains.flatMap Prod.fst) } s t ∧
       m = { c.mx with acc := m.acc, live := m.live, flags := m.flags } ∧
       (∀ i, i < o.rows.toNat → o.release = true → m.accRow (row i) = List.replicate 128 0 ∧ row i ∉ m.live) ∧
       (∀ r, (o.release = false ∨ ∀ i, i < o.rows.toNat → r ≠ row i) →
         m.accRow r = c.mx.accRow r ∧ (r ∈ m.live ↔ r ∈ c.mx.live)))

/-- The vector engine takes the legal entry at the head of its queue (R75, R130, R131, R135): a setup instruction, an
unchained operation whose unit checks, or a whole chain under VECTOR_CHAIN_START. -/
def Obligations.VectorEntriesStart : Prop :=
  ∀ (s : State) (p n : Nat) (x : QEntry) (rest : List QEntry) (c : Core),
    c = s.core p → s.clocked p = true → c.isFrozen = false → c.seq.qVx = x :: rest → s.waitMet p x.hdr = true →
    c.vx.unit = [] →
    let starts (i : Instr) (n : Nat) : Prop :=
      ∃ t, exec i s = .next t ∧
        t.core p = { c with
          seq := { c.seq with qVx := (x :: rest).drop n },
          vx := { c.vx with unit := (x :: rest).take n, posRow := 0, posBeat := 0 } } ∧
        (∀ q, q ≠ p → t.core q = s.core q) ∧ t = { s with cores := t.cores }
    (x.confirmed = true → x.isSetup = true → x.tag = 0 → setupReserved x = false → starts (.engineEntryStart p .vector) 1) ∧
    (∀ v o u, x.confirmed = true → x.op = .vop v o false → x.tag = 0 → x.last = false → unitOf c.vx [x] = .ok u →
      starts (.engineEntryStart p .vector) 1) ∧
    (∀ u, x.isSetup = false → x.tag ≠ 0 → chainRun x.tag 0 (x :: rest) = .whole n → unitOf c.vx ((x :: rest).take n) = .ok u →
      starts (.vectorChainStart p) n)

/-- VXDSC, VXDSS and VXK complete (R130, R131): the descriptor takes its new fields and keeps its scale base, the scale base
alone changes, or the constant changes; one cycle and one unit are counted, and the signal goes up. A unit of element,
special, reduction or top-k operations completes (R76, R136, R146, R147): where its streams lie in tiles that are on, its words
are good and no row overlaps but exactly, the slice takes the rows' writes in order, the sticky flags gather the rows' flags,
and every member signals. -/
def Obligations.VectorEntriesComplete : Prop :=
  (∀ (s : State) (p cycles stalls : Nat) (x : QEntry) (c : Core),
     c = s.core p → s.clocked p = true → quiet c → c.vx.unit = [x] →
     let done (v : VectorEngine) : Prop :=
       ∃ t, exec (.engineInstructionComplete p .vector 0 { cycles := cycles, stalls := stalls } []) s = .next t ∧
         engineDone p x { c with vx := { v with unit := [] } } s t ∧
         countersMoved [(coreReg p 0x208, 1), (coreReg p 0x1A10, 1)] s t
     (∀ o, x.op = .vxdsc o →
       let d : VDesc := {
         base := o.base, fmt := o.fmt, int := o.int, form := o.form, rowLen := o.rowLen, rowStride := o.rowStride,
         scaleBase := (Tab.get {} c.vx.descs o.idx.toNat).scaleBase }
       done { c.vx with descs := Tab.set c.vx.descs o.idx.toNat d }) ∧
     (∀ o, x.op = .vxdss o →
       let d : VDesc := { Tab.get {} c.vx.descs o.idx.toNat with scaleBase := o.scaleBase }
       done { c.vx with descs := Tab.set c.vx.descs o.idx.toNat d }) ∧
     (∀ o, x.op = .vxk o → done { c.vx with consts := Tab.set c.vx.consts o.idx.toNat o.value })) ∧
  (∀ (s : State) (p cycles stalls : Nat) (x : QEntry) (u : VUnit) (c : Core),
     c = s.core p → s.clocked p = true → quiet c → c.vx.unit = [x] → x.isSetup = false →
     unitOf c.vx [x] = .ok u → (∀ m ∈ u.members, m.op.cls ≠ .g) → u.rows = 1 →
     overlapOf u.sources u.dests u.rows = [] → overlapOf u.dests u.sources u.rows = [] →
     (∀ st ∈ u.sources ++ u.dests, ∀ r ∈ st.1.ranges 0 st.2, c.slice.rangeOn r.1 r.2 = true) →
     (∀ st ∈ u.sources, ∀ r ∈ st.1.ranges 0 st.2, c.slice.badIn r.1 r.2 = none) →
     let w := rowUnit c.vx u c.slice 0
     ∃ v t, exec (.engineInstructionComplete p .vector 0 { cycles := cycles, stalls := stalls } []) s = .next t ∧
       engineDone p x { c with vx := v, slice := c.slice.writeAll w.1 } s t ∧
       v = { c.vx with unit := [], flags := c.vx.flags ||| w.2 })

/-! ## 02: arithmetic -/

/-- VMAX and VMIN (R59): a NaN operand gives the canonical NaN, +0 stands above -0, and otherwise the result is the operand
that is not below, or not above, the other. FP32 addition and multiplication do not depend on the order of their operands,
in result and in flags (R36, R58). -/
def Obligations.ArithmeticOrder : Prop :=
  (∀ (x y : W32),
     (ofFp32 x = .nan ∨ ofFp32 y = .nan → maxF x y = 0x7FC00000 ∧ minF x y = 0x7FC00000) ∧
     maxF 0 0x80000000 = 0 ∧ maxF 0x80000000 0 = 0 ∧ minF 0 0x80000000 = 0x80000000 ∧ minF 0x80000000 0 = 0x80000000 ∧
     (ofFp32 x ≠ .nan → ofFp32 y ≠ .nan →
       (maxF x y = x ∨ maxF x y = y) ∧ (minF x y = x ∨ minF x y = y) ∧
       0 ≤ cmpV (ofFp32 (maxF x y)) (ofFp32 x) ∧ 0 ≤ cmpV (ofFp32 (maxF x y)) (ofFp32 y) ∧
       cmpV (ofFp32 (minF x y)) (ofFp32 x) ≤ 0 ∧ cmpV (ofFp32 (minF x y)) (ofFp32 y) ≤ 0)) ∧
  (∀ (x y : W32), addF x y = addF y x ∧ mulF x y = mulF y x)

/-- The skived elements (R40 to R42): SK8 is a signed byte, SK4 an E2M1 number without infinity and NaN, SK2 is ternary, and 0b10
reads as 0; whatever a block holds and however it is rounded, the quantiser never makes the code of -128, of -0, or 0b10. -/
def Obligations.SkivedElements : Prop :=
  (∀ x < 256, skElem 5 x = (decide (128 ≤ x), (BitVec.ofNat 8 x).toInt.natAbs, 0)) ∧
  (∀ x < 16, (skElem 6 x).2.1 * 2 ^ ((skElem 6 x).2.2 + 1).toNat = [0, 1, 2, 3, 4, 6, 8, 12].getD (x % 8) 0 ∧
    -1 ≤ (skElem 6 x).2.2 ∧ (skElem 6 x).1 = decide (8 < x)) ∧
  skElem 7 0 = (false, 0, 0) ∧ skElem 7 1 = (false, 1, 0) ∧ skElem 7 3 = (true, 1, 0) ∧ skElem 7 2 = (false, 0, 0) ∧
  ∀ (xs : List W32) (rnd : Nat → Option Nat),
    (∀ c ∈ (quantise 5 xs rnd).2.1, c < 256 ∧ c ≠ 128) ∧ (∀ c ∈ (quantise 6 xs rnd).2.1, c < 16 ∧ c ≠ 8) ∧
    (∀ c ∈ (quantise 7 xs rnd).2.1, c < 4 ∧ c ≠ 2)

/-! ## 07: the stream unit -/

/-- The stream unit takes the legal SRUN at the head of its queue (R75, R184, R185): it captures the 64 B descriptor in the
lowest free slot, and alt inverts the toggle. STREAM_DESC_COMPLETE (R195): the oldest descriptor, all of whose transactions
are done, leaves its slot, signals, and counts with the cycles in which the unit was busy. -/
def Obligations.StreamDescriptors : Prop :=
  (∀ (s : State) (p slot : Nat) (x : QEntry) (rest : List QEntry) (o : SrunOps) (c : Core),
     c = s.core p → s.clocked p = true → c.isFrozen = false → c.seq.qStr = x :: rest → s.waitMet p x.hdr = true →
     x.confirmed = true → c.str.halted = false → c.str.stopping = false → x.op = .srun o false → o.rsv = 0 →
     firstBelow 16 (fun i => (c.strSlot i).isNone) = some slot →
     let addr := o.desc.toNat * 64 + if o.alt && c.str.toggle then 64 else 0
     let d : StrSlot := { slot := slot, entry := x, descAddr := addr, desc := c.slice.bytes addr 64 }
     addr + 64 ≤ sliceSize → c.slice.rangeOn addr 64 = true → c.slice.badIn addr 64 = none → c.slice.weakIn addr 64 = [] →
     (∀ w ∈ c.slice.undefB, w * 64 + 64 ≤ addr ∨ addr + 64 ≤ w * 64) → d.check = 0 →
     (∀ y ∈ c.str.slots, y.slot ≠ slot) →
     ∃ t, exec (.engineEntryStart p .stream) s = .next t ∧
       t.core p = { c with
         seq := { c.seq with qStr := rest },
         str := { c.str with toggle := c.str.toggle != o.alt, slots := c.str.slots ++ [d] } } ∧
       (∀ q, q ≠ p → t.core q = s.core q) ∧ t = { s with cores := t.cores }) ∧
  (∀ (s : State) (p cycles : Nat) (d : StrSlot) (rest : List StrSlot) (c : Core),
     c = s.core p → s.clocked p = true → c.str.halted = false → c.str.slots = d :: rest → d.allDone c.slice = true → d.latent = [] →
     ∃ t, exec (.streamDescComplete { core := p, cycles := cycles }) s = .next t ∧
       engineDone p d.entry { c with str := { c.str with slots := rest } } s t ∧
       countersMoved [(coreReg p 0x2100, 1), (coreReg p 0x210, cycles)] s t)

/-- STREAM_TXN_COMPLETE of a load from this module's HBM (R193, R195, R231, R242): a transaction in flight reads under the leaf and
the key that it captured at its issue; where the key slot was the tenant's and no word is poisoned or uncorrectable, the slice takes the
words that no later transaction wrote, and the transaction counts as done. -/
def Obligations.StreamLoadMovesData : Prop :=
  ∀ (s : State) (p slot i off : Nat) (d : StrSlot) (x : IssuedTxn) (bs : List Byte) (c : Core) (s1 : State),
    c = s.core p → s.clocked p = true → c.str.halted = false → c.strSlot slot = some d →
    d.issued.find? (fun x => decide (x.index = i)) = some x → d.kind ≠ 5 → d.store = false → s.txnReached p d x = true →
    s.ownHbm (leafAddr x.leaf x.large x.txn.far) = some off → x.material ≠ 0 → i ∉ d.redo →
    s1 = s.modSlice p (fun sl => sl.found []) →
    (let r : HReq := { slot := pteSlot x.leaf, gen := x.gen, material := x.material, ways := if d.noAlloc then 0 else c.wayMask.toNat }
     (s1.hbmRead off (64 * x.txn.n) r).1 = .data bs) →
    c.slice.rangeOn x.txn.loc (64 * x.txn.n) = true →
    ∃ t, exec (.streamTxnComplete p slot i {}) s = .next t ∧
      (t.core p).slice = c.slice.writeAll
        ((keptWords x.txn (d.overwritten c.slice i x.txn) bs).map (fun w => (x.txn.loc + 64 * w.1, w.2))) ∧
      (t.core p).strSlot slot = some { d with
        done := i :: d.done, past := d.past ++ d.issued.filter (fun x => decide (x.index = i)),
        issued := d.issued.filter (fun x => decide (x.index ≠ i)) } ∧
      t.counter (coreReg p 0x2108) = s.counter (coreReg p 0x2108) + 1 ∧
      t.counter (coreReg p 0x2110) = s.counter (coreReg p 0x2110) + BitVec.ofNat 64 (64 * x.txn.n) ∧
      (t.core p).seq = c.seq ∧ (t.core p).mx = c.mx ∧ (t.core p).vx = c.vx

/-- Halts of the stream unit (R201): a reported fault stops the issue of transactions; once the unit has stopped and nothing is in
flight, it halts with the fault of the oldest descriptor at its lowest position, and reports nothing else. STR_RESUME (R202): retry
takes a halted unit back to the saved position of every descriptor; skip does so too and completes the faulting transaction of a
store without sending it. A unit that is not halted raises an event and goes on. -/
def Obligations.StreamHaltsAndResumes : Prop :=
  (∀ (s : State) (p : Nat) (c : Core), c = s.core p → s.clocked p = true → c.str.halted = false →
     (c.str.reported ≠ [] →
       exec (.streamFaultHalt p) s = .next (s.modCore p (fun c => { c with str := { c.str with stopping := true } }))) ∧
     (∀ d rest f, c.str.stopping = true → c.str.inflight = 0 → c.str.slots = d :: rest → d.allDone c.slice = false →
       c.str.chosen = some f →
       ∃ t, exec (.streamHaltRecord p) s = .next t ∧
         (t.core p).str = { c.str with
           halted := true, stopping := false, handled := false, reported := [], fault := f, haltTime := s.clk.now } ∧
         (t.core p).seq = c.seq ∧ (t.core p).mx = c.mx ∧ (t.core p).vx = c.vx ∧
         (∃ e ∈ t.mgt.events, e.code = 0x0870) ∧
         t.counter (coreReg p 0x2130) = s.counter (coreReg p 0x2130) + 1 ∧
         ((∀ d ∈ c.str.slots, d.past = []) → t.core p = { c with str := (t.core p).str } ∧
           (∀ q, q ≠ p → t.core q = s.core q) ∧ t.hbm = s.hbm))) ∧
  (∀ (s : State) (p : Nat) (c : Core), c = s.core p → p < 160 → s.hostWaits = false → s.barOpen 0 = true → s.runsFree p = true →
     (∀ d ∈ c.str.slots, d.desc ≠ []) →
     let back := c.str.slots.map (fun d => d.rewind c.slice)
     (∀ d : StrSlot, let r := d.rewind c.slice
       r.slot = d.slot ∧ r.desc = d.desc ∧ r.issued = [] ∧ (∀ i, i ∈ r.done ↔ i ∈ d.done ∧ i < d.saved c.slice) ∧
       ∀ x ∈ d.past, d.saved c.slice ≤ x.index → x.index ∈ r.redo) ∧
     (c.str.halted = true →
       ∃ t, exec (.strResumeRetry p) s = .next t ∧
         t.core p = { c with str := { c.str with halted := false, stopping := false, handled := false, reported := [], slots := back } } ∧
         (∀ q, q ≠ p → t.core q = s.core q) ∧ t.out = s.out) ∧
     (∀ d i x, c.str.halted = true → c.strSlot c.str.fault.slot = some d → d.store = true →
       let ts := (d.rewind c.slice).txns c.slice
       (List.range ts.length).find? (fun i => decide ((ts.map (·.pos)).getD i 0 = c.str.fault.pos)) = some i →
       ts[i]? = some x →
       ∃ t, exec (.strResumeSkip p) s = .next t ∧ (t.core p).str.halted = false ∧ (t.core p).slice = c.slice ∧
         (∃ y, (t.core p).strSlot d.slot = some y ∧ i ∈ y.done) ∧ t.hbm = s.hbm) ∧
     (c.str.halted = false →
       exec (.strResumeRetry p) s = .next (s.event 0x0871) ∧ exec (.strResumeSkip p) s = .next (s.event 0x0871)))

/-! ## 06: the scratchpad -/

/-- INCOMING_WRITE_PACKET (R175, R178, R179): a packet of whole words of the resident context, that no earlier one of its way
waits before, to tiles that are on and not against the secure mark, writes its bytes and raises its counter; one of another
context is dropped, and neither it nor a refused one changes the slice's contents. Port B (R162, R163): a deferred access starts,
its wait is counted and a write changes the bytes that it covers; a collision with a read of port A is recorded with the port of the
later access, counted, and leaves that read undefined. An access that starves raises E_SPM_B_STARVE once. -/
def Obligations.SliceAccesses : Prop :=
  (∀ (s : State) (p : Nat) (k : WritePkt) (collided : Bool) (sl : Slice),
     sl = (s.core p).slice → s.clocked p = true → k.data.length ≤ 256 → k.data.length % 64 = 0 → k.addr % 64 = 0 →
     s.waitsBefore p k = false →
     (sl.resident = some (k.ctx.toNat, k.gen) → sl.refusesPacket k = false → sl.rangeOn k.addr k.data.length = true →
       ∃ t, exec (.incomingWritePacket p { pkt := k, collided := collided }) s = .next t ∧
         (∀ a, (t.core p).slice.mem.read a =
           if h : k.addr ≤ a ∧ a < k.addr + k.data.length then k.data[a - k.addr]'(by omega) else sl.mem.read a) ∧
         signalled { core := p, signal := k.raise, signalCtr := k.ctr } s t ∧
         (∀ q, q ≠ p → t.core q = s.core q) ∧ t.out = s.out ++ [.write k p false false collided]) ∧
     (sl.resident ≠ some (k.ctx.toNat, k.gen) ∨ sl.refusesPacket k = true ∨ sl.rangeOn k.addr k.data.length = false →
       ∃ t, exec (.incomingWritePacket p { pkt := k, collided := collided }) s = .next t ∧ (t.core p).slice.mem = sl.mem ∧
         (∀ q c, t.arrival q c = s.arrival q c) ∧
         t.out = s.out ++ [.write k p (decide (sl.resident ≠ some (k.ctx.toNat, k.gen)))
           (decide (sl.resident = some (k.ctx.toNat, k.gen))) collided])) ∧
  (∀ (s : State) (p waited : Nat) (b : PortB) (sl : Slice), sl = (s.core p).slice → s.clocked p = true → b.word < 32768 →
     let served := { sl.write (b.word * 64 + b.off) (b.data.take (64 - b.off)) with
       starved := sl.starved.filter (fun i => decide (i ≠ b.id)) }
     (b.write = true → sl.servesB b = true →
       ∃ t, exec (.portBDeferStart p b waited none) s = .next t ∧
         (t.core p).slice = served ∧ (∀ q, q ≠ p → t.core q = s.core q) ∧
         countersMoved [(sliceReg p 0x108, waited)] s t ∧ t = { s with cores := t.cores, counters := t.counters }) ∧
     (∀ a : PortA, b.write = true → sl.servesB b = true → a.word = b.word → a.write = false →
       ∃ t, exec (.portBDeferStart p b waited (some a)) s = .next t ∧
         (t.core p).slice = { served with
           collWord := b.word * 64, collPort := !a.later, collValid := true, undefReads := b.word :: sl.undefReads } ∧
         countersMoved [(sliceReg p 0x108, waited), (sliceReg p 0x100, 1)] s t) ∧
     (∀ id, sl.starved.contains id = false →
       ∃ t, exec (.portBStarve { slice := p, id := id }) s = .next t ∧ (t.core p).slice = { sl with starved := id :: sl.starved } ∧
         t.mgt.events = (s.event 0x1014).mgt.events) ∧
     (∀ id, sl.starved.contains id = true → exec (.portBStarve { slice := p, id := id }) s = .next s))

/-- Tile power (R154, R166, R167, R169): a PF write of a mask on an idle core takes it and, where the slice's tiles follow their
masks, starts the transitions that it asks for; a tile that leaves or enters off holds +0 when it arrives, and one that goes to
retention keeps its contents. The row test (R165, R170 to R172): a tested row that is good moves the test to the next row and leaves
every byte as it was; a failing word takes a spare of its bank; after the interval the next row is due. SEQ_CTRL and MX_CTRL (R91,
R124): a PF write reaches an idle or frozen core, and one to a core at work changes nothing but the event log. -/
def Obligations.CoreAndSliceControl : Prop :=
  ((∀ (s : State) (p : Nat) (sl : Slice), sl = (s.core p).slice → p < 160 →
      (∀ v, s.hostWaits = false → s.barOpen 0 = true → s.runsFree p = true → (s.core p).settled = true →
        (s.tilesFollow p = true →
          exec (.spmTileMaskWrite p false v) s = .next (s.modSlice p (fun sl => ({ sl with tileOn := v } : Slice).retarget)) ∧
          exec (.spmTileMaskWrite p true v) s = .next (s.modSlice p (fun sl => ({ sl with tileRet := v } : Slice).retarget))) ∧
        (s.tilesFollow p = false →
          exec (.spmTileMaskWrite p false v) s = .next (s.modSlice p (fun sl => { sl with tileOn := v })) ∧
          exec (.spmTileMaskWrite p true v) s = .next (s.modSlice p (fun sl => { sl with tileRet := v })))) ∧
      (∀ tile src dst, tile < 32 → s.clocked p = true → s.tilesFollow p = false → sl.tile tile = .toward src dst →
        ∃ t, exec (.tileStateReached p tile) s = .next t ∧ (t.core p).slice.tile tile = tileStateOf dst ∧
          (∀ k, k ≠ tile → (t.core p).slice.tile k = sl.tile k) ∧
          (∀ a, (t.core p).slice.mem.read a =
            if (src = 0 ∨ dst = 0) ∧ a / 65536 = tile then 0 else sl.mem.read a) ∧
          (∀ q, q ≠ p → t.core q = s.core q) ∧ t = { s with cores := t.cores }) ∧
      (∀ tile src dst, tile < 32 → s.clocked p = true → s.tilesFollow p = true → sl.tile tile = .toward src dst →
        exec (.tileStateReached p tile) s = .next (s.modSlice p (fun sl => (sl.reach tile).retarget)))) ∧
   (∀ (s : State) (p : Nat) (sl : Slice), sl = (s.core p).slice → s.clocked p = true → s.corePower p ≠ 3 → sl.testOn = true →
      sl.testSuspended = false → s.testHeld p = false →
      (sl.testDue = true → sl.failedRow = none → sl.tileIsOn sl.testTile = true → sl.weak = [] →
        (∃ t, exec (.rowTest p {}) s = .next t ∧ (t.core p).slice = { sl.advanceTest with testDue := false } ∧
          (t.core p).slice.mem = sl.mem ∧ countersMoved [(sliceReg p 0x130, 1)] s t ∧
          t = { s with cores := t.cores, counters := t.counters }) ∧
        (∀ col, col < 32 →
          (∃ t, exec (.rowTest p { corrected := [col] }) s = .next t ∧ (t.core p).slice = { sl.advanceTest with testDue := false } ∧
            countersMoved [(sliceReg p 0x130, 1), (sliceReg p 0x110, 1)] s t) ∧
          (Tab.get 0 sl.sparesUsed ((sl.testRow + col) % 32) < 4 →
            ∃ t, exec (.rowTest p { failed := [col] }) s = .next t ∧
              Tab.get 0 (t.core p).slice.sparesUsed ((sl.testRow + col) % 32) =
                Tab.get 0 sl.sparesUsed ((sl.testRow + col) % 32) + 1 ∧
              (t.core p).slice.mem = sl.mem ∧ t.mgt.events = (s.event 0x1011).mgt.events))) ∧
      exec (.rowTestIntervalExpiry p) s = .next (s.modSlice p (fun sl => { sl with testDue := true })))) ∧
  (∀ (s : State) (p : Nat) (v : W32), p < 160 → s.hostWaits = false → s.barOpen 0 = true → s.runsFree p = true →
     ((s.core p).settled = true →
       exec (.seqCtrlWrite p v) s = .next (s.modSeq p (fun q => { q with pvaCompat := bitAt v.toNat 0 })) ∧
       exec (.mxCtrlWrite p v) s = .next (s.modCore p (fun c => { c with mx := { c.mx with freezeMode := bitAt v.toNat 0 } }))) ∧
     ((s.core p).settled = false →
       exec (.seqCtrlWrite p v) s = .next (s.event 0x0810) ∧ exec (.mxCtrlWrite p v) s = .next (s.event 0x0830)))

/-! ## 09: translation, HBM -/

/-- HBM (R206, R208, R231): a word written whole under a key slot's material reads back under the same request, and every
other good word that a request of its own material reads is as before. -/
def Obligations.HbmReadAfterWrite : Prop :=
  ∀ (s : State) (w v : Nat) (bs : List Byte) (r : HReq),
    bs.length = 64 → r.material ≠ 0 → s.isPoisoned (w / 1024) = false →
    ((s.hbmWriteWord w 0 bs r).hbmReadWord w r).1 = .data bs ∧
    (∀ a, a / 64 ≠ w → (s.hbmWriteWord w 0 bs r).hbm.mem.read a = s.hbm.mem.read a) ∧
    (v ≠ w → (s.hbmWriteWord w 0 bs r).wordTag v = s.wordTag v ∧
      (s.hbmWriteWord w 0 bs r).isPoisoned (v / 1024) = s.isPoisoned (v / 1024))

/-- Page walks (R239, R240): a miss of the core's cache starts a walk behind those already in flight; the oldest walk that finds its
leaf makes an entry of the cache the newest one, and one that ends in a fault reports it for the transaction that waits. The
translation cache holds at most 512 entries, newest first, whatever a walk or a hit adds. -/
def Obligations.PageWalks : Prop :=
  (∀ (s : State) (p : Nat) (c : Core), c = s.core p → s.clocked p = true → s.islandOn 249 = true →
     (∀ (va : BitVec 48) (write : Bool),
       s.walks < 64 → c.tc.walking va.toNat write = false → c.str.halted = false → c.str.stopping = false →
       (c.waitingTxn va.toNat write).isSome = true →
       ∃ t, exec (.pageWalk p va write) s = .next t ∧
         t.core p = { c with tc := { c.tc with walks := c.tc.walks ++ [{ va := va.toNat, write := write }] } } ∧
         (∀ q, q ≠ p → t.core q = s.core q) ∧ countersMoved [(coreReg p 0x2908, 1)] s t) ∧
     (∀ (w : Walk) (rest : List Walk) (d : StrSlot) (x : Txn),
       c.tc.walks = w :: rest → w.redo = false → c.waitingTxn w.va w.write = some (d, x) →
       let a := s.walk (if d.noAlloc then .bare else .sys) false c.ctx c.root c.tenant c.setMask.toNat w.va w.write
       (∀ e large wOk, a.1 = .leaf e large wOk →
         ∃ t, exec (.pageWalkComplete p) s = .next t ∧ (t.core p).tc.walks = rest ∧
           (t.core p).tc.entries = (c.tc.touch
             { ctx := c.ctx, gen := c.gen, vpage := w.va / pageBytes large, large := large, leaf := e, wOk := wOk }).entries ∧
           (t.core p).str = c.str) ∧
       (∀ kind frame, a.1 = .fault kind frame →
         ∃ t, exec (.pageWalkComplete p) s = .next t ∧ (t.core p).tc.walks = rest ∧
           (t.core p).tc.entries = c.tc.entries ∧
           (t.core p).str.reported = c.str.reported ++ [d.fault kind x.pos x.far false frame]))) ∧
  (∀ (tc : TransCache) (t : TcEntry),
     (tc.touch t).entries.length ≤ 512 ∧ (tc.touch t).entries.head? = some t ∧
     (∀ x ∈ (tc.touch t).entries, x ≠ t → x ∈ tc.entries) ∧
     (tc.touch t).find t.ctx t.gen (t.vpage * pageBytes t.large) = some t)

/-- Invalidations (R241): a PF write with go queues one behind the others and sets busy; the oldest starts once none runs;
its end drops every matching entry of every core's cache, keeps every other, and clears busy. -/
def Obligations.Invalidations : Prop :=
  ∀ (s : State),
    (∀ value : W32, s.hostWaits = false → s.barOpen 0 = true → s.runsFree 249 = true → s.walker.invBusy = false → bitAt value.toNat 12 = true →
      (bits value.toNat 1 0 = 1 ∨ bits value.toNat 1 0 = 3 ∨ s.walker.invPages ≠ 0) →
      ∃ t, exec (.xlInvGo value) s = .next t ∧ t.walker.invBusy = true ∧
        t.walker.queue = s.walker.queue ++ [{ scope := bits value.toNat 1 0, ctx := bits value.toNat 11 2,
                                              pages := s.walker.invPages.toNat, page := s.walker.invPage.toNat, source := .register }] ∧
        t = { s with walker := t.walker }) ∧
    (s.islandOn 249 = true →
      (∀ v rest, s.walker.running = none → s.walker.queue = v :: rest →
        ∃ t, exec .invalidationRun s = .next t ∧ t.walker = { s.walker with running := some v, queue := rest } ∧
          ∀ p, (t.core p).tc.entries = (s.core p).tc.entries) ∧
      (∀ v, s.walker.running = some v → v.source = .register →
        ∃ t, exec .invalidationComplete s = .next t ∧ t.walker.running = none ∧ t.walker.invBusy = false ∧
          (∀ p x, x ∈ (t.core p).tc.entries ↔ x ∈ (s.core p).tc.entries ∧ v.hitsTc x = false) ∧
          t.walker.cache = s.walker.cache.filter (fun x => !v.hitsWalker x.1 x.2) ∧ t.hbm = s.hbm))

/-- COW_RESOLVE (R245): where the halted store's page is still copy-on-write, with a pool frame free and a page that copies, the
new leaf names that frame without the copy-on-write bit and is otherwise the leaf that was read, the counts move, the page's
translations are dropped and the store is retried; where the frame has become the only one, the store is retried at once. No retry
comes before the repair is visible: while a write of it to a board peer waits to go out, the unit stays halted (08 R221). -/
def Obligations.CopyOnWriteResolves : Prop :=
  (∀ (s : State) (p off : Nat) (e : W64) (c : Core) (s1 : State),
    c = s.core p → s.cmdMem c.panel = true → p < 160 → c.str.halted = true → c.str.fault.kind = 2 → c.str.handled = false →
    s.leafPos (s.cmdUse c.ctx) c.root c.str.fault.addr true = (.pos off e, s1) → pteValid e = true → pteLeaf e = true →
    pteCow e = true → pteFrame e = c.str.fault.frame →
    let n := s1.boardCount (s.cmdUse c.ctx) c.ctx (pteFrame e)
    (n.1 = 1 → exec (.cowResolve p) s = .next (n.2.repaired p)) ∧
    (n.1 ≠ 1 → exec (.cowResolve p) s = .next (n.2.cowCopy p off e true)) ∧
    (∀ f s2 s3, n.2.takePool (n.2.core p).ctx true = (some f, s2) →
      s2.copyPage (n.2.core p).ctx (pteFrame e * 65536) (f * 65536) (pteSlot e) (pageBytes true) = (true, s3) →
      let cx := (n.2.core p).ctx
      let va := (n.2.core p).str.fault.addr
      let u := s3.cmdUse cx
      let s4 := s3.writePte u off (leafMoved e f)
      let s5 := (s4.setBoardCount u cx f 1).lowerCount u cx (pteFrame e)
      let s6 := (s5.charge cx 32 (pageBytes true)).charge cx 40 (pageBytes true)
      n.2.cowCopy p off e true =
        (((s6.count (xlReg 0x110) 1).invNow 0 cx 32 (va / pageBytes true * 32))).repaired p)) ∧
  (∀ (s : State) (p : Nat), (s.peerWriteWaits (s.core p).ctx = false → s.repaired p = s.strRetry p) ∧
    (s.peerWriteWaits (s.core p).ctx = true → s.repaired p = s)) ∧
  (∀ (e : W64) (f : Nat), f < 2 ^ 32 →
    pteFrame (leafMoved e f) = f ∧ pteCow (leafMoved e f) = false ∧ pteValid (leafMoved e f) = pteValid e ∧
    pteLeaf (leafMoved e f) = pteLeaf e ∧ ptePoison (leafMoved e f) = ptePoison e ∧ pteR (leafMoved e f) = pteR e ∧
    pteW (leafMoved e f) = pteW e ∧ pteSlot (leafMoved e f) = pteSlot e ∧ pteTenant (leafMoved e f) = pteTenant e)

/-- FRAME_RETIRE (R233): a frame that is due takes the next reserve frame of its channel set, raises the event, and keeps its
contents; poisoned frames and every other remapping stay as they were. -/
def Obligations.FramesRetire : Prop :=
  ∀ (s : State) (f : Nat),
    s.islandOn (224 + stackOf (f * 65536)) = true → f < hbmSize / 65536 → s.retireDue f = true → s.reserveUsed (f / 32 % 16) < 16384 →
    ∃ t, exec (.frameRetire f) s = .next t ∧ Tab.find t.hbm.remap f = some (s.reserveUsed (f / 32 % 16)) ∧
      t.reserveUsed (f / 32 % 16) = s.reserveUsed (f / 32 % 16) + 1 ∧ t.hbm.mem = s.hbm.mem ∧ t.hbm.poisoned = s.hbm.poisoned ∧
      (∀ g, g ≠ f → Tab.find t.hbm.remap g = Tab.find s.hbm.remap g) ∧ t.mgt.events = (s.event 0x2001).mgt.events ∧
      t.cores = s.cores

/-- The service commands (R318 to R325): each ends with its record once its work is done. One entry of MAP, UNMAP or POOL_ADD
that succeeds makes the count 1; STREAM_RESUME retries the halted core that it names; FENCE ends when the step ring has
consumed its target; POOL_ADD appends its entry to the pool's ring in HBM; ACCOUNT_READ writes the context's accounting block to the host; INVALIDATE queues its invalidation. One
MAP entry of a private 64 KiB page (R319): at an empty position the leaf that it asks for is written as one 8 B store,
after the frame's count went up; a position that is valid, or a table that is missing, changes no leaf. -/
def Obligations.ServiceCommands : Prop :=
  (∀ (s : State) (fn w k c : Nat) (p : Packet), k = winKey fn w → (s.window k).ctx = some c →
     s.cmdMem (some (s.ctx c).f.panel.toNat) = true →
     (s.window k).svcPkt = some p →
     (p.opcode = 0x0110 → ∀ e s1, headedEntries p.params 16 255 = some [e] → mapEntry c e s = (0, s1) →
       exec (.map fn w) s = .next (s1.endPacket k true p 0 1)) ∧
     (p.opcode = 0x0111 → ∀ e s1, headedEntries p.params 8 255 = some [e] → unmapEntry c e s = (0, s1) →
       exec (.unmap fn w) s = .next (s1.endPacket k true p 0 1)) ∧
     (p.opcode = 0x0113 → ∀ e, headedEntries p.params 8 511 = some [e] → (s.ctx c).poolLen < 4096 →
       fieldAt e 6 1 ≤ 1 → fieldAt e 7 1 = 0 → fieldAt e 0 6 % pageBytes (bitAt (fieldAt e 6 1) 0) = 0 →
       exec (.poolAdd fn w) s =
         .next ((s.pushPool c (fieldAt e 0 6 / 65536, bitAt (fieldAt e 6 1) 0)).endPacket k true p 0 1)) ∧
     (p.opcode = 0x0112 → ∀ v, invParams p.params k c = some v → s.walker.queue = [] → s.walker.running = none →
       exec (.invalidate fn w) s = .next { s with walker := { s.walker with queue := [v] } }) ∧
     (p.opcode = 0x0114 → ∀ q, p.params.length = 8 → zeroAt p.params 2 6 = true → fieldAt p.params 1 1 = 1 →
       fieldAt p.params 0 1 ≠ 0xFF → bitAt (s.ctxNow c).2.cores.toNat (fieldAt p.params 0 1) = true →
       ((s.coresOf c).filter (fun q => (s.core q).str.halted)).find?
         (fun q => decide ((s.core q).logical = fieldAt p.params 0 1)) = some q →
       exec (.streamResume fn w) s = .next ((s.strRetry q).endPacket k true p 0)) ∧
     (p.opcode = 0x0115 → p.params.length = 4 →
       ((s.window k).consumed - BitVec.ofNat 32 (leNat p.params)).toNat < 2 ^ 31 →
       exec (.svcFence fn w) s = .next (s.endPacket k true p 0)) ∧
     (p.opcode = 0x0116 → p.params.length = 8 → leNat p.params % 64 = 0 →
       exec (.accountRead fn w) s = .next
         ((s.emit (.hostBytes (BitVec.ofNat 64 (leNat p.params)) (s.accountBlock c))).endPacket k true p 0))) ∧
  (∀ (s : State) (c base : Nat) (e : Nat × Bool), s.poolBase c = some base →
     let n := (s.ctx c).poolLen
     let s1 := s.modCtx c (fun x => { x with poolLen := n + 1 })
     s.pushPool c e = s1.hbmWrite (base + 8 * n) (leBytes 6 (e.1 * 65536) ++ [if e.2 then 1 else 0, 0])
       (s1.hreq 0 (s1.waysOf (s1.cmdUse c) (base + 8 * n)))) ∧
  (∀ (s s1 : State) (c off : Nat) (old : W64) (e : List Byte),
     let f := (s.ctxNow c).1
     let fl := fieldAt e 6 1
     let src := fieldAt e 8 6
     bits fl 7 5 = 0 → zeroAt e 14 2 = true → bitAt fl 0 = false → bitAt fl 1 = false →
     fieldAt e 0 6 % 65536 = 0 → src % 65536 = 0 → 
     s.leafPos (s.cmdUse c) f.root.toNat (fieldAt e 0 6) false = (.pos off old, s1) →
     (pteValid old = true → mapEntry c e s = (0x0D08, s1)) ∧
     (pteValid old = false → s1.frameOk (src / 65536) (s.ctxNow c).2.setMask.toNat = true →
       ∀ s2, s1.raiseCount c (src / 65536) false = (0, s2) →
       mapEntry c e s = (0, s2.hbmWrite off
         (leBytes 8 (mkLeaf (src / 65536) (fieldAt e 7 1) f.tenant.toNat (bitAt fl 3) (bitAt fl 4) (bitAt fl 2)).toNat)
         (s2.hreq 0 (s2.waysOf (s.cmdUse c) off)))))

/-! ## 12: rings -/

/-- Doorbells (R297, R298): a doorbell of a bound and enabled window sets its tail, or its completion head, to the value
written; every other window and every other pointer of this one stays. A completion head that makes room also after the rings were
stopped lets the oldest held record out, with the time until then as its duration (R298, R299, R312). A tail at or above the ring's size is a ring error (R300): the window records
the error and its ring, both rings stop, and one record with tag 0xFFFF_FFFF is written or held. -/
def Obligations.DoorbellsMovePointers : Prop :=
  ∀ (s : State) (fn w : Nat) (value : W32) (k : Nat) (win : Window),
     k = winKey fn w → win = s.window k → w < 256 → s.hostWaits = false → s.barOpen fn = true → s.runsFree 246 = true → s.mgt.state ≠ .hold →
     win.ctx.isSome = true → s.deafWindow k = false →
     let tail := value.toNat % 65536
     (win.enable = true → win.error = false → tail < 2 ^ win.stepLog →
       ∃ t, exec (.cmdStepDb fn w value) s = .next t ∧
         t.window k = { win with stepTail := tail, stepShort := false,
                                     stepDbs := addDb win.stepDbs ((tail + 2 ^ win.stepLog - win.stepTail) % 2 ^ win.stepLog) s.time } ∧
         (∀ j, j ≠ k → t.window j = s.window j) ∧ t.out = s.out ∧ t.mgt = s.mgt) ∧
     (win.enable = true → win.error = false → tail < 2 ^ win.svcLog →
       ∃ t, exec (.cmdSvcDb fn w value) s = .next t ∧
         t.window k = { win with svcTail := tail, svcShort := false,
                                     svcDbs := addDb win.svcDbs ((tail + 2 ^ win.svcLog - win.svcTail) % 2 ^ win.svcLog) s.time } ∧
         (∀ j, j ≠ k → t.window j = s.window j) ∧ t.out = s.out ∧ t.mgt = s.mgt) ∧
     (tail < 2 ^ win.cqLog → (win.cqTail + 1) % 2 ^ win.cqLog ≠ tail →
       (win.held = [] →
         ∃ t, exec (.cmdCqDb fn w value) s = .next t ∧ t.window k = { win with cqHead := tail, fullRaised := false } ∧
           (∀ j, j ≠ k → t.window j = s.window j) ∧ t.out = s.out) ∧
       (∀ r n, win.held = [.record r false n] → win.irqEn = false →
         ∃ t, exec (.cmdCqDb fn w value) s = .next t ∧ t.out = s.out ++ [.hostBytes win.cqAddr ({ r with duration := s.since r.start }.bytes win.phase)] ∧
           (t.window k).held = [] ∧ (t.window k).cqHead = tail ∧ (t.window k).cqTail = (win.cqTail + 1) % 2 ^ win.cqLog ∧
           (∀ j, j ≠ k → t.window j = s.window j))) ∧
     (win.takesDb = true → 2 ^ win.stepLog ≤ tail →
       ∃ t, exec (.cmdStepDb fn w value) s = .next t ∧ (t.window k).error = true ∧ (t.window k).errStatus = 0x0D00 ∧
         (t.window k).errRing = false ∧ (t.window k).stepTail = win.stepTail ∧ (t.window k).takesDb = false ∧
         (∀ j, j ≠ k → t.window j = s.window j))

/-- CMD_RING_CTRL and the configuration registers (R295, R299): enabling a window with legal sizes resets its pointers, its
phase and its error, and a record that was held is written to the new queue (R298); a base or size is written while the rings are disabled and quiesced, and refused otherwise. -/
def Obligations.RingConfiguration : Prop :=
  ∀ (s : State) (fn w : Nat) (k : Nat) (win : Window), k = winKey fn w → win = s.window k → w < 256 → s.hostWaits = false →
    s.barOpen fn = true → s.runsFree 246 = true →
    (∀ v : W32, bitAt v.toNat 0 = true → win.enable = false → win.sizesOk = true →
      (win.held = [] → ∃ t, exec (.cmdRingCtrlWrite fn w v) s = .next t ∧ t.window k = win.started (bitAt v.toNat 1) ∧
        (∀ j, j ≠ k → t.window j = s.window j) ∧ t.out = s.out) ∧
      (∀ r n, win.held = [.record r false n] → bitAt v.toNat 1 = false →
        ∃ t, exec (.cmdRingCtrlWrite fn w v) s = .next t ∧
          t.out = s.out ++ [.hostBytes win.cqBase ({ r with duration := s.since r.start }.bytes true)] ∧
          (t.window k).held = [] ∧ (t.window k).cqTail = 1 ∧ (t.window k).enable = true ∧ ∀ j, j ≠ k → t.window j = s.window j)) ∧
    (∀ v : W32, bitAt v.toNat 0 = false →
      exec (.cmdRingCtrlWrite fn w v) s = .next (s.modWindow k (fun w => { w with enable := false, irqEn := bitAt v.toNat 1 }))) ∧
    (∀ v : W64, win.enable = false → win.quiesced = true →
      exec (.cmdRingCfgWrite fn w 0x10 v) s = .next (s.modWindow k (fun w => { w with stepBase := v &&& 0xFFFFFFFFFFFFF000 })) ∧
      exec (.cmdRingCfgWrite fn w 0x18 v) s = .next (s.modWindow k (fun w => { w with svcBase := v &&& 0xFFFFFFFFFFFFF000 })) ∧
      exec (.cmdRingCfgWrite fn w 0x20 v) s = .next (s.modWindow k (fun w => { w with cqBase := v &&& 0xFFFFFFFFFFFFF000 })) ∧
      exec (.cmdRingCfgWrite fn w 0x28 v) s = .next (s.modWindow k (fun w => { w with noticeBase := v &&& 0xFFFFFFFFFFFFF000 }))) ∧
    (∀ (v : W64) (off : Nat), off ∈ [0x10, 0x18, 0x20, 0x28, 0x30] → (win.enable = true ∨ win.quiesced = false) →
      exec (.cmdRingCfgWrite fn w off v) s = .next (s.event 0x6004))

/-- PACKET_FETCH (R296, R301, R305): the ring whose turn it is takes its next packet, when the header's version and length,
the slots and the header checks pass: its head moves past the slots and the packet is the ring's running one. STEP_MARK (R302,
R312, R316): it completes with status ST_OK: with space in the completion queue its 32 B record, of its tag and context, is
written at the tail with the present phase, and the tail moves on. -/
def Obligations.PacketsStart : Prop :=
  (∀ (s : State) (fn w k : Nat) (service : Bool) (bs : List Byte) (win : Window) (c : Nat),
     k = winKey fn w → win = s.window k → win.ctx = some c → w < 256 → s.islandOn (246 + s.windowParity k) = true → s.mgt.state = .ready →
     s.mayFetch k service = true → s.fetchFirst k service = true → fieldAt bs 11 1 = 1 → fieldAt bs 2 2 ≤ 4096 →
     let slots := 1 + ceilDiv (fieldAt bs 2 2) 64
     slots ≤ win.waiting service → headerStatus bs service c (s.ctx c).f.cls.toNat = 0 →
     ∃ t, exec (.packetFetch fn w service (.ok bs)) s = .next t ∧
       (let p := packetOf bs (padTo (fieldAt bs 2 2) (bs.drop 64)) slots (s.ctx c).f.cls.toNat
         (win.dbTime service) s.clk.now
        t.window k = if service then { win.consume true slots with svcPkt := some p }
                     else { win.consume false slots with stepPkt := some p }) ∧
       (∀ j, j ≠ k → t.window j = s.window j) ∧ countersMoved [(cmdReg 0x100, 1)] s t ∧ t.out = s.out) ∧
  (∀ (s : State) (fn w k : Nat) (p : Packet) (win : Window) (c : Nat),
     k = winKey fn w → win = s.window k → win.ctx = some c → win.stepPkt = some p → p.opcode = 0x0102 →
     s.islandOn (246 + s.windowParity k) = true → win.canStart = true → s.asleep k = false → win.irqEn = false →
     ∃ (t : State) (r : Record), exec (.stepMark fn w) s = .next t ∧ t.out = s.out ++ [.hostBytes win.cqAddr (r.bytes win.phase)] ∧
       r.tag = p.tag ∧ r.status = 0 ∧ r.ctx = c ∧ r.start = p.start ∧ r.service = false ∧
       (t.window k).stepPkt = none ∧ (t.window k).cqTail = (win.cqTail + 1) % 2 ^ win.cqLog ∧
       (t.window k).consumed = win.consumed + BitVec.ofNat 32 p.slots ∧ t.hbm = s.hbm ∧ t.cores = s.cores)

/-! ## 10: KV page selectors -/

/-- KV requests (R255, R257, R262): a trigger of a busy slot is counted and ignored, one that finds 32 requests in flight waits,
and any other is captured with its slot, its page and its header; a result that succeeded, whose way through the network is
open, is written into its slice of the resident context, its counter rises, and the request leaves flight. -/
def Obligations.KvsRequests : Prop :=
  ∀ (s : State),
    (∀ (offset h : Nat) (g : KvsReg) (l : Selector),
      h = stackOf offset → l = s.selector h → l.regs.find? (fun g => decide (g.frame = offset / 2097152)) = some g →
      s.islandOn (224 + h) = true →
      offset < hbmSize → offset % 8192 = 0 → (Mem.read s.hbm.mem offset).toNat % 4 ≠ 0 →
      let slot := offset % 2097152 / 8192
      (l.busy g slot = true →
        ∃ t, exec (.kvsTrigger offset) s = .next t ∧ countersMoved [(kvsReg h 0x128, 1)] s t ∧
          t.mgt.events = (s.event 0x3802).mgt.events ∧ t.kvs = s.kvs ∧ t.hbm = s.hbm) ∧
      (l.busy g slot = false → 32 ≤ l.flight.length ∨ l.pending ≠ [] →
        exec (.kvsTrigger offset) s = .next (s.modSelector h (fun l => { l with pending := l.pending ++ [(g, slot)] }))) ∧
      (l.busy g slot = false → l.flight.length < 32 → l.pending = [] →
        ∃ t r, exec (.kvsTrigger offset) s = .next t ∧ r.reg = g ∧ r.slot = slot ∧
          r.header = (s.hbmRead (g.frame * 2097152 + slot * 8192) 64 (s.hreq g.keySlot 0)).1.bytesOr 64 ∧
          t.selector h = { l with flight := l.flight ++ [r] } ∧ ∀ k, k ≠ h → t.selector k = s.selector k)) ∧
    (∀ (h : Nat) (x : KvsReg × Nat) (l : Selector),
      l = s.selector h → h < 8 → s.islandOn (224 + h) = true → l.flight.length < 32 → l.nextPending (fun g => decide (g.cls = 0)) = some x →
      ∃ t r, exec (.kvsCapture h) s = .next t ∧ r.reg = x.1 ∧ r.slot = x.2 ∧
        t.selector h = { l with pending := l.pending.erase x, flight := l.flight ++ [r] } ∧
        ∀ k, k ≠ h → t.selector k = s.selector k) ∧
    (∀ (h i p : Nat) (r : KvsReq) (l : Selector) (sl : Slice),
      l = s.selector h → h < 8 → s.islandOn (224 + h) = true → l.flight[i]? = some r → r.status = 0 → r.hostPages = [] → r.result ≠ [] → r.reg.ctx < 1024 →
      s.physIn r.reg.panel r.core = some p → s.coreInPanel r.reg.ctx r.core = true → sl = (s.core p).slice →
      s.netClear r.reg.port p r.reg.netCls = true → sl.resident = some (r.reg.ctx, r.reg.gen) → sl.secure = false → sl.rangeOn r.res r.result.length = true →
      ∃ t, exec (.kvsResultDeliver h i) s = .next t ∧
        (∀ a, (t.core p).slice.mem.read a =
          if q : r.res ≤ a ∧ a < r.res + r.result.length then r.result[a - r.res]'(by omega) else sl.mem.read a) ∧
        signalled { core := p, signal := true, signalCtr := BitVec.ofNat 8 (r.fld 28 1) } s t ∧
        (∀ q, q ≠ p → t.core q = s.core q) ∧
        t.selector h = { l with flight := l.flight.eraseIdx i } ∧ ∀ k, k ≠ h → t.selector k = s.selector k)

/-! ## 11: expert dispatch -/

/-- The dispatch phase (R280, R284, R288 to R291): a go write reads slots and gates, holds the module's own counts and sends them
to every other module of the domain as link messages on virtual channel 5; a later one is ignored with an event. A peer's counts are
held; with all of them capacity is assigned, which admits no row at or above an instance's cap, none twice, none to a peer that
failed the job, and leaves no assignment out. A peer whose counts are under another placement version, or do not come in time, fails
the job here: it directs no row, the sequences receive the status, and it is reported. -/
def Obligations.EduDispatchPhase : Prop :=
  ∀ (s : State) (i : Nat) (j : EduJob),
    s.edu.jobs[i]? = some j → s.eduOn j.die = true → (∀ x ∈ s.edu.jobs, x.phase ≠ .sending) →
    let own := s.walker.boardSlot
    let lost (t : State) (st : Half) (m : Nat) : Prop :=
      ∃ j', t.edu.jobs = s.edu.jobs.set i j' ∧ j'.phase = j.phase ∧ j'.failed = some st ∧ m ∈ j'.lost ∧
        Tab.find j'.counts m = some (List.replicate j.insts.length 0) ∧ t.edu.lastStatus = st ∧ t.edu.lastCtx = j.ctx ∧
        t.edu.lastLayer = j.layer ∧ t.edu.lastHalf = j.die ∧ t.edu.lastValid = true ∧ ∃ e ∈ t.mgt.events, e.code = 0x4001
    (∀ offset bs s1 g s2,
      s.jobAt false offset = some (j, i) → s.wordSet offset = true → j.phase = .waitGo → j.failed = none →
      s.readBy .other j.ctx (j.b 150 6) (2 * j.n) = (.data bs, s1) →
      let j1 := { j with phase := .counting, slots := (List.range j.n).map (fun t => fieldAt bs (2 * t) 2) }
      s1.eduGate j1 = (g, s2) → g.status = 0 → g.poison = [] →
      let j2 := { j1 with gate := g.gate }
      let cs := j2.ownCounts own
      let payload := cs.flatMap (fun c => leBytes 4 c)
      ∃ t, exec (.eduGoWrite offset) s = .next t ∧
        t.edu.jobs = s.edu.jobs.set i { j2 with counts := Tab.set j.counts own cs } ∧
        ∀ m ∈ j.domain, m ≠ own → ∃ h : MsgHdr, h.dest = s.moduleAt m ∧ h.vc = 5 ∧ h.kind = 6 ∧
          (let data := (eduHdrBytes (s2.eduHdr j2 1 0 0 0 0 false 0 (4 * cs.length)) ++ payload).take 4096
           Out.message 5 h data ∈ t.out ∨ ∃ x ∈ t.lnk.backlog, x.hdr = h ∧ x.data = data)) ∧
    (∀ offset, s.jobAt false offset = some (j, i) → s.wordSet offset = true → j.phase ≠ .waitGo →
      exec (.eduGoWrite offset) s = .next (s.event 0x4003)) ∧
    (∀ h counts, s.jobOf h = some (j, i) → (j.phase = .waitGo ∨ j.phase = .counting) → j.lost.contains h.slot = false →
      Tab.find j.counts h.slot = none →
      (h.version = plVersion j.tableBytes → counts.length = j.insts.length → h.bytes = 4 * counts.length →
        ∃ t, exec (.eduCountMsg h counts) s = .next t ∧
          t.edu.jobs = s.edu.jobs.set i { j with counts := Tab.set j.counts h.slot counts } ∧ t = { s with edu := t.edu }) ∧
      (h.version ≠ plVersion j.tableBytes → ∃ t, exec (.eduCountMsg h counts) s = .next t ∧ lost t 0x901 h.slot)) ∧
    (j.phase = .counting → (∀ m ∈ j.domain, (Tab.find j.counts m).isSome = true) →
      let a := j.assign own
      exec (.eduCapacityAssign j.die i) s =
        .next ((((s.modJob i (fun _ => a)).eduRefusals a).eduReceive i).eduPump) ∧
      (j.admitted = [] → j.refused = [] →
        (∀ x ∈ a.admitted, x.2.2.2 < (j.insts[x.2.2.1]?.map Instance.cap).getD 0 ∧
          j.lost.contains ((j.insts[x.2.2.1]?.map Instance.slot).getD 0) = false) ∧
        a.admitted.Pairwise (fun x y => ¬(x.2.2.1 = y.2.2.1 ∧ x.2.2.2 = y.2.2.2)) ∧
        ∀ g ∈ j.gate, g.2.1 < j.k →
          (∃ x ∈ a.admitted, x.1 = g.1 ∧ x.2.1 = g.2.1) ∨ (g.1, g.2.1) ∈ a.refused)) ∧
    (j.phase = .counting → (∃ m ∈ j.domain, Tab.find j.counts m = none) →
      ∃ t, exec (.eduCountTimeout j.die i) s = .next t ∧
        ∀ m ∈ j.domain, Tab.find j.counts m = none → lost t 0x902 m)

/-- The rows of a dispatch (R286, R288, R289, R291): a row of a message is written and counts as received, and the last one raises
recv_ctr, whether or not the job's own rows have been sent; a return write that comes before waits, and one after it starts the
return phase; a returned row is written and counts for its token. Rows that do not come in time are taken as zeroed and recv_ctr
rises. A message of no job is dropped. No send of another half is due meanwhile, which a message may let go (R289). PLACEMENT_REVISION (R290): the group headframe arms a tally, and once that has been taken it
sends the new table to every module of the domain. -/
def Obligations.EduRowsAndPlacement : Prop :=
  (∀ (s : State) (i : Nat) (j : EduJob), s.edu.jobs[i]? = some j → s.eduOn j.die = true → j.phase ≠ .done → j.failed = none →
    (∀ x ∈ s.edu.jobs, s.mayEduSend x = false) →
    let own := s.walker.boardSlot
    (∀ h row, s.jobOf h = some (j, i) → j.recvRaised = false → j.rowOk own h.slot h.inst h.row = true →
      j.lost.contains h.slot = false → j.received.contains (h.inst, h.row) = false →
      row.length = eduRow (s.hidden j) (j.b 132 1) → h.bytes = row.length →
      let base := ((j.insts[h.inst]?.map Instance.loc).getD 0) * j.b 186 4
      let a := s.writeBy .other j.ctx (j.b 168 6 + base + h.row * up64 (eduRow (s.hidden j) (j.b 132 1))) row
      let b := a.2.writeBy .other j.ctx (j.b 180 6 + base + 64 + 8 * h.row) (eduTag h.slot h.token h.rank)
      a.1 = true → b.1 = true →
      let j1 := { j with received := j.received ++ [(h.inst, h.row)] }
      let ready := j.phase = .sending ∨ j.phase = .waitReturn ∨ j.phase = .returning
      (¬ ready ∨ j1.allIn own = false →
        ∃ t, exec (.eduDispatchMsg h row) s = .next t ∧ t.edu.jobs = s.edu.jobs.set i j1 ∧ t.hbm = b.2.hbm ∧
          t.cores = s.cores) ∧
      (∀ p, ready → j1.allIn own = true → j.returnHeld = false → s.physIn j.panel (j.b 192 1) = some p →
        ∃ t j', exec (.eduDispatchMsg h row) s = .next t ∧ t.edu.jobs[i]? = some j' ∧ j'.recvRaised = true ∧
          (j'.failed = none → t.edu.jobs = s.edu.jobs.set i { j1 with recvRaised := true } ∧
            signalled { core := p, signal := true, signalCtr := BitVec.ofNat 8 (j.b 193 1) } s t))) ∧
    (∀ offset, s.jobAt true offset = some (j, i) → s.wordSet offset = true → j.back = false → j.returnHeld = false →
      (j.recvRaised = false → ∃ t, exec (.eduReturnWrite offset) s = .next t ∧
        t.edu.jobs = s.edu.jobs.set i { j with returnHeld := true } ∧ t = { s with edu := t.edu }) ∧
      (j.recvRaised = true → ∃ t j', exec (.eduReturnWrite offset) s = .next t ∧ t.edu.jobs[i]? = some j' ∧ j'.back = true)) ∧
    (∀ h row y, s.jobOf h = some (j, i) → h.zeroed = false → h.poison = false → row.length = eduRow (s.hidden j) (j.b 133 1) →
      h.bytes = row.length → j.returned.contains (y.1, y.2.1) = false →
      j.admitted.find? (fun y => decide (y.2.2.1 = h.inst ∧ y.2.2.2 = h.row) &&
        (h.zeroed || decide (y.1 = h.token ∧ y.2.1 = h.rank))) = some y →
      let a := s.writeBy .other j.ctx
        (j.b 156 6 + (y.1 * j.k + y.2.1) * up64 (eduRow (s.hidden j) (j.b 133 1))) row
      a.1 = true →
      let back := j.returned ++ [(y.1, y.2.1)]
      (∃ t j', exec (.eduReturnMsg h row) s = .next t ∧ t.edu.jobs[i]? = some j' ∧ j'.returned = back) ∧
      ((∃ z ∈ j.admitted, z.1 = y.1 ∧ (z.1, z.2.1) ∉ back) →
        ∃ t, exec (.eduReturnMsg h row) s = .next t ∧ t.edu.jobs = s.edu.jobs.set i { j with returned := back } ∧
          t.hbm = a.2.hbm ∧ t.cores = s.cores)) ∧
    (j.phase = .sending ∨ j.phase = .waitReturn ∨ j.phase = .returning → j.recvRaised = false → j.allIn own = false →
      j.returnHeld = false →
      ∃ t j', exec (.eduRecvTimeout j.die i) s = .next t ∧ t.edu.jobs[i]? = some j' ∧ j'.recvRaised = true ∧
        j'.zeroed ≠ [] ∧ (∀ x ∈ j'.zeroed, x ∉ j.received) ∧
        (j'.failed = none → j'.allIn own = true ∧ j'.received = j.received ++ j'.zeroed ∧ t.edu.lastStatus = 0x902 ∧
          t.edu.lastCtx = j.ctx))) ∧
  (∀ (s : State) (h : EduHdr) (row : List Byte) (counts : List Nat), s.eduOn h.half = true → s.jobOf h = none →
    exec (.eduCountMsg h counts) s = .next (s.eduDrop (h.half % 2) h.ctx.toNat) ∧
    exec (.eduDispatchMsg h row) s = .next (s.eduDrop (h.half % 2) h.ctx.toNat) ∧
    exec (.eduReturnMsg h row) s = .next (s.eduDrop (h.half % 2) h.ctx.toNat)) ∧
  ∀ (s : State) (ctx : Nat) (table : List Byte),
    let tb := s.revised ctx table
    let others := (onesOf (plMask tb) 8).filter (fun m => decide (m ≠ s.walker.boardSlot))
    s.mgt.group.head = true → s.mgt.state = .ready → plOk tb = true → (s.ctx ctx).bound = true →
    (s.edu.revTally = none → s.revisedLately ctx = false → s.mgt.tallyPending = false →
      ∃ t, exec (.placementRevision ctx table) s = .next t ∧ t.mgt.tallyPending = true ∧
        t.mgt.armTime = BitVec.ofNat 64 (s.time + 10000) ∧ t.mgt.armNumber = s.mgt.tallyLast + 1 ∧
        t.edu = { s.edu with revTally := some (ctx, s.mgt.tallyLast + 1) } ∧
        t.out = s.out ++ others.map (fun m =>
          Out.command m 0x020B (leBytes 8 (s.time + 10000) ++ leBytes 2 (s.mgt.tallyLast + 1).toNat))) ∧
    (s.edu.revTally = some (ctx, s.mgt.tallyLast) → s.mgt.tallyPending = false →
      ∃ t, exec (.placementRevision ctx table) s = .next t ∧
        t.out = s.out ++ others.map (fun m => Out.command m 0x0216 (leBytes 2 ctx ++ tb)) ∧
        t.edu = { s.edu with
          revTally := none, loadPrev := s.loadShadows, loadDelta := s.loadDelta, revisions := Tab.set s.edu.revisions ctx (s.time, tb),
          pending := if bitAt (plMask tb) s.walker.boardSlot then [(ctx, tb)] else s.edu.pending } ∧
        t = { s with edu := t.edu, out := t.out })

/-! ## 12, 13: steps and panels -/

/-- How a step starts (R309, R331, R332, R349, 03 R89): STEP_RUN ends with its status when its keys, parameters, cores or tables fail,
and otherwise joins its panel's queue with the entries read at its start, and no state of its context changes. A step that passes point
4 takes its placement table and drops slots that are not eligible from the moved set, and its moved sequences are marked as those of its
fallback.
PANEL_RESET clears the slices, the translations and the marks of the panel's cores, pairs them as the entry says and lets the others go;
STEP_HANDOFF takes the next step that is granted, on a panel that is awake, or restores one that was switched out on the cores that hold its logical ids now, and a core that it
starts runs at its entry address with fresh registers, queues, array, vector engine and stream unit, and with the values that the
step captured. -/
def Obligations.StepsStart : Prop :=
  (∀ (s : State) (fn w k c : Nat) (p p1 : Packet),
    k = winKey fn w → (s.window k).stepPkt = some p → (s.window k).ctx = some c → p.opcode = 0x0101 →
    s.cmdMem (some (s.ctx c).f.panel.toNat) = true →
    s.hasStep k = false → (s.ctx c).recovering = false → p1 = { p with start := s.clk.now } →
    let table := s.stepTable c p.params
    let pn := (s.ctx c).f.panel.toNat
    (s.keysOk c p.params table = false → exec (.stepRun fn w) s = .next (s.endPacket k false p1 5)) ∧
    (s.keysOk c p.params table = true → s.point2 p.params c ≠ 0 → s.point2 p.params c ≠ 0x1100 →
      exec (.stepRun fn w) s = .next (s.endPacket k false p1 (BitVec.ofNat 16 (s.point2 p.params c)))) ∧
    (s.keysOk c p.params table = true → s.point2 p.params c = 0x1100 →
      exec (.stepRun fn w) s = .next ((s.event 0x8006).endPacket k false p1 0x1100)) ∧
    (∀ r s1, s.keysOk c p.params table = true → s.point2 p.params c = 0 →
      (s.evalAdmission pn).point3 c p.params table = (r, s1) →
      (r.status ≠ 0 → exec (.stepRun fn w) s = .next (s1.endPacket k false p1 (BitVec.ofNat 16 r.status))) ∧
      (r.status = 0 → (s1.ctx c).f.panel = (s.ctx c).f.panel →
        let st0 : Step :=
          { window := k, ctx := c, cls := (s1.ctx c).f.cls.toNat, gen := (s1.ctx c).gen, tag := p.tag, irq := p.irq,
            params := p.params, seqs := r.seqs, parents := r.parents, blocks := r.blocks, start := s1.clk.now,
            doorbell := p.doorbell, keyGens := (ctxSlots (s1.ctx c).f).map (fun i => (i, (s1.slot i).gen)), hints := p.heavy,
            nextEvent := p.nextEvent, f := (s1.ctx c).f, entry := (s1.panel pn).entry, place := s1.stepTable c p.params,
            kv := r.kv, placeNew := decide ((s1.edu.takePending c (fieldAt p.params 84 4)).current ≠ s1.edu.current) }
        s1.grantFree pn = true → ∃ t, exec (.stepRun fn w) s = .next t ∧
          (t.panel pn).queue = (s1.panel pn).queue ++ [st0] ∧ t.cmd.ctxs = s1.cmd.ctxs ∧ t.edu = s1.edu ∧ t.out = s1.out))) ∧
  (∀ (s : State) (st : Step),
    let out := st.seqs.filter (fun q => q.eligible && decide (q.slot ∈ (s.ctx st.ctx).moved))
    let a := s.passPoint4 st
    (∀ i, i ∈ (a.2.ctx st.ctx).moved ↔
      i ∈ (s.ctx st.ctx).moved ∧ ∀ q ∈ st.seqs, q.slot = i → q.eligible = true) ∧
    (a.2.edu.current = if st.placeNew then [(st.ctx, st.place)] else s.edu.current) ∧
    (out = [] → a.1 = st ∧ a.2.out = (s.takePlacement st).out) ∧
    (out ≠ [] → (st.seqs.map SeqEntry.slot).Nodup → s.fallbackOf st.ctx (fallbackCtx st.params) = none →
      a.1 = st ∧ a.2.mgt.events = ((s.takePlacement st).event 0x6012).mgt.events) ∧
    (∀ fb, out ≠ [] → s.fallbackOf st.ctx (fallbackCtx st.params) = some fb → (st.seqs.map SeqEntry.slot).Nodup →
      (∀ q ∈ st.seqs, ∃ y ∈ a.1.seqs, y.slot = q.slot ∧ y.fallback = (q.fallback || decide (q ∈ out))) ∧
      (a.1.companion = some fb.1 ∨ ∀ q ∈ out, ∃ y ∈ a.1.seqs, y.slot = q.slot ∧ (y.status = 0x0802 ∨ y.status = 0x0A00)))) ∧
  (∀ (s : State) (k : Nat) (pn : Panel),
    pn = s.panel k → s.cmdIsland (some k) = true → pn.written = true → pn.running = none → s.resetDue k = true →
    s.takesRunning k = false →
    ∃ t, exec (.panelReset k) s = .next t ∧ (t.panel k).needsReset = false ∧ (t.panel k).resetFor = pn.next.map (fun st => st.f.model) ∧
      (∀ p, p ∈ t.panelCores k ↔ ∃ l, (l, p) ∈ pn.pairing) ∧
      (∀ p ∈ t.panelCores k, (∀ a, (t.core p).slice.mem.read a = 0) ∧ (t.core p).slice.bad = [] ∧ (t.core p).slice.weak = [] ∧
        (t.core p).slice.secure = (s.core p).slice.secure ∧ (t.core p).slice.resident = none ∧ (t.core p).tc.entries = [] ∧
        (t.core p).slice.tileOn = pn.entry.tileOn ∧ (t.core p).slice.tileRet = pn.entry.tileRet ∧
        ∃ l, (l, p) ∈ pn.pairing ∧ (t.core p).logical = l) ∧
      (∀ p ∈ s.panelCores k, p ∉ t.panelCores k → (t.core p).logical = 0xFF ∧ (t.core p).panel = none ∧
        ∀ i, i < 32 → (t.core p).slice.tile i = .off) ∧
      t.counter (panelReg k 0x78) = s.counter (panelReg k 0x78) + 1 ∧ t.hbm = s.hbm) ∧
  (∀ (s : State) (k : Nat) (st : Step) (pn : Panel), pn = s.panel k → s.cmdMem (some k) = true →
    (pn.running = none → pn.next = some st → st.granted = true → s.resetDue k = false → s.panelAwake k = true →
      (s.ctx st.ctx).recovering = false → s.canaryOn k = false →
      (pn.switched.find? (fun y => decide (y.step.window = st.window) && (y.step.isComp == st.isComp)) = none →
        (st.isComp = false → exec (.stepHandoff k) s = .next ((s.passPoint4 st).2.enterStep k (s.passPoint4 st).1)) ∧
        (st.isComp = true → exec (.stepHandoff k) s = .next (s.enterStep k st))) ∧
      (∀ sv, pn.switched.find? (fun y => decide (y.step.window = st.window) && (y.step.isComp == st.isComp)) = some sv →
        (sv.cores.map (s.coreNow k)).Nodup → (∀ v ∈ sv.cores, ∀ d ∈ v.str.slots, d.desc ≠ []) →
        ∃ t r, exec (.stepHandoff k) s = .next t ∧ (t.panel k).running = some r ∧ (t.panel k).state = .running ∧
          r.tag = sv.step.tag ∧ r.handed = sv.step.handed ∧ r.seqs = sv.step.seqs ∧
          r.switchedNs = sv.step.switchedNs + (s.time - sv.since) ∧
          ∀ v ∈ sv.cores, let c := t.core (s.coreNow k v)
            let old := s.core (s.coreNow k v)
            c.seq.pc = v.seq.pc ∧ c.seq.regs = v.seq.regs ∧ c.seq.loops = v.seq.loops ∧ c.seq.offsets = v.seq.offsets ∧
            c.seq.faultCode = old.seq.faultCode ∧ c.mx.acc = v.mx.acc ∧ c.mx.live = v.mx.live ∧ c.mx.maps = v.mx.maps ∧
            c.vx.descs = v.vx.descs ∧ c.vx.unit = v.vx.unit ∧ c.str.viol = old.str.viol ∧ c.ctx = sv.step.ctx)) ∧
    (pn.running = some st → st.prepared = true → st.handed = 0 → s.inputWaits st = false →
      (s.panelCores k).all (fun p => (s.core p).slice.tilesReached && s.clocked p) = true →
      exec (.stepHandoff k) s = .next (s.finishHandoff k st))) ∧
  ∀ (s : State) (p b i entry : Nat) (st : Step) (cores : List (Nat × Nat × Nat × Nat)) (c : Core),
    st.isComp = false → c = (s.startCore st cores (p, b, i, entry)).core p →
    c.seq.state = .running ∧ c.seq.pc = entry ∧ c.seq.loops = [] ∧ (∀ e, c.seq.queue e = []) ∧ (∀ o, c.seq.offset o = 0) ∧
    c.seq.trail = c.seq.asTrailing ∧
    c.seq.reg 0 = 0 ∧ c.seq.reg 1 = BitVec.ofNat 32 (bucketList st.params b) ∧
    c.seq.reg 2 = BitVec.ofNat 32 (bucketList st.params b / 2 ^ 32 % 65536 + b % 256 * 65536 + i % 256 * 2 ^ 24) ∧
    c.seq.reg 3 = BitVec.ofNat 32 (st.bucketSeqs b).length ∧
    c.seq.reg 4 = BitVec.ofNat 32 (cores.filter (fun y => decide (y.2.1 = b))).length ∧
    c.seq.reg 5 = BitVec.ofNat 32 (fieldAt st.params 48 8) ∧ c.seq.reg 6 = BitVec.ofNat 32 (fieldAt st.params 48 8 / 2 ^ 32 % 65536) ∧
    c.seq.reg 7 = BitVec.ofNat 32 (fieldAt st.params 84 4) ∧
    c.seq.reg 8 = BitVec.ofNat 32 (fieldAt st.params 12 4) ∧ (∀ r : BitVec 5, 9 ≤ r.toNat → c.seq.reg r = 0) ∧
    c.mx.plane0.state = .empty ∧ c.mx.plane1.state = .empty ∧ c.mx.live = [] ∧ c.mx.active = [] ∧
    (∀ r, c.mx.accRow r = List.replicate 128 0) ∧ c.vx.unit = [] ∧ c.vx.flags = 0 ∧ c.str.slots = [] ∧
    c.ctx = st.ctx ∧ c.gen = st.gen ∧ c.rcPolicy = st.f.rcPolicy.toNat ∧ c.root = st.f.root.toNat ∧ c.tenant = st.f.tenant.toNat ∧
    c.setMask = st.entry.setMask ∧ c.wayMask = st.entry.wayMask ∧ c.slice = (s.core p).slice ∧
    (∀ q, q ≠ p → (s.startCore st cores (p, b, i, entry)).core q = s.core q) ∧
    (∀ a, Tab.get 0 (c.slice.handoff st.ctx c.gen st.f.secure).arrival a = 0) ∧
    (c.slice.handoff st.ctx c.gen st.f.secure).secure = st.f.secure ∧
    (c.slice.handoff st.ctx c.gen st.f.secure).resident = some (st.ctx, c.gen)

/-- How a step ends or leaves its panel (R311 to R313, R333, R334, R347, R348, 16 R416): STEP_COMPLETE frees the panel and writes one
record of the step's tag, or runs the step once more after a range-check violation; DEADLINE_CHECKPOINT counts the checkpoint
and, on the first predicted overrun, moves the eligible sequences; DEADLINE_GRANT_WITHDRAW ends a step that still waits for
its grant with ST_NO_GRANT; PREEMPT_SWITCH saves the running step's cores, of
which it writes nothing outside the save area, queues the step again and frees the panel. -/
def Obligations.StepsEnd : Prop :=
  ∀ (s : State) (k : Nat) (st : Step), s.cmdIsland (some k) = true →
    (s.memFree = true → (s.panel k).running = some st → st.handed ≠ 0 → s.allHalted st = true → s.reqsOpen st.ctx = false → s.eduOpen st.ctx = false →
      s.transfersOpen st.ctx = false → st.companion = none → s.asleep st.window = false → (s.ctx st.ctx).recovering = false →
      (s.ctx st.ctx).claimOpen = false → (s.ctx st.ctx).claimed = false →
      (st.isComp = false → s.violators st = [] → (s.window st.window).canStart = true →
        ∃ t, ∃ r : Record, exec (.stepComplete k) s = .next t ∧ (t.panel k).running = none ∧ (t.panel k).state = .idle ∧
          Out.hostBytes (s.window st.window).cqAddr (r.bytes (s.window st.window).phase) ∈ t.out ∧ r.tag = st.tag ∧
          r.ctx = st.ctx ∧ r.start = st.start ∧ r.service = false ∧ (t.window st.window).stepPkt = none ∧
          (∀ j ∈ t.edu.jobs, j.ctx ≠ st.ctx)) ∧
      (st.isComp = true → s.violators st = [] ∨ st.mayRerun = false → ∃ t, exec (.stepComplete k) s = .next t ∧ (t.panel k).running = none ∧ (t.panel k).state = .idle ∧
        (t.window st.window).stepPkt = (s.window st.window).stepPkt) ∧
      (s.violators st ≠ [] → st.f.rcPolicy = 2 → st.rerun = false → st.posted = false → st.isComp = true ∨ nDisp st.params = 0 →
        exec (.stepComplete k) s = .next (s.rerunStep k st (s.violators st)))) ∧
    ((s.panel k).running = some st → st.handed ≠ 0 → st.isComp = false → s.checkpointDue st = true →
      (st.overrun = true ∨ s.predictsOverrun st = false →
        ∃ t, exec (.deadlineCheckpoint k) s = .next t ∧ (t.panel k).running = some { st with checkpoints := st.checkpoints + 1 } ∧
          t = { s with cmd := t.cmd }) ∧
      (st.overrun = false → s.predictsOverrun st = true → (s.ctx st.ctx).moved.length + st.seqs.length ≤ 4096 →
        ∃ t r, exec (.deadlineCheckpoint k) s = .next t ∧ (t.panel k).running = some r ∧ r.overrun = true ∧
          r.checkpoints = st.checkpoints + 1 ∧
          (∀ q ∈ st.seqs, q.eligible = true → q.fallback = false → q.slot ∈ (t.ctx st.ctx).moved) ∧
          ∀ i ∈ (s.ctx st.ctx).moved, i ∈ (t.ctx st.ctx).moved)) ∧
    (∀ c, s.waitingStep c = some (k, st) → st.isComp = false → deadlineNs st.params ≠ 0 → deadlineNs st.params ≤ s.time →
      (s.window st.window).canStart = true → s.asleep st.window = false →
      ∃ t, ∃ r : Record, exec (.deadlineGrantWithdraw c) s = .next t ∧
        Out.hostBytes (s.window st.window).cqAddr (r.bytes (s.window st.window).phase) ∈ t.out ∧ r.tag = st.tag ∧
        r.status = 0xA ∧ (t.window st.window).stepPkt = none ∧ st ∉ (t.panel k).queue ∧ t.hbm = s.hbm) ∧
    (∀ q, s.memFree = true → s.preemptor k = some (st, q) → s.switchReady k st.ctx = true → (s.ctx st.ctx).recovering = false →
      (s.ctx st.ctx).claimOpen = false → (s.ctx st.ctx).claimed = false →
      ∃ t r, exec (.preemptSwitch k) s = .next t ∧ r = st.addBusy (s.busySums k) ∧
        (t.panel k).running = none ∧ (t.panel k).state = .idle ∧ (t.panel k).queue = (s.panel k).queue ++ [r] ∧
        (t.panel k).switched = (s.panel k).switched.map (fun y => { y with paid := y.paid ||
          (decide (y.step.window = q.window) && (y.step.isComp == q.isComp)) }) ++
          [{ step := r, since := s.time, cores := (s.panelCores k).map (fun p => (s.core p).save p) }] ∧
        (∀ p, p ∉ s.panelCores k → t.core p = s.core p) ∧
        (∀ p ∈ s.panelCores k, (t.core p).seq.state = .idle ∧ (t.core p).slice.mem = (s.core p).slice.mem) ∧
        t.counter (panelReg k 0x48) = s.counter (panelReg k 0x48) + 1 ∧
        (s.ownHbm st.f.saveArea.toNat = none → t.hbm = s.hbm) ∧
        (∀ base a, s.ownHbm st.f.saveArea.toNat = some base → base % 64 = 0 → s.hbm.bad = [] →
          a < base ∨ base + 2048 * (s.panelCores k).length ≤ a → t.hbm.mem.read a = s.hbm.mem.read a))

/-- Class-0 admission and shaping (R339 to R341): an admitted panel of which a condition fails is admitted no more, which is
counted and reported; one whose conditions all hold again is admitted. A bucket fills at env_rate up to env_burst. A put of an
admitted panel waits while its bucket lacks its payload and takes it when it leaves; one above env_pkt goes in the bulk channel. The
release of a packet that waits sends what may leave and counts its wait. The end of the declared window lets the row test go on. -/
def Obligations.ClassZeroAdmission : Prop :=
  ∀ (s : State) (k : Nat) (pn : Panel), pn = s.panel k → s.cmdIsland (some k) = true →
    (pn.admitted = true → s.c0Holds k = false →
      ∃ t, exec (.c0AdmissionLapse k) s = .next t ∧ (t.panel k).admitted = false ∧ (t.panel k).lapse = true ∧
        countersMoved [(panelReg k 0x58, 1)] s t ∧ t.mgt.events = (s.event 0x6010).mgt.events ∧ t.cores = s.cores ∧
        ∀ j, j ≠ k → t.panel j = s.panel j) ∧
    (pn.admitted = false → s.c0Holds k = true →
      ∃ t, exec (.c0AdmissionReturn k) s = .next t ∧ (t.panel k).admitted = true ∧ (t.panel k).lapse = pn.lapse ∧
        (∀ j, j ≠ k → t.panel j = s.panel j) ∧ t = { s with cmd := t.cmd }) ∧
    (∀ (rsp : Bool) (payload waited : Nat), pn.admitted = true →
      let side := if rsp then 1 else 0
      let full := ((s.entryNow k).envBurst.getD side 0).toNat * 64000
      let fill := (s.time - pn.bucketTime) * ((s.entryNow k).envRate.getD side 0).toNat * 64
      let now := s.tokens k side
      now = min full ((if rsp then pn.bucketRsp else pn.bucketReq) + fill) ∧
      (payload ∈ s.shaperQueue k side → payload * 1000 ≤ now →
        exec (.shaperRelease k rsp payload waited) s = .next (((s.namedWait k side payload).pumpBacklog.eduPump.pumpTransfers).count (panelReg k 0x60) waited)) ∧
      (payload ∉ s.shaperQueue k side ∨ now < payload * 1000 → exec (.shaperRelease k rsp payload waited) s = .next s) ∧
      (∀ (h : MsgHdr) (data : List Byte) (owner : Option (Nat × Nat)) (p : Path),
        s.panelNow h.srcCtx.toNat = k → h.vc = side → h.kind = (if rsp then 3 else 1) →
        s.route h.dest (s.msgTable h) (s.msgLevel h) (Tab.get {} s.lnk.tx (streamKey h.dest h.vc)).nextSeq.toNat = some p →
        (now < data.length * 1000 → s.sendMsg h data owner = (.wait, s)) ∧
        ((s.sendMsg h data owner).1 = .sent →
          let t := (s.sendMsg h data owner).2
          (if rsp then (t.panel k).bucketRsp else (t.panel k).bucketReq) = now - data.length * 1000 ∧
          (t.panel k).bucketTime = s.time ∧ ∀ j, j ≠ k → t.panel j = s.panel j))) ∧
    (∀ (x : Transfer) (i : Nat), x.panel = k → x.flag 3 = true →
      s.postVc x i = if pn.admitted = false then (2, false)
        else if ((s.entryNow k).envPkt.toNat + 1) * 64 < x.piece i then (2, true) else (0, false)) ∧
    (∀ st, pn.running = some st → pn.windowOpen = true → fieldAt st.params 96 4 ≠ 0 →
      st.start.toNat + 1000 * fieldAt st.params 96 4 ≤ s.time →
      ∃ t, exec (.declaredWindowEnd k) s = .next t ∧ (t.panel k).windowOpen = false ∧
        (∀ p ∈ s.panelCores k, (t.core p).slice = { (s.core p).slice with testSuspended := false }) ∧
        (∀ p, p ∉ s.panelCores k → t.core p = s.core p) ∧ t = { s with cores := t.cores, cmd := t.cmd })

/-! ## 15: power -/

/-- The governor (R383 to R385, R392, R394, R410): a PF write of the band or the mode takes legal values and refuses others with an
event, and one under the lock freezes the PF; a floor that rises by more than the allowance asks for a grant. A tick takes the readings, applies the thermal rules and the hold of every array,
exempts the cores of an admitted panel, caps the draw at what 34 A
are at the input voltage, which it reports (19 R501), and counts the module's energy in mJ; in boot and HOLD it takes the readings and the
thermal rules alone (18 R471). -/
def Obligations.GovernorTicksAndBand : Prop :=
  ∀ (s : State),
    (∀ v : W32, s.barOpen 0 = true → s.hostWaits = false → s.runsFree 244 = true →
      let cap := bits v.toNat 10 0
      let floor := bits v.toNat 21 11
      let ramp := bits v.toNat 28 22
      (s.locked 1 = true → ∃ t, exec (.govBandWrite v) s = .next t ∧ t.gov = s.gov ∧ t.mgt.lockedOffset = govReg 0 ∧
        t.mgt.lockedValid = true ∧ t.hif.frozen = s.hif.frozen ++ [0]) ∧
      (s.locked 1 = false → s.bandOk cap floor ramp = true →
        (∃ t, exec (.govBandWrite v) s = .next t ∧ t.gov.cap = cap ∧ t.gov.floor = floor ∧ t.gov.ramp = ramp ∧
          t.gov.draw = s.gov.draw ∧ t.gov.order = s.gov.order ∧ t.gov.learned = s.gov.learned ∧ t.gov.limits = s.gov.limits ∧
          t = { s with gov := t.gov, out := t.out }) ∧
        (s.gov.waiting = [] →
          (floor ≤ max s.gov.draw s.gov.floor ∨ s.gov.authority = 0 ∨ s.gov.authority = 3 → exec (.govBandWrite v) s =
            .next { s with gov := { s.gov with cap := cap, floor := floor, ramp := ramp } }) ∧
          (s.gov.pendingW = 0 → s.gov.authority ≠ 0 → s.gov.authority ≠ 3 →
            let w := floor - max s.gov.draw s.gov.floor - s.allowance
            0 < w → ∃ t, exec (.govBandWrite v) s = .next t ∧ t.gov.waiting = [(floorKey, w)] ∧ t.gov.pendingW = w ∧
              t.gov.floor = floor ∧ t.gov.floorNow = floor - w ∧
              t.out = s.out ++ [.grantRequest (s.gov.requestId + 1) w false]))) ∧
      (s.locked 1 = false → s.bandOk cap floor ramp = false → exec (.govBandWrite v) s = .next (s.event 0x6801)) ∧
      (s.locked 1 = false → (∀ d < 4, d ∈ orderCodes (bits v.toNat 9 2)) → exec (.govModeWrite v) s =
        .next { s with gov := { s.gov with learned := bitAt v.toNat 0, order := BitVec.ofNat 8 (bits v.toNat 9 2) } }) ∧
      (s.locked 1 = false → (∃ d < 4, d ∉ orderCodes (bits v.toNat 9 2)) →
        exec (.govModeWrite v) s = .next (s.event 0x6801))) ∧
    (∀ r : GovReading, s.islandOn 244 = true → s.mgt.state = .ready →
      ∃ t, exec (.governorTick r) s = .next t ∧ t.gov.draw = r.draw ∧ t.gov.exempt = r.exempt ∧ t.gov.deadW = r.dead ∧
        t.gov.junction = r.junction ∧
        t.gov.vinMv = r.vinMv ∧ t.gov.capNow = min (100 * s.gov.cap) (34 * r.vinMv / 10) ∧
        (34 * r.vinMv / 10 < 100 * s.gov.cap → bitAt t.gov.reasons.toNat 0 = true) ∧
        t.gov.cap = s.gov.cap ∧ t.gov.floor = s.gov.floor ∧ t.gov.ramp = s.gov.ramp ∧ t.gov.lastTick = s.time ∧
        t.gov.throttleL = s.gov.throttled r.junction ∧ t.gov.emergency = decide (100 < r.junction) ∧
        t.gov.thermalHold = (decide (105 ≤ r.junction) || (decide (100 ≤ r.junction) && s.gov.thermalHold)) ∧
        (∀ p ∈ Tab.keys s.cores, ∀ k, (s.core p).panel = some k →
          (t.gov.thermalHold = true → (Tab.get {} t.gov.limits p).hold = true ∧ (Tab.get {} t.gov.limits p).f = 0) ∧
          (t.gov.thermalHold = false → (t.panel k).admitted = true → Tab.get {} t.gov.limits p = {})) ∧
        t.counter (govReg 0x128) = s.counter (govReg 0x128) + BitVec.ofNat 64 ((s.gov.energyAcc + r.draw) / 100) ∧
        t.hbm = s.hbm) ∧
    (∀ r : GovReading, s.islandOn 244 = true → s.mgt.state ≠ .ready →
      ∃ t, exec (.governorTick r) s = .next t ∧ t.gov.draw = r.draw ∧ t.gov.deadW = r.dead ∧ t.gov.junction = r.junction ∧
        t.gov.vinMv = r.vinMv ∧ t.gov.lastTick = s.time ∧ t.gov.throttleL = s.gov.throttled r.junction ∧
        t.gov.emergency = decide (100 < r.junction) ∧
        t.counter (govReg 0x128) = s.counter (govReg 0x128) + BitVec.ofNat 64 ((s.gov.energyAcc + r.draw) / 100) ∧
        t.gov.limits = s.gov.limits ∧ t.gov.reasons = s.gov.reasons ∧ t.cores = s.cores ∧ t.hbm = s.hbm)

/-- Cage grants and pre-ramps (R390, R399, R400): a grant ends the wait of the oldest need and the next need's request goes out; a
late one is asked of the standby headframe; a grant that is not taken up lapses, and its steps wait again; a pre-ramp whose
phase does not start ends with its need of a grant, and where its request was out the next need's goes out. -/
def Obligations.CageGrants : Prop :=
  ∀ (s : State), s.islandOn 244 = true →
    (∀ key w rest watts us, s.gov.pendingW ≠ 0 → s.gov.waiting = (key, w) :: rest →
      ∃ t, exec (.cageGrantRx s.gov.requestId watts us) s = .next t ∧ t.gov.grantW = watts ∧
        t.gov.grantUntil = s.time + us * 1000 ∧ t.gov.waiting = rest ∧ countersMoved [(govReg 0x140, 1)] s t ∧
        (∀ k, ∀ st ∈ (t.panel k).queue, st.needKey = key → st.granted = true) ∧
        (rest = [] → t.gov.pendingW = 0 ∧ t.out = s.out) ∧
        (∀ x, rest.head? = some x → t.gov.pendingW = x.2 ∧ t.gov.requestId = s.gov.requestId + 1 ∧
          t.out = s.out ++ [.grantRequest (s.gov.requestId + 1) x.2 false])) ∧
    (s.gov.pendingW ≠ 0 → s.gov.requestTime + 10000000 ≤ s.time →
      ∃ t, exec .grantLate s = .next t ∧ t.out = s.out ++ [.grantRequest s.gov.requestId s.gov.pendingW true] ∧
        t.gov = { s.gov with requestTime := s.time } ∧ t.mgt.events = (s.event 0x6808).mgt.events) ∧
    (s.gov.grantW ≠ 0 → s.gov.grantUntil ≤ s.time →
      ∃ t, exec .grantValidExpiry s = .next t ∧ t.gov.grantW = 0 ∧
        (∀ k, ∀ st ∈ (t.panel k).queue, st.granted = true → st.needW = 0 ∨ st.prepared = true) ∧
        (∀ k, (t.panel k).running = (s.panel k).running) ∧ t.cores = s.cores) ∧
    (∀ k h, s.lastHint k = some h → (Tab.find s.gov.preRamp k).isSome = true → Tab.find s.gov.phaseOn k = none →
      (∀ r, h.run = some r → r.start + 1000000 ≤ s.time) → (h.run = none → h.posted + 1000000 ≤ s.time) →
      ∃ t, exec (.preRampFallback k) s = .next t ∧ Tab.find t.gov.preRamp k = none ∧
        (∀ j, j ≠ k → Tab.find t.gov.preRamp j = Tab.find s.gov.preRamp j) ∧
        t.gov.waiting = s.gov.waiting.filter (fun x => decide (x.1 ≠ 0x10000 + k)) ∧
        (s.gov.waiting.head?.map Prod.fst = some (0x10000 + k) → ∀ x, t.gov.waiting.head? = some x → t.gov.pendingW = x.2 ∧
          t.out = s.out ++ [.grantRequest (s.gov.requestId + 1) x.2 false]) ∧
        (s.gov.waiting.head?.map Prod.fst ≠ some (0x10000 + k) → s.gov.pendingW ≠ 0 → t.out = s.out) ∧
        t = { s with gov := t.gov, out := t.out })

/-- Power states and clocks (01 R29, R30; 06 R169; 15 R401, R402, R405, R410): a core reaches the state that is asked for; in C2 its
tiles that were on, or on their way to on, are in retention, the former with their contents, and in C3 every tile is off and holds +0. The module waits for its cores, and M-PARK leaves no line in
the cache. An island holds its clock, reported by an event, and resumes, whereupon the
packets that its handshake FIFO held have gone on; the islands power up group by group, and without a chain
address the module is then in HOLD. A thermal trip takes the dies' power and keeps flash, fuses and the event log. -/
def Obligations.PowerStatesAndClocks : Prop :=
  ∀ (s : State), s.pins.dieOn = true →
    (∀ p k n, s.clocked p = true → (s.core p).panel = some k → (s.core p).cTarget = some n → n ≤ 3 →
      (∀ st, (s.panel k).running = some st → st.handed = 0) → (s.core p).cState ≠ 3 ∨ s.mayLeaveC3 p = true →
      ∃ t, exec (.corePowerStateReached p) s = .next t ∧ (t.core p).cState = n ∧ (t.core p).cTarget = none ∧
        (t.core p).seq = (s.core p).seq ∧ (∀ q, q ≠ p → t.core q = s.core q) ∧
        (n = 2 → (s.core p).cState ≤ 1 →
          (∀ i < 32, (t.core p).slice.tile i =
            if ((s.core p).slice.tile i).turnsOn then .retention else (s.core p).slice.tile i) ∧
          ∀ a, (s.core p).slice.tile (a / 65536) = .on → (t.core p).slice.mem.read a = (s.core p).slice.mem.read a) ∧
        ((s.core p).cState = 2 → n ≤ 1 → (t.core p).slice = (s.core p).slice.leaveC2) ∧
        ((s.core p).cState = 3 → n ≤ 1 → (t.core p).slice = (s.core p).slice.leaveC3) ∧
        (n = 3 → (t.panel k).slept = true ∧ (∀ a, (t.core p).slice.mem.read a = 0) ∧
          ∀ i < 32, (t.core p).slice.tile i = .off)) ∧
    (∀ m, s.islandOn 244 = true → s.gov.mTarget = some m → s.coresDeep m = false → exec .modulePowerStateReached s = .next s) ∧
    (∀ m, s.islandOn 244 = true → s.gov.mTarget = some m → s.coresDeep m = true →
      ∃ t, exec .modulePowerStateReached s = .next t ∧ t.gov = { s.gov with mState := m, mTarget := none } ∧
        (m = .park → ∀ l, Tab.find t.msc.lines l = none) ∧ (m ≠ .park → t.msc = s.msc) ∧ t.hbm = s.hbm ∧ t.cores = s.cores) ∧
    (∀ i, i < 256 → s.clk.held.contains i = false →
      ∃ t, exec (.clockHold i) s = .next t ∧ t.clk.held = s.clk.held ++ [i] ∧ t.mgt.events = (s.event 0x7001).mgt.events ∧
        t.cores = s.cores ∧ (i < 160 → t.clocked i = false)) ∧
    (∀ i, s.clk.held.contains i = true →
      ∃ t, exec (.clockResume i) s = .next t ∧ (∀ j, j ∈ t.clk.held ↔ j ∈ s.clk.held ∧ j ≠ i) ∧
        (s.netWaiting = 0 → t = { s with clk := t.clk }) ∧ (t.clocked i = true → t.fifo i = [])) ∧
    (s.mgt.bootStage = 4 → s.clk.groupsUp < 31 → exec .islandGroupPowerUp s =
      .next { s with clk := { s.clk with groupsUp := s.clk.groupsUp + 1 } }) ∧
    (s.mgt.bootStage = 4 → s.clk.groupsUp = 31 → s.mgt.chainAddr = none →
      ∃ t, exec .islandGroupPowerUp s = .next t ∧ t.clk.groupsUp = 32 ∧ t.mgt.state = .hold ∧ t.mgt.holdCause = 7) ∧
    (∃ t, exec .thermalTrip s = .next t ∧ t.pins.dieOn = false ∧ t.pins.pwrgd = false ∧ t.pins.standby = s.pins.standby ∧
      t.hbm.mem = [] ∧ (∀ p a, (t.core p).slice.mem.read a = 0) ∧ t.mgt.fwA = s.mgt.fwA ∧ t.mgt.fwB = s.mgt.fwB ∧
      t.mgt.config = s.mgt.config ∧ t.mgt.events = s.mgt.events ∧ t.sec.lifecycle = s.sec.lifecycle ∧
      t.sec.ownerHash = s.sec.ownerHash ∧ (∀ i, (t.slot i).material = 0))

/-! ## 16: reliability, recovery -/

/-- Freeze records, claims and watchdogs (R419 to R421): a PF write discards the oldest record; a window that ends unclaimed, and a
PF write, ask for the context's recovery; a claim within the window takes it, whereupon its running step is recorded, and one without a window is only reported; a
watchdog that expires stops every core of its panel and posts its record. -/
def Obligations.ClaimsAndWatchdogs : Prop :=
  ∀ (s : State),
    let asks (t : State) (c : Nat) (code : Half) : Prop :=
      (t.ctx c).recovering = true ∧ (t.ctx c).claimOpen = false ∧ (∀ i, i ≠ c → t.ctx i = s.ctx i) ∧
        (∃ r, t.rel.queued = s.rel.queued ++ [r] ∧ r.ctx = c ∧ r.code = code) ∧ t.cores = s.cores
    (∀ v : W32, s.barOpen 0 = true → s.hostWaits = false → s.runsFree 250 = true → bitAt v.toNat 0 = true → ∀ r rest, s.rel.frozen = r :: rest →
      exec (.relFrzPop v) s = .next { s with rel := { s.rel with frozen := rest, overflowRaised := false } }) ∧
    (∀ c, s.islandOn 251 = true → (s.ctx c).claimOpen = true → (s.ctx c).bound = true → (s.ctx c).recovering = false →
      ∃ t, exec (.claimWindowExpiry c) s = .next t ∧ asks t c (s.ctx c).claimCode) ∧
    (∀ v : W32, s.barOpen 0 = true → s.hostWaits = false → s.runsFree 251 = true → bitAt v.toNat 10 = true →
      let c := v.toNat % 1024
      ((s.ctx c).bound = true → (s.ctx c).recovering = false → (s.ctx c).claimed = false → (s.ctx c).claimOpen = false →
        ∃ t, exec (.rstRecover v) s = .next t ∧ asks t c 0) ∧
      ((s.ctx c).claimOpen = true → (s.ctx c).f.claimUs ≠ 0 →
        ∃ t, exec (.rstClaim v) s = .next t ∧ (t.ctx c).claimed = true ∧ (t.ctx c).claimOpen = false ∧
          t.counter (rstReg 0x110) = s.counter (rstReg 0x110) + 1 ∧ t.cores = s.cores ∧ t.rel = s.rel ∧
          ∀ k st, (s.panel k).running = some st → st.ctx = c → st.isComp = false →
            (t.panel k).running = some { st with recorded := true }) ∧
      ((s.ctx c).claimOpen = false → exec (.rstClaim v) s = .next (s.event 0x8812))) ∧
    ∀ (k : Nat) (st : Step), (s.panel k).running = some st → s.watched st = true → s.rel.frozen.length < 128 →
      let fires (t : State) (code : Nat) : Prop :=
        (∀ p ∈ s.panelCores k, (t.core p).seq.state = .frozen) ∧ (∀ p, p ∉ s.panelCores k → t.core p = s.core p) ∧
        t.rel.frozen = placeFreeze s.rel.frozen { time := s.clk.now, subsystem := 17, master := k, code := BitVec.ofNat 16 code,
                                                  ctx := st.ctx, gen := (s.ctx st.ctx).gen, ctxValid := true } ∧
        (t.ctx st.ctx).claimOpen = true ∧ countersMoved [(rstReg 0x108, 1)] s t
      ((s.panel k).haltSince = none → (s.panel k).progress + 1000000 * max 1 s.rel.wdMs.toNat ≤ s.time →
        ∃ t, exec (.watchdogExpiry k) s = .next t ∧ fires t 0x8801) ∧
      (∀ h, (s.panel k).haltSince = some h → h + 1000000 * max 1 s.rel.haltMs.toNat ≤ s.time →
        ∃ t, exec (.haltWatchdogExpiry k) s = .next t ∧ fires t 0x8802)

/-- Context recovery (R422 to R424): a recovery with a place raises the context's tag and stops its cores, and waits while stream
transactions are in flight or while the tag was used within 20 ms; once it ends, by itself, by the time limit or with the tag
free, the context has no root, no moved sequence, no claim and no recovery, and the recovery record names it. -/
def Obligations.ContextRecoveries : Prop :=
  ∀ (s : State) (c : Nat) (r : Recovery), s.islandOn 251 = true → r.ctx = c →
    let done (t : State) : Prop :=
      (t.ctx c).recovering = false ∧ (t.ctx c).claimed = false ∧ (t.ctx c).claimOpen = false ∧ (t.ctx c).f.root = 0 ∧
        (t.ctx c).moved = [] ∧ (∀ x ∈ t.rel.running, x.ctx ≠ c) ∧ t.rel.recCtx = c ∧ t.rel.recCode = r.code ∧
        t.rel.recClaimed = r.claimed
    let drains (t : State) : Prop :=
      (t.ctx c).gen = (s.ctx c).gen + 1 ∧ (∃ x ∈ t.rel.running, x.ctx = c ∧ x.draining = true ∧ x.code = r.code) ∧
        (∀ x ∈ s.runningOf c, ∀ p ∈ s.panelCores x.1, (t.core p).seq.state = .frozen) ∧
        ∀ p, p ∈ Tab.keys s.cores → (s.core p).slice.resident.map Prod.fst = some c →
          (t.core p).slice.resident = some (c, (s.ctx c).gen + 1)
    (s.rel.running.find? (fun x => decide (x.ctx = c)) = some r → r.draining = true →
      ∃ t, exec (.contextRecovery c) s = .next t ∧ done t) ∧
    (s.rel.running.find? (fun x => decide (x.ctx = c) && x.draining) = some r →
      ∃ t, exec (.recoveryDrainTimeout c) s = .next t ∧ done t) ∧
    (∀ rest, s.rel.running.find? (fun x => decide (x.ctx = c)) = none → s.rel.queued = r :: rest →
      s.rel.running.length < 4 →
      (s.tagBlocked c ((s.ctx c).gen + 1) = true → exec (.contextRecovery c) s =
        .next { s with rel := { s.rel with queued := rest, running := s.rel.running ++ [{ r with tagWait := true }] } }) ∧
      (s.tagBlocked c ((s.ctx c).gen + 1) = false →
        (s.mustDrain c = true → ∃ t, exec (.contextRecovery c) s = .next t ∧ t.rel.queued = rest ∧ drains t) ∧
        (s.mustDrain c = false → ∃ t, exec (.contextRecovery c) s = .next t ∧ done t))) ∧
    (s.rel.running.find? (fun x => decide (x.ctx = c) && x.tagWait) = some r → s.tagBlocked c ((s.ctx c).gen + 1) = false →
      (s.mustDrain c = true → ∃ t, exec (.tagReuseWaitExpiry c) s = .next t ∧ drains t) ∧
      (s.mustDrain c = false → ∃ t, exec (.tagReuseWaitExpiry c) s = .next t ∧ done t))

/-- Reliability (R426 to R434): the scrubber counts a corrected word and poisons the frame of an uncorrectable one; a frame of count 0
is filled with +0 under a memory slot and loses its poison, and one in use is refused; a canary window saves a slice and gives
back its words, and retires a core that fails, which is then held off once no step runs on it; a failing die-to-die lane takes one of 8 spares. -/
def Obligations.ReliabilityUpkeep : Prop :=
  ∀ (s : State),
    (∀ off, s.islandOn (224 + stackOf off) = true → s.rel.scrubOn = true → off < hbmSize → s.scrubSkips (chanSet off) = false → s.isPoisoned (frameOf off) = false →
      s.hbm.bad.contains (off / 64) = false →
      let rd := hbmReg (stackOf off) 0x100
      (∃ t, exec (.hbmScrub off .clean) s = .next t ∧ t.rel = { s.rel with scrubPos := off } ∧ t.counter rd = s.counter rd + 64 ∧
        t = { s with rel := t.rel, msc := t.msc, counters := t.counters }) ∧
      (∃ t, exec (.hbmScrub off .corrected) s = .next t ∧ t.counter (relReg 0x120) = s.counter (relReg 0x120) + 1 ∧
        t.counter rd = s.counter rd + 64 ∧
        s.time ∈ Tab.get [] t.hbm.corrected (frameOf off) ∧ t.hbm = { s.hbm with corrected := t.hbm.corrected }) ∧
      (s.repairFor (frameOf off) = none →
        ∃ t, exec (.hbmScrub off .uncorrectable) s = .next t ∧ t.isPoisoned (frameOf off) = true ∧
          (∀ f, f ≠ frameOf off → t.isPoisoned f = s.isPoisoned f) ∧
          (∀ a, a / 65536 ≠ frameOf off → t.hbm.mem.read a = s.hbm.mem.read a) ∧
          t.counter (relReg 0x128) = s.counter (relReg 0x128) + 1)) ∧
    (∀ (v : W64) (s1 : State) (n : Nat),
      let f := bits v.toNat 22 0
      let slot := bits v.toNat 30 23
      s.barOpen 0 = true → s.hostWaits = false → s.runsFree 250 = true → bitAt v.toNat 31 = true → f < hbmSize / 65536 →
      ({ s with rel := { s.rel with unpFrame := f, unpSlot := slot } } : State).readCount .sys f = (n, s1) →
      (n = 0 → (s.slot slot).type = 1 →
        ∃ t, exec (.relUnpoisonGo v) s = .next t ∧ t.isPoisoned f = false ∧
          (∀ a, a / 65536 = f → t.hbm.mem.read a = 0) ∧ (∀ w, w / 1024 = f → t.wordTag w = (s.slot slot).material) ∧
          (∀ a, a / 65536 ≠ f → t.hbm.mem.read a = s1.hbm.mem.read a)) ∧
      (n ≠ 0 ∨ (s.slot slot).type ≠ 1 → exec (.relUnpoisonGo v) s = .next (s1.event 0x8008))) ∧
    (∀ p, s.islandOn 250 = true → s.rel.canaryOn = true → s.rel.canaryState = .waiting → s.canaryPick = some p →
      exec .canaryWindowStart s = .next { s with rel := { s.rel with
        canaryCore := p, canaryState := .test, canarySaved := some (s.core p).slice } }) ∧
    (∀ (p : Nat) (sl : Slice) (hot : Bool) (cal : Int),
      s.islandOn 250 = true → s.rel.canaryState ≠ .waiting → s.rel.canaryCore = p → s.rel.canarySaved = some sl → s.gov.loaded = false →
      (∃ t, exec (.canaryWindowEnd true hot cal) s = .next t ∧ (t.core p).slice = (s.core p).slice.reload sl ∧
        (t.core p).retired = (s.core p).retired ∧
        t.rel.canaryState = .waiting ∧ t.rel.canarySaved = none ∧ t.rel.canaryPass = true ∧ p ∈ t.rel.canaryPassed ∧
        (∀ q, q ≠ p → t.core q = s.core q) ∧ countersMoved [(relReg 0x138, 1)] s t) ∧
      ((s.core p).retired = false →
        ∃ t, exec (.canaryWindowEnd false hot cal) s = .next t ∧ (t.core p).retired = true ∧
          (∀ k st, (s.core p).panel = some k → (s.panel k).running = some st → (t.core p).slice = (s.core p).slice.reload sl) ∧
          ((∀ k, (s.core p).panel = some k → (s.panel k).running = none) → (t.core p).panel = none ∧ (t.core p).logical = 0xFF ∧
            ∀ i, i < 32 → (t.core p).slice.tile i = .off) ∧
          p ∈ t.rel.retired ∧ t.rel.canaryState = .waiting ∧ p ∉ t.rel.canaryPassed ∧
          t.counter (relReg 0x140) = s.counter (relReg 0x140) + 1)) ∧
    (∀ die lane, s.islandOn (252 + die) = true → die < 2 →
      (Tab.get 0 s.rel.d2dSpares die < 8 →
        ∃ t, exec (.d2dLaneRetrain die lane) s = .next t ∧
          (∀ d, Tab.get 0 t.rel.d2dSpares d = Tab.get 0 s.rel.d2dSpares d + if d = die then 1 else 0) ∧
          t = { s with rel := { s.rel with d2dSpares := t.rel.d2dSpares } }) ∧
      (8 ≤ Tab.get 0 s.rel.d2dSpares die → exec (.d2dLaneRetrain die lane) s = .next (s.event 0x8009)))

/-! ## 17: security -/

/-- Key commands (R441, R444 to R447, R459): KEY_GEN and KEY_SHARE are refused by their parameters, wait for a value destroyed less than
20 ms ago or for the users of a retiring or erased generation, and otherwise install new material under the next generation, the old one retiring; a share is offered to every
other module of its mask. KEY_ERASE ends once the slot has no user; KEY_REVOKE stops every running step that captured it, but
for the steps of a frozen context, which its claim or recovery ends;
a retiring generation without users is destroyed. Every other slot stays as it was. -/
def Obligations.KeyCommands : Prop :=
  ∀ (s : State) (slot type tenant : Nat) (k : KeySlot), k = s.slot slot →
    s.sec.genWait = none → s.sec.rewriteWait = none → s.sec.shareWait = none → s.sec.sharePeers = [] → s.sec.eraseWait = none →
    let g := s.nextGen slot
    let free := s.genBlocked slot g = false ∧ s.mayInstall slot g = true ∧ k.closing = false
    let others (t : State) : Prop := ∀ i, i ≠ slot → t.slot i = s.slot i
    let installed (t : State) (gen : BitVec 8) (shared : Bool) : Prop :=
      (t.slot slot).type = type ∧ (t.slot slot).tenant = tenant ∧ (t.slot slot).gen = gen ∧
        (t.slot slot).material = s.sec.materials + 1 ∧ (t.slot slot).shared = shared ∧ (t.slot slot).closing = false ∧
        (t.slot slot).retiring = (if k.type = 0 then none else some k.gen) ∧
        (k.type ≠ 0 → (t.slot slot).retMaterial = k.material) ∧ others t
    (s.mbxRuns 0x0220 = true →
      (s.keyRefusal slot type tenant ≠ 0 → ∃ t, exec (.keyGen slot type tenant) s = .next t ∧
        replied (s.keyRefusal slot type tenant) [] t ∧ t.sec = s.sec) ∧
      (s.keyRefusal slot type tenant = 0 → s.genBlocked slot g = true → ∃ t, exec (.keyGen slot type tenant) s = .next t ∧
        t.sec.genWait = some { slot := slot, type := type, tenant := tenant, gen := g } ∧ t.sec.slots = s.sec.slots ∧
        t.mgt = s.mgt) ∧
      (s.keyRefusal slot type tenant = 0 → s.genBlocked slot g = false → s.mayInstall slot g = false ∨ k.closing = true →
        exec (.keyGen slot type tenant) s = .next { s with sec := { s.sec with
          rewriteWait := some { slot := slot, type := type, tenant := tenant, gen := g } } }) ∧
      (s.keyRefusal slot type tenant = 0 → free → ∃ t, exec (.keyGen slot type tenant) s = .next t ∧
        installed t g false ∧ replied 0 (leBytes 1 g.toNat) t)) ∧
    (∀ mask, s.mbxRuns 0x0221 = true →
      let peers := ((onesOf mask 8).filter (fun m => decide (m ≠ s.walker.boardSlot))).map (fun m => s.me / 8 * 8 + m)
      (s.keyRefusal slot type tenant ≠ 0 → ∃ t, exec (.keyShare slot type tenant mask) s = .next t ∧
        replied (s.keyRefusal slot type tenant) [] t ∧ t.sec = s.sec) ∧
      (s.keyRefusal slot type tenant = 0 → free → mask < 256 → bitAt mask s.walker.boardSlot = true → peers ≠ [] →
        ∃ t, exec (.keyShare slot type tenant mask) s = .next t ∧ installed t g true ∧ (t.slot slot).mask = mask ∧
          t.sec.sharePeers = peers ∧ t.sec.shareSlot = slot ∧ t.out = s.out ++ peers.map (fun m => Out.share m slot g) ∧
          t.mgt = s.mgt)) ∧
    (∀ gen mask, s.linksOn = true → 0 < slot → slot < 256 → 0 < type → type < 4 →
      (s.mayInstall slot (BitVec.ofNat 8 gen) = true → k.closing = false →
        ∃ t, exec (.keyShareInstall slot type tenant gen mask) s = .next t ∧ installed t (BitVec.ofNat 8 gen) true ∧
          (t.slot slot).mask = mask ∧ t.out = s.out ++ [.shareAnswer slot (BitVec.ofNat 8 gen)]) ∧
      (s.mayInstall slot (BitVec.ofNat 8 gen) = false ∨ k.closing = true →
        exec (.keyShareInstall slot type tenant gen mask) s = .next { s with sec := { s.sec with
          shareWait := some { slot := slot, type := type, tenant := tenant, gen := BitVec.ofNat 8 gen, mask := mask } } })) ∧
    (∀ w, w.slot = slot → w.type = type → w.tenant = tenant → w.mask = 0 → s.islandOn 243 = true →
      s.genBlocked slot w.gen = false → s.mayInstall slot w.gen = true → k.closing = false →
      ∃ t, exec (.generationReuseWaitExpiry slot) { s with sec := { s.sec with genWait := some w } } = .next t ∧
        installed t w.gen false ∧ replied 0 (leBytes 1 w.gen.toNat) t ∧ t.sec.genWait = none) ∧
    (∀ p ps, s.mbxRuns 0x0221 = true →
      ∃ t, exec .keySharePeerTimeout { s with sec := { s.sec with sharePeers := p :: ps } } = .next t ∧ replied 0x1006 [] t ∧
        t.sec.sharePeers = [] ∧ t.sec.slots = s.sec.slots) ∧
    (s.mbxRuns 0x0222 = true → slotRefusal slot = 0 →
      (k.type = 0 → ∃ t, exec (.keyErase slot) s = .next t ∧ replied 0 [] t ∧ t.sec = s.sec) ∧
      let s1 := ({ s with sec := { s.sec with eraseWait := some slot } } : State).beginErase slot
      (k.type ≠ 0 → s1.slotUsers slot = 0 → ∃ t, exec (.keyErase slot) s = .next t ∧ replied 0 [] t ∧
        (t.slot slot).type = 0 ∧ (t.slot slot).material = 0 ∧ (t.slot slot).retiring = none ∧ (t.slot slot).gen = k.gen ∧
        others t) ∧
      (k.type ≠ 0 → s1.slotUsers slot ≠ 0 → exec (.keyErase slot) s = .next s1 ∧ s1.slot slot = { k with closing := true } ∧
        others s1)) ∧
    (s.mbxRuns 0x0223 = true → slotRefusal slot = 0 → k.type ≠ 0 →
      ∃ t, exec (.keyRevoke slot) s = .next t ∧ replied 0 [] t ∧ (t.slot slot).type = 0 ∧ (t.slot slot).material = 0 ∧
        (t.slot slot).retiring = none ∧
        ∀ p < 16, ∀ st, (t.panel p).running = some st → s.stopping st.ctx = false → s.capturedBy slot st = false) ∧
    (∀ r, s.islandOn 243 = true → k.closing = false → k.retiring = some r → s.usersOf slot r = 0 →
      ∃ t, exec (.generationDestroy slot) s = .next t ∧ (t.slot slot).retiring = none ∧ (t.slot slot).retMaterial = 0 ∧
        (t.slot slot).gen = k.gen ∧ (t.slot slot).material = k.material ∧ others t ∧
        t.counter (secReg 0x128) = s.counter (secReg 0x128) + 1)

/-- Tenants, lifecycle, tamper and entropy (R460 to R466): a clear of everything leaves HBM +0 under slot 0 and is refused while a context
is bound; a tenant without shared slots is removed at once, and its contexts and slots are gone; a notice is acknowledged
once this module has drained. An authorised lifecycle change clears HBM, contexts and keys and burns one fuse, any other
leaves the state. A tamper destroys every key, empties every slice, and ends in HOLD with cause 6. -/
def Obligations.TenantsAndDeviceState : Prop :=
  ∀ (s : State),
    (s.mbxRuns 0x0224 = true →
      (∀ tenant, (∀ c ∈ Tab.keys s.cmd.ctxs, (s.ctx c).bound = false) →
        ∃ t, exec (.tenantClear tenant true) s = .next t ∧ replied 0 [] t ∧ (∀ a, t.hbm.mem.read a = 0) ∧
          (∀ w, t.wordTag w = (s.slot 0).material) ∧ t.msc.lines = [] ∧ t.hbm.poisoned = s.hbm.poisoned ∧ t.cores = s.cores) ∧
      (∀ tenant c, c ∈ Tab.keys s.cmd.ctxs → (s.ctx c).bound = true →
        ∃ t, exec (.tenantClear tenant true) s = .next t ∧ replied 2 [] t ∧ t.hbm = s.hbm) ∧
      (∀ tenant, tenant < 64 → exec (.tenantClear tenant false) s = .next ((s.clearTenant tenant).mbxReply 0) ∧
        replied 0 [] ((s.clearTenant tenant).mbxReply 0))) ∧
    (∀ tenant, s.mbxRuns 0x0225 = true → s.sec.removal = none → tenant < 64 →
      (∀ i ∈ s.tenantSlots tenant, (s.slot i).shared = false) →
      ∃ t, exec (.tenantRemove tenant) s = .next t ∧ replied 0 [] t ∧ (∀ c ∈ s.tenantCtxs tenant, (t.ctx c).bound = false) ∧
        (∀ i ∈ s.tenantSlots tenant, (t.slot i).type = 0) ∧ t.sec.removal = none) ∧
    (∀ r peer, s.sec.removal = some r → peer ∈ r.peers → (∃ m ∈ r.peers, m ≠ peer) →
      let left : Removal := { r with peers := r.peers.filter (fun m => decide (m ≠ peer)) }
      (s.islandOn 243 = true → ∃ t, exec (.tenantDrainTimeout peer) s = .next t ∧ t.sec.removal = some left ∧
        (∃ e ∈ t.mgt.events, e.code = 0x7807) ∧ ∀ p < 104, portClass p = 0 → (s.port p).hears = true →
          (∃ x, (s.port p).seen = some x ∧ x.1 = peer) → (t.port p).hears = false) ∧
      (s.linksOn = true → exec (.drainNotice peer r.tenant true) s = .next { s with sec := { s.sec with removal := some left } })) ∧
    (∀ peer tenant, s.linksOn = true → s.sec.drains = [] → s.drained peer tenant = true →
      ∃ t, exec (.drainNotice peer tenant false) s = .next t ∧ t.out = s.out ++ [.drain peer tenant true] ∧ t.sec = s.sec) ∧
    (∀ target l auth, s.mbxRuns 0x0226 = true → lifecycleOf target = some l →
      (s.lifecycleStatus l auth ≠ 0 → ∃ t, exec (.lifecycleSet target auth) s = .next t ∧
        replied (s.lifecycleStatus l auth) [] t ∧ t.sec = { s.sec with challenge := t.sec.challenge } ∧ t.hbm = s.hbm ∧ t.cores = s.cores) ∧
      (s.lifecycleStatus l auth = 0 → ∃ t, exec (.lifecycleSet target auth) s = .next t ∧ replied 0 [] t ∧
        t.sec.lifecycle = l ∧ t.sec.fusesLeft = s.sec.fusesLeft - 1 ∧ (∀ a, t.hbm.mem.read a = 0) ∧
        (∀ c, (t.ctx c).bound = false) ∧ (∀ i, 0 < i → i < 256 → (t.slot i).type = 0) ∧
        ∃ e ∈ t.mgt.events, e.code = 0x7805)) ∧
    (∀ standing, s.mbxRuns 0x0227 = true → s.mgt.state ≠ .hold →
      ∃ t, exec (.tamperClear standing) s = .next t ∧ replied 0 [] t ∧ t.sec = { s.sec with tamper := tamperMask standing }) ∧
    (∀ cause, s.pins.standby = true → s.pins.dieOn = true → s.pins.perst = false →
      ∃ t, exec (.tamperDetect cause) s = .next t ∧ t.mgt.state = .hold ∧ t.mgt.holdCause = 6 ∧
        bitAt t.sec.tamper.toNat (tamperBit cause) = true ∧ (∀ i, i ≠ 0 → (t.slot i).type = 0 ∧ (t.slot i).material = 0) ∧
        (∀ p a, (t.core p).slice.mem.read a = 0) ∧ t.sec.lifecycle = s.sec.lifecycle ∧
        t.sec.tamperCount.toNat = min 0xFFFF (s.sec.tamperCount.toNat + 1)) ∧
    (s.islandOn 243 = true → s.sec.healthy = true → ∃ t, exec .entropyFail s = .next t ∧
      t.sec = { s.sec with healthy := false } ∧ countersMoved [(secReg 0x130, 1)] s t ∧
      t.mgt.events = (s.event 0x7802).mgt.events) ∧
    (s.islandOn 243 = true → exec .entropyRecover s = .next { s with sec := { s.sec with healthy := true } })

/-- SPDM and sessions (R451 to R453): each request is answered at its door with the stated contents, and changes nothing else; a
session takes a free slot of its own for a secure context of its function, and is refused otherwise; closing it erases the slot
and answers. -/
def Obligations.SpdmAndSessions : Prop :=
  ∀ (s : State),
    (∀ (d : SpdmDoor) (nonce : List Byte) (off len : Nat), s.spdmOpen d = true →
      exec (.getVersion d) s = .next (s.emit (.spdm d (Config.spdmBody 0))) ∧
      exec (.getCapabilities d) s = .next (s.emit (.spdm d (Config.spdmBody 1))) ∧
      exec (.negotiateAlgorithms d) s = .next (s.emit (.spdm d (Config.spdmBody 2))) ∧
      exec (.getDigests d) s = .next (s.emit (.spdm d (Config.sha384 Config.certChain))) ∧
      exec (.getCertificate d off len) s = .next (s.emit (.spdm d (slicedAt Config.certChain off len))) ∧
      exec (.challenge d nonce) s = .next (s.emit (.spdm d (Config.deviceSign
        (Config.sha384 Config.certChain ++ Config.sha384 s.measurements ++ nonce)))) ∧
      exec (.getMeasurements d nonce) s = .next (s.emit (.spdm d (s.measurements ++ Config.deviceSign (s.measurements ++ nonce))))) ∧
    ∀ (fn : Nat), s.spdmOpen (.doe fn) = true →
      (∀ (ctx i : Nat) (key nonce : List Byte), (s.ctx ctx).bound = true → (s.ctx ctx).f.secure = true → (s.ctx ctx).f.fn.toNat = fn →
        s.sec.lifecycle = .deployed → s.sec.healthy = true → s.freeSlot = some i →
        ∃ t rest, exec (.sessionOpen fn ctx key nonce) s = .next t ∧ (t.slot i).type = 3 ∧
          (t.slot i).tenant = (s.ctx ctx).f.tenant.toNat ∧ (t.slot i).gen = s.nextGen i ∧
          (t.slot i).material = s.sec.materials + 1 ∧ Tab.find t.sec.sessions i = some { ctx := ctx, fn := fn } ∧
          (∀ j, j ≠ i → t.slot j = s.slot j ∧ Tab.find t.sec.sessions j = Tab.find s.sec.sessions j) ∧
          t.out = s.out ++ [.spdm (.doe fn) (leBytes 2 0 ++ leBytes 1 i ++ leBytes 1 (s.nextGen i).toNat ++ rest)] ∧
          countersMoved [(secReg 0x100, 1)] s t) ∧
      (∀ (ctx : Nat) (key nonce : List Byte),
        ((s.ctx ctx).bound = false ∨ (s.ctx ctx).f.secure = false ∨ (s.ctx ctx).f.fn.toNat ≠ fn) →
        exec (.sessionOpen fn ctx key nonce) s = .next (s.emit (.spdm (.doe fn) (leBytes 2 2)))) ∧
      (∀ (slot : Nat) (ses : Session), Tab.find s.sec.sessions slot = some ses → ses.fn = fn → (s.slot slot).type ≠ 0 →
        s.sec.eraseWait ≠ some slot → s.sec.closeWait = [] →
        let s1 := ({ s with sec := { s.sec with closeWait := [(slot, fn)] } } : State).beginErase slot
        (s1.slotUsers slot = 0 → ∃ t, exec (.sessionClose fn slot) s = .next t ∧ (t.slot slot).type = 0 ∧
          (t.slot slot).material = 0 ∧ Tab.find t.sec.sessions slot = none ∧ t.out = s.out ++ [.spdm (.doe fn) [0]]) ∧
        (s1.slotUsers slot ≠ 0 → exec (.sessionClose fn slot) s = .next s1 ∧ (s1.slot slot).closing = true)) ∧
      (∀ (slot : Nat), Tab.find s.sec.sessions slot = none →
        exec (.sessionClose fn slot) s = .next (s.emit (.spdm (.doe fn) (leBytes 2 2))))

/-! ## 14: links -/

/-- Frames and timers of a port (R359 to R362): a frame that is bad or out of sequence is discarded and answered with a nak; the next
data frame is taken, acknowledged and held, and its ack frees the replay buffer; after the time limit the whole replay buffer
goes out again, and after replay_max times the link is dead; a port that is up or in hold-down sends its time in a sequenced frame; a dead link drops its state and is reported; a hold-down that
ends brings the port up. -/
def Obligations.LinkFrames : Prop :=
  ∀ (s : State) (port : Nat) (p : Port), p = s.port port → s.portOn port = true →
    (∀ f : LinkFrame, p.hears = true →
      (f.good = false → ∃ t g, exec (.linkFrameRx port f) s = .next t ∧ (t.port port).rxSeq = p.rxSeq ∧
        (t.port port).replay = p.replay ∧ t.out = s.out ++ [.linkFrame port (frameBytes g)] ∧ g.nak = true ∧ g.ack = p.rxSeq - 1 ∧
        t.counter (portReg port 0x58) = s.counter (portReg port 0x58) + 1) ∧
      (f.good = true → (f.type = 1 ∨ f.type = 2 ∨ f.type = 3) → f.seq ≠ p.rxSeq →
        ∃ t g, exec (.linkFrameRx port f) s = .next t ∧ (t.port port).rxSeq = p.rxSeq ∧ (t.port port).rxHeld = p.rxHeld ∧
          (t.port port).replay = p.replay ∧ (t.port port).credits = p.credits ∧
          t.out = s.out ++ [.linkFrame port (frameBytes g)] ∧ g.nak = true) ∧
      (f.good = true → f.type = 1 → f.seq = p.rxSeq → p.txBytes = [] → f.nak = false →
        ∃ t g, exec (.linkFrameRx port f) s = .next t ∧ (t.port port).rxSeq = p.rxSeq + 1 ∧
          (t.port port).replay = ackFrames p.replay f.ack ∧ Tab.get 0 (t.port port).rxHeld f.vc = Tab.get 0 p.rxHeld f.vc + 1 ∧
          t.out = s.out ++ [.linkFrame port (frameBytes g)] ∧ g.nak = false ∧ g.ack = f.seq ∧
          t.counter (portReg port 0x48) = s.counter (portReg port 0x48) + 1)) ∧
    (p.hears = true → p.replay ≠ [] → max 1 s.lnk.replayMax.toNat ≤ p.replays → ∃ t, exec (.replayTimeout port) s = .next t ∧
      (t.port port).state = .dead ∧ (t.port port).replay = [] ∧ ∃ e ∈ t.mgt.events, e.code = 0x4802) ∧
    (p.hears = true → p.replay ≠ [] → p.replays < max 1 s.lnk.replayMax.toNat → ∃ t, exec (.replayTimeout port) s = .next t ∧
      t.out = s.out ++ p.replay.map (fun f => Out.linkFrame port (frameBytes { f with ack := p.ack })) ∧
      (t.port port) = { p with replays := p.replays + 1 } ∧
      t.counter (portReg port 0x60) = s.counter (portReg port 0x60) + BitVec.ofNat 64 p.replay.length) ∧
    (p.isUp = true ∨ p.state = .holddown → p.replay.length < 1024 → ∃ t g, exec (.timeFrameTx port) s = .next t ∧
      (t.port port) = { p with txSeq := p.txSeq + 1, replay := p.replay ++ [g] } ∧ g.type = 3 ∧ g.seq = p.txSeq ∧
      g.payload.take 8 = leBytes 8 s.time ∧ t.out = s.out ++ [.linkFrame port (frameBytes g)]) ∧
    (p.hears = true → ∃ t, exec (.linkDead port) s = .next t ∧ (t.port port).state = .dead ∧ (t.port port).wasDead = true ∧
      s.time ∈ (t.port port).deaths ∧ (∃ e ∈ t.mgt.events, e.code = 0x4802) ∧
      ∀ q, q ≠ port → (t.port q).state = (s.port q).state) ∧
    (p.state = .holddown → ∃ t, exec (.holddownExpiry port) s = .next t ∧ (t.port port).state = .up ∧
      (t.port port).wasDead = false ∧ (s.lnk.transfers = [] → ∃ e ∈ t.mgt.events, e.code = 0x4801))

/-- The survey of ports (R356, R374, R375): a port that trained sends its identity in a sequenced frame, and comes up at the common level
where it sees its planned peer; another peer that no plan
expects leaves it down with result 3; a planned port that does not train stays down with result 4. A survey trains every planned
port that is down, and is not started twice. A remap gives a logical port that is down a fitting spare, and refuses one that is up. -/
def Obligations.PortSurveys : Prop :=
  ∀ (s : State) (port l : Nat) (p : Port), p = s.port port → s.portOn port = true → s.logicalPort port = some l →
    planState (s.planOf l) = 1 →
    (∀ (cable : Bool) (id : LinkIdentity), p.frozen = false → p.surveying = false → p.isUp = false → p.state ≠ .holddown →
      (cable = true ∨ portClass port = 0) → max (s.firmware.level - 1) id.loLevel ≤ min s.firmware.level id.hiLevel →
      (planPeer (s.planOf l) = identitySeen id → p.wasDead = false →
        ∃ t, exec (.linkTrained port cable id) s = .next t ∧ (t.port port).state = .up ∧ (t.port port).result = p.matched ∧
          (t.port port).level = min s.firmware.level id.hiLevel ∧ (t.port port).seen = some (identitySeen id) ∧
          (∃ g, Out.linkFrame port (frameBytes g) ∈ t.out ∧ g.type = 2 ∧ g.seq = p.txSeq ∧
            g.payload = identityBytes (s.ownIdentity port)) ∧
          (s.lnk.transfers = [] → ∃ e ∈ t.mgt.events, e.code = 0x4801)) ∧
      (planPeer (s.planOf l) ≠ identitySeen id → s.swapOf l (identitySeen id) = none →
        ∃ t, exec (.linkTrained port cable id) s = .next t ∧ (t.port port).state = .down ∧ (t.port port).result = 3 ∧
          ∃ e ∈ t.mgt.events, e.code = 0x5002)) ∧
    (∀ signal, p.surveying = false → p.state = .training ∨ p.state = .down ∨ p.state = .dead →
      ∃ t, exec (.portTrainTimeout port signal) s = .next t ∧ (t.port port).state = .down ∧ (t.port port).result = 4 ∧
        (t.port port).failures = p.failures + 1 ∧ ∃ e ∈ t.mgt.events, e.code = 0x5003) ∧
    (∀ v : W32, s.barOpen 0 = true → s.hostWaits = false → s.runsFree 254 = true → bitAt v.toNat 0 = true →
      (s.lnk.surveyBusy = true → exec (.rteSurveyGo v) s = .next s) ∧
      (s.lnk.surveyBusy = false → port < 104 → p.state = .down → p.frozen = false → portClass l ≠ 3 →
        ∃ t, exec (.rteSurveyGo v) s = .next t ∧ (t.port port).state = .training ∧ t.lnk.surveyBusy = true)) ∧
    (∀ (v : W32) (k : Nat), s.barOpen 0 = true → s.hostWaits = false → s.runsFree 254 = true → k < 104 →
      ((s.port (s.physPort k)).isUp = true → exec (.rtePortMapWrite k v) s = .next (s.event 0x5006)) ∧
      ((s.port (s.physPort k)).isUp = false → s.spareFits k (v.toNat % 128) = true →
        ∃ t, exec (.rtePortMapWrite k v) s = .next t ∧ t.physPort k = v.toNat % 128 ∧
          (t.port (v.toNat % 128)).state = .training ∧ (t.port (s.physPort k)).state = .spareIdle ∧
          (∀ j, j ≠ k → t.physPort j = s.physPort j) ∧ ∃ e ∈ t.mgt.events, e.code = 0x5005))

/-- Messages (R366 to R369, R373): a malformed one freezes its port; one for another module goes out on its next hop, one hop further, or
is answered with a path-break notice; one of a context's old tag is dropped and counted; a put of the present tag writes its
bytes into the slice it names and is taken once; a board peer's request under a key generation that is not current writes nothing. Acknowledgements that are owed are sent
as a message on the acknowledgement channel; unacknowledged messages are sent
again, with their sequence numbers, or given up, which fails their transfers; an idle stream is reclaimed; a broken path is
marked. -/
def Obligations.LinkMessages : Prop :=
  ∀ (s : State), s.linksOn = true → s.dieCtl 0 = true → s.dieCtl 1 = true → s.lnk.transfers = [] →
    (∀ (port : Nat) (h : MsgHdr) (data : List Byte) (ok : Bool), s.portOn port = true → (s.port port).isUp = true →
      ((h.kind = 0 ∨ 10 < h.kind ∨ h.reservedZero = false ∨ 4096 < h.bytes) → s.rel.frozen.length < 128 →
        ∃ t r, exec (.linkMessageRx port h data ok) s = .next t ∧ (t.port port).frozen = true ∧ (t.port port).state = .dead ∧
          t.rel.frozen = placeFreeze s.rel.frozen r ∧ r.code = 0x4820 ∧ r.master = port ∧ r.subsystem = 9) ∧
      (1 ≤ h.kind → h.kind ≤ 10 → h.reservedZero = true → h.bytes ≤ 4096 →
        (h.dest ≠ s.me → h.next < h.ports.length → s.liveLink (h.ports.getD h.next 104) h.level = true →
          ∃ t, exec (.linkMessageRx port h data ok) s = .next t ∧
            Out.message h.vc { h with next := h.next + 1 } data ∈ t.out) ∧
        (h.dest ≠ s.me → h.next < h.ports.length → s.liveLink (h.ports.getD h.next 104) h.level = false →
          ∃ t, exec (.linkMessageRx port h data ok) s = .next t ∧ Out.pathBreak h.src h.dest h.ports ∈ t.out ∧
            ((∃ g, Out.message 4 g (breakBytes h) ∈ t.out ∧ g.kind = 9 ∧ g.dest = h.src) ∨
              ∃ m ∈ t.lnk.backlog, m.hdr = breakHdr s.me h ∧ m.data = breakBytes h)) ∧
        (∀ c x, c = h.dstCtx.toNat → x = s.ctx c → h.dest = s.me → h.kind = 1 → x.bound = true → x.f.tenant = h.tenant →
          (h.ctxGen ≠ x.gen → ∃ t, exec (.linkMessageRx port h data ok) s = .next t ∧ t.hbm = s.hbm ∧ t.cores = s.cores ∧
            t.counter (lnkReg 0x120) = s.counter (lnkReg 0x120) + 1) ∧
          (∀ p (st : RxStream), h.ctxGen = x.gen → s.genCurrent (s.ctxNow c).1.linkSlot.toNat h.keyGen = true → ok = true → h.slice = true →
            s.gov.mState = .active →
            h.raise = false → data ≠ [] → s.msgHeld (dieOfPort port) h = false → s.targetCore c (bits h.target.toNat 28 21) = some p →
            (s.core p).slice.secure = false → (s.core p).slice.rangeOn (bits h.target.toNat 20 0) data.length = true →
            st = Tab.get {} s.lnk.rx (streamKey h.src h.vc) → st.has h.seq = false → (h.seq - st.cumAck).toNat < 1024 →
            ∃ t, exec (.linkMessageRx port h data ok) s = .next t ∧
              (∀ a, (t.core p).slice.mem.read a =
                if q : bits h.target.toNat 20 0 ≤ a ∧ a < bits h.target.toNat 20 0 + data.length
                then data[a - bits h.target.toNat 20 0]'(by omega) else (s.core p).slice.mem.read a) ∧
              (Tab.get {} t.lnk.rx (streamKey h.src h.vc)).has h.seq = true ∧ t.hbm = s.hbm)) ∧
        (∀ st, h.dest = s.me → h.kind = 7 → ok = true → st = Tab.get {} s.lnk.rx (streamKey h.src h.vc) → st.has h.seq = false →
          (h.seq - st.cumAck).toNat < 1024 → h.keySlot ≠ 0 → s.genCurrent h.keySlot h.keyGen = false →
          s.gov.mState = .active → s.memFree = true → ∃ t, exec (.linkMessageRx port h data ok) s = .next t ∧ t.hbm = s.hbm ∧ t.cores = s.cores ∧
            t.counter (lnkReg 0x120) = s.counter (lnkReg 0x120) + 1))) ∧
    (∀ (src vc : Nat) (st : RxStream), vc < 8 → st = Tab.get {} s.lnk.rx (streamKey src vc) →
      st.due ≠ [] ∨ st.refused ≠ [] ∨ st.dueKeys ≠ [] → (s.port st.port).isUp = true →
      ∃ t g rest, exec (.ackTimer src vc) s = .next t ∧
        t.out = s.out ++ .linkAck st.port src vc st.cumAck st.due st.refused st.dueKeys ::
          .message (ackVcOf vc) g (ackBytes st) :: rest ∧
        g.kind = 4 ∧ g.dest = src ∧ g.ackVc = vc ∧ g.acked = st.due ∧ g.refused = st.refused ∧ g.ackedKeys = st.dueKeys ∧
        Tab.get {} t.lnk.rx (streamKey src vc) = { st with due := [], refused := [], dueKeys := [] }) ∧
    (∀ (dest vc : Nat) (st : TxStream), st = Tab.get {} s.lnk.tx (streamKey dest vc) → st.unacked ≠ [] →
      s.streamOn (streamKey dest vc) = true →
      (∃ t, exec (.e2eTimeout dest vc) s = .next t ∧
        (Tab.get {} t.lnk.tx (streamKey dest vc)).unacked.map (fun m => m.hdr.seq) = st.unacked.map (fun m => m.hdr.seq) ∧
        ∀ m ∈ st.unacked, (s.route m.hdr.dest (s.msgTable m.hdr) (s.msgLevel m.hdr) (spreadOf m.hdr)).isSome = true →
          ∃ h, Out.message m.hdr.vc h m.data ∈ t.out ∧ h.seq = m.hdr.seq) ∧
      ∃ t, exec (.giveupTimeout dest vc) s = .next t ∧
        Tab.get {} t.lnk.tx (streamKey dest vc) = { st with unacked := [], lastUse := s.time } ∧ t.out = s.out) ∧
    (∀ dest vc, (Tab.get {} s.lnk.tx (streamKey dest vc)).unacked = [] →
      (Tab.get {} s.lnk.tx (streamKey dest vc)).lastUse + 1000000 ≤ s.time →
      ∃ t, exec (.streamReclaim dest vc) s = .next t ∧ Tab.find t.lnk.tx (streamKey dest vc) = none ∧
        (∀ k, k ≠ streamKey dest vc → Tab.find t.lnk.tx k = Tab.find s.lnk.tx k) ∧ t = { s with lnk := t.lnk }) ∧
    (∀ dest ports, ∃ t, exec (.pathBreakNotice dest ports) s = .next t ∧
      (∀ e ∈ t.lnk.routes, e.1 % 992 = s.routeIndex dest → ∀ x ∈ e.2, x.hops ≠ 0 → x.ports.take x.hops = ports →
        x.broken = true) ∧
      t.counter (rteReg 0xC10) = s.counter (rteReg 0xC10) + 1 ∧ ∃ e ∈ t.mgt.events, e.code = 0x5004)

/-- Link transfers and collectives (R370, R371, R377 to R379): a trigger of a slot at work changes nothing but the event log, one that finds its queue
full is not taken, one with an illegal post gives the transfer its status, and any other adds the transfer; a transfer that is done writes its status
into its slot, leaves the tables and raises done_ctr. A chunk is taken once, and that of a failed collective is dropped; a collective without progress fails its transfer,
and so does a stream that is given up. -/
def Obligations.LinkTransfers : Prop :=
  ∀ (s : State), s.linksOn = true → s.dieCtl 0 = true → s.dieCtl 1 = true →
    (∀ (ctx slot : Nat) (g : PostReg) (post : List Byte) (x : Transfer),
      s.lnk.posts.find? (fun g => decide (g.ctx = ctx)) = some g → slot < 1024 → s.islandOn (224 + stackOf (g.frame * 65536)) = true →
      post = (s.hbmRead (g.frame * 65536 + slot * 64) 64
        (s.hreq g.keySlot (s.sysWays (g.frame * 65536 + slot * 64)))).1.bytesOr 64 →
      fieldAt post 0 1 % 8 ≠ 0 →
      x = { ctx := ctx, gen := g.gen, panel := g.panel, slot := slot, frame := g.frame, keySlot := g.keySlot, post := post,
            table := (s.ctxNow ctx).1.table.toNat } →
      ((∃ y ∈ s.lnk.transfers, y.ctx = ctx ∧ y.slot = slot) → exec (.linkPostTrigger ctx slot) s = .next (s.event 0x4804)) ∧
      ((∀ y ∈ s.lnk.transfers, y.ctx ≠ ctx ∨ y.slot ≠ slot) → s.postsFull x = true → exec (.linkPostTrigger ctx slot) s = .next s) ∧
      ((∀ y ∈ s.lnk.transfers, y.ctx ≠ ctx ∨ y.slot ≠ slot) → s.postsFull x = false →
        (s.postOk x = false → ∃ t, exec (.linkPostTrigger ctx slot) s = .next t ∧
          t.lnk.transfers = s.lnk.transfers ++ [{ x with status := some 2 }]) ∧
        (s.postOk x = true → ∃ t y, exec (.linkPostTrigger ctx slot) s = .next t ∧ y ∈ t.lnk.transfers ∧ y.ctx = ctx ∧
          y.slot = slot ∧ y.post = post ∧ y.gen = g.gen))) ∧
    (∀ (x : Transfer) (p : Nat), s.lnk.transfers = [x] → s.lnk.collectives = [] → s.transferDone x = true →
      s.physIn x.panel (x.b 2 1) = some p →
      ∃ t, exec (.linkTransferComplete x.ctx x.slot) s = .next t ∧ t.lnk.transfers = [] ∧
        signalled { core := p, signal := true, signalCtr := BitVec.ofNat 8 (x.b 1 1) } s t ∧
        t.hbm = (s.hbmWrite (x.frame * 65536 + x.slot * 64 + 48)
          (leBytes 2 (x.status.getD 0).toNat ++ zeros 6 ++ leBytes 8 s.time)
          (s.hreq x.keySlot (s.sysWays (x.frame * 65536)))).hbm) ∧
    (∀ (die : Nat) (h : MsgHdr) (data : List Byte) (c : Collective), s.dieCtl die = true →
      s.lnk.collectives.find? (fun c => decide (c.die = die) && decide (c.ctx = h.dstCtx.toNat) &&
        decide (c.id.toNat = h.key.toNat % 2 ^ 32) && c.engine) = some c →
      (s.ctx c.ctx).f.tenant = h.tenant → h.ctxGen = (s.ctx c.ctx).gen →
      s.genCurrent (s.ctx c.ctx).f.linkSlot.toNat h.keyGen = true →
      ((∃ x ∈ s.lnk.transfers, x.ctx = c.ctx ∧ x.slot = c.slot ∧ x.status.isSome = true) →
        exec (.collectiveChunkRx die h data) s = .next s.noteLinkDrop) ∧
      ((∀ x ∈ s.lnk.transfers, x.ctx = c.ctx → x.slot = c.slot → x.status = none) →
      ((h.src, h.key) ∈ c.seen → exec (.collectiveChunkRx die h data) s = .next ((s.count (lnkReg 0x118) 1).oweAck h false)) ∧
      ((h.src, h.key) ∉ c.seen → ∃ t y, exec (.collectiveChunkRx die h data) s = .next t ∧ y ∈ t.lnk.collectives ∧
        y = { c with seen := (h.src, h.key) :: c.seen }))) ∧
    (∀ (die i : Nat) (c : Collective), s.dieCtl die = true → (s.lnk.collectives.filter (fun c => decide (c.die = die) && c.engine))[i]? = some c →
      ∃ t, exec (.collectiveTimeout die i) s = .next t ∧
        (∀ x ∈ t.lnk.transfers, x.ctx = c.ctx → x.slot = c.slot → x.status ≠ none) ∧
        t = { s with lnk := { s.lnk with transfers := t.lnk.transfers } }) ∧
    (∀ (dest vc : Nat) (m : SentMsg) (c slot : Nat), m ∈ (Tab.get {} s.lnk.tx (streamKey dest vc)).unacked →
      m.owner = some (c, slot) → s.streamOn (streamKey dest vc) = true →
      ∃ t, exec (.giveupTimeout dest vc) s = .next t ∧
        ∀ x ∈ t.lnk.transfers, x.ctx = c → x.slot = slot → x.status ≠ none)

/-! ## 18: boot, firmware, the mailbox -/

/-- Boot and firmware (R5, R469 to R473, R476, R484, R485): the end of PERST# boots with one island group up, into HOLD with the cause
of the first check that fails, or on to stage 4; a block that passes the checks is written and any other is refused,
one with a reserved field that is not zero among them; an image that
verifies goes into the inactive slot; a trial is marked at once, or asked for; a revert logs its event and resets the module,
which loses its contexts and slices and keeps HBM. -/
def Obligations.BootAndFirmware : Prop :=
  ∀ (s : State),
    let resets (t : State) : Prop :=
      (∀ c, (t.ctx c).bound = false) ∧ (∀ p a, (t.core p).slice.mem.read a = 0) ∧ t.hbm.mem = s.hbm.mem ∧ t.clk.now = 0 ∧
        t.clk.groupsUp = 1 ∧ t.mgt.state ≠ .ready
    let slot (x : FwSlot) : List Byte := leBytes 2 x.release ++ leBytes 2 x.schemaLo ++ leBytes 2 x.schemaHi
    (s.pins.standby = true → s.pins.modEn = true → s.pins.pwrgd = true → s.pins.dieOn = true → s.pins.perst = true →
      s.mgt.trial = none → s.mgt.runSlot = s.mgt.activeSlot →
      (s.firmware.valid = true →
        let c := s.cfgCause s.mgt.configHalf s.mgt.config
        ∃ t, exec .coldBoot s = .next t ∧ t.pins.perst = false ∧ t.clk.groupsUp = 1 ∧ (t.slot 0).type = 1 ∧
          (t.slot 0).tenant = 0 ∧ t.hbm = s.hbm ∧
          (s.sec.tamper ≠ 0 → t.mgt.state = .hold ∧ t.mgt.holdCause = 6) ∧
          (s.sec.tamper = 0 → c ≠ 0 → t.mgt.state = .hold ∧ t.mgt.holdCause = c) ∧
          (s.sec.tamper = 0 → c = 0 → t.mgt.state = .boot ∧ t.mgt.bootStage = 4)) ∧
      (s.mgt.fwA.valid = false → s.mgt.fwB.valid = false → s.sec.tamper = 0 →
        ∃ t, exec .coldBoot s = .next t ∧ t.mgt.state = .hold ∧ t.mgt.holdCause = 8 ∧ ∃ e ∈ t.mgt.events, e.code = 4)) ∧
    (s.mbxRuns 0x0201 = true → ∃ t, exec .moduleInfo s = .next t ∧
      replied 0 (leBytes 8 s.pins.serial.toNat ++ leBytes 2 s.firmware.release ++ leBytes 1 s.firmware.level ++ slot s.mgt.fwA ++
        slot s.mgt.fwB ++ leBytes 1 s.sec.lifecycle.code ++ leBytes 1 s.mgt.state.code ++ leBytes 1 (s.mgt.chainAddr.getD 0) ++
        leBytes 2 s.mgt.moduleId) t) ∧
    (s.mbxRuns 0x0202 = true → ∃ t, exec .moduleReset s = .next t ∧ replied 0 [] t ∧ resets t) ∧
    (s.mbxRuns 0x0203 = true →
      (∃ t, exec (.configLoad .failed) s = .next t ∧ replied 0x0103 [] t ∧ t.mgt.config = s.mgt.config) ∧
      ∀ bs : List Byte,
        (s.cfgCause false bs ≠ 0 → ∃ t, exec (.configLoad (.ok bs)) s = .next t ∧
          replied (if s.cfgCause false bs = 5 then 4 else 0x0103) [] t ∧ t.mgt.config = s.mgt.config ∧ t.gov = s.gov) ∧
        (s.cfgCause false bs = 0 → cfgReservedOk (bs.take (fieldAt bs 8 4)) = false →
          ∃ t, exec (.configLoad (.ok bs)) s = .next t ∧ replied 2 [] t ∧ t.mgt.config = s.mgt.config ∧ t.gov = s.gov) ∧
        (s.cfgCause false bs = 0 → cfgReservedOk (bs.take (fieldAt bs 8 4)) = true → s.mgt.state ≠ .hold ∨ s.clk.groupsUp < 32 →
          ∃ t, exec (.configLoad (.ok bs)) s = .next t ∧ replied 0 [] t ∧ t.mgt.config = bs ∧
          t.mgt.configHalf = false ∧ (s.mgt.state ≠ .hold → t.gov = s.gov ∧ t.mgt.state = s.mgt.state) ∧
          (s.mgt.state = .hold → s.mgt.holdCause ≠ 6 → s.mgt.holdCause ≠ 8 → t.mgt.state = .boot ∧ t.mgt.bootStage = 4))) ∧
    (∀ off len : Nat, s.mbxRuns 0x0204 = true →
      (len ≤ 32768 → off + len ≤ 262144 → ∃ t, exec (.configRead off len) s = .next t ∧
        replied 0 ((List.range len).map (fun i => (s.mgt.config[off + i]?).getD 0xFF)) t) ∧
      (32768 < len ∨ 262144 < off + len → ∃ t, exec (.configRead off len) s = .next t ∧ replied 2 [] t)) ∧
    (∀ image : List Byte, s.mbxRuns 0x0205 = true → image.length ≤ 33554432 →
      ∃ t, exec (.fwInstall (.ok image)) s = .next t ∧ t.mgt.fw s.mgt.activeSlot = s.mgt.fw s.mgt.activeSlot ∧
        (Config.imageOk image = true → replied 0 [] t ∧ (t.mgt.fw !s.mgt.activeSlot).image = image ∧
          (t.mgt.fw !s.mgt.activeSlot).valid = true) ∧
        (Config.imageOk image = false → replied 0x0102 [] t ∧ t.mgt.fw (!s.mgt.activeSlot) = s.mgt.fw (!s.mgt.activeSlot))) ∧
    (∀ (m : Nat) (yes : Bool), s.mbxRuns 0x0206 = true → m ≤ 1440 →
      let minutes : Nat := if m = 0 then 10 else m
      (s.mgt.fwAsking = none → (s.mgt.fw !s.mgt.activeSlot).valid = true →
        (s.hasHeadframe = false → ∃ t, exec (.fwActivate m yes) s = .next t ∧ replied 0 [] t ∧ t.mgt.trial = some minutes) ∧
        (s.hasHeadframe = true → ∃ t, exec (.fwActivate m yes) s = .next t ∧ t.mgt.fwAsking = some m ∧ t.mgt.trial = s.mgt.trial ∧
          t.mgt.mbxBusy = true)) ∧
      (s.mgt.fwAsking = none → (s.mgt.fw !s.mgt.activeSlot).valid = false →
        ∃ t, exec (.fwActivate m yes) s = .next t ∧ replied 0x0102 [] t ∧ t.mgt.trial = s.mgt.trial) ∧
      (s.mgt.fwAsking = some m →
        (∃ t, exec (.fwActivate m true) s = .next t ∧ replied 0 [] t ∧ t.mgt.trial = some minutes) ∧
        (∃ t, exec (.fwActivate m false) s = .next t ∧ replied 0x0100 [] t ∧ t.mgt.trial = s.mgt.trial) ∧
        ∃ t, exec .fwApprovalTimeout s = .next t ∧ replied 0x0101 [] t ∧ t.mgt.trial = s.mgt.trial)) ∧
    (s.mbxRuns 0x0207 = true → s.mgt.trial = none → s.mgt.runSlot = s.mgt.activeSlot →
      ∃ t, exec .fwRevert s = .next t ∧ replied 0 [] t ∧ t.mgt.activeSlot = (!s.mgt.activeSlot) ∧ resets t ∧
        ∃ e ∈ t.mgt.events, e.code = 3) ∧
    (s.pins.standby = true → s.mgt.state = .hold → s.mgt.holdCause = 5 → s.mgt.revertS ≠ 0 → s.mgt.runSlot ≠ s.mgt.activeSlot →
      ∃ t, exec .revertTimerExpiry s = .next t ∧ t.mgt.activeSlot = s.mgt.activeSlot ∧ t.mgt.trial = none ∧ resets t ∧
        ∃ e ∈ t.mgt.events, e.code = 3)

/-- The mailbox (R374, R409, R471, R475, R482, R487, R491): a command that finds it idle runs, one that finds it busy is refused, and one
that HOLD forbids ends with ST_HOLD. A lock is set and stays; a release lifts a freeze; events are read in order; a survey
trains the ports that are down; an island loses its pin. -/
def Obligations.MailboxCommands : Prop :=
  ∀ (s : State),
    (∀ (d : Door) (op seq : Half), s.doorOpen d = true → (d = .bar4 → s.hostWaits = false) →
      (s.mgt.mbxBusy = true → ∃ t, exec (.mbxCmd d op seq) s = .next t ∧ countersMoved [(0x128, 1)] s t ∧
        (d = .bar4 → t.mgt = { s.mgt with mbxRefSeq := seq, mbxRefStatus := 1 } ∧ t.out = s.out) ∧
        (d ≠ .bar4 → t.mgt = s.mgt ∧ t.out = s.out ++ [.mailboxReply d 1 []])) ∧
      (s.mgt.mbxBusy = false → op.toNat ∈ mbxOpcodes →
        (s.mgt.state = .ready ∨ mbxInHold op.toNat = true → ∃ t, exec (.mbxCmd d op seq) s = .next t ∧
          t.mgt = { s.mgt with mbxBusy := true, mbxDoor := d, mbxOpcode := op, mbxSeq := t.mgt.mbxSeq } ∧
          (d = .bar4 → t.mgt.mbxSeq = seq) ∧ countersMoved [(0x120, 1)] s t ∧ t.out = s.out) ∧
        (s.mgt.state ≠ .ready → mbxInHold op.toNat = false →
          ∃ t, exec (.mbxCmd d op seq) s = .next t ∧ replied 0x000C [] t ∧ t.mgt.mbxDoor = d)) ∧
      (s.mgt.mbxBusy = false → op.toNat ∉ mbxOpcodes → ∃ t, exec (.mbxCmd d op seq) s = .next t ∧ replied 2 [] t)) ∧
    (∀ g, s.mbxRuns 0x0208 = true → ∃ t, exec (.lockSet g) s = .next t ∧ replied 0 [] t ∧ t.mgt.locks = s.mgt.locks ||| g) ∧
    (∀ i, s.mbxRuns 0x0209 = true →
      (i ∈ s.hif.frozen → ∃ t, exec (.release 0 i) s = .next t ∧ replied 0 [] t ∧
        ∀ j, j ∈ t.hif.frozen ↔ j ∈ s.hif.frozen ∧ j ≠ i) ∧
      (i ∉ s.hif.frozen → ∃ t, exec (.release 0 i) s = .next t ∧ replied 2 [] t ∧ t.hif.frozen = s.hif.frozen) ∧
      (s.mgt.state = .ready → (s.port i).frozen = true → ∃ t, exec (.release 1 i) s = .next t ∧ replied 0 [] t ∧
        t.port i = { s.port i with frozen := false, state := .training, result := 0 } ∧ ∀ j, j ≠ i → t.port j = s.port j)) ∧
    (∀ (first : W32) (n : Nat), s.mbxRuns 0x020A = true → n ≤ 2048 →
      let es := (s.mgt.events.filter (fun e => decide ((e.seq - first).toNat < 2 ^ 31))).take n
      ∃ t, exec (.eventRead first n) s = .next t ∧ replied 0 (es.flatMap eventBytes) t ∧ t.mgt.events = s.mgt.events ∧
        ∀ e, es.getLast? = some e → t.mgt.eventRead = e.seq + 1) ∧
    (∀ m, s.mbxRuns 0x020C = true → m < 32768 → ∃ t, exec (.identitySet m) s = .next t ∧ replied 0 [] t ∧ t.mgt.moduleId = m ∧
      t.mgt.assigned = true) ∧
    (s.mbxRuns 0x020D = true → s.pins.dieOn = true → (∀ p < 104, (s.port p).isUp = false ∧ (s.port p).state ≠ .holddown) →
      ∃ t, exec .survey s = .next t ∧ (∀ p < 104, ∀ l, s.logicalPort p = some l → (s.port p).frozen = false →
        portClass l ≠ 3 → planState (s.planOf l) = 1 → (t.port p).state = .training ∧ t.lnk.surveyBusy = true ∧
          t.mgt.mbxBusy = true) ∧
        ((∀ p < 104, (s.port p).frozen = true ∧ (s.port p).state = .down ∧ (s.port p).surveying = false) → s.mgt.bootStage ≠ 5 → replied 0 [] t)) ∧
    (∀ i, s.mbxRuns 0x020E = true → i < 256 → ∃ t, exec (.calUnpin i) s = .next t ∧ replied 0 [] t ∧
      Tab.get {} t.gov.cal i = { Tab.get {} s.gov.cal i with pinned := false } ∧
      ∀ j, j ≠ i → Tab.get ({} : CalRecord) t.gov.cal j = Tab.get {} s.gov.cal j)

/-- Lock groups (R486): group 0 holds XL_REFCOUNT_BASE.base, group 1 the band, mode, cage and thermal fields of the governor. A write
of a field whose group is set leaves the value, is noted, and freezes the PF; one whose group is not set takes effect, whatever
the other group; a field that is in no group takes effect under both. -/
def Obligations.LockGroups : Prop :=
  ∀ (s : State) (v : W64), s.barOpen 0 = true → s.hostWaits = false → s.islandUp 244 = true → s.islandUp 249 = true →
    s.runsFree 244 = true → s.runsFree 249 = true →
    let kept (i : Instr) (off : Nat) : Prop :=
      ∃ t, exec i s = .next t ∧ t.gov = s.gov ∧ t.walker = s.walker ∧ t.hif.frozen = s.hif.frozen ++ [0] ∧
        t.mgt.lockedOffset = off ∧ t.mgt.lockedValid = true ∧ ∃ e ∈ t.mgt.events, e.code = 1
    let cage : Instr := .registerWrite .pf0 (govReg 8) 4 v
    let thermal : Instr := .registerWrite .pf0 (govReg 0x10) 4 v
    let base : Instr := .registerWrite .pf0 (xlReg 8) 8 v
    (s.locked 1 = true → kept (.govBandWrite (BitVec.ofNat 32 v.toNat)) (govReg 0) ∧
      kept (.govModeWrite (BitVec.ofNat 32 v.toNat)) (govReg 4) ∧ kept cage (govReg 8) ∧ kept thermal (govReg 0x10)) ∧
    (s.locked 0 = true → kept base (xlReg 8)) ∧
    (s.locked 1 = false →
      exec cage s = .next { s with gov := { s.gov with
        authority := bits v.toNat 1 0, stepW := bits v.toNat 11 2, windowUs := bits v.toNat 27 12 } } ∧
      (70 ≤ bits v.toNat 6 0 → bits v.toNat 6 0 ≤ 100 →
        exec thermal s = .next { s with gov := { s.gov with tThrottle := bits v.toNat 6 0 } })) ∧
    (s.locked 0 = false → exec base s = .next { s with walker := { s.walker with refBase := bits v.toNat 43 6 * 64 } }) ∧
    exec (.registerWrite .pf0 (govReg 0xC) 4 v) s = .next { s with gov := { s.gov with validUs := bits v.toNat 15 0 } }

/-- The event log (R491): a new event is an entry with the next sequence number, its code and the time, the log keeps the 4,096 newest
entries, and EVENT_READ returns entries of 16 B in the order of the log. -/
def Obligations.EventLog : Prop :=
  ∀ (s : State),
    (∀ code : Nat, ∃ e : Event, e.seq = s.mgt.eventSeq ∧ e.code = BitVec.ofNat 16 code ∧ e.time = s.clk.now ∧
      (s.event code).mgt.eventSeq = s.mgt.eventSeq + 1 ∧
      (s.mgt.events.length < 4096 → (s.event code).mgt.events = s.mgt.events ++ [e]) ∧
      (s.mgt.events.length = 4096 → (s.event code).mgt.events = s.mgt.events.drop 1 ++ [e])) ∧
    ∀ (first : W32) (n : Nat), s.mbxRuns 0x020A = true → n ≤ 2048 →
      ∃ (t : State) (es : List Event), exec (.eventRead first n) s = .next t ∧ es.Sublist s.mgt.events ∧ es.length ≤ n ∧
        (∀ e ∈ es, (e.seq - first).toNat < 2 ^ 31) ∧ t.mgt.events = s.mgt.events ∧
        replied 0 (es.flatMap (fun e => leBytes 4 e.seq.toNat ++ leBytes 2 e.code.toNat ++ leBytes 2 e.arg.toNat ++
          leBytes 8 e.time.toNat)) t

/-- The tables that the mailbox writes (R5, R277, R329, R330, R372, R375, R380, R429, R477, R478): a legal entry stands as written, the entries
beside it stay, and an illegal one is refused with its status and writes nothing. -/
def Obligations.TablesByMailbox : Prop :=
  ∀ (s : State) (c : Nat),
    let others (t : State) : Prop := ∀ i, i ≠ c → (t.ctx i).bound = (s.ctx i).bound ∧ (t.ctx i).f = (s.ctx i).f
    (∀ e : CtxFields, s.mbxRuns 0x0210 = true →
      let ok := c < 1024 ∧ e.moduleZero = true ∧ e.ctxId.toNat = c ∧ rcOk e = true ∧ kvOk e = true ∧ s.bindOk c e = true ∧
        s.windowFree c e = true
      (ok → ∃ t, exec (.contextWrite c e) s = .next t ∧ replied 0 [] t ∧ (t.ctx c).bound = true ∧ (t.ctx c).f = e ∧
        (t.window (winKey e.fn.toNat e.window.toNat)).ctx = some c ∧ others t) ∧
      (¬ ok → ∃ t, exec (.contextWrite c e) s = .next t ∧ replied 2 [] t ∧ t.cmd = s.cmd)) ∧
    (s.mbxRuns 0x0211 = true → (s.ctx c).destroyWait = false →
      ((s.ctx c).bound = false → ∃ t, exec (.contextDestroy c) s = .next t ∧ replied 2 [] t ∧ t.cmd = s.cmd) ∧
      ((s.ctx c).bound = true → (s.ctx c).recovering = false → s.ctxBusy c = false →
        ∃ t, exec (.contextDestroy c) s = .next t ∧ replied 0 [] t ∧ (t.ctx c).bound = false ∧ (t.ctx c).gen = (s.ctx c).gen ∧
          (∀ k, (t.window k).ctx = some c → (s.window k).ctx = some c ∧ k ≠ winKey (s.ctx c).f.fn.toNat (s.ctx c).f.window.toNat) ∧
          others t) ∧
      ((s.ctx c).bound = true → s.ctxBusy c = true → ∃ t, exec (.contextDestroy c) s = .next t ∧ (t.ctx c).destroyWait = true ∧
        (t.ctx c).recovering = true ∧ t.mgt = s.mgt)) ∧
    (s.mbxRuns 0x0212 = true →
      ((s.ctx c).bound = true → ∃ t, exec (.contextRecover c) s = .next t ∧ replied 0 [] t ∧ (t.ctx c).recovering = true ∧
        (t.ctx c).claimOpen = ((s.ctx c).claimOpen && (s.ctx c).recovering) ∧
        ((s.ctx c).recovering = false → ∃ r, r.ctx = c ∧ t.rel.queued = s.rel.queued ++ [r])) ∧
      ((s.ctx c).bound = false → ∃ t, exec (.contextRecover c) s = .next t ∧ replied 2 [] t ∧ t.rel = s.rel)) ∧
    (∀ root : W64, s.mbxRuns 0x0213 = true → (s.ctx c).bound = true →
      ∃ t, exec (.rootSet c root) s = .next t ∧ replied 0 [] t ∧ (t.ctx c).f = { (s.ctx c).f with root := root } ∧ others t) ∧
    (∀ (e : PanelFields) (admits : Bool), s.mbxRuns 0x0214 = true →
      (c < 16 → s.panelOk c e = true → (e.class0 = true → s.hasHeadframe = true → admits = true) →
        ∃ t, exec (.panelWrite c e admits) s = .next t ∧ replied 0 [] t ∧ (t.panel c).written = true ∧ (t.panel c).entry = e ∧
          (t.panel c).running = (s.panel c).running ∧
          ((s.panel c).written = false ∨ (s.panel c).entry.cores ≠ e.cores → (t.panel c).needsReset = true) ∧
          ∀ k, k ≠ c → t.panel k = s.panel k) ∧
      (16 ≤ c ∨ s.panelOk c e = false → ∃ t, exec (.panelWrite c e admits) s = .next t ∧ replied 2 [] t ∧ t.cmd = s.cmd) ∧
      (c < 16 → s.panelOk c e = true → e.class0 = true → s.hasHeadframe = true →
        ∃ t, exec (.panelWrite c e false) s = .next t ∧ replied 0x0104 [] t ∧ t.cmd = s.cmd)) ∧
    (∀ (fb first n : Nat) (entry : BitVec 21) (arg : W64), s.mbxRuns 0x0215 = true → (s.ctx c).bound = true →
      ∃ t, exec (.fallbackSet c fb entry arg first n) s = .next t ∧ replied 0 [] t ∧ (t.ctx c).fallback =
        (if n = 0 then none else some { fallback := fb, entry := entry.toNat, argBlock := arg, firstCore := first, coreCount := n }) ∧
        (t.ctx c).moved = (if n = 0 then [] else (s.ctx c).moved)) ∧
    (∀ table : List Byte, s.mbxRuns 0x0216 = true → (s.ctx c).bound = true →
      (plOk table = true → ∃ t, exec (.placementWrite c table) s = .next t ∧ replied 0 [] t ∧ Tab.find t.edu.pending c = some table ∧
        t.edu.current = s.edu.current) ∧
      (plOk table = false → ∃ t, exec (.placementWrite c table) s = .next t ∧ replied 2 [] t ∧ t.edu = s.edu)) ∧
    (∀ (table entry : Nat) (ps : List RoutePath), s.mbxRuns 0x0217 = true → table < 4 → entry < 992 →
      (s.pathsOk ps = true → (∀ p ∈ ps, p.rsvZero = true ∧ p.broken = false) → s.lnk.transfers = [] →
        ∃ t, exec (.routeWrite table entry ps) s = .next t ∧ replied 0 [] t ∧
        Tab.find t.lnk.routes (table * 992 + entry) = some ps ∧
        ∀ k, k ≠ table * 992 + entry → Tab.find t.lnk.routes k = Tab.find s.lnk.routes k) ∧
      (s.pathsOk ps = false → (∀ p ∈ ps, p.rsvZero = true ∧ p.broken = false) →
        ∃ t, exec (.routeWrite table entry ps) s = .next t ∧ replied 0x0B00 [] t ∧ t.lnk = s.lnk) ∧
      (∀ p ∈ ps, p.rsvZero = false ∨ p.broken = true →
        ∃ t, exec (.routeWrite table entry ps) s = .next t ∧ replied 2 [] t ∧ t.lnk = s.lnk)) ∧
    (∀ level : Nat, s.mbxRuns 0x0218 = true → (s.ctx c).bound = true →
      (level = s.firmware.level ∨ level + 1 = s.firmware.level → ∃ t, exec (.levelPin c level) s = .next t ∧ replied 0 [] t ∧
        (t.ctx c).f = { (s.ctx c).f with level := BitVec.ofNat 8 level } ∧ others t) ∧
      (level ≠ s.firmware.level → level + 1 ≠ s.firmware.level →
        ∃ t, exec (.levelPin c level) s = .next t ∧ replied 0x0A04 [] t ∧ t.cmd = s.cmd)) ∧
    (∀ l p : Nat, s.mbxRuns 0x0219 = true → l < 104 →
      ((s.port (s.physPort l)).isUp = true → ∃ t, exec (.portRemap l p) s = .next t ∧ replied 0x0B01 [] t ∧ t.lnk = s.lnk) ∧
      ((s.port (s.physPort l)).isUp = false → s.spareFits l p = true → ∃ t, exec (.portRemap l p) s = .next t ∧ replied 0 [] t ∧ t.physPort l = p ∧
        (t.port p).state = .training ∧ ∃ e ∈ t.mgt.events, e.code = 0x5005)) ∧
    (∀ (i frame slot : Nat) (rep : W64), s.mbxRuns 0x021A = true → i < 4096 →
      (frame ≠ 0 → ∃ t, exec (.repairWrite i frame rep slot) s = .next t ∧ replied 0 [] t ∧
        Tab.find t.rel.repairs i = some { frame := frame, replica := rep, slot := slot }) ∧
      ∃ t, exec (.repairWrite i 0 rep slot) s = .next t ∧ replied 0 [] t ∧ Tab.find t.rel.repairs i = none ∧
        ∀ j, j ≠ i → Tab.find t.rel.repairs j = Tab.find s.rel.repairs j)

/-! ## 18: the tally, the chain, the headframes -/

/-- The tally, the chain and the headframes (R400, R479 to R483, R488 to R490, R492): a tally is armed by one of two doors, latches the
counters of a running island with its number, and is recorded 1 µs later; a frame is acknowledged, forwarded away from where
it came, sent again three times and then dropped; a headframe yields to a higher epoch, a standby takes over with the epoch
raised by 1, and a grant goes to a request within the budget. -/
def Obligations.TallyAndChain : Prop :=
  ∀ (s : State),
    (∀ (time : W64) (n : Half), s.mbxRuns 0x020B = true →
      (s.tallyRefused time.toNat = false → ∃ t, exec (.tallyArm time n) s = .next t ∧ replied 0 [] t ∧
        t.mgt.tallyPending = true ∧ t.mgt.armTime = time ∧ t.mgt.armNumber = n) ∧
      (s.tallyRefused time.toNat = true → ∃ t, exec (.tallyArm time n) s = .next t ∧ replied 0x0105 [] t ∧
        t.mgt.tallyPending = s.mgt.tallyPending ∧ ∃ e ∈ t.mgt.events, e.code = 5)) ∧
    (∀ v : W32, s.barOpen 0 = true → s.hostWaits = false → s.runsFree 245 = true →
      (bitAt v.toNat 16 = true → s.tallyRefused s.mgt.tallyTime.toNat = false → ∃ t, exec (.mgtTallyGo v) s = .next t ∧
        t.mgt.tallyPending = true ∧ t.mgt.armTime = s.mgt.tallyTime ∧ t.mgt.armNumber = BitVec.ofNat 16 v.toNat) ∧
      (bitAt v.toNat 16 = false → exec (.mgtTallyGo v) s = .next { s with mgt := { s.mgt with tallyNumber := BitVec.ofNat 16 v.toNat } })) ∧
    (∀ i : Nat, s.mgt.tallyPending = true → i < 256 → s.mgt.armTime.toNat ≤ s.time →
      (Tab.get ({} : TallyIsland) s.mgt.islands i).lastTime < s.mgt.armTime.toNat →
      (s.islandRuns i = true → ∃ t, exec (.tallyLatch i) s = .next t ∧ t.counters = s.counters ∧
        (∀ off v, Tab.find s.counters off = some v → (s.counters.map Prod.fst).Nodup →
          (islandOfReg off = i → Tab.find t.shadows off = some (shadowOf off v s.mgt.armNumber)) ∧
          (islandOfReg off ≠ i → Tab.find t.shadows off = Tab.find s.shadows off)) ∧
        (Tab.get ({} : TallyIsland) t.mgt.islands i).lastTime = s.time) ∧
      (s.islandRuns i = false → exec (.tallyLatch i) s = .next s)) ∧
    (s.mgt.tallyPending = true → s.islandRuns 245 = true → s.mgt.armTime.toNat + 1000 ≤ s.time →
      ∃ t, exec .tallyIslandRecord s = .next t ∧ t.mgt.tallyPending = false ∧ t.mgt.tallyLast = s.mgt.armNumber ∧
        ∀ i < 256, (Tab.get ({} : TallyIsland) t.mgt.islands i).stale =
          decide ((Tab.get ({} : TallyIsland) s.mgt.islands i).lastTime < s.mgt.armTime.toNat)) ∧
    (s.chainUp = true →
      (∀ (up : Bool) (f : ChainFrame), (s.chainTx up).queue = [] →
        (∃ t, exec (.chainFrameRx up f false false) s = .next t ∧ countersMoved [(0x118, 1)] s t ∧ t.out = s.out) ∧
        (s.mgt.chainAddr = some f.dst → ∃ t, exec (.chainFrameRx up f true false) s = .next t ∧ countersMoved [(0x108, 1)] s t ∧
          t.out = s.out ++ [.chainAck up]) ∧
        (∀ a, s.mgt.chainAddr = some a → a ≠ f.dst → f.dst ≠ 15 → (if up then f.dst < a else a < f.dst) →
          ∃ t, exec (.chainFrameRx up f true false) s = .next t ∧ t.out = s.out ++ [.chainAck up] ∧
            t.chainTx (!up) = s.chainTx (!up))) ∧
      (∀ (up : Bool) (f : ChainFrame) (rest : List ChainFrame), (s.chainTx up).queue = f :: rest → (s.chainTx up).backoff = 0 →
        (∃ t, exec (.chainFrameRx up f true true) s = .next t ∧ (t.chainTx up).queue = rest ∧ (t.chainTx up).tries = 0) ∧
        ((s.chainTx up).tries < 3 → ∃ t, exec (.chainAckTimeout up) s = .next t ∧ t.out = s.out ++ [.chain up f] ∧
          t.chainTx up = { s.chainTx up with tries := (s.chainTx up).tries + 1 }) ∧
        (3 ≤ (s.chainTx up).tries → ∃ t, exec (.chainAckTimeout up) s = .next t ∧ (t.chainTx up).queue = rest ∧
          ∃ e ∈ t.mgt.events, e.code = 0x000A)) ∧
      (∀ (up : Bool) (f : ChainFrame) (rest : List ChainFrame), (s.chainTx up).queue = f :: rest → (s.chainTx up).backoff ≠ 0 →
        ∃ t, exec (.chainBackoffExpiry up) s = .next t ∧ t.out = s.out ++ [.chain up f] ∧
          t.chainTx up = { s.chainTx up with backoff := 0 }) ∧
      (∀ v : Nat, 1 ≤ v → v ≤ 8 → s.mgt.chainAddr = none → s.mgt.state ≠ .hold →
        ∃ t, exec (.enumerationFrame v) s = .next t ∧ t.mgt.chainAddr = some v ∧ t.walker.boardSlot = v - 1 ∧
          t.out = s.out ++ [.enumerate (v + 1)]) ∧
      (∀ v a : Nat, s.mgt.chainAddr = some a → s.mgt.chainOpen = false →
        (v = a → exec (.enumerationFrame v) s = .next s) ∧
        (v ≠ a → exec (.enumerationFrame v) s = .next (s.event 9))) ∧
      (s.mgt.state = .hold → s.mgt.holdCause = 7 → s.mgt.chainAddr = none → exec .chainAddressTimeout s = .next (s.event 8))) ∧
    (s.mgtUp = true →
      (∀ r : HfRole, (s.role r).head = true → s.grantRole = none → exec (.heartbeatSend r) s = .next (s.emit (.heartbeat r (s.role r).epoch))) ∧
      (∀ (r : HfRole) (epoch : W32) (m : Nat), (s.role r).head = true →
        ((s.role r).epoch.toNat < epoch.toNat ∨ (epoch = (s.role r).epoch ∧ m < s.me) →
          ∃ t, exec (.heartbeatRx r epoch m) s = .next t ∧ (t.role r).head = false ∧ (t.role r).standby = true ∧
            (t.role r).epoch = epoch) ∧
        (epoch.toNat < (s.role r).epoch.toNat → exec (.heartbeatRx r epoch m) s = .next s)) ∧
      (∀ r : HfRole, (s.role r).standby = true → (s.role r).head = false →
        (s.role r).last + 3 * s.mgt.heartbeatMs * 1000000 ≤ s.time →
        ∃ t, exec (.headframeTakeover r) s = .next t ∧ (t.role r).head = true ∧ (t.role r).epoch = (s.role r).epoch + 1 ∧
          ∃ e ∈ t.mgt.events, e.code = 6) ∧
      (∀ (r : HfRole) (m id w : Nat) (stamp : W64), s.grantRole = some r → s.mgt.grantReqs = [] →
        ((s.role r).head = true → s.grantFits w = true → ∃ t, exec (.grantRequestRx m id w stamp) s = .next t ∧
          t.out = s.out ++ [.grant m id w s.gov.validUs] ∧ t.mgt.grants = s.windowGrants ++ [(s.time, w)] ∧ t.mgt.grantReqs = []) ∧
        ((s.role r).head = true ∧ s.grantFits w = false ∨ (s.role r).head = false ∧ (s.role r).standby = true →
          ∃ t, exec (.grantRequestRx m id w stamp) s = .next t ∧ t.out = s.out ∧
            t.mgt.grantReqs = [{ module := m, id := id, watts := w, stamp := stamp.toNat }])) ∧
      (∀ vs : List Nat, ∃ t, exec (.sensorUpdate vs) s = .next t ∧ (∀ i < 15, t.mgt.sensors[i]? = some (vs.getD i 0)) ∧
        t.mgt.sensors[15]? = some (s.counter (govReg 0x128)).toNat ∧
        (∀ i < 15, s.gov.sensorLimit (i + 1) (vs.getD i 0) ≠ Tab.get 0 s.mgt.sensorLimits (i + 1) →
          Out.pldm [i + 1, s.gov.sensorLimit (i + 1) (vs.getD i 0)] ∈ t.out)) ∧
      (∀ n v : Nat, 1 ≤ n → s.mgt.sensors[n - 1]? = some v → exec (.pldmRequest 2 n) s = .next (s.emit (.pldm [n, v]))))

/-! ## 19, 20: pins, PCIe, host accesses -/

/-- Pins, power and the sideband (R410, R425, R502 to R506, R509 to R511): PERST# and the loss of power clear the module, PERST# keeps HBM and a loss of
power does not; the management processor outlives a trip of the die and not a fall of MOD_EN; a TSYNC edge latches the time
base unless one came within 1 µs; a function-level reset disables the windows of its function and recovers its contexts; a
function that leaves D3hot gets its interrupt; the console takes bytes in factory access alone. -/
def Obligations.PinsAndPcie : Prop :=
  ∀ (s : State),
    let cleared (t : State) : Prop :=
      (∀ c, (t.ctx c).bound = false) ∧ (∀ p a, (t.core p).slice.mem.read a = 0) ∧ (∀ i, (t.slot i).type = 0) ∧ t.clk.groupsUp = 0
    let off (t : State) : Prop := cleared t ∧ (∀ a, t.hbm.mem.read a = 0) ∧ t.sec.lifecycle = s.sec.lifecycle ∧
      t.mgt.config = s.mgt.config
    (s.pins.standby = true → s.pins.modEn = true → ∃ t, exec .perstAssert s = .next t ∧ t.pins.perst = true ∧ t.pins.dieOn = true ∧
      cleared t ∧ t.hbm.mem = s.hbm.mem ∧ t.mgt.config = s.mgt.config ∧ t.mgt.events = [] ∧ t.mgt.state = .boot) ∧
    (s.pins.standby = true → s.pins.modEn = false → ∃ t, exec .modEnAssert s = .next t ∧ t.pins.modEn = true ∧
      t.pins.dieOn = true ∧ t.pins.pwrgd = true ∧ t.pins.perst = true ∧ off t) ∧
    (s.pins.modEn = true → ∃ t, exec .modEnDeassert s = .next t ∧ t.pins.modEn = false ∧ t.pins.dieOn = false ∧ off t ∧
      t.mgt.events = []) ∧
    (s.pins.dieOn = true → ∃ t, exec .inputTrip s = .next t ∧ t.pins.dieOn = false ∧ off t ∧ t.mgt.events = s.mgt.events ∧
      t.mgt.chainAddr = s.mgt.chainAddr ∧ (s.mgtUp = true → ∃ text, t.out = s.out ++ [.console text])) ∧
    (∀ high : Bool, s.mgtUp = true → ∃ t, exec (.inputRangeExcursion high) s = .next t ∧
      (∃ e ∈ t.mgt.events, e.code = if high then 0x000D else 0x000C) ∧
      Tab.get 0 t.mgt.sensorLimits 2 = (if high then 2 else 1)) ∧
    (∀ on : Bool, on ≠ s.pins.standby → ∃ t, exec (.standbyPowerChange on) s = .next t ∧ t.pins.standby = on ∧
      t.pins.dieOn = false ∧ off t) ∧
    (s.clockUp = true → s.islandOn 245 = true → s.clk.tsyncOn = true →
      ((∀ t0, s.clk.tsyncLast = some t0 → t0 + 1000 ≤ s.time) → exec .tsyncEdge s =
        .next { s with clk := { s.clk with tsyncLast := some s.time, tsyncCap := s.clk.now, tsyncValid := true } }) ∧
      (∀ t0, s.clk.tsyncLast = some t0 → s.time < t0 + 1000 → ∃ t, exec .tsyncEdge s = .next t ∧
        t.clk.tsyncCap = s.clk.tsyncCap ∧ t.clk.tsyncIgnored.toNat = min 0xFFFF (s.clk.tsyncIgnored.toNat + 1))) ∧
    (∀ time : W64, s.clockUp = true → s.islandOn 245 = true → s.mgt.timePort = none → ∃ t, exec (.ptmMessage time) s = .next t ∧ t.hif.ptmValid = true ∧
      t.clk.now = s.clk.now ∧ t.clk.slew = (time.toNat : Int) - s.time) ∧
    (∀ fn : Nat, s.barLink = true → s.hasFn fn = true →
      (fn ≠ 0 → ∃ t, exec (.functionLevelReset fn) s = .next t ∧ t.hif = s.hif ∧
        (∀ w < 256, (t.window (winKey fn w)).enable = false) ∧
        (∀ f w, f ≠ fn → w < 256 → t.window (winKey f w) = s.window (winKey f w)) ∧
        ∀ c, (s.ctx c).bound = true → (s.ctx c).f.fn.toNat = fn → (t.ctx c).recovering = true) ∧
      (fn ∉ s.hif.d3hot → exec (.pciePowerStateChange fn true) s = .next { s with hif := { s.hif with d3hot := s.hif.d3hot ++ [fn] } }) ∧
      (fn ∈ s.hif.d3hot → ∃ t, exec (.pciePowerStateChange fn false) s = .next t ∧ fn ∉ t.hif.d3hot ∧
        (fn = 0 → s.hif.mbxIrqHeld = true → t.hif.mbxIrqHeld = false ∧ (0 ∈ s.hif.msixOn → Out.msix 0 256 ∈ t.out)))) ∧
    (∀ (rate width : Nat) (flit : Bool), s.barLink = true → 1 ≤ rate → rate ≤ 6 → width = 8 ∨ width = 16 →
      ∃ t, exec (.pcieLinkTrained rate width flit) s = .next t ∧ t.hif = { s.hif with rate := rate, width := width, flit := flit } ∧
        countersMoved (if s.hif.rate = 0 then [] else [(hifReg 0x100, 1)]) s t ∧
        ((rate = 6 ∧ width = 16) → t.mgt = s.mgt) ∧ (¬ (rate = 6 ∧ width = 16) → ∃ e ∈ t.mgt.events, e.code = 0x5801)) ∧
    (s.pins.dieOn = true → s.pins.perst = false → s.clk.held.contains 240 = false →
      (∀ r, s.clk.groupsUp = 0 → exec (.configurationRequest r) s = .next (s.emit (.cfg true))) ∧
      (0 < s.clk.groupsUp → (∀ off, exec (.configurationRequest (.read off)) s = .next (s.emit (.cfg false))) ∧
        (∀ n, n ≤ 64 → exec (.configurationRequest (.writeNumVfs n)) s =
          .next (({ s with hif := { s.hif with numVfs := n } } : State).emit (.cfg false))) ∧
        ∀ fn on, s.hasFn fn = true → ∃ t, exec (.configurationRequest (.writeMsixEnable fn on)) s = .next t ∧
          (fn ∈ t.hif.msixOn ↔ on = true) ∧ ∀ j, j ≠ fn → (j ∈ t.hif.msixOn ↔ j ∈ s.hif.msixOn))) ∧
    (∀ b : Byte, s.chainUp = true →
      (s.factoryMode = true → exec (.uartRxByte b) s = .next { s with pins := { s.pins with uartIn := s.pins.uartIn ++ [b] } }) ∧
      (s.factoryMode = false → exec (.uartRxByte b) s = .next s)) ∧
    (s.pins.dieOn = true →
      (∃ t, exec (.jtagInstruction 1) s = .next t ∧ t.pins = { s.pins with jtag := 1 } ∧ t.out = s.out ++ [.regRead 0x14800ABF]) ∧
      (s.factoryMode = false → ∀ op : W32, 8 < op.toNat → exec (.jtagInstruction op) s =
        .next { s with pins := { s.pins with jtag := 0xFFFFFFFF } }))

/-- Host accesses (R6, R7, R165, R222, R224, R475, R486, R487, R520 to R525): a BAR2 read of HBM or of a slice completes with the bytes
there, but for words that a write of port A meets, and with a poison where a word of the slice is uncorrectable; one that no window takes
is unsupported, a write lands in the one place, and one to a board peer is sent; a peer that does not answer aborts. While a posted write
to a peer is not committed, each later access of the host waits in its place (log entry 69), and takes effect once it is; so does one that goes to an island whose
clock is held, or crosses one (01 R29), with those behind it. A register write of the wrong
size or place is discarded; a flag clears where a 1 is written and stays where a 0 is; the
mailbox's parameters take bytes while no command runs. -/
def Obligations.HostAccesses : Prop :=
  ∀ (s : State),
    (∀ i : Instr, hostAccess i = true → s.hostWaits = true ∨ s.runsFree 240 = false →
      exec i s = .next { s with hif := { s.hif with deferred := s.hif.deferred ++ [i] } }) ∧
    (∀ (bar : HostBar) (off size : Nat) (v : W64), s.runsFree (hostIsland bar off) = false →
      exec (.registerWrite bar off size v) s = .next (s.deferHost (.registerWrite bar off size v))) ∧
    (∀ (off i : Nat) (ask : Bar2Ask) (data : List Byte), i ∈ s.bar2Islands off → s.runsFree i = false →
      exec (.bar2Read off ask) s = .next (s.deferHost (.bar2Read off ask)) ∧
      exec (.bar2Write off data) s = .next (s.deferHost (.bar2Write off data))) ∧
    (s.pending = [] →
      (s.hif.deferred = [] → step s = .next s.tick) ∧
      (s.hif.peer.any (fun q => q.write) = true → step s = .next s.tick) ∧
      (∀ i rest t, s.hif.deferred = i :: rest → s.hif.peer.any (fun q => q.write) = false →
        exec i { s with hif := { s.hif with deferred := [] } } = .next t →
        let u : State := { t with hif := { t.hif with deferred := t.hif.deferred ++ rest } }
        (t.hif.deferred ≠ [i] → step s = .next u) ∧ (t.hif.deferred = [i] → step s = .next u.tick))) ∧
    (s.barLink = true →
    (∀ (off len : Nat) (finds : Finds), tlpOk off len = true → s.hostWaits = false → (s.bar2Islands off).all s.runsFree = true →
      (s.bar2Open = false → exec (.bar2Read off { len := len, finds := finds }) s = .next (s.emit (.completion false false []))) ∧
      (s.bar2Open = true → s.bar2Target off = .refused → ∃ t, exec (.bar2Read off { len := len, finds := finds }) s = .next t ∧
        t.out = s.out ++ [.completion false false []] ∧ t.hbm = s.hbm ∧ t.cores = s.cores) ∧
      (∀ a, s.bar2Open = true → s.bar2Target off = .hbm a → ∃ t, exec (.bar2Read off { len := len, finds := finds }) s = .next t ∧
        ∃ r, s.hbmRead a len (s.bar2Req off a) = r ∧ Out.completion true (decide (r.1 = .poison)) (r.1.bytesOr len) ∈ t.out ∧
          t.hbm.mem = r.2.hbm.mem) ∧
      (∀ p a, s.bar2Open = true → s.bar2Target off = .slice p a → (s.core p).slice.hostRefused a len = false →
        let sl := (s.core p).slice.found finds
        (sl.badIn a len = none → ∃ t bs, exec (.bar2Read off { len := len, finds := finds }) s = .next t ∧ t.out = s.out ++ [.completion true false bs] ∧
          bs.length = len ∧ t.hbm = s.hbm ∧
          ∀ i < len, (a + i) / 64 ∉ (s.core p).slice.undefB → bs.getD i 0 = (s.core p).slice.mem.read (a + i)) ∧
        (∀ w, sl.badIn a len = some w → ∃ t, exec (.bar2Read off { len := len, finds := finds }) s = .next t ∧
          t.out = s.out ++ [.completion true true (zeros len)] ∧ t.counter (sliceReg p 0x118) = s.counter (sliceReg p 0x118) + 1 ∧
          (t.core p).slice.errWord = w * 64 ∧ (t.core p).slice.errValid = true)) ∧
      (∀ dest, s.bar2Open = true → s.bar2Target off = .peer dest →
        exec (.bar2Read off { len := len, finds := finds }) s = .next (s.bar2Peer off dest len false [])) ∧
      (∀ p a, s.bar2Open = true → s.bar2Target off = .slice p a → (s.core p).slice.hostRefused a len = true →
        ∃ t, exec (.bar2Read off { len := len, finds := finds }) s = .next t ∧ t.out = s.out ++ [.completion false false []] ∧ t.cores = s.cores ∧
          countersMoved [(sliceReg p 0x128, 1)] s t)) ∧
    (∀ (off : Nat) (data : List Byte), tlpOk off data.length = true → s.hostWaits = false →
      (s.bar2Islands off).all s.runsFree = true →
      (s.bar2Open = false → exec (.bar2Write off data) s = .next s) ∧
      (s.bar2Open = true → s.bar2Target off = .refused → ∃ t, exec (.bar2Write off data) s = .next t ∧ t.out = s.out ∧
        t.hbm = s.hbm ∧ t.cores = s.cores) ∧
      (∀ a, s.bar2Open = true → s.bar2Target off = .hbm a → ∃ t, exec (.bar2Write off data) s = .next t ∧ t.cores = s.cores ∧
        t.hbm = (s.hbmWrite a data (s.bar2Req off a)).hbm) ∧
      (∀ dest, s.bar2Open = true → s.bar2Target off = .peer dest →
        exec (.bar2Write off data) s = .next (s.bar2Peer off dest data.length true data)) ∧
      (∀ p a, s.bar2Open = true → s.bar2Target off = .slice p a → (s.core p).slice.hostRefused a data.length = false →
        exec (.bar2Write off data) s = .next (s.modSlice p (fun sl => sl.write a data)))) ∧
    (∀ q rest, s.hif.peer = q :: rest → s.sec.drains = [] → ∃ t, exec .bar2PeerTimeout s = .next t ∧ t.hif = { s.hif with peer := rest } ∧
      t.out = (if q.write then s.out else s.out ++ [.abort]) ∧ ∃ e ∈ t.mgt.events, e.code = 0x5804) ∧
    (∀ (off size : Nat) (v : W64), s.barOpen 0 = true → s.hostWaits = false → s.runsFree (islandOfReg off) = true →
      (∀ start bits ctr, regAt off = .reg start bits ctr → (off ≠ start ∨ size * 8 ≠ bits) →
        ∃ t, exec (.registerWrite .pf0 off size v) s = .next t ∧
          t = { s with mgt := { s.mgt with events := t.mgt.events, eventSeq := t.mgt.eventSeq, evtLast := t.mgt.evtLast }, draws := t.draws }) ∧
      (∀ p : Nat, p < 160 → s.islandUp p = true → s.runsFree p = true →
        exec (.registerWrite .pf0 (coreReg p 0x1008) 4 v) s =
          .next (s.modCore p (fun c => { c with mx := { c.mx with flags := c.mx.flags &&& ~~~BitVec.ofNat 3 v.toNat } })) ∧
        exec (.registerWrite .pf0 (coreReg p 0x1808) 4 v) s =
          .next (s.modCore p (fun c => { c with vx := { c.vx with flags := c.vx.flags &&& ~~~BitVec.ofNat 5 v.toNat } }))) ∧
      (∀ n < 16, s.islandUp 240 = true → ∃ t, exec (.registerWrite .pf0 (hifReg (0x1000 + 8 * n)) 8 v) s = .next t ∧
        Tab.get {} t.hif.windows n = { enable := bitAt v.toNat 0, keySlot := bits v.toNat 15 8, base := BitVec.ofNat 16 (bits v.toNat 47 32) } ∧
        ∀ m, m ≠ n → Tab.get ({} : Bar2Win) t.hif.windows m = Tab.get {} s.hif.windows m)) ∧
    (∀ (off size : Nat) (v : W64), s.doorOpen .bar4 = true → s.hostWaits = false → 0x100 ≤ off → off < 0x8000 → size = 4 ∨ size = 8 → off % size = 0 →
      (s.mgt.mbxBusy = true → exec (.registerWrite .bar4 off size v) s = .next s) ∧
      (s.mgt.mbxBusy = false → ∃ t, exec (.registerWrite .bar4 off size v) s = .next t ∧
        (∀ i < size, t.mgt.mbxParams.read (off + i) = (leBytes size v.toNat).getD i 0) ∧
        (∀ a, a < off ∨ off + size ≤ a → t.mgt.mbxParams.read a = s.mgt.mbxParams.read a) ∧
        t = { s with mgt := { s.mgt with mbxParams := t.mgt.mbxParams } })))

/-! ## The whole block -/

/-- The block right after reset: every memory is in its canonical form, and the configuration registers read what the reset columns of
the register tables give (R181, R293, R381, R412, R438): tiles on and full for a core in service and off for a spare, the
expert timeouts, the link timers, the power band, the canary and scrubber settings, the watchdogs. -/
def Obligations.ResetState : Prop :=
  let s : State := State.reset
  s.memWf = true ∧ s.pending = [] ∧
  (∀ p < 160,
    s.regView (sliceReg p 0) = (if p ∈ s.pins.spares then 0 else 0xFFFFFFFF) ∧
    s.regView (sliceReg p 8) = (if p ∈ s.pins.spares then 0 else 0xAAAAAAAAAAAAAAAA) ∧ s.regView (sliceReg p 0x20) = 0 ∧
    ∀ a, (s.core p).slice.mem.read a = 0) ∧
  s.regView (eduReg 0x10004) = 100 + 2000 * 2 ^ 16 ∧ s.regView (eduReg 0x20004) = 100 + 2000 * 2 ^ 16 ∧
  s.regView (lnkReg 0) = 500 + 4 * 2 ^ 16 + 1000 * 2 ^ 20 ∧ s.regView (lnkReg 4) = 1000 + 20 * 2 ^ 16 ∧
  s.regView (lnkReg 8) = 10 + 10 * 2 ^ 16 ∧
  s.regView (govReg 0) = 1500 + 10 * 2 ^ 22 ∧ s.regView (govReg 4) = 0xE4 * 4 ∧
  s.regView (govReg 8) = 20 * 4 + 10000 * 2 ^ 12 ∧ s.regView (govReg 0xC) = 2000 ∧ s.regView (govReg 0x14) = 10 + 2 ^ 8 ∧
  s.regView (relReg 0x10) = 1 + 60 * 2 + 30 * 2 ^ 17 + 6 * 2 ^ 23 + 2 ^ 27 ∧
  s.regView (relReg 0x20) = 1 + 12 * 2 + 8 * 2 ^ 9 ∧ s.regView (rstReg 0) = 100 + 10000 * 2 ^ 16 ∧
  (∀ off, s.counter off = 0)

/-- Every step keeps every memory in its one canonical form: a memory lists its bytes by rising address and lists no byte that is 0,
whichever command is at the front. -/
def Obligations.StepKeepsMemWf : Prop :=
  ∀ (s t : State), s.memWf = true → step s = .next t → t.memWf = true
end

