-- ==== Sys2Proof/Laws/Tab.lean ====
section
/-! SUPPORT. Laws of sparse tables and memories: a read after a write, and the canonical form that every memory operation
keeps. -/

namespace Sys2Proof.Machine

variable {α : Type}

@[simp] theorem Tab.find_nil (k : Nat) : Tab.find ([] : Tab α) k = none := rfl

@[simp] theorem Tab.get_nil (d : α) (k : Nat) : Tab.get d ([] : Tab α) k = d := rfl

/-- A key reads back what was listed at it. -/
@[simp] theorem Tab.find_set_self (t : Tab α) (k : Nat) (v : α) : Tab.find (Tab.set t k v) k = some v := by
  induction t with
  | nil => simp [Tab.set, Tab.find]
  | cons e rest ih =>
    obtain ⟨k', w⟩ := e
    by_cases h : k' = k
    · simp [Tab.set, Tab.find, h]
    · by_cases h2 : k < k'
      · simp [Tab.set, Tab.find, h, h2]
      · simp [Tab.set, Tab.find, h, h2, ih]

/-- Listing one key leaves every other key alone. -/
theorem Tab.find_set_of_ne (t : Tab α) {k j : Nat} (v : α) (h : j ≠ k) : Tab.find (Tab.set t k v) j = Tab.find t j := by
  induction t with
  | nil => simp [Tab.set, Tab.find, h.symm]
  | cons e rest ih =>
    obtain ⟨k', w⟩ := e
    by_cases h1 : k' = k
    · subst h1; simp [Tab.set, Tab.find, h.symm]
    · by_cases h2 : k < k'
      · simp [Tab.set, Tab.find, h1, h2, h.symm]
      · simp only [Tab.set, h1, h2, if_false, Tab.find, ih]

@[simp] theorem Tab.get_set_self (d : α) (t : Tab α) (k : Nat) (v : α) : Tab.get d (Tab.set t k v) k = v := by
  simp [Tab.get]

theorem Tab.get_set_of_ne (d : α) (t : Tab α) {k j : Nat} (v : α) (h : j ≠ k) :
    Tab.get d (Tab.set t k v) j = Tab.get d t j := by
  simp [Tab.get, Tab.find_set_of_ne t v h]

/-- A read after a write, at any key. -/
theorem Tab.get_set (d : α) (t : Tab α) (k j : Nat) (v : α) :
    Tab.get d (Tab.set t k v) j = if j = k then v else Tab.get d t j := by
  by_cases h : j = k
  · simp [h]
  · simp [h, Tab.get_set_of_ne d t v h]

@[simp] theorem Tab.get_modify_self (d : α) (t : Tab α) (k : Nat) (f : α → α) :
    Tab.get d (Tab.modify d t k f) k = f (Tab.get d t k) := by
  simp [Tab.modify]

theorem Tab.get_modify_of_ne (d : α) (t : Tab α) {k j : Nat} (f : α → α) (h : j ≠ k) :
    Tab.get d (Tab.modify d t k f) j = Tab.get d t j := by
  simp [Tab.modify, Tab.get_set_of_ne d t _ h]

/-- Erasing one key leaves every other key alone, and the erased key is not listed. -/
theorem Tab.find_erase (t : Tab α) (k j : Nat) : Tab.find (Tab.erase t k) j = if j = k then none else Tab.find t j := by
  induction t with
  | nil => simp [Tab.erase]
  | cons e rest ih =>
    obtain ⟨k', w⟩ := e
    simp only [Tab.erase, ne_eq, decide_not] at ih ⊢
    by_cases h1 : k' = k
    · rw [List.filter_cons_of_neg (by simp [h1]), ih]
      by_cases hj : j = k
      · simp [hj]
      · simp [hj, Tab.find, h1, Ne.symm hj]
    · rw [List.filter_cons_of_pos (by simp [h1])]
      simp only [Tab.find, ih]
      by_cases hj : k' = j
      · subst hj; simp [h1]
      · simp [hj]

/-! ## The key order -/

/-- Strictly rising keys, in the form induction wants. -/
theorem Tab.sorted_cons (e : Nat × α) (t : Tab α) :
    Tab.sorted (e :: t) = true ↔ (∀ x ∈ t, e.1 < x.1) ∧ Tab.sorted t = true := by
  induction t generalizing e with
  | nil => simp [Tab.sorted]
  | cons b rest ih =>
    simp only [Tab.sorted, Bool.and_eq_true, decide_eq_true_eq, List.mem_cons, forall_eq_or_imp]
    constructor
    · rintro ⟨h1, h2⟩
      exact ⟨⟨h1, fun x hx => Nat.lt_trans h1 (((ih b).1 h2).1 x hx)⟩, h2⟩
    · rintro ⟨⟨h1, _⟩, h2⟩
      exact ⟨h1, h2⟩

theorem Tab.mem_set {t : Tab α} {k : Nat} {v : α} {x : Nat × α} (h : x ∈ Tab.set t k v) : x = (k, v) ∨ x ∈ t := by
  induction t with
  | nil => simpa [Tab.set] using h
  | cons e rest ih =>
    obtain ⟨k', w⟩ := e
    by_cases h1 : k' = k
    · simp only [Tab.set, h1, if_true, List.mem_cons] at h
      rcases h with h | h
      · exact .inl h
      · exact .inr (List.mem_cons_of_mem _ h)
    · by_cases h2 : k < k'
      · simp only [Tab.set, h1, h2, if_true, if_false, List.mem_cons] at h
        rcases h with h | h | h
        · exact .inl h
        · exact .inr (h ▸ List.mem_cons_self)
        · exact .inr (List.mem_cons_of_mem _ h)
      · simp only [Tab.set, h1, h2, if_false, List.mem_cons] at h
        rcases h with h | h
        · exact .inr (h ▸ List.mem_cons_self)
        · exact (ih h).imp id (List.mem_cons_of_mem _)

/-- Listing a key keeps the keys rising. -/
theorem Tab.sorted_set (t : Tab α) (k : Nat) (v : α) (h : Tab.sorted t = true) : Tab.sorted (Tab.set t k v) = true := by
  induction t with
  | nil => rfl
  | cons e rest ih =>
    obtain ⟨k', w⟩ := e
    obtain ⟨h1, h2⟩ := (Tab.sorted_cons _ _).1 h
    by_cases hk : k' = k
    · subst hk
      simp only [Tab.set, if_true]
      exact (Tab.sorted_cons _ _).2 ⟨h1, h2⟩
    · by_cases hl : k < k'
      · simp only [Tab.set, hk, hl, if_true, if_false]
        refine (Tab.sorted_cons _ _).2 ⟨fun x hx => ?_, h⟩
        rcases List.mem_cons.1 hx with hx | hx
        · subst hx; exact hl
        · exact Nat.lt_trans hl (h1 x hx)
      · simp only [Tab.set, hk, hl, if_false]
        refine (Tab.sorted_cons _ _).2 ⟨fun x hx => ?_, ih h2⟩
        rcases Tab.mem_set hx with hx | hx
        · subst hx; simp only; omega
        · exact h1 x hx

/-- A value that is found is listed. -/
theorem Tab.mem_of_find {t : Tab α} {k : Nat} {v : α} (h : Tab.find t k = some v) : (k, v) ∈ t := by
  induction t with
  | nil => simp [Tab.find] at h
  | cons e t ih =>
    obtain ⟨k', w⟩ := e
    simp only [Tab.find] at h
    split at h
    · rename_i hk
      cases h; subst hk; simp
    · exact List.mem_cons_of_mem _ (ih h)

/-- Taking entries out keeps the keys rising. -/
theorem Tab.sorted_filter (t : Tab α) (p : Nat × α → Bool) (h : Tab.sorted t = true) :
    Tab.sorted (t.filter p) = true := by
  induction t with
  | nil => rfl
  | cons e rest ih =>
    obtain ⟨h1, h2⟩ := (Tab.sorted_cons _ _).1 h
    by_cases hp : p e = true
    · rw [List.filter_cons_of_pos hp]
      exact (Tab.sorted_cons _ _).2 ⟨fun x hx => h1 x (List.mem_filter.1 hx).1, ih h2⟩
    · rw [List.filter_cons_of_neg hp]
      exact ih h2

/-! ## Memories -/

@[simp] theorem Mem.wf_nil : Mem.wf [] = true := rfl

theorem Mem.wf_filter (m : Mem) (p : Nat × Byte → Bool) (h : Mem.wf m = true) : Mem.wf (m.filter p) = true := by
  simp only [Mem.wf, Bool.and_eq_true, List.all_eq_true, decide_eq_true_eq] at h ⊢
  exact ⟨Tab.sorted_filter m p h.1, fun x hx => h.2 x (List.mem_filter.1 hx).1⟩

/-- A write keeps the canonical form. -/
theorem Mem.wf_write (m : Mem) (a : Nat) (b : Byte) (h : Mem.wf m = true) : Mem.wf (Mem.write m a b) = true := by
  by_cases hb : b = 0
  · simp only [Mem.write, hb, if_true, Tab.erase]
    exact Mem.wf_filter m _ h
  · simp only [Mem.write, hb, if_false]
    simp only [Mem.wf, Bool.and_eq_true, List.all_eq_true, decide_eq_true_eq] at h ⊢
    refine ⟨Tab.sorted_set m a b h.1, fun x hx => ?_⟩
    rcases Tab.mem_set hx with hx | hx
    · simpa [hx] using hb
    · exact h.2 x hx

theorem Mem.wf_writeN (m : Mem) (a : Nat) (bs : List Byte) (h : Mem.wf m = true) : Mem.wf (Mem.writeN m a bs) = true := by
  induction bs generalizing m a with
  | nil => exact h
  | cons b bs ih => exact ih _ _ (Mem.wf_write m a b h)

theorem Mem.wf_zeroRange (m : Mem) (lo hi : Nat) (h : Mem.wf m = true) : Mem.wf (Mem.zeroRange m lo hi) = true :=
  Mem.wf_filter m _ h

/-- A read after a write of one byte. -/
theorem Mem.read_write (m : Mem) (a c : Nat) (b : Byte) :
    Mem.read (Mem.write m a b) c = if c = a then b else Mem.read m c := by
  unfold Mem.read Mem.write
  by_cases hb : b = 0
  · rw [if_pos hb, Tab.get, Tab.find_erase]
    by_cases h : c = a
    · simp [h, hb]
    · simp [h, Tab.get]
  · rw [if_neg hb, Tab.get_set]

/-- A write of bytes leaves every address outside them alone. -/
theorem Mem.read_writeN_of_out (m : Mem) (a c : Nat) (bs : List Byte) (h : c < a ∨ a + bs.length ≤ c) :
    Mem.read (Mem.writeN m a bs) c = Mem.read m c := by
  induction bs generalizing m a with
  | nil => rfl
  | cons b bs ih =>
    simp only [List.length_cons] at h
    rw [Mem.writeN, ih _ _ (by omega), Mem.read_write, if_neg (by omega)]

/-- A write of bytes reads back. -/
theorem Mem.read_writeN_of_in (m : Mem) (a i : Nat) (bs : List Byte) (h : i < bs.length) :
    Mem.read (Mem.writeN m a bs) (a + i) = bs[i] := by
  induction bs generalizing m a i with
  | nil => simp at h
  | cons b bs ih =>
    cases i with
    | zero => rw [Mem.writeN, Mem.read_writeN_of_out _ _ _ _ (by omega), Mem.read_write]; simp
    | succ i =>
      rw [Mem.writeN]
      have := ih (Mem.write m a b) (a + 1) i (by simpa using h)
      simpa [Nat.add_assoc, Nat.add_comm 1 i] using this

end Sys2Proof.Machine
end

