-- ==== Sys2Proof/Laws/State.lean ====
section
/-! SUPPORT. Laws of the state's updates: one lemma for each field that an update leaves alone, and the reads of what
it writes. -/

namespace Sys2Proof.Machine

/-! ### State.setCore -/

@[simp] theorem State.setCore_pending (s : State) (p : Nat) (c : Core) : (s.setCore p c).pending = s.pending := rfl
@[simp] theorem State.setCore_hbm (s : State) (p : Nat) (c : Core) : (s.setCore p c).hbm = s.hbm := rfl
@[simp] theorem State.setCore_msc (s : State) (p : Nat) (c : Core) : (s.setCore p c).msc = s.msc := rfl
@[simp] theorem State.setCore_walker (s : State) (p : Nat) (c : Core) : (s.setCore p c).walker = s.walker := rfl
@[simp] theorem State.setCore_kvs (s : State) (p : Nat) (c : Core) : (s.setCore p c).kvs = s.kvs := rfl
@[simp] theorem State.setCore_edu (s : State) (p : Nat) (c : Core) : (s.setCore p c).edu = s.edu := rfl
@[simp] theorem State.setCore_cmd (s : State) (p : Nat) (c : Core) : (s.setCore p c).cmd = s.cmd := rfl
@[simp] theorem State.setCore_lnk (s : State) (p : Nat) (c : Core) : (s.setCore p c).lnk = s.lnk := rfl
@[simp] theorem State.setCore_gov (s : State) (p : Nat) (c : Core) : (s.setCore p c).gov = s.gov := rfl
@[simp] theorem State.setCore_rel (s : State) (p : Nat) (c : Core) : (s.setCore p c).rel = s.rel := rfl
@[simp] theorem State.setCore_sec (s : State) (p : Nat) (c : Core) : (s.setCore p c).sec = s.sec := rfl
@[simp] theorem State.setCore_mgt (s : State) (p : Nat) (c : Core) : (s.setCore p c).mgt = s.mgt := rfl
@[simp] theorem State.setCore_hif (s : State) (p : Nat) (c : Core) : (s.setCore p c).hif = s.hif := rfl
@[simp] theorem State.setCore_clk (s : State) (p : Nat) (c : Core) : (s.setCore p c).clk = s.clk := rfl
@[simp] theorem State.setCore_net (s : State) (p : Nat) (c : Core) : (s.setCore p c).net = s.net := rfl
@[simp] theorem State.setCore_pins (s : State) (p : Nat) (c : Core) : (s.setCore p c).pins = s.pins := rfl
@[simp] theorem State.setCore_counters (s : State) (p : Nat) (c : Core) : (s.setCore p c).counters = s.counters := rfl
@[simp] theorem State.setCore_shadows (s : State) (p : Nat) (c : Core) : (s.setCore p c).shadows = s.shadows := rfl
@[simp] theorem State.setCore_draws (s : State) (p : Nat) (c : Core) : (s.setCore p c).draws = s.draws := rfl
@[simp] theorem State.setCore_out (s : State) (p : Nat) (c : Core) : (s.setCore p c).out = s.out := rfl

/-! ### State.modCore -/

@[simp] theorem State.modCore_pending (s : State) (p : Nat) (f : Core → Core) : (s.modCore p f).pending = s.pending := rfl
@[simp] theorem State.modCore_hbm (s : State) (p : Nat) (f : Core → Core) : (s.modCore p f).hbm = s.hbm := rfl
@[simp] theorem State.modCore_msc (s : State) (p : Nat) (f : Core → Core) : (s.modCore p f).msc = s.msc := rfl
@[simp] theorem State.modCore_walker (s : State) (p : Nat) (f : Core → Core) : (s.modCore p f).walker = s.walker := rfl
@[simp] theorem State.modCore_kvs (s : State) (p : Nat) (f : Core → Core) : (s.modCore p f).kvs = s.kvs := rfl
@[simp] theorem State.modCore_edu (s : State) (p : Nat) (f : Core → Core) : (s.modCore p f).edu = s.edu := rfl
@[simp] theorem State.modCore_cmd (s : State) (p : Nat) (f : Core → Core) : (s.modCore p f).cmd = s.cmd := rfl
@[simp] theorem State.modCore_lnk (s : State) (p : Nat) (f : Core → Core) : (s.modCore p f).lnk = s.lnk := rfl
@[simp] theorem State.modCore_gov (s : State) (p : Nat) (f : Core → Core) : (s.modCore p f).gov = s.gov := rfl
@[simp] theorem State.modCore_rel (s : State) (p : Nat) (f : Core → Core) : (s.modCore p f).rel = s.rel := rfl
@[simp] theorem State.modCore_sec (s : State) (p : Nat) (f : Core → Core) : (s.modCore p f).sec = s.sec := rfl
@[simp] theorem State.modCore_mgt (s : State) (p : Nat) (f : Core → Core) : (s.modCore p f).mgt = s.mgt := rfl
@[simp] theorem State.modCore_hif (s : State) (p : Nat) (f : Core → Core) : (s.modCore p f).hif = s.hif := rfl
@[simp] theorem State.modCore_clk (s : State) (p : Nat) (f : Core → Core) : (s.modCore p f).clk = s.clk := rfl
@[simp] theorem State.modCore_net (s : State) (p : Nat) (f : Core → Core) : (s.modCore p f).net = s.net := rfl
@[simp] theorem State.modCore_pins (s : State) (p : Nat) (f : Core → Core) : (s.modCore p f).pins = s.pins := rfl
@[simp] theorem State.modCore_counters (s : State) (p : Nat) (f : Core → Core) : (s.modCore p f).counters = s.counters := rfl
@[simp] theorem State.modCore_shadows (s : State) (p : Nat) (f : Core → Core) : (s.modCore p f).shadows = s.shadows := rfl
@[simp] theorem State.modCore_draws (s : State) (p : Nat) (f : Core → Core) : (s.modCore p f).draws = s.draws := rfl
@[simp] theorem State.modCore_out (s : State) (p : Nat) (f : Core → Core) : (s.modCore p f).out = s.out := rfl

/-! ### State.modSeq -/

@[simp] theorem State.modSeq_pending (s : State) (p : Nat) (f : Sequencer → Sequencer) : (s.modSeq p f).pending = s.pending := rfl
@[simp] theorem State.modSeq_hbm (s : State) (p : Nat) (f : Sequencer → Sequencer) : (s.modSeq p f).hbm = s.hbm := rfl
@[simp] theorem State.modSeq_msc (s : State) (p : Nat) (f : Sequencer → Sequencer) : (s.modSeq p f).msc = s.msc := rfl
@[simp] theorem State.modSeq_walker (s : State) (p : Nat) (f : Sequencer → Sequencer) : (s.modSeq p f).walker = s.walker := rfl
@[simp] theorem State.modSeq_kvs (s : State) (p : Nat) (f : Sequencer → Sequencer) : (s.modSeq p f).kvs = s.kvs := rfl
@[simp] theorem State.modSeq_edu (s : State) (p : Nat) (f : Sequencer → Sequencer) : (s.modSeq p f).edu = s.edu := rfl
@[simp] theorem State.modSeq_cmd (s : State) (p : Nat) (f : Sequencer → Sequencer) : (s.modSeq p f).cmd = s.cmd := rfl
@[simp] theorem State.modSeq_lnk (s : State) (p : Nat) (f : Sequencer → Sequencer) : (s.modSeq p f).lnk = s.lnk := rfl
@[simp] theorem State.modSeq_gov (s : State) (p : Nat) (f : Sequencer → Sequencer) : (s.modSeq p f).gov = s.gov := rfl
@[simp] theorem State.modSeq_rel (s : State) (p : Nat) (f : Sequencer → Sequencer) : (s.modSeq p f).rel = s.rel := rfl
@[simp] theorem State.modSeq_sec (s : State) (p : Nat) (f : Sequencer → Sequencer) : (s.modSeq p f).sec = s.sec := rfl
@[simp] theorem State.modSeq_mgt (s : State) (p : Nat) (f : Sequencer → Sequencer) : (s.modSeq p f).mgt = s.mgt := rfl
@[simp] theorem State.modSeq_hif (s : State) (p : Nat) (f : Sequencer → Sequencer) : (s.modSeq p f).hif = s.hif := rfl
@[simp] theorem State.modSeq_clk (s : State) (p : Nat) (f : Sequencer → Sequencer) : (s.modSeq p f).clk = s.clk := rfl
@[simp] theorem State.modSeq_net (s : State) (p : Nat) (f : Sequencer → Sequencer) : (s.modSeq p f).net = s.net := rfl
@[simp] theorem State.modSeq_pins (s : State) (p : Nat) (f : Sequencer → Sequencer) : (s.modSeq p f).pins = s.pins := rfl
@[simp] theorem State.modSeq_counters (s : State) (p : Nat) (f : Sequencer → Sequencer) : (s.modSeq p f).counters = s.counters := rfl
@[simp] theorem State.modSeq_shadows (s : State) (p : Nat) (f : Sequencer → Sequencer) : (s.modSeq p f).shadows = s.shadows := rfl
@[simp] theorem State.modSeq_draws (s : State) (p : Nat) (f : Sequencer → Sequencer) : (s.modSeq p f).draws = s.draws := rfl
@[simp] theorem State.modSeq_out (s : State) (p : Nat) (f : Sequencer → Sequencer) : (s.modSeq p f).out = s.out := rfl

/-! ### State.modSlice -/

@[simp] theorem State.modSlice_pending (s : State) (p : Nat) (f : Slice → Slice) : (s.modSlice p f).pending = s.pending := rfl
@[simp] theorem State.modSlice_hbm (s : State) (p : Nat) (f : Slice → Slice) : (s.modSlice p f).hbm = s.hbm := rfl
@[simp] theorem State.modSlice_msc (s : State) (p : Nat) (f : Slice → Slice) : (s.modSlice p f).msc = s.msc := rfl
@[simp] theorem State.modSlice_walker (s : State) (p : Nat) (f : Slice → Slice) : (s.modSlice p f).walker = s.walker := rfl
@[simp] theorem State.modSlice_kvs (s : State) (p : Nat) (f : Slice → Slice) : (s.modSlice p f).kvs = s.kvs := rfl
@[simp] theorem State.modSlice_edu (s : State) (p : Nat) (f : Slice → Slice) : (s.modSlice p f).edu = s.edu := rfl
@[simp] theorem State.modSlice_cmd (s : State) (p : Nat) (f : Slice → Slice) : (s.modSlice p f).cmd = s.cmd := rfl
@[simp] theorem State.modSlice_lnk (s : State) (p : Nat) (f : Slice → Slice) : (s.modSlice p f).lnk = s.lnk := rfl
@[simp] theorem State.modSlice_gov (s : State) (p : Nat) (f : Slice → Slice) : (s.modSlice p f).gov = s.gov := rfl
@[simp] theorem State.modSlice_rel (s : State) (p : Nat) (f : Slice → Slice) : (s.modSlice p f).rel = s.rel := rfl
@[simp] theorem State.modSlice_sec (s : State) (p : Nat) (f : Slice → Slice) : (s.modSlice p f).sec = s.sec := rfl
@[simp] theorem State.modSlice_mgt (s : State) (p : Nat) (f : Slice → Slice) : (s.modSlice p f).mgt = s.mgt := rfl
@[simp] theorem State.modSlice_hif (s : State) (p : Nat) (f : Slice → Slice) : (s.modSlice p f).hif = s.hif := rfl
@[simp] theorem State.modSlice_clk (s : State) (p : Nat) (f : Slice → Slice) : (s.modSlice p f).clk = s.clk := rfl
@[simp] theorem State.modSlice_net (s : State) (p : Nat) (f : Slice → Slice) : (s.modSlice p f).net = s.net := rfl
@[simp] theorem State.modSlice_pins (s : State) (p : Nat) (f : Slice → Slice) : (s.modSlice p f).pins = s.pins := rfl
@[simp] theorem State.modSlice_counters (s : State) (p : Nat) (f : Slice → Slice) : (s.modSlice p f).counters = s.counters := rfl
@[simp] theorem State.modSlice_shadows (s : State) (p : Nat) (f : Slice → Slice) : (s.modSlice p f).shadows = s.shadows := rfl
@[simp] theorem State.modSlice_draws (s : State) (p : Nat) (f : Slice → Slice) : (s.modSlice p f).draws = s.draws := rfl
@[simp] theorem State.modSlice_out (s : State) (p : Nat) (f : Slice → Slice) : (s.modSlice p f).out = s.out := rfl

/-! ### State.modCtx -/

@[simp] theorem State.modCtx_pending (s : State) (i : Nat) (f : Ctx → Ctx) : (s.modCtx i f).pending = s.pending := rfl
@[simp] theorem State.modCtx_cores (s : State) (i : Nat) (f : Ctx → Ctx) : (s.modCtx i f).cores = s.cores := rfl
@[simp] theorem State.modCtx_hbm (s : State) (i : Nat) (f : Ctx → Ctx) : (s.modCtx i f).hbm = s.hbm := rfl
@[simp] theorem State.modCtx_msc (s : State) (i : Nat) (f : Ctx → Ctx) : (s.modCtx i f).msc = s.msc := rfl
@[simp] theorem State.modCtx_walker (s : State) (i : Nat) (f : Ctx → Ctx) : (s.modCtx i f).walker = s.walker := rfl
@[simp] theorem State.modCtx_kvs (s : State) (i : Nat) (f : Ctx → Ctx) : (s.modCtx i f).kvs = s.kvs := rfl
@[simp] theorem State.modCtx_edu (s : State) (i : Nat) (f : Ctx → Ctx) : (s.modCtx i f).edu = s.edu := rfl
@[simp] theorem State.modCtx_lnk (s : State) (i : Nat) (f : Ctx → Ctx) : (s.modCtx i f).lnk = s.lnk := rfl
@[simp] theorem State.modCtx_gov (s : State) (i : Nat) (f : Ctx → Ctx) : (s.modCtx i f).gov = s.gov := rfl
@[simp] theorem State.modCtx_rel (s : State) (i : Nat) (f : Ctx → Ctx) : (s.modCtx i f).rel = s.rel := rfl
@[simp] theorem State.modCtx_sec (s : State) (i : Nat) (f : Ctx → Ctx) : (s.modCtx i f).sec = s.sec := rfl
@[simp] theorem State.modCtx_mgt (s : State) (i : Nat) (f : Ctx → Ctx) : (s.modCtx i f).mgt = s.mgt := rfl
@[simp] theorem State.modCtx_hif (s : State) (i : Nat) (f : Ctx → Ctx) : (s.modCtx i f).hif = s.hif := rfl
@[simp] theorem State.modCtx_clk (s : State) (i : Nat) (f : Ctx → Ctx) : (s.modCtx i f).clk = s.clk := rfl
@[simp] theorem State.modCtx_net (s : State) (i : Nat) (f : Ctx → Ctx) : (s.modCtx i f).net = s.net := rfl
@[simp] theorem State.modCtx_pins (s : State) (i : Nat) (f : Ctx → Ctx) : (s.modCtx i f).pins = s.pins := rfl
@[simp] theorem State.modCtx_counters (s : State) (i : Nat) (f : Ctx → Ctx) : (s.modCtx i f).counters = s.counters := rfl
@[simp] theorem State.modCtx_shadows (s : State) (i : Nat) (f : Ctx → Ctx) : (s.modCtx i f).shadows = s.shadows := rfl
@[simp] theorem State.modCtx_draws (s : State) (i : Nat) (f : Ctx → Ctx) : (s.modCtx i f).draws = s.draws := rfl
@[simp] theorem State.modCtx_out (s : State) (i : Nat) (f : Ctx → Ctx) : (s.modCtx i f).out = s.out := rfl

/-! ### State.modPanel -/

@[simp] theorem State.modPanel_pending (s : State) (k : Nat) (f : Panel → Panel) : (s.modPanel k f).pending = s.pending := rfl
@[simp] theorem State.modPanel_cores (s : State) (k : Nat) (f : Panel → Panel) : (s.modPanel k f).cores = s.cores := rfl
@[simp] theorem State.modPanel_hbm (s : State) (k : Nat) (f : Panel → Panel) : (s.modPanel k f).hbm = s.hbm := rfl
@[simp] theorem State.modPanel_msc (s : State) (k : Nat) (f : Panel → Panel) : (s.modPanel k f).msc = s.msc := rfl
@[simp] theorem State.modPanel_walker (s : State) (k : Nat) (f : Panel → Panel) : (s.modPanel k f).walker = s.walker := rfl
@[simp] theorem State.modPanel_kvs (s : State) (k : Nat) (f : Panel → Panel) : (s.modPanel k f).kvs = s.kvs := rfl
@[simp] theorem State.modPanel_edu (s : State) (k : Nat) (f : Panel → Panel) : (s.modPanel k f).edu = s.edu := rfl
@[simp] theorem State.modPanel_lnk (s : State) (k : Nat) (f : Panel → Panel) : (s.modPanel k f).lnk = s.lnk := rfl
@[simp] theorem State.modPanel_gov (s : State) (k : Nat) (f : Panel → Panel) : (s.modPanel k f).gov = s.gov := rfl
@[simp] theorem State.modPanel_rel (s : State) (k : Nat) (f : Panel → Panel) : (s.modPanel k f).rel = s.rel := rfl
@[simp] theorem State.modPanel_sec (s : State) (k : Nat) (f : Panel → Panel) : (s.modPanel k f).sec = s.sec := rfl
@[simp] theorem State.modPanel_mgt (s : State) (k : Nat) (f : Panel → Panel) : (s.modPanel k f).mgt = s.mgt := rfl
@[simp] theorem State.modPanel_hif (s : State) (k : Nat) (f : Panel → Panel) : (s.modPanel k f).hif = s.hif := rfl
@[simp] theorem State.modPanel_clk (s : State) (k : Nat) (f : Panel → Panel) : (s.modPanel k f).clk = s.clk := rfl
@[simp] theorem State.modPanel_net (s : State) (k : Nat) (f : Panel → Panel) : (s.modPanel k f).net = s.net := rfl
@[simp] theorem State.modPanel_pins (s : State) (k : Nat) (f : Panel → Panel) : (s.modPanel k f).pins = s.pins := rfl
@[simp] theorem State.modPanel_counters (s : State) (k : Nat) (f : Panel → Panel) : (s.modPanel k f).counters = s.counters := rfl
@[simp] theorem State.modPanel_shadows (s : State) (k : Nat) (f : Panel → Panel) : (s.modPanel k f).shadows = s.shadows := rfl
@[simp] theorem State.modPanel_draws (s : State) (k : Nat) (f : Panel → Panel) : (s.modPanel k f).draws = s.draws := rfl
@[simp] theorem State.modPanel_out (s : State) (k : Nat) (f : Panel → Panel) : (s.modPanel k f).out = s.out := rfl

/-! ### State.modWindow -/

@[simp] theorem State.modWindow_pending (s : State) (k : Nat) (f : Window → Window) : (s.modWindow k f).pending = s.pending := rfl
@[simp] theorem State.modWindow_cores (s : State) (k : Nat) (f : Window → Window) : (s.modWindow k f).cores = s.cores := rfl
@[simp] theorem State.modWindow_hbm (s : State) (k : Nat) (f : Window → Window) : (s.modWindow k f).hbm = s.hbm := rfl
@[simp] theorem State.modWindow_msc (s : State) (k : Nat) (f : Window → Window) : (s.modWindow k f).msc = s.msc := rfl
@[simp] theorem State.modWindow_walker (s : State) (k : Nat) (f : Window → Window) : (s.modWindow k f).walker = s.walker := rfl
@[simp] theorem State.modWindow_kvs (s : State) (k : Nat) (f : Window → Window) : (s.modWindow k f).kvs = s.kvs := rfl
@[simp] theorem State.modWindow_edu (s : State) (k : Nat) (f : Window → Window) : (s.modWindow k f).edu = s.edu := rfl
@[simp] theorem State.modWindow_lnk (s : State) (k : Nat) (f : Window → Window) : (s.modWindow k f).lnk = s.lnk := rfl
@[simp] theorem State.modWindow_gov (s : State) (k : Nat) (f : Window → Window) : (s.modWindow k f).gov = s.gov := rfl
@[simp] theorem State.modWindow_rel (s : State) (k : Nat) (f : Window → Window) : (s.modWindow k f).rel = s.rel := rfl
@[simp] theorem State.modWindow_sec (s : State) (k : Nat) (f : Window → Window) : (s.modWindow k f).sec = s.sec := rfl
@[simp] theorem State.modWindow_mgt (s : State) (k : Nat) (f : Window → Window) : (s.modWindow k f).mgt = s.mgt := rfl
@[simp] theorem State.modWindow_hif (s : State) (k : Nat) (f : Window → Window) : (s.modWindow k f).hif = s.hif := rfl
@[simp] theorem State.modWindow_clk (s : State) (k : Nat) (f : Window → Window) : (s.modWindow k f).clk = s.clk := rfl
@[simp] theorem State.modWindow_net (s : State) (k : Nat) (f : Window → Window) : (s.modWindow k f).net = s.net := rfl
@[simp] theorem State.modWindow_pins (s : State) (k : Nat) (f : Window → Window) : (s.modWindow k f).pins = s.pins := rfl
@[simp] theorem State.modWindow_counters (s : State) (k : Nat) (f : Window → Window) : (s.modWindow k f).counters = s.counters := rfl
@[simp] theorem State.modWindow_shadows (s : State) (k : Nat) (f : Window → Window) : (s.modWindow k f).shadows = s.shadows := rfl
@[simp] theorem State.modWindow_draws (s : State) (k : Nat) (f : Window → Window) : (s.modWindow k f).draws = s.draws := rfl
@[simp] theorem State.modWindow_out (s : State) (k : Nat) (f : Window → Window) : (s.modWindow k f).out = s.out := rfl

/-! ### State.modSlot -/

@[simp] theorem State.modSlot_pending (s : State) (i : Nat) (f : KeySlot → KeySlot) : (s.modSlot i f).pending = s.pending := rfl
@[simp] theorem State.modSlot_cores (s : State) (i : Nat) (f : KeySlot → KeySlot) : (s.modSlot i f).cores = s.cores := rfl
@[simp] theorem State.modSlot_hbm (s : State) (i : Nat) (f : KeySlot → KeySlot) : (s.modSlot i f).hbm = s.hbm := rfl
@[simp] theorem State.modSlot_msc (s : State) (i : Nat) (f : KeySlot → KeySlot) : (s.modSlot i f).msc = s.msc := rfl
@[simp] theorem State.modSlot_walker (s : State) (i : Nat) (f : KeySlot → KeySlot) : (s.modSlot i f).walker = s.walker := rfl
@[simp] theorem State.modSlot_kvs (s : State) (i : Nat) (f : KeySlot → KeySlot) : (s.modSlot i f).kvs = s.kvs := rfl
@[simp] theorem State.modSlot_edu (s : State) (i : Nat) (f : KeySlot → KeySlot) : (s.modSlot i f).edu = s.edu := rfl
@[simp] theorem State.modSlot_cmd (s : State) (i : Nat) (f : KeySlot → KeySlot) : (s.modSlot i f).cmd = s.cmd := rfl
@[simp] theorem State.modSlot_lnk (s : State) (i : Nat) (f : KeySlot → KeySlot) : (s.modSlot i f).lnk = s.lnk := rfl
@[simp] theorem State.modSlot_gov (s : State) (i : Nat) (f : KeySlot → KeySlot) : (s.modSlot i f).gov = s.gov := rfl
@[simp] theorem State.modSlot_rel (s : State) (i : Nat) (f : KeySlot → KeySlot) : (s.modSlot i f).rel = s.rel := rfl
@[simp] theorem State.modSlot_mgt (s : State) (i : Nat) (f : KeySlot → KeySlot) : (s.modSlot i f).mgt = s.mgt := rfl
@[simp] theorem State.modSlot_hif (s : State) (i : Nat) (f : KeySlot → KeySlot) : (s.modSlot i f).hif = s.hif := rfl
@[simp] theorem State.modSlot_clk (s : State) (i : Nat) (f : KeySlot → KeySlot) : (s.modSlot i f).clk = s.clk := rfl
@[simp] theorem State.modSlot_net (s : State) (i : Nat) (f : KeySlot → KeySlot) : (s.modSlot i f).net = s.net := rfl
@[simp] theorem State.modSlot_pins (s : State) (i : Nat) (f : KeySlot → KeySlot) : (s.modSlot i f).pins = s.pins := rfl
@[simp] theorem State.modSlot_counters (s : State) (i : Nat) (f : KeySlot → KeySlot) : (s.modSlot i f).counters = s.counters := rfl
@[simp] theorem State.modSlot_shadows (s : State) (i : Nat) (f : KeySlot → KeySlot) : (s.modSlot i f).shadows = s.shadows := rfl
@[simp] theorem State.modSlot_draws (s : State) (i : Nat) (f : KeySlot → KeySlot) : (s.modSlot i f).draws = s.draws := rfl
@[simp] theorem State.modSlot_out (s : State) (i : Nat) (f : KeySlot → KeySlot) : (s.modSlot i f).out = s.out := rfl

/-! ### State.modPort -/

@[simp] theorem State.modPort_pending (s : State) (p : Nat) (f : Port → Port) : (s.modPort p f).pending = s.pending := rfl
@[simp] theorem State.modPort_cores (s : State) (p : Nat) (f : Port → Port) : (s.modPort p f).cores = s.cores := rfl
@[simp] theorem State.modPort_hbm (s : State) (p : Nat) (f : Port → Port) : (s.modPort p f).hbm = s.hbm := rfl
@[simp] theorem State.modPort_msc (s : State) (p : Nat) (f : Port → Port) : (s.modPort p f).msc = s.msc := rfl
@[simp] theorem State.modPort_walker (s : State) (p : Nat) (f : Port → Port) : (s.modPort p f).walker = s.walker := rfl
@[simp] theorem State.modPort_kvs (s : State) (p : Nat) (f : Port → Port) : (s.modPort p f).kvs = s.kvs := rfl
@[simp] theorem State.modPort_edu (s : State) (p : Nat) (f : Port → Port) : (s.modPort p f).edu = s.edu := rfl
@[simp] theorem State.modPort_cmd (s : State) (p : Nat) (f : Port → Port) : (s.modPort p f).cmd = s.cmd := rfl
@[simp] theorem State.modPort_gov (s : State) (p : Nat) (f : Port → Port) : (s.modPort p f).gov = s.gov := rfl
@[simp] theorem State.modPort_rel (s : State) (p : Nat) (f : Port → Port) : (s.modPort p f).rel = s.rel := rfl
@[simp] theorem State.modPort_sec (s : State) (p : Nat) (f : Port → Port) : (s.modPort p f).sec = s.sec := rfl
@[simp] theorem State.modPort_mgt (s : State) (p : Nat) (f : Port → Port) : (s.modPort p f).mgt = s.mgt := rfl
@[simp] theorem State.modPort_hif (s : State) (p : Nat) (f : Port → Port) : (s.modPort p f).hif = s.hif := rfl
@[simp] theorem State.modPort_clk (s : State) (p : Nat) (f : Port → Port) : (s.modPort p f).clk = s.clk := rfl
@[simp] theorem State.modPort_net (s : State) (p : Nat) (f : Port → Port) : (s.modPort p f).net = s.net := rfl
@[simp] theorem State.modPort_pins (s : State) (p : Nat) (f : Port → Port) : (s.modPort p f).pins = s.pins := rfl
@[simp] theorem State.modPort_counters (s : State) (p : Nat) (f : Port → Port) : (s.modPort p f).counters = s.counters := rfl
@[simp] theorem State.modPort_shadows (s : State) (p : Nat) (f : Port → Port) : (s.modPort p f).shadows = s.shadows := rfl
@[simp] theorem State.modPort_draws (s : State) (p : Nat) (f : Port → Port) : (s.modPort p f).draws = s.draws := rfl
@[simp] theorem State.modPort_out (s : State) (p : Nat) (f : Port → Port) : (s.modPort p f).out = s.out := rfl

/-! ### State.modSelector -/

@[simp] theorem State.modSelector_pending (s : State) (h : Nat) (f : Selector → Selector) : (s.modSelector h f).pending = s.pending := rfl
@[simp] theorem State.modSelector_cores (s : State) (h : Nat) (f : Selector → Selector) : (s.modSelector h f).cores = s.cores := rfl
@[simp] theorem State.modSelector_hbm (s : State) (h : Nat) (f : Selector → Selector) : (s.modSelector h f).hbm = s.hbm := rfl
@[simp] theorem State.modSelector_msc (s : State) (h : Nat) (f : Selector → Selector) : (s.modSelector h f).msc = s.msc := rfl
@[simp] theorem State.modSelector_walker (s : State) (h : Nat) (f : Selector → Selector) : (s.modSelector h f).walker = s.walker := rfl
@[simp] theorem State.modSelector_edu (s : State) (h : Nat) (f : Selector → Selector) : (s.modSelector h f).edu = s.edu := rfl
@[simp] theorem State.modSelector_cmd (s : State) (h : Nat) (f : Selector → Selector) : (s.modSelector h f).cmd = s.cmd := rfl
@[simp] theorem State.modSelector_lnk (s : State) (h : Nat) (f : Selector → Selector) : (s.modSelector h f).lnk = s.lnk := rfl
@[simp] theorem State.modSelector_gov (s : State) (h : Nat) (f : Selector → Selector) : (s.modSelector h f).gov = s.gov := rfl
@[simp] theorem State.modSelector_rel (s : State) (h : Nat) (f : Selector → Selector) : (s.modSelector h f).rel = s.rel := rfl
@[simp] theorem State.modSelector_sec (s : State) (h : Nat) (f : Selector → Selector) : (s.modSelector h f).sec = s.sec := rfl
@[simp] theorem State.modSelector_mgt (s : State) (h : Nat) (f : Selector → Selector) : (s.modSelector h f).mgt = s.mgt := rfl
@[simp] theorem State.modSelector_hif (s : State) (h : Nat) (f : Selector → Selector) : (s.modSelector h f).hif = s.hif := rfl
@[simp] theorem State.modSelector_clk (s : State) (h : Nat) (f : Selector → Selector) : (s.modSelector h f).clk = s.clk := rfl
@[simp] theorem State.modSelector_net (s : State) (h : Nat) (f : Selector → Selector) : (s.modSelector h f).net = s.net := rfl
@[simp] theorem State.modSelector_pins (s : State) (h : Nat) (f : Selector → Selector) : (s.modSelector h f).pins = s.pins := rfl
@[simp] theorem State.modSelector_counters (s : State) (h : Nat) (f : Selector → Selector) : (s.modSelector h f).counters = s.counters := rfl
@[simp] theorem State.modSelector_shadows (s : State) (h : Nat) (f : Selector → Selector) : (s.modSelector h f).shadows = s.shadows := rfl
@[simp] theorem State.modSelector_draws (s : State) (h : Nat) (f : Selector → Selector) : (s.modSelector h f).draws = s.draws := rfl
@[simp] theorem State.modSelector_out (s : State) (h : Nat) (f : Selector → Selector) : (s.modSelector h f).out = s.out := rfl

/-! ### State.count -/

@[simp] theorem State.count_pending (s : State) (off n : Nat) : (s.count off n).pending = s.pending := rfl
@[simp] theorem State.count_cores (s : State) (off n : Nat) : (s.count off n).cores = s.cores := rfl
@[simp] theorem State.count_hbm (s : State) (off n : Nat) : (s.count off n).hbm = s.hbm := rfl
@[simp] theorem State.count_msc (s : State) (off n : Nat) : (s.count off n).msc = s.msc := rfl
@[simp] theorem State.count_walker (s : State) (off n : Nat) : (s.count off n).walker = s.walker := rfl
@[simp] theorem State.count_kvs (s : State) (off n : Nat) : (s.count off n).kvs = s.kvs := rfl
@[simp] theorem State.count_edu (s : State) (off n : Nat) : (s.count off n).edu = s.edu := rfl
@[simp] theorem State.count_cmd (s : State) (off n : Nat) : (s.count off n).cmd = s.cmd := rfl
@[simp] theorem State.count_lnk (s : State) (off n : Nat) : (s.count off n).lnk = s.lnk := rfl
@[simp] theorem State.count_gov (s : State) (off n : Nat) : (s.count off n).gov = s.gov := rfl
@[simp] theorem State.count_rel (s : State) (off n : Nat) : (s.count off n).rel = s.rel := rfl
@[simp] theorem State.count_sec (s : State) (off n : Nat) : (s.count off n).sec = s.sec := rfl
@[simp] theorem State.count_mgt (s : State) (off n : Nat) : (s.count off n).mgt = s.mgt := rfl
@[simp] theorem State.count_hif (s : State) (off n : Nat) : (s.count off n).hif = s.hif := rfl
@[simp] theorem State.count_clk (s : State) (off n : Nat) : (s.count off n).clk = s.clk := rfl
@[simp] theorem State.count_net (s : State) (off n : Nat) : (s.count off n).net = s.net := rfl
@[simp] theorem State.count_pins (s : State) (off n : Nat) : (s.count off n).pins = s.pins := rfl
@[simp] theorem State.count_shadows (s : State) (off n : Nat) : (s.count off n).shadows = s.shadows := rfl
@[simp] theorem State.count_draws (s : State) (off n : Nat) : (s.count off n).draws = s.draws := rfl
@[simp] theorem State.count_out (s : State) (off n : Nat) : (s.count off n).out = s.out := rfl

/-! ### State.charge -/

@[simp] theorem State.charge_pending (s : State) (i off n : Nat) : (s.charge i off n).pending = s.pending := rfl
@[simp] theorem State.charge_cores (s : State) (i off n : Nat) : (s.charge i off n).cores = s.cores := rfl
@[simp] theorem State.charge_hbm (s : State) (i off n : Nat) : (s.charge i off n).hbm = s.hbm := rfl
@[simp] theorem State.charge_msc (s : State) (i off n : Nat) : (s.charge i off n).msc = s.msc := rfl
@[simp] theorem State.charge_walker (s : State) (i off n : Nat) : (s.charge i off n).walker = s.walker := rfl
@[simp] theorem State.charge_kvs (s : State) (i off n : Nat) : (s.charge i off n).kvs = s.kvs := rfl
@[simp] theorem State.charge_edu (s : State) (i off n : Nat) : (s.charge i off n).edu = s.edu := rfl
@[simp] theorem State.charge_lnk (s : State) (i off n : Nat) : (s.charge i off n).lnk = s.lnk := rfl
@[simp] theorem State.charge_gov (s : State) (i off n : Nat) : (s.charge i off n).gov = s.gov := rfl
@[simp] theorem State.charge_rel (s : State) (i off n : Nat) : (s.charge i off n).rel = s.rel := rfl
@[simp] theorem State.charge_sec (s : State) (i off n : Nat) : (s.charge i off n).sec = s.sec := rfl
@[simp] theorem State.charge_mgt (s : State) (i off n : Nat) : (s.charge i off n).mgt = s.mgt := rfl
@[simp] theorem State.charge_hif (s : State) (i off n : Nat) : (s.charge i off n).hif = s.hif := rfl
@[simp] theorem State.charge_clk (s : State) (i off n : Nat) : (s.charge i off n).clk = s.clk := rfl
@[simp] theorem State.charge_net (s : State) (i off n : Nat) : (s.charge i off n).net = s.net := rfl
@[simp] theorem State.charge_pins (s : State) (i off n : Nat) : (s.charge i off n).pins = s.pins := rfl
@[simp] theorem State.charge_counters (s : State) (i off n : Nat) : (s.charge i off n).counters = s.counters := rfl
@[simp] theorem State.charge_shadows (s : State) (i off n : Nat) : (s.charge i off n).shadows = s.shadows := rfl
@[simp] theorem State.charge_draws (s : State) (i off n : Nat) : (s.charge i off n).draws = s.draws := rfl
@[simp] theorem State.charge_out (s : State) (i off n : Nat) : (s.charge i off n).out = s.out := rfl

/-! ### State.emit -/

@[simp] theorem State.emit_pending (s : State) (o : Out) : (s.emit o).pending = s.pending := rfl
@[simp] theorem State.emit_cores (s : State) (o : Out) : (s.emit o).cores = s.cores := rfl
@[simp] theorem State.emit_hbm (s : State) (o : Out) : (s.emit o).hbm = s.hbm := rfl
@[simp] theorem State.emit_msc (s : State) (o : Out) : (s.emit o).msc = s.msc := rfl
@[simp] theorem State.emit_walker (s : State) (o : Out) : (s.emit o).walker = s.walker := rfl
@[simp] theorem State.emit_kvs (s : State) (o : Out) : (s.emit o).kvs = s.kvs := rfl
@[simp] theorem State.emit_edu (s : State) (o : Out) : (s.emit o).edu = s.edu := rfl
@[simp] theorem State.emit_cmd (s : State) (o : Out) : (s.emit o).cmd = s.cmd := rfl
@[simp] theorem State.emit_lnk (s : State) (o : Out) : (s.emit o).lnk = s.lnk := rfl
@[simp] theorem State.emit_gov (s : State) (o : Out) : (s.emit o).gov = s.gov := rfl
@[simp] theorem State.emit_rel (s : State) (o : Out) : (s.emit o).rel = s.rel := rfl
@[simp] theorem State.emit_sec (s : State) (o : Out) : (s.emit o).sec = s.sec := rfl
@[simp] theorem State.emit_mgt (s : State) (o : Out) : (s.emit o).mgt = s.mgt := rfl
@[simp] theorem State.emit_hif (s : State) (o : Out) : (s.emit o).hif = s.hif := rfl
@[simp] theorem State.emit_clk (s : State) (o : Out) : (s.emit o).clk = s.clk := rfl
@[simp] theorem State.emit_net (s : State) (o : Out) : (s.emit o).net = s.net := rfl
@[simp] theorem State.emit_pins (s : State) (o : Out) : (s.emit o).pins = s.pins := rfl
@[simp] theorem State.emit_counters (s : State) (o : Out) : (s.emit o).counters = s.counters := rfl
@[simp] theorem State.emit_shadows (s : State) (o : Out) : (s.emit o).shadows = s.shadows := rfl
@[simp] theorem State.emit_draws (s : State) (o : Out) : (s.emit o).draws = s.draws := rfl

/-! ### State.event -/

@[simp] theorem State.event_pending (s : State) (code : Nat) : (s.event code).pending = s.pending := rfl
@[simp] theorem State.event_cores (s : State) (code : Nat) : (s.event code).cores = s.cores := rfl
@[simp] theorem State.event_hbm (s : State) (code : Nat) : (s.event code).hbm = s.hbm := rfl
@[simp] theorem State.event_msc (s : State) (code : Nat) : (s.event code).msc = s.msc := rfl
@[simp] theorem State.event_walker (s : State) (code : Nat) : (s.event code).walker = s.walker := rfl
@[simp] theorem State.event_kvs (s : State) (code : Nat) : (s.event code).kvs = s.kvs := rfl
@[simp] theorem State.event_edu (s : State) (code : Nat) : (s.event code).edu = s.edu := rfl
@[simp] theorem State.event_cmd (s : State) (code : Nat) : (s.event code).cmd = s.cmd := rfl
@[simp] theorem State.event_lnk (s : State) (code : Nat) : (s.event code).lnk = s.lnk := rfl
@[simp] theorem State.event_gov (s : State) (code : Nat) : (s.event code).gov = s.gov := rfl
@[simp] theorem State.event_rel (s : State) (code : Nat) : (s.event code).rel = s.rel := rfl
@[simp] theorem State.event_sec (s : State) (code : Nat) : (s.event code).sec = s.sec := rfl
@[simp] theorem State.event_hif (s : State) (code : Nat) : (s.event code).hif = s.hif := rfl
@[simp] theorem State.event_clk (s : State) (code : Nat) : (s.event code).clk = s.clk := rfl
@[simp] theorem State.event_net (s : State) (code : Nat) : (s.event code).net = s.net := rfl
@[simp] theorem State.event_pins (s : State) (code : Nat) : (s.event code).pins = s.pins := rfl
@[simp] theorem State.event_counters (s : State) (code : Nat) : (s.event code).counters = s.counters := rfl
@[simp] theorem State.event_shadows (s : State) (code : Nat) : (s.event code).shadows = s.shadows := rfl
@[simp] theorem State.event_out (s : State) (code : Nat) : (s.event code).out = s.out := rfl

/-! ### State.setArrival -/

@[simp] theorem State.setArrival_pending (s : State) (p : Nat) (c : BitVec 8) (v : Half) : (s.setArrival p c v).pending = s.pending := rfl
@[simp] theorem State.setArrival_hbm (s : State) (p : Nat) (c : BitVec 8) (v : Half) : (s.setArrival p c v).hbm = s.hbm := rfl
@[simp] theorem State.setArrival_msc (s : State) (p : Nat) (c : BitVec 8) (v : Half) : (s.setArrival p c v).msc = s.msc := rfl
@[simp] theorem State.setArrival_walker (s : State) (p : Nat) (c : BitVec 8) (v : Half) : (s.setArrival p c v).walker = s.walker := rfl
@[simp] theorem State.setArrival_kvs (s : State) (p : Nat) (c : BitVec 8) (v : Half) : (s.setArrival p c v).kvs = s.kvs := rfl
@[simp] theorem State.setArrival_edu (s : State) (p : Nat) (c : BitVec 8) (v : Half) : (s.setArrival p c v).edu = s.edu := rfl
@[simp] theorem State.setArrival_cmd (s : State) (p : Nat) (c : BitVec 8) (v : Half) : (s.setArrival p c v).cmd = s.cmd := rfl
@[simp] theorem State.setArrival_lnk (s : State) (p : Nat) (c : BitVec 8) (v : Half) : (s.setArrival p c v).lnk = s.lnk := rfl
@[simp] theorem State.setArrival_gov (s : State) (p : Nat) (c : BitVec 8) (v : Half) : (s.setArrival p c v).gov = s.gov := rfl
@[simp] theorem State.setArrival_rel (s : State) (p : Nat) (c : BitVec 8) (v : Half) : (s.setArrival p c v).rel = s.rel := rfl
@[simp] theorem State.setArrival_sec (s : State) (p : Nat) (c : BitVec 8) (v : Half) : (s.setArrival p c v).sec = s.sec := rfl
@[simp] theorem State.setArrival_mgt (s : State) (p : Nat) (c : BitVec 8) (v : Half) : (s.setArrival p c v).mgt = s.mgt := rfl
@[simp] theorem State.setArrival_hif (s : State) (p : Nat) (c : BitVec 8) (v : Half) : (s.setArrival p c v).hif = s.hif := rfl
@[simp] theorem State.setArrival_clk (s : State) (p : Nat) (c : BitVec 8) (v : Half) : (s.setArrival p c v).clk = s.clk := rfl
@[simp] theorem State.setArrival_net (s : State) (p : Nat) (c : BitVec 8) (v : Half) : (s.setArrival p c v).net = s.net := rfl
@[simp] theorem State.setArrival_pins (s : State) (p : Nat) (c : BitVec 8) (v : Half) : (s.setArrival p c v).pins = s.pins := rfl
@[simp] theorem State.setArrival_counters (s : State) (p : Nat) (c : BitVec 8) (v : Half) : (s.setArrival p c v).counters = s.counters := rfl
@[simp] theorem State.setArrival_shadows (s : State) (p : Nat) (c : BitVec 8) (v : Half) : (s.setArrival p c v).shadows = s.shadows := rfl
@[simp] theorem State.setArrival_draws (s : State) (p : Nat) (c : BitVec 8) (v : Half) : (s.setArrival p c v).draws = s.draws := rfl
@[simp] theorem State.setArrival_out (s : State) (p : Nat) (c : BitVec 8) (v : Half) : (s.setArrival p c v).out = s.out := rfl

/-! ### State.raiseCtr -/

@[simp] theorem State.raiseCtr_pending (s : State) (p : Nat) (c : BitVec 8) : (s.raiseCtr p c).pending = s.pending := rfl
@[simp] theorem State.raiseCtr_hbm (s : State) (p : Nat) (c : BitVec 8) : (s.raiseCtr p c).hbm = s.hbm := rfl
@[simp] theorem State.raiseCtr_msc (s : State) (p : Nat) (c : BitVec 8) : (s.raiseCtr p c).msc = s.msc := rfl
@[simp] theorem State.raiseCtr_walker (s : State) (p : Nat) (c : BitVec 8) : (s.raiseCtr p c).walker = s.walker := rfl
@[simp] theorem State.raiseCtr_kvs (s : State) (p : Nat) (c : BitVec 8) : (s.raiseCtr p c).kvs = s.kvs := rfl
@[simp] theorem State.raiseCtr_edu (s : State) (p : Nat) (c : BitVec 8) : (s.raiseCtr p c).edu = s.edu := rfl
@[simp] theorem State.raiseCtr_cmd (s : State) (p : Nat) (c : BitVec 8) : (s.raiseCtr p c).cmd = s.cmd := rfl
@[simp] theorem State.raiseCtr_lnk (s : State) (p : Nat) (c : BitVec 8) : (s.raiseCtr p c).lnk = s.lnk := rfl
@[simp] theorem State.raiseCtr_gov (s : State) (p : Nat) (c : BitVec 8) : (s.raiseCtr p c).gov = s.gov := rfl
@[simp] theorem State.raiseCtr_rel (s : State) (p : Nat) (c : BitVec 8) : (s.raiseCtr p c).rel = s.rel := rfl
@[simp] theorem State.raiseCtr_sec (s : State) (p : Nat) (c : BitVec 8) : (s.raiseCtr p c).sec = s.sec := rfl
@[simp] theorem State.raiseCtr_mgt (s : State) (p : Nat) (c : BitVec 8) : (s.raiseCtr p c).mgt = s.mgt := rfl
@[simp] theorem State.raiseCtr_hif (s : State) (p : Nat) (c : BitVec 8) : (s.raiseCtr p c).hif = s.hif := rfl
@[simp] theorem State.raiseCtr_clk (s : State) (p : Nat) (c : BitVec 8) : (s.raiseCtr p c).clk = s.clk := rfl
@[simp] theorem State.raiseCtr_net (s : State) (p : Nat) (c : BitVec 8) : (s.raiseCtr p c).net = s.net := rfl
@[simp] theorem State.raiseCtr_pins (s : State) (p : Nat) (c : BitVec 8) : (s.raiseCtr p c).pins = s.pins := rfl
@[simp] theorem State.raiseCtr_counters (s : State) (p : Nat) (c : BitVec 8) : (s.raiseCtr p c).counters = s.counters := rfl
@[simp] theorem State.raiseCtr_shadows (s : State) (p : Nat) (c : BitVec 8) : (s.raiseCtr p c).shadows = s.shadows := rfl
@[simp] theorem State.raiseCtr_draws (s : State) (p : Nat) (c : BitVec 8) : (s.raiseCtr p c).draws = s.draws := rfl
@[simp] theorem State.raiseCtr_out (s : State) (p : Nat) (c : BitVec 8) : (s.raiseCtr p c).out = s.out := rfl

/-! ### State.deferHost -/

@[simp] theorem State.deferHost_pending (s : State) (i : Instr) : (s.deferHost i).pending = s.pending := rfl
@[simp] theorem State.deferHost_cores (s : State) (i : Instr) : (s.deferHost i).cores = s.cores := rfl
@[simp] theorem State.deferHost_hbm (s : State) (i : Instr) : (s.deferHost i).hbm = s.hbm := rfl
@[simp] theorem State.deferHost_msc (s : State) (i : Instr) : (s.deferHost i).msc = s.msc := rfl
@[simp] theorem State.deferHost_walker (s : State) (i : Instr) : (s.deferHost i).walker = s.walker := rfl
@[simp] theorem State.deferHost_kvs (s : State) (i : Instr) : (s.deferHost i).kvs = s.kvs := rfl
@[simp] theorem State.deferHost_edu (s : State) (i : Instr) : (s.deferHost i).edu = s.edu := rfl
@[simp] theorem State.deferHost_cmd (s : State) (i : Instr) : (s.deferHost i).cmd = s.cmd := rfl
@[simp] theorem State.deferHost_lnk (s : State) (i : Instr) : (s.deferHost i).lnk = s.lnk := rfl
@[simp] theorem State.deferHost_gov (s : State) (i : Instr) : (s.deferHost i).gov = s.gov := rfl
@[simp] theorem State.deferHost_rel (s : State) (i : Instr) : (s.deferHost i).rel = s.rel := rfl
@[simp] theorem State.deferHost_sec (s : State) (i : Instr) : (s.deferHost i).sec = s.sec := rfl
@[simp] theorem State.deferHost_mgt (s : State) (i : Instr) : (s.deferHost i).mgt = s.mgt := rfl
@[simp] theorem State.deferHost_clk (s : State) (i : Instr) : (s.deferHost i).clk = s.clk := rfl
@[simp] theorem State.deferHost_net (s : State) (i : Instr) : (s.deferHost i).net = s.net := rfl
@[simp] theorem State.deferHost_pins (s : State) (i : Instr) : (s.deferHost i).pins = s.pins := rfl
@[simp] theorem State.deferHost_counters (s : State) (i : Instr) : (s.deferHost i).counters = s.counters := rfl
@[simp] theorem State.deferHost_shadows (s : State) (i : Instr) : (s.deferHost i).shadows = s.shadows := rfl
@[simp] theorem State.deferHost_draws (s : State) (i : Instr) : (s.deferHost i).draws = s.draws := rfl
@[simp] theorem State.deferHost_out (s : State) (i : Instr) : (s.deferHost i).out = s.out := rfl

/-! ### Reads of what an update writes -/

/-- Core `q` after core `p` is replaced. -/
theorem State.core_setCore (s : State) (p q : Nat) (c : Core) :
    (s.setCore p c).core q = if q = p then c else s.core q := by
  by_cases h : q = p
  · subst h; simp [State.core, State.setCore]
  · simp [State.core, State.setCore, Tab.find_set_of_ne _ _ h, h]

@[simp] theorem State.core_setCore_self (s : State) (p : Nat) (c : Core) : (s.setCore p c).core p = c := by
  simp [State.core_setCore]

/-- Core `q` after core `p` is changed. -/
theorem State.core_modCore (s : State) (p q : Nat) (f : Core → Core) :
    (s.modCore p f).core q = if q = p then f (s.core p) else s.core q := State.core_setCore s p q _

@[simp] theorem State.core_modCore_self (s : State) (p : Nat) (f : Core → Core) : (s.modCore p f).core p = f (s.core p) := by
  simp [State.core_modCore]

/-- Core `q` after the sequencer of core `p` is changed. -/
theorem State.core_modSeq (s : State) (p q : Nat) (f : Sequencer → Sequencer) :
    (s.modSeq p f).core q = if q = p then { s.core p with seq := f (s.core p).seq } else s.core q :=
  State.core_modCore s p q _

@[simp] theorem State.core_modSeq_self (s : State) (p : Nat) (f : Sequencer → Sequencer) :
    (s.modSeq p f).core p = { s.core p with seq := f (s.core p).seq } := State.core_modCore_self s p _

/-- Core `q` after the slice of core `p` is changed. -/
theorem State.core_modSlice (s : State) (p q : Nat) (f : Slice → Slice) :
    (s.modSlice p f).core q = if q = p then { s.core p with slice := f (s.core p).slice } else s.core q :=
  State.core_modCore s p q _

@[simp] theorem State.core_modSlice_self (s : State) (p : Nat) (f : Slice → Slice) :
    (s.modSlice p f).core p = { s.core p with slice := f (s.core p).slice } := State.core_modCore_self s p _

@[simp] theorem State.core_modCtx (s : State) (q : Nat) (i : Nat) (f : Ctx → Ctx) : (s.modCtx i f).core q = s.core q := rfl
@[simp] theorem State.core_modPanel (s : State) (q : Nat) (k : Nat) (f : Panel → Panel) : (s.modPanel k f).core q = s.core q := rfl
@[simp] theorem State.core_modWindow (s : State) (q : Nat) (k : Nat) (f : Window → Window) : (s.modWindow k f).core q = s.core q := rfl
@[simp] theorem State.core_modSlot (s : State) (q : Nat) (i : Nat) (f : KeySlot → KeySlot) : (s.modSlot i f).core q = s.core q := rfl
@[simp] theorem State.core_modPort (s : State) (q : Nat) (p' : Nat) (f : Port → Port) : (s.modPort p' f).core q = s.core q := rfl
@[simp] theorem State.core_modSelector (s : State) (q : Nat) (h : Nat) (f : Selector → Selector) : (s.modSelector h f).core q = s.core q := rfl
@[simp] theorem State.core_count (s : State) (q : Nat) (off n : Nat) : (s.count off n).core q = s.core q := rfl
@[simp] theorem State.core_charge (s : State) (q : Nat) (i off n : Nat) : (s.charge i off n).core q = s.core q := rfl
@[simp] theorem State.core_emit (s : State) (q : Nat) (o : Out) : (s.emit o).core q = s.core q := rfl
@[simp] theorem State.core_event (s : State) (q : Nat) (code : Nat) : (s.event code).core q = s.core q := rfl
@[simp] theorem State.core_deferHost (s : State) (q : Nat) (i : Instr) : (s.deferHost i).core q = s.core q := rfl

/-- The ctx at `j` after the one at `i` is changed. -/
theorem State.ctx_modCtx (s : State) (i j : Nat) (f : Ctx → Ctx) :
    (s.modCtx i f).ctx j = if j = i then f (s.ctx i) else s.ctx j := by
  simp only [State.ctx, State.modCtx, Tab.modify, Tab.get_set]

/-- The panel at `j` after the one at `k` is changed. -/
theorem State.panel_modPanel (s : State) (k j : Nat) (f : Panel → Panel) :
    (s.modPanel k f).panel j = if j = k then f (s.panel k) else s.panel j := by
  simp only [State.panel, State.modPanel, Tab.modify, Tab.get_set]

/-- The window at `j` after the one at `k` is changed. -/
theorem State.window_modWindow (s : State) (k j : Nat) (f : Window → Window) :
    (s.modWindow k f).window j = if j = k then f (s.window k) else s.window j := by
  simp only [State.window, State.modWindow, Tab.modify, Tab.get_set]

/-- The slot at `j` after the one at `i` is changed. -/
theorem State.slot_modSlot (s : State) (i j : Nat) (f : KeySlot → KeySlot) :
    (s.modSlot i f).slot j = if j = i then f (s.slot i) else s.slot j := by
  simp only [State.slot, State.modSlot, Tab.modify, Tab.get_set]

/-- The port at `j` after the one at `p` is changed. -/
theorem State.port_modPort (s : State) (p j : Nat) (f : Port → Port) :
    (s.modPort p f).port j = if j = p then f (s.port p) else s.port j := by
  simp only [State.port, State.modPort, Tab.modify, Tab.get_set]

/-- The selector at `j` after the one at `h` is changed. -/
theorem State.selector_modSelector (s : State) (h j : Nat) (f : Selector → Selector) :
    (s.modSelector h f).selector j = if j = h then f (s.selector h) else s.selector j := by
  simp only [State.selector, State.modSelector, Tab.modify, Tab.get_set]

/-- A counter after a counter is raised. -/
theorem State.counter_count (s : State) (off n j : Nat) :
    (s.count off n).counter j = if j = off then s.counter off + BitVec.ofNat 64 n else s.counter j := by
  simp only [State.counter, State.count, Tab.modify, Tab.get_set]

/-- The log after an event (R11, R491): the newest entry is the event, and the sequence number has risen by 1. -/
theorem State.event_log (s : State) (code : Nat) :
    (s.event code).mgt.events = keepEvents (s.mgt.events ++
      [{ seq := s.mgt.eventSeq, code := BitVec.ofNat 16 code, arg := Config.eventArg s.draws, time := s.clk.now }]) ∧
    (s.event code).mgt.eventSeq = s.mgt.eventSeq + 1 := by
  simp only [State.event, and_self]

/-- An arrival counter after one is set (R71). -/
theorem State.arrival_setArrival (s : State) (p q : Nat) (c d : BitVec 8) (v : Half) :
    (s.setArrival p c v).arrival q d = if q = p ∧ d = c then v else s.arrival q d := by
  simp only [State.arrival, State.setArrival, State.core_modSlice]
  by_cases hq : q = p
  · subst hq
    by_cases hd : d = c
    · simp [hd]
    · have : d.toNat ≠ c.toNat := fun h => hd (BitVec.eq_of_toNat_eq h)
      simp [hd, Tab.get_set_of_ne _ _ _ this]
  · simp [hq]

/-- The log never holds more than 4,096 entries (R491). -/
theorem keepEvents_length (l : List Event) : (keepEvents l).length ≤ 4096 := by
  simp only [keepEvents, List.length_reverse, List.length_take]
  omega

/-! ### What the freeze unit changes (R25, R419, R420) -/

/-- Posting a record changes the reliability block, the contexts, the events and one counter, and nothing else. -/
theorem State.postFreeze_frame (s : State) (sub master code : Nat) (cx : Option (Nat × BitVec 8)) :
    ∃ cmd rel mgt counters draws, s.postFreeze sub master code cx =
      { s with cmd := cmd, rel := rel, mgt := mgt, counters := counters, draws := draws } := by
  unfold State.postFreeze
  cases cx <;> simp only [State.modCtx, State.event, State.count] <;> split_ifs <;> exact ⟨_, _, _, _, _, rfl⟩

@[simp] theorem State.core_postFreeze (s : State) (sub master code q : Nat) (cx : Option (Nat × BitVec 8)) :
    (s.postFreeze sub master code cx).core q = s.core q := by
  obtain ⟨a, b, c, d, e, h⟩ := State.postFreeze_frame s sub master code cx
  rw [h]
  simp only [State.core]

/-- Freezing a core halts it, keeps the address of the instruction and the code, and leaves every other core as it was
(R25, R86). -/
theorem State.core_freezeSeq (s : State) (p q code : Nat) :
    (s.freezeSeq p code).core q =
      if q = p then
        { s.core p with seq := { (s.core p).seq with
            state := .frozen, faultCode := BitVec.ofNat 16 code, faultPc := (s.core p).seq.pc, held := none } }
      else s.core q := by
  unfold State.freezeSeq State.freezeCore
  by_cases h : q = p
  · subst h; simp
  · simp [State.core_modSeq, h]

end Sys2Proof.Machine
end

