-- ==== Sys2Proof/Laws/Hbm.lean ====
section
/-! SUPPORT. Laws of the accesses of HBM: what each of them may change, and that it keeps the memory's canonical form. -/

namespace Sys2Proof.Machine

/-- From s to t only what an access of HBM may change has changed: HBM, the memory-side cache, the poison log, the event log, counters
and the free values drawn; and HBM keeps its canonical form. -/
structure HbmOnly (s t : State) : Prop where
  pending : t.pending = s.pending
  cores : t.cores = s.cores
  walker : t.walker = s.walker
  kvs : t.kvs = s.kvs
  edu : t.edu = s.edu
  cmd : t.cmd = s.cmd
  lnk : t.lnk = s.lnk
  gov : t.gov = s.gov
  sec : t.sec = s.sec
  hif : t.hif = s.hif
  clk : t.clk = s.clk
  net : t.net = s.net
  pins : t.pins = s.pins
  shadows : t.shadows = s.shadows
  out : t.out = s.out
  rel : ∃ log next, t.rel = { s.rel with poisonLog := log, poisonNext := next }
  mgt : ∃ events seq, t.mgt = { s.mgt with events := events, eventSeq := seq }
  wf : Mem.wf s.hbm.mem = true → Mem.wf t.hbm.mem = true

theorem HbmOnly.refl (s : State) : HbmOnly s s where
  pending := rfl
  cores := rfl
  walker := rfl
  kvs := rfl
  edu := rfl
  cmd := rfl
  lnk := rfl
  gov := rfl
  sec := rfl
  hif := rfl
  clk := rfl
  net := rfl
  pins := rfl
  shadows := rfl
  out := rfl
  rel := ⟨_, _, rfl⟩
  mgt := ⟨_, _, rfl⟩
  wf := id

theorem HbmOnly.trans {s t u : State} (h : HbmOnly s t) (k : HbmOnly t u) : HbmOnly s u where
  pending := k.pending.trans h.pending
  cores := k.cores.trans h.cores
  walker := k.walker.trans h.walker
  kvs := k.kvs.trans h.kvs
  edu := k.edu.trans h.edu
  cmd := k.cmd.trans h.cmd
  lnk := k.lnk.trans h.lnk
  gov := k.gov.trans h.gov
  sec := k.sec.trans h.sec
  hif := k.hif.trans h.hif
  clk := k.clk.trans h.clk
  net := k.net.trans h.net
  pins := k.pins.trans h.pins
  shadows := k.shadows.trans h.shadows
  out := k.out.trans h.out
  rel := by
    obtain ⟨a, b, e⟩ := h.rel
    obtain ⟨c, d, f⟩ := k.rel
    exact ⟨c, d, by rw [f, e]⟩
  mgt := by
    obtain ⟨a, b, e⟩ := h.mgt
    obtain ⟨c, d, f⟩ := k.mgt
    exact ⟨c, d, by rw [f, e]⟩
  wf := fun w => k.wf (h.wf w)

/-- An update of HBM alone that keeps the canonical form. -/
theorem HbmOnly.hbm (s : State) (m : Hbm) (h : Mem.wf s.hbm.mem = true → Mem.wf m.mem = true) : HbmOnly s { s with hbm := m } :=
  { HbmOnly.refl s with wf := h }

/-- An update of the cache alone. -/
theorem HbmOnly.msc (s : State) (m : Msc) : HbmOnly s { s with msc := m } := { HbmOnly.refl s with }

theorem HbmOnly.count (s : State) (off n : Nat) : HbmOnly s (s.count off n) := { HbmOnly.refl s with }

theorem HbmOnly.event (s : State) (code : Nat) : HbmOnly s (s.event code) :=
  { HbmOnly.refl s with mgt := ⟨_, _, rfl⟩ }

theorem HbmOnly.draw (s : State) (n : Nat) : HbmOnly s (s.drawBytes n).2 := { HbmOnly.refl s with }

/-! ## The cache -/

theorem State.mscDrop_only (s : State) (line : Nat) (back : Bool) : HbmOnly s (s.mscDrop line back) := by
  unfold State.mscDrop
  split
  · exact .refl s
  · dsimp only
    split
    · exact ((HbmOnly.msc s _).trans (.count _ _ _)).trans (.count _ _ _)
    · exact .msc s _

theorem State.mscRoom_only (s : State) (line ways : Nat) : HbmOnly s (s.mscRoom line ways).2 := by
  unfold State.mscRoom
  dsimp only
  split
  · exact .refl s
  · split
    · exact s.mscDrop_only _ _
    · exact .refl s

theorem State.mscPut_only (s : State) (line sec : Nat) (l : MscLine) (write : Bool) : HbmOnly s (s.mscPut line sec l write) :=
  .msc s _

theorem State.dramTouch_only (s : State) (h : Nat) (write full : Bool) : HbmOnly s (s.dramTouch h write full) := by
  unfold State.dramTouch
  dsimp only
  split_ifs
  · exact (HbmOnly.count s _ _).trans (.count _ _ _)
  · exact .count s _ _
  · exact .count s _ _
  · exact .refl s

theorem State.fillTouch_only (s : State) (h : Nat) (write full : Bool) : HbmOnly s (s.fillTouch h write full) := by
  unfold State.fillTouch
  split
  · exact .refl s
  · exact .count s _ _

theorem State.mscMiss_only (s : State) (off : Nat) (r : HReq) (write full : Bool) : HbmOnly s (s.mscMiss off r write full) := by
  unfold State.mscMiss
  dsimp only
  split
  · exact (HbmOnly.count s _ _).trans (State.dramTouch_only _ _ _ _)
  · exact (((HbmOnly.count s _ _).trans (State.mscRoom_only _ _ _)).trans (State.fillTouch_only _ _ _ _)).trans
      (State.mscPut_only _ _ _ _ _)

/-- A request at the cache changes the cache and counters. -/
theorem State.mscAccess_only (s : State) (off : Nat) (r : HReq) (write full : Bool) : HbmOnly s (s.mscAccess off r write full) := by
  unfold State.mscAccess
  dsimp only
  split
  · split
    · split
      · exact (HbmOnly.count s _ _).trans (State.mscPut_only _ _ _ _ _)
      · split
        · exact (HbmOnly.count s _ _).trans (State.dramTouch_only _ _ _ _)
        · exact ((HbmOnly.count s _ _).trans (State.fillTouch_only _ _ _ _)).trans (State.mscPut_only _ _ _ _ _)
    · exact ((HbmOnly.count s _ _).trans (State.mscDrop_only _ _ _)).trans (State.mscMiss_only _ _ _ _ _)
  · exact s.mscMiss_only _ _ _ _

theorem State.mscDropAll_only (s : State) (p : Nat → MscLine → Bool) : HbmOnly s (s.mscDropAll p) := .msc s _

/-! ## Retirement and poison -/

theorem State.remapFrame_only (s : State) (f : Nat) : HbmOnly s (s.remapFrame f) := by
  unfold State.remapFrame
  dsimp only
  refine HbmOnly.trans ?_ (.event _ _)
  refine HbmOnly.trans ?_ (.count _ _ _)
  refine HbmOnly.trans ?_ (.count _ _ _)
  exact .hbm s _ id

theorem State.zeroFrame_only (s : State) (f material : Nat) : HbmOnly s (s.zeroFrame f material) := by
  unfold State.zeroFrame
  dsimp only
  refine HbmOnly.trans ?_ (.hbm _ _ (Mem.wf_zeroRange _ _ _))
  exact (s.mscDropAll_only _).trans (.count _ _ _)

theorem State.logPoison_only (s : State) (f : Nat) (demand : Bool) : HbmOnly s (s.logPoison f demand) :=
  { HbmOnly.refl s with rel := ⟨_, _, rfl⟩ }

theorem State.poisonOnly_only (s : State) (f : Nat) (demand : Bool) : HbmOnly s (s.poisonOnly f demand) := by
  unfold State.poisonOnly
  dsimp only
  refine HbmOnly.trans ?_ (.event _ _)
  refine HbmOnly.trans ?_ (State.logPoison_only _ _ _)
  refine HbmOnly.trans ?_ (.hbm _ _ (Mem.wf_zeroRange _ _ _))
  exact (s.mscDropAll_only _).trans (.count _ _ _)

theorem State.unpoison_only (s : State) (f : Nat) : HbmOnly s (s.unpoison f) := .hbm s _ id

theorem State.markRepaired_only (s : State) (f : Nat) : HbmOnly s (s.markRepaired f) :=
  { HbmOnly.refl s with rel := ⟨_, _, rfl⟩ }

theorem State.repairFrame_only (s : State) (f : Nat) : HbmOnly s (s.repairFrame f) := by
  unfold State.repairFrame
  have h1 := HbmOnly.draw s 1
  generalize s.drawBytes 1 = ok at h1 ⊢
  split
  · exact .refl s
  · rename_i e _
    dsimp only
    split
    · exact h1
    · have h2 := HbmOnly.draw ok.2 65536
      generalize ok.2.drawBytes 65536 = data at h2 ⊢
      have h3 := data.2.zeroFrame_only f (s.slot e.slot).material
      generalize data.2.zeroFrame f (s.slot e.slot).material = z at h3 ⊢
      refine HbmOnly.trans ?_ (.event _ _)
      refine HbmOnly.trans ?_ (.count _ _ _)
      refine HbmOnly.trans ?_ (State.markRepaired_only _ _)
      refine HbmOnly.trans ?_ (State.unpoison_only _ _)
      refine HbmOnly.trans ?_ (State.remapFrame_only _ _)
      exact ((h1.trans h2).trans h3).trans (.hbm _ _ (Mem.wf_writeN _ _ _))

/-- An uncorrectable word changes HBM, the poison log and the event log. -/
theorem State.poisonFrame_only (s : State) (f : Nat) (demand : Bool) : HbmOnly s (s.poisonFrame f demand) :=
  (s.poisonOnly_only f demand).trans (State.repairFrame_only _ _)

/-! ## Words and ranges -/

/-- A read of one word. -/
theorem State.hbmReadWord_only (s : State) (w : Nat) (r : HReq) : HbmOnly s (s.hbmReadWord w r).2 := by
  unfold State.hbmReadWord
  dsimp only
  split_ifs
  · exact .refl s
  · exact s.poisonFrame_only _ _
  · exact (s.poisonFrame_only _ _).trans (State.mscAccess_only _ _ _ _ _)
  · exact s.mscAccess_only _ _ _ _

/-- A write of bytes of one word. -/
theorem State.hbmWriteWord_only (s : State) (w pos : Nat) (bs : List Byte) (r : HReq) : HbmOnly s (s.hbmWriteWord w pos bs r) := by
  unfold State.hbmWriteWord
  dsimp only
  split_ifs
  · exact .refl s
  · exact s.poisonFrame_only _ _
  all_goals exact (s.mscAccess_only _ _ _ _).trans (.hbm _ _ (Mem.wf_writeN _ _ _))

theorem State.hbmReadWords_only (s : State) (ws : List Nat) (r : HReq) : HbmOnly s (s.hbmReadWords ws r).2 := by
  induction ws generalizing s with
  | nil => exact .refl s
  | cons w rest ih =>
    unfold State.hbmReadWords
    dsimp only
    split
    · exact s.hbmReadWord_only w r
    · split
      · exact (s.hbmReadWord_only w r).trans (ih _)
      · exact (s.hbmReadWord_only w r).trans (ih _)

/-- A read of a range. -/
theorem State.hbmRead_only (s : State) (off n : Nat) (r : HReq) : HbmOnly s (s.hbmRead off n r).2 := by
  unfold State.hbmRead
  dsimp only
  split <;> exact s.hbmReadWords_only _ r

/-- A write of a range. -/
theorem State.hbmWrite_only (s : State) (off : Nat) (bs : List Byte) (r : HReq) : HbmOnly s (s.hbmWrite off bs r) := by
  unfold State.hbmWrite
  generalize wordsOf off bs.length = ws
  suffices ∀ u, HbmOnly s u → HbmOnly s (ws.foldl _ u) from this s (.refl s)
  induction ws with
  | nil => exact fun u h => h
  | cons w rest ih => exact fun u h => ih _ (h.trans (State.hbmWriteWord_only _ _ _ _ _))

end Sys2Proof.Machine
end

