-- ==== Sys2Proof/Laws/Host.lean ====
section
/-! SUPPORT. Laws of the host's accesses: when one waits and when it takes effect (01 R29, 08 R222). -/

namespace Sys2Proof.Machine

/-- A host access waits in its order of arrival while an earlier one does or an island on its way is held; otherwise it takes effect. -/
theorem State.hostTo_cases (s : State) (i : Instr) (islands : List Nat) (f : State → Answer) :
    s.hostTo i islands f =
      if s.hostWaits = true ∨ s.runsFree 240 = false ∨ islands.all s.runsFree = false then .next (s.deferHost i) else f s := by
  unfold State.hostTo State.afterPosted
  cases s.hostWaits <;> cases s.runsFree 240 <;> cases h : islands.all s.runsFree <;> simp [h]

/-- A host access whose way is free takes effect. -/
theorem State.hostTo_runs {s : State} {islands : List Nat} (i : Instr) (f : State → Answer) (hw : s.hostWaits = false)
    (h0 : s.runsFree 240 = true) (hi : islands.all s.runsFree = true) : s.hostTo i islands f = f s := by
  simp [State.hostTo_cases, hw, h0, hi]

/-- BARs that take accesses have an interface island that runs. -/
theorem State.runsFree_of_barOpen {s : State} {fn : Nat} (h : s.barOpen fn = true) : s.runsFree 240 = true := by
  simp only [State.barOpen, State.islandOn, Bool.and_eq_true] at h
  simpa [State.runsFree] using h.1.1.1.2.2

end Sys2Proof.Machine
end

