-- ==== Sys2Proof/Laws/Mailbox.lean ====
section
/-! SUPPORT. Laws of the mailbox's reply and of the interrupt that it raises. -/

namespace Sys2Proof.Machine

/-- An MSI-X vector is an output or nothing. -/
theorem State.msix_frame (s : State) (fn vector : Nat) : s.msix fn vector = { s with out := (s.msix fn vector).out } := by
  unfold State.msix
  split <;> rfl

/-- What is out stays out when a vector is raised. -/
theorem State.mem_msix_out (s : State) (fn vector : Nat) (o : Out) (h : o ∈ s.out) : o ∈ (s.msix fn vector).out := by
  unfold State.msix
  split
  · exact List.mem_append_left _ h
  · exact h

/-- A reply ends the command with its status and its bytes (R475, R493). -/
theorem State.mbxReply_replied (s : State) (st : Half) (data : List Byte) : replied st data (s.mbxReply st data) := by
  unfold replied State.mbxReply
  dsimp only
  cases hd : s.mgt.mbxDoor with
  | bar4 =>
    have key : ∀ i (h : i < data.length), (Mem.writeN s.mgt.mbxResp 0x8000 data).read (0x8000 + i) = data[i] := fun i h =>
      Mem.read_writeN_of_in _ _ _ _ h
    dsimp only
    split
    · exact ⟨rfl, fun _ => ⟨rfl, rfl, key⟩, fun h => (h rfl).elim⟩
    · split
      · exact ⟨rfl, fun _ => ⟨rfl, rfl, key⟩, fun h => (h rfl).elim⟩
      · rw [State.msix_frame]
        exact ⟨rfl, fun _ => ⟨rfl, rfl, key⟩, fun h => (h rfl).elim⟩
  | chain =>
    dsimp only [State.emit]
    exact ⟨rfl, fun h => (nomatch h), fun _ => by simp⟩
  | vc4 =>
    dsimp only [State.emit]
    exact ⟨rfl, fun h => (nomatch h), fun _ => by simp⟩

/-- A reply changes the mailbox's result, the note of an interrupt that waits for D0, and what is out, and nothing else. -/
theorem State.mbxReply_frame (s : State) (st : Half) (data : List Byte) :
    ∃ status len resp held out, s.mbxReply st data =
      { s with
        mgt := { s.mgt with mbxBusy := false, mbxStatus := status, mbxRespLen := len, mbxResp := resp }
        hif := { s.hif with mbxIrqHeld := held }
        out := out } := by
  unfold State.mbxReply
  dsimp only
  cases s.mgt.mbxDoor with
  | bar4 =>
    dsimp only
    split
    · exact ⟨_, _, _, _, _, rfl⟩
    · split
      · exact ⟨_, _, _, _, _, rfl⟩
      · rw [State.msix_frame]
        exact ⟨_, _, _, _, _, rfl⟩
  | chain => exact ⟨_, _, _, _, _, rfl⟩
  | vc4 => exact ⟨_, _, _, _, _, rfl⟩

/-- A reply keeps the response area's canonical form. -/
theorem State.mbxReply_wf (s : State) (st : Half) (data : List Byte) (h : Mem.wf s.mgt.mbxResp = true) :
    Mem.wf (s.mbxReply st data).mgt.mbxResp = true := by
  have key := Mem.wf_writeN s.mgt.mbxResp 0x8000 data h
  unfold State.mbxReply
  dsimp only
  cases s.mgt.mbxDoor with
  | bar4 =>
    dsimp only
    split
    · exact key
    · split
      · exact key
      · rw [State.msix_frame]
        exact key
  | chain => exact h
  | vc4 => exact h

end Sys2Proof.Machine
end

