-- ==== Sys2Proof/Laws/Memory.lean ====
section
/-! SUPPORT. The canonical form of the block's memories: what an update must keep, and that the shared updates keep it. -/

namespace Sys2Proof.Machine

/-- The canonical form, memory by memory. -/
theorem State.memWf_iff (s : State) : s.memWf = true ↔
    Mem.wf s.hbm.mem = true ∧ (∀ e ∈ s.cores, Mem.wf e.2.slice.mem = true) ∧
    (∀ e ∈ s.cmd.panels, ∀ v ∈ e.2.switched, ∀ x ∈ v.cores, Mem.wf x.slice.mem = true) ∧
    (∀ sl, s.rel.canarySaved = some sl → Mem.wf sl.mem = true) ∧ Mem.wf s.mgt.mbxParams = true ∧ Mem.wf s.mgt.mbxResp = true := by
  simp only [State.memWf, Bool.and_eq_true, List.all_eq_true]
  cases s.rel.canarySaved <;> simp [and_assoc]

/-- Reset lists no byte (R181, R226). -/
theorem State.memWf_reset : State.reset.memWf = true := by decide

/-- A core's slice is in canonical form. -/
theorem State.memWf_core {s : State} (h : s.memWf = true) (p : Nat) : Mem.wf (s.core p).slice.mem = true := by
  have hc := ((State.memWf_iff s).1 h).2.1
  unfold State.core
  cases hf : Tab.find s.cores p with
  | none =>
    simp only [Option.getD_none, coreAtReset]
    split <;> rfl
  | some c => exact hc (p, c) (Tab.mem_of_find hf)

/-- Replacing a core keeps the form where the new slice has it. -/
theorem State.memWf_setCore {s : State} (h : s.memWf = true) (p : Nat) {c : Core} (hc : Mem.wf c.slice.mem = true) :
    (s.setCore p c).memWf = true := by
  obtain ⟨h1, h2, h3⟩ := (State.memWf_iff s).1 h
  refine (State.memWf_iff _).2 ⟨h1, fun e he => ?_, h3⟩
  rcases Tab.mem_set he with he | he
  · rw [he]; exact hc
  · exact h2 e he

theorem State.memWf_modCore {s : State} (h : s.memWf = true) (p : Nat) {f : Core → Core}
    (hf : Mem.wf (f (s.core p)).slice.mem = true) : (s.modCore p f).memWf = true := State.memWf_setCore h p hf

theorem State.memWf_modSeq {s : State} (h : s.memWf = true) (p : Nat) (f : Sequencer → Sequencer) : (s.modSeq p f).memWf = true :=
  State.memWf_setCore h p (State.memWf_core h p)

theorem State.memWf_modSlice {s : State} (h : s.memWf = true) (p : Nat) {f : Slice → Slice}
    (hf : ∀ sl, Mem.wf sl.mem = true → Mem.wf (f sl).mem = true) : (s.modSlice p f).memWf = true :=
  State.memWf_setCore h p (hf _ (State.memWf_core h p))

theorem State.memWf_modPanel {s : State} (h : s.memWf = true) (k : Nat) {f : Panel → Panel}
    (hf : ∀ pn, ∀ v ∈ (f pn).switched, v ∈ pn.switched ∨ ∀ x ∈ v.cores, Mem.wf x.slice.mem = true) :
    (s.modPanel k f).memWf = true := by
  obtain ⟨h1, h2, h3, h4⟩ := (State.memWf_iff s).1 h
  refine (State.memWf_iff _).2 ⟨h1, h2, fun e he v hv => ?_, h4⟩
  rcases Tab.mem_set he with he | he
  · subst he
    rcases hf _ v hv with hw | hw
    · revert hw
      unfold Tab.get
      cases hp : Tab.find s.cmd.panels k with
      | none => intro hw; simp at hw
      | some pn => exact fun hw => h3 (k, pn) (Tab.mem_of_find hp) v hw
    · exact hw
  · exact h3 e he v hv

/-- An access of HBM keeps the form. -/
theorem HbmOnly.memWf {s t : State} (a : HbmOnly s t) (h : s.memWf = true) : t.memWf = true := by
  obtain ⟨h1, h2, h3, h4, h5, h6⟩ := (State.memWf_iff s).1 h
  obtain ⟨l, n, hr⟩ := a.rel
  obtain ⟨es, q, hm⟩ := a.mgt
  refine (State.memWf_iff t).2 ⟨a.wf h1, ?_, ?_, ?_, ?_, ?_⟩
  · rw [a.cores]; exact h2
  · rw [a.cmd]; exact h3
  · rw [hr]; exact h4
  · rw [hm]; exact h5
  · rw [hm]; exact h6

/-- A reply of the mailbox keeps the form. -/
theorem State.memWf_mbxReply {s : State} (h : s.memWf = true) (st : Half) (data : List Byte) : (s.mbxReply st data).memWf = true := by
  obtain ⟨h1, h2, h3, h4, h5, h6⟩ := (State.memWf_iff s).1 h
  have hw := s.mbxReply_wf st data h6
  obtain ⟨a, b, c, d, e, hs⟩ := s.mbxReply_frame st data
  rw [hs] at hw ⊢
  exact (State.memWf_iff _).2 ⟨h1, h2, h3, h4, h5, hw⟩

@[simp] theorem State.memWf_count (s : State) (off n : Nat) : (s.count off n).memWf = s.memWf := rfl
@[simp] theorem State.memWf_charge (s : State) (i off n : Nat) : (s.charge i off n).memWf = s.memWf := rfl
@[simp] theorem State.memWf_emit (s : State) (o : Out) : (s.emit o).memWf = s.memWf := rfl
@[simp] theorem State.memWf_event (s : State) (code : Nat) : (s.event code).memWf = s.memWf := rfl
@[simp] theorem State.memWf_modCtx (s : State) (i : Nat) (f : Ctx → Ctx) : (s.modCtx i f).memWf = s.memWf := rfl
@[simp] theorem State.memWf_modWindow (s : State) (k : Nat) (f : Window → Window) : (s.modWindow k f).memWf = s.memWf := rfl
@[simp] theorem State.memWf_modSlot (s : State) (i : Nat) (f : KeySlot → KeySlot) : (s.modSlot i f).memWf = s.memWf := rfl
@[simp] theorem State.memWf_modPort (s : State) (p : Nat) (f : Port → Port) : (s.modPort p f).memWf = s.memWf := rfl
@[simp] theorem State.memWf_modSelector (s : State) (k : Nat) (f : Selector → Selector) : (s.modSelector k f).memWf = s.memWf := rfl
@[simp] theorem State.memWf_modJob (s : State) (i : Nat) (f : EduJob → EduJob) : (s.modJob i f).memWf = s.memWf := rfl
@[simp] theorem State.memWf_drawBytes (s : State) (n : Nat) : (s.drawBytes n).2.memWf = s.memWf := rfl
@[simp] theorem State.memWf_drawWords (s : State) (n : Nat) : (s.drawWords n).2.memWf = s.memWf := rfl
@[simp] theorem State.memWf_msix (s : State) (fn vector : Nat) : (s.msix fn vector).memWf = s.memWf := by
  rw [State.msix_frame]; rfl

theorem State.memWf_raiseCtr {s : State} (h : s.memWf = true) (p : Nat) (c : BitVec 8) : (s.raiseCtr p c).memWf = true :=
  State.memWf_modSlice h p (fun _ w => w)

theorem State.memWf_signal {s : State} (h : s.memWf = true) (x : InsnHdr) : (s.signal x).memWf = true := by
  unfold State.signal
  split
  · exact State.memWf_raiseCtr h _ _
  · exact h

/-! ## Slices -/

theorem Slice.wf_write (sl : Slice) (off : Nat) (bs : List Byte) (h : Mem.wf sl.mem = true) : Mem.wf (sl.write off bs).mem = true :=
  Mem.wf_writeN _ _ _ h

theorem Slice.wf_writeAll (sl : Slice) (ws : List (Nat × List Byte)) (h : Mem.wf sl.mem = true) :
    Mem.wf (sl.writeAll ws).mem = true := by
  unfold Slice.writeAll
  induction ws generalizing sl with
  | nil => exact h
  | cons w rest ih => exact ih _ (sl.wf_write w.1 w.2 h)

end Sys2Proof.Machine
end

