-- ==== Sys2Proof/Laws/Sequencer.lean ====
section
/-! SUPPORT. What the sequencer's shared operations do: signals, progress notes, counters, and the effects of a confirmed
instruction. -/

namespace Sys2Proof.Machine

/-! ### Registers and fences -/

/-- A register after a register is written: S0 reads as zero (R72). -/
theorem Sequencer.reg_setReg (q : Sequencer) (d r : BitVec 5) (v : W32) :
    (q.setReg d v).reg r = if r = d ∧ r ≠ 0 then v else q.reg r := by
  unfold Sequencer.reg Sequencer.setReg
  by_cases hr : r = 0
  · rw [if_pos hr, if_pos hr, if_neg (fun h => h.2 hr)]
  · rw [if_neg hr, if_neg hr]
    by_cases hd : d = 0
    · rw [if_pos hd, if_neg (fun h => hr (h.1.trans hd))]
    · rw [if_neg hd]
      by_cases hrd : r = d
      · rw [if_pos ⟨hrd, hr⟩, hrd]; exact Tab.get_set_self ..
      · rw [if_neg (fun h => hrd h.1)]
        exact Tab.get_set_of_ne _ _ _ (fun h => hrd (BitVec.eq_of_toNat_eq h))

/-- Writing a register changes the register file only. -/
theorem Sequencer.setReg_eq (q : Sequencer) (d : BitVec 5) (v : W32) :
    q.setReg d v = { q with regs := (q.setReg d v).regs } := by
  unfold Sequencer.setReg; split <;> rfl

/-- A fence on no engine is met. -/
theorem Core.fenceDone_zero (c : Core) : c.fenceDone 0 = true := by simp [Core.fenceDone, bitAt]

/-! ### Progress notes and signals -/

@[simp] theorem State.core_progress (s : State) (p q : Nat) : (s.progress p).core q = s.core q := by
  unfold State.progress; split <;> rfl

@[simp] theorem State.counters_progress (s : State) (p : Nat) : (s.progress p).counters = s.counters := by
  unfold State.progress; split <;> rfl

@[simp] theorem State.arrival_progress (s : State) (p q : Nat) (c : BitVec 8) : (s.progress p).arrival q c = s.arrival q c := by
  simp [State.arrival]

@[simp] theorem State.arrival_count (s : State) (off n q : Nat) (c : BitVec 8) : (s.count off n).arrival q c = s.arrival q c :=
  rfl

@[simp] theorem State.progress_pending (s : State) (p : Nat) : (s.progress p).pending = s.pending := by
  unfold State.progress; split <;> rfl
@[simp] theorem State.progress_cores (s : State) (p : Nat) : (s.progress p).cores = s.cores := by
  unfold State.progress; split <;> rfl
@[simp] theorem State.progress_hbm (s : State) (p : Nat) : (s.progress p).hbm = s.hbm := by
  unfold State.progress; split <;> rfl
@[simp] theorem State.progress_msc (s : State) (p : Nat) : (s.progress p).msc = s.msc := by
  unfold State.progress; split <;> rfl
@[simp] theorem State.progress_walker (s : State) (p : Nat) : (s.progress p).walker = s.walker := by
  unfold State.progress; split <;> rfl
@[simp] theorem State.progress_kvs (s : State) (p : Nat) : (s.progress p).kvs = s.kvs := by
  unfold State.progress; split <;> rfl
@[simp] theorem State.progress_edu (s : State) (p : Nat) : (s.progress p).edu = s.edu := by
  unfold State.progress; split <;> rfl
@[simp] theorem State.progress_lnk (s : State) (p : Nat) : (s.progress p).lnk = s.lnk := by
  unfold State.progress; split <;> rfl
@[simp] theorem State.progress_gov (s : State) (p : Nat) : (s.progress p).gov = s.gov := by
  unfold State.progress; split <;> rfl
@[simp] theorem State.progress_rel (s : State) (p : Nat) : (s.progress p).rel = s.rel := by
  unfold State.progress; split <;> rfl
@[simp] theorem State.progress_sec (s : State) (p : Nat) : (s.progress p).sec = s.sec := by
  unfold State.progress; split <;> rfl
@[simp] theorem State.progress_mgt (s : State) (p : Nat) : (s.progress p).mgt = s.mgt := by
  unfold State.progress; split <;> rfl
@[simp] theorem State.progress_hif (s : State) (p : Nat) : (s.progress p).hif = s.hif := by
  unfold State.progress; split <;> rfl
@[simp] theorem State.progress_clk (s : State) (p : Nat) : (s.progress p).clk = s.clk := by
  unfold State.progress; split <;> rfl
@[simp] theorem State.progress_net (s : State) (p : Nat) : (s.progress p).net = s.net := by
  unfold State.progress; split <;> rfl
@[simp] theorem State.progress_pins (s : State) (p : Nat) : (s.progress p).pins = s.pins := by
  unfold State.progress; split <;> rfl
@[simp] theorem State.progress_shadows (s : State) (p : Nat) : (s.progress p).shadows = s.shadows := by
  unfold State.progress; split <;> rfl
@[simp] theorem State.progress_draws (s : State) (p : Nat) : (s.progress p).draws = s.draws := by
  unfold State.progress; split <;> rfl
@[simp] theorem State.progress_out (s : State) (p : Nat) : (s.progress p).out = s.out := by
  unfold State.progress; split <;> rfl
@[simp] theorem State.signal_pending (s : State) (h : InsnHdr) : (s.signal h).pending = s.pending := by
  unfold State.signal; split <;> rfl
@[simp] theorem State.signal_hbm (s : State) (h : InsnHdr) : (s.signal h).hbm = s.hbm := by
  unfold State.signal; split <;> rfl
@[simp] theorem State.signal_msc (s : State) (h : InsnHdr) : (s.signal h).msc = s.msc := by
  unfold State.signal; split <;> rfl
@[simp] theorem State.signal_walker (s : State) (h : InsnHdr) : (s.signal h).walker = s.walker := by
  unfold State.signal; split <;> rfl
@[simp] theorem State.signal_kvs (s : State) (h : InsnHdr) : (s.signal h).kvs = s.kvs := by
  unfold State.signal; split <;> rfl
@[simp] theorem State.signal_edu (s : State) (h : InsnHdr) : (s.signal h).edu = s.edu := by
  unfold State.signal; split <;> rfl
@[simp] theorem State.signal_cmd (s : State) (h : InsnHdr) : (s.signal h).cmd = s.cmd := by
  unfold State.signal; split <;> rfl
@[simp] theorem State.signal_lnk (s : State) (h : InsnHdr) : (s.signal h).lnk = s.lnk := by
  unfold State.signal; split <;> rfl
@[simp] theorem State.signal_gov (s : State) (h : InsnHdr) : (s.signal h).gov = s.gov := by
  unfold State.signal; split <;> rfl
@[simp] theorem State.signal_rel (s : State) (h : InsnHdr) : (s.signal h).rel = s.rel := by
  unfold State.signal; split <;> rfl
@[simp] theorem State.signal_sec (s : State) (h : InsnHdr) : (s.signal h).sec = s.sec := by
  unfold State.signal; split <;> rfl
@[simp] theorem State.signal_mgt (s : State) (h : InsnHdr) : (s.signal h).mgt = s.mgt := by
  unfold State.signal; split <;> rfl
@[simp] theorem State.signal_hif (s : State) (h : InsnHdr) : (s.signal h).hif = s.hif := by
  unfold State.signal; split <;> rfl
@[simp] theorem State.signal_clk (s : State) (h : InsnHdr) : (s.signal h).clk = s.clk := by
  unfold State.signal; split <;> rfl
@[simp] theorem State.signal_net (s : State) (h : InsnHdr) : (s.signal h).net = s.net := by
  unfold State.signal; split <;> rfl
@[simp] theorem State.signal_pins (s : State) (h : InsnHdr) : (s.signal h).pins = s.pins := by
  unfold State.signal; split <;> rfl
@[simp] theorem State.signal_counters (s : State) (h : InsnHdr) : (s.signal h).counters = s.counters := by
  unfold State.signal; split <;> rfl
@[simp] theorem State.signal_shadows (s : State) (h : InsnHdr) : (s.signal h).shadows = s.shadows := by
  unfold State.signal; split <;> rfl
@[simp] theorem State.signal_draws (s : State) (h : InsnHdr) : (s.signal h).draws = s.draws := by
  unfold State.signal; split <;> rfl
@[simp] theorem State.signal_out (s : State) (h : InsnHdr) : (s.signal h).out = s.out := by
  unfold State.signal; split <;> rfl

/-- A progress note touches one panel's time of progress. -/
theorem State.progress_cmd (s : State) (p : Nat) : (s.progress p).cmd = { s.cmd with panels := (s.progress p).cmd.panels } := by
  unfold State.progress; split <;> rfl

theorem State.progress_panel (s : State) (p k : Nat) :
    (s.progress p).panel k = { s.panel k with progress := ((s.progress p).panel k).progress } := by
  unfold State.progress
  split
  · rw [State.panel_modPanel]; split <;> simp_all
  · rfl

/-- A signal changes one arrival counter of its core and nothing else. -/
theorem State.signal_core (s : State) (h : InsnHdr) (q : Nat) :
    (s.signal h).core q = { s.core q with slice := { (s.core q).slice with
      arrival := ((s.signal h).core q).slice.arrival } } := by
  unfold State.signal
  split
  · simp only [State.raiseCtr, State.setArrival, State.core_modSlice]
    split <;> simp_all
  · rfl

theorem State.signal_other (s : State) (h : InsnHdr) (q : Nat) (hq : q ≠ h.core) : (s.signal h).core q = s.core q := by
  unfold State.signal
  split
  · simp only [State.raiseCtr, State.setArrival, State.core_modSlice, hq, if_false]
  · rfl

theorem State.signal_arrival (s : State) (h : InsnHdr) : signalled h s (s.signal h) := by
  unfold State.signal signalled
  cases hs : h.signal
  · simp
  · intro q c
    simp only [if_true, State.raiseCtr, State.arrival_setArrival, true_and]
    split
    · rename_i hq; simp [hq]
    · rfl

/-! ### Counters -/

/-- One counter raised. -/
theorem countersMoved_count (s : State) (off n : Nat) : countersMoved [(off, n)] s (s.count off n) := by
  intro j
  rw [State.counter_count]
  by_cases hj : j = off
  · simp [hj]
  · simp [hj, Ne.symm hj]

/-! ### The pair -/

/-- A pair in step shows the same sequencer from both sides. -/
theorem inStep.trailView {q : Sequencer} (e : inStep q) : q.trailView = q := by
  cases q; simp only [inStep, Sequencer.asTrailing] at e; subst e; rfl

/-- Taking a word into the loop buffer changes the loop buffer only. -/
theorem Sequencer.recordInsn_eq (q : Sequencer) (w : Insn) : q.recordInsn w = { q with loopBuf := (q.recordInsn w).loopBuf } := by
  unfold Sequencer.recordInsn
  split
  · split <;> rfl
  · rfl

/-- Taking a word into the loop buffer keeps the pair in step. -/
theorem inStep.recordInsn {q : Sequencer} (e : inStep q) (w : Insn) : inStep (q.recordInsn w) := by
  rw [q.recordInsn_eq w]; exact e

/-! ### Instructions that run to their end -/

/-- A ready instruction whose engines are done takes effect, once the loop buffer has taken it. -/
theorem seqDecode_ready {s : State} {op : SeqOp} {h : InsnHdr} {o : SeqOps} (r : seqReady s op h o)
    (hf : (s.core h.core).fenceDone (fenceMask op o) = true) :
    seqDecode op h o s = seqFinish op h o (s.modSeq h.core (fun q => q.recordInsn (seqWord op h o))) := by
  obtain ⟨h1, h2, ha, hs, h3, h4, h5, h6, h7, h8, h9⟩ := r
  have hv : seqViolation s (s.core h.core).seq op h o = 0 := by
    have hg : seqAgrees s (s.core h.core).seq op h o = true := by simp [seqAgrees, h8, hs.trailView]
    unfold seqViolation
    simp only [h3, h5, h6, h7, hg]
    cases hp : op.isPva
    · simp
    · simp [h4 hp]
  have hw : seqWaitMet op h (s.modSeq h.core (fun q => q.recordInsn (seqWord op h o))) = true := by
    rw [← h9]
    unfold seqWaitMet State.waitMet State.arrival
    simp only [State.core_modSeq_self]
  have hd : ((s.modSeq h.core (fun q => q.recordInsn (seqWord op h o))).core h.core).fenceDone (fenceMask op o) = true := by
    rw [← hf, State.core_modSeq_self, Sequencer.recordInsn_eq]
    rfl
  unfold seqDecode
  simp only [h1, h2, ha, hv]
  unfold seqProceed
  rw [hw, hd]
  simp

/-- The header that an instruction signals with when it is decoded: a halt signals when it completes (R76). -/
def signalHdr (op : SeqOp) (h : InsnHdr) : InsnHdr := if op.halts then { h with signal := false } else h

@[simp] theorem signalHdr_core (op : SeqOp) (h : InsnHdr) : (signalHdr op h).core = h.core := by
  unfold signalHdr; split <;> rfl

/-- What a confirmed instruction leaves, with its counter s1 already set. -/
theorem seqFinish_aux (h : InsnHdr) (s s1 : State) (q3 : Sequencer) (e1 : s1 = { s with cores := s1.cores })
    (e2 : ∀ q, q ≠ h.core → s1.core q = s.core q)
    (e3 : s1.core h.core = { s.core h.core with slice := { (s.core h.core).slice with
      arrival := (s1.core h.core).slice.arrival } }) (t : State)
    (ht : t = (((s1.modSeq h.core (fun _ => q3)).signal h).count (coreReg h.core 0x218) 1).progress h.core) :
    seqFrame h s t ∧ (t.core h.core).seq = q3 ∧ signalled h s1 t := by
  have hc : t.core h.core = { s.core h.core with seq := q3, slice := { (s.core h.core).slice with
      arrival := (t.core h.core).slice.arrival } } := by
    rw [ht, State.core_progress, State.core_count, State.signal_core]
    simp only [State.core_modSeq_self]
    rw [e3]
  refine ⟨⟨?_, ?_, ?_⟩, by rw [hc], ?_⟩
  · constructor
    case other =>
      intro q hq
      rw [ht, State.core_progress, State.core_count, State.signal_other _ _ _ hq, State.core_modSeq, if_neg hq, e2 q hq]
    case cmd => rw [ht, State.progress_cmd]; simp only [State.count_cmd, State.signal_cmd, State.modSeq_cmd]; rw [e1]
    case panel =>
      intro k
      rw [ht, State.progress_panel]
      have : ((((s1.modSeq h.core (fun _ => q3)).signal h).count (coreReg h.core 0x218) 1)).panel k = s.panel k := by
        simp only [State.panel, State.count_cmd, State.signal_cmd, State.modSeq_cmd]; rw [e1]
      rw [this]
    all_goals (rw [ht]; simp; rw [e1])
  · intro j
    rw [← countersMoved_count s (coreReg h.core 0x218) 1 j, ht]
    simp only [State.counter, State.counters_progress, State.count, State.signal_counters, State.modSeq_counters]
    rw [e1]
  · rw [hc]
  · intro q c
    rw [ht, State.arrival_progress, State.arrival_count, State.signal_arrival]
    clear e1 e2 e3 hc ht
    simp only [State.arrival, State.core_modSeq]
    split <;> split <;> simp_all

/-- Everything a confirmed instruction changes, where it does not run off the slice: the sequencer pair of its core, its
arrival counters, one counter and the note of progress. -/
theorem seqFinish_spec (op : SeqOp) (h : InsnHdr) (o : SeqOps) (s : State) (hpc : (seqAfter op h o s).pc ≤ lastPc) :
    seqFrame h s (seqFinish op h o s) ∧ ((seqFinish op h o s).core h.core).seq = seqAfter op h o s ∧
    (∀ v, seqCounter s (s.core h.core).seq h.core op h o = some v →
      signalled (signalHdr op h) (s.setArrival h.core h.signalCtr v) (seqFinish op h o s)) ∧
    (seqCounter s (s.core h.core).seq h.core op h o = none → signalled (signalHdr op h) s (seqFinish op h o s)) := by
  have leave : ∀ (t : State) (a : Nat), (t.core h.core).seq = seqAfter op h o s → t.leaveCheck h.core a = t := by
    intro t a ht
    unfold State.leaveCheck
    rw [ht, if_neg (by omega)]
  have sig : ∀ u : State, (if op.halts then u else u.signal h) = u.signal (signalHdr op h) := by
    intro u; unfold signalHdr; split <;> simp [State.signal]
  have hc := signalHdr_core op h
  cases hcase : seqCounter s (s.core h.core).seq h.core op h o with
  | none =>
    obtain ⟨k2, k3, k4⟩ := seqFinish_aux (signalHdr op h) s s (seqAfter op h o s) rfl (fun _ _ => rfl) rfl _ rfl
    rw [hc] at k2 k3 k4
    simp only [seqFrame, hc] at k2
    simp only [seqFinish, hcase, sig, leave _ _ k3]
    exact ⟨k2, k3, by simp, fun _ => k4⟩
  | some v =>
    obtain ⟨k2, k3, k4⟩ := seqFinish_aux (signalHdr op h) s (s.setArrival h.core h.signalCtr v) (seqAfter op h o s) rfl
      (fun q hq => by rw [hc] at hq; simp only [State.setArrival, State.core_modSlice, hq, if_false])
      (by rw [hc]; simp only [State.setArrival, State.core_modSlice_self]) _ rfl
    rw [hc] at k2 k3 k4
    simp only [seqFrame, hc] at k2
    simp only [seqFinish, hcase, sig, leave _ _ k3]
    exact ⟨k2, k3, fun w hw => by cases hw; exact k4, by simp⟩

/-- A confirmed instruction's frame, with the word that its loop buffer took first. -/
theorem seqFrame.record {h : InsnHdr} {s t : State} (f : Sequencer → Sequencer) (k : seqFrame h (s.modSeq h.core f) t) :
    seqFrame h s t := by
  obtain ⟨a, b, c⟩ := k
  refine ⟨{ a with other := fun q hq => ?_ }, b, ?_⟩
  · rw [a.other q hq, State.core_modSeq, if_neg hq]
  · rw [c]; simp only [State.core_modSeq_self]

end Sys2Proof.Machine
end

