-- ==== Sys2Proof/WellFormed.lean ====
section
/-! DEFINITION. Well-formed commands: every unit number of an operand names a unit that the module has, and every
instruction word keeps its reserved bits at zero (R5, R68). -/

namespace Sys2Proof

/-- The physical cores of a module (R12). -/
def coreCount : Nat := 160

/-- Function 0 is the PF and functions 1 to 64 are the VFs (R505). -/
def functionCount : Nat := 65

/-- A command whose operands name units that exist and whose instruction fields keep reserved bits at zero. -/
def Instr.wf (i : Instr) : Bool :=
  match i with
  | .nop h o => decide (h.core < coreCount) && decide (o.rsv = 0)
  | .halt h o => decide (h.core < coreCount) && decide (o.rsv = 0)
  | .coreHaltReport core => decide (core < coreCount)
  | .fence h o => decide (h.core < coreCount) && decide (o.rsv = 0)
  | .seqStallResume core => decide (core < coreCount)
  | .br h o => decide (h.core < coreCount) && decide (o.rsv = 0)
  | .brc h o => decide (h.core < coreCount) && decide (o.rsv = 0)
  | .loop h o => decide (h.core < coreCount) && decide (o.rsv = 0)
  | .loopi h o => decide (h.core < coreCount) && decide (o.rsv = 0)
  | .li h o => decide (h.core < coreCount) && decide (o.rsv = 0)
  | .add h o => decide (h.core < coreCount) && decide (o.rsv = 0)
  | .addi h o => decide (h.core < coreCount) && decide (o.rsv = 0)
  | .sub h o => decide (h.core < coreCount) && decide (o.rsv = 0)
  | .mul h o => decide (h.core < coreCount) && decide (o.rsv = 0)
  | .shift h o => decide (h.core < coreCount) && decide (o.rsv = 0)
  | .logic h o => decide (h.core < coreCount) && decide (o.rsv = 0)
  | .setoff h o => decide (h.core < coreCount) && decide (o.rsv = 0)
  | .addoff h o => decide (h.core < coreCount) && decide (o.rsv = 0)
  | .addoffi h o => decide (h.core < coreCount) && decide (o.rsv = 0)
  | .cset h o => decide (h.core < coreCount) && decide (o.rsv = 0)
  | .cadd h o => decide (h.core < coreCount) && decide (o.rsv = 0)
  | .cread h o => decide (h.core < coreCount) && decide (o.rsv = 0)
  | .time h o => decide (h.core < coreCount) && decide (o.rsv = 0)
  | .aWaitall h o => decide (h.core < coreCount) && decide (o.rsv = 0)
  | .aLoopn h o => decide (h.core < coreCount) && decide (o.rsv = 0)
  | .aSync h o => decide (h.core < coreCount) && decide (o.rsv = 0)
  | .aEnd h o => decide (h.core < coreCount) && decide (o.rsv = 0)
  | .fetchWordArrive core _ => decide (core < coreCount)
  | .engineEntryStart core _ => decide (core < coreCount)
  | .engineInstructionComplete core _ _ _ _ => decide (core < coreCount)
  | .mxl h o => decide (h.core < coreCount) && decide (o.rsv = 0)
  | .mms h o => decide (h.core < coreCount) && decide (o.rsv = 0)
  | .mxd h o => decide (h.core < coreCount) && decide (o.rsv = 0)
  | .mxmap h o => decide (h.core < coreCount) && decide (o.rsv = 0)
  | .mxclr h o => decide (h.core < coreCount) && decide (o.rsv = 0)
  | .aMload h o => decide (h.core < coreCount) && decide (o.rsv = 0)
  | .aMstream h o => decide (h.core < coreCount) && decide (o.rsv = 0)
  | .issueWindowStart core _ _ _ => decide (core < coreCount)
  | .activityReport island _ _ => decide (island < 256)
  | .busyPeriodEnd core => decide (core < coreCount)
  | .vxdsc h o => decide (h.core < coreCount) && decide (o.rsv = 0)
  | .vxdss h o => decide (h.core < coreCount) && decide (o.rsvHi = 0) && decide (o.rsvLo = 0)
  | .vxk h o => decide (h.core < coreCount) && decide (o.rsvHi = 0) && decide (o.rsvLo = 0)
  | .vadd h o => decide (h.core < coreCount) && decide (o.rsv = 0)
  | .vsub h o => decide (h.core < coreCount) && decide (o.rsv = 0)
  | .vmul h o => decide (h.core < coreCount) && decide (o.rsv = 0)
  | .vfma h o => decide (h.core < coreCount) && decide (o.rsv = 0)
  | .vmax h o => decide (h.core < coreCount) && decide (o.rsv = 0)
  | .vmin h o => decide (h.core < coreCount) && decide (o.rsv = 0)
  | .vabs h o => decide (h.core < coreCount) && decide (o.rsv = 0)
  | .vneg h o => decide (h.core < coreCount) && decide (o.rsv = 0)
  | .vcmp h o => decide (h.core < coreCount) && decide (o.rsv = 0)
  | .vsel h o => decide (h.core < coreCount) && decide (o.rsv = 0)
  | .vcvt h o => decide (h.core < coreCount) && decide (o.rsv = 0)
  | .vexp h o => decide (h.core < coreCount) && decide (o.rsv = 0)
  | .vlog h o => decide (h.core < coreCount) && decide (o.rsv = 0)
  | .vrcp h o => decide (h.core < coreCount) && decide (o.rsv = 0)
  | .vrsq h o => decide (h.core < coreCount) && decide (o.rsv = 0)
  | .vtanh h o => decide (h.core < coreCount) && decide (o.rsv = 0)
  | .vsigm h o => decide (h.core < coreCount) && decide (o.rsv = 0)
  | .vrsum h o => decide (h.core < coreCount) && decide (o.rsv = 0)
  | .vrmax h o => decide (h.core < coreCount) && decide (o.rsv = 0)
  | .vrmin h o => decide (h.core < coreCount) && decide (o.rsv = 0)
  | .vrssq h o => decide (h.core < coreCount) && decide (o.rsv = 0)
  | .vscan h o => decide (h.core < coreCount) && decide (o.rsv = 0)
  | .vsmax h o => decide (h.core < coreCount) && decide (o.rsv = 0)
  | .vsexp h o => decide (h.core < coreCount) && decide (o.rsv = 0)
  | .vssum h o => decide (h.core < coreCount) && decide (o.rsv = 0)
  | .vtopk h o => decide (h.core < coreCount) && decide (o.rsv = 0)
  | .vgath h o => decide (h.core < coreCount) && decide (o.rsv = 0)
  | .vscat h o => decide (h.core < coreCount) && decide (o.rsv = 0)
  | .vhash h o => decide (h.core < coreCount) && decide (o.rsv = 0)
  | .vrope h o => decide (h.core < coreCount) && decide (o.rsv = 0)
  | .aVop h o => decide (h.core < coreCount) && decide (o.rsv8 = 0)
  | .vectorChainStart core => decide (core < coreCount)
  | .srun h o => decide (h.core < coreCount) && decide (o.rsv = 0)
  | .aXfer h o => decide (h.core < coreCount) && decide (o.rsv = 0)
  | .streamTxnComplete core slot _ _ => decide (core < coreCount) && decide (slot < 16)
  | .streamDescComplete d => decide (d.core < coreCount)
  | .streamFaultHalt core => decide (core < coreCount)
  | .streamHaltRecord core => decide (core < coreCount)
  | .strResumeRetry core => decide (core < coreCount)
  | .strResumeSkip core => decide (core < coreCount)
  | .incomingWritePacket slice p => decide (slice < coreCount) && decide (p.pkt.data.length ≤ 256) &&
      decide (p.pkt.data.length % 64 = 0) && decide (p.pkt.addr % 64 = 0)
  | .portBDeferStart slice b _ _ => decide (slice < coreCount) && decide (b.word < 32768) && decide (b.off + b.data.length ≤ 64)
  | .portBStarve w => decide (w.slice < coreCount)
  | .tileStateReached slice tile => decide (slice < coreCount) && decide (tile < 32)
  | .spmTileMaskWrite slice _ _ => decide (slice < coreCount)
  | .rowTest slice _ => decide (slice < coreCount)
  | .rowTestIntervalExpiry slice => decide (slice < coreCount)
  | .seqCtrlWrite core _ => decide (core < coreCount)
  | .mxCtrlWrite core _ => decide (core < coreCount)
  | .pageWalk core _ _ => decide (core < coreCount)
  | .pageWalkComplete core => decide (core < coreCount)
  | .xlInvGo _ => true
  | .invalidationRun => true
  | .invalidationComplete => true
  | .cowResolve core => decide (core < coreCount)
  | .frameRetire _ => true
  | .kvsTrigger _ => true
  | .kvsCapture sel => decide (sel < 8)
  | .kvsResultDeliver sel _ => decide (sel < 8)
  | .eduGoWrite _ => true
  | .eduCountMsg _ _ => true
  | .eduCapacityAssign die _ => decide (die < 2)
  | .eduDispatchMsg _ _ => true
  | .eduReturnWrite _ => true
  | .eduReturnMsg _ _ => true
  | .eduCountTimeout die _ => decide (die < 2)
  | .eduRecvTimeout die _ => decide (die < 2)
  | .placementRevision ctx _ => decide (ctx < 1024)
  | .bar2Read _ _ => true
  | .bar2Write _ _ => true
  | .registerWrite _ _ _ _ => true
  | .cmdStepDb fn window _ => decide (fn < functionCount) && decide (window < 256)
  | .cmdSvcDb fn window _ => decide (fn < functionCount) && decide (window < 256)
  | .cmdCqDb fn window _ => decide (fn < functionCount) && decide (window < 256)
  | .cmdRingCtrlWrite fn window _ => decide (fn < functionCount) && decide (window < 256)
  | .cmdRingCfgWrite fn window _ _ => decide (fn < functionCount) && decide (window < 256)
  | .packetFetch fn window _ _ => decide (fn < functionCount) && decide (window < 256)
  | .stepRun fn window => decide (fn < functionCount) && decide (window < 256)
  | .stepHandoff panel => decide (panel < 16)
  | .stepComplete panel => decide (panel < 16)
  | .stepMark fn window => decide (fn < functionCount) && decide (window < 256)
  | .map fn window => decide (fn < functionCount) && decide (window < 256)
  | .unmap fn window => decide (fn < functionCount) && decide (window < 256)
  | .invalidate fn window => decide (fn < functionCount) && decide (window < 256)
  | .poolAdd fn window => decide (fn < functionCount) && decide (window < 256)
  | .streamResume fn window => decide (fn < functionCount) && decide (window < 256)
  | .svcFence fn window => decide (fn < functionCount) && decide (window < 256)
  | .accountRead fn window => decide (fn < functionCount) && decide (window < 256)
  | .deadlineCheckpoint panel => decide (panel < 16)
  | .deadlineGrantWithdraw ctx => decide (ctx < 1024)
  | .preemptSwitch panel => decide (panel < 16)
  | .panelReset panel => decide (panel < 16)
  | .c0AdmissionLapse panel => decide (panel < 16)
  | .c0AdmissionReturn panel => decide (panel < 16)
  | .shaperRelease panel _ _ _ => decide (panel < 16)
  | .linkFrameRx port _ => decide (port < 104)
  | .replayTimeout port => decide (port < 104)
  | .linkDead port => decide (port < 104)
  | .linkTrained port _ _ => decide (port < 104)
  | .portTrainTimeout port _ => decide (port < 104)
  | .holddownExpiry port => decide (port < 104)
  | .timeFrameTx port => decide (port < 104)
  | .linkMessageRx port _ _ _ => decide (port < 104)
  | .ackTimer src vc => decide (src < 32768) && decide (vc < 8)
  | .e2eTimeout dest vc => decide (dest < 32768) && decide (vc < 8)
  | .giveupTimeout dest vc => decide (dest < 32768) && decide (vc < 8)
  | .streamReclaim dest vc => decide (dest < 32768) && decide (vc < 8)
  | .linkPostTrigger ctx slot => decide (ctx < 1024) && decide (slot < 1024)
  | .linkTransferComplete ctx slot => decide (ctx < 1024) && decide (slot < 1024)
  | .pathBreakNotice dest ports => decide (dest < 32768) && decide (ports.length ≤ 6) && ports.all (fun p => decide (p < 104))
  | .rteSurveyGo _ => true
  | .rtePortMapWrite logical _ => decide (logical < 104)
  | .collectiveChunkRx die _ _ => decide (die < 2)
  | .collectiveTimeout die _ => decide (die < 2)
  | .governorTick _ => true
  | .govBandWrite _ => true
  | .govModeWrite _ => true
  | .cageGrantRx _ _ _ => true
  | .grantLate => true
  | .grantValidExpiry => true
  | .preRampFallback panel => decide (panel < 16)
  | .corePowerStateReached core => decide (core < coreCount)
  | .thermalTrip => true
  | .islandGroupPowerUp => true
  | .clockHold island => decide (island < 256)
  | .clockResume island => decide (island < 256)
  | .relFrzPop _ => true
  | .claimWindowExpiry ctx => decide (ctx < 1024)
  | .rstClaim _ => true
  | .rstRecover _ => true
  | .watchdogExpiry panel => decide (panel < 16)
  | .haltWatchdogExpiry panel => decide (panel < 16)
  | .contextRecovery ctx => decide (ctx < 1024)
  | .recoveryDrainTimeout ctx => decide (ctx < 1024)
  | .hbmScrub _ _ => true
  | .relUnpoisonGo _ => true
  | .canaryWindowStart => true
  | .canaryWindowEnd _ _ _ => true
  | .d2dLaneRetrain die _ => decide (die < 2)
  | .keyGen slot type tenant => decide (slot < 256) && decide (type < 8) && decide (tenant < 64)
  | .keyShare slot type tenant _ => decide (slot < 256) && decide (type < 8) && decide (tenant < 64)
  | .keyShareInstall slot type tenant _ _ => decide (slot < 256) && decide (type < 8) && decide (tenant < 64)
  | .keyErase slot => decide (slot < 256)
  | .keyRevoke slot => decide (slot < 256)
  | .generationDestroy slot => decide (slot < 256)
  | .tenantClear tenant _ => decide (tenant < 64)
  | .tenantRemove tenant => decide (tenant < 64)
  | .tenantDrainTimeout peer => decide (peer < 32768)
  | .drainNotice peer tenant _ => decide (peer < 32768) && decide (tenant < 64)
  | .lifecycleSet _ _ => true
  | .tamperClear _ => true
  | .tamperDetect _ => true
  | .entropyFail => true
  | .entropyRecover => true
  | .getVersion _ => true
  | .getCapabilities _ => true
  | .negotiateAlgorithms _ => true
  | .getDigests _ => true
  | .getCertificate _ _ _ => true
  | .challenge _ _ => true
  | .getMeasurements _ _ => true
  | .sessionOpen fn ctx _ _ => decide (fn < functionCount) && decide (ctx < 1024)
  | .sessionClose fn slot => decide (fn < functionCount) && decide (slot < 256)
  | .coldBoot => true
  | .mbxCmd _ _ _ => true
  | .moduleInfo => true
  | .moduleReset => true
  | .configLoad _ => true
  | .configRead _ _ => true
  | .fwInstall _ => true
  | .fwActivate _ _ => true
  | .fwApprovalTimeout => true
  | .fwRevert => true
  | .revertTimerExpiry => true
  | .lockSet _ => true
  | .release _ _ => true
  | .eventRead _ _ => true
  | .tallyArm _ _ => true
  | .mgtTallyGo _ => true
  | .tallyLatch island => decide (island < 256)
  | .tallyIslandRecord => true
  | .identitySet moduleId => decide (moduleId < 32768)
  | .survey => true
  | .calUnpin island => decide (island < 256)
  | .contextWrite ctx _ => decide (ctx < 1024)
  | .contextDestroy ctx => decide (ctx < 1024)
  | .contextRecover ctx => decide (ctx < 1024)
  | .rootSet ctx _ => decide (ctx < 1024)
  | .panelWrite panel _ _ => decide (panel < 16)
  | .fallbackSet ctx fallback _ _ _ _ => decide (ctx < 1024) && decide (fallback < 1024)
  | .placementWrite ctx _ => decide (ctx < 1024)
  | .routeWrite table _ _ => decide (table < 4)
  | .levelPin ctx _ => decide (ctx < 1024)
  | .portRemap logical physical => decide (logical < 104) && decide (physical < 104)
  | .repairWrite _ _ _ slot => decide (slot < 256)
  | .chainFrameRx _ _ _ _ => true
  | .chainAckTimeout _ => true
  | .chainBackoffExpiry _ => true
  | .enumerationFrame _ => true
  | .chainAddressTimeout => true
  | .heartbeatSend _ => true
  | .heartbeatRx _ _ moduleId => decide (moduleId < 32768)
  | .headframeTakeover _ => true
  | .grantRequestRx moduleId _ _ _ => decide (moduleId < 32768)
  | .perstAssert => true
  | .modEnAssert => true
  | .modEnDeassert => true
  | .inputTrip => true
  | .inputRangeExcursion _ => true
  | .standbyPowerChange _ => true
  | .tsyncEdge => true
  | .functionLevelReset fn => decide (fn < functionCount)
  | .pciePowerStateChange fn _ => decide (fn < functionCount)
  | .pcieLinkTrained _ _ _ => true
  | .ptmMessage _ => true
  | .bar2PeerTimeout => true
  | .jtagInstruction _ => true
  | .uartRxByte _ => true
  | .pldmRequest _ _ => true
  | .sensorUpdate _ => true
  | .illegalInstruction core _ => decide (core < coreCount)
  | .modulePowerStateReached => true
  | .configurationRequest _ => true
  | .declaredWindowEnd panel => decide (panel < 16)
  | .tagReuseWaitExpiry ctx => decide (ctx < 1024)
  | .generationReuseWaitExpiry slot => decide (slot < 256)
  | .keySharePeerTimeout => true

end Sys2Proof
end

