-- ==== Sys2Proof/Tests/Slice0.lean ====
section
/-! SUPPORT. Tests: what WellFormed refuses, single steps on small states, and for each statement with hypotheses a state and
operands that meet them. -/

namespace Sys2Proof.Tests

open Sys2Proof.Machine

/-! ## Well-formed commands -/

theorem test_wf_refuses_units :
    ([.coreHaltReport 160, .nop { core := 160 } {}, .mxl { core := 160 } {}, .vadd { core := 160 } {}, .aVop { core := 160 } {},
      .srun { core := 160 } {}, .activityReport 256 [] 0, .streamTxnComplete 0 16 0 {},
      .incomingWritePacket 160 { pkt := { addr := 0, data := [], ctx := 0, gen := 0 } },
      .tileStateReached 0 32, .kvsCapture 8, .kvsResultDeliver 8 0, .eduCapacityAssign 2 0, .eduCountTimeout 2 0, .eduRecvTimeout 2 0,
      .placementRevision 1024 [], .cmdStepDb 65 0 0, .cmdStepDb 0 256 0, .stepRun 65 0, .stepHandoff 16, .panelReset 16,
      .deadlineGrantWithdraw 1024, .replayTimeout 104, .ackTimer 32768 0, .ackTimer 0 8, .streamReclaim 0 8, .linkPostTrigger 1024 0,
      .linkPostTrigger 0 1024, .pathBreakNotice 32768 [], .pathBreakNotice 0 [0, 0, 0, 0, 0, 0, 0], .pathBreakNotice 0 [104],
      .rtePortMapWrite 104 0, .collectiveTimeout 2 0, .preRampFallback 16, .clockHold 256, .claimWindowExpiry 1024,
      .watchdogExpiry 16, .contextRecovery 1024, .d2dLaneRetrain 2 0] : List Instr).all (fun i => !i.wf) = true := by
  decide

theorem test_wf_refuses_more_units :
    ([.keyGen 256 0 0, .keyGen 0 8 0, .keyGen 0 0 64, .keyErase 256, .tenantClear 64 false, .tenantRemove 64,
      .tenantDrainTimeout 32768, .drainNotice 32768 0 false, .drainNotice 0 64 false, .tallyLatch 256, .identitySet 32768,
      .calUnpin 256, .rootSet 1024 0, .panelWrite 16 {} true, .fallbackSet 0 1024 0 0 0 0, .routeWrite 4 0 [], .levelPin 1024 0,
      .portRemap 104 0, .portRemap 0 104, .repairWrite 0 0 0 256, .heartbeatRx .board 0 32768, .grantRequestRx 32768 0 0 0,
      .functionLevelReset 65, .illegalInstruction 160 0, .declaredWindowEnd 16, .tagReuseWaitExpiry 1024,
      .portBStarve { slice := 160 }, .generationReuseWaitExpiry 256] : List Instr).all (fun i => !i.wf) = true := by
  decide

theorem test_wf_refuses_reserved :
    ([.li { core := 0 } { rsv := 1 }, .mxl { core := 0 } { rsv := 1 }, .mms { core := 0 } { rsv := 1 }, .mxd { core := 0 } { rsv := 1 },
      .mxmap { core := 0 } { rsv := 1 }, .mxclr { core := 0 } { rsv := 1 }, .aMload { core := 0 } { rsv := 1 },
      .aMstream { core := 0 } { rsv := 1 }, .vxdsc { core := 0 } { rsv := 1 }, .vxdss { core := 0 } { rsvHi := 1 },
      .vxdss { core := 0 } { rsvLo := 1 }, .vxk { core := 0 } { rsvHi := 1 }, .vxk { core := 0 } { rsvLo := 1 },
      .vrope { core := 0 } { rsv := 1 }, .aVop { core := 0 } { rsv8 := 1 }, .aXfer { core := 0 } { rsv := 1 }] : List Instr).all (fun i => !i.wf) = true := by
  decide

theorem test_wf_accepts : [Instr.li { core := 159 } {}, .linkDead 103, .keyGen 255 7 63, .stepRun 64 255].all Instr.wf = true := by
  decide

/-! ## States -/

/-- The module in operation: every island group is up, PERST# is released, the boot is over. -/
def up : State :=
  { State.reset with
    clk := { groupsUp := 32 }
    pins := { State.reset.pins with perst := false }
    mgt := { State.reset.mgt with state := .ready, bootStage := 6, chainAddr := some 1 } }

/-- The module in operation with one core as given, core 0, in panel 0. -/
def withCore (c : Core) : State := { up with cores := [(0, { c with panel := some 0, logical := 0 })] }

/-- A running core whose sequencer pair stands at 0 and whose S1 holds 5 and S2 holds 3. -/
def running : Core :=
  { seq := { state := .running, pvaCompat := true, regs := [(1, 5), (2, 3)], trail := { regs := [(1, 5), (2, 3)] } }, ctx := 7 }

/-- The module whose core 0 runs. -/
def sRun : State := withCore running

/-- The header of an instruction of core 0 that neither waits nor signals. -/
def plain : InsnHdr := { core := 0 }

/-- The header of an instruction of core 0 that names counter 9. -/
def counter9 : InsnHdr := { core := 0, signalCtr := 9 }

/-! ## 03: the sequencer -/

theorem witness_RegisterInstructionResults :
    (seqOnward sRun 0).1 ≤ lastPc ∧ seqReady sRun .li plain { d := 4, imm := 0xFFFFFFFF } ∧ seqReady sRun .add plain { d := 4, a := 1, b := 2 } ∧
    seqReady sRun .addi plain { d := 4, a := 1, imm := 1 } ∧ seqReady sRun .sub plain { d := 0, a := 1, b := 2 } ∧
    seqReady sRun .mul plain { d := 31, a := 1, b := 2 } ∧ seqReady sRun .shift plain { d := 4, a := 1, sel := 0, imm := 31 } ∧
    seqReady sRun .shift plain { d := 4, a := 1, sel := 1, imm := 31 } ∧ seqReady sRun .shift plain { d := 4, a := 1, sel := 2, imm := 0 } ∧
    seqReady sRun .logic plain { d := 4, a := 1, b := 2, sel := 0 } ∧ seqReady sRun .logic plain { d := 4, a := 1, b := 2, sel := 1 } ∧
    seqReady sRun .logic plain { d := 4, a := 1, b := 2, sel := 2 } ∧ seqReady sRun .cread counter9 { d := 4 } ∧
    seqReady sRun .time plain { d := 4 } := by
  unfold seqReady; and_intros <;> decide

/-- The header of an instruction of core 0 whose wait holds. -/
def waitsNow : InsnHdr := { core := 0, wait := true, waitCtr := 9, waitValue := 0 }

theorem witness_ControlInstructionResults :
    seqReady sRun .nop plain {} ∧ seqReady sRun .aSync waitsNow {} ∧ seqReady sRun .fence plain { imm := 7 } ∧
    (sRun.core 0).fenceDone 7 = true ∧ seqReady sRun .aWaitall plain {} ∧ (sRun.core 0).drained = true ∧
    seqReady sRun .br plain { imm := 0x100 } ∧ seqReady sRun .brc plain { a := 1, b := 2, sel := 1, imm := 0x100 } ∧
    brcTaken 1 ((sRun.core 0).seq.reg 1) ((sRun.core 0).seq.reg 2) ∧
    seqReady sRun .brc plain { a := 1, b := 2, sel := 0, imm := 0x100 } ∧
    ¬ brcTaken 0 ((sRun.core 0).seq.reg 1) ((sRun.core 0).seq.reg 2) ∧ (seqOnward sRun 0).1 ≤ lastPc ∧
    seqReady sRun .halt plain {} ∧ seqReady sRun .aEnd plain {} ∧ (sRun.core 0).seq.pc ≤ lastPc := by
  unfold seqReady brcTaken; and_intros <;> decide

/-- The header of a loop of one instruction. -/
def oneLong : InsnHdr := { core := 0, count := 1 }

theorem witness_LoopInstructionResults :
    seqReady sRun .loop oneLong { a := 1 } ∧ 0 < ((sRun.core 0).seq.reg 1).toNat ∧ seqReady sRun .loop oneLong { a := 0 } ∧
    ((sRun.core 0).seq.reg 0).toNat = 0 ∧ seqReady sRun .loopi oneLong { imm := 2 } ∧ seqReady sRun .loopi oneLong { imm := 0 } ∧
    seqReady sRun .aLoopn oneLong { imm := 1 } ∧
    (loopNext ((sRun.core 0).seq.pc + 16 + 16 * oneLong.count.toNat) (sRun.core 0).seq.loops).1 ≤ lastPc := by
  unfold seqReady; and_intros <;> decide

theorem witness_OffsetAndCounterResults :
    (seqOnward sRun 0).1 ≤ lastPc ∧ offsetIndex 4 = some 0 ∧ offsetIndex 14 = some 8 ∧ seqReady sRun .setoff plain { a := 1, sel := 4 } ∧
    seqReady sRun .addoff plain { a := 1, sel := 14 } ∧ seqReady sRun .addoffi plain { imm := 1, sel := 14 } ∧
    seqReady sRun .cset counter9 { a := 1 } ∧ seqReady sRun .cadd counter9 { imm := 0xFFFF } := by
  unfold seqReady; and_intros <;> decide

/-- The header of an instruction of core 0 that waits for counter 9 to reach 1. -/
def waits : InsnHdr := { core := 0, wait := true, waitCtr := 9, waitValue := 1 }

/-- The module whose core 0 runs with work of the matrix engine in its queue. -/
def sBusy : State := withCore { running with seq := { running.seq with qMx := [{ hdr := plain, op := .mxmap {} }] } }

theorem witness_WaitsAndViolations :
    seqForm (.add waits { d := 4 }) = some (.add, waits, { d := 4 }) ∧ sRun.clocked 0 = true ∧ (sRun.core 0).seq.state = .running ∧
    (sRun.core 0).seq.admits (seqWord .add waits { d := 4 }) = true ∧ seqViolation sRun (sRun.core 0).seq .add waits { d := 4 } = 0 ∧ seqWaitMet .add waits sRun = false ∧
    seqForm (.fence plain { imm := 1 }) = some (.fence, plain, { imm := 1 }) ∧
    seqViolation sBusy (sBusy.core 0).seq .fence plain { imm := 1 } = 0 ∧ seqWaitMet .fence plain sBusy = true ∧
    (sBusy.core 0).fenceDone (fenceMask .fence { imm := 1 }) = false ∧
    seqViolation sRun (sRun.core 0).seq .li plain { rsv := 1 } = 0x0802 ∧ (sRun.core 0).seq.fetchFault = 0 ∧
    sRun.rel.frozen.length < 128 ∧ decodeInsn 0 0 ≠ none ∧ decodeInsn 0 (BitVec.allOnes 128) = none ∧
    (sRun.core 0).seq.admits (BitVec.allOnes 128) = true := by
  and_intros <;> decide

/-- A queue of 31 entries. -/
def queue31 : List QEntry := List.replicate 31 { hdr := plain, op := .mxmap {} }

/-- The module whose core 0 holds an engine instruction for a queue with room for one. -/
def sHeld : State :=
  withCore { running with seq := { running.seq with
    state := .queueFull, qMx := queue31, held := some (.eng .matrix { hdr := plain, op := .mxmap {} }) } }

/-- The module whose core 0 holds an instruction whose wait is met. -/
def sWaited : State :=
  withCore { running with
    seq := { running.seq with state := .waiting, held := some (.seq waits .add { d := 4 }) }
    slice := { arrival := [(9, 1)] } }

theorem witness_StallResumeRunsHeld :
    sHeld.clocked 0 = true ∧ (sHeld.core 0).seq.state = .queueFull ∧
    (sHeld.core 0).seq.held = some (.eng .matrix { hdr := plain, op := .mxmap {} }) ∧ ((sHeld.core 0).seq.queue .matrix).length < 32 ∧
    (seqOnward sHeld 0).1 ≤ lastPc ∧ inStep (sHeld.core 0).seq ∧
    (sWaited.core 0).seq.recordInsn (seqWord .add waits { d := 4 }) = (sWaited.core 0).seq ∧ (sWaited.core 0).seq.held = some (.seq waits .add { d := 4 }) ∧
    (sWaited.core 0).seq.state = .waiting ∧
    seqReady (sWaited.modSeq 0 (fun q => { q with state := .running, held := none })) .add waits { d := 4 } ∧
    (sWaited.core 0).fenceDone (fenceMask .add { d := 4 }) = true := by
  unfold seqReady; and_intros <;> decide

/-- The module whose core 0 drains behind a HALT. -/
def sDrain : State := withCore { running with seq := { running.seq with state := .haltDrain, held := some (.seq plain .halt {}) } }

theorem witness_HaltAndFetch :
    sDrain.clocked 0 = true ∧ (sDrain.core 0).seq.state = .haltDrain ∧ (sDrain.core 0).drained = true ∧
    (sDrain.core 0).seq.held = some (.seq plain .halt {}) ∧ quiet (sRun.core 0) ∧ 0x1FFFFF / 64 * 64 ≤ lastPc ∧ (sRun.core 0).slice.fetchMark (0x1FFFFF / 64 * 64) = 0 := by
  unfold quiet; and_intros <;> decide

/-! ## Engine instructions at the sequencer -/

/-- The module whose core 0 finds the queue of the matrix engine full. -/
def sFull : State := withCore { running with seq := { running.seq with qMx := { hdr := plain, op := .mxmap {} } :: queue31 } }

theorem witness_EngineInstructionsQueue :
    engForm (.mxmap plain { fmt := 7 }) = some (.matrix, plain, .mxmap { fmt := 7 }, true) ∧
    engForm (.vadd plain {}) = some (.vector, plain, .vop .add {} false, true) ∧
    engForm (.aXfer plain {}) = some (.stream, plain, .srun {} true, true) ∧ syncOk plain false = true ∧ inStep (sRun.core 0).seq ∧
    (sRun.core 0).seq.admits (engInsn (.mxmap plain { fmt := 7 })) = true ∧ (sFull.core 0).seq.admits (engInsn (.mxmap plain { fmt := 7 })) = true ∧
    (EngineOp.mxmap { fmt := 7 }).addOffsets ((sRun.core 0).seq.offset 0) ((sRun.core 0).seq.offset 1) = some (.mxmap { fmt := 7 }) ∧
    ((sRun.core 0).seq.queue .matrix).length < 32 ∧ engViolation (sFull.core 0).seq .matrix plain (.mxmap { fmt := 7 }) true = 0 ∧
    engEntry (sFull.core 0).seq .matrix plain (.mxmap { fmt := 7 }) = some { hdr := plain, op := .mxmap { fmt := 7 } } ∧
    32 ≤ ((sFull.core 0).seq.queue .matrix).length := by
  and_intros <;> decide

/-! ## The engines -/

/-- A core that runs with these queues. -/
def queued (mx vx str : List QEntry) : Core := { running with seq := { running.seq with qMx := mx, qVx := vx, qStr := str } }

/-- The module whose core 0 has one matrix entry queued. -/
def sMx (op : EngineOp) (m : Matrix) : State := withCore { queued [{ hdr := plain, op := op }] [] [] with mx := m }

/-- A plane with a BF16 image of zeros that was loaded. -/
def loaded : Plane := { state := .loaded, fmt := 1 }

theorem witness_MatrixEntriesStart :
    let ready (s : State) (op : EngineOp) : Prop :=
      s.clocked 0 = true ∧ (s.core 0).isFrozen = false ∧ (s.core 0).seq.qMx = [{ hdr := plain, op := op }] ∧
      s.waitMet 0 plain = true ∧ (s.core 0).mx.active = [] ∧ (s.core 0).rcPolicy = 0 ∧
      ({ hdr := plain, op := op } : QEntry).confirmed = true
    ready (sMx (.mxmap { fmt := 5, scaleBase := 0x1FFFC0, elemBase := 64 }) {}) (.mxmap { fmt := 5, scaleBase := 0x1FFFC0, elemBase := 64 }) ∧
    ready (sMx (.mxclr { rows := 512 }) {}) (.mxclr { rows := 512 }) ∧
    ready (sMx (.mxl { wFmt := 1, alt := true } false) { loadToggle := true }) (.mxl { wFmt := 1, alt := true } false) ∧
    imageSize 1 false ≤ sliceSize ∧
    ready (sMx (.mxd { rows := 1 }) { maps := [(0, { fmt := 1, rowStride := 8 })] }) (.mxd { rows := 1 }) ∧
    mapFits { fmt := 1, rowStride := 8 } 0 1 128 true = true ∧
    ready (sMx (.mms { rows := 512 } false) { plane0 := loaded, maps := [(0, { fmt := 1, rowStride := 8 })] }) (.mms { rows := 512 } false) ∧
    mmsReserved { rows := 512 } false = false ∧ pairOk 1 1 = true ∧
    mapFits { fmt := 1, rowStride := 8 } 0 512 (denseK 1 false) false = true := by
  intro ready; simp only [ready]; and_intros <;> decide

/-- The module whose core 0 has one matrix instruction at work. -/
def sActive (a : MxActive) (m : Matrix) : State := withCore { running with mx := { m with active := [a] } }

/-- An entry of the matrix queue at work. -/
def atWork (op : EngineOp) : MxActive := { entry := { hdr := plain, op := op } }

/-- An MMS of two rows at work through a loaded plane. -/
def mms2 : MxActive := { atWork (.mms { rows := 2, accBase := 511 } false) with inMap := { fmt := 1, rowStride := 8 } }

theorem witness_IssueWindows :
    let a := sActive mms2 { plane0 := loaded }
    let b := withCore { running with mx := { busy := true } }
    (sRun.clocked 0 = true ∧ quiet (sRun.core 0) ∧ (sRun.limitOf 0).l ≤ 64 ∧ (sRun.core 0).mx.active = []) ∧
    (a.clocked 0 = true ∧ quiet (a.core 0) ∧ (a.limitOf 0).l ≤ 64 ∧ (a.core 0).mx.active = [mms2] ∧ mms2.nextRow ≤ 2 ∧
      ((a.core 0).mx.plane false).state = .loaded ∧
      ∀ r ∈ (List.range 2).flatMap (fun i => mapRanges mms2.inMap 0 i (denseK 1 false)),
        (a.core 0).slice.rangeOn r.1 r.2 = true ∧ (a.core 0).slice.badIn r.1 r.2 = none) ∧
    (b.clocked 0 = true ∧ quiet (b.core 0) ∧ (b.core 0).mx.busy = true) ∧
    sRun.pins.dieOn = true ∧ sRun.clk.held.contains 255 = false := by
  intro a b; simp only [a, b, quiet]; and_intros <;> decide

theorem witness_MatrixSetupCompletes :
    let ready (s : State) (a : MxActive) : Prop := s.clocked 0 = true ∧ quiet (s.core 0) ∧ (s.core 0).mx.active = [a]
    ready (sActive (atWork (.mxmap { map := 3 })) {}) (atWork (.mxmap { map := 3 })) ∧
    ready (sActive (atWork (.mxclr { accBase := 511, rows := 2 })) {}) (atWork (.mxclr { accBase := 511, rows := 2 })) ∧
    ready (sActive (atWork (.mxl { wFmt := 1 } false)) {}) (atWork (.mxl { wFmt := 1 } false)) ∧
    (imageReads 1 false 0).all (fun r => ((sActive (atWork (.mxl { wFmt := 1 } false)) {}).core 0).slice.rangeOn r.1 r.2) = true ∧
    ((sActive (atWork (.mxl { wFmt := 1 } false)) {}).core 0).slice.bad = [] := by
  intro ready; simp only [ready, quiet]; and_intros <;> decide +kernel

theorem witness_MatrixRowsComplete :
    let w := sActive { mms2 with nextRow := 1 } { plane0 := loaded }
    let s := sActive { mms2 with nextRow := 2 } { plane0 := loaded }
    let t := sActive { atWork (.mxd { rows := 2, accBase := 511 }) with outMap := { fmt := 1, rowStride := 8 } } {}
    (s.clocked 0 = true ∧ quiet (s.core 0) ∧ (s.core 0).mx.active = [{ mms2 with nextRow := 2 }] ∧
      ((s.core 0).mx.plane false).state = .loaded) ∧
    (w.clocked 0 = true ∧ quiet (w.core 0) ∧ (w.core 0).mx.active = [{ mms2 with nextRow := 1 }] ∧
      ((w.core 0).mx.plane false).state = .loaded) ∧
    t.clocked 0 = true ∧ quiet (t.core 0) ∧ (t.core 0).rcPolicy = 0 ∧
    ((List.range 2).flatMap (fun i => mapRanges { fmt := 1, rowStride := 8 } 0 i 128)).all
      (fun r => (t.core 0).slice.rangeOn r.1 r.2) = true := by
  intro w s t; simp only [w, s, t, quiet]; and_intros <;> decide

/-- Vector descriptors of three FP32 rows of 8 elements, 4 KiB apart. -/
def vecs : VectorEngine := { descs := [(0, { base := 0x0, fmt := 0, rowLen := 8 }), (1, { base := 0x1000, rowLen := 8 }), (2, { base := 0x2000, rowLen := 8 })] }

/-- A vector addition of 8 elements. -/
def vadd8 : QEntry := { hdr := plain, op := .vop .add { n := 8, d := 0, a := 1, b := 2 } false }

/-- A chain of two vector operations. -/
def chain2 : List QEntry :=
  [{ hdr := { plain with count := 1 }, op := .vop .add { n := 8, a := 1, b := 2 } false },
   { hdr := { plain with count := 1 }, op := .vop .neg { n := 8, d := 0, last := true } false }]


/-- The unit of a chain of vector operations, for a core with the descriptors above. -/
def unitIs (xs : List QEntry) : VUnit :=
  match unitOf vecs xs with
  | .ok u => u
  | .error _ => { members := [], l := 0, rows := 0 }

/-- The module whose core 0 has these vector entries queued. -/
def sVx (q : List QEntry) : State := withCore { queued [] q [] with vx := vecs }

theorem witness_VectorEntriesStart :
    let ready (q : List QEntry) : Prop :=
      (sVx q).clocked 0 = true ∧ ((sVx q).core 0).isFrozen = false ∧ ((sVx q).core 0).seq.qVx = q ∧
      (sVx q).waitMet 0 plain = true ∧ ((sVx q).core 0).vx.unit = [] ∧ ((sVx q).core 0).vx = vecs
    let k : QEntry := { hdr := plain, op := .vxk { idx := 7, value := 0x3F800000 } }
    (ready [k] ∧ k.confirmed = true ∧ vadd8.confirmed = true ∧ k.isSetup = true ∧ k.tag = 0 ∧ setupReserved k = false) ∧
    (ready [vadd8] ∧ vadd8.tag = 0 ∧ vadd8.last = false ∧ unitOf vecs [vadd8] = .ok (unitIs [vadd8])) ∧
    ready chain2 ∧ chain2.all (fun x => !x.isSetup && decide (x.tag = 1)) = true ∧ chainRun 1 0 chain2 = .whole 2 ∧
    unitOf vecs (chain2.take 2) = .ok (unitIs chain2) := by
  intro ready k; simp only [ready, k]; and_intros <;> decide

/-- The module whose core 0 has this vector entry at work. -/
def sUnit (x : QEntry) : State := withCore { running with vx := { vecs with unit := [x] } }

theorem witness_VectorEntriesComplete :
    let k : QEntry := { hdr := plain, op := .vxk { idx := 7 } }
    let d : QEntry := { hdr := plain, op := .vxdsc { idx := 7, rowLen := 0x3FFF } }
    let b : QEntry := { hdr := plain, op := .vxdss { idx := 0, scaleBase := 0x1FFFFF } }
    let u := unitIs [vadd8]
    let sl := ((sUnit vadd8).core 0).slice
    ([k, d, b, vadd8].all (fun x => (sUnit x).clocked 0 && decide (((sUnit x).core 0).vx.unit = [x]) &&
      decide (((sUnit x).core 0).slice.undefReads = []) && decide (((sUnit x).core 0).slice.kept = []) &&
      decide (((sUnit x).core 0).slice.weak = [])) = true) ∧
    vadd8.isSetup = false ∧ unitOf ((sUnit vadd8).core 0).vx [vadd8] = .ok u ∧ (∀ m ∈ u.members, m.op.cls ≠ .g) ∧ u.rows = 1 ∧
    overlapOf u.sources u.dests u.rows = [] ∧ overlapOf u.dests u.sources u.rows = [] ∧ (∀ st ∈ u.sources ++ u.dests, ∀ r ∈ st.1.ranges 0 st.2, sl.rangeOn r.1 r.2 = true) ∧
    (∀ st ∈ u.sources, ∀ r ∈ st.1.ranges 0 st.2, sl.badIn r.1 r.2 = none) := by
  intro k d b u sl; simp only [k, d, b, u, sl]; and_intros <;> decide

/-! ## 02: arithmetic -/

theorem witness_ArithmeticOrder :
    ofFp32 0x7FC00001 = .nan ∧ ofFp32 0x3F800000 ≠ .nan ∧ ofFp32 0xFF800000 ≠ .nan := by
  and_intros <;> decide

/-! ## 07: the stream unit -/

/-- The bytes of a strided descriptor of one word, with its far and local addresses. -/
def oneWord (store : Bool) (far loc : Nat) : List Byte :=
  leBytes 2 (if store then 0x11 else 1) ++ leBytes 6 far ++ leBytes 4 loc ++ zeros 4 ++ leBytes 2 1 ++ leBytes 2 1 ++ leBytes 2 1 ++
    zeros 42

/-- A stream instruction that names the descriptor at address 0. -/
def run0 : QEntry := { hdr := plain, op := .srun {} false }

/-- A started descriptor of one word. -/
def slotOf (store : Bool) (done : List Nat) (issued : List IssuedTxn) : StrSlot :=
  { slot := 0, entry := run0, descAddr := 0, desc := oneWord store 0x10000 0x1000, issued := issued, done := done }

/-- The module whose core 0 finds a stream instruction in its queue and a descriptor in its slice. -/
def sStart : State :=
  withCore { queued [] [] [run0] with slice := { mem := Mem.writeN [] 0 (oneWord false 0x10000 0x1000) } }

/-- The module whose core 0 has a stream unit as given. -/
def sStr (u : StreamUnit) : State := withCore { running with str := u }

theorem witness_StreamDescriptors :
    let c := sStart.core 0
    let d : StrSlot := { slot := 0, entry := run0, descAddr := 0, desc := c.slice.bytes 0 64 }
    (sStart.clocked 0 = true ∧ c.isFrozen = false ∧ c.seq.qStr = [run0] ∧ sStart.waitMet 0 plain = true ∧ c.str.halted = false ∧
      c.str.stopping = false ∧ firstBelow 16 (fun i => (c.strSlot i).isNone) = some 0 ∧ c.slice.rangeOn 0 64 = true ∧
      c.slice.badIn 0 64 = none ∧ c.slice.weakIn 0 64 = [] ∧ c.slice.undefB = [] ∧ d.check = 0 ∧ c.str.slots = []) ∧
    (sStr { slots := [slotOf false [0] []] }).clocked 0 = true ∧ (slotOf false [0] []).latent = [] ∧
    (slotOf false [0] []).allDone ((sStr { slots := [slotOf false [0] []] }).core 0).slice = true := by
  intro c d; simp only [c, d]; and_intros <;> decide

/-- The keys of the module in operation: slot 0, and slots 5 and 6, a memory and a link slot of tenant 3. -/
def keyed (s : State) : State :=
  { s with sec := { s.sec with 
      slots := [(0, { type := 1, material := 2 }), (5, { type := 1, tenant := 3, gen := 1, material := 1 }),
        (6, { type := 2, tenant := 3, gen := 1, material := 3 })]
      materials := 3 } }

/-- A leaf of frame 2 under slot 5 for tenant 3. -/
def leaf2 : W64 := mkLeaf 2 5 3 true true false

/-- The translation of the page at 0x10000 in context 7. -/
def entry2 : TcEntry := { ctx := 7, gen := 0, vpage := 1, large := false, leaf := leaf2 }

/-- The one transaction of such a descriptor, and the same in flight. -/
def txn0 : Txn := { pos := 0, n := 1, far := 0x10000, loc := 0x1000, elem := 0 }
def flying : IssuedTxn := { index := 0, txn := txn0, leaf := leaf2, gen := 1, material := 1 }

/-- The module whose core 0 loads a word of HBM that was written under slot 5, with `n` of its one transaction in flight. -/
def sLoad (n : Nat) : State :=
  let u : StreamUnit := { slots := [slotOf false [] ([flying].take n)] }
  let s := keyed (withCore { running with str := u, tc := { entries := [entry2] }, tenant := 3 })
  { s with hbm := { mem := [(0x20000, 0xAB)], tags := [(0x800, 1)] } }

theorem witness_StreamIssues :
    let c := (sLoad 0).core 0
    let d := slotOf false [] []
    (sLoad 0).clocked 0 = true ∧ quiet c ∧ ((sLoad 0).limitOf 0).q = 0 ∧ c.mayIssue = true ∧ c.issuer = some d ∧
    c.strSlot d.slot = some d ∧ d.kind < 3 ∧ d.next c.slice = some 0 ∧ (d.txns c.slice)[0]? = some txn0 ∧
    c.tc.find c.ctx c.gen txn0.far = some entry2 ∧ entry2.serves d.store = true ∧
    (if d.store then pteW entry2.leaf else pteR entry2.leaf) = true ∧ (sLoad 0).memSlotOk (pteSlot entry2.leaf) c.tenant = true := by
  intro c d; simp only [c, d, quiet]; and_intros <;> decide

theorem witness_StreamLoadMovesData :
    let c := (sLoad 1).core 0
    let d := slotOf false [] [flying]
    ((sLoad 1).clocked 0 = true ∧ c.str.halted = false ∧ c.strSlot 0 = some d ∧
      d.issued.find? (fun x => decide (x.index = 0)) = some flying ∧ d.kind ≠ 5 ∧ d.store = false ∧ (sLoad 1).txnReached 0 d flying = true ∧
      (sLoad 1).ownHbm (leafAddr leaf2 false 0x10000) = some 0x20000 ∧ flying.material ≠ 0 ∧ 0 ∉ d.redo ∧
      c.slice.rangeOn 0x1000 64 = true) ∧
    (((sLoad 1).modSlice 0 (fun sl => sl.found [])).hbmRead 0x20000 64 { slot := 5, gen := 1, material := 1, ways := 0 }).1 =
      .data (0xAB :: zeros 63) := by
  intro c d; simp only [c, d]; and_intros <;> decide

/-- A fault of the descriptor in slot 0. -/
def fault0 : StrFault := { kind := 1, slot := 0, dir := true, addr := 0x10000 }

/-- A stream unit that stops with a fault, and one that is halted with it. -/
def stopping : StreamUnit := { slots := [slotOf true [] []], stopping := true, reported := [fault0] }
def halted : StreamUnit := { slots := [slotOf true [] []], halted := true, fault := fault0 }

theorem witness_StreamHaltsAndResumes :
    (sStr stopping).clocked 0 = true ∧ ((sStr stopping).core 0).str.halted = false ∧ ((sStr stopping).core 0).str.reported ≠ [] ∧
    stopping.inflight = 0 ∧ (∀ d ∈ stopping.slots, d.past = []) ∧ (slotOf true [] []).allDone ((sStr stopping).core 0).slice = false ∧ ((sStr stopping).core 0).str.chosen = some fault0 ∧
    (sStr halted).barOpen 0 = true ∧ (sStr halted).hostWaits = false ∧ (sStr halted).runsFree 0 = true ∧ (∀ d ∈ ((sStr halted).core 0).str.slots, d.desc ≠ []) ∧ ((sStr halted).core 0).str.halted = true ∧
    ((sStr halted).core 0).strSlot 0 = some (slotOf true [] []) ∧ (slotOf true [] []).store = true ∧
    (let ts := (slotOf true [] []).txns ((sStr halted).core 0).slice
     (List.range ts.length).find? (fun i => decide ((ts.map (·.pos)).getD i 0 = 0)) = some 0 ∧ ts[0]?.isSome = true) := by
  and_intros <;> decide

/-! ## 06: the scratchpad -/

/-- The module whose core 0 has a slice as given. -/
def sSlice (sl : Slice) : State := withCore { running with slice := sl }

/-- A packet of context 7 to the last word of the slice. -/
def pkt : WritePkt := { addr := 0x1FFFC0, data := 0xAB :: zeros 63, ctx := 7, gen := 0, ctr := 9, raise := true }

/-- A write of port B to the last word of the slice. -/
def deferred (data : List Byte) : PortB := { id := 1, word := 32767, write := true, data := data }

theorem witness_SliceAccesses :
    let r : Slice := { resident := some (7, 0) }
    (sSlice r).clocked 0 = true ∧ pkt.data.length ≤ 256 ∧ pkt.data.length % 64 = 0 ∧ pkt.addr % 64 = 0 ∧ (sSlice r).waitsBefore 0 pkt = false ∧ ((sSlice r).core 0).slice.resident = some (pkt.ctx.toNat, pkt.gen) ∧
    r.refusesPacket pkt = false ∧ r.rangeOn pkt.addr pkt.data.length = true ∧ ({} : Slice).resident ≠ some (pkt.ctx.toNat, pkt.gen) ∧
    r.rangeOn 0x1FFFFF 2 = false ∧ ({ secure := true } : Slice).refusesPacket pkt = true ∧ (deferred (zeros 64)).word < 32768 ∧
    r.servesB (deferred (zeros 64)) = true ∧ ({ write := false, word := 32767 } : PortA).word = (deferred (zeros 64)).word ∧
    r.starved.contains 1 = false ∧ ({ starved := [1] } : Slice).starved.contains 1 = true := by
  intro r; simp only [r]; and_intros <;> decide

theorem witness_CoreAndSliceControl :
    let idle : Core := {}
    let moves : Slice := { tiles := [(31, .toward 2 0)] }
    let test : Slice := { testOn := true }
    up.barOpen 0 = true ∧ up.hostWaits = false ∧ up.runsFree 159 = true ∧ (withCore idle).runsFree 0 = true ∧ sRun.runsFree 0 = true ∧ (withCore idle).hostWaits = false ∧ (withCore idle).tilesFollow 0 = true ∧
    ((withCore { idle with cState := 2, slice := moves }).core 0).settled = true ∧
    (withCore { idle with cState := 2, slice := moves }).tilesFollow 0 = false ∧ (withCore { idle with slice := moves }).tilesFollow 0 = true ∧
    (withCore { idle with slice := moves }).clocked 0 = true ∧ (withCore { idle with cState := 2, slice := moves }).clocked 0 = true ∧
    ((withCore idle).core 0).settled = true ∧ (withCore idle).barOpen 0 = true ∧ sRun.barOpen 0 = true ∧
    (sRun.core 0).settled = false ∧
    test.weak = [] ∧ moves.tile 31 = .toward 2 0 ∧
    (sSlice test).clocked 0 = true ∧ (sSlice test).corePower 0 ≠ 3 ∧ test.testOn = true ∧ test.testSuspended = false ∧ (sSlice test).testHeld 0 = false ∧
    test.testDue = true ∧ test.failedRow = none ∧ test.tileIsOn test.testTile = true ∧
    Tab.get 0 test.sparesUsed ((test.testRow + 31) % 32) < 4 := by
  intro idle moves test; simp only [idle, moves, test]; and_intros <;> decide

/-! ## 08, 09: HBM and translation -/

theorem witness_HbmReadAfterWrite :
    (zeros 64).length = 64 ∧ ((keyed up).hreq 5 0).material ≠ 0 ∧ (keyed up).isPoisoned (0x800 / 1024) = false := by
  and_intros <;> decide

/-- The tables of context 7: the page at 0x10000 has leaf `e3`, and the large page at 0x200000 has leaf `e2`. -/
def tables (e2 e3 : W64) : Mem :=
  Mem.writeN (Mem.writeN (Mem.writeN (Mem.writeN [] 0x110000 (leBytes 8 0x120001)) 0x120000 (leBytes 8 0x130001))
    0x120008 (leBytes 8 e2.toNat)) 0x130008 (leBytes 8 e3.toNat)

/-- The module whose core 0 walks these tables. Every word was written under slot 0. -/
def sWalk (e2 e3 : W64) (u : StreamUnit) (tc : TransCache) : State :=
  let s := keyed (withCore { running with str := u, tc := tc, tenant := 3, root := 0x110000, setMask := 0xFFFF })
  { s with hbm := { mem := tables e2 e3, fill := 2 } }

/-- A walk of the page at 0x10000. -/
def walk1 : TransCache := { walks := [{ va := 0x10000, write := false }] }

theorem witness_PageWalks :
    let s := sWalk 0 leaf2 { slots := [slotOf false [] []] } {}
    let w := sWalk 0 leaf2 { slots := [slotOf false [] []] } walk1
    let b := sWalk 0 0 { slots := [slotOf false [] []] } walk1
    (s.clocked 0 = true ∧ s.walks < 64 ∧ (s.core 0).tc.walking 0x10000 false = false ∧ s.islandOn 249 = true ∧ (s.core 0).str.halted = false ∧ (s.core 0).str.stopping = false ∧
      ((s.core 0).waitingTxn 0x10000 false).isSome = true) ∧
    (w.core 0).tc.walks = [{ va := 0x10000, write := false }] ∧ w.islandOn 249 = true ∧ b.islandOn 249 = true ∧ w.clocked 0 = true ∧
    (w.core 0).waitingTxn 0x10000 false = some (slotOf false [] [], txn0) ∧
    (w.walk .sys false 7 0x110000 3 0xFFFF 0x10000 false).1 = .leaf leaf2 false false ∧
    (b.walk .sys false 7 0x110000 3 0xFFFF 0x10000 false).1 = .fault 1 0 := by
  intro s w b; simp only [s, w, b]; and_intros <;> decide

theorem witness_Invalidations :
    let v : Inv := { scope := 3, ctx := 0, pages := 0, page := 0, source := .register }
    up.barOpen 0 = true ∧ up.hostWaits = false ∧ up.runsFree 249 = true ∧ up.walker.invBusy = false ∧ up.islandOn 249 = true ∧ ({ up with walker := { invPages := 1 } } : State).walker.invPages ≠ 0 ∧ bitAt (0x1000#32).toNat 12 = true ∧
    ({ up with walker := { queue := [v] } } : State).walker.running = none ∧
    ({ up with walker := { running := some v } } : State).walker.running = some v ∧ up.pins.dieOn = true := by
  intro v; and_intros <;> decide

/-- A large copy-on-write leaf of a frame, for tenant 3 under slot 5. -/
def cowLeaf (frame : Nat) : W64 := mkLeaf frame 5 3 true true true

/-- The module whose core 0 is halted on a store to a copy-on-write page, with the frame's count and a frame in the pool. -/
def sCow (frame count : Nat) : State :=
  let f : StrFault := { kind := 2, slot := 0, dir := true, addr := 0x200000, frame := frame }
  let s := sWalk (cowLeaf frame) 0 { slots := [slotOf true [] []], halted := true, fault := f } {}
  { s with
    hbm := { mem := Mem.writeN (Mem.writeN s.hbm.mem 0x150000 (poolBytes (96, true))) (0x140000 + 2 * frame) (leBytes 2 count), fill := 2 }
    walker := { refBase := 0x140000 }
    cmd := { s.cmd with ctxs := [(7, { bound := true, f := { poolRing := 0x150000 }, poolLen := 1 })] } }

/-- A large frame of board slot 1. -/
def peerFrame : Nat := 2 ^ 29 + 32

theorem witness_CopyOnWriteResolves :
    let u := (sCow 64 1).cmdUse 7
    let s (frame n : Nat) := (sCow frame n).leafPos u 0x110000 0x200000 true
    ((sCow 64 1).cmdMem ((sCow 64 1).core 0).panel = true ∧ ((sCow 64 1).core 0).str.halted = true ∧ ((sCow 64 1).core 0).str.fault.kind = 2 ∧
      ((sCow 64 1).core 0).str.handled = false ∧ (s 64 1).1 = .pos 0x120008 (cowLeaf 64) ∧ pteValid (cowLeaf 64) = true ∧
      pteLeaf (cowLeaf 64) = true ∧ pteCow (cowLeaf 64) = true ∧ pteFrame (cowLeaf 64) = 64) ∧
    ((s 64 1).2.boardCount u 7 64).1 = 1 ∧ ((s 64 2).2.boardCount u 7 64).1 ≠ 1 ∧ pteFrame (cowLeaf peerFrame) = peerFrame ∧
    (let n := (s peerFrame 0).2.boardCount u 7 peerFrame
     (n.2.takePool 7 true).1 = some 96 ∧
      ((n.2.takePool 7 true).2.copyPage 7 (peerFrame * 65536) (96 * 65536) 5 (pageBytes true)).1 = true) := by
  intro u s; simp only [u, s]; and_intros <;> decide +kernel

theorem witness_FramesRetire :
    let s : State := { up with hbm := { poisoned := [hbmSize / 65536 - 1] } }
    s.islandOn (224 + stackOf ((hbmSize / 65536 - 1) * 65536)) = true ∧ s.retireDue (hbmSize / 65536 - 1) = true ∧ s.reserveUsed ((hbmSize / 65536 - 1) / 32 % 16) < 16384 := by
  intro s; simp only [s]; and_intros <;> decide

/-! ## 12: rings and service commands -/

/-- The fields of context 7: tenant 3, panel 0, its tables at 0x110000, link slot 6, one hidden element. -/
def fields7 : CtxFields := { ctxId := 7, tenant := 3, panel := 0, root := 0x110000, linkSlot := 6, memSlot := 5, hidden := 1 }

/-- The entry of panel 0: core 0, every channel set. -/
def panel0 : PanelFields := { cores := 1, setMask := 0xFFFF, envRate := [1, 1], envBurst := [1, 1] }

/-- A state with context 7 bound, panel 0 written, and window 0 of the PF as given. -/
def bound (w : Window) (pn : Panel) (s : State) : State :=
  { s with cmd := { s.cmd with
    windows := [(0, { w with ctx := some 7 })]
    panels := [(0, { pn with written := true, entry := panel0 })]
    ctxs := [(7, { bound := true, f := fields7 })] } }

/-- A service packet. -/
def svc (op : Half) (ps : List Byte) : Packet := { opcode := op, tag := 0x55, irq := false, slots := 1, params := ps }

/-- The module with this service packet started in window 0, over the tables with these leaves. -/
def sSvc (e2 e3 : W64) (op : Half) (ps : List Byte) : State :=
  let s := bound { enable := true, cqLog := 6, svcPkt := some (svc op ps) } {} (sWalk e2 e3 {} {})
  { s with walker := { refBase := 0x140000 } }

/-- An entry of MAP for the page at 0x10000 from frame 2, and of UNMAP and POOL_ADD. -/
def mapE : List Byte := leBytes 6 0x10000 ++ [0x18, 5] ++ leBytes 6 0x20000 ++ zeros 2
def unmapE : List Byte := leBytes 6 0x10000 ++ zeros 2
def poolE : List Byte := leBytes 6 0x600000 ++ [1, 0]

/-- The parameters of a command with one entry. -/
def oneEntry (e : List Byte) : List Byte := leBytes 2 1 ++ zeros 6 ++ e

/-- The module whose core 0 is halted, with STREAM_RESUME started. -/
def sResume : State :=
  { sSvc 0 0 0x0114 ([0, 1] ++ zeros 6) with cores := [(0, { running with str := halted, panel := some 0, logical := 0 })] }

theorem witness_ServiceCommands :
    let m := sSvc 0 0 0x0110 (oneEntry mapE)
    let u := sSvc 0 leaf2 0x0111 (oneEntry unmapE)
    (winKey 0 0 = 0 ∧ (m.window 0).ctx = some 7 ∧ m.cmdMem (some (m.ctx 7).f.panel.toNat) = true ∧ (m.window 0).svcPkt = some (svc 0x0110 (oneEntry mapE))) ∧
    headedEntries (oneEntry mapE) 16 255 = some [mapE] ∧ (mapEntry 7 mapE m).1 = 0 ∧
    headedEntries (oneEntry unmapE) 8 255 = some [unmapE] ∧ (unmapEntry 7 unmapE u).1 = 0 ∧
    headedEntries (oneEntry poolE) 8 511 = some [poolE] ∧ (m.ctx 7).poolLen < 4096 ∧ m.poolBase 7 = some 0 ∧ fieldAt poolE 6 1 ≤ 1 ∧ fieldAt poolE 7 1 = 0 ∧
    fieldAt poolE 0 6 % pageBytes (bitAt (fieldAt poolE 6 1) 0) = 0 ∧
    (invParams ([3] ++ zeros 15) 0 7).isSome = true ∧ m.walker.queue = [] ∧ m.walker.running = none ∧
    bitAt (sResume.ctxNow 7).2.cores.toNat 0 = true ∧
    ((sResume.coresOf 7).filter (fun q => (sResume.core q).str.halted)).find? (fun q => decide ((sResume.core q).logical = 0)) = some 0 ∧
    ((m.window 0).consumed - BitVec.ofNat 32 (leNat (zeros 4))).toNat < 2 ^ 31 ∧ leNat (leBytes 8 0x1000) % 64 = 0 ∧
    (m.leafPos (m.cmdUse 7) 0x110000 0x10000 false).1 = .pos 0x130008 0 ∧ (u.leafPos (u.cmdUse 7) 0x110000 0x10000 false).1 = .pos 0x130008 leaf2 ∧
    pteValid leaf2 = true ∧ (m.leafPos (m.cmdUse 7) 0x110000 0x10000 false).2.frameOk 2 (m.ctxNow 7).2.setMask.toNat = true ∧
    ((m.leafPos (m.cmdUse 7) 0x110000 0x10000 false).2.raiseCount 7 2 false).1 = 0 ∧ (m.ctxNow 7).1.root.toNat = 0x110000 := by
  intro m u; simp only [m, u]; and_intros <;> decide

/-- A window with the smallest legal rings, enabled. -/
def ring : Window := { enable := true, stepLog := 7, svcLog := 6, cqLog := 6, noticeLog := 6 }

/-- The module with window 0 as given. -/
def sRing (w : Window) : State := bound w {} (withCore running)

/-- A record that a full completion queue holds back. -/
def rec0 : Record := { tag := 0x55, status := 0, ctx := 7, start := 0, duration := 0 }

theorem witness_DoorbellsMovePointers :
    let s := sRing ring
    let h := sRing { ring with held := [.record rec0 false 1], cqTail := 63 }
    s.barOpen 0 = true ∧ s.hostWaits = false ∧ s.mgt.state ≠ .hold ∧ (s.window 0).ctx.isSome = true ∧ s.runsFree 246 = true ∧ (s.window 0).enable = true ∧ s.deafWindow 0 = false ∧
    (s.window 0).error = false ∧ 127 < 2 ^ (s.window 0).stepLog ∧ 63 < 2 ^ (s.window 0).svcLog ∧ 63 < 2 ^ (s.window 0).cqLog ∧
    (s.window 0).held = [] ∧ ((s.window 0).cqTail + 1) % 2 ^ (s.window 0).cqLog ≠ 63 ∧ (s.window 0).takesDb = true ∧
    2 ^ (s.window 0).stepLog ≤ 128 ∧ (h.window 0).held = [.record rec0 false 1] ∧ (h.window 0).irqEn = false ∧
    63 < 2 ^ (h.window 0).cqLog ∧ ((h.window 0).cqTail + 1) % 2 ^ (h.window 0).cqLog ≠ 63 ∧ h.deafWindow 0 = false ∧ h.barOpen 0 = true := by
  intro s h; simp only [s, h]; and_intros <;> decide

theorem witness_RingConfiguration :
    let s := sRing { ring with enable := false }
    s.barOpen 0 = true ∧ s.hostWaits = false ∧ s.runsFree 246 = true ∧ bitAt (1#32).toNat 0 = true ∧ (s.window 0).enable = false ∧ (s.window 0).sizesOk = true ∧
    bitAt (2#32).toNat 0 = false ∧ (s.window 0).quiesced = true ∧ ((sRing ring).window 0).enable = true ∧
    ((sRing { ring with enable := false, stepPkt := some (svc 0x0102 []) }).window 0).quiesced = false := by
  intro s; simp only [s]; and_intros <;> decide

/-- The bytes of a STEP_MARK of context 7, and of a service fence. -/
def markBytes : List Byte := leBytes 2 0x0102 ++ leBytes 2 0 ++ leBytes 4 0x55 ++ leBytes 2 7 ++ [0, 1] ++ zeros 52
def fenceBytes : List Byte := leBytes 2 0x0115 ++ leBytes 2 4 ++ leBytes 4 0x56 ++ leBytes 2 7 ++ [0, 1] ++ zeros 52 ++ zeros 64

theorem witness_PacketsStart :
    let s := sRing { ring with stepTail := 1 }
    let v := sRing { ring with svcTail := 2 }
    let k := sRing { ring with stepPkt := some (svc 0x0102 []) }
    ((s.window 0).ctx = some 7 ∧ s.islandOn (246 + s.windowParity 0) = true ∧ s.mgt.state = .ready ∧ s.mayFetch 0 false = true ∧ s.fetchFirst 0 false = true ∧
      fieldAt markBytes 11 1 = 1 ∧ 1 + ceilDiv (fieldAt markBytes 2 2) 64 ≤ (s.window 0).waiting false ∧
      headerStatus markBytes false 7 (s.ctx 7).f.cls.toNat = 0) ∧
    (v.mayFetch 0 true = true ∧ v.fetchFirst 0 true = true ∧ fieldAt fenceBytes 11 1 = 1 ∧
      1 + ceilDiv (fieldAt fenceBytes 2 2) 64 ≤ (v.window 0).waiting true ∧ headerStatus fenceBytes true 7 (v.ctx 7).f.cls.toNat = 0) ∧
    ((k.window 0).stepPkt = some (svc 0x0102 []) ∧ k.islandOn (246 + k.windowParity 0) = true ∧ (k.window 0).canStart = true ∧ k.asleep 0 = false ∧ (k.window 0).irqEn = false) := by
  intro s v k; simp only [s, v, k]; and_intros <;> decide

/-! ## 10, 11: selectors and dispatch -/

/-- The registration of frame 1 for context 7. -/
def kvReg : KvsReg := { panel := 0, frame := 1, keySlot := 5, ctx := 7, gen := 0, cls := 0 }

/-- A request of that registration with a result for core 0, and one of another slot. -/
def kvReq : KvsReq :=
  { reg := kvReg, slot := 3, header := zeros 24 ++ leBytes 4 0x1FFFC0 ++ [9] ++ zeros 35, query := [], result := zeros 64 }

/-- The module with a trigger in slot 3 of that frame, and the selector as given. -/
def sKv (l : Selector) : State :=
  let s := bound {} {} (sSlice { resident := some (7, 0) })
  { s with kvs := [(stackOf (2097152 + 3 * 8192), { l with regs := [kvReg] })], hbm := { mem := [(2097152 + 3 * 8192, 1)] } }

theorem witness_KvsRequests :
    let off := 2097152 + 3 * 8192
    let h := stackOf off
    ((sKv {}).islandOn (224 + h) = true ∧ ((sKv {}).selector h).regs.find? (fun g => decide (g.frame = off / 2097152)) = some kvReg ∧
      off < hbmSize ∧ off % 8192 = 0 ∧ (Mem.read (sKv {}).hbm.mem off).toNat % 4 ≠ 0 ∧ off % 2097152 / 8192 = 3) ∧
    ((sKv { flight := [kvReq] }).selector h).busy kvReg 3 = true ∧
    ((sKv { pending := [(kvReg, 4)] }).selector h).busy kvReg 3 = false ∧ ((sKv { pending := [(kvReg, 4)] }).selector h).pending ≠ [] ∧
    ((sKv {}).selector h).busy kvReg 3 = false ∧ ((sKv {}).selector h).flight.length < 32 ∧ ((sKv {}).selector h).pending = [] ∧
    h < 8 ∧ ((sKv { pending := [(kvReg, 4)] }).selector h).nextPending (fun g => decide (g.cls = 0)) = some (kvReg, 4) ∧
    (let s := sKv { flight := [kvReq] }
     (s.selector h).flight[0]? = some kvReq ∧ kvReq.status = 0 ∧ kvReq.hostPages = [] ∧ kvReq.result ≠ [] ∧
      s.physIn 0 kvReq.core = some 0 ∧ s.netClear kvReq.reg.port 0 kvReq.reg.netCls = true ∧ s.coreInPanel 7 kvReq.core = true ∧ (s.core 0).slice.resident = some (7, 0) ∧
      (s.core 0).slice.secure = false ∧ (s.core 0).slice.rangeOn kvReq.res kvReq.result.length = true) := by
  intro off h; simp only [off, h]; and_intros <;> decide

/-- A placement table of one layer with one expert on board slot `m`, for board slots 0 and 1. -/
def table (m : Nat) : List Byte :=
  leBytes 2 1 ++ [3, 1] ++ zeros 60 ++ (leBytes 2 1 ++ [1, 0] ++ zeros 4 ++ leBytes 2 1 ++ zeros 6) ++
    (leBytes 2 1 ++ [1, 0] ++ leBytes 2 m ++ zeros 26)

/-- A dispatch block of one token, with rows of FP32: its gate at 0x10000, its slot at 0x10040, and behind them the rows returned, the
rows received and their table. -/
def block1 : List Byte :=
  zeros 130 ++ leBytes 2 1 ++ zeros 12 ++ leBytes 6 0x10000 ++ leBytes 6 0x10040 ++
    leBytes 6 0x10100 ++ zeros 6 ++ leBytes 6 0x10200 ++ zeros 6 ++ leBytes 6 0x10300 ++ zeros 4 ++ [0, 9, 0, 10, 0, 11] ++ zeros 60

/-- A job of context 7 on die 0. -/
def job (p : EduPhase) : EduJob :=
  { die := 0, ctx := 7, gen := 0, panel := 0, goOff := 0x1000, retOff := 0x2000, block := block1, step := 0, tableBytes := table 0,
    phase := p }

/-- The module with that job, its go and return words written, over the tables of context 7. -/
def sEdu (j : EduJob) : State :=
  let s := bound {} {} (sWalk 0 leaf2 {} {})
  { s with edu := { jobs := [j] }, hbm := { s.hbm with
      mem := Mem.writeN (Mem.writeN s.hbm.mem 0x1000 [1]) 0x2000 [1]
      tags := [(0x800, 1), (0x801, 1), (0x804, 1), (0x808, 1), (0x80D, 1)] } }

/-- A header of a message for that job under table version 1. -/
def head (v : Nat) : EduHdr :=
  { kind := 1, slot := 1, half := 0, ctx := 7, ctxGen := 0, keyGen := 1, layer := 0, version := v, bytes := 4 }

theorem witness_EduDispatchPhase :
    let w := job .waitGo
    let s := sEdu w
    let r := s.readBy .other 7 0x10040 2
    let c : EduJob := { job .counting with counts := [(0, [1]), (1, [0])], gate := [(0, 0, 0, 0x3F800000)], slots := [0] }
    (s.eduOn 0 = true ∧ r.1 = .data [0, 0] ∧ w.failed = none ∧ s.edu.jobs[0]? = some w ∧ (∀ x ∈ s.edu.jobs, x.phase ≠ .sending) ∧ s.jobAt false 0x1000 = some (w, 0) ∧
      s.wordSet 0x1000 = true ∧ w.phase = .waitGo ∧ (r.2.eduGate { w with phase := .counting, slots := [0] }).1.status = 0 ∧
      (r.2.eduGate { w with phase := .counting, slots := [0] }).1.poison = []) ∧
    (sEdu c).jobAt false 0x1000 = some (c, 0) ∧ c.phase ≠ .waitGo ∧ (sEdu c).jobOf (head 1) = some (c, 0) ∧ c.lost.contains (head 1).slot = false ∧ (head 1).bytes = 4 * [0].length ∧
    (head 1).version = plVersion c.tableBytes ∧ [0].length = c.insts.length ∧ (head 2).version ≠ plVersion c.tableBytes ∧
    (∀ m ∈ c.domain, (Tab.find c.counts m).isSome = true) ∧ c.admitted = [] ∧ c.refused = [] ∧
    (∃ m ∈ (job .counting).domain, Tab.find (job .counting).counts m = none) := by
  intro w s r c; simp only [w, s, r, c]; and_intros <;> decide +kernel

theorem witness_EduRowsAndPlacement :
    let j := job .waitReturn
    let d : EduJob := { j with nRows := [1], counts := [(0, [0]), (1, [2])] }
    let e : EduJob := { d with phase := .counting, nRows := [] }
    let m : EduJob := { d with nRows := [2] }
    let back : EduJob := { j with recvRaised := true, nRows := [1], received := [(0, 0)] }
    let sent : EduJob := { j with phase := .returning, admitted := [(0, 0, 0, 0)] }
    let two : EduJob := { sent with admitted := [(0, 0, 0, 0), (0, 1, 0, 1)] }
    let s := sEdu d
    let at0 (q : EduJob) (ret : Bool) : Nat := if ret then q.b 156 6 else q.b 168 6
    let writes (q : EduJob) : Prop :=
      let a := (sEdu q).writeBy .other 7 (q.b 168 6) (zeros 4)
      a.1 = true ∧ (a.2.writeBy .other 7 (q.b 180 6 + 64) (eduTag 1 0 0)).1 = true ∧ (sEdu q).jobOf (head 1) = some (q, 0) ∧
        q.recvRaised = false ∧ q.rowOk 0 1 0 0 = true ∧ q.lost.contains 1 = false ∧ q.received.contains (0, 0) = false ∧ (zeros 4).length = eduRow ((sEdu q).hidden q) (q.b 132 1) ∧
        (head 1).bytes = (zeros 4).length
    (s.eduOn 0 = true ∧ s.edu.jobs[0]? = some d ∧ d.failed = none ∧ (∀ x ∈ s.edu.jobs, s.mayEduSend x = false) ∧ writes d ∧ ({ d with received := [(0, 0)] } : EduJob).allIn 0 = true ∧
      d.returnHeld = false ∧ s.physIn 0 (d.b 192 1) = some 0) ∧
    (writes e ∧ e.phase = .counting ∧ writes m ∧ ({ m with received := [(0, 0)] } : EduJob).allIn 0 = false) ∧
    (s.jobAt true 0x2000 = some (d, 0) ∧ s.wordSet 0x2000 = true ∧ (sEdu back).jobAt true 0x2000 = some (back, 0) ∧
      back.recvRaised = true ∧ back.back = false) ∧
    ((sEdu sent).jobOf (head 1) = some (sent, 0) ∧ (sEdu two).jobOf (head 1) = some (two, 0) ∧
      (zeros 4).length = eduRow ((sEdu sent).hidden sent) (sent.b 133 1) ∧
      [sent, two].all (fun q => q.admitted.find? (fun y => decide (y.2.2.1 = (head 1).inst ∧ y.2.2.2 = (head 1).row) &&
        ((head 1).zeroed || decide (y.1 = (head 1).token ∧ y.2.1 = (head 1).rank))) == some (0, 0, 0, 0)) = true ∧
      ((sEdu sent).writeBy .other 7 (at0 sent true) (zeros 4)).1 = true ∧
      ((sEdu two).writeBy .other 7 (at0 two true) (zeros 4)).1 = true ∧ (∃ z ∈ two.admitted, z.1 = 0 ∧ (z.1, z.2.1) ∉ [(0, 0)])) ∧
    d.phase = .waitReturn ∧ d.allIn 0 = false ∧ up.jobOf (head 1) = none ∧ up.eduOn (head 1).half = true := by
  intro j d e m back sent two s at0 writes
  simp only [j, d, e, m, back, sent, two, s, at0, writes]; and_intros <;> decide +kernel

theorem witness_PlacementRevisions :
    let g (r : Option (Nat × Half)) : State :=
      { bound {} {} up with mgt := { up.mgt with group := { head := true } }, edu := { revTally := r } }
    (∀ r ∈ [none, some (7, 0)], (g r).mgt.group.head = true ∧ (g r).mgt.state = .ready ∧ plOk ((g r).revised 7 (table 1)) = true ∧
      ((g r).ctx 7).bound = true ∧ (g r).revisedLately 7 = false ∧ (g r).mgt.tallyPending = false) ∧
    (g none).edu.revTally = none ∧ (g (some (7, 0))).edu.revTally = some (7, (g (some (7, 0))).mgt.tallyLast) := by
  intro g; simp only [g]; and_intros <;> decide +kernel

/-! ## 12, 13: steps and panels -/

/-- The parameters of a step of one sequence and one bucket of one core: its sequence table at 0x10000, its bucket lists at 0x14000,
its deadline and its fallback field. -/
def stepPsTo (deadline fallback : Nat) : List Byte :=
  leBytes 8 0x10000 ++ leBytes 2 1 ++ zeros 22 ++ leBytes 8 0x14000 ++ zeros 32 ++ leBytes 8 deadline ++ leBytes 2 fallback ++ [1] ++
    zeros 13 ++ leBytes 4 1 ++ zeros 68 ++ [0, 1] ++ zeros 150

/-- The same without a fallback context. -/
def stepPs (deadline : Nat) : List Byte := stepPsTo deadline 0

/-- The module with STEP_RUN started in window 0. The words of the page at 0x10000 were written under slot 5. -/
def sRunStep (ps : List Byte) : State :=
  let s := bound { ring with stepPkt := some (svc 0x0101 ps) } {} (sWalk 0 leaf2 {} {})
  { s with hbm := { s.hbm with tags := [(0x800, 1)] } }

/-- The module with a STEP_RUN that names context 8 as its fallback; its one sequence may move and is in the moved set, and context 7
has the template given. -/
def sMoved (fb : Option Fallback) : State :=
  let s := sRunStep (stepPsTo 0 0x8008)
  { s with
    hbm := { s.hbm with mem := Mem.writeN s.hbm.mem 0x20008 [1] }
    cmd := { s.cmd with ctxs := [(7, { bound := true, f := fields7, moved := [0], fallback := fb }),
      (8, { bound := true, f := { fields7 with ctxId := 8 } })] } }

/-- A step of context 7. -/
def step7 : Step :=
  { window := 0, ctx := 7, f := fields7, entry := panel0, cls := 0, gen := 0, tag := 0x55, irq := false, params := stepPs 0, seqs := [{ slot := 0, h := 0, t := 1 }], start := 0 }

/-- The module with panel 0 as given, its core idle with the tiles that the panel asks for. -/
def sPanel (pn : Panel) : State :=
  bound ring { pn with needsReset := false, lastModel := some 0 } (keyed (withCore { slice := { resident := some (7, 0) }, ctx := 7 }))

theorem witness_StepsStart :
    let ps := stepPs 0
    let s := sRunStep ps
    let n := bound { ring with stepPkt := some (svc 0x0101 ps) } {} (sWalk 0 0 {} {})
    let tb := s.stepTable 7 ps
    let r := (s.evalAdmission 0).point3 7 ps tb
    ((s.window 0).stepPkt = some (svc 0x0101 ps) ∧ (s.window 0).ctx = some 7 ∧ s.cmdMem (some (s.ctx 7).f.panel.toNat) = true ∧
      s.hasStep 0 = false ∧ (s.ctx 7).recovering = false ∧ s.keysOk 7 ps tb = true ∧ s.point2 ps 7 = 0 ∧ r.1.status = 0 ∧
      (r.2.ctx 7).f.panel = (s.ctx 7).f.panel ∧ r.2.grantFree 0 = true) ∧
    (({ s with sec := {} } : State).keysOk 7 ps tb = false) ∧ (s.point2 [] 7 = 2) ∧
    (({ s with cores := [] } : State).keysOk 7 ps tb = true ∧ ({ s with cores := [] } : State).point2 ps 7 = 0x1100) ∧
    (n.keysOk 7 ps (n.stepTable 7 ps) = true ∧ n.point2 ps 7 = 0 ∧
      ((n.evalAdmission 0).point3 7 ps (n.stepTable 7 ps)).1.status ≠ 0) := by
  intro ps s n tb r; simp only [ps, s, n, tb, r]; and_intros <;> decide +kernel

theorem witness_StepsStart_moved :
    let ps := stepPsTo 0 0x8008
    let f : Fallback := { fallback := 8, entry := 0, argBlock := 0, firstCore := 0, coreCount := 1 }
    let q : SeqEntry := { slot := 0, h := 0, t := 1, eligible := true }
    let st : Step := { step7 with params := ps, seqs := [q] }
    (∀ fb ∈ [none, some f], [q].filter (fun q => q.eligible && decide (q.slot ∈ ((sMoved fb).ctx st.ctx).moved)) ≠ []) ∧
    (st.seqs.map SeqEntry.slot).Nodup ∧
    step7.seqs.filter (fun q => q.eligible && decide (q.slot ∈ ((sMoved none).ctx step7.ctx).moved)) = [] ∧
    (sMoved none).fallbackOf 7 (fallbackCtx ps) = none ∧ (sMoved (some f)).fallbackOf 7 (fallbackCtx ps) = some (8, f) := by
  intro ps f q st; simp only [ps, f, q, st]; and_intros <;> decide +kernel

theorem witness_StepsStart_handoff :
    let q := sPanel { queue := [step7] }
    let v := sPanel { queue := [step7], switched := [{ step := step7, since := 0, cores := [running.save 0] }] }
    let h := sPanel { running := some { step7 with prepared := true } }
    let w := bound {} { pairing := [(0, 0)] } up
    ((w.panel 0).running = none ∧ w.cmdIsland (some 0) = true ∧ w.resetDue 0 = true ∧ (w.panel 0).written = true ∧ w.takesRunning 0 = false ∧
      (0, 0) ∈ (w.panel 0).pairing) ∧
    ([q, v].all (fun s => s.cmdMem (some 0) && decide ((s.panel 0).running = none) && decide ((s.panel 0).next = some step7) &&
      !s.resetDue 0 && s.panelAwake 0 && !(s.ctx 7).recovering && !s.canaryOn 0) = true ∧ step7.granted = true) ∧
    (q.panel 0).switched.find? (fun y => decide (y.step.window = step7.window) && (y.step.isComp == step7.isComp)) = none ∧
    (v.panel 0).switched.find? (fun y => decide (y.step.window = step7.window) && (y.step.isComp == step7.isComp)) =
      some { step := step7, since := 0, cores := [running.save 0] } ∧
    ([running.save 0].map (v.coreNow 0)).Nodup ∧ (∀ x ∈ [running.save 0], ∀ d ∈ x.str.slots, d.desc ≠ []) ∧
    h.cmdMem (some 0) = true ∧ (h.panel 0).running = some { step7 with prepared := true } ∧ step7.handed = 0 ∧ h.inputWaits { step7 with prepared := true } = false ∧
    (h.panelCores 0).all (fun p => (h.core p).slice.tilesReached && h.clocked p) = true ∧ step7.isComp = false := by
  intro q v h w; simp only [q, v, h, w]; and_intros <;> decide +kernel

/-- A step that was handed off to core 0, with a deadline at 1 ns and a sequence that may move. -/
def handed : Step :=
  { step7 with prepared := true, handed := 1, cores := [(0, 0)], params := stepPs 1, seqs := [{ slot := 0, h := 0, t := 1, eligible := true }] }

/-- The module at 1 µs with that step running and core 0 as given. -/
def sHanded (st : Step) (c : Core) (q : List Step) : State :=
  let s := sPanel { running := some st, state := .running, queue := q }
  { s with cores := [(0, { c with panel := some 0, logical := 0, ctx := 7 })], clk := { s.clk with now := 1000 } }

/-- A core that reported its halt, and one that violated a range check too. -/
def halt0 : Core := { haltReported := true }
def viol0 : Core := { haltReported := true, rcViolated := true }

/-- The module with that step waiting for its grant. -/
def sWaiting : State :=
  let s := sPanel { queue := [{ handed with prepared := false, handed := 0, granted := false }] }
  { s with clk := { s.clk with now := 1000 } }

theorem witness_StepsEnd :
    let again : Step := { handed with f := { fields7 with rcPolicy := 2 } }
    let s := sHanded handed halt0 []
    let m := sHanded { handed with isComp := true } halt0 []
    let v := sHanded again viol0 []
    let co : Step := { again with isComp := true }
    let w := sHanded co viol0 []
    let o := sHanded handed { slice := { arrival := [(254, 4), (255, 0)] } } []
    ([(s, handed), (m, { handed with isComp := true }), (v, again), (w, co)].all (fun x => x.1.cmdIsland (some 0) && x.1.memFree &&
      decide ((x.1.panel 0).running = some x.2) && decide (x.2.handed ≠ 0) && x.1.allHalted x.2 && !x.1.reqsOpen 7 && !x.1.eduOpen 7 &&
      !x.1.transfersOpen 7 && decide (x.2.companion = none) && !x.1.asleep 0 && !(x.1.ctx 7).recovering && !(x.1.ctx 7).claimOpen &&
      !(x.1.ctx 7).claimed) = true ∧
      handed.isComp = false ∧ s.violators handed = [] ∧ (s.window 0).canStart = true ∧ m.violators { handed with isComp := true } = []) ∧
    (w.violators co ≠ [] ∧ co.rerun = false ∧ co.posted = false ∧ co.f.rcPolicy = 2) ∧
    (v.violators again ≠ [] ∧ again.rerun = false ∧ again.posted = false ∧ nDisp again.params = 0 ∧ again.f.rcPolicy = 2) ∧
    (o.checkpointDue handed = true ∧ s.checkpointDue handed = true ∧ s.predictsOverrun handed = false ∧ o.predictsOverrun handed = true ∧
      handed.overrun = false ∧ (o.ctx 7).moved.length + handed.seqs.length ≤ 4096) ∧
    (sWaiting.waitingStep 7 = some (0, { handed with prepared := false, handed := 0, granted := false }) ∧ deadlineNs handed.params ≠ 0 ∧
      deadlineNs handed.params ≤ sWaiting.time ∧ (sWaiting.window 0).canStart = true ∧ sWaiting.asleep 0 = false) := by
  intro again s m v co w o; simp only [again, s, m, v, co, w, o]; and_intros <;> decide +kernel

theorem witness_StepsEnd_switch :
    let next : Step := { step7 with window := 1, cls := 0 }
    let low : Step := { handed with cls := 2 }
    let far : Step := { low with f := { fields7 with saveArea := BitVec.ofNat 64 (2 ^ 45) } }
    let q (st : Step) := sHanded st halt0 [next]
    [low, far].all (fun st => decide ((q st).preemptor 0 = some (st, next)) && (q st).switchReady 0 7 && !((q st).ctx 7).recovering &&
      !((q st).ctx 7).claimOpen && !((q st).ctx 7).claimed && (q st).cmdIsland (some 0) && (q st).memFree) = true ∧
    (q low).ownHbm low.f.saveArea.toNat = some 0 ∧ (q low).hbm.bad = [] ∧ (q far).ownHbm far.f.saveArea.toNat = none := by
  intro next low far q; simp only [next, low, far, q]; and_intros <;> decide +kernel

/-- The module with class-0 panel 0 as given at 1 µs. -/
def sClass0 (pn : Panel) : State :=
  let s := sPanel pn
  { s with
    cmd := { s.cmd with panels := [(0, { pn with written := true, entry := { panel0 with class0 := true } })] }
    clk := { s.clk with now := 1000 } }

theorem witness_ClassZeroAdmission :
    let hot : State := { sClass0 { admitted := true } with gov := { junction := 101 } }
    let s0 := sClass0 { admitted := true, windowOpen := true, running := some { handed with params := stepPs 0 }, bucketReq := 64000, bucketRsp := 64000 }
    let x : Transfer := { ctx := 7, gen := 0, panel := 0, slot := 0, frame := 2, keySlot := 5, post := [9] ++ zeros 23 ++ leBytes 4 64 ++ zeros 36 }
    let h (rsp : Bool) : MsgHdr := { dest := 1, src := 0, vc := if rsp then 1 else 0, kind := if rsp then 3 else 1, srcCtx := 7, tenant := 3 }
    let s : State := { s0 with lnk := { s0.lnk with
      ports := [(0, { state := .up, seen := some (1, 0) })], transfers := [x], backlog := [{ hdr := h true, data := zeros 64, port := 0 }] } }
    hot.cmdIsland (some 0) = true ∧ s.cmdIsland (some 0) = true ∧ (hot.panel 0).admitted = true ∧ hot.c0Holds 0 = false ∧ (sClass0 {}).c0Holds 0 = true ∧
    ((sClass0 {}).panel 0).admitted = false ∧ (s.panel 0).admitted = true ∧
    (∀ side < 2, 64 ∈ s.shaperQueue 0 side ∧ 65 ∉ s.shaperQueue 0 side ∧ 64 * 1000 ≤ s.tokens 0 side ∧ s.tokens 0 side < 65 * 1000) ∧
    (∀ rsp, s.panelNow (h rsp).srcCtx.toNat = 0 ∧
      s.route (h rsp).dest (s.msgTable (h rsp)) (s.msgLevel (h rsp)) 0 = some { ports := [0] } ∧
      (s.sendMsg (h rsp) (zeros 64) none).1 = .sent) ∧
    x.flag 3 = true ∧ (s.panel 0).windowOpen = true ∧ fieldAt (stepPs 0) 96 4 ≠ 0 := by
  intro hot s0 x h s; simp only [hot, s0, x, h, s]; and_intros <;> decide +kernel

/-! ## 15: power -/

/-- A reading of the governor. -/
def reading : GovReading := { draw := 700, fixed := 100, junction := 60, vinMv := 44000 }

theorem witness_GovernorTicksAndBand :
    let l : State := { up with mgt := { up.mgt with locks := 2 } }
    let v : W32 := BitVec.ofNat 32 (1500 + 1500 * 2 ^ 11 + 100 * 2 ^ 22)
    let a : State := { up with gov := { authority := 1, cap := 1500 } }
    let w := 1500 - max a.gov.draw a.gov.floor - a.allowance
    let held : State := { up with mgt := { up.mgt with state := .hold } }
    up.barOpen 0 = true ∧ l.barOpen 0 = true ∧ up.hostWaits = false ∧ l.hostWaits = false ∧ up.runsFree 244 = true ∧ l.runsFree 244 = true ∧
    (up.gov.waiting = [] ∧ up.gov.authority = 0) ∧ bits v.toNat 21 11 = 1500 ∧
    (a.barOpen 0 = true ∧ a.hostWaits = false ∧ a.runsFree 244 = true ∧ a.locked 1 = false ∧
      a.bandOk (bits v.toNat 10 0) 1500 (bits v.toNat 28 22) = true ∧ a.gov.waiting = [] ∧ a.gov.pendingW = 0 ∧
      a.gov.authority ≠ 0 ∧ a.gov.authority ≠ 3 ∧ 0 < w) ∧
    held.islandOn 244 = true ∧ held.mgt.state ≠ .ready ∧ l.locked 1 = true ∧ up.locked 1 = false ∧
    up.bandOk (bits v.toNat 10 0) (bits v.toNat 21 11) (bits v.toNat 28 22) = true ∧ up.bandOk 399 0 10 = false ∧
    (∀ d < 4, d ∈ orderCodes (bits (0x390#32).toNat 9 2)) ∧ (∃ d < 4, d ∉ orderCodes (bits (0#32).toNat 9 2)) ∧
    sRun.islandOn 244 = true ∧ sRun.mgt.state = .ready ∧ 34 * reading.vinMv / 10 < 100 * sRun.gov.cap := by
  intro l v a w held; simp only [l, v, a, w, held]; and_intros <;> decide

/-- The module whose step of window 0 waits for a grant of 10 W, which was asked for. -/
def sGrant : State :=
  { sWaiting with
    gov := { authority := 1, pendingW := 10, requestId := 1, waiting := [(0, 10), (1, 20)] }
    clk := { sWaiting.clk with now := 20000000 } }

theorem witness_CageGrants :
    let g : State := { up with gov := { grantW := 10, grantUntil := 5 }, clk := { up.clk with now := 5 } }
    let h : Hint := { model := 0, phase := some (1, 100, 100), nextEvent := none, posted := 0 }
    let asked : Gov := { preRamp := [(0, 10)], hints := [(0, [h])], pendingW := 10, requestId := 1 }
    let r : State := { up with gov := { asked with waiting := [(0x10000, 10), (1, 20)] }, clk := { up.clk with now := 1000000 } }
    let o : State := { r with gov := { asked with waiting := [(1, 10), (0x10000, 20)] } }
    r.islandOn 244 = true ∧ g.islandOn 244 = true ∧ (r.gov.waiting.head?.map Prod.fst = some 0x10000 ∧
      (r.gov.waiting.filter (fun x => decide (x.1 ≠ 0x10000 + 0))).head? = some (1, 20)) ∧
    (o.lastHint 0 = some h ∧ o.islandOn 244 = true ∧ (Tab.find o.gov.preRamp 0).isSome = true ∧ Tab.find o.gov.phaseOn 0 = none ∧
      h.posted + 1000000 ≤ o.time ∧ o.gov.waiting.head?.map Prod.fst ≠ some (0x10000 + 0) ∧ o.gov.pendingW ≠ 0) ∧
    sGrant.islandOn 244 = true ∧ sGrant.gov.pendingW ≠ 0 ∧ sGrant.gov.waiting = [(0, 10), (1, 20)] ∧
    sGrant.gov.requestTime + 10000000 ≤ sGrant.time ∧ g.gov.grantW ≠ 0 ∧ g.gov.grantUntil ≤ g.time ∧ r.lastHint 0 = some h ∧
    (Tab.find r.gov.preRamp 0).isSome = true ∧ Tab.find r.gov.phaseOn 0 = none ∧ h.run = none ∧ h.posted + 1000000 ≤ r.time := by
  intro g h asked r o; simp only [g, h, asked, r, o]; and_intros <;> decide

theorem witness_PowerStatesAndClocks :
    let a := withCore { cTarget := some 2 }
    let b := withCore { cState := 2, cTarget := some 3 }
    let d := withCore { cState := 3, cTarget := some 0 }
    let m : State := { up with gov := { mTarget := some .park } }
    let g : State := { up with clk := { groupsUp := 30 }, mgt := { up.mgt with bootStage := 4, chainAddr := none } }
    (up.pins.dieOn = true ∧ a.clocked 0 = true ∧ (a.core 0).panel = some 0 ∧ (a.core 0).cTarget = some 2 ∧ (a.panel 0).running = none ∧
      (a.core 0).cState ≠ 3 ∧ (b.core 0).cTarget = some 3 ∧ (b.core 0).cState ≠ 3 ∧ (d.core 0).cTarget = some 0 ∧ d.mayLeaveC3 0 = true) ∧
    m.coresDeep .park = true ∧ (a.islandOn 244 = true ∧ a.coresDeep .idle = false) ∧ ((withCore { cState := 2, cTarget := some 0 }).core 0).cState = 2 ∧
    m.islandOn 244 = true ∧ ({ up with clk := { up.clk with held := [7] } } : State).netWaiting = 0 ∧ m.gov.mTarget = some .park ∧ up.clk.held.contains 255 = false ∧ ({ up with clk := { held := [159] } } : State).clk.held.contains 159 = true ∧
    g.mgt.bootStage = 4 ∧ g.clk.groupsUp < 31 ∧ ({ g with clk := { groupsUp := 31 } } : State).clk.groupsUp = 31 ∧ g.mgt.chainAddr = none := by
  intro a b d m g; simp only [a, b, d, m, g]; and_intros <;> decide

/-! ## 16: reliability and recovery -/

/-- The module with context 7 changed. -/
def sCtx (f : Ctx → Ctx) : State := (bound {} {} up).modCtx 7 f

/-- A freeze record. -/
def record0 : FreezeRec := { time := 0, subsystem := 1, master := 0, code := 0x802, ctx := 7, gen := 0, ctxValid := true }

/-- The module 10 s on, with a step that runs on panel 0. -/
def sLate (since : Option Nat) : State :=
  let s := sPanel { running := some handed, haltSince := since }
  { s with clk := { s.clk with now := 20000000000 } }

theorem witness_ClaimsAndWatchdogs :
    let o := sCtx (fun x => { x with claimOpen := true, f := { x.f with claimUs := 1 } })
    let b := bound {} {} up
    let w := (sLate none).modCtx 7 (fun x => { x with claimOpen := true, f := { x.f with claimUs := 1 } })
    (up.barOpen 0 = true ∧ up.runsFree 250 = true ∧ o.runsFree 251 = true ∧ b.runsFree 251 = true ∧ w.runsFree 251 = true ∧ up.hostWaits = false ∧ o.hostWaits = false ∧ b.hostWaits = false ∧ bitAt (1#32).toNat 0 = true ∧ ({ up with rel := { frozen := [record0] } } : State).rel.frozen = [record0]) ∧
    (o.islandOn 251 = true ∧ (o.ctx 7).claimOpen = true ∧ (o.ctx 7).bound = true ∧ (o.ctx 7).recovering = false ∧ o.barOpen 0 = true ∧
      bitAt (0x407#32).toNat 10 = true ∧ (0x407#32).toNat % 1024 = 7 ∧ (o.ctx 7).f.claimUs ≠ 0) ∧
    ((w.ctx 7).claimOpen = true ∧ (w.ctx 7).f.claimUs ≠ 0 ∧ w.barOpen 0 = true ∧ w.hostWaits = false ∧
      (w.panel 0).running = some handed ∧ handed.ctx = 7 ∧ handed.isComp = false) ∧
    (b.barOpen 0 = true ∧ (b.ctx 7).bound = true ∧ (b.ctx 7).recovering = false ∧ (b.ctx 7).claimed = false ∧ (b.ctx 7).claimOpen = false) ∧
    ((sLate none).panel 0).running = some handed ∧ (sLate none).watched handed = true ∧ (sLate none).rel.frozen.length < 128 ∧
    ((sLate none).panel 0).haltSince = none ∧ ((sLate none).panel 0).progress + 1000000 * max 1 (sLate none).rel.wdMs.toNat ≤ (sLate none).time ∧
    ((sLate (some 0)).panel 0).haltSince = some 0 ∧ (sLate (some 0)).watched handed = true ∧
    0 + 1000000 * max 1 (sLate (some 0)).rel.haltMs.toNat ≤ (sLate (some 0)).time := by
  intro o b w; simp only [o, b, w]; and_intros <;> decide +kernel

/-- The module with these recoveries of context 7, its core 0 with a stream unit as given in a running step. -/
def sRec (queue run : List Recovery) (u : StreamUnit) (used : List (BitVec 8 × Nat)) : State :=
  let s := sPanel { running := some handed }
  let t := (s.modCtx 7 (fun x => { x with recovering := true, genUsed := used })).modCore 0 (fun c => { c with str := u })
  { t with rel := { queued := queue, running := run } }

theorem witness_ContextRecoveries :
    let r : Recovery := { ctx := 7 }
    let d : Recovery := { ctx := 7, draining := true }
    let w : Recovery := { ctx := 7, tagWait := true }
    let busy : StreamUnit := { slots := [slotOf false [] [flying]] }
    let running (s : State) (p : Recovery → Bool) : Option Recovery := s.rel.running.find? (fun x => decide (x.ctx = 7) && p x)
    ((sRec [r] [] {} []).islandOn 251 = true ∧ (sRec [] [d] {} []).islandOn 251 = true ∧ (sRec [r] [] {} []).rel.running.length < 4 ∧
      (sRec [] [d] {} []).rel.running.find? (fun x => decide (x.ctx = 7)) = some d ∧ d.draining = true ∧
      running (sRec [] [d] {} []) Recovery.draining = some d) ∧
    ((sRec [r] [] {} []).rel.running.find? (fun x => decide (x.ctx = 7)) = none ∧ (sRec [r] [] {} []).rel.queued = [r] ∧
      (sRec [r] [] {} [(1, 0)]).tagBlocked 7 1 = true ∧ (sRec [r] [] {} []).tagBlocked 7 1 = false ∧
      (sRec [r] [] {} []).mustDrain 7 = false ∧ (sRec [r] [] busy []).mustDrain 7 = true) ∧
    running (sRec [] [w] {} []) Recovery.tagWait = some w ∧ (sRec [] [w] {} []).tagBlocked 7 1 = false ∧
    (sRec [] [w] busy []).mustDrain 7 = true ∧ (sRec [] [w] {} []).mustDrain 7 = false := by
  intro r d w busy running; simp only [r, d, w, busy, running]; and_intros <;> decide

theorem witness_ReliabilityUpkeep :
    let k := keyed { up with hbm := { fill := 2 }, walker := { refBase := 0x140000 } }
    let n : State := { k with hbm := { mem := [(0x140004, 1)], fill := 2 } }
    let go : W64 := BitVec.ofNat 64 (2 + 5 * 2 ^ 23 + 2 ^ 31)
    let at2 (s : State) : State := { s with rel := { s.rel with unpFrame := 2, unpSlot := 5 } }
    let c : State := { withCore {} with rel := { canaryState := .test, canaryCore := 0, canarySaved := some {} } }
    let r : State := { sHanded handed {} [] with rel := c.rel }
    (up.islandOn (224 + stackOf (hbmSize - 64)) = true ∧ up.rel.scrubOn = true ∧ hbmSize - 64 < hbmSize ∧ up.scrubSkips (chanSet (hbmSize - 64)) = false ∧
      up.isPoisoned (frameOf (hbmSize - 64)) = false ∧ up.hbm.bad.contains ((hbmSize - 64) / 64) = false ∧
      up.repairFor (frameOf (hbmSize - 64)) = none) ∧
    (k.barOpen 0 = true ∧ k.runsFree 250 = true ∧ n.barOpen 0 = true ∧ n.runsFree 250 = true ∧ k.hostWaits = false ∧ n.hostWaits = false ∧ bits go.toNat 22 0 = 2 ∧ bits go.toNat 30 23 = 5 ∧ bitAt go.toNat 31 = true ∧ ((at2 k).readCount .sys 2).1 = 0 ∧
      (k.slot 5).type = 1 ∧ ((at2 n).readCount .sys 2).1 ≠ 0) ∧
    (up.islandOn 250 = true ∧ c.islandOn 250 = true ∧ r.rel.canaryState = .test ∧ (r.core 0).panel = some 0 ∧
      (r.panel 0).running = some handed ∧ (c.panel 0).running = none ∧ up.islandOn 252 = true ∧ up.islandOn 253 = true) ∧
    (up.rel.canaryOn = true ∧ up.rel.canaryState = .waiting ∧ (withCore {}).canaryPick.isSome = true) ∧
    (c.rel.canaryState ≠ .waiting ∧ c.rel.canaryCore = 0 ∧ c.rel.canarySaved = some {} ∧ c.gov.loaded = false ∧ (c.core 0).retired = false) ∧
    Tab.get 0 up.rel.d2dSpares 1 < 8 ∧ 8 ≤ Tab.get 0 ({ up with rel := { d2dSpares := [(1, 8)] } } : State).rel.d2dSpares 1 := by
  intro k n go at2 c r; simp only [k, n, go, at2, c, r]; and_intros <;> decide +kernel

/-! ## 17: security -/

/-- A state with the mailbox running a command of this opcode. -/
def mbx (op : Half) (s : State) : State := { s with mgt := { s.mgt with mbxBusy := true, mbxOpcode := op } }

/-- The module deployed, with good entropy and the keys above. -/
def sDep : State := { keyed up with sec := { (keyed up).sec with lifecycle := .deployed, healthy := true } }

/-- The deployed module with slot 5 changed. -/
def sSlot5 (f : KeySlot → KeySlot) : State := sDep.modSlot 5 f

theorem witness_KeyCommands :
    let w : GenWait := { slot := 5, type := 1, tenant := 3, gen := 2 }
    let b := sSlot5 (fun k => { k with destroyed := [(2, 0)] })
    let r := sSlot5 (fun k => { k with retiring := some 0 })
    let z := sSlot5 (fun k => { k with closing := true })
    let used : State := { sHanded { handed with keyGens := [(5, 1)] } halt0 [] with sec := sDep.sec }
    let old : State := { sHanded { handed with keyGens := [(5, 0)] } halt0 [] with sec := r.sec }
    (sDep.sec.genWait = none ∧ sDep.sec.rewriteWait = none ∧ sDep.sec.shareWait = none ∧ sDep.sec.sharePeers = [] ∧
      sDep.sec.eraseWait = none ∧ b.sec.rewriteWait = none ∧ old.mayInstall 5 (old.nextGen 5) = false ∧ old.keyRefusal 5 1 3 = 0 ∧
      old.genBlocked 5 (old.nextGen 5) = false ∧ (z.slot 5).closing = true ∧ z.keyRefusal 5 1 3 = 0 ∧ z.genBlocked 5 (z.nextGen 5) = false ∧
      (mbx 0x220 old).mbxRuns 0x220 = true ∧ (mbx 0x220 z).mbxRuns 0x220 = true ∧ (mbx 0x220 sDep).mbxRuns 0x220 = true ∧ sDep.keyRefusal 0 1 3 ≠ 0 ∧ sDep.keyRefusal 255 3 63 = 0 ∧
      (mbx 0x220 b).mbxRuns 0x220 = true ∧ b.keyRefusal 5 1 3 = 0 ∧ b.genBlocked 5 (b.nextGen 5) = true ∧
      sDep.genBlocked 5 (sDep.nextGen 5) = false ∧ sDep.mayInstall 5 (sDep.nextGen 5) = true ∧ (sDep.slot 5).closing = false) ∧
    ((mbx 0x221 sDep).mbxRuns 0x221 = true ∧ bitAt 0xFF sDep.walker.boardSlot = true ∧
      ((onesOf 0xFF 8).filter (fun m => decide (m ≠ sDep.walker.boardSlot))) ≠ []) ∧
    (sDep.linksOn = true ∧ sDep.mayInstall 5 (BitVec.ofNat 8 255) = true) ∧
    (w.mask = 0 ∧ sDep.islandOn 243 = true ∧ r.islandOn 243 = true ∧ z.linksOn = true ∧ slotRefusal 5 = 0 ∧ sDep.genBlocked 5 w.gen = false ∧ sDep.mayInstall 5 w.gen = true) ∧
    ((mbx 0x222 sDep).mbxRuns 0x222 = true ∧ slotRefusal 5 = 0 ∧ slotRefusal 255 = 0 ∧ (sDep.slot 255).type = 0 ∧ (sDep.slot 5).type ≠ 0 ∧
      (({ mbx 0x222 sDep with sec := { sDep.sec with eraseWait := some 5 } } : State).beginErase 5).slotUsers 5 = 0 ∧
      (mbx 0x222 used).mbxRuns 0x222 = true ∧ (used.slot 5).type ≠ 0 ∧
      (({ mbx 0x222 used with sec := { sDep.sec with eraseWait := some 5 } } : State).beginErase 5).slotUsers 5 ≠ 0) ∧
    ((mbx 0x223 sDep).mbxRuns 0x223 = true ∧ (mbx 0x223 used).mbxRuns 0x223 = true ∧ (used.panel 0).running = some { handed with keyGens := [(5, 1)] } ∧
      used.stopping 7 = false) ∧
    (r.sec.eraseWait = none ∧ (r.slot 5).closing = false ∧ (r.slot 5).retiring = some 0 ∧ r.usersOf 5 0 = 0) := by
  intro w b r z used old; simp only [w, b, r, z, used, old]; and_intros <;> decide +kernel

theorem witness_TenantsAndDeviceState :
    let b := bound {} {} up
    let rm : Removal := { tenant := 3, peers := [1, 2] }
    let r : State := { sDep with sec := { sDep.sec with removal := some rm } }
    let sh : State := { keyed up with mgt := up.mgt }
    ((mbx 0x224 up).mbxRuns 0x224 = true ∧ (∀ c ∈ Tab.keys up.cmd.ctxs, (up.ctx c).bound = false) ∧
      (mbx 0x224 b).mbxRuns 0x224 = true ∧ 7 ∈ Tab.keys b.cmd.ctxs ∧ (b.ctx 7).bound = true) ∧
    ((mbx 0x225 sh).mbxRuns 0x225 = true ∧ sh.sec.removal = none ∧ (∀ i ∈ sh.tenantSlots 3, (sh.slot i).shared = false)) ∧
    (r.sec.removal = some rm ∧ 1 ∈ rm.peers ∧ (∃ m ∈ rm.peers, m ≠ 1) ∧ r.pins.dieOn = true ∧ r.linksOn = true) ∧
    (sDep.linksOn = true ∧ sDep.sec.drains = [] ∧ sDep.drained 1 3 = true) ∧
    ((mbx 0x226 up).mbxRuns 0x226 = true ∧ lifecycleOf 2 = some .deployed ∧ up.lifecycleStatus .deployed [] = 0 ∧
      lifecycleOf 0 = some .manufacture ∧ up.lifecycleStatus .manufacture [] ≠ 0) ∧
    ((mbx 0x227 up).mbxRuns 0x227 = true ∧ (mbx 0x227 up).mgt.state ≠ .hold) ∧
    (up.pins.standby = true ∧ up.pins.dieOn = true ∧ up.pins.perst = false) ∧ sDep.sec.healthy = true ∧ 0 < up.clk.groupsUp := by
  intro b rm r sh; simp only [b, rm, r, sh]; and_intros <;> decide

/-- The deployed module with a session of the PF for context 7 in slot 9. -/
def sSession (f : KeySlot → KeySlot) : State :=
  let s := ({ sDep with sec := { sDep.sec with sessions := [(9, { ctx := 7, fn := 0 })] } } : State).modSlot 9 (fun _ => { type := 3, tenant := 3, material := 4 })
  let t := s.modSlot 9 f
  { t with cmd := { t.cmd with ctxs := [(7, { bound := true, f := { fields7 with secure := true } })] } }

theorem witness_SpdmAndSessions :
    let s := sSession id
    let st : Step := { step7 with keyGens := [(9, 0)] }
    let u : State := { s with cmd := { s.cmd with panels := [(0, { running := some st })] } }
    (up.spdmOpen .smbus = true ∧ up.spdmOpen (.doe 0) = true) ∧
    (s.spdmOpen (.doe 0) = true ∧ (s.ctx 7).bound = true ∧ (s.ctx 7).f.secure = true ∧ (s.ctx 7).f.fn.toNat = 0 ∧
      s.sec.lifecycle = .deployed ∧ s.sec.healthy = true ∧ s.freeSlot = some 1 ∧ (s.ctx 8).bound = false) ∧
    (Tab.find s.sec.sessions 9 = some { ctx := 7, fn := 0 } ∧ (s.slot 9).type ≠ 0 ∧ s.sec.eraseWait ≠ some 9 ∧ s.sec.closeWait = [] ∧
      (({ s with sec := { s.sec with closeWait := [(9, 0)] } } : State).beginErase 9).slotUsers 9 = 0 ∧ u.spdmOpen (.doe 0) = true ∧
      (({ u with sec := { u.sec with closeWait := [(9, 0)] } } : State).beginErase 9).slotUsers 9 ≠ 0) ∧
    Tab.find s.sec.sessions 8 = none := by
  intro s st u; simp only [s, st, u]; and_intros <;> decide

/-! ## 14: links -/

/-- The module with port 0 as given; the plan expects module 1 there. -/
def sPort (p : Port) : State := { up with lnk := { ports := [(0, p)], plan := [(0, 0x400001)] } }

/-- A port that is up, with a frame that is not acknowledged. -/
def upPort : Port := { state := .up, replay := [{ seq := 0, type := 1 }], txSeq := 1 }

theorem witness_LinkFrames :
    let s := sPort upPort
    let bad : LinkFrame := { good := false }
    let late : LinkFrame := { good := true, type := 1, seq := 5 }
    let next : LinkFrame := { good := true, type := 1, seq := 0, vc := 2 }
    s.portOn 0 = true ∧ (sPort { state := .holddown }).portOn 0 = true ∧ (s.port 0).hears = true ∧ bad.good = false ∧ late.good = true ∧ late.type = 1 ∧ late.nak = false ∧ late.seq ≠ (s.port 0).rxSeq ∧
    (let spent := sPort { upPort with replays := 4 }
     spent.portOn 0 = true ∧ (spent.port 0).hears = true ∧ (spent.port 0).replay ≠ [] ∧
      max 1 spent.lnk.replayMax.toNat ≤ (spent.port 0).replays) ∧ (s.port 0).replays < max 1 s.lnk.replayMax.toNat ∧
    next.seq = (s.port 0).rxSeq ∧ (s.port 0).txBytes = [] ∧ next.nak = false ∧ (s.port 0).replay ≠ [] ∧ (s.port 0).isUp = true ∧
    (s.port 0).replay.length < 1024 ∧ ((sPort { state := .holddown }).port 0).state = .holddown ∧ s.lnk.transfers = [] := by
  intro s bad late next; simp only [s, bad, late, next]; and_intros <;> decide

theorem witness_PortSurveys :
    let s := sPort { state := .training }
    let id1 : LinkIdentity := { module := 1, hiLevel := 1 }
    let id2 : LinkIdentity := { module := 99, hiLevel := 1 }
    let u := sPort upPort
    let b : State := { s with lnk := { s.lnk with surveyBusy := true } }
    (s.portOn 0 = true ∧ s.hostWaits = false ∧ u.hostWaits = false ∧ b.hostWaits = false ∧ (s.port 0).state = .training ∧
      (sPort {}).portOn 0 = true ∧ s.logicalPort 0 = some 0 ∧ planState (s.planOf 0) = 1 ∧ (s.port 0).frozen = false ∧ (s.port 0).isUp = false ∧
      (s.port 0).surveying = false ∧ s.runsFree 254 = true ∧ u.runsFree 254 = true ∧ b.runsFree 254 = true ∧ (s.port 0).state ≠ .holddown ∧ max (s.firmware.level - 1) id1.loLevel ≤ min s.firmware.level id1.hiLevel ∧
      planPeer (s.planOf 0) = identitySeen id1 ∧ (s.port 0).wasDead = false ∧ planPeer (s.planOf 0) ≠ identitySeen id2 ∧
      s.swapOf 0 (identitySeen id2) = none ∧ portClass 0 = 0) ∧
    (s.barOpen 0 = true ∧ bitAt (1#32).toNat 0 = true ∧ b.lnk.surveyBusy = true ∧ s.lnk.surveyBusy = false ∧
      ((sPort {}).port 0).state = .down ∧ (sPort {}).lnk.surveyBusy = false ∧ portClass 0 ≠ 3) ∧
    (u.barOpen 0 = true ∧ (u.port (u.physPort 0)).isUp = true ∧ (s.port (s.physPort 0)).isUp = false ∧ s.spareFits 0 42 = true) := by
  intro s id1 id2 u b; simp only [s, id1, id2, u, b]; and_intros <;> decide +kernel

/-- A put of one byte to slice offset 0x40 of logical core 0 in context 7. -/
def put7 (gen : BitVec 8) : MsgHdr :=
  { dest := 0, src := 1, tenant := 3, dstCtx := 7, ctxGen := gen, keyGen := 1, bytes := 1, target := 0x40, slice := true }

/-- The module with port 0 up, context 7 in core 0, and one stream of each kind with messages. -/
def sMsg : State :=
  let s := bound {} {} (keyed (withCore { slice := { resident := some (7, 0) } }))
  { s with
    lnk := { ports := [(0, upPort)], rx := [(streamKey 1 2, { due := [0] })]
             tx := [(streamKey 1 2, { unacked := [{ hdr := { dest := 1, src := 0 }, data := [], port := 0 }] }), (streamKey 2 2, {})] }
    clk := { s.clk with now := 1000000 } }

theorem witness_LinkMessages :
    let away : MsgHdr := { dest := 9, src := 1, ports := [0] }
    let dead : MsgHdr := { dest := 9, src := 1, ports := [1] }
    let peer : MsgHdr := { dest := 0, src := 1, kind := 7, vc := 2, keySlot := 5, keyGen := 9, bytes := 4 }
    let st := Tab.get ({} : RxStream) sMsg.lnk.rx (streamKey 1 2)
    (sMsg.linksOn = true ∧ sMsg.dieCtl 0 = true ∧ sMsg.dieCtl 1 = true ∧ sMsg.portOn 0 = true ∧ sMsg.lnk.transfers = [] ∧ (sMsg.port 0).isUp = true ∧ ({ away with kind := 0 } : MsgHdr).kind = 0 ∧
      sMsg.rel.frozen.length < 128 ∧ away.kind = 1 ∧ away.reservedZero = true ∧ away.bytes ≤ 4096 ∧ away.dest ≠ sMsg.me ∧
      away.next < away.ports.length ∧ sMsg.liveLink (away.ports.getD away.next 104) away.level = true ∧
      sMsg.liveLink (dead.ports.getD dead.next 104) dead.level = false) ∧
    ((put7 0).dest = sMsg.me ∧ (put7 0).kind = 1 ∧ (put7 0).bytes ≤ 4096 ∧ (sMsg.ctx 7).bound = true ∧ (sMsg.ctx 7).f.tenant = (put7 0).tenant ∧
      (put7 9).ctxGen ≠ (sMsg.ctx 7).gen ∧ (put7 0).ctxGen = (sMsg.ctx 7).gen ∧ sMsg.genCurrent (sMsg.ctxNow 7).1.linkSlot.toNat 1 = true ∧
      (put7 0).raise = false ∧ sMsg.targetCore 7 (bits (put7 0).target.toNat 28 21) = some 0 ∧ (sMsg.core 0).slice.secure = false ∧
      (sMsg.core 0).slice.rangeOn (bits (put7 0).target.toNat 20 0) 1 = true ∧ st.has 0 = false ∧ ((0 : W32) - st.cumAck).toNat < 1024) ∧
    ((put7 0).slice = true ∧ sMsg.gov.mState = .active ∧ sMsg.msgHeld (dieOfPort 0) (put7 0) = false ∧ sMsg.streamOn (streamKey 1 2) = true ∧
      peer.dest = sMsg.me ∧ peer.kind = 7 ∧ peer.reservedZero = true ∧ peer.keySlot ≠ 0 ∧ sMsg.memFree = true ∧ sMsg.genCurrent peer.keySlot peer.keyGen = false) ∧
    (st.due ≠ [] ∧ (sMsg.port st.port).isUp = true ∧ (Tab.get ({} : TxStream) sMsg.lnk.tx (streamKey 1 2)).unacked ≠ [] ∧
      (Tab.get ({} : TxStream) sMsg.lnk.tx (streamKey 2 2)).unacked = [] ∧
      (Tab.get ({} : TxStream) sMsg.lnk.tx (streamKey 2 2)).lastUse + 1000000 ≤ sMsg.time) := by
  intro away dead peer st; simp only [away, dead, peer, st]; and_intros <;> decide +kernel

/-- The registration of frame 2 for context 7. -/
def postReg : PostReg := { panel := 0, frame := 2, keySlot := 5, ctx := 7, gen := 0 }

/-- The bytes of a post: a signal to module 1 that raises counter 9 of core 0, and a post of a reserved operation. -/
def post (op : Nat) : List Byte := [BitVec.ofNat 8 op, 9, 0, 0, 0, 0] ++ leBytes 2 1 ++ zeros 56

/-- The transfer of that post in slot 0. -/
def transfer (op : Nat) : Transfer := { ctx := 7, gen := 0, panel := 0, slot := 0, frame := 2, keySlot := 5, post := post op }

/-- The module with that post in memory. -/
def sPost (op : Nat) (ts : List Transfer) : State :=
  { sMsg with
    hbm := { mem := Mem.writeN [] 0x20000 (post op), tags := [(0x800, 1)] }
    lnk := { sMsg.lnk with posts := [postReg], transfers := ts, tx := [(streamKey 1 2, { unacked :=
      [{ hdr := { dest := 1, src := 0 }, data := [], port := 0, owner := some (7, 0) }] })] } }

/-- A collective of context 7 on die 0, and a chunk for it. -/
def coll : Collective := { die := 0, ctx := 7, slot := 0, id := 0x77, block := [], seen := [(2, 0x77)], engine := true }
def chunk (src : Nat) : MsgHdr := { dest := 0, src := src, kind := 4, vc := 5, tenant := 3, dstCtx := 7, ctxGen := 0, keyGen := 1, key := 0x77 }

theorem witness_LinkTransfers :
    let s := sPost 3 []
    let b := sPost 5 []
    let r (s : State) := (s.hbmRead 0x20000 64 (s.hreq 5 (s.sysWays 0x20000))).1.bytesOr 64
    let d : State := { sMsg with lnk := { sMsg.lnk with transfers := [{ transfer 3 with status := some 2 }] } }
    let c : State := { sMsg with lnk := { sMsg.lnk with collectives := [coll] } }
    (s.linksOn = true ∧ s.dieCtl 0 = true ∧ s.dieCtl 1 = true ∧ s.islandOn (224 + stackOf 0x20000) = true ∧
      s.streamOn (streamKey 1 2) = true ∧ c.dieCtl 0 = true ∧ s.lnk.posts.find? (fun g => decide (g.ctx = 7)) = some postReg ∧ r s = post 3 ∧ fieldAt (post 3) 0 1 % 8 ≠ 0 ∧
      s.lnk.transfers = [] ∧ s.postsFull (transfer 3) = false ∧ b.postsFull (transfer 5) = false ∧
      (sPost 3 (List.replicate 1025 { transfer 3 with slot := 1 })).postsFull (transfer 3) = true ∧ s.postOk (transfer 3) = true ∧ r b = post 5 ∧ b.postOk (transfer 5) = false ∧
      (∃ y ∈ (sPost 3 [transfer 3]).lnk.transfers, y.ctx = 7 ∧ y.slot = 0)) ∧
    (d.linksOn = true ∧ d.lnk.transfers = [{ transfer 3 with status := some 2 }] ∧ d.lnk.collectives = [] ∧
      d.transferDone { transfer 3 with status := some 2 } = true ∧ d.physIn 0 ((transfer 3).b 2 1) = some 0) ∧
    (c.lnk.collectives.find? (fun c => decide (c.die = 0) && decide (c.ctx = (chunk 2).dstCtx.toNat) &&
        decide (c.id.toNat = (chunk 2).key.toNat % 2 ^ 32) && c.engine) = some coll ∧ (c.ctx 7).f.tenant = (chunk 2).tenant ∧
      (chunk 2).ctxGen = (c.ctx 7).gen ∧ c.genCurrent (c.ctx 7).f.linkSlot.toNat (chunk 2).keyGen = true ∧
      ((chunk 2).src, (chunk 2).key) ∈ coll.seen ∧ ((chunk 3).src, (chunk 3).key) ∉ coll.seen ∧ c.lnk.transfers = [] ∧
      (let d : State := { c with lnk := { c.lnk with transfers := [{ transfer 4 with status := some 8 }] } }
       ∃ x ∈ d.lnk.transfers, x.ctx = coll.ctx ∧ x.slot = coll.slot ∧ x.status.isSome = true) ∧
      (c.lnk.collectives.filter (fun c => decide (c.die = 0) && c.engine))[0]? = some coll) ∧
    ({ hdr := { dest := 1, src := 0 }, data := [], port := 0, owner := some (7, 0) } : SentMsg) ∈
      (Tab.get ({} : TxStream) s.lnk.tx (streamKey 1 2)).unacked := by
  intro s b r d c; simp only [s, b, r, d, c]; and_intros <;> decide +kernel

/-! ## 18: boot, firmware, the mailbox, the tables -/

/-- Change the management plane of a state. -/
def mg (f : Mgt → Mgt) (s : State) : State := { s with mgt := f s.mgt }

/-- A configuration block of the sections that a module needs: an identity, an empty plan, the reset values of power; `r` stands in a
reserved field. -/
def block (r : Nat) : List Byte :=
  leBytes 4 0x4643564B ++ leBytes 2 1 ++ leBytes 2 r ++ leBytes 4 1144 ++ zeros 244 ++
    (leBytes 4 (1 + 2 * 65536) ++ zeros 12) ++ (leBytes 4 (2 + 106 * 65536) ++ zeros 844) ++
    (leBytes 4 (3 + 3 * 65536) ++ leBytes 4 (1500 + 10 * 2 ^ 22) ++ leBytes 4 (0xE4 * 4) ++ leBytes 4 0 ++ leBytes 4 90 ++ zeros 4)

/-- A block whose signature holds passes every check, also one with a value in a reserved field (`Config.blockSig` is a free function,
and so is `Config.imageOk`: what they answer is no test's to show). -/
theorem test_block_passes (r : Nat) (hr : r = 0 ∨ r = 1) (h : Config.blockSig (cfgSigned ((block r).take 1144)) = true) :
    up.cfgCause false (block r) = 0 ∧ (cfgReservedOk ((block r).take (fieldAt (block r) 8 4)) = true ↔ r = 0) := by
  have e1 : fieldAt (block r) 8 4 = 1144 := by rcases hr with rfl | rfl <;> decide +kernel
  have e2 : fieldAt (block r) 0 4 = 0x4643564B := by rcases hr with rfl | rfl <;> decide +kernel
  have e3 : ¬ (block r = [] ∨ (block r).all (fun b => b = 0xFF)) := by rcases hr with rfl | rfl <;> decide +kernel
  have e4 : ¬ (fieldAt ((block r).take 1144) 4 2 < up.firmware.schemaLo ∨ up.firmware.schemaHi < fieldAt ((block r).take 1144) 4 2) := by
    rcases hr with rfl | rfl <;> decide +kernel
  have e5 : cfgSectionsCause up ((block r).take 1144) = 0 := by rcases hr with rfl | rfl <;> decide +kernel
  have e6 : ¬ (up.sec.lifecycle = .deployed) := by decide
  have e7 : (1144 : Nat) ≤ (block r).length := by rcases hr with rfl | rfl <;> decide +kernel
  have e8 : cfgReservedOk ((block r).take 1144) = true ↔ r = 0 := by rcases hr with rfl | rfl <;> decide +kernel
  simp only [State.cfgCause, e1, e2, e3, e4, e5, e6, e7, h]
  exact ⟨by simp, e8⟩

theorem witness_BootAndFirmware :
    let cold : State := State.reset
    let bad := mg (fun m => { m with fwA := { m.fwA with valid := false }, fwB := { m.fwB with valid := false } }) cold
    let tampered : State := { cold with sec := { cold.sec with tamper := 1 } }
    let headed := mg (fun m => { m with group := { head := true } }) up
    let asked := mg (fun m => { m with fwAsking := some 10 }) up
    let noB := mg (fun m => { m with fwB := { m.fwB with valid := false } }) up
    let tried := mg (fun m => { m with state := .hold, holdCause := 5, revertS := 60, runSlot := true, trial := some 10 }) up
    (cold.pins.standby = true ∧ cold.pins.modEn = true ∧ cold.pins.pwrgd = true ∧ cold.pins.dieOn = true ∧ cold.pins.perst = true ∧
      cold.mgt.trial = none ∧ cold.mgt.runSlot = cold.mgt.activeSlot ∧ cold.firmware.valid = true ∧ cold.sec.tamper = 0 ∧
      cold.cfgCause cold.mgt.configHalf cold.mgt.config ≠ 0) ∧
    (tampered.pins.perst = true ∧ tampered.sec.tamper ≠ 0) ∧
    (bad.mgt.fwA.valid = false ∧ bad.mgt.fwB.valid = false ∧ bad.sec.tamper = 0) ∧
    ((mbx 0x201 up).mbxRuns 0x0201 = true ∧ (mbx 0x202 up).mbxRuns 0x0202 = true ∧ (mbx 0x203 up).mbxRuns 0x0203 = true ∧
      (mbx 0x203 up).cfgCause false [] ≠ 0 ∧ (mbx 0x203 up).mgt.state ≠ .hold ∧ (mbx 0x203 tried).mgt.state = .hold ∧ tried.mgt.holdCause ≤ 5 ∧
      (mbx 0x204 up).mbxRuns 0x0204 = true ∧ (mbx 0x205 up).mbxRuns 0x0205 = true ∧ (block 0).length ≤ 33554432) ∧
    ((mbx 0x206 up).mbxRuns 0x0206 = true ∧ up.mgt.fwAsking = none ∧ (up.mgt.fw !up.mgt.activeSlot).valid = true ∧ up.hasHeadframe = false ∧
      headed.hasHeadframe = true ∧ (noB.mgt.fw !noB.mgt.activeSlot).valid = false ∧ asked.mgt.fwAsking = some 10) ∧
    ((mbx 0x207 up).mbxRuns 0x0207 = true ∧ up.mgt.trial = none ∧ up.mgt.runSlot = up.mgt.activeSlot) ∧
    (tried.pins.standby = true ∧ tried.mgt.state = .hold ∧ tried.mgt.holdCause = 5 ∧ tried.mgt.revertS ≠ 0 ∧
      tried.mgt.runSlot ≠ tried.mgt.activeSlot) := by
  intro cold bad tampered headed asked noB tried; simp only [cold, bad, tampered, headed, asked, noB, tried]; and_intros <;> decide +kernel

theorem witness_MailboxCommands :
    let frozen : State := { up with hif := { up.hif with frozen := [3] } }
    let s := mbx 0x209 (sPort { state := .identity, frozen := true })
    (up.doorOpen .bar4 = true ∧ up.hostWaits = false ∧ up.doorOpen .chain = true ∧ up.doorOpen .vc4 = true ∧ up.mgt.mbxBusy = false ∧ (mbx 0x201 up).mgt.mbxBusy = true ∧
      (0x0201#16).toNat ∈ mbxOpcodes ∧ up.mgt.state = .ready ∧ mbxInHold 0x0201 = true ∧ mbxInHold 0x0208 = false ∧
      (mg (fun m => { m with state := .hold }) up).doorOpen .bar4 = true ∧ (0x0208#16).toNat ∈ mbxOpcodes ∧ (0x020F#16).toNat ∉ mbxOpcodes) ∧
    ((mbx 0x208 up).mbxRuns 0x0208 = true ∧ (mbx 0x209 frozen).mbxRuns 0x0209 = true ∧ 3 ∈ frozen.hif.frozen ∧ 4 ∉ frozen.hif.frozen ∧
      s.mbxRuns 0x0209 = true ∧ s.mgt.state = .ready ∧ (s.port 0).frozen = true) ∧
    ((mbx 0x20A up).mbxRuns 0x020A = true ∧ (mbx 0x20C up).mbxRuns 0x020C = true ∧ (mbx 0x20E up).mbxRuns 0x020E = true) ∧
    ((mbx 0x20D (sPort {})).mbxRuns 0x020D = true ∧ up.pins.dieOn = true ∧ (∀ p < 104, ((sPort {}).port p).isUp = false ∧
      ((sPort {}).port p).state ≠ .holddown) ∧ (sPort {}).logicalPort 0 = some 0 ∧ ((sPort {}).port 0).frozen = false ∧ portClass 0 ≠ 3 ∧
      planState ((sPort {}).planOf 0) = 1) ∧
    (let z : State := { up with lnk := { up.lnk with ports := (List.range 104).map (fun p => (p, { frozen := true })) } }
     (∀ p < 104, (z.port p).isUp = false ∧ (z.port p).state ≠ .holddown) ∧ (∀ p < 104, (z.port p).frozen = true ∧ (z.port p).state = .down ∧ (z.port p).surveying = false) ∧
      z.mgt.bootStage ≠ 5) := by
  intro frozen s; simp only [frozen, s]; and_intros <;> decide +kernel

theorem witness_LockGroups :
    let l := mg (fun m => { m with locks := 3 }) up
    up.barOpen 0 = true ∧ [up, l].all (fun s => s.runsFree 244 && s.runsFree 249) = true ∧ up.hostWaits = false ∧ l.hostWaits = false ∧ up.islandUp 244 = true ∧ up.islandUp 249 = true ∧ up.locked 1 = false ∧ up.locked 0 = false ∧
    l.barOpen 0 = true ∧ l.islandUp 244 = true ∧ l.islandUp 249 = true ∧ l.locked 1 = true ∧ l.locked 0 = true ∧
    70 ≤ bits (90#64).toNat 6 0 ∧ bits (90#64).toNat 6 0 ≤ 100 := by
  intro l; simp only [l]; and_intros <;> decide

theorem witness_EventLog :
    let s := mg (fun m => { m with events := List.replicate 4096 { seq := 0, code := 1, arg := 0, time := 0 } }) up
    up.mgt.events.length < 4096 ∧ s.mgt.events.length = 4096 ∧ (mbx 0x20A up).mbxRuns 0x020A = true ∧ 2048 ≤ 2048 := by
  intro s; simp only [s]; and_intros <;> decide +kernel

/-- The fields of context 8, and of context 8 in a format that no KV frame has. -/
def fields8 : CtxFields := { ctxId := 8, tenant := 3, window := 1, kvFmt := 5, kvLogP := 4, memSlot := 5, linkSlot := 6 }

theorem witness_TablesByMailbox :
    let s := bound {} {} up
    let busy := bound {} { running := some step7 } up
    let moving : State := s.modCtx 7 (fun c => { c with recovering := true })
    let one : PanelFields := { class0 := true }
    let h := mg (fun m => { m with group := { head := true } }) s
    let p := sPort {}
    let pd : State := { p with lnk := { p.lnk with plan := [(21, 0x400001)] } }
    ((mbx 0x210 s).mbxRuns 0x0210 = true ∧ fields8.moduleZero = true ∧ fields8.ctxId.toNat = 8 ∧ rcOk fields8 = true ∧ kvOk fields8 = true ∧
      s.bindOk 8 fields8 = true ∧ s.windowFree 8 fields8 = true ∧ s.windowFree 8 { fields8 with window := 0 } = false) ∧
    ((mbx 0x211 s).mbxRuns 0x0211 = true ∧ (s.ctx 7).destroyWait = false ∧ (s.ctx 8).destroyWait = false ∧ (s.ctx 8).bound = false ∧
      (s.ctx 7).bound = true ∧ (s.ctx 7).recovering = false ∧ s.ctxBusy 7 = false ∧ busy.ctxBusy 7 = true ∧ (busy.ctx 7).bound = true ∧
      (busy.ctx 7).destroyWait = false) ∧
    ((mbx 0x212 s).mbxRuns 0x0212 = true ∧ (moving.ctx 7).bound = true ∧ (moving.ctx 7).recovering = true ∧
      (mbx 0x213 s).mbxRuns 0x0213 = true) ∧
    ((mbx 0x214 s).mbxRuns 0x0214 = true ∧ s.panelOk 1 {} = true ∧ (s.panel 1).written = false ∧ s.panelOk 1 one = true ∧ s.hasHeadframe = false ∧
      h.hasHeadframe = true ∧ h.panelOk 1 one = true ∧ s.panelOk 1 { cores := 1 } = false ∧ (s.panel 0).written = true ∧
      (s.panel 0).entry.cores ≠ (3 : BitVec 144)) ∧
    ((mbx 0x215 s).mbxRuns 0x0215 = true ∧ (mbx 0x216 s).mbxRuns 0x0216 = true ∧ plOk (table 0) = true ∧ plOk [] = false) ∧
    ((mbx 0x217 p).mbxRuns 0x0217 = true ∧ p.lnk.transfers = [] ∧ p.pathsOk [{ ports := [0], hops := 1 }] = true ∧
      p.pathsOk [{ ports := [0], hops := 7 }] = false ∧
      (∀ x ∈ [({ ports := [0], hops := 1 } : RoutePath), { ports := [0], hops := 7 }], x.rsvZero = true ∧ x.broken = false)) ∧
    ((mbx 0x218 s).mbxRuns 0x0218 = true ∧ 1 = s.firmware.level ∧ 7 ≠ s.firmware.level ∧ 7 + 1 ≠ s.firmware.level) ∧
    ((mbx 0x219 pd).mbxRuns 0x0219 = true ∧ pd.spareFits 21 48 = true ∧ (pd.port (pd.physPort 21)).isUp = false ∧
      (let u : State := { pd with lnk := { pd.lnk with ports := [(21, upPort)] } }; u.spareFits 21 48 = true ∧ (u.port (u.physPort 21)).isUp = true)) ∧
    ((mbx 0x21A s).mbxRuns 0x021A = true) := by
  intro s busy moving one h p pd; simp only [s, busy, moving, one, h, p, pd]; and_intros <;> decide +kernel

/-! ## 18: the tally, the chain, the headframes -/

theorem witness_TallyAndChain :
    let armed := mg (fun m => { m with tallyPending := true, armTime := 1 }) { up with clk := { up.clk with now := 5000 }, counters := [(coreReg 0 0x2900, 7)] }
    let f : ChainFrame := { dst := 1, src := 2, type := 0 }
    let q (x : ChainTx) := mg (fun m => { m with upTx := x }) up
    let none' := mg (fun m => { m with chainAddr := none }) up
    let held := mg (fun m => { m with state := .hold, holdCause := 7, chainAddr := none }) up
    let brd := mg (fun m => { m with board := { head := true, epoch := 4 } }) up
    let stand := mg (fun m => { m with board := { standby := true, epoch := 4 } }) { up with clk := { up.clk with now := 1000000000 } }
    let g1 (s : State) : State := { s with gov := { s.gov with authority := 1 } }
    ((mbx 0x20B up).mbxRuns 0x020B = true ∧ up.tallyRefused 20000 = false ∧ up.tallyRefused 0 = true ∧ up.runsFree 245 = true ∧ up.barOpen 0 = true ∧ up.hostWaits = false ∧
      bitAt (0x10001#32).toNat 16 = true ∧ bitAt (1#32).toNat 16 = false ∧
      (mg (fun m => { m with tallyTime := 20000 }) up).tallyRefused 20000 = false) ∧
    (armed.mgt.tallyPending = true ∧ armed.mgt.armTime.toNat ≤ armed.time ∧
      (Tab.get ({} : TallyIsland) armed.mgt.islands 0).lastTime < armed.mgt.armTime.toNat ∧ (armed.modCore 0 id).islandRuns 245 = true ∧
      armed.islandRuns 244 = true ∧ ({ armed with clk := { armed.clk with groupsUp := 1 } } : State).islandRuns 0 = false ∧
      (armed.counters.map Prod.fst).Nodup ∧ armed.mgt.armTime.toNat + 1000 ≤ armed.time) ∧
    (up.mgtUp = true ∧ up.chainUp = true ∧ (up.chainTx true).queue = [] ∧ up.mgt.chainAddr = some f.dst ∧ (1 : Nat) ≠ { f with dst := 0 }.dst ∧
      { f with dst := 0 }.dst < 1 ∧ (1 : Nat) < { f with dst := 2 }.dst) ∧
    (((q { queue := [f] }).chainTx true).queue = [f] ∧ ((q { queue := [f] }).chainTx true).backoff = 0 ∧
      ((q { queue := [f] }).chainTx true).tries < 3 ∧ 3 ≤ ((q { queue := [f], tries := 3 }).chainTx true).tries ∧
      ((q { queue := [f], backoff := 2 }).chainTx true).backoff ≠ 0) ∧
    (none'.chainUp = true ∧ none'.mgt.chainAddr = none ∧ none'.mgt.state ≠ .hold ∧ up.mgt.chainOpen = false ∧ held.chainUp = true ∧
      held.mgt.state = .hold ∧ held.mgt.holdCause = 7) ∧
    (brd.mgtUp = true ∧ (brd.role .board).head = true ∧ brd.grantRole = none ∧ (brd.role .board).epoch.toNat < (5#32).toNat ∧
      (3#32).toNat < (brd.role .board).epoch.toNat ∧ (stand.role .board).standby = true ∧ (stand.role .board).head = false ∧ stand.mgtUp = true ∧
      (stand.role .board).last + 3 * stand.mgt.heartbeatMs * 1000000 ≤ stand.time) ∧
    ((g1 brd).mgtUp = true ∧ (g1 brd).grantRole = some .board ∧ brd.mgt.grantReqs = [] ∧ ((g1 brd).role .board).head = true ∧
      (g1 brd).grantFits 100 = true ∧ (mg (fun m => { m with grants := [(0, 2000)] }) (g1 brd)).grantFits 100 = false ∧
      ((g1 stand).role .board).head = false ∧ ((g1 stand).role .board).standby = true) ∧
    (up.gov.sensorLimit 1 5000 ≠ Tab.get 0 up.mgt.sensorLimits 1 ∧ (mg (fun m => { m with sensors := [5] }) up).mgt.sensors[1 - 1]? = some 5) := by
  intro armed f q none' held brd stand g1; simp only [armed, f, q, none', held, brd, stand, g1]; and_intros <;> decide +kernel

/-! ## 19, 20: pins, PCIe, host accesses -/

theorem witness_PinsAndPcie :
    let off : State := { up with pins := { up.pins with modEn := false } }
    let k : State := { up with clk := { up.clk with tsyncOn := true } }
    let t (at' : Nat) : State := { k with clk := { k.clk with tsyncLast := some 0, now := BitVec.ofNat 64 at' } }
    let v : State := { up with hif := { up.hif with numVfs := 2 }, cmd := { up.cmd with ctxs := [(7, { bound := true, f := { fields7 with fn := 1 } })] } }
    let d : State := { up with hif := { up.hif with d3hot := [0], mbxIrqHeld := true, msixOn := [0] } }
    let early : State := { up with clk := { up.clk with groupsUp := 0 } }
    let life (l : Lifecycle) : State := { up with sec := { up.sec with lifecycle := l } }
    (up.pins.standby = true ∧ up.pins.modEn = true ∧ off.pins.modEn = false ∧ off.pins.standby = true ∧ up.pins.dieOn = true ∧ up.mgtUp = true ∧
      false ≠ up.pins.standby) ∧
    (k.clockUp = true ∧ k.islandOn 245 = true ∧ k.clk.tsyncOn = true ∧ k.clk.tsyncLast = none ∧ (t 1000).clk.tsyncLast = some 0 ∧ 0 + 1000 ≤ (t 1000).time ∧
      (t 999).time < 0 + 1000) ∧
    (up.mgt.timePort = none ∧ up.clockUp = true ∧ up.islandOn 245 = true ∧ v.barLink = true ∧ up.barLink = true ∧ v.hasFn 1 = true ∧ v.hasFn 0 = true ∧ (v.ctx 7).bound = true ∧ (v.ctx 7).f.fn.toNat = 1 ∧
      1 ∉ v.hif.d3hot ∧ d.barLink = true ∧ d.hasFn 0 = true ∧ 0 ∈ d.hif.d3hot ∧ d.hif.mbxIrqHeld = true ∧ 0 ∈ d.hif.msixOn) ∧
    (early.pins.dieOn = true ∧ early.pins.perst = false ∧ early.clk.held.contains 240 = false ∧ up.clk.held.contains 240 = false ∧ early.clk.groupsUp = 0 ∧ 0 < up.clk.groupsUp ∧ up.pins.perst = false) ∧
    ((life .returned).chainUp = true ∧ (life .returned).factoryMode = true ∧ (life .deployed).chainUp = true ∧ (life .deployed).factoryMode = false ∧
      (life .deployed).pins.dieOn = true ∧ 8 < (9#32).toNat) := by
  intro off k t v d early life; simp only [off, k, t, v, d, early, life]; and_intros <;> decide

/-- The module with BAR2 window 0 as given, over the keys above and core 0 with a secure slice. -/
def sBar2 (w : Bar2Win) (secure : Bool) : State :=
  let s := keyed (withCore { slice := { secure := secure } })
  { s with hif := { s.hif with windows := [(0, w)] } }

theorem witness_HostAccesses :
    let h := sBar2 { enable := true, keySlot := 5, base := 0 } false
    let sl (b : Bool) := sBar2 { enable := true, keySlot := 5, base := 0x1000 } b
    let cold := mg (fun m => { m with state := .hold }) up
    let p : State := { up with hif := { up.hif with peer := [{ write := false, addr := 0, len := 4 }] } }
    let c := (sl false).core 0
    let held (i : Nat) (s : State) : State := { s with clk := { s.clk with held := [i] } }
    ((held 240 up).runsFree 240 = false ∧ (held 0 up).runsFree (hostIsland .pf0 (coreReg 0 0x1008)) = false ∧
      0 ∈ (held 0 (sl false)).bar2Islands 0x100 ∧ (held 0 (sl false)).runsFree 0 = false ∧
      (held 224 h).bar2Islands 0x100 ≠ [] ∧ (∃ i ∈ (held 224 h).bar2Islands 0x100, (held 224 h).runsFree i = false)) ∧
    ([up, cold, h, sl false].all (fun s => (s.bar2Islands 0x100).all s.runsFree) && ((sl true).bar2Islands 0x1E0000).all (sl true).runsFree) = true ∧
    (up.runsFree (islandOfReg (coreReg 0 0x1008)) = true ∧ sRun.runsFree (islandOfReg (coreReg 0 0x1008)) = true ∧ sRun.runsFree 0 = true ∧
      up.runsFree (islandOfReg (hifReg 0x1000)) = true) ∧
    (up.barLink = true ∧ up.hostWaits = false ∧ tlpOk 0x100 4 = true ∧ cold.barLink = true ∧ cold.hostWaits = false ∧ cold.bar2Open = false) ∧
    (up.bar2Open = true ∧ up.bar2Target 0x100 = .refused) ∧
    (h.barLink = true ∧ h.hostWaits = false ∧ h.bar2Open = true ∧ h.bar2Target 0x100 = .hbm 0x100) ∧
    ((sl false).barLink = true ∧ (sl false).hostWaits = false ∧ (sl false).bar2Open = true ∧
      (sl false).bar2Target 0x100 = .slice 0 0x100 ∧ c.slice.hostRefused 0x100 4 = false ∧ (c.slice.found []).badIn 0x100 4 = none ∧
      (c.slice.found [(16, true)]).badIn 0x100 4 = some 4 ∧ (0x100 + 0) / 64 ∉ c.slice.undefB) ∧
    ((sl true).bar2Open = true ∧ tlpOk 0x1E0000 4 = true ∧ (sl true).bar2Target 0x1E0000 = .slice 0 0x1E0000 ∧
      ((sl true).core 0).slice.hostRefused 0x1E0000 4 = true) ∧
    (p.barLink = true ∧ p.hif.peer = { write := false, addr := 0, len := 4 } :: [] ∧ p.sec.drains = []) ∧
    (up.barOpen 0 = true ∧ regAt (coreReg 0 0x1008) = .reg (coreReg 0 0x1008) 32 false ∧ 8 * 8 ≠ 32 ∧ sRun.barOpen 0 = true ∧
      sRun.hostWaits = false ∧ sRun.barLink = true ∧ sRun.islandUp 0 = true ∧ up.islandUp 240 = true) ∧
    (up.doorOpen .bar4 = true ∧ (mbx 0x201 up).doorOpen .bar4 = true ∧ (mbx 0x201 up).mgt.mbxBusy = true ∧ up.mgt.mbxBusy = false) := by
  intro h sl cold p c held; simp only [h, sl, cold, p, c, held]; and_intros <;> decide +kernel

/-- The module with BAR2 window 0 onto board slot 1, whose link is up, and these accesses waiting for their answers or behind them. -/
def sPeer (q : List PeerReq) (d : List Instr) : State :=
  { sPort { upPort with seen := some (1, 0) } with
    sec := (keyed up).sec
    hif := { up.hif with windows := [(0, { enable := true, keySlot := 5, base := 0x2000 })], peer := q, deferred := d } }

theorem witness_HostAccesses_order :
    let w : PeerReq := { write := true, addr := 0, len := 4 }
    let s := sPeer [] []
    let late := sPeer [] [.rstClaim 0]
    let stuck : State := { late with clk := { late.clk with held := [251] } }
    (hostAccess (.rstClaim 0) = true ∧ (sPeer [w] []).hostWaits = true ∧ late.hostWaits = true) ∧
    (s.pending = [] ∧ s.hif.deferred = [] ∧ (sPeer [w] []).hif.peer.any (fun q => q.write) = true) ∧
    (late.pending = [] ∧ late.hif.deferred = .rstClaim 0 :: [] ∧ late.hif.peer.any (fun q => q.write) = false ∧
      ∃ t, exec (.rstClaim 0) { late with hif := { late.hif with deferred := [] } } = .next t ∧ t.hif.deferred ≠ [.rstClaim 0]) ∧
    (stuck.hif.deferred = .rstClaim 0 :: [] ∧ stuck.hif.peer.any (fun q => q.write) = false ∧
      ∃ t, exec (.rstClaim 0) { stuck with hif := { stuck.hif with deferred := [] } } = .next t ∧ t.hif.deferred = [.rstClaim 0]) ∧
    (s.barLink = true ∧ s.hostWaits = false ∧ s.bar2Open = true ∧ s.bar2Target 0x100 = .peer 1) := by
  intro w s late stuck
  refine ⟨?_, ?_, ⟨?_, ?_, ?_, ⟨_, rfl, ?_⟩⟩, ⟨?_, ?_, ⟨_, rfl, ?_⟩⟩, ?_⟩ <;> simp only [w, s, late, stuck] <;> decide +kernel

/-! ## The whole block -/

theorem witness_StepKeepsMemWf :
    ({ sRun with pending := [.perstAssert] } : State).memWf = true ∧
    ∃ t, Sys2Proof.Machine.step { sRun with pending := [.perstAssert] } = .next t := by
  refine ⟨by decide, ?_⟩
  exact ⟨_, rfl⟩

/-! ## Single steps, with results from the rules -/

/-- The state after a command, if there is one. -/
def after (i : Instr) (s : State) : State :=
  match exec i s with
  | .next t => t
  | _ => s

/-- A register of core 0. -/
def reg0 (s : State) (n : BitVec 5) : W32 := (s.core 0).seq.reg n

/-- The module whose core 0 runs with S1 and S2 as given. -/
def s12 (a b : W32) : State :=
  withCore { running with seq := { running.seq with regs := [(1, a), (2, b)], trail := { regs := [(1, a), (2, b)] } } }

/-- A sum and a difference wrap at 32 bits, and S0 takes no value (03 R79). -/
theorem test_register_arithmetic_wraps :
    reg0 (after (.add plain { d := 4, a := 1, b := 2 }) (s12 0xFFFFFFFF 2)) 4 = 1 ∧
    reg0 (after (.sub plain { d := 4, a := 1, b := 2 }) (s12 0 1)) 4 = 0xFFFFFFFF ∧
    reg0 (after (.mul plain { d := 4, a := 1, b := 2 }) (s12 0x10001 0x10000)) 4 = 0x10000 ∧
    reg0 (after (.li plain { d := 0, imm := 7 }) (s12 0 0)) 0 = 0 := by and_intros <;> decide

/-- The check value of CRC-32 is that of the bytes "123456789" (IEEE 802.3; 14 R359). -/
theorem test_crc32 : crc32 [0x31, 0x32, 0x33, 0x34, 0x35, 0x36, 0x37, 0x38, 0x39] = 0xCBF43926 := by decide +kernel

/-- A right shift is logical under sel 1 and keeps the sign under sel 2 (03 R79). -/
theorem test_shifts_right :
    reg0 (after (.shift plain { d := 4, a := 1, sel := 1, imm := 31 }) (s12 0x80000000 0)) 4 = 1 ∧
    reg0 (after (.shift plain { d := 4, a := 1, sel := 2, imm := 31 }) (s12 0x80000000 0)) 4 = 0xFFFFFFFF := by and_intros <;> decide

/-- A conditional branch goes to its target or on to the next instruction (03 R79, R81). -/
theorem test_branch_on_sign :
    ((after (.brc plain { a := 1, b := 2, sel := 2, imm := 0x100 }) (s12 0xFFFFFFFF 0)).core 0).seq.pc = 0x100 ∧
    ((after (.brc plain { a := 1, b := 2, sel := 2, imm := 0x100 }) (s12 0 0)).core 0).seq.pc = 0x10 := by and_intros <;> decide

/-- A branch to an address that is not a multiple of 16 freezes the core, with code 0x0803 (03 R81, R86). -/
theorem test_branch_misaligned_freezes :
    ((after (.br plain { imm := 0x108 }) (s12 0 0)).core 0).seq.state = .frozen ∧
    ((after (.br plain { imm := 0x108 }) (s12 0 0)).core 0).seq.faultCode = 0x0803 := by and_intros <;> decide

/-- The command at the front of the queue runs alone, and with none waiting time passes. -/
theorem test_step_takes_the_front :
    Sys2Proof.Machine.step { sRun with pending := [.li plain { d := 4, imm := 7 }, .perstAssert] } =
      exec (.li plain { d := 4, imm := 7 }) { sRun with pending := [.perstAssert] } ∧
    Sys2Proof.Machine.step up = .next up.tick := ⟨rfl, rfl⟩

/-- Words written out from the layouts of R68, R78, R107 and R184: LI S4, 7; MXCLR of rows 511 and 0 that waits for counter 9 and
signals counter 10; SRUN of the descriptor at word 3 with alt; and a reserved opcode of the sequencer. -/
theorem test_words_decode :
    decodeInsn 0 0x10000000000000200000000000000007 = some (.li plain { d := 4, imm := 7 }) ∧
    decodeInsn 0 0x0470900000010A000007FC0200000000 =
      some (.mxclr { core := 0, wait := true, waitCtr := 9, waitValue := 1, signal := true, signalCtr := 10 } { accBase := 511, rows := 2 }) ∧
    decodeInsn 0 0x00C00000000000000000000000000E00 = some (.srun plain { desc := 3, alt := true }) ∧
    decodeInsn 0 0x7F000000000000000000000000000000 = none := by and_intros <;> decide

end Sys2Proof.Tests
end

section
/-! PROOFS. What a reply of the mailbox leaves alone, field by field, and the newest entries of the event log. -/

namespace Sys2Proof.Machine

/-! ### The running command -/

/-- The mailbox is busy while a command runs. -/
theorem State.mbxBusy_of_mbxRuns {s : State} {op : Nat} (h : s.mbxRuns op = true) : s.mgt.mbxBusy = true := by
  simp only [State.mbxRuns, Bool.and_eq_true] at h
  obtain ⟨⟨-, hb⟩, -⟩ := h
  exact hb

/-! ### State.mbxReply -/

/-- From s to t the mailbox's result, the note of an interrupt that waits for D0, and what is out have changed, and nothing else
(R475, R493). -/
structure ReplyOnly (s t : State) : Prop where
  cmd : t.cmd = s.cmd
  edu : t.edu = s.edu
  lnk : t.lnk = s.lnk
  gov : t.gov = s.gov
  rel : t.rel = s.rel
  hbm : t.hbm = s.hbm
  clk : t.clk = s.clk
  mgt : ∃ status len resp, t.mgt = { s.mgt with mbxBusy := false, mbxStatus := status, mbxRespLen := len, mbxResp := resp }

theorem State.mbxReply_only (s : State) (st : Half) (data : List Byte) : ReplyOnly s (s.mbxReply st data) := by
  obtain ⟨status, len, resp, held, out, h⟩ := s.mbxReply_frame st data
  rw [h]
  exact ⟨rfl, rfl, rfl, rfl, rfl, rfl, rfl, ⟨status, len, resp, rfl⟩⟩

section
variable (s : State) (st : Half) (data : List Byte)

@[simp] theorem State.mbxReply_cmd : (s.mbxReply st data).cmd = s.cmd := (s.mbxReply_only st data).cmd
@[simp] theorem State.mbxReply_edu : (s.mbxReply st data).edu = s.edu := (s.mbxReply_only st data).edu
@[simp] theorem State.mbxReply_lnk : (s.mbxReply st data).lnk = s.lnk := (s.mbxReply_only st data).lnk
@[simp] theorem State.mbxReply_gov : (s.mbxReply st data).gov = s.gov := (s.mbxReply_only st data).gov
@[simp] theorem State.mbxReply_rel : (s.mbxReply st data).rel = s.rel := (s.mbxReply_only st data).rel
@[simp] theorem State.mbxReply_hbm : (s.mbxReply st data).hbm = s.hbm := (s.mbxReply_only st data).hbm
@[simp] theorem State.mbxReply_clk : (s.mbxReply st data).clk = s.clk := (s.mbxReply_only st data).clk

/-- A field of the management plane that is none of the mailbox's result is the same after a reply. -/
theorem State.mbxReply_mgt_field {α : Type} (f : Mgt → α)
    (hf : ∀ (m : Mgt) (st : Half) (len : Nat) (resp : Mem),
      f { m with mbxBusy := false, mbxStatus := st, mbxRespLen := len, mbxResp := resp } = f m) :
    f (s.mbxReply st data).mgt = f s.mgt := by
  obtain ⟨status, len, resp, h⟩ := (s.mbxReply_only st data).mgt
  rw [h, hf]

@[simp] theorem State.mbxReply_config : (s.mbxReply st data).mgt.config = s.mgt.config :=
  s.mbxReply_mgt_field st data Mgt.config fun _ _ _ _ => rfl
@[simp] theorem State.mbxReply_configHalf : (s.mbxReply st data).mgt.configHalf = s.mgt.configHalf :=
  s.mbxReply_mgt_field st data Mgt.configHalf fun _ _ _ _ => rfl
@[simp] theorem State.mbxReply_state : (s.mbxReply st data).mgt.state = s.mgt.state :=
  s.mbxReply_mgt_field st data Mgt.state fun _ _ _ _ => rfl
@[simp] theorem State.mbxReply_activeSlot : (s.mbxReply st data).mgt.activeSlot = s.mgt.activeSlot :=
  s.mbxReply_mgt_field st data Mgt.activeSlot fun _ _ _ _ => rfl
@[simp] theorem State.mbxReply_runSlot : (s.mbxReply st data).mgt.runSlot = s.mgt.runSlot :=
  s.mbxReply_mgt_field st data Mgt.runSlot fun _ _ _ _ => rfl
@[simp] theorem State.mbxReply_trial : (s.mbxReply st data).mgt.trial = s.mgt.trial :=
  s.mbxReply_mgt_field st data Mgt.trial fun _ _ _ _ => rfl
@[simp] theorem State.mbxReply_fw (b : Bool) : (s.mbxReply st data).mgt.fw b = s.mgt.fw b :=
  s.mbxReply_mgt_field st data (fun m => m.fw b) fun _ _ _ _ => rfl
@[simp] theorem State.mbxReply_events : (s.mbxReply st data).mgt.events = s.mgt.events :=
  s.mbxReply_mgt_field st data Mgt.events fun _ _ _ _ => rfl

@[simp] theorem State.ctx_mbxReply (c : Nat) : (s.mbxReply st data).ctx c = s.ctx c := by simp [State.ctx]
@[simp] theorem State.panel_mbxReply (k : Nat) : (s.mbxReply st data).panel k = s.panel k := by simp [State.panel]
@[simp] theorem State.window_mbxReply (k : Nat) : (s.mbxReply st data).window k = s.window k := by simp [State.window]
@[simp] theorem State.port_mbxReply (p : Nat) : (s.mbxReply st data).port p = s.port p := by simp [State.port]
@[simp] theorem State.physPort_mbxReply (l : Nat) : (s.mbxReply st data).physPort l = s.physPort l := by simp [State.physPort]

end

/-! ### The newest events (R491) -/

/-- Among the k newest entries of the log is an event of this code. -/
def Recent (k : Nat) (code : Half) (log : List Event) : Prop := ∃ e ∈ log.reverse.take k, e.code = code

theorem Recent.exists_mem {k : Nat} {code : Half} {log : List Event} (h : Recent k code log) : ∃ e ∈ log, e.code = code := by
  obtain ⟨e, he, hc⟩ := h
  exact ⟨e, List.mem_reverse.1 (List.mem_of_mem_take he), hc⟩

theorem keepEvents_push_take (log : List Event) (x : Event) {k : Nat} (hk : k < 4096) :
    (keepEvents (log ++ [x])).reverse.take (k + 1) = x :: log.reverse.take k := by
  simp [keepEvents, List.take_take]
  omega

/-- An event is the newest entry of the log. -/
theorem State.recent_event (s : State) (code : Nat) : Recent 1 (BitVec.ofNat 16 code) (s.event code).mgt.events := by
  rw [Recent, (s.event_log code).1, keepEvents_push_take _ _ (by omega)]
  simp

/-- An event moves the newer entries back by one place. -/
theorem State.recent_event_of_recent (s : State) (code : Nat) {k : Nat} {c : Half} (hk : k < 4096) (h : Recent k c s.mgt.events) :
    Recent (k + 1) c (s.event code).mgt.events := by
  obtain ⟨e, he, hc⟩ := h
  rw [Recent, (s.event_log code).1, keepEvents_push_take _ _ hk]
  exact ⟨e, List.mem_cons_of_mem _ he, hc⟩

/-- An event stands in the log. -/
theorem State.exists_event (s : State) (code : Nat) : ∃ e ∈ (s.event code).mgt.events, e.code = BitVec.ofNat 16 code :=
  (s.recent_event code).exists_mem

end Sys2Proof.Machine
end

section
/-! PROOFS. The boot (18 R469 to R473): what its stages leave alone, where they end, and the module reset before it (16 R425). -/

namespace Sys2Proof.Machine

/-! ### Stages -/

/-- From s to t the boot has moved on: at most n events came, and what it leaves alone is as before. -/
structure BootMoves (n : Nat) (s t : State) : Prop where
  hbm : t.hbm = s.hbm
  cores : t.cores = s.cores
  cmd : t.cmd = s.cmd
  pins : t.pins = s.pins
  out : t.out = s.out
  now : t.clk.now = s.clk.now
  busy : t.mgt.mbxBusy = s.mgt.mbxBusy
  door : t.mgt.mbxDoor = s.mgt.mbxDoor
  status : t.mgt.mbxStatus = s.mgt.mbxStatus
  len : t.mgt.mbxRespLen = s.mgt.mbxRespLen
  resp : t.mgt.mbxResp = s.mgt.mbxResp
  activeSlot : t.mgt.activeSlot = s.mgt.activeSlot
  trial : s.mgt.trial = none → t.mgt.trial = none
  recent : ∀ k c, k + n ≤ 4096 → Recent k c s.mgt.events → Recent (k + n) c t.mgt.events

theorem BootMoves.trans {m n : Nat} {s t u : State} (h : BootMoves m s t) (g : BootMoves n t u) : BootMoves (m + n) s u where
  hbm := g.hbm.trans h.hbm
  cores := g.cores.trans h.cores
  cmd := g.cmd.trans h.cmd
  pins := g.pins.trans h.pins
  out := g.out.trans h.out
  now := g.now.trans h.now
  busy := g.busy.trans h.busy
  door := g.door.trans h.door
  status := g.status.trans h.status
  len := g.len.trans h.len
  resp := g.resp.trans h.resp
  activeSlot := g.activeSlot.trans h.activeSlot
  trial := g.trial ∘ h.trial
  recent k c hk r := Nat.add_assoc k m n ▸ g.recent (k + m) c (by omega) (h.recent k c (by omega) r)

/-- Fewer events are at most n events. -/
theorem BootMoves.mono {m n : Nat} {s t : State} (h : BootMoves m s t) (hn : m ≤ n) : BootMoves n s t :=
  { h with
    recent := fun k c hk r => by
      obtain ⟨e, he, hc⟩ := h.recent k c (by omega) r
      exact ⟨e, (List.take_subset_take_left _ (by omega)) he, hc⟩ }

theorem State.event_moves (s : State) (code : Nat) : BootMoves 1 s (s.event code) :=
  ⟨rfl, rfl, rfl, rfl, rfl, rfl, rfl, rfl, rfl, rfl, rfl, rfl, id, fun _ _ hk r => s.recent_event_of_recent code (by omega) r⟩

theorem State.enterHold_moves (s : State) (cause : Nat) : BootMoves 1 s (s.enterHold cause) :=
  ⟨rfl, rfl, rfl, rfl, rfl, rfl, rfl, rfl, rfl, rfl, rfl, rfl, id, fun _ _ hk r => State.recent_event_of_recent _ 2 (by omega) r⟩

/-- Slot 0 is generated within the security engine: it is the module's own memory slot (R440). -/
theorem State.newSlot0_frame (s : State) : ∃ sec, s.newSlot0 = { s with sec := sec } ∧ sec.lifecycle = s.sec.lifecycle ∧
    sec.ownerHash = s.sec.ownerHash ∧ sec.tamper = s.sec.tamper ∧
    (Tab.get {} sec.slots 0).type = 1 ∧ (Tab.get {} sec.slots 0).tenant = 0 := by
  refine ⟨s.newSlot0.sec, rfl, rfl, rfl, rfl, ?_, ?_⟩ <;> simp [State.newSlot0, State.newMaterial, State.modSlot]

/-- Stage 2 moves the security engine, the power-up groups and the free values. -/
theorem State.bootSecurity_frame (s : State) : ∃ sec draws,
    s.bootSecurity = { s with sec := sec, clk := { s.clk with groupsUp := 1 }, draws := draws } ∧
      sec.lifecycle = s.sec.lifecycle ∧ sec.ownerHash = s.sec.ownerHash ∧ sec.tamper = s.sec.tamper ∧
      (Tab.get {} sec.slots 0).type = 1 ∧ (Tab.get {} sec.slots 0).tenant = 0 := by
  obtain ⟨sec, h, hl, ho, ht, h1, h2⟩ := State.newSlot0_frame
    { s with sec := { s.sec with healthy := true }, clk := { s.clk with groupsUp := 1 } }
  unfold State.bootSecurity
  dsimp only
  rw [h]
  exact ⟨_, _, rfl, hl, ho, ht, h1, h2⟩

theorem State.bootSecurity_moves (s : State) : BootMoves 0 s s.bootSecurity := by
  obtain ⟨sec, draws, h, -⟩ := s.bootSecurity_frame
  rw [h]
  exact ⟨rfl, rfl, rfl, rfl, rfl, rfl, rfl, rfl, rfl, rfl, rfl, rfl, id, fun _ _ _ r => r⟩

/-- Stage 4 with groups still off: the sections are applied, and the stage stands. -/
theorem State.bootIslands_eq {s : State} (h : s.clk.groupsUp < 32) :
    s.bootIslands = { s.applyConfig with mgt := { s.applyConfig.mgt with state := .boot, holdCause := 0, bootStage := 4 } } :=
  if_neg (Nat.not_le.2 h)

theorem State.applyConfig_moves (s : State) : BootMoves 0 s s.applyConfig := by
  unfold State.applyConfig
  dsimp only
  split <;> exact ⟨rfl, rfl, rfl, rfl, rfl, rfl, rfl, rfl, rfl, rfl, rfl, rfl, id, fun _ _ _ r => r⟩

/-- What stage 4 keeps of the block that it applies. -/
theorem State.applyConfig_config (s : State) :
    s.applyConfig.mgt.config = s.mgt.config ∧ s.applyConfig.mgt.configHalf = s.mgt.configHalf := by
  unfold State.applyConfig
  dsimp only
  split <;> exact ⟨rfl, rfl⟩

theorem State.bootIslands_moves {s : State} (h : s.clk.groupsUp < 32) : BootMoves 0 s s.bootIslands := by
  rw [State.bootIslands_eq h]
  exact { s.applyConfig_moves with }

/-- Stage 3 ends in HOLD with the cause of the first check that fails, or goes on to stage 4 (R470, R471, R473). -/
theorem State.bootConfig_cases (s : State) :
    s.bootConfig = if s.sec.tamper ≠ 0 then s.enterHold 6
      else if s.cfgCause s.mgt.configHalf s.mgt.config ≠ 0 then s.enterHold (s.cfgCause s.mgt.configHalf s.mgt.config)
      else s.bootIslands := rfl

/-- Stage 3 with one group of islands up: it moves the boot on, keeps the group, and does not reach the ready state. -/
theorem State.bootConfig_moves {s : State} (h : s.clk.groupsUp = 1) :
    BootMoves 1 s s.bootConfig ∧ s.bootConfig.clk.groupsUp = 1 ∧ s.bootConfig.mgt.state ≠ .ready := by
  have hold (c : Nat) : BootMoves 1 s (s.enterHold c) ∧ (s.enterHold c).clk.groupsUp = 1 ∧ (s.enterHold c).mgt.state ≠ .ready :=
    ⟨s.enterHold_moves c, h, nofun⟩
  rw [State.bootConfig_cases]
  split_ifs
  · exact hold 6
  · exact hold _
  · have hlt : s.clk.groupsUp < 32 := by omega
    refine ⟨(State.bootIslands_moves hlt).mono (by omega), ?_, ?_⟩ <;> rw [State.bootIslands_eq hlt]
    · exact h
    · nofun

/-- A slot is the one that runs, with what stands of a trial. -/
def State.tries (s : State) (slot : Bool) (trial : Option Nat) : State :=
  { s with mgt := { s.mgt with runSlot := slot, trial := trial } }

theorem State.tries_moves (s : State) (slot : Bool) {trial : Option Nat} (h : s.mgt.trial = none → trial = none) :
    BootMoves 0 s (s.tries slot trial) :=
  ⟨rfl, rfl, rfl, rfl, rfl, rfl, rfl, rfl, rfl, rfl, rfl, rfl, h, fun _ _ _ r => r⟩

/-- The slot that a boot tries first (R485). -/
def State.firstSlot (s : State) : Bool := if s.mgt.trial.isSome then !s.mgt.activeSlot else s.mgt.activeSlot

/-- Stage 1: the first image that is valid runs; an image that fails is an event and ends a trial, and without a valid one the module
holds. -/
theorem State.boot_eq (s : State) :
    s.boot =
      if (s.mgt.fw s.firstSlot).valid then (s.tries s.firstSlot s.mgt.trial).bootSecurity.bootConfig
      else if (s.mgt.fw !s.firstSlot).valid then ((s.event 4).tries (!s.firstSlot) none).bootSecurity.bootConfig
      else ({ (((s.event 4).event 4).tries s.mgt.runSlot none) with clk := { s.clk with groupsUp := 1 } } : State).enterHold
        (if s.sec.tamper ≠ 0 then 6 else 8) := by
  have hover : (if s.mgt.trial.isSome = true then none else s.mgt.trial) = none := by cases s.mgt.trial <;> rfl
  unfold State.boot
  dsimp only
  rw [show (s.event 4).mgt.trial = s.mgt.trial from rfl, hover]
  rfl

/-- After stages 1 and 2 one group of islands is up, and the boot checks the block, or stands in HOLD without a valid image. -/
theorem State.boot_cases (s : State) :
    ∃ u, BootMoves 2 s u ∧ u.clk.groupsUp = 1 ∧ (s.boot = u.bootConfig ∨ ∃ c, s.boot = u.enterHold c) := by
  rw [State.boot_eq]
  split_ifs
  · exact ⟨_, ((s.tries_moves _ id).trans (State.bootSecurity_moves _)).mono (by omega), rfl, .inl rfl⟩
  · exact ⟨_, (((s.event_moves 4).trans (State.tries_moves _ _ fun _ => rfl)).trans (State.bootSecurity_moves _)).mono (by omega), rfl,
      .inl rfl⟩
  all_goals
    have h := ((s.event_moves 4).trans (State.event_moves _ 4)).trans (State.tries_moves _ s.mgt.runSlot fun _ => rfl)
    exact ⟨{ ((s.event 4).event 4).tries s.mgt.runSlot none with clk := { s.clk with groupsUp := 1 } }, { h with }, rfl, .inr ⟨_, rfl⟩⟩

/-- A whole boot: it moves on by at most 3 events, leaves one group of islands up, and does not reach the ready state. -/
theorem State.boot_moves (s : State) : BootMoves 3 s s.boot ∧ s.boot.clk.groupsUp = 1 ∧ s.boot.mgt.state ≠ .ready := by
  obtain ⟨u, hm, hu, h | ⟨c, h⟩⟩ := s.boot_cases <;> rw [h]
  · obtain ⟨h1, h2⟩ := State.bootConfig_moves hu
    exact ⟨hm.trans h1, h2⟩
  · exact ⟨hm.trans (u.enterHold_moves c), hu, nofun⟩

/-- With no trial and the active slot running, a valid image boots as it stands. -/
theorem State.boot_of_valid {s : State} (ht : s.mgt.trial = none) (hr : s.mgt.runSlot = s.mgt.activeSlot)
    (hv : s.firmware.valid = true) : s.boot = s.bootSecurity.bootConfig := by
  have hf : s.firstSlot = s.mgt.runSlot := by simp [State.firstSlot, ht, hr]
  rw [State.boot_eq, hf, if_pos (show (s.mgt.fw s.mgt.runSlot).valid = true from hv)]
  rfl

/-- The checks of a block see the lifecycle, the owner, the running image and the panels. -/
theorem State.cfgCause_congr {s t : State} (hl : t.sec.lifecycle = s.sec.lifecycle) (ho : t.sec.ownerHash = s.sec.ownerHash)
    (hf : t.firmware = s.firmware) (hc : t.cmd = s.cmd) (half : Bool) (bs : List Byte) : t.cfgCause half bs = s.cfgCause half bs := by
  have hp : t.panel = s.panel := by funext k; simp only [State.panel, hc]
  have hw (ss : List CfgSection) : cfgPowerOk t ss = cfgPowerOk s ss := by
    unfold cfgPowerOk State.bandOk State.class0Reserve
    rw [hp]
  simp only [State.cfgCause, cfgSectionsCause, hl, ho, hf, hw]

/-! ### The module reset (R425) -/

theorem Tab.find_map_val {α β : Type} (t : Tab α) (f : Nat → α → β) (k : Nat) :
    Tab.find (t.map fun e => (e.1, f e.1 e.2)) k = (Tab.find t k).map (f k) := by
  induction t with
  | nil => rfl
  | cons e t ih =>
    obtain ⟨k', v⟩ := e
    by_cases h : k' = k
    · subst h; simp [Tab.find]
    · simp [Tab.find, h, ih]

theorem coreAtReset_mem (spares : List Nat) (p : Nat) : (coreAtReset spares p).slice.mem = [] := by
  unfold coreAtReset
  split <;> rfl

/-- A module reset empties every slice. -/
theorem State.clearModule_slice (s : State) (p : Nat) : (s.clearModule.core p).slice.mem = [] := by
  unfold State.core
  rw [show Tab.find s.clearModule.cores p = (Tab.find s.cores p).map (Core.moduleReset s.pins.spares p) from Tab.find_map_val _ _ _]
  cases Tab.find s.cores p with
  | none => exact coreAtReset_mem _ _
  | some c => exact coreAtReset_mem _ _

/-- From s to t the module was reset and has begun to boot: no context, empty slices, HBM as it was, a time base at 0. -/
def wasReset (s t : State) : Prop :=
  (∀ c, (t.ctx c).bound = false) ∧ (∀ p a, (t.core p).slice.mem.read a = 0) ∧ t.hbm.mem = s.hbm.mem ∧ t.clk.now = 0 ∧
    t.clk.groupsUp = 1 ∧ t.mgt.state ≠ .ready

theorem State.moduleReset_wasReset (s : State) : wasReset s s.moduleReset := by
  obtain ⟨hm, hg, hs⟩ := s.clearModule.boot_moves
  refine ⟨fun c => ?_, fun p a => ?_, ?_, hm.now, hg, hs⟩
  · simp only [State.ctx, State.moduleReset, hm.cmd]; rfl
  · have hc : s.moduleReset.core p = s.clearModule.core p := by
      simp only [State.core, State.moduleReset, hm.cores, hm.pins]
    rw [hc, State.clearModule_slice]
    rfl
  · rw [State.moduleReset, hm.hbm]; rfl

/-! ### What a reset keeps of the mailbox -/

/-- The boot takes nothing back of a reply. -/
theorem BootMoves.replied {n : Nat} {s t : State} (h : BootMoves n s t) {st : Half} {data : List Byte} (r : replied st data s) :
    replied st data t := by
  unfold Machine.replied at r ⊢
  rwa [h.busy, h.door, h.status, h.len, h.resp, h.out]

/-- A reply stands across the module reset that follows it. -/
theorem State.moduleReset_replied {s : State} {st : Half} {data : List Byte} (r : replied st data s) : replied st data s.moduleReset :=
  s.clearModule.boot_moves.1.replied r

end Sys2Proof.Machine
end

section
/-! PROOFS. Boot, the configuration block and firmware slots (18 R469 to R473, R476, R484, R485). -/

namespace Sys2Proof.Machine

/-! ### The meaning of each command -/

theorem exec_coldBoot (s : State) : exec .coldBoot s = execColdBoot s := rfl
theorem exec_moduleInfo (s : State) : exec .moduleInfo s = execModuleInfo s := rfl
theorem exec_moduleReset (s : State) : exec .moduleReset s = execModuleReset s := rfl
theorem exec_configLoad (block : HostRead) (s : State) : exec (.configLoad block) s = execConfigLoad block s := rfl
theorem exec_configRead (off len : Nat) (s : State) : exec (.configRead off len) s = execConfigRead off len s := rfl
theorem exec_fwInstall (image : HostRead) (s : State) : exec (.fwInstall image) s = execFwInstall image s := rfl
theorem exec_fwActivate (m : Nat) (yes : Bool) (s : State) : exec (.fwActivate m yes) s = execFwActivate m yes s := rfl
theorem exec_fwApprovalTimeout (s : State) : exec .fwApprovalTimeout s = execFwApprovalTimeout s := rfl
theorem exec_fwRevert (s : State) : exec .fwRevert s = execFwRevert s := rfl
theorem exec_revertTimerExpiry (s : State) : exec .revertTimerExpiry s = execRevertTimerExpiry s := rfl

/-! ### COLD_BOOT (R469) -/

/-- The module as its boot finds it when PERST# ends. -/
def State.released (s : State) : State := { s with pins := { s.pins with perst := false, jtag := 0xFFFFFFFF } }

/-- With power and PERST# asserted, COLD_BOOT boots. -/
theorem coldBoot_boots {s : State} (h1 : s.pins.standby = true) (h2 : s.pins.modEn = true) (h3 : s.pins.pwrgd = true)
    (h4 : s.pins.dieOn = true) (h5 : s.pins.perst = true) : exec .coldBoot s = .next s.released.boot := by
  simp [exec_coldBoot, execColdBoot, h1, h2, h3, h4, h5, State.released]

/-- Stage 3 leaves the security engine alone. -/
theorem State.bootConfig_sec {s : State} (h : s.clk.groupsUp = 1) : s.bootConfig.sec = s.sec := by
  rw [State.bootConfig_cases, State.bootIslands_eq (by omega)]
  split_ifs <;> rfl

/-- A boot with a valid image ends in HOLD with the cause of the first check that fails, or in stage 4. -/
theorem State.boot_valid {s : State} (ht : s.mgt.trial = none) (hr : s.mgt.runSlot = s.mgt.activeSlot) (hv : s.firmware.valid = true) :
    (s.boot.slot 0).type = 1 ∧ (s.boot.slot 0).tenant = 0 ∧
      (s.sec.tamper ≠ 0 → s.boot.mgt.state = .hold ∧ s.boot.mgt.holdCause = 6) ∧
      (s.sec.tamper = 0 → s.cfgCause s.mgt.configHalf s.mgt.config ≠ 0 →
        s.boot.mgt.state = .hold ∧ s.boot.mgt.holdCause = s.cfgCause s.mgt.configHalf s.mgt.config) ∧
      (s.sec.tamper = 0 → s.cfgCause s.mgt.configHalf s.mgt.config = 0 → s.boot.mgt.state = .boot ∧ s.boot.mgt.bootStage = 4) := by
  obtain ⟨sec, draws, hu, hl, ho, hta, h1, h2⟩ := s.bootSecurity_frame
  rw [State.boot_of_valid ht hr hv]
  generalize s.bootSecurity = u at hu
  have hg : u.clk.groupsUp = 1 := by rw [hu]
  have hs : u.sec = sec := by rw [hu]
  have hc : u.cfgCause u.mgt.configHalf u.mgt.config = s.cfgCause s.mgt.configHalf s.mgt.config := by
    rw [State.cfgCause_congr (s := s) (hs ▸ hl) (hs ▸ ho) (by rw [hu]; rfl) (by rw [hu]), hu]
  simp only [State.slot, State.bootConfig_sec hg, hs]
  rw [State.bootConfig_cases, hs, hta, hc]
  refine ⟨h1, h2, fun h => ?_, fun h hne => ?_, fun h he => ?_⟩
  · rw [if_pos h]; exact ⟨rfl, rfl⟩
  · rw [if_neg (not_not.2 h), if_pos hne]; exact ⟨rfl, rfl⟩
  · rw [if_neg (not_not.2 h), if_neg (not_not.2 he), State.bootIslands_eq (by omega)]; exact ⟨rfl, rfl⟩

/-- A boot that finds no valid image holds with cause 8, and the failed image is in the log (R469). -/
theorem State.boot_no_image {s : State} (ha : s.mgt.fwA.valid = false) (hb : s.mgt.fwB.valid = false) (ht : s.sec.tamper = 0) :
    s.boot.mgt.state = .hold ∧ s.boot.mgt.holdCause = 8 ∧ ∃ e ∈ s.boot.mgt.events, e.code = 4 := by
  have hf (b : Bool) : (s.mgt.fw b).valid = false := by cases b <;> assumption
  rw [State.boot_eq, if_neg (by simp [hf]), if_neg (by simp [hf]), if_neg (not_not.2 ht)]
  refine ⟨rfl, rfl, ?_⟩
  have h4 : Recent 1 4 ((s.event 4).event 4).mgt.events := State.recent_event _ 4
  exact ((State.enterHold_moves _ 8).recent 1 4 (by omega) h4).exists_mem

/-! ### The commands of the mailbox (R476) -/

/-- MODULE_RESET replies and resets. -/
theorem moduleReset_resets {s : State} (h : s.mbxRuns 0x0202 = true) : exec .moduleReset s = .next (s.mbxReply 0).moduleReset := by
  rw [exec_moduleReset, execModuleReset, if_pos h]

/-- The block is in flash, whole. -/
def State.storeConfig (s : State) (bs : List Byte) : State := { s with mgt := { s.mgt with config := bs, configHalf := false } }

/-- What CONFIG_LOAD answers to a block, by its first failed check (R473, 00 R5). -/
theorem configLoad_eq {s : State} (h : s.mbxRuns 0x0203 = true) (bs : List Byte) :
    exec (.configLoad (.ok bs)) s =
      if s.cfgCause false bs = 5 then .next (s.mbxReply 4)
      else if s.cfgCause false bs ≠ 0 then .next (s.mbxReply 0x0103)
      else if cfgReservedOk (bs.take (fieldAt bs 8 4)) = false then .next (s.mbxReply 2)
      else if s.mgt.state = .hold ∧ s.mgt.holdCause ≠ 6 ∧ s.mgt.holdCause ≠ 8 then .next ((s.storeConfig bs).mbxReply 0).bootIslands
      else .next ((s.storeConfig bs).mbxReply 0) := by
  rw [exec_configLoad, execConfigLoad, h]
  simp only [Bool.not_true, Bool.false_eq_true, if_false, Bool.not_eq_true', State.storeConfig]

/-- A block that fails a check is refused with the status of its cause and written nowhere. -/
theorem configLoad_refused {s : State} (h : s.mbxRuns 0x0203 = true) {bs : List Byte} (hc : s.cfgCause false bs ≠ 0) :
    exec (.configLoad (.ok bs)) s = .next (s.mbxReply (if s.cfgCause false bs = 5 then 4 else 0x0103)) := by
  rw [configLoad_eq h, if_pos hc]
  split_ifs <;> rfl

/-- A block with a value in a reserved field is a bad parameter (00 R5). -/
theorem configLoad_reserved {s : State} (h : s.mbxRuns 0x0203 = true) {bs : List Byte} (hc : s.cfgCause false bs = 0)
    (hr : cfgReservedOk (bs.take (fieldAt bs 8 4)) = false) : exec (.configLoad (.ok bs)) s = .next (s.mbxReply 2) := by
  rw [configLoad_eq h, if_neg (by omega), if_neg (by omega), if_pos hr]

/-- A block that passes is written; in HOLD the boot goes on with stage 4, unless tamper is latched or no image is valid. -/
theorem configLoad_written {s : State} (h : s.mbxRuns 0x0203 = true) {bs : List Byte} (hc : s.cfgCause false bs = 0)
    (hr : cfgReservedOk (bs.take (fieldAt bs 8 4)) = true) (hg : s.mgt.state ≠ .hold ∨ s.clk.groupsUp < 32) :
    ∃ t, exec (.configLoad (.ok bs)) s = .next t ∧ replied 0 [] t ∧ t.mgt.config = bs ∧ t.mgt.configHalf = false ∧
      (s.mgt.state ≠ .hold → t.gov = s.gov ∧ t.mgt.state = s.mgt.state) ∧
      (s.mgt.state = .hold → s.mgt.holdCause ≠ 6 → s.mgt.holdCause ≠ 8 → t.mgt.state = .boot ∧ t.mgt.bootStage = 4) := by
  rw [configLoad_eq h, if_neg (by omega), if_neg (by omega), if_neg (by simp [hr])]
  have hrep := (s.storeConfig bs).mbxReply_replied 0 []
  split_ifs with hhold
  · obtain ⟨hs, -, -⟩ := hhold
    have hlt : ((s.storeConfig bs).mbxReply 0).clk.groupsUp < 32 := by
      rw [State.mbxReply_clk]; exact hg.resolve_left (not_not.2 hs)
    obtain ⟨hcfg, hhalf⟩ := ((s.storeConfig bs).mbxReply 0).applyConfig_config
    refine ⟨_, rfl, (State.bootIslands_moves hlt).replied hrep, ?_⟩
    rw [State.bootIslands_eq hlt]
    exact ⟨hcfg.trans (State.mbxReply_config _ _ _), hhalf.trans (State.mbxReply_configHalf _ _ _), fun hn => (hn hs).elim,
      fun _ _ _ => ⟨rfl, rfl⟩⟩
  · exact ⟨_, rfl, hrep, State.mbxReply_config _ _ _, State.mbxReply_configHalf _ _ _,
      fun _ => ⟨State.mbxReply_gov _ _ _, State.mbxReply_state _ _ _⟩, fun hs h6 h8 => (hhold ⟨hs, h6, h8⟩).elim⟩

/-- CONFIG_READ answers the bytes of the block's area, or refuses a range that is too long or lies outside. -/
theorem configRead_eq {s : State} (h : s.mbxRuns 0x0204 = true) (off len : Nat) :
    exec (.configRead off len) s = if 32768 < len ∨ 262144 < off + len then .next (s.mbxReply 2)
      else .next (s.mbxReply 0 ((List.range len).map (fun i => (s.mgt.config[off + i]?).getD 0xFF))) := by
  rw [exec_configRead, execConfigRead, h]
  rfl

/-- The inactive slot takes an image. -/
def State.install (s : State) (f : FwSlot) : State :=
  { s with mgt := if s.mgt.activeSlot then { s.mgt with fwA := f } else { s.mgt with fwB := f } }

theorem State.install_fw (s : State) (f : FwSlot) :
    (s.install f).mgt.fw s.mgt.activeSlot = s.mgt.fw s.mgt.activeSlot ∧ (s.install f).mgt.fw (!s.mgt.activeSlot) = f := by
  unfold State.install Mgt.fw
  cases s.mgt.activeSlot <;> exact ⟨rfl, rfl⟩

/-- FW_INSTALL takes an image that verifies into the inactive slot, and refuses any other (R484). -/
theorem fwInstall_cases {s : State} (h : s.mbxRuns 0x0205 = true) {image : List Byte} (hl : image.length ≤ 33554432) :
    ∃ t, exec (.fwInstall (.ok image)) s = .next t ∧ t.mgt.fw s.mgt.activeSlot = s.mgt.fw s.mgt.activeSlot ∧
      (Config.imageOk image = true → replied 0 [] t ∧ (t.mgt.fw !s.mgt.activeSlot).image = image ∧
        (t.mgt.fw !s.mgt.activeSlot).valid = true) ∧
      (Config.imageOk image = false → replied 0x0102 [] t ∧ t.mgt.fw (!s.mgt.activeSlot) = s.mgt.fw (!s.mgt.activeSlot)) := by
  have hn : ¬ 33554432 < image.length := by omega
  cases hv : Config.imageOk image with
  | false =>
    have hx : exec (.fwInstall (.ok image)) s = .next (s.mbxReply 0x0102) := by simp [exec_fwInstall, execFwInstall, h, hv]
    exact ⟨_, hx, State.mbxReply_fw _ _ _ _, nofun, fun _ => ⟨State.mbxReply_replied _ _ _, State.mbxReply_fw _ _ _ _⟩⟩
  | true =>
    obtain ⟨f, hf, hok, hx⟩ : ∃ f, f.image = image ∧ f.valid = true ∧
        exec (.fwInstall (.ok image)) s = .next ((s.install f).mbxReply 0) := by
      rw [exec_fwInstall, execFwInstall, h]
      simp only [hv, hn, Bool.not_true, Bool.false_eq_true, if_false, or_self]
      exact ⟨_, rfl, rfl, rfl⟩
    obtain ⟨hact, hinact⟩ := s.install_fw f
    refine ⟨_, hx, ?_, fun _ => ⟨State.mbxReply_replied _ _ _, ?_, ?_⟩, nofun⟩ <;> rw [State.mbxReply_fw]
    · exact hact
    · rw [hinact, hf]
    · rw [hinact, hok]

/-! ### Trials and reverts (R484, R485) -/

/-- What FW_ACTIVATE answers: it marks the trial, asks the headframe of the group first, or refuses. -/
theorem fwActivate_fresh {s : State} (h : s.mbxRuns 0x0206 = true) {m : Nat} (hm : m ≤ 1440) (yes : Bool) (ha : s.mgt.fwAsking = none) :
    exec (.fwActivate m yes) s =
      if (s.mgt.fw !s.mgt.activeSlot).valid = false then .next (s.mbxReply 0x0102)
      else if s.hasHeadframe = false then .next (s.markTrial m)
      else .next ({ s with mgt := { s.mgt with fwAsking := some m } }.emit (.askHeadframe (s.mgt.fw !s.mgt.activeSlot).release)) := by
  rw [exec_fwActivate, execFwActivate, h, ha]
  simp only [Nat.not_lt.2 hm, Bool.not_true, Bool.false_eq_true, if_false, Bool.not_eq_true']

/-- The trial slot is marked, and the command has replied. -/
theorem State.markTrial_replied (s : State) (m : Nat) :
    replied 0 [] (s.markTrial m) ∧ (s.markTrial m).mgt.trial = some (if m = 0 then 10 else m) :=
  ⟨State.mbxReply_replied _ _ _, State.mbxReply_trial _ _ _⟩

/-- The answer of the headframe, or its silence, ends the command that asks. -/
theorem fwActivate_asked {s : State} (h : s.mbxRuns 0x0206 = true) {m : Nat} (ha : s.mgt.fwAsking = some m) :
    exec (.fwActivate m true) s = .next (s.markTrial m) ∧
      exec (.fwActivate m false) s = .next ({ s with mgt := { s.mgt with fwAsking := none } }.mbxReply 0x0100) ∧
      exec .fwApprovalTimeout s = .next ({ s with mgt := { s.mgt with fwAsking := none } }.mbxReply 0x0101) := by
  refine ⟨?_, ?_, ?_⟩
  · rw [exec_fwActivate, execFwActivate, h, ha]; rfl
  · rw [exec_fwActivate, execFwActivate, h, ha]; rfl
  · rw [exec_fwApprovalTimeout, execFwApprovalTimeout, h, ha]; rfl

/-- A revert makes the other slot active, unless a trial stands that has not become active; the module resets, with the event in
the log. -/
theorem State.revertFw_cases (s : State) :
    s.revertFw.mgt.activeSlot =
        (if s.mgt.trial.isSome || s.mgt.runSlot != s.mgt.activeSlot then s.mgt.activeSlot else !s.mgt.activeSlot) ∧
      s.revertFw.mgt.trial = none ∧ wasReset s s.revertFw ∧ ∃ e ∈ s.revertFw.mgt.events, e.code = 3 := by
  have hm := (State.boot_moves (State.clearModule (({ s with mgt := { s.mgt with
      activeSlot := if s.mgt.trial.isSome || s.mgt.runSlot != s.mgt.activeSlot then s.mgt.activeSlot else !s.mgt.activeSlot,
      trial := none, revertS := 0 } } : State).event 3))).1
  refine ⟨hm.activeSlot, hm.trial (ite_self _), State.moduleReset_wasReset _, ?_⟩
  exact (hm.recent 1 3 (by omega) (State.recent_event _ 3)).exists_mem

/-- A reply stands across the revert that follows it. -/
theorem State.revertFw_replied {s : State} {st : Half} {data : List Byte} (r : replied st data s) : replied st data s.revertFw :=
  State.moduleReset_replied (s := State.event _ 3) r

/-- A reset after a reply is a reset of the state before it. -/
theorem wasReset_of_mbxReply {s t : State} {st : Half} {data : List Byte} (h : wasReset (s.mbxReply st data) t) : wasReset s t := by
  unfold wasReset at h ⊢
  rwa [State.mbxReply_hbm] at h

/-! ### The obligation -/

/-- COLD_BOOT with a valid image (R469 to R473). -/
theorem coldBoot_valid {s : State} (hst : s.pins.standby = true) (hme : s.pins.modEn = true) (hpw : s.pins.pwrgd = true)
    (hdie : s.pins.dieOn = true) (hpr : s.pins.perst = true) (ht : s.mgt.trial = none) (hr : s.mgt.runSlot = s.mgt.activeSlot)
    (hv : s.firmware.valid = true) :
    ∃ t, exec .coldBoot s = .next t ∧ t.pins.perst = false ∧ t.clk.groupsUp = 1 ∧ (t.slot 0).type = 1 ∧
      (t.slot 0).tenant = 0 ∧ t.hbm = s.hbm ∧
      (s.sec.tamper ≠ 0 → t.mgt.state = .hold ∧ t.mgt.holdCause = 6) ∧
      (s.sec.tamper = 0 → s.cfgCause s.mgt.configHalf s.mgt.config ≠ 0 →
        t.mgt.state = .hold ∧ t.mgt.holdCause = s.cfgCause s.mgt.configHalf s.mgt.config) ∧
      (s.sec.tamper = 0 → s.cfgCause s.mgt.configHalf s.mgt.config = 0 → t.mgt.state = .boot ∧ t.mgt.bootStage = 4) := by
  obtain ⟨hm, hg, -⟩ := s.released.boot_moves
  obtain ⟨h1, h2, h3, h4, h5⟩ := State.boot_valid (s := s.released) ht hr hv
  exact ⟨_, coldBoot_boots hst hme hpw hdie hpr, congrArg Pins.perst hm.pins, hg, h1, h2, hm.hbm, h3, h4, h5⟩

/-- Settles O51: each command by its own lemma, and the boot by what its stages leave alone (`BootMoves`). -/
theorem bootAndFirmware : Obligations.BootAndFirmware := by
  unfold Obligations.BootAndFirmware
  intro s resets slot
  refine ⟨fun hst hme hpw hdie hpr ht hr => ⟨coldBoot_valid hst hme hpw hdie hpr ht hr, fun ha hb hta =>
      ⟨_, coldBoot_boots hst hme hpw hdie hpr, State.boot_no_image ha hb hta⟩⟩, fun h => ?_, fun h => ?_, fun h => ⟨?_, fun bs => ?_⟩,
    fun off len h => ?_, fun image h hl => fwInstall_cases h hl, fun m yes h hm => ?_, fun h ht hr => ?_, fun hst hh hc hs hr => ?_⟩
  case refine_1 => -- MODULE_INFO
    exact ⟨_, (exec_moduleInfo s).trans (by rw [execModuleInfo, h]; rfl), State.mbxReply_replied _ _ _⟩
  case refine_2 => -- MODULE_RESET
    exact ⟨_, moduleReset_resets h, State.moduleReset_replied (State.mbxReply_replied _ _ _),
      wasReset_of_mbxReply (State.moduleReset_wasReset _)⟩
  case refine_3 => -- CONFIG_LOAD without its block
    have hx : exec (.configLoad .failed) s = .next (s.mbxReply 0x0103) := by rw [exec_configLoad, execConfigLoad, h]; rfl
    exact ⟨_, hx, State.mbxReply_replied _ _ _, State.mbxReply_config _ _ _⟩
  case refine_4 => -- CONFIG_LOAD
    exact ⟨fun hc => ⟨_, configLoad_refused h hc, State.mbxReply_replied _ _ _, State.mbxReply_config _ _ _, State.mbxReply_gov _ _ _⟩,
      fun hc hr => ⟨_, configLoad_reserved h hc hr, State.mbxReply_replied _ _ _, State.mbxReply_config _ _ _, State.mbxReply_gov _ _ _⟩,
      fun hc hr hg => configLoad_written h hc hr hg⟩
  case refine_5 => -- CONFIG_READ
    rw [configRead_eq h]
    refine ⟨fun h1 h2 => ?_, fun hbad => ?_⟩
    · rw [if_neg (by omega)]; exact ⟨_, rfl, State.mbxReply_replied _ _ _⟩
    · rw [if_pos hbad]; exact ⟨_, rfl, State.mbxReply_replied _ _ _⟩
  case refine_6 => -- FW_ACTIVATE
    refine ⟨fun ha hv => ?_, fun ha hv => ?_, fun ha => ?_⟩
    · rw [fwActivate_fresh h hm yes ha, if_neg (by simp [hv])]
      refine ⟨fun hh => ?_, fun hh => ?_⟩
      · rw [if_pos hh]; exact ⟨_, rfl, s.markTrial_replied m⟩
      · rw [if_neg (by simp [hh])]
        exact ⟨_, rfl, rfl, rfl, State.mbxBusy_of_mbxRuns h⟩
    · rw [fwActivate_fresh h hm yes ha, if_pos hv]
      exact ⟨_, rfl, State.mbxReply_replied _ _ _, State.mbxReply_trial _ _ _⟩
    · obtain ⟨hyes, hno, hlate⟩ := fwActivate_asked h ha
      exact ⟨⟨_, hyes, s.markTrial_replied m⟩, ⟨_, hno, State.mbxReply_replied _ _ _, State.mbxReply_trial _ _ _⟩,
        _, hlate, State.mbxReply_replied _ _ _, State.mbxReply_trial _ _ _⟩
  case refine_7 => -- FW_REVERT
    obtain ⟨ha, -, hw, he⟩ := (s.mbxReply 0).revertFw_cases
    have hx : exec .fwRevert s = .next (s.mbxReply 0).revertFw := by rw [exec_fwRevert, execFwRevert, if_pos h]
    refine ⟨_, hx, State.revertFw_replied (State.mbxReply_replied _ _ _), ?_, wasReset_of_mbxReply hw, he⟩
    simpa [ht, hr] using ha
  case refine_8 => -- REVERT_TIMER_EXPIRY
    obtain ⟨ha, htr, hw, he⟩ := s.revertFw_cases
    have hx : exec .revertTimerExpiry s = .next s.revertFw := by simp [exec_revertTimerExpiry, execRevertTimerExpiry, hst, hh, hc, hs]
    refine ⟨_, hx, ?_, htr, hw, he⟩
    simpa [hr] using ha

end Sys2Proof.Machine
end

section
/-! PROOFS. Contexts and their windows: the bindings, the operations that keep them, and class-0 admission's marks on a panel
(12 R294, 13 R330, R339; 16 R422). -/

namespace Sys2Proof.Machine

/-! ### Bindings -/

/-- From s to t every context keeps its entry and its tag, and every window its context. -/
structure SameBindings (s t : State) : Prop where
  bound : ∀ i, (t.ctx i).bound = (s.ctx i).bound
  f : ∀ i, (t.ctx i).f = (s.ctx i).f
  gen : ∀ i, (t.ctx i).gen = (s.ctx i).gen
  window : ∀ k, (t.window k).ctx = (s.window k).ctx

theorem SameBindings.refl (s : State) : SameBindings s s := ⟨fun _ => rfl, fun _ => rfl, fun _ => rfl, fun _ => rfl⟩

theorem SameBindings.trans {s t u : State} (h : SameBindings s t) (g : SameBindings t u) : SameBindings s u where
  bound i := (g.bound i).trans (h.bound i)
  f i := (g.f i).trans (h.f i)
  gen i := (g.gen i).trans (h.gen i)
  window k := (g.window k).trans (h.window k)

/-- The bindings stand in the context table and the windows. -/
theorem SameBindings.of_tables {s t : State} (hc : t.cmd.ctxs = s.cmd.ctxs) (hw : t.cmd.windows = s.cmd.windows) : SameBindings s t := by
  constructor <;> intro i <;> simp only [State.ctx, State.window, hc, hw]

/-- A fold of steps that keep the bindings keeps them. -/
theorem SameBindings.foldl {α : Type} {g : State → α → State} (h : ∀ s a, SameBindings s (g s a)) (l : List α) (s : State) :
    SameBindings s (l.foldl g s) :=
  List.foldlRecOn (motive := SameBindings s) l g (.refl s) fun t ht a _ => ht.trans (h t a)

theorem SameBindings.charge (s : State) (c off n : Nat) : SameBindings s (s.charge c off n) := by
  have h (i : Nat) : (s.charge c off n).ctx i = if i = c then { s.ctx c with usage := Tab.modify 0 (s.ctx c).usage off (fun v => v + n) }
      else s.ctx i := State.ctx_modCtx _ _ _ _
  refine ⟨fun i => ?_, fun i => ?_, fun i => ?_, fun k => rfl⟩ <;> rw [h] <;> split_ifs with hi <;> simp [hi]

/-- A change of a window that keeps its context. -/
theorem SameBindings.modWindow {s t : State} (h : SameBindings s t) (k : Nat) {g : Window → Window} (hg : ∀ w, (g w).ctx = w.ctx) :
    SameBindings s (t.modWindow k g) := by
  refine h.trans ⟨fun _ => rfl, fun _ => rfl, fun _ => rfl, fun j => ?_⟩
  rw [State.window_modWindow]
  split_ifs with hj
  · rw [hg, hj]
  · rfl

/-! ### Completion records -/

theorem State.noteFull_bindings (s : State) (k : Nat) : SameBindings s (s.noteFull k) := by
  unfold State.noteFull
  split_ifs
  · refine .modWindow ?_ k fun _ => rfl
    exact .of_tables rfl rfl
  · exact .refl s

theorem State.msix_bindings (s : State) (fn vector : Nat) : SameBindings s (s.msix fn vector) := by
  rw [State.msix_frame]
  exact .of_tables rfl rfl

theorem SameBindings.ite_msix {s t : State} (h : SameBindings s t) (on : Bool) (fn vector : Nat) :
    SameBindings s (if on = true then t.msix fn vector else t) := by
  cases on
  · exact h
  · exact h.trans (t.msix_bindings fn vector)

theorem State.writeItem_bindings (s : State) (k : Nat) (i : CqItem) : SameBindings s (s.writeItem k i) := by
  unfold State.writeItem
  dsimp only
  refine .trans ?_ (State.noteFull_bindings _ k)
  refine .ite_msix ?_ _ _ _
  refine .modWindow ?_ k fun _ => rfl
  cases i with
  | record r irq slots =>
    refine .modWindow ?_ k fun _ => rfl
    exact .of_tables rfl rfl
  | notice n => exact .of_tables rfl rfl

theorem State.putItem_bindings (s : State) (k : Nat) (i : CqItem) : SameBindings s (s.putItem k i) := by
  unfold State.putItem
  split_ifs
  · exact s.writeItem_bindings k i
  · exact .modWindow (.refl s) k fun _ => rfl

theorem State.endPacket_bindings (s : State) (k : Nat) (service : Bool) (p : Packet) (status : Half) (done : Nat) :
    SameBindings s (s.endPacket k service p status done) := by
  unfold State.endPacket
  exact .trans (.modWindow (.refl s) k fun w => by cases service <;> rfl) (State.putItem_bindings _ _ _)

/-! ### Invalidations (R241) -/

theorem State.invCore_bindings (s : State) (v : Inv) (p : Nat) : SameBindings s (s.invCore v p) := by
  unfold State.invCore
  dsimp only
  split_ifs <;> exact .of_tables rfl rfl

theorem State.invApply_bindings (s : State) (v : Inv) : SameBindings s (s.invApply v) :=
  .trans (.foldl (fun s p => s.invCore_bindings v p) _ s) (.of_tables rfl rfl)

theorem State.invMark_bindings (s : State) (v : Inv) (redo : Bool) : SameBindings s (s.invMark v redo) := by
  unfold State.invMark
  refine .foldl (fun _ _ => ?_) _ _
  exact .of_tables rfl rfl

theorem State.invEnd_bindings (s : State) (v : Inv) : SameBindings s (s.invEnd v) := by
  have h := (s.invApply_bindings v).trans (State.invMark_bindings _ v false)
  unfold State.invEnd
  dsimp only
  split
  · exact h.trans (.of_tables rfl rfl)
  · exact h
  · split
    · exact h.trans (State.endPacket_bindings _ _ _ _ _ _)
    · exact h

theorem State.invDrain_bindings (s : State) : SameBindings s s.invDrain := by
  unfold State.invDrain
  refine .trans ?_ (.foldl State.invEnd_bindings _ _)
  exact .of_tables rfl rfl

theorem State.invNow_bindings (s : State) (scope ctx pages page : Nat) : SameBindings s (s.invNow scope ctx pages page) :=
  s.invDrain_bindings.trans (State.invApply_bindings _ _)

theorem State.unregister_bindings (s : State) (c : Nat) : SameBindings s (s.unregister c) := by
  refine .trans (t := s.unregisterKvs c) ?_ (.of_tables rfl rfl)
  unfold State.unregisterKvs
  refine .foldl (fun _ _ => ?_) _ _
  exact .of_tables rfl rfl

/-! ### Class-0 admission (R339) -/

/-- What an evaluation of admission writes into a panel: its marks. -/
def State.marks (s : State) (k : Nat) (pn : Panel) : Panel :=
  { pn with
    admitted := s.c0Holds k, dedicated := s.c0Dedicated k, isolated := s.c0Isolated k, path := s.c0Path k, govOk := s.c0Governor,
    failedOver := decide (s.failedOver k = 1), lapse := pn.lapse || ((s.panel k).admitted && !s.c0Holds k) }

/-- An evaluation marks its panel, and no other; the bindings stay. -/
theorem State.evalAdmission_frame (s : State) (k : Nat) :
    SameBindings s (s.evalAdmission k) ∧ ∀ j, (s.evalAdmission k).panel j = if j = k then s.marks k (s.panel k) else s.panel j := by
  have h1 : SameBindings s (s.modPanel k (s.marks k)) := .of_tables rfl rfl
  have h2 (j : Nat) : (s.modPanel k (s.marks k)).panel j = if j = k then s.marks k (s.panel k) else s.panel j := State.panel_modPanel _ _ _ _
  unfold State.evalAdmission
  dsimp only
  split_ifs
  · have h3 : SameBindings s (((s.modPanel k (s.marks k)).event 0x6010).count (panelReg k 0x58) 1) := h1.trans (.of_tables rfl rfl)
    cases s.panelCtxs k with
    | nil => exact ⟨h3, h2⟩
    | cons c _ => exact ⟨h3.trans (.charge _ c 104 1), h2⟩
  · exact ⟨h1, h2⟩

theorem State.evalAdmission_bindings (s : State) (k : Nat) : SameBindings s (s.evalAdmission k) := (s.evalAdmission_frame k).1

/-! ### Binding and unbinding -/

/-- The window takes the context, and no context entry changes. -/
theorem State.bindWindow_frame (s : State) (c : Nat) (f : CtxFields) :
    ((s.bindWindow c f).window (winKey f.fn.toNat f.window.toNat)).ctx = some c ∧ ∀ i, (s.bindWindow c f).ctx i = s.ctx i := by
  unfold State.bindWindow
  dsimp only
  refine ⟨by simp [State.window_modWindow], fun i => ?_⟩
  split_ifs <;> rfl

/-- The window of a context is unbound and disabled, if it is bound to it. -/
def State.unbindWindow (s : State) (c : Nat) : State :=
  s.modWindow (winKey (s.ctx c).f.fn.toNat (s.ctx c).f.window.toNat)
    (fun y => if y.ctx = some c then { y with ctx := none, enable := false } else y)

/-- No other window becomes bound to the context that leaves its window. -/
theorem State.unbindWindow_bound {s : State} {c k : Nat} (h : ((s.unbindWindow c).window k).ctx = some c) :
    (s.window k).ctx = some c ∧ k ≠ winKey (s.ctx c).f.fn.toNat (s.ctx c).f.window.toNat := by
  rw [State.unbindWindow, State.window_modWindow] at h
  split_ifs at h with hk hc
  · exact absurd h hc
  · exact ⟨h, hk⟩

/-- What a destroyed context leaves: its tag, with the tags that wait for their reuse (R476). -/
theorem State.destroyCtx_cmd {s : State} {c : Nat} (hb : (s.ctx c).bound = true) :
    ∃ u, SameBindings (s.unbindWindow c) u ∧ (s.destroyCtx c).cmd =
      { u.cmd with ctxs := Tab.set u.cmd.ctxs c { gen := (s.ctx c).gen, genUsed := (s.ctx c).genUsed } } := by
  refine ⟨_, ((s.unbindWindow c).unregister_bindings c).trans (State.invNow_bindings _ 1 c 0 0), ?_⟩
  simp only [State.destroyCtx, hb, Bool.not_true, Bool.false_eq_true, if_false]
  rfl

/-- A destroyed context keeps its tag alone; its window is unbound, and no other window is bound to it anew. -/
theorem State.destroyCtx_frame {s : State} {c : Nat} (hb : (s.ctx c).bound = true) :
    ((s.destroyCtx c).ctx c).bound = false ∧ ((s.destroyCtx c).ctx c).gen = (s.ctx c).gen ∧
      (∀ i, i ≠ c → ((s.destroyCtx c).ctx i).bound = (s.ctx i).bound ∧ ((s.destroyCtx c).ctx i).f = (s.ctx i).f) ∧
      ∀ k, ((s.destroyCtx c).window k).ctx = some c →
        (s.window k).ctx = some c ∧ k ≠ winKey (s.ctx c).f.fn.toNat (s.ctx c).f.window.toNat := by
  obtain ⟨u, hu, hcmd⟩ := State.destroyCtx_cmd hb
  simp only [State.ctx, State.window, hcmd]
  refine ⟨by simp, by simp, fun i hi => ?_, fun k hk => ?_⟩
  · rw [Tab.get_set_of_ne _ _ _ hi]
    exact ⟨hu.bound i, hu.f i⟩
  · exact State.unbindWindow_bound ((hu.window k).symm.trans hk)

/-! ### Recoveries (R422) -/

/-- A recovery that is asked for: none anew where one stands, else it is queued and the claim window is over. -/
theorem State.commandRecovery_frame {s : State} {c : Nat} (hb : (s.ctx c).bound = true) :
    ((s.commandRecovery c).ctx c).recovering = true ∧ ((s.commandRecovery c).ctx c).destroyWait = (s.ctx c).destroyWait ∧
      ((s.commandRecovery c).ctx c).claimOpen = ((s.ctx c).claimOpen && (s.ctx c).recovering) ∧
      (s.commandRecovery c).mgt = s.mgt ∧
      ((s.ctx c).recovering = false → ∃ r, r.ctx = c ∧ (s.commandRecovery c).rel.queued = s.rel.queued ++ [r]) := by
  unfold State.commandRecovery State.requestRecovery
  cases hr : (s.ctx c).recovering with
  | true =>
    simp only [hb, hr, Bool.not_true, Bool.or_true, if_true]
    exact ⟨trivial, trivial, by simp, trivial, nofun⟩
  | false =>
    simp only [hb, Bool.not_true, Bool.or_false, Bool.false_eq_true, if_false]
    have hc (g : Ctx → Ctx) (rel : Rel) : ({ s.modCtx c g with rel := rel } : State).ctx c = g (s.ctx c) :=
      (State.ctx_modCtx s c c g).trans (if_pos rfl)
    rw [hc]
    exact ⟨rfl, rfl, by simp, rfl, fun _ => ⟨_, rfl, rfl⟩⟩

end Sys2Proof.Machine
end

section
/-! PROOFS. The tables that the mailbox writes (18 R477, R478; 13 R329, R330; 14 R372, R375; 16 R429). -/

namespace Sys2Proof.Machine

/-! ### The meaning of each command -/

section
variable (c : Nat) (s : State)

theorem exec_contextWrite (e : CtxFields) : exec (.contextWrite c e) s = execContextWrite c e s := rfl
theorem exec_contextDestroy : exec (.contextDestroy c) s = execContextDestroy c s := rfl
theorem exec_contextRecover : exec (.contextRecover c) s = execContextRecover c s := rfl
theorem exec_rootSet (root : W64) : exec (.rootSet c root) s = execRootSet c root s := rfl
theorem exec_panelWrite (e : PanelFields) (yes : Bool) : exec (.panelWrite c e yes) s = execPanelWrite c e yes s := rfl
theorem exec_fallbackSet (fb first n : Nat) (entry : BitVec 21) (arg : W64) :
    exec (.fallbackSet c fb entry arg first n) s = execFallbackSet c fb entry arg first n s := rfl
theorem exec_placementWrite (table : List Byte) : exec (.placementWrite c table) s = execPlacementWrite c table s := rfl
theorem exec_routeWrite (table entry : Nat) (ps : List RoutePath) :
    exec (.routeWrite table entry ps) s = execRouteWrite table entry ps s := rfl
theorem exec_levelPin (level : Nat) : exec (.levelPin c level) s = execLevelPin c level s := rfl
theorem exec_portRemap (l p : Nat) : exec (.portRemap l p) s = execPortRemap l p s := rfl
theorem exec_repairWrite (i frame slot : Nat) (rep : W64) :
    exec (.repairWrite i frame rep slot) s = execRepairWrite i frame rep slot s := rfl

end

/-! ### Contexts (R330, R477) -/

/-- CONTEXT_WRITE takes an entry that passes every check. -/
theorem contextWrite_binds {s : State} {c : Nat} {e : CtxFields} (h : s.mbxRuns 0x0210 = true)
    (hok : c < 1024 ∧ e.moduleZero = true ∧ e.ctxId.toNat = c ∧ rcOk e = true ∧ kvOk e = true ∧ s.bindOk c e = true ∧
      s.windowFree c e = true) :
    ∃ u, exec (.contextWrite c e) s = .next (u.mbxReply 0) ∧
      SameBindings ((s.bindWindow c e).modCtx c (fun x => { x with bound := true, f := e })) u := by
  obtain ⟨h1, h2, h3, h4, h5, h6, h7⟩ := hok
  rw [exec_contextWrite, execContextWrite, h, if_neg (by simp), if_neg (by simp [h1, h2, h3, h4, h5, h6, h7])]
  refine ⟨_, rfl, ?_⟩
  have heval := State.evalAdmission_bindings ((s.bindWindow c e).modCtx c (fun x => { x with bound := true, f := e })) e.panel.toNat
  split_ifs
  · exact heval.trans (State.evalAdmission_bindings _ _)
  · exact heval

/-- CONTEXT_WRITE refuses any other entry. -/
theorem contextWrite_refused {s : State} {c : Nat} {e : CtxFields} (h : s.mbxRuns 0x0210 = true)
    (hok : ¬ (c < 1024 ∧ e.moduleZero = true ∧ e.ctxId.toNat = c ∧ rcOk e = true ∧ kvOk e = true ∧ s.bindOk c e = true ∧
      s.windowFree c e = true)) : exec (.contextWrite c e) s = .next (s.mbxReply 2) := by
  rw [exec_contextWrite, execContextWrite, h, if_neg (by simp), if_pos]
  rw [Bool.not_eq_true']
  exact Bool.eq_false_iff.2 fun hall => hok (by simpa [and_assoc] using hall)

/-- CONTEXT_DESTROY of a context without steps: it is gone but for its tag. -/
theorem contextDestroy_idle {s : State} {c : Nat} (h : s.mbxRuns 0x0211 = true) (hw : (s.ctx c).destroyWait = false)
    (hb : (s.ctx c).bound = true) (hr : (s.ctx c).recovering = false) (hi : s.ctxBusy c = false) :
    exec (.contextDestroy c) s = .next (((s.destroyCtx c).evalAdmission (s.ctx c).f.panel.toNat).mbxReply 0) := by
  simp [exec_contextDestroy, execContextDestroy, h, hw, hb, hr, hi]

/-- CONTEXT_DESTROY of a context with steps: its recovery comes first. -/
theorem contextDestroy_busy {s : State} {c : Nat} (h : s.mbxRuns 0x0211 = true) (hw : (s.ctx c).destroyWait = false)
    (hb : (s.ctx c).bound = true) (hi : s.ctxBusy c = true) :
    exec (.contextDestroy c) s = .next ((s.modCtx c (fun x => { x with destroyWait := true })).commandRecovery c) := by
  simp [exec_contextDestroy, execContextDestroy, h, hw, hb, hi]

/-- A change of one context's entry leaves the other contexts alone. -/
theorem modCtx_reply_others (s : State) (c : Nat) (g : Ctx → Ctx) {i : Nat} (hi : i ≠ c) :
    (((s.modCtx c g).mbxReply 0).ctx i).bound = (s.ctx i).bound ∧ (((s.modCtx c g).mbxReply 0).ctx i).f = (s.ctx i).f := by
  rw [State.ctx_mbxReply, State.ctx_modCtx, if_neg hi]
  exact ⟨rfl, rfl⟩

/-- The context itself after a change and the reply. -/
theorem modCtx_reply_self (s : State) (c : Nat) (g : Ctx → Ctx) : ((s.modCtx c g).mbxReply 0).ctx c = g (s.ctx c) := by
  rw [State.ctx_mbxReply, State.ctx_modCtx, if_pos rfl]

/-! ### Panels (R328 to R331, R478) -/

/-- PANEL_WRITE takes an entry that passes every check and that the headframe admits. -/
theorem panelWrite_written {s : State} {k : Nat} {e : PanelFields} {yes : Bool} (h : s.mbxRuns 0x0214 = true) (hk : k < 16)
    (hok : s.panelOk k e = true) (hadm : e.class0 = true → s.hasHeadframe = true → yes = true) :
    ∃ moved, exec (.panelWrite k e yes) s = .next (((s.modPanel k (fun pn => { pn with
        written := true, entry := e, pairing := s.pairAll k e, needsReset := pn.needsReset || moved })).evalAdmission k).mbxReply 0) ∧
      ((s.panel k).written = false ∨ (s.panel k).entry.cores ≠ e.cores → moved = true) := by
  have hno : (e.class0 && s.hasHeadframe && !yes) = false := by
    cases h1 : e.class0 <;> cases h2 : s.hasHeadframe <;> simp
    exact hadm h1 h2
  refine ⟨!(s.panel k).written || decide ((s.panel k).entry.cores ≠ e.cores) || decide ((s.panel k).pairing ≠ s.pairAll k e), ?_, ?_⟩
  · rw [exec_panelWrite, execPanelWrite, h, if_neg (by simp), if_neg (by simp [hok, Nat.not_le.2 hk]), hno]
    rfl
  · rintro (hn | hn) <;> simp [hn]

/-! ### Routes and ports (R372, R375) -/

/-- With no transfer under way there is nothing to send. -/
theorem State.pumpTransfers_of_nil {s : State} (h : s.lnk.transfers = []) : s.pumpTransfers = s := by
  simp [State.pumpTransfers, h]

/-- An entry of a routing table, whole. -/
def State.setRoute (s : State) (i : Nat) (ps : List RoutePath) : State := { s with lnk := { s.lnk with routes := Tab.set s.lnk.routes i ps } }

/-- What ROUTE_WRITE answers for an entry that exists. -/
theorem routeWrite_eq {s : State} (h : s.mbxRuns 0x0217 = true) {table entry : Nat} (ht : table < 4) (he : entry < 992)
    (ps : List RoutePath) :
    exec (.routeWrite table entry ps) s =
      if ∃ p ∈ ps, p.rsvZero = false ∨ p.broken = true then .next (s.mbxReply 2)
      else if s.pathsOk ps = false then .next (s.mbxReply 0x0B00)
      else .next ((s.setRoute (table * 992 + entry) ps).pumpTransfers.mbxReply 0) := by
  rw [exec_routeWrite, execRouteWrite, h]
  simp [Nat.not_le.2 ht, Nat.not_le.2 he, State.setRoute]

/-- The spare carries the logical port and trains; the event is in the log (R375). -/
theorem State.takeSpare_frame (s : State) (l p : Nat) :
    (s.takeSpare l p).physPort l = p ∧ ((s.takeSpare l p).port p).state = .training ∧
      ∃ e ∈ (s.takeSpare l p).mgt.events, e.code = 0x5005 := by
  refine ⟨?_, ?_, State.exists_event _ _⟩
  · simp [State.takeSpare, State.physPort, State.modPort, State.event]
  · have h (u : State) (g : Port → Port) : ((u.modPort p g).event 0x5005).port p = g (u.port p) :=
      (State.port_modPort u p p g).trans (if_pos rfl)
    rw [State.takeSpare, h]

/-! ### Repairs (R429) -/

/-- A fold of accesses of HBM is one. -/
theorem HbmOnly.foldl {α : Type} {g : State → α → State} (h : ∀ s a, HbmOnly s (g s a)) (l : List α) (s : State) :
    HbmOnly s (l.foldl g s) :=
  List.foldlRecOn (motive := HbmOnly s) l g (.refl s) fun t ht a _ => ht.trans (h t a)

/-- An access of HBM leaves the repair table alone. -/
theorem HbmOnly.repairs {s t : State} (h : HbmOnly s t) : t.rel.repairs = s.rel.repairs := by
  obtain ⟨log, next, hr⟩ := h.rel
  rw [hr]

/-- REPAIR_WRITE of a frame lists its entry, then repairs the poisoned frames that it covers. -/
theorem repairWrite_lists {s : State} (h : s.mbxRuns 0x021A = true) {i frame slot : Nat} {rep : W64} (hi : i < 4096) (hf : frame ≠ 0) :
    ∃ u : State, exec (.repairWrite i frame rep slot) s = .next (u.mbxReply 0) ∧
      u.rel.repairs = Tab.set s.rel.repairs i { frame := frame, replica := rep, slot := slot } := by
  rw [exec_repairWrite, execRepairWrite, h, if_neg (by simp), if_neg (by omega), if_neg hf]
  exact ⟨_, rfl, (HbmOnly.foldl State.repairFrame_only _ _).repairs⟩

/-- REPAIR_WRITE of frame 0 deletes its entry. -/
theorem repairWrite_deletes {s : State} (h : s.mbxRuns 0x021A = true) {i slot : Nat} {rep : W64} (hi : i < 4096) :
    exec (.repairWrite i 0 rep slot) s = .next ({ s with rel := { s.rel with repairs := Tab.erase s.rel.repairs i } }.mbxReply 0) := by
  rw [exec_repairWrite, execRepairWrite, h, if_neg (by simp), if_neg (by omega), if_pos rfl]

/-! ### The obligation -/

/-- CONTEXT_WRITE of a legal entry (R330, R477). -/
theorem contextWrite_legal {s : State} {c : Nat} {e : CtxFields} (h : s.mbxRuns 0x0210 = true)
    (hok : c < 1024 ∧ e.moduleZero = true ∧ e.ctxId.toNat = c ∧ rcOk e = true ∧ kvOk e = true ∧ s.bindOk c e = true ∧
      s.windowFree c e = true) :
    ∃ t, exec (.contextWrite c e) s = .next t ∧ replied 0 [] t ∧ (t.ctx c).bound = true ∧ (t.ctx c).f = e ∧
      (t.window (winKey e.fn.toNat e.window.toNat)).ctx = some c ∧
      ∀ i, i ≠ c → (t.ctx i).bound = (s.ctx i).bound ∧ (t.ctx i).f = (s.ctx i).f := by
  obtain ⟨u, hx, hu⟩ := contextWrite_binds h hok
  obtain ⟨hwin, hctx⟩ := s.bindWindow_frame c e
  refine ⟨_, hx, State.mbxReply_replied _ _ _, ?_, ?_, ?_, fun i hi => ?_⟩
  · rw [State.ctx_mbxReply, hu.bound, State.ctx_modCtx, if_pos rfl]
  · rw [State.ctx_mbxReply, hu.f, State.ctx_modCtx, if_pos rfl]
  · rw [State.window_mbxReply, hu.window]
    exact hwin
  · rw [State.ctx_mbxReply, hu.bound, hu.f, State.ctx_modCtx, if_neg hi, hctx]
    exact ⟨rfl, rfl⟩

/-- CONTEXT_DESTROY of a bound context without steps (R476, R477). -/
theorem contextDestroy_legal {s : State} {c : Nat} (h : s.mbxRuns 0x0211 = true) (hw : (s.ctx c).destroyWait = false)
    (hb : (s.ctx c).bound = true) (hr : (s.ctx c).recovering = false) (hi : s.ctxBusy c = false) :
    ∃ t, exec (.contextDestroy c) s = .next t ∧ replied 0 [] t ∧ (t.ctx c).bound = false ∧ (t.ctx c).gen = (s.ctx c).gen ∧
      (∀ k, (t.window k).ctx = some c → (s.window k).ctx = some c ∧ k ≠ winKey (s.ctx c).f.fn.toNat (s.ctx c).f.window.toNat) ∧
      ∀ i, i ≠ c → (t.ctx i).bound = (s.ctx i).bound ∧ (t.ctx i).f = (s.ctx i).f := by
  obtain ⟨hbound, hgen, hothers, hwin⟩ := State.destroyCtx_frame hb
  have hu := (s.destroyCtx c).evalAdmission_bindings (s.ctx c).f.panel.toNat
  refine ⟨_, contextDestroy_idle h hw hb hr hi, State.mbxReply_replied _ _ _, ?_, ?_, fun k hk => ?_, fun i hi => ?_⟩
  · rw [State.ctx_mbxReply, hu.bound, hbound]
  · rw [State.ctx_mbxReply, hu.gen, hgen]
  · rw [State.window_mbxReply, hu.window] at hk
    exact hwin k hk
  · rw [State.ctx_mbxReply, hu.bound, hu.f]
    exact hothers i hi

/-- CONTEXT_DESTROY of a bound context with steps: it waits, and its recovery is asked for. -/
theorem contextDestroy_waits {s : State} {c : Nat} (h : s.mbxRuns 0x0211 = true) (hw : (s.ctx c).destroyWait = false)
    (hb : (s.ctx c).bound = true) (hi : s.ctxBusy c = true) :
    ∃ t, exec (.contextDestroy c) s = .next t ∧ (t.ctx c).destroyWait = true ∧ (t.ctx c).recovering = true ∧ t.mgt = s.mgt := by
  have hself : (s.modCtx c (fun x => { x with destroyWait := true })).ctx c = { s.ctx c with destroyWait := true } :=
    (State.ctx_modCtx _ _ _ _).trans (if_pos rfl)
  obtain ⟨hrec, hwait, -, hmgt, -⟩ :=
    State.commandRecovery_frame (s := s.modCtx c (fun x => { x with destroyWait := true })) (c := c) (by rw [hself]; exact hb)
  exact ⟨_, contextDestroy_busy h hw hb hi, by rw [hwait, hself], hrec, hmgt⟩

/-- CONTEXT_RECOVER (R422, R477). -/
theorem contextRecover_cases {s : State} {c : Nat} (h : s.mbxRuns 0x0212 = true) :
    ((s.ctx c).bound = true → ∃ t, exec (.contextRecover c) s = .next t ∧ replied 0 [] t ∧ (t.ctx c).recovering = true ∧
      (t.ctx c).claimOpen = ((s.ctx c).claimOpen && (s.ctx c).recovering) ∧
      ((s.ctx c).recovering = false → ∃ r, r.ctx = c ∧ t.rel.queued = s.rel.queued ++ [r])) ∧
    ((s.ctx c).bound = false → ∃ t, exec (.contextRecover c) s = .next t ∧ replied 2 [] t ∧ t.rel = s.rel) := by
  rw [exec_contextRecover, execContextRecover, h]
  refine ⟨fun hb => ?_, fun hb => ?_⟩ <;> rw [hb]
  · obtain ⟨hrec, -, hclaim, -, hq⟩ := State.commandRecovery_frame hb
    refine ⟨_, rfl, State.mbxReply_replied _ _ _, ?_, ?_, fun hr => ?_⟩
    · rw [State.ctx_mbxReply, hrec]
    · rw [State.ctx_mbxReply, hclaim]
    · rw [State.mbxReply_rel]
      exact hq hr
  · exact ⟨_, rfl, State.mbxReply_replied _ _ _, State.mbxReply_rel _ _ _⟩

/-- PANEL_WRITE (R329, R478, R482). -/
theorem panelWrite_cases {s : State} {k : Nat} (e : PanelFields) (yes : Bool) (h : s.mbxRuns 0x0214 = true) :
    (k < 16 → s.panelOk k e = true → (e.class0 = true → s.hasHeadframe = true → yes = true) →
      ∃ t, exec (.panelWrite k e yes) s = .next t ∧ replied 0 [] t ∧ (t.panel k).written = true ∧ (t.panel k).entry = e ∧
        (t.panel k).running = (s.panel k).running ∧
        ((s.panel k).written = false ∨ (s.panel k).entry.cores ≠ e.cores → (t.panel k).needsReset = true) ∧
        ∀ j, j ≠ k → t.panel j = s.panel j) ∧
    (16 ≤ k ∨ s.panelOk k e = false → ∃ t, exec (.panelWrite k e yes) s = .next t ∧ replied 2 [] t ∧ t.cmd = s.cmd) ∧
    (k < 16 → s.panelOk k e = true → e.class0 = true → s.hasHeadframe = true →
      ∃ t, exec (.panelWrite k e false) s = .next t ∧ replied 0x0104 [] t ∧ t.cmd = s.cmd) := by
  refine ⟨fun hk hok hadm => ?_, fun hbad => ?_, fun hk hok hc hh => ?_⟩
  · obtain ⟨moved, hx, hmoved⟩ := panelWrite_written h hk hok hadm
    obtain ⟨-, hp⟩ := State.evalAdmission_frame (s.modPanel k (fun pn => { pn with
      written := true, entry := e, pairing := s.pairAll k e, needsReset := pn.needsReset || moved })) k
    have hself := (hp k).trans (if_pos rfl)
    rw [State.panel_modPanel, if_pos rfl] at hself
    refine ⟨_, hx, State.mbxReply_replied _ _ _, ?_, ?_, ?_, fun hm => ?_, fun j hj => ?_⟩ <;> rw [State.panel_mbxReply]
    · rw [hself]; rfl
    · rw [hself]; rfl
    · rw [hself]; rfl
    · rw [hself]; simp [State.marks, hmoved hm]
    · rw [hp, if_neg hj, State.panel_modPanel, if_neg hj]
  · have hx : exec (.panelWrite k e yes) s = .next (s.mbxReply 2) := by
      rw [exec_panelWrite, execPanelWrite, h, if_neg (by simp), if_pos (by simpa using hbad)]
    exact ⟨_, hx, State.mbxReply_replied _ _ _, State.mbxReply_cmd _ _ _⟩
  · have hx : exec (.panelWrite k e false) s = .next (s.mbxReply 0x0104) := by
      rw [exec_panelWrite, execPanelWrite, h, if_neg (by simp), if_neg (by simp [hok, Nat.not_le.2 hk]), if_pos (by simp [hc, hh])]
    exact ⟨_, hx, State.mbxReply_replied _ _ _, State.mbxReply_cmd _ _ _⟩

/-- ROUTE_WRITE (R372). -/
theorem routeWrite_cases {s : State} (h : s.mbxRuns 0x0217 = true) {table entry : Nat} (ht : table < 4) (he : entry < 992)
    (ps : List RoutePath) :
    (s.pathsOk ps = true → (∀ p ∈ ps, p.rsvZero = true ∧ p.broken = false) → s.lnk.transfers = [] →
      ∃ t, exec (.routeWrite table entry ps) s = .next t ∧ replied 0 [] t ∧ Tab.find t.lnk.routes (table * 992 + entry) = some ps ∧
        ∀ k, k ≠ table * 992 + entry → Tab.find t.lnk.routes k = Tab.find s.lnk.routes k) ∧
    (s.pathsOk ps = false → (∀ p ∈ ps, p.rsvZero = true ∧ p.broken = false) →
      ∃ t, exec (.routeWrite table entry ps) s = .next t ∧ replied 0x0B00 [] t ∧ t.lnk = s.lnk) ∧
    (∀ p ∈ ps, p.rsvZero = false ∨ p.broken = true →
      ∃ t, exec (.routeWrite table entry ps) s = .next t ∧ replied 2 [] t ∧ t.lnk = s.lnk) := by
  have hclean (hz : ∀ p ∈ ps, p.rsvZero = true ∧ p.broken = false) : ¬ ∃ p ∈ ps, p.rsvZero = false ∨ p.broken = true := by
    rintro ⟨p, hp, hr | hr⟩
    · simp [(hz p hp).1] at hr
    · simp [(hz p hp).2] at hr
  rw [routeWrite_eq h ht he]
  refine ⟨fun hok hz hn => ?_, fun hok hz => ?_, fun p hp hbad => ?_⟩
  · rw [if_neg (hclean hz), if_neg (by simp [hok]), State.pumpTransfers_of_nil (s := s.setRoute _ ps) hn]
    refine ⟨_, rfl, State.mbxReply_replied _ _ _, ?_, fun k hk => ?_⟩ <;> rw [State.mbxReply_lnk]
    · exact Tab.find_set_self _ _ _
    · exact Tab.find_set_of_ne _ _ hk
  · rw [if_neg (hclean hz), if_pos hok]
    exact ⟨_, rfl, State.mbxReply_replied _ _ _, State.mbxReply_lnk _ _ _⟩
  · rw [if_pos ⟨p, hp, hbad⟩]
    exact ⟨_, rfl, State.mbxReply_replied _ _ _, State.mbxReply_lnk _ _ _⟩

/-- PORT_REMAP (R375). -/
theorem portRemap_cases {s : State} (h : s.mbxRuns 0x0219 = true) {l : Nat} (p : Nat) (hl : l < 104) :
    ((s.port (s.physPort l)).isUp = true → ∃ t, exec (.portRemap l p) s = .next t ∧ replied 0x0B01 [] t ∧ t.lnk = s.lnk) ∧
    ((s.port (s.physPort l)).isUp = false → s.spareFits l p = true → ∃ t, exec (.portRemap l p) s = .next t ∧ replied 0 [] t ∧
      t.physPort l = p ∧ (t.port p).state = .training ∧ ∃ e ∈ t.mgt.events, e.code = 0x5005) := by
  rw [exec_portRemap, execPortRemap, h]
  refine ⟨fun hup => ?_, fun hdown hfit => ?_⟩
  · rw [if_neg (by simp), if_pos ⟨hl, hup⟩]
    exact ⟨_, rfl, State.mbxReply_replied _ _ _, State.mbxReply_lnk _ _ _⟩
  · rw [if_neg (by simp), if_neg (by simp [hdown]), if_neg (by simp [hfit, Nat.not_le.2 hl])]
    refine ⟨_, rfl, State.mbxReply_replied _ _ _, ?_⟩
    rw [State.physPort_mbxReply, State.port_mbxReply, State.mbxReply_events]
    exact s.takeSpare_frame l p

/-- REPAIR_WRITE (R429). -/
theorem repairWrite_cases {s : State} (h : s.mbxRuns 0x021A = true) {i : Nat} (frame slot : Nat) (rep : W64) (hi : i < 4096) :
    (frame ≠ 0 → ∃ t, exec (.repairWrite i frame rep slot) s = .next t ∧ replied 0 [] t ∧
      Tab.find t.rel.repairs i = some { frame := frame, replica := rep, slot := slot }) ∧
    ∃ t, exec (.repairWrite i 0 rep slot) s = .next t ∧ replied 0 [] t ∧ Tab.find t.rel.repairs i = none ∧
      ∀ j, j ≠ i → Tab.find t.rel.repairs j = Tab.find s.rel.repairs j := by
  refine ⟨fun hf => ?_, _, repairWrite_deletes h hi, State.mbxReply_replied _ _ _, ?_, fun j hj => ?_⟩
  · obtain ⟨u, hx, hu⟩ := repairWrite_lists (slot := slot) (rep := rep) h hi hf
    exact ⟨_, hx, State.mbxReply_replied _ _ _, by rw [State.mbxReply_rel, hu, Tab.find_set_self]⟩
  · rw [State.mbxReply_rel, Tab.find_erase, if_pos rfl]
  · rw [State.mbxReply_rel, Tab.find_erase, if_neg hj]

/-- Settles O55: each command by its own lemma; a refusal is a reply that writes nothing (`State.mbxReply_only`). -/
theorem tablesByMailbox : Obligations.TablesByMailbox := by
  unfold Obligations.TablesByMailbox
  intro s c others
  refine ⟨fun e h => ⟨fun hok => contextWrite_legal h hok, fun hno =>
      ⟨_, contextWrite_refused h hno, State.mbxReply_replied _ _ _, State.mbxReply_cmd _ _ _⟩⟩,
    fun h hw => ⟨fun hb => ?_, fun hb hr hi => contextDestroy_legal h hw hb hr hi, fun hb hi => contextDestroy_waits h hw hb hi⟩,
    fun h => contextRecover_cases h, fun root h hb => ?_, fun e yes h => panelWrite_cases e yes h,
    fun fb first n entry arg h hb => ?_, fun table h hb => ⟨fun hok => ?_, fun hno => ?_⟩,
    fun table entry ps h ht he => routeWrite_cases h ht he ps, fun level h hb => ⟨fun hl => ?_, fun h1 h2 => ?_⟩,
    fun l p h hl => portRemap_cases h p hl, fun i frame slot rep h hi => repairWrite_cases h frame slot rep hi⟩
  case refine_1 => -- CONTEXT_DESTROY of a context that is not bound
    have hx : exec (.contextDestroy c) s = .next (s.mbxReply 2) := by simp [exec_contextDestroy, execContextDestroy, h, hw, hb]
    exact ⟨_, hx, State.mbxReply_replied _ _ _, State.mbxReply_cmd _ _ _⟩
  case refine_2 => -- ROOT_SET
    have hx : exec (.rootSet c root) s = .next ((s.modCtx c (fun x => { x with f := { x.f with root := root } })).mbxReply 0) := by
      simp [exec_rootSet, execRootSet, h, hb]
    exact ⟨_, hx, State.mbxReply_replied _ _ _, by rw [modCtx_reply_self], fun i hi => modCtx_reply_others s c _ hi⟩
  case refine_3 => -- FALLBACK_SET
    rw [exec_fallbackSet, execFallbackSet, h, hb]
    refine ⟨_, rfl, State.mbxReply_replied _ _ _, ?_, ?_⟩ <;> rw [modCtx_reply_self] <;> split_ifs <;> rfl
  case refine_4 => -- PLACEMENT_WRITE of a legal table
    have hx : exec (.placementWrite c table) s = .next ((s.placePending c table).mbxReply 0) := by
      simp [exec_placementWrite, execPlacementWrite, h, hb, hok]
    refine ⟨_, hx, State.mbxReply_replied _ _ _, ?_, ?_⟩ <;> rw [State.mbxReply_edu]
    · simp [State.placePending, Tab.find]
    · rfl
  case refine_5 => -- PLACEMENT_WRITE of any other
    have hx : exec (.placementWrite c table) s = .next (s.mbxReply 2) := by simp [exec_placementWrite, execPlacementWrite, h, hno]
    exact ⟨_, hx, State.mbxReply_replied _ _ _, State.mbxReply_edu _ _ _⟩
  case refine_6 => -- LEVEL_PIN of a supported level
    have hx : exec (.levelPin c level) s =
        .next ((s.modCtx c (fun x => { x with f := { x.f with level := BitVec.ofNat 8 level } })).mbxReply 0) := by
      rw [exec_levelPin, execLevelPin, h, hb, if_neg (by simp), if_neg (by simp), if_neg (by tauto)]
    exact ⟨_, hx, State.mbxReply_replied _ _ _, by rw [modCtx_reply_self], fun i hi => modCtx_reply_others s c _ hi⟩
  case refine_7 => -- LEVEL_PIN of any other
    have hx : exec (.levelPin c level) s = .next (s.mbxReply 0x0A04) := by
      rw [exec_levelPin, execLevelPin, h, hb, if_neg (by simp), if_neg (by simp), if_pos ⟨h1, h2⟩]
    exact ⟨_, hx, State.mbxReply_replied _ _ _, State.mbxReply_cmd _ _ _⟩

end Sys2Proof.Machine
end

section
/-! PROOFS. Accesses of the host: what makes one wait, BAR2's two meanings, and register writes (08 R222; 20 R520 to R525). -/

namespace Sys2Proof.Machine

/-! ### The meaning of each command -/

theorem exec_bar2Read (off : Nat) (ask : Bar2Ask) (s : State) : exec (.bar2Read off ask) s = execBar2Read off ask s := rfl
theorem exec_bar2Write (off : Nat) (data : List Byte) (s : State) : exec (.bar2Write off data) s = execBar2Write off data s := rfl
theorem exec_registerWrite (bar : HostBar) (off size : Nat) (v : W64) (s : State) :
    exec (.registerWrite bar off size v) s = execRegisterWrite bar off size v s := rfl
theorem exec_bar2PeerTimeout (s : State) : exec .bar2PeerTimeout s = execBar2PeerTimeout s := rfl

/-! ### Waiting (08 R222, 01 R29) -/

/-- Every host access goes through the order of the posted writes. -/
theorem exec_of_hostAccess {i : Instr} (h : hostAccess i = true) (s : State) : ∃ islands f, exec i s = s.hostTo i islands f := by
  unfold hostAccess at h
  unfold exec
  split at h
  case h_24 d op seq =>
    obtain rfl : d = .bar4 := eq_of_beq h
    exact ⟨_, _, (if_pos rfl : execMbxCmd .bar4 op seq s = _)⟩
  case h_25 => nomatch h
  all_goals exact ⟨_, _, rfl⟩

/-- A host access waits while an earlier one does, or the host interface's island or one on its way is held. -/
theorem State.hostTo_waits {s : State} {i : Instr} {islands : List Nat} (f : State → Answer)
    (h : s.hostWaits = true ∨ s.runsFree 240 = false ∨ ∃ j ∈ islands, s.runsFree j = false) :
    s.hostTo i islands f = .next (s.deferHost i) := by
  rw [State.hostTo_cases, if_pos]
  refine h.imp_right (Or.imp_right ?_)
  rintro ⟨j, hj, hn⟩
  exact List.all_eq_false.2 ⟨j, hj, by simp [hn]⟩

theorem State.runsFree_of_islandOn {s : State} {i : Nat} (h : s.islandOn i = true) : s.runsFree i = true := by
  simp only [State.islandOn, Bool.and_eq_true] at h
  obtain ⟨-, hfree⟩ := h
  exact hfree

theorem State.runsFree_of_barLink {s : State} (h : s.barLink = true) : s.runsFree 240 = true := by
  simp only [State.barLink, Bool.and_eq_true] at h
  obtain ⟨-, hon⟩ := h
  exact State.runsFree_of_islandOn hon

/-! ### Idle steps (log entries 2 and 69) -/

theorem step_of_empty {s : State} (h : s.pending = []) : step s = idle s := by
  unfold step
  rw [h]

/-- Without a waiting access time passes. -/
theorem idle_of_none {s : State} (h : s.hif.deferred = []) : idle s = .next s.tick := by
  unfold idle
  rw [h]

/-- While a posted write to a peer is not committed time passes. -/
theorem idle_of_posted {s : State} (h : s.hif.peer.any (fun q => q.write) = true) : idle s = .next s.tick := by
  unfold idle
  split
  · rw [if_pos h]
  · rfl

/-- Otherwise the oldest waiting access takes effect, and the others wait on behind what it leaves. -/
theorem idle_of_waiting {s t : State} {i : Instr} {rest : List Instr} (h : s.hif.deferred = i :: rest)
    (hp : s.hif.peer.any (fun q => q.write) = false)
    (hx : exec i { s with hif := { s.hif with deferred := [] } } = .next t) : idle s = .next (State.afterHost i rest t) := by
  unfold idle
  rw [h]
  dsimp only
  rw [if_neg (by simp [hp]), hx]
  rfl

/-! ### Events that are limited by rate -/

/-- An event once per ms writes the log and its own time, or nothing. -/
theorem State.eventPerMs_frame (s : State) (code : Nat) : s.eventPerMs code =
    { s with
      mgt := { s.mgt with
        events := (s.eventPerMs code).mgt.events, eventSeq := (s.eventPerMs code).mgt.eventSeq, evtLast := (s.eventPerMs code).mgt.evtLast }
      draws := (s.eventPerMs code).draws } := by
  unfold State.eventPerMs
  dsimp only
  split
  · split_ifs <;> rfl
  · rfl

@[simp] theorem State.eventPerMs_out (s : State) (code : Nat) : (s.eventPerMs code).out = s.out := by rw [State.eventPerMs_frame]
@[simp] theorem State.eventPerMs_hbm (s : State) (code : Nat) : (s.eventPerMs code).hbm = s.hbm := by rw [State.eventPerMs_frame]
@[simp] theorem State.eventPerMs_cores (s : State) (code : Nat) : (s.eventPerMs code).cores = s.cores := by rw [State.eventPerMs_frame]
@[simp] theorem State.eventPerMs_counters (s : State) (code : Nat) : (s.eventPerMs code).counters = s.counters := by
  rw [State.eventPerMs_frame]

/-! ### Reads of a slice (06 R163, R165) -/

/-- Errors that a read finds stand in the lists of errors alone. -/
theorem Slice.found_frame (sl : Slice) (fs : Finds) : ∃ bad weak, sl.found fs = { sl with bad := bad, weak := weak } := by
  unfold Slice.found
  refine List.foldlRecOn (motive := fun x : Slice => ∃ bad weak, x = { sl with bad := bad, weak := weak }) fs _ ⟨sl.bad, sl.weak, rfl⟩ ?_
  rintro _ ⟨bad, weak, rfl⟩ f -
  dsimp only
  split_ifs <;> exact ⟨_, _, rfl⟩

/-- The corrected words of a read are counted, and nothing else. -/
theorem State.noteReads_frame (s : State) (p : Nat) (rs : List (Nat × Nat)) :
    ∃ n, s.noteReads p rs = s ∨ s.noteReads p rs = s.count (sliceReg p 0x110) n := by
  unfold State.noteReads
  dsimp only
  split_ifs
  · exact ⟨0, .inl rfl⟩
  · exact ⟨_, .inr rfl⟩

/-- What port B reads: the bytes there, but for words that a write of port A meets; nothing goes out. -/
theorem State.portBRead_bytes (s : State) (p a n : Nat) :
    (s.portBRead p a n).1.length = n ∧ (s.portBRead p a n).2.out = s.out ∧ (s.portBRead p a n).2.hbm = s.hbm ∧
      ∀ i < n, (a + i) / 64 ∉ (s.core p).slice.undefB → (s.portBRead p a n).1.getD i 0 = (s.core p).slice.mem.read (a + i) := by
  have hlen : ((s.core p).slice.bytes a n).length = n := by simp [Slice.bytes, Mem.readN]
  have hget (i : Nat) (hi : i < n) : ((s.core p).slice.bytes a n).getD i 0 = (s.core p).slice.mem.read (a + i) := by
    simp [Slice.bytes, Mem.readN, hi]
  unfold State.portBRead
  dsimp only
  split_ifs
  · exact ⟨hlen, rfl, rfl, fun i hi _ => hget i hi⟩
  · refine ⟨by rw [List.length_mapIdx, hlen], rfl, rfl, fun i hi hu => ?_⟩
    rw [← hget i hi]
    simp [List.getD_eq_getElem?_getD, List.getElem?_mapIdx, hu]

end Sys2Proof.Machine
end

section
/-! PROOFS. BAR2 accesses, board peers and register writes (20 R520 to R525). -/

namespace Sys2Proof.Machine

/-! ### BAR2 (R522) -/

/-- A well-formed read whose way is free: Unsupported Request while BAR2 is closed, else what its target answers. -/
theorem bar2Read_eq {s : State} {off len : Nat} (finds : Finds) (hl : s.barLink = true) (ht : tlpOk off len = true)
    (hw : s.hostWaits = false) (hi : (s.bar2Islands off).all s.runsFree = true) :
    exec (.bar2Read off { len := len, finds := finds }) s =
      if s.bar2Open = true then .next (s.bar2Answer off len finds) else .next (s.emit (.completion false false [])) := by
  rw [exec_bar2Read, execBar2Read, State.hostTo_runs _ _ hw (State.runsFree_of_barLink hl) hi]
  cases h : s.bar2Open <;> simp [hl, ht]

/-- A well-formed write whose way is free: nothing while BAR2 is closed, else what its target takes. -/
theorem bar2Write_eq {s : State} {off : Nat} {data : List Byte} (hl : s.barLink = true) (ht : tlpOk off data.length = true)
    (hw : s.hostWaits = false) (hi : (s.bar2Islands off).all s.runsFree = true) :
    exec (.bar2Write off data) s = if s.bar2Open = true then .next (s.bar2Store off data) else .next s := by
  rw [exec_bar2Write, execBar2Write, State.hostTo_runs _ _ hw (State.runsFree_of_barLink hl) hi]
  cases h : s.bar2Open <;> simp [hl, ht]

section
variable {s : State} {off : Nat}

/-- An Unsupported Request answers so and is an event; HBM and the cores are as before. -/
theorem State.bar2Refuse_frame (s : State) : s.bar2Refuse.out = s.out ++ [.completion false false []] ∧ s.bar2Refuse.hbm = s.hbm ∧
    s.bar2Refuse.cores = s.cores ∧ s.bar2Refuse.counters = s.counters := by
  refine ⟨?_, ?_, ?_, ?_⟩ <;> simp [State.bar2Refuse, State.emit]

/-- The answer of a target that refuses. -/
theorem bar2Answer_refused (len : Nat) (finds : Finds) (h : s.bar2Target off = .refused) : s.bar2Answer off len finds = s.bar2Refuse := by
  rw [State.bar2Answer, h]

/-- The answer of a board peer comes later. -/
theorem bar2Answer_peer (len : Nat) (finds : Finds) {dest : Nat} (h : s.bar2Target off = .peer dest) :
    s.bar2Answer off len finds = s.bar2Peer off dest len false [] := by
  rw [State.bar2Answer, h]

/-- The answer of HBM: the bytes read there, or poison. -/
theorem bar2Answer_hbm (len : Nat) (finds : Finds) {a : Nat} (h : s.bar2Target off = .hbm a) :
    ∃ r, s.hbmRead a len (s.bar2Req off a) = r ∧
      s.bar2Answer off len finds = r.2.emit (.completion true (decide (r.1 = .poison)) (r.1.bytesOr len)) := by
  rw [State.bar2Answer, h]
  exact ⟨_, rfl, rfl⟩

/-- A slice that refuses: the refusal is counted, and the answer is that of R522. -/
theorem bar2Answer_hostRefused (len : Nat) (finds : Finds) {p a : Nat} (h : s.bar2Target off = .slice p a)
    (hr : (s.core p).slice.hostRefused a len = true) :
    (s.bar2Answer off len finds).out = s.out ++ [.completion false false []] ∧ (s.bar2Answer off len finds).cores = s.cores ∧
      countersMoved [(sliceReg p 0x128, 1)] s (s.bar2Answer off len finds) := by
  have hx : s.bar2Answer off len finds = (s.noteHostRefused p a len).bar2Refuse := by
    rw [State.bar2Answer, h]
    exact if_pos hr
  obtain ⟨hout, -, hcores, hctrs⟩ := (s.noteHostRefused p a len).bar2Refuse_frame
  obtain ⟨houtN, hcoresN, hctrN⟩ : (s.noteHostRefused p a len).out = s.out ∧ (s.noteHostRefused p a len).cores = s.cores ∧
      (s.noteHostRefused p a len).counters = (s.count (sliceReg p 0x128) 1).counters := by
    unfold State.noteHostRefused
    dsimp only
    split_ifs <;> exact ⟨rfl, rfl, rfl⟩
  rw [hx]
  refine ⟨hout.trans (by rw [houtN]), hcores.trans hcoresN, fun j => ?_⟩
  have hj : (s.noteHostRefused p a len).bar2Refuse.counter j = (s.count (sliceReg p 0x128) 1).counter j := by
    simp only [State.counter, hctrs, hctrN]
  rw [hj, State.counter_count]
  by_cases he : j = sliceReg p 0x128
  · simp [he]
  · simp [he, Ne.symm he]

/-- The slice and what else a read leaves when it finds errors and counts those that it corrects. -/
theorem State.foundReads_frame (s : State) (p a len : Nat) (finds : Finds) :
    ∃ u, (s.modSlice p fun sl => sl.found finds).noteReads p [(a, len)] = u ∧ (u.core p).slice = (s.core p).slice.found finds ∧
      u.out = s.out ∧ u.hbm = s.hbm ∧ u.counter (sliceReg p 0x118) = s.counter (sliceReg p 0x118) := by
  have hs : ((s.modSlice p fun sl => sl.found finds).core p).slice = (s.core p).slice.found finds := by rw [State.core_modSlice_self]
  refine ⟨_, rfl, ?_⟩
  obtain ⟨n, h | h⟩ := (s.modSlice p fun sl => sl.found finds).noteReads_frame p [(a, len)] <;> rw [h]
  · exact ⟨hs, rfl, rfl, rfl⟩
  · refine ⟨hs, rfl, rfl, ?_⟩
    rw [State.counter_count, if_neg (by simp [sliceReg])]
    rfl

/-- A read of a slice without an uncorrectable word answers the bytes there. -/
theorem bar2Answer_slice (len : Nat) (finds : Finds) {p a : Nat} (h : s.bar2Target off = .slice p a)
    (hr : (s.core p).slice.hostRefused a len = false) (hb : ((s.core p).slice.found finds).badIn a len = none) :
    ∃ bs, (s.bar2Answer off len finds).out = s.out ++ [.completion true false bs] ∧ bs.length = len ∧
      (s.bar2Answer off len finds).hbm = s.hbm ∧
      ∀ i < len, (a + i) / 64 ∉ (s.core p).slice.undefB → bs.getD i 0 = (s.core p).slice.mem.read (a + i) := by
  obtain ⟨u, hu, hsl, hout, hhbm, -⟩ := s.foundReads_frame p a len finds
  have hx : s.bar2Answer off len finds = (u.portBRead p a len).2.emit (.completion true false (u.portBRead p a len).1) := by
    rw [State.bar2Answer, h]
    dsimp only
    rw [hr, hu, hsl, hb]
    rfl
  obtain ⟨bad, weak, hf⟩ := (s.core p).slice.found_frame finds
  obtain ⟨hlen, ho, hh, hread⟩ := u.portBRead_bytes p a len
  rw [hsl, hf] at hread
  refine ⟨_, by rw [hx, State.emit, ho, hout], hlen, by rw [hx, State.emit, hh, hhbm], hread⟩

/-- A read of a slice that touches an uncorrectable word answers with poison, and notes the word (06 R165). -/
theorem bar2Answer_slice_bad (len : Nat) (finds : Finds) {p a w : Nat} (h : s.bar2Target off = .slice p a)
    (hr : (s.core p).slice.hostRefused a len = false) (hb : ((s.core p).slice.found finds).badIn a len = some w) :
    (s.bar2Answer off len finds).out = s.out ++ [.completion true true (zeros len)] ∧
      (s.bar2Answer off len finds).counter (sliceReg p 0x118) = s.counter (sliceReg p 0x118) + 1 ∧
      ((s.bar2Answer off len finds).core p).slice.errWord = w * 64 ∧ ((s.bar2Answer off len finds).core p).slice.errValid = true := by
  obtain ⟨u, hu, hsl, hout, -, hctr⟩ := s.foundReads_frame p a len finds
  have hx : s.bar2Answer off len finds = (u.noteBad p w).emit (.completion true true (zeros len)) := by
    rw [State.bar2Answer, h]
    dsimp only
    rw [hr, hu, hsl, hb]
    rfl
  rw [hx]
  refine ⟨by rw [← hout]; rfl, ?_, ?_, ?_⟩
  · have hc : ((u.noteBad p w).emit (.completion true true (zeros len))).counter (sliceReg p 0x118) =
        (u.count (sliceReg p 0x118) 1).counter (sliceReg p 0x118) := rfl
    rw [hc, State.counter_count, if_pos rfl, hctr]
    rfl
  all_goals simp [State.noteBad]

/-- A write to HBM is the write there; one that meets poison is an event besides. -/
theorem bar2Store_hbm (data : List Byte) {a : Nat} (h : s.bar2Target off = .hbm a) :
    (s.bar2Store off data).cores = s.cores ∧ (s.bar2Store off data).hbm = (s.hbmWrite a data (s.bar2Req off a)).hbm := by
  have hc := (s.hbmWrite_only a data (s.bar2Req off a)).cores
  rw [State.bar2Store, h]
  dsimp only
  split_ifs
  · exact ⟨by rw [State.eventPerMs_cores, hc], State.eventPerMs_hbm _ _⟩
  · exact ⟨hc, rfl⟩

end

/-! ### Board peers (R522) -/

/-- Without drain notices there is nothing to acknowledge. -/
theorem State.settleDrains_of_nil {s : State} (h : s.sec.drains = []) : s.settleDrains = s := by
  unfold State.settleDrains
  rw [h]
  show { s with sec := { s.sec with drains := [] } } = s
  rw [← h]

/-- The oldest access to a board peer is given up: a read aborts, and the event is in the log. -/
theorem bar2PeerTimeout_gives_up {s : State} {q : PeerReq} {rest : List PeerReq} (hl : s.barLink = true) (hp : s.hif.peer = q :: rest)
    (hd : s.sec.drains = []) :
    ∃ t, exec .bar2PeerTimeout s = .next t ∧ t.hif = { s.hif with peer := rest } ∧
      t.out = (if q.write then s.out else s.out ++ [.abort]) ∧ ∃ e ∈ t.mgt.events, e.code = 0x5804 := by
  have he := ({ s with hif := { s.hif with peer := rest } } : State).exists_event 0x5804
  rw [exec_bar2PeerTimeout, execBar2PeerTimeout, hp]
  dsimp only
  rw [hl, if_neg (by simp)]
  cases hq : q.write
  · exact ⟨_, congrArg _ (State.settleDrains_of_nil (s := State.emit _ .abort) hd), rfl, rfl, he⟩
  · exact ⟨_, congrArg _ (State.settleDrains_of_nil (s := State.event _ 0x5804) hd), rfl, rfl, he⟩

/-! ### Register writes (R520, R521, R524) -/

theorem regAt_mxFlags : ∀ p < 160, regAt (coreReg p 0x1008) = .reg (coreReg p 0x1008) 32 false := by decide +kernel
theorem regAt_vxFlags : ∀ p < 160, regAt (coreReg p 0x1808) = .reg (coreReg p 0x1808) 32 false := by decide +kernel
theorem regAt_bar2Win : ∀ n < 16, regAt (hifReg (0x1000 + 8 * n)) = .reg (hifReg (0x1000 + 8 * n)) 64 false := by decide +kernel

/-- Where a register of a core window lies: its block, and its place in the block. -/
theorem coreReg_split {p o : Nat} (hp : p < 160) (ho : o < 0x4000) :
    coreReg p o / 0x400000 = 1 ∧ coreReg p o % 0x400000 / 0x4000 = p ∧ coreReg p o % 0x400000 % 0x4000 = o := by
  unfold coreReg
  omega

theorem islandOfReg_coreReg {p o : Nat} (hp : p < 160) (ho : o < 0x4000) : islandOfReg (coreReg p o) = p := by
  obtain ⟨hblock, hcore, -⟩ := coreReg_split hp ho
  rw [islandOfReg, hblock]
  exact hcore

theorem writeReg_coreReg (s : State) {p o : Nat} (hp : p < 160) (ho : o < 0x4000) (v : Nat) :
    s.writeReg (coreReg p o) v = s.writeCore p o v := by
  obtain ⟨hblock, hcore, hoff⟩ := coreReg_split hp ho
  rw [State.writeReg, hblock]
  show s.writeCore (coreReg p o % 0x400000 / 0x4000) (coreReg p o % 0x400000 % 0x4000) v = _
  rw [hcore, hoff]

/-- The window registers of BAR2: island 240 takes them, and each writes its own window. -/
theorem bar2Win_register (s : State) {n : Nat} (hn : n < 16) (v : Nat) :
    islandOfReg (hifReg (0x1000 + 8 * n)) = 240 ∧ s.writeReg (hifReg (0x1000 + 8 * n)) v = s.writeWindow n v := by
  have hblock : hifReg (0x1000 + 8 * n) / 0x400000 = 11 := by unfold hifReg; omega
  have hoff : hifReg (0x1000 + 8 * n) % 0x400000 = 0x1000 + 8 * n := by unfold hifReg; omega
  refine ⟨by rw [islandOfReg, hblock]; rfl, ?_⟩
  rw [State.writeReg, hblock, hoff]
  show (if 0x1000 ≤ 0x1000 + 8 * n then s.writeWindow ((0x1000 + 8 * n - 0x1000) / 8) v else s) = _
  rw [if_pos (by omega), show (0x1000 + 8 * n - 0x1000) / 8 = n by omega]

/-- A write of a whole register of an island with power is written. -/
theorem barWrite_whole {s : State} {off size v : Nat} {ctr : Bool} (hr : regAt off = .reg off (size * 8) ctr) (h64 : size * 8 ≤ 64)
    (hup : s.islandUp (islandOfReg off) = true) : s.barWrite off size v = s.writeReg off v := by
  rw [State.barWrite, hr]
  dsimp only
  rw [if_neg (by omega), if_pos hup]

/-- A write of the wrong size or place is discarded, with its event (R520). -/
theorem barWrite_bad {s : State} {off size v start bits : Nat} {ctr : Bool} (hr : regAt off = .reg start bits ctr)
    (hbad : off ≠ start ∨ size * 8 ≠ bits) : s.barWrite off size v = s.badAccess := by
  rw [State.barWrite, hr]
  dsimp only
  rw [if_pos (by omega)]

/-- A host write of BAR0 whose way is free reaches the register map. -/
theorem registerWrite_pf0 {s : State} {off size : Nat} {v : W64} (hb : s.barOpen 0 = true) (hw : s.hostWaits = false)
    (hi : s.runsFree (islandOfReg off) = true) : exec (.registerWrite .pf0 off size v) s = .next (s.barWrite off size v.toNat) := by
  rw [exec_registerWrite, execRegisterWrite, State.hostTo_runs _ _ hw (State.runsFree_of_barOpen hb) (by simp [hostIsland, hi])]
  exact if_pos hb

/-- A host write of BAR4 whose way is free reaches the mailbox. -/
theorem registerWrite_bar4 {s : State} {off size : Nat} {v : W64} (hd : s.doorOpen .bar4 = true) (hw : s.hostWaits = false) :
    exec (.registerWrite .bar4 off size v) s = .next (s.bar4Write off size v.toNat) := by
  have hon := hd
  simp only [State.doorOpen, Bool.and_eq_true] at hon
  obtain ⟨⟨h240, h241⟩, -⟩ := hon
  rw [exec_registerWrite, execRegisterWrite, State.hostTo_runs _ _ hw (State.runsFree_of_islandOn h240)
    (by simp [hostIsland, State.runsFree_of_islandOn h241])]
  exact if_pos hd

theorem leBytes_length (n v : Nat) : (leBytes n v).length = n := by
  induction n generalizing v with
  | zero => rfl
  | succ n ih => rw [leBytes, List.length_cons, ih]

/-- The mailbox's parameters take an aligned write of 4 or 8 bytes while no command runs (log entry 48). -/
theorem bar4Write_params {s : State} {off size v : Nat} (h1 : 0x100 ≤ off) (h2 : off < 0x8000) (hs : size = 4 ∨ size = 8)
    (ha : off % size = 0) :
    s.bar4Write off size v = if s.mgt.mbxBusy = true then s
      else { s with mgt := { s.mgt with mbxParams := Mem.writeN s.mgt.mbxParams off (leBytes size v) } } := by
  rw [State.bar4Write, if_pos ⟨h1, h2⟩, if_neg (by simp [ha]; omega)]

end Sys2Proof.Machine
end

section
/-! PROOFS. O58: the host's accesses. -/

namespace Sys2Proof.Machine

/-- With nothing in the queue, time passes unless a waiting access can take effect (log entry 69). -/
theorem step_of_waiting {s t : State} {i : Instr} {rest : List Instr} (he : s.pending = []) (h : s.hif.deferred = i :: rest)
    (hp : s.hif.peer.any (fun q => q.write) = false) (hx : exec i { s with hif := { s.hif with deferred := [] } } = .next t) :
    (t.hif.deferred ≠ [i] → step s = .next (State.keepWaiting rest t)) ∧
      (t.hif.deferred = [i] → step s = .next (State.keepWaiting rest t).tick) := by
  rw [step_of_empty he, idle_of_waiting h hp hx, State.afterHost]
  exact ⟨fun hd => by rw [if_neg hd], fun hd => by rw [if_pos hd]⟩

/-- A register write of the wrong size or place leaves everything but the event log. -/
theorem registerWrite_bad {s : State} {off size start bits : Nat} {ctr : Bool} (v : W64) (hb : s.barOpen 0 = true)
    (hw : s.hostWaits = false) (hi : s.runsFree (islandOfReg off) = true) (hr : regAt off = .reg start bits ctr)
    (hbad : off ≠ start ∨ size * 8 ≠ bits) :
    exec (.registerWrite .pf0 off size v) s = .next s.badAccess := by
  rw [registerWrite_pf0 hb hw hi, barWrite_bad hr hbad]

/-- A 32-bit write of a whole register of a core window, whose core has power and runs, is that register's write. -/
theorem registerWrite_core {s : State} {p o : Nat} (v : W64) (hp : p < 160) (ho : o < 0x4000) (hb : s.barOpen 0 = true)
    (hw : s.hostWaits = false) (hr : regAt (coreReg p o) = .reg (coreReg p o) 32 false) (hup : s.islandUp p = true)
    (hrun : s.runsFree p = true) : exec (.registerWrite .pf0 (coreReg p o) 4 v) s = .next (s.writeCore p o v.toNat) := by
  have hisl : islandOfReg (coreReg p o) = p := islandOfReg_coreReg hp ho
  rw [registerWrite_pf0 hb hw (by rw [hisl]; exact hrun), barWrite_whole hr (by decide) (by rw [hisl]; exact hup),
    writeReg_coreReg s hp ho]

/-- A write of a BAR2 window register sets that window. -/
theorem registerWrite_window {s : State} {n : Nat} (v : W64) (hn : n < 16) (hb : s.barOpen 0 = true) (hw : s.hostWaits = false)
    (hup : s.islandUp 240 = true) : exec (.registerWrite .pf0 (hifReg (0x1000 + 8 * n)) 8 v) s = .next (s.writeWindow n v.toNat) := by
  obtain ⟨hisl, hwrite⟩ := bar2Win_register s hn v.toNat
  rw [registerWrite_pf0 hb hw (by rw [hisl]; exact State.runsFree_of_barOpen hb),
    barWrite_whole (regAt_bar2Win n hn) (by decide) (by rw [hisl]; exact hup), hwrite]

/-- A parameter write reads back, and every other parameter byte stays. -/
theorem params_read_write (m : Mem) (off size v : Nat) :
    (∀ i < size, (Mem.writeN m off (leBytes size v)).read (off + i) = (leBytes size v).getD i 0) ∧
      ∀ a, a < off ∨ off + size ≤ a → (Mem.writeN m off (leBytes size v)).read a = m.read a := by
  have hlen : (leBytes size v).length = size := leBytes_length size v
  refine ⟨fun i hi => ?_, fun a ha => Mem.read_writeN_of_out m off a _ (by rwa [hlen])⟩
  rw [Mem.read_writeN_of_in m off i _ (by rwa [hlen]), List.getD_eq_getElem?_getD, List.getElem?_eq_getElem (by rwa [hlen])]
  rfl

/-- Settles O58: a waiting access is kept in its place and takes effect later; each access whose way is free is taken by its target. -/
theorem hostAccesses : Obligations.HostAccesses := by
  unfold Obligations.HostAccesses
  intro s
  refine ⟨?defers, ?heldRegister, ?heldBar2, ?idleStep, fun hl => ⟨?reads, ?writes, ?timeout, ?registers, ?params⟩⟩
  case defers =>
    intro i hi hwait
    obtain ⟨islands, f, hx⟩ := exec_of_hostAccess hi s
    rw [hx]
    exact State.hostTo_waits f (hwait.imp_right .inl)
  case heldRegister =>
    intro bar off size v hheld
    rw [exec_registerWrite]
    exact State.hostTo_waits _ (.inr (.inr ⟨_, List.mem_singleton_self _, hheld⟩))
  case heldBar2 =>
    intro off i ask data hi hheld
    rw [exec_bar2Read, exec_bar2Write]
    exact ⟨State.hostTo_waits _ (.inr (.inr ⟨i, hi, hheld⟩)), State.hostTo_waits _ (.inr (.inr ⟨i, hi, hheld⟩))⟩
  case idleStep =>
    intro he
    exact ⟨fun hd => (step_of_empty he).trans (idle_of_none hd), fun hp => (step_of_empty he).trans (idle_of_posted hp),
      fun i rest t hd hp hx => step_of_waiting he hd hp hx⟩
  case reads =>
    intro off len finds ht hw hi
    have hread := bar2Read_eq finds hl ht hw hi
    refine ⟨fun hc => by rw [hread, if_neg (by simp [hc])], ?_⟩
    rw [hread]
    refine ⟨?_, ?_, ?_, ?_, ?_⟩
    · intro ho htgt
      obtain ⟨hout, hhbm, hcores, -⟩ := s.bar2Refuse_frame
      exact ⟨_, by rw [if_pos ho, bar2Answer_refused len finds htgt], hout, hhbm, hcores⟩
    · intro a ho htgt
      obtain ⟨r, hr, hans⟩ := bar2Answer_hbm len finds htgt
      rw [if_pos ho, hans]
      exact ⟨_, rfl, r, hr, List.mem_append_right _ (List.mem_singleton_self _), rfl⟩
    · intro p a ho htgt hok
      rw [if_pos ho]
      refine ⟨fun hbad => ?_, fun w hbad => ?_⟩
      · obtain ⟨bs, hans⟩ := bar2Answer_slice len finds htgt hok hbad
        exact ⟨_, bs, rfl, hans⟩
      · exact ⟨_, rfl, bar2Answer_slice_bad len finds htgt hok hbad⟩
    · intro dest ho htgt
      rw [if_pos ho, bar2Answer_peer len finds htgt]
    · intro p a ho htgt hrefused
      exact ⟨_, by rw [if_pos ho], bar2Answer_hostRefused len finds htgt hrefused⟩
  case writes =>
    intro off data ht hw hi
    rw [bar2Write_eq hl ht hw hi]
    refine ⟨fun hc => by rw [if_neg (by simp [hc])], ?_, ?_, ?_, ?_⟩
    · intro ho htgt
      refine ⟨_, by rw [if_pos ho, State.bar2Store, htgt], ?_, ?_, ?_⟩ <;> simp
    · intro a ho htgt
      exact ⟨_, by rw [if_pos ho], bar2Store_hbm data htgt⟩
    · intro dest ho htgt
      rw [if_pos ho, State.bar2Store, htgt]
    · intro p a ho htgt hok
      rw [if_pos ho, State.bar2Store, htgt]
      dsimp only
      rw [if_neg (by simp [hok])]
  case timeout =>
    intro q rest hp hd
    exact bar2PeerTimeout_gives_up hl hp hd
  case registers =>
    intro off size v hb hw hi
    refine ⟨?_, ?_, ?_⟩
    · intro start bits ctr hr hbad
      exact ⟨_, registerWrite_bad v hb hw hi hr hbad, s.eventPerMs_frame 0x5802⟩
    · intro p hp hup hrun
      exact ⟨registerWrite_core v hp (by decide) hb hw (regAt_mxFlags p hp) hup hrun,
        registerWrite_core v hp (by decide) hb hw (regAt_vxFlags p hp) hup hrun⟩
    · intro n hn hup
      exact ⟨_, registerWrite_window v hn hb hw hup, Tab.get_set_self _ _ _ _, fun m hm => Tab.get_set_of_ne _ _ _ hm⟩
  case params =>
    intro off size v hd hw h1 h2 hsize hal
    rw [registerWrite_bar4 hd hw, bar4Write_params h1 h2 hsize hal]
    refine ⟨fun hbusy => by rw [if_pos hbusy], fun hbusy => ?_⟩
    rw [if_neg (by simp [hbusy])]
    obtain ⟨hin, hout⟩ := params_read_write s.mgt.mbxParams off size v.toNat
    exact ⟨_, rfl, hin, hout, rfl⟩

end Sys2Proof.Machine
end

section
/-! PROOFS. A core's power states and the tiles of its slice across them (06 R166, R169; 15 R402, R405). -/

namespace Sys2Proof.Machine

/-! ### Tables and memories -/

/-- Taking keys out of a table leaves every other key alone. -/
theorem Tab.find_filter {α : Type} (t : Tab α) (p : Nat → Bool) (k : Nat) :
    Tab.find (t.filter fun e => p e.1) k = if p k then Tab.find t k else none := by
  induction t with
  | nil => simp
  | cons e t ih =>
    obtain ⟨k', v⟩ := e
    by_cases hk : k' = k
    · subst hk
      cases hp : p k' <;> simp [hp, Tab.find, ih]
    · cases hp : p k' <;> simp [hp, Tab.find, hk, ih]

/-- Zeroing a range leaves every address outside it alone. -/
theorem Mem.read_zeroRange_of_out (m : Mem) {lo hi a : Nat} (h : a < lo ∨ hi ≤ a) :
    Mem.read (Mem.zeroRange m lo hi) a = Mem.read m a := by
  have hf := Tab.find_filter m (fun a => decide (a < lo) || decide (hi ≤ a)) a
  rw [if_pos (by simpa using h)] at hf
  rw [Mem.read, Tab.get, Mem.zeroRange, hf]
  rfl

/-- Several keys listed, each with its own value. -/
theorem Tab.find_foldl_set {α : Type} (f : Nat → α) (ps : List Nat) (t : Tab α) (k : Nat) :
    Tab.find (ps.foldl (fun t p => Tab.set t p (f p)) t) k = if k ∈ ps then some (f k) else Tab.find t k := by
  induction ps generalizing t with
  | nil => simp
  | cons p ps ih =>
    rw [List.foldl_cons, ih]
    by_cases hk : k = p
    · subst hk; simp
    · simp [hk, Tab.find_set_of_ne _ _ hk]

/-- One value listed at several keys. -/
theorem Tab.get_foldl_set {α : Type} (d v : α) (ks : List Nat) (t : Tab α) (j : Nat) :
    Tab.get d (ks.foldl (fun t i => Tab.set t i v) t) j = if j ∈ ks then v else Tab.get d t j := by
  rw [Tab.get, Tab.find_foldl_set (fun _ => v)]
  split <;> rfl

/-! ### A tile that reaches its target -/

section
variable (sl : Slice)

/-- A tile that is on has no target to reach. -/
theorem Slice.reach_of_on {t : Nat} (h : sl.tile t = .on) : sl.reach t = sl := by
  unfold Slice.reach
  rw [h]

/-- What a tile does on its way leaves every other tile alone. -/
theorem Slice.tile_reach_of_ne {t j : Nat} (h : j ≠ t) : (sl.reach t).tile j = sl.tile j := by
  unfold Slice.reach
  split
  · dsimp only
    split
    all_goals exact Tab.get_set_of_ne _ _ _ h
  · rfl

/-- A tile that goes off, or leaves off, loses its own contents and no other's (R166). -/
theorem Slice.read_reach_of_ne {t a : Nat} (h : a / 65536 ≠ t) : (sl.reach t).mem.read a = sl.mem.read a := by
  unfold Slice.reach
  split
  · dsimp only
    split
    · exact Mem.read_zeroRange_of_out _ (by omega)
    · rfl
  · rfl

/-- Tiles that reach their targets leave every other tile alone. -/
theorem Slice.tile_foldl_reach (ts : List Nat) {j : Nat} (h : j ∉ ts) : (ts.foldl Slice.reach sl).tile j = sl.tile j := by
  induction ts generalizing sl with
  | nil => rfl
  | cons t ts ih =>
    rw [List.foldl_cons, ih _ (List.not_mem_of_not_mem_cons h), sl.tile_reach_of_ne (List.ne_of_not_mem_cons h)]

/-- Tiles that reach their targets leave the contents of a tile that is on alone. -/
theorem Slice.read_foldl_reach (ts : List Nat) {a : Nat} (h : sl.tile (a / 65536) = .on) :
    (ts.foldl Slice.reach sl).mem.read a = sl.mem.read a := by
  induction ts generalizing sl with
  | nil => rfl
  | cons t ts ih =>
    rw [List.foldl_cons]
    by_cases ht : a / 65536 = t
    · rw [sl.reach_of_on (ht ▸ h), ih _ h]
    · rw [ih _ ((sl.tile_reach_of_ne ht).trans h), sl.read_reach_of_ne ht]

/-! ### C2 and C3 -/

/-- In C2 the tiles that were on, or on their way to on, are in retention, and no other tile has changed. -/
theorem Slice.tile_enterC2 {i : Nat} (hi : i < 32) :
    sl.enterC2.tile i = if (sl.tile i).turnsOn then .retention else sl.tile i := by
  have hmem : i ∈ (List.range 32).filter (fun i => (sl.tile i).turnsOn) ↔ (sl.tile i).turnsOn = true := by simp [hi]
  unfold Slice.enterC2
  refine (Tab.get_foldl_set _ _ _ _ i).trans ?_
  simp only [hmem]
  split
  · rfl
  · next h => exact sl.tile_foldl_reach _ (mt hmem.1 h)

/-- A tile that was on keeps its contents in C2. -/
theorem Slice.read_enterC2 {a : Nat} (h : sl.tile (a / 65536) = .on) : sl.enterC2.mem.read a = sl.mem.read a :=
  sl.read_foldl_reach _ h

/-- In C3 every tile is off. -/
theorem Slice.tile_allOff {i : Nat} (hi : i < 32) : sl.allOff.tile i = .off := by
  have h : ∀ i < 32, Tab.get TileState.on ((List.range 32).map fun t => (t, TileState.off)) i = .off := by decide
  exact h i hi

end

/-! ### CORE_POWER_STATE_REACHED (R402, R405) -/

theorem exec_corePowerStateReached (p : Nat) (s : State) :
    exec (.corePowerStateReached p) s = execCorePowerStateReached p s := rfl

/-- A panel notes that its cores were in C3. -/
def State.notesSleep (s : State) (k n : Nat) : State := if n = 3 then s.modPanel k (fun pn => { pn with slept := true }) else s

theorem State.core_notesSleep (s : State) (k n q : Nat) : (s.notesSleep k n).core q = s.core q := by
  unfold State.notesSleep
  split <;> rfl

/-- A panel whose last core has left C3 no longer takes its turn; only the governor notes it. -/
theorem State.stopsWaking_frame (s : State) (k : Nat) :
    ∃ gov, (if s.leavesC3 k then s else { s with gov := { s.gov with waking := s.gov.waking.filter (fun j => decide (j ≠ k)) } }) =
      { s with gov := gov } := by
  split <;> exact ⟨_, rfl⟩

/-- A core between steps, whose turn it is, applies the state that is asked for. -/
theorem corePowerStateReached_eq {s : State} {p k n : Nat} (hc : s.clocked p = true) (hk : (s.core p).panel = some k)
    (hn : (s.core p).cTarget = some n) (hr : ∀ st, (s.panel k).running = some st → st.handed = 0)
    (h3 : (s.core p).cState ≠ 3 ∨ s.mayLeaveC3 p = true) :
    ∃ gov, exec (.corePowerStateReached p) s =
      .next (State.notesSleep { s.modCore p (fun c => c.applyState n) with gov := gov } k n) := by
  have hidle : (s.panel k).running.any (fun st => decide (st.handed ≠ 0)) = false := by
    cases h : (s.panel k).running with
    | none => rfl
    | some st => simp [hr st h]
  have hturn : ¬ ((s.core p).cState = 3 ∧ (!s.mayLeaveC3 p) = true) := by
    rcases h3 with h | h <;> simp [h]
  obtain ⟨gov, hg⟩ := (s.modCore p fun c => c.applyState n).stopsWaking_frame k
  refine ⟨gov, ?_⟩
  rw [exec_corePowerStateReached, execCorePowerStateReached, hk, hn]
  dsimp only
  rw [hc, hidle, if_neg (by simp), if_neg hturn]
  exact congrArg (fun u : State => (Host.Outcome.next (u.notesSleep k n) : Answer)) hg

/-- What a core's new power state does to its slice, as the states that it leaves and enters say (R169, R405). -/
theorem Core.applyState_slice (c : Core) (n : Nat) :
    (n = 2 → c.cState ≤ 1 → (c.applyState n).slice = c.slice.enterC2) ∧
    (c.cState = 2 → n ≤ 1 → (c.applyState n).slice = c.slice.leaveC2) ∧
    (c.cState = 3 → n ≤ 1 → (c.applyState n).slice = c.slice.leaveC3) ∧
    (n = 3 → ∃ sl : Slice, (c.applyState n).slice = sl.allOff) := by
  unfold Core.applyState
  refine ⟨fun hn hc => ?_, fun hc hn => ?_, fun hc hn => ?_, fun hn => ?_⟩
  · simp [hn, show ¬ 2 = c.cState by omega, show c.cState ≠ 3 by omega, show c.cState ≠ 2 by omega]
  · simp [hc, show n ≠ 2 by omega, show n ≠ 3 by omega]
  · simp [hc, show n ≠ 2 by omega, show n ≠ 3 by omega]
  · exact ⟨_, if_pos hn⟩

/-- A core reaches the state that is asked for, alone, with its tiles as R169 says. -/
theorem corePowerStateReached_reaches {s : State} {p k n : Nat} (hc : s.clocked p = true) (hk : (s.core p).panel = some k)
    (hn : (s.core p).cTarget = some n) (hr : ∀ st, (s.panel k).running = some st → st.handed = 0)
    (h3 : (s.core p).cState ≠ 3 ∨ s.mayLeaveC3 p = true) :
    ∃ t, exec (.corePowerStateReached p) s = .next t ∧ (t.core p).cState = n ∧ (t.core p).cTarget = none ∧
      (t.core p).seq = (s.core p).seq ∧ (∀ q, q ≠ p → t.core q = s.core q) ∧
      (n = 2 → (s.core p).cState ≤ 1 →
        (∀ i < 32, (t.core p).slice.tile i =
          if ((s.core p).slice.tile i).turnsOn then .retention else (s.core p).slice.tile i) ∧
        ∀ a, (s.core p).slice.tile (a / 65536) = .on → (t.core p).slice.mem.read a = (s.core p).slice.mem.read a) ∧
      ((s.core p).cState = 2 → n ≤ 1 → (t.core p).slice = (s.core p).slice.leaveC2) ∧
      ((s.core p).cState = 3 → n ≤ 1 → (t.core p).slice = (s.core p).slice.leaveC3) ∧
      (n = 3 → (t.panel k).slept = true ∧ (∀ a, (t.core p).slice.mem.read a = 0) ∧
        ∀ i < 32, (t.core p).slice.tile i = .off) := by
  obtain ⟨gov, hx⟩ := corePowerStateReached_eq hc hk hn hr h3
  have hq (q : Nat) : (State.notesSleep { s.modCore p (fun c => c.applyState n) with gov := gov } k n).core q =
      if q = p then (s.core p).applyState n else s.core q :=
    (State.core_notesSleep _ k n q).trans (State.core_modCore s p q (fun c => c.applyState n))
  obtain ⟨henter, hleave2, hleave3, hoff⟩ := (s.core p).applyState_slice n
  refine ⟨_, hx, ?_⟩
  rw [hq, if_pos rfl]
  refine ⟨rfl, rfl, rfl, fun q h => by rw [hq, if_neg h], fun h2 h1 => ?_, hleave2, hleave3, fun h => ?_⟩
  · rw [henter h2 h1]
    exact ⟨fun i hi => (s.core p).slice.tile_enterC2 hi, fun a ha => (s.core p).slice.read_enterC2 ha⟩
  · obtain ⟨sl, hsl⟩ := hoff h
    rw [hsl]
    refine ⟨?_, fun _ => rfl, fun i hi => sl.tile_allOff hi⟩
    simp [State.notesSleep, h, State.panel_modPanel]

end Sys2Proof.Machine
end

section
/-! PROOFS. What the network leaves alone while waiting packets move on (01 R29, R30), and the FIFOs into running islands. -/

namespace Sys2Proof.Machine

/-! ### Steps of the network -/

/-- From s to t packets of the network moved: the clocks and the pins are as before, and the handshake FIFO into a clocked island is not
filled. -/
structure NetMoves (s t : State) : Prop where
  pins : t.pins = s.pins
  clk : t.clk = { s.clk with fifos := t.clk.fifos }
  fifo : ∀ i, s.clocked i = true → s.fifo i = [] → t.fifo i = []

theorem NetMoves.clocked {s t : State} (h : NetMoves s t) (i : Nat) : t.clocked i = s.clocked i := by
  unfold State.clocked
  rw [h.clk, h.pins]

theorem NetMoves.refl (s : State) : NetMoves s s := ⟨rfl, rfl, fun _ _ h => h⟩

theorem NetMoves.trans {s t u : State} (h : NetMoves s t) (g : NetMoves t u) : NetMoves s u where
  pins := g.pins.trans h.pins
  clk := by rw [g.clk, h.clk]
  fifo i hc hf := g.fifo i (h.clocked i ▸ hc) (h.fifo i hc hf)

theorem NetMoves.foldl {α : Type} {g : State → α → State} (h : ∀ s a, NetMoves s (g s a)) (l : List α) (s : State) :
    NetMoves s (l.foldl g s) := by
  induction l generalizing s with
  | nil => exact .refl s
  | cons a l ih => exact (h s a).trans (ih _)

/-- What keeps the clocks and the pins keeps the FIFOs. -/
theorem NetMoves.of_eq {s t : State} (hp : t.pins = s.pins) (hc : t.clk = s.clk) : NetMoves s t where
  pins := hp
  clk := by rw [hc]
  fifo i _ hf := by rw [State.fifo, hc]; exact hf

/-! ### Packets at port B and in the buffers -/

/-- A packet at port B changes neither the clocks nor the pins (R179). -/
theorem State.deliver_moves (s : State) (slice : Nat) (p : WritePkt) : NetMoves s (s.deliver slice p).2 := by
  unfold State.deliver
  dsimp only
  split_ifs
  · unfold State.noteDropped
    dsimp only
    split <;> exact .of_eq rfl rfl
  all_goals exact .of_eq rfl rfl

theorem State.incoming_moves (s : State) (slice : Nat) (p : WritePkt) (collided : Bool) :
    NetMoves s (s.incoming slice p collided) :=
  (s.deliver_moves slice p).trans (.of_eq rfl rfl)

theorem State.setNetBuf_moves (s : State) (p cls : Nat) (l : List NetPkt) : NetMoves s (s.setNetBuf p cls l) := .of_eq rfl rfl

theorem State.fifo_setFifo (s : State) (p i : Nat) (l : List NetPkt) :
    (s.setFifo p l).fifo i = if i = p then l else s.fifo i := Tab.get_set _ _ _ _ _

/-- A FIFO may be set where its island is not clocked, where it holds packets already, and to nothing. -/
theorem State.setFifo_moves (s : State) (p : Nat) (l : List NetPkt) (h : s.clocked p = true → s.fifo p = [] → l = []) :
    NetMoves s (s.setFifo p l) where
  pins := rfl
  clk := rfl
  fifo i hc hf := by
    rw [State.fifo_setFifo]
    split
    · next hi => subst hi; exact h hc hf
    · exact hf

/-- A packet at its target's island goes to port B, or waits where the island is held or earlier ones do. -/
theorem State.netArrive_moves (s : State) (last : Nat) (n : NetPkt) : NetMoves s (s.netArrive last n) := by
  unfold State.netArrive
  split
  · exact s.incoming_moves _ _ _
  · next h =>
    split
    · exact s.setFifo_moves _ _ fun hc hf => (h (by simp [hc, hf])).elim
    · exact s.setNetBuf_moves _ _ _

theorem State.netGo_moves (s : State) (path : List Nat) (last : Nat) (n : NetPkt) : NetMoves s (s.netGo path last n) := by
  induction path generalizing last with
  | nil => exact s.netArrive_moves last n
  | cons p rest ih =>
    unfold State.netGo
    split
    · exact ih p
    · exact s.setNetBuf_moves _ _ _

theorem State.drainBuf_moves (s : State) (n p cls : Nat) : NetMoves s (s.drainBuf n p cls) := by
  induction n generalizing s with
  | zero => exact .refl s
  | succ n ih =>
    unfold State.drainBuf
    split
    · exact .refl s
    · split
      · exact ((s.setNetBuf_moves _ _ _).trans (State.netGo_moves _ _ _ _)).trans (ih _)
      · exact .refl s

/-! ### FIFOs drain -/

theorem State.commitIngress_moves (s : State) (p : Nat) : NetMoves s (s.commitIngress p) := by
  have h : NetMoves s (s.modSlice p fun sl => { sl with ingress := [] }) := .of_eq rfl rfl
  exact h.trans (.foldl (fun s k => s.incoming_moves p k false) _ _)

/-- The packets of a FIFO cross into its island, which is clocked, and the FIFO is empty. -/
theorem State.drainFifo_spec (s : State) (p : Nat) :
    NetMoves s (s.drainFifo p) ∧ (s.clocked p = true → (s.drainFifo p).fifo p = []) := by
  have hset (u : State) : NetMoves u (u.setFifo p []) := u.setFifo_moves p [] fun _ _ => rfl
  unfold State.drainFifo
  split
  · next h =>
    have hslice : NetMoves s (s.modSlice p fun sl =>
        { sl with ingress := (sl.ingress ++ (s.fifo p).map NetPkt.pkt).take 16 }) := .of_eq rfl rfl
    have hin := (hslice.trans (hset _)).trans (State.commitIngress_moves _ p)
    refine ⟨hin, fun hc => (State.commitIngress_moves _ p).fifo p (((hslice.trans (hset _)).clocked p).trans hc) ?_⟩
    rw [State.fifo_setFifo, if_pos rfl]
  · next h => exact ⟨.refl s, fun hc => by simpa [hc] using h⟩

/-- After the FIFOs of some islands drained, the one into a clocked island is empty, if it was drained or empty before. -/
theorem State.fifo_foldl_drainFifo (ps : List Nat) (s : State) {i : Nat} (hc : s.clocked i = true) (h : i ∈ ps ∨ s.fifo i = []) :
    (ps.foldl (fun s p => s.drainFifo p) s).fifo i = [] := by
  induction ps generalizing s with
  | nil => exact h.resolve_left (by simp)
  | cons p ps ih =>
    obtain ⟨hm, hp⟩ := s.drainFifo_spec p
    refine ih _ ((hm.clocked i).trans hc) ?_
    rcases h with h | h
    · rcases List.mem_cons.1 h with rfl | h
      · exact .inr (hp hc)
      · exact .inl h
    · exact .inr (hm.fifo i hc h)

/-- A FIFO that holds a packet is listed. -/
theorem State.mem_keys_or_fifo_nil (s : State) (i : Nat) : i ∈ Tab.keys s.clk.fifos ∨ s.fifo i = [] := by
  cases h : Tab.find s.clk.fifos i with
  | none => exact .inr (by rw [State.fifo, Tab.get, h]; rfl)
  | some l => exact .inl (List.mem_map.2 ⟨_, Tab.mem_of_find h, rfl⟩)

/-- With nothing waiting in the network every FIFO is empty. -/
theorem State.fifo_of_netWaiting {s : State} (h : s.netWaiting = 0) (i : Nat) : s.fifo i = [] := by
  unfold State.fifo Tab.get
  cases hf : Tab.find s.clk.fifos i with
  | none => rfl
  | some l =>
    have hz : (s.clk.fifos.map fun e => e.2.length).sum = 0 := by unfold State.netWaiting at h; omega
    have := List.sum_eq_zero_iff.1 hz l.length (List.mem_map.2 ⟨_, Tab.mem_of_find hf, rfl⟩)
    exact List.eq_nil_of_length_eq_zero this

/-! ### The network resumes -/

/-- The buffers of every router drain, class 0 first. -/
def State.drainBufs (s : State) : State :=
  (Tab.keys s.net).foldl (fun s p => [3, 2, 1, 0].foldl (fun s cls => s.drainBuf (s.netBuf p cls).length p cls) s) s

theorem State.drainBufs_moves (s : State) : NetMoves s s.drainBufs :=
  .foldl (fun s p => .foldl (fun s cls => s.drainBuf_moves _ p cls) _ s) _ s

theorem State.netDrain_succ (s : State) (n : Nat) :
    s.netDrain (n + 1) = if s.netWaiting = 0 then s
      else (((Tab.keys s.clk.fifos).foldl (fun s p => s.drainFifo p) s).drainBufs).netDrain n := rfl

theorem State.netDrain_moves (s : State) (n : Nat) : NetMoves s (s.netDrain n) := by
  induction n generalizing s with
  | zero => exact .refl s
  | succ n ih =>
    rw [State.netDrain_succ]
    split
    · exact .refl s
    · exact ((NetMoves.foldl (fun s p => (s.drainFifo_spec p).1) _ s).trans (State.drainBufs_moves _)).trans (ih _)

/-- The first round empties the FIFO into every clocked island, and later rounds leave it empty. -/
theorem State.netDrain_fifo (s : State) (n : Nat) {i : Nat} (hc : s.clocked i = true) : (s.netDrain (n + 1)).fifo i = [] := by
  rw [State.netDrain_succ]
  split
  · next h => exact State.fifo_of_netWaiting h i
  · have h1 := NetMoves.foldl (fun s p => (State.drainFifo_spec s p).1) (Tab.keys s.clk.fifos) s
    have h2 := (State.drainBufs_moves ((Tab.keys s.clk.fifos).foldl (fun s p => s.drainFifo p) s)).trans (State.netDrain_moves _ n)
    exact h2.fifo i ((h1.clocked i).trans hc) (State.fifo_foldl_drainFifo _ s hc (s.mem_keys_or_fifo_nil i))

theorem State.netResume_moves (s : State) : NetMoves s s.netResume := s.netDrain_moves _

theorem State.netResume_of_empty {s : State} (h : s.netWaiting = 0) : s.netResume = s := by
  rw [State.netResume, h]
  rfl

/-- Once the network has gone on, the packets that a clocked island's FIFO held have crossed into it (R30). -/
theorem State.netResume_fifo {s : State} {i : Nat} (hc : s.clocked i = true) : s.netResume.fifo i = [] := by
  rcases Nat.eq_zero_or_pos s.netWaiting with h | h
  · rw [State.netResume_of_empty h]
    exact State.fifo_of_netWaiting h i
  · obtain ⟨n, hn⟩ := Nat.exists_eq_add_of_lt (Nat.mul_pos (show 0 < 26 by omega) h)
    rw [State.netResume, hn, Nat.zero_add]
    exact s.netDrain_fifo n hc

end Sys2Proof.Machine
end

section
/-! PROOFS. Power states and island clocks (01 R29, R30; 15 R401, R402, R405, R410). -/

namespace Sys2Proof.Machine

/-! ### The meaning of each command -/

theorem exec_modulePowerStateReached (s : State) : exec .modulePowerStateReached s = execModulePowerStateReached s := rfl
theorem exec_clockHold (i : Nat) (s : State) : exec (.clockHold i) s = execClockHold i s := rfl
theorem exec_clockResume (i : Nat) (s : State) : exec (.clockResume i) s = execClockResume i s := rfl
theorem exec_islandGroupPowerUp (s : State) : exec .islandGroupPowerUp s = execIslandGroupPowerUp s := rfl
theorem exec_thermalTrip (s : State) : exec .thermalTrip s = execThermalTrip s := rfl

/-! ### The module's states (R405) -/

theorem State.mscDrop_hbm (s : State) (line : Nat) (back : Bool) : (s.mscDrop line back).hbm = s.hbm := by
  unfold State.mscDrop
  split
  · rfl
  · dsimp only
    split <;> rfl

/-- A line that is dropped stands in the cache no more, and every other line stays. -/
theorem State.mscDrop_find (s : State) (line j : Nat) (back : Bool) :
    Tab.find (s.mscDrop line back).msc.lines j = if j = line then none else Tab.find s.msc.lines j := by
  unfold State.mscDrop
  split
  · next h =>
    split
    · next hj => rw [hj, h]
    · rfl
  · dsimp only
    split <;> exact Tab.find_erase _ _ _

/-- Lines that are written back leave the cache, and HBM's contents, the governor and the cores stay. -/
theorem State.foldl_mscDrop_frame (ls : List Nat) (s : State) :
    (ls.foldl (fun s l => s.mscDrop l true) s).gov = s.gov ∧ (ls.foldl (fun s l => s.mscDrop l true) s).hbm = s.hbm ∧
      (ls.foldl (fun s l => s.mscDrop l true) s).cores = s.cores ∧
      ∀ j, Tab.find (ls.foldl (fun s l => s.mscDrop l true) s).msc.lines j = if j ∈ ls then none else Tab.find s.msc.lines j := by
  induction ls generalizing s with
  | nil => exact ⟨rfl, rfl, rfl, fun j => by simp⟩
  | cons l ls ih =>
    obtain ⟨hg, hh, hc, hf⟩ := ih (s.mscDrop l true)
    have ho := s.mscDrop_only l true
    refine ⟨hg.trans ho.gov, hh.trans (s.mscDrop_hbm l true), hc.trans ho.cores, fun j => ?_⟩
    rw [List.foldl_cons, hf, State.mscDrop_find]
    by_cases hj : j ∈ ls <;> by_cases hl : j = l <;> simp [hj, hl]

/-- The module waits for its cores. -/
theorem modulePowerStateReached_waits {s : State} {m : MState} (hm : s.gov.mTarget = some m) (hd : s.coresDeep m = false) :
    exec .modulePowerStateReached s = .next s := by
  rw [exec_modulePowerStateReached, execModulePowerStateReached, hm]
  simp [hd]

/-- The module reaches its state once its cores are as deep as that needs; M-PARK leaves no line in the cache. -/
theorem modulePowerStateReached_reaches {s : State} {m : MState} (ho : s.islandOn 244 = true) (hm : s.gov.mTarget = some m)
    (hd : s.coresDeep m = true) :
    ∃ t, exec .modulePowerStateReached s = .next t ∧ t.gov = { s.gov with mState := m, mTarget := none } ∧
      (m = .park → ∀ l, Tab.find t.msc.lines l = none) ∧ (m ≠ .park → t.msc = s.msc) ∧ t.hbm = s.hbm ∧ t.cores = s.cores := by
  rw [exec_modulePowerStateReached, execModulePowerStateReached, hm]
  simp only [ho, hd, Bool.not_true, Bool.or_false, Bool.false_eq_true, if_false]
  by_cases hp : m = .park
  · rw [if_pos hp]
    obtain ⟨hg, hh, hc, hf⟩ := State.foldl_mscDrop_frame (Tab.keys s.msc.lines)
      { s with gov := { s.gov with mState := m, mTarget := none } }
    refine ⟨_, rfl, hg, fun _ l => (hf l).trans ?_, fun h => (h hp).elim, hh, hc⟩
    split
    · rfl
    · next hl =>
      cases hfind : Tab.find s.msc.lines l with
      | none => rfl
      | some v => exact (hl (List.mem_map.2 ⟨_, Tab.mem_of_find hfind, rfl⟩)).elim
  · rw [if_neg hp]
    exact ⟨_, rfl, rfl, fun h => (hp h).elim, fun _ => rfl, rfl, rfl⟩

/-! ### Clocks of islands (R29, R30) -/

/-- An island holds its clock, with its event. -/
theorem clockHold_holds {s : State} (hd : s.pins.dieOn = true) {i : Nat} (hi : i < 256) (hh : s.clk.held.contains i = false) :
    ∃ t, exec (.clockHold i) s = .next t ∧ t.clk.held = s.clk.held ++ [i] ∧ t.mgt.events = (s.event 0x7001).mgt.events ∧
      t.cores = s.cores ∧ (i < 160 → t.clocked i = false) := by
  rw [exec_clockHold, execClockHold, hd, hh, if_pos (by simp [hi])]
  refine ⟨_, rfl, rfl, rfl, rfl, fun _ => ?_⟩
  simp [State.clocked]

/-- The clock of an island runs again. -/
def State.restarts (s : State) (i : Nat) : State :=
  { s with clk := { s.clk with held := s.clk.held.filter (fun j => decide (j ≠ i)) } }

/-- An island resumes, and what its neighbours held for it has moved on. -/
theorem clockResume_resumes {s : State} (hd : s.pins.dieOn = true) {i : Nat} (hh : s.clk.held.contains i = true) :
    ∃ t, exec (.clockResume i) s = .next t ∧ (∀ j, j ∈ t.clk.held ↔ j ∈ s.clk.held ∧ j ≠ i) ∧
      (s.netWaiting = 0 → t = { s with clk := t.clk }) ∧ (t.clocked i = true → t.fifo i = []) := by
  have hx : exec (.clockResume i) s = .next (s.restarts i).netResume := by
    rw [exec_clockResume, execClockResume, hd, hh]
    rfl
  have hm := (s.restarts i).netResume_moves
  refine ⟨_, hx, fun j => ?_, fun h => ?_, fun hc => ?_⟩
  · rw [hm.clk]
    simp [State.restarts]
  · rw [State.netResume_of_empty (s := s.restarts i) h]
    rfl
  · exact State.netResume_fifo ((hm.clocked i).symm.trans hc)

/-! ### Power-up and the loss of power (R401, R410) -/

/-- The next group of islands powers up. -/
theorem islandGroupPowerUp_next {s : State} (hd : s.pins.dieOn = true) (hb : s.mgt.bootStage = 4) (hg : s.clk.groupsUp < 31) :
    exec .islandGroupPowerUp s = .next { s with clk := { s.clk with groupsUp := s.clk.groupsUp + 1 } } := by
  rw [exec_islandGroupPowerUp, execIslandGroupPowerUp, hd, hb, if_neg (by simp; omega)]
  dsimp only
  rw [if_neg (by omega)]

/-- After the last group a module without a chain address is in HOLD with cause 7 (log entry 38). -/
theorem islandGroupPowerUp_last {s : State} (hd : s.pins.dieOn = true) (hb : s.mgt.bootStage = 4) (hg : s.clk.groupsUp = 31)
    (ha : s.mgt.chainAddr = none) :
    ∃ t, exec .islandGroupPowerUp s = .next t ∧ t.clk.groupsUp = 32 ∧ t.mgt.state = .hold ∧ t.mgt.holdCause = 7 := by
  rw [exec_islandGroupPowerUp, execIslandGroupPowerUp, hd, hb, hg, if_neg (by simp)]
  dsimp only
  rw [if_pos rfl, State.bootLinks]
  dsimp only
  rw [ha]
  exact ⟨_, rfl, rfl, rfl, rfl⟩

/-- A retired core after the loss of power: held off like a spare. -/
def retiredAtReset (spares : List Nat) (p : Nat) : Core := { coreAtReset (p :: spares) p with retired := true }

/-- Every slice is empty once the die lost power. -/
theorem State.losePower_mem (s : State) (p : Nat) : (s.losePower.core p).slice.mem = [] := by
  have hf : Tab.find s.losePower.cores p = if p ∈ s.rel.retired then some (retiredAtReset s.pins.spares p) else none :=
    Tab.find_foldl_set (retiredAtReset s.pins.spares) _ [] p
  rw [State.core, hf]
  split <;> exact coreAtReset_mem _ _

/-- A thermal trip takes the power of the dies; flash, fuses and the event log stay. -/
theorem thermalTrip_trips {s : State} (hd : s.pins.dieOn = true) :
    ∃ t, exec .thermalTrip s = .next t ∧ t.pins.dieOn = false ∧ t.pins.pwrgd = false ∧ t.pins.standby = s.pins.standby ∧
      t.hbm.mem = [] ∧ (∀ p a, (t.core p).slice.mem.read a = 0) ∧ t.mgt.fwA = s.mgt.fwA ∧ t.mgt.fwB = s.mgt.fwB ∧
      t.mgt.config = s.mgt.config ∧ t.mgt.events = s.mgt.events ∧ t.sec.lifecycle = s.sec.lifecycle ∧
      t.sec.ownerHash = s.sec.ownerHash ∧ (∀ i, (t.slot i).material = 0) := by
  have hx : exec .thermalTrip s = .next s.losePower := (exec_thermalTrip s).trans (if_pos hd)
  refine ⟨_, hx, rfl, rfl, rfl, rfl, fun p a => ?_, rfl, rfl, rfl, rfl, rfl, rfl, fun _ => rfl⟩
  rw [State.losePower_mem]
  rfl

/-! ### The obligation -/

/-- Settles O40, clause by clause: what a core's new power state does to its tiles, the cache that M-PARK empties, the FIFO that a
resumed island has drained, and what the loss of the dies' power keeps. -/
theorem powerStatesAndClocks : Obligations.PowerStatesAndClocks := by
  unfold Obligations.PowerStatesAndClocks
  intro s hd
  refine ⟨fun p k n hc hk hn _ hr h3 => corePowerStateReached_reaches hc hk hn hr h3,
    fun m _ hm hdeep => modulePowerStateReached_waits hm hdeep,
    fun m ho hm hdeep => modulePowerStateReached_reaches ho hm hdeep,
    fun i hi hh => clockHold_holds hd hi hh, fun i hh => clockResume_resumes hd hh,
    fun hb hg => islandGroupPowerUp_next hd hb hg, fun hb hg ha => islandGroupPowerUp_last hd hb hg ha, thermalTrip_trips hd⟩

end Sys2Proof.Machine
end

section
/-! PROOFS. What an issue window comes to (04 R117 to R119), and the reads of a core whose slice has nothing to show (06 R163, R165). -/

namespace Sys2Proof.Machine

/-! ### The cycles of a window (R117 to R119) -/

/-- Within a window one more admission is permitted in just the permitted cycles. -/
theorem permittedCycle_count {l : Nat} (hl : l ≤ 64) (c : Nat) :
    (c + 1) * l / 64 = c * l / 64 + if permittedCycle l c then 1 else 0 := by
  have hmul : (c + 1) * l = c * l + l := Nat.succ_mul c l
  simp only [permittedCycle, decide_eq_true_eq, hmul]
  split <;> omega

section
variable {l f avail : Nat} {held : Bool} {ready : W64}

/-- Under a hold a cycle admits nothing. -/
theorem windowCycle_held (w : Window64) (c : Nat) :
    (windowCycle l f true ready avail w c).real = w.real ∧ (windowCycle l f true ready avail w c).dead = w.dead := by
  simp only [windowCycle, Bool.not_true, Bool.and_false, Bool.false_and, Bool.false_eq_true, if_false]
  split <;> exact ⟨rfl, rfl⟩

/-- Without a hold a permitted cycle takes a real row while one is left, and then a dead row until the fill is reached. -/
theorem windowCycle_free (w : Window64) (c : Nat) (hr : ready.getLsbD c = true ∨ avail = 0) :
    (windowCycle l f false ready avail w c).real = w.real + (if permittedCycle l c = true ∧ w.real < avail then 1 else 0) ∧
    (windowCycle l f false ready avail w c).dead =
      w.dead + (if permittedCycle l c = true ∧ ¬ w.real < avail ∧ w.real + w.dead < f then 1 else 0) := by
  have hready : (ready.getLsbD c && decide (w.real < avail)) = decide (w.real < avail) := by
    rcases hr with h | h <;> simp [h]
  rw [windowCycle, hready]
  by_cases hp : permittedCycle l c = true <;> by_cases ha : w.real < avail <;> by_cases hf : w.real + w.dead < f <;>
    simp [hp, ha, hf]

/-- The first n cycles of a window in which every row is ready, or none: the permitted cycles take real rows while there are any, and dead
rows then until the fill is reached. -/
theorem windowCycles_eq (hl : l ≤ 64) (n : Nat) (hr : ∀ c < n, ready.getLsbD c = true ∨ avail = 0) :
    ((List.range n).foldl (windowCycle l f held ready avail) {}).real = (if held then 0 else min (n * l / 64) avail) ∧
    ((List.range n).foldl (windowCycle l f held ready avail) {}).dead =
      if held then 0 else min f (n * l / 64) - min (n * l / 64) avail := by
  induction n with
  | zero => simp
  | succ n ih =>
    obtain ⟨hreal, hdead⟩ := ih fun c hc => hr c (by omega)
    rw [List.range_succ, List.foldl_append, List.foldl_cons, List.foldl_nil]
    cases held with
    | true =>
      obtain ⟨h1, h2⟩ := windowCycle_held (l := l) (f := f) (avail := avail) (ready := ready)
        ((List.range n).foldl (windowCycle l f true ready avail) {}) n
      exact ⟨h1.trans hreal, h2.trans hdead⟩
    | false =>
      obtain ⟨h1, h2⟩ := windowCycle_free (l := l) (f := f) ((List.range n).foldl (windowCycle l f false ready avail) {}) n
        (hr n (by omega))
      rw [h1, h2, hreal, hdead, permittedCycle_count hl]
      simp only [Bool.false_eq_true, if_false]
      generalize n * l / 64 = k
      by_cases hp : permittedCycle l n = true
      · simp only [hp, true_and, if_true]
        split_ifs <;> omega
      · simp [hp]

/-- A window of 64 cycles in which every row is ready, or none. -/
theorem windowOf_eq (hl : l ≤ 64) (hr : ∀ c < 64, ready.getLsbD c = true ∨ avail = 0) :
    (windowOf l f held ready avail).real = (if held then 0 else min l avail) ∧
    (windowOf l f held ready avail).dead = if held then 0 else min f l - min l avail := by
  have h := windowCycles_eq (f := f) (held := held) hl 64 hr
  rwa [show 64 * l / 64 = l by omega] at h

/-- An array without rows has none refused. -/
theorem windowOf_refused : (windowOf l f held ready 0).refused = 0 := by
  unfold windowOf
  generalize List.range 64 = cs
  suffices ∀ w : Window64, w.refused = 0 → (cs.foldl (windowCycle l f held ready 0) w).refused = 0 from this {} rfl
  induction cs with
  | nil => exact fun _ h => h
  | cons c cs ih =>
    refine fun w h => ih _ ?_
    simp only [windowCycle, Nat.not_lt_zero, decide_false, Bool.and_false, Bool.false_eq_true, if_false]
    split <;> exact h

end

/-! ### States with the same cores -/

/-- From s to t no core changed, nor anything else. -/
structure SameCores (s t : State) : Prop where
  eq : t = { s with cores := t.cores }
  core : ∀ q, t.core q = s.core q

theorem SameCores.counter {s t : State} (h : SameCores s t) (j : Nat) : t.counter j = s.counter j := by rw [h.eq]; rfl

theorem SameCores.hbm {s t : State} (h : SameCores s t) : t.hbm = s.hbm := by rw [h.eq]

theorem State.modCore_same {s : State} {p : Nat} {f : Core → Core} (h : f (s.core p) = s.core p) : SameCores s (s.modCore p f) where
  eq := rfl
  core q := by
    rw [State.core_modCore]
    split
    · next hq => rw [hq, h]
    · rfl

theorem State.modSlice_same {s : State} {p : Nat} {f : Slice → Slice} (h : f (s.core p).slice = (s.core p).slice) :
    SameCores s (s.modSlice p f) := State.modCore_same (by rw [h])

/-! ### Reads that find nothing and met nothing -/

/-- Reads that find no error in a slice without correctable ones change nothing (R165). -/
theorem State.readWords_same {s : State} {p : Nat} (h : (s.core p).slice.weak = []) (rs : List (Nat × Nat)) :
    SameCores s (s.readWords p rs []) := by
  have hs : SameCores s (s.modSlice p fun sl => sl.found []) := State.modSlice_same rfl
  have hx : s.readWords p rs [] = s.modSlice p fun sl => sl.found [] := by
    refine if_pos (?_ : ((s.modSlice p fun sl => sl.found []).core p).slice.weak.isEmpty = true)
    rw [hs.core, h]
    rfl
  rwa [hx]

theorem Slice.showWords_of_nil {sl : Slice} (h : sl.kept = []) : sl.showWords = sl := by
  cases sl
  cases h
  rfl

/-- Where no read met a collision, before and after, the words are what they are (R163). -/
theorem State.withFreeReads_same {s : State} {p : Nat} {f : State → State} (h : (s.core p).slice.undefReads = [])
    (hf : ((f s).core p).slice.undefReads = []) (hk : ((f s).core p).slice.kept = []) (rs : List (Nat × Nat)) :
    SameCores (f s) (s.withFreeReads p rs f) := by
  have hshow : SameCores (f s) ((f s).modSlice p Slice.showWords) := State.modSlice_same (Slice.showWords_of_nil hk)
  have hws (g : Nat → Bool) : ((s.core p).slice.undefReads.filter g).dedup = [] := by rw [h]; rfl
  unfold State.withFreeReads
  dsimp only
  rw [hws, show s.hideWords p [] = s from rfl]
  have hlast (g : Slice → List Nat) (hg : g ((f s).core p).slice = []) :
      SameCores ((f s).modSlice p Slice.showWords)
        (((f s).modSlice p Slice.showWords).modSlice p fun sl => { sl with undefReads := g sl }) := by
    refine State.modSlice_same ?_
    rw [hshow.core, hg, ← hf]
  refine ⟨?_, fun q => ?_⟩
  · rfl
  · refine Eq.trans ((hlast _ ?_).core q) (hshow.core q)
    rw [hf]
    exact ite_self _

end Sys2Proof.Machine
end

section
/-! PROOFS. The rows that a window admits of one MMS (04 R104 to R106, R116; 02 R55, R56). -/

namespace Sys2Proof.Machine

/-! ### One row -/

/-- Row r, multiplied through a plane. -/
def rowProduct (sl : Slice) (a : MxActive) (o : MmsOps) (pl : Plane) (r : Nat) : List W32 :=
  rowResults pl (mapInput sl a.inMap o.inAddr.toNat r (denseK pl.fmt.toNat pl.sparse))

/-- The accumulator row of input row r. -/
def accAt (o : MmsOps) (r : Nat) : Nat := (o.accBase.toNat + r) % 512

/-- The array with row r written or added into its accumulator row. -/
def Matrix.addsRow (sl : Slice) (a : MxActive) (o : MmsOps) (pl : Plane) (m : Matrix) (r : Nat) : Matrix :=
  m.setAcc (accAt o r) (accumulate o.clear (m.accRow (accAt o r)) (rowProduct sl a o pl r))

/-- The array whose one active instruction, an MMS, took row r. -/
def Matrix.takesRow (sl : Slice) (a : MxActive) (o : MmsOps) (pl : Plane) (m : Matrix) (r : Nat) : Matrix :=
  { m.addsRow sl a o pl r with active := m.active.modify 0 (fun b => { b with nextRow := r + 1 }), busy := true }

/-- The module whose core p has an array that took row r. -/
def State.takesRow (p : Nat) (a : MxActive) (o : MmsOps) (pl : Plane) (s : State) (r : Nat) : State :=
  ((mmsRow p a o pl s r).modActive p 0 (fun b => { b with nextRow := r + 1 })).modCore p
    (fun c => { c with mx := { c.mx with busy := true } })

/-- A change of a core is what it makes of the core that stands. -/
theorem State.modCore_congr {s : State} {p : Nat} {f g : Core → Core} (h : f (s.core p) = g (s.core p)) :
    s.modCore p f = s.modCore p g := congrArg (s.setCore p) h

/-- A counter after a counter is raised, as a sum. -/
theorem State.counter_count_add (s : State) (off n j : Nat) :
    (s.count off n).counter j = s.counter j + if j = off then BitVec.ofNat 64 n else 0 := by
  rw [State.counter_count]
  split
  · next h => rw [h]
  · exact (BitVec.add_zero _).symm

/-- A row that the array may read. -/
def mayRead (sl : Slice) (a : MxActive) (o : MmsOps) (pl : Plane) (r : Nat) : Prop :=
  sl.portCheck (mapRanges a.inMap o.inAddr.toNat r (denseK pl.fmt.toNat pl.sparse)) [] = .ok

/-- Ranges that lie in tiles that are on, without an uncorrectable word, may be read. -/
theorem Slice.portCheck_ok {sl : Slice} {rs : List (Nat × Nat)} (hon : ∀ r ∈ rs, sl.rangeOn r.1 r.2 = true)
    (hbad : ∀ r ∈ rs, sl.badIn r.1 r.2 = none) : sl.portCheck rs [] = .ok := by
  rw [Slice.portCheck, if_pos (by simpa using fun a b h => hon (a, b) h), List.findSome?_eq_none_iff.2 hbad]

section
variable {p : Nat} {a : MxActive} {o : MmsOps} {pl : Plane} (hz : o.zrow = false) (hd : o.dthru = false) (hl : pl.state = .loaded)
include hz hd hl

/-- A row of an MMS without zero rows and without drain-through goes into its accumulator row, and counts. -/
theorem mmsRow_eq (s : State) (r : Nat) : ∃ n, mmsRow p a o pl s r =
    ((s.modCore p fun c => { c with mx := c.mx.addsRow c.slice a o pl r }).count (coreReg p 0x1100) 1).count
      (coreReg p 0x1118) n := by
  refine ⟨gatedGroups pl (mapInput (s.core p).slice a.inMap o.inAddr.toNat r (denseK pl.fmt.toNat pl.sparse)), ?_⟩
  unfold mmsRow
  simp only [zrowFlag, hz, hd, hl, Bool.false_and, Bool.false_eq_true, if_false, reduceCtorEq]
  exact congrArg (fun u : State => (u.count _ _).count _ _) (State.modCore_congr rfl)

/-- A row changes its core's array, and of the counters that of the rows and that of gated groups. -/
theorem State.takesRow_spec (s : State) (r : Nat) :
    (∀ q, (s.takesRow p a o pl r).core q =
      if q = p then { s.core p with mx := (s.core p).mx.takesRow (s.core p).slice a o pl r } else s.core q) ∧
    (s.takesRow p a o pl r).hbm = s.hbm ∧
    ∀ j, j ≠ coreReg p 0x1118 →
      (s.takesRow p a o pl r).counter j = s.counter j + if j = coreReg p 0x1100 then 1 else 0 := by
  obtain ⟨n, hx⟩ := mmsRow_eq (p := p) (a := a) hz hd hl s r
  unfold State.takesRow State.modActive
  rw [hx]
  refine ⟨fun q => ?_, rfl, fun j hj => ?_⟩
  · simp only [State.core_modCore, State.core_count]
    split
    · rfl
    · rfl
  · refine (State.counter_count _ _ _ _).trans ?_
    rw [if_neg hj, State.counter_count_add]
    rfl

/-- A row that the array may read is admitted while the window has one left. -/
theorem mmsAdmit_takes (rows : Nat) {u : RowRun} {r : Nat} (hs : u.stop = false) (hleft : u.left ≠ 0)
    (hok : mayRead (u.s.core p).slice a o pl r) :
    mmsAdmit p 0 a o pl rows u r = { u with s := u.s.takesRow p a o pl r, left := u.left - 1 } := by
  have hreal : (decide (pl.state = .loaded) && !zrowFlag (u.s.core p).slice o r) = true := by simp [zrowFlag, hz, hl]
  have hrg : mmsRanges a o pl (u.s.core p).slice r =
      (mapRanges a.inMap o.inAddr.toNat r (denseK pl.fmt.toNat pl.sparse), []) := by
    simp [mmsRanges, zrowFlag, hz, hd, hl]
  unfold mayRead at hok
  unfold mmsAdmit
  dsimp only
  rw [hreal, hrg, hok, if_neg (by simpa [hs] using hleft)]
  rfl

omit hd in
/-- A window that has no row left admits none. -/
theorem foldl_mmsAdmit_stops (rows : Nat) (rs : List Nat) {u : RowRun} (h : u.stop = true ∨ u.left = 0) :
    (rs.foldl (mmsAdmit p 0 a o pl rows) u).s = u.s ∧ (rs.foldl (mmsAdmit p 0 a o pl rows) u).bad = u.bad := by
  induction rs generalizing u with
  | nil => exact ⟨rfl, rfl⟩
  | cons r rs ih =>
    have hstop : mmsAdmit p 0 a o pl rows u r = { u with stop := true } := by
      refine if_pos ?_
      rcases h with h | h <;> simp [h, hl, zrowFlag, hz]
    rw [List.foldl_cons, hstop]
    exact ih (.inl rfl)

/-! ### The rows of a window -/

/-- The array may read the rows from `lo` on: it admits as many as the window has left. -/
theorem foldl_mmsAdmit (rows len : Nat) {lo : Nat} {u : RowRun} (hs : u.stop = false)
    (hok : ∀ r ∈ List.range' lo len, mayRead (u.s.core p).slice a o pl r) :
    ((List.range' lo len).foldl (mmsAdmit p 0 a o pl rows) u).s =
      (List.range' lo (min u.left len)).foldl (State.takesRow p a o pl) u.s ∧
    ((List.range' lo len).foldl (mmsAdmit p 0 a o pl rows) u).bad = u.bad := by
  induction len generalizing lo u with
  | zero => simp
  | succ len ih =>
    rcases Nat.eq_zero_or_pos u.left with h0 | hpos
    · rw [h0, Nat.zero_min]
      exact foldl_mmsAdmit_stops hz hl rows _ (.inr h0)
    · have hmin : min u.left (len + 1) = min (u.left - 1) len + 1 := by omega
      have hslice : ((u.s.takesRow p a o pl lo).core p).slice = (u.s.core p).slice := by
        rw [(State.takesRow_spec hz hd hl u.s lo).1, if_pos rfl]
      rw [List.range'_succ] at hok ⊢
      rw [hmin, List.range'_succ, List.foldl_cons, List.foldl_cons,
        mmsAdmit_takes hz hd hl rows hs (by omega) (hok lo List.mem_cons_self)]
      exact ih hs fun r hr => by rw [hslice]; exact hok r (List.mem_cons_of_mem _ hr)

/-- Rows change their core's array, and count. -/
theorem foldl_takesRow_spec (rs : List Nat) (s : State) :
    (∀ q, (rs.foldl (State.takesRow p a o pl) s).core q =
      if q = p then { s.core p with mx := rs.foldl (Matrix.takesRow (s.core p).slice a o pl) (s.core p).mx } else s.core q) ∧
    (rs.foldl (State.takesRow p a o pl) s).hbm = s.hbm ∧
    ∀ j, j ≠ coreReg p 0x1118 → (rs.foldl (State.takesRow p a o pl) s).counter j =
      s.counter j + if j = coreReg p 0x1100 then BitVec.ofNat 64 rs.length else 0 := by
  induction rs generalizing s with
  | nil =>
    refine ⟨fun q => ?_, rfl, fun j _ => by simp⟩
    split
    · next h => rw [h]; rfl
    · rfl
  | cons r rs ih =>
    obtain ⟨hc, hh, hn⟩ := State.takesRow_spec (p := p) (a := a) hz hd hl s r
    obtain ⟨hc', hh', hn'⟩ := ih (s.takesRow p a o pl r)
    refine ⟨fun q => ?_, hh'.trans hh, fun j hj => ?_⟩
    · rw [List.foldl_cons, hc', hc, hc, if_pos rfl]
      split <;> rfl
    · rw [List.foldl_cons, hn' j hj, hn j hj, BitVec.add_assoc]
      split
      · rw [List.length_cons, Nat.add_comm, BitVec.ofNat_add]; rfl
      · rfl

end

end Sys2Proof.Machine
end

section
/-! PROOFS. Windows of the matrix array (01 R23; 04 R104, R116 to R119). -/

namespace Sys2Proof.Machine

/-! ### The accumulator rows of a window -/

section
variable (sl : Slice) (a : MxActive) (o : MmsOps) (pl : Plane)

/-- Fewer than 512 rows on, an input row has another accumulator row. -/
theorem accAt_ne {i j : Nat} (h : i < j) (hj : j < i + 512) : accAt o j ≠ accAt o i := by
  unfold accAt
  omega

theorem Matrix.accRow_addsRow (m : Matrix) (r j : Nat) : (m.addsRow sl a o pl r).accRow j =
    if j = accAt o r then accumulate o.clear (m.accRow (accAt o r)) (rowProduct sl a o pl r) else m.accRow j :=
  Tab.get_set _ _ _ _ _

theorem Matrix.live_addsRow (m : Matrix) (r j : Nat) : j ∈ (m.addsRow sl a o pl r).live ↔ j = accAt o r ∨ j ∈ m.live := by
  unfold Matrix.addsRow Matrix.setAcc
  dsimp only
  split
  · next h => exact ⟨.inr, fun hj => hj.elim (fun e => e ▸ List.contains_iff_mem.1 h) id⟩
  · exact List.mem_cons

/-- The array after n rows from `lo` on: its accumulator and the place of its active instruction have changed. -/
theorem foldl_takesRow_frame {m : Matrix} {b : MxActive} {lo : Nat} (hact : m.active = [b]) (hlo : b.nextRow = lo) (n : Nat) :
    ∃ acc live, (List.range' lo n).foldl (Matrix.takesRow sl a o pl) m =
      { m with busy := m.busy || decide (0 < n), active := [{ b with nextRow := lo + n }], acc := acc, live := live } := by
  induction n with
  | zero =>
    subst hlo
    exact ⟨m.acc, m.live, by simp [← hact]⟩
  | succ n ih =>
    obtain ⟨acc, live, h⟩ := ih
    rw [List.range'_1_concat, List.foldl_append, List.foldl_cons, List.foldl_nil, h]
    exact ⟨_, _, by simp [Matrix.takesRow, Matrix.addsRow, Matrix.setAcc, Nat.add_assoc]; exact ⟨rfl, rfl⟩⟩

/-- Each of at most 512 rows is written or added into its accumulator row, which is live, and every other one stays. -/
theorem foldl_takesRow_acc (m : Matrix) (lo : Nat) {n : Nat} (hn : n ≤ 512) :
    (∀ i, lo ≤ i → i < lo + n →
      ((List.range' lo n).foldl (Matrix.takesRow sl a o pl) m).accRow (accAt o i) =
        accumulate o.clear (m.accRow (accAt o i)) (rowProduct sl a o pl i) ∧
      accAt o i ∈ ((List.range' lo n).foldl (Matrix.takesRow sl a o pl) m).live) ∧
    ∀ r, (∀ i, lo ≤ i → i < lo + n → r ≠ accAt o i) →
      ((List.range' lo n).foldl (Matrix.takesRow sl a o pl) m).accRow r = m.accRow r := by
  induction n with
  | zero => exact ⟨fun i h1 h2 => by omega, fun _ _ => rfl⟩
  | succ n ih =>
    obtain ⟨hin, hout⟩ := ih (by omega)
    rw [List.range'_1_concat, List.foldl_append, List.foldl_cons, List.foldl_nil]
    generalize (List.range' lo n).foldl (Matrix.takesRow sl a o pl) m = m' at hin hout
    have hrow (j : Nat) : (m'.takesRow sl a o pl (lo + n)).accRow j = (m'.addsRow sl a o pl (lo + n)).accRow j := rfl
    have hlive (j : Nat) : j ∈ (m'.takesRow sl a o pl (lo + n)).live ↔ j = accAt o (lo + n) ∨ j ∈ m'.live :=
      m'.live_addsRow sl a o pl (lo + n) j
    have hnew : m'.accRow (accAt o (lo + n)) = m.accRow (accAt o (lo + n)) :=
      hout _ fun i h1 h2 => accAt_ne o (by omega) (by omega)
    refine ⟨fun i h1 h2 => ?_, fun r hr => ?_⟩
    · rw [hrow, hlive, Matrix.accRow_addsRow]
      rcases (show i < lo + n ∨ i = lo + n by omega) with h | rfl
      · obtain ⟨hacc, hl⟩ := hin i h1 h
        rw [if_neg (accAt_ne o h (by omega)).symm]
        exact ⟨hacc, .inr hl⟩
      · rw [if_pos rfl, hnew]
        exact ⟨rfl, .inl rfl⟩
    · rw [hrow, Matrix.accRow_addsRow, if_neg (hr (lo + n) (by omega) (by omega))]
      exact hout r fun i h1 h2 => hr i h1 (by omega)

end

/-! ### Admission -/

section
variable {s : State} {p : Nat} {a : MxActive} {o : MmsOps}

/-- The rows that an MMS without zero rows has still to take. -/
theorem Matrix.todo_eq {m : Matrix} (hop : a.entry.op = .mms o false) (hz : o.zrow = false) (hl : (m.plane a.plane).state = .loaded)
    (sl : Slice) : m.todo sl a = o.rows.toNat - a.nextRow := by
  simp [Matrix.todo, hop, hl, zrowFlag, hz, mmsRows]

/-- The rows that an array with one MMS can take. -/
theorem Core.rowsReady_one {c : Core} (hact : c.mx.active = [a]) (hop : a.entry.op = .mms o false) (hz : o.zrow = false)
    (hl : (c.mx.plane a.plane).state = .loaded) : c.rowsReady = o.rows.toNat - a.nextRow := by
  have hmms : a.isMms = true := by rw [MxActive.isMms, hop]
  simp [Core.rowsReady, hact, hmms, Matrix.todo_eq hop hz hl]

/-- The one active MMS admits rows as the window has them. -/
theorem admitFrom_one (hact : (s.core p).mx.active = [a]) (hop : a.entry.op = .mms o false) (hz : o.zrow = false)
    (hd : o.dthru = false) {pl : Plane} (hpl : (s.core p).mx.plane a.plane = pl) (hl : pl.state = .loaded)
    (hok : ∀ r ∈ List.range' a.nextRow (o.rows.toNat - a.nextRow), mayRead (s.core p).slice a o pl r) (n : Nat) :
    (admitFrom p (s, n) 0).1 =
      (List.range' a.nextRow (min n (o.rows.toNat - a.nextRow))).foldl (State.takesRow p a o pl) s := by
  have htodo := Matrix.todo_eq (m := (s.core p).mx) hop hz (hpl ▸ hl) (s.core p).slice
  have htotal : a.total = o.rows.toNat := by rw [MxActive.total, hop]; rfl
  unfold admitFrom
  simp only [hact, List.getElem?_cons_zero, hop, htodo]
  split
  · obtain ⟨hrun, hbad⟩ := foldl_mmsAdmit (p := p) (a := a) (o := o) hz hd hl o.rows.toNat (o.rows.toNat - a.nextRow)
      (u := { s := s, left := n }) rfl hok
    have hx : runMms p 0 n a o a.total s = (List.range' a.nextRow (o.rows.toNat - a.nextRow)).foldl
        (mmsAdmit p 0 a o pl o.rows.toNat) { s := s, left := n } := by rw [runMms, hpl, htotal]
    rw [hx, hbad, hrun]
    rfl
  · next h =>
    have hgoes : (s.core p).mx.goes (s.core p).slice 0 a = true := by simp [Matrix.goes]
    have hnone : min n (o.rows.toNat - a.nextRow) = 0 := by
      simp only [hgoes, and_true] at h
      omega
    rw [hnone]
    rfl

/-- An MMS drains nothing of itself in a window. -/
theorem drainFrom_mms (hact : (s.core p).mx.active = [a]) (hop : a.entry.op = .mms o false) : drainFrom p s 0 = s := by
  unfold drainFrom
  simp only [hact, List.getElem?_cons_zero, hop]

end

/-! ### The limiter's values (R23) -/

/-- A grant hold applies at once to an array that is not in a busy period, and stays while it does (R116, R118). -/
def Matrix.isHeld (m : Matrix) (g : Limit) : Bool := g.hold && (m.held || !m.busy)

/-- The array with the limiter's values latched, and the dead rows of a window. -/
def Matrix.latches (m : Matrix) (g : Limit) (dead : Nat) (gen : W32) : Matrix :=
  { m with limit := g.l, fill := g.f, hold := g.hold, held := m.isHeld g, busy := m.busy || decide (0 < dead), deadGen := gen }

/-- The module whose core p has an array that latched the limiter's values. -/
def State.latches (s : State) (p : Nat) (g : Limit) (dead : Nat) : State :=
  let d := s.drawWords (if dead = 0 then 0 else 1)
  d.2.modCore p (fun c => { c with mx := c.mx.latches g dead (d.1.headD c.mx.deadGen) })

/-- Only core p and the free values change, and its generator of dead rows only with a dead row. -/
theorem State.latches_spec (s : State) (p : Nat) (g : Limit) (dead : Nat) :
    (∃ gen, (dead = 0 → gen = (s.core p).mx.deadGen) ∧
      ∀ q, (s.latches p g dead).core q = if q = p then { s.core p with mx := (s.core p).mx.latches g dead gen } else s.core q) ∧
    s.latches p g dead = { s with cores := (s.latches p g dead).cores, draws := (s.latches p g dead).draws } := by
  refine ⟨⟨(s.drawWords (if dead = 0 then 0 else 1)).1.headD (s.core p).mx.deadGen, fun h => ?_, fun q => ?_⟩, rfl⟩
  · rw [if_pos h]
    rfl
  · exact State.core_modCore _ _ _ _

/-- A window latches, admits, drains and counts. -/
theorem matrixWindow_eq (p : Nat) (g : Limit) (ready : W64) (s : State) :
    matrixWindow p g ready s =
      let w := windowOf g.l g.f ((s.core p).mx.isHeld g) ready (s.core p).rowsReady
      let is := List.range (s.core p).mx.active.length
      (((is.foldl (drainFrom p) (is.foldl (admitFrom p) (s.latches p g w.dead, w.real)).1).count (coreReg p 0x1130) w.dead).count
        (coreReg p 0x1128) w.refused) := rfl

end Sys2Proof.Machine
end

section
/-! PROOFS. Windows of the stream unit (07 R194; 17 R441). -/

namespace Sys2Proof.Machine

section
variable {s : State} {p : Nat} {d : StrSlot}

/-! ### Started descriptors -/

/-- A started descriptor after a change of it that keeps its slot. -/
theorem Core.find_slots_map (slots : List StrSlot) (k : Nat) {f : StrSlot → StrSlot} (hf : ∀ d, (f d).slot = d.slot) :
    (slots.map fun d => if d.slot = k then f d else d).find? (fun d => decide (d.slot = k)) =
      (slots.find? fun d => decide (d.slot = k)).map f := by
  induction slots with
  | nil => rfl
  | cons d slots ih =>
    by_cases h : d.slot = k <;> simp [h, hf, ih]

theorem State.strSlot_modStr (s : State) (p k : Nat) {f : StrSlot → StrSlot} (hf : ∀ d, (f d).slot = d.slot) :
    ((s.modStr p k f).core p).strSlot k = ((s.core p).strSlot k).map f := by
  rw [State.modStr, State.core_modCore_self]
  exact Core.find_slots_map _ k hf

/-! ### One transaction -/

/-- A descriptor of kind 0 to 2 has no index or entry to read (R189, R190). -/
theorem StrSlot.toReach_of_kind (hk : d.kind < 3) (sl : Slice) : d.toReach sl = [] := by
  unfold StrSlot.toReach
  rw [if_neg (by omega), if_neg (by omega)]

theorem Core.txnServed_of_find {c : Core} {x : Txn} {e : TcEntry} (hf : c.tc.find c.ctx c.gen x.far = some e)
    (he : e.serves d.store = true) : c.txnServed d x = true := by
  simp [Core.txnServed, hf, he]

/-- A descriptor that notes as read the entries of an empty list. -/
def StrSlot.notesNone (d : StrSlot) : StrSlot :=
  if d.kind = 4 then { d with reached := d.reached + ([] : List Nat).length } else d

theorem StrSlot.notesNone_eq (d : StrSlot) : d.notesNone = d := ite_self _

/-- The unit is ready with a transaction whose translation stands in the cache, and issues it. -/
theorem State.issueOne_eq {i : Nat} {x : Txn} (hm : (s.core p).mayIssue = true) (hi : (s.core p).issuer = some d)
    (hd : (s.core p).strSlot d.slot = some d) (hk : d.kind < 3) (hn : d.next (s.core p).slice = some i)
    (hx : (d.txns (s.core p).slice)[i]? = some x) (hs : (s.core p).txnServed d x = true) :
    (s.core p).issueReady = true ∧ ∃ u, SameCores s u ∧ s.issueOne p = u.issueTxn p d i x := by
  have hready : (s.core p).issueReady = true := by simp [Core.issueReady, hm, hi, hn, hx, hs]
  have hreads : s.readElems p d [] = s := rfl
  have hcheck : d.elemsCheck (s.core p).slice [] = .ok := rfl
  refine ⟨hready, s.modStr p d.slot StrSlot.notesNone, State.modCore_same (by simp [StrSlot.notesNone_eq]), ?_⟩
  unfold State.issueOne
  simp only [hready, hi, StrSlot.toReach_of_kind hk, hreads, hd, Option.getD_some, hcheck, hn, hx, Option.bind_some, Option.map_some, hs,
    Bool.not_true, Bool.false_eq_true, if_false, if_true]
  rw [if_neg (by omega)]
  rfl

/-- A transaction in flight, with the leaf that translates it and the key of the leaf's slot (R242, R441). -/
def State.captured (s : State) (e : TcEntry) (i : Nat) (x : Txn) : IssuedTxn :=
  { index := i, txn := x, leaf := e.leaf, large := e.large, gen := (s.slot (pteSlot e.leaf)).gen,
    material := (s.slot (pteSlot e.leaf)).material }

/-- A descriptor with one more transaction in flight. -/
def StrSlot.flying (d : StrSlot) (x : IssuedTxn) : StrSlot := { d with issued := d.issued ++ [x] }

/-- A transaction whose leaf permits it, under a key of its tenant, goes in flight and makes its translation the newest. -/
theorem State.issueTxn_eq {i : Nat} {x : Txn} {e : TcEntry} (hk : d.kind < 3)
    (hf : (s.core p).tc.find (s.core p).ctx (s.core p).gen x.far = some e)
    (hp : (if d.store then pteW e.leaf else pteR e.leaf) = true) (hm : s.memSlotOk (pteSlot e.leaf) (s.core p).tenant = true) :
    s.issueTxn p d i x = ((s.modCore p fun c => { c with tc := c.tc.touch e }).count (coreReg p 0x2900) 1).modStr p d.slot fun d =>
      d.flying (s.captured e i x) := by
  have hperm : ¬ (if d.store = true then !pteW e.leaf else !pteR e.leaf) = true := by
    revert hp
    cases d.store <;> simp
  unfold State.issueTxn
  simp only [hf, if_neg (show d.kind ≠ 5 by omega), if_neg hperm, hm, if_true]
  rfl

/-- Of core p the translation cache and the stream unit change, with the counter of translations. -/
theorem State.issueTxn_spec {i : Nat} {x : Txn} {e : TcEntry} (hk : d.kind < 3)
    (hf : (s.core p).tc.find (s.core p).ctx (s.core p).gen x.far = some e)
    (hp : (if d.store then pteW e.leaf else pteR e.leaf) = true) (hm : s.memSlotOk (pteSlot e.leaf) (s.core p).tenant = true) :
    ((s.issueTxn p d i x).core p).strSlot d.slot = ((s.core p).strSlot d.slot).map (fun d => d.flying (s.captured e i x)) ∧
    (∀ q, (s.issueTxn p d i x).core q =
      if q = p then { s.core p with tc := (s.core p).tc.touch e, str := ((s.issueTxn p d i x).core p).str } else s.core q) ∧
    countersMoved [(coreReg p 0x2900, 1)] s (s.issueTxn p d i x) := by
  rw [State.issueTxn_eq hk hf hp hm]
  have hcore (q : Nat) := State.core_modCore s p q fun c => { c with tc := c.tc.touch e }
  refine ⟨?_, fun q => ?_, countersMoved_count s (coreReg p 0x2900) 1⟩
  · refine (State.strSlot_modStr _ p d.slot (f := fun d => d.flying (s.captured e i x)) fun _ => rfl).trans ?_
    rw [State.core_count, hcore, if_pos rfl]
    rfl
  · simp only [State.modStr, State.core_modCore, State.core_count]
    split <;> rfl

/-! ### ISSUE_WINDOW_START of the stream unit -/

/-- Cycles in which the unit has nothing ready pass. -/
theorem foldl_issueCycle_idle (q : Nat) {ready : W64} (cs : List Nat) (s : State) (h : ∀ c ∈ cs, ready.getLsbD c = false) :
    cs.foldl (issueCycle p q ready) s = s := by
  induction cs with
  | nil => rfl
  | cons c cs ih =>
    have hc : issueCycle p q ready s c = s := if_pos (by simp [h c List.mem_cons_self])
    rw [List.foldl_cons, hc]
    exact ih fun c hc => h c (List.mem_cons_of_mem _ hc)

/-- The module whose core p has a stream unit that latched its pace (R23). -/
def State.latchesPace (s : State) (p q : Nat) : State := s.modCore p fun c => { c with str := { c.str with pace := q } }

/-- A window in which nothing is ready latches the pace. -/
theorem streamWindow_idle (s : State) (p q : Nat) : streamWindow p q 0 s = s.latchesPace p q :=
  foldl_issueCycle_idle q _ _ fun _ _ => BitVec.getLsbD_zero

/-- A window whose first cycle has a transaction ready, with no limit on the pace, issues it. -/
theorem streamWindow_first (hr : ((s.latchesPace p 0).core p).issueReady = true) :
    streamWindow p 0 1 s = (s.latchesPace p 0).issueOne p := by
  have hfirst : issueCycle p 0 1 (s.latchesPace p 0) 0 = (s.latchesPace p 0).issueOne p := by
    rw [issueCycle, hr, if_neg (by simp), if_pos (.inl rfl)]
  have hwindow : streamWindow p 0 1 s = (List.range 64).foldl (issueCycle p 0 1) (s.latchesPace p 0) := rfl
  rw [hwindow, List.range_eq_range', List.range'_succ, List.foldl_cons, hfirst]
  refine foldl_issueCycle_idle 0 _ _ fun c hc => ?_
  have hpos : c ≠ 0 := by
    obtain ⟨h, -⟩ := List.mem_range'_1.1 hc
    omega
  simp [BitVec.getLsbD_one, hpos]

end

end Sys2Proof.Machine
end

section
/-! PROOFS. Issue windows, busy periods and activity reports (01 R23, R24; 04 R104, R116 to R119; 07 R194). -/

namespace Sys2Proof.Machine

/-! ### The meaning of each command -/

theorem exec_issueWindowStart (p : Nat) (stream : Bool) (ready : W64) (finds : Finds) (s : State) :
    exec (.issueWindowStart p stream ready finds) s = execIssueWindowStart p stream ready finds s := rfl
theorem exec_busyPeriodEnd (p : Nat) (s : State) : exec (.busyPeriodEnd p) s = execBusyPeriodEnd p s := rfl
theorem exec_activityReport (island : Nat) (counts : List Nat) (belowNs : Nat) (s : State) :
    exec (.activityReport island counts belowNs) s = execActivityReport island counts belowNs s := rfl

/-! ### Windows of the array -/

section
variable {s : State} {p : Nat}

/-- On a core with nothing to show, a window of the array that leaves the slice alone is what the array makes of it. -/
theorem issueWindowStart_array (hc : s.clocked p = true) (hq : quiet (s.core p)) (ready : W64)
    (hf : ∀ u : State, u.core p = s.core p → ((matrixWindow p (s.limitOf p) ready u).core p).slice = (s.core p).slice) :
    ∃ u t, SameCores s u ∧ SameCores (matrixWindow p (s.limitOf p) ready u) t ∧
      exec (.issueWindowStart p false ready []) s = .next t := by
  obtain ⟨hreads, hkept, hweak⟩ := hq
  let rs := (s.core p).windowReads ((matrixWindow p (s.limitOf p) ready s).core p)
  have hu : SameCores s (s.readWords p rs []) := State.readWords_same hweak rs
  have hslice := hf _ (hu.core p)
  refine ⟨_, _, hu, State.withFreeReads_same (p := p) (f := matrixWindow p (s.limitOf p) ready) ?_ ?_ ?_ rs, ?_⟩
  · rw [hu.core, hreads]
  · rw [hslice, hreads]
  · rw [hslice, hkept]
  · rw [exec_issueWindowStart, execIssueWindowStart, hc]
    rfl

/-- An array with nothing active takes dead rows. -/
theorem matrixWindow_empty {g : Limit} (hl : g.l ≤ 64) (ready : W64) (hact : (s.core p).mx.active = []) :
    matrixWindow p g ready s =
      ((s.latches p g (if (s.core p).mx.isHeld g then 0 else min g.f g.l)).count (coreReg p 0x1130)
        (if (s.core p).mx.isHeld g then 0 else min g.f g.l)).count (coreReg p 0x1128) 0 := by
  have hnone : (s.core p).rowsReady = 0 := by simp [Core.rowsReady, hact]
  obtain ⟨-, hdead⟩ := windowOf_eq (f := g.f) (held := (s.core p).mx.isHeld g) (ready := ready) (avail := 0) hl fun _ _ => .inr rfl
  rw [Nat.min_zero, Nat.sub_zero] at hdead
  rw [matrixWindow_eq, hact, hnone]
  dsimp only
  rw [hdead, windowOf_refused]
  rfl

/-- The window of an array that has no row to take. -/
theorem issueWindowStart_empty (hc : s.clocked p = true) (hq : quiet (s.core p)) (ready : W64) (hl : (s.limitOf p).l ≤ 64)
    (hact : (s.core p).mx.active = []) {dead : Nat}
    (hdead : dead = if (s.core p).mx.isHeld (s.limitOf p) then 0 else min (s.limitOf p).f (s.limitOf p).l) :
    ∃ t, exec (.issueWindowStart p false ready []) s = .next t ∧
      t.core p = { s.core p with mx := (s.core p).mx.latches (s.limitOf p) dead (t.core p).mx.deadGen } ∧
      (dead = 0 → (t.core p).mx.deadGen = (s.core p).mx.deadGen) ∧ (∀ q, q ≠ p → t.core q = s.core q) ∧
      countersMoved [(coreReg p 0x1130, dead)] s t ∧
      t = { s with cores := t.cores, counters := t.counters, draws := t.draws } := by
  have hw (u : State) (hu : u.core p = s.core p) : matrixWindow p (s.limitOf p) ready u =
      ((u.latches p (s.limitOf p) dead).count (coreReg p 0x1130) dead).count (coreReg p 0x1128) 0 := by
    rw [matrixWindow_empty hl ready (hu ▸ hact), hu, ← hdead]
  obtain ⟨u, t, hu, ht, hx⟩ := issueWindowStart_array hc hq ready fun u hu => by
    obtain ⟨⟨gen, -, hcore⟩, -⟩ := u.latches_spec p (s.limitOf p) dead
    rw [hw u hu, State.core_count, State.core_count, hcore, if_pos rfl, hu]
  rw [hw u (hu.core p)] at ht
  obtain ⟨⟨gen, hgen, hcore⟩, hrest⟩ := u.latches_spec p (s.limitOf p) dead
  have hq (q : Nat) : t.core q = if q = p then { s.core p with mx := (s.core p).mx.latches (s.limitOf p) dead gen } else s.core q := by
    rw [ht.core, State.core_count, State.core_count, hcore, hu.core, hu.core]
  refine ⟨t, hx, ?_, ?_, fun q h => by rw [hq, if_neg h], fun j => ?_, ?_⟩
  · rw [hq, if_pos rfl]
    rfl
  · intro h
    rw [hq, if_pos rfl]
    exact (hgen h).trans (by rw [hu.core])
  · have hstart : (u.latches p (s.limitOf p) dead).counter j = s.counter j := hu.counter j
    rw [ht.counter, State.counter_count_add, State.counter_count_add, hstart]
    by_cases hj : j = coreReg p 0x1130 <;> simp [hj, Ne.symm]
  · rw [ht.eq, hu.eq]
    rfl

/-- The module whose core p latched the limiter's values and admitted `real` rows of an MMS. -/
def State.admits (s : State) (p : Nat) (g : Limit) (a : MxActive) (o : MmsOps) (pl : Plane) (real dead : Nat) : State :=
  (List.range' a.nextRow real).foldl (State.takesRow p a o pl) (s.latches p g dead)

section
variable {g : Limit} {a : MxActive} {o : MmsOps} {pl : Plane} (hact : (s.core p).mx.active = [a]) (hz : o.zrow = false)
  (hd : o.dthru = false) (hload : pl.state = .loaded)
include hact hz hd hload

/-- What the admitted rows leave of core p: the array alone has changed, by its accumulator and the place of its MMS. -/
theorem State.core_admits (real dead : Nat) :
    ∃ gen acc live, ∀ q, (s.admits p g a o pl real dead).core q = if q = p then
      { s.core p with mx := { (s.core p).mx.latches g dead gen with
        busy := (s.core p).mx.busy || decide (0 < dead) || decide (0 < real),
        active := [{ a with nextRow := a.nextRow + real }], acc := acc, live := live } } else s.core q := by
  obtain ⟨⟨gen, -, hcore⟩, -⟩ := s.latches_spec p g dead
  obtain ⟨hrows, -, -⟩ := foldl_takesRow_spec (p := p) (a := a) hz hd hload (List.range' a.nextRow real) (s.latches p g dead)
  obtain ⟨acc, live, hframe⟩ := foldl_takesRow_frame (s.core p).slice a o pl
    (m := (s.core p).mx.latches g dead gen) hact rfl real
  refine ⟨gen, acc, live, fun q => ?_⟩
  rw [State.admits, hrows, hcore, hcore, if_pos rfl]
  dsimp only
  rw [hframe]
  split <;> rfl

omit hact in
/-- The accumulator rows, the counters and HBM after the admitted rows. -/
theorem State.admits_spec {real : Nat} (hreal : real ≤ 512) (dead : Nat) :
    (∀ i, a.nextRow ≤ i → i < a.nextRow + real →
      ((s.admits p g a o pl real dead).core p).mx.accRow (accAt o i) =
        accumulate o.clear ((s.core p).mx.accRow (accAt o i)) (rowProduct (s.core p).slice a o pl i) ∧
      accAt o i ∈ ((s.admits p g a o pl real dead).core p).mx.live) ∧
    (∀ r, (∀ i, a.nextRow ≤ i → i < a.nextRow + real → r ≠ accAt o i) →
      ((s.admits p g a o pl real dead).core p).mx.accRow r = (s.core p).mx.accRow r) ∧
    (s.admits p g a o pl real dead).hbm = s.hbm ∧
    ∀ j, j ≠ coreReg p 0x1118 → (s.admits p g a o pl real dead).counter j =
      s.counter j + if j = coreReg p 0x1100 then BitVec.ofNat 64 real else 0 := by
  obtain ⟨⟨gen, -, hcore⟩, -⟩ := s.latches_spec p g dead
  obtain ⟨hrows, hh, hn⟩ := foldl_takesRow_spec (p := p) (a := a) hz hd hload (List.range' a.nextRow real) (s.latches p g dead)
  have hp := hrows p
  rw [if_pos rfl, hcore, if_pos rfl] at hp
  obtain ⟨hin, hout⟩ := foldl_takesRow_acc (s.core p).slice a o pl ((s.core p).mx.latches g dead gen) a.nextRow hreal
  unfold State.admits
  rw [hp]
  refine ⟨hin, hout, hh, fun j hj => ?_⟩
  rw [hn j hj, List.length_range']
  rfl

/-- The window of an array whose one MMS has a row ready in every cycle. -/
theorem matrixWindow_one (hl : g.l ≤ 64) (hop : a.entry.op = .mms o false) (hpl : (s.core p).mx.plane a.plane = pl)
    (hok : ∀ r ∈ List.range' a.nextRow (o.rows.toNat - a.nextRow), mayRead (s.core p).slice a o pl r) {real dead : Nat}
    (hreal : real = if (s.core p).mx.isHeld g then 0 else min g.l (o.rows.toNat - a.nextRow))
    (hdead : dead = if (s.core p).mx.isHeld g then 0 else min g.f g.l - real) :
    ∃ n, matrixWindow p g (BitVec.allOnes 64) s =
      ((s.admits p g a o pl real dead).count (coreReg p 0x1130) dead).count (coreReg p 0x1128) n := by
  have hready := Core.rowsReady_one hact hop hz (hpl ▸ hload)
  obtain ⟨hr, hde⟩ := windowOf_eq (f := g.f) (held := (s.core p).mx.isHeld g) (ready := BitVec.allOnes 64)
    (avail := o.rows.toNat - a.nextRow) hl fun c hc => .inl (by rw [BitVec.getLsbD_allOnes]; simpa using hc)
  rw [← hreal] at hr
  replace hde : (windowOf g.l g.f ((s.core p).mx.isHeld g) (BitVec.allOnes 64) (o.rows.toNat - a.nextRow)).dead = dead := by
    rw [hde, hdead, hreal]
    split <;> rfl
  have hmin : min real (o.rows.toNat - a.nextRow) = real := by
    rw [hreal]
    split <;> omega
  have hadmit : (admitFrom p (s.latches p g dead, real) 0).1 = s.admits p g a o pl real dead := by
    obtain ⟨⟨gen, -, hcore⟩, -⟩ := s.latches_spec p g dead
    have hp := hcore p
    rw [if_pos rfl] at hp
    rw [admitFrom_one (by rw [hp]; exact hact) hop hz hd (by rw [hp]; exact hpl) hload (by rw [hp]; exact hok), hmin]
    rfl
  have hdrain : drainFrom p (s.admits p g a o pl real dead) 0 = s.admits p g a o pl real dead := by
    obtain ⟨gen, acc, live, hcore⟩ := State.core_admits (g := g) hact hz hd hload real dead
    exact drainFrom_mms (a := { a with nextRow := a.nextRow + real }) (by rw [hcore, if_pos rfl]) hop
  rw [matrixWindow_eq, hact, hready]
  dsimp only
  rw [hde, hr]
  simp only [List.length_singleton, List.range_one, List.foldl_cons, List.foldl_nil]
  rw [hadmit, hdrain]
  exact ⟨_, rfl⟩

/-- The window of an array that admits rows of its one MMS. -/
theorem issueWindowStart_one (hc : s.clocked p = true) (hq : quiet (s.core p)) (hg : g = s.limitOf p) (hl : g.l ≤ 64)
    (hop : a.entry.op = .mms o false) (hpl : (s.core p).mx.plane a.plane = pl)
    (hok : ∀ r ∈ List.range' a.nextRow (o.rows.toNat - a.nextRow), mayRead (s.core p).slice a o pl r) {real dead : Nat}
    (hreal : real = if (s.core p).mx.isHeld g then 0 else min g.l (o.rows.toNat - a.nextRow))
    (hdead : dead = if (s.core p).mx.isHeld g then 0 else min g.f g.l - real) :
    ∃ t, exec (.issueWindowStart p false (BitVec.allOnes 64) []) s = .next t ∧
      t.core p = { s.core p with mx := { (s.core p).mx.latches g dead (t.core p).mx.deadGen with
        busy := (s.core p).mx.busy || decide (0 < real) || decide (0 < dead),
        active := [{ a with nextRow := a.nextRow + real }], acc := (t.core p).mx.acc, live := (t.core p).mx.live } } ∧
      (∀ i, a.nextRow ≤ i → i < a.nextRow + real →
        (t.core p).mx.accRow (accAt o i) =
          accumulate o.clear ((s.core p).mx.accRow (accAt o i)) (rowProduct (s.core p).slice a o pl i) ∧
        accAt o i ∈ (t.core p).mx.live) ∧
      (∀ r, (∀ i, a.nextRow ≤ i → i < a.nextRow + real → r ≠ accAt o i) → (t.core p).mx.accRow r = (s.core p).mx.accRow r) ∧
      t.counter (coreReg p 0x1100) = s.counter (coreReg p 0x1100) + BitVec.ofNat 64 real ∧
      t.counter (coreReg p 0x1130) = s.counter (coreReg p 0x1130) + BitVec.ofNat 64 dead ∧
      (∀ q, q ≠ p → t.core q = s.core q) ∧ t.hbm = s.hbm := by
  subst hg
  have hw (u : State) (hu : u.core p = s.core p) := matrixWindow_one (s := u) (p := p) (hu ▸ hact) hz hd hload hl hop (hu ▸ hpl)
    (hu ▸ hok) (hu ▸ hreal) (hu ▸ hdead)
  have hcore (u : State) (hu : u.core p = s.core p) :=
    State.core_admits (s := u) (p := p) (g := s.limitOf p) (hu ▸ hact) hz hd hload real dead
  obtain ⟨u, t, hu, ht, hx⟩ := issueWindowStart_array hc hq (BitVec.allOnes 64) fun u hu => by
    obtain ⟨n, h⟩ := hw u hu
    obtain ⟨gen, acc, live, hcore⟩ := hcore u hu
    rw [h, State.core_count, State.core_count, hcore, if_pos rfl, hu]
  obtain ⟨n, h⟩ := hw u (hu.core p)
  obtain ⟨gen, acc, live, hcore⟩ := hcore u (hu.core p)
  obtain ⟨hin, hout, hh, hn⟩ := State.admits_spec (s := u) (p := p) (g := s.limitOf p) (a := a) (o := o) (pl := pl) hz hd hload
    (real := real) (by rw [hreal]; split <;> omega) dead
  rw [h] at ht
  have hq (q : Nat) : t.core q = (u.admits p (s.limitOf p) a o pl real dead).core q := ht.core q
  rw [hu.core] at hin hout
  refine ⟨t, hx, ?_, ?_, ?_, ?_, ?_, fun q h => ?_, ?_⟩
  · rw [hq, hcore, if_pos rfl, hu.core, Bool.or_right_comm]
    rfl
  · rw [hq]
    exact hin
  · rw [hq]
    exact hout
  · rw [ht.counter, State.counter_count_add, State.counter_count_add, hn _ (by simp [coreReg]), hu.counter]
    simp [coreReg]
  · rw [ht.counter, State.counter_count_add, State.counter_count_add, hn _ (by simp [coreReg]), hu.counter]
    simp [coreReg]
  · rw [hq, hcore, if_neg h, hu.core]
  · exact ht.hbm.trans (hh.trans hu.hbm)

end

/-! ### Windows of the stream unit -/

/-- A window of the stream unit, on a slice in which nothing comes to light. -/
theorem issueWindowStart_stream (hc : s.clocked p = true) (ready : W64) :
    exec (.issueWindowStart p true ready []) s =
      .next (streamWindow p (s.limitOf p).q ready (s.modSlice p fun sl => sl.found [])) := by
  rw [exec_issueWindowStart, execIssueWindowStart, hc]
  rfl

/-- The stream unit latches its pace. -/
theorem issueWindowStart_pace (hc : s.clocked p = true) :
    ∃ t, exec (.issueWindowStart p true 0 []) s = .next t ∧
      t.core p = { s.core p with str := { (s.core p).str with pace := (s.limitOf p).q } } ∧ (∀ q, q ≠ p → t.core q = s.core q) ∧
      t = { s with cores := t.cores } := by
  have hu : SameCores s (s.modSlice p fun sl => sl.found []) := State.modSlice_same rfl
  rw [issueWindowStart_stream hc, streamWindow_idle]
  refine ⟨_, rfl, ?_, fun q h => ?_, rfl⟩
  · rw [State.latchesPace, State.core_modCore_self, hu.core]
  · rw [State.latchesPace, State.core_modCore, if_neg h, hu.core]

/-- A ready transaction whose translation stands in the cache goes in flight with the leaf and the key that it captures (R242, R441). -/
theorem issueWindowStart_issues {d : StrSlot} {i : Nat} {x : Txn} {e : TcEntry} (hc : s.clocked p = true)
    (hpace : (s.limitOf p).q = 0) (hmay : (s.core p).mayIssue = true) (hi : (s.core p).issuer = some d)
    (hd : (s.core p).strSlot d.slot = some d) (hk : d.kind < 3) (hn : d.next (s.core p).slice = some i)
    (hx : (d.txns (s.core p).slice)[i]? = some x) (hf : (s.core p).tc.find (s.core p).ctx (s.core p).gen x.far = some e)
    (hserves : e.serves d.store = true) (hperm : (if d.store then pteW e.leaf else pteR e.leaf) = true)
    (hkey : s.memSlotOk (pteSlot e.leaf) (s.core p).tenant = true) :
    ∃ t, exec (.issueWindowStart p true 1 []) s = .next t ∧
      (t.core p).strSlot d.slot = some (d.flying (s.captured e i x)) ∧
      (t.core p).tc = (s.core p).tc.touch e ∧ countersMoved [(coreReg p 0x2900, 1)] s t ∧
      (t.core p).seq = (s.core p).seq ∧ (t.core p).mx = (s.core p).mx ∧ (t.core p).vx = (s.core p).vx ∧
      (t.core p).slice = (s.core p).slice ∧ (∀ q, q ≠ p → t.core q = s.core q) := by
  have hfound : SameCores s (s.modSlice p fun sl => sl.found []) := State.modSlice_same rfl
  have hu (q : Nat) : ((s.modSlice p fun sl => sl.found []).latchesPace p 0).core q =
      if q = p then { s.core p with str := { (s.core p).str with pace := 0 } } else s.core q := by
    rw [State.latchesPace, State.core_modCore, hfound.core, hfound.core]
  have hup := hu p
  rw [if_pos rfl] at hup
  obtain ⟨hready, v, hv, hissue⟩ := State.issueOne_eq (d := d) (i := i) (x := x) (by rw [hup]; exact hmay) (by rw [hup]; exact hi)
    (by rw [hup]; exact hd) hk (by rw [hup]; exact hn) (by rw [hup]; exact hx)
    (by rw [hup]; exact Core.txnServed_of_find hf hserves)
  have hvp := hv.core p
  rw [hup] at hvp
  have hslot : v.slot (pteSlot e.leaf) = s.slot (pteSlot e.leaf) := by rw [hv.eq]; rfl
  have hvkey : v.memSlotOk (pteSlot e.leaf) (v.core p).tenant = true := by
    rw [hvp, State.memSlotOk, hslot]
    exact hkey
  obtain ⟨hfly, hcore, hcount⟩ := State.issueTxn_spec (s := v) (p := p) (d := d) (i := i) (x := x) hk
    (by rw [hvp]; exact hf) hperm hvkey
  have hp := hcore p
  rw [if_pos rfl, hvp] at hp
  refine ⟨v.issueTxn p d i x, ?_, ?_, by rw [hp], fun j => ?_, by rw [hp], by rw [hp], by rw [hp], by rw [hp], fun q h => ?_⟩
  · rw [issueWindowStart_stream hc, hpace, streamWindow_first hready, hissue]
  · rw [hfly, hvp, State.captured, hslot]
    exact congrArg _ hd
  · rw [hcount j, hv.counter]
    rfl
  · rw [hcore, if_neg h, hv.core, hu, if_neg h]

/-! ### Busy periods and activity -/

/-- The end of a busy period, whereupon a grant hold that is set applies (R116, R118). -/
theorem busyPeriodEnd_ends (hc : s.clocked p = true) (hb : (s.core p).mx.busy = true) :
    ∃ t, exec (.busyPeriodEnd p) s = .next t ∧
      t.core p = { s.core p with mx := { (s.core p).mx with busy := false, held := (s.core p).mx.hold } } ∧
      (∀ q, q ≠ p → t.core q = s.core q) ∧ t = { s with cores := t.cores } := by
  rw [exec_busyPeriodEnd, execBusyPeriodEnd, hc, hb, Bool.true_and, if_pos rfl]
  exact ⟨_, rfl, State.core_modCore_self _ _ _, fun q h => by rw [State.core_modCore, if_neg h], rfl⟩

/-- An island's report replaces its last one (R24). -/
theorem activityReport_replaces {island : Nat} (belowNs : Nat) (counts : List Nat) (hi : island < 256) (hd : s.pins.dieOn = true)
    (hh : s.clk.held.contains island = false) :
    ∃ t, exec (.activityReport island counts belowNs) s = .next t ∧
      (∀ j, Tab.find t.gov.activity j =
        if j = island then some { counts := counts, belowNs := belowNs } else Tab.find s.gov.activity j) ∧
      t = { s with gov := { s.gov with activity := t.gov.activity } } := by
  rw [exec_activityReport, execActivityReport, hd, hh, if_pos (by simp [hi])]
  refine ⟨_, rfl, fun j => ?_, rfl⟩
  split
  · next h => rw [h]; exact Tab.find_set_self _ _ _
  · next h => exact Tab.find_set_of_ne _ _ h

end

/-! ### The obligation -/

/-- Settles O10: the count of permitted cycles gives the rows of a window, and an induction over the admitted rows their accumulator
rows; a window of the stream unit issues in its first cycle. -/
theorem issueWindows : Obligations.IssueWindows := by
  unfold Obligations.IssueWindows
  intro s p c hcore hc hq
  subst hcore
  dsimp only
  refine ⟨fun ready hl hact => issueWindowStart_empty hc hq ready hl hact rfl, fun a o hl hact hop _ hz hd _ hload hon hbad => ?_,
    issueWindowStart_pace hc, fun d i x e hpace hmay hi hd hk hn hx hf hserves hperm hkey =>
      issueWindowStart_issues hc hpace hmay hi hd hk hn hx hf hserves hperm hkey,
    busyPeriodEnd_ends hc, fun island belowNs counts hi hd hh => activityReport_replaces belowNs counts hi hd hh⟩
  refine issueWindowStart_one hact hz hd hload hc hq rfl hl hop rfl (fun r hr => Slice.portCheck_ok (fun x hx => ?_) fun x hx => ?_) rfl rfl
  · exact hon x (List.mem_flatMap.2 ⟨r, hr, hx⟩)
  · exact hbad x (List.mem_flatMap.2 ⟨r, hr, hx⟩)

end Sys2Proof.Machine
end

section
/-! PROOFS. Maximum, minimum, sum and product of FP32 values (02 R38, R58, R59). -/

namespace Sys2Proof.Machine

/-! ### The order of values -/

/-- Two finite values are ordered as the sign of their difference over the lower of the two exponents. -/
theorem cmpV_fin (n1 : Bool) (m1 : Nat) (e1 : Int) (n2 : Bool) (m2 : Nat) (e2 : Int) :
    cmpV (.fin n1 m1 e1) (.fin n2 m2 e2) =
      (signedOf n1 m1 * 2 ^ (e1 - min e1 e2).toNat - signedOf n2 m2 * 2 ^ (e2 - min e1 e2).toNat).sign := by
  dsimp only [cmpV]
  split
  · next h => exact (Int.sign_eq_neg_one_of_neg h).symm
  · split
    · next h => exact (Int.sign_eq_zero_iff_zero.2 h).symm
    · next h h0 => exact (Int.sign_eq_one_of_pos (by omega)).symm

/-- Exchanged operands turn the order round. -/
theorem cmpV_swap (x y : FVal) : cmpV y x = -cmpV x y := by
  match x, y with
  | .fin n1 m1 e1, .fin n2 m2 e2 => rw [cmpV_fin, cmpV_fin, min_comm, ← Int.sign_neg, neg_sub]
  | .inf a, .inf b => cases a <;> cases b <;> rfl
  | .inf a, .nan | .inf a, .fin .. | .nan, .inf a | .fin .., .inf a => cases a <;> rfl
  | .nan, .nan | .nan, .fin .. | .fin .., .nan => rfl

theorem cmpV_self (x : FVal) : cmpV x x = 0 := by
  have h := cmpV_swap x x
  omega

/-! ### Maximum and minimum (R59) -/

section
variable {x y : W32}

theorem maxF_of_nan (h : ofFp32 x = .nan ∨ ofFp32 y = .nan) : maxF x y = nan32 := if_pos h
theorem minF_of_nan (h : ofFp32 x = .nan ∨ ofFp32 y = .nan) : minF x y = nan32 := if_pos h

/-- The maximum and the minimum are the two operands, in their order. -/
theorem maxF_minF_cases (hx : ofFp32 x ≠ .nan) (hy : ofFp32 y ≠ .nan) :
    (maxF x y = x ∧ minF x y = y ∧ 0 ≤ cmpV (ofFp32 x) (ofFp32 y)) ∨
      (maxF x y = y ∧ minF x y = x ∧ cmpV (ofFp32 x) (ofFp32 y) ≤ 0) := by
  have hnan : ¬(ofFp32 x = .nan ∨ ofFp32 y = .nan) := not_or.2 ⟨hx, hy⟩
  rw [maxF, minF, if_neg hnan, if_neg hnan]
  split
  · next h =>
    split
    · exact .inr ⟨rfl, rfl, h.le⟩
    · exact .inl ⟨rfl, rfl, h.ge⟩
  · split
    · next h => exact .inr ⟨rfl, rfl, h.le⟩
    · next h => exact .inl ⟨rfl, rfl, not_lt.1 h⟩

/-- The maximum and the minimum are operands, the one below neither and the other above neither. -/
theorem maxF_minF_bound (hx : ofFp32 x ≠ .nan) (hy : ofFp32 y ≠ .nan) :
    (maxF x y = x ∨ maxF x y = y) ∧ (minF x y = x ∨ minF x y = y) ∧
      0 ≤ cmpV (ofFp32 (maxF x y)) (ofFp32 x) ∧ 0 ≤ cmpV (ofFp32 (maxF x y)) (ofFp32 y) ∧
      cmpV (ofFp32 (minF x y)) (ofFp32 x) ≤ 0 ∧ cmpV (ofFp32 (minF x y)) (ofFp32 y) ≤ 0 := by
  obtain ⟨hmax, hmin, h⟩ | ⟨hmax, hmin, h⟩ := maxF_minF_cases hx hy
  · rw [hmax, hmin, cmpV_self, cmpV_self, cmpV_swap (ofFp32 x)]
    exact ⟨.inl rfl, .inr rfl, le_rfl, h, neg_nonpos.2 h, le_rfl⟩
  · rw [hmax, hmin, cmpV_self, cmpV_self, cmpV_swap (ofFp32 x)]
    exact ⟨.inr rfl, .inl rfl, neg_nonneg.2 h, le_rfl, le_rfl, h⟩

end

/-- +0 stands above -0, in either order of the operands. -/
theorem maxF_minF_signed_zeros : maxF 0 0x80000000 = 0 ∧ maxF 0x80000000 0 = 0 ∧
    minF 0 0x80000000 = 0x80000000 ∧ minF 0x80000000 0 = 0x80000000 := by decide

/-! ### Sums and products under exchanged operands (R58) -/

theorem sumFin_comm (n1 : Bool) (m1 : Nat) (e1 : Int) (n2 : Bool) (m2 : Nat) (e2 : Int) :
    sumFin n1 m1 e1 n2 m2 e2 = sumFin n2 m2 e2 n1 m1 e1 := by
  rw [sumFin, sumFin, min_comm, add_comm, Bool.and_comm]

theorem addV_comm (x y : FVal) : addV x y = addV y x := by
  match x, y with
  | .fin n1 m1 e1, .fin n2 m2 e2 => exact congrArg (·, 0) (sumFin_comm n1 m1 e1 n2 m2 e2)
  | .inf a, .inf b => cases a <;> cases b <;> rfl
  | .nan, .nan | .nan, .inf _ | .nan, .fin .. | .inf _, .nan | .inf _, .fin .. | .fin .., .nan | .fin .., .inf _ => rfl

theorem mulV_comm (x y : FVal) : mulV x y = mulV y x := by
  match x, y with
  | .fin n1 m1 e1, .fin n2 m2 e2 => rw [mulV, mulV, bne_comm, Nat.mul_comm, Int.add_comm]
  | .inf a, .inf b | .inf a, .fin b _ _ | .fin a _ _, .inf b => rw [mulV, mulV, bne_comm]
  | .nan, .nan | .nan, .inf _ | .nan, .fin .. | .inf _, .nan | .fin .., .nan => rfl

theorem addF_comm (x y : W32) : addF x y = addF y x := congrArg roundRes (addV_comm _ _)
theorem mulF_comm (x y : W32) : mulF x y = mulF y x := congrArg roundRes (mulV_comm _ _)

/-! ### The obligation -/

/-- Settles O16: the order of values is antisymmetric, and exact sums and products do not depend on the order of their operands,
so what they round to does not. -/
theorem arithmeticOrder : Obligations.ArithmeticOrder := by
  unfold Obligations.ArithmeticOrder
  refine ⟨fun x y => ?_, fun x y => ⟨addF_comm x y, mulF_comm x y⟩⟩
  obtain ⟨hmax, hmax', hmin, hmin'⟩ := maxF_minF_signed_zeros
  exact ⟨fun h => ⟨maxF_of_nan h, minF_of_nan h⟩, hmax, hmax', hmin, hmin', maxF_minF_bound⟩

end Sys2Proof.Machine
end

section
/-! PROOFS. Elements of the skived formats and the codes that the quantiser makes (02 R40 to R42, R50, R52). -/

namespace Sys2Proof.Machine

/-! ### Decoding (R40 to R42) -/

theorem skElem_five (x : Nat) :
    skElem 5 x = if 128 ≤ x % 256 then (true, 256 - x % 256, 0) else (false, x % 256, 0) := rfl

/-- An SK8 element is a byte in two's complement (R40). -/
theorem skElem_sk8 {x : Nat} (hx : x < 256) : skElem 5 x = (decide (128 ≤ x), (BitVec.ofNat 8 x).toInt.natAbs, 0) := by
  rw [skElem_five, BitVec.toInt_eq_toNat_cond, BitVec.toNat_ofNat, Nat.mod_eq_of_lt hx]
  split
  · next h => rw [decide_eq_true h, if_neg (by omega), show ((x : Int) - (2 ^ 8 : Nat)).natAbs = 256 - x by omega]
  · next h => rw [decide_eq_false h, if_pos (by omega), Int.natAbs_natCast]

/-- An SK4 element is one of the 16 values of the table of R41, in halves; 0b1000 is a zero without a sign. -/
theorem skElem_sk4 : ∀ x < 16,
    (skElem 6 x).2.1 * 2 ^ ((skElem 6 x).2.2 + 1).toNat = [0, 1, 2, 3, 4, 6, 8, 12].getD (x % 8) 0 ∧
      -1 ≤ (skElem 6 x).2.2 ∧ (skElem 6 x).1 = decide (8 < x) := by decide

/-- An SK2 element is ternary, and 0b10 reads as 0 (R42). -/
theorem skElem_sk2 : skElem 7 0 = (false, 0, 0) ∧ skElem 7 1 = (false, 1, 0) ∧ skElem 7 3 = (true, 1, 0) ∧
    skElem 7 2 = (false, 0, 0) := ⟨rfl, rfl, rfl, rfl⟩

/-! ### What the quantiser makes (R50, R52) -/

/-- However it rounds, the quantiser clamps a grid code to the largest before it gives it a sign: what holds of every such code
holds of all that it makes. -/
theorem quantise_codes {code : Nat} {P : Nat → Prop} (hP : ∀ neg, ∀ g ≤ skMaxCode code, P (skEncode code neg g))
    (xs : List W32) (rnd : Nat → Option Nat) : ∀ c ∈ (quantise code xs rnd).2.1, P c := by
  intro c hc
  have hzero : P 0 := hP false 0 (Nat.zero_le _)
  have hzeros (h : c ∈ xs.map fun _ => 0) : P c := List.eq_of_mem_map_const h ▸ hzero
  dsimp only [quantise] at hc
  split at hc
  · exact hzeros hc
  · split at hc
    · split at hc
      · exact hzeros hc
      · obtain ⟨_, hv, rfl⟩ := List.mem_map.1 hc
        obtain ⟨⟨v, _⟩, -, rfl⟩ := List.mem_map.1 hv
        cases v with
        | fin neg m e => exact hP neg _ (Nat.min_le_right _ _)
        | nan | inf => exact hzero
    · exact hzeros hc

theorem skEncode_five (neg : Bool) (g : Nat) : skEncode 5 neg g = if g = 0 then 0 else if neg then 256 - g else g := rfl
theorem skEncode_six (neg : Bool) (g : Nat) : skEncode 6 neg g = if g = 0 then 0 else if neg then 8 + g else g := rfl
theorem skEncode_seven (neg : Bool) (g : Nat) : skEncode 7 neg g = if g = 0 then 0 else if neg then 3 else 1 := rfl

/-- The codes of SK8 lie in -127 to 127 (R40). -/
theorem skEncode_sk8 (neg : Bool) (g : Nat) (hg : g ≤ 127) : skEncode 5 neg g < 256 ∧ skEncode 5 neg g ≠ 128 := by
  rw [skEncode_five]
  split
  · decide
  · split <;> omega

/-- SK4 has no code of -0 (R41). -/
theorem skEncode_sk4 (neg : Bool) (g : Nat) (hg : g ≤ 7) : skEncode 6 neg g < 16 ∧ skEncode 6 neg g ≠ 8 := by
  rw [skEncode_six]
  split
  · decide
  · split <;> omega

/-- SK2 has no code 0b10 (R42). -/
theorem skEncode_sk2 (neg : Bool) (g : Nat) : skEncode 7 neg g < 4 ∧ skEncode 7 neg g ≠ 2 := by
  rw [skEncode_seven]
  split
  · decide
  · split <;> decide

/-! ### The obligation -/

/-- Settles O17: the three decoders, code by code, and that every code of a quantised block is that of a clamped grid code with a sign. -/
theorem skivedElements : Obligations.SkivedElements := by
  unfold Obligations.SkivedElements
  obtain ⟨h0, h1, h3, h2⟩ := skElem_sk2
  refine ⟨fun _ => skElem_sk8, skElem_sk4, h0, h1, h3, h2, fun xs rnd =>
    ⟨quantise_codes ?_ xs rnd, quantise_codes ?_ xs rnd, quantise_codes ?_ xs rnd⟩⟩
  · exact skEncode_sk8
  · exact skEncode_sk4
  · exact fun neg g _ => skEncode_sk2 neg g

end Sys2Proof.Machine
end

section
/-! PROOFS. What a ready sequencer instruction leaves (03 R74, R79 to R82, R87). -/

namespace Sys2Proof.Machine

/-! ### Reads of a core whose sequencer changed -/

@[simp] theorem State.arrival_modSeq (s : State) (p q : Nat) (f : Sequencer → Sequencer) (c : BitVec 8) :
    (s.modSeq p f).arrival q c = s.arrival q c := by
  rw [State.arrival, State.core_modSeq]
  split
  · next h => rw [h]; rfl
  · rfl

theorem signalled_modSeq {h : InsnHdr} {s t : State} {p : Nat} {f : Sequencer → Sequencer} (k : signalled h (s.modSeq p f) t) :
    signalled h s t := fun q c => by simpa using k q c

/-! ### The loop buffer takes a word (R80) -/

section
variable (q : Sequencer) (w : Insn)

@[simp] theorem Sequencer.recordInsn_pc : (q.recordInsn w).pc = q.pc := by rw [q.recordInsn_eq]
@[simp] theorem Sequencer.recordInsn_loops : (q.recordInsn w).loops = q.loops := by rw [q.recordInsn_eq]
@[simp] theorem Sequencer.recordInsn_offset (k : Nat) : (q.recordInsn w).offset k = q.offset k := by rw [q.recordInsn_eq]; rfl
@[simp] theorem Sequencer.recordInsn_reg (r : BitVec 5) : (q.recordInsn w).reg r = q.reg r := by rw [q.recordInsn_eq]; rfl

end

/-! ### One instruction of the pair -/

/-- The pair once both sequencers have stepped to `n`. -/
def Sequencer.confirmed (n : Sequencer) (op : SeqOp) (h : InsnHdr) (o : SeqOps) : Sequencer :=
  { n with
    trail := n.asTrailing, held := if op.halts then some (.seq h op o) else none,
    state := if op.halts then .haltDrain else .running }

/-- An instruction that is no halt leaves its pair running. -/
theorem Sequencer.confirmed_running {n : Sequencer} {op : SeqOp} (hh : op.halts = false) (hn : n.state = .running) (h : InsnHdr)
    (o : SeqOps) : n.confirmed op h o = { n with trail := n.asTrailing, held := none } := by
  rw [confirmed, hh, hn]
  rfl

theorem signalHdr_running {op : SeqOp} (hh : op.halts = false) (h : InsnHdr) : signalHdr op h = h := by
  rw [signalHdr, hh]
  rfl

/-- A pair in step makes one step. -/
theorem seqAfter_of_inStep {s : State} {h : InsnHdr} (e : inStep (s.core h.core).seq) (op : SeqOp) (o : SeqOps) :
    seqAfter op h o s = (seqStep s (s.core h.core).seq op h o).confirmed op h o := by
  rw [seqAfter, e.trailView]
  rfl

/-- A result depends on the module by its arrival counters and its time alone. -/
theorem seqResult_modSeq (s : State) (p : Nat) (f : Sequencer → Sequencer) (q : Sequencer) (k : Nat) (op : SeqOp) (h : InsnHdr)
    (o : SeqOps) : seqResult (s.modSeq p f) q k op h o = seqResult s q k op h o := by
  cases op
  case cread => simp only [seqResult, State.arrival_modSeq]
  all_goals rfl

/-- A result depends on a sequencer by its registers alone. -/
theorem seqResult_recordInsn (s : State) (q : Sequencer) (w : Insn) (k : Nat) (op : SeqOp) (h : InsnHdr) (o : SeqOps) :
    seqResult s (q.recordInsn w) k op h o = seqResult s q k op h o := by
  simp only [seqResult, Sequencer.recordInsn_reg]

theorem seqCounter_modSeq (s : State) (p : Nat) (f : Sequencer → Sequencer) (q : Sequencer) (k : Nat) (op : SeqOp) (h : InsnHdr)
    (o : SeqOps) : seqCounter (s.modSeq p f) q k op h o = seqCounter s q k op h o := by
  cases op
  case cadd => simp only [seqCounter, State.arrival_modSeq]
  all_goals rfl

theorem seqStep_modSeq (s : State) (p : Nat) (f : Sequencer → Sequencer) (q : Sequencer) (op : SeqOp) (h : InsnHdr) (o : SeqOps) :
    seqStep (s.modSeq p f) q op h o = seqStep s q op h o := by
  rw [seqStep, seqStep, seqResult_modSeq]

theorem exec_of_seqForm {i : Instr} {op : SeqOp} {h : InsnHdr} {o : SeqOps} (hi : seqForm i = some (op, h, o)) (s : State) :
    exec i s = .next (seqDecode op h o s) := by
  unfold seqForm at hi
  split at hi <;> cases hi <;> rfl

theorem insnOf_of_seqForm {i : Instr} {op : SeqOp} {h : InsnHdr} {o : SeqOps} (hi : seqForm i = some (op, h, o)) :
    insnOf i = seqWord op h o := by
  rw [insnOf, hi]

section
variable {i : Instr} {op : SeqOp} {h : InsnHdr} {o : SeqOps} {s : State}

/-- The sequencer of the instruction's core, once its loop buffer has taken the instruction. -/
def seqTaking (s : State) (op : SeqOp) (h : InsnHdr) (o : SeqOps) : Sequencer := (s.core h.core).seq.recordInsn (seqWord op h o)

theorem seqTaking_eq (hi : seqForm i = some (op, h, o)) :
    seqTaking s op h o = { (s.core h.core).seq with loopBuf := bufAfter s h.core (insnOf i) } := by
  rw [seqTaking, Sequencer.recordInsn_eq, bufAfter, insnOf_of_seqForm hi]

/-- A ready instruction steps its pair, counts, and raises its signal; one that writes its arrival counter has written it before. -/
theorem seqReady.runs (r : seqReady s op h o) (hi : seqForm i = some (op, h, o))
    (hf : (s.core h.core).fenceDone (fenceMask op o) = true) (hpc : (seqStep s (seqTaking s op h o) op h o).pc ≤ lastPc) :
    ∃ t, exec i s = .next t ∧ seqFrame h s t ∧
      (t.core h.core).seq = (seqStep s (seqTaking s op h o) op h o).confirmed op h o ∧
      (∀ v, seqCounter s (seqTaking s op h o) h.core op h o = some v →
        signalled (signalHdr op h) (s.setArrival h.core h.signalCtr v) t) ∧
      (seqCounter s (seqTaking s op h o) h.core op h o = none → signalled (signalHdr op h) s t) := by
  obtain ⟨-, -, -, hs, -⟩ := id r
  have hafter : seqAfter op h o (s.modSeq h.core fun q => q.recordInsn (seqWord op h o)) =
      (seqStep s (seqTaking s op h o) op h o).confirmed op h o := by
    have e : inStep ((s.modSeq h.core fun q => q.recordInsn (seqWord op h o)).core h.core).seq := by
      rw [State.core_modSeq_self]
      exact hs.recordInsn _
    rw [seqAfter_of_inStep e, seqStep_modSeq, State.core_modSeq_self]
    rfl
  obtain ⟨hframe, hseq, hsome, hnone⟩ := seqFinish_spec op h o (s.modSeq h.core fun q => q.recordInsn (seqWord op h o))
    (by rw [hafter]; exact hpc)
  rw [seqCounter_modSeq, State.core_modSeq_self] at hsome hnone
  refine ⟨_, ?_, hframe.record, hseq.trans hafter, fun v hv q c => ?_, fun hv => signalled_modSeq (hnone hv)⟩
  · rw [exec_of_seqForm hi, seqDecode_ready r hf]
  · simpa [State.arrival_setArrival] using hsome v hv q c

/-! ### Register instructions -/

/-- An instruction with a result writes its register and goes on in program order; it writes no counter and waits for no engine. -/
theorem seqStep_of_result {q : Sequencer} {v : W32} (hv : seqResult s q h.core op h o = some v) :
    seqStep s q op h o = (q.setReg o.d v).goOn (q.pc + 16) ∧ fenceMask op o = 0 ∧ op.halts = false ∧
      seqCounter s q h.core op h o = none := by
  have hpc : (q.setReg o.d v).pc = q.pc := by rw [q.setReg_eq]
  rw [seqStep, hv, ← hpc]
  cases op
  case nop | halt | fence | br | brc | loop | loopi | setoff | addoff | addoffi | cset | cadd | aWaitall | aLoopn | aSync | aEnd =>
    nomatch hv
  all_goals
    refine ⟨?_, rfl, rfl, rfl⟩
    unfold seqOffset
    cases offsetIndex o.sel <;> rfl

/-- The meaning of a ready register instruction is its result in its register. -/
theorem seqReady.writes (r : seqReady s op h o) (hi : seqForm i = some (op, h, o)) {v : W32}
    (hv : seqResult s (seqTaking s op h o) h.core op h o = some v) (hpc : (seqOnward s h.core).1 ≤ lastPc) :
    seqWrites i h o.d v s := by
  obtain ⟨hstep, hmask, hhalt, hctr⟩ := seqStep_of_result hv
  have hq : (seqTaking s op h o).setReg o.d v = { (s.core h.core).seq with
      regs := ((seqTaking s op h o).setReg o.d v).regs, loopBuf := bufAfter s h.core (insnOf i) } := by
    rw [Sequencer.setReg_eq, seqTaking_eq hi]
  have hn : ((seqTaking s op h o).setReg o.d v).goOn ((seqTaking s op h o).pc + 16) = { (s.core h.core).seq with
      regs := ((seqTaking s op h o).setReg o.d v).regs, loopBuf := bufAfter s h.core (insnOf i),
      pc := (seqOnward s h.core).1, loops := (seqOnward s h.core).2 } := by
    rw [hq, Sequencer.goOn, seqTaking, Sequencer.recordInsn_pc]
    rfl
  obtain ⟨t, hx, hframe, hseq, -, hsig⟩ := r.runs hi (by rw [hmask]; exact Core.fenceDone_zero _) (by rw [hstep, hn]; exact hpc)
  obtain ⟨-, hrun, -⟩ := r
  have hsig := hsig hctr
  rw [signalHdr_running hhalt] at hsig
  rw [hstep, hn, Sequencer.confirmed_running hhalt (by exact hrun)] at hseq
  refine ⟨t, hx, fun r => ?_, ?_, ?_, hsig, hframe⟩
  · rw [hseq]
    refine (Sequencer.reg_setReg (seqTaking s op h o) o.d r v).trans ?_
    rw [seqTaking, Sequencer.recordInsn_reg]
  · rw [hseq]
    rfl
  · rw [hseq]
    rfl

/-! ### Control instructions -/

/-- The operations that write the program counter and the loop stack and nothing else. -/
def SeqOp.controls (op : SeqOp) : Bool :=
  match op with
  | .nop | .halt | .fence | .br | .brc | .loop | .loopi | .aWaitall | .aLoopn | .aSync | .aEnd => true
  | _ => false

theorem seqStep_of_controls (hop : op.controls = true) (q : Sequencer) :
    seqStep s q op h o = seqControl q op h o ∧ seqCounter s q h.core op h o = none := by
  cases op
  case li | add | addi | sub | mul | shift | logic | setoff | addoff | addoffi | cset | cadd | cread | time => nomatch hop
  all_goals
    refine ⟨?_, rfl⟩
    unfold seqStep seqOffset
    cases offsetIndex o.sel <;> rfl

/-- A ready control instruction moves its pair, which runs on. -/
theorem seqReady.moves (r : seqReady s op h o) (hi : seqForm i = some (op, h, o)) (hop : op.controls = true) (hh : op.halts = false)
    (hf : (s.core h.core).fenceDone (fenceMask op o) = true) {pc : Nat} {loops : List LoopFrame} {buf : Tab Insn}
    (hq : seqControl (seqTaking s op h o) op h o = { (s.core h.core).seq with pc := pc, loops := loops, loopBuf := buf })
    (hpc : pc ≤ lastPc) : seqMovesWith i h pc loops buf s := by
  obtain ⟨hstep, hctr⟩ := seqStep_of_controls (s := s) (h := h) (o := o) hop (seqTaking s op h o)
  obtain ⟨t, hx, hframe, hseq, -, hsig⟩ := r.runs hi hf (by rw [hstep, hq]; exact hpc)
  obtain ⟨-, hrun, -⟩ := r
  have hsig := hsig hctr
  rw [signalHdr_running hh] at hsig
  rw [hstep, hq, Sequencer.confirmed_running hh (by exact hrun)] at hseq
  exact ⟨t, hx, hseq, hsig, hframe⟩

/-- A ready halt keeps its place, and its pair drains. -/
theorem seqReady.stops (r : seqReady s op h o) (hi : seqForm i = some (op, h, o)) (hop : op.controls = true) (hh : op.halts = true)
    (hpc : (s.core h.core).seq.pc ≤ lastPc) : seqHalts i op h o s := by
  obtain ⟨hstep, hctr⟩ := seqStep_of_controls (s := s) (h := h) (o := o) hop (seqTaking s op h o)
  have hq : seqControl (seqTaking s op h o) op h o = seqTaking s op h o ∧ fenceMask op o = 0 := by
    cases op
    case halt | aEnd => exact ⟨rfl, rfl⟩
    all_goals nomatch hh
  obtain ⟨hstay, hmask⟩ := hq
  rw [hstay] at hstep
  obtain ⟨t, hx, hframe, hseq, -, hsig⟩ := r.runs hi (by rw [hmask]; exact Core.fenceDone_zero _)
    (by rw [hstep, seqTaking_eq hi]; exact hpc)
  have hsig := hsig hctr
  rw [signalHdr, hh] at hsig
  rw [hstep, Sequencer.confirmed, hh, seqTaking_eq hi] at hseq
  exact ⟨t, hx, hseq, hsig, hframe⟩

/-- Going on at `next` in program order. -/
theorem seqTaking_goOn (hi : seqForm i = some (op, h, o)) (next : Nat) : (seqTaking s op h o).goOn next =
    { (s.core h.core).seq with
      pc := (loopNext next (s.core h.core).seq.loops).1, loops := (loopNext next (s.core h.core).seq.loops).2,
      loopBuf := bufAfter s h.core (insnOf i) } := by
  rw [seqTaking_eq hi, Sequencer.goOn]

/-- A ready instruction that goes on in program order. -/
theorem seqReady.goes (r : seqReady s op h o) (hi : seqForm i = some (op, h, o)) (hop : op.controls = true) (hh : op.halts = false)
    (hf : (s.core h.core).fenceDone (fenceMask op o) = true)
    (hq : seqControl (seqTaking s op h o) op h o = (seqTaking s op h o).goOn ((seqTaking s op h o).pc + 16))
    (hpc : (seqOnward s h.core).1 ≤ lastPc) : seqMoves i h (seqOnward s h.core).1 (seqOnward s h.core).2 s := by
  refine r.moves hi hop hh hf ?_ hpc
  rw [hq, seqTaking_goOn hi, seqTaking, Sequencer.recordInsn_pc]
  rfl

/-- A ready instruction that branches. -/
theorem seqReady.branches (r : seqReady s op h o) (hi : seqForm i = some (op, h, o)) (hop : op.controls = true) (hh : op.halts = false)
    (hm : fenceMask op o = 0) {target : Nat} (hq : seqControl (seqTaking s op h o) op h o = (seqTaking s op h o).branchTo target)
    (ht : targetOk target = true) :
    seqMoves i h target ((s.core h.core).seq.loops.filter fun fr => fr.contains target) s := by
  refine r.moves hi hop hh (by rw [hm]; exact Core.fenceDone_zero _) ?_ (by simpa [targetOk] using ht : _ ∧ _).2
  rw [hq, seqTaking_eq hi, Sequencer.branchTo]

end

/-! ### The obligation -/

/-- Settles O2: each instruction is ready with a result, and an instruction with a result writes it into its register. -/
theorem registerInstructionResults : Obligations.RegisterInstructionResults := by
  unfold Obligations.RegisterInstructionResults
  intro s h o hpc
  have writes {i : Instr} {op : SeqOp} {v : W32} (hi : seqForm i = some (op, h, o))
      (hv : seqResult s (s.core h.core).seq h.core op h o = some v) (r : seqReady s op h o) : seqWrites i h o.d v s :=
    r.writes hi ((seqResult_recordInsn _ _ _ _ _ _ _).trans hv) hpc
  refine ⟨writes rfl rfl, writes rfl rfl, writes rfl rfl, writes rfl rfl, writes rfl rfl,
    fun r => ⟨fun hs => writes rfl ?_ r, fun hs => writes rfl ?_ r, fun hs => writes rfl ?_ r⟩,
    fun r => ⟨fun hs => writes rfl ?_ r, fun hs => writes rfl ?_ r, fun hs => writes rfl ?_ r⟩,
    writes rfl (congrArg some (BitVec.ofNat_toNat _ _).symm), writes rfl (congrArg some (BitVec.eq_of_toNat_eq (by simp [State.time])))⟩
  all_goals rw [seqResult, hs]; rfl

/-! ### What a ready instruction's operands are (R78, R80, R81) -/

section
variable {s : State} {h : InsnHdr} {o : SeqOps} {op : SeqOp}

theorem seqReady.operands (r : seqReady s op h o) : seqOperandCheck (s.core h.core).seq op h o = 0 := by
  obtain ⟨-, -, -, -, -, -, -, -, hop, -⟩ := r
  exact hop

theorem seqReady.fields (r : seqReady s op h o) : seqFieldsOk op h o = true := by
  obtain ⟨-, -, -, -, -, -, -, hfields, -⟩ := r
  exact hfields

/-- The target of a ready branch lies in the slice. -/
theorem seqReady.br_target (r : seqReady s .br h o) : targetOk o.imm.toNat = true := by
  have hop := r.operands
  rw [seqOperandCheck] at hop
  split at hop
  · next ht => exact ht
  · nomatch hop

/-- A ready conditional branch names a comparison, and its target lies in the slice. -/
theorem seqReady.brc_operands (r : seqReady s .brc h o) : o.sel.toNat ≤ 5 ∧ targetOk o.imm.toNat = true := by
  have hop := r.operands
  rw [seqOperandCheck] at hop
  split at hop
  · nomatch hop
  · next hs =>
    split at hop
    · next ht => exact ⟨not_lt.1 hs, ht⟩
    · nomatch hop

/-- The mask of a ready fence has three bits. -/
theorem seqReady.fence_mask (r : seqReady s .fence h o) : fenceMask .fence o = o.imm.toNat := by
  have hf := r.fields
  simp only [seqFieldsOk, Bool.and_eq_true, decide_eq_true_eq] at hf
  obtain ⟨-, ⟨-, hm⟩, -⟩ := hf
  exact Nat.mod_eq_of_lt hm

end

/-- The comparison that the model makes is that of R79. -/
theorem brcHolds_iff {sel : BitVec 4} (hs : sel.toNat ≤ 5) (x y : W32) : brcHolds sel.toNat x y = true ↔ brcTaken sel x y := by
  have cases : sel = 0 ∨ sel = 1 ∨ sel = 2 ∨ sel = 3 ∨ sel = 4 ∨ sel = 5 := by bv_omega
  unfold brcTaken brcHolds
  rcases cases with rfl | rfl | rfl | rfl | rfl | rfl <;> simp [BitVec.slt, BitVec.ult]

/-- A.WAITALL waits until every engine is done. -/
theorem Core.fenceDone_seven (c : Core) : c.fenceDone 7 = c.drained := by
  simp [Core.fenceDone, Core.drained, bitAt]

/-- Settles O3: a ready control instruction goes on in program order, branches, or stops. -/
theorem controlInstructionResults : Obligations.ControlInstructionResults := by
  unfold Obligations.ControlInstructionResults
  intro s h o
  have zero (op : SeqOp) (hm : fenceMask op o = 0) : (s.core h.core).fenceDone (fenceMask op o) = true := by
    rw [hm]; exact Core.fenceDone_zero _
  have branch (q : Sequencer) : seqControl q .brc h o =
      if brcHolds o.sel.toNat (q.reg o.a) (q.reg o.b) then q.branchTo o.imm.toNat else q.goOn (q.pc + 16) := rfl
  refine ⟨fun r hpc => r.goes rfl rfl rfl (zero _ rfl) rfl hpc, fun r hpc => r.goes rfl rfl rfl (zero _ rfl) rfl hpc,
    fun r hpc hf => r.goes rfl rfl rfl (by rwa [r.fence_mask]) rfl hpc,
    fun r hpc hd => r.goes rfl rfl rfl ((Core.fenceDone_seven _).trans hd) rfl hpc,
    fun r => r.branches rfl rfl rfl rfl rfl r.br_target, fun r hb => ?_, fun r hb hpc => ?_,
    fun r hpc => r.stops rfl rfl rfl hpc, fun r hpc => r.stops rfl rfl rfl hpc⟩
  · obtain ⟨hs, ht⟩ := r.brc_operands
    refine r.branches rfl rfl rfl rfl ?_ ht
    rw [branch, seqTaking, Sequencer.recordInsn_reg, Sequencer.recordInsn_reg, if_pos ((brcHolds_iff hs _ _).2 hb)]
  · obtain ⟨hs, -⟩ := r.brc_operands
    refine r.goes rfl rfl rfl (zero _ rfl) ?_ hpc
    rw [branch, seqTaking, Sequencer.recordInsn_reg, Sequencer.recordInsn_reg, if_neg (mt (brcHolds_iff hs _ _).1 hb)]

/-! ### Loops (R80, R87) -/

section
variable {s : State} {h : InsnHdr} {o : SeqOps} {op : SeqOp} {i : Instr}

/-- The operations that open a loop of a number of passes. -/
def SeqOp.opens (op : SeqOp) (h : InsnHdr) (o : SeqOps) (q : Sequencer) (trips : Nat) : Prop :=
  op.controls = true ∧ op.halts = false ∧ fenceMask op o = 0 ∧ seqOperandCheck q op h o = loopCheck q h ∧
    ∀ w, seqControl (q.recordInsn w) op h o = (q.recordInsn w).openLoop h.count.toNat trips

/-- The first word of a body that lies in the slice lies in it. -/
theorem loopCheck_ok {q : Sequencer} (hc : loopCheck q h = 0) : q.pc + 16 ≤ lastPc := by
  unfold loopCheck at hc
  split at hc
  · nomatch hc
  · next hn =>
    split at hc
    · nomatch hc
    · have hpos : h.count.toNat ≠ 0 := fun h0 => hn (.inl (BitVec.eq_of_toNat_eq h0))
      unfold lastPc
      omega

/-- A ready loop instruction opens its loop, or goes on behind the body. -/
theorem seqReady.opens (r : seqReady s op h o) (hi : seqForm i = some (op, h, o)) {trips : Nat}
    (hop : op.opens h o (s.core h.core).seq trips) :
    let pc := (s.core h.core).seq.pc
    let loops := (s.core h.core).seq.loops
    let skip := loopNext (pc + 16 + 16 * h.count.toNat) loops
    (0 < trips →
      seqMovesWith i h (pc + 16) ({ start := pc + 16, len := h.count.toNat, passes := trips } :: loops) [] s) ∧
    (trips = 0 → skip.1 ≤ lastPc → seqMoves i h skip.1 skip.2 s) := by
  obtain ⟨hctl, hhalt, hmask, hcheck, hq⟩ := hop
  have hf : (s.core h.core).fenceDone (fenceMask op o) = true := by rw [hmask]; exact Core.fenceDone_zero _
  refine ⟨fun hpos => r.moves hi hctl hhalt hf ?_ (loopCheck_ok (hcheck.symm.trans r.operands)),
    fun h0 hpc => r.moves hi hctl hhalt hf ?_ hpc⟩
  · rw [seqTaking, hq, Sequencer.openLoop, if_neg (by omega), Sequencer.recordInsn_eq]
  · rw [seqTaking, hq, Sequencer.openLoop, if_pos h0]
    refine (seqTaking_goOn hi _).trans ?_
    rw [Sequencer.recordInsn_pc]

end

/-- Settles O4: LOOP, LOOPI and A.LOOPN differ by where their number of passes stands. -/
theorem loopInstructionResults : Obligations.LoopInstructionResults := by
  unfold Obligations.LoopInstructionResults
  rintro s h o i trips (⟨rfl, r, rfl⟩ | ⟨rfl, r, rfl⟩ | ⟨rfl, r, rfl⟩)
  · refine r.opens rfl ⟨rfl, rfl, rfl, rfl, fun w => ?_⟩
    rw [seqControl, Sequencer.recordInsn_reg]
  · exact r.opens rfl ⟨rfl, rfl, rfl, rfl, fun _ => rfl⟩
  · exact r.opens rfl ⟨rfl, rfl, rfl, rfl, fun _ => rfl⟩

/-! ### Offsets and arrival counters (R71, R82) -/

section
variable {s : State} {h : InsnHdr} {o : SeqOps} {op : SeqOp} {i : Instr}

/-- An instruction that writes an offset register writes nothing else and goes on in program order. -/
theorem seqStep_of_offset {q : Sequencer} {k : Nat} {v : W32} (hv : seqOffset q op o = some (k, v)) :
    seqStep s q op h o = { q with offsets := Tab.set q.offsets k v }.goOn (q.pc + 16) ∧ fenceMask op o = 0 ∧ op.halts = false ∧
      seqCounter s q h.core op h o = none := by
  rw [seqStep, hv]
  unfold seqOffset at hv
  split at hv
  · nomatch hv
  · cases op
    case setoff | addoff | addoffi => exact ⟨rfl, rfl, rfl, rfl⟩
    all_goals nomatch hv

/-- The meaning of a ready offset instruction is its value in its offset register. -/
theorem seqReady.sets (r : seqReady s op h o) (hi : seqForm i = some (op, h, o)) {k : Nat} {v : W32}
    (hv : seqOffset (seqTaking s op h o) op o = some (k, v)) (hpc : (seqOnward s h.core).1 ≤ lastPc) :
    ∃ t, exec i s = .next t ∧
      (∀ j, (t.core h.core).seq.offset j = if j = k then v else (s.core h.core).seq.offset j) ∧
      inStep (t.core h.core).seq ∧
      (t.core h.core).seq = { pairAt s h.core (seqOnward s h.core).1 (seqOnward s h.core).2 (bufAfter s h.core (insnOf i)) with
        offsets := (t.core h.core).seq.offsets, trail := (t.core h.core).seq.trail } ∧
      signalled h s t ∧ seqFrame h s t := by
  obtain ⟨hstep, hmask, hhalt, hctr⟩ := seqStep_of_offset (s := s) (h := h) hv
  have hn : seqStep s (seqTaking s op h o) op h o = { (s.core h.core).seq with
      offsets := Tab.set (s.core h.core).seq.offsets k v, loopBuf := bufAfter s h.core (insnOf i),
      pc := (seqOnward s h.core).1, loops := (seqOnward s h.core).2 } := by
    rw [hstep, seqTaking_eq hi, Sequencer.goOn]
    rfl
  obtain ⟨t, hx, hframe, hseq, -, hsig⟩ := r.runs hi (by rw [hmask]; exact Core.fenceDone_zero _) (by rw [hn]; exact hpc)
  obtain ⟨-, hrun, -⟩ := r
  have hsig := hsig hctr
  rw [signalHdr_running hhalt] at hsig
  rw [hn, Sequencer.confirmed_running hhalt (by exact hrun)] at hseq
  refine ⟨t, hx, fun j => ?_, ?_, ?_, hsig, hframe⟩
  · rw [hseq]
    exact Tab.get_set _ _ _ _ _
  · rw [hseq]
    rfl
  · rw [hseq]
    rfl

/-- An instruction that writes an arrival counter changes no register and goes on in program order. -/
theorem seqStep_of_counter {q : Sequencer} {v : Half} (hv : seqCounter s q h.core op h o = some v) :
    seqStep s q op h o = q.goOn (q.pc + 16) ∧ fenceMask op o = 0 ∧ op.halts = false ∧ op.ownsCtr = true := by
  cases op
  case cset | cadd =>
    refine ⟨?_, rfl, rfl, rfl⟩
    unfold seqStep seqOffset
    cases offsetIndex o.sel <;> rfl
  all_goals nomatch hv

/-- The meaning of a ready counter instruction is its value in its arrival counter; it raises no signal. -/
theorem seqReady.counts (r : seqReady s op h o) (hi : seqForm i = some (op, h, o)) {v : Half}
    (hv : seqCounter s (seqTaking s op h o) h.core op h o = some v) (hpc : (seqOnward s h.core).1 ≤ lastPc) :
    ∃ t, exec i s = .next t ∧
      (∀ q c, t.arrival q c = if q = h.core ∧ c = h.signalCtr then v else s.arrival q c) ∧
      (t.core h.core).seq = pairAt s h.core (seqOnward s h.core).1 (seqOnward s h.core).2 (bufAfter s h.core (insnOf i)) ∧
      seqFrame h s t := by
  obtain ⟨hstep, hmask, hhalt, hown⟩ := seqStep_of_counter hv
  have hn : seqStep s (seqTaking s op h o) op h o = { (s.core h.core).seq with
      pc := (seqOnward s h.core).1, loops := (seqOnward s h.core).2, loopBuf := bufAfter s h.core (insnOf i) } := by
    rw [hstep, seqTaking_goOn hi, seqTaking, Sequencer.recordInsn_pc]
    rfl
  obtain ⟨t, hx, hframe, hseq, hsig, -⟩ := r.runs hi (by rw [hmask]; exact Core.fenceDone_zero _) (by rw [hn]; exact hpc)
  obtain ⟨-, hrun, -, -, -, -, hsync, -⟩ := r
  have hquiet : h.signal = false := by
    simp only [syncOk, hown, if_true, Bool.and_eq_true, Bool.not_eq_true'] at hsync
    exact hsync.2
  have hsig := hsig v hv
  rw [signalHdr_running hhalt] at hsig
  rw [hn, Sequencer.confirmed_running hhalt (by exact hrun)] at hseq
  refine ⟨t, hx, fun q c => ?_, hseq, hframe⟩
  rw [hsig q c, hquiet, State.arrival_setArrival]
  simp

end

/-- Settles O5: the three offset instructions set an offset register, and CSET and CADD an arrival counter. -/
theorem offsetAndCounterResults : Obligations.OffsetAndCounterResults := by
  unfold Obligations.OffsetAndCounterResults
  refine ⟨?_, ?_⟩
  · rintro s h o i k v hpc hk (⟨rfl, r, rfl⟩ | ⟨rfl, r, rfl⟩ | ⟨rfl, r, rfl⟩)
    · exact r.sets rfl (by simp only [seqOffset, hk, seqTaking, Sequencer.recordInsn_reg, offsetValue]) hpc
    · exact r.sets rfl (by simp only [seqOffset, hk, seqTaking, Sequencer.recordInsn_reg, Sequencer.recordInsn_offset, offsetValue]) hpc
    · exact r.sets rfl (by simp only [seqOffset, hk, seqTaking, Sequencer.recordInsn_offset, offsetValue]) hpc
  · rintro s h o i v hpc (⟨rfl, r, rfl⟩ | ⟨rfl, r, rfl⟩)
    · exact r.counts rfl (by simp [seqCounter, seqTaking]) hpc
    · exact r.counts rfl (by simp [seqCounter]) hpc

end Sys2Proof.Machine
end

section
/-! PROOFS. The word of a sequencer instruction and the command that it spells (03 R68, R78, R79, R87). -/

namespace Sys2Proof.Machine

/-! ### Fields of a word (R68) -/

theorem insnField_of {w : Insn} {lo n : Nat} {v : BitVec n} (h : w.toNat / 2 ^ lo % 2 ^ n = v.toNat) : insnField w lo n = v := by
  refine BitVec.eq_of_toNat_eq ?_
  rw [insnField, BitVec.extractLsb'_toNat, Nat.shiftRight_eq_div_pow, h]

theorem insnBit_of {w : Insn} {i : Nat} {b : Bool} (h : w.toNat / 2 ^ i % 2 = boolNat b) : insnBit w i = b := by
  rw [insnBit, BitVec.getLsbD, Nat.testBit_eq_decide_div_mod_eq, h]
  cases b <;> rfl

theorem boolNat_lt (b : Bool) : boolNat b < 2 := by cases b <;> decide

/-- The word has its opcode, its engine, its header and its operand bits, each in its own place. -/
theorem wordOf_fields {opcode engine operands : Nat} {h : InsnHdr} (hop : opcode < 2 ^ 8) (he : engine < 2 ^ 2)
    (hx : operands < 2 ^ 72) (ha : h.agree = true) :
    (insnField (wordOf opcode engine h operands) 120 8).toNat = opcode ∧
    (insnField (wordOf opcode engine h operands) 118 2).toNat = engine ∧
    hdrOf h.core (wordOf opcode engine h operands) = h ∧ (wordOf opcode engine h operands).toNat % 2 ^ 72 = operands := by
  obtain ⟨core, wait, signal, waitCtr, count, waitValue, signalCtr, agree⟩ := h
  obtain rfl : agree = true := ha
  have h1 := boolNat_lt wait
  have h2 := boolNat_lt signal
  have h3 := waitCtr.isLt
  have h4 := count.isLt
  have h5 := waitValue.isLt
  have h6 := signalCtr.isLt
  unfold wordOf hdrOf
  dsimp only
  generalize hw : opcode * 2 ^ 120 + engine * 2 ^ 118 + boolNat wait * 2 ^ 117 + boolNat signal * 2 ^ 116 +
    waitCtr.toNat * 2 ^ 108 + count.toNat * 2 ^ 96 + waitValue.toNat * 2 ^ 80 + signalCtr.toNat * 2 ^ 72 + operands = n
  have hn : (BitVec.ofNat 128 n).toNat = n := by
    rw [BitVec.toNat_ofNat, Nat.mod_eq_of_lt]
    omega
  have hbit (i : Nat) {b : Bool} (hb : n / 2 ^ i % 2 = boolNat b) : insnBit (BitVec.ofNat 128 n) i = b :=
    insnBit_of (hn.symm ▸ hb)
  have hfield (lo : Nat) {k : Nat} {v : BitVec k} (hv : n / 2 ^ lo % 2 ^ k = v.toNat) : insnField (BitVec.ofNat 128 n) lo k = v :=
    insnField_of (hn.symm ▸ hv)
  refine ⟨?_, ?_, ?_, ?_⟩
  · rw [hfield 120 (v := BitVec.ofNat 8 opcode) (by rw [BitVec.toNat_ofNat]; omega), BitVec.toNat_ofNat, Nat.mod_eq_of_lt hop]
  · rw [hfield 118 (v := BitVec.ofNat 2 engine) (by rw [BitVec.toNat_ofNat]; omega), BitVec.toNat_ofNat, Nat.mod_eq_of_lt he]
  · rw [hbit 117 (b := wait) (by omega), hbit 116 (b := signal) (by omega), hfield 108 (v := waitCtr) (by omega),
      hfield 96 (v := count) (by omega), hfield 80 (v := waitValue) (by omega), hfield 72 (v := signalCtr) (by omega)]
  · rw [hn]
    omega

/-! ### Sequencer instructions (R78, R79, R87) -/

theorem seqOperands_lt (o : SeqOps) : seqOperands o < 2 ^ 72 := by
  have h1 := o.d.isLt
  have h2 := o.a.isLt
  have h3 := o.b.isLt
  have h4 := o.sel.isLt
  have h5 := o.rsv.isLt
  have h6 := o.imm.isLt
  unfold seqOperands
  omega

/-- A word whose operand bits are those of `o` has the operands `o`. -/
theorem seqOpsOf_eq {w : Insn} {o : SeqOps} (hw : w.toNat % 2 ^ 72 = seqOperands o) : seqOpsOf w = o := by
  obtain ⟨d, a, b, sel, rsv, imm⟩ := o
  have h1 := d.isLt
  have h2 := a.isLt
  have h3 := b.isLt
  have h4 := sel.isLt
  have h5 := rsv.isLt
  have h6 := imm.isLt
  unfold seqOperands at hw
  dsimp only at hw
  rw [seqOpsOf, insnField_of (v := d) (by omega), insnField_of (v := a) (by omega), insnField_of (v := b) (by omega),
    insnField_of (v := sel) (by omega), insnField_of (v := rsv) (by omega), insnField_of (v := imm) (by omega)]

theorem SeqOp.ofOpcode_opcode (op : SeqOp) : SeqOp.ofOpcode op.opcode = some op := by cases op <;> rfl

theorem SeqOp.opcode_lt (op : SeqOp) : op.opcode < 2 ^ 8 := by cases op <;> decide

theorem SeqOp.command_of_seqForm {i : Instr} {op : SeqOp} {h : InsnHdr} {o : SeqOps} (hi : seqForm i = some (op, h, o)) :
    op.command h o = i := by
  unfold seqForm at hi
  split at hi <;> cases hi <;> rfl

/-- The word of a sequencer instruction decodes to it. -/
theorem decodeInsn_seqWord {i : Instr} {op : SeqOp} {h : InsnHdr} {o : SeqOps} (hi : seqForm i = some (op, h, o))
    (ha : h.agree = true) : decodeInsn h.core (seqWord op h o) = some i := by
  obtain ⟨hopcode, hengine, hhdr, hops⟩ := wordOf_fields (engine := 0) op.opcode_lt (by decide) (seqOperands_lt o) ha
  unfold decodeInsn seqWord
  rw [hopcode, hengine, hhdr, seqOpsOf_eq hops]
  dsimp only
  rw [SeqOp.ofOpcode_opcode, Option.map_some, SeqOp.command_of_seqForm hi]
  rfl

end Sys2Proof.Machine
end

section
/-! PROOFS. Waits, fences and violations of the sequencer (01 R25; 03 R70, R73, R79, R86; 16 R420). -/

namespace Sys2Proof.Machine

/-! ### The freeze of a core (R25, R86, R420) -/

section
variable (s : State) (sub master code i : Nat) (gen : BitVec 8)

/-- A record that finds room stands in its place among the unread ones. -/
theorem State.rel_postFreeze (hroom : s.rel.frozen.length < 128) :
    (s.postFreeze sub master code (some (i, gen))).rel =
      { s.rel with
        frozen := placeFreeze s.rel.frozen
          { time := s.clk.now, subsystem := sub, master := master, code := BitVec.ofNat 16 code, ctx := i, gen := gen,
            ctxValid := true } } := by
  rw [State.postFreeze, if_pos hroom]
  rfl

/-- A record of a context opens its claim window, and every other context stays. -/
theorem State.ctx_postFreeze (j : Nat) :
    (s.postFreeze sub master code (some (i, gen))).ctx j = if j = i then (s.ctx i).openClaim code else s.ctx j := by
  unfold State.postFreeze
  dsimp only
  rw [State.ctx_modCtx]
  split_ifs <;> rfl

end

/-- A violation freezes its core. -/
theorem State.freezeSeq_froze (s : State) (p code : Nat) : seqFroze p code s (s.freezeSeq p code) := by
  have hpost := State.postFreeze_frame (s.modSeq p fun q => { q with state := .frozen }) (subsystemOf code) p code
    (some ((s.core p).ctx, (s.core p).gen))
  have hctx := State.ctx_postFreeze (s.modSeq p fun q => { q with state := .frozen }) (subsystemOf code) p code (s.core p).ctx
    (s.core p).gen
  refine ⟨?_, fun q hq => ?_, fun hroom => ?_, ?_, fun i hi => ?_, ?_⟩
  · rw [State.core_freezeSeq, if_pos rfl]
  · rw [State.core_freezeSeq, if_neg hq]
  · exact State.rel_postFreeze (s.modSeq p fun q => { q with state := .frozen }) _ _ _ _ _ hroom
  · exact (hctx _).trans (if_pos rfl)
  · exact (hctx _).trans (if_neg hi)
  · obtain ⟨cmd, rel, mgt, counters, draws, h⟩ := hpost
    rw [State.freezeSeq, State.freezeCore, h]
    exact ⟨rfl, rfl, rfl, rfl, rfl⟩

/-! ### Waits and fences (R70, R73, R79) -/

@[simp] theorem State.waitMet_modSeq (s : State) (p q : Nat) (f : Sequencer → Sequencer) (h : InsnHdr) :
    (s.modSeq p f).waitMet q h = s.waitMet q h := by
  rw [State.waitMet, State.waitMet, State.arrival_modSeq]

@[simp] theorem seqWaitMet_modSeq (op : SeqOp) (h : InsnHdr) (s : State) (p : Nat) (f : Sequencer → Sequencer) :
    seqWaitMet op h (s.modSeq p f) = seqWaitMet op h s := by
  rw [seqWaitMet, seqWaitMet, State.arrival_modSeq, State.waitMet_modSeq]

section
variable {op : SeqOp} {h : InsnHdr} {o : SeqOps} {s : State}

/-- The engines of a core stand as they were when its loop buffer has taken a word. -/
theorem State.fenceDone_recordInsn (s : State) (p : Nat) (w : Insn) (mask : Nat) :
    ((s.modSeq p fun q => q.recordInsn w).core p).fenceDone mask = (s.core p).fenceDone mask := by
  rw [State.core_modSeq_self, Sequencer.recordInsn_eq]
  rfl

section
variable (hc : s.clocked h.core = true) (hrun : (s.core h.core).seq.state = .running)
  (ha : (s.core h.core).seq.admits (seqWord op h o) = true)
include hc hrun ha

/-- A decode that finds no violation goes on with its instruction. -/
theorem seqDecode_proceeds (hv : seqViolation s (s.core h.core).seq op h o = 0) :
    seqDecode op h o s = seqProceed op h o (s.modSeq h.core fun q => q.recordInsn (seqWord op h o)) := by
  rw [seqDecode]
  simp only [hc, hrun, ha, hv]
  rfl

/-- A decode that finds a violation of its own instruction freezes the core. -/
theorem seqDecode_freezes {code : Nat} (hv : seqViolation s (s.core h.core).seq op h o = code) (h0 : code ≠ 0) (h1 : code ≠ 0x0801) :
    seqDecode op h o s = s.freezeSeq h.core code := by
  have hruns : (!s.clocked h.core || (s.core h.core).seq.state ≠ .running || !(s.core h.core).seq.admits (seqWord op h o)) = false := by
    simp [hc, hrun, ha]
  rw [seqDecode, hruns, if_neg Bool.false_ne_true, hv]
  split
  · contradiction
  · contradiction
  · rfl

end

/-- An instruction whose wait does not hold is held. -/
theorem seqProceed_waits (hw : seqWaitMet op h s = false) :
    seqProceed op h o s = s.modSeq h.core fun q => { q with state := .waiting, held := some (.seq h op o) } := by
  rw [seqProceed, hw]
  rfl

/-- An instruction whose engines still work is held. -/
theorem seqProceed_fences (hw : seqWaitMet op h s = true) (hf : (s.core h.core).fenceDone (fenceMask op o) = false) :
    seqProceed op h o s = s.modSeq h.core fun q => { q with state := .fence, held := some (.seq h op o) } := by
  rw [seqProceed, hw, hf]
  rfl

/-- An instruction that may go on takes effect. -/
theorem seqProceed_finishes (hw : seqWaitMet op h s = true) (hf : (s.core h.core).fenceDone (fenceMask op o) = true) :
    seqProceed op h o s = seqFinish op h o s := by
  rw [seqProceed, hw, hf]
  rfl

end

/-! ### Reserved opcodes (R86) -/

theorem exec_illegalInstruction (p : Nat) (w : Insn) (s : State) : exec (.illegalInstruction p w) s = execIllegalInstruction p w s := rfl

/-- A good word at the program counter is illegal where it spells no instruction. -/
theorem illegalInstruction_eq {s : State} {p : Nat} {w : Insn} (hc : s.clocked p = true) (hrun : (s.core p).seq.state = .running)
    (ha : (s.core p).seq.admits w = true) (hf : (s.core p).seq.fetchFault = 0) :
    exec (.illegalInstruction p w) s = .next (if (decodeInsn p w).isSome then s else s.freezeSeq p 0x0802) := by
  have hruns : (!s.clocked p || (s.core p).seq.state ≠ .running || !(s.core p).seq.admits w) = false := by
    simp [hc, hrun, ha]
  have hfault : ¬(s.core p).seq.fetchFault ≠ 0 := not_not_intro hf
  rw [exec_illegalInstruction, execIllegalInstruction, hruns, if_neg Bool.false_ne_true, if_neg hfault]
  split <;> rfl

/-! ### The obligation -/

/-- Settles O6: a decode either goes on with its instruction, which its wait or its fence may hold, or freezes its core; the fields of a
sequencer instruction's word read back. -/
theorem waitsAndViolations : Obligations.WaitsAndViolations := by
  unfold Obligations.WaitsAndViolations
  refine ⟨fun s i op h o hi hc hrun ha hv => ?_, fun s => ⟨fun i op h o code hi hc hrun ha hv h0 h1 => ?_, fun p w hc hrun ha hf => ?_⟩,
    fun i op h o => decodeInsn_seqWord⟩
  · rw [exec_of_seqForm hi, seqDecode_proceeds hc hrun ha hv]
    refine ⟨fun hw => ?_, fun hw hf => ?_⟩
    · rw [seqProceed_waits (by rw [seqWaitMet_modSeq, hw])]
    · rw [seqProceed_fences (by rw [seqWaitMet_modSeq, hw]) (by rw [State.fenceDone_recordInsn, hf])]
  · rw [exec_of_seqForm hi, seqDecode_freezes hc hrun ha hv h0 h1]
    exact ⟨_, rfl, s.freezeSeq_froze h.core code⟩
  · rw [illegalInstruction_eq hc hrun ha hf]
    refine ⟨fun hd => ?_, fun hd => ?_⟩
    · rw [hd]
      exact ⟨_, rfl, s.freezeSeq_froze p 0x0802⟩
    · rw [if_pos (Option.isSome_iff_ne_none.2 hd)]

end Sys2Proof.Machine
end

section
/-! PROOFS. A held instruction goes on, and an engine instruction stands last in its engine's queue (03 R73, R74, R79, R82). -/

namespace Sys2Proof.Machine

/-! ### Two changes of one core -/

/-- Listing a key twice lists the later value. -/
theorem Tab.set_set {α : Type} (t : Tab α) (k : Nat) (v w : α) : Tab.set (Tab.set t k v) k w = Tab.set t k w := by
  induction t with
  | nil => simp [Tab.set]
  | cons e t ih =>
    obtain ⟨j, x⟩ := e
    by_cases h1 : j = k
    · simp [Tab.set, h1]
    · by_cases h2 : k < j <;> simp [Tab.set, h1, h2, ih]

/-- A change of a core after a change of it. -/
theorem State.modCore_modCore (s : State) (p : Nat) (f g : Core → Core) : (s.modCore p f).modCore p g = s.modCore p fun c => g (f c) := by
  rw [State.modCore, State.core_modCore_self]
  simp only [State.modCore, State.setCore, Tab.set_set]

/-- A sequencer that is replaced may have changed before. -/
theorem State.modSeq_modSeq (s : State) (p : Nat) (f g : Sequencer → Sequencer) : (s.modSeq p f).modSeq p g = s.modSeq p fun q => g (f q) :=
  State.modCore_modCore _ _ _ _

theorem State.modSeq_congr {s : State} {p : Nat} {f g : Sequencer → Sequencer} (h : f (s.core p).seq = g (s.core p).seq) :
    s.modSeq p f = s.modSeq p g := State.modCore_congr (by rw [h])

theorem State.modSeq_setArrival (s : State) (p : Nat) (f : Sequencer → Sequencer) (c : BitVec 8) (v : Half) (n : Sequencer) :
    ((s.modSeq p f).setArrival p c v).modSeq p (fun _ => n) = (s.setArrival p c v).modSeq p fun _ => n := by
  simp only [State.modSeq, State.setArrival, State.modSlice, State.modCore_modCore]

/-! ### A held sequencer instruction (R79) -/

/-- The sequencer runs again, and holds nothing. -/
def Sequencer.resumed (q : Sequencer) : Sequencer := { q with state := .running, held := none }

section
variable (q : Sequencer)

theorem Sequencer.recordInsn_resumed (w : Insn) : q.resumed.recordInsn w = (q.recordInsn w).resumed := by
  rw [recordInsn, recordInsn]
  unfold resumed
  dsimp only
  split
  · split <;> rfl
  · rfl

theorem Sequencer.setReg_resumed (d : BitVec 5) (v : W32) : q.resumed.setReg d v = (q.setReg d v).resumed := by
  unfold setReg
  split <;> rfl

theorem Sequencer.openLoop_resumed (len trips : Nat) : q.resumed.openLoop len trips = (q.openLoop len trips).resumed := by
  unfold openLoop
  split <;> rfl

theorem seqControl_resumed (op : SeqOp) (h : InsnHdr) (o : SeqOps) : seqControl q.resumed op h o = (seqControl q op h o).resumed := by
  cases op
  case brc => exact (apply_ite Sequencer.resumed _ (q.branchTo _) (q.goOn _)).symm
  case loop | loopi | aLoopn => exact q.openLoop_resumed _ _
  all_goals rfl

/-- A step neither reads nor writes what the sequencer holds. -/
theorem seqStep_resumed (s : State) (op : SeqOp) (h : InsnHdr) (o : SeqOps) :
    seqStep s q.resumed op h o = (seqStep s q op h o).resumed := by
  have hr : seqResult s q.resumed h.core op h o = seqResult s q h.core op h o := rfl
  have ho : seqOffset q.resumed op o = seqOffset q op o := rfl
  unfold seqStep
  rw [hr, ho]
  cases seqResult s q h.core op h o <;> cases seqOffset q op o <;>
    simp only [Sequencer.setReg_resumed, ← seqControl_resumed] <;> rfl

end

/-- The effects of an instruction do not depend on whether it was held. -/
theorem seqFinish_resumed (op : SeqOp) (h : InsnHdr) (o : SeqOps) (s : State) :
    seqFinish op h o (s.modSeq h.core Sequencer.resumed) = seqFinish op h o s := by
  have hafter : seqAfter op h o (s.modSeq h.core Sequencer.resumed) = seqAfter op h o s := by
    have htrail : ((s.core h.core).seq.resumed).trailView = (s.core h.core).seq.trailView.resumed := rfl
    rw [seqAfter, seqAfter, State.core_modSeq_self, seqStep_modSeq, seqStep_modSeq, htrail, seqStep_resumed, seqStep_resumed]
    rfl
  have hctr : seqCounter (s.modSeq h.core Sequencer.resumed) ((s.modSeq h.core Sequencer.resumed).core h.core).seq h.core op h o =
      seqCounter s (s.core h.core).seq h.core op h o := by
    rw [seqCounter_modSeq, State.core_modSeq_self]
    rfl
  have hpc : ((s.modSeq h.core Sequencer.resumed).core h.core).seq.pc = (s.core h.core).seq.pc := by
    rw [State.core_modSeq_self]
    rfl
  unfold seqFinish
  dsimp only
  rw [hafter, hctr, hpc]
  cases seqCounter s (s.core h.core).seq h.core op h o
  · dsimp only
    rw [State.modSeq_modSeq]
  · dsimp only
    rw [State.modSeq_setArrival]

theorem exec_seqStallResume (p : Nat) (s : State) : exec (.seqStallResume p) s = execSeqStallResume p s := rfl

/-- A held sequencer instruction goes on. -/
theorem seqStallResume_seq {s : State} {op : SeqOp} {h : InsnHdr} {o : SeqOps} (hc : s.clocked h.core = true)
    (hst : (s.core h.core).seq.state = .waiting ∨ (s.core h.core).seq.state = .fence)
    (hh : (s.core h.core).seq.held = some (.seq h op o)) :
    exec (.seqStallResume h.core) s = .next (seqProceed op h o s) := by
  rw [exec_seqStallResume, execSeqStallResume, hc, hh]
  rcases hst with hst | hst <;> rw [hst] <;> rfl

/-- A held engine instruction goes on. -/
theorem seqStallResume_eng {s : State} {p : Nat} {e : Engine} {x : QEntry} (hc : s.clocked p = true)
    (hst : (s.core p).seq.state = .queueFull) (hh : (s.core p).seq.held = some (.eng e x)) (hp : x.hdr.core = p) :
    exec (.seqStallResume p) s = .next (engPush e x s) := by
  rw [exec_seqStallResume, execSeqStallResume, hc, hh, hst]
  subst hp
  rfl

/-! ### An entry of a queue (R73, R74, R82) -/

/-- A program counter in the slice has not left it. -/
theorem State.leaveCheck_of_le {s : State} {p a : Nat} (h : (s.core p).seq.pc ≤ lastPc) : s.leaveCheck p a = s :=
  if_neg (by omega)

section
variable {s : State} {e : Engine} {x : QEntry} {h : InsnHdr}

/-- A confirmed entry that finds room stands last in its queue; the sequencer pair goes on, and counts. -/
theorem engPush_spec (hp : x.hdr.core = h.core) (hx : x.confirmed = true) (hs : inStep (s.core h.core).seq)
    (hroom : ((s.core h.core).seq.queue e).length < 32) (hpc : (seqOnward s h.core).1 ≤ lastPc) :
    seqFrame h s (engPush e x s) ∧
      ((engPush e x s).core h.core).seq = afterPush s h.core e x (s.core h.core).seq.loopBuf ∧
      signalled { h with signal := false } s (engPush e x s) := by
  obtain ⟨hframe, hseq, hsig⟩ := seqFinish_aux { h with signal := false } s s (afterPush s h.core e x (s.core h.core).seq.loopBuf) rfl
    (fun _ _ => rfl) rfl _ rfl
  have hpush : engPush e x s =
      (((s.modSeq h.core fun _ => afterPush s h.core e x (s.core h.core).seq.loopBuf).signal { h with signal := false }).count
        (coreReg h.core 0x218) 1).progress h.core := by
    have hpair : { ((s.core h.core).seq.setQueue e ((s.core h.core).seq.queue e ++ [x])).goOn ((s.core h.core).seq.pc + 16) with
        trail := ((s.core h.core).seq.goOn ((s.core h.core).seq.trail.pc + 16)).asTrailing, state := .running, held := none } =
        afterPush s h.core e x (s.core h.core).seq.loopBuf := by
      rw [hs]
      cases e <;> rfl
    unfold engPush
    dsimp only
    rw [hp, if_neg (by omega), hx, hs.trailView, hpair]
    refine State.leaveCheck_of_le ?_
    rw [State.core_progress, State.core_count, State.core_modSeq_self]
    refine le_of_eq_of_le ?_ hpc
    cases e <;> rfl
  rw [hpush]
  exact ⟨hframe, hseq, hsig⟩

end

/-- Settles O7: a held instruction resumes where its decode would go on, and being held leaves no mark on its effects. -/
theorem stallResumeRunsHeld : Obligations.StallResumeRunsHeld := by
  unfold Obligations.StallResumeRunsHeld
  refine ⟨fun s p e x hc hst hh hp hx hs hroom hpc => ?_, fun s i op h o hi hc hst hh hrec r hf => ?_⟩
  · subst hp
    obtain ⟨hframe, hseq, hsig⟩ := engPush_spec rfl hx hs hroom hpc
    exact ⟨_, seqStallResume_eng hc hst hh rfl, hseq, hsig, hframe⟩
  · have r : seqReady (s.modSeq h.core Sequencer.resumed) op h o := r
    have hw : seqWaitMet op h s = true := by
      obtain ⟨-, -, -, -, -, -, -, -, -, -, hw⟩ := r
      rwa [seqWaitMet_modSeq] at hw
    have hf' : ((s.modSeq h.core Sequencer.resumed).core h.core).fenceDone (fenceMask op o) = true := by
      rw [State.core_modSeq_self]
      exact hf
    have htake : (s.modSeq h.core Sequencer.resumed).modSeq h.core (fun q => q.recordInsn (seqWord op h o)) =
        s.modSeq h.core Sequencer.resumed := by
      rw [State.modSeq_modSeq]
      refine State.modSeq_congr ?_
      rw [Sequencer.recordInsn_resumed, hrec]
    have hdecode : exec i (s.modSeq h.core Sequencer.resumed) = .next (seqFinish op h o s) := by
      rw [exec_of_seqForm hi, seqDecode_ready r hf']
      exact congrArg _ ((congrArg _ htake).trans (seqFinish_resumed op h o s))
    rw [seqStallResume_seq hc hst hh, seqProceed_finishes hw hf]
    exact hdecode.symm

/-! ### Engine instructions (R68, R95, R96, R122, R126, R152, R183) -/

section
variable {s : State} {i : Instr} {e : Engine} {h : InsnHdr} {op op' : EngineOp} {ok : Bool}

/-- The meaning of an engine instruction is the decode of its word. -/
theorem exec_of_engForm (hi : engForm i = some (e, h, op, ok)) (s : State) :
    exec i s = .next (engDecodeAs (engInsn i) e h op ok s) := by
  unfold engForm at hi
  split at hi
  case h_41 h' o =>
    have hx : exec (.aVop h' o) s = execAVop h' o s := rfl
    split at hi
    · next v hv =>
      cases hi
      rw [hx, execAVop, hv]
      rfl
    · nomatch hi
  all_goals cases hi <;> rfl

/-- The entry that an engine instruction makes after its offsets. -/
theorem engEntry_eq (ha : op.addOffsets ((s.core h.core).seq.offset (engineOffsetBase e))
    ((s.core h.core).seq.offset (engineOffsetBase e + 1)) = some op') :
    engEntry (s.core h.core).seq e h op = some (queuedEntry s e h op') := by
  rw [engEntry, ha]
  rw [queuedEntry, BitVec.ofNat_toNat]

section
variable (hc : s.clocked h.core = true) (hrun : (s.core h.core).seq.state = .running)
  (ha : (s.core h.core).seq.admits (engInsn i) = true)
include hc hrun ha

/-- A decode without a violation writes its entry into its queue. -/
theorem engDecodeAs_pushes {x : QEntry} (hv : engViolation (s.core h.core).seq e h op ok = 0)
    (hx : engEntry (s.core h.core).seq e h op = some x) :
    engDecodeAs (engInsn i) e h op ok s = engPush e { x with confirmed := engAgrees (s.core h.core).seq e h op }
      (s.modSeq h.core fun q => q.recordInsn (engInsn i)) := by
  have hruns : (!s.clocked h.core || (s.core h.core).seq.state ≠ .running || !(s.core h.core).seq.admits (engInsn i)) = false := by
    simp [hc, hrun, ha]
  rw [engDecodeAs, hruns, if_neg Bool.false_ne_true, hv, hx]
  rfl

end

/-- The fields, the fetch and the offsets of an engine instruction are legal: its decode finds no violation. -/
theorem engViolation_none {x : QEntry} (hf : (s.core h.core).seq.fetchFault = 0)
    (hp : op.isPva = true → (s.core h.core).seq.pvaCompat = true) (hsync : syncOk h false = true) (hok : ok = true)
    (hx : engEntry (s.core h.core).seq e h op = some x) : engViolation (s.core h.core).seq e h op ok = 0 := by
  have hpva : (op.isPva && !(s.core h.core).seq.pvaCompat) = false := by
    cases h : op.isPva
    · rfl
    · rw [hp h]; rfl
  rw [engViolation, hpva, hsync, hok, hx, if_neg (by omega)]
  rfl

/-- A pair in step agrees on its instruction. -/
theorem engAgrees_of_inStep (hs : inStep (s.core h.core).seq) (hag : h.agree = true) :
    engAgrees (s.core h.core).seq e h op = true := by
  rw [engAgrees, hs.trailView, hag]
  simp

/-- A full queue holds the sequencer, with the entry. -/
theorem engPush_full {x : QEntry} (hfull : 32 ≤ ((s.core x.hdr.core).seq.queue e).length) :
    engPush e x s = s.modSeq x.hdr.core fun q => { q with state := .queueFull, held := some (.eng e x) } := if_pos hfull

theorem Sequencer.queue_recordInsn (q : Sequencer) (w : Insn) (e : Engine) : (q.recordInsn w).queue e = q.queue e := by
  rw [q.recordInsn_eq]
  cases e <;> rfl

theorem seqOnward_recordInsn (s : State) (p : Nat) (w : Insn) :
    seqOnward (s.modSeq p fun q => q.recordInsn w) p = seqOnward s p := by
  rw [seqOnward, State.core_modSeq_self, Sequencer.recordInsn_pc, Sequencer.recordInsn_loops]
  rfl

/-- The entry stands where it stood had its word been in the loop buffer before. -/
theorem afterPush_recordInsn (s : State) (p : Nat) (e : Engine) (x : QEntry) (w : Insn) :
    afterPush (s.modSeq p fun q => q.recordInsn w) p e x (((s.modSeq p fun q => q.recordInsn w).core p).seq.loopBuf) =
      afterPush s p e x (bufAfter s p w) := by
  rw [afterPush, pairAt, seqOnward_recordInsn, State.core_modSeq_self]
  dsimp only
  rw [Sequencer.queue_recordInsn, Sequencer.recordInsn_eq]
  rfl

/-- The header of an entry names the core that decoded it. -/
theorem engEntry_core {q : Sequencer} {x : QEntry} (hx : engEntry q e h op = some x) : x.hdr.core = h.core := by
  unfold engEntry at hx
  split at hx
  · nomatch hx
  · cases hx
    dsimp only
    split <;> rfl

end

/-- Settles O9: every engine instruction decodes to an entry, which finds room in its queue or does not. -/
theorem engineInstructionsQueue : Obligations.EngineInstructionsQueue := by
  unfold Obligations.EngineInstructionsQueue
  refine ⟨fun s i e h op op' ok hi hok hc hrun ha hs hf hp hsync hag hoff hroom hpc => ?_,
    fun s i e h op ok x hi hc hrun ha hv hx hfull => ?_⟩
  · have hx := engEntry_eq (h := h) hoff
    have hrec (p : Nat) (f : Sequencer → Sequencer) := State.core_modSeq_self s p f
    obtain ⟨hframe, hseq, hsig⟩ := engPush_spec (s := s.modSeq h.core fun q => q.recordInsn (engInsn i)) (e := e)
      (x := queuedEntry s e h op') (h := h) (engEntry_core hx) rfl (by rw [hrec]; exact hs.recordInsn _)
      (by rw [hrec]; exact (congrArg _ (Sequencer.queue_recordInsn _ _ e)).trans_lt hroom)
      (by rw [seqOnward_recordInsn]; exact hpc)
    rw [exec_of_engForm hi, engDecodeAs_pushes hc hrun ha (engViolation_none hf hp hsync hok hx) hx, engAgrees_of_inStep hs hag]
    exact ⟨_, rfl, hseq.trans (afterPush_recordInsn _ _ _ _ _), signalled_modSeq hsig, hframe.record⟩
  · rw [exec_of_engForm hi, engDecodeAs_pushes hc hrun ha hv hx, engPush_full, engEntry_core hx]
    rw [engEntry_core hx, State.core_modSeq_self]
    exact (congrArg _ (Sequencer.queue_recordInsn _ _ e)).ge.trans' hfull

end Sys2Proof.Machine
end

section
/-! PROOFS. A change of one core: how it composes, and how an engine instruction ends on it (03 R76). -/

namespace Sys2Proof.Machine

/-- From s to t core p became c, and nothing else changed. -/
structure Becomes (p : Nat) (c : Core) (s t : State) : Prop where
  eq : t = { s with cores := t.cores }
  core : ∀ q, t.core q = if q = p then c else s.core q

section
variable {p : Nat} {c : Core} {s t u : State}

theorem Becomes.self (h : Becomes p c s t) : t.core p = c := (h.core p).trans (if_pos rfl)

theorem Becomes.other (h : Becomes p c s t) {q : Nat} (hq : q ≠ p) : t.core q = s.core q := (h.core q).trans (if_neg hq)

theorem Becomes.cast {d : Core} (h : Becomes p c s t) (hd : c = d) : Becomes p d s t := hd ▸ h

theorem Becomes.refl (s : State) (p : Nat) : Becomes p (s.core p) s s where
  eq := rfl
  core q := by
    split
    · next h => rw [h]
    · rfl

/-- A further change of the core. -/
theorem Becomes.modCore (h : Becomes p c s t) (f : Core → Core) : Becomes p (f c) s (t.modCore p f) where
  eq := by
    rw [h.eq]
    rfl
  core q := by
    rw [State.core_modCore, h.self]
    split
    · rfl
    · next hq => exact h.other hq

theorem State.modCore_becomes (s : State) (p : Nat) (f : Core → Core) : Becomes p (f (s.core p)) s (s.modCore p f) :=
  (Becomes.refl s p).modCore f

theorem Becomes.trans {d : Core} (h : Becomes p c s t) (k : Becomes p d t u) : Becomes p d s u where
  eq := by rw [k.eq, h.eq]
  core q := by
    rw [k.core]
    split
    · rfl
    · next hq => exact h.other hq

/-- A change that leaves every core alone leaves the core alone. -/
theorem SameCores.becomes (h : SameCores s t) (p : Nat) : Becomes p (s.core p) s t where
  eq := h.eq
  core q := by
    rw [h.core]
    split
    · next hq => rw [hq]
    · rfl

theorem Becomes.same (h : Becomes p c s t) (k : SameCores t u) : Becomes p c s u := by
  have hk := k.becomes p
  rw [h.self] at hk
  exact h.trans hk

theorem SameCores.trans_becomes (h : SameCores s t) (k : Becomes p c t u) : Becomes p c s u := (h.becomes p).trans k

/-- A core that becomes what it is. -/
theorem Becomes.sameCores (h : Becomes p (s.core p) s t) : SameCores s t where
  eq := h.eq
  core q := by
    rw [h.core]
    split
    · next hq => rw [hq]
    · rfl

/-! ### Only core p, counters and the note of progress (R76) -/

theorem CoreOnly.refl (p : Nat) (s : State) : CoreOnly p s s := by
  constructor
  case other => exact fun _ _ => rfl
  case panel => exact fun _ => rfl
  all_goals rfl

theorem CoreOnly.becomes (k : CoreOnly p s t) (h : Becomes p c t u) : CoreOnly p s u := by
  rw [h.eq]
  refine { k with other := fun q hq => ?_ }
  rw [← h.eq, h.other hq, k.other q hq]

theorem CoreOnly.count (k : CoreOnly p s t) (off n : Nat) : CoreOnly p s (t.count off n) := { k with }

theorem CoreOnly.progress (k : CoreOnly p s t) (q : Nat) : CoreOnly p s (t.progress q) := by
  have hcmd : (t.progress q).cmd = { s.cmd with panels := (t.progress q).cmd.panels } := by rw [State.progress_cmd, k.cmd]
  have hpanel (i : Nat) : (t.progress q).panel i = { s.panel i with progress := ((t.progress q).panel i).progress } := by
    rw [State.progress_panel, k.panel]
  revert hcmd hpanel
  unfold State.progress
  split
  · exact fun hcmd hpanel => { k with cmd := hcmd, panel := hpanel }
  · exact fun _ _ => k

/-- A signal changes its core by an arrival counter. -/
theorem State.signal_becomes (s : State) {h : InsnHdr} (hp : h.core = p) :
    Becomes p { s.core p with slice := { (s.core p).slice with arrival := ((s.signal h).core p).slice.arrival } } s (s.signal h) := by
  rw [← s.signal_core h p]
  have hb : ∃ d, Becomes p d s (s.signal h) := by
    unfold State.signal
    split
    · rw [← hp]
      unfold State.raiseCtr State.setArrival State.modSlice
      exact ⟨_, s.modCore_becomes h.core _⟩
    · exact ⟨_, .refl s p⟩
  obtain ⟨d, hd⟩ := hb
  rwa [hd.self]

/-! ### The end of an engine instruction (R76) -/

/-- What follows an engine instruction's effects: two counters, its signal, and the note of progress. -/
def State.ends (s : State) (p : Nat) (x : QEntry) (c1 n1 c2 n2 : Nat) : State :=
  (((s.count c1 n1).count c2 n2).signal { x.hdr with core := p }).progress p

theorem Becomes.arrival (h : Becomes p c s t) (hc : c.slice.arrival = (s.core p).slice.arrival) (q : Nat) (i : BitVec 8) :
    t.arrival q i = s.arrival q i := by
  rw [State.arrival, State.arrival, h.core]
  split
  · next hq => rw [hc, hq]
  · rfl

theorem State.counter_count_count (s : State) (c1 n1 c2 n2 j : Nat) :
    ((s.count c1 n1).count c2 n2).counter j =
      s.counter j + BitVec.ofNat 64 ((([(c1, n1), (c2, n2)] : List (Nat × Nat)).filter (·.1 = j)).map (·.2)).sum := by
  rw [State.counter_count_add, State.counter_count_add, BitVec.add_assoc]
  simp only [List.filter_cons, List.filter_nil, decide_eq_true_eq, eq_comm (a := j)]
  by_cases h1 : c1 = j
  · by_cases h2 : c2 = j
    · simp [h1, h2, BitVec.ofNat_add]
    · simp [h1, h2]
  · by_cases h2 : c2 = j
    · simp [h1, h2]
    · simp [h1, h2]

/-- An engine instruction whose effects make core p into c ends. -/
theorem Becomes.ends (h : Becomes p c s t) (hc : c.slice.arrival = (s.core p).slice.arrival) (x : QEntry) (c1 n1 c2 n2 : Nat) :
    engineDone p x c s (t.ends p x c1 n1 c2 n2) ∧ countersMoved [(c1, n1), (c2, n2)] s (t.ends p x c1 n1 c2 n2) := by
  have hcount (q : Nat) : ((t.count c1 n1).count c2 n2).core q = t.core q := rfl
  have hsig := ((t.count c1 n1).count c2 n2).signal_becomes (p := p) (h := { x.hdr with core := p }) rfl
  have hstart (j : Nat) : t.counter j = s.counter j := by rw [h.eq]; rfl
  refine ⟨⟨?_, fun q i => ?_, ?_⟩, fun j => ?_⟩
  · rw [State.ends, State.core_progress, hsig.self, hcount, h.self]
  · rw [State.ends, State.arrival_progress, State.signal_arrival, State.arrival_count, State.arrival_count, h.arrival hc]
  · exact ((((CoreOnly.refl p s).becomes h).count _ _).count _ _ |>.becomes hsig).progress p
  · rw [State.counter, State.ends, State.counters_progress, State.signal_counters, ← State.counter, State.counter_count_count, hstart]

end
end Sys2Proof.Machine
end

section
/-! PROOFS. Halt reports and fetched words (03 R72, R76, R79, R89). -/

namespace Sys2Proof.Machine

theorem exec_coreHaltReport (p : Nat) (s : State) : exec (.coreHaltReport p) s = execCoreHaltReport p s := rfl
theorem exec_fetchWordArrive (p : Nat) (w : FetchRead) (s : State) : exec (.fetchWordArrive p w) s = execFetchWordArrive p w s := rfl

/-- What becomes of a core is told as its frame. -/
theorem Becomes.frame {p : Nat} {c : Core} {s t : State} (h : Becomes p c s t) :
    t.core p = c ∧ (∀ q, q ≠ p → t.core q = s.core q) ∧ t = { s with cores := t.cores } :=
  ⟨h.self, fun _ => h.other, h.eq⟩

/-- A core that completed its HALT and reported, with its signal still to go up. -/
def Core.reported (c : Core) : Core :=
  { c with seq := { c.seq with state := .idle, held := none }, haltReported := true, started := false }

/-- A halted core completes its HALT. -/
theorem coreHaltReport_spec {s : State} {p : Nat} {h : InsnHdr} {op : SeqOp} {o : SeqOps} (hc : s.clocked p = true)
    (hstate : (s.core p).seq.state = .haltDrain) (hdrained : (s.core p).drained = true)
    (hheld : (s.core p).seq.held = some (.seq h op o)) :
    exec (.coreHaltReport p) s = .next ((s.signal { h with core := p }).modCore p Core.reported) := by
  have hhdr : (s.core p).seq.haltHdr = h := by rw [Sequencer.haltHdr, hheld]
  rw [exec_coreHaltReport, execCoreHaltReport, hc, hstate, hdrained, hhdr]
  rfl

/-- A signal before a change of a core that leaves the arrival counters alone. -/
theorem signalled_modCore {h : InsnHdr} {s t : State} (k : signalled h s t) {p : Nat} {f : Core → Core}
    (hf : (f (t.core p)).slice.arrival = (t.core p).slice.arrival) : signalled h s (t.modCore p f) := fun q i => by
  rw [(t.modCore_becomes p f).arrival hf]
  exact k q i

/-- Reads of words that correct no error count nothing (R165). -/
theorem State.noteReads_of_strong {s : State} {p : Nat} {rs : List (Nat × Nat)}
    (h : ∀ r ∈ rs, (s.core p).slice.weakIn r.1 r.2 = []) : s.noteReads p rs = s := by
  refine if_pos ?_
  rw [List.map_congr_left (g := fun _ => 0) fun r hr => by rw [h r hr]; rfl]
  simp

theorem Slice.weakIn_of_nil {sl : Slice} (h : sl.weak = []) (off n : Nat) : sl.weakIn off n = [] := by
  rw [Slice.weakIn, h]
  rfl

/-- A good word of the slice, as it stands in the fetch buffer. -/
def Slice.goodWord (sl : Slice) (a : Nat) : FetchWord := { addr := a, fault := 0, data := sl.bytes a 64 }

/-- The sequencer with one more word in its fetch buffer of four (R72). -/
def Sequencer.fetches (q : Sequencer) (w : FetchWord) : Sequencer :=
  { q with fetch := (w :: q.fetch.filter (fun x => decide (x.addr ≠ w.addr))).take 4 }

/-- A good word of a slice with nothing to show arrives. -/
theorem fetchWordArrive_good {s : State} {p addr a : Nat} (ha : addr / 64 * 64 = a) (hc : s.clocked p = true) (hlast : a ≤ lastPc)
    (hstate : (s.core p).seq.state ≠ .idle ∧ (s.core p).seq.state ≠ .frozen ∧ (s.core p).seq.state ≠ .haltDrain)
    (hq : quiet (s.core p)) (hmark : (s.core p).slice.fetchMark a = 0) :
    ∃ t, exec (.fetchWordArrive p { addr := addr }) s = .next t ∧
      Becomes p { s.core p with seq := (s.core p).seq.fetches ((s.core p).slice.goodWord a) } s t := by
  obtain ⟨hreads, -, hweak⟩ := hq
  obtain ⟨hidle, hfrozen, hdrain⟩ := hstate
  let s0 := s.modSlice p fun sl => sl.found []
  have hs : SameCores s s0 := State.modSlice_same rfl
  let w := (s.core p).slice.goodWord a
  let s1 := s0.modSlice p fun sl => { sl with undefReads := sl.undefReads.filter fun x => decide (x ≠ a / 64) }
  have hdrop : SameCores s0 s1 := State.modSlice_same (by rw [hs.core, hreads, List.filter_nil, ← hreads])
  let t := s1.modSeq p fun q => q.fetches w
  have ht : Becomes p { s.core p with seq := (s.core p).seq.fetches w } s t := by
    rw [← hs.core, ← hdrop.core]
    exact hs.trans_becomes (hdrop.trans_becomes (s1.modCore_becomes p fun c => { c with seq := c.seq.fetches w }))
  refine ⟨t, ?_, ht⟩
  have hnote : t.noteReads p [(a, 64)] = t :=
    State.noteReads_of_strong fun r _ => Slice.weakIn_of_nil (by rw [ht.self]; exact hweak) _ _
  rw [exec_fetchWordArrive, execFetchWordArrive]
  simp only [ha, hc, hidle, hfrozen, hdrain, Nat.not_lt.2 hlast, decide_false, Bool.not_true, Bool.or_self, Bool.false_eq_true,
    if_false, List.filter_nil]
  rw [show (s.modSlice p fun sl => sl.found []) = s0 from rfl, hs.core, hmark, hreads]
  exact congrArg Host.Outcome.next hnote

/-- Settles O8: a halted core's report is a signal and a change of the core, and a good word's arrival a change of the fetch buffer. -/
theorem haltAndFetch : Obligations.HaltAndFetch := by
  unfold Obligations.HaltAndFetch
  refine ⟨fun s p h op o hc hstate hdrained hheld => ?_, fun s p addr hc hlast hstate hq hmark => ?_⟩
  · have hsig := s.signal_becomes (h := { h with core := p }) (p := p) rfl
    obtain ⟨hself, hother, hrest⟩ := (hsig.modCore Core.reported).frame
    refine ⟨_, coreHaltReport_spec hc hstate hdrained hheld, ?_, signalled_modCore (State.signal_arrival _ _) rfl, hother, hrest⟩
    rw [hself]
    rfl
  · obtain ⟨t, hx, ht⟩ := fetchWordArrive_good rfl hc hlast
      (by rcases hstate with h | h | h | h <;> rw [h] <;> decide) hq hmark
    obtain ⟨hself, hother, hrest⟩ := ht.frame
    refine ⟨t, hx, hrest, hother, ?_, ?_, ?_⟩
    · rw [hself]
      rfl
    · rw [hself]
      rfl
    · rw [hself]
      exact (List.length_take_le _ _)

end Sys2Proof.Machine
end

section
/-! PROOFS. The matrix engine takes the entry at the head of its queue (03 R75; 04 R100, R101, R103, R107, R109). -/

namespace Sys2Proof.Machine

theorem exec_engineEntryStart (p : Nat) (e : Engine) (s : State) : exec (.engineEntryStart p e) s = execEngineEntryStart p e s := rfl

/-- The start of an engine's head entry. -/
def startEngine (p : Nat) (e : Engine) (s : State) : State :=
  match e with
  | .matrix => startMatrix p s
  | .vector => startVector p s
  | .stream => startStream p s

/-- An engine of a clocked core that is not frozen looks at the confirmed entry at the head of its queue. -/
theorem engineEntryStart_confirmed {s : State} {p : Nat} {e : Engine} {x : QEntry} (hc : s.clocked p = true)
    (hf : (s.core p).isFrozen = false) (hhead : (s.core p).queueHead e = some x) (hx : x.confirmed = true) :
    exec (.engineEntryStart p e) s = .next (startEngine p e s) := by
  rw [exec_engineEntryStart]
  unfold execEngineEntryStart startEngine
  rw [hc, hf, hhead, Option.any_some, hx]
  cases e
  · rfl
  · rfl
  · rfl

/-- The start of a matrix entry by its operation. -/
def startMatrixOp (p : Nat) (x : QEntry) (s : State) : State :=
  match x.op with
  | .mxl o pva => startMxl p x o pva s
  | .mms o pva => startMms p x o pva s
  | .mxd o => startMxd p x o s
  | .mxclr o => startMxclr p x o s
  | .mxmap o => startMxmap p x o s
  | _ => s

section
variable {s : State} {p : Nat} {x : QEntry} {rest : List QEntry}

/-- A core whose array, with nothing active, took the head of its queue. -/
def Core.mxTakes (c : Core) (rest : List QEntry) (a : MxActive) (m : Matrix) : Core :=
  { c with seq := { c.seq with qMx := rest }, mx := { m with active := [a] } }

/-- An array with nothing active takes the head of its queue. -/
theorem State.mxStart_becomes (hq : (s.core p).seq.qMx = x :: rest) (hact : (s.core p).mx.active = []) {a : MxActive}
    {f : Matrix → Matrix} {m : Matrix} (hm : f { (s.core p).mx with active := [a] } = { m with active := [a] }) :
    Becomes p ((s.core p).mxTakes rest a m) s (s.mxStart p a f) := by
  refine Becomes.cast (s.modCore_becomes p _) ?_
  dsimp only
  rw [hq, hact, List.tail_cons, List.nil_append, hm]
  rfl

/-- An array with nothing active starts the head of its queue once its wait is met. -/
theorem startMatrix_head (hq : (s.core p).seq.qMx = x :: rest) (hw : s.waitMet p x.hdr = true) (hact : (s.core p).mx.active = []) :
    startMatrix p s = startMatrixOp p x s := by
  rw [startMatrix, hq]
  dsimp only
  rw [hw, hact]
  rfl

/-- A core without a range-check policy drains unbounded (R415). -/
theorem takeBound_of_off {c : Core} (h : c.rcPolicy = 0) : takeBound c = (Tab.get 0 c.slice.arrival 253, .ok, none) := if_pos h

theorem rows_legal {n : Nat} (h : 0 < n) (hn : n ≤ 512) : ¬ (n = 0 ∨ 512 < n) := by omega

/-! ### A legal instruction of an array with nothing active -/

theorem startMxmap_legal {o : MxmapOps} (hrsv : o.rsv = 0) (hscale : isSkived o.fmt.toNat = false → o.scaleBase = 0)
    (helem : o.elemBase.toNat % 64 = 0) (hsb : o.scaleBase.toNat % 64 = 0) :
    startMxmap p x o s = s.mxStart p { entry := x } fun m => { m with maps := Tab.set m.maps o.map.toNat o } := by
  rw [startMxmap, if_neg (by simpa [hrsv] using hscale), if_neg (by simp [helem, hsb])]

theorem startMxclr_legal {o : MxdOps} (hact : (s.core p).mx.active = []) (hrsv : o.rsv = 0) (haddr : o.outAddr = 0) (hmap : o.outMap = 0)
    (hrel : o.release = false) (hpos : 0 < o.rows.toNat) (hmax : o.rows.toNat ≤ 512) :
    startMxclr p x o s = s.mxStart p { entry := x } id := by
  rw [startMxclr, hact, if_neg (by simp), if_neg (by simp [hrsv, haddr, hmap, hrel]), if_neg (rows_legal hpos hmax)]

theorem startMxl_legal {o : MxlOps} (hact : (s.core p).mx.active = []) (hrsv : o.rsv = 0) (hfmt : o.wFmt ≠ 0) {pl : Bool}
    (hpl : pl = (o.plane ^^ (o.alt && (s.core p).mx.loadToggle))) {addr : Nat}
    (haddr : addr = o.wAddr.toNat + if o.alt && (s.core p).mx.loadToggle then x.hdr.count.toNat * 64 else 0)
    (halign : addr % 64 = 0) (hfits : addr + (imageSize o.wFmt.toNat o.sparse + if o.header then 64 else 0) ≤ sliceSize) :
    startMxl p x o false s = s.mxStart p { entry := x, plane := pl, addr := addr } fun m =>
      { m.setPlane pl { state := .loading } with loadToggle := m.loadToggle ^^ o.alt } := by
  have hzero : o.wFmt.toNat ≠ 0 := fun h => hfmt (BitVec.eq_of_toNat_eq h)
  unfold startMxl
  dsimp only
  rw [hact, ← hpl, ← haddr, if_neg (by simp), if_neg (by simp [hrsv]), if_neg (by simp [hzero]), if_neg (by omega)]

theorem startMxd_legal {o : MxdOps} (hact : (s.core p).mx.active = []) (hpolicy : (s.core p).rcPolicy = 0) (hrsv : o.rsv = 0)
    (hpos : 0 < o.rows.toNat) (hmax : o.rows.toNat ≤ 512)
    (hfits : mapFits ((s.core p).mx.mapAt o.outMap) o.outAddr.toNat o.rows.toNat 128 true = true) :
    startMxd p x o s = s.mxStart p
      { entry := x, outMap := (s.core p).mx.mapAt o.outMap, index := Tab.get 0 (s.core p).slice.arrival 253 } id := by
  unfold startMxd
  dsimp only
  rw [hact, if_neg (by simp), if_neg (by simp), if_neg (by simp [hrsv]), if_neg (rows_legal hpos hmax), if_neg (by simp [hfits]),
    State.withBound, takeBound_of_off hpolicy]
  rfl

theorem startMms_legal {o : MmsOps} (hact : (s.core p).mx.active = []) (hrsv : mmsReserved o false = false) (hzrow : o.zrow = false)
    (hdthru : o.dthru = false) (hpos : 0 < o.rows.toNat) (hmax : o.rows.toNat ≤ 512) {pn : Bool} {pl : Plane} {im : MxmapOps}
    (hpn : pn = (o.plane ^^ (o.alt && (s.core p).mx.streamToggle))) (hpl : pl = (s.core p).mx.plane pn)
    (him : im = (s.core p).mx.mapAt o.inMap) (hloaded : pl.state = .loaded) (hpair : pairOk pl.fmt.toNat im.fmt.toNat = true)
    (hfits : mapFits im o.inAddr.toNat o.rows.toNat (denseK pl.fmt.toNat pl.sparse) false = true) :
    startMms p x o false s = s.mxStart p
      { entry := x, plane := pn, inMap := im, outMap := (s.core p).mx.mapAt o.outMap } fun m =>
      { m with streamToggle := m.streamToggle ^^ o.alt, lastPlane := pn, mmsDone := false } := by
  have hrows : mmsRows x.hdr o false = o.rows.toNat := rfl
  unfold startMms
  dsimp only
  rw [hact, ← hpn, ← hpl, ← him, hrows, hzrow, hdthru, hrsv, hloaded, hpair, hfits]
  rw [if_neg (by simp), if_neg (by simp), if_neg (by simp), if_neg (by simp; omega)]
  rfl

end

/-- Settles O11: a legal entry passes every check of its start, and an array with nothing active takes it. -/
theorem matrixEntriesStart : Obligations.MatrixEntriesStart := by
  unfold Obligations.MatrixEntriesStart
  intro s p x rest c hcore hc hf hq hw hx hact hpolicy
  subst hcore
  have hexec : exec (.engineEntryStart p .matrix) s = .next (startMatrixOp p x s) := by
    rw [engineEntryStart_confirmed hc hf (by rw [Core.queueHead, hq]; rfl) hx, startEngine, startMatrix_head hq hw hact]
  have htakes {a : MxActive} {f : Matrix → Matrix} {m : Matrix} (hrun : startMatrixOp p x s = s.mxStart p a f)
      (hm : f { (s.core p).mx with active := [a] } = { m with active := [a] }) :
      ∃ t, exec (.engineEntryStart p .matrix) s = .next t ∧ t.core p = (s.core p).mxTakes rest a m ∧
        (∀ q, q ≠ p → t.core q = s.core q) ∧ t = { s with cores := t.cores, counters := t.counters } := by
    obtain ⟨hself, hother, hrest⟩ := (State.mxStart_becomes hq hact hm).frame
    refine ⟨_, hexec.trans (congrArg _ hrun), hself, hother, ?_⟩
    rw [hrest]
  refine ⟨fun o hop hrsv hscale helem hsb => ?_, fun o hop hrsv haddr hmap hrel hpos hmax => ?_, fun o hop hrsv hfmt halign hfits => ?_,
    fun o hop hrsv hpos hmax hfits => ?_, fun o hop hrsv hzrow hdthru hpos hmax hloaded hpair hfits => ?_⟩
  · exact htakes (by rw [startMatrixOp, hop]; exact startMxmap_legal hrsv hscale helem hsb) rfl
  · exact htakes (by rw [startMatrixOp, hop]; exact startMxclr_legal hact hrsv haddr hmap hrel hpos hmax) rfl
  · refine htakes (by rw [startMatrixOp, hop]; exact startMxl_legal hact hrsv hfmt rfl rfl halign hfits) ?_
    dsimp only [Matrix.setPlane]
    split
    · rfl
    · rfl
  · exact htakes (by rw [startMatrixOp, hop]; exact startMxd_legal hact hpolicy hrsv hpos hmax hfits) rfl
  · exact htakes (by rw [startMatrixOp, hop]; exact startMms_legal hact hrsv hzrow hdthru hpos hmax rfl rfl rfl hloaded hpair hfits) rfl

end Sys2Proof.Machine
end

section
/-! PROOFS. The vector engine takes the entry or the chain at the head of its queue (03 R75; 05 R130, R131, R135). -/

namespace Sys2Proof.Machine

theorem exec_vectorChainStart (p : Nat) (s : State) : exec (.vectorChainStart p) s = execVectorChainStart p s := rfl

/-- A core whose vector engine took the first n entries of a queue as its unit. -/
def Core.vxTakes (c : Core) (l : List QEntry) (n : Nat) : Core :=
  { c with seq := { c.seq with qVx := l.drop n }, vx := { c.vx with unit := l.take n, posRow := 0, posBeat := 0 } }

section
variable {s : State} {p : Nat} {x : QEntry} {rest : List QEntry}

theorem State.vxTake_becomes {l : List QEntry} (hq : (s.core p).seq.qVx = l) (n : Nat) :
    Becomes p ((s.core p).vxTakes l n) s (s.vxTake p n) := by
  subst hq
  exact (s.modCore_becomes p _).cast rfl

/-- As many entries of a queue as n allows are its first n. -/
theorem Core.vxTakes_length_take (c : Core) (l : List QEntry) (n : Nat) : c.vxTakes l (l.take n).length = c.vxTakes l n := by
  have htake : l.take (l.take n).length = l.take n := by rw [List.length_take, ← List.take_eq_take_min]
  have hdrop : l.drop (l.take n).length = l.drop n := by rw [List.length_take, ← List.drop_eq_drop_min]
  rw [Core.vxTakes, htake, hdrop]
  rfl

/-- The first n entries of the queue start where their unit checks. -/
theorem startUnit_becomes {l : List QEntry} {n : Nat} {u : VUnit} (hq : (s.core p).seq.qVx = l)
    (hu : unitOf (s.core p).vx (l.take n) = .ok u) : Becomes p ((s.core p).vxTakes l n) s (startUnit p (l.take n) s) := by
  rw [startUnit, hu, ← Core.vxTakes_length_take]
  exact State.vxTake_becomes hq _

/-! ### The head of the queue -/

/-- An idle vector engine starts a legal setup instruction. -/
theorem startVector_setup (hq : (s.core p).seq.qVx = x :: rest) (hw : s.waitMet p x.hdr = true) (hidle : (s.core p).vx.unit = [])
    (hsetup : x.isSetup = true) (htag : x.tag = 0) (hrsv : setupReserved x = false) : startVector p s = s.vxTake p 1 := by
  rw [startVector, hq]
  dsimp only
  rw [hidle, hw, hsetup, htag, hrsv]
  rfl

/-- An idle vector engine checks the unit of an unchained operation. -/
theorem startVector_vop (hq : (s.core p).seq.qVx = x :: rest) (hw : s.waitMet p x.hdr = true) (hidle : (s.core p).vx.unit = [])
    {v : VOp} {o : VopOps} (hop : x.op = .vop v o false) (htag : x.tag = 0) (hlast : x.last = false) :
    startVector p s = startUnit p [x] s := by
  rw [startVector, hq]
  dsimp only
  rw [hidle, hw, QEntry.isSetup, hop, htag, hlast]
  rfl

/-- An idle vector engine checks the unit of a chain that is whole. -/
theorem vectorChainStart_whole (hc : s.clocked p = true) (hf : (s.core p).isFrozen = false) (hq : (s.core p).seq.qVx = x :: rest)
    (hw : s.waitMet p x.hdr = true) (hidle : (s.core p).vx.unit = []) (hsetup : x.isSetup = false) (htag : x.tag ≠ 0) {n : Nat}
    (hrun : chainRun x.tag 0 (x :: rest) = .whole n) :
    exec (.vectorChainStart p) s = .next (startUnit p ((x :: rest).take n) s) := by
  rw [exec_vectorChainStart, execVectorChainStart, hq]
  dsimp only
  rw [hc, hf, hidle, hw, hsetup, decide_eq_false htag, hrun]
  rfl

end

/-- Settles O14: each start is the taking of the first entries of the queue. -/
theorem vectorEntriesStart : Obligations.VectorEntriesStart := by
  unfold Obligations.VectorEntriesStart
  intro s p n x rest c hcore hc hf hq hw hidle
  subst hcore
  have hstarts {i : Instr} {n : Nat} {t : State} (hx : exec i s = .next t) (h : Becomes p ((s.core p).vxTakes (x :: rest) n) s t) :
      ∃ t, exec i s = .next t ∧ t.core p = (s.core p).vxTakes (x :: rest) n ∧ (∀ q, q ≠ p → t.core q = s.core q) ∧
        t = { s with cores := t.cores } := ⟨t, hx, h.frame⟩
  have hhead (hx : x.confirmed = true) : exec (.engineEntryStart p .vector) s = .next (startVector p s) := by
    rw [engineEntryStart_confirmed hc hf (by rw [Core.queueHead, hq]; rfl) hx, startEngine]
  refine ⟨fun hx hsetup htag hrsv => ?_, fun v o u hx hop htag hlast hu => ?_, fun u hsetup htag hrun hu => ?_⟩
  · refine hstarts (hhead hx) ?_
    rw [startVector_setup hq hw hidle hsetup htag hrsv]
    exact State.vxTake_becomes hq 1
  · refine hstarts (hhead hx) ?_
    rw [startVector_vop hq hw hidle hop htag hlast]
    exact startUnit_becomes (n := 1) hq hu
  · exact hstarts (vectorChainStart_whole hc hf hq hw hidle hsetup htag hrun) (startUnit_becomes hq hu)

end Sys2Proof.Machine
end

section
/-! PROOFS. Stream descriptors start and complete (03 R75; 07 R184, R185, R195). -/

namespace Sys2Proof.Machine

theorem exec_streamDescComplete (d : DescEnd) (s : State) : exec (.streamDescComplete d) s = execStreamDescComplete d s := rfl

section
variable {s : State} {p : Nat}

/-! ### The descriptor at its start -/

/-- A read by port B of words that met no collision (R163). -/
theorem State.portBRead_of_good {off n : Nat} (h : ∀ w ∈ (s.core p).slice.undefB, w * 64 + 64 ≤ off ∨ off + n ≤ w * 64) :
    s.portBRead p off n = ((s.core p).slice.bytes off n, s) := by
  have hnone : (s.core p).slice.undefB.filter (fun w => decide (w * 64 < off + n) && decide (off < w * 64 + 64)) = [] := by
    refine List.filter_eq_nil_iff.2 fun w hw => ?_
    have := h w hw
    simp
    omega
  rw [State.portBRead]
  dsimp only
  rw [hnone]
  rfl

/-- A good descriptor of a tile that is on is captured. -/
theorem State.strCapture_good {d : StrSlot} (hon : (s.core p).slice.rangeOn d.descAddr 64 = true)
    (hbad : (s.core p).slice.badIn d.descAddr 64 = none) (hweak : (s.core p).slice.weakIn d.descAddr 64 = [])
    (hfree : ∀ w ∈ (s.core p).slice.undefB, w * 64 + 64 ≤ d.descAddr ∨ d.descAddr + 64 ≤ w * 64) {e : StrSlot}
    (he : e = { d with desc := (s.core p).slice.bytes d.descAddr 64 }) (hcheck : e.check = 0) :
    s.strCapture p d = s.modStr p d.slot fun _ => e := by
  rw [State.strCapture]
  dsimp only
  rw [hon, hbad, State.noteReads_of_strong (by simpa using hweak), State.portBRead_of_good hfree, ← he, hcheck]
  rfl

/-- The slots of a unit whose newest descriptor is captured. -/
theorem map_captured {slots : List StrSlot} {k : Nat} {d e : StrSlot} (hd : d.slot = k) (h : ∀ y ∈ slots, y.slot ≠ k) :
    ((slots ++ [d]).map fun y => if y.slot = k then e else y) = slots ++ [e] := by
  have hold : (slots.map fun y => if y.slot = k then e else y) = slots :=
    (List.map_congr_left fun y hy => if_neg (h y hy)).trans (List.map_id slots)
  rw [List.map_append, hold, List.map_singleton, if_pos hd]

/-- A core whose stream unit took the head of its queue as a captured descriptor. -/
def Core.strTakes (c : Core) (rest : List QEntry) (alt : Bool) (d : StrSlot) : Core :=
  { c with seq := { c.seq with qStr := rest }, str := { c.str with toggle := c.str.toggle != alt, slots := c.str.slots ++ [d] } }

/-- An idle stream unit captures the descriptor of a legal SRUN in the lowest free slot. -/
theorem startStream_becomes {x : QEntry} {rest : List QEntry} {o : SrunOps} {slot : Nat} (hq : (s.core p).seq.qStr = x :: rest)
    (hw : s.waitMet p x.hdr = true) (hhalt : (s.core p).str.halted = false) (hstop : (s.core p).str.stopping = false)
    (hop : x.op = .srun o false) (hrsv : o.rsv = 0) (hslot : firstBelow 16 (fun i => ((s.core p).strSlot i).isNone) = some slot)
    {addr : Nat} (haddr : addr = o.desc.toNat * 64 + if o.alt && (s.core p).str.toggle then 64 else 0) (hfits : addr + 64 ≤ sliceSize)
    (hon : (s.core p).slice.rangeOn addr 64 = true) (hbad : (s.core p).slice.badIn addr 64 = none)
    (hweak : (s.core p).slice.weakIn addr 64 = [])
    (hfree : ∀ w ∈ (s.core p).slice.undefB, w * 64 + 64 ≤ addr ∨ addr + 64 ≤ w * 64) {d : StrSlot}
    (hd : d = { slot := slot, entry := x, descAddr := addr, desc := (s.core p).slice.bytes addr 64 }) (hcheck : d.check = 0)
    (hother : ∀ y ∈ (s.core p).str.slots, y.slot ≠ slot) :
    Becomes p ((s.core p).strTakes rest o.alt d) s (startStream p s) := by
  let d0 : StrSlot := { slot := slot, entry := x, descAddr := addr, desc := [] }
  let s1 := s.modCore p fun c => { c with seq := { c.seq with qStr := rest }, str := { c.str with toggle := c.str.toggle != o.alt } }
  let s2 := s1.modCore p fun c => { c with str := { c.str with slots := c.str.slots ++ [d0] } }
  have hs2 : Becomes p ((s.core p).strTakes rest o.alt d0) s s2 := ((s.modCore_becomes p _).modCore _).cast rfl
  have hslice : (s2.core p).slice = (s.core p).slice := by rw [hs2.self]; rfl
  have hcapture : s2.strCapture p d0 = s2.modStr p slot fun _ => d :=
    State.strCapture_good (d := d0) (by rw [hslice]; exact hon) (by rw [hslice]; exact hbad) (by rw [hslice]; exact hweak)
      (by rw [hslice]; exact hfree) (by rw [hslice]; exact hd) hcheck
  have hlegal : srunReserved o false = false := by simp [srunReserved, hrsv]
  have hrun : startStream p s = s2.strCapture p d0 := by
    rw [startStream, hq]
    dsimp only
    rw [hw, hhalt, hstop, hslot, hop]
    dsimp only
    rw [hlegal, Bool.not_false, Bool.true_and, ← haddr]
    exact if_neg (Nat.not_lt.2 hfits)
  rw [hrun, hcapture]
  refine (hs2.modCore _).cast ?_
  dsimp only [Core.strTakes]
  rw [map_captured (d := d0) rfl hother]

/-! ### The oldest descriptor at its end -/

/-- A core whose oldest descriptor left its slot. -/
def Core.strRetires (c : Core) (rest : List StrSlot) : Core := { c with str := { c.str with slots := rest } }

/-- The oldest descriptor, all of whose transactions are done, ends. -/
theorem State.strRetire_eq {d : StrSlot} {rest : List StrSlot} (hslots : (s.core p).str.slots = d :: rest)
    (hdone : d.allDone (s.core p).slice = true) (hlatent : d.latent = []) (cycles : Nat) :
    s.strRetire p cycles =
      (s.modCore p fun c => c.strRetires rest).ends p d.entry (coreReg p 0x2100) 1 (coreReg p 0x210) cycles := by
  rw [State.strRetire, hslots]
  dsimp only
  rw [if_pos hdone, State.showLatent, hlatent]
  rfl

end

/-- Settles O18: the start appends the captured descriptor, and the oldest descriptor ends as every engine instruction does. -/
theorem streamDescriptors : Obligations.StreamDescriptors := by
  unfold Obligations.StreamDescriptors
  refine ⟨?_, ?_⟩
  · intro s p slot x rest o c hcore hc hf hq hw hx hhalt hstop hop hrsv hslot addr d hfits hon hbad hweak hfree hcheck hother
    subst hcore
    refine ⟨startStream p s, ?_, (startStream_becomes hq hw hhalt hstop hop hrsv hslot rfl hfits hon hbad hweak hfree rfl hcheck hother).frame⟩
    rw [engineEntryStart_confirmed hc hf (by rw [Core.queueHead, hq]; rfl) hx, startEngine]
  · intro s p cycles d rest c hcore hc hhalt hslots hdone hlatent
    subst hcore
    refine ⟨s.strRetire p cycles, ?_, ?_⟩
    · rw [exec_streamDescComplete, execStreamDescComplete, hc, hhalt]
      rfl
    · rw [State.strRetire_eq hslots hdone hlatent]
      exact (s.modCore_becomes p fun c => c.strRetires rest).ends rfl d.entry _ _ _ _

end Sys2Proof.Machine
end

section
/-! PROOFS. The array completes its one active instruction (03 R76; 04 R97, R100, R101, R107, R108). -/

namespace Sys2Proof.Machine

theorem exec_engineInstructionComplete (p : Nat) (e : Engine) (i : Nat) (b : Busy) (f : Finds) (s : State) :
    exec (.engineInstructionComplete p e i b f) s = execEngineInstructionComplete p e i b f s := rfl

/-! ### An end among states with the same cores -/

theorem engineDone.same {p : Nat} {x : QEntry} {c : Core} {s t u : State} (k : engineDone p x c s t) (h : SameCores t u) :
    engineDone p x c s u := by
  obtain ⟨hcore, hsig, hrest⟩ := k
  refine ⟨?_, fun q i => ?_, hrest.becomes (h.becomes p)⟩
  · rw [h.core]
    exact hcore
  · rw [State.arrival, h.core]
    exact hsig q i

theorem SameCores.countersMoved {l : List (Nat × Nat)} {s t u : State} (h : SameCores t u) (k : countersMoved l s t) :
    countersMoved l s u := fun j => by
  rw [h.counter]
  exact k j

/-! ### The one active instruction -/

/-- The effects of an active instruction at its completion, and whether it met no violation. -/
def finishMatrix (p : Nat) (a : MxActive) (s : State) : State × Bool :=
  match a.entry.op with
  | .mxl o _ => finishMxl p a o s
  | .mms o _ => let u := runMms p 0 0 a o a.total s; (u.s, !u.bad)
  | .mxd o => let u := runMxd p 0 (a.total + 1) a o s; (u.s, !u.bad)
  | .mxclr o => finishMxclr p o s
  | _ => (s, true)

section
variable {s : State} {p : Nat} {a : MxActive}

/-- A core whose array is done with its first instruction. -/
def Core.mxDone (c : Core) (a : MxActive) : Core := { c with mx := c.mx.done 0 a }

/-- An array whose one instruction may complete without a violation ends it. -/
theorem completeMatrix_ends (hact : (s.core p).mx.active = [a]) (hmay : (s.core p).mx.mayComplete (s.core p).slice 0 a = true)
    {t : State} (hfin : finishMatrix p a s = (t, true)) (cycles stalls : Nat) :
    completeMatrix p 0 cycles stalls s =
      (t.modCore p fun c => c.mxDone a).ends p a.entry (coreReg p 0x200) cycles (coreReg p 0x1120) stalls := by
  have hrun : completeMatrix p 0 cycles stalls s =
      let r := finishMatrix p a s
      let s2 := ((r.1.modCore p fun c => c.mxDone a).count (coreReg p 0x200) cycles).count (coreReg p 0x1120) stalls
      if r.2 then (s2.signal { a.entry.hdr with core := p }).progress p else s2 := by
    rw [completeMatrix, hact]
    dsimp only [List.getElem?_cons_zero]
    rw [hmay]
    rfl
  rw [hrun, hfin]
  rfl

/-- An array whose one instruction may not complete yet goes on with it. -/
theorem completeMatrix_waits (hact : (s.core p).mx.active = [a]) (hmay : (s.core p).mx.mayComplete (s.core p).slice 0 a = false)
    (cycles stalls : Nat) : completeMatrix p 0 cycles stalls s = s := by
  rw [completeMatrix, hact]
  dsimp only [List.getElem?_cons_zero]
  rw [hmay]
  rfl

/-- The only active instruction may complete once it has no row left to admit. -/
theorem Matrix.mayComplete_one (m : Matrix) (sl : Slice) (a : MxActive) : m.mayComplete sl 0 a = decide (m.todo sl a = 0) := by
  simp [Matrix.mayComplete, Matrix.goes]

theorem Matrix.todo_of_other {m : Matrix} (h : a.isMms = false) (sl : Slice) : m.todo sl a = 0 := by
  unfold MxActive.isMms at h
  unfold Matrix.todo
  split
  · next h' => simp [h'] at h
  · rfl

theorem Matrix.done_of_other {m : Matrix} (hone : m.active.length = 1) (h : a.isMms = false) : m.done 0 a = { m with active := [] } := by
  obtain ⟨b, hb⟩ := List.length_eq_one_iff.1 hone
  rw [Matrix.done, hb, h, Bool.false_and, Bool.or_false]
  rfl

theorem Core.mxDone_of_other {c : Core} (hone : c.mx.active.length = 1) (h : a.isMms = false) :
    c.mxDone a = { c with mx := { c.mx with active := [] } } := by
  rw [Core.mxDone, Matrix.done_of_other hone h]

theorem Matrix.done_of_mms {m : Matrix} (hone : m.active.length = 1) (h : a.isMms = true) :
    m.done 0 a = { m with active := [], mmsDone := true } := by
  obtain ⟨b, hb⟩ := List.length_eq_one_iff.1 hone
  rw [Matrix.done, hb, h, Bool.true_and]
  simp

theorem Core.mxDone_of_mms {c : Core} (hone : c.mx.active.length = 1) (h : a.isMms = true) :
    c.mxDone a = { c with mx := { c.mx with active := [], mmsDone := true } } := by
  rw [Core.mxDone, Matrix.done_of_mms hone h]

/-- ENGINE_INSTRUCTION_COMPLETE on a core with nothing to show, of the one instruction of the array: an instruction whose effects make
the core into c, and meet no violation, ends, and the core is d with the array done. -/
theorem engineInstructionComplete_matrix {c d : Core} (hd : c.mxDone a = d) (hc : s.clocked p = true) (hq : quiet (s.core p))
    (hact : (s.core p).mx.active = [a]) (htodo : (s.core p).mx.todo (s.core p).slice a = 0)
    (hfin : ∀ u, u.core p = s.core p → ∃ t, finishMatrix p a u = (t, true) ∧ Becomes p c u t)
    (hreads : c.slice.undefReads = []) (hkept : c.slice.kept = []) (harrival : c.slice.arrival = (s.core p).slice.arrival)
    (cycles stalls : Nat) :
    ∃ t, exec (.engineInstructionComplete p .matrix 0 { cycles := cycles, stalls := stalls } []) s = .next t ∧
      engineDone p a.entry d s t ∧ countersMoved [(coreReg p 0x200, cycles), (coreReg p 0x1120, stalls)] s t := by
  subst hd
  obtain ⟨hsreads, -, hweak⟩ := hq
  let rs := (s.core p).readsOf .matrix 0
  have hu : SameCores s (s.readWords p rs []) := State.readWords_same hweak rs
  have hup := hu.core p
  obtain ⟨t, ht, hbecomes⟩ := hfin _ hup
  have hmay : (s.core p).mx.mayComplete (s.core p).slice 0 a = true := by rw [Matrix.mayComplete_one, htodo]; rfl
  have hrun := completeMatrix_ends (by rw [hup, hact]) (by rw [hup, hmay]) ht cycles stalls
  obtain ⟨hdone, hcount⟩ := ((hu.trans_becomes hbecomes).modCore fun c => c.mxDone a).ends harrival a.entry (coreReg p 0x200) cycles
    (coreReg p 0x1120) stalls
  obtain ⟨hcore, -, -⟩ := id hdone
  rw [← hrun] at hcore hdone hcount
  have hlast := State.withFreeReads_same (p := p) (f := completeMatrix p 0 cycles stalls) (by rw [hup, hsreads]) (by rw [hcore]; exact hreads)
    (by rw [hcore]; exact hkept) rs
  refine ⟨_, ?_, hdone.same hlast, hlast.countersMoved hcount⟩
  rw [exec_engineInstructionComplete, execEngineInstructionComplete, hc]
  rfl

/-! ### MXMAP and MXCLR (R101, R107, R108) -/

@[simp] theorem Matrix.accRow_freeRow (m : Matrix) (r j : Nat) :
    (m.freeRow r).accRow j = if j = r then List.replicate 128 0 else m.accRow j := by
  rw [Matrix.accRow, Matrix.freeRow, Tab.get, Tab.find_erase]
  split
  · rfl
  · rfl

@[simp] theorem Matrix.mem_live_freeRow (m : Matrix) (r j : Nat) : j ∈ (m.freeRow r).live ↔ j ∈ m.live ∧ j ≠ r := by
  simp [Matrix.freeRow]

/-- The array whose rows are cleared. -/
def Matrix.freeRows (m : Matrix) (rs : List Nat) : Matrix := rs.foldl (fun m r => m.freeRow r) m

theorem Matrix.freeRows_frame (m : Matrix) (rs : List Nat) :
    m.freeRows rs = { m with acc := (m.freeRows rs).acc, live := (m.freeRows rs).live } := by
  unfold Matrix.freeRows
  induction rs generalizing m with
  | nil => rfl
  | cons r rs ih =>
    rw [List.foldl_cons, ih]
    rfl

theorem Matrix.accRow_freeRows (m : Matrix) (rs : List Nat) (j : Nat) :
    (m.freeRows rs).accRow j = if j ∈ rs then List.replicate 128 0 else m.accRow j := by
  unfold Matrix.freeRows
  induction rs generalizing m with
  | nil => rfl
  | cons r rs ih =>
    rw [List.foldl_cons, ih, Matrix.accRow_freeRow]
    by_cases hj : j = r
    · simp [hj]
    · simp [hj]

theorem Matrix.mem_live_freeRows (m : Matrix) (rs : List Nat) (j : Nat) : j ∈ (m.freeRows rs).live ↔ j ∈ m.live ∧ j ∉ rs := by
  unfold Matrix.freeRows
  induction rs generalizing m with
  | nil => simp
  | cons r rs ih =>
    rw [List.foldl_cons, ih, Matrix.mem_live_freeRow]
    simp [and_assoc]

/-! ### MXL (R97, R100) -/

theorem Matrix.setPlane_active (m : Matrix) (n : Bool) (pl : Plane) : (m.setPlane n pl).active = m.active := by
  unfold Matrix.setPlane
  split
  · rfl
  · rfl

/-- A dense image without a header. -/
def Slice.denseImage (sl : Slice) (a : MxActive) (fmt : BitVec 4) : Plane :=
  { state := .loaded, fmt := fmt, image := sl.bytes a.addr (imageSize fmt.toNat false) }

/-- A dense image without a header, in tiles that are on and of good words, is loaded. -/
theorem finishMxl_dense {o : MxlOps} (hsparse : o.sparse = false) (hheader : o.header = false)
    (hon : ∀ r ∈ imageReads o.wFmt.toNat false 0, (s.core p).slice.rangeOn (a.addr + r.1) r.2 = true)
    (hbad : ∀ r ∈ imageReads o.wFmt.toNat false 0, (s.core p).slice.badIn (a.addr + r.1) r.2 = none) :
    finishMxl p a o s =
      (s.modCore p fun c => { c with mx := c.mx.setPlane a.plane ((s.core p).slice.denseImage a o.wFmt) }, true) := by
  have hread : (s.core p).slice.portCheck ((imageReads o.wFmt.toNat false 0).map fun r => (a.addr + r.1, r.2)) [] = .ok :=
    Slice.portCheck_ok (List.forall_mem_map.2 hon) (List.forall_mem_map.2 hbad)
  have hnone : (s.core p).slice.portCheck [] [] = .ok := rfl
  unfold finishMxl
  dsimp only
  rw [hsparse, hheader]
  simp only [hnone, hread, Bool.false_eq_true, if_false, Bool.false_and, Nat.add_zero, badIndex]
  rfl

end

/-- Settles O12: MXMAP has no effect left, MXCLR frees its rows one by one, and MXL sets its plane. -/
theorem matrixSetupCompletes : Obligations.MatrixSetupCompletes := by
  unfold Obligations.MatrixSetupCompletes
  refine ⟨fun s p cycles stalls a c hcore hc hq hact => ?_, fun s p cycles stalls a o c hcore hc hq hact hop hsparse hheader _ hon hbad => ?_⟩
  · subst hcore
    obtain ⟨hreads, hkept, -⟩ := id hq
    have hone : (s.core p).mx.active.length = 1 := by rw [hact]; rfl
    refine ⟨fun o hop => ?_, fun o hop => ?_⟩
    · have hmms : a.isMms = false := by rw [MxActive.isMms, hop]
      exact engineInstructionComplete_matrix (Core.mxDone_of_other hone hmms) hc hq hact (Matrix.todo_of_other hmms _)
        (fun u hu => ⟨u, by rw [finishMatrix, hop], hu ▸ .refl u p⟩) hreads hkept rfl cycles stalls
    · have hmms : a.isMms = false := by rw [MxActive.isMms, hop]
      let rs := accRows o.accBase.toNat o.rows.toNat
      let c := { s.core p with mx := (s.core p).mx.freeRows rs }
      have hframe := (s.core p).mx.freeRows_frame rs
      have hlen : c.mx.active.length = 1 := (congrArg (fun m : Matrix => m.active.length) hframe).trans hone
      refine ⟨c.mx, ?_, hframe, Matrix.accRow_freeRows _ _, Matrix.mem_live_freeRows _ _⟩
      exact engineInstructionComplete_matrix (Core.mxDone_of_other hlen hmms) hc hq hact
        (Matrix.todo_of_other hmms _)
        (fun u hu => ⟨_, by rw [finishMatrix, hop]; rfl, hu ▸ u.modCore_becomes p fun c => { c with mx := c.mx.freeRows rs }⟩)
        hreads hkept rfl cycles stalls
  · subst hcore
    obtain ⟨hreads, hkept, -⟩ := id hq
    have hmms : a.isMms = false := by rw [MxActive.isMms, hop]
    let pl := (s.core p).slice.denseImage a o.wFmt
    let c := { s.core p with mx := (s.core p).mx.setPlane a.plane pl }
    have hone : c.mx.active.length = 1 := by rw [Matrix.setPlane_active, hact]; rfl
    refine engineInstructionComplete_matrix (Core.mxDone_of_other hone hmms) hc hq hact (Matrix.todo_of_other hmms _)
      (fun u hu => ?_) hreads hkept rfl cycles stalls
    refine ⟨u.modCore p fun c => { c with mx := c.mx.setPlane a.plane pl }, ?_, ?_⟩
    · rw [finishMatrix, hop]
      dsimp only
      rw [finishMxl_dense hsparse hheader (by rw [hu]; exact hon) (by rw [hu]; exact hbad), hu]
    · exact (u.modCore_becomes p _).cast (by rw [hu])

end Sys2Proof.Machine
end

section
/-! PROOFS. MMS completes once its rows are admitted, and MXD drains its rows (03 R76; 02 R57; 04 R104, R107, R108, R110). -/

namespace Sys2Proof.Machine

/-! ### The slice under writes -/

/-- What each write of a slice leaves as it is, all of them do. -/
theorem Slice.writeAll_stays {α : Type} {f : Slice → α} (h : ∀ sl off bs, f (Slice.write sl off bs) = f sl) (sl : Slice)
    (ws : List (Nat × List Byte)) : f (sl.writeAll ws) = f sl := by
  unfold Slice.writeAll
  induction ws generalizing sl with
  | nil => rfl
  | cons w ws ih => exact (ih _).trans (h sl w.1 w.2)

theorem Slice.rangeOn_writeAll (sl : Slice) (ws : List (Nat × List Byte)) (off n : Nat) :
    (sl.writeAll ws).rangeOn off n = sl.rangeOn off n :=
  Slice.writeAll_stays (f := fun sl => sl.rangeOn off n) (fun _ _ _ => rfl) sl ws

theorem Slice.kept_writeAll {sl : Slice} (h : sl.kept = []) (ws : List (Nat × List Byte)) : (sl.writeAll ws).kept = [] := by
  have hnil := Slice.writeAll_stays (f := fun sl => sl.kept.isEmpty) (fun sl off bs => List.isEmpty_map) sl ws
  exact List.isEmpty_iff.1 (hnil.trans (List.isEmpty_iff.2 h))

theorem Slice.writeAll_append (sl : Slice) (ws vs : List (Nat × List Byte)) : sl.writeAll (ws ++ vs) = (sl.writeAll ws).writeAll vs :=
  List.foldl_append

/-- Ranges of tiles that are on may be written. -/
theorem Slice.portCheck_writes {sl : Slice} {ws : List (Nat × Nat)} (hon : ∀ r ∈ ws, sl.rangeOn r.1 r.2 = true) :
    sl.portCheck [] ws = .ok := if_pos (by simpa using fun a b h => hon (a, b) h)

/-! ### One row of an MXD -/

section
variable (a : MxActive) (o : MxdOps)

/-- The accumulator row that row r of an MXD reads. -/
def drainedRow (o : MxdOps) (r : Nat) : Nat := (o.accBase.toNat + r) % 512

/-- The writes and the flags of row r of an MXD. -/
def Matrix.drainOf (m : Matrix) (r : Nat) : List (Nat × List Byte) × FFlags :=
  drainRow a.outMap o.outAddr.toNat r (m.accRow (drainedRow o r))

/-- The array with row r drained, but for the place of its instruction. -/
def Matrix.drops (m : Matrix) (r : Nat) : Matrix :=
  let m1 := { m with flags := m.flags ||| mxFlagsOf (m.drainOf a o r).2 }
  if o.release then m1.freeRow (drainedRow o r) else m1

/-- A core whose MXD drained row r. -/
def Core.drains (c : Core) (r : Nat) : Core :=
  let m := c.mx.drops a o r
  { c with slice := c.slice.writeAll (c.mx.drainOf a o r).1,
           mx := { m with active := m.active.modify 0 fun a => { a with nextRow := r + 1 } } }

/-- The end of row r of an MXD: the accumulator row is freed under release, and the instruction goes on. -/
def State.endsRow (p r : Nat) (s : State) : State :=
  (if o.release then s.modCore p (fun c => { c with mx := c.mx.freeRow (drainedRow o r) }) else s).modActive p 0
    (fun a => { a with nextRow := r + 1 })

/-- A row of tiles that are on is drained while the run has one left. -/
theorem mxdDrain_becomes {p : Nat} {u : RowRun} {r : Nat} (hstop : u.stop = false) (hleft : u.left ≠ 0)
    (hpolicy : (u.s.core p).rcPolicy = 0)
    (hon : ∀ x ∈ mapRanges a.outMap o.outAddr.toNat r 128, (u.s.core p).slice.rangeOn x.1 x.2 = true) :
    ∃ t, mxdDrain p 0 a o u r = { u with s := t, left := u.left - 1 } ∧ Becomes p ((u.s.core p).drains a o r) u.s t := by
  let d := (u.s.core p).mx.drainOf a o r
  let s1 := (u.s.modSlice p fun sl => sl.writeAll d.1).raiseMx p d.2
  have hs1 : Becomes p { u.s.core p with
      slice := (u.s.core p).slice.writeAll d.1, mx := { (u.s.core p).mx with flags := (u.s.core p).mx.flags ||| mxFlagsOf d.2 } } u.s s1 :=
    ((u.s.modCore_becomes p _).modCore _).cast rfl
  have hcheck : s1.checkRow p a (drainedRow o r) ((u.s.core p).mx.accRow (drainedRow o r)) = s1 :=
    if_pos (by rw [hs1.self]; exact hpolicy)
  have hrun : mxdDrain p 0 a o u r = { u with
      s := (s1.checkRow p a (drainedRow o r) ((u.s.core p).mx.accRow (drainedRow o r))).endsRow o p r, left := u.left - 1 } := by
    rw [mxdDrain, hstop, decide_eq_false hleft, Slice.portCheck_writes hon]
    rfl
  refine ⟨s1.endsRow o p r, by rw [hrun, hcheck], ?_⟩
  unfold State.endsRow Core.drains Matrix.drops
  cases o.release
  · exact (hs1.modCore _).cast rfl
  · exact ((hs1.modCore fun c => { c with mx := c.mx.freeRow (drainedRow o r) }).modCore _).cast rfl

/-! ### The rows of an MXD -/

/-- Each of the rows in tiles that are on, a run with rows to spare drains all of them. -/
theorem foldl_mxdDrain_becomes {p : Nat} (rs : List Nat) {u : RowRun} (hstop : u.stop = false) (hleft : rs.length ≤ u.left)
    (hpolicy : (u.s.core p).rcPolicy = 0)
    (hon : ∀ r ∈ rs, ∀ x ∈ mapRanges a.outMap o.outAddr.toNat r 128, (u.s.core p).slice.rangeOn x.1 x.2 = true) :
    ∃ t, Becomes p (rs.foldl (Core.drains a o) (u.s.core p)) u.s t ∧
      (rs.foldl (mxdDrain p 0 a o) u).s = t ∧ (rs.foldl (mxdDrain p 0 a o) u).bad = u.bad := by
  induction rs generalizing u with
  | nil => exact ⟨u.s, .refl u.s p, rfl, rfl⟩
  | cons r rs ih =>
    rw [List.length_cons] at hleft
    obtain ⟨t, hstep, ht⟩ := mxdDrain_becomes a o hstop (by omega) hpolicy (hon r List.mem_cons_self)
    have hslice (x y : Nat) : (t.core p).slice.rangeOn x y = (u.s.core p).slice.rangeOn x y := by
      rw [ht.self]
      exact Slice.rangeOn_writeAll _ _ x y
    obtain ⟨v, hv, hs, hbad⟩ := ih (u := { u with s := t, left := u.left - 1 }) hstop (by dsimp only; omega)
      (by rw [ht.self]; exact hpolicy) fun r hr x hx => by rw [hslice]; exact hon r (List.mem_cons_of_mem _ hr) x hx
    rw [List.foldl_cons, List.foldl_cons, hstep]
    refine ⟨v, ht.trans ?_, hs, hbad⟩
    rw [← ht.self]
    exact hv

/-- The array m after its first n rows were drained is m'. -/
structure Drained (n : Nat) (m m' : Matrix) : Prop where
  eq : { m' with active := [] } = { m with acc := m'.acc, live := m'.live, flags := m'.flags, active := [] }
  active : m'.active.length = m.active.length
  freed : ∀ i < n, o.release = true → m'.accRow (drainedRow o i) = List.replicate 128 0 ∧ drainedRow o i ∉ m'.live
  stays : ∀ r, (o.release = false ∨ ∀ i < n, r ≠ drainedRow o i) → m'.accRow r = m.accRow r ∧ (r ∈ m'.live ↔ r ∈ m.live)

/-- Fewer than 512 rows on, an input row has another accumulator row. -/
theorem drainedRow_ne {i j : Nat} (h : i < j) (hj : j < i + 512) : drainedRow o j ≠ drainedRow o i := by
  unfold drainedRow
  omega

theorem Drained.zero (m : Matrix) : Drained o 0 m m where
  eq := rfl
  active := rfl
  freed i hi := absurd hi (Nat.not_lt_zero i)
  stays _ _ := ⟨rfl, .rfl⟩

/-- The row that is drained next still holds what it held. -/
theorem Drained.next {n : Nat} {m m' : Matrix} (h : Drained o n m m') (hn : n < 512) : m'.drainOf a o n = m.drainOf a o n := by
  have hstays := h.stays (drainedRow o n) (.inr fun i hi => drainedRow_ne o hi (by omega))
  rw [Matrix.drainOf, hstays.1, Matrix.drainOf]

/-- One more row is drained. -/
theorem Drained.succ {n : Nat} {c : Core} {m : Matrix} (h : Drained o n m c.mx) (hn : n < 512) :
    Drained o (n + 1) m (c.drains a o n).mx := by
  obtain ⟨heq, hactive, hfreed, hstays⟩ := h
  let flags := c.mx.flags ||| mxFlagsOf (c.mx.drainOf a o n).2
  unfold Core.drains Matrix.drops
  cases hrel : o.release
  case false =>
    refine ⟨?_, ?_, fun i _ hr => ?_, fun r _ => hstays r (.inl hrel)⟩
    · exact congrArg (fun x : Matrix => { x with flags := flags }) heq
    · exact (List.length_modify ..).trans hactive
    · simp [hrel] at hr
  case true =>
    let m' := { c.mx with flags := flags }.freeRow (drainedRow o n)
    have hacc (j : Nat) : m'.accRow j = if j = drainedRow o n then List.replicate 128 0 else c.mx.accRow j := Matrix.accRow_freeRow _ _ j
    have hlive (j : Nat) : j ∈ m'.live ↔ j ∈ c.mx.live ∧ j ≠ drainedRow o n := Matrix.mem_live_freeRow _ _ j
    have hnew (i : Nat) (hi : i < n + 1) : m'.accRow (drainedRow o i) = List.replicate 128 0 ∧ drainedRow o i ∉ m'.live := by
      rw [hacc, hlive]
      rcases (show i < n ∨ i = n by omega) with h | rfl
      · obtain ⟨hzero, hfree⟩ := hfreed i h hrel
        exact ⟨by rw [hzero, ite_self], fun hl => hfree hl.1⟩
      · exact ⟨if_pos rfl, fun hl => hl.2 rfl⟩
    have hold (r : Nat) (hr : ∀ i < n + 1, r ≠ drainedRow o i) : m'.accRow r = m.accRow r ∧ (r ∈ m'.live ↔ r ∈ m.live) := by
      obtain ⟨hrow, hl⟩ := hstays r (.inr fun i hi => hr i (by omega))
      have hne := hr n (by omega)
      rw [hacc, if_neg hne, hlive]
      exact ⟨hrow, by simp [hne, hl]⟩
    refine ⟨?_, ?_, fun i hi _ => hnew i hi, fun r hr => hold r (hr.resolve_left (by simp [hrel]))⟩
    · exact congrArg (fun x : Matrix => { x with flags := flags, acc := m'.acc, live := m'.live }) heq
    · exact (List.length_modify ..).trans hactive

/-- The core whose first n rows were drained: its slice took their writes in order. -/
theorem foldl_drains (c : Core) {n : Nat} (hn : n ≤ 512) :
    Drained o n c.mx ((List.range n).foldl (Core.drains a o) c).mx ∧
    (List.range n).foldl (Core.drains a o) c = { c with
      mx := ((List.range n).foldl (Core.drains a o) c).mx,
      slice := c.slice.writeAll ((List.range n).flatMap fun i => (c.mx.drainOf a o i).1) } := by
  induction n with
  | zero => exact ⟨.zero o c.mx, rfl⟩
  | succ n ih =>
    obtain ⟨hdrained, heq⟩ := ih (by omega)
    rw [List.range_succ, List.foldl_append, List.foldl_cons, List.foldl_nil, List.flatMap_append, Slice.writeAll_append]
    refine ⟨hdrained.succ a o (by omega), ?_⟩
    have hnext := hdrained.next a o (by omega)
    generalize (List.range n).foldl (Core.drains a o) c = c' at *
    have hslice : c'.slice = c.slice.writeAll ((List.range n).flatMap fun i => (c.mx.drainOf a o i).1) := congrArg Core.slice heq
    rw [← hslice, List.flatMap_singleton, ← hnext]
    exact congrArg (fun x : Core => { x with
      mx := (c'.drains a o n).mx, slice := c'.slice.writeAll (c'.mx.drainOf a o n).1 }) heq

/-- An MXD in tiles that are on drains its rows. -/
theorem finishMatrix_mxd {s : State} {p : Nat} (hop : a.entry.op = .mxd o) (hrow : a.nextRow = 0) (hpolicy : (s.core p).rcPolicy = 0)
    (hon : ∀ r ∈ List.range o.rows.toNat, ∀ x ∈ mapRanges a.outMap o.outAddr.toNat r 128, (s.core p).slice.rangeOn x.1 x.2 = true) :
    ∃ t, finishMatrix p a s = (t, true) ∧ Becomes p ((List.range o.rows.toNat).foldl (Core.drains a o) (s.core p)) s t := by
  have htotal : a.total = o.rows.toNat := by rw [MxActive.total, hop]
  obtain ⟨t, ht, hs, hbad⟩ := foldl_mxdDrain_becomes a o (p := p) (List.range o.rows.toNat) (u := { s := s, left := a.total + 1 }) rfl
    (by rw [List.length_range, htotal]; exact Nat.le_succ _) hpolicy hon
  refine ⟨t, ?_, ht⟩
  rw [finishMatrix, hop]
  dsimp only
  rw [runMxd, hrow, Nat.sub_zero, ← List.range_eq_range', hs, hbad]
  rfl

end

/-! ### MMS (R104, R110) -/

/-- An MMS with every row admitted has no effect left. -/
theorem finishMatrix_mms {s : State} {p : Nat} {a : MxActive} {o : MmsOps} (hop : a.entry.op = .mms o false)
    (hrows : o.rows.toNat ≤ a.nextRow) : finishMatrix p a s = (s, true) := by
  have htotal : a.total = o.rows.toNat := by rw [MxActive.total, hop]; rfl
  rw [finishMatrix, hop]
  dsimp only
  rw [runMms, htotal, Nat.sub_eq_zero_of_le hrows]
  rfl

/-- An array whose one instruction has rows left to admit changes nothing at its completion. -/
theorem engineInstructionComplete_waits {s : State} {p : Nat} {a : MxActive} (hc : s.clocked p = true) (hq : quiet (s.core p))
    (hact : (s.core p).mx.active = [a]) (htodo : (s.core p).mx.todo (s.core p).slice a ≠ 0) (cycles stalls : Nat) :
    ∃ t, exec (.engineInstructionComplete p .matrix 0 { cycles := cycles, stalls := stalls } []) s = .next t ∧ SameCores s t := by
  obtain ⟨hsreads, hskept, hweak⟩ := hq
  let rs := (s.core p).readsOf .matrix 0
  have hu : SameCores s (s.readWords p rs []) := State.readWords_same hweak rs
  have hup := hu.core p
  have hmay : (s.core p).mx.mayComplete (s.core p).slice 0 a = false := by rw [Matrix.mayComplete_one, decide_eq_false htodo]
  have hrun := completeMatrix_waits (by rw [hup, hact]) (by rw [hup, hmay]) cycles stalls
  have hlast := State.withFreeReads_same (p := p) (f := completeMatrix p 0 cycles stalls) (by rw [hup, hsreads])
    (by rw [hrun, hup]; exact hsreads) (by rw [hrun, hup]; exact hskept) rs
  rw [hrun] at hlast
  refine ⟨_, ?_, (hu.trans_becomes (hlast.becomes p)).cast hup |>.sameCores⟩
  rw [exec_engineInstructionComplete, execEngineInstructionComplete, hc]
  rfl

/-- Settles O13: an MMS has no row left to take, and MXD drains its rows one by one, each from and to a row of its own. -/
theorem matrixRowsComplete : Obligations.MatrixRowsComplete := by
  unfold Obligations.MatrixRowsComplete
  refine ⟨fun s p cycles stalls a o c hcore hc hq hact hop hzrow hloaded => ?_,
    fun s p cycles stalls a o c hcore hc hq hact hop hrow hpolicy hmax hon => ?_⟩
  · subst hcore
    obtain ⟨hreads, hkept, -⟩ := id hq
    have htodo := Matrix.todo_eq hop hzrow hloaded (s.core p).slice
    refine ⟨fun hrows => ?_, fun hrows => ?_⟩
    · have hmms : a.isMms = true := by rw [MxActive.isMms, hop]
      exact engineInstructionComplete_matrix (Core.mxDone_of_mms (by rw [hact]; rfl) hmms) hc hq hact
        (by rw [htodo, Nat.sub_eq_zero_of_le hrows]) (fun u hu => ⟨u, finishMatrix_mms hop hrows, hu ▸ .refl u p⟩) hreads hkept rfl
        cycles stalls
    · obtain ⟨t, hx, ht⟩ := engineInstructionComplete_waits hc hq hact (by omega) cycles stalls
      exact ⟨t, hx, ht.core p, fun q _ => ht.core q, ht.eq⟩
  · subst hcore
    obtain ⟨hreads, hkept, -⟩ := id hq
    have hmms : a.isMms = false := by rw [MxActive.isMms, hop]
    obtain ⟨hdrained, heq⟩ := foldl_drains a o (s.core p) hmax
    generalize hd : (List.range o.rows.toNat).foldl (Core.drains a o) (s.core p) = d at hdrained heq
    let ws := (List.range o.rows.toNat).flatMap fun i => ((s.core p).mx.drainOf a o i).1
    have hslice : d.slice = (s.core p).slice.writeAll ws := congrArg Core.slice heq
    obtain ⟨t, hx, hdone, -⟩ := engineInstructionComplete_matrix (c := d)
      (Core.mxDone_of_other (by rw [hdrained.active, hact]; rfl) hmms) hc hq hact (Matrix.todo_of_other hmms _)
      (fun u hu => by
        rw [← hd, ← hu]
        exact finishMatrix_mxd a o hop hrow (by rw [hu]; exact hpolicy) fun r hr x hx => by
          rw [hu]
          exact hon x (List.mem_flatMap.2 ⟨r, hr, hx⟩))
      (by rw [hslice]; exact (Slice.writeAll_stays (f := Slice.undefReads) (fun _ _ _ => rfl) _ ws).trans hreads)
      (by rw [hslice]; exact Slice.kept_writeAll hkept ws)
      (by rw [hslice]; exact Slice.writeAll_stays (f := Slice.arrival) (fun _ _ _ => rfl) _ ws) cycles stalls
    let m := { (s.core p).mx with acc := d.mx.acc, live := d.mx.live, flags := d.mx.flags }
    have hend : { d with mx := { d.mx with active := [] } } =
        { s.core p with mx := { m with active := [] }, slice := (s.core p).slice.writeAll ws } := by
      rw [hdrained.eq]
      exact congrArg (fun x : Core => { x with mx := { m with active := [] } }) heq
    refine ⟨m, t, hx, ?_, rfl, hdrained.freed, hdrained.stays⟩
    dsimp only
    rw [List.flatMap_map]
    exact hend ▸ hdone

end Sys2Proof.Machine
end

section
/-! PROOFS. The vector engine completes its setup instructions and its units (03 R76; 05 R130, R131, R136, R146, R147). -/

namespace Sys2Proof.Machine

/-! ### Several counters (R153) -/

/-- Each counter of a list goes up by its amount, in order. -/
def State.counts (s : State) (l : List (Nat × Nat)) : State := l.foldl (fun s e => s.count e.1 e.2) s

@[simp] theorem State.core_counts (s : State) (l : List (Nat × Nat)) (q : Nat) : (s.counts l).core q = s.core q := by
  unfold State.counts
  induction l generalizing s with
  | nil => rfl
  | cons e l ih => exact ih (s.count e.1 e.2)

theorem CoreOnly.counts {p : Nat} {s t : State} (k : CoreOnly p s t) (l : List (Nat × Nat)) : CoreOnly p s (t.counts l) := by
  unfold State.counts
  induction l generalizing t with
  | nil => exact k
  | cons e l ih => exact ih (k.count e.1 e.2)

theorem State.countersMoved_counts (s : State) (l : List (Nat × Nat)) : countersMoved l s (s.counts l) := fun j => by
  unfold State.counts
  induction l generalizing s with
  | nil => simp
  | cons e l ih =>
    rw [List.foldl_cons, ih, State.counter_count_add, List.filter_cons, BitVec.add_assoc]
    by_cases h : e.1 = j
    · simp [h, BitVec.ofNat_add]
    · simp [h, Ne.symm h]

/-- Amounts of zero move no counter. -/
theorem countersMoved.of_nonzero {l : List (Nat × Nat)} {s t : State} (h : countersMoved l s t) :
    countersMoved (l.filter fun e => e.2 ≠ 0) s t := fun j => by
  have hsum : (((l.filter fun e => e.2 ≠ 0).filter fun e => e.1 = j).map Prod.snd).sum = ((l.filter fun e => e.1 = j).map Prod.snd).sum := by
    rw [List.filter_comm]
    generalize l.filter (fun e => e.1 = j) = l'
    induction l' with
    | nil => rfl
    | cons e l' ih =>
      by_cases he : e.2 = 0
      · simpa [he] using ih
      · simpa [he] using ih
  rw [hsum]
  exact h j

/-! ### The end of a unit (R76, R153) -/

/-- A core whose vector engine is free. -/
def Core.vxDone (c : Core) : Core := { c with vx := { c.vx with unit := [] } }

/-- The counters of a vector engine that moved at the end of a unit. -/
def vxCounts (p cycles beats opbeats stalls : Nat) : List (Nat × Nat) :=
  [(coreReg p 0x208, cycles), (coreReg p 0x1A00, beats), (coreReg p 0x1A08, opbeats), (coreReg p 0x1A10, 1), (coreReg p 0x1A18, stalls)]

/-- A unit of one instruction ends with its signal, the engine's counters and the note of progress. -/
theorem State.vxEnd_singleton (s : State) (p : Nat) (x : QEntry) (cycles beats opbeats stalls : Nat) :
    s.vxEnd p [x] cycles beats opbeats stalls =
      (((s.modCore p Core.vxDone).signal { x.hdr with core := p }).counts (vxCounts p cycles beats opbeats stalls)).progress p := rfl

section
variable {p : Nat} {c : Core} {s t : State}

/-- A unit of one instruction whose effects make core p into c ends. -/
theorem Becomes.vxEnd (h : Becomes p c s t) (hc : c.slice.arrival = (s.core p).slice.arrival) (x : QEntry)
    (cycles beats opbeats stalls : Nat) :
    engineDone p x c.vxDone s (t.vxEnd p [x] cycles beats opbeats stalls) ∧
      countersMoved (vxCounts p cycles beats opbeats stalls) s (t.vxEnd p [x] cycles beats opbeats stalls) := by
  have hfree : Becomes p c.vxDone s (t.modCore p Core.vxDone) := h.modCore Core.vxDone
  have hsig := (t.modCore p Core.vxDone).signal_becomes (p := p) (h := { x.hdr with core := p }) rfl
  rw [State.vxEnd_singleton]
  refine ⟨⟨?_, fun q i => ?_, ?_⟩, fun j => ?_⟩
  · rw [State.core_progress, State.core_counts, hsig.self, hfree.self]
  · rw [State.arrival_progress, State.arrival, State.core_counts, ← State.arrival, State.signal_arrival, hfree.arrival hc]
  · exact ((((CoreOnly.refl p s).becomes hfree).becomes hsig).counts _).progress p
  · have hstart : ((t.modCore p Core.vxDone).signal { x.hdr with core := p }).counter j = s.counter j := by
      rw [State.counter, State.signal_counters, hfree.eq]
      rfl
    rw [State.counter, State.counters_progress, ← State.counter, State.countersMoved_counts, hstart]

/-- ENGINE_INSTRUCTION_COMPLETE of the vector engine on a core with nothing to show: a unit of one instruction whose effects make the
core into c ends, and the engine is free. -/
theorem engineInstructionComplete_vector {x : QEntry} {cycles stalls vcycles beats opbeats vstalls : Nat} (hc : s.clocked p = true)
    (hq : quiet (s.core p))
    (hrun : ∀ u, u.core p = s.core p →
      ∃ t, completeVector p stalls u = t.vxEnd p [x] vcycles beats opbeats vstalls ∧ Becomes p c u t)
    (hreads : c.slice.undefReads = []) (hkept : c.slice.kept = []) (harrival : c.slice.arrival = (s.core p).slice.arrival) :
    ∃ t, exec (.engineInstructionComplete p .vector 0 { cycles := cycles, stalls := stalls } []) s = .next t ∧
      engineDone p x c.vxDone s t ∧ countersMoved (vxCounts p vcycles beats opbeats vstalls) s t := by
  obtain ⟨hsreads, -, hweak⟩ := hq
  let rs := (s.core p).readsOf .vector 0
  have hu : SameCores s (s.readWords p rs []) := State.readWords_same hweak rs
  obtain ⟨t, ht, hbecomes⟩ := hrun _ (hu.core p)
  obtain ⟨hdone, hcount⟩ := (hu.trans_becomes hbecomes).vxEnd harrival x vcycles beats opbeats vstalls
  obtain ⟨hcore, -, -⟩ := id hdone
  rw [← ht] at hcore hdone hcount
  have hlast := State.withFreeReads_same (p := p) (f := completeVector p stalls) (by rw [hu.core, hsreads])
    (by rw [hcore]; exact hreads) (by rw [hcore]; exact hkept) rs
  refine ⟨_, ?_, hdone.same hlast, hlast.countersMoved hcount⟩
  rw [exec_engineInstructionComplete, execEngineInstructionComplete, hc]
  rfl

/-! ### Setup instructions (R130, R131) -/

theorem completeVector_setup {x : QEntry} (hunit : (s.core p).vx.unit = [x]) (hsetup : x.isSetup = true) (stalls : Nat) :
    completeVector p stalls s = (s.modCore p fun c => { c with vx := setupEffect x c.vx }).vxEnd p [x] 1 0 0 0 := by
  rw [completeVector, hunit]
  dsimp only
  rw [hsetup]
  rfl

/-- A setup instruction takes its effect, counts one cycle and one unit, and signals. -/
theorem engineInstructionComplete_setup {x : QEntry} {v : VectorEngine} (hc : s.clocked p = true) (hq : quiet (s.core p))
    (hunit : (s.core p).vx.unit = [x]) (hsetup : x.isSetup = true) (hv : setupEffect x (s.core p).vx = v) (cycles stalls : Nat) :
    ∃ t, exec (.engineInstructionComplete p .vector 0 { cycles := cycles, stalls := stalls } []) s = .next t ∧
      engineDone p x { s.core p with vx := { v with unit := [] } } s t ∧
      countersMoved [(coreReg p 0x208, 1), (coreReg p 0x1A10, 1)] s t := by
  obtain ⟨hreads, hkept, -⟩ := id hq
  obtain ⟨t, hx, hdone, hcount⟩ := engineInstructionComplete_vector (x := x) (c := { s.core p with vx := v }) (cycles := cycles)
    (stalls := stalls) hc hq
    (fun u hu => ⟨_, completeVector_setup (by rw [hu, hunit]) hsetup stalls,
      (u.modCore_becomes p fun c => { c with vx := setupEffect x c.vx }).cast (by rw [hu, hv])⟩) hreads hkept rfl
  exact ⟨t, hx, hdone, hcount.of_nonzero⟩

/-! ### The rows of a unit (R136, R146) -/

/-- A core whose vector engine ran these rows of a unit, all read from the slice `sl`: the slice took their writes in order, and the
sticky flags gathered theirs. -/
def Core.takesRows (c : Core) (v : VectorEngine) (u : VUnit) (sl : Slice) (rs : List Nat) : Core :=
  { c with slice := c.slice.writeAll (rs.flatMap fun r => (rowUnit v u sl r).1),
           vx := { c.vx with flags := rs.foldl (fun f r => f ||| (rowUnit v u sl r).2) c.vx.flags } }

theorem Core.takesRows_singleton (c : Core) (v : VectorEngine) (u : VUnit) (sl : Slice) (r : Nat) :
    c.takesRows v u sl [r] = { c with
      slice := c.slice.writeAll (rowUnit v u sl r).1, vx := { c.vx with flags := c.vx.flags ||| (rowUnit v u sl r).2 } } := by
  rw [takesRows, List.flatMap_singleton]
  rfl

theorem Core.takesRows_cons (c : Core) (v : VectorEngine) (u : VUnit) (sl : Slice) (r : Nat) (rs : List Nat) :
    c.takesRows v u sl (r :: rs) = (c.takesRows v u sl [r]).takesRows v u sl rs := by
  rw [takesRows_singleton, takesRows, List.flatMap_cons, Slice.writeAll_append]
  rfl

/-- The rows of a unit leave to the slice its collided reads and its arrival counters. -/
theorem Core.takesRows_quiet (c : Core) (v : VectorEngine) (u : VUnit) (sl : Slice) (rs : List Nat) :
    (c.takesRows v u sl rs).slice.undefReads = c.slice.undefReads ∧
    (c.slice.kept = [] → (c.takesRows v u sl rs).slice.kept = []) ∧
    (c.takesRows v u sl rs).slice.arrival = c.slice.arrival :=
  ⟨Slice.writeAll_stays (f := Slice.undefReads) (fun _ _ _ => rfl) _ _, fun h => Slice.kept_writeAll h _,
    Slice.writeAll_stays (f := Slice.arrival) (fun _ _ _ => rfl) _ _⟩

theorem State.vxRow_becomes (s : State) (p : Nat) (v : VectorEngine) (u : VUnit) (sl : Slice) (r : Nat) :
    Becomes p ((s.core p).takesRows v u sl [r]) s (s.vxRow p v u sl r) := by
  rw [Core.takesRows_singleton]
  exact (s.modCore_becomes p fun c => { c with slice := c.slice.writeAll (rowUnit v u sl r).1 }).modCore
    fun c => { c with vx := { c.vx with flags := c.vx.flags ||| (rowUnit v u sl r).2 } }

/-- The rows of a unit run one after the other. -/
theorem foldl_vxRow_becomes (v : VectorEngine) (u : VUnit) (sl : Slice) (rs : List Nat) (s : State) :
    Becomes p ((s.core p).takesRows v u sl rs) s (rs.foldl (fun s r => s.vxRow p v u sl r) s) := by
  induction rs generalizing s with
  | nil => exact .refl s p
  | cons r rs ih =>
    have hrow := s.vxRow_becomes p v u sl r
    rw [Core.takesRows_cons, ← hrow.self]
    exact hrow.trans (ih _)

/-- Ranges of tiles that are on, those to be read of good words, pass the port. -/
theorem Slice.portCheck_of_on {sl : Slice} {rd wr : List (Nat × Nat)} (hon : ∀ r ∈ rd ++ wr, sl.rangeOn r.1 r.2 = true)
    (hbad : ∀ r ∈ rd, sl.badIn r.1 r.2 = none) : sl.portCheck rd wr = .ok := by
  rw [Slice.portCheck, if_pos (List.all_eq_true.2 hon), List.findSome?_eq_none_iff.2 hbad]

/-- The ranges that streams cover in their first rows. -/
def streamRanges (xs : List (Strm × Nat)) (rows : Nat) : List (Nat × Nat) :=
  xs.flatMap fun x => (List.range rows).flatMap fun r => x.1.ranges r x.2

theorem mem_streamRanges {xs : List (Strm × Nat)} {rows : Nat} {a : Nat × Nat} :
    a ∈ streamRanges xs rows ↔ ∃ x ∈ xs, ∃ r < rows, a ∈ x.1.ranges r x.2 := by
  simp [streamRanges]

theorem streamRanges_append (xs ys : List (Strm × Nat)) (rows : Nat) :
    streamRanges (xs ++ ys) rows = streamRanges xs rows ++ streamRanges ys rows := List.flatMap_append

/-- The rows of a unit pass the port of a slice. -/
def VUnit.passes (u : VUnit) (sl : Slice) : Prop :=
  sl.portCheck (streamRanges u.sources u.rows) (streamRanges u.dests u.rows) = .ok

/-- A unit whose streams lie in tiles that are on, its sources on good words, passes the port. -/
theorem VUnit.passes_of_on {u : VUnit} {sl : Slice}
    (hon : ∀ st ∈ u.sources ++ u.dests, ∀ r < u.rows, ∀ a ∈ st.1.ranges r st.2, sl.rangeOn a.1 a.2 = true)
    (hgood : ∀ st ∈ u.sources, ∀ r < u.rows, ∀ a ∈ st.1.ranges r st.2, sl.badIn a.1 a.2 = none) : u.passes sl := by
  refine Slice.portCheck_of_on (fun a ha => ?_) fun a ha => ?_
  · rw [← streamRanges_append] at ha
    obtain ⟨st, hst, r, hr, hmem⟩ := mem_streamRanges.1 ha
    exact hon st hst r hr a hmem
  · obtain ⟨st, hst, r, hr, hmem⟩ := mem_streamRanges.1 ha
    exact hgood st hst r hr a hmem

/-- A unit whose streams pass the port, and of which no row overlaps but exactly, runs its rows and ends. -/
theorem finishRows_becomes {u : VUnit} (hport : u.passes (s.core p).slice) (hread : overlapOf u.sources u.dests u.rows = [])
    (hwrite : overlapOf u.dests u.sources u.rows = []) (xs : List QEntry) (stalls : Nat) :
    ∃ t, finishRows p xs u stalls s = t.vxEnd p xs (8 + u.cost + stalls) (u.rows * ceilDiv u.l u.beat)
        (u.rows * ceilDiv u.l u.beat * u.members.length) stalls ∧
      Becomes p ((s.core p).takesRows (s.core p).vx u (s.core p).slice (List.range u.rows)) s t := by
  refine ⟨_, ?_, foldl_vxRow_becomes _ _ _ _ s⟩
  unfold VUnit.passes streamRanges at hport
  rw [finishRows]
  dsimp only
  rw [hport, hread, hwrite]
  rfl

/-- A unit that has no member of class G runs its rows. -/
theorem completeVector_rows {x : QEntry} {rest : List QEntry} {u : VUnit} (hunit : (s.core p).vx.unit = x :: rest)
    (hsetup : x.isSetup = false) (hok : unitOf (s.core p).vx (x :: rest) = .ok u) (hcls : ∀ m ∈ u.members, m.op.cls ≠ .g) (stalls : Nat) :
    completeVector p stalls s = finishRows p (x :: rest) u stalls s := by
  rw [completeVector, hunit]
  dsimp only
  rw [hsetup, hok, if_neg Bool.false_ne_true]
  dsimp only
  split
  · next m hm =>
    rw [hm] at hcls
    exact if_neg (hcls m (List.mem_singleton_self m))
  · rfl

/-- A unit of one instruction that is no gather or scatter, whose streams pass the port and of which no row overlaps but exactly,
takes its rows in order, and signals. -/
theorem engineInstructionComplete_rows {x : QEntry} {u : VUnit} (hc : s.clocked p = true) (hq : quiet (s.core p))
    (hunit : (s.core p).vx.unit = [x]) (hsetup : x.isSetup = false) (hok : unitOf (s.core p).vx [x] = .ok u)
    (hcls : ∀ m ∈ u.members, m.op.cls ≠ .g) (hport : u.passes (s.core p).slice) (hread : overlapOf u.sources u.dests u.rows = [])
    (hwrite : overlapOf u.dests u.sources u.rows = []) (cycles stalls : Nat) :
    ∃ t, exec (.engineInstructionComplete p .vector 0 { cycles := cycles, stalls := stalls } []) s = .next t ∧
      engineDone p x ((s.core p).takesRows (s.core p).vx u (s.core p).slice (List.range u.rows)).vxDone s t := by
  obtain ⟨hreads, hkept, -⟩ := id hq
  obtain ⟨hcreads, hckept, hcarrival⟩ := (s.core p).takesRows_quiet (s.core p).vx u (s.core p).slice (List.range u.rows)
  obtain ⟨t, hx, hdone, -⟩ := engineInstructionComplete_vector (x := x) (cycles := cycles) (stalls := stalls) hc hq
    (fun w hw => by
      obtain ⟨t, ht, hbecomes⟩ := finishRows_becomes (by rw [hw]; exact hport) hread hwrite [x] stalls
      have hrun := completeVector_rows (by rw [hw, hunit]) hsetup (by rw [hw]; exact hok) hcls stalls
      exact ⟨t, hrun.trans ht, hbecomes.cast (by rw [hw])⟩)
    (hcreads.trans hreads) (hckept hkept) hcarrival
  exact ⟨t, hx, hdone⟩

end

/-- Settles O15: a setup instruction's effect is that of its operands, and a unit's rows are written in order before it ends. -/
theorem vectorEntriesComplete : Obligations.VectorEntriesComplete := by
  unfold Obligations.VectorEntriesComplete
  refine ⟨fun s p cycles stalls x c hcore hc hq hunit => ?_,
    fun s p cycles stalls x u c hcore hc hq hunit hsetup hok hcls hrows hread hwrite hon hgood => ?_⟩
  · subst hcore
    exact ⟨fun o hop => engineInstructionComplete_setup hc hq hunit (by rw [QEntry.isSetup, hop]) (by rw [setupEffect, hop]) _ _,
      fun o hop => engineInstructionComplete_setup hc hq hunit (by rw [QEntry.isSetup, hop]) (by rw [setupEffect, hop]; rfl) _ _,
      fun o hop => engineInstructionComplete_setup hc hq hunit (by rw [QEntry.isSetup, hop]) (by rw [setupEffect, hop]) _ _⟩
  · subst hcore
    have hport : u.passes (s.core p).slice := VUnit.passes_of_on
      (fun st hst r hr => by rw [hrows, Nat.lt_one_iff] at hr; rw [hr]; exact hon st hst)
      (fun st hst r hr => by rw [hrows, Nat.lt_one_iff] at hr; rw [hr]; exact hgood st hst)
    obtain ⟨t, hx, hdone⟩ := engineInstructionComplete_rows hc hq hunit hsetup hok hcls hport hread hwrite cycles stalls
    rw [hrows, List.range_one, Core.takesRows_singleton] at hdone
    exact ⟨_, t, hx, hdone, rfl⟩

end Sys2Proof.Machine
end

section
/-! PROOFS. The parts of slice accesses and of slice control that several commands share (06 R162 to R168, R175, R179). -/

namespace Sys2Proof.Machine

/-! ### Memories -/

/-- A read after a write of bytes, at any address. -/
theorem Mem.read_writeN (m : Mem) (a : Nat) (bs : List Byte) (c : Nat) :
    (Mem.writeN m a bs).read c = if h : a ≤ c ∧ c < a + bs.length then bs[c - a]'(by omega) else m.read c := by
  split
  · next h =>
    obtain ⟨i, rfl⟩ := Nat.exists_eq_add_of_le h.1
    rw [Mem.read_writeN_of_in m a i bs (by omega)]
    simp only [Nat.add_sub_cancel_left]
  · next h => exact Mem.read_writeN_of_out m a c bs (by omega)

/-- A read after a range is zeroed, at any address. -/
theorem Mem.read_zeroRange (m : Mem) (lo hi a : Nat) :
    (Mem.zeroRange m lo hi).read a = if lo ≤ a ∧ a < hi then 0 else m.read a := by
  split
  · next h =>
    have hf := Tab.find_filter m (fun a => decide (a < lo) || decide (hi ≤ a)) a
    rw [if_neg (by simpa using h)] at hf
    rw [Mem.read, Tab.get, Mem.zeroRange, hf]
    rfl
  · next h => exact Mem.read_zeroRange_of_out m (by omega)

/-! ### Changes of one slice -/

/-- A change of a slice is a change of its core. -/
theorem State.modSlice_becomes (s : State) (p : Nat) (f : Slice → Slice) :
    Becomes p { s.core p with slice := f (s.core p).slice } s (s.modSlice p f) :=
  s.modCore_becomes p fun c => { c with slice := f c.slice }

theorem State.modSlice_congr {s : State} {p : Nat} {f g : Slice → Slice} (h : f (s.core p).slice = g (s.core p).slice) :
    s.modSlice p f = s.modSlice p g := State.modCore_congr (by rw [h])

theorem State.modSlice_modSlice (s : State) (p : Nat) (f g : Slice → Slice) :
    (s.modSlice p f).modSlice p g = s.modSlice p fun sl => g (f sl) := State.modCore_modCore _ _ _ _

/-- A signal after a change that leaves the arrival counters alone. -/
theorem Becomes.signalled {p : Nat} {c : Core} {h : InsnHdr} {s t u : State} (b : Becomes p c s t)
    (hc : c.slice.arrival = (s.core p).slice.arrival) (k : Machine.signalled h t u) : Machine.signalled h s u := fun q i => by
  rw [k q i, b.arrival hc]

/-! ### A PF write of a core's control register (R91, R124, R167) -/

/-- An access of the PF to a core whose way is free takes effect. -/
theorem State.hostTo_core {s : State} {p : Nat} (hw : s.hostWaits = false) (hb : s.barOpen 0 = true) (hf : s.runsFree p = true)
    (i : Instr) (f : State → Answer) : s.hostTo i [p] f = f s :=
  State.hostTo_runs i f hw (State.runsFree_of_barOpen hb) (by simpa using hf)

end Sys2Proof.Machine
end

section
/-! PROOFS. Incoming packets and the accesses of port B (06 R162, R163, R175, R178, R179). -/

namespace Sys2Proof.Machine

theorem exec_incomingWritePacket (p : Nat) (k : TakenPkt) (s : State) :
    exec (.incomingWritePacket p k) s = execIncomingWritePacket p k s := rfl
theorem exec_portBDeferStart (p : Nat) (b : PortB) (waited : Nat) (meets : Option PortA) (s : State) :
    exec (.portBDeferStart p b waited meets) s = execPortBDeferStart p b waited meets s := rfl
theorem exec_portBStarve (w : BWait) (s : State) : exec (.portBStarve w) s = execPortBStarve w s := rfl

section
variable {s : State} {p : Nat}

/-! ### A packet at port B (R175, R178, R179) -/

section
variable {k : WritePkt} {collided : Bool}

/-- A packet of whole words that nothing waits before is taken. -/
theorem incomingWritePacket_taken (hc : s.clocked p = true) (hlen : k.data.length ≤ 256) (hwords : k.data.length % 64 = 0)
    (haddr : k.addr % 64 = 0) (hfirst : s.waitsBefore p k = false) :
    exec (.incomingWritePacket p { pkt := k, collided := collided }) s = .next (s.incoming p k collided) := by
  rw [exec_incomingWritePacket, execIncomingWritePacket]
  simp [hc, hlen, hwords, haddr, hfirst]

/-- The raise of a packet, as the signal of an instruction. -/
def raiseHdr (k : WritePkt) (p : Nat) : InsnHdr := { core := p, signal := k.raise, signalCtr := k.ctr }

/-- The contents of the slice with the packet's bytes in them. -/
def State.commits (s : State) (p : Nat) (k : WritePkt) : State := s.modSlice p fun sl => sl.write k.addr k.data

/-- A packet of the resident context that nothing refuses is committed, with its raise. -/
theorem State.incoming_committed (hres : (s.core p).slice.resident = some (k.ctx.toNat, k.gen))
    (href : (s.core p).slice.refusesPacket k = false) (hon : (s.core p).slice.rangeOn k.addr k.data.length = true) :
    s.incoming p k collided = ((s.commits p k).signal (raiseHdr k p)).emit (.write k p false false collided) := by
  have hd : s.deliver p k = (.done, (s.commits p k).signal (raiseHdr k p)) := by
    unfold State.deliver
    dsimp only
    rw [if_neg (not_not_intro hres), href, hon]
    rfl
  rw [State.incoming, hd]
  rfl

/-- What port B notes of a packet that it does not commit leaves the contents of the slice, the arrival counters and the outputs. -/
structure NotesOnly (p : Nat) (s t : State) : Prop where
  mem : (t.core p).slice.mem = (s.core p).slice.mem
  arrival : ∀ q c, t.arrival q c = s.arrival q c
  out : t.out = s.out

theorem State.noteDropped_notes (s : State) (p : Nat) : NotesOnly p s (s.noteDropped p) := by
  unfold State.noteDropped
  dsimp only
  split
  · exact ⟨rfl, fun _ _ => rfl, rfl⟩
  · have hb := ((s.count (sliceReg p 0x120) 1).event 0x1013).modSlice_becomes p fun sl => { sl with dropRaised := true }
    exact ⟨by rw [hb.self]; rfl, hb.arrival rfl, rfl⟩

/-- A packet of another context is dropped, before the secure mark is asked (log entry 65), and one that the mark or a tile refuses is
refused; neither does more than leave a note. -/
theorem State.deliver_undelivered (h : (s.core p).slice.resident ≠ some (k.ctx.toNat, k.gen) ∨
    (s.core p).slice.refusesPacket k = true ∨ (s.core p).slice.rangeOn k.addr k.data.length = false) :
    (s.deliver p k).1 = (if (s.core p).slice.resident ≠ some (k.ctx.toNat, k.gen) then .dropped else .refused) ∧
      NotesOnly p s (s.deliver p k).2 := by
  unfold State.deliver
  by_cases hres : (s.core p).slice.resident = some (k.ctx.toNat, k.gen)
  · dsimp only
    rw [if_neg (not_not_intro hres), if_neg (not_not_intro hres)]
    split
    · exact ⟨rfl, rfl, fun _ _ => rfl, rfl⟩
    · next href =>
      have hoff : (s.core p).slice.rangeOn k.addr k.data.length = false := (h.resolve_left (not_not_intro hres)).resolve_left href
      rw [hoff, Bool.not_false, if_pos rfl]
      exact ⟨rfl, rfl, fun _ _ => rfl, rfl⟩
  · dsimp only
    rw [if_pos hres, if_pos hres]
    exact ⟨rfl, s.noteDropped_notes p⟩

end

/-! ### The accesses of port B (R162, R163) -/

section
variable {b : PortB} {waited : Nat}

/-- The slice with the write of a port B access in it, which no longer waits. -/
def Slice.takesB (sl : Slice) (b : PortB) : Slice :=
  { sl.write (b.word * 64 + b.off) (b.data.take (64 - b.off)) with starved := sl.starved.filter (fun i => decide (i ≠ b.id)) }

/-- A write of port B that waited is counted and served. -/
def State.servesB (s : State) (p : Nat) (b : PortB) (waited : Nat) : State :=
  (s.count (sliceReg p 0x108) waited).modSlice p fun sl => sl.takesB b

/-- A write that the slice serves changes the bytes that it covers (R168, R175). -/
theorem State.portBAccess_write (hw : b.write = true) (hs : (s.core p).slice.servesB b = true) :
    s.portBAccess p b = s.modSlice p fun sl => sl.write (b.word * 64 + b.off) (b.data.take (64 - b.off)) := by
  rw [Slice.servesB, Bool.and_eq_true, Bool.not_eq_true'] at hs
  obtain ⟨hon, hmark⟩ := hs
  simp only [State.portBAccess, hmark, hon, hw]
  rfl

/-- A write that meets a read of port A on its word is recorded and counted, and the read is undefined (R163). -/
theorem State.meetWord_read {a : PortA} (hb : b.write = true) (ha : a.write = false) :
    s.meetWord p b a = (s.modSlice p fun sl => { sl with
      collWord := a.word * 64, collPort := !a.later, collValid := true, undefReads := a.word :: sl.undefReads }).count
        (sliceReg p 0x100) 1 := by
  simp only [State.meetWord, collides, ha, hb, Bool.not_true, Bool.and_false]
  rfl

theorem State.counted_portBAccess (hw : b.write = true) (hs : (s.core p).slice.servesB b = true) :
    ((s.count (sliceReg p 0x108) waited).modSlice p fun sl =>
      { sl with starved := sl.starved.filter (fun i => decide (i ≠ b.id)) }).portBAccess p b = s.servesB p b waited := by
  rw [State.portBAccess_write hw (by rw [State.core_modSlice_self]; exact hs), State.modSlice_modSlice]
  rfl

/-- A write of port B that waited starts and meets no access of port A. -/
theorem portBDeferStart_alone (hc : s.clocked p = true) (hword : b.word < 32768) (hw : b.write = true)
    (hs : (s.core p).slice.servesB b = true) : exec (.portBDeferStart p b waited none) s = .next (s.servesB p b waited) := by
  rw [exec_portBDeferStart, execPortBDeferStart]
  simp only [hc, hword, State.counted_portBAccess hw hs]
  rfl

/-- A write of port B that waited starts and meets an access of port A on its word. -/
theorem portBDeferStart_meets {a : PortA} (hc : s.clocked p = true) (hword : b.word < 32768) (hw : b.write = true)
    (hs : (s.core p).slice.servesB b = true) (ha : a.word = b.word) :
    exec (.portBDeferStart p b waited (some a)) s = .next ((s.servesB p b waited).meetWord p b a) := by
  rw [exec_portBDeferStart, execPortBDeferStart]
  simp only [hc, hword, State.counted_portBAccess hw hs, ha, hs]
  rfl

/-- An access that starves raises its event (R162). -/
theorem portBStarve_raises {id : Nat} (hc : s.clocked p = true) (hfirst : (s.core p).slice.starved.contains id = false) :
    exec (.portBStarve { slice := p, id := id }) s =
      .next ((s.event 0x1014).modSlice p fun sl => { sl with starved := id :: sl.starved }) := by
  rw [exec_portBStarve, execPortBStarve]
  simp only [hc, hfirst]
  rfl

/-- An access that has raised its event goes on waiting. -/
theorem portBStarve_again {id : Nat} (hagain : (s.core p).slice.starved.contains id = true) :
    exec (.portBStarve { slice := p, id := id }) s = .next s := by
  rw [exec_portBStarve, execPortBStarve]
  simp only [hagain, Bool.or_true]
  rfl

end
end

/-! ### The obligation -/

/-- A committed packet writes its bytes and raises its counter. -/
theorem State.commits_spec (s : State) (p : Nat) (k : WritePkt) :
    let t := (s.commits p k).signal (raiseHdr k p)
    (t.core p).slice.mem = Mem.writeN (s.core p).slice.mem k.addr k.data ∧ signalled (raiseHdr k p) s t ∧
      (∀ q, q ≠ p → t.core q = s.core q) ∧ t.out = s.out := by
  have hb := s.modSlice_becomes p fun sl => sl.write k.addr k.data
  refine ⟨?_, hb.signalled rfl (State.signal_arrival _ _), fun q hq => ?_, by rw [State.signal_out]; rfl⟩
  · rw [State.signal_core]
    exact congrArg (fun c : Core => c.slice.mem) hb.self
  · rw [State.signal_other _ _ _ hq]
    exact hb.other hq

/-- Settles O21: a packet is committed or leaves a note (dropped before refused, log entry 65), and a write of port B that waited is
served, alone or with a collision. -/
theorem sliceAccesses : Obligations.SliceAccesses := by
  unfold Obligations.SliceAccesses
  refine ⟨fun s p k collided sl hsl hc hlen hwords haddr hfirst => ?_, fun s p waited b sl hsl hc hword => ?_⟩
  · subst hsl
    have hx := incomingWritePacket_taken (collided := collided) hc hlen hwords haddr hfirst
    refine ⟨fun hres href hon => ?_, fun h => ?_⟩
    · rw [State.incoming_committed hres href hon] at hx
      obtain ⟨hmem, hsig, hother, hout⟩ := s.commits_spec p k
      refine ⟨_, hx, fun a => ?_, hsig, hother, congrArg (· ++ _) hout⟩
      rw [State.core_emit, hmem, Mem.read_writeN]
    · obtain ⟨hend, hnotes⟩ := s.deliver_undelivered h
      refine ⟨_, hx, hnotes.mem, hnotes.arrival, ?_⟩
      rw [State.incoming, State.emit, hnotes.out, hend]
      by_cases hres : (s.core p).slice.resident = some (k.ctx.toNat, k.gen) <;> simp [hres]
  · subst hsl
    have hserved := (s.count (sliceReg p 0x108) waited).modSlice_becomes p fun sl => sl.takesB b
    have hcounted : countersMoved [(sliceReg p 0x108, waited)] s (s.servesB p b waited) := countersMoved_count _ _ _
    refine ⟨fun hw hs => ?_, fun a hw hs ha hread => ?_, fun id hfirst => ?_, fun id => portBStarve_again⟩
    · exact ⟨_, portBDeferStart_alone hc hword hw hs, congrArg Core.slice hserved.self, fun q => hserved.other, hcounted, rfl⟩
    · have hx := portBDeferStart_meets (waited := waited) hc hword hw hs ha
      rw [State.meetWord_read hw hread, ha] at hx
      refine ⟨_, hx, ?_, s.countersMoved_counts [(sliceReg p 0x108, waited), (sliceReg p 0x100, 1)]⟩
      rw [State.core_count, State.core_modSlice_self]
      exact congrArg (fun c : Core => { c.slice with
        collWord := b.word * 64, collPort := !a.later, collValid := true, undefReads := b.word :: c.slice.undefReads }) hserved.self
    · exact ⟨_, portBStarve_raises hc hfirst, congrArg Core.slice ((s.event 0x1014).modSlice_becomes p _).self, rfl⟩

end Sys2Proof.Machine
end

section
/-! PROOFS. Tile power, the background row test and the control registers of a core (03 R91; 04 R124; 06 R165 to R172). -/

namespace Sys2Proof.Machine

theorem exec_spmTileMaskWrite (p : Nat) (ret : Bool) (v : W32) (s : State) :
    exec (.spmTileMaskWrite p ret v) s = execSpmTileMaskWrite p ret v s := rfl
theorem exec_tileStateReached (p tile : Nat) (s : State) : exec (.tileStateReached p tile) s = execTileStateReached p tile s := rfl
theorem exec_rowTest (p : Nat) (r : RowResult) (s : State) : exec (.rowTest p r) s = execRowTest p r s := rfl
theorem exec_rowTestIntervalExpiry (p : Nat) (s : State) : exec (.rowTestIntervalExpiry p) s = execRowTestIntervalExpiry p s := rfl
theorem exec_seqCtrlWrite (p : Nat) (v : W32) (s : State) : exec (.seqCtrlWrite p v) s = execSeqCtrlWrite p v s := rfl
theorem exec_mxCtrlWrite (p : Nat) (v : W32) (s : State) : exec (.mxCtrlWrite p v) s = execMxCtrlWrite p v s := rfl

/-! ### A tile on its way (R166) -/

section
variable {sl : Slice} {t src dst : Nat} (h : sl.tile t = .toward src dst)
include h

theorem Slice.reach_of_toward :
    sl.reach t = { (if src = 0 ∨ dst = 0 then sl.zeroTile t else sl) with
      tiles := Tab.set (if src = 0 ∨ dst = 0 then sl.zeroTile t else sl).tiles t (tileStateOf dst) } := by
  rw [Slice.reach, h]

/-- The tile is in the state that it was on its way to. -/
theorem Slice.tile_reach_self : (sl.reach t).tile t = tileStateOf dst := by
  rw [Slice.reach_of_toward h]
  exact Tab.get_set_self _ _ _ _

theorem Slice.mem_reach :
    (sl.reach t).mem = if src = 0 ∨ dst = 0 then Mem.zeroRange sl.mem (t * 65536) (t * 65536 + 65536) else sl.mem := by
  rw [Slice.reach_of_toward h]
  split <;> rfl

/-- A tile that leaves or enters off holds +0, and nothing else changes its contents. -/
theorem Slice.read_reach (a : Nat) :
    (sl.reach t).mem.read a = if (src = 0 ∨ dst = 0) ∧ a / 65536 = t then 0 else sl.mem.read a := by
  rw [Slice.mem_reach h]
  by_cases hoff : src = 0 ∨ dst = 0
  · rw [if_pos hoff, Mem.read_zeroRange]
    exact if_congr (by omega) rfl rfl
  · rw [if_neg hoff, if_neg fun k => hoff k.1]

end

section
variable {s : State} {p : Nat}

/-- The tile reaches its state, and the next transitions start where the tiles follow their masks. -/
theorem tileStateReached_reaches {tile src dst : Nat} (ht : tile < 32) (hc : s.clocked p = true)
    (h : (s.core p).slice.tile tile = .toward src dst) :
    exec (.tileStateReached p tile) s =
      .next (s.modSlice p fun sl => if s.tilesFollow p then (sl.reach tile).retarget else sl.reach tile) := by
  rw [exec_tileStateReached, execTileStateReached, if_pos (by simp [hc, ht]), h]
  exact congrArg Host.Outcome.next (State.modSlice_congr rfl)

/-! ### The masks (R154, R167, R169) -/

/-- The slice with a mask written. -/
def Slice.setMask (sl : Slice) (ret : Bool) (v : W32) : Slice := if ret then { sl with tileRet := v } else { sl with tileOn := v }

/-- A mask of an idle or frozen core is taken; transitions start where the tiles follow it (log entry 66). -/
theorem spmTileMaskWrite_takes (hp : p < 160) (hw : s.hostWaits = false) (hb : s.barOpen 0 = true) (hf : s.runsFree p = true)
    (hs : (s.core p).settled = true) (ret : Bool) (v : W32) :
    exec (.spmTileMaskWrite p ret v) s =
      .next (s.modSlice p fun sl => if s.tilesFollow p then (sl.setMask ret v).retarget else sl.setMask ret v) := by
  rw [exec_spmTileMaskWrite, execSpmTileMaskWrite, State.hostTo_core hw hb hf, if_neg (by simp [hp, hb]), if_pos hs]
  rfl

/-! ### The row test (R165, R170 to R172) -/

/-- A tile that is on is not skipped. -/
theorem Slice.skipTiles_of_on {sl : Slice} (h : sl.tileIsOn sl.testTile = true) (n : Nat) : sl.skipTiles n = sl := by
  cases n with
  | zero => rfl
  | succ n => exact if_pos h

/-- The test moves on from a row, after an error corrected in each of `cols` words. -/
def State.rowTested (s : State) (p : Nat) (cols : List Nat) : State :=
  let s1 := (s.modSlice p fun sl => { sl.advanceTest with testDue := false }).count (sliceReg p 0x130) 1
  if cols.isEmpty then s1 else s1.count (sliceReg p 0x110) cols.length

/-- A failing word of a bank that has a spare left takes one, with its event (R172). -/
theorem State.failWord_spare {tile row col : Nat} (h : Tab.get 0 (s.core p).slice.sparesUsed ((row + col) % 32) < 4) :
    s.failWord p tile row col = (s.modSlice p fun sl => { sl with
      sparesUsed := Tab.set sl.sparesUsed ((row + col) % 32) (Tab.get 0 sl.sparesUsed ((row + col) % 32) + 1) }).event 0x1011 := by
  rw [State.failWord, if_pos h]
  exact congrArg (fun u : State => u.event 0x1011) (State.modSlice_congr rfl)

section
variable (hc : s.clocked p = true) (hpower : s.corePower p ≠ 3) (hon : (s.core p).slice.testOn = true)
  (hsusp : (s.core p).slice.testSuspended = false) (hheld : s.testHeld p = false)
include hc hpower hon hsusp hheld

/-- The row whose turn it is, in a tile that is on and without a correctable error, is tested. -/
theorem rowTest_tests (hdue : (s.core p).slice.testDue = true) (hrow : (s.core p).slice.failedRow = none)
    (htile : (s.core p).slice.tileIsOn (s.core p).slice.testTile = true) (hweak : (s.core p).slice.weak = []) (r : RowResult) :
    exec (.rowTest p r) s = .next ((r.failed.filter (fun c => decide (c < 32))).foldl
      (fun u c => u.failWord p (s.core p).slice.testTile (s.core p).slice.testRow c)
      (s.rowTested p (r.corrected.filter (fun c => decide (c < 32))).dedup)) := by
  have hstrong : s.modSlice p (fun _ => { (s.core p).slice.advanceTest with testDue := false, weak := [] }) =
      s.modSlice p fun sl => { sl.advanceTest with testDue := false } :=
    State.modSlice_congr (by rw [← hweak]; rfl)
  rw [exec_rowTest, execRowTest, Slice.skipTiles_of_on htile]
  dsimp only
  rw [if_neg (by simp [hc, hpower, hon, hsusp, hheld, hdue, hrow, htile]), hweak]
  unfold State.rowTested
  rw [← hstrong]
  rfl

/-- After the interval the next row is due (R171). -/
theorem rowTestIntervalExpiry_due :
    exec (.rowTestIntervalExpiry p) s = .next (s.modSlice p fun sl => { sl with testDue := true }) := by
  rw [exec_rowTestIntervalExpiry, execRowTestIntervalExpiry, if_pos (by simp [hc, hpower, hon, hsusp, hheld])]

end

/-- A tested row leaves the contents, and moves the test to the next row. -/
theorem State.slice_rowTested (s : State) (p : Nat) (cols : List Nat) :
    ((s.rowTested p cols).core p).slice = { (s.core p).slice.advanceTest with testDue := false } := by
  have hself := (s.modSlice_becomes p fun sl => { sl.advanceTest with testDue := false }).self
  unfold State.rowTested
  dsimp only
  split
  all_goals exact congrArg Core.slice hself

theorem State.mem_rowTested (s : State) (p : Nat) (cols : List Nat) :
    ((s.rowTested p cols).core p).slice.mem = (s.core p).slice.mem := by
  rw [State.slice_rowTested]
  rfl

/-! ### SEQ_CTRL and MX_CTRL (R91, R124) -/

section
variable (hp : p < 160) (hw : s.hostWaits = false) (hb : s.barOpen 0 = true) (hf : s.runsFree p = true)
include hp hw hb hf

theorem seqCtrlWrite_eq (v : W32) :
    exec (.seqCtrlWrite p v) s = if (s.core p).settled then
        .next (s.modSeq p fun q => { q with pvaCompat := bitAt v.toNat 0 }) else .next (s.event 0x0810) := by
  rw [exec_seqCtrlWrite, execSeqCtrlWrite, State.hostTo_core hw hb hf, if_neg (by simp [hp, hb])]

theorem mxCtrlWrite_eq (v : W32) :
    exec (.mxCtrlWrite p v) s = if (s.core p).settled then
        .next (s.modCore p fun c => { c with mx := { c.mx with freezeMode := bitAt v.toNat 0 } }) else .next (s.event 0x0830) := by
  rw [exec_mxCtrlWrite, execMxCtrlWrite, State.hostTo_core hw hb hf, if_neg (by simp [hp, hb])]

end
end

/-! ### The obligation -/

/-- Settles O22: masks and tiles by whether the tiles follow their masks (log entry 66), the row test by what it finds in a row, and the
control registers by whether the core is at work. -/
theorem coreAndSliceControl : Obligations.CoreAndSliceControl := by
  unfold Obligations.CoreAndSliceControl
  refine ⟨⟨fun s p sl hsl hp => ⟨fun v hw hb hf hs => ?masks, fun tile src dst ht hc hstays h => ?reaches,
      fun tile src dst ht hc hfollow h => ?follows⟩,
    fun s p sl hsl hc hpower hon hsusp hheld => ⟨fun hdue hrow htile hweak => ?tests, ?interval⟩⟩,
    fun s p v hp hw hb hf => ⟨fun hs => ?settled, fun hs => ?busy⟩⟩
  case masks =>
    have hx := spmTileMaskWrite_takes hp hw hb hf hs
    refine ⟨fun hfollow => ?_, fun hstays => ?_⟩
    · simp only [hfollow] at hx
      exact ⟨hx false v, hx true v⟩
    · simp only [hstays] at hx
      exact ⟨hx false v, hx true v⟩
  case reaches =>
    subst hsl
    have hx := tileStateReached_reaches ht hc h
    simp only [hstays] at hx
    obtain ⟨hself, hother, hrest⟩ := (s.modSlice_becomes p fun sl => sl.reach tile).frame
    refine ⟨_, hx, ?_, fun k hk => ?_, fun a => ?_, hother, hrest⟩
    · exact (congrArg (fun c : Core => c.slice.tile tile) hself).trans (Slice.tile_reach_self h)
    · exact (congrArg (fun c : Core => c.slice.tile k) hself).trans (Slice.tile_reach_of_ne _ hk)
    · exact (congrArg (fun c : Core => c.slice.mem.read a) hself).trans (Slice.read_reach h a)
  case follows =>
    subst hsl
    have hx := tileStateReached_reaches ht hc h
    simp only [hfollow] at hx
    exact hx
  case tests =>
    subst hsl
    have hx := rowTest_tests hc hpower hon hsusp hheld hdue hrow htile hweak
    refine ⟨⟨_, hx {}, s.slice_rowTested p [], s.mem_rowTested p [], countersMoved_count _ _ _, rfl⟩,
      fun col hcol => ⟨?_, fun hspare => ?_⟩⟩
    · have hcorrected : exec (.rowTest p { corrected := [col] }) s = .next (s.rowTested p [col]) :=
        (hx { corrected := [col] }).trans (by simp [hcol])
      exact ⟨_, hcorrected, s.slice_rowTested p [col],
        s.countersMoved_counts [(sliceReg p 0x130, 1), (sliceReg p 0x110, 1)]⟩
    · have hused : ((s.rowTested p []).core p).slice.sparesUsed = (s.core p).slice.sparesUsed := by
        rw [State.slice_rowTested]
        rfl
      have hfailed : exec (.rowTest p { failed := [col] }) s =
          .next ((s.rowTested p []).failWord p (s.core p).slice.testTile (s.core p).slice.testRow col) :=
        (hx { failed := [col] }).trans (by simp [hcol])
      rw [State.failWord_spare (by rw [hused]; exact hspare)] at hfailed
      refine ⟨_, hfailed, ?_, ?_, rfl⟩
      · rw [State.core_event, State.core_modSlice_self, hused]
        exact Tab.get_set_self _ _ _ _
      · rw [State.core_event, State.core_modSlice_self]
        exact s.mem_rowTested p []
  case interval =>
    subst hsl
    exact rowTestIntervalExpiry_due hc hpower hon hsusp hheld
  case settled =>
    rw [seqCtrlWrite_eq hp hw hb hf, mxCtrlWrite_eq hp hw hb hf, if_pos hs, if_pos hs]
    exact ⟨rfl, rfl⟩
  case busy =>
    rw [seqCtrlWrite_eq hp hw hb hf, mxCtrlWrite_eq hp hw hb hf, hs]
    exact ⟨rfl, rfl⟩

end Sys2Proof.Machine
end

section
/-! PROOFS. The block right after reset (06 R181; 11 R293; 14 R381; 15 R412; 16 R438). -/

namespace Sys2Proof.Machine

/-- A register of a slice's window shows its slice. -/
theorem State.regView_sliceReg (s : State) {p o : Nat} (hp : p < 160) (ho : o < 0x4000) :
    s.regView (sliceReg p o) = (s.core p).slice.view o := by
  have hblock : sliceReg p o / 0x400000 = 2 := by unfold sliceReg; omega
  have hcore : sliceReg p o % 0x400000 / 0x4000 = p := by unfold sliceReg; omega
  have hoff : sliceReg p o % 0x400000 % 0x4000 = o := by unfold sliceReg; omega
  rw [State.regView, hblock]
  show (s.core (sliceReg p o % 0x400000 / 0x4000)).slice.view (sliceReg p o % 0x400000 % 0x4000) = _
  rw [hcore, hoff]

/-- The tiles of a slice after reset: off in a spare, on and full in every other core (R154, R181). -/
theorem coreAtReset_view (spares : List Nat) (p : Nat) :
    (coreAtReset spares p).slice.view 0 = (if p ∈ spares then 0 else 0xFFFFFFFF) ∧
    (coreAtReset spares p).slice.view 8 = (if p ∈ spares then 0 else 0xAAAAAAAAAAAAAAAA) ∧
    (coreAtReset spares p).slice.view 0x20 = 0 := by
  unfold coreAtReset
  split <;> decide

/-- Settles O59: every register by what it shows of the reset state, and every slice by `coreAtReset`. -/
theorem resetState : Obligations.ResetState := by
  unfold Obligations.ResetState
  refine ⟨State.memWf_reset, rfl, fun p hp => ?_, ?_⟩
  · obtain ⟨hon, hstates, htest⟩ := coreAtReset_view State.reset.pins.spares p
    refine ⟨?_, ?_, ?_, fun a => ?_⟩
    · exact (State.regView_sliceReg _ hp (by decide)).trans hon
    · exact (State.regView_sliceReg _ hp (by decide)).trans hstates
    · exact (State.regView_sliceReg _ hp (by decide)).trans htest
    · exact congrArg (fun m : Mem => m.read a) (coreAtReset_mem _ p)
  · exact ⟨by decide, by decide, by decide, by decide, by decide, by decide, by decide, by decide, by decide, by decide, by decide,
      by decide, by decide, fun _ => rfl⟩

end Sys2Proof.Machine
end

section
/-! PROOFS. Accesses of HBM and the counters of the cores and slices (09 R228 to R230; 20 R519). -/

namespace Sys2Proof.Machine

/-- From s to t no counter of a core or a slice moved: their registers lie below those of the HBM controllers (R519). -/
def SameCoreCounters (s t : State) : Prop := ∀ j < 0x1000000, t.counter j = s.counter j

section
variable {s t u : State}

theorem SameCoreCounters.refl (s : State) : SameCoreCounters s s := fun _ _ => rfl

theorem SameCoreCounters.trans (h : SameCoreCounters s t) (k : SameCoreCounters t u) : SameCoreCounters s u :=
  fun j hj => (k j hj).trans (h j hj)

theorem SameCoreCounters.of_counters (h : t.counters = s.counters) : SameCoreCounters s t := fun j _ =>
  congrArg (fun c => Tab.get 0 c j) h

/-- A change that moves no counter at all. -/
theorem SameCoreCounters.same (h : SameCoreCounters s t) (hu : u.counters = t.counters) : SameCoreCounters s u :=
  h.trans (.of_counters hu)

/-- A counter above those of the cores and slices is raised. -/
theorem SameCoreCounters.count (h : SameCoreCounters s t) {off : Nat} (ho : 0x1000000 ≤ off) (n : Nat) :
    SameCoreCounters s (t.count off n) := fun j hj => by
  rw [State.counter_count, if_neg (by omega), h j hj]

theorem SameCoreCounters.event (h : SameCoreCounters s t) (code : Nat) : SameCoreCounters s (t.event code) := h.same rfl

theorem SameCoreCounters.hbm (h : SameCoreCounters s t) (m : Hbm) : SameCoreCounters s { t with hbm := m } := h.same rfl

theorem SameCoreCounters.hbmCount (h : SameCoreCounters s t) (c off n : Nat) : SameCoreCounters s (t.count (hbmReg c off) n) :=
  h.count (by unfold hbmReg; omega) n

theorem SameCoreCounters.mscCount (h : SameCoreCounters s t) (c off n : Nat) : SameCoreCounters s (t.count (mscReg c off) n) :=
  h.count (by unfold mscReg; omega) n

theorem SameCoreCounters.relCount (h : SameCoreCounters s t) (off n : Nat) : SameCoreCounters s (t.count (relReg off) n) :=
  h.count (by unfold relReg; omega) n

end

/-- The registers of a core that is clocked are those of one of the 160 cores. -/
theorem coreReg_lt_of_clocked {s : State} {p off : Nat} (hc : s.clocked p = true) (ho : off < 0x4000) : coreReg p off < 0x1000000 := by
  simp only [State.clocked, Bool.and_eq_true, decide_eq_true_eq] at hc
  obtain ⟨⟨⟨hp, -⟩, -⟩, -⟩ := hc
  unfold coreReg
  omega

/-! ### The cache (R228 to R230) -/

theorem State.mscDrop_coreCounters (s : State) (line : Nat) (back : Bool) : SameCoreCounters s (s.mscDrop line back) := by
  have herase : SameCoreCounters s { s with msc := { s.msc with lines := Tab.erase s.msc.lines line } } := .of_counters rfl
  unfold State.mscDrop
  split
  · exact .refl s
  · dsimp only
    split
    · exact (herase.mscCount _ _ _).hbmCount _ _ _
    · exact herase

theorem State.mscRoom_coreCounters (s : State) (line ways : Nat) : SameCoreCounters s (s.mscRoom line ways).2 := by
  unfold State.mscRoom
  dsimp only
  split
  · exact .refl s
  · split
    · exact s.mscDrop_coreCounters _ _
    · exact .refl s

theorem State.mscPut_coreCounters (s : State) (line sec : Nat) (l : MscLine) (write : Bool) :
    SameCoreCounters s (s.mscPut line sec l write) := .of_counters rfl

theorem State.dramTouch_coreCounters (s : State) (h : Nat) (write full : Bool) : SameCoreCounters s (s.dramTouch h write full) := by
  have hread : SameCoreCounters s (if (!write || !full) = true then s.count (hbmReg h 0x100) 64 else s) := by
    split
    · exact (SameCoreCounters.refl s).hbmCount _ _ _
    · exact .refl s
  unfold State.dramTouch
  dsimp only
  cases write
  · exact hread
  · exact hread.hbmCount _ _ _

theorem State.fillTouch_coreCounters (s : State) (h : Nat) (write full : Bool) : SameCoreCounters s (s.fillTouch h write full) := by
  unfold State.fillTouch
  split
  · exact .refl s
  · exact (SameCoreCounters.refl s).hbmCount _ _ _

theorem State.mscMiss_coreCounters (s : State) (off : Nat) (r : HReq) (write full : Bool) :
    SameCoreCounters s (s.mscMiss off r write full) := by
  have hcount := (SameCoreCounters.refl s).mscCount (stackOf off) 0x108 1
  unfold State.mscMiss
  dsimp only
  split
  · exact hcount.trans (State.dramTouch_coreCounters _ _ _ _)
  · exact ((hcount.trans (State.mscRoom_coreCounters _ _ _)).trans (State.fillTouch_coreCounters _ _ _ _)).trans
      (State.mscPut_coreCounters _ _ _ _ _)

/-- A request at the cache counts at the cache slice and at its controller. -/
theorem State.mscAccess_coreCounters (s : State) (off : Nat) (r : HReq) (write full : Bool) :
    SameCoreCounters s (s.mscAccess off r write full) := by
  have hcount (reg : Nat) := (SameCoreCounters.refl s).mscCount (stackOf off) reg 1
  unfold State.mscAccess
  dsimp only
  split
  case h_1 l _ =>
    by_cases hkey : l.slot = r.slot ∧ l.gen = r.gen
    · rw [if_pos hkey]
      by_cases hvalid : l.valid.getD (off / 64 % 2) false = true
      · rw [if_pos hvalid]
        exact (hcount _).trans (State.mscPut_coreCounters _ _ _ _ _)
      · rw [if_neg hvalid]
        by_cases hways : r.ways = 0
        · rw [if_pos hways]
          exact (hcount _).trans (State.dramTouch_coreCounters _ _ _ _)
        · rw [if_neg hways]
          exact ((hcount _).trans (State.fillTouch_coreCounters _ _ _ _)).trans (State.mscPut_coreCounters _ _ _ _ _)
    · rw [if_neg hkey]
      exact ((hcount _).trans (State.mscDrop_coreCounters _ _ _)).trans (State.mscMiss_coreCounters _ _ _ _ _)
  case h_2 => exact s.mscMiss_coreCounters _ _ _ _

/-! ### Poison and its repair (R233, R428, R429) -/

theorem State.unpoison_coreCounters (s : State) (f : Nat) : SameCoreCounters s (s.unpoison f) := .of_counters rfl

theorem State.markRepaired_coreCounters (s : State) (f : Nat) : SameCoreCounters s (s.markRepaired f) := .of_counters rfl

theorem State.remapFrame_coreCounters (s : State) (f : Nat) : SameCoreCounters s (s.remapFrame f) :=
  (((SameCoreCounters.of_counters rfl).hbmCount _ _ _).hbmCount _ _ _).same rfl

theorem State.zeroFrame_coreCounters (s : State) (f material : Nat) : SameCoreCounters s (s.zeroFrame f material) :=
  ((SameCoreCounters.of_counters rfl).hbmCount _ _ _).same rfl

theorem State.poisonOnly_coreCounters (s : State) (f : Nat) (demand : Bool) : SameCoreCounters s (s.poisonOnly f demand) :=
  ((SameCoreCounters.of_counters rfl).hbmCount _ _ _).same rfl

theorem State.repairFrame_coreCounters (s : State) (f : Nat) : SameCoreCounters s (s.repairFrame f) := by
  unfold State.repairFrame
  have hok : SameCoreCounters s (s.drawBytes 1).2 := .of_counters rfl
  generalize s.drawBytes 1 = ok at hok ⊢
  split
  · exact .refl s
  · next e _ =>
    dsimp only
    split
    · exact hok
    · have hdata : SameCoreCounters s (ok.2.drawBytes 65536).2 := hok.same rfl
      generalize ok.2.drawBytes 65536 = data at hdata ⊢
      have hzero := hdata.trans (data.2.zeroFrame_coreCounters f (s.slot e.slot).material)
      generalize data.2.zeroFrame f (s.slot e.slot).material = z at hzero ⊢
      refine SameCoreCounters.event ?_ _
      refine SameCoreCounters.relCount ?_ _ _
      refine .trans ?_ (State.markRepaired_coreCounters _ _)
      refine .trans ?_ (State.unpoison_coreCounters _ _)
      refine .trans ?_ (State.remapFrame_coreCounters _ _)
      exact hzero.hbm _

theorem State.poisonFrame_coreCounters (s : State) (f : Nat) (demand : Bool) : SameCoreCounters s (s.poisonFrame f demand) :=
  (s.poisonOnly_coreCounters f demand).trans (State.repairFrame_coreCounters _ f)

/-! ### Words and ranges -/

theorem State.hbmReadWord_coreCounters (s : State) (w : Nat) (r : HReq) : SameCoreCounters s (s.hbmReadWord w r).2 := by
  unfold State.hbmReadWord
  dsimp only
  split_ifs
  · exact .refl s
  · exact s.poisonFrame_coreCounters _ _
  · exact (s.poisonFrame_coreCounters _ _).trans (State.mscAccess_coreCounters _ _ _ _ _)
  · exact s.mscAccess_coreCounters _ _ _ _

theorem State.hbmReadWords_coreCounters (s : State) (ws : List Nat) (r : HReq) : SameCoreCounters s (s.hbmReadWords ws r).2 := by
  induction ws generalizing s with
  | nil => exact .refl s
  | cons w rest ih =>
    have hword := s.hbmReadWord_coreCounters w r
    unfold State.hbmReadWords
    dsimp only
    split
    · exact hword
    · split <;> exact hword.trans (ih _)

/-- A read of a range of HBM moves no counter of a core or a slice. -/
theorem State.hbmRead_coreCounters (s : State) (off n : Nat) (r : HReq) : SameCoreCounters s (s.hbmRead off n r).2 := by
  unfold State.hbmRead
  dsimp only
  split <;> exact s.hbmReadWords_coreCounters _ r

end Sys2Proof.Machine
end

section
/-! PROOFS. A stream load completes (07 R193, R195; 09 R231, R242). -/

namespace Sys2Proof.Machine

theorem exec_streamTxnComplete (p slot i : Nat) (r : TxnRead) (s : State) :
    exec (.streamTxnComplete p slot i r) s = execStreamTxnComplete p slot i r s := rfl

section
variable {s : State} {p slot i : Nat} {d : StrSlot} {x : IssuedTxn}

/-! ### Transactions that are done (R195, R204) -/

/-- A descriptor whose transaction i is no longer in flight but done. -/
def StrSlot.completes (d : StrSlot) (i : Nat) : StrSlot :=
  { d with
    done := i :: d.done, past := d.past ++ d.issued.filter (fun x => decide (x.index = i)),
    issued := d.issued.filter (fun x => decide (x.index ≠ i)) }

/-- A done transaction changes its descriptor and no other part of a core. -/
theorem State.core_txnDone (s : State) (p slot i nIn nOut q : Nat) :
    (s.txnDone p slot i nIn nOut).core q = (s.modStr p slot fun d => d.completes i).core q := State.core_progress _ p q

theorem State.hbm_txnDone (s : State) (p slot i nIn nOut : Nat) : (s.txnDone p slot i nIn nOut).hbm = s.hbm := State.progress_hbm _ p

theorem State.counter_txnDone (s : State) (p slot i nIn nOut j : Nat) : (s.txnDone p slot i nIn nOut).counter j =
    (((s.count (coreReg p 0x2108) 1).count (coreReg p 0x2110) nIn).count (coreReg p 0x2118) nOut).counter j := by
  rw [State.counter, State.txnDone, State.counters_progress]
  rfl

/-- A transaction and the bytes that it moved in are counted (R204). -/
theorem State.counters_txnDone_in (s : State) (p slot i nIn : Nat) :
    (s.txnDone p slot i nIn 0).counter (coreReg p 0x2108) = s.counter (coreReg p 0x2108) + 1 ∧
    (s.txnDone p slot i nIn 0).counter (coreReg p 0x2110) = s.counter (coreReg p 0x2110) + BitVec.ofNat 64 nIn := by
  simp [State.counter_txnDone, State.counter_count, coreReg]

/-! ### A load from this module's HBM (R193, R231, R242) -/

/-- Data for tiles that are on go into the slice, but for the words of a later transaction (R168, R187). -/
theorem State.txnLoad_of_on {t : Txn} (hon : (s.core p).slice.rangeOn t.loc (64 * t.n) = true) (data : List Byte) :
    s.txnLoad p i d t data =
      (s.modSlice p fun sl => sl.writeAll
        ((keptWords t (d.overwritten (s.core p).slice i t) data).map fun w => (t.loc + 64 * w.1, w.2))).txnDone p d.slot i (64 * t.n) 0 := by
  rw [State.txnLoad, hon]
  rfl

/-- What a transaction in flight asks of HBM: the key that it captured, and the ways of its core or none (R229, R441). -/
def StrSlot.request (d : StrSlot) (c : Core) (x : IssuedTxn) : HReq :=
  { slot := pteSlot x.leaf, gen := x.gen, material := x.material, ways := if d.noAlloc then 0 else c.wayMask.toNat }

/-- A load whose captured leaf names this module's HBM takes the data that its captured key reads there. -/
theorem State.runTxn_load {off : Nat} {bs : List Byte} (hk : d.kind ≠ 5) (hstore : d.store = false)
    (hown : s.ownHbm (leafAddr x.leaf x.large x.txn.far) = some off) (hmat : x.material ≠ 0)
    (hread : (s.hbmRead off (64 * x.txn.n) (d.request (s.core p) x)).1 = .data bs) :
    s.runTxn p d x = ((s.hbmRead off (64 * x.txn.n) (d.request (s.core p) x)).2.charge (s.core p).ctx 32 (64 * x.txn.n)).txnLoad
      p x.index d x.txn bs := by
  rw [State.runTxn, if_neg hk, State.txnFar, hstore, if_neg Bool.false_ne_true, State.txnHbm, hown]
  dsimp only
  rw [if_neg hmat, hstore, if_neg Bool.false_ne_true, ← StrSlot.request, hread]

/-- A transaction that has not moved its words before a halt leaves nothing hidden (08 R219). -/
theorem State.hideAgain_of_first (h : ∀ d, (s.core p).strSlot slot = some d → x.index ∉ d.redo) : s.hideAgain p slot x = s := by
  unfold State.hideAgain
  split
  · rfl
  · next d hd => exact if_pos (by simp [h d hd])

/-- A transaction in flight, of a unit that is not halted and that no packet waits for, runs to its end (R193). -/
theorem streamTxnComplete_runs (hc : s.clocked p = true) (hhalt : (s.core p).str.halted = false) (hd : (s.core p).strSlot slot = some d)
    (hx : d.issued.find? (fun x => decide (x.index = i)) = some x) (hk : d.kind ≠ 5) (hreach : s.txnReached p d x = true) :
    exec (.streamTxnComplete p slot i {}) s = .next (((s.modSlice p fun sl => sl.found []).runTxn p d x).hideAgain p slot x) := by
  have hsends : (s.core p).sendsNext d i = true := by simp [Core.sendsNext, hk]
  have hreader : s.txnReader p d = p := if_neg fun h => hk h.1
  rw [exec_streamTxnComplete, execStreamTxnComplete]
  dsimp only
  rw [hc, hhalt, hd]
  dsimp only
  rw [hx]
  dsimp only
  rw [hreach, hsends, hreader]
  rfl

/-- A load that wrote its words and is done: its slice, its descriptor, and no other part of its core. -/
theorem State.core_load (hd : (s.core p).strSlot slot = some d) (f : Slice → Slice) (nIn : Nat) {u : State}
    (hu : u = (s.modSlice p f).txnDone p slot i nIn 0) :
    (u.core p).slice = f (s.core p).slice ∧ (u.core p).strSlot slot = some (d.completes i) ∧
      (u.core p).seq = (s.core p).seq ∧ (u.core p).mx = (s.core p).mx ∧ (u.core p).vx = (s.core p).vx := by
  have hslots := (s.modSlice p f).strSlot_modStr p slot (f := fun d => d.completes i) fun _ => rfl
  have hfind : ((s.modSlice p f).core p).strSlot slot = some d := by rwa [State.core_modSlice_self]
  rw [hfind] at hslots
  have hcore : u.core p = ((s.modSlice p f).modStr p slot fun d => d.completes i).core p := hu ▸ State.core_txnDone ..
  rw [hcore]
  refine ⟨?_, hslots, ?_, ?_, ?_⟩ <;> simp [State.modStr]

end

/-- Settles O19: the read of HBM leaves the cores and their counters alone, and the load then writes its words and is done. -/
theorem streamLoadMovesData : Obligations.StreamLoadMovesData := by
  unfold Obligations.StreamLoadMovesData
  intro s p slot i off d x bs c s1 hcore hc hhalt hd hx hk hstore hreach hown hmat hredo hs1 hread hon
  subst hcore
  have hindex : x.index = i := by simpa using List.find?_some hx
  have hslot : d.slot = slot := by simpa using List.find?_some hd
  have hsame : SameCores s s1 := hs1 ▸ State.modSlice_same rfl
  have hbus : s1.ownHbm (leafAddr x.leaf x.large x.txn.far) = some off := by rw [hsame.eq]; exact hown
  have hrun := State.runTxn_load hk hstore hbus hmat (by rw [hsame.core]; exact hread)
  rw [hsame.core, hindex] at hrun
  generalize hv : (s1.hbmRead off (64 * x.txn.n) (d.request (s.core p) x)).2.charge (s.core p).ctx 32 (64 * x.txn.n) = v at hrun
  have honly := s1.hbmRead_only off (64 * x.txn.n) (d.request (s.core p) x)
  have hcore (q : Nat) : v.core q = s.core q := by
    rw [← hv, State.core_charge, State.core, honly.cores, honly.pins]
    exact hsame.core q
  have hcounter {j : Nat} (hj : j < 0x1000000) : v.counter j = s.counter j := by
    rw [← hv]
    exact (s1.hbmRead_coreCounters _ _ _ j hj).trans (hsame.counter j)
  rw [State.txnLoad_of_on (by rw [hcore]; exact hon), hslot, hcore] at hrun
  generalize ht : (v.modSlice p _).txnDone p slot i (64 * x.txn.n) 0 = t at hrun
  obtain ⟨hslice, hfound, hseq, hmx, hvx⟩ := State.core_load (by rw [hcore]; exact hd) _ _ ht.symm
  rw [hcore] at hslice hseq hmx hvx
  have hshown : t.hideAgain p slot x = t := State.hideAgain_of_first fun e he => by
    rw [hfound] at he
    cases he
    rwa [hindex]
  obtain ⟨htxns, hbytes⟩ := State.counters_txnDone_in (v.modSlice p _) p slot i (64 * x.txn.n)
  rw [ht] at htxns hbytes
  refine ⟨t, ?_, hslice, hfound, ?_, ?_, hseq, hmx, hvx⟩
  · rw [streamTxnComplete_runs hc hhalt hd hx hk hreach, ← hs1, hrun, hshown]
  · exact htxns.trans (congrArg (· + 1) (hcounter (coreReg_lt_of_clocked hc (by decide))))
  · exact hbytes.trans (congrArg (· + _) (hcounter (coreReg_lt_of_clocked hc (by decide))))

end Sys2Proof.Machine
end

section
/-! PROOFS. The stream unit halts at a fault and reports it (07 R201; 08 R219; 12 R298, R317; 16 R421). -/

namespace Sys2Proof.Machine

/-! ### Words that become unspecified (08 R219) -/

/-- From s to t only the contents of slices, HBM and the free values drawn have changed. -/
structure ContentsOnly (s t : State) : Prop where
  eq : t = { s with cores := t.cores, hbm := t.hbm, draws := t.draws }
  core : ∀ q, ∃ m, t.core q = { s.core q with slice := { (s.core q).slice with mem := m } }

theorem ContentsOnly.refl (s : State) : ContentsOnly s s := ⟨rfl, fun _ => ⟨_, rfl⟩⟩

theorem ContentsOnly.trans {s t u : State} (h : ContentsOnly s t) (k : ContentsOnly t u) : ContentsOnly s u where
  eq := by rw [k.eq, h.eq]
  core q := by
    obtain ⟨m, hm⟩ := k.core q
    obtain ⟨n, hn⟩ := h.core q
    exact ⟨m, by rw [hm, hn]⟩

theorem ContentsOnly.foldl {α : Type} {g : State → α → State} (h : ∀ s a, ContentsOnly s (g s a)) (l : List α) (s : State) :
    ContentsOnly s (l.foldl g s) :=
  List.foldlRecOn (motive := ContentsOnly s) l g (.refl s) fun t ht a _ => ht.trans (h t a)

theorem State.putDest_contents (s : State) (t : TxnDest) (bs : List Byte) : ContentsOnly s (s.putDest t bs) := by
  cases t with
  | hbm off => exact ⟨rfl, fun q => ⟨_, rfl⟩⟩
  | slice r off =>
    refine ⟨rfl, fun q => ?_⟩
    rw [State.putDest, State.core_modSlice]
    split
    · next hq => exact ⟨_, by rw [hq]⟩
    · exact ⟨_, rfl⟩

theorem State.scrambleTxn_contents (s : State) (p : Nat) (d : StrSlot) (x : IssuedTxn) : ContentsOnly s (s.scrambleTxn p d x) := by
  have hdraw (n : Nat) : ContentsOnly s (s.drawBytes n).2 := ⟨rfl, fun _ => ⟨_, rfl⟩⟩
  unfold State.scrambleTxn
  split
  · exact (hdraw _).trans (State.putDest_contents _ _ _)
  · exact .refl s

theorem State.scrambleHalted_contents (s : State) (p : Nat) : ContentsOnly s (s.scrambleHalted p) :=
  .foldl (fun s d => .foldl (fun s x => s.scrambleTxn_contents p d x) _ s) _ s

/-- Descriptors without a done transaction leave every word as it is. -/
theorem State.scrambleHalted_of_past_nil {s : State} {p : Nat} (h : ∀ d ∈ (s.core p).str.slots, d.past = []) :
    s.scrambleHalted p = s :=
  List.foldlRecOn (motive := (· = s)) _ _ rfl fun t ht d hd => by rw [h d hd]; exact ht

/-! ### Notices (R298, R317) -/

theorem Recent.mono {k : Nat} {code : Half} {log : List Event} (h : Recent k code log) : Recent (k + 1) code log := by
  obtain ⟨e, he, hc⟩ := h
  exact ⟨e, (List.take_subset_take_left _ (Nat.le_succ k)) he, hc⟩

/-- From s to t the command processor wrote or held a notice: its tables, what is out and its own counters have changed, and the log took at
most one event. -/
structure NoticeOnly (s t : State) : Prop where
  eq : t = { s with cmd := t.cmd, mgt := t.mgt, counters := t.counters, draws := t.draws, out := t.out }
  counters : SameCoreCounters s t
  recent : ∀ c, Recent 1 c s.mgt.events → Recent 2 c t.mgt.events

section
variable {s t u : State}

theorem NoticeOnly.core (h : NoticeOnly s t) (q : Nat) : t.core q = s.core q := by rw [h.eq]; rfl

theorem NoticeOnly.hbm (h : NoticeOnly s t) : t.hbm = s.hbm := by rw [h.eq]

theorem NoticeOnly.refl (s : State) : NoticeOnly s s := ⟨rfl, .refl s, fun _ h => h.mono⟩

/-- A change of the command processor's tables alone. -/
theorem NoticeOnly.cmd (h : NoticeOnly s t) (c : Cmd) : NoticeOnly s { t with cmd := c } where
  eq := by rw [h.eq]
  counters := h.counters.same rfl
  recent := h.recent

theorem NoticeOnly.out (h : NoticeOnly s t) (o : List Out) : NoticeOnly s { t with out := o } where
  eq := by rw [h.eq]
  counters := h.counters.same rfl
  recent := h.recent

theorem NoticeOnly.cmdCount (h : NoticeOnly s t) (off n : Nat) : NoticeOnly s (t.count (cmdReg off) n) where
  eq := by
    rw [h.eq]
    rfl
  counters := h.counters.count (by unfold cmdReg; omega) n
  recent := h.recent

/-- A queue that is full raises its event once (R298). -/
theorem NoticeOnly.noteFull (h : NoticeOnly s t) (hm : t.mgt = s.mgt) (k : Nat) : NoticeOnly s (t.noteFull k) := by
  unfold State.noteFull
  split
  · refine .cmd (t := t.event 0x6001) ⟨?_, h.counters.event _, fun c hc => ?_⟩ _
    · rw [h.eq]
      rfl
    · exact State.recent_event_of_recent t _ (by omega) (hm ▸ hc)
  · exact h

/-- A notice is one write at the completion tail, and an interrupt where it is wanted (R298, R317). -/
theorem State.writeItem_notice (s : State) (k : Nat) (n : Notice) : NoticeOnly s (s.writeItem k (.notice n)) := by
  have hwritten (bs : W64) (l : List Byte) (g : Window → Window) :
      NoticeOnly s (((s.emit (.hostBytes bs l)).count (cmdReg 0x118) 1).modWindow k g) :=
    (((NoticeOnly.refl s).out _).cmdCount _ _).cmd _
  unfold State.writeItem
  dsimp only
  split
  · rw [State.msix_frame]
    exact ((hwritten _ _ _).out _).noteFull rfl k
  · exact (hwritten _ _ _).noteFull rfl k

theorem State.putItem_notice (s : State) (k : Nat) (n : Notice) : NoticeOnly s (s.putItem k (.notice n)) := by
  unfold State.putItem
  split
  · exact s.writeItem_notice k n
  · exact (NoticeOnly.refl s).cmd _

theorem State.haltNotice_notice (s : State) (p : Nat) : NoticeOnly s (s.haltNotice p) := by
  unfold State.haltNotice
  dsimp only
  split
  · exact .refl s
  · split
    · exact .refl s
    · exact (s.putItem_notice _ _).cmd _

/-- The time since which a panel waits for the host stands in the panel (R421). -/
theorem State.trackHostHalt_eq (s : State) (p : Nat) : s.trackHostHalt p = { s with cmd := (s.trackHostHalt p).cmd } := by
  unfold State.trackHostHalt
  split
  · rfl
  · split <;> rfl

theorem State.core_trackHostHalt (s : State) (p q : Nat) : (s.trackHostHalt p).core q = s.core q := by rw [s.trackHostHalt_eq]; rfl

/-- A fault of any kind is noted, and posted to the host but for one of kind 2 (R201, R317). -/
theorem NoticeOnly.posts (s : State) (p kind : Nat) :
    NoticeOnly s ((if kind = 2 then s else s.haltNotice p).trackHostHalt p) := by
  rw [State.trackHostHalt_eq]
  refine .cmd ?_ _
  split
  · exact .refl s
  · exact s.haltNotice_notice p

end

/-! ### The halt (R201) -/

theorem exec_streamFaultHalt (p : Nat) (s : State) : exec (.streamFaultHalt p) s = execStreamFaultHalt p s := rfl
theorem exec_streamHaltRecord (p : Nat) (s : State) : exec (.streamHaltRecord p) s = execStreamHaltRecord p s := rfl

section
variable {s : State} {p : Nat}

/-- A reported fault stops the unit. -/
theorem streamFaultHalt_stops (hc : s.clocked p = true) (hhalt : (s.core p).str.halted = false) (hr : (s.core p).str.reported ≠ []) :
    exec (.streamFaultHalt p) s = .next (s.modCore p fun c => { c with str := { c.str with stopping := true } }) := by
  have hreported : (s.core p).str.reported.isEmpty = false := List.isEmpty_eq_false_iff.2 hr
  rw [exec_streamFaultHalt, execStreamFaultHalt, hc, hhalt, hreported]
  rfl

/-- Nothing retires while the oldest descriptor has a transaction left (R195). -/
theorem State.strRetireAll_of_left {d : StrSlot} {rest : List StrSlot} (hs : (s.core p).str.slots = d :: rest)
    (hd : d.allDone (s.core p).slice = false) (n : Nat) : s.strRetireAll p n = s := by
  have hone : s.strRetire p 0 = s := by
    rw [State.strRetire, hs]
    dsimp only
    rw [hd]
    rfl
  induction n with
  | zero => rfl
  | succ n ih => rw [State.strRetireAll, hone, ih]

/-- A stream unit that is halted with a fault. -/
def StreamUnit.haltsAt (u : StreamUnit) (f : StrFault) (now : W64) : StreamUnit :=
  { u with halted := true, stopping := false, handled := false, reported := [], fault := f, haltTime := now }

/-- The halted unit, counted and in the log, before the host hears of it. -/
def State.recordsHalt (s : State) (p : Nat) (f : StrFault) : State :=
  (((s.scrambleHalted p).modCore p fun c => { c with str := c.str.haltsAt f s.clk.now }).count (coreReg p 0x2130) 1).event 0x0870

/-- A stopped unit with nothing in flight records the fault of its oldest descriptor and posts it. -/
theorem streamHaltRecord_records {d : StrSlot} {rest : List StrSlot} {f : StrFault} (hc : s.clocked p = true)
    (hhalt : (s.core p).str.halted = false) (hstop : (s.core p).str.stopping = true) (hfly : (s.core p).str.inflight = 0)
    (hs : (s.core p).str.slots = d :: rest) (hd : d.allDone (s.core p).slice = false) (hf : (s.core p).str.chosen = some f) :
    ∃ t, exec (.streamHaltRecord p) s = .next t ∧ NoticeOnly (s.recordsHalt p f) t := by
  refine ⟨_, ?_, NoticeOnly.posts (s.recordsHalt p f) p f.kind⟩
  rw [exec_streamHaltRecord, execStreamHaltRecord, hc, hhalt, hstop, hfly, State.strRetireAll_of_left hs hd]
  dsimp only
  rw [hf]
  rfl

/-- The halted core keeps all but the contents of its slice. -/
theorem State.core_recordsHalt (s : State) (p : Nat) (f : StrFault) : ∃ m, (s.recordsHalt p f).core p =
    { s.core p with slice := { (s.core p).slice with mem := m }, str := (s.core p).str.haltsAt f s.clk.now } := by
  obtain ⟨m, hm⟩ := (s.scrambleHalted_contents p).core p
  refine ⟨m, ?_⟩
  rw [State.recordsHalt, State.core_event, State.core_count, State.core_modCore_self, hm]

theorem State.counter_recordsHalt (s : State) (p : Nat) (f : StrFault) :
    (s.recordsHalt p f).counter (coreReg p 0x2130) = s.counter (coreReg p 0x2130) + 1 := by
  have hscramble : (s.scrambleHalted p).counter (coreReg p 0x2130) = s.counter (coreReg p 0x2130) := by
    rw [(s.scrambleHalted_contents p).eq]
    rfl
  rw [← hscramble]
  exact (State.counter_count _ _ _ _).trans (if_pos rfl)

/-- Where no descriptor has a done transaction, the halt changes the unit alone. -/
theorem State.recordsHalt_of_past_nil (h : ∀ d ∈ (s.core p).str.slots, d.past = []) (f : StrFault) :
    (s.recordsHalt p f).core p = { s.core p with str := (s.core p).str.haltsAt f s.clk.now } ∧
    (∀ q, q ≠ p → (s.recordsHalt p f).core q = s.core q) ∧ (s.recordsHalt p f).hbm = s.hbm := by
  rw [State.recordsHalt, State.scrambleHalted_of_past_nil h]
  refine ⟨?_, fun q hq => ?_, rfl⟩
  · rw [State.core_event, State.core_count, State.core_modCore_self]
  · rw [State.core_event, State.core_count, State.core_modCore, if_neg hq]

/-- The halt, its count and its event (R201). -/
theorem NoticeOnly.halted {f : StrFault} {t : State} (hc : s.clocked p = true) (h : NoticeOnly (s.recordsHalt p f) t) :
    (t.core p).str = (s.core p).str.haltsAt f s.clk.now ∧ (t.core p).seq = (s.core p).seq ∧ (t.core p).mx = (s.core p).mx ∧
      (t.core p).vx = (s.core p).vx ∧ (∃ e ∈ t.mgt.events, e.code = 0x0870) ∧
      t.counter (coreReg p 0x2130) = s.counter (coreReg p 0x2130) + 1 := by
  obtain ⟨m, hm⟩ := s.core_recordsHalt p f
  rw [h.core, hm]
  refine ⟨rfl, rfl, rfl, rfl, ?_, ?_⟩
  · exact (h.recent _ (State.recent_event _ 0x0870)).exists_mem
  · exact (h.counters _ (coreReg_lt_of_clocked hc (by decide))).trans (s.counter_recordsHalt p f)

end

end Sys2Proof.Machine
end

section
/-! PROOFS. STR_RESUME: retry and skip (07 R202; 16 R428). -/

namespace Sys2Proof.Machine

theorem exec_strResumeRetry (p : Nat) (s : State) : exec (.strResumeRetry p) s = execStrResumeRetry p s := rfl
theorem exec_strResumeSkip (p : Nat) (s : State) : exec (.strResumeSkip p) s = execStrResumeSkip p s := rfl

section
variable {s : State} {p : Nat} {d : StrSlot}

/-! ### The saved position (R202) -/

/-- What is done stays done below the saved position, and what moved words beyond it moves them again. -/
theorem StrSlot.rewind_frame (d : StrSlot) (sl : Slice) :
    (d.rewind sl).slot = d.slot ∧ (d.rewind sl).desc = d.desc ∧ (d.rewind sl).issued = [] ∧
      (∀ i, i ∈ (d.rewind sl).done ↔ i ∈ d.done ∧ i < d.saved sl) ∧
      ∀ x ∈ d.past, d.saved sl ≤ x.index → x.index ∈ (d.rewind sl).redo := by
  refine ⟨rfl, rfl, rfl, fun i => ?_, fun x hx hi => ?_⟩
  · exact List.mem_filter.trans (and_congr_right fun _ => decide_eq_true_iff)
  · refine List.mem_append_right _ (List.mem_map_of_mem (List.mem_filter.2 ⟨hx, ?_⟩))
    exact decide_eq_true hi

/-! ### Retry (R202) -/

/-- A core whose stream unit goes on from the saved position of every descriptor. -/
def Core.resumes (c : Core) : Core :=
  { c with str := { c.str with
      halted := false, stopping := false, handled := false, reported := [], slots := c.str.slots.map fun d => d.rewind c.slice } }

theorem Core.strSlot_resumes {c : Core} {k : Nat} (h : c.strSlot k = some d) : c.resumes.strSlot k = some (d.rewind c.slice) := by
  have hmap : c.resumes.strSlot k = (c.strSlot k).map fun d => d.rewind c.slice := List.find?_map
  rw [hmap, h]
  rfl

/-- Captured descriptors reissue without being read again. -/
theorem State.strReissue_eq (h : ∀ d ∈ (s.core p).str.slots, d.desc ≠ []) :
    s.strReissue p = (s.modCore p Core.resumes).trackHostHalt p := by
  have hread : ((s.modCore p Core.resumes).core p).str.slots.filter (fun d => d.desc.isEmpty) = [] := by
    rw [State.core_modCore_self]
    refine List.filter_eq_nil_iff.2 fun e he => ?_
    obtain ⟨d, hd, rfl⟩ := List.mem_map.1 he
    simpa [(d.rewind_frame _).2.1] using h d hd
  show (((s.modCore p Core.resumes).core p).str.slots.filter _).foldl _ ((s.modCore p Core.resumes).trackHostHalt p) = _
  rw [hread]
  rfl

/-- Reissue resumes the unit of its core, and changes no other core, no output and no word of HBM. -/
theorem State.strReissue_frame (h : ∀ d ∈ (s.core p).str.slots, d.desc ≠ []) :
    (s.strReissue p).core p = (s.core p).resumes ∧ (∀ q, q ≠ p → (s.strReissue p).core q = s.core q) ∧
      (s.strReissue p).out = s.out ∧ (s.strReissue p).hbm = s.hbm := by
  rw [State.strReissue_eq h]
  refine ⟨?_, fun q hq => ?_, ?_, ?_⟩
  · rw [State.core_trackHostHalt, State.core_modCore_self]
  · rw [State.core_trackHostHalt, State.core_modCore, if_neg hq]
  · rw [State.trackHostHalt_eq]
    rfl
  · rw [State.trackHostHalt_eq]
    rfl

/-! ### Skip (R202) -/

/-- The sequences that a skip fails stand in their panel (R428). -/
theorem State.failReaders_frame (s : State) (p : Nat) :
    (∀ q, (s.failReaders p).core q = s.core q) ∧ (s.failReaders p).hbm = s.hbm := by
  unfold State.failReaders
  split <;> exact ⟨fun _ => rfl, rfl⟩

/-- The module whose core resumes by a skip, before the faulting transaction is passed over. -/
def State.skipResumes (s : State) (p : Nat) : State :=
  if (s.core p).str.fault.kind = 3 then (s.strReissue p).failReaders p else s.strReissue p

theorem State.skipResumes_frame (h : ∀ d ∈ (s.core p).str.slots, d.desc ≠ []) :
    (s.skipResumes p).core p = (s.core p).resumes ∧ (s.skipResumes p).hbm = s.hbm := by
  obtain ⟨hcore, -, -, hhbm⟩ := State.strReissue_frame h
  obtain ⟨hfailed, hkept⟩ := (s.strReissue p).failReaders_frame p
  unfold State.skipResumes
  split
  · exact ⟨(hfailed p).trans hcore, hkept.trans hhbm⟩
  · exact ⟨hcore, hhbm⟩

/-- A descriptor whose last transaction is skipped raises nothing (R191, R202). -/
def StrSlot.dropsRaise (d : StrSlot) (last : Bool) : StrSlot := { d with noRaise := d.noRaise || last }

/-- A skip completes the faulting transaction of a store without sending it. -/
theorem State.strSkip_store {i : Nat} {x : Txn} (hall : ∀ d ∈ (s.core p).str.slots, d.desc ≠ []) (hhalt : (s.core p).str.halted = true)
    (hd : (s.core p).strSlot (s.core p).str.fault.slot = some d) (hstore : d.store = true) {ts : List Txn}
    (hts : ts = (d.rewind (s.core p).slice).txns (s.core p).slice)
    (hi : (List.range ts.length).find? (fun i => decide ((ts.map (·.pos)).getD i 0 = (s.core p).str.fault.pos)) = some i)
    (hx : ts[i]? = some x) :
    s.strSkip p =
      ((s.skipResumes p).modStr p d.slot fun e => e.dropsRaise (decide (i + 1 = ts.length))).txnDone p d.slot i 0 0 := by
  have hread : ((s.core p).strSlot (s.core p).str.fault.slot).all (fun d => d.desc.isEmpty) = false := by
    rw [hd]
    simpa using hall d (List.mem_of_find?_eq_some hd)
  have hfound := Core.strSlot_resumes hd
  rw [← (State.skipResumes_frame hall).1] at hfound
  have hback : (d.rewind (s.core p).slice).store = true := hstore
  rw [State.strSkip, hhalt]
  dsimp only
  rw [← State.skipResumes, hread, hfound]
  dsimp only
  rw [← hts, hi]
  dsimp only
  rw [hx]
  dsimp only
  rw [hback]
  rfl

/-- A descriptor that completes a transaction without moving words, and no other part of its core. -/
theorem State.core_skipped {i : Nat} {k : Nat} (hd : (s.core p).strSlot k = some d) (last : Bool) :
    let t := (s.modStr p k fun e => e.dropsRaise last).txnDone p k i 0 0
    (t.core p).str.halted = (s.core p).str.halted ∧ (t.core p).slice = (s.core p).slice ∧
      (t.core p).strSlot k = some ((d.dropsRaise last).completes i) ∧ t.hbm = s.hbm := by
  intro t
  have hfirst := s.strSlot_modStr p k (f := fun e => e.dropsRaise last) fun _ => rfl
  have hthen := (s.modStr p k fun e => e.dropsRaise last).strSlot_modStr p k (f := fun e => e.completes i) fun _ => rfl
  rw [hfirst, hd] at hthen
  refine ⟨?_, ?_, ?_, State.hbm_txnDone _ _ _ _ _ _⟩
  · simp only [t, State.core_txnDone, State.modStr, State.core_modCore_self]
  · simp only [t, State.core_txnDone, State.modStr, State.core_modCore_self]
  · rw [State.core_txnDone, hthen]
    rfl

/-! ### The register (R202, R204) -/

section
variable (hp : p < 160) (hw : s.hostWaits = false) (hb : s.barOpen 0 = true) (hf : s.runsFree p = true)
include hp hw hb hf

theorem strResumeRetry_eq : exec (.strResumeRetry p) s = .next (s.strRetry p) := by
  rw [exec_strResumeRetry, execStrResumeRetry, State.hostTo_core hw hb hf, hb, decide_eq_true hp]
  rfl

theorem strResumeSkip_eq : exec (.strResumeSkip p) s = .next (s.strSkip p) := by
  rw [exec_strResumeSkip, execStrResumeSkip, State.hostTo_core hw hb hf, hb, decide_eq_true hp]
  rfl

/-- A unit that is not halted raises an event and goes on. -/
theorem strResume_refused (hhalt : (s.core p).str.halted = false) :
    exec (.strResumeRetry p) s = .next (s.event 0x0871) ∧ exec (.strResumeSkip p) s = .next (s.event 0x0871) := by
  rw [strResumeRetry_eq hp hw hb hf, strResumeSkip_eq hp hw hb hf, State.strRetry, State.strSkip, hhalt]
  exact ⟨rfl, rfl⟩

/-- A skip of a store resumes the unit, and the faulting transaction counts as done (R202). -/
theorem strResumeSkip_store {i : Nat} {x : Txn} {ts : List Txn} (hall : ∀ d ∈ (s.core p).str.slots, d.desc ≠ [])
    (hhalt : (s.core p).str.halted = true) (hd : (s.core p).strSlot (s.core p).str.fault.slot = some d) (hstore : d.store = true)
    (hts : ts = (d.rewind (s.core p).slice).txns (s.core p).slice)
    (hi : (List.range ts.length).find? (fun i => decide ((ts.map (·.pos)).getD i 0 = (s.core p).str.fault.pos)) = some i)
    (hx : ts[i]? = some x) :
    ∃ t, exec (.strResumeSkip p) s = .next t ∧ (t.core p).str.halted = false ∧ (t.core p).slice = (s.core p).slice ∧
      (∃ y, (t.core p).strSlot d.slot = some y ∧ i ∈ y.done) ∧ t.hbm = s.hbm := by
  have hslot : d.slot = (s.core p).str.fault.slot := by simpa using List.find?_some hd
  obtain ⟨hresumed, hkept⟩ := State.skipResumes_frame hall
  have hback := Core.strSlot_resumes hd
  rw [← hresumed, ← hslot] at hback
  obtain ⟨hgoes, hslice, hdone, hhbm⟩ := State.core_skipped (i := i) hback (decide (i + 1 = ts.length))
  rw [hresumed] at hgoes hslice
  refine ⟨_, ?_, hgoes, hslice, ⟨_, hdone, List.mem_cons_self⟩, hhbm.trans hkept⟩
  rw [strResumeSkip_eq hp hw hb hf, State.strSkip_store hall hhalt hd hstore hts hi hx]

end

end

/-! ### The obligation -/

/-- Settles O20: the halt changes the unit and the contents that its descriptors moved too early, and a resume rewinds every descriptor. -/
theorem streamHaltsAndResumes : Obligations.StreamHaltsAndResumes := by
  unfold Obligations.StreamHaltsAndResumes
  refine ⟨?halt, ?resume⟩
  case halt =>
    intro s p c hcore hc hhalt
    subst hcore
    refine ⟨streamFaultHalt_stops hc hhalt, fun d rest f hstop hfly hs hd hchosen => ?_⟩
    obtain ⟨t, hx, ht⟩ := streamHaltRecord_records hc hhalt hstop hfly hs hd hchosen
    obtain ⟨hstr, hseq, hmx, hvx, hevent, hcount⟩ := ht.halted hc
    refine ⟨t, hx, hstr, hseq, hmx, hvx, hevent, hcount, fun hpast => ?_⟩
    obtain ⟨hself, hother, hhbm⟩ := State.recordsHalt_of_past_nil hpast f
    refine ⟨?_, fun q hq => (ht.core q).trans (hother q hq), ht.hbm.trans hhbm⟩
    rw [ht.core, hself]
  case resume =>
    intro s p c hcore hp hw hb hf hall
    subst hcore
    obtain ⟨hcore, hother, hout, -⟩ := State.strReissue_frame hall
    refine ⟨fun d => d.rewind_frame _, fun hhalt => ?_, ?_, strResume_refused hp hw hb hf⟩
    · refine ⟨s.strReissue p, ?_, hcore, hother, hout⟩
      rw [strResumeRetry_eq hp hw hb hf, State.strRetry, if_pos hhalt]
    · intro d i x hhalt hd hstore ts hi hx
      exact strResumeSkip_store hp hw hb hf hall hhalt hd hstore rfl hi hx

end Sys2Proof.Machine
end

section
/-! PROOFS. One word of HBM: what the cache leaves alone, what a write of a whole word leaves, and what a read of a good word
answers (08 R206, R208; 09 R228 to R231; 16 R428). -/

namespace Sys2Proof.Machine

/-! ### The cache holds no content of its own (R206, R228 to R230) -/

@[simp] theorem State.mscRoom_hbm (s : State) (line ways : Nat) : (s.mscRoom line ways).2.hbm = s.hbm := by
  unfold State.mscRoom
  dsimp only
  split
  · rfl
  · split
    · exact s.mscDrop_hbm _ _
    · rfl

@[simp] theorem State.mscPut_hbm (s : State) (line sec : Nat) (l : MscLine) (write : Bool) :
    (s.mscPut line sec l write).hbm = s.hbm := rfl

@[simp] theorem State.dramTouch_hbm (s : State) (h : Nat) (write full : Bool) : (s.dramTouch h write full).hbm = s.hbm := by
  unfold State.dramTouch
  dsimp only
  split_ifs <;> rfl

@[simp] theorem State.fillTouch_hbm (s : State) (h : Nat) (write full : Bool) : (s.fillTouch h write full).hbm = s.hbm := by
  unfold State.fillTouch
  split <;> rfl

@[simp] theorem State.mscMiss_hbm (s : State) (off : Nat) (r : HReq) (write full : Bool) :
    (s.mscMiss off r write full).hbm = s.hbm := by
  unfold State.mscMiss
  dsimp only
  split
  · exact State.dramTouch_hbm _ _ _ _
  · rw [State.mscPut_hbm, State.fillTouch_hbm, State.mscRoom_hbm, State.count_hbm]

/-- A request at the cache moves no content of HBM: hit, miss, and the write-back that a key mismatch forces. -/
@[simp] theorem State.mscAccess_hbm (s : State) (off : Nat) (r : HReq) (write full : Bool) :
    (s.mscAccess off r write full).hbm = s.hbm := by
  unfold State.mscAccess
  dsimp only
  split
  · split_ifs
    · rfl
    · rw [State.dramTouch_hbm, State.count_hbm]
    · rw [State.mscPut_hbm, State.fillTouch_hbm, State.count_hbm]
    · rw [State.mscMiss_hbm, State.mscDrop_hbm, State.count_hbm]
  · exact s.mscMiss_hbm _ _ _ _

/-! ### Bytes of a word -/

/-- Bytes that are written read back in one piece. -/
theorem Mem.readN_writeN_self (m : Mem) (a : Nat) (bs : List Byte) : Mem.readN (Mem.writeN m a bs) a bs.length = bs := by
  refine List.ext_getElem (by simp [Mem.readN]) fun i _ hi => ?_
  simpa [Mem.readN] using Mem.read_writeN_of_in m a i bs hi

/-- Bytes put over others of the same length replace them all. -/
theorem overlay_self (bs : List Byte) : overlay bs 0 bs = bs := by simp [overlay]

/-! ### Reading and writing one word (R206, R208, R231) -/

section
variable {s : State} {w : Nat} {r : HReq}

/-- A word under the material of the request reads as its content (R231). -/
theorem State.plainWord_of_material (hr : r.material ≠ 0) (htag : s.wordTag w = r.material) :
    s.plainWord w r = Mem.readN s.hbm.mem (w * 64) 64 := if_pos ⟨hr, htag⟩

/-- What a word reads as is a fact of HBM's content alone. -/
theorem State.plainWord_congr {t : State} (h : t.hbm = s.hbm) : t.plainWord w r = s.plainWord w r := by
  rw [State.plainWord, State.plainWord, State.wordTag, State.wordTag, h]

/-- A good word of a frame that is not poisoned is read without repair. -/
theorem State.hbmReadWord_good (hp : s.isPoisoned (w / 1024) = false) (hbad : w ∉ s.hbm.bad) :
    (s.hbmReadWord w r).1 = .data (s.plainWord w r) := by
  rw [State.hbmReadWord, if_neg (by simp [hp]), if_neg (by simpa using hbad)]
  exact congrArg HAns.data (State.plainWord_congr (s.mscAccess_hbm _ _ _ _))

/-- A whole word that is written gives its word new content under the material of the request, whether it was good or bad. -/
theorem State.hbmWriteWord_whole {bs : List Byte} (hlen : bs.length = 64) (hp : s.isPoisoned (w / 1024) = false) :
    (s.hbmWriteWord w 0 bs r).hbm = { s.hbm with
      mem := Mem.writeN s.hbm.mem (w * 64) bs,
      tags := Tab.set s.hbm.tags w r.material,
      bad := s.hbm.bad.filter (fun x => decide (x ≠ w)) } := by
  simp [State.hbmWriteWord, hp, hlen, overlay_self]

/-- A write of a whole word poisons no frame and clears no poison. -/
theorem State.isPoisoned_hbmWriteWord {bs : List Byte} (hlen : bs.length = 64) (hp : s.isPoisoned (w / 1024) = false) (f : Nat) :
    (s.hbmWriteWord w 0 bs r).isPoisoned f = s.isPoisoned f := by
  rw [State.isPoisoned, State.hbmWriteWord_whole hlen hp, State.isPoisoned]

/-- A write of a whole word puts it under the material of the request and leaves every other word under its own. -/
theorem State.wordTag_hbmWriteWord {bs : List Byte} (hlen : bs.length = 64) (hp : s.isPoisoned (w / 1024) = false) (v : Nat) :
    (s.hbmWriteWord w 0 bs r).wordTag v = if v = w then r.material else s.wordTag v := by
  rw [State.wordTag, State.hbmWriteWord_whole hlen hp, Tab.get_set, State.wordTag]

/-- A write of a whole word leaves the bytes of every other word. -/
theorem State.read_hbmWriteWord_of_ne {bs : List Byte} (hlen : bs.length = 64) (hp : s.isPoisoned (w / 1024) = false) {a : Nat}
    (ha : a / 64 ≠ w) : (s.hbmWriteWord w 0 bs r).hbm.mem.read a = s.hbm.mem.read a := by
  rw [State.hbmWriteWord_whole hlen hp]
  exact Mem.read_writeN_of_out _ _ _ _ (by omega)

/-- A whole word that is written reads back under the same request. -/
theorem State.hbmReadWord_hbmWriteWord {bs : List Byte} (hlen : bs.length = 64) (hr : r.material ≠ 0)
    (hp : s.isPoisoned (w / 1024) = false) : ((s.hbmWriteWord w 0 bs r).hbmReadWord w r).1 = .data bs := by
  have hwritten := State.hbmWriteWord_whole (r := r) hlen hp
  have hgood : w ∉ (s.hbmWriteWord w 0 bs r).hbm.bad := by simp [hwritten]
  have htag : (s.hbmWriteWord w 0 bs r).wordTag w = r.material := by rw [State.wordTag_hbmWriteWord hlen hp, if_pos rfl]
  have hbytes : Mem.readN (s.hbmWriteWord w 0 bs r).hbm.mem (w * 64) 64 = bs := by
    rw [hwritten, ← hlen]
    exact Mem.readN_writeN_self _ _ _
  rw [State.hbmReadWord_good ((State.isPoisoned_hbmWriteWord hlen hp _).trans hp) hgood,
    State.plainWord_of_material hr htag, hbytes]

end

/-! ### The obligation -/

/-- Settles O23: a whole word that is written is good and under the material of its request, so a read under the same request finds
its bytes; bytes, material and poison of the other words stay. -/
theorem hbmReadAfterWrite : Obligations.HbmReadAfterWrite := by
  unfold Obligations.HbmReadAfterWrite
  intro s w v bs r hlen hr hp
  refine ⟨State.hbmReadWord_hbmWriteWord hlen hr hp, fun a ha => State.read_hbmWriteWord_of_ne hlen hp ha, fun hv => ⟨?_, ?_⟩⟩
  · rw [State.wordTag_hbmWriteWord hlen hp, if_neg hv]
  · exact State.isPoisoned_hbmWriteWord hlen hp _

end Sys2Proof.Machine
end

section
/-! PROOFS. Messages to board peers and page walks leave every core as it was (09 R236, R239; 14 R366 to R368). -/

namespace Sys2Proof.Machine

/-- From s to t no core changed, whatever else did. -/
structure CoresStay (s t : State) : Prop where
  cores : t.cores = s.cores
  pins : t.pins = s.pins

section
variable {s t u : State}

theorem CoresStay.refl (s : State) : CoresStay s s := ⟨rfl, rfl⟩

theorem CoresStay.trans (h : CoresStay s t) (k : CoresStay t u) : CoresStay s u := ⟨k.cores.trans h.cores, k.pins.trans h.pins⟩

theorem CoresStay.core (h : CoresStay s t) (q : Nat) : t.core q = s.core q := by
  rw [State.core, State.core, h.cores, h.pins]

theorem HbmOnly.coresStay (h : HbmOnly s t) : CoresStay s t := ⟨h.cores, h.pins⟩

theorem CoresStay.drawBytes (h : CoresStay s t) (n : Nat) : CoresStay s (t.drawBytes n).2 := ⟨h.cores, h.pins⟩

theorem CoresStay.count (h : CoresStay s t) (off n : Nat) : CoresStay s (t.count off n) := ⟨h.cores, h.pins⟩

theorem CoresStay.modPort (h : CoresStay s t) (port : Nat) (f : Port → Port) : CoresStay s (t.modPort port f) := ⟨h.cores, h.pins⟩

/-- A change of the links and of the security engine. -/
theorem CoresStay.links (h : CoresStay s t) (l : Link) (x : Sec) : CoresStay s { t with lnk := l, sec := x } := ⟨h.cores, h.pins⟩

/-- A choice between two states that both leave the cores alone. -/
theorem CoresStay.ite {c : Prop} [Decidable c] (h : CoresStay s t) (k : CoresStay s u) : CoresStay s (if c then t else u) := by
  split
  · exact h
  · exact k

/-- A choice between two answers whose states both leave the cores alone. -/
theorem CoresStay.iteAns {α : Type} {c : Prop} [Decidable c] {x y : α × State} (h : CoresStay s x.2) (k : CoresStay s y.2) :
    CoresStay s (if c then x else y).2 := by
  split
  · exact h
  · exact k

end

/-! ### Messages (14 R366 to R368) -/

section
variable (s : State)

theorem State.putSequenced_coresStay (port : Nat) (f : LinkFrame) : CoresStay s (s.putSequenced port f) := by
  refine .count (t := State.emit _ _) ?_ _ _
  exact ⟨rfl, rfl⟩

theorem State.pumpPort_coresStay (fuel port : Nat) : CoresStay s (State.pumpPort fuel port s) := by
  induction fuel generalizing s with
  | zero => exact .refl s
  | succ fuel ih =>
    unfold State.pumpPort
    dsimp only
    split
    · exact .refl s
    · refine .ite (.refl s) (.trans ?_ (ih _))
      exact (((CoresStay.refl s).drawBytes _).modPort _ _).trans (State.putSequenced_coresStay _ _ _)

theorem State.portBytes_coresStay (port vc lane : Nat) (own : Option LinkShare) (bs : List Byte) :
    CoresStay s (s.portBytes port vc lane own bs) := by
  refine .trans ?_ (State.pumpPort_coresStay _ 1024 port)
  exact ⟨rfl, rfl⟩

theorem State.launch_coresStay (h : MsgHdr) (data : List Byte) (port : Nat) : CoresStay s (s.launch h data port) := by
  refine .trans ?_ (State.portBytes_coresStay _ _ _ _ _ _)
  exact ⟨rfl, rfl⟩

theorem State.shape_coresStay (h : MsgHdr) (n : Nat) : CoresStay s (s.shape h n) := by
  unfold State.shape
  split <;> exact ⟨rfl, rfl⟩

theorem State.sendMsg_coresStay (h : MsgHdr) (data : List Byte) (owner : Option (Nat × Nat)) (coll : Option Nat) :
    CoresStay s (s.sendMsg h data owner coll).2 := by
  unfold State.sendMsg
  dsimp only
  split
  · exact .refl s
  · have hshaped := s.shape_coresStay h data.length
    refine .iteAns (.refl s) (.iteAns ⟨rfl, rfl⟩ (.trans (.ite ?_ (.count ?_ _ _)) (State.launch_coresStay _ _ _ _)))
    · exact ((hshaped.links _ _).count _ _).count _ _
    · exact ((hshaped.links _ _).count _ _).count _ _

theorem State.countWait_coresStay (k : Nat) (since : Option Nat) : CoresStay s (s.countWait k since) := by
  unfold State.countWait
  split <;> exact ⟨rfl, rfl⟩

theorem State.chargeSent_coresStay (h : MsgHdr) (n : Nat) : CoresStay s (s.chargeSent h n) := .ite ⟨rfl, rfl⟩ (.refl s)

/-- A message goes out, waits or fails; the cores stay as they are. -/
theorem State.sendOrWait_coresStay (h : MsgHdr) (data : List Byte) (owner : Option (Nat × Nat)) (coll since : Option Nat) :
    CoresStay s (s.sendOrWait h data owner coll since) := by
  have hsend := s.sendMsg_coresStay (s.inClass h data.length).1 data owner coll
  unfold State.sendOrWait
  dsimp only
  split
  · have hsent := (hsend.trans (State.countWait_coresStay _ (s.panelNow h.srcCtx.toNat) since)).trans
      (State.chargeSent_coresStay _ h data.length)
    exact .ite (hsent.count _ _) hsent
  · exact hsend.links _ _
  · exact hsend.links _ _
  · exact hsend.links _ _

theorem State.peerRequest_coresStay (ctx slot keySlot : Nat) (gen : BitVec 8) (write : Bool) (addr n : Nat) (data : List Byte) :
    CoresStay s (s.peerRequest ctx slot keySlot gen write addr n data) :=
  List.foldlRecOn (motive := CoresStay s) _ _ (.refl s) fun t ht _ _ => ht.trans (t.sendOrWait_coresStay _ _ _ _ _)

/-! ### The walk (R239) -/

theorem State.readPte_coresStay (u : Use) (table idx : Nat) : CoresStay s (s.readPte u table idx).2 := by
  unfold State.readPte
  split
  · exact .refl s
  · refine .iteAns (.refl s) ?_
    dsimp only
    split <;> exact (s.hbmRead_only _ _ _).coresStay

theorem State.walkerPin_coresStay (key : Nat × Nat × Nat) : CoresStay s (s.walkerPin key) := .ite (.refl s) ⟨rfl, rfl⟩

theorem State.walkerKeep_coresStay (key : Nat × Nat × Nat) (e : W64) : CoresStay s (s.walkerKeep key e) := by
  unfold State.walkerKeep
  refine .ite ⟨rfl, rfl⟩ ?_
  dsimp only
  split <;> exact ⟨rfl, rfl⟩

theorem State.walkerPinBoth_coresStay (ctx va : Nat) : CoresStay s (s.walkerPinBoth ctx va) :=
  .trans (.ite (s.walkerPin_coresStay _) (.refl s)) (State.walkerPin_coresStay _ _)

theorem State.cachedPte_coresStay (u : Use) (cached pin : Bool) (ctx level va table : Nat) :
    CoresStay s (s.cachedPte u cached pin ctx level va table).2 := by
  have hread := s.readPte_coresStay u table (vaIndex va level)
  unfold State.cachedPte
  dsimp only
  split
  · exact .ite (s.walkerPin_coresStay _) (.refl s)
  · split
    · next e _ =>
      have hkept := hread.trans (State.walkerKeep_coresStay _ (walkerKey ctx level va) e)
      exact .iteAns (.ite (hkept.trans (State.walkerPin_coresStay _ _)) hkept) hread
    · exact hread

theorem State.leafFrom2_coresStay (u : Use) (va : Nat) (e2 : W64) : CoresStay s (s.leafFrom2 u va e2).2 := by
  have hread := s.readPte_coresStay u (pteNext e2) (vaIndex va 3)
  unfold State.leafFrom2
  dsimp only
  refine .iteAns (.refl s) (.iteAns (.refl s) (.iteAns (.refl s) ?_))
  split
  · exact hread
  · exact .iteAns hread (.iteAns hread hread)

theorem State.findLeaf_coresStay (u : Use) (cached pin : Bool) (ctx root va : Nat) :
    CoresStay s (s.findLeaf u cached pin ctx root va).2 := by
  have hfirst := s.cachedPte_coresStay u cached pin ctx 1 va root
  unfold State.findLeaf
  dsimp only
  refine .iteAns (.refl s) (.iteAns (.refl s) ?_)
  split
  · refine .trans (.ite ?_ (.refl s)) (State.leafFrom2_coresStay _ _ _ _)
    exact s.walkerPinBoth_coresStay ctx va
  · split
    · exact hfirst
    · next e1 _ =>
      refine .iteAns hfirst (.iteAns hfirst ?_)
      have hsecond := hfirst.trans (State.cachedPte_coresStay _ u cached pin ctx 2 va (pteNext e1))
      split
      · exact hsecond
      · exact hsecond.trans (State.leafFrom2_coresStay _ _ _ _)

theorem State.boardCount_coresStay (u : Use) (ctx frame : Nat) : CoresStay s (s.boardCount u ctx frame).2 := by
  unfold State.boardCount
  split
  · exact (s.hbmRead_only _ _ _).coresStay
  · exact (s.peerRequest_coresStay _ _ _ _ _ _ _ _).drawBytes _

theorem State.checkLeaf_coresStay (u : Use) (ctx : Nat) (e : W64) (large : Bool) (tenant setMask : Nat) (write : Bool) :
    CoresStay s (s.checkLeaf u ctx e large tenant setMask write).2 := by
  have hcount := s.boardCount_coresStay (if u = .bare then .bare else .sys) ctx (pteFrame e)
  exact .iteAns (.refl s) (.iteAns (.refl s) (.iteAns (.refl s) (.iteAns (.iteAns hcount hcount) (.refl s))))

/-- A walk leaves every core as it was. -/
theorem State.walk_coresStay (u : Use) (pin : Bool) (ctx root tenant setMask va : Nat) (write : Bool) :
    CoresStay s (s.walk u pin ctx root tenant setMask va write).2 := by
  have hfind := s.findLeaf_coresStay u true pin ctx root va
  unfold State.walk
  generalize s.findLeaf u true pin ctx root va = found at hfind ⊢
  obtain ⟨answer, t⟩ := found
  cases answer with
  | fault kind frame => exact (hfind.count _ _).count _ _
  | leaf e large wOk =>
    have hchecked := hfind.trans (t.checkLeaf_coresStay u ctx e large tenant setMask write)
    dsimp only
    split
    · exact (hchecked.count _ _).count _ _
    · exact hchecked.count _ _

end

end Sys2Proof.Machine
end

section
/-! PROOFS. Page walks and the translation cache (09 R239, R240). -/

namespace Sys2Proof.Machine

theorem exec_pageWalk (p : Nat) (va : BitVec 48) (write : Bool) (s : State) :
    exec (.pageWalk p va write) s = execPageWalk p va write s := rfl
theorem exec_pageWalkComplete (p : Nat) (s : State) : exec (.pageWalkComplete p) s = execPageWalkComplete p s := rfl

/-! ### The translation cache (R240) -/

section
variable (tc : TransCache) (t : TcEntry)

theorem TransCache.touch_length : (tc.touch t).entries.length ≤ 512 := List.length_take_le _ _

theorem TransCache.touch_entries : (tc.touch t).entries = t :: (tc.entries.filter fun x => !x.samePage t).take 511 := rfl

/-- A cache takes in nothing but the entry that it is given. -/
theorem TransCache.mem_of_mem_touch {x : TcEntry} (hx : x ∈ (tc.touch t).entries) (hne : x ≠ t) : x ∈ tc.entries := by
  rw [TransCache.touch_entries] at hx
  exact List.mem_of_mem_filter (List.mem_of_mem_take (List.mem_of_ne_of_mem hne hx))

/-- An entry translates the first address of its page. -/
theorem TcEntry.matches_self : t.matches t.ctx t.gen (t.vpage * pageBytes t.large) = true := by
  have hpos : 0 < pageBytes t.large := by cases t.large <;> decide
  simp [TcEntry.matches, Nat.mul_div_cancel _ hpos]

theorem TransCache.find_touch : (tc.touch t).find t.ctx t.gen (t.vpage * pageBytes t.large) = some t := by
  rw [TransCache.find, TransCache.touch_entries]
  exact List.find?_cons_of_pos t.matches_self

end

/-! ### Walks (R239) -/

/-- A miss of a core whose unit goes on starts a walk, while one more may be in flight. -/
theorem pageWalk_starts {s : State} {p : Nat} {va : BitVec 48} {write : Bool} (hc : s.clocked p = true) (hon : s.islandOn 249 = true)
    (hn : s.walks < 64) (hnew : (s.core p).tc.walking va.toNat write = false) (hhalt : (s.core p).str.halted = false)
    (hstop : (s.core p).str.stopping = false) (hwait : ((s.core p).waitingTxn va.toNat write).isSome = true) :
    exec (.pageWalk p va write) s = .next ((s.modCore p fun c => { c with tc := { c.tc with
      walks := c.tc.walks ++ [{ va := va.toNat, write := write }] } }).count (coreReg p 0x2908) 1) := by
  rw [exec_pageWalk, execPageWalk]
  dsimp only
  rw [if_neg (by simp [hc, hon, hn, hnew, hhalt, hstop, hwait])]

/-- The entry that a walk of a core fills the cache with. -/
def Core.fillOf (c : Core) (w : Walk) (e : W64) (large wOk : Bool) : TcEntry :=
  { ctx := c.ctx, gen := c.gen, vpage := w.va / pageBytes large, large := large, leaf := e, wOk := wOk }

/-- What the walker finds for a walk of a core; the descriptor that waits for it says whether the reads may allocate. -/
def State.walkFor (s : State) (p : Nat) (w : Walk) (d : StrSlot) : WalkAns × State :=
  s.walk (if d.noAlloc then .bare else .sys) false (s.core p).ctx (s.core p).root (s.core p).tenant (s.core p).setMask.toNat w.va w.write

/-- The state in which the oldest walk of a core has found its answer and is in flight no more. -/
def State.walked (s : State) (p : Nat) (w : Walk) (rest : List Walk) (d : StrSlot) : State :=
  (s.walkFor p w d).2.modCore p fun c => { c with tc := { c.tc with walks := rest } }

theorem State.core_walked (s : State) (p : Nat) (w : Walk) (rest : List Walk) (d : StrSlot) :
    (s.walked p w rest d).core p = { s.core p with tc := { (s.core p).tc with walks := rest } } := by
  rw [State.walked, State.core_modCore_self, State.walkFor, (s.walk_coresStay _ _ _ _ _ _ _ _).core]

section
variable {s : State} {p : Nat} {w : Walk} {rest : List Walk} {d : StrSlot} {x : Txn}

/-- The oldest walk, if no invalidation discarded it, ends with what its transaction then meets. -/
theorem pageWalkComplete_ends (hc : s.clocked p = true) (hon : s.islandOn 249 = true) (hw : (s.core p).tc.walks = w :: rest)
    (hr : w.redo = false) (hwait : (s.core p).waitingTxn w.va w.write = some (d, x)) :
    exec (.pageWalkComplete p) s = match (s.walkFor p w d).1 with
      | .leaf e large wOk => .next ((s.walked p w rest d).modCore p fun c => { c with tc := c.tc.touch ((s.core p).fillOf w e large wOk) })
      | .fault k frame => .next ((s.walked p w rest d).strReport p (d.fault k x.pos x.far false frame)) := by
  rw [exec_pageWalkComplete, execPageWalkComplete]
  dsimp only
  rw [hw]
  dsimp only
  rw [if_neg (by simp [hc, hon, hr]), hwait]
  rfl

/-- A walk that finds its leaf gives the core's cache its newest entry. -/
theorem pageWalkComplete_fills (hc : s.clocked p = true) (hon : s.islandOn 249 = true) (hw : (s.core p).tc.walks = w :: rest)
    (hr : w.redo = false) (hwait : (s.core p).waitingTxn w.va w.write = some (d, x)) {e : W64} {large wOk : Bool}
    (ha : (s.walkFor p w d).1 = .leaf e large wOk) :
    ∃ t, exec (.pageWalkComplete p) s = .next t ∧ t.core p =
      { s.core p with tc := { (s.core p).tc with walks := rest }.touch ((s.core p).fillOf w e large wOk) } := by
  rw [pageWalkComplete_ends hc hon hw hr hwait, ha]
  exact ⟨_, rfl, by rw [State.core_modCore_self, State.core_walked]⟩

/-- A walk that ends in a fault reports it for the transaction that waits. -/
theorem pageWalkComplete_faults (hc : s.clocked p = true) (hon : s.islandOn 249 = true) (hw : (s.core p).tc.walks = w :: rest)
    (hr : w.redo = false) (hwait : (s.core p).waitingTxn w.va w.write = some (d, x)) {kind frame : Nat}
    (ha : (s.walkFor p w d).1 = .fault kind frame) :
    ∃ t, exec (.pageWalkComplete p) s = .next t ∧ (t.core p).tc = { (s.core p).tc with walks := rest } ∧
      (t.core p).str.reported = (s.core p).str.reported ++ [d.fault kind x.pos x.far false frame] := by
  rw [pageWalkComplete_ends hc hon hw hr hwait, ha]
  refine ⟨_, rfl, ?_, ?_⟩ <;> rw [State.strReport, State.core_modCore_self, State.core_walked]

end

/-- Settles O24: a walk leaves the cores alone, so that its end changes the cache, or the faults reported, of its core; and a cache that is
touched is a new first entry before at most 511 old ones. -/
theorem pageWalks : Obligations.PageWalks := by
  unfold Obligations.PageWalks
  refine ⟨fun s p c hcore hc hon => ⟨?_, ?_⟩, fun tc t => ?_⟩
  · subst hcore
    intro va write hn hnew hhalt hstop hwait
    refine ⟨_, pageWalk_starts hc hon hn hnew hhalt hstop hwait, ?_, fun q hq => ?_, countersMoved_count _ _ _⟩
    · rw [State.core_count, State.core_modCore_self]
    · rw [State.core_count, State.core_modCore, if_neg hq]
  · subst hcore
    intro w rest d x hw hr hwait
    refine ⟨fun e large wOk ha => ?_, fun kind frame ha => ?_⟩
    · obtain ⟨t, hexec, ht⟩ := pageWalkComplete_fills hc hon hw hr hwait ha
      exact ⟨t, hexec, by rw [ht]; rfl, by rw [ht]; rfl, by rw [ht]⟩
    · obtain ⟨t, hexec, ht, hreported⟩ := pageWalkComplete_faults hc hon hw hr hwait ha
      exact ⟨t, hexec, by rw [ht], by rw [ht], hreported⟩
  · exact ⟨tc.touch_length t, rfl, fun x => tc.mem_of_mem_touch t, tc.find_touch t⟩

end Sys2Proof.Machine
end

section
/-! PROOFS. Invalidations (09 R241). -/

namespace Sys2Proof.Machine

theorem exec_xlInvGo (value : W32) (s : State) : exec (.xlInvGo value) s = execXlInvGo value s := rfl
theorem exec_invalidationRun (s : State) : exec .invalidationRun s = execInvalidationRun s := rfl
theorem exec_invalidationComplete (s : State) : exec .invalidationComplete s = execInvalidationComplete s := rfl

/-! ### Translations that are dropped -/

/-- A core that the table of cores does not list is as at reset: its translation cache is empty. -/
theorem State.mem_keys_or_entries_nil (s : State) (q : Nat) : q ∈ Tab.keys s.cores ∨ (s.core q).tc.entries = [] := by
  cases h : Tab.find s.cores q with
  | some c => exact .inl (List.mem_map_of_mem (Tab.mem_of_find h))
  | none =>
    refine .inr ?_
    rw [State.core, h, Option.getD_none, coreAtReset]
    split <;> rfl

section
variable (s : State) (v : Inv)

@[simp] theorem State.invCore_walker (p : Nat) : (s.invCore v p).walker = s.walker := by
  unfold State.invCore
  dsimp only
  split <;> rfl

@[simp] theorem State.invCore_hbm (p : Nat) : (s.invCore v p).hbm = s.hbm := by
  unfold State.invCore
  dsimp only
  split <;> rfl

/-- Core p keeps the entries that do not match, and every other core keeps its own. -/
theorem State.entries_invCore (p q : Nat) : ((s.invCore v p).core q).tc.entries =
    if q = p then (s.core p).tc.entries.filter (fun t => !v.hitsTc t) else (s.core q).tc.entries := by
  unfold State.invCore
  dsimp only
  by_cases hnone : ((s.core p).tc.entries.filter fun t => v.hitsTc t).length = 0
  · have hall : (s.core p).tc.entries.filter (fun t => !v.hitsTc t) = (s.core p).tc.entries :=
      List.filter_eq_self.2 fun t ht => by
        simpa using List.filter_eq_nil_iff.1 (List.length_eq_zero_iff.1 hnone) t ht
    rw [if_pos hnone, hall]
    split
    · next hq => rw [hq]
    · rfl
  · rw [if_neg hnone, State.core_count, State.core_modCore]
    split <;> rfl

end

/-- Core by core, the matching entries of the listed cores go. -/
theorem State.mem_foldl_invCore (v : Inv) (ks : List Nat) (s : State) (q : Nat) (x : TcEntry) :
    x ∈ ((ks.foldl (fun s p => s.invCore v p) s).core q).tc.entries ↔
      x ∈ (s.core q).tc.entries ∧ (q ∈ ks → v.hitsTc x = false) := by
  induction ks generalizing s with
  | nil => simp
  | cons p ks ih =>
    rw [List.foldl_cons, ih, State.entries_invCore]
    by_cases hq : q = p
    · subst hq
      rw [if_pos rfl, List.mem_filter, Bool.not_eq_true']
      exact ⟨fun ⟨⟨hx, hmiss⟩, _⟩ => ⟨hx, fun _ => hmiss⟩,
        fun ⟨hx, hmiss⟩ => ⟨⟨hx, hmiss List.mem_cons_self⟩, fun _ => hmiss List.mem_cons_self⟩⟩
    · simp [hq]

/-- The cores' part of an invalidation touches neither the walker nor HBM. -/
theorem State.foldl_invCore_frame (v : Inv) (ks : List Nat) (s : State) :
    (ks.foldl (fun s p => s.invCore v p) s).walker = s.walker ∧ (ks.foldl (fun s p => s.invCore v p) s).hbm = s.hbm :=
  List.foldlRecOn (motive := fun t : State => t.walker = s.walker ∧ t.hbm = s.hbm) ks _ ⟨rfl, rfl⟩ fun t ⟨hwalker, hhbm⟩ p _ =>
    ⟨(t.invCore_walker v p).trans hwalker, (t.invCore_hbm v p).trans hhbm⟩

section
variable (s : State) (v : Inv)

/-- A core's cache keeps what the invalidation does not match. -/
theorem State.mem_entries_invApply (q : Nat) (x : TcEntry) :
    x ∈ ((s.invApply v).core q).tc.entries ↔ x ∈ (s.core q).tc.entries ∧ v.hitsTc x = false := by
  refine (State.mem_foldl_invCore v (Tab.keys s.cores) s q x).trans (and_congr_right fun hx => ?_)
  rcases s.mem_keys_or_entries_nil q with hq | hnil
  · exact ⟨fun h => h hq, fun h _ => h⟩
  · rw [hnil] at hx
    exact absurd hx List.not_mem_nil

/-- The walker's cache keeps what the invalidation does not match. -/
theorem State.invApply_walker : ∃ pinned, (s.invApply v).walker =
    { s.walker with cache := s.walker.cache.filter (fun x => !v.hitsWalker x.1 x.2), pinned := pinned } := by
  obtain ⟨hwalker, -⟩ := State.foldl_invCore_frame v (Tab.keys s.cores) s
  unfold State.invApply
  dsimp only
  rw [hwalker]
  exact ⟨_, rfl⟩

@[simp] theorem State.invApply_hbm : (s.invApply v).hbm = s.hbm := (State.foldl_invCore_frame v (Tab.keys s.cores) s).2

end

/-! ### Walks that are discarded -/

/-- From s to t at most marks of walks in flight have changed. -/
structure MarksOnly (s t : State) : Prop where
  eq : t = { s with cores := t.cores }
  entries : ∀ q, (t.core q).tc.entries = (s.core q).tc.entries

theorem MarksOnly.walker {s t : State} (h : MarksOnly s t) : t.walker = s.walker := by rw [h.eq]

theorem MarksOnly.hbm {s t : State} (h : MarksOnly s t) : t.hbm = s.hbm := by rw [h.eq]

theorem State.invMark_marks (s : State) (v : Inv) (redo : Bool) : MarksOnly s (s.invMark v redo) := by
  refine List.foldlRecOn (motive := MarksOnly s) _ _ ⟨rfl, fun _ => rfl⟩ fun t ht p _ => ⟨?_, fun q => ?_⟩
  · rw [ht.eq]
    rfl
  · rw [← ht.entries, State.core_modCore]
    split
    · next hq => rw [hq]
    · rfl

/-! ### The three commands -/

/-- An invalidation that the PF asks for, as its registers name it (R247). -/
def Walker.asked (w : Walker) (value : W32) : Inv :=
  { scope := bits value.toNat 1 0, ctx := bits value.toNat 11 2, pages := w.invPages.toNat, page := w.invPage.toNat, source := .register }

section
variable {s : State}

/-- A write with go of a legal invalidation queues it and sets busy. -/
theorem xlInvGo_queues {value : W32} (hw : s.hostWaits = false) (hb : s.barOpen 0 = true) (hf : s.runsFree 249 = true)
    (hbusy : s.walker.invBusy = false) (hgo : bitAt value.toNat 12 = true)
    (hlegal : bits value.toNat 1 0 = 1 ∨ bits value.toNat 1 0 = 3 ∨ s.walker.invPages ≠ 0) :
    exec (.xlInvGo value) s = .next { s with walker := { s.walker with
      invScope := BitVec.ofNat 2 (bits value.toNat 1 0), invCtx := BitVec.ofNat 10 (bits value.toNat 11 2), invBusy := true,
      queue := s.walker.queue ++ [s.walker.asked value] } } := by
  have htaken : ¬ (!bitAt value.toNat 12 || (decide (bits value.toNat 1 0 = 0 ∨ bits value.toNat 1 0 = 2) &&
      decide (s.walker.invPages = 0))) = true := by
    rw [hgo]
    simp only [Bool.not_true, Bool.false_or, Bool.and_eq_true, decide_eq_true_eq, not_and]
    rintro (h | h) hpages <;> simp [h, hpages] at hlegal
  rw [exec_xlInvGo, execXlInvGo, State.hostTo_runs _ _ hw (State.runsFree_of_barOpen hb) (by simp [hf])]
  rw [if_neg (by simp [hb]), if_neg (by simp [hbusy])]
  dsimp only
  rw [if_neg htaken]
  rfl

/-- The oldest invalidation starts where none runs, and marks the walks that it discards. -/
theorem invalidationRun_starts {v : Inv} {rest : List Inv} (hon : s.islandOn 249 = true) (hr : s.walker.running = none)
    (hq : s.walker.queue = v :: rest) : exec .invalidationRun s =
      .next ({ s with walker := { s.walker with running := some v, queue := rest } }.invMark v true) := by
  rw [exec_invalidationRun, execInvalidationRun, hr, hq]
  dsimp only
  rw [if_pos hon]

/-- The invalidation that runs ends. -/
theorem invalidationComplete_ends {v : Inv} (hon : s.islandOn 249 = true) (hr : s.walker.running = some v) :
    exec .invalidationComplete s = .next ({ s with walker := { s.walker with running := none } }.invEnd v) := by
  rw [exec_invalidationComplete, execInvalidationComplete, hr]
  dsimp only
  rw [if_neg (by simp [hon])]

/-- The end of an invalidation of the PF's register: its entries are dropped, the discarded walks go on, and busy is clear. -/
theorem State.invEnd_register {v : Inv} (hv : v.source = .register) (s : State) : s.invEnd v =
    { (s.invApply v).invMark v false with walker := { ((s.invApply v).invMark v false).walker with invBusy := false } } := by
  rw [State.invEnd, hv]

end

/-- Settles O25: go queues an invalidation; its start marks walks alone; its end filters the caches, core by core. -/
theorem invalidations : Obligations.Invalidations := by
  unfold Obligations.Invalidations
  intro s
  refine ⟨fun value hw hb hf hbusy hgo hlegal => ?_, fun hon => ⟨fun v rest hr hq => ?_, fun v hr hsource => ?_⟩⟩
  · exact ⟨_, xlInvGo_queues hw hb hf hbusy hgo hlegal, rfl, rfl, rfl⟩
  · have hmarks := State.invMark_marks { s with walker := { s.walker with running := some v, queue := rest } } v true
    exact ⟨_, invalidationRun_starts hon hr hq, hmarks.walker, hmarks.entries⟩
  · generalize hidle : ({ s with walker := { s.walker with running := none } } : State) = u
    have hmarks := (u.invApply v).invMark_marks v false
    obtain ⟨pinned, hwalker⟩ := u.invApply_walker v
    rw [← hmarks.walker] at hwalker
    have hcore (q : Nat) : u.core q = s.core q := by rw [← hidle]; rfl
    refine ⟨_, invalidationComplete_ends hon hr, ?_⟩
    rw [hidle, State.invEnd_register hsource, hwalker]
    refine ⟨?_, rfl, fun q x => ?_, ?_, ?_⟩
    · rw [← hidle]
    · rw [← hcore, ← State.mem_entries_invApply, ← hmarks.entries]
      rfl
    · rw [← hidle]
    · exact (hmarks.hbm.trans (u.invApply_hbm v)).trans (by rw [← hidle])

end Sys2Proof.Machine
end

section
/-! PROOFS. Copy-on-write halts (08 R221; 09 R245). -/

namespace Sys2Proof.Machine

theorem exec_cowResolve (p : Nat) (s : State) : exec (.cowResolve p) s = execCowResolve p s := rfl

/-! ### The leaf that names the writer's frame (09 R238, R245) -/

/-- The parts of a moved leaf: only the frame and the copy-on-write bit are new. -/
theorem leafMoved_parts (e : W64) {f : Nat} (hf : f < 2 ^ 32) :
    (leafMoved e f).toNat % 8 = e.toNat % 8 ∧ (leafMoved e f).toNat / 8 % 2 = 0 ∧
    (leafMoved e f).toNat / 16 % 4096 = e.toNat / 16 % 4096 ∧ (leafMoved e f).toNat / 65536 % 2 ^ 32 = f ∧
    (leafMoved e f).toNat / 2 ^ 48 = e.toNat / 2 ^ 48 := by
  have he := e.isLt
  have hcow : boolNat (pteCow e) = e.toNat / 8 % 2 := by
    rcases Nat.mod_two_eq_zero_or_one (e.toNat / 8) with h | h <;> simp [pteCow, bitAt, boolNat, h]
  have hframe : pteFrame e = e.toNat / 65536 % 2 ^ 32 := rfl
  have hhigh : e.toNat / 65536 / 2 ^ 32 = e.toNat / 2 ^ 48 := Nat.div_div_eq_div_mul _ _ _
  have hmoved : (leafMoved e f).toNat = e.toNat % 65536 - 8 * (e.toNat / 8 % 2) + 65536 * f + 2 ^ 48 * (e.toNat / 2 ^ 48) := by
    rw [leafMoved, hcow, hframe, BitVec.toNat_ofNat]
    omega
  omega

section
variable (e : W64) {f : Nat} (hf : f < 2 ^ 32)
include hf

theorem pteFrame_leafMoved : pteFrame (leafMoved e f) = f := by
  obtain ⟨-, -, -, hframe, -⟩ := leafMoved_parts e hf
  exact hframe

theorem pteCow_leafMoved : pteCow (leafMoved e f) = false := by
  obtain ⟨-, hcow, -, -, -⟩ := leafMoved_parts e hf
  exact decide_eq_false (by omega)

/-- The bits below the copy-on-write bit stay. -/
theorem bitAt_leafMoved_below {i : Nat} (hi : i < 3) : bitAt (leafMoved e f).toNat i = bitAt e.toNat i := by
  obtain ⟨hlow, -, -, -, -⟩ := leafMoved_parts e hf
  refine decide_eq_decide.2 ?_
  interval_cases i <;> omega

/-- The bits between the copy-on-write bit and the frame stay. -/
theorem bitAt_leafMoved_permission {i : Nat} (hi : i = 4 ∨ i = 5) : bitAt (leafMoved e f).toNat i = bitAt e.toNat i := by
  obtain ⟨-, -, hmid, -, -⟩ := leafMoved_parts e hf
  refine decide_eq_decide.2 ?_
  rcases hi with rfl | rfl <;> omega

/-- The fields above the frame stay. -/
theorem bits_leafMoved_above {hi lo : Nat} (hlo : 48 ≤ lo) : bits (leafMoved e f).toNat hi lo = bits e.toNat hi lo := by
  obtain ⟨-, -, -, -, hhigh⟩ := leafMoved_parts e hf
  obtain ⟨k, rfl⟩ := Nat.exists_eq_add_of_le hlo
  rw [bits, bits, pow_add, ← Nat.div_div_eq_div_mul, ← Nat.div_div_eq_div_mul, hhigh]

end

/-! ### The repair -/

/-- A store that is halted for a copy-on-write page, and the leaf that stands at the position of its large page: still the one that was
read at the fault, with its copy-on-write bit. -/
structure State.CowHalt (s : State) (p off : Nat) (e : W64) (s1 : State) : Prop where
  mem : s.cmdMem (s.core p).panel = true
  core : p < 160
  halted : (s.core p).str.halted = true
  kind : (s.core p).str.fault.kind = 2
  handled : (s.core p).str.handled = false
  pos : s.leafPos (s.cmdUse (s.core p).ctx) (s.core p).root (s.core p).str.fault.addr true = (.pos off e, s1)
  valid : pteValid e = true
  leaf : pteLeaf e = true
  cow : pteCow e = true
  frame : pteFrame e = (s.core p).str.fault.frame

/-- What a halt comes to turns on the count of its frame. -/
theorem State.CowHalt.resolves {s s1 : State} {p off : Nat} {e : W64} (h : s.CowHalt p off e s1) {n : Nat × State}
    (hn : n = s1.boardCount (s.cmdUse (s.core p).ctx) (s.core p).ctx (pteFrame e)) :
    exec (.cowResolve p) s = if n.1 = 1 then .next (n.2.repaired p) else .next (n.2.cowCopy p off e true) := by
  have hruns : ¬ (!(s.cmdMem (s.core p).panel && decide (p < 160) && (s.core p).str.halted &&
      decide ((s.core p).str.fault.kind = 2) && !(s.core p).str.handled)) = true := by
    simp [h.mem, h.core, h.halted, h.kind, h.handled]
  have hleaf : (pteValid e && pteLeaf e) = true := by rw [h.valid, h.leaf]; rfl
  have hsame : ¬ (pteFrame e ≠ (s.core p).str.fault.frame ∨ pteCow e = false) := by simp [h.frame, h.cow]
  rw [exec_cowResolve, execCowResolve]
  dsimp only
  rw [if_neg hruns]
  simp only [h.pos, if_pos hleaf, if_neg hsame, hn]

/-- The copy of a large page into a frame of the pool, from the leaf's write to the retry. -/
theorem State.cowCopy_copies {s s2 s3 : State} {p off f : Nat} {e : W64}
    (hpool : s.takePool (s.core p).ctx true = (some f, s2))
    (hcopy : s2.copyPage (s.core p).ctx (pteFrame e * 65536) (f * 65536) (pteSlot e) (pageBytes true) = (true, s3)) :
    let cx := (s.core p).ctx
    let u := s3.cmdUse cx
    let mapped := ((s3.writePte u off (leafMoved e f)).setBoardCount u cx f 1).lowerCount u cx (pteFrame e)
    let charged := (mapped.charge cx 32 (pageBytes true)).charge cx 40 (pageBytes true)
    s.cowCopy p off e true = (((charged.count (xlReg 0x110) 1).invNow 0 cx 32
      ((s.core p).str.fault.addr / pageBytes true * 32))).repaired p := by
  intro cx u mapped charged
  rw [State.cowCopy]
  dsimp only
  rw [hpool]
  dsimp only
  rw [hcopy]
  rfl

/-- Settles O26: a halt whose leaf is unchanged turns on the count; a copy runs its writes in their order; the retry waits for writes to
board peers; and the moved leaf is the old one in every field but two. -/
theorem copyOnWriteResolves : Obligations.CopyOnWriteResolves := by
  unfold Obligations.CopyOnWriteResolves
  refine ⟨?_, ?_, ?_⟩
  · intro s p off e c s1 hc hmem hp hhalt hkind hhandled hpos hv hl hcow hframe
    subst hc
    have hresolves := State.CowHalt.resolves ⟨hmem, hp, hhalt, hkind, hhandled, hpos, hv, hl, hcow, hframe⟩ rfl
    refine ⟨fun hone => ?_, fun hmore => ?_, fun f s2 s3 hpool hcopy => State.cowCopy_copies hpool hcopy⟩
    · rw [hresolves, if_pos hone]
    · rw [hresolves, if_neg hmore]
  · intro s p
    refine ⟨fun hvisible => ?_, fun hwaits => ?_⟩
    · rw [State.repaired, hvisible, if_neg Bool.false_ne_true]
    · rw [State.repaired, hwaits, if_pos rfl]
  · intro e f hf
    have hbelow {i : Nat} (hi : i < 3) := bitAt_leafMoved_below e hf hi
    exact ⟨pteFrame_leafMoved e hf, pteCow_leafMoved e hf, hbelow (by decide), hbelow (by decide), hbelow (by decide),
      bitAt_leafMoved_permission e hf (.inl rfl), bitAt_leafMoved_permission e hf (.inr rfl), bits_leafMoved_above e hf (by decide),
      bits_leafMoved_above e hf (by decide)⟩

end Sys2Proof.Machine
end

section
/-! PROOFS. Frames that retire (09 R233). -/

namespace Sys2Proof.Machine

theorem exec_frameRetire (f : Nat) (s : State) : exec (.frameRetire f) s = execFrameRetire f s := rfl

/-- A frame that is due is remapped while its channel set has a reserve frame left. -/
theorem frameRetire_remaps {s : State} {f : Nat} (hon : s.islandOn (224 + stackOf (f * 65536)) = true) (hf : f < hbmSize / 65536)
    (hdue : s.retireDue f = true) (hleft : s.reserveUsed (f / 32 % 16) < 16384) :
    exec (.frameRetire f) s = .next (s.remapFrame f) := by
  rw [exec_frameRetire, execFrameRetire, if_neg (by simp [hon, hf, hdue]), if_pos hleft]

/-- A remapped frame takes the next reserve frame of its set, and its corrected words are forgotten. -/
theorem State.remapFrame_hbm (s : State) (f : Nat) : (s.remapFrame f).hbm = { s.hbm with
    remap := Tab.set s.hbm.remap f (s.reserveUsed (f / 32 % 16))
    reserve := Tab.set s.hbm.reserve (f / 32 % 16) (s.reserveUsed (f / 32 % 16) + 1)
    corrected := Tab.erase s.hbm.corrected f } := rfl

/-- The log takes E_HBM_RETIRED, as it would without the move. -/
theorem State.remapFrame_mgt (s : State) (f : Nat) : (s.remapFrame f).mgt = (s.event 0x2001).mgt := rfl

/-- Settles O27: a frame that is due is remapped, which writes two tables of HBM and the log. -/
theorem framesRetire : Obligations.FramesRetire := by
  unfold Obligations.FramesRetire
  intro s f hon hf hdue hleft
  refine ⟨s.remapFrame f, frameRetire_remaps hon hf hdue hleft, ?_, ?_, ?_, ?_, ?_, ?_, (s.remapFrame_only f).cores⟩
  · rw [State.remapFrame_hbm, Tab.find_set_self]
  · rw [State.reserveUsed, State.remapFrame_hbm, Tab.get_set_self]
  · rw [State.remapFrame_hbm]
  · rw [State.remapFrame_hbm]
  · intro g hg
    rw [State.remapFrame_hbm, Tab.find_set_of_ne _ _ hg]
  · rw [State.remapFrame_mgt]

end Sys2Proof.Machine
end

section
/-! PROOFS. The accesses of memory on behalf of a context leave the selectors as they are (08 R222, 09 R236, R239; 14 R366 to R368):
none of them writes a request page's slots as triggers, which are commands of their own. -/

namespace Sys2Proof.Machine

/-- A selector is what the table of selectors lists. -/
theorem State.selector_of_kvs {s t : State} (h : t.kvs = s.kvs) (k : Nat) : t.selector k = s.selector k := by
  rw [State.selector, h, State.selector]

section
variable (s : State)

@[simp] theorem State.drawBytes_kvs (n : Nat) : (s.drawBytes n).2.kvs = s.kvs := rfl

@[simp] theorem State.hbmRead_kvs (off n : Nat) (r : HReq) : (s.hbmRead off n r).2.kvs = s.kvs := (s.hbmRead_only off n r).kvs

@[simp] theorem State.hbmWrite_kvs (off : Nat) (bs : List Byte) (r : HReq) : (s.hbmWrite off bs r).kvs = s.kvs :=
  (s.hbmWrite_only off bs r).kvs

/-! ### Messages to board peers (09 R236; 14 R366 to R368) -/

@[simp] theorem State.pumpPort_kvs (fuel port : Nat) : (State.pumpPort fuel port s).kvs = s.kvs := by
  induction fuel generalizing s with
  | zero => rfl
  | succ fuel ih =>
    unfold State.pumpPort
    dsimp only
    split
    · rfl
    · split
      · rfl
      · exact ih _

@[simp] theorem State.launch_kvs (h : MsgHdr) (data : List Byte) (port : Nat) : (s.launch h data port).kvs = s.kvs :=
  State.pumpPort_kvs _ _ _

@[simp] theorem State.shape_kvs (h : MsgHdr) (n : Nat) : (s.shape h n).kvs = s.kvs := by
  unfold State.shape
  split <;> rfl

@[simp] theorem State.sendMsg_kvs (h : MsgHdr) (data : List Byte) (owner : Option (Nat × Nat)) (coll : Option Nat) :
    (s.sendMsg h data owner coll).2.kvs = s.kvs := by
  unfold State.sendMsg
  dsimp only
  split
  · rfl
  · split_ifs <;> simp

@[simp] theorem State.countWait_kvs (k : Nat) (since : Option Nat) : (s.countWait k since).kvs = s.kvs := by
  unfold State.countWait
  split <;> rfl

@[simp] theorem State.chargeSent_kvs (h : MsgHdr) (n : Nat) : (s.chargeSent h n).kvs = s.kvs := by
  unfold State.chargeSent
  split <;> rfl

@[simp] theorem State.sendOrWait_kvs (h : MsgHdr) (data : List Byte) (owner : Option (Nat × Nat)) (coll since : Option Nat) :
    (s.sendOrWait h data owner coll since).kvs = s.kvs := by
  have hsend := s.sendMsg_kvs (s.inClass h data.length).1 data owner coll
  unfold State.sendOrWait
  dsimp only
  split
  · split <;> simp
  all_goals exact hsend

@[simp] theorem State.peerRequest_kvs (ctx slot keySlot : Nat) (gen : BitVec 8) (write : Bool) (addr n : Nat) (data : List Byte) :
    (s.peerRequest ctx slot keySlot gen write addr n data).kvs = s.kvs :=
  List.foldlRecOn (motive := fun t : State => t.kvs = s.kvs) _ _ rfl fun t ht _ _ => (t.sendOrWait_kvs _ _ _ _ _).trans ht

@[simp] theorem State.peerAnswer_kvs : s.peerAnswer.2.kvs = s.kvs := rfl

@[simp] theorem State.askPeer_kvs (ctx keySlot addr : Nat) (write : Bool) (n : Nat) (data : List Byte) :
    (s.askPeer ctx keySlot addr write n data).kvs = s.kvs := State.peerRequest_kvs _ _ _ _ _ _ _ _ _

@[simp] theorem State.readPeer_kvs (ctx keySlot addr n : Nat) : (s.readPeer ctx keySlot addr n).2.kvs = s.kvs := by
  unfold State.readPeer
  dsimp only
  split <;> simp

/-! ### The walk (09 R239) -/

@[simp] theorem State.readPte_kvs (u : Use) (table idx : Nat) : (s.readPte u table idx).2.kvs = s.kvs := by
  unfold State.readPte
  split
  · rfl
  · dsimp only
    split
    · rfl
    · split <;> exact s.hbmRead_kvs _ _ _

@[simp] theorem State.walkerPin_kvs (key : Nat × Nat × Nat) : (s.walkerPin key).kvs = s.kvs := by
  unfold State.walkerPin
  dsimp only
  split <;> rfl

@[simp] theorem State.walkerKeep_kvs (key : Nat × Nat × Nat) (e : W64) : (s.walkerKeep key e).kvs = s.kvs := by
  unfold State.walkerKeep
  split
  · rfl
  · dsimp only
    split <;> rfl

@[simp] theorem State.walkerPinBoth_kvs (ctx va : Nat) : (s.walkerPinBoth ctx va).kvs = s.kvs := by
  unfold State.walkerPinBoth
  dsimp only
  split <;> simp

@[simp] theorem State.cachedPte_kvs (u : Use) (cached pin : Bool) (ctx level va table : Nat) :
    (s.cachedPte u cached pin ctx level va table).2.kvs = s.kvs := by
  unfold State.cachedPte
  dsimp only
  split
  · split <;> simp
  · split
    · split_ifs <;> simp
    · simp

@[simp] theorem State.leafFrom2_kvs (u : Use) (va : Nat) (e2 : W64) : (s.leafFrom2 u va e2).2.kvs = s.kvs := by
  unfold State.leafFrom2
  dsimp only
  split_ifs
  · rfl
  · rfl
  · rfl
  · split
    · simp
    · split_ifs <;> simp

@[simp] theorem State.findLeaf_kvs (u : Use) (cached pin : Bool) (ctx root va : Nat) :
    (s.findLeaf u cached pin ctx root va).2.kvs = s.kvs := by
  unfold State.findLeaf
  dsimp only
  split
  · rfl
  · split
    · rfl
    · split
      · split <;> simp
      · split
        · simp
        · split_ifs
          · simp
          · simp
          · split <;> simp

@[simp] theorem State.boardCount_kvs (u : Use) (ctx frame : Nat) : (s.boardCount u ctx frame).2.kvs = s.kvs := by
  unfold State.boardCount
  split
  · exact s.hbmRead_kvs _ _ _
  · simp

@[simp] theorem State.checkLeaf_kvs (u : Use) (ctx : Nat) (e : W64) (large : Bool) (tenant setMask : Nat) (write : Bool) :
    (s.checkLeaf u ctx e large tenant setMask write).2.kvs = s.kvs := by
  unfold State.checkLeaf
  dsimp only
  split_ifs <;> simp

@[simp] theorem State.walk_kvs (u : Use) (pin : Bool) (ctx root tenant setMask va : Nat) (write : Bool) :
    (s.walk u pin ctx root tenant setMask va write).2.kvs = s.kvs := by
  have hfind := s.findLeaf_kvs u true pin ctx root va
  unfold State.walk
  generalize s.findLeaf u true pin ctx root va = found at hfind ⊢
  obtain ⟨answer, t⟩ := found
  cases answer with
  | fault kind frame => exact hfind
  | leaf e large wOk =>
    dsimp only
    split <;> simpa using hfind

@[simp] theorem State.walkBy_kvs (g : Agent) (ctx va : Nat) (write : Bool) : (s.walkBy g ctx va write).2.kvs = s.kvs := by
  unfold State.walkBy
  dsimp only
  split
  · simp
  · split
    · simp
    · split <;> simp

/-! ### Reads and writes at a virtual address -/

@[simp] theorem State.readVa1_kvs (g : Agent) (ctx va n : Nat) : (s.readVa1 g ctx va n).2.kvs = s.kvs := by
  unfold State.readVa1
  dsimp only
  split
  · simp
  · simp
  · split <;> simp

@[simp] theorem State.readBy_kvs (g : Agent) (ctx va n : Nat) : (s.readBy g ctx va n).2.kvs = s.kvs := by
  unfold State.readBy
  induction pagePieces va n generalizing s with
  | nil => rfl
  | cons p rest ih =>
    unfold State.readPieces
    dsimp only
    split
    · split <;> simp [ih]
    · simp

@[simp] theorem State.writeBy_kvs (g : Agent) (ctx va : Nat) (bs : List Byte) : (s.writeBy g ctx va bs).2.kvs = s.kvs := by
  refine List.foldlRecOn (motive := fun a : Bool × State => a.2.kvs = s.kvs) _ _ rfl fun a ha p _ => ?_
  dsimp only
  split <;> simpa using ha

@[simp] theorem State.rangeKind_kvs (g : Agent) (ctx va n : Nat) (write : Bool) : (s.rangeKind g ctx va n write).2.kvs = s.kvs := by
  refine List.foldlRecOn (motive := fun a : Nat × State => a.2.kvs = s.kvs) _ _ rfl fun a ha p _ => ?_
  dsimp only
  split
  · exact ha
  · split <;> simpa using ha

end

end Sys2Proof.Machine
end

section
/-! PROOFS. Triggers, capture and delivery of the KV page selectors (10 R255, R257, R262). -/

namespace Sys2Proof.Machine

theorem exec_kvsTrigger (offset : Nat) (s : State) : exec (.kvsTrigger offset) s = execKvsTrigger offset s := rfl
theorem exec_kvsCapture (sel : Nat) (s : State) : exec (.kvsCapture sel) s = execKvsCapture sel s := rfl
theorem exec_kvsResultDeliver (sel index : Nat) (s : State) :
    exec (.kvsResultDeliver sel index) s = execKvsResultDeliver sel index s := rfl

/-! ### Capture (R257) -/

/-- From request `r` at state s a request was worked out that has its registration, its slot and its header; the selectors are as they
were. -/
structure WorkedOut (r : KvsReq) (s : State) (x : KvsReq × State) : Prop where
  reg : x.1.reg = r.reg
  slot : x.1.slot = r.slot
  header : x.1.header = r.header
  kvs : x.2.kvs = s.kvs

section
variable {s t : State} {r : KvsReq}

theorem State.failedReq_workedOut (h : t.kvs = s.kvs) (f : CtxFields) (status : Half) : WorkedOut r s (t.failedReq r f status) :=
  ⟨rfl, rfl, rfl, h⟩

@[simp] theorem State.readRecords_kvs (s : State) (ctx dir size : Nat) (is : List Nat) :
    (s.readRecords ctx dir size is).2.2.kvs = s.kvs := by
  induction is generalizing s with
  | nil => rfl
  | cons i rest ih =>
    unfold State.readRecords
    dsimp only
    split
    · simp
    · simp
    · split <;> simp [ih]

@[simp] theorem State.countScored_kvs (s : State) (ks : List KvsRecord) : (s.countScored ks).kvs = s.kvs :=
  List.foldlRecOn (motive := fun t : State => t.kvs = s.kvs) _ _ rfl fun _ ht _ _ => ht

theorem WorkedOut.of_kvs {x : KvsReq × State} (w : WorkedOut r t x) (h : t.kvs = s.kvs) : WorkedOut r s x :=
  { w with kvs := w.kvs.trans h }

theorem WorkedOut.ite {c : Prop} [Decidable c] {x y : KvsReq × State} (hx : WorkedOut r s x) (hy : WorkedOut r s y) :
    WorkedOut r s (if c then x else y) := by
  split
  · exact hx
  · exact hy

theorem State.kvSelect_workedOut (h : Nat) (f : CtxFields) : WorkedOut r s (s.kvSelect h r f) :=
  .ite (State.failedReq_workedOut (by simp) f _) (.ite (State.failedReq_workedOut (by simp) f _) ⟨rfl, rfl, rfl, by simp⟩)

theorem State.kvSeal_workedOut (h : Nat) (f : CtxFields) : WorkedOut r s (s.kvSeal h r f) :=
  .ite (State.failedReq_workedOut (by simp) f _) (.ite (State.failedReq_workedOut (by simp) f _)
    (.ite (State.failedReq_workedOut (by simp) f _) ⟨rfl, rfl, rfl, by simp⟩))

end

/-- The header that a trigger's slot holds (R255, R257). -/
def State.kvHeader (s : State) (g : KvsReg) (slot : Nat) : List Byte :=
  (s.hbmRead (g.frame * 2097152 + slot * 8192) 64 (s.hreq g.keySlot 0)).1.bytesOr 64

/-- A request that was worked out goes in flight, and the selectors are otherwise as they were. -/
theorem WorkedOut.captured {s : State} {r : KvsReq} {x : KvsReq × State} (w : WorkedOut r s x) (h : Nat) :
    ∃ r' : KvsReq, r'.reg = r.reg ∧ r'.slot = r.slot ∧ r'.header = r.header ∧
      (x.2.modSelector h fun l => { l with flight := l.flight ++ [x.1] }).kvs =
        (s.modSelector h fun l => { l with flight := l.flight ++ [r'] }).kvs :=
  ⟨x.1, w.reg, w.slot, w.header, by rw [State.modSelector, State.modSelector, w.kvs]⟩

/-- A capture puts one request in flight, of the trigger's registration and slot and with the header found there. -/
theorem State.kvCapture_kvs (s : State) (h : Nat) (g : KvsReg) (slot : Nat) :
    ∃ r : KvsReq, r.reg = g ∧ r.slot = slot ∧ r.header = s.kvHeader g slot ∧
      (s.kvCapture h g slot).kvs = (s.modSelector h fun l => { l with flight := l.flight ++ [r] }).kvs := by
  have hread := s.hbmRead_kvs (g.frame * 2097152 + slot * 8192) 64 (s.hreq g.keySlot 0)
  unfold State.kvCapture State.kvHeader
  dsimp only
  -- The reads of the header and of the query vectors count only by their answers and by leaving the selectors alone.
  generalize s.hbmRead (g.frame * 2097152 + slot * 8192) 64 (s.hreq g.keySlot 0) = hd at hread ⊢
  generalize (if fieldAt (hd.1.bytesOr 64) 0 1 % 4 = 1 then _ else 0) = qn
  have hquery := (hd.2.hbmRead_kvs (g.frame * 2097152 + slot * 8192 + 64) qn (s.hreq g.keySlot 0)).trans hread
  generalize hd.2.hbmRead (g.frame * 2097152 + slot * 8192 + 64) qn (s.hreq g.keySlot 0) = qs at hquery ⊢
  refine WorkedOut.captured (r := { reg := g, slot := slot, header := hd.1.bytesOr 64, query := qs.1.bytesOr qn }) ?_ h
  refine .of_kvs (.ite (State.failedReq_workedOut rfl _ _) (.ite (State.failedReq_workedOut rfl _ _)
      (.ite (State.kvSelect_workedOut _ _) (State.kvSeal_workedOut _ _)))) ?_
  split
  · exact (State.modPanel_kvs _ _ _).trans ((State.count_kvs _ _ _).trans hquery)
  · exact hquery

/-- A capture appends its request to its selector's flight, and leaves the other selectors alone. -/
theorem State.kvCapture_captures (s : State) (h : Nat) (g : KvsReg) (slot : Nat) :
    ∃ r : KvsReq, r.reg = g ∧ r.slot = slot ∧ r.header = s.kvHeader g slot ∧
      (s.kvCapture h g slot).selector h = { s.selector h with flight := (s.selector h).flight ++ [r] } ∧
      ∀ k, k ≠ h → (s.kvCapture h g slot).selector k = s.selector k := by
  obtain ⟨r, hreg, hslot, hheader, hkvs⟩ := s.kvCapture_kvs h g slot
  refine ⟨r, hreg, hslot, hheader, ?_, fun k hk => ?_⟩
  · rw [State.selector_of_kvs hkvs, State.selector_modSelector, if_pos rfl]
  · rw [State.selector_of_kvs hkvs, State.selector_modSelector, if_neg hk]

/-! ### Triggers (R255, R257) -/

/-- A trigger of a slot of a registered page is looked at by the selector that homes it. -/
theorem kvsTrigger_eq {s : State} {offset : Nat} {g : KvsReg}
    (hreg : (s.selector (stackOf offset)).regs.find? (fun g => decide (g.frame = offset / 2097152)) = some g)
    (hon : s.islandOn (224 + stackOf offset) = true) (hoff : offset < hbmSize) (halign : offset % 8192 = 0)
    (hop : (Mem.read s.hbm.mem offset).toNat % 4 ≠ 0) :
    exec (.kvsTrigger offset) s = .next (
      if (s.selector (stackOf offset)).busy g (offset % 2097152 / 8192) then
        (s.count (kvsReg (stackOf offset) 0x128) 1).event 0x3802
      else if (s.selector (stackOf offset)).flight.length < 32 ∧ (s.selector (stackOf offset)).pending.isEmpty = true then
        s.kvCapture (stackOf offset) g (offset % 2097152 / 8192)
      else s.modSelector (stackOf offset) fun l => { l with pending := l.pending ++ [(g, offset % 2097152 / 8192)] }) := by
  rw [exec_kvsTrigger, execKvsTrigger]
  dsimp only
  rw [hreg]
  dsimp only
  rw [if_neg (by simp [hon, hoff, halign, hop])]
  split_ifs <;> rfl

/-- A waiting trigger leaves the queue and is captured. -/
theorem kvsCapture_eq {s : State} {h : Nat} {x : KvsReg × Nat} (hh : h < 8) (hon : s.islandOn (224 + h) = true)
    (hroom : (s.selector h).flight.length < 32) (hnext : (s.selector h).nextPending (fun g => decide (g.cls = 0)) = some x) :
    exec (.kvsCapture h) s =
      .next ((s.modSelector h fun l => { l with pending := l.pending.erase x }).kvCapture h x.1 x.2) := by
  rw [exec_kvsCapture, execKvsCapture, hnext]
  exact if_pos (by simp [hon, hh, hroom])

/-! ### Packets whose way is open (01 R33; R262) -/

/-- A packet goes the whole of its way at once where every router passes it on and its target takes it. -/
theorem State.netGo_open {s : State} {n : NetPkt} {path : List Nat} (hpath : path.all (s.passes n.pkt.cls) = true)
    (hc : s.clocked n.dst = true) (hf : (s.fifo n.dst).isEmpty = true) (last : Nat) :
    s.netGo path last n = s.incoming n.dst n.pkt false := by
  induction path generalizing last with
  | nil => rw [State.netGo, State.netArrive, hc, hf, Bool.and_self, if_pos rfl]
  | cons p rest ih =>
    rw [List.all_cons, Bool.and_eq_true] at hpath
    rw [State.netGo, if_pos hpath.1, ih hpath.2]

theorem State.netSend_open {s : State} {p : Nat} {k : WritePkt} (h : s.netClear k.src p k.cls = true) :
    s.netSend p k = s.incoming p k false := by
  simp only [State.netClear, Bool.and_eq_true] at h
  obtain ⟨⟨hpath, hc⟩, hf⟩ := h
  exact State.netGo_open hpath hc hf _

/-- Whether a way is open is for the clocks, the pins and the routers to say. -/
theorem State.netClear_of_eq {s t : State} (hclk : t.clk = s.clk) (hpins : t.pins = s.pins) (hnet : t.net = s.net) (src : NetPort)
    (dst cls : Nat) : t.netClear src dst cls = s.netClear src dst cls := by
  have hpass : t.passes cls = s.passes cls := by
    funext p
    simp only [State.passes, State.routerOn, State.islandOn, State.netBuf, hclk, hpins, hnet]
  simp only [State.netClear, hpass, State.clocked, State.fifo, hclk, hpins]

/-! ### The bytes of a result (R262) -/

/-- A range of a slice may be reached where it lies in the slice and the tile of each of its bytes is on. -/
theorem Slice.rangeOn_iff (sl : Slice) (off n : Nat) :
    sl.rangeOn off n = true ↔ off + n ≤ 0x200000 ∧ ∀ a, off ≤ a → a < off + n → sl.tileIsOn (a / 65536) = true := by
  rcases Nat.eq_zero_or_pos n with rfl | hn
  · simp [Slice.rangeOn]
    omega
  · simp only [Slice.rangeOn, Bool.and_eq_true, decide_eq_true_eq, Bool.or_eq_true, List.all_eq_true, List.mem_range, hn.ne', false_or]
    refine and_congr_right fun _ => ⟨fun h a ha hb => ?_, fun h i hi => ?_⟩
    · have := h (a / 65536 - off / 65536) (by omega)
      rwa [show off / 65536 + (a / 65536 - off / 65536) = a / 65536 by omega] at this
    · have := h (max off ((off / 65536 + i) * 65536)) (by omega) (by omega)
      rwa [show max off ((off / 65536 + i) * 65536) / 65536 = off / 65536 + i by omega] at this

/-- A part of a range that may be reached may be reached. -/
theorem Slice.rangeOn_part {sl : Slice} {off n a m : Nat} (h : sl.rangeOn off n = true) (ha : off ≤ a) (hm : a + m ≤ off + n) :
    sl.rangeOn a m = true := by
  obtain ⟨hin, hon⟩ := (sl.rangeOn_iff off n).1 h
  exact (sl.rangeOn_iff a m).2 ⟨by omega, fun b hb hb' => hon b (by omega) (by omega)⟩

/-- Bytes written in two parts, one behind the other. -/
theorem Mem.writeN_append (m : Mem) (a : Nat) (xs ys : List Byte) :
    Mem.writeN m a (xs ++ ys) = Mem.writeN (Mem.writeN m a xs) (a + xs.length) ys := by
  induction xs generalizing m a with
  | nil => rfl
  | cons x xs ih =>
    rw [List.cons_append, Mem.writeN, Mem.writeN, ih, List.length_cons, Nat.add_assoc, Nat.add_comm 1]

/-- The cuts of a result, written in order, write the result. -/
theorem Mem.writeN_resultCuts {fuel : Nat} {bs : List Byte} (h : bs.length < fuel) (m : Mem) (a : Nat) :
    (resultCuts fuel a bs).foldl (fun m x => Mem.writeN m x.1 x.2) m = Mem.writeN m a bs := by
  induction fuel generalizing bs m a with
  | zero => omega
  | succ fuel ih =>
    rw [resultCuts]
    split
    · next he => rw [List.isEmpty_iff.1 he]; rfl
    · next he =>
      have hpos : 0 < bs.length := List.length_pos_iff.2 (by simpa using he)
      rw [List.foldl_cons, ih (by rw [List.length_drop]; omega)]
      rcases Nat.lt_or_ge bs.length 256 with hshort | hfull
      · rw [List.drop_of_length_le hshort.le, List.take_of_length_le hshort.le]
        rfl
      · conv_rhs => rw [← List.take_append_drop 256 bs, Mem.writeN_append, List.length_take, Nat.min_eq_left hfull]

/-- Each cut of a result is a part of it, and not empty. -/
theorem resultCuts_part {fuel a : Nat} {bs : List Byte} {x : Nat × List Byte} (hx : x ∈ resultCuts fuel a bs) :
    a ≤ x.1 ∧ 0 < x.2.length ∧ x.1 + x.2.length ≤ a + bs.length := by
  induction fuel generalizing a bs with
  | zero => exact (List.not_mem_nil hx).elim
  | succ fuel ih =>
    rw [resultCuts] at hx
    split at hx
    · exact (List.not_mem_nil hx).elim
    · next he =>
      have hpos : 0 < bs.length := List.length_pos_iff.2 (by simpa using he)
      rcases List.mem_cons.1 hx with rfl | hx
      · rw [List.length_take]
        omega
      · have hpart := ih hx
        rw [List.length_drop] at hpart
        omega

/-- A result that is not empty is cut into at least one part. -/
theorem resultCuts_ne_nil {a : Nat} {bs : List Byte} (h : bs ≠ []) (fuel : Nat) : resultCuts (fuel + 1) a bs ≠ [] := by
  rw [resultCuts, if_neg (by simpa using h)]
  exact List.cons_ne_nil _ _

/-! ### Delivery (R262) -/

/-- Slice p takes what a request sends: the way there is open, its context is resident, and the slice bears no secure mark. -/
structure TakesResult (s : State) (p : Nat) (r : KvsReq) : Prop where
  clear : s.netClear r.reg.port p r.reg.netCls = true
  ctx : r.reg.ctx < 1024
  resident : (s.core p).slice.resident = some (r.reg.ctx, r.reg.gen)
  unmarked : (s.core p).slice.secure = false

/-- The raise of a result's arrival counter, as the signal of an instruction; only the last packet carries it. -/
def KvsReq.raiseHdr (r : KvsReq) (p : Nat) (raise : Bool) : InsnHdr :=
  { core := p, signal := raise, signalCtr := BitVec.ofNat 8 (r.fld 28 1) }

/-- From s to t the parts `ps` of a request's result were written into slice p, its counter rose if there was a part, and no other
core and no selector changed. -/
structure Delivered (p : Nat) (r : KvsReq) (ps : List (Nat × List Byte)) (s t : State) : Prop where
  mem : (t.core p).slice.mem = ps.foldl (fun m x => Mem.writeN m x.1 x.2) (s.core p).slice.mem
  signal : signalled (r.raiseHdr p !ps.isEmpty) s t
  other : ∀ q, q ≠ p → t.core q = s.core q
  kvs : t.kvs = s.kvs

section
variable {s : State} {p : Nat} {r : KvsReq}

/-- The state after a packet of a result was committed. -/
def State.takesPacket (s : State) (p : Nat) (k : WritePkt) : State :=
  ((s.commits p k).signal (Machine.raiseHdr k p)).emit (.write k p false false false)

/-- A packet of a result is committed at once. -/
theorem TakesResult.netSend (h : TakesResult s p r) {x : Nat × List Byte} (hon : (s.core p).slice.rangeOn x.1 x.2.length = true)
    (last : Bool) : s.netSend p (r.packet x last) = s.takesPacket p (r.packet x last) := by
  have hctx : (BitVec.ofNat 10 r.reg.ctx).toNat = r.reg.ctx := by
    rw [BitVec.toNat_ofNat, Nat.mod_eq_of_lt h.ctx]
  refine (State.netSend_open (k := r.packet x last) h.clear).trans (State.incoming_committed ?_ ?_ hon)
  · exact h.resident.trans (congrArg (fun c => some (c, r.reg.gen)) hctx.symm)
  · rw [Slice.refusesPacket, h.unmarked, Bool.false_and, Bool.false_and]

theorem State.core_takesPacket (s : State) (p : Nat) (k : WritePkt) :
    ∃ arrival, ((s.takesPacket p k).core p).slice = { (s.core p).slice.write k.addr k.data with arrival := arrival } := by
  have hcommits : ((s.commits p k).core p).slice = (s.core p).slice.write k.addr k.data :=
    congrArg Core.slice (s.modSlice_becomes p fun sl => sl.write k.addr k.data).self
  rw [State.takesPacket, State.core_emit, State.signal_core, hcommits]
  exact ⟨_, rfl⟩

/-- A packet leaves the slice ready for the next one, and its tiles as they were. -/
theorem TakesResult.takesPacket (h : TakesResult s p r) (k : WritePkt) : TakesResult (s.takesPacket p k) p r ∧
    ∀ off n, ((s.takesPacket p k).core p).slice.rangeOn off n = (s.core p).slice.rangeOn off n := by
  obtain ⟨arrival, hslice⟩ := s.core_takesPacket p k
  refine ⟨⟨?_, h.ctx, ?_, ?_⟩, fun off n => ?_⟩
  · rw [← h.clear]
    exact State.netClear_of_eq (State.signal_clk _ _) (State.signal_pins _ _) (State.signal_net _ _) _ _ _
  · rw [hslice]; exact h.resident
  · rw [hslice]; exact h.unmarked
  · rw [hslice]; rfl

/-- The packets of a result are committed in their order; the last one raises the counter. -/
theorem TakesResult.deliverAll (h : TakesResult s p r) (ps : List (Nat × List Byte))
    (hon : ∀ x ∈ ps, (s.core p).slice.rangeOn x.1 x.2.length = true) : Delivered p r ps s (s.deliverAll p r ps) := by
  induction ps generalizing s with
  | nil => exact ⟨rfl, fun _ _ => rfl, fun _ _ => rfl, rfl⟩
  | cons x rest ih =>
    obtain ⟨hnext, htiles⟩ := h.takesPacket (r.packet x rest.isEmpty)
    obtain ⟨hmem, hsig, hother, -⟩ := s.commits_spec p (r.packet x rest.isEmpty)
    obtain ⟨imem, isig, iother, ikvs⟩ := ih hnext fun y hy => (htiles _ _).trans (hon y (List.mem_cons_of_mem _ hy))
    rw [State.deliverAll, h.netSend (hon x List.mem_cons_self)]
    refine ⟨?_, fun q c => ?_, fun q hq => (iother q hq).trans (hother q hq), ikvs.trans (State.signal_kvs _ _)⟩
    · have hfirst : ((s.takesPacket p (r.packet x rest.isEmpty)).core p).slice.mem = Mem.writeN (s.core p).slice.mem x.1 x.2 := hmem
      rw [imem, hfirst, List.foldl_cons]
    · have hfirst : (s.takesPacket p (r.packet x rest.isEmpty)).arrival q c = _ := hsig q c
      rw [isig q c, hfirst]
      cases rest <;> simp [KvsReq.raiseHdr, Machine.raiseHdr, KvsReq.packet]

end

/-- A request that succeeded and returned no page of host memory leaves flight and delivers its result to its core's slice. -/
theorem kvsResultDeliver_eq {s : State} {h i p : Nat} {r : KvsReq} (hh : h < 8) (hon : s.islandOn (224 + h) = true)
    (hr : (s.selector h).flight[i]? = some r) (hstatus : r.status = 0) (hhost : r.hostPages = [])
    (hphys : s.physIn r.reg.panel r.core = some p) (hpanel : s.coreInPanel r.reg.ctx r.core = true)
    (hend : r.res + r.result.length ≤ 0x200000) :
    exec (.kvsResultDeliver h i) s = .next ((s.modSelector h fun l => { l with flight := l.flight.eraseIdx i }).deliverAll p r
      (resultCuts (r.result.length + 1) r.res r.result)) := by
  have hphys' : (s.modSelector h fun l => { l with flight := l.flight.eraseIdx i }).physIn r.reg.panel r.core = some p := hphys
  rw [exec_kvsResultDeliver, execKvsResultDeliver, hr]
  dsimp only
  rw [if_neg (by simp [hon, hh]), if_pos hstatus, hphys', hhost]
  dsimp only
  rw [if_pos List.isEmpty_nil, if_pos (by simp [hpanel, hend])]

/-! ### The obligation -/

/-- Settles O32: a trigger is ignored, waits or is captured as `kvsTrigger_eq` says; a capture appends one request to its selector's flight
(`State.kvCapture_captures`); and the packets of a result are committed one by one, the last one with the raise. -/
theorem kvsRequests : Obligations.KvsRequests := by
  unfold Obligations.KvsRequests
  refine fun s => ⟨fun offset h g l hh hl hreg hon hoff halign hop => ?_, fun h x l hl hh hon hroom hnext => ?_,
    fun h i p r l sl hl hh hon hr hstatus hhost hresult hctx hphys hpanel hsl hclear hres hopen hrange => ?_⟩
  · subst hh hl
    have hx := kvsTrigger_eq hreg hon hoff halign hop
    refine ⟨fun hbusy => ?_, fun hfree hwait => ?_, fun hfree hroom hnone => ?_⟩
    · rw [if_pos hbusy] at hx
      exact ⟨_, hx, countersMoved_count s _ 1, rfl, rfl, rfl⟩
    · rw [if_neg (by simp [hfree]), if_neg (by rintro ⟨hlt, hnil⟩; exact hwait.elim hlt.not_ge (· (List.isEmpty_iff.1 hnil)))] at hx
      exact hx
    · rw [if_neg (by simp [hfree]), if_pos ⟨hroom, List.isEmpty_iff.2 hnone⟩] at hx
      obtain ⟨r, hrreg, hslot, hheader, hself, hother⟩ := s.kvCapture_captures (stackOf offset) g (offset % 2097152 / 8192)
      exact ⟨_, r, hx, hrreg, hslot, hheader, hself, hother⟩
  · subst hl
    obtain ⟨r, hrreg, hslot, -, hself, hother⟩ :=
      (s.modSelector h fun l => { l with pending := l.pending.erase x }).kvCapture_captures h x.1 x.2
    refine ⟨_, r, kvsCapture_eq hh hon hroom hnext, hrreg, hslot, ?_, fun k hk => ?_⟩
    · rw [hself, State.selector_modSelector, if_pos rfl]
    · rw [hother k hk, State.selector_modSelector, if_neg hk]
  · subst hl hsl
    have htakes : TakesResult (s.modSelector h fun l => { l with flight := l.flight.eraseIdx i }) p r := ⟨hclear, hctx, hres, hopen⟩
    have hdone := htakes.deliverAll (resultCuts (r.result.length + 1) r.res r.result) fun x hx =>
      Slice.rangeOn_part hrange (resultCuts_part hx).1 (resultCuts_part hx).2.2
    have hsome : (!(resultCuts (r.result.length + 1) r.res r.result).isEmpty) = true := by
      simpa using resultCuts_ne_nil hresult _
    have hsignal := hdone.signal
    rw [hsome] at hsignal
    refine ⟨_, kvsResultDeliver_eq hh hon hr hstatus hhost hphys hpanel ((Slice.rangeOn_iff _ _ _).1 hrange).1, fun a => ?_, hsignal,
      hdone.other, ?_, fun k hk => ?_⟩
    · rw [hdone.mem, Mem.writeN_resultCuts (Nat.lt_succ_self _), Mem.read_writeN]
      rfl
    · rw [State.selector_of_kvs hdone.kvs, State.selector_modSelector, if_pos rfl]
    · rw [State.selector_of_kvs hdone.kvs, State.selector_modSelector, if_neg hk]

end Sys2Proof.Machine
end

section
/-! PROOFS. What memory accesses and messages on behalf of a dispatch job leave alone (09 R236, R239; 14 R366 to R368): the jobs, the
cores, this module's place on its board and its keys. What was sent stays sent, and what waits to be sent goes on waiting. -/

namespace Sys2Proof.Machine

/-! ### Bytes handed to a port (14 R359, R365) -/

/-- From s to t frames went out at ports, with counters and free values drawn, and nothing else changed. -/
structure PortsOnly (s t : State) : Prop where
  eq : t = { s with lnk := { s.lnk with ports := t.lnk.ports }, out := t.out, draws := t.draws, counters := t.counters }
  out : s.out <+: t.out

section
variable {s t u : State}

theorem PortsOnly.refl (s : State) : PortsOnly s s := ⟨rfl, List.prefix_refl _⟩

theorem PortsOnly.trans (h : PortsOnly s t) (k : PortsOnly t u) : PortsOnly s u := by
  refine ⟨?_, h.out.trans k.out⟩
  rw [k.eq, h.eq]

theorem PortsOnly.modPort (s : State) (port : Nat) (f : Port → Port) : PortsOnly s (s.modPort port f) := ⟨rfl, List.prefix_refl _⟩

theorem PortsOnly.drawBytes (s : State) (n : Nat) : PortsOnly s (s.drawBytes n).2 := ⟨rfl, List.prefix_refl _⟩

theorem State.putSequenced_portsOnly (s : State) (port : Nat) (f : LinkFrame) : PortsOnly s (s.putSequenced port f) :=
  ⟨rfl, List.prefix_append _ _⟩

theorem State.pumpPort_portsOnly (fuel port : Nat) (s : State) : PortsOnly s (State.pumpPort fuel port s) := by
  induction fuel generalizing s with
  | zero => exact .refl s
  | succ fuel ih =>
    unfold State.pumpPort
    dsimp only
    split
    · exact .refl s
    · split
      · exact .refl s
      · exact (((PortsOnly.drawBytes s _).trans (.modPort _ _ _)).trans (State.putSequenced_portsOnly _ _ _)).trans (ih _)

theorem State.portBytes_portsOnly (s : State) (port vc lane : Nat) (own : Option LinkShare) (bs : List Byte) :
    PortsOnly s (s.portBytes port vc lane own bs) :=
  (PortsOnly.modPort s port _).trans (State.pumpPort_portsOnly _ _ _)

theorem State.launch_portsOnly (s : State) (h : MsgHdr) (data : List Byte) (port : Nat) : PortsOnly s (s.launch h data port) :=
  .trans ⟨rfl, List.prefix_append _ _⟩ (State.portBytes_portsOnly _ _ _ _ _ _)

/-- A message that is launched stands among what is out. -/
theorem State.mem_out_launch (s : State) (h : MsgHdr) (data : List Byte) (port : Nat) :
    Out.message h.vc h data ∈ (s.launch h data port).out :=
  (State.portBytes_portsOnly _ _ _ _ _ _).out.subset (List.mem_append_right _ (List.mem_singleton_self _))

end

/-! ### The frame -/

/-- From s to t the dispatch unit, the cores, the module's place and its key slots stay; messages that went out or wait still do. -/
structure DispatchStays (s t : State) : Prop where
  edu : t.edu = s.edu
  cores : t.cores = s.cores
  pins : t.pins = s.pins
  boardSlot : t.walker.boardSlot = s.walker.boardSlot
  moduleId : t.mgt.moduleId = s.mgt.moduleId
  slots : t.sec.slots = s.sec.slots
  out : s.out <+: t.out
  backlog : s.lnk.backlog <+: t.lnk.backlog

section
variable {s t u : State}

theorem DispatchStays.refl (s : State) : DispatchStays s s :=
  ⟨rfl, rfl, rfl, rfl, rfl, rfl, List.prefix_refl _, List.prefix_refl _⟩

theorem DispatchStays.trans (h : DispatchStays s t) (k : DispatchStays t u) : DispatchStays s u where
  edu := k.edu.trans h.edu
  cores := k.cores.trans h.cores
  pins := k.pins.trans h.pins
  boardSlot := k.boardSlot.trans h.boardSlot
  moduleId := k.moduleId.trans h.moduleId
  slots := k.slots.trans h.slots
  out := h.out.trans k.out
  backlog := h.backlog.trans k.backlog

/-- A fold of steps that each leave the unit alone does so. -/
theorem DispatchStays.foldl {α : Type} {g : State → α → State} (h : ∀ s a, DispatchStays s (g s a)) (l : List α) (s : State) :
    DispatchStays s (l.foldl g s) :=
  List.foldlRecOn (motive := DispatchStays s) l g (.refl s) fun t ht a _ => ht.trans (h t a)

/-- The same for a fold that carries an answer beside the state. -/
theorem DispatchStays.foldl_snd {α β : Type} {g : β × State → α → β × State} (h : ∀ a x, DispatchStays a.2 (g a x).2)
    (l : List α) (a : β × State) : DispatchStays a.2 (l.foldl g a).2 :=
  List.foldlRecOn (motive := fun b : β × State => DispatchStays a.2 b.2) l g (.refl _) fun b hb x _ => hb.trans (h b x)

theorem DispatchStays.ite {c : Prop} [Decidable c] (h : DispatchStays s t) (k : DispatchStays s u) :
    DispatchStays s (if c then t else u) := by
  split
  · exact h
  · exact k

theorem DispatchStays.iteAns {α : Type} {c : Prop} [Decidable c] {x y : α × State} (h : DispatchStays s x.2)
    (k : DispatchStays s y.2) : DispatchStays s (if c then x else y).2 := by
  split
  · exact h
  · exact k

theorem HbmOnly.dispatchStays (h : HbmOnly s t) : DispatchStays s t := by
  obtain ⟨_, _, hmgt⟩ := h.mgt
  exact ⟨h.edu, h.cores, h.pins, by rw [h.walker], by rw [hmgt], by rw [h.sec], h.out ▸ List.prefix_refl _,
    h.lnk ▸ List.prefix_refl _⟩

theorem PortsOnly.dispatchStays (h : PortsOnly s t) : DispatchStays s t := by
  refine ⟨?_, ?_, ?_, ?_, ?_, ?_, h.out, ?_⟩ <;> rw [h.eq]

theorem DispatchStays.drawBytes (h : DispatchStays s t) (n : Nat) : DispatchStays s (t.drawBytes n).2 :=
  h.trans (HbmOnly.draw t n).dispatchStays

theorem DispatchStays.count (h : DispatchStays s t) (off n : Nat) : DispatchStays s (t.count off n) :=
  h.trans (HbmOnly.count t off n).dispatchStays

/-- A change of a context or of a panel, of message streams, of the numbers of sending engines, or of the walker's cache. -/
theorem DispatchStays.tables (s : State) (c : Cmd) (tx : Tab TxStream) (ivs : Tab Nat) (pinned : List (Nat × Nat × Nat))
    (cache : List ((Nat × Nat × Nat) × W64)) :
    DispatchStays s { s with cmd := c, lnk := { s.lnk with tx := tx }, sec := { s.sec with ivs := ivs },
                             walker := { s.walker with pinned := pinned, cache := cache } } :=
  ⟨rfl, rfl, rfl, rfl, rfl, rfl, List.prefix_refl _, List.prefix_refl _⟩

theorem DispatchStays.charge (h : DispatchStays s t) (ctx off n : Nat) : DispatchStays s (t.charge ctx off n) :=
  h.trans ⟨rfl, rfl, rfl, rfl, rfl, rfl, List.prefix_refl _, List.prefix_refl _⟩

end

/-! ### Messages (14 R366 to R368) -/

section
variable (s : State)

theorem State.shape_dispatchStays (h : MsgHdr) (n : Nat) : DispatchStays s (s.shape h n) := by
  unfold State.shape
  split
  · exact .tables s _ _ _ _ _
  · exact .refl s

theorem State.sendMsg_dispatchStays (h : MsgHdr) (data : List Byte) (owner : Option (Nat × Nat)) (coll : Option Nat) :
    DispatchStays s (s.sendMsg h data owner coll).2 := by
  unfold State.sendMsg
  dsimp only
  split
  · exact .refl s
  · refine .iteAns (.refl s) (.iteAns (HbmOnly.event s _).dispatchStays (.trans ?_ (State.launch_portsOnly _ _ _ _).dispatchStays))
    have hshaped := s.shape_dispatchStays h data.length
    have hsent (tx : Tab TxStream) (ivs : Tab Nat) : DispatchStays s
        { s.shape h data.length with lnk := { s.lnk with tx := tx }, sec := { s.sec with ivs := ivs } } :=
      { hshaped with slots := rfl, backlog := List.prefix_refl _ }
    exact .ite (((hsent _ _).count _ _).count _ _) ((((hsent _ _).count _ _).count _ _).count _ _)

theorem State.countWait_dispatchStays (k : Nat) (since : Option Nat) : DispatchStays s (s.countWait k since) := by
  unfold State.countWait
  split
  · exact .count (.refl s) _ _
  · exact .refl s

theorem State.chargeSent_dispatchStays (h : MsgHdr) (n : Nat) : DispatchStays s (s.chargeSent h n) :=
  .ite (.charge (.refl s) _ _ _) (.refl s)

theorem State.sendOrWait_dispatchStays (h : MsgHdr) (data : List Byte) (owner : Option (Nat × Nat)) (coll since : Option Nat) :
    DispatchStays s (s.sendOrWait h data owner coll since) := by
  have hsend := s.sendMsg_dispatchStays (s.inClass h data.length).1 data owner coll
  unfold State.sendOrWait
  dsimp only
  split
  · have hsent := (hsend.trans (State.countWait_dispatchStays _ (s.panelNow h.srcCtx.toNat) since)).trans
      (State.chargeSent_dispatchStays _ h data.length)
    exact .ite (hsent.count _ _) hsent
  · exact { hsend with }
  · exact { hsend with }
  · exact { hsend with backlog := hsend.backlog.trans (List.prefix_append _ _) }

theorem State.peerRequest_dispatchStays (ctx slot keySlot : Nat) (gen : BitVec 8) (write : Bool) (addr n : Nat) (data : List Byte) :
    DispatchStays s (s.peerRequest ctx slot keySlot gen write addr n data) :=
  .foldl (fun t _ => t.sendOrWait_dispatchStays _ _ _ _ _) _ s

theorem State.askPeer_dispatchStays (ctx keySlot addr : Nat) (write : Bool) (n : Nat) (data : List Byte) :
    DispatchStays s (s.askPeer ctx keySlot addr write n data) :=
  (s.peerRequest_dispatchStays _ _ _ _ _ _ _ _).charge _ _ _

theorem State.readPeer_dispatchStays (ctx keySlot addr n : Nat) : DispatchStays s (s.readPeer ctx keySlot addr n).2 := by
  have hask := (s.askPeer_dispatchStays ctx keySlot addr false n []).drawBytes 1
  unfold State.readPeer
  dsimp only
  split
  · exact hask
  · exact hask
  · exact hask.drawBytes n

/-! ### The walk (09 R239) -/

theorem State.readPte_dispatchStays (u : Use) (table idx : Nat) : DispatchStays s (s.readPte u table idx).2 := by
  unfold State.readPte
  split
  · exact .refl s
  · refine .iteAns (.refl s) ?_
    dsimp only
    split <;> exact (s.hbmRead_only _ _ _).dispatchStays

theorem State.walkerPin_dispatchStays (key : Nat × Nat × Nat) : DispatchStays s (s.walkerPin key) :=
  .ite (.refl s) (.tables s _ _ _ _ _)

theorem State.walkerKeep_dispatchStays (key : Nat × Nat × Nat) (e : W64) : DispatchStays s (s.walkerKeep key e) := by
  unfold State.walkerKeep
  refine .ite (.tables s _ _ _ _ _) ?_
  dsimp only
  split
  · exact (DispatchStays.drawBytes (.refl s) 1).trans (.tables _ _ _ _ _ _)
  · exact .drawBytes (.refl s) 1

theorem State.walkerPinBoth_dispatchStays (ctx va : Nat) : DispatchStays s (s.walkerPinBoth ctx va) :=
  .trans (.ite (s.walkerPin_dispatchStays _) (.refl s)) (State.walkerPin_dispatchStays _ _)

theorem State.cachedPte_dispatchStays (u : Use) (cached pin : Bool) (ctx level va table : Nat) :
    DispatchStays s (s.cachedPte u cached pin ctx level va table).2 := by
  have hread := s.readPte_dispatchStays u table (vaIndex va level)
  unfold State.cachedPte
  dsimp only
  split
  · exact .ite (s.walkerPin_dispatchStays _) (.refl s)
  · split
    · next e _ =>
      have hkept := hread.trans (State.walkerKeep_dispatchStays _ (walkerKey ctx level va) e)
      exact .iteAns (.ite (hkept.trans (State.walkerPin_dispatchStays _ _)) hkept) hread
    · exact hread

theorem State.leafFrom2_dispatchStays (u : Use) (va : Nat) (e2 : W64) : DispatchStays s (s.leafFrom2 u va e2).2 := by
  have hread := s.readPte_dispatchStays u (pteNext e2) (vaIndex va 3)
  unfold State.leafFrom2
  dsimp only
  refine .iteAns (.refl s) (.iteAns (.refl s) (.iteAns (.refl s) ?_))
  split
  · exact hread
  · exact .iteAns hread (.iteAns hread hread)

theorem State.findLeaf_dispatchStays (u : Use) (cached pin : Bool) (ctx root va : Nat) :
    DispatchStays s (s.findLeaf u cached pin ctx root va).2 := by
  have hfirst := s.cachedPte_dispatchStays u cached pin ctx 1 va root
  unfold State.findLeaf
  dsimp only
  refine .iteAns (.refl s) (.iteAns (.refl s) ?_)
  split
  · refine .trans (.ite ?_ (.refl s)) (State.leafFrom2_dispatchStays _ _ _ _)
    exact s.walkerPinBoth_dispatchStays ctx va
  · split
    · exact hfirst
    · next e1 _ =>
      refine .iteAns hfirst (.iteAns hfirst ?_)
      have hsecond := hfirst.trans (State.cachedPte_dispatchStays _ u cached pin ctx 2 va (pteNext e1))
      split
      · exact hsecond
      · exact hsecond.trans (State.leafFrom2_dispatchStays _ _ _ _)

theorem State.boardCount_dispatchStays (u : Use) (ctx frame : Nat) : DispatchStays s (s.boardCount u ctx frame).2 := by
  unfold State.boardCount
  split
  · exact (s.hbmRead_only _ _ _).dispatchStays
  · exact (s.peerRequest_dispatchStays _ _ _ _ _ _ _ _).drawBytes _

theorem State.checkLeaf_dispatchStays (u : Use) (ctx : Nat) (e : W64) (large : Bool) (tenant setMask : Nat) (write : Bool) :
    DispatchStays s (s.checkLeaf u ctx e large tenant setMask write).2 := by
  have hcount := s.boardCount_dispatchStays (if u = .bare then .bare else .sys) ctx (pteFrame e)
  exact .iteAns (.refl s) (.iteAns (.refl s) (.iteAns (.refl s) (.iteAns (.iteAns hcount hcount) (.refl s))))

theorem State.walk_dispatchStays (u : Use) (pin : Bool) (ctx root tenant setMask va : Nat) (write : Bool) :
    DispatchStays s (s.walk u pin ctx root tenant setMask va write).2 := by
  have hfind := s.findLeaf_dispatchStays u true pin ctx root va
  unfold State.walk
  generalize s.findLeaf u true pin ctx root va = found at hfind ⊢
  obtain ⟨answer, t⟩ := found
  cases answer with
  | fault kind frame => exact (hfind.count _ _).count _ _
  | leaf e large wOk =>
    have hchecked := hfind.trans (t.checkLeaf_dispatchStays u ctx e large tenant setMask write)
    dsimp only
    split
    · exact (hchecked.count _ _).count _ _
    · exact hchecked.count _ _

theorem State.walkBy_dispatchStays (g : Agent) (ctx va : Nat) (write : Bool) : DispatchStays s (s.walkBy g ctx va write).2 := by
  have hwalk := s.walk_dispatchStays (g.use (s.ctxNow ctx).2) (decide (g = .table)) ctx (s.ctxNow ctx).1.root.toNat
    (s.ctxNow ctx).1.tenant.toNat (s.ctxNow ctx).2.setMask.toNat va write
  unfold State.walkBy
  dsimp only
  split
  · exact hwalk
  · refine .iteAns hwalk ?_
    split <;> exact hwalk

/-! ### Reads and writes at a virtual address -/

theorem State.readVa1_dispatchStays (g : Agent) (ctx va n : Nat) : DispatchStays s (s.readVa1 g ctx va n).2 := by
  have hwalk := s.walkBy_dispatchStays g ctx va false
  unfold State.readVa1
  dsimp only
  split
  · exact hwalk
  · exact hwalk.trans (State.readPeer_dispatchStays _ _ _ _ _)
  · split <;> exact hwalk.trans (State.hbmRead_only _ _ _ _).dispatchStays

theorem State.readBy_dispatchStays (g : Agent) (ctx va n : Nat) : DispatchStays s (s.readBy g ctx va n).2 := by
  unfold State.readBy
  induction pagePieces va n generalizing s with
  | nil => exact .refl s
  | cons p rest ih =>
    have hfirst := s.readVa1_dispatchStays g ctx p.1 p.2
    unfold State.readPieces
    dsimp only
    split
    · split <;> exact hfirst.trans (ih _)
    · exact hfirst

theorem State.writeBy_dispatchStays (g : Agent) (ctx va : Nat) (bs : List Byte) : DispatchStays s (s.writeBy g ctx va bs).2 := by
  refine .foldl_snd (fun a p => ?_) _ (true, s)
  have hwalk := a.2.walkBy_dispatchStays g ctx p.1 true
  dsimp only
  split
  · exact hwalk
  · exact hwalk.trans (State.askPeer_dispatchStays _ _ _ _ _ _ _)
  · exact hwalk.trans (State.hbmWrite_only _ _ _ _).dispatchStays

end

end Sys2Proof.Machine
end

section
/-! PROOFS. Messages of a dispatch job (11 R284, R288; 14 R366 to R368): each is handed to the links or waits for them, and what the header
of the next one shows stays as it was. -/

namespace Sys2Proof.Machine

/-! ### A message that is out or waits -/

/-- A message of this kind to this module with these bytes has gone out or waits to. -/
def Handed (t : State) (dest vc kind : Nat) (data : List Byte) : Prop :=
  ∃ h : MsgHdr, h.dest = dest ∧ h.vc = vc ∧ h.kind = kind ∧
    (Out.message vc h data ∈ t.out ∨ ∃ x ∈ t.lnk.backlog, x.hdr = h ∧ x.data = data)

theorem Handed.mono {t u : State} {dest vc kind : Nat} {data : List Byte} (h : Handed t dest vc kind data) (k : DispatchStays t u) :
    Handed u dest vc kind data := by
  obtain ⟨m, hdest, hvc, hkind, hm⟩ := h
  refine ⟨m, hdest, hvc, hkind, hm.imp (fun hout => k.out.subset hout) ?_⟩
  rintro ⟨x, hx, hhdr⟩
  exact ⟨x, k.backlog.subset hx, hhdr⟩

theorem State.launch_handed (s : State) (h : MsgHdr) (data : List Byte) (port : Nat) :
    Handed (s.launch h data port) h.dest h.vc h.kind data :=
  ⟨h, rfl, rfl, rfl, .inl (s.mem_out_launch h data port)⟩

/-- A message that a send calls sent is out. -/
theorem State.sendMsg_sent (s : State) (h : MsgHdr) (data : List Byte) (owner : Option (Nat × Nat)) (coll : Option Nat) :
    (s.sendMsg h data owner coll).1 = .sent → Handed (s.sendMsg h data owner coll).2 h.dest h.vc h.kind data := by
  unfold State.sendMsg
  dsimp only
  split
  · exact nofun
  · split
    · exact nofun
    · split
      · exact nofun
      · exact fun _ => State.launch_handed _ _ _ _

/-! ### Messages on virtual channel 5 -/

/-- From s to t a message was handed over which no shaper holds: the panels and the entries of the contexts stay as well. -/
structure PostOnly (s t : State) : Prop extends DispatchStays s t where
  panels : t.cmd.panels = s.cmd.panels
  bindings : SameBindings s t

section
variable {s t u : State}

theorem PostOnly.refl (s : State) : PostOnly s s := ⟨.refl s, rfl, .refl s⟩

theorem PostOnly.trans (h : PostOnly s t) (k : PostOnly t u) : PostOnly s u :=
  ⟨h.toDispatchStays.trans k.toDispatchStays, k.panels.trans h.panels, h.bindings.trans k.bindings⟩

theorem PostOnly.foldl {α : Type} {g : State → α → State} (h : ∀ s a, PostOnly s (g s a)) (l : List α) (s : State) :
    PostOnly s (l.foldl g s) :=
  List.foldlRecOn (motive := PostOnly s) l g (.refl s) fun t ht a _ => ht.trans (h t a)

/-- One more message waits. -/
theorem PostOnly.waits (h : PostOnly s t) (l : List SentMsg) :
    PostOnly s { t with lnk := { t.lnk with backlog := t.lnk.backlog ++ l } } :=
  h.trans ⟨⟨rfl, rfl, rfl, rfl, rfl, rfl, List.prefix_refl _, List.prefix_append _ _⟩, rfl, .of_tables rfl rfl⟩

/-- What holds for a context is read from the panels and the entries of the contexts (01 R21, R22). -/
theorem PostOnly.ctxNow (h : PostOnly s t) (c : Nat) : t.ctxNow c = s.ctxNow c := by
  have hstep : t.stepOf c = s.stepOf c := by rw [State.stepOf, h.panels, State.stepOf]
  have hpanel (k : Nat) : t.panel k = s.panel k := by rw [State.panel, h.panels, State.panel]
  rw [State.ctxNow, hstep, h.bindings.f, hpanel, State.ctxNow]

theorem PostOnly.moduleAt (h : PostOnly s t) (m : Nat) : t.moduleAt m = s.moduleAt m := by
  rw [State.moduleAt, State.me, h.moduleId, State.moduleAt, State.me]

theorem PostOnly.eduHdr (h : PostOnly s t) (j : EduJob) (kind inst row tok rank : Nat) (zeroed : Bool) (fmt n : Nat) :
    t.eduHdr j kind inst row tok rank zeroed fmt n = s.eduHdr j kind inst row tok rank zeroed fmt n := by
  rw [State.eduHdr, h.ctxNow, h.boardSlot, State.slot, h.slots, State.eduHdr, State.slot]

end

section
variable (s : State) {h : MsgHdr}

theorem State.shaper_of_vc5 (hvc : h.vc = 5) : s.shaper h = none := by simp [State.shaper, hvc]

theorem State.inClass_of_vc5 (hvc : h.vc = 5) (n : Nat) : s.inClass h n = (h, false) := by
  simp [State.inClass, s.shaper_of_vc5 hvc, hvc]

theorem State.sendMsg_cmd_of_vc5 (hvc : h.vc = 5) (data : List Byte) (owner : Option (Nat × Nat)) (coll : Option Nat) :
    (s.sendMsg h data owner coll).2.cmd = s.cmd := by
  have hlaunch (t : State) (g : MsgHdr) (port : Nat) : (t.launch g data port).cmd = t.cmd := by
    rw [(t.launch_portsOnly g data port).eq]
  unfold State.sendMsg State.shape
  rw [s.shaper_of_vc5 hvc]
  dsimp only
  split
  · rfl
  · split_ifs <;> simp [hlaunch]

/-- A message on virtual channel 5 goes out and its bytes are charged, or it waits behind the others. -/
theorem State.sendOrWait_of_vc5 (hvc : h.vc = 5) (data : List Byte) :
    s.sendOrWait h data none =
      if (s.sendMsg h data none none).1 = .sent then (s.sendMsg h data none none).2.chargeSent h data.length
      else { (s.sendMsg h data none none).2 with lnk := { (s.sendMsg h data none none).2.lnk with
        backlog := (s.sendMsg h data none none).2.lnk.backlog ++
          [{ hdr := h, data := data, port := 0, owner := none, since := s.shapedFrom h data.length none }] } } := by
  unfold State.sendOrWait
  rw [s.inClass_of_vc5 hvc]
  dsimp only
  cases hend : (s.sendMsg h data none none).1 <;> rfl

theorem State.chargeSent_postOnly (h : MsgHdr) (n : Nat) : PostOnly s (s.chargeSent h n) := by
  refine ⟨s.chargeSent_dispatchStays h n, ?_, ?_⟩ <;> unfold State.chargeSent <;> split
  · rfl
  · rfl
  · exact .charge _ _ _ _
  · exact .refl s

theorem State.sendOrWait_postOnly (hvc : h.vc = 5) (data : List Byte) : PostOnly s (s.sendOrWait h data none) := by
  have hcmd := s.sendMsg_cmd_of_vc5 hvc data none none
  have hsend : PostOnly s (s.sendMsg h data none none).2 :=
    ⟨s.sendMsg_dispatchStays h data none none, by rw [hcmd], .of_tables (by rw [hcmd]) (by rw [hcmd])⟩
  rw [s.sendOrWait_of_vc5 hvc]
  split
  · exact hsend.trans (State.chargeSent_postOnly _ h _)
  · exact hsend.waits _

/-- A message on virtual channel 5 goes out or waits behind the others. -/
theorem State.sendOrWait_handed (hvc : h.vc = 5) (data : List Byte) : Handed (s.sendOrWait h data none) h.dest 5 h.kind data := by
  rw [s.sendOrWait_of_vc5 hvc]
  split
  · next hsent => exact hvc ▸ (s.sendMsg_sent h data none none hsent).mono (State.chargeSent_dispatchStays _ _ _)
  · exact ⟨h, rfl, hvc, rfl, .inr ⟨_, List.mem_append_right _ (List.mem_singleton_self _), rfl, rfl⟩⟩

end

/-! ### Messages of a job (R288) -/

section
variable (s : State) (dest : Nat) (j : EduJob) (h : EduHdr) (data : List Byte)

theorem State.eduMsg_postOnly : PostOnly s (s.eduMsg dest j h data) := .foldl (fun t _ => t.sendOrWait_postOnly rfl _) _ s

/-- The first segment of a message of a job is handed to the links. -/
theorem State.eduMsg_handed :
    Handed (s.eduMsg dest j h data) (s.moduleAt dest) 5 6 ((eduHdrBytes h ++ data).take 4096) := by
  obtain ⟨n, hn⟩ : ∃ n, ((eduHdrBytes h ++ data).length + 4095) / 4096 = n + 1 :=
    Nat.exists_eq_add_one.2 (Nat.div_pos (by simp [eduHdrBytes, leBytes]) (by omega))
  unfold State.eduMsg
  dsimp only
  rw [hn, List.range_succ_eq_map, List.foldl_cons]
  exact (s.sendOrWait_handed rfl _).mono (PostOnly.foldl (fun t _ => t.sendOrWait_postOnly rfl _) _ _).toDispatchStays

/-- One message of a job goes to each of several modules: every one of them is handed over, under the header that the first one shows. -/
theorem State.foldl_eduMsg (kind inst row tok rank : Nat) (zeroed : Bool) (fmt n : Nat) (ms : List Nat) (s : State) :
    let t := ms.foldl (fun s m => s.eduMsg m j (s.eduHdr j kind inst row tok rank zeroed fmt n) data) s
    PostOnly s t ∧ ∀ m ∈ ms, Handed t (s.moduleAt m) 5 6
      ((eduHdrBytes (s.eduHdr j kind inst row tok rank zeroed fmt n) ++ data).take 4096) := by
  intro t
  have hfold (u : State) (l : List Nat) :
      PostOnly u (l.foldl (fun s m => s.eduMsg m j (s.eduHdr j kind inst row tok rank zeroed fmt n) data) u) :=
    .foldl (fun v m => v.eduMsg_postOnly m j _ data) l u
  refine ⟨hfold s ms, fun m hm => ?_⟩
  obtain ⟨before, after, rfl⟩ := List.append_of_mem hm
  have hbefore := hfold s before
  simp only [t, List.foldl_append, List.foldl_cons, hbefore.eduHdr]
  rw [← hbefore.moduleAt]
  exact (State.eduMsg_handed _ m j _ data).mono (hfold _ after).toDispatchStays

end

end Sys2Proof.Machine
end

section
/-! PROOFS. The jobs of the dispatch unit: the rule of a change of one job, what acts on one job leaves of the others, and when a send is
due (11 R284 to R289). -/

namespace Sys2Proof.Machine

/-! ### A change of one job -/

section
variable (s : State) (i : Nat) (f : EduJob → EduJob)

theorem State.getElem?_modJob (k : Nat) :
    (s.modJob i f).edu.jobs[k]? = if k = i then s.edu.jobs[k]?.map f else s.edu.jobs[k]? := by
  simp only [State.modJob, List.getElem?_mapIdx]
  split
  · rfl
  · cases s.edu.jobs[k]? <;> rfl

variable {s i} {j : EduJob} (h : s.edu.jobs[i]? = some j)
include h

theorem State.modJob_jobs : (s.modJob i f).edu.jobs = s.edu.jobs.set i (f j) := by
  refine List.ext_getElem? fun k => ?_
  rw [State.getElem?_modJob, List.getElem?_set]
  by_cases hk : k = i
  · subst hk
    obtain ⟨hlt, -⟩ := List.getElem?_eq_some_iff.1 h
    rw [if_pos rfl, if_pos rfl, if_pos hlt, h, Option.map_some]
  · rw [if_neg hk, if_neg (Ne.symm hk)]

theorem State.modJob_edu : (s.modJob i f).edu = { s.edu with jobs := s.edu.jobs.set i (f j) } := by
  rw [← State.modJob_jobs f h]
  rfl

/-- The job that is listed at i after its change. -/
theorem State.getElem?_modJob_self : (s.modJob i f).edu.jobs[i]? = some (f j) := by
  rw [State.getElem?_modJob, if_pos rfl, h, Option.map_some]

end

/-! ### Changes that no job sees -/

/-- From s to t the jobs and the module's place stay, and what waits to be sent still waits. -/
structure JobsStay (s t : State) : Prop where
  jobs : t.edu.jobs = s.edu.jobs
  boardSlot : t.walker.boardSlot = s.walker.boardSlot
  backlog : s.lnk.backlog <+: t.lnk.backlog

section
variable {s t u : State}

theorem JobsStay.refl (s : State) : JobsStay s s := ⟨rfl, rfl, List.prefix_refl _⟩

theorem JobsStay.trans (h : JobsStay s t) (k : JobsStay t u) : JobsStay s u :=
  ⟨k.jobs.trans h.jobs, k.boardSlot.trans h.boardSlot, h.backlog.trans k.backlog⟩

theorem JobsStay.foldl {α : Type} {g : State → α → State} (h : ∀ s a, JobsStay s (g s a)) (l : List α) (s : State) :
    JobsStay s (l.foldl g s) :=
  List.foldlRecOn (motive := JobsStay s) l g (.refl s) fun t ht a _ => ht.trans (h t a)

theorem DispatchStays.jobsStay (h : DispatchStays s t) : JobsStay s t := ⟨by rw [h.edu], h.boardSlot, h.backlog⟩

end

section
variable (s : State)

theorem State.count_jobsStay (off n : Nat) : JobsStay s (s.count off n) := ⟨rfl, rfl, List.prefix_refl _⟩

theorem State.raiseIn_jobsStay (panel core ctr : Nat) : JobsStay s (s.raiseIn panel core ctr) := by
  unfold State.raiseIn
  split
  · exact ⟨rfl, rfl, List.prefix_refl _⟩
  · exact .refl s

theorem State.eduReport_jobsStay (j : EduJob) (status : Half) : JobsStay s (s.eduReport j status) := ⟨rfl, rfl, List.prefix_refl _⟩

theorem State.failSeqs_jobsStay (panel : Nat) (status : Half) (p : SeqEntry → Bool) : JobsStay s (s.failSeqs panel status p) :=
  ⟨rfl, rfl, List.prefix_refl _⟩

theorem State.eduFailToks_jobsStay (j : EduJob) (status : Half) (p : Nat → Bool) : JobsStay s (s.eduFailToks j status p) :=
  s.failSeqs_jobsStay _ _ _

theorem State.loadAdd_jobsStay (layer expert req ref : Nat) : JobsStay s (s.loadAdd layer expert req ref) :=
  ⟨rfl, rfl, List.prefix_refl _⟩

theorem State.modPanel_jobsStay (k : Nat) (f : Panel → Panel) : JobsStay s (s.modPanel k f) := ⟨rfl, rfl, List.prefix_refl _⟩

theorem State.eduCountRefused_jobsStay (j : EduJob) (xs : List (Nat × Nat)) : JobsStay s (s.eduCountRefused j xs) := by
  unfold State.eduCountRefused
  exact ((JobsStay.foldl (fun t _ => t.loadAdd_jobsStay _ _ _ _) _ s).trans (State.count_jobsStay _ _ _)).trans
    (State.modPanel_jobsStay _ _ _)

theorem State.eduRefuseAll_jobsStay (j : EduJob) : JobsStay s (s.eduRefuseAll j) := by
  unfold State.eduRefuseAll
  split
  · exact (JobsStay.foldl (fun t _ => t.loadAdd_jobsStay _ _ _ _) _ s).trans (State.eduCountRefused_jobsStay _ _ _)
  · exact State.eduCountRefused_jobsStay _ _ _

theorem State.combineRow_dispatchStays (j : EduJob) (t : Nat) : DispatchStays s (s.combineRow j t).2 := by
  unfold State.combineRow
  dsimp only
  refine .iteAns ?_ (.trans ?_ (State.writeBy_dispatchStays _ _ _ _ _)) <;>
    exact List.foldlRecOn (motive := fun a : Half × List (W32 × List Byte) × State => DispatchStays s a.2.2) _ _ (.refl s)
      fun a ha _ _ => ha.trans (State.readBy_dispatchStays _ _ _ _ _)

end

/-! ### A job goes on -/

/-- Job j goes on as j': what it was started with stays, and what has happened to it stays so. With `still` no row of it has returned and
none was taken as zeroed. Of the phases only the last two that a sent job has, or the end, can be reached. -/
structure EduJob.GoesOn (still : Bool) (j j' : EduJob) : Prop where
  die : j'.die = j.die
  ctx : j'.ctx = j.ctx
  block : j'.block = j.block
  back : j.back = true → j'.back = true
  recvRaised : j.recvRaised = true → j'.recvRaised = true
  failed : j'.failed = none → j.failed = none
  phase : j'.phase = .done ∨ j'.phase = j.phase ∨ (j.sent = true ∧ j'.sent = true)
  rows : still = true → j'.returned = j.returned ∧ j'.zeroed = j.zeroed

theorem EduJob.sent_iff (j : EduJob) : j.sent = true ↔ j.phase = .waitReturn ∨ j.phase = .returning := by simp [EduJob.sent]

namespace EduJob.GoesOn
variable {still : Bool} {j j' j'' : EduJob}

theorem refl (still : Bool) (j : EduJob) : j.GoesOn still j := ⟨rfl, rfl, rfl, id, id, id, .inr (.inl rfl), fun _ => ⟨rfl, rfl⟩⟩

theorem trans (h : j.GoesOn still j') (k : j'.GoesOn still j'') : j.GoesOn still j'' where
  die := k.die.trans h.die
  ctx := k.ctx.trans h.ctx
  block := k.block.trans h.block
  back hb := k.back (h.back hb)
  recvRaised hb := k.recvRaised (h.recvRaised hb)
  failed hf := h.failed (k.failed hf)
  phase := by
    have h1 := h.phase
    have h2 := k.phase
    simp only [EduJob.sent_iff] at h1 h2 ⊢
    rcases h2 with h2 | h2 | ⟨h2, h3⟩
    · exact .inl h2
    · rw [h2]; exact h1
    · rcases h1 with h1 | h1 | ⟨h1, -⟩
      · simp [h1] at h2
      · exact .inr (.inr ⟨h1 ▸ h2, h3⟩)
      · exact .inr (.inr ⟨h1, h3⟩)
  rows hs := ⟨(k.rows hs).1.trans (h.rows hs).1, (k.rows hs).2.trans (h.rows hs).2⟩

theorem layer (h : j.GoesOn still j') : j'.layer = j.layer := by rw [EduJob.layer, EduJob.b, h.block, EduJob.layer, EduJob.b]

theorem loose (h : j.GoesOn still j') : j.GoesOn false j' := { h with rows := nofun }

end EduJob.GoesOn

/-- From s to t something acted on job i: it may have gone on, the other jobs stay, and so do the module's place and what waits to be
sent. -/
structure JobStep (still : Bool) (i : Nat) (s t : State) : Prop where
  boardSlot : t.walker.boardSlot = s.walker.boardSlot
  backlog : s.lnk.backlog <+: t.lnk.backlog
  other : ∀ k, k ≠ i → t.edu.jobs[k]? = s.edu.jobs[k]?
  self : ∀ j, s.edu.jobs[i]? = some j → ∃ j', t.edu.jobs[i]? = some j' ∧ j.GoesOn still j'

section
variable {still : Bool} {i : Nat} {s t u : State}

theorem JobsStay.jobStep (h : JobsStay s t) (still : Bool) (i : Nat) : JobStep still i s t :=
  ⟨h.boardSlot, h.backlog, fun _ _ => by rw [h.jobs], fun j hj => ⟨j, by rw [h.jobs, hj], .refl _ j⟩⟩

theorem JobStep.refl (still : Bool) (i : Nat) (s : State) : JobStep still i s s := (JobsStay.refl s).jobStep still i

theorem JobStep.trans (h : JobStep still i s t) (k : JobStep still i t u) : JobStep still i s u where
  boardSlot := k.boardSlot.trans h.boardSlot
  backlog := h.backlog.trans k.backlog
  other n hn := (k.other n hn).trans (h.other n hn)
  self j hj := by
    obtain ⟨j', hj', hgo⟩ := h.self j hj
    obtain ⟨j'', hj'', hgo'⟩ := k.self j' hj'
    exact ⟨j'', hj'', hgo.trans hgo'⟩

theorem JobStep.stays (k : JobsStay t u) (h : JobStep still i s t) : JobStep still i s u := h.trans (k.jobStep still i)

theorem JobStep.loose (h : JobStep still i s t) : JobStep false i s t where
  boardSlot := h.boardSlot
  backlog := h.backlog
  other := h.other
  self j hj := by
    obtain ⟨j', hj', hgo⟩ := h.self j hj
    exact ⟨j', hj', hgo.loose⟩

theorem JobStep.foldl {α : Type} {g : State → α → State} (h : ∀ s a, JobStep still i s (g s a)) (l : List α) (s : State) :
    JobStep still i s (l.foldl g s) :=
  List.foldlRecOn (motive := JobStep still i s) l g (.refl still i s) fun t ht a _ => ht.trans (h t a)

/-- A change of job i that lets it go on. -/
theorem State.modJob_jobStep (still : Bool) (i : Nat) (s : State) {f : EduJob → EduJob}
    (h : ∀ j, s.edu.jobs[i]? = some j → j.GoesOn still (f j)) : JobStep still i s (s.modJob i f) where
  boardSlot := rfl
  backlog := List.prefix_refl _
  other k hk := by rw [State.getElem?_modJob, if_neg hk]
  self j hj := ⟨f j, State.getElem?_modJob_self f hj, h j hj⟩

theorem JobStep.modJob {f : EduJob → EduJob} (hf : ∀ j : EduJob, j.GoesOn still (f j)) (h : JobStep still i s t) :
    JobStep still i s (t.modJob i f) :=
  h.trans (State.modJob_jobStep still i t fun j _ => hf j)

theorem DispatchStays.jobStep (h : DispatchStays s t) (still : Bool) (i : Nat) : JobStep still i s t := h.jobsStay.jobStep still i

/-- A choice between two states that something on job i leads to. -/
theorem JobStep.ite {c : Prop} [Decidable c] (h : JobStep still i s t) (k : JobStep still i s u) :
    JobStep still i s (if c then t else u) := by
  split
  · exact h
  · exact k

/-- The job that is listed at i after a step. -/
theorem JobStep.goesOn (h : JobStep still i s t) {j j' : EduJob} (hs : s.edu.jobs[i]? = some j) (ht : t.edu.jobs[i]? = some j') :
    j.GoesOn still j' := by
  obtain ⟨x, hx, hgo⟩ := h.self j hs
  rw [ht] at hx
  exact Option.some.inj hx ▸ hgo

end

/-! ### When a send is due (R289) -/

/-- No job's send is due. -/
def State.NoSendDue (s : State) : Prop := ∀ x ∈ s.edu.jobs, s.mayEduSend x = false

/-- The job of half 0 of a layer holds the send of half 1 back until its rows are sent (R289). -/
def EduJob.holdsBack (x j : EduJob) : Prop :=
  x.die = 0 ∧ x.layer = j.layer ∧ x.ctx = j.ctx ∧ (x.phase = .waitGo ∨ x.phase = .counting ∨ x.phase = .sending)

theorem State.mayEduSend_iff (s : State) (j : EduJob) :
    s.mayEduSend j = true ↔ j.phase = .sending ∧ (j.die = 0 ∨ s.eduWaits j = false ∧ ∀ x ∈ s.edu.jobs, ¬x.holdsBack j) := by
  simp only [State.mayEduSend, EduJob.holdsBack, Bool.and_eq_true, Bool.or_eq_true, Bool.not_eq_true', decide_eq_true_eq,
    List.any_eq_false, and_assoc, or_assoc]

theorem State.noSendDue_of_not_sending {s : State} (h : ∀ x ∈ s.edu.jobs, x.phase ≠ .sending) : s.NoSendDue := fun x hx => by
  simp [State.mayEduSend, h x hx]

theorem State.eduPump_of_noSendDue {s : State} (h : s.NoSendDue) : s.eduPump = s := by
  refine List.foldlRecOn (motive := fun t => t = s) _ _ rfl fun t ht i _ => ?_
  subst ht
  split
  · next j hj => rw [if_neg (by simp [h j (List.mem_of_getElem? hj)])]
  · rfl

/-- A job of the same context and layer waits less, the fewer messages wait. -/
theorem State.eduWaits_mono {s t : State} {j j' : EduJob} (hb : s.lnk.backlog <+: t.lnk.backlog) (hc : j'.ctx = j.ctx)
    (hl : j'.layer = j.layer) (h : t.eduWaits j' = false) : s.eduWaits j = false := by
  rw [State.eduWaits, List.any_eq_false] at h ⊢
  exact fun m hm => hc ▸ hl ▸ h m (hb.subset hm)

namespace EduJob.GoesOn
variable {still : Bool} {x x' j j' : EduJob}

/-- A job that has not ended meanwhile is in one of the phases up to sending exactly if it was. -/
theorem phase_iff (h : x.GoesOn still x') (hd : x'.phase = .done → x.phase = .done) {p : EduPhase}
    (hp : p = .waitGo ∨ p = .counting ∨ p = .sending) : x'.phase = p ↔ x.phase = p := by
  rcases h.phase with hx | hx | ⟨hx, hx'⟩
  · rw [hx, hd hx]
  · rw [hx]
  · rw [EduJob.sent_iff] at hx hx'
    have hnot {q : EduPhase} (hq : q = .waitReturn ∨ q = .returning) : q ≠ p := by
      rintro rfl
      rcases hq with rfl | rfl <;> simp at hp
    exact iff_of_false (hnot hx') (hnot hx)

theorem holdsBack (h : x.GoesOn still x') (hd : x'.phase = .done → x.phase = .done) (hj : j.GoesOn still j') (hx : x.holdsBack j) :
    x'.holdsBack j' := by
  obtain ⟨hdie, hlayer, hctx, hphase⟩ := hx
  refine ⟨h.die.trans hdie, by rw [h.layer, hj.layer, hlayer], by rw [h.ctx, hj.ctx, hctx], ?_⟩
  exact hphase.imp (h.phase_iff hd (.inl rfl)).2
    (Or.imp (h.phase_iff hd (.inr (.inl rfl))).2 (h.phase_iff hd (.inr (.inr rfl))).2)

end EduJob.GoesOn

/-- While the one job that changed has not ended, no send becomes due that was not: its phase says the same, and what waited still does. -/
theorem JobStep.noSendDue {still : Bool} {i : Nat} {s t : State} {j j' : EduJob} (h : JobStep still i s t) (hj : s.edu.jobs[i]? = some j)
    (hj' : t.edu.jobs[i]? = some j') (hd : j'.phase ≠ .done) (hs : s.NoSendDue) : t.NoSendDue := by
  have hgo := h.goesOn hj hj'
  have hback (k : Nat) {x' : EduJob} (hx' : t.edu.jobs[k]? = some x') : ∃ x ∈ s.edu.jobs, x.GoesOn still x' ∧
      (x'.phase = .done → x.phase = .done) := by
    by_cases hk : k = i
    · subst hk
      exact ⟨j, List.mem_of_getElem? hj, Option.some.inj (hj'.symm.trans hx') ▸ ⟨hgo, fun he => absurd he hd⟩⟩
    · exact ⟨x', List.mem_of_getElem? ((h.other k hk).symm.trans hx'), .refl _ x', id⟩
  have hon (k : Nat) {x : EduJob} (hx : s.edu.jobs[k]? = some x) : ∃ x' ∈ t.edu.jobs, x.GoesOn still x' ∧
      (x'.phase = .done → x.phase = .done) := by
    by_cases hk : k = i
    · subst hk
      exact ⟨j', List.mem_of_getElem? hj', Option.some.inj (hj.symm.trans hx) ▸ ⟨hgo, fun he => absurd he hd⟩⟩
    · exact ⟨x, List.mem_of_getElem? ((h.other k hk).trans hx), .refl _ x, id⟩
  intro x' hmem
  obtain ⟨k, hk⟩ := List.mem_iff_getElem?.1 hmem
  obtain ⟨x, hx, hxgo, hxd⟩ := hback k hk
  rw [Bool.eq_false_iff]
  intro hdue
  obtain ⟨hphase, hfree⟩ := (t.mayEduSend_iff x').1 hdue
  refine absurd ((s.mayEduSend_iff x).2 ⟨(hxgo.phase_iff hxd (.inr (.inr rfl))).1 hphase, hfree.imp (hxgo.die.symm.trans ·) ?_⟩)
    (by simp [hs x hx])
  rintro ⟨hwaits, hnone⟩
  refine ⟨State.eduWaits_mono h.backlog hxgo.ctx hxgo.layer hwaits, fun y hy hold => ?_⟩
  obtain ⟨m, hm⟩ := List.mem_iff_getElem?.1 hy
  obtain ⟨y', hy', hygo, hyd⟩ := hon m hm
  exact hnone y' hy' (hygo.holdsBack hyd hxgo hold)

end Sys2Proof.Machine
end

section
/-! PROOFS. The dispatch phase (11 R280, R284, R288 to R291): counts, capacity, and peers that fail a job. -/

namespace Sys2Proof.Machine

/-! ### The meaning of each command -/

theorem exec_eduGoWrite (offset : Nat) (s : State) : exec (.eduGoWrite offset) s = execEduGoWrite offset s := rfl
theorem exec_eduCountMsg (h : EduHdr) (counts : List Nat) (s : State) : exec (.eduCountMsg h counts) s = execEduCountMsg h counts s := rfl
theorem exec_eduCapacityAssign (die job : Nat) (s : State) :
    exec (.eduCapacityAssign die job) s = execEduCapacityAssign die job s := rfl
theorem exec_eduCountTimeout (die job : Nat) (s : State) : exec (.eduCountTimeout die job) s = execEduCountTimeout die job s := rfl

/-! ### The go write (R280, R284) -/

theorem State.eduGate_dispatchStays (s : State) (j : EduJob) : DispatchStays s (s.eduGate j).2 := by
  refine .foldl_snd (fun a t => ?_) _ (({} : GateRead), s)
  split
  · exact .refl _
  · have hread := a.2.readBy_dispatchStays .other j.ctx
      (j.b 144 6 + t * if plHash j.tableBytes j.layer then 4 else 8 * j.k) (if plHash j.tableBytes j.layer then 4 else 8 * j.k)
    dsimp only
    split
    · exact hread
    · exact hread
    · split <;> exact hread

/-- The go phase of a job whose slots and gates are read well: its counts are held, and one message with them goes to every other module
of the domain. -/
theorem State.eduGo_eq {s s1 s2 : State} {i : Nat} {j : EduJob} {bs : List Byte} {g : GateRead}
    (hfailed : j.failed = none) (hread : s.readBy .other j.ctx (j.b 150 6) (2 * j.n) = (.data bs, s1))
    (hgate : s1.eduGate { j with phase := .counting, slots := (List.range j.n).map fun t => fieldAt bs (2 * t) 2 } = (g, s2))
    (hstatus : g.status = 0) (hpoison : g.poison = []) :
    let own := s2.walker.boardSlot
    let j2 : EduJob :=
      { j with phase := .counting, slots := (List.range j.n).map fun t => fieldAt bs (2 * t) 2, gate := g.gate }
    s.eduGo i j = (j.domain.filter fun m => decide (m ≠ own)).foldl (fun s m =>
        s.eduMsg m j2 (s.eduHdr j2 1 0 0 0 0 false 0 (4 * (j2.ownCounts own).length)) ((j2.ownCounts own).flatMap fun c => leBytes 4 c))
      (s2.modJob i fun _ => { j2 with counts := Tab.set j.counts own (j2.ownCounts own) }) := by
  intro own j2
  unfold State.eduGo
  rw [hread]
  dsimp only
  rw [hgate]
  dsimp only
  rw [if_neg (not_not.2 hstatus), hfailed, hpoison]
  rfl

/-! ### Peers that fail a job (R291) -/

/-- From s to t peer m failed job i, which was j: it counts as directing nothing, and the failure is reported. -/
structure PeerLost (s : State) (i : Nat) (j : EduJob) (status : Half) (m : Nat) (t : State) : Prop where
  job : ∃ lost counts, t.edu.jobs = s.edu.jobs.set i { j with failed := some status, lost := lost, counts := counts } ∧ m ∈ lost ∧
    Tab.find counts m = some (List.replicate j.insts.length 0)
  last : t.edu.lastStatus = status ∧ t.edu.lastCtx = j.ctx ∧ t.edu.lastLayer = j.layer ∧ t.edu.lastHalf = j.die ∧
    t.edu.lastValid = true
  reported : ∃ e ∈ t.mgt.events, e.code = 0x4001

/-- From s to t job i, which was j, lost some peers or none. -/
def LosesPeers (s : State) (i : Nat) (j : EduJob) (t : State) : Prop :=
  ∃ failed lost counts, t.edu.jobs = s.edu.jobs.set i { j with failed := failed, lost := lost, counts := counts }

theorem PeerLost.losesPeers {s t : State} {i m : Nat} {j : EduJob} {status : Half} (h : PeerLost s i j status m t) :
    LosesPeers s i j t := by
  obtain ⟨lost, counts, hjobs, -⟩ := h.job
  exact ⟨_, lost, counts, hjobs⟩

section
variable {s t : State} {i : Nat} {j : EduJob}

theorem LosesPeers.refl (hj : s.edu.jobs[i]? = some j) : LosesPeers s i j s := by
  obtain ⟨hlt, hget⟩ := List.getElem?_eq_some_iff.1 hj
  refine ⟨j.failed, j.lost, j.counts, ?_⟩
  rw [← hget, List.set_getElem_self]

/-- What one more lost peer makes of a job that lost some peers already. -/
theorem State.eduLose_eq (hi : i < s.edu.jobs.length) {failed : Option Half} {lost : List Nat} {counts : Tab (List Nat)}
    (hjobs : t.edu.jobs = s.edu.jobs.set i { j with failed := failed, lost := lost, counts := counts }) (m : Nat) (status : Half) :
    (t.eduLose i m status).edu.jobs = s.edu.jobs.set i { j with
      failed := some status, lost := m :: lost, counts := Tab.set counts m (List.replicate j.insts.length 0) } ∧
    ((t.eduLose i m status).edu.lastStatus = status ∧ (t.eduLose i m status).edu.lastCtx = j.ctx ∧
      (t.eduLose i m status).edu.lastLayer = j.layer ∧ (t.eduLose i m status).edu.lastHalf = j.die ∧
      (t.eduLose i m status).edu.lastValid = true) ∧
    ∃ e ∈ (t.eduLose i m status).mgt.events, e.code = 0x4001 := by
  have hget : t.edu.jobs[i]? = some { j with failed := failed, lost := lost, counts := counts } := by
    rw [hjobs, List.getElem?_set_self hi]
  unfold State.eduLose
  rw [hget]
  dsimp only
  refine ⟨?_, ⟨rfl, rfl, rfl, rfl, rfl⟩, ?_⟩
  · exact (State.modJob_jobs _ hget).trans (by rw [hjobs, List.set_set]; rfl)
  · exact State.exists_event _ 0x4001

theorem LosesPeers.eduLose (hi : i < s.edu.jobs.length) (h : LosesPeers s i j t) (m : Nat) (status : Half) :
    PeerLost s i j status m (t.eduLose i m status) := by
  obtain ⟨failed, lost, counts, hjobs⟩ := h
  obtain ⟨hset, hlast, hevent⟩ := State.eduLose_eq hi hjobs m status
  exact ⟨⟨_, _, hset, List.mem_cons_self, Tab.find_set_self _ _ _⟩, hlast, hevent⟩

/-- A peer that is lost stays lost when another one is. -/
theorem PeerLost.eduLose (hi : i < s.edu.jobs.length) {status : Half} {m : Nat} (h : PeerLost s i j status m t) (n : Nat) :
    PeerLost s i j status m (t.eduLose i n status) := by
  obtain ⟨lost, counts, hjobs, hm, hfind⟩ := h.job
  obtain ⟨hset, hlast, hevent⟩ := State.eduLose_eq hi hjobs n status
  refine ⟨⟨_, _, hset, List.mem_cons_of_mem _ hm, ?_⟩, hlast, hevent⟩
  by_cases hn : m = n
  · rw [hn, Tab.find_set_self]
  · rw [Tab.find_set_of_ne _ _ hn, hfind]

/-- Of several peers that fail a job each one is lost. -/
theorem State.foldl_eduLose (hj : s.edu.jobs[i]? = some j) (status : Half) {ms : List Nat} {m : Nat} (hm : m ∈ ms) :
    PeerLost s i j status m (ms.foldl (fun s m => s.eduLose i m status) s) := by
  obtain ⟨hi, -⟩ := List.getElem?_eq_some_iff.1 hj
  obtain ⟨before, after, rfl⟩ := List.append_of_mem hm
  have hbefore : LosesPeers s i j (before.foldl (fun s m => s.eduLose i m status) s) :=
    List.foldlRecOn _ _ (.refl hj) fun _ ht n _ => (ht.eduLose hi n status).losesPeers
  rw [List.foldl_append, List.foldl_cons]
  exact List.foldlRecOn (motive := PeerLost s i j status m) _ _ (hbefore.eduLose hi m status) fun _ ht n _ => ht.eduLose hi n

end

/-! ### Tables that the headframe writes (R290) -/

theorem State.foldl_emit {α : Type} (f : α → Out) (l : List α) (s : State) :
    l.foldl (fun s a => s.emit (f a)) s = { s with out := s.out ++ l.map f } := by
  induction l generalizing s with
  | nil => simp
  | cons a l ih => rw [List.foldl_cons, ih]; simp [State.emit]

/-- A revision is kept, pending here where this module is of the domain, and sent to the others. -/
theorem State.writeRevision_eq (s : State) (ctx : Nat) (t : List Byte) :
    s.writeRevision ctx t = { s with
      edu := { s.edu with
        revisions := Tab.set s.edu.revisions ctx (s.time, t)
        pending := if bitAt (plMask t) s.walker.boardSlot then [(ctx, t)] else s.edu.pending }
      out := s.out ++ ((onesOf (plMask t) 8).filter fun m => decide (m ≠ s.walker.boardSlot)).map fun m =>
        Out.command m 0x0216 (leBytes 2 ctx ++ t) } := by
  unfold State.writeRevision
  dsimp only
  rw [State.foldl_emit]
  split <;> rfl

theorem PeerLost.reviseAgain {s t : State} {i m : Nat} {j : EduJob} {status : Half} (h : PeerLost s i j status m t) (ctx : Nat) :
    PeerLost s i j status m (t.reviseAgain ctx) := by
  unfold State.reviseAgain
  split
  · split
    · rw [State.writeRevision_eq]
      exact ⟨h.job, h.last, h.reported⟩
    · exact h
  · exact h

/-! ### Capacity (R284, R291) -/

/-- One assignment in the order of the procedure: it takes the next row where its expert is served, below the cap, or it is refused. -/
def EduJob.assignOne (j : EduJob) (own : Nat) (acc : Tab Nat × EduJob) (g : Nat × Nat × Nat × W32) : Tab Nat × EduJob :=
  let r := j.instOf own g.1 g.2.2.1
  let u := Tab.get 0 acc.1 r
  if u < (j.insts[r]?.map Instance.cap).getD 0 ∧ j.lost.contains ((j.insts[r]?.map Instance.slot).getD 0) = false then
    (Tab.set acc.1 r (u + 1), { acc.2 with admitted := acc.2.admitted ++ [(g.1, g.2.1, r, u)] })
  else (acc.1, { acc.2 with refused := acc.2.refused ++ [(g.1, g.2.1)] })

theorem EduJob.assign_eq (j : EduJob) (own : Nat) : j.assign own = (j.ranked.foldl (j.assignOne own)
    (j.insts.mapIdx fun r _ => (r, j.usedBefore own r),
      { j with nRows := j.insts.mapIdx fun r x => j.rowsOf r x.cap, phase := .sending })).2 := rfl

/-- Assignment g has been admitted or refused. -/
def EduJob.settled (a : EduJob) (g : Nat × Nat × Nat × W32) : Prop :=
  (∃ x ∈ a.admitted, x.1 = g.1 ∧ x.2.1 = g.2.1) ∨ (g.1, g.2.1) ∈ a.refused

/-- What holds of the rows that have been admitted of job j; `used` counts those that are taken at each place an expert is served. -/
structure EduJob.Admits (j : EduJob) (used : Tab Nat) (a : EduJob) : Prop where
  allowed : ∀ x ∈ a.admitted, x.2.2.2 < (j.insts[x.2.2.1]?.map Instance.cap).getD 0 ∧
    j.lost.contains ((j.insts[x.2.2.1]?.map Instance.slot).getD 0) = false
  taken : ∀ x ∈ a.admitted, x.2.2.2 < Tab.get 0 used x.2.2.1
  once : a.admitted.Pairwise fun x y => ¬(x.2.2.1 = y.2.2.1 ∧ x.2.2.2 = y.2.2.2)

section
variable {j : EduJob} {own : Nat}

theorem EduJob.Admits.assignOne {acc : Tab Nat × EduJob} (h : j.Admits acc.1 acc.2) (g : Nat × Nat × Nat × W32) :
    j.Admits (j.assignOne own acc g).1 (j.assignOne own acc g).2 := by
  unfold EduJob.assignOne
  dsimp only
  split
  · next hroom =>
    refine ⟨fun x hx => ?_, fun x hx => ?_, ?_⟩
    · rcases List.mem_append.1 hx with hx | hx
      · exact h.allowed x hx
      · rw [List.mem_singleton.1 hx]; exact hroom
    · rw [Tab.get_set]
      rcases List.mem_append.1 hx with hx | hx
      · have hold := h.taken x hx
        split
        · next hr => rw [hr] at hold; omega
        · exact hold
      · rw [List.mem_singleton.1 hx, if_pos rfl]; exact Nat.lt_succ_self _
    · refine List.pairwise_append.2 ⟨h.once, List.pairwise_singleton _ _, fun x hx y hy => ?_⟩
      rw [List.mem_singleton.1 hy]
      rintro ⟨hr, hu⟩
      have hold := h.taken x hx
      rw [hr, hu] at hold
      exact Nat.lt_irrefl _ hold
  · exact ⟨h.allowed, h.taken, h.once⟩

theorem EduJob.settled_assignOne (acc : Tab Nat × EduJob) (g : Nat × Nat × Nat × W32) : (j.assignOne own acc g).2.settled g := by
  unfold EduJob.assignOne
  dsimp only
  split
  · exact .inl ⟨_, List.mem_append_right _ (List.mem_singleton_self _), rfl, rfl⟩
  · exact .inr (List.mem_append_right _ (List.mem_singleton_self _))

theorem EduJob.settled.assignOne {acc : Tab Nat × EduJob} {g : Nat × Nat × Nat × W32} (h : acc.2.settled g)
    (g' : Nat × Nat × Nat × W32) : (j.assignOne own acc g').2.settled g := by
  unfold EduJob.assignOne
  dsimp only
  split
  · exact h.imp_left fun ⟨x, hx, hg⟩ => ⟨x, List.mem_append_left _ hx, hg⟩
  · exact h.imp_right (List.mem_append_left _)

theorem EduJob.admits_assign (j : EduJob) (own : Nat) (ha : j.admitted = []) : ∃ used, j.Admits used (j.assign own) := by
  rw [EduJob.assign_eq]
  refine ⟨_, List.foldlRecOn (motive := fun acc : Tab Nat × EduJob => j.Admits acc.1 acc.2) _ _ ?_ fun acc h g _ => h.assignOne g⟩
  constructor <;> simp [ha]

theorem EduJob.settled_assign (j : EduJob) (own : Nat) {g : Nat × Nat × Nat × W32} (hg : g ∈ j.gate) (hk : g.2.1 < j.k) :
    (j.assign own).settled g := by
  have hranked : g ∈ j.ranked := List.mem_flatMap.2 ⟨g.2.1, List.mem_range.2 hk, List.mem_filter.2 ⟨hg, by simp⟩⟩
  obtain ⟨before, after, hsplit⟩ := List.append_of_mem hranked
  rw [EduJob.assign_eq, hsplit, List.foldl_append, List.foldl_cons]
  exact List.foldlRecOn (motive := fun acc : Tab Nat × EduJob => acc.2.settled g) _ _ (EduJob.settled_assignOne _ g)
    fun acc h g' _ => h.assignOne g'

end

/-! ### The obligation -/

section
variable {s : State} {i : Nat} {j : EduJob}

/-- A job found at an HBM offset stands in the list at its number. -/
theorem getElem?_of_jobAt {ret : Bool} {offset : Nat} (h : s.jobAt ret offset = some (j, i)) : s.edu.jobs[i]? = some j :=
  List.mem_zipIdx_iff_getElem?.1 (List.mem_of_find?_eq_some h)

/-- The job of a message is one of its half. -/
theorem die_of_jobOf {h : EduHdr} (hof : s.jobOf h = some (j, i)) : j.die = h.half := by
  have hmatch := List.find?_some hof
  simp only [Bool.and_eq_true, decide_eq_true_eq] at hmatch
  obtain ⟨⟨⟨⟨-, hdie⟩, -⟩, -⟩, -⟩ := hmatch
  exact hdie

/-- A change of job i to one that is not sending leaves no send due where no job was sending. -/
theorem State.noSendDue_set {t : State} {x : EduJob} (hs : ∀ x ∈ s.edu.jobs, x.phase ≠ .sending) (hx : x.phase ≠ .sending)
    (ht : t.edu.jobs = s.edu.jobs.set i x) : t.NoSendDue :=
  State.noSendDue_of_not_sending fun y hy => by
    rw [ht] at hy
    rcases List.mem_or_eq_of_mem_set hy with hy | rfl
    · exact hs y hy
    · exact hx

/-- EDU_GO_WRITE of a job that waits for it: its own counts are held, and every other module of the domain is sent them (R284). -/
theorem eduGoWrite_sends {offset : Nat} {s1 s2 : State} {bs : List Byte} {g : GateRead} (hon : s.eduOn j.die = true)
    (hsending : ∀ x ∈ s.edu.jobs, x.phase ≠ .sending) (hat : s.jobAt false offset = some (j, i)) (hset : s.wordSet offset = true)
    (hphase : j.phase = .waitGo) (hfailed : j.failed = none)
    (hread : s.readBy .other j.ctx (j.b 150 6) (2 * j.n) = (.data bs, s1))
    (hgate : s1.eduGate { j with phase := .counting, slots := (List.range j.n).map fun t => fieldAt bs (2 * t) 2 } = (g, s2))
    (hstatus : g.status = 0) (hpoison : g.poison = []) :
    let own := s.walker.boardSlot
    let j2 : EduJob :=
      { j with phase := .counting, slots := (List.range j.n).map fun t => fieldAt bs (2 * t) 2, gate := g.gate }
    let cs := j2.ownCounts own
    ∃ t, exec (.eduGoWrite offset) s = .next t ∧ t.edu.jobs = s.edu.jobs.set i { j2 with counts := Tab.set j.counts own cs } ∧
      ∀ m ∈ j.domain, m ≠ own → Handed t (s.moduleAt m) 5 6
        ((eduHdrBytes (s2.eduHdr j2 1 0 0 0 0 false 0 (4 * cs.length)) ++ cs.flatMap fun c => leBytes 4 c).take 4096) := by
  intro own j2 cs
  have hstays : DispatchStays s s2 := by
    have h1 := s.readBy_dispatchStays .other j.ctx (j.b 150 6) (2 * j.n)
    have h2 := s1.eduGate_dispatchStays { j with phase := .counting, slots := (List.range j.n).map fun t => fieldAt bs (2 * t) 2 }
    rw [hread] at h1
    rw [hgate] at h2
    exact h1.trans h2
  have hgo := State.eduGo_eq (i := i) hfailed hread hgate hstatus hpoison
  rw [hstays.boardSlot] at hgo
  obtain ⟨hposted, hhanded⟩ := State.foldl_eduMsg j2 (cs.flatMap fun c => leBytes 4 c) 1 0 0 0 0 false 0 (4 * cs.length)
    (j.domain.filter fun m => decide (m ≠ own)) (s2.modJob i fun _ => { j2 with counts := Tab.set j.counts own cs })
  have hjob : s2.edu.jobs[i]? = some j := by rw [hstays.edu]; exact getElem?_of_jobAt hat
  have hjobs : (s.eduGo i j).edu.jobs = s.edu.jobs.set i { j2 with counts := Tab.set j.counts own cs } := by
    rw [hgo, hposted.edu, State.modJob_jobs _ hjob, hstays.edu]
  refine ⟨s.eduGo i j, ?_, hjobs, fun m hm hother => ?_⟩
  · have hquiet := State.noSendDue_set hsending (by simp [j2]) hjobs
    rw [exec_eduGoWrite, execEduGoWrite, hat]
    simp only [hset, hon, hphase, Bool.and_self, Bool.not_true, if_true, State.eduPump_of_noSendDue hquiet]
    rfl
  · have hplace : (s2.modJob i fun _ => { j2 with counts := Tab.set j.counts own cs }).moduleAt m = s.moduleAt m := by
      rw [State.moduleAt, State.me, State.moduleAt, State.me, ← hstays.moduleId]
      rfl
    rw [hgo, ← hplace]
    exact hhanded m (List.mem_filter.2 ⟨hm, by simpa using hother⟩)

/-- EDU_COUNT_MSG of a job that is counting, before the peer's counts are held: they are, or the peer is lost (R284, R290). -/
theorem eduCountMsg_eq {h : EduHdr} {counts : List Nat} (hon : s.eduOn j.die = true) (hof : s.jobOf h = some (j, i))
    (hphase : j.phase = .waitGo ∨ j.phase = .counting) (hnot : j.lost.contains h.slot = false) (hnone : Tab.find j.counts h.slot = none) :
    exec (.eduCountMsg h counts) s =
      if h.version ≠ plVersion j.tableBytes then .next ((s.eduLose i h.slot 0x901).reviseAgain j.ctx)
      else if counts.length ≠ j.insts.length ∨ h.bytes ≠ 4 * counts.length then .next (s.eduDrop j.die j.ctx)
      else .next (s.modJob i fun j => { j with counts := Tab.set j.counts h.slot counts }) := by
  rw [exec_eduCountMsg, execEduCountMsg, hof]
  dsimp only
  rw [if_neg (by simp [← die_of_jobOf hof, hon]), if_neg (by rw [hnot]; exact Bool.false_ne_true), if_neg (by simp [hnone]),
    if_neg (by simpa [or_iff_not_imp_left] using hphase)]

end

/-- Settles O33: the go write sends what `State.foldl_eduMsg` says under the header that the first message shows; counts change one entry of
one job; the rows admitted keep `EduJob.Admits` through the procedure; and each peer that fails the job is lost as `PeerLost` says. -/
theorem eduDispatchPhase : Obligations.EduDispatchPhase := by
  unfold Obligations.EduDispatchPhase
  intro s i j hj hon hsending own lost
  have hlost {t : State} {status : Half} {m : Nat} (h : PeerLost s i j status m t) : lost t status m := by
    obtain ⟨ls, counts, hjobs, hm, hfind⟩ := h.job
    obtain ⟨hstatus, hctx, hlayer, hhalf, hvalid⟩ := h.last
    exact ⟨_, hjobs, rfl, rfl, hm, hfind, hstatus, hctx, hlayer, hhalf, hvalid, h.reported⟩
  refine ⟨fun offset bs s1 g s2 hat hset hphase hfailed hread hgate hstatus hpoison =>
      eduGoWrite_sends (j := j) hon hsending hat hset hphase hfailed hread hgate hstatus hpoison, fun offset hat hset hphase => ?_,
    fun h counts hof hphase hnot hnone => ⟨fun hversion hlen hbytes => ?_, fun hversion => ?_⟩,
    fun hphase hall => ⟨?_, fun ha hr => ?_⟩, fun hphase hmiss => ?_⟩
  · rw [exec_eduGoWrite, execEduGoWrite, hat]
    simp [hset, hon, hphase]
  · rw [eduCountMsg_eq hon hof hphase hnot hnone, if_neg (not_not.2 hversion), if_neg (by simp [hlen, hbytes])]
    exact ⟨_, rfl, State.modJob_jobs _ hj, rfl⟩
  · rw [eduCountMsg_eq hon hof hphase hnot hnone, if_pos hversion]
    obtain ⟨hi, -⟩ := List.getElem?_eq_some_iff.1 hj
    exact ⟨_, rfl, hlost (((LosesPeers.refl hj).eduLose hi _ _).reviseAgain _)⟩
  · rw [exec_eduCapacityAssign, execEduCapacityAssign, hj]
    dsimp only
    rw [if_neg (by simpa [hon, hphase, Option.isSome_iff_ne_none] using hall)]
  · obtain ⟨used, hadmits⟩ := j.admits_assign own ha
    exact ⟨hadmits.allowed, hadmits.once, fun g hg hk => j.settled_assign own hg hk⟩
  · obtain ⟨m, hm, hnone⟩ := hmiss
    rw [exec_eduCountTimeout, execEduCountTimeout, hj]
    dsimp only
    rw [if_neg (by simpa [hon, hphase] using ⟨m, hm, hnone⟩)]
    exact ⟨_, rfl, fun m hm hnone => hlost (State.foldl_eduLose hj _ (List.mem_filter.2 ⟨hm, by simp [hnone]⟩))⟩

end Sys2Proof.Machine
end

section
/-! PROOFS. What each operation on a job leaves of it and of the other jobs (11 R285, R286, R289, R291). -/

namespace Sys2Proof.Machine

/-! ### Raises (R286) -/

section
variable (still : Bool) (s : State) (i : Nat) (j : EduJob)

theorem State.eduSendRaise_jobStep : JobStep still i s (s.eduSendRaise i j) := by
  unfold State.eduSendRaise
  split
  · exact .refl _ _ _
  · exact .modJob (fun _ => ⟨rfl, rfl, rfl, id, id, id, .inr (.inl rfl), fun _ => ⟨rfl, rfl⟩⟩)
      ((s.raiseIn_jobsStay _ _ _).jobStep still i)

theorem State.eduRecvRaise_jobStep : JobStep still i s (s.eduRecvRaise i j) := by
  unfold State.eduRecvRaise
  split
  · exact .refl _ _ _
  · exact .modJob (fun _ => ⟨rfl, rfl, rfl, id, fun _ => rfl, id, .inr (.inl rfl), fun _ => ⟨rfl, rfl⟩⟩)
      ((s.raiseIn_jobsStay _ _ _).jobStep still i)

theorem State.eduCombRaise_jobStep : JobStep still i s (s.eduCombRaise i j) := by
  unfold State.eduCombRaise
  split
  · exact .refl _ _ _
  · exact .modJob (fun _ => ⟨rfl, rfl, rfl, id, id, id, .inr (.inl rfl), fun _ => ⟨rfl, rfl⟩⟩)
      ((s.raiseIn_jobsStay _ _ _).jobStep still i)

variable {s i j}

/-- After the receive raise of a job it counts as raised. -/
theorem State.recvRaised_eduRecvRaise {x : EduJob} (hx : s.edu.jobs[i]? = some x) (hr : j.recvRaised = true → x.recvRaised = true) :
    ∃ x', (s.eduRecvRaise i j).edu.jobs[i]? = some x' ∧ x'.recvRaised = true := by
  unfold State.eduRecvRaise
  split
  · next hj => exact ⟨x, hx, hr hj⟩
  · exact ⟨_, State.getElem?_modJob_self _ (((s.raiseIn_jobsStay _ _ _).jobs ▸ hx)), rfl⟩

end

/-! ### The end of a job, and refused tokens (R285, R291) -/

section
variable (still : Bool) (s : State) (i : Nat)

/-- A failed job has ended, with its receive raise. -/
theorem State.eduFail_spec (status : Half) : JobStep still i s (s.eduFail i status) ∧ ∀ j, s.edu.jobs[i]? = some j →
    ∃ j', (s.eduFail i status).edu.jobs[i]? = some j' ∧ j'.phase = .done ∧ j'.failed = some status ∧ j'.recvRaised = true := by
  unfold State.eduFail
  split
  · next hnone => exact ⟨.refl _ _ _, fun j hj => by simp [hnone] at hj⟩
  · next j hj =>
    dsimp only
    have hrows : JobsStay s ((List.range j.n).foldl (fun s t => (s.combineRow { j with admitted := [] } t).2) (s.eduRefuseAll j)) :=
      (s.eduRefuseAll_jobsStay j).trans (.foldl (fun t _ => (t.combineRow_dispatchStays _ _).jobsStay) _ _)
    generalize (List.range j.n).foldl (fun s t => (s.combineRow { j with admitted := [] } t).2) (s.eduRefuseAll j) = u at hrows ⊢
    have hsend := (hrows.jobStep still i).trans (u.eduSendRaise_jobStep still i j)
    obtain ⟨x, hx, hgo⟩ := hsend.self j hj
    obtain ⟨x', hx', hraised⟩ := State.recvRaised_eduRecvRaise (j := j) hx hgo.recvRaised
    have hraises := (hsend.trans (State.eduRecvRaise_jobStep still _ i j)).trans (State.eduCombRaise_jobStep still _ i j)
    obtain ⟨y, hy, hgo'⟩ := (State.eduCombRaise_jobStep still ((u.eduSendRaise i j).eduRecvRaise i j) i j).self x' hx'
    generalize ((u.eduSendRaise i j).eduRecvRaise i j).eduCombRaise i j = v at hraises hy ⊢
    refine ⟨?_, fun _ _ => ⟨{ y with phase := .done, failed := some status }, ?_, rfl, rfl, hgo'.recvRaised hraised⟩⟩
    · refine .stays (State.count_jobsStay _ _ _) (.stays (State.eduReport_jobsStay _ _ _) (.modJob (fun x => ?_)
        (.stays (v.failSeqs_jobsStay _ _ _) hraises)))
      exact ⟨rfl, rfl, rfl, id, id, nofun, .inl rfl, fun _ => ⟨rfl, rfl⟩⟩
    · exact State.getElem?_modJob_self (s := v) (fun j => { j with phase := .done, failed := some status }) hy

theorem State.eduFail_jobStep (status : Half) : JobStep still i s (s.eduFail i status) := (s.eduFail_spec still i status).1

theorem State.eduPoisonTok_jobStep (j : EduJob) (t : Nat) : JobStep still i s (s.eduPoisonTok i j t) :=
  .stays (State.eduReport_jobsStay _ _ _) (.stays (State.eduFailToks_jobsStay _ _ _ _) (.modJob
    (fun _ => ⟨rfl, rfl, rfl, id, id, id, .inr (.inl rfl), fun _ => ⟨rfl, rfl⟩⟩)
    ((s.eduCountRefused_jobsStay j _).jobStep still i)))

theorem State.eduCombine_jobStep (t : Nat) : JobStep still i s (s.eduCombine i t) := by
  unfold State.eduCombine
  split
  · exact .refl _ _ _
  · next j _ =>
    have hrow := (s.combineRow_dispatchStays j t).jobStep still i
    have hpoison := (hrow.trans (State.eduPoisonTok_jobStep still _ i j t)).trans
      ((State.combineRow_dispatchStays _ { j with admitted := [] } t).jobStep still i)
    exact .ite hrow (.ite (.ite hpoison (hpoison.trans (State.eduFail_jobStep _ _ _ _)))
      (hrow.trans (State.eduFail_jobStep _ _ _ _)))

theorem State.eduClose_jobStep : JobStep still i s (s.eduClose i) := by
  unfold State.eduClose
  split
  · exact .refl _ _ _
  · next j _ =>
    have hraise := s.eduCombRaise_jobStep still i j
    refine .ite (.refl _ _ _) (.ite (.stays (State.count_jobsStay _ _ _) (.modJob (fun _ => ?_) hraise)) hraise)
    exact ⟨rfl, rfl, rfl, id, id, id, .inl rfl, fun _ => ⟨rfl, rfl⟩⟩

end

/-! ### Rows that arrive (R279, R286) -/

section
variable (s : State) (i : Nat)

/-- A job with one more row received. -/
def EduJob.took (j : EduJob) (x : Nat × Nat) : EduJob := { j with received := j.received ++ [x] }

theorem EduJob.goesOn_took (still : Bool) (j : EduJob) (x : Nat × Nat) : j.GoesOn still (j.took x) :=
  ⟨rfl, rfl, rfl, id, id, id, .inr (.inl rfl), fun _ => ⟨rfl, rfl⟩⟩

/-- A row is placed and counts as received, or a fault fails the job. -/
theorem State.eduPlace_cases (j : EduJob) (a row slot tok rank : Nat) (data : List Byte) : ∃ t, DispatchStays s t ∧
    (s.eduPlace i j a row slot tok rank data = t.modJob i (fun j => j.took (a, row)) ∨
      s.eduPlace i j a row slot tok rank data = t.eduFail i 0x900) := by
  unfold State.eduPlace
  dsimp only
  split
  · refine ⟨_, ?_, .inl rfl⟩
    exact (s.writeBy_dispatchStays _ _ _ _).trans (State.writeBy_dispatchStays _ _ _ _ _)
  · refine ⟨_, ?_, .inr rfl⟩
    exact (s.writeBy_dispatchStays _ _ _ _).trans (State.writeBy_dispatchStays _ _ _ _ _)

theorem State.eduPlace_jobStep (still : Bool) (j : EduJob) (a row slot tok rank : Nat) (data : List Byte) :
    JobStep still i s (s.eduPlace i j a row slot tok rank data) := by
  obtain ⟨t, ht, heq | heq⟩ := s.eduPlace_cases i j a row slot tok rank data <;> rw [heq]
  · exact .modJob (fun j => j.goesOn_took _ _) (ht.jobStep still i)
  · exact (ht.jobStep still i).trans (State.eduFail_jobStep _ _ _ _)

theorem State.eduArrive_jobStep (t r : Nat) (data : List Byte) : JobStep false i s (s.eduArrive i t r data) := by
  unfold State.eduArrive
  split
  · exact .refl _ _ _
  · next j hj =>
    have hwrite := s.writeBy_dispatchStays .other j.ctx (j.b 156 6 + (t * j.k + r) * up64 (eduRow (s.hidden j) (j.b 133 1))) data
    have harrived := (hwrite.jobStep false i).trans (State.modJob_jobStep false i _
      (f := fun _ => { j with returned := j.returned ++ [(t, r)] }) fun x hx => by
        rw [hwrite.edu, hj] at hx
        exact Option.some.inj hx ▸ ⟨rfl, rfl, rfl, id, id, id, .inr (.inl rfl), nofun⟩)
    exact .ite ((hwrite.jobStep false i).trans (State.eduFail_jobStep _ _ _ _))
      (.ite (harrived.trans (State.eduCombine_jobStep _ _ _ _)) harrived)

theorem State.eduReturnRow_jobStep (j : EduJob) (x : Instance × Nat) (a : Nat) : JobStep false i s (s.eduReturnRow i j x a) := by
  unfold State.eduReturnRow
  dsimp only
  have hread := ((s.readBy_dispatchStays .other j.ctx (j.b 174 6 + x.1.loc * j.b 186 4 + a * up64 (eduRow (s.hidden j) (j.b 133 1)))
    (eduRow (s.hidden j) (j.b 133 1))).trans (State.readBy_dispatchStays _ .other j.ctx (j.b 180 6 + x.1.loc * j.b 186 4 + 64 + 8 * a)
      8)).jobStep false i
  refine .ite (hread.trans (State.eduFail_jobStep _ _ _ _)) (.ite ?_ ?_)
  · split
    · exact hread
    · exact .ite ((hread.trans (State.eduPoisonTok_jobStep _ _ _ _ _)).trans (State.eduCombine_jobStep _ _ _ _))
        ((hread.trans (.ite ((State.eduFailToks_jobsStay _ _ _ _).jobStep _ _) (.refl _ _ _))).trans (State.eduArrive_jobStep _ _ _ _ _))
  · exact .stays (State.count_jobsStay _ _ _) (.stays (State.eduMsg_postOnly _ _ _ _ _).toDispatchStays.jobsStay hread)

/-- A job whose return write has come: its return phase has begun, and no return write is held. -/
def EduJob.begun (j : EduJob) : EduJob :=
  { j with phase := if j.phase = .waitReturn then .returning else j.phase, back := true, returnHeld := false }

theorem EduJob.goesOn_begun (j : EduJob) : j.GoesOn false j.begun where
  die := rfl
  ctx := rfl
  block := rfl
  back _ := rfl
  recvRaised := id
  failed := id
  phase := by by_cases hj : j.phase = .waitReturn <;> simp [EduJob.sent_iff, EduJob.begun, hj]
  rows := nofun

/-- The return phase, once it has begun. -/
theorem State.eduReturn_rows_jobStep (j : EduJob) : JobStep false i (s.modJob i EduJob.begun) (s.eduReturn i j) := by
  unfold State.eduReturn
  refine .trans (.foldl (fun t x => .foldl (fun t a => ?_) _ _) _ _) (State.eduClose_jobStep _ _ _)
  split
  · exact .ite (.refl _ _ _) (t.eduReturnRow_jobStep i _ x a)
  · exact .refl _ _ _

theorem State.eduReturn_jobStep (j : EduJob) : JobStep false i s (s.eduReturn i j) :=
  (JobStep.modJob EduJob.goesOn_begun (.refl false i s)).trans (s.eduReturn_rows_jobStep i j)

/-- The return phase of a job is marked as begun, whatever its rows come to. -/
theorem State.back_eduReturn (j : EduJob) {x : EduJob} (hx : s.edu.jobs[i]? = some x) :
    ∃ x', (s.eduReturn i j).edu.jobs[i]? = some x' ∧ x'.back = true := by
  obtain ⟨x', hx', hgo⟩ := (s.eduReturn_rows_jobStep i j).self _ (State.getElem?_modJob_self _ hx)
  exact ⟨x', hx', hgo.back rfl⟩

/-- Where its rows are not all in, or it cannot raise yet, a job receives nothing. -/
theorem State.eduReceive_of_not {j : EduJob} (hj : s.edu.jobs[i]? = some j)
    (h : ¬(j.recvRaised = false ∧ (j.phase = .sending ∨ j.sent = true) ∧ j.allIn s.walker.boardSlot = true)) :
    s.eduReceive i = s := by
  unfold State.eduReceive
  rw [hj]
  dsimp only
  rw [if_pos (by simpa [or_iff_not_imp_left] using h)]

/-- The rows of a job are all in: the row counts are written and recv_ctr rises, or a fault fails the job. A return write that was held
starts its phase. -/
theorem State.eduReceive_cases {j : EduJob} (hj : s.edu.jobs[i]? = some j) (hraised : j.recvRaised = false)
    (hready : j.phase = .sending ∨ j.sent = true) (hall : j.allIn s.walker.boardSlot = true) : ∃ t, DispatchStays s t ∧
      (s.eduReceive i = t.eduFail i 0x900 ∨ s.eduReceive i =
        if j.returnHeld then (t.eduRecvRaise i j).eduReturn i { j with recvRaised := true } else t.eduRecvRaise i j) := by
  unfold State.eduReceive
  rw [hj]
  dsimp only
  rw [if_neg (by simpa [hraised, hall, or_iff_not_imp_left] using hready)]
  split
  · refine ⟨_, ?_, .inl rfl⟩
    refine DispatchStays.foldl_snd (fun a x => ?_) _ (true, s)
    exact a.2.writeBy_dispatchStays _ _ _ _
  · refine ⟨_, ?_, .inr rfl⟩
    refine DispatchStays.foldl_snd (fun a x => ?_) _ (true, s)
    exact a.2.writeBy_dispatchStays _ _ _ _

theorem State.eduReceive_jobStep : JobStep false i s (s.eduReceive i) := by
  cases hj : s.edu.jobs[i]? with
  | none => unfold State.eduReceive; rw [hj]; exact .refl _ _ _
  | some j =>
    by_cases h : j.recvRaised = false ∧ (j.phase = .sending ∨ j.sent = true) ∧ j.allIn s.walker.boardSlot = true
    · obtain ⟨hraised, hready, hall⟩ := h
      obtain ⟨t, ht, heq | heq⟩ := s.eduReceive_cases i hj hraised hready hall <;> rw [heq]
      · exact (ht.jobStep _ _).trans (State.eduFail_jobStep _ _ _ _)
      · have hraise := (ht.jobStep false i).trans (t.eduRecvRaise_jobStep false i j)
        exact .ite (hraise.trans (State.eduReturn_jobStep _ _ _)) hraise
    · rw [s.eduReceive_of_not i hj h]; exact .refl _ _ _

/-! ### Sends (R285, R286, R289) -/

theorem State.eduSendRow_jobStep (a : Nat × Nat × Nat × Nat) : JobStep false i s (s.eduSendRow i a) := by
  unfold State.eduSendRow
  split
  · exact .refl _ _ _
  · next j _ =>
    dsimp only
    have hread := (s.readBy_dispatchStays .other j.ctx (j.b 136 6 + a.1 * (j.b 142 2 * 64)) (eduRow (s.hidden j) (j.b 132 1))).jobStep
      false i
    refine .ite (.refl _ _ _) ?_
    split
    · exact hread.trans (State.eduFail_jobStep _ _ _ _)
    · exact hread.trans (State.eduPoisonTok_jobStep _ _ _ _ _)
    · exact .ite (hread.trans (State.eduPlace_jobStep _ _ _ _ _ _ _ _ _ _))
        (.stays (State.count_jobsStay _ _ _) (.stays (State.eduMsg_postOnly _ _ _ _ _).toDispatchStays.jobsStay hread))

/-- The send of a job changes no other one. -/
theorem State.eduSend_other (j : EduJob) {k : Nat} (hk : k ≠ i) : (s.eduSend i j).edu.jobs[k]? = s.edu.jobs[k]? := by
  have hrows : JobStep false i s (j.admitted.foldl (fun s a => s.eduSendRow i a) s) := .foldl (fun t a => t.eduSendRow_jobStep i a) _ s
  unfold State.eduSend
  dsimp only
  split
  · exact hrows.other k hk
  · next j1 _ =>
    split
    · exact hrows.other k hk
    · generalize j.admitted.foldl (fun s a => s.eduSendRow i a) s = u at hrows
      have hraised := hrows.trans (u.eduSendRaise_jobStep false i j1)
      have hend (v : State) (ts : List Nat) : JobStep false i v (((ts.foldl (fun s t => s.eduCombine i t) v).eduReceive i).eduClose i) :=
        ((JobStep.foldl (fun t _ => t.eduCombine_jobStep _ _ _) _ _).trans (State.eduReceive_jobStep _ _)).trans
          (State.eduClose_jobStep _ _ _)
      rw [(hend _ _).other k hk, State.getElem?_modJob, if_neg hk, hraised.other k hk]

end

/-- A job that has ended stays as it is while other jobs send. -/
theorem State.eduPump_done {s : State} {i : Nat} {j : EduJob} (hj : s.edu.jobs[i]? = some j) (hd : j.phase = .done) :
    s.eduPump.edu.jobs[i]? = some j := by
  refine List.foldlRecOn (motive := fun t : State => t.edu.jobs[i]? = some j) _ _ hj fun t ht k _ => ?_
  split
  · next x hx =>
    split
    · next hdue =>
      have hk : i ≠ k := by
        rintro rfl
        rw [hx] at ht
        rw [Option.some.inj ht] at hdue
        simp [State.mayEduSend, hd] at hdue
      rw [t.eduSend_other k x hk, ht]
    · exact ht
  · exact ht

/-- Where no send was due, what acts on one job leaves that job to no send: either none is due, or the job has ended and others send. -/
theorem JobStep.eduPump {still : Bool} {i : Nat} {s t : State} {j j' : EduJob} (h : JobStep still i s t) (hs : s.NoSendDue)
    (hj : s.edu.jobs[i]? = some j) (hj' : t.edu.jobs[i]? = some j') : t.eduPump.edu.jobs[i]? = some j' := by
  by_cases hd : j'.phase = .done
  · exact State.eduPump_done hj' hd
  · rw [State.eduPump_of_noSendDue (h.noSendDue hj hj' hd hs), hj']

end Sys2Proof.Machine
end

section
/-! PROOFS. Rows, returns and timeouts of a dispatch, and placement revision (11 R286, R288 to R291). -/

namespace Sys2Proof.Machine

/-! ### The meaning of each command -/

theorem exec_eduDispatchMsg (h : EduHdr) (row : List Byte) (s : State) :
    exec (.eduDispatchMsg h row) s = execEduDispatchMsg h row s := rfl
theorem exec_eduReturnWrite (offset : Nat) (s : State) : exec (.eduReturnWrite offset) s = execEduReturnWrite offset s := rfl
theorem exec_eduReturnMsg (h : EduHdr) (row : List Byte) (s : State) : exec (.eduReturnMsg h row) s = execEduReturnMsg h row s := rfl
theorem exec_eduRecvTimeout (die job : Nat) (s : State) : exec (.eduRecvTimeout die job) s = execEduRecvTimeout die job s := rfl
theorem exec_placementRevision (ctx : Nat) (table : List Byte) (s : State) :
    exec (.placementRevision ctx table) s = execPlacementRevision ctx table s := rfl

section
variable {s : State} {i : Nat} {j : EduJob}

/-- The module with the row of a message written and counted as received (R286, R288). -/
def State.rowTaken (s : State) (i : Nat) (j : EduJob) (h : EduHdr) (row : List Byte) : State :=
  (s.eduPlace i j h.inst h.row h.slot h.token h.rank row).count (duReg j.die 0x110) 1

/-- EDU_DISPATCH_MSG of a row that its job waits for. -/
theorem eduDispatchMsg_eq {h : EduHdr} {row : List Byte} (hon : s.eduOn j.die = true) (hof : s.jobOf h = some (j, i))
    (hd : j.phase ≠ .done) (hraised : j.recvRaised = false) (hok : j.rowOk s.walker.boardSlot h.slot h.inst h.row = true)
    (hlost : j.lost.contains h.slot = false) (hnew : j.received.contains (h.inst, h.row) = false)
    (hrow : row.length = eduRow (s.hidden j) (j.b 132 1)) (hbytes : h.bytes = row.length) :
    exec (.eduDispatchMsg h row) s = .next ((s.rowTaken i j h row).eduReceive i).eduPump := by
  rw [exec_eduDispatchMsg, execEduDispatchMsg, hof]
  dsimp only
  rw [if_neg (by simp [← die_of_jobOf hof, hon]), if_neg (by rw [hnew]; simp),
    if_neg (by rw [hlost, hok]; simp [hd, hraised, hrow, hbytes])]
  rfl

/-- Both writes of a received row succeed: the row counts as received, and nothing but memory changed beside it. -/
theorem State.rowTaken_of_writes {h : EduHdr} {row : List Byte} {a b : Bool × State}
    (ha : s.writeBy .other j.ctx (j.b 168 6 + ((j.insts[h.inst]?.map Instance.loc).getD 0) * j.b 186 4 +
      h.row * up64 (eduRow (s.hidden j) (j.b 132 1))) row = a)
    (hb : a.2.writeBy .other j.ctx (j.b 180 6 + ((j.insts[h.inst]?.map Instance.loc).getD 0) * j.b 186 4 + 64 + 8 * h.row)
      (eduTag h.slot h.token h.rank) = b) (hat : a.1 = true) (hbt : b.1 = true) :
    DispatchStays s b.2 ∧ s.rowTaken i j h row =
      (b.2.modJob i fun j => j.took (h.inst, h.row)).count (duReg j.die 0x110) 1 := by
  subst ha hb
  refine ⟨(s.writeBy_dispatchStays _ _ _ _).trans (State.writeBy_dispatchStays _ _ _ _ _), ?_⟩
  unfold State.rowTaken State.eduPlace
  dsimp only
  rw [if_pos (by simp [hat, hbt])]
  rfl

/-! ### The receive raise (R286) -/

theorem State.physIn_congr {t : State} (hc : t.cores = s.cores) (hp : t.pins = s.pins) (panel core : Nat) :
    t.physIn panel core = s.physIn panel core := by
  unfold State.physIn State.core
  rw [hc, hp]

theorem State.arrival_congr {t : State} (hc : t.cores = s.cores) (hp : t.pins = s.pins) (q : Nat) (c : BitVec 8) :
    t.arrival q c = s.arrival q c := by
  simp only [State.arrival, State.core, hc, hp]

@[simp] theorem State.raiseIn_edu (s : State) (panel core ctr : Nat) : (s.raiseIn panel core ctr).edu = s.edu := by
  unfold State.raiseIn
  split <;> rfl

theorem State.eduRecvRaise_edu (hj : s.edu.jobs[i]? = some j) (hr : j.recvRaised = false) :
    (s.eduRecvRaise i j).edu = { s.edu with jobs := s.edu.jobs.set i { j with recvRaised := true } } := by
  unfold State.eduRecvRaise
  rw [if_neg (by simp [hr]), State.modJob_edu (j := j) _ (by rw [State.raiseIn_edu, hj]), State.raiseIn_edu]

/-- The receive raise of a job is the raise of one arrival counter. -/
theorem State.signalled_eduRecvRaise {p : Nat} (hr : j.recvRaised = false) (hp : s.physIn j.panel (j.b 192 1) = some p) :
    signalled { core := p, signal := true, signalCtr := BitVec.ofNat 8 (j.b 193 1) } s (s.eduRecvRaise i j) := by
  unfold State.eduRecvRaise State.raiseIn
  rw [if_neg (by simp [hr]), hp]
  exact s.signal_arrival { core := p, signal := true, signalCtr := BitVec.ofNat 8 (j.b 193 1) }

/-- Something acted on job i, whose rows are now all in: it raises recv_ctr, or a fault fails it, which raises it too. -/
theorem JobStep.receives {t : State} {x : EduJob} (h : JobStep false i s t) (hs : s.NoSendDue) (hj : s.edu.jobs[i]? = some j)
    (hx : t.edu.jobs[i]? = some x) (hraised : x.recvRaised = false) (hready : x.phase = .sending ∨ x.sent = true)
    (hall : x.allIn t.walker.boardSlot = true) (hheld : x.returnHeld = false) :
    (∃ x', (t.eduReceive i).eduPump.edu.jobs[i]? = some x' ∧ x'.recvRaised = true ∧ x'.failed ≠ none ∧ x'.zeroed = x.zeroed) ∨
      ∃ w, DispatchStays t w ∧ (t.eduReceive i).eduPump = w.eduRecvRaise i x := by
  have hundone : x.phase ≠ .done := by
    rw [EduJob.sent_iff] at hready
    rintro hd
    simp [hd] at hready
  obtain ⟨w, hw, heq | heq⟩ := t.eduReceive_cases i hx hraised hready hall
  · left
    have hxw : w.edu.jobs[i]? = some x := hw.edu ▸ hx
    obtain ⟨hstep, hself⟩ := w.eduFail_spec true i 0x900
    obtain ⟨x', hx', -, hfailed, hrecv⟩ := hself x hxw
    rw [heq]
    refine ⟨x', (h.trans ((hw.jobStep false i).trans hstep.loose)).eduPump hs hj hx', hrecv, by simp [hfailed], ?_⟩
    exact ((hstep.goesOn hxw hx').rows rfl).2
  · right
    have hxw : w.edu.jobs[i]? = some x := hw.edu ▸ hx
    rw [hheld, if_neg Bool.false_ne_true] at heq
    have hself : (t.eduReceive i).edu.jobs[i]? = some { x with recvRaised := true } := by
      obtain ⟨hi, -⟩ := List.getElem?_eq_some_iff.1 hxw
      rw [heq, State.eduRecvRaise_edu hxw hraised, List.getElem?_set_self hi]
    exact ⟨w, hw, by rw [State.eduPump_of_noSendDue ((h.trans (t.eduReceive_jobStep i)).noSendDue hj hself hundone hs), heq]⟩

/-! ### Rows of messages (R286, R288) -/

/-- The phases in which a job raises recv_ctr once its rows are in. -/
theorem EduJob.ready_iff (j : EduJob) :
    (j.phase = .sending ∨ j.sent = true) ↔ j.phase = .sending ∨ j.phase = .waitReturn ∨ j.phase = .returning := by
  rw [EduJob.sent_iff]

section
variable {h : EduHdr} {row : List Byte} {b : State} (hstays : DispatchStays s b) (heq : s.rowTaken i j h row =
  (b.modJob i fun j => j.took (h.inst, h.row)).count (duReg j.die 0x110) 1)
  (hj : s.edu.jobs[i]? = some j)
include hstays heq hj

theorem State.rowTaken_jobs : (s.rowTaken i j h row).edu.jobs =
    s.edu.jobs.set i (j.took (h.inst, h.row)) := by
  rw [heq]
  exact (State.modJob_jobs _ (hstays.edu ▸ hj)).trans (by rw [hstays.edu])

theorem State.rowTaken_getElem? : (s.rowTaken i j h row).edu.jobs[i]? = some (j.took (h.inst, h.row)) := by
  obtain ⟨hi, -⟩ := List.getElem?_eq_some_iff.1 hj
  rw [State.rowTaken_jobs hstays heq hj, List.getElem?_set_self hi]

omit hj in
theorem State.rowTaken_jobStep : JobStep false i s (s.rowTaken i j h row) := by
  rw [heq]
  exact .stays (State.count_jobsStay _ _ _) (.modJob (fun x => x.goesOn_took false _) (hstays.jobStep false i))

omit hj in
theorem State.rowTaken_frame : (s.rowTaken i j h row).hbm = b.hbm ∧ (s.rowTaken i j h row).cores = s.cores ∧
    (s.rowTaken i j h row).pins = s.pins ∧ (s.rowTaken i j h row).walker.boardSlot = s.walker.boardSlot := by
  rw [heq]
  exact ⟨rfl, hstays.cores, hstays.pins, hstays.boardSlot⟩

/-- While rows of a job are missing, a further one is written and counts as received, and that is all. -/
theorem State.rowTaken_waits (hs : s.NoSendDue) (hd : j.phase ≠ .done)
    (hwait : ¬((j.phase = .sending ∨ j.sent = true) ∧
      (j.took (h.inst, h.row)).allIn s.walker.boardSlot = true)) :
    ((s.rowTaken i j h row).eduReceive i).eduPump = s.rowTaken i j h row := by
  obtain ⟨-, -, -, hslot⟩ := State.rowTaken_frame hstays heq
  have hself := State.rowTaken_getElem? hstays heq hj
  rw [State.eduReceive_of_not _ _ hself (by rw [hslot]; exact fun hall => hwait hall.2)]
  exact State.eduPump_of_noSendDue ((State.rowTaken_jobStep hstays heq).noSendDue hj hself (j' := j.took (h.inst, h.row)) hd hs)

/-- The last row of a job raises recv_ctr, unless a fault fails the job, which raises it too. -/
theorem State.rowTaken_raises (hs : s.NoSendDue) (hraised : j.recvRaised = false) (hready : j.phase = .sending ∨ j.sent = true)
    (hall : (j.took (h.inst, h.row)).allIn s.walker.boardSlot = true)
    (hheld : j.returnHeld = false) {p : Nat} (hp : s.physIn j.panel (j.b 192 1) = some p) :
    ∃ j', ((s.rowTaken i j h row).eduReceive i).eduPump.edu.jobs[i]? = some j' ∧ j'.recvRaised = true ∧
      (j'.failed = none → ((s.rowTaken i j h row).eduReceive i).eduPump.edu.jobs =
          s.edu.jobs.set i { j.took (h.inst, h.row) with recvRaised := true } ∧
        signalled { core := p, signal := true, signalCtr := BitVec.ofNat 8 (j.b 193 1) } s
          ((s.rowTaken i j h row).eduReceive i).eduPump) := by
  obtain ⟨-, hcores, hpins, hslot⟩ := State.rowTaken_frame hstays heq
  have hself := State.rowTaken_getElem? hstays heq hj
  rcases (State.rowTaken_jobStep hstays heq).receives hs hj hself hraised hready (by rw [hslot]; exact hall) hheld with
    ⟨x', hx', hrecv, hfailed, -⟩ | ⟨w, hw, heq'⟩
  · exact ⟨x', hx', hrecv, fun hnone => absurd hnone hfailed⟩
  · have hedu := State.eduRecvRaise_edu (s := w) (i := i) (j := j.took (h.inst, h.row)) (hw.edu ▸ hself) hraised
    have hjobs : (w.eduRecvRaise i (j.took (h.inst, h.row))).edu.jobs =
        s.edu.jobs.set i { j.took (h.inst, h.row) with recvRaised := true } := by
      rw [hedu, hw.edu, State.rowTaken_jobs hstays heq hj]
      exact List.set_set _
    obtain ⟨hi, -⟩ := List.getElem?_eq_some_iff.1 hj
    rw [heq', hjobs]
    refine ⟨_, List.getElem?_set_self hi, rfl, fun _ => ⟨rfl, fun q c => ?_⟩⟩
    have hplace := State.physIn_congr (hw.cores.trans hcores) (hw.pins.trans hpins) j.panel (j.b 192 1)
    rw [← State.arrival_congr (hw.cores.trans hcores) (hw.pins.trans hpins)]
    exact w.signalled_eduRecvRaise (i := i) (j := j.took (h.inst, h.row)) hraised (hplace.trans hp) q c

end

/-! ### Return writes and returned rows (R280, R286) -/

/-- EDU_RETURN_WRITE of a job that has not returned: its return phase begins, or the write is held. -/
theorem eduReturnWrite_eq {offset : Nat} (hon : s.eduOn j.die = true) (hat : s.jobAt true offset = some (j, i))
    (hset : s.wordSet offset = true) (hback : j.back = false) (hd : j.phase ≠ .done) :
    exec (.eduReturnWrite offset) s =
      if j.recvRaised then .next (s.eduReturn i j).eduPump else .next (s.modJob i fun j => { j with returnHeld := true }) := by
  rw [exec_eduReturnWrite, execEduReturnWrite, hat]
  dsimp only
  rw [if_neg (by simp [hset, hon]), if_neg (by simp [hback, hd])]

/-- A job with one more row returned. -/
def EduJob.gotBack (j : EduJob) (x : Nat × Nat) : EduJob := { j with returned := j.returned ++ [x] }

/-- EDU_RETURN_MSG of a row that its job waits for, neither zeroed nor poisoned. -/
theorem eduReturnMsg_eq {h : EduHdr} {row : List Byte} {y : Nat × Nat × Nat × Nat} (hon : s.eduOn j.die = true)
    (hof : s.jobOf h = some (j, i)) (hd : j.phase ≠ .done) (hzero : h.zeroed = false) (hpoison : h.poison = false)
    (hrow : row.length = eduRow (s.hidden j) (j.b 133 1)) (hbytes : h.bytes = row.length)
    (hnew : j.returned.contains (y.1, y.2.1) = false)
    (hfind : j.admitted.find? (fun y => decide (y.2.2.1 = h.inst ∧ y.2.2.2 = h.row) &&
      (h.zeroed || decide (y.1 = h.token ∧ y.2.1 = h.rank))) = some y) :
    exec (.eduReturnMsg h row) s = .next ((s.eduArrive i y.1 y.2.1 row).eduClose i).eduPump := by
  rw [exec_eduReturnMsg, execEduReturnMsg, hof]
  dsimp only
  rw [if_neg (by simp [← die_of_jobOf hof, hon]), hfind]
  dsimp only
  rw [if_neg (by rw [hnew]; exact Bool.false_ne_true), if_neg (by simp [hd, hrow, hbytes]), hpoison, hzero]
  rfl

/-- A returned row that is written counts for its token, which is combined once all its rows are there. -/
theorem State.eduArrive_eq {t r : Nat} {row : List Byte} {a : Bool × State} (hj : s.edu.jobs[i]? = some j)
    (ha : s.writeBy .other j.ctx (j.b 156 6 + (t * j.k + r) * up64 (eduRow (s.hidden j) (j.b 133 1))) row = a) (hat : a.1 = true) :
    s.eduArrive i t r row =
      if ((j.admitted.filter fun x => decide (x.1 = t)).all fun x => (j.returned ++ [(t, r)]).contains (t, x.2.1)) = true then
        (a.2.modJob i fun _ => j.gotBack (t, r)).eduCombine i t
      else a.2.modJob i fun _ => j.gotBack (t, r) := by
  subst ha
  unfold State.eduArrive
  rw [hj]
  dsimp only
  rw [hat, if_neg (by simp)]
  rfl

/-- While rows of a job are to come back it is not closed. -/
theorem State.eduClose_of_not (hj : s.edu.jobs[i]? = some j) (h : ∃ z ∈ j.admitted, (z.1, z.2.1) ∉ j.returned) :
    s.eduClose i = s := by
  obtain ⟨z, hz, hnot⟩ := h
  have hall : (j.admitted.all fun x => j.returned.contains (x.1, x.2.1)) = false :=
    List.all_eq_false.2 ⟨z, hz, by simpa using hnot⟩
  unfold State.eduClose
  rw [hj]
  dsimp only
  rw [hall, if_pos (by simp)]

section
variable {t r : Nat} {row : List Byte} {a : Bool × State} (hj : s.edu.jobs[i]? = some j)
  (ha : s.writeBy .other j.ctx (j.b 156 6 + (t * j.k + r) * up64 (eduRow (s.hidden j) (j.b 133 1))) row = a)
include hj ha

/-- The write of a returned row, and its count. -/
theorem State.gotBack_jobStep : JobStep false i s (a.2.modJob i fun _ => j.gotBack (t, r)) ∧
    (a.2.modJob i fun _ => j.gotBack (t, r)).edu.jobs[i]? = some (j.gotBack (t, r)) := by
  have hstays : DispatchStays s a.2 := ha ▸ s.writeBy_dispatchStays _ _ _ _
  have hja : a.2.edu.jobs[i]? = some j := hstays.edu ▸ hj
  refine ⟨(hstays.jobStep false i).trans (State.modJob_jobStep _ _ _ fun x hx => ?_), State.getElem?_modJob_self _ hja⟩
  rw [hja] at hx
  exact Option.some.inj hx ▸ ⟨rfl, rfl, rfl, id, id, id, .inr (.inl rfl), nofun⟩

/-- A returned row counts for its token, whatever else it brings about. -/
theorem State.returned_eduArrive (hs : s.NoSendDue) (hat : a.1 = true) :
    ∃ j', ((s.eduArrive i t r row).eduClose i).eduPump.edu.jobs[i]? = some j' ∧ j'.returned = j.returned ++ [(t, r)] := by
  obtain ⟨hstep, hself⟩ := State.gotBack_jobStep hj ha
  have hrest : JobStep true i (a.2.modJob i fun _ => j.gotBack (t, r)) ((s.eduArrive i t r row).eduClose i) := by
    rw [State.eduArrive_eq hj ha hat]
    exact .trans (.ite (State.eduCombine_jobStep _ _ _ _) (.refl _ _ _)) (State.eduClose_jobStep _ _ _)
  obtain ⟨j', hj', hgo⟩ := hrest.self _ hself
  exact ⟨j', (hstep.trans hrest.loose).eduPump hs hj hj', (hgo.rows rfl).1⟩

/-- While rows of its token are to come back, a returned row is written and counts, and that is all. -/
theorem State.eduArrive_waits (hs : s.NoSendDue) (hat : a.1 = true) (hd : j.phase ≠ .done)
    (hmiss : ∃ z ∈ j.admitted, z.1 = t ∧ (z.1, z.2.1) ∉ j.returned ++ [(t, r)]) :
    ((s.eduArrive i t r row).eduClose i).eduPump = a.2.modJob i fun _ => j.gotBack (t, r) := by
  obtain ⟨hstep, hself⟩ := State.gotBack_jobStep hj ha
  obtain ⟨z, hz, hzt, hnot⟩ := hmiss
  have hsome : ((j.admitted.filter fun x => decide (x.1 = t)).all fun x => (j.returned ++ [(t, r)]).contains (t, x.2.1)) = false :=
    List.all_eq_false.2 ⟨z, List.mem_filter.2 ⟨hz, by simp [hzt]⟩, by rw [← hzt]; simpa [hzt] using hnot⟩
  rw [State.eduArrive_eq hj ha hat, hsome, if_neg Bool.false_ne_true, State.eduClose_of_not hself ⟨z, hz, hnot⟩]
  exact State.eduPump_of_noSendDue (hstep.noSendDue hj hself hd hs)

end

/-! ### Rows that do not come in time (R291) -/

/-- The rows of its own replicas that a job still misses. -/
def EduJob.missing (j : EduJob) (own : Nat) : List (Nat × Nat) :=
  (j.hosted own).flatMap fun x =>
    ((List.range (j.nRows.getD x.2 0)).filter fun a => !j.received.contains (x.2, a)).map fun a => (x.2, a)

theorem EduJob.allIn_iff (j : EduJob) (own : Nat) :
    j.allIn own = true ↔ ∀ x ∈ j.hosted own, ∀ a < j.nRows.getD x.2 0, (x.2, a) ∈ j.received := by
  simp [EduJob.allIn]

theorem EduJob.mem_missing {j : EduJob} {own : Nat} {m : Nat × Nat} :
    m ∈ j.missing own ↔ (∃ x ∈ j.hosted own, x.2 = m.1 ∧ m.2 < j.nRows.getD x.2 0) ∧ m ∉ j.received := by
  simp only [EduJob.missing, List.mem_flatMap, List.mem_map, List.mem_filter, List.mem_range, Bool.not_eq_true', List.contains_eq_mem,
    decide_eq_false_iff_not]
  constructor
  · rintro ⟨x, hx, a, ⟨ha, hnot⟩, rfl⟩
    exact ⟨⟨x, hx, rfl, ha⟩, hnot⟩
  · rintro ⟨⟨x, hx, hm, ha⟩, hnot⟩
    have hpair : (x.2, m.2) = m := by rw [hm]
    exact ⟨x, hx, m.2, ⟨ha, hpair ▸ hnot⟩, hpair⟩

theorem EduJob.missing_ne_nil {own : Nat} (h : j.allIn own = false) : j.missing own ≠ [] := by
  rw [← Bool.not_eq_true, EduJob.allIn_iff] at h
  push Not at h
  obtain ⟨x, hx, a, ha, hnot⟩ := h
  exact List.ne_nil_of_mem (EduJob.mem_missing.2 ⟨⟨x, hx, rfl, ha⟩, hnot⟩)

/-- A job whose missing rows were taken as zeroed. -/
def EduJob.zeroFilled (j : EduJob) (own : Nat) : EduJob :=
  { j with received := j.received ++ j.missing own, zeroed := j.missing own }

theorem EduJob.allIn_zeroFilled (j : EduJob) (own : Nat) : (j.zeroFilled own).allIn own = true := by
  refine (EduJob.allIn_iff _ own).2 fun x hx a ha => ?_
  by_cases hin : (x.2, a) ∈ j.received
  · exact List.mem_append_left _ hin
  · exact List.mem_append_right _ (EduJob.mem_missing.2 ⟨⟨x, hx, rfl, ha⟩, hin⟩)

theorem EduJob.received_zeroFilled (j : EduJob) (own : Nat) :
    (j.zeroFilled own).received = j.received ++ (j.zeroFilled own).zeroed := by simp only [EduJob.zeroFilled]

/-- Whether its rows are in does not depend on its raise. -/
theorem EduJob.allIn_recvRaised (j : EduJob) (own : Nat) (b : Bool) : ({ j with recvRaised := b } : EduJob).allIn own = j.allIn own := rfl

/-- Rows placed one after the other all count as received, or a fault has failed the job. -/
theorem State.foldl_eduPlace (src : Nat × Nat → Nat) (data : List Byte) (ms : List (Nat × Nat)) {t : State} {r : List (Nat × Nat)}
    (ht : t.edu.jobs[i]? = some { j with received := r }) :
    ∃ x, (ms.foldl (fun s m => s.eduPlace i j m.1 m.2 (src m) 0 0 data) t).edu.jobs[i]? = some x ∧
      (x.failed ≠ none ∧ x.recvRaised = true ∨ x = { j with received := r ++ ms }) := by
  induction ms generalizing t r with
  | nil => exact ⟨_, ht, .inr (by rw [List.append_nil])⟩
  | cons m ms ih =>
    rw [List.foldl_cons]
    obtain ⟨u, hu, heq | heq⟩ := t.eduPlace_cases i j m.1 m.2 (src m) 0 0 data <;> rw [heq]
    · have hplaced : (u.modJob i fun j => j.took (m.1, m.2)).edu.jobs[i]? = some { j with received := r ++ [m] } :=
        State.getElem?_modJob_self _ (hu.edu ▸ ht)
      obtain ⟨x, hx, hend⟩ := ih hplaced
      exact ⟨x, hx, by rwa [List.append_assoc, List.singleton_append] at hend⟩
    · obtain ⟨x, hx, -, hfailed, hraised⟩ := (u.eduFail_spec true i 0x900).2 _ (hu.edu ▸ ht)
      obtain ⟨x', hx', hgo⟩ := (JobStep.foldl (still := true) (i := i)
        (g := fun (s : State) (m : Nat × Nat) => s.eduPlace i j m.1 m.2 (src m) 0 0 data)
        (fun t m => t.eduPlace_jobStep i true j _ _ _ _ _ _) ms (u.eduFail i 0x900)).self x hx
      exact ⟨x', hx', .inl ⟨fun hnone => by simp [hgo.failed hnone] at hfailed, hgo.recvRaised hraised⟩⟩

/-- Rows of +0 are placed one after the other, with the tag of their source. -/
def State.placesRows (s : State) (i : Nat) (j : EduJob) (ms : List (Nat × Nat)) : State :=
  ms.foldl (fun t m => t.eduPlace i j m.1 m.2 (j.sourceOf m.1 m.2) 0 0 (zeros (eduRow (s.hidden j) (j.b 132 1)))) s

theorem State.placesRows_jobStep (s : State) (still : Bool) (i : Nat) (j : EduJob) (ms : List (Nat × Nat)) :
    JobStep still i s (s.placesRows i j ms) :=
  .foldl (fun t _ => t.eduPlace_jobStep i still j _ _ _ _ _ _) _ _

/-- The module after a receive timeout, before recv_ctr rises: +0 rows in place of the missing ones. -/
def State.zeroesRows (s : State) (i : Nat) (j : EduJob) : State :=
  ((s.placesRows i j (j.missing s.walker.boardSlot)).modJob i fun x => { x with zeroed := j.missing s.walker.boardSlot }).eduReport j 0x902

theorem eduRecvTimeout_eq (hj : s.edu.jobs[i]? = some j) (hon : s.eduOn j.die = true) (hready : j.phase = .sending ∨ j.sent = true)
    (hraised : j.recvRaised = false) (hall : j.allIn s.walker.boardSlot = false) :
    exec (.eduRecvTimeout j.die i) s = .next ((s.zeroesRows i j).eduReceive i).eduPump := by
  rw [exec_eduRecvTimeout, execEduRecvTimeout, hj, State.zeroesRows, State.placesRows, EduJob.missing]
  dsimp only
  rw [if_neg (by simpa [hon, hraised, hall, or_iff_not_imp_left] using hready)]

/-- After a receive timeout the missing rows stand as zeroed, and recv_ctr has risen: either the job failed at a fault, or all its rows
are in and the failure is reported (R291). -/
theorem State.zeroesRows_receives (hs : s.NoSendDue) (hj : s.edu.jobs[i]? = some j) (hready : j.phase = .sending ∨ j.sent = true)
    (hraised : j.recvRaised = false) (hheld : j.returnHeld = false) :
    ∃ t j', ((s.zeroesRows i j).eduReceive i).eduPump = t ∧ t.edu.jobs[i]? = some j' ∧ j'.recvRaised = true ∧
      j'.zeroed = j.missing s.walker.boardSlot ∧
      (j'.failed = none → j'.allIn s.walker.boardSlot = true ∧ j'.received = j.received ++ j'.zeroed ∧ t.edu.lastStatus = 0x902 ∧
        t.edu.lastCtx = j.ctx) := by
  obtain ⟨x, hx, hend⟩ := State.foldl_eduPlace (fun m => j.sourceOf m.1 m.2) (zeros (eduRow (s.hidden j) (j.b 132 1)))
    (j.missing s.walker.boardSlot) (t := s) (r := j.received) hj
  have hplaced : (s.placesRows i j (j.missing s.walker.boardSlot)).edu.jobs[i]? = some x := hx
  have hstep : JobStep false i s (s.zeroesRows i j) :=
    .stays (State.eduReport_jobsStay _ _ _) (.modJob (fun _ => ⟨rfl, rfl, rfl, id, id, id, .inr (.inl rfl), nofun⟩)
      (s.placesRows_jobStep false i j _))
  have hself : (s.zeroesRows i j).edu.jobs[i]? = some { x with zeroed := j.missing s.walker.boardSlot } := by
    rw [State.zeroesRows, (State.eduReport_jobsStay _ _ _).jobs]
    exact State.getElem?_modJob_self _ hplaced
  rcases hend with ⟨hfailed, hrecv⟩ | rfl
  · have hidle := State.eduReceive_of_not _ i hself fun hwait => by simp [hrecv] at hwait
    refine ⟨_, { x with zeroed := j.missing s.walker.boardSlot }, rfl, ?_, hrecv, rfl, fun hnone => absurd hnone hfailed⟩
    rw [hidle]
    exact hstep.eduPump hs hj hself
  · have hall := j.allIn_zeroFilled s.walker.boardSlot
    replace hself : (s.zeroesRows i j).edu.jobs[i]? = some (j.zeroFilled s.walker.boardSlot) := hself
    rcases hstep.receives hs hj hself hraised hready (by rw [hstep.boardSlot]; exact hall) hheld with
      ⟨x', hx', hrecv, hfailed, hzeroed⟩ | ⟨w, hw, heq⟩
    · exact ⟨_, x', rfl, hx', hrecv, hzeroed, fun hnone => absurd hnone hfailed⟩
    · have hxw : w.edu.jobs[i]? = some (j.zeroFilled s.walker.boardSlot) := by rw [hw.edu, hself]
      obtain ⟨hi, -⟩ := List.getElem?_eq_some_iff.1 hxw
      have hedu := State.eduRecvRaise_edu hxw hraised
      refine ⟨_, { j.zeroFilled s.walker.boardSlot with recvRaised := true }, heq, ?_, rfl, rfl, fun _ => ⟨?_, ?_, ?_, ?_⟩⟩
      · rw [hedu]; exact List.getElem?_set_self hi
      · rw [EduJob.allIn_recvRaised, hall]
      · rw [EduJob.received_zeroFilled]
      · rw [hedu, hw.edu]; rfl
      · rw [hedu, hw.edu]; rfl

end

/-! ### Placement revision (R290; log entry 71) -/

section
variable {s : State} {ctx : Nat} {table : List Byte}

/-- Where none is pending, a tally 10 µs ahead is not refused. -/
theorem State.tallyRefused_ahead (hp : s.mgt.tallyPending = false) : s.tallyRefused (s.time + 10000) = false := by
  simp [State.tallyRefused, hp]

/-- The first step of a revision: the tally is armed here, and commanded to the others of the domain. -/
theorem State.armRevision_eq (s : State) (ctx : Nat) (t : List Byte) :
    s.armRevision ctx t = { s with
      mgt := { s.mgt with
        tallyPending := true, armTime := BitVec.ofNat 64 (s.time + 10000), armNumber := s.mgt.tallyLast + 1 }
      edu := { s.edu with revTally := some (ctx, s.mgt.tallyLast + 1) }
      out := s.out ++ ((onesOf (plMask t) 8).filter fun m => decide (m ≠ s.walker.boardSlot)).map fun m =>
        Out.command m 0x020B (leBytes 8 (s.time + 10000) ++ leBytes 2 (s.mgt.tallyLast + 1).toNat) } := by
  unfold State.armRevision
  dsimp only
  rw [State.foldl_emit]
  rfl

section
variable (hhead : s.mgt.group.head = true) (hready : s.mgt.state = .ready) (hok : plOk (s.revised ctx table) = true)
  (hbound : (s.ctx ctx).bound = true)
include hhead hready hok hbound

/-- PLACEMENT_REVISION where none is under way arms a tally. -/
theorem placementRevision_arms (hnone : s.edu.revTally = none) (hlate : s.revisedLately ctx = false)
    (hp : s.mgt.tallyPending = false) : exec (.placementRevision ctx table) s = .next (s.armRevision ctx (s.revised ctx table)) := by
  rw [exec_placementRevision, execPlacementRevision, hnone, State.startRevision, s.tallyRefused_ahead hp, hlate]
  simp [hhead, hready, hok, hbound]

/-- PLACEMENT_REVISION whose tally has been taken writes the table. -/
theorem placementRevision_writes (hsome : s.edu.revTally = some (ctx, s.mgt.tallyLast)) (hp : s.mgt.tallyPending = false) :
    exec (.placementRevision ctx table) s = .next
      ({ s with edu := { s.edu with revTally := none, loadPrev := s.loadShadows, loadDelta := s.loadDelta } }.writeRevision ctx
        (s.revised ctx table)) := by
  rw [exec_placementRevision, execPlacementRevision, hsome]
  simp [hhead, hready, hok, hbound, hp]

end

end

/-! ### The obligation -/

/-- Settles O34: what acts on one job leaves every other one and lets no send become due unless that job has ended (`JobStep`), so a row
that is written and counts is all that happens until the last one, which ends as `JobStep.receives` says; and the two steps of a revision
are `State.armRevision_eq` and `State.writeRevision_eq`. -/
theorem eduRowsAndPlacement : Obligations.EduRowsAndPlacement := by
  unfold Obligations.EduRowsAndPlacement
  refine ⟨fun s i j hj hon hd hfailed hs => ?_, fun s h row counts hon hnone => ?_, fun s ctx table hhead hready hok hbound => ?_⟩
  · replace hs : s.NoSendDue := hs
    refine ⟨fun h row hof hraised hrowOk hlost hnew hrow hbytes ha hb => ?_, fun offset hat hset hback hheld => ?_,
      fun h row y hof hzero hpoison hrow hbytes hnew hfind hat => ?_, fun hready hraised hall hheld => ?_⟩
    · obtain ⟨hstays, heq⟩ := State.rowTaken_of_writes (i := i) rfl rfl ha hb
      rw [eduDispatchMsg_eq hon hof hd hraised hrowOk hlost hnew hrow hbytes]
      refine ⟨fun hwait => ?_, fun p hready hall hheld hp => ?_⟩
      · obtain ⟨hhbm, hcores, -, -⟩ := State.rowTaken_frame hstays heq
        rw [State.rowTaken_waits hstays heq hj hs hd fun hnow => by
          rw [EduJob.ready_iff] at hnow
          exact hwait.elim (· hnow.1) fun hall => Bool.noConfusion (hnow.2.symm.trans hall)]
        exact ⟨_, rfl, State.rowTaken_jobs hstays heq hj, hhbm, hcores⟩
      · obtain ⟨j', hj', hrecv, hend⟩ := State.rowTaken_raises hstays heq hj hs hraised ((EduJob.ready_iff j).2 hready) hall hheld hp
        exact ⟨_, j', rfl, hj', hrecv, hend⟩
    · rw [eduReturnWrite_eq hon hat hset hback hd]
      refine ⟨fun hraised => ?_, fun hraised => ?_⟩
      · rw [if_neg (by simp [hraised])]
        exact ⟨_, rfl, State.modJob_jobs _ hj, rfl⟩
      · obtain ⟨j', hj', hb⟩ := s.back_eduReturn i j hj
        rw [if_pos hraised]
        exact ⟨_, j', rfl, (s.eduReturn_jobStep i j).eduPump hs hj hj', hb⟩
    · rw [eduReturnMsg_eq hon hof hd hzero hpoison hrow hbytes hnew hfind]
      refine ⟨?_, fun hmiss => ?_⟩
      · obtain ⟨j', hj', hback⟩ := State.returned_eduArrive hj rfl hs hat
        exact ⟨_, j', rfl, hj', hback⟩
      · rw [State.eduArrive_waits hj rfl hs hat hd hmiss]
        have hstays := s.writeBy_dispatchStays .other j.ctx
          (j.b 156 6 + (y.1 * j.k + y.2.1) * up64 (eduRow (s.hidden j) (j.b 133 1))) row
        exact ⟨_, rfl, (State.modJob_jobs _ (hstays.edu ▸ hj)).trans (by rw [hstays.edu]; rfl), rfl, hstays.cores⟩
    · rw [← EduJob.ready_iff] at hready
      obtain ⟨t, j', ht, hj', hrecv, hzeroed, hend⟩ := State.zeroesRows_receives hs hj hready hraised hheld
      rw [eduRecvTimeout_eq hj hon hready hraised hall, ht]
      refine ⟨_, j', rfl, hj', hrecv, hzeroed ▸ EduJob.missing_ne_nil hall, fun x hx => ?_, hend⟩
      exact (EduJob.mem_missing.1 (hzeroed ▸ hx)).2
  · rw [exec_eduCountMsg, execEduCountMsg, exec_eduDispatchMsg, execEduDispatchMsg, exec_eduReturnMsg, execEduReturnMsg, hnone]
    simp [hon]
  · refine ⟨fun hnone hlate hp => ?_, fun hsome hp => ?_⟩
    · rw [placementRevision_arms hhead hready hok hbound hnone hlate hp, State.armRevision_eq]
      exact ⟨_, rfl, rfl, rfl, rfl, rfl, rfl⟩
    · rw [placementRevision_writes hhead hready hok hbound hsome hp, State.writeRevision_eq]
      exact ⟨_, rfl, rfl, rfl, rfl⟩

end Sys2Proof.Machine
end

section
/-! PROOFS. The queue of commands, the event log and the lock groups (00; 18 R487, R491; 20 R525). -/

namespace Sys2Proof.Machine

/-- Settles O1: a step takes the front of the queue by its definition. -/
theorem stepRunsFront : Obligations.StepRunsFront := by
  unfold Obligations.StepRunsFront
  intro c rest s
  rw [step]

/-! ### The event log (R491) -/

/-- A full log loses its oldest entry, a log with room loses none. -/
theorem keepEvents_push (log : List Event) (e : Event) (h : log.length ≤ 4096) :
    keepEvents (log ++ [e]) = if log.length = 4096 then log.drop 1 ++ [e] else log ++ [e] := by
  rw [keepEvents, List.take_reverse, List.reverse_reverse]
  split_ifs with hfull
  · rw [List.drop_append_of_le_length (by simp [hfull])]
    simp [hfull]
  · rw [show (log ++ [e]).length - 4096 = 0 by simp; omega, List.drop_zero]

theorem exec_eventRead (first : W32) (n : Nat) (s : State) : exec (.eventRead first n) s = execEventRead first n s := rfl

/-- The entries that EVENT_READ returns. -/
def State.eventsFrom (s : State) (first : W32) (n : Nat) : List Event :=
  (s.mgt.events.filter (fun e => decide ((e.seq - first).toNat < 2 ^ 31))).take n

/-- EVENT_READ answers with its entries, notes the last of them as read, and keeps the log. -/
theorem eventRead_reads {s : State} {first : W32} {n : Nat} (hr : s.mbxRuns 0x020A = true) (hn : n ≤ 2048) :
    ∃ t, exec (.eventRead first n) s = .next t ∧ replied 0 ((s.eventsFrom first n).flatMap eventBytes) t ∧
      t.mgt.events = s.mgt.events ∧ ∀ e, (s.eventsFrom first n).getLast? = some e → t.mgt.eventRead = e.seq + 1 := by
  rw [exec_eventRead, execEventRead, hr, if_neg (by simp), if_neg (by omega)]
  refine ⟨_, rfl, State.mbxReply_replied _ _ _, by simp, fun e he => ?_⟩
  rw [State.mbxReply_mgt_field _ _ _ Mgt.eventRead fun _ _ _ _ => rfl]
  rw [State.eventsFrom] at he
  simp only [he]

/-- Settles O54: an event is pushed behind the newest entries, and EVENT_READ returns a part of the log in its order. -/
theorem eventLog : Obligations.EventLog := by
  unfold Obligations.EventLog
  refine fun s => ⟨fun code => ?_, fun first n hr hn => ?_⟩
  · obtain ⟨hlog, hseq⟩ := s.event_log code
    refine ⟨{ seq := s.mgt.eventSeq, code := BitVec.ofNat 16 code, arg := Config.eventArg s.draws, time := s.clk.now }, rfl, rfl, rfl, hseq,
      fun hroom => ?_, fun hfull => ?_⟩ <;> rw [hlog, keepEvents_push _ _ (by omega)]
    · exact if_neg (by omega)
    · exact if_pos hfull
  · obtain ⟨t, ht, hreply, hevents, -⟩ := eventRead_reads (first := first) hr hn
    refine ⟨t, s.eventsFrom first n, ht, (List.take_sublist _ _).trans List.filter_sublist, List.length_take_le _ _,
      fun e he => ?_, hevents, hreply⟩
    simpa using (List.mem_filter.1 (List.mem_of_mem_take he)).2

/-! ### Locked fields (R487) -/

/-- A PF write of a locked field is noted, raises its event and freezes the PF; the governor and the walker stay. -/
theorem State.pfLocked_keeps (s : State) (off : Nat) :
    (s.pfLocked off).gov = s.gov ∧ (s.pfLocked off).walker = s.walker ∧ (s.pfLocked off).hif.frozen = s.hif.frozen ++ [0] ∧
      (s.pfLocked off).mgt.lockedOffset = off ∧ (s.pfLocked off).mgt.lockedValid = true ∧
      ∃ e ∈ (s.pfLocked off).mgt.events, e.code = 1 := by
  have hlog : Recent 1 1 (s.event 1).mgt.events := s.recent_event 1
  have hlog2 := (s.event 1).recent_event_of_recent 0x8007 (by omega) hlog
  unfold State.pfLocked State.postFreeze
  dsimp only
  split_ifs
  · exact ⟨rfl, rfl, rfl, rfl, rfl, hlog.exists_mem⟩
  · exact ⟨rfl, rfl, rfl, rfl, rfl, hlog.exists_mem⟩
  · exact ⟨rfl, rfl, rfl, rfl, rfl, hlog2.exists_mem⟩

/-! ### Registers of the lock groups (15 R412; 20 R525) -/

theorem exec_govBandWrite (v : W32) (s : State) : exec (.govBandWrite v) s = execGovBandWrite v s := rfl
theorem exec_govModeWrite (v : W32) (s : State) : exec (.govModeWrite v) s = execGovModeWrite v s := rfl

/-- A write of the band under the lock. -/
theorem govBandWrite_locked {s : State} (v : W32) (hb : s.barOpen 0 = true) (hw : s.hostWaits = false) (hi : s.runsFree 244 = true)
    (hl : s.locked 1 = true) : exec (.govBandWrite v) s = .next (s.pfLocked (govReg 0)) := by
  rw [exec_govBandWrite, execGovBandWrite, State.hostTo_runs _ _ hw (State.runsFree_of_barOpen hb) (by simp [hi])]
  simp [hb, hl]

/-- A write of the mode under the lock. -/
theorem govModeWrite_locked {s : State} (v : W32) (hb : s.barOpen 0 = true) (hw : s.hostWaits = false) (hi : s.runsFree 244 = true)
    (hl : s.locked 1 = true) : exec (.govModeWrite v) s = .next (s.pfLocked (govReg 4)) := by
  rw [exec_govModeWrite, execGovModeWrite, State.hostTo_runs _ _ hw (State.runsFree_of_barOpen hb) (by simp [hi])]
  simp [hb, hl]

/-- A 32-bit write of a whole governor register. -/
theorem registerWrite_gov {s : State} {o : Nat} (v : W64) (ho : o ∈ [8, 0xC, 0x10]) (hb : s.barOpen 0 = true) (hw : s.hostWaits = false)
    (hup : s.islandUp 244 = true) (hi : s.runsFree 244 = true) :
    exec (.registerWrite .pf0 (govReg o) 4 v) s = .next (s.writeGov o v.toNat) := by
  have hmap : ∀ o ∈ [8, 0xC, 0x10], regAt (govReg o) = .reg (govReg o) 32 false ∧ islandOfReg (govReg o) = 244 ∧
      govReg o / 0x400000 = 13 ∧ govReg o % 0x400000 = o := by decide +kernel
  obtain ⟨hreg, hisl, hblock, hoff⟩ := hmap o ho
  rw [registerWrite_pf0 hb hw (by rw [hisl]; exact hi), barWrite_whole hreg (by decide) (by rw [hisl]; exact hup),
    State.writeReg, hblock, hoff]
  rfl

/-- A 64-bit write of XL_REFCOUNT_BASE. -/
theorem registerWrite_refBase {s : State} (v : W64) (hb : s.barOpen 0 = true) (hw : s.hostWaits = false)
    (hup : s.islandUp 249 = true) (hi : s.runsFree 249 = true) :
    exec (.registerWrite .pf0 (xlReg 8) 8 v) s = .next (s.writeWalker 8 v.toNat) := by
  have hmap : regAt (xlReg 8) = .reg (xlReg 8) 64 false ∧ islandOfReg (xlReg 8) = 249 := by decide +kernel
  obtain ⟨hreg, hisl⟩ := hmap
  rw [registerWrite_pf0 hb hw (by rw [hisl]; exact hi), barWrite_whole hreg (by decide) (by rw [hisl]; exact hup)]
  rfl

/-- Settles O53: each write reaches its register, which asks for the lock of its own group alone. -/
theorem lockGroups : Obligations.LockGroups := by
  unfold Obligations.LockGroups
  intro s v hb hw hup4 hup9 hi4 hi9
  have gov {o : Nat} (ho : o ∈ [8, 0xC, 0x10]) := registerWrite_gov v ho hb hw hup4 hi4
  refine ⟨fun hl => ⟨?band, ?mode, ?cage, ?thermal⟩, fun hl => ?base, fun hl => ⟨?cageFree, fun hlo hhi => ?thermalFree⟩,
    fun hl => ?baseFree, ?valid⟩
  case band => exact ⟨_, govBandWrite_locked _ hb hw hi4 hl, s.pfLocked_keeps _⟩
  case mode => exact ⟨_, govModeWrite_locked _ hb hw hi4 hl, s.pfLocked_keeps _⟩
  case cage => exact ⟨_, (gov (by simp)).trans (by simp [State.writeGov, hl]), s.pfLocked_keeps _⟩
  case thermal => exact ⟨_, (gov (by simp)).trans (by simp [State.writeGov, hl]), s.pfLocked_keeps _⟩
  case base => exact ⟨_, (registerWrite_refBase v hb hw hup9 hi9).trans (by simp [State.writeWalker, hl]), s.pfLocked_keeps _⟩
  case cageFree => exact (gov (by simp)).trans (by simp [State.writeGov, hl])
  case thermalFree => exact (gov (by simp)).trans (by simp [State.writeGov, hl, hlo, hhi])
  case baseFree => exact (registerWrite_refBase v hb hw hup9 hi9).trans (by simp [State.writeWalker, hl])
  case valid => exact gov (by simp)

end Sys2Proof.Machine
end

section
/-! PROOFS. Records in a completion queue: what writing, holding and draining them changes (12 R298 to R300, R312, R327). -/

namespace Sys2Proof.Machine

/-! ### One window's queue moves -/

/-- From w to w' only the completion queue of a window moved: its tail, its phase, the slots consumed, the note of its fullness and what
it holds back. -/
structure CqMoves (w w' : Window) : Prop where
  eq : w' = { w with
    cqTail := w'.cqTail, phase := w'.phase, consumed := w'.consumed, fullRaised := w'.fullRaised, held := w'.held }

theorem CqMoves.refl (w : Window) : CqMoves w w := ⟨rfl⟩

theorem CqMoves.trans {w w' w'' : Window} (h : CqMoves w w') (g : CqMoves w' w'') : CqMoves w w'' := ⟨by
  rw [g.eq, h.eq]⟩

/-- From s to t records and notices went to the completion queue of window k, or are held there: its queue has moved, and the event log,
counters and what is out may have grown; nothing else has changed. -/
structure QueueOnly (k : Nat) (s t : State) : Prop where
  frame : t = { s with
    cmd := { s.cmd with windows := t.cmd.windows }, mgt := t.mgt, counters := t.counters, draws := t.draws, out := t.out }
  self : CqMoves (s.window k) (t.window k)
  other : ∀ j, j ≠ k → t.window j = s.window j
  out : s.out <+: t.out

section
variable {k : Nat} {s t u : State}

theorem QueueOnly.refl (k : Nat) (s : State) : QueueOnly k s s := ⟨rfl, .refl _, fun _ _ => rfl, List.prefix_rfl⟩

theorem QueueOnly.trans (h : QueueOnly k s t) (g : QueueOnly k t u) : QueueOnly k s u where
  frame := by rw [g.frame, h.frame]
  self := h.self.trans g.self
  other j hj := (g.other j hj).trans (h.other j hj)
  out := h.out.trans g.out

/-- A step that leaves the windows as they are. -/
theorem QueueOnly.step (h : QueueOnly k s t)
    (he : u = { t with mgt := u.mgt, counters := u.counters, draws := u.draws, out := u.out }) (ho : t.out <+: u.out) :
    QueueOnly k s u := by
  have hw (j : Nat) : u.window j = t.window j := by rw [he]; rfl
  refine h.trans ⟨?_, ?_, fun j _ => hw j, ho⟩
  · rw [he]
  · rw [hw]
    exact .refl _

theorem QueueOnly.event (h : QueueOnly k s t) (code : Nat) : QueueOnly k s (t.event code) := h.step rfl List.prefix_rfl

theorem QueueOnly.count (h : QueueOnly k s t) (off n : Nat) : QueueOnly k s (t.count off n) := h.step rfl List.prefix_rfl

theorem QueueOnly.emit (h : QueueOnly k s t) (o : Out) : QueueOnly k s (t.emit o) := h.step rfl (List.prefix_append _ _)

theorem QueueOnly.msix (h : QueueOnly k s t) (on : Bool) (fn vector : Nat) :
    QueueOnly k s (if on = true then t.msix fn vector else t) := by
  unfold State.msix
  split_ifs
  · exact h.emit _
  · exact h
  · exact h

theorem QueueOnly.modWindow (h : QueueOnly k s t) {f : Window → Window} (hf : CqMoves (t.window k) (f (t.window k))) :
    QueueOnly k s (t.modWindow k f) := by
  have hw (j : Nat) : (t.modWindow k f).window j = if j = k then f (t.window k) else t.window j := State.window_modWindow t k j f
  refine h.trans ⟨rfl, ?_, fun j hj => ?_, List.prefix_rfl⟩
  · rw [hw, if_pos rfl]
    exact hf
  · rw [hw, if_neg hj]

theorem QueueOnly.noteFull (h : QueueOnly k s t) : QueueOnly k s (t.noteFull k) := by
  unfold State.noteFull
  split_ifs
  · exact (h.event _).modWindow ⟨rfl⟩
  · exact h

theorem QueueOnly.ctx (h : QueueOnly k s t) (c : Nat) : t.ctx c = s.ctx c := by rw [h.frame]; rfl

theorem QueueOnly.panel (h : QueueOnly k s t) (c : Nat) : t.panel c = s.panel c := by rw [h.frame]; rfl

end

/-- An item at the tail. -/
theorem State.writeItem_only (s : State) (k : Nat) (i : CqItem) : QueueOnly k s (s.writeItem k i) := by
  unfold State.writeItem
  dsimp only
  refine .noteFull (.msix (.modWindow ?_ ⟨rfl⟩) _ _ _)
  cases i with
  | record r irq slots => exact .modWindow (((QueueOnly.refl k s).emit _).count _ _) ⟨rfl⟩
  | notice n => exact ((QueueOnly.refl k s).emit _).count _ _

theorem State.putItem_only (s : State) (k : Nat) (i : CqItem) : QueueOnly k s (s.putItem k i) := by
  unfold State.putItem
  split_ifs
  · exact s.writeItem_only k i
  · exact (QueueOnly.refl k s).modWindow ⟨rfl⟩

theorem State.drainHeld_only (items : List CqItem) (k : Nat) (s : State) : QueueOnly k s (s.drainHeld k items) := by
  induction items generalizing s with
  | nil => exact .refl k s
  | cons i rest ih =>
    rw [State.drainHeld]
    split_ifs
    · exact .refl k s
    · exact (((QueueOnly.refl k s).modWindow ⟨rfl⟩).trans (State.writeItem_only _ _ _)).trans (ih _)

/-! ### A record, exactly -/

/-- The window after the note of its fullness. -/
theorem State.window_noteFull (s : State) (k : Nat) :
    (s.noteFull k).window k = { s.window k with fullRaised := (s.window k).fullRaised || (s.window k).cqFull } ∧
      (s.noteFull k).out = s.out := by
  unfold State.noteFull
  split_ifs with h
  · have hfull : (s.window k).cqFull = true := (Bool.and_eq_true _ _ ▸ h).1
    rw [State.window_modWindow, if_pos rfl, hfull, Bool.or_true]
    exact ⟨rfl, rfl⟩
  · have hr : ((s.window k).fullRaised || (s.window k).cqFull) = (s.window k).fullRaised := by
      revert h
      cases (s.window k).cqFull <;> cases (s.window k).fullRaised <;> simp
    rw [hr]
    exact ⟨rfl, rfl⟩

/-- The bytes of a record that is issued now (R312). -/
def State.recordOut (s : State) (k : Nat) (r : Record) : Out :=
  .hostBytes (s.window k).cqAddr ({ r with duration := s.since r.start }.bytes (s.window k).phase)

/-- A record is one memory write at the tail, which moves on; the window consumes the slots of its packet; without irq_en no vector
follows (R298, R312, R327). -/
theorem State.writeItem_record (s : State) (k : Nat) (r : Record) (irq : Bool) (slots : Nat) :
    (∃ raised, (s.writeItem k (.record r irq slots)).window k =
      { (s.window k).advance with consumed := (s.window k).consumed + BitVec.ofNat 32 slots, fullRaised := raised }) ∧
    ∃ rest, (s.writeItem k (.record r irq slots)).out = s.out ++ s.recordOut k r :: rest ∧
      ((s.window k).irqEn = false → rest = []) := by
  have hwin : ∀ u : State, u.window k = { (s.window k).advance with consumed := (s.window k).consumed + BitVec.ofNat 32 slots } →
      ∃ raised, (u.noteFull k).window k =
        { (s.window k).advance with consumed := (s.window k).consumed + BitVec.ofNat 32 slots, fullRaised := raised } :=
    fun u hu => ⟨_, by rw [(u.window_noteFull k).1, hu]⟩
  have hmid (o : Out) : ((((s.emit o).count (cmdReg 0x110) 1).modWindow k
      (fun w => { w with consumed := w.consumed + BitVec.ofNat 32 slots })).modWindow k (fun w => w.advance)).window k =
      { (s.window k).advance with consumed := (s.window k).consumed + BitVec.ofNat 32 slots } := by
    rw [State.window_modWindow, if_pos rfl, State.window_modWindow, if_pos rfl]
    rfl
  unfold State.writeItem State.msix
  dsimp only
  split_ifs with hirq hon
  · refine ⟨hwin _ (hmid _), [.msix (k / 256) (k % 256)], ?_, fun h => by simp [h] at hirq⟩
    rw [(State.window_noteFull _ k).2]
    exact List.append_assoc s.out [_] [_]
  · refine ⟨hwin _ (hmid _), [], ?_, fun _ => rfl⟩
    rw [(State.window_noteFull _ k).2]
    rfl
  · refine ⟨hwin _ (hmid _), [], ?_, fun _ => rfl⟩
    rw [(State.window_noteFull _ k).2]
    rfl

/-- The record of a packet that ends (R303, R312, R324). -/
def State.packetRecord (s : State) (k : Nat) (service : Bool) (p : Packet) (status : Half) (done : Nat) : Record :=
  { tag := p.tag, status := status, ctx := (s.window k).ctx.getD 0, start := p.start, duration := s.since p.start,
    grantWait := BitVec.ofNat 16 done, service := service }

/-- A window whose ring's packet ended. -/
def Window.freed (w : Window) (service : Bool) : Window :=
  if service then { w with svcPkt := none } else { w with stepPkt := none }

theorem State.endPacket_eq (s : State) (k : Nat) (service : Bool) (p : Packet) (status : Half) (done : Nat) :
    s.endPacket k service p status done = (s.modWindow k (fun w => w.freed service)).putItem k
      (.record (s.packetRecord k service p status done) p.irq (if service then 0 else p.slots)) := rfl

/-- The end of a packet moves the completion queue of its window, whose ring is free. -/
theorem State.endPacket_only (s : State) (k : Nat) (service : Bool) (p : Packet) (status : Half) (done : Nat) :
    QueueOnly k (s.modWindow k (fun w => w.freed service)) (s.endPacket k service p status done) :=
  State.putItem_only _ _ _

/-- A packet of the step ring that ends while its queue has space writes its record at the tail. -/
theorem State.endPacket_writes {s : State} {k : Nat} (p : Packet) (status : Half) (done : Nat) (hc : (s.window k).canStart = true)
    (ha : s.asleep k = false) :
    let t := s.endPacket k false p status done
    (∃ rest, t.out = s.out ++ s.recordOut k (s.packetRecord k false p status done) :: rest ∧
      ((s.window k).irqEn = false → rest = [])) ∧
      ((t.window k).stepPkt = none ∧ (t.window k).cqTail = ((s.window k).cqTail + 1) % 2 ^ (s.window k).cqLog ∧
        (t.window k).consumed = (s.window k).consumed + BitVec.ofNat 32 p.slots) := by
  intro t
  have hfree : (s.modWindow k (fun w => w.freed false)).window k = (s.window k).freed false := by
    rw [State.window_modWindow, if_pos rfl]
  have ht : t = (s.modWindow k (fun w => w.freed false)).writeItem k
      (.record (s.packetRecord k false p status done) p.irq p.slots) := by
    show s.endPacket k false p status done = _
    rw [State.endPacket_eq, State.putItem, if_pos]
    · rfl
    rw [hfree, Bool.and_eq_true]
    exact ⟨hc, by simpa [State.asleep] using ha⟩
  obtain ⟨⟨raised, hwin⟩, rest, hout, hrest⟩ := State.writeItem_record (s.modWindow k (fun w => w.freed false)) k
    (s.packetRecord k false p status done) p.irq p.slots
  rw [ht, hwin]
  rw [State.recordOut, hfree] at hout
  rw [hfree] at hrest ⊢
  exact ⟨⟨rest, hout, hrest⟩, rfl, rfl, rfl⟩

/-- A queue with space that holds one record back writes it, with the time until then as its duration (R298, R312). -/
theorem State.drainHeld_one {s : State} {k : Nat} {r : Record} {n : Nat} (hc : (s.window k).cqFull = false)
    (hi : (s.window k).irqEn = false) :
    (s.drainHeld k [.record r false n]).out = s.out ++ [s.recordOut k r] ∧
      ∃ phase consumed raised, (s.drainHeld k [.record r false n]).window k = { s.window k with
        held := [], cqTail := ((s.window k).cqTail + 1) % 2 ^ (s.window k).cqLog, phase := phase, consumed := consumed,
        fullRaised := raised } := by
  have hheld : (s.modWindow k (fun w => { w with held := [] })).window k = { s.window k with held := [] } := by
    rw [State.window_modWindow, if_pos rfl]
  obtain ⟨⟨raised, hwin⟩, rest, hout, hrest⟩ := State.writeItem_record (s.modWindow k (fun w => { w with held := [] })) k r false n
  rw [State.recordOut, hheld] at hout
  rw [hheld] at hrest hwin
  have hd : s.drainHeld k [.record r false n] = (s.modWindow k (fun w => { w with held := [] })).writeItem k (.record r false n) := by
    rw [State.drainHeld, hc]
    rfl
  rw [hd, hout, hwin, hrest hi]
  exact ⟨rfl, _, _, _, rfl⟩

end Sys2Proof.Machine
end

section
/-! PROOFS. Doorbells, ring configuration and packets of a command window (12 R294 to R305). -/

namespace Sys2Proof.Machine

/-! ### The meaning of each command -/

section
variable (fn w : Nat) (s : State)

theorem exec_cmdStepDb (v : W32) : exec (.cmdStepDb fn w v) s = execCmdStepDb fn w v s := rfl
theorem exec_cmdSvcDb (v : W32) : exec (.cmdSvcDb fn w v) s = execCmdSvcDb fn w v s := rfl
theorem exec_cmdCqDb (v : W32) : exec (.cmdCqDb fn w v) s = execCmdCqDb fn w v s := rfl
theorem exec_cmdRingCtrlWrite (v : W32) : exec (.cmdRingCtrlWrite fn w v) s = execCmdRingCtrlWrite fn w v s := rfl
theorem exec_cmdRingCfgWrite (off : Nat) (v : W64) : exec (.cmdRingCfgWrite fn w off v) s = execCmdRingCfgWrite fn w off v s := rfl
theorem exec_packetFetch (service : Bool) (read : HostRead) :
    exec (.packetFetch fn w service read) s = execPacketFetch fn w service read s := rfl
theorem exec_stepMark : exec (.stepMark fn w) s = execStepMark fn w s := rfl

end

/-! ### Doorbells (R297, R298, R300) -/

/-- Waking a panel changes its cores' targets and the governor's turn of waking, and nothing else (15 R402, R407). -/
theorem State.wakePanel_frame (s : State) (k : Nat) : s.wakePanel k = { s with cores := (s.wakePanel k).cores, gov := (s.wakePanel k).gov } := by
  have hwake (u : State) : u.wakeModule = { u with gov := u.wakeModule.gov } := by
    unfold State.wakeModule
    split_ifs <;> rfl
  have hfold (l : List Nat) (u : State) :
      ∃ cores, l.foldl (fun s p => s.modCore p (fun c => { c with cTarget := some 0 })) u = { u with cores := cores } :=
    List.foldlRecOn (motive := fun t => ∃ cores, t = { u with cores := cores }) l _ ⟨_, rfl⟩ fun t ht p _ => by
      obtain ⟨cores, ht⟩ := ht
      exact ⟨_, by rw [ht]; rfl⟩
  unfold State.wakePanel
  dsimp only
  rw [hwake]
  split_ifs <;> (obtain ⟨cores, h⟩ := hfold _ _; rw [h])

/-- What a doorbell of a ring leaves once its window takes doorbells. -/
theorem State.submitDb_eq {s : State} {fn w : Nat} (service : Bool) (value : W32) (hw : w < 256) (hb : s.barOpen fn = true)
    (hs : s.mgt.state ≠ .hold) (ht : (s.window (winKey fn w)).takesDb = true) (hd : s.deafWindow (winKey fn w) = false) :
    ∃ t, s.submitDb fn w service value = t ∧
      t = { s.ringDb (winKey fn w) service (value.toNat % 65536) with cores := t.cores, gov := t.gov } := by
  have hc : (s.window (winKey fn w)).ctx.isNone = false := by
    simp only [Window.takesDb, Bool.and_eq_true] at ht
    simpa using ht.1.1
  refine ⟨_, rfl, ?_⟩
  rw [State.submitDb]
  simp only [hw, hb, hs, hc, ht, hd, decide_true, Bool.and_self, Bool.not_true, decide_false, Bool.or_self, Bool.false_eq_true, if_false]
  exact State.wakePanel_frame _ _

/-- The ring's window after a doorbell within its size (R297, R305). -/
def Window.rung (w : Window) (service : Bool) (tail now : Nat) : Window :=
  if service then { w with
    svcTail := tail, svcShort := false, svcDbs := addDb w.svcDbs ((tail + 2 ^ w.svcLog - w.svcTail) % 2 ^ w.svcLog) now }
  else { w with
    stepTail := tail, stepShort := false, stepDbs := addDb w.stepDbs ((tail + 2 ^ w.stepLog - w.stepTail) % 2 ^ w.stepLog) now }

theorem State.ringDb_rung {s : State} {k : Nat} {service : Bool} {tail : Nat}
    (h : tail < if service then 2 ^ (s.window k).svcLog else 2 ^ (s.window k).stepLog) :
    s.ringDb k service tail = s.modWindow k (fun w => w.rung service tail s.time) := by
  rw [State.ringDb, if_neg (by omega)]
  rfl

/-- A doorbell within the ring's size moves its window's tail. -/
theorem State.submitDb_moves {s : State} {fn w : Nat} {service : Bool} {value : W32} (hw : w < 256) (hb : s.barOpen fn = true)
    (hs : s.mgt.state ≠ .hold) (ht : (s.window (winKey fn w)).takesDb = true) (hd : s.deafWindow (winKey fn w) = false)
    (htail : value.toNat % 65536 < if service then 2 ^ (s.window (winKey fn w)).svcLog else 2 ^ (s.window (winKey fn w)).stepLog) :
    ∃ t, s.submitDb fn w service value = t ∧
      t.window (winKey fn w) = (s.window (winKey fn w)).rung service (value.toNat % 65536) s.time ∧
      (∀ j, j ≠ winKey fn w → t.window j = s.window j) ∧ t.out = s.out ∧ t.mgt = s.mgt := by
  obtain ⟨t, heq, ht⟩ := State.submitDb_eq service value hw hb hs ht hd
  rw [State.ringDb_rung htail] at ht
  have hwin (j : Nat) : t.window j = if j = winKey fn w then (s.window (winKey fn w)).rung service (value.toNat % 65536) s.time
      else s.window j := by
    rw [ht]
    exact State.window_modWindow s (winKey fn w) j _
  exact ⟨t, heq, (hwin _).trans (if_pos rfl), fun j hj => (hwin j).trans (if_neg hj), by rw [ht]; rfl, by rw [ht]; rfl⟩

/-- A ring error stops the window's rings and is recorded there (R300). -/
theorem State.ringError_only (s : State) (k : Nat) (status : Half) (service : Bool) :
    QueueOnly k (s.modWindow k (fun w => { w with error := true, errStatus := status, errRing := service })) (s.ringError k status service) :=
  ((State.putItem_only _ _ _).event _).count _ _

/-- A tail beyond the step ring is a ring error. -/
theorem State.submitDb_beyond {s : State} {fn w : Nat} {value : W32} (hw : w < 256) (hb : s.barOpen fn = true)
    (hs : s.mgt.state ≠ .hold) (ht : (s.window (winKey fn w)).takesDb = true) (hd : s.deafWindow (winKey fn w) = false)
    (htail : 2 ^ (s.window (winKey fn w)).stepLog ≤ value.toNat % 65536) :
    ∃ t, s.submitDb fn w false value = t ∧
      CqMoves { s.window (winKey fn w) with error := true, errStatus := 0x0D00, errRing := false } (t.window (winKey fn w)) ∧
      ∀ j, j ≠ winKey fn w → t.window j = s.window j := by
  obtain ⟨t, heq, ht⟩ := State.submitDb_eq false value hw hb hs ht hd
  rw [State.ringDb, if_pos (by simpa using htail)] at ht
  have herr := s.ringError_only (winKey fn w) 0x0D00 false
  have hmod (j : Nat) := State.window_modWindow s (winKey fn w) j fun w => { w with error := true, errStatus := 0x0D00, errRing := false }
  have hwin (j : Nat) : t.window j = (s.ringError (winKey fn w) 0x0D00 false).window j := by
    rw [ht]
    rfl
  refine ⟨t, heq, ?_, fun j hj => ?_⟩
  · rw [hwin]
    have hself := herr.self
    rw [hmod, if_pos rfl] at hself
    exact hself
  · rw [hwin, herr.other j hj, hmod, if_neg hj]

/-! ### The completion head (R298, R299) -/

/-- A new completion head, before the held records go out. -/
def State.newHead (s : State) (k head : Nat) : State :=
  (s.modWindow k (fun w => { w with cqHead := head })).modWindow k (fun w => { w with fullRaised := w.fullRaised && w.cqFull })

theorem State.takeHead_eq (s : State) (k head : Nat) :
    s.takeHead k head = ((s.newHead k head).drainHeld k ((s.newHead k head).window k).held).noteFull k := rfl

/-- The window with a new completion head that makes room. -/
theorem State.window_newHead (s : State) (k head : Nat) (hroom : ((s.window k).cqTail + 1) % 2 ^ (s.window k).cqLog ≠ head) :
    (s.newHead k head).window k = { s.window k with cqHead := head, fullRaised := false } ∧
      (∀ j, j ≠ k → (s.newHead k head).window j = s.window j) ∧ ((s.newHead k head).window k).cqFull = false := by
  have h1 (j : Nat) := State.window_modWindow (s.modWindow k (fun w => { w with cqHead := head })) k j
    fun w => { w with fullRaised := w.fullRaised && w.cqFull }
  have h2 (j : Nat) := State.window_modWindow s k j fun w => { w with cqHead := head }
  have hfull : ({ s.window k with cqHead := head } : Window).cqFull = false := by simpa [Window.cqFull] using hroom
  have hself : (s.newHead k head).window k = { s.window k with cqHead := head, fullRaised := false } := by
    rw [State.newHead, h1, if_pos rfl, h2, if_pos rfl, hfull, Bool.and_false]
  refine ⟨hself, fun j hj => ?_, ?_⟩
  · rw [State.newHead, h1, if_neg hj, h2, if_neg hj]
  · rw [hself]
    exact hfull

/-- A window with space stays as it is when its fullness is noted. -/
theorem State.noteFull_of_space {s : State} {k : Nat} (h : (s.window k).cqFull = false) : s.noteFull k = s := by
  rw [State.noteFull, h]
  rfl

/-- A head that makes room, in a window that holds nothing back. -/
theorem State.takeHead_idle {s : State} {k head : Nat} (hroom : ((s.window k).cqTail + 1) % 2 ^ (s.window k).cqLog ≠ head)
    (hh : (s.window k).held = []) :
    (s.takeHead k head).window k = { s.window k with cqHead := head, fullRaised := false } ∧
      (∀ j, j ≠ k → (s.takeHead k head).window j = s.window j) ∧ (s.takeHead k head).out = s.out := by
  obtain ⟨hself, hother, hfull⟩ := s.window_newHead k head hroom
  have hheld : ((s.newHead k head).window k).held = [] := by rw [hself]; exact hh
  rw [State.takeHead_eq, hheld, State.drainHeld, State.noteFull_of_space hfull]
  exact ⟨hself, hother, rfl⟩

/-- A head that makes room lets a record out that was held back. -/
theorem State.takeHead_drains {s : State} {k head : Nat} {r : Record} {n : Nat}
    (hroom : ((s.window k).cqTail + 1) % 2 ^ (s.window k).cqLog ≠ head) (hh : (s.window k).held = [.record r false n])
    (hi : (s.window k).irqEn = false) :
    (s.takeHead k head).out = s.out ++ [s.recordOut k r] ∧ ((s.takeHead k head).window k).held = [] ∧
      ((s.takeHead k head).window k).cqHead = head ∧
      ((s.takeHead k head).window k).cqTail = ((s.window k).cqTail + 1) % 2 ^ (s.window k).cqLog ∧
      ∀ j, j ≠ k → (s.takeHead k head).window j = s.window j := by
  obtain ⟨hself, hother, hfull⟩ := s.window_newHead k head hroom
  have hheld : ((s.newHead k head).window k).held = [.record r false n] := by rw [hself]; exact hh
  rw [State.takeHead_eq, hheld]
  obtain ⟨hout, phase, consumed, raised, hwin⟩ := State.drainHeld_one (r := r) (n := n) hfull (by rw [hself]; exact hi)
  obtain ⟨hnwin, hnout⟩ := State.window_noteFull ((s.newHead k head).drainHeld k [.record r false n]) k
  have honly := (State.drainHeld_only [.record r false n] k (s.newHead k head)).noteFull
  rw [hself] at hwin
  rw [hnout, hnwin, hwin, hout]
  refine ⟨?_, rfl, rfl, rfl, fun j hj => (honly.other j hj).trans (hother j hj)⟩
  rw [State.recordOut, hself]
  rfl

/-- A completion doorbell within the size of a window that hears it. -/
theorem cmdCqDb_takes {s : State} {fn w : Nat} {value : W32} (hw : w < 256) (hwait : s.hostWaits = false) (hb : s.barOpen fn = true)
    (hi : s.runsFree 246 = true) (hs : s.mgt.state ≠ .hold) (hc : (s.window (winKey fn w)).ctx.isSome = true)
    (hd : s.deafWindow (winKey fn w) = false) (htail : value.toNat % 65536 < 2 ^ (s.window (winKey fn w)).cqLog) :
    exec (.cmdCqDb fn w value) s = .next (s.takeHead (winKey fn w) (value.toNat % 65536)) := by
  rw [exec_cmdCqDb, execCmdCqDb, State.hostTo_runs _ _ hwait (State.runsFree_of_barOpen hb) (by simp [hi])]
  have hc' : (s.window (winKey fn w)).ctx.isNone = false := by simpa using hc
  simp [hw, hb, hs, hc', hd, htail]

/-- Settles O29: a doorbell writes its one pointer; room in the queue lets a held record out; a tail beyond the ring is a ring error. -/
theorem doorbellsMovePointers : Obligations.DoorbellsMovePointers := by
  unfold Obligations.DoorbellsMovePointers
  rintro s fn w value _ _ rfl rfl hw hwait hb hi hs hc hd
  have h240 := State.runsFree_of_barOpen hb
  have step (v : W32) : exec (.cmdStepDb fn w v) s = .next (s.submitDb fn w false v) := by
    rw [exec_cmdStepDb, execCmdStepDb, State.hostTo_runs _ _ hwait h240 (by simp [hi])]
  have svc (v : W32) : exec (.cmdSvcDb fn w v) s = .next (s.submitDb fn w true v) := by
    rw [exec_cmdSvcDb, execCmdSvcDb, State.hostTo_runs _ _ hwait h240 (by simp [hi])]
  have takes (he : (s.window (winKey fn w)).enable = true) (herr : (s.window (winKey fn w)).error = false) :
      (s.window (winKey fn w)).takesDb = true := by simp [Window.takesDb, hc, he, herr]
  refine ⟨fun he herr ht => ?_, fun he herr ht => ?_, fun ht hroom => ⟨fun hh => ?_, fun r n hh hirq => ?_⟩, fun ht hbeyond => ?_⟩
  · obtain ⟨t, heq, hmoves⟩ := State.submitDb_moves (service := false) hw hb hs (takes he herr) hd ht
    exact ⟨t, by rw [step, heq], hmoves⟩
  · obtain ⟨t, heq, hmoves⟩ := State.submitDb_moves (service := true) hw hb hs (takes he herr) hd ht
    exact ⟨t, by rw [svc, heq], hmoves⟩
  · exact ⟨_, cmdCqDb_takes hw hwait hb hi hs hc hd ht, State.takeHead_idle hroom hh⟩
  · exact ⟨_, cmdCqDb_takes hw hwait hb hi hs hc hd ht, State.takeHead_drains hroom hh hirq⟩
  · obtain ⟨t, heq, hself, hother⟩ := State.submitDb_beyond hw hb hs ht hd hbeyond
    refine ⟨t, by rw [step, heq], ?_, ?_, ?_, ?_, ?_, hother⟩ <;> rw [hself.eq]
    simp [Window.takesDb]

/-! ### Configuration (R295, R299) -/

/-- A started queue is empty. -/
theorem Window.started_cqFull {w : Window} {irq : Bool} (h : w.sizesOk = true) : (w.started irq).cqFull = false := by
  simp only [Window.sizesOk, Bool.and_eq_true, decide_eq_true_eq] at h
  obtain ⟨⟨-, hlog, -⟩, -⟩ := h
  have hpow : 1 < 2 ^ w.cqLog := Nat.one_lt_two_pow (by omega)
  simp [Window.cqFull, Window.started, Nat.mod_eq_of_lt hpow]

/-- The window with one of its base registers written. -/
def Window.based (w : Window) (off : Nat) (b : W64) : Window :=
  if off = 0x10 then { w with stepBase := b }
  else if off = 0x18 then { w with svcBase := b }
  else if off = 0x20 then { w with cqBase := b }
  else { w with noticeBase := b }

section
variable {s : State} {fn w : Nat} (hw : w < 256) (hwait : s.hostWaits = false) (hb : s.barOpen fn = true) (hi : s.runsFree 246 = true)
include hw hwait hb hi

/-- CMD_RING_CTRL starts a window of legal sizes, and what was held goes to the new queue. -/
theorem cmdRingCtrlWrite_starts {v : W32} (hv : bitAt v.toNat 0 = true) (he : (s.window (winKey fn w)).enable = false)
    (hz : (s.window (winKey fn w)).sizesOk = true) :
    exec (.cmdRingCtrlWrite fn w v) s = .next (((s.modWindow (winKey fn w) (fun x => x.started (bitAt v.toNat 1))).drainHeld (winKey fn w)
      (s.window (winKey fn w)).held).noteFull (winKey fn w)) := by
  rw [exec_cmdRingCtrlWrite, execCmdRingCtrlWrite, State.hostTo_runs _ _ hwait (State.runsFree_of_barOpen hb) (by simp [hi])]
  simp [hw, hb, hv, he, hz]

/-- CMD_RING_CTRL with enable 0 stops a window. -/
theorem cmdRingCtrlWrite_stops {v : W32} (hv : bitAt v.toNat 0 = false) :
    exec (.cmdRingCtrlWrite fn w v) s =
      .next (s.modWindow (winKey fn w) (fun x => { x with enable := false, irqEn := bitAt v.toNat 1 })) := by
  rw [exec_cmdRingCtrlWrite, execCmdRingCtrlWrite, State.hostTo_runs _ _ hwait (State.runsFree_of_barOpen hb) (by simp [hi])]
  simp [hw, hb, hv]

/-- A configuration register of a window that is disabled and quiesced takes its value. -/
theorem cmdRingCfgWrite_writes {off : Nat} (v : W64) (ho : off ∈ [0x10, 0x18, 0x20, 0x28]) (he : (s.window (winKey fn w)).enable = false)
    (hq : (s.window (winKey fn w)).quiesced = true) :
    exec (.cmdRingCfgWrite fn w off v) s = .next (s.modWindow (winKey fn w) (fun x => x.based off (baseBits v))) := by
  rw [exec_cmdRingCfgWrite, execCmdRingCfgWrite, State.hostTo_runs _ _ hwait (State.runsFree_of_barOpen hb) (by simp [hi])]
  simp only [List.mem_cons, List.not_mem_nil, or_false] at ho
  rcases ho with rfl | rfl | rfl | rfl <;> simp [hw, hb, he, hq, Window.based]

/-- A configuration register of any other window is refused. -/
theorem cmdRingCfgWrite_refused {off : Nat} {v : W64} (ho : off ∈ [0x10, 0x18, 0x20, 0x28, 0x30])
    (hn : (s.window (winKey fn w)).enable = true ∨ (s.window (winKey fn w)).quiesced = false) :
    exec (.cmdRingCfgWrite fn w off v) s = .next (s.event 0x6004) := by
  rw [exec_cmdRingCfgWrite, execCmdRingCfgWrite, State.hostTo_runs _ _ hwait (State.runsFree_of_barOpen hb) (by simp [hi])]
  dsimp only
  rw [if_neg (by rw [List.contains_iff_mem.2 ho]; simp [hw, hb]), if_pos (by simpa using hn)]

end

/-- Settles O30: a start resets the window's pointers and lets a held record out; a base or size is written in a window at rest alone. -/
theorem ringConfiguration : Obligations.RingConfiguration := by
  unfold Obligations.RingConfiguration
  rintro s fn w _ _ rfl rfl hw hwait hb hi
  refine ⟨fun v hv he hz => ?_, fun v hv => cmdRingCtrlWrite_stops hw hwait hb hi hv, fun v he hq => ?_,
    fun v off ho hn => cmdRingCfgWrite_refused hw hwait hb hi ho hn⟩
  · have hstart := cmdRingCtrlWrite_starts hw hwait hb hi hv he hz
    have hwin (j : Nat) := State.window_modWindow s (winKey fn w) j fun x => x.started (bitAt v.toNat 1)
    have hself := (hwin (winKey fn w)).trans (if_pos rfl)
    have hspace : ((s.modWindow (winKey fn w) (fun x => x.started (bitAt v.toNat 1))).window (winKey fn w)).cqFull = false := by
      rw [hself]
      exact Window.started_cqFull hz
    refine ⟨fun hh => ?_, fun r n hh hirq => ?_⟩
    · rw [hh, State.drainHeld, State.noteFull_of_space hspace] at hstart
      exact ⟨_, hstart, hself, fun j hj => (hwin j).trans (if_neg hj), rfl⟩
    · rw [hh] at hstart
      obtain ⟨hout, phase, consumed, raised, hdrained⟩ := State.drainHeld_one (r := r) (n := n) hspace (by rw [hself]; exact hirq)
      have honly := (State.drainHeld_only [.record r false n] (winKey fn w)
        (s.modWindow (winKey fn w) (fun x => x.started (bitAt v.toNat 1)))).noteFull
      obtain ⟨hnwin, hnout⟩ := State.window_noteFull
        ((s.modWindow (winKey fn w) (fun x => x.started (bitAt v.toNat 1))).drainHeld (winKey fn w) [.record r false n]) (winKey fn w)
      refine ⟨_, hstart, ?_, ?_, ?_, ?_, fun j hj => (honly.other j hj).trans ((hwin j).trans (if_neg hj))⟩
      · rw [hnout, hout, State.recordOut, hself]
        simp [Window.cqAddr, Window.started, State.since, State.time, State.modWindow]
      all_goals rw [hnwin, hdrained, hself]
      · simp only [Window.sizesOk, Bool.and_eq_true, decide_eq_true_eq] at hz
        obtain ⟨⟨-, hlog, -⟩, -⟩ := hz
        have hpow : 1 < 2 ^ (s.window (winKey fn w)).cqLog := Nat.one_lt_two_pow (by omega)
        exact Nat.mod_eq_of_lt hpow
      · rfl
  · have hcfg {off : Nat} (ho : off ∈ [0x10, 0x18, 0x20, 0x28]) := cmdRingCfgWrite_writes hw hwait hb hi v ho he hq
    exact ⟨hcfg (by simp), hcfg (by simp), hcfg (by simp), hcfg (by simp)⟩

/-! ### Packets (R296, R301, R302, R305) -/

/-- The window whose ring runs a packet. -/
def Window.runs (w : Window) (service : Bool) (p : Packet) : Window :=
  if service then { w with svcPkt := some p } else { w with stepPkt := some p }

/-- A packet whose checks pass starts: its ring runs it, and no other window, no counter and nothing that is out changes. -/
theorem State.startPacket_frame (s : State) (k : Nat) (service : Bool) (p : Packet) (c : Nat) :
    (∀ j, (s.startPacket k service p c).window j = if j = k then (s.window k).runs service p else s.window j) ∧
      (s.startPacket k service p c).counters = s.counters ∧ (s.startPacket k service p c).out = s.out := by
  have hwin (j : Nat) : (s.modWindow k (fun w => w.runs service p)).window j =
    if j = k then (s.window k).runs service p else s.window j := State.window_modWindow _ _ _ _
  rw [State.startPacket, show (fun w : Window => if service = true then { w with svcPkt := some p } else { w with stepPkt := some p }) =
    fun w => w.runs service p from rfl]
  split_ifs <;> exact ⟨hwin, rfl, rfl⟩

/-- PACKET_FETCH takes the next packet of the ring whose turn it is. -/
theorem packetFetch_takes {s : State} {fn w : Nat} {service : Bool} {bs : List Byte} (hw : w < 256)
    (hi : s.islandOn (246 + s.windowParity (winKey fn w)) = true) (hs : s.mgt.state = .ready)
    (hf : s.mayFetch (winKey fn w) service = true) (h1 : s.fetchFirst (winKey fn w) service = true) :
    exec (.packetFetch fn w service (.ok bs)) s = .next (s.takePacket (winKey fn w) service bs) := by
  rw [exec_packetFetch, execPacketFetch]
  simp [hw, hi, hs, hf, h1]

/-- STEP_MARK ends its packet with ST_OK (R302). -/
theorem stepMark_ends {s : State} {fn w : Nat} {p : Packet} (hp : (s.window (winKey fn w)).stepPkt = some p) (ho : p.opcode = 0x0102)
    (hi : s.islandOn (246 + s.windowParity (winKey fn w)) = true) :
    exec (.stepMark fn w) s = .next (s.endPacket (winKey fn w) false p 0) := by
  rw [exec_stepMark, execStepMark]
  simp [hp, ho, hi]

/-- Settles O31: a packet whose checks pass leaves its slots and runs; STEP_MARK writes its record at the tail. -/
theorem packetsStart : Obligations.PacketsStart := by
  unfold Obligations.PacketsStart
  refine ⟨?_, ?_⟩
  · rintro s fn w _ service bs _ c rfl rfl hc hw hi hs hf h1 hver hlen slots hslots hstatus
    have hctx : (s.window (winKey fn w)).ctx.getD 0 = c := by rw [hc]; rfl
    have htake : s.takePacket (winKey fn w) service bs =
        ((s.modWindow (winKey fn w) (fun x => x.consume service slots)).count (cmdReg 0x100) 1).startPacket (winKey fn w) service
          (packetOf bs (padTo (fieldAt bs 2 2) (bs.drop 64)) slots (s.ctx c).f.cls.toNat
            ((s.window (winKey fn w)).dbTime service) s.clk.now) c := by
      rw [State.takePacket]
      dsimp only
      rw [if_neg (by omega), if_neg (by omega), hctx, if_neg (by rw [hstatus]; simp)]
    obtain ⟨hwin, hcounters, hout⟩ := State.startPacket_frame
      ((s.modWindow (winKey fn w) (fun x => x.consume service slots)).count (cmdReg 0x100) 1) (winKey fn w) service
      (packetOf bs (padTo (fieldAt bs 2 2) (bs.drop 64)) slots (s.ctx c).f.cls.toNat ((s.window (winKey fn w)).dbTime service) s.clk.now) c
    have hmod (j : Nat) := State.window_modWindow s (winKey fn w) j fun x => x.consume service slots
    refine ⟨_, packetFetch_takes hw hi hs hf h1, ?_, fun j hj => ?_, ?_, ?_⟩ <;> rw [htake]
    · rw [hwin, if_pos rfl]
      show ((s.modWindow _ _).window _).runs _ _ = _
      rw [hmod, if_pos rfl]
      cases service <;> rfl
    · rw [hwin, if_neg hj]
      exact (hmod j).trans (if_neg hj)
    · unfold countersMoved State.counter
      rw [hcounters]
      exact countersMoved_count (s.modWindow (winKey fn w) fun x => x.consume service slots) _ _
    · rw [hout]
      rfl
  · rintro s fn w _ p _ c rfl rfl hc hp ho hi hstart ha hirq
    obtain ⟨⟨rest, hout, hrest⟩, hnone, htail, hcons⟩ := State.endPacket_writes p 0 0 hstart ha
    rw [hrest hirq] at hout
    have honly := (s.endPacket_only (winKey fn w) false p 0 0).frame
    exact ⟨_, _, stepMark_ends hp ho hi, hout, rfl, rfl, by simp [State.packetRecord, hc], rfl, rfl, hnone, htail, hcons,
      by rw [honly]; rfl, by rw [honly]; rfl⟩

end Sys2Proof.Machine
end

section
/-! PROOFS. Service commands (12 R318 to R325). -/

namespace Sys2Proof.Machine

/-! ### The meaning of each command -/

section
variable (fn w : Nat) (s : State)

theorem exec_map : exec (.map fn w) s = execMap fn w s := rfl
theorem exec_unmap : exec (.unmap fn w) s = execUnmap fn w s := rfl
theorem exec_poolAdd : exec (.poolAdd fn w) s = execPoolAdd fn w s := rfl
theorem exec_invalidate : exec (.invalidate fn w) s = execInvalidate fn w s := rfl
theorem exec_streamResume : exec (.streamResume fn w) s = execStreamResume fn w s := rfl
theorem exec_svcFence : exec (.svcFence fn w) s = execSvcFence fn w s := rfl
theorem exec_accountRead : exec (.accountRead fn w) s = execAccountRead fn w s := rfl

end

/-! ### A running service packet -/

section
variable {s : State} {fn w c : Nat} {p : Packet} (hc : (s.window (winKey fn w)).ctx = some c)
  (hm : s.cmdMem (some (s.ctx c).f.panel.toNat) = true) (hp : (s.window (winKey fn w)).svcPkt = some p)
include hc hm hp

theorem State.svcRunning_of {op : Nat} (ho : p.opcode = BitVec.ofNat 16 op) :
    s.svcRunning (winKey fn w) op = some (p, c) := by
  rw [State.svcRunning, hp, hc]
  exact if_pos ⟨ho, hm⟩

omit hc hm hp in
/-- A command of one entry that succeeds ends with the count 1 (R318). -/
theorem State.runHeaded_one {s1 : State} {k size maxCount : Nat} {f : List Byte → State → EntryAns} {e : List Byte}
    (he : headedEntries p.params size maxCount = some [e]) (hf : f e s = (0, s1)) :
    s.runHeaded k p size maxCount f = s1.endPacket k true p 0 1 := by
  simp [State.runHeaded, he, State.runEntries, hf]

theorem map_one (ho : p.opcode = 0x0110) {e : List Byte} {s1 : State} (he : headedEntries p.params 16 255 = some [e])
    (hf : mapEntry c e s = (0, s1)) : exec (.map fn w) s = .next (s1.endPacket (winKey fn w) true p 0 1) := by
  rw [exec_map, execMap, State.svcRunning_of hc hm hp ho]
  exact congrArg _ (State.runHeaded_one he hf)

theorem unmap_one (ho : p.opcode = 0x0111) {e : List Byte} {s1 : State} (he : headedEntries p.params 8 255 = some [e])
    (hf : unmapEntry c e s = (0, s1)) : exec (.unmap fn w) s = .next (s1.endPacket (winKey fn w) true p 0 1) := by
  rw [exec_unmap, execUnmap, State.svcRunning_of hc hm hp ho]
  exact congrArg _ (State.runHeaded_one he hf)

theorem poolAdd_one (ho : p.opcode = 0x0113) {e : List Byte} (he : headedEntries p.params 8 511 = some [e])
    (hroom : (s.ctx c).poolLen < 4096) (h1 : fieldAt e 6 1 ≤ 1) (h7 : fieldAt e 7 1 = 0)
    (h0 : fieldAt e 0 6 % pageBytes (bitAt (fieldAt e 6 1) 0) = 0) :
    exec (.poolAdd fn w) s =
      .next ((s.pushPool c (fieldAt e 0 6 / 65536, bitAt (fieldAt e 6 1) 0)).endPacket (winKey fn w) true p 0 1) := by
  have hf : poolEntry c e s = (0, s.pushPool c (fieldAt e 0 6 / 65536, bitAt (fieldAt e 6 1) 0)) := by
    simp [poolEntry, h7, h0, h1]
  rw [exec_poolAdd, execPoolAdd, State.svcRunning_of hc hm hp ho]
  dsimp only
  rw [he]
  dsimp only
  rw [if_neg (by simp; omega), State.runHeaded_one he hf]

theorem invalidate_queues (ho : p.opcode = 0x0112) {v : Inv} (hv : invParams p.params (winKey fn w) c = some v)
    (hq : s.walker.queue = []) (hr : s.walker.running = none) :
    exec (.invalidate fn w) s = .next { s with walker := { s.walker with queue := [v] } } := by
  rw [exec_invalidate, execInvalidate, State.svcRunning_of hc hm hp ho]
  simp [hq, hr, hv]

theorem streamResume_retries (ho : p.opcode = 0x0114) {q : Nat} (hl : p.params.length = 8) (hz : zeroAt p.params 2 6 = true)
    (hact : fieldAt p.params 1 1 = 1) (hcore : fieldAt p.params 0 1 ≠ 0xFF)
    (hin : bitAt (s.ctxNow c).2.cores.toNat (fieldAt p.params 0 1) = true)
    (hfind : ((s.coresOf c).filter (fun q => (s.core q).str.halted)).find?
      (fun q => decide ((s.core q).logical = fieldAt p.params 0 1)) = some q) :
    exec (.streamResume fn w) s = .next ((s.strRetry q).endPacket (winKey fn w) true p 0) := by
  rw [exec_streamResume, execStreamResume, State.svcRunning_of hc hm hp ho]
  dsimp only
  rw [if_neg (by simp [hl, hz, hact]), if_neg hcore, if_neg (by simp [hin]), hfind]
  simp [hact]

theorem svcFence_ends (ho : p.opcode = 0x0115) (hl : p.params.length = 4)
    (hpast : ((s.window (winKey fn w)).consumed - BitVec.ofNat 32 (leNat p.params)).toNat < 2 ^ 31) :
    exec (.svcFence fn w) s = .next (s.endPacket (winKey fn w) true p 0) := by
  have hi : s.islandOn (246 + s.windowParity (winKey fn w)) = true := by
    simp only [State.cmdMem, Bool.and_eq_true] at hm
    simpa [State.windowParity, hc, State.cmdIsland] using hm.1
  rw [exec_svcFence, execSvcFence, hp]
  dsimp only
  rw [if_neg (by simp [ho, hi]), if_neg (by simp [hl]), if_pos hpast]

theorem accountRead_writes (ho : p.opcode = 0x0116) (hl : p.params.length = 8) (ha : leNat p.params % 64 = 0) :
    exec (.accountRead fn w) s = .next
      ((s.emit (.hostBytes (BitVec.ofNat 64 (leNat p.params)) (s.accountBlock c))).endPacket (winKey fn w) true p 0) := by
  rw [exec_accountRead, execAccountRead, State.svcRunning_of hc hm hp ho]
  simp [hl, ha]

end

/-! ### Entries (R319, R322) -/

/-- An entry of the pool is one write behind the pool's last (R322; log entry 55). -/
theorem State.pushPool_writes {s : State} {c base : Nat} (e : Nat × Bool) (hb : s.poolBase c = some base) :
    let n := (s.ctx c).poolLen
    let s1 := s.modCtx c (fun x => { x with poolLen := n + 1 })
    s.pushPool c e = s1.hbmWrite (base + 8 * n) (leBytes 6 (e.1 * 65536) ++ [if e.2 then 1 else 0, 0])
      (s1.hreq 0 (s1.waysOf (s1.cmdUse c) (base + 8 * n))) := by
  intro n s1
  have hbytes : poolBytes e = leBytes 6 (e.1 * 65536) ++ [if e.2 then 1 else 0, 0] := by
    have hsize (b : Bool) : leBytes 2 (boolNat b) = [if b then 1 else 0, 0] := by cases b <;> decide
    rw [poolBytes, hsize]
  rw [State.pushPool, hb, ← hbytes]

section
variable {s s1 : State} {c off : Nat} {old : W64} {e : List Byte}
  (hfl : bits (fieldAt e 6 1) 7 5 = 0) (hz : zeroAt e 14 2 = true) (h0 : bitAt (fieldAt e 6 1) 0 = false)
  (h1 : bitAt (fieldAt e 6 1) 1 = false) (hva : fieldAt e 0 6 % 65536 = 0) (hsrc : fieldAt e 8 6 % 65536 = 0)
  (hpos : s.leafPos (s.cmdUse c) (s.ctxNow c).1.root.toNat (fieldAt e 0 6) false = (.pos off old, s1))
include hfl hz h0 h1 hva hsrc hpos

/-- What a MAP entry of an unshared 64 KiB page does at a position that it finds (R319). -/
theorem mapEntry_unshared : mapEntry c e s =
    if pteValid old = true then (0x0D08, s1)
    else if s1.frameOk (fieldAt e 8 6 / 65536) (s.ctxNow c).2.setMask.toNat = false then (0x0D09, s1)
    else if (s1.raiseCount c (fieldAt e 8 6 / 65536) false).1 ≠ 0 then s1.raiseCount c (fieldAt e 8 6 / 65536) false
    else (0, (s1.raiseCount c (fieldAt e 8 6 / 65536) false).2.writePte (s.cmdUse c) off
      (mkLeaf (fieldAt e 8 6 / 65536) (fieldAt e 7 1) (s.ctxNow c).1.tenant.toNat (bitAt (fieldAt e 6 1) 3) (bitAt (fieldAt e 6 1) 4)
        (bitAt (fieldAt e 6 1) 2))) := by
  rw [mapEntry]
  simp only [h0, h1]
  rw [if_neg (by simp [hfl, hz, pageBytes, hva, hsrc]), hpos]
  simp

/-- A position that is valid is not mapped again. -/
theorem mapEntry_taken (hv : pteValid old = true) : mapEntry c e s = (0x0D08, s1) := by
  rw [mapEntry_unshared hfl hz h0 h1 hva hsrc hpos, if_pos hv]

/-- An empty position takes its leaf as one 8 B store, after the frame's count went up. -/
theorem mapEntry_maps (hv : pteValid old = false) (hok : s1.frameOk (fieldAt e 8 6 / 65536) (s.ctxNow c).2.setMask.toNat = true)
    {s2 : State} (hr : s1.raiseCount c (fieldAt e 8 6 / 65536) false = (0, s2)) :
    mapEntry c e s = (0, s2.writePte (s.cmdUse c) off (mkLeaf (fieldAt e 8 6 / 65536) (fieldAt e 7 1) (s.ctxNow c).1.tenant.toNat
      (bitAt (fieldAt e 6 1) 3) (bitAt (fieldAt e 6 1) 4) (bitAt (fieldAt e 6 1) 2))) := by
  rw [mapEntry_unshared hfl hz h0 h1 hva hsrc hpos, if_neg (by simp [hv]), if_neg (by simp [hok]), hr]
  exact if_neg (by simp)

end

/-- Settles O28: each command's packet is the running one, so that it ends with its effect and its record. -/
theorem serviceCommands : Obligations.ServiceCommands := by
  unfold Obligations.ServiceCommands
  refine ⟨?_, fun s c base e hb => State.pushPool_writes e hb, ?_⟩
  · rintro s fn w _ c p rfl hc hm hp
    exact ⟨fun ho e s1 he hf => map_one hc hm hp ho he hf, fun ho e s1 he hf => unmap_one hc hm hp ho he hf,
      fun ho e he hroom h1 h7 h0 => poolAdd_one hc hm hp ho he hroom h1 h7 h0,
      fun ho v hv hq hr => invalidate_queues hc hm hp ho hv hq hr,
      fun ho q hl hz hact hcore hin hfind => streamResume_retries hc hm hp ho hl hz hact hcore hin hfind,
      fun ho hl hpast => svcFence_ends hc hm hp ho hl hpast, fun ho hl ha => accountRead_writes hc hm hp ho hl ha⟩
  · intro s s1 c off old e f fl src hfl hz h0 h1 hva hsrc hpos
    exact ⟨fun hv => mapEntry_taken hfl hz h0 h1 hva hsrc hpos hv, fun hv hok s2 hr => mapEntry_maps hfl hz h0 h1 hva hsrc hpos hv hok hr⟩

end Sys2Proof.Machine
end

section
/-! PROOFS. Surveys of ports that are down (14 R374), and commands at the mailbox's doors (18 R471, R475, R476). -/

namespace Sys2Proof.Machine

/-! ### A survey of ports that are down (R374) -/

/-- The port as a survey leaves it, where it is neither up nor in hold-down. -/
def State.surveyedPort (s : State) (p : Nat) : Port :=
  let r := s.port p
  if r.frozen then r
  else match s.logicalPort p with
    | none => { r with state := .spareIdle, result := 8 }
    | some l =>
      if planState (s.planOf l) = 2 ∨ portClass l = 3 then { r with state := .spareIdle, result := 8 }
      else if planState (s.planOf l) = 0 then { r with state := .down, result := 5 }
      else { r.fresh with state := .training, result := 0 }

/-- The ports `done` of s are as the survey leaves them in t, every other one is as before; nothing else has changed. -/
structure Surveyed (done : List Nat) (s t : State) : Prop where
  frame : t = { s with lnk := { s.lnk with ports := t.lnk.ports } }
  port : ∀ p, t.port p = if p ∈ done then s.surveyedPort p else s.port p

theorem Surveyed.nil (s : State) : Surveyed [] s s := ⟨rfl, fun _ => by simp⟩

section
variable {s t : State} {done : List Nat} {p : Nat}

theorem Surveyed.logicalPort (h : Surveyed done s t) (q : Nat) : t.logicalPort q = s.logicalPort q := by rw [h.frame]; rfl

theorem Surveyed.planOf (h : Surveyed done s t) (l : Nat) : t.planOf l = s.planOf l := by rw [h.frame]; rfl

/-- One more port is surveyed. -/
theorem Surveyed.modPort (h : Surveyed done s t) {f : Port → Port} (hf : f (t.port p) = s.surveyedPort p) :
    Surveyed (done ++ [p]) s (t.modPort p f) where
  frame := by rw [h.frame]; rfl
  port q := by
    rw [State.port_modPort]
    split_ifs with hq hm hm
    · rw [hq, hf]
    · exact absurd (List.mem_append_right _ (List.mem_singleton.2 hq)) hm
    · rw [h.port, if_pos ((List.mem_append.1 hm).resolve_right (by simpa using hq))]
    · rw [h.port, if_neg fun hd => hm (List.mem_append_left _ hd)]

/-- A port that keeps its state is surveyed. -/
theorem Surveyed.stays (h : Surveyed done s t) (hs : t.port p = s.surveyedPort p) : Surveyed (done ++ [p]) s t where
  frame := h.frame
  port q := by
    split_ifs with hm
    · rcases List.mem_append.1 hm with hd | hd
      · rw [h.port, if_pos hd]
      · rw [List.mem_singleton.1 hd, hs]
    · rw [h.port, if_neg fun hd => hm (List.mem_append_left _ hd)]

theorem Surveyed.resurvey (h : Surveyed done s t) (hp : p ∉ done) (hup : (s.port p).isUp = false) (hh : (s.port p).state ≠ .holddown) :
    Surveyed (done ++ [p]) s (t.resurvey p) := by
  have hport : t.port p = s.port p := by rw [h.port, if_neg hp]
  unfold State.resurvey
  dsimp only
  rw [h.logicalPort, hport]
  cases hl : s.logicalPort p with
  | none =>
    dsimp only
    split_ifs with hf
    · exact h.stays (by simp [State.surveyedPort, hf, hport])
    · exact h.modPort (by simp [State.surveyedPort, hf, hl, hport])
  | some l =>
    dsimp only
    rw [if_neg (by simp [hup, hh]), h.planOf]
    split_ifs with hf h2 h0
    · exact h.stays (by simp [State.surveyedPort, hf, hport])
    · exact h.modPort (by simp [State.surveyedPort, hf, hl, h2, hport])
    · exact h.modPort (by simp only [State.surveyedPort, hport]; rw [if_neg hf, hl]; exact (if_neg h2).trans (if_pos h0) |>.symm)
    · exact h.modPort (by simp only [State.surveyedPort, hport]; rw [if_neg hf, hl]; exact (if_neg h2).trans (if_neg h0) |>.symm)

/-- A survey of ports none of which is up or in hold-down. -/
theorem Surveyed.foldl (l : List Nat) (h : Surveyed done s t) (hnd : (done ++ l).Nodup)
    (hdown : ∀ p ∈ l, (s.port p).isUp = false ∧ (s.port p).state ≠ .holddown) :
    Surveyed (done ++ l) s (l.foldl (fun (s : State) p => s.resurvey p) t) := by
  induction l generalizing t done with
  | nil => simpa using h
  | cons p rest ih =>
    have hp : p ∉ done := fun hd => (List.disjoint_of_nodup_append hnd) hd List.mem_cons_self
    rw [List.append_cons] at hnd ⊢
    exact ih (h.resurvey hp (hdown p List.mem_cons_self).1 (hdown p List.mem_cons_self).2) hnd fun q hq =>
      hdown q (List.mem_cons_of_mem _ hq)

end

/-- The state in which a survey has reached every port. -/
def State.surveying (s : State) : State :=
  (List.range 104).foldl (fun (s : State) p => s.resurvey p) { s with lnk := { s.lnk with surveyBusy := true } }

theorem State.surveyAll_eq (s : State) : s.surveyAll = s.surveying.settleSurvey := rfl

/-- A survey of a module none of whose ports is up or in hold-down. -/
theorem State.surveying_surveyed {s : State} (h : ∀ p < 104, (s.port p).isUp = false ∧ (s.port p).state ≠ .holddown) :
    Surveyed (List.range 104) { s with lnk := { s.lnk with surveyBusy := true } } s.surveying :=
  Surveyed.foldl (done := []) (List.range 104) (.nil _) List.nodup_range fun p hp => h p (List.mem_range.1 hp)

/-- Some port trains, exchanges identities or is surveyed again. -/
def State.surveyRuns (s : State) : Bool :=
  (List.range 104).any (fun p => decide ((s.port p).state = .training) || decide ((s.port p).state = .identity) || (s.port p).surveying)

theorem State.settleSurvey_eq (s : State) : s.settleSurvey =
    let s1 : State := { s with lnk := { s.lnk with surveyBusy := s.lnk.surveyBusy && s.surveyRuns } }
    if (s.surveyRuns || !s.lnk.surveyBusy) = true then s1
    else if s.mgt.bootStage = 5 then s1.becomeReady
    else if s.mbxRuns 0x020D = true then s1.mbxReply 0
    else s1 := rfl

/-- A survey under way goes on while a port trains. -/
theorem State.settleSurvey_trains {s : State} {p : Nat} (hp : p < 104) (ht : (s.port p).state = .training) :
    s.settleSurvey = s := by
  have hrun : s.surveyRuns = true := List.any_eq_true.2 ⟨p, List.mem_range.2 hp, by simp [ht]⟩
  rw [State.settleSurvey_eq, hrun]
  simp

/-- A planned port that is down trains once it is surveyed. -/
theorem State.surveyedPort_trains {s : State} {p l : Nat} (hl : s.logicalPort p = some l) (hf : (s.port p).frozen = false)
    (hc : portClass l ≠ 3) (hplan : planState (s.planOf l) = 1) : (s.surveyedPort p).state = .training := by
  simp [State.surveyedPort, hl, hf, hc, hplan]

/-- SURVEY trains a planned port that is down, and goes on. -/
theorem State.surveyAll_trains {s : State} (h : ∀ p < 104, (s.port p).isUp = false ∧ (s.port p).state ≠ .holddown) {p l : Nat}
    (hp : p < 104) (hl : s.logicalPort p = some l) (hf : (s.port p).frozen = false) (hc : portClass l ≠ 3)
    (hplan : planState (s.planOf l) = 1) :
    (s.surveyAll.port p).state = .training ∧ s.surveyAll.lnk.surveyBusy = true ∧ s.surveyAll.mgt = s.mgt := by
  have hsurv := State.surveying_surveyed h
  have htrain : (s.surveying.port p).state = .training := by
    rw [hsurv.port, if_pos (List.mem_range.2 hp)]
    exact State.surveyedPort_trains (s := { s with lnk := { s.lnk with surveyBusy := true } }) hl hf hc hplan
  rw [State.surveyAll_eq, State.settleSurvey_trains hp htrain]
  exact ⟨htrain, by rw [hsurv.frame], by rw [hsurv.frame]⟩

/-- A survey of ports all of which are frozen and down is over at once: the command replies. -/
theorem State.surveyAll_idle {s : State} (h : ∀ p < 104, (s.port p).frozen = true ∧ (s.port p).state = .down ∧ (s.port p).surveying = false)
    (hb : s.mgt.bootStage ≠ 5) (hr : s.mbxRuns 0x020D = true) : replied 0 [] s.surveyAll := by
  have hsurv := State.surveying_surveyed (s := s) fun p hp => by simp [Port.isUp, (h p hp).2.1]
  have hport (p : Nat) (hp : p < 104) : s.surveying.port p = s.port p := by
    rw [hsurv.port, if_pos (List.mem_range.2 hp)]
    exact if_pos (h p hp).1
  have hrun : s.surveying.surveyRuns = false := by
    refine List.any_eq_false.2 fun p hp => ?_
    obtain ⟨-, hdown, hs⟩ := h p (List.mem_range.1 hp)
    rw [hport p (List.mem_range.1 hp), hdown, hs]
    simp
  have hbusy : s.surveying.lnk.surveyBusy = true := by rw [hsurv.frame]
  have hstage : s.surveying.mgt.bootStage ≠ 5 := by rw [hsurv.frame]; exact hb
  have hruns : s.surveying.mbxRuns 0x020D = true := by
    rw [hsurv.frame]
    simpa only [State.mbxRuns] using hr
  rw [State.surveyAll_eq, State.settleSurvey_eq, hrun, hbusy]
  dsimp only
  rw [if_neg (by simp), if_neg hstage, if_pos hruns]
  exact State.mbxReply_replied _ _ _

/-! ### The meaning of each command -/

section
variable (s : State)

theorem exec_mbxCmd (d : Door) (op seq : Half) : exec (.mbxCmd d op seq) s = execMbxCmd d op seq s := rfl
theorem exec_lockSet (g : BitVec 2) : exec (.lockSet g) s = execLockSet g s := rfl
theorem exec_release (kind i : Nat) : exec (.release kind i) s = execRelease kind i s := rfl
theorem exec_identitySet (m : Nat) : exec (.identitySet m) s = execIdentitySet m s := rfl
theorem exec_survey : exec .survey s = execSurvey s := rfl
theorem exec_calUnpin (i : Nat) : exec (.calUnpin i) s = execCalUnpin i s := rfl

end

/-! ### Doors (R471, R475, R476) -/

section
variable {s : State} {d : Door} (op seq : Half) (hd : s.doorOpen d = true) (hw : d = .bar4 → s.hostWaits = false)
include hd

include hw in
/-- A command at an open door arrives there. -/
theorem mbxCmd_arrives : exec (.mbxCmd d op seq) s = .next (s.mbxArrive d op seq) := by
  rw [exec_mbxCmd, execMbxCmd]
  split_ifs with hb
  · subst hb
    simp only [State.doorOpen, Bool.and_eq_true] at hd
    obtain ⟨⟨h240, h241⟩, -⟩ := hd
    exact State.hostTo_runs _ _ (hw rfl) (State.runsFree_of_islandOn h240) (by simp [State.runsFree_of_islandOn h241])
  · rfl

theorem State.mbxArrive_busy (hb : s.mgt.mbxBusy = true) : s.mbxArrive d op seq = s.mbxRefuse d seq := by
  simp [State.mbxArrive, hd, hb]

/-- What an idle mailbox does with a command. -/
theorem State.mbxArrive_idle (hb : s.mgt.mbxBusy = false) : s.mbxArrive d op seq =
    if op.toNat ∉ mbxOpcodes then (s.mbxAccept d op seq).mbxReply 2
    else if s.mgt.state ≠ .ready ∧ mbxInHold op.toNat = false then (s.mbxAccept d op seq).mbxReply 0x000C
    else s.mbxAccept d op seq := by
  simp [State.mbxArrive, hd, hb]

end

/-- A refusal is counted and goes back through its door. -/
theorem State.mbxRefuse_answers (s : State) (d : Door) (seq : Half) :
    countersMoved [(0x128, 1)] s (s.mbxRefuse d seq) ∧
      (d = .bar4 → (s.mbxRefuse d seq).mgt = { s.mgt with mbxRefSeq := seq, mbxRefStatus := 1 } ∧ (s.mbxRefuse d seq).out = s.out) ∧
      (d ≠ .bar4 → (s.mbxRefuse d seq).mgt = s.mgt ∧ (s.mbxRefuse d seq).out = s.out ++ [.mailboxReply d 1 []]) := by
  cases d with
  | bar4 => exact ⟨countersMoved_count s _ _, fun _ => ⟨rfl, rfl⟩, fun h => (h rfl).elim⟩
  | chain => exact ⟨countersMoved_count s _ _, nofun, fun _ => ⟨rfl, rfl⟩⟩
  | vc4 => exact ⟨countersMoved_count s _ _, nofun, fun _ => ⟨rfl, rfl⟩⟩

/-- An accepted command runs, and is counted. -/
theorem State.mbxAccept_runs (s : State) (d : Door) (op seq : Half) :
    let t := s.mbxAccept d op seq
    t.mgt = { s.mgt with mbxBusy := true, mbxDoor := d, mbxOpcode := op, mbxSeq := t.mgt.mbxSeq } ∧ (d = .bar4 → t.mgt.mbxSeq = seq) ∧
      countersMoved [(0x120, 1)] s t ∧ t.out = s.out :=
  ⟨rfl, fun h => if_pos h, countersMoved_count s _ _, rfl⟩

/-- A reply leaves the frozen functions alone. -/
theorem State.mbxReply_hif_frozen (s : State) (st : Half) (data : List Byte) : (s.mbxReply st data).hif.frozen = s.hif.frozen := by
  obtain ⟨_, _, _, _, _, h⟩ := s.mbxReply_frame st data
  rw [h]

/-- Settles O52: a command that arrives is refused, ended or run; each command of the mailbox ends with its effect and its reply. -/
theorem mailboxCommands : Obligations.MailboxCommands := by
  unfold Obligations.MailboxCommands
  refine fun s => ⟨fun d op seq hd hw => ?door, fun g hr => ?lock, fun i hr => ?release, fun first n hr hn => ?events,
    fun m hr hm => ?identity, fun hr hon hdown => ?survey, fun i hr hi => ?unpin⟩
  case door =>
    rw [mbxCmd_arrives op seq hd hw]
    refine ⟨fun hb => ?_, fun hb hop => ⟨fun hok => ?_, fun hs hh => ?_⟩, fun hb hop => ?_⟩
    · exact ⟨_, rfl, by rw [State.mbxArrive_busy op seq hd hb]; exact s.mbxRefuse_answers d seq⟩
    · refine ⟨_, rfl, ?_⟩
      rw [State.mbxArrive_idle op seq hd hb, if_neg (not_not.2 hop), if_neg (by rcases hok with h | h <;> simp [h])]
      exact s.mbxAccept_runs d op seq
    · refine ⟨_, rfl, ?_⟩
      rw [State.mbxArrive_idle op seq hd hb, if_neg (not_not.2 hop), if_pos ⟨hs, hh⟩]
      exact ⟨State.mbxReply_replied _ _ _, State.mbxReply_mgt_field _ _ _ Mgt.mbxDoor fun _ _ _ _ => rfl⟩
    · refine ⟨_, rfl, ?_⟩
      rw [State.mbxArrive_idle op seq hd hb, if_pos hop]
      exact State.mbxReply_replied _ _ _
  case lock =>
    rw [exec_lockSet, execLockSet, hr, if_pos rfl]
    exact ⟨_, rfl, State.mbxReply_replied _ _ _, State.mbxReply_mgt_field _ _ _ Mgt.locks fun _ _ _ _ => rfl⟩
  case release =>
    rw [exec_release, exec_release, execRelease, execRelease, hr]
    refine ⟨fun hi => ?_, fun hi => ?_, fun hs hf => ?_⟩
    · simp only [Bool.not_true, Bool.false_eq_true, if_false, if_true, List.contains_iff_mem.2 hi]
      exact ⟨_, rfl, State.mbxReply_replied _ _ _, fun j => by rw [State.mbxReply_hif_frozen]; simp⟩
    · simp only [Bool.not_true, Bool.false_eq_true, if_false, if_true, show s.hif.frozen.contains i = false by simpa using hi]
      exact ⟨_, rfl, State.mbxReply_replied _ _ _, State.mbxReply_hif_frozen _ _ _⟩
    · simp only [Bool.not_true, Bool.false_eq_true, if_false, if_true, one_ne_zero, hs, ne_eq, not_true_eq_false, hf]
      refine ⟨_, rfl, State.mbxReply_replied _ _ _, ?_, fun j hj => ?_⟩ <;> rw [State.port_mbxReply, State.port_modPort]
      · exact if_pos rfl
      · exact if_neg hj
  case events => exact eventRead_reads hr hn
  case identity =>
    rw [exec_identitySet, execIdentitySet, hr, if_neg (by simp), if_neg (by omega)]
    exact ⟨_, rfl, State.mbxReply_replied _ _ _, State.mbxReply_mgt_field _ _ _ Mgt.moduleId fun _ _ _ _ => rfl,
      State.mbxReply_mgt_field _ _ _ Mgt.assigned fun _ _ _ _ => rfl⟩
  case survey =>
    rw [exec_survey, execSurvey, hr, hon, if_pos (by rfl)]
    refine ⟨_, rfl, fun p hp l hl hf hc hplan => ?_, fun hfrozen hb => State.surveyAll_idle hfrozen hb hr⟩
    obtain ⟨ht, hbusy, hmgt⟩ := State.surveyAll_trains hdown hp hl hf hc hplan
    exact ⟨ht, hbusy, by rw [hmgt]; exact State.mbxBusy_of_mbxRuns hr⟩
  case unpin =>
    rw [exec_calUnpin, execCalUnpin, hr, if_neg (by simp), if_neg (by omega)]
    refine ⟨_, rfl, State.mbxReply_replied _ _ _, ?_, fun j hj => ?_⟩ <;> rw [State.mbxReply_gov]
    · exact Tab.get_set_self _ _ _ _
    · exact Tab.get_set_of_ne _ _ _ hj

end Sys2Proof.Machine
end

section
/-! PROOFS. Messages that go out, reads and writes on behalf of a context, and walks (09 R236, R239; 14 R365 to R371): what every one of
their parts keeps, they keep. -/

namespace Sys2Proof.Machine

/-! ### Relations that every part of a send keeps -/

/-- A transfer that went on from x to y: what it has sent, its wait and its status changed, and a status that it had stays. -/
def Transfer.Advances (x y : Transfer) : Prop :=
  (∃ sent since status, y = { x with sent := sent, since := since, status := status }) ∧ (x.status.isSome = true → y.status = x.status)

/-- A relation between a state and a later one that accesses of HBM, charges, tokens, changes of the sending queues and launches at a
port that is up keep, and so does everything that is made of them. -/
structure SendClosed (R : State → State → Prop) : Prop where
  refl (s : State) : R s s
  trans {s t u : State} : R s t → R t u → R s u
  hbm {s t : State} : HbmOnly s t → R s t
  emit (s : State) (o : Out) : R s (s.emit o)
  charge (s : State) (ctx off n : Nat) : R s (s.charge ctx off n)
  tokens (s : State) (k side n : Nat) : R s (s.takeTokens k side n)
  queues (s : State) (tx : Tab TxStream) (rx : Tab RxStream) (backlog : List SentMsg) (ivs : Tab Nat)
    (pinned : List (Nat × Nat × Nat)) (cache : List ((Nat × Nat × Nat) × W64)) :
    R s { s with lnk := { s.lnk with tx := tx, rx := rx, backlog := backlog },
                 sec := { s.sec with ivs := ivs }, walker := { s.walker with pinned := pinned, cache := cache } }
  transfers (s : State) (f : Transfer → Transfer) : (∀ x : Transfer, x.Advances (f x)) →
    R s { s with lnk := { s.lnk with transfers := s.lnk.transfers.map f } }
  slice (s : State) (p : Nat) (f : Slice → Slice) : (∀ sl, (f sl).mem = sl.mem) → R s (s.modSlice p f)
  launch (s : State) (h : MsgHdr) (data : List Byte) (port : Nat) : (s.port port).isUp = true → R s (s.launch h data port)

/-- A path that a message takes starts at a port that is up. -/
theorem State.port_of_route {s : State} {dest table level spread : Nat} {p : Path} (h : s.route dest table level spread = some p) :
    (s.port (s.physPort (p.ports.headD 0))).isUp = true := by
  have hlive {l : Nat} (hl : s.liveLink l level = true) : (s.port (s.physPort l)).isUp = true := by
    simp only [State.liveLink, Bool.and_eq_true] at hl
    exact hl.1.2
  unfold State.route at h
  dsimp only at h
  split at h
  · cases h
  · split at h
    · next l hl =>
      cases h
      split at hl
      · have hmem := (List.mem_filter.1 (List.mem_of_getElem? hl)).2
        simp only [Bool.and_eq_true] at hmem
        exact hlive hmem.1.2
      · simp at hl
    · unfold State.tablePath at h
      obtain ⟨x, hx, rfl⟩ := Option.map_eq_some_iff.1 h
      have hok := List.find?_some hx
      simp only [Bool.and_eq_true, decide_eq_true_eq] at hok
      obtain ⟨⟨-, hhops⟩, hl⟩ := hok
      cases hports : x.1.ports with
      | nil => simp [hports, State.liveLink] at hl
      | cons l rest =>
        obtain ⟨n, hn⟩ := Nat.exists_eq_succ_of_ne_zero hhops
        rw [hports] at hl
        simpa [hn] using hlive hl

section
variable {R : State → State → Prop} (hR : SendClosed R) (s : State)
include hR

theorem SendClosed.count (off n : Nat) : R s (s.count off n) := hR.hbm (HbmOnly.count s off n)

theorem SendClosed.event (code : Nat) : R s (s.event code) := hR.hbm (HbmOnly.event s code)

theorem SendClosed.drawBytes (n : Nat) : R s (s.drawBytes n).2 := hR.hbm (HbmOnly.draw s n)

omit hR in
theorem rel_ite {R : State → State → Prop} {s t u : State} {c : Prop} [Decidable c] (h : R s t) (k : R s u) :
    R s (if c then t else u) := by
  split
  · exact h
  · exact k

omit hR in
theorem rel_iteAns {R : State → State → Prop} {s : State} {α : Type} {c : Prop} [Decidable c] {x y : α × State} (h : R s x.2)
    (k : R s y.2) : R s (if c then x else y).2 := by
  split
  · exact h
  · exact k

/-- A fold of steps that each keep the relation keeps it. -/
theorem SendClosed.foldl {α : Type} {g : State → α → State} (h : ∀ s a, R s (g s a)) (l : List α) : R s (l.foldl g s) :=
  List.foldlRecOn (motive := R s) l g (hR.refl s) fun t ht a _ => hR.trans ht (h t a)

/-- The same for a fold that carries an answer before the state. -/
theorem SendClosed.foldl_snd {α β : Type} {g : β × State → α → β × State} (h : ∀ a x, R a.2 (g a x).2) (l : List α)
    (a : β × State) : R a.2 (l.foldl g a).2 :=
  List.foldlRecOn (motive := fun b : β × State => R a.2 b.2) l g (hR.refl _) fun b hb x _ => hR.trans hb (h b x)

/-! ### Messages (14 R366 to R368) -/

theorem SendClosed.shape (h : MsgHdr) (n : Nat) : R s (s.shape h n) := by
  unfold State.shape
  split
  · exact hR.tokens s _ _ _
  · exact hR.refl s

omit hR in
theorem State.shape_lnk (s : State) (h : MsgHdr) (n : Nat) : (s.shape h n).lnk = s.lnk := by
  unfold State.shape
  split <;> rfl

omit hR in
theorem State.shape_sec (s : State) (h : MsgHdr) (n : Nat) : (s.shape h n).sec = s.sec := by
  unfold State.shape
  split <;> rfl

theorem SendClosed.sendMsg (h : MsgHdr) (data : List Byte) (owner : Option (Nat × Nat)) (coll : Option Nat) :
    R s (s.sendMsg h data owner coll).2 := by
  unfold State.sendMsg
  dsimp only
  split
  · exact hR.refl s
  next p hroute =>
  have hup := State.port_of_route hroute
  have hqueued (tx : Tab TxStream) (ivs : Tab Nat) : R s
      { s.shape h data.length with lnk := { s.lnk with tx := tx }, sec := { s.sec with ivs := ivs } } := by
    rw [← s.shape_lnk h data.length, ← s.shape_sec h data.length]
    exact hR.trans (hR.shape s h data.length) (hR.queues _ tx _ _ ivs _ _)
  refine rel_iteAns (hR.refl s) (rel_iteAns (hR.event s _) ?_)
  refine hR.trans (rel_ite ?_ ?_) (hR.launch _ _ _ _ ?_)
  · exact hR.trans (hR.trans (hqueued _ _) (hR.count _ _ _)) (hR.count _ _ _)
  · exact hR.trans (hR.trans (hR.trans (hqueued _ _) (hR.count _ _ _)) (hR.count _ _ _)) (hR.count _ _ _)
  · split <;> exact hup

theorem SendClosed.failTransfer (c slot : Nat) (status : Half) : R s (s.failTransfer c slot status) :=
  hR.transfers s _ fun x => by
    split
    · next h => exact ⟨⟨_, _, _, rfl⟩, by simp [h.2.2]⟩
    · exact ⟨⟨x.sent, x.since, x.status, rfl⟩, fun _ => rfl⟩

theorem SendClosed.modTransfer (c slot : Nat) {f : Transfer → Transfer} (hf : ∀ x : Transfer, x.Advances (f x)) : R s (s.modTransfer c slot f) :=
  hR.transfers s _ fun x => by
    split
    · exact hf x
    · exact ⟨⟨x.sent, x.since, x.status, rfl⟩, fun _ => rfl⟩

theorem SendClosed.modRx (k : Nat) (f : RxStream → RxStream) : R s (s.modRx k f) :=
  hR.queues s _ _ _ _ _ _

theorem SendClosed.countWait (k : Nat) (since : Option Nat) : R s (s.countWait k since) := by
  unfold State.countWait
  split
  · exact hR.count s _ _
  · exact hR.refl s

theorem SendClosed.chargeSent (h : MsgHdr) (n : Nat) : R s (s.chargeSent h n) :=
  rel_ite (hR.charge s _ _ _) (hR.refl s)

theorem SendClosed.sendOrWait (h : MsgHdr) (data : List Byte) (owner : Option (Nat × Nat)) (coll since : Option Nat) :
    R s (s.sendOrWait h data owner coll since) := by
  have hsend := hR.sendMsg s (s.inClass h data.length).1 data owner coll
  unfold State.sendOrWait
  dsimp only
  split
  · have hsent := hR.trans (hR.trans hsend (hR.countWait _ (s.panelNow h.srcCtx.toNat) since)) (hR.chargeSent _ h data.length)
    exact rel_ite (hR.trans hsent (hR.count _ _ _)) hsent
  · exact hR.trans hsend (hR.failTransfer _ _ _ _)
  · exact hR.trans hsend (hR.failTransfer _ _ _ _)
  · exact hR.trans hsend (hR.queues _ _ _ _ _ _ _)

theorem SendClosed.pumpBacklog : R s s.pumpBacklog :=
  hR.trans (hR.queues s _ _ _ _ _ _) (hR.foldl _ (fun t (m : SentMsg) => hR.sendOrWait t m.hdr m.data m.owner _ _) _)

theorem SendClosed.resendMsg (m : SentMsg) : R s (s.resendMsg m).2 := by
  unfold State.resendMsg
  split
  · exact hR.refl s
  next p hroute =>
  have hup := State.port_of_route hroute
  have hcounted := hR.trans (hR.count s (lnkReg 0x110) 1) (hR.count _ (rteReg 0xC00) 1)
  refine hR.trans (rel_ite hcounted (hR.trans hcounted (hR.count _ _ _))) (hR.launch _ _ _ _ ?_)
  split <;> exact hup

theorem SendClosed.resendStream (k : Nat) : R s (s.resendStream k) := by
  have hmsgs : R s ((Tab.get {} s.lnk.tx k).unacked.foldl (fun (acc : List SentMsg × State) m =>
      let a := acc.2.resendMsg m
      (acc.1 ++ [a.1], a.2)) ([], s)).2 :=
    hR.foldl_snd (g := fun (acc : List SentMsg × State) m => (acc.1 ++ [(acc.2.resendMsg m).1], (acc.2.resendMsg m).2))
      (fun a m => hR.resendMsg a.2 m) _ ([], s)
  exact hR.trans hmsgs (hR.queues _ _ _ _ _ _ _)

theorem SendClosed.resendWhere (p : SentMsg → Bool) : R s (s.resendWhere p) :=
  hR.foldl s (fun t (e : Nat × TxStream) => hR.resendStream t e.1) _

theorem SendClosed.peerRequest (ctx slot keySlot : Nat) (gen : BitVec 8) (write : Bool) (addr n : Nat) (data : List Byte) :
    R s (s.peerRequest ctx slot keySlot gen write addr n data) :=
  hR.foldl s (fun t _ => hR.sendOrWait t _ _ _ _ _) _

theorem SendClosed.askPeer (ctx keySlot addr : Nat) (write : Bool) (n : Nat) (data : List Byte) :
    R s (s.askPeer ctx keySlot addr write n data) :=
  hR.trans (hR.peerRequest s _ _ _ _ _ _ _ _) (hR.charge _ _ _ _)

theorem SendClosed.readPeer (ctx keySlot addr n : Nat) : R s (s.readPeer ctx keySlot addr n).2 := by
  have hask := hR.trans (hR.askPeer s ctx keySlot addr false n []) (hR.drawBytes _ 1)
  unfold State.readPeer
  dsimp only
  split
  · exact hask
  · exact hask
  · exact hR.trans hask (hR.drawBytes _ n)

/-! ### The walk (09 R239) -/

theorem SendClosed.readPte (u : Use) (table idx : Nat) : R s (s.readPte u table idx).2 := by
  unfold State.readPte
  split
  · exact hR.refl s
  · refine rel_iteAns (hR.refl s) ?_
    dsimp only
    split <;> exact hR.hbm (s.hbmRead_only _ _ _)

theorem SendClosed.walkerPin (key : Nat × Nat × Nat) : R s (s.walkerPin key) :=
  rel_ite (hR.refl s) (hR.queues s _ _ _ _ _ _)

theorem SendClosed.walkerKeep (key : Nat × Nat × Nat) (e : W64) : R s (s.walkerKeep key e) := by
  unfold State.walkerKeep
  refine rel_ite (hR.queues s _ _ _ _ _ _) ?_
  dsimp only
  split
  · exact hR.trans (hR.drawBytes s 1) (hR.queues _ _ _ _ _ _ _)
  · exact hR.drawBytes s 1

theorem SendClosed.walkerPinBoth (ctx va : Nat) : R s (s.walkerPinBoth ctx va) :=
  hR.trans (rel_ite (hR.walkerPin s _) (hR.refl s)) (hR.walkerPin _ _)

theorem SendClosed.cachedPte (u : Use) (cached pin : Bool) (ctx level va table : Nat) :
    R s (s.cachedPte u cached pin ctx level va table).2 := by
  have hread := hR.readPte s u table (vaIndex va level)
  unfold State.cachedPte
  dsimp only
  split
  · exact rel_ite (hR.walkerPin s _) (hR.refl s)
  · split
    · next e _ =>
      have hkept := hR.trans hread (hR.walkerKeep _ (walkerKey ctx level va) e)
      exact rel_iteAns (rel_ite (hR.trans hkept (hR.walkerPin _ _)) hkept) hread
    · exact hread

theorem SendClosed.leafFrom2 (u : Use) (va : Nat) (e2 : W64) : R s (s.leafFrom2 u va e2).2 := by
  have hread := hR.readPte s u (pteNext e2) (vaIndex va 3)
  unfold State.leafFrom2
  dsimp only
  refine rel_iteAns (hR.refl s) (rel_iteAns (hR.refl s) (rel_iteAns (hR.refl s) ?_))
  split
  · exact hread
  · exact rel_iteAns hread (rel_iteAns hread hread)

theorem SendClosed.findLeaf (u : Use) (cached pin : Bool) (ctx root va : Nat) :
    R s (s.findLeaf u cached pin ctx root va).2 := by
  have hfirst := hR.cachedPte s u cached pin ctx 1 va root
  unfold State.findLeaf
  dsimp only
  refine rel_iteAns (hR.refl s) (rel_iteAns (hR.refl s) ?_)
  split
  · exact hR.trans (rel_ite (hR.walkerPinBoth s ctx va) (hR.refl s)) (hR.leafFrom2 _ _ _ _)
  · split
    · exact hfirst
    · next e1 _ =>
      refine rel_iteAns hfirst (rel_iteAns hfirst ?_)
      have hsecond := hR.trans hfirst (hR.cachedPte _ u cached pin ctx 2 va (pteNext e1))
      split
      · exact hsecond
      · exact hR.trans hsecond (hR.leafFrom2 _ _ _ _)

theorem SendClosed.boardCount (u : Use) (ctx frame : Nat) : R s (s.boardCount u ctx frame).2 := by
  unfold State.boardCount
  split
  · exact hR.hbm (s.hbmRead_only _ _ _)
  · exact hR.trans (hR.peerRequest s _ _ _ _ _ _ _ _) (hR.drawBytes _ _)

theorem SendClosed.checkLeaf (u : Use) (ctx : Nat) (e : W64) (large : Bool) (tenant setMask : Nat) (write : Bool) :
    R s (s.checkLeaf u ctx e large tenant setMask write).2 := by
  have hcount := hR.boardCount s (if u = .bare then .bare else .sys) ctx (pteFrame e)
  exact rel_iteAns (hR.refl s) (rel_iteAns (hR.refl s) (rel_iteAns (hR.refl s) (rel_iteAns (rel_iteAns hcount hcount) (hR.refl s))))

theorem SendClosed.walk (u : Use) (pin : Bool) (ctx root tenant setMask va : Nat) (write : Bool) :
    R s (s.walk u pin ctx root tenant setMask va write).2 := by
  have hfind := hR.findLeaf s u true pin ctx root va
  unfold State.walk
  generalize s.findLeaf u true pin ctx root va = found at hfind ⊢
  obtain ⟨answer, t⟩ := found
  cases answer with
  | fault kind frame => exact hR.trans hfind (hR.trans (hR.count t _ _) (hR.count _ _ _))
  | leaf e large wOk =>
    have hchecked := hR.trans hfind (hR.checkLeaf t u ctx e large tenant setMask write)
    dsimp only
    split
    · exact hR.trans hchecked (hR.trans (hR.count _ _ _) (hR.count _ _ _))
    · exact hR.trans hchecked (hR.count _ _ _)

theorem SendClosed.walkBy (g : Agent) (ctx va : Nat) (write : Bool) : R s (s.walkBy g ctx va write).2 := by
  have hwalk := hR.walk s (g.use (s.ctxNow ctx).2) (decide (g = .table)) ctx (s.ctxNow ctx).1.root.toNat
    (s.ctxNow ctx).1.tenant.toNat (s.ctxNow ctx).2.setMask.toNat va write
  unfold State.walkBy
  dsimp only
  split
  · exact hwalk
  · refine rel_iteAns hwalk ?_
    split <;> exact hwalk

/-! ### Reads and writes at a virtual address -/

theorem SendClosed.readVa1 (g : Agent) (ctx va n : Nat) : R s (s.readVa1 g ctx va n).2 := by
  have hwalk := hR.walkBy s g ctx va false
  unfold State.readVa1
  dsimp only
  split
  · exact hwalk
  · exact hR.trans hwalk (hR.readPeer _ _ _ _ _)
  · split <;> exact hR.trans hwalk (hR.hbm (State.hbmRead_only _ _ _ _))

theorem SendClosed.readBy (g : Agent) (ctx va n : Nat) : R s (s.readBy g ctx va n).2 := by
  unfold State.readBy
  induction pagePieces va n generalizing s with
  | nil => exact hR.refl s
  | cons p rest ih =>
    have hfirst := hR.readVa1 s g ctx p.1 p.2
    unfold State.readPieces
    dsimp only
    split
    · split <;> exact hR.trans hfirst (ih _)
    · exact hfirst

theorem SendClosed.writeBy (g : Agent) (ctx va : Nat) (bs : List Byte) : R s (s.writeBy g ctx va bs).2 := by
  refine hR.foldl_snd (fun a p => ?_) _ (true, s)
  have hwalk := hR.walkBy a.2 g ctx p.1 true
  dsimp only
  split
  · exact hwalk
  · exact hR.trans hwalk (hR.askPeer _ _ _ _ _ _ _)
  · exact hR.trans hwalk (hR.hbm (State.hbmWrite_only _ _ _ _))

/-! ### Transfers (14 R370, R371) -/

theorem SendClosed.noteBad (p w : Nat) : R s (s.noteBad p w) := by
  refine hR.trans (hR.trans (hR.slice s p _ ?_) (hR.count _ _ _)) (hR.event _ _)
  exact fun _ => rfl

theorem SendClosed.noteReads (p : Nat) (rs : List (Nat × Nat)) : R s (s.noteReads p rs) :=
  rel_ite (hR.refl s) (hR.count s _ _)

theorem SendClosed.portBRead (p off n : Nat) : R s (s.portBRead p off n).2 := by
  unfold State.portBRead
  refine rel_iteAns (hR.refl s) ?_
  dsimp only
  refine hR.trans (hR.drawBytes s n) (hR.slice (s.drawBytes n).2 p _ ?_)
  exact fun _ => rfl

theorem SendClosed.localRead (t : Transfer) (i : Nat) : R s (s.localRead t i).2 := by
  unfold State.localRead
  refine rel_iteAns (hR.refl s) (rel_iteAns ?_ ?_)
  · split
    · exact hR.refl s
    · refine rel_iteAns (hR.trans (hR.count s _ _) (hR.event _ _)) (rel_iteAns (hR.count s _ _) ?_)
      split
      · exact hR.noteBad s _ _
      · exact hR.trans (hR.noteReads s _ _) (hR.portBRead _ _ _ _)
  · have hread := hR.readBy s .dma t.ctx (t.b 8 6 + 4096 * i) (t.piece i)
    dsimp only
    split <;> exact hread

theorem SendClosed.pumpTransfer (fuel c slot : Nat) : R s (State.pumpTransfer fuel c slot s) := by
  induction fuel generalizing s with
  | zero => exact hR.refl s
  | succ fuel ih =>
    unfold State.pumpTransfer
    split
    · next n t hn htransfer =>
      obtain rfl : fuel = n := Nat.succ.inj hn
      have hread := hR.localRead s t t.sent
      dsimp only
      refine rel_ite (hR.refl s) ?_
      split
      · exact hR.failTransfer s _ _ _
      refine rel_ite (hR.refl s) ?_
      split
      · exact hR.trans hread (hR.failTransfer _ _ _ _)
      next bs _ =>
      have hsend := hR.trans hread (hR.sendMsg _ (s.postHdr t t.sent (s.postVc t t.sent).1) bs (some (c, slot)) none)
      split
      · exact hR.modTransfer s _ _ fun _ => ⟨⟨_, _, _, rfl⟩, fun _ => rfl⟩
      · exact hR.trans hsend (hR.failTransfer _ _ _ _)
      · exact hR.trans hsend (hR.failTransfer _ _ _ _)
      · have hsent := hR.trans (hR.trans (hR.trans hsend
          (hR.modTransfer _ c slot (f := fun t => { t with sent := t.sent + 1, since := none })
            fun _ => ⟨⟨_, _, _, rfl⟩, fun _ => rfl⟩)) (hR.countWait _ t.panel t.since))
          (hR.chargeSent _ (s.postHdr t t.sent (s.postVc t t.sent).1) bs.length)
        exact hR.trans (rel_ite (hR.trans hsent (hR.count _ _ _)) hsent) (ih _)
    · exact hR.refl s

theorem SendClosed.pumpTransfers : R s s.pumpTransfers :=
  hR.foldl s (fun t (x : Transfer) => hR.pumpTransfer t 4096 x.ctx x.slot) _

end

end Sys2Proof.Machine
end

section
/-! PROOFS. What messages leave alone at the ports (14 R359 to R365), and how a link goes down (14 R361). -/

namespace Sys2Proof.Machine

/-! ### A port without what it sends -/

/-- A port without what it sends: its sequence, its replay buffer, its credits, its waiting bytes and the turns of its output. -/
def Port.standing (p : Port) : Port :=
  { p with txSeq := 0, replay := [], credits := [], txBytes := [], txOwner := [], inUse := [], c0Past := [], reqPast := [],
           c0Turn := false, reqTurn := false }

@[simp] theorem Port.standing_standing (p : Port) : p.standing.standing = p.standing := rfl

theorem Port.standing_serve (p : Port) (k : Nat) (bs : List Byte) : (p.serve k bs).standing = p.standing := rfl

section
variable {p q : Port} (h : q.standing = p.standing)
include h

theorem Port.state_of_standing : q.state = p.state := (congrArg Port.state h :)
theorem Port.level_of_standing : q.level = p.level := (congrArg Port.level h :)
theorem Port.seen_of_standing : q.seen = p.seen := (congrArg Port.seen h :)
theorem Port.result_of_standing : q.result = p.result := (congrArg Port.result h :)
theorem Port.wasDead_of_standing : q.wasDead = p.wasDead := (congrArg Port.wasDead h :)
theorem Port.frozen_of_standing : q.frozen = p.frozen := (congrArg Port.frozen h :)
theorem Port.deaths_of_standing : q.deaths = p.deaths := (congrArg Port.deaths h :)
theorem Port.rxSeq_of_standing : q.rxSeq = p.rxSeq := (congrArg Port.rxSeq h :)
theorem Port.failures_of_standing : q.failures = p.failures := (congrArg Port.failures h :)

end

/-- From s to t the ports only sent: what is out stays, each port is as before but for what it sends, and one that is not up sent
nothing. -/
structure PortsStand (s t : State) : Prop where
  out : s.out <+: t.out
  port (j : Nat) : (t.port j).standing = (s.port j).standing
  silent (j : Nat) : (s.port j).isUp = false → t.port j = s.port j

section
variable {s t u : State}

theorem PortsStand.refl (s : State) : PortsStand s s := ⟨List.prefix_refl _, fun _ => rfl, fun _ _ => rfl⟩

/-- A port that only sent is up as before. -/
theorem PortsStand.isUp (h : PortsStand s t) (j : Nat) : (t.port j).isUp = (s.port j).isUp := by
  rw [Port.isUp, Port.state_of_standing (h.port j), Port.isUp]

theorem PortsStand.trans (h : PortsStand s t) (k : PortsStand t u) : PortsStand s u :=
  ⟨h.out.trans k.out, fun j => (k.port j).trans (h.port j), fun j hj => (k.silent j ((h.isUp j).trans hj)).trans (h.silent j hj)⟩

/-- The ports and what is out are as before. -/
theorem PortsStand.of_eq (hports : t.lnk.ports = s.lnk.ports) (hout : t.out = s.out) : PortsStand s t := by
  have hport (j : Nat) : t.port j = s.port j := by rw [State.port, hports, State.port]
  exact ⟨hout ▸ List.prefix_refl _, fun j => by rw [hport], fun j _ => hport j⟩

end

section
variable (s : State)

/-- A sequenced frame stays in the replay buffer of its port, under its next number. -/
theorem State.port_putSequenced (port j : Nat) (f : LinkFrame) : (s.putSequenced port f).port j =
    if j = port then { s.port port with
      txSeq := (s.port port).txSeq + 1,
      replay := (s.port port).replay ++ [{ f with seq := (s.port port).txSeq, ack := (s.port port).ack }] } else s.port j :=
  s.port_modPort port j _

/-- The pump sends from one port, which is as before but for what it sends. -/
theorem State.pumpPort_port (fuel port j : Nat) :
    ((State.pumpPort fuel port s).port j).standing = (s.port j).standing ∧
      (j ≠ port → (State.pumpPort fuel port s).port j = s.port j) := by
  induction fuel generalizing s with
  | zero => exact ⟨rfl, fun _ => rfl⟩
  | succ fuel ih =>
    unfold State.pumpPort
    dsimp only
    split
    · exact ⟨rfl, fun _ => rfl⟩
    next k bs _ =>
    split
    · exact ⟨rfl, fun _ => rfl⟩
    have hserve (t : State) (f : LinkFrame) (ht : t.port j = s.port j) :
        (((t.modPort port fun p => p.serve k bs).putSequenced port f).port j).standing = (s.port j).standing ∧
          (j ≠ port → ((t.modPort port fun p => p.serve k bs).putSequenced port f).port j = s.port j) := by
      rw [State.port_putSequenced, State.port_modPort, State.port_modPort, if_pos rfl]
      refine ⟨?_, fun hj => by rw [if_neg hj, if_neg hj, ht]⟩
      split
      · next hj => subst hj; rw [ht]; rfl
      · rw [ht]
    obtain ⟨hself, hother⟩ := hserve (s.drawBytes (118 - bs.length)).2
      { type := 1, vc := k / 8, lane := k % 8, payload := bs.take 118 ++ (s.drawBytes (118 - bs.length)).1 } rfl
    obtain ⟨ihself, ihother⟩ := ih _
    exact ⟨ihself.trans hself, fun hj => (ihother hj).trans (hother hj)⟩

theorem State.launch_portsStand (h : MsgHdr) (data : List Byte) {port : Nat} (hup : (s.port port).isUp = true) :
    PortsStand s (s.launch h data port) := by
  have hdrawn (j : Nat) : (s.launch h data port).port j =
      (State.pumpPort 1024 port (((s.drawBytes (data.length + 16)).2.emit (.message h.vc h data)).modPort port fun p => { p with
        txBytes := Tab.modify [] p.txBytes (h.vc * 8) fun o => o ++ (hdrBytes h ++ (s.drawBytes (data.length + 16)).1),
        txOwner := Tab.modify [] p.txOwner (h.vc * 8) fun o =>
          o ++ [(s.linkShare h, (hdrBytes h ++ (s.drawBytes (data.length + 16)).1).length)] })).port j := rfl
  refine ⟨(s.launch_portsOnly h data port).out, fun j => ?_, fun j hj => ?_⟩
  · rw [hdrawn, (State.pumpPort_port _ _ _ _).1, State.port_modPort]
    split
    · next hj => subst hj; rfl
    · rfl
  · have hne : j ≠ port := fun he => by rw [he, hup] at hj; cases hj
    rw [hdrawn, (State.pumpPort_port _ _ _ _).2 hne, State.port_modPort, if_neg hne]
    rfl

/-- Whatever sends messages changes at the ports what they send alone. -/
theorem portsStand_closed : SendClosed PortsStand where
  refl := .refl
  trans := .trans
  hbm h := .of_eq (by rw [h.lnk]) h.out
  emit _ _ := ⟨List.prefix_append _ _, fun _ => rfl, fun _ _ => rfl⟩
  charge _ _ _ _ := .of_eq rfl rfl
  tokens _ _ _ _ := .of_eq rfl rfl
  queues _ _ _ _ _ _ _ := .of_eq rfl rfl
  transfers _ _ _ := .of_eq rfl rfl
  slice _ _ _ _ := .of_eq rfl rfl
  launch s h data port hup := s.launch_portsStand h data hup

/-! ### Messages that are sent again (14 R368) -/

/-- From s to t messages were sent again: the ports, the streams, what is out, counters and free values changed. -/
def ResendOnly (s t : State) : Prop :=
  t = { s with lnk := { s.lnk with ports := t.lnk.ports, tx := t.lnk.tx }, out := t.out, draws := t.draws, counters := t.counters }

theorem ResendOnly.refl (s : State) : ResendOnly s s := rfl

theorem ResendOnly.trans {s t u : State} (h : ResendOnly s t) (k : ResendOnly t u) : ResendOnly s u := by
  unfold ResendOnly at *
  rw [k, h]

theorem PortsOnly.resendOnly {s t : State} (h : PortsOnly s t) : ResendOnly s t := by
  unfold ResendOnly
  rw [h.eq]

theorem State.resendMsg_only (m : SentMsg) : ResendOnly s (s.resendMsg m).2 := by
  unfold State.resendMsg
  split
  · exact .refl s
  · refine .trans ?_ (State.launch_portsOnly _ _ _ _).resendOnly
    split <;> rfl

theorem State.resendStream_only (k : Nat) : ResendOnly s (s.resendStream k) := by
  have hmsgs (ms : List SentMsg) (a : List SentMsg × State) (ha : ResendOnly s a.2) : ResendOnly s
      (ms.foldl (fun (acc : List SentMsg × State) m => (acc.1 ++ [(acc.2.resendMsg m).1], (acc.2.resendMsg m).2)) a).2 :=
    List.foldlRecOn (motive := fun b : List SentMsg × State => ResendOnly s b.2) ms _ ha
      fun b hb m _ => hb.trans (b.2.resendMsg_only m)
  have hsent := hmsgs (Tab.get {} s.lnk.tx k).unacked ([], s) (.refl s)
  exact hsent.trans (show ResendOnly _ (s.resendStream k) from rfl)

theorem State.resendWhere_only (p : SentMsg → Bool) : ResendOnly s (s.resendWhere p) :=
  List.foldlRecOn (motive := ResendOnly s) _ _ (.refl s) fun t ht e _ => ht.trans (t.resendStream_only e.1)

/-! ### A dead link (14 R361) -/

/-- The times of the deaths of a port within a day, with one more now. -/
def State.deathTimes (s : State) (port : Nat) : List Nat :=
  s.time :: (s.port port).deaths.filter (fun t => decide (s.time < t + 86400000000000))

/-- A port whose link has died at these times. -/
def Port.atDeath (p : Port) (times : List Nat) : Port := { p.fresh with state := .dead, wasDead := true, deaths := times }

/-- A dead link before the messages that used it are sent again. -/
def State.diedPort (s : State) (port : Nat) : State :=
  let s1 := s.modPort port (fun p => p.atDeath (s.deathTimes port))
  let s2 := (s1.event 0x4802).count (portReg port 0x68) 1
  let s3 := if s.timeParent port then { s2.event 0x4805 with clk := { s2.clk with slew := 0 } } else s2
  if 3 ≤ (s.deathTimes port).length then s3.askSpare port else s3

theorem State.portDead_eq (port : Nat) : s.portDead port = (s.diedPort port).resendWhere fun m => decide (m.port = port) := rfl

theorem State.askSpare_cases (port : Nat) : s.askSpare port = s ∨ ∃ l, s.askSpare port = s.emit (.spareRequest l) := by
  unfold State.askSpare
  split
  · exact .inr ⟨_, rfl⟩
  · exact .inl rfl

theorem State.askSpare_lnk (port : Nat) : (s.askSpare port).lnk = s.lnk := by
  rcases s.askSpare_cases port with h | ⟨l, h⟩ <;> rw [h]
  rfl

theorem State.askSpare_mgt (port : Nat) : (s.askSpare port).mgt = s.mgt := by
  rcases s.askSpare_cases port with h | ⟨l, h⟩ <;> rw [h]
  rfl

theorem State.diedPort_lnk (port : Nat) : (s.diedPort port).lnk =
    (s.modPort port fun p => p.atDeath (s.deathTimes port)).lnk := by
  unfold State.diedPort
  dsimp only
  rw [apply_ite State.lnk, State.askSpare_lnk, ite_self, apply_ite State.lnk]
  exact ite_self _

theorem State.diedPort_port (port j : Nat) : (s.diedPort port).port j =
    if j = port then (s.port port).atDeath (s.deathTimes port) else s.port j := by
  rw [State.port, s.diedPort_lnk port]
  exact s.port_modPort port j fun p => p.atDeath (s.deathTimes port)

/-- A death of a link is among the two newest events. -/
theorem State.diedPort_recent (port : Nat) : Recent 2 0x4802 (s.diedPort port).mgt.events := by
  have hdied := State.recent_event
    (s.modPort port fun p => p.atDeath (s.deathTimes port)) 0x4802
  unfold State.diedPort
  dsimp only
  rw [apply_ite State.mgt, State.askSpare_mgt, ite_self]
  split
  · exact State.recent_event_of_recent _ 0x4805 (by omega) hdied
  · exact hdied.mono

/-- What a death of a link leaves of its port and of the others. -/
theorem State.portDead_port (port : Nat) : (s.portDead port).port port =
    (s.port port).atDeath (s.deathTimes port) := by
  have hself := (s.diedPort_port port port).trans (if_pos rfl)
  rw [s.portDead_eq, (portsStand_closed.resendWhere (s.diedPort port) _).silent port (by rw [hself]; rfl), hself]

theorem State.portDead_other {port j : Nat} (hj : j ≠ port) : ((s.portDead port).port j).standing = (s.port j).standing := by
  rw [s.portDead_eq, (portsStand_closed.resendWhere (s.diedPort port) _).port j, s.diedPort_port, if_neg hj]

theorem State.portDead_mgt (port : Nat) : (s.portDead port).mgt = (s.diedPort port).mgt := by
  have h := (s.diedPort port).resendWhere_only fun m => decide (m.port = port)
  rw [s.portDead_eq, h]

/-- The death of a link is in the log. -/
theorem State.portDead_event (port : Nat) : ∃ e ∈ (s.portDead port).mgt.events, e.code = 0x4802 := by
  rw [s.portDead_mgt]
  exact (s.diedPort_recent port).exists_mem

end

end Sys2Proof.Machine
end

section
/-! PROOFS. Frames and timers of a port (14 R359 to R362). -/

namespace Sys2Proof.Machine

/-! ### Frames that a port sends -/

section
variable (s : State) (port : Nat)

theorem portReg_inj {off off' : Nat} : portReg port off = portReg port off' ↔ off = off' := Nat.add_left_cancel_iff

/-- An idle frame carries the acknowledgement and the nak, and its port is as before but for the credits that it owes. -/
theorem State.putIdle_sends (nak : Bool) : ∃ (g : LinkFrame) (owed : Tab Nat),
    (s.putIdle port nak).out = s.out ++ [.linkFrame port (frameBytes g)] ∧ g.nak = nak ∧ g.ack = (s.port port).ack ∧
      (s.putIdle port nak).port port = { s.port port with owed := owed } ∧
      (s.putIdle port nak).counters = (s.count (portReg port 0x40) 1).counters := by
  unfold State.putIdle
  dsimp only
  split
  · next vc n _ =>
    exact ⟨_, Tab.set (s.port port).owed vc (n - min 31 n), rfl, rfl, rfl, (s.port_modPort port port _).trans (if_pos rfl), rfl⟩
  · exact ⟨_, (s.port port).owed, rfl, rfl, rfl, rfl, rfl⟩

/-- A counter of the port other than the one of its frames is as before an idle frame. -/
theorem State.putIdle_counter {nak : Bool} {off : Nat} (h : off ≠ 0x40) :
    (s.putIdle port nak).counter (portReg port off) = s.counter (portReg port off) := by
  obtain ⟨g, owed, -, -, -, -, hcounters⟩ := s.putIdle_sends port nak
  rw [State.counter, hcounters]
  exact (s.counter_count _ _ _).trans (if_neg (fun he => h ((portReg_inj port).1 he)))

/-- A port without waiting bytes has no stream to serve. -/
theorem Port.nextStream_of_nil {p : Port} (h : p.txBytes = []) : p.nextStream = none := by
  have hoffer (vc : Nat) : p.offer vc = none := by
    unfold Port.offer
    rw [h]
    exact List.findSome?_eq_none_iff.2 fun _ _ => rfl
  unfold Port.nextStream
  simp only [hoffer]
  simp

theorem State.pumpPort_of_nil {s : State} {port : Nat} (h : (s.port port).txBytes = []) (fuel : Nat) : State.pumpPort fuel port s = s := by
  cases fuel with
  | zero => rfl
  | succ fuel =>
    unfold State.pumpPort
    dsimp only
    rw [Port.nextStream_of_nil h]

/-- Frames that a port sends one after another. -/
theorem State.foldl_putFrame (fs : List LinkFrame) (g : LinkFrame → LinkFrame) (s : State) :
    let t := fs.foldl (fun (s : State) f => s.putFrame port (g f)) s
    t.out = s.out ++ fs.map (fun f => Out.linkFrame port (frameBytes (g f))) ∧ t.lnk = s.lnk ∧
      ∀ off, off ≠ 0x40 → t.counter (portReg port off) = s.counter (portReg port off) := by
  induction fs generalizing s with
  | nil => simp
  | cons f fs ih =>
    obtain ⟨hout, hlnk, hcounter⟩ := ih (s.putFrame port (g f))
    refine ⟨?_, hlnk, fun off hoff => (hcounter off hoff).trans ?_⟩
    · simp only [List.foldl_cons, List.map_cons]
      rw [hout, List.append_cons]
      rfl
    · exact (State.counter_count _ _ _ _).trans (if_neg (fun he => hoff ((portReg_inj port).1 he)))

end

/-! ### Frames received (R360) -/

section
variable {s : State} {port : Nat} {f : LinkFrame}

theorem exec_linkFrameRx (s : State) (port : Nat) (f : LinkFrame) : exec (.linkFrameRx port f) s = execLinkFrameRx port f s := rfl
theorem exec_replayTimeout (s : State) (port : Nat) : exec (.replayTimeout port) s = execReplayTimeout port s := rfl
theorem exec_linkDead (s : State) (port : Nat) : exec (.linkDead port) s = execLinkDead port s := rfl
theorem exec_timeFrameTx (s : State) (port : Nat) : exec (.timeFrameTx port) s = execTimeFrameTx port s := rfl
theorem exec_holddownExpiry (s : State) (port : Nat) : exec (.holddownExpiry port) s = execHolddownExpiry port s := rfl

/-- A bad frame is discarded and answered with a nak. -/
theorem linkFrameRx_bad (hon : s.portOn port = true) (hhears : (s.port port).hears = true) (hbad : f.good = false) :
    exec (.linkFrameRx port f) s =
      .next (((s.count (portReg port 0x50) f.corrected).count (portReg port 0x58) 1).putIdle port true) := by
  rw [exec_linkFrameRx, execLinkFrameRx]
  simp [hon, hhears, hbad]

/-- A frame out of sequence is discarded and answered with a nak. -/
theorem linkFrameRx_unexpected (hon : s.portOn port = true) (hhears : (s.port port).hears = true) (hgood : f.good = true)
    (htype : f.type = 1 ∨ f.type = 2 ∨ f.type = 3) (hseq : f.seq ≠ (s.port port).rxSeq) :
    exec (.linkFrameRx port f) s = .next ((s.count (portReg port 0x50) f.corrected).putIdle port true) := by
  have hport : (s.count (portReg port 0x50) f.corrected).port port = s.port port := rfl
  rw [exec_linkFrameRx, execLinkFrameRx]
  simp only [hon, hhears, hgood, hport]
  rw [if_neg (by simp), if_neg (by simp), if_neg (by omega), if_pos ⟨by omega, hseq⟩]

/-- A port after it took a data frame. -/
def Port.takesData (p : Port) (f : LinkFrame) : Port :=
  { p with rxSeq := p.rxSeq + 1, rxHeld := if f.type = 1 then Tab.modify 0 p.rxHeld f.vc (fun n => n + 1) else p.rxHeld }

/-- The state after a data frame in sequence was taken, before its acknowledgement goes out. -/
def State.takesData (s : State) (port : Nat) (f : LinkFrame) : State :=
  (((s.count (portReg port 0x50) f.corrected).takeAck port f).modPort port fun p => p.takesData f).count (portReg port 0x48) 1

/-- The next data frame is taken and acknowledged. -/
theorem linkFrameRx_data (hon : s.portOn port = true) (hhears : (s.port port).hears = true) (hgood : f.good = true)
    (htype : f.type = 1) (hseq : f.seq = (s.port port).rxSeq) (hnil : (s.port port).txBytes = []) (hnak : f.nak = false) :
    exec (.linkFrameRx port f) s = .next ((s.takesData port f).putIdle port false) := by
  have hport : (s.count (portReg port 0x50) f.corrected).port port = s.port port := rfl
  have hquiet : (((s.count (portReg port 0x50) f.corrected).takeAck port f).port port).txBytes = [] := by
    rw [State.takeAck, State.port_modPort, if_pos rfl]
    exact hnil
  rw [exec_linkFrameRx, execLinkFrameRx]
  simp only [hon, hhears, hgood, hport]
  rw [if_neg (by simp), if_neg (by simp), if_neg (by omega), if_neg (by simp [hseq]), if_neg (by simp [hnak]), if_neg (by omega)]
  rw [if_neg (by simp [htype]), hnak, State.goOn, if_neg (by decide), State.pumpPort_of_nil hquiet]
  rfl

/-- The port after a data frame was taken: its sequence has moved on, the frame is held, and its ack freed the replay buffer. -/
theorem State.takesData_port (s : State) (port : Nat) (f : LinkFrame) :
    ∃ p : Port, (s.takesData port f).port port = p.takesData f ∧ p.rxSeq = (s.port port).rxSeq ∧
      p.replay = ackFrames (s.port port).replay f.ack ∧ p.rxHeld = (s.port port).rxHeld := by
  refine ⟨((s.count (portReg port 0x50) f.corrected).takeAck port f).port port, (State.port_modPort _ _ _ _).trans (if_pos rfl), ?_⟩
  rw [State.takeAck, State.port_modPort, if_pos rfl]
  exact ⟨rfl, rfl, rfl⟩

theorem State.takesData_counter (s : State) (port : Nat) (f : LinkFrame) :
    (s.takesData port f).counter (portReg port 0x48) = s.counter (portReg port 0x48) + 1 := by
  have hcorrected := s.counter_count (portReg port 0x50) f.corrected (portReg port 0x48)
  rw [if_neg (by simp [portReg_inj])] at hcorrected
  rw [← hcorrected]
  exact (State.counter_count _ _ _ _).trans (if_pos rfl)

end

/-! ### The frames of an obligation -/

section
variable (s : State) (port : Nat)

/-- What a frame that is received does (R360). -/
theorem linkFrameRx_answers (f : LinkFrame) (hon : s.portOn port = true) (hhears : (s.port port).hears = true) :
    (f.good = false → ∃ t g, exec (.linkFrameRx port f) s = .next t ∧ (t.port port).rxSeq = (s.port port).rxSeq ∧
      (t.port port).replay = (s.port port).replay ∧ t.out = s.out ++ [.linkFrame port (frameBytes g)] ∧ g.nak = true ∧
      g.ack = (s.port port).rxSeq - 1 ∧ t.counter (portReg port 0x58) = s.counter (portReg port 0x58) + 1) ∧
    (f.good = true → (f.type = 1 ∨ f.type = 2 ∨ f.type = 3) → f.seq ≠ (s.port port).rxSeq →
      ∃ t g, exec (.linkFrameRx port f) s = .next t ∧ (t.port port).rxSeq = (s.port port).rxSeq ∧
        (t.port port).rxHeld = (s.port port).rxHeld ∧ (t.port port).replay = (s.port port).replay ∧
        (t.port port).credits = (s.port port).credits ∧ t.out = s.out ++ [.linkFrame port (frameBytes g)] ∧ g.nak = true) ∧
    (f.good = true → f.type = 1 → f.seq = (s.port port).rxSeq → (s.port port).txBytes = [] → f.nak = false →
      ∃ t g, exec (.linkFrameRx port f) s = .next t ∧ (t.port port).rxSeq = (s.port port).rxSeq + 1 ∧
        (t.port port).replay = ackFrames (s.port port).replay f.ack ∧
        Tab.get 0 (t.port port).rxHeld f.vc = Tab.get 0 (s.port port).rxHeld f.vc + 1 ∧
        t.out = s.out ++ [.linkFrame port (frameBytes g)] ∧ g.nak = false ∧ g.ack = f.seq ∧
        t.counter (portReg port 0x48) = s.counter (portReg port 0x48) + 1) := by
  refine ⟨fun hbad => ?_, fun hgood htype hseq => ?_, fun hgood htype hseq hnil hnak => ?_⟩
  · obtain ⟨g, owed, hout, hgnak, hack, hport, -⟩ :=
      ((s.count (portReg port 0x50) f.corrected).count (portReg port 0x58) 1).putIdle_sends port true
    refine ⟨_, g, linkFrameRx_bad hon hhears hbad, by rw [hport]; rfl, by rw [hport]; rfl, hout, hgnak, hack, ?_⟩
    rw [State.putIdle_counter _ _ (by decide), State.counter_count, if_pos rfl, State.counter_count,
      if_neg (by simp [portReg_inj])]
    rfl
  · obtain ⟨g, owed, hout, hgnak, -, hport, -⟩ := (s.count (portReg port 0x50) f.corrected).putIdle_sends port true
    exact ⟨_, g, linkFrameRx_unexpected hon hhears hgood htype hseq, by rw [hport]; rfl, by rw [hport]; rfl, by rw [hport]; rfl,
      by rw [hport]; rfl, hout, hgnak⟩
  · obtain ⟨p, htaken, hrxSeq, hreplay, hheld⟩ := s.takesData_port port f
    obtain ⟨g, owed, hout, hgnak, hack, hport, -⟩ := (s.takesData port f).putIdle_sends port false
    refine ⟨_, g, linkFrameRx_data hon hhears hgood htype hseq hnil hnak, ?_, ?_, ?_, hout, hgnak, ?_, ?_⟩
    · rw [hport, htaken, Port.takesData, hrxSeq]
    · rw [hport, htaken, Port.takesData, hreplay]
    · rw [hport, htaken, Port.takesData, if_pos htype, hheld, Tab.get_modify_self]
    · rw [hack, htaken, Port.ack, Port.takesData, hrxSeq, hseq]
      exact add_sub_cancel_right _ _
    · rw [State.putIdle_counter _ _ (by decide), s.takesData_counter]

/-! ### Timers (R361, R362) -/

/-- A replay that is spent ends the link. -/
theorem replayTimeout_spent (hon : s.portOn port = true) (hhears : (s.port port).hears = true) (hsome : (s.port port).replay ≠ [])
    (hspent : max 1 s.lnk.replayMax.toNat ≤ (s.port port).replays) : exec (.replayTimeout port) s = .next (s.portDead port) := by
  have hs : s.replaySpent port = true := by simpa [State.replaySpent] using ⟨hsome, le_trans (le_max_left _ _) hspent, le_trans (le_max_right _ _) hspent⟩
  rw [exec_replayTimeout, execReplayTimeout, hon, hhears, State.replayOr, if_pos (by rfl), if_pos hs]

/-- A replay that is not spent sends the whole replay buffer again. -/
theorem replayTimeout_replays (hon : s.portOn port = true) (hhears : (s.port port).hears = true) (hsome : (s.port port).replay ≠ [])
    (hleft : (s.port port).replays < max 1 s.lnk.replayMax.toNat) : ∃ t, exec (.replayTimeout port) s = .next t ∧
      t.out = s.out ++ (s.port port).replay.map (fun f => Out.linkFrame port (frameBytes { f with ack := (s.port port).ack })) ∧
      t.port port = { s.port port with replays := (s.port port).replays + 1 } ∧
      t.counter (portReg port 0x60) = s.counter (portReg port 0x60) + BitVec.ofNat 64 (s.port port).replay.length := by
  have hs : s.replaySpent port = false := by
    rw [State.replaySpent, Bool.and_eq_false_iff]
    exact .inr (decide_eq_false (by omega))
  refine ⟨s.replayAll port, ?_, ?_⟩
  · rw [exec_replayTimeout, execReplayTimeout, hon, hhears, State.replayOr, hs, if_pos (by rfl), if_neg (by simp)]
  · obtain ⟨hout, hlnk, hcounter⟩ := State.foldl_putFrame port (s.port port).replay (fun f => { f with ack := (s.port port).ack })
      (s.modPort port fun q => { q with replays := q.replays + 1 })
    rw [State.replayAll, if_neg hsome]
    refine ⟨hout, ?_, ?_⟩
    · rw [State.port, State.count, hlnk]
      exact (s.port_modPort port port _).trans (if_pos rfl)
    · rw [State.counter_count, if_pos rfl, hcounter 0x60 (by decide)]
      rfl

/-- A port that is up or in hold-down sends its time. -/
theorem timeFrameTx_sends (hon : s.portOn port = true) (hup : (s.port port).isUp = true ∨ (s.port port).state = .holddown)
    (hroom : (s.port port).replay.length < 1024) : ∃ t g, exec (.timeFrameTx port) s = .next t ∧
      t.port port = { s.port port with txSeq := (s.port port).txSeq + 1, replay := (s.port port).replay ++ [g] } ∧ g.type = 3 ∧
      g.seq = (s.port port).txSeq ∧ g.payload.take 8 = leBytes 8 s.time ∧ t.out = s.out ++ [.linkFrame port (frameBytes g)] := by
  refine ⟨s.putSequenced port { type := 3, payload := padTo 118 (leBytes 8 s.time) }, _, ?_,
    (s.port_putSequenced port port _).trans (if_pos rfl), rfl, rfl, ?_, rfl⟩
  · rw [exec_timeFrameTx, execTimeFrameTx, if_pos]
    simp [hon, hup, hroom]
  · simp [padTo, List.take_take, leBytes_length]

/-- A port that has come out of hold-down. -/
def State.heldUp (s : State) (port : Nat) : State :=
  (s.modPort port fun p => { p with state := .up, wasDead := false }).event 0x4801

/-- A hold-down that ends brings the port up. -/
theorem holddownExpiry_up (hon : s.portOn port = true) (hheld : (s.port port).state = .holddown) :
    ∃ t, exec (.holddownExpiry port) s = .next t ∧ (t.port port).state = .up ∧ (t.port port).wasDead = false ∧
      (s.lnk.transfers = [] → ∃ e ∈ t.mgt.events, e.code = 0x4801) := by
  have hpump := (portsStand_closed.pumpTransfers (s.heldUp port)).port port
  have hport : (s.heldUp port).port port = { s.port port with state := .up, wasDead := false } := (s.port_modPort port port _).trans (if_pos rfl)
  rw [hport] at hpump
  refine ⟨(s.heldUp port).pumpTransfers, ?_, Port.state_of_standing hpump, Port.wasDead_of_standing hpump, fun hnil => ?_⟩
  · rw [exec_holddownExpiry, execHolddownExpiry, if_pos (by simp [hon, hheld])]
    rfl
  · rw [State.pumpTransfers_of_nil (s := s.heldUp port) hnil]
    exact State.exists_event _ _

end

/-- Settles O47: each frame and timer is one case of its port, and the messages that a death or a hold-down's end sets going change
of the ports what they send alone. -/
theorem linkFrames : Obligations.LinkFrames := by
  unfold Obligations.LinkFrames
  rintro s port p rfl hon
  refine ⟨fun f hhears => linkFrameRx_answers s port f hon hhears, fun hhears hsome hspent => ?_,
    fun hhears hsome hleft => replayTimeout_replays s port hon hhears hsome hleft,
    fun hup hroom => timeFrameTx_sends s port hon hup hroom, fun hhears => ?_, fun hheld => holddownExpiry_up s port hon hheld⟩
  · refine ⟨_, replayTimeout_spent s port hon hhears hsome hspent, ?_, ?_, s.portDead_event port⟩ <;> rw [s.portDead_port] <;> rfl
  · have hdead : exec (.linkDead port) s = .next (s.portDead port) := by
      rw [exec_linkDead, execLinkDead, if_pos (by simp [hon, hhears])]
    refine ⟨_, hdead, ?_, ?_, ?_, s.portDead_event port, fun q hq => Port.state_of_standing (s.portDead_other hq)⟩ <;>
      rw [s.portDead_port]
    · rfl
    · rfl
    · exact List.mem_cons_self

end Sys2Proof.Machine
end

section
/-! PROOFS. The survey of a port, its end and the spare ports (14 R374, R375). -/

namespace Sys2Proof.Machine

/-! ### The end of a survey (R374) -/

section
variable (s : State)

/-- An interrupt keeps what is out. -/
theorem State.msix_out_prefix (fn vector : Nat) : s.out <+: (s.msix fn vector).out := by
  unfold State.msix
  split
  · exact List.prefix_append _ _
  · exact List.prefix_refl _

/-- A reply keeps what is out. -/
theorem State.mbxReply_out (st : Half) (data : List Byte) : s.out <+: (s.mbxReply st data).out := by
  unfold State.mbxReply
  dsimp only
  split
  · split_ifs
    · exact List.prefix_refl _
    · exact List.prefix_refl _
    · exact State.msix_out_prefix { s with mgt := { s.mgt with
        mbxBusy := false, mbxStatus := st, mbxRespLen := data.length, mbxResp := s.mgt.mbxResp.writeN 0x8000 data } } _ _
  · exact List.prefix_append _ _

/-- What the end of a survey leaves alone, and that it logs at most one event. -/
theorem State.settleSurvey_frame :
    (∀ j, s.settleSurvey.port j = s.port j) ∧ s.out <+: s.settleSurvey.out ∧
      ∀ c, Recent 1 c s.mgt.events → Recent 2 c s.settleSurvey.mgt.events := by
  rw [State.settleSurvey_eq]
  dsimp only
  split_ifs
  · exact ⟨fun _ => rfl, List.prefix_refl _, fun _ h => h.mono⟩
  · refine ⟨fun j => ?_, ?_, fun c h => ?_⟩ <;> unfold State.becomeReady <;> dsimp only <;> split
    · rfl
    · rfl
    · exact List.prefix_refl _
    · exact List.prefix_refl _
    · exact h.mono
    · exact State.recent_event_of_recent _ _ (by omega) h
  · refine ⟨fun j => by rw [State.port_mbxReply]; rfl, ?_, fun c h => by rw [State.mbxReply_events]; exact h.mono⟩
    exact State.mbxReply_out { s with lnk := { s.lnk with surveyBusy := s.lnk.surveyBusy && s.surveyRuns } } _ _
  · exact ⟨fun _ => rfl, List.prefix_refl _, fun _ h => h.mono⟩

/-! ### A port that trained (R374) -/

theorem exec_linkTrained (port : Nat) (cable : Bool) (id : LinkIdentity) :
    exec (.linkTrained port cable id) s = execLinkTrained port cable id s := rfl
theorem exec_portTrainTimeout (port : Nat) (signal : Bool) :
    exec (.portTrainTimeout port signal) s = execPortTrainTimeout port signal s := rfl
theorem exec_rteSurveyGo (v : W32) : exec (.rteSurveyGo v) s = execRteSurveyGo v s := rfl
theorem exec_rtePortMapWrite (l : Nat) (v : W32) : exec (.rtePortMapWrite l v) s = execRtePortMapWrite l v s := rfl

/-- The identity frames of a port have gone out and come in. -/
def State.exchanged (s : State) (port : Nat) (id : LinkIdentity) : State :=
  (s.askIdentity port).modPort port (fun p => { p with seen := some (identitySeen id), rxSeq := p.rxSeq + 1 })

theorem State.exchanged_portsOnly (port : Nat) (id : LinkIdentity) : PortsOnly s (s.exchanged port id) :=
  (show PortsOnly s (s.emit (.identity port (s.ownIdentity port))) from ⟨rfl, List.prefix_append _ _⟩).trans
    ((State.putSequenced_portsOnly _ _ _).trans (.modPort _ _ _))

/-- The port after the exchange. -/
theorem State.exchanged_port (port : Nat) (id : LinkIdentity) :
    ((s.exchanged port id).port port).standing =
      Port.standing { s.port port with seen := some (identitySeen id), rxSeq := (s.port port).rxSeq + 1 } := by
  rw [State.exchanged, State.port_modPort, if_pos rfl, State.askIdentity, State.putIdentity, State.port_putSequenced, if_pos rfl]
  rfl

/-- The sequenced frame that carries the identity. -/
theorem State.exchanged_out (port : Nat) (id : LinkIdentity) : ∃ g, Out.linkFrame port (frameBytes g) ∈ (s.exchanged port id).out ∧
    g.type = 2 ∧ g.seq = (s.port port).txSeq ∧ g.payload = identityBytes (s.ownIdentity port) :=
  ⟨{ type := 2, payload := identityBytes (s.ownIdentity port), seq := (s.port port).txSeq, ack := (s.port port).ack },
    List.mem_append_right _ (List.mem_singleton_self _), rfl, rfl, rfl⟩

/-- A port that has exchanged identities; a board-local one has seen a peer of its board. -/
def State.identified (s : State) (port : Nat) (id : LinkIdentity) : State :=
  let t := s.exchanged port id
  if portClass port = 0 ∧ !t.walker.boardPeers.contains id.slot then
    { t with walker := { t.walker with boardPeers := t.walker.boardPeers ++ [id.slot] } } else t

theorem State.identified_eq (port : Nat) (id : LinkIdentity) : ∃ peers, s.identified port id =
    { s.exchanged port id with walker := { (s.exchanged port id).walker with boardPeers := peers } } := by
  unfold State.identified
  dsimp only
  split
  · exact ⟨_, rfl⟩
  · exact ⟨(s.exchanged port id).walker.boardPeers, rfl⟩

/-- What an exchange leaves of the map, the plan and the firmware. -/
theorem State.identified_keeps (port : Nat) (id : LinkIdentity) :
    (s.identified port id).logicalPort port = s.logicalPort port ∧ (∀ l, (s.identified port id).planOf l = s.planOf l) ∧
      (s.identified port id).firmware = s.firmware ∧ (∀ l, (s.identified port id).swapOf l = s.swapOf l) ∧
      (s.identified port id).lnk.transfers = s.lnk.transfers := by
  obtain ⟨peers, h⟩ := s.identified_eq port id
  rw [h, (s.exchanged_portsOnly port id).eq]
  exact ⟨rfl, fun _ => rfl, rfl, fun _ => rfl, rfl⟩

section
variable {s} {port l : Nat} {cable : Bool} {id : LinkIdentity} (hon : s.portOn port = true) (hl : s.logicalPort port = some l)
include hon hl

/-- A port that trained, is no longer surveyed again and is not up exchanges identities and is surveyed. -/
theorem linkTrained_surveys (hfrozen : (s.port port).frozen = false) (hagain : (s.port port).surveying = false)
    (hdown : (s.port port).isUp = false) (hheld : (s.port port).state ≠ .holddown) (hcable : cable = true ∨ portClass port = 0) :
    exec (.linkTrained port cable id) s = .next (((s.identified port id).surveyPort port l id).settleSurvey) := by
  obtain ⟨hlogical, -⟩ := s.identified_keeps port id
  rw [exec_linkTrained, execLinkTrained]
  simp only [hon, hfrozen, hagain, hdown, hheld]
  rw [if_neg (by simp), if_neg (by simp), if_neg (by rcases hcable with h | h <;> simp [h])]
  change Host.Outcome.next (State.settleSurvey (match (s.identified port id).logicalPort port with
    | none => (s.identified port id).keepDown port 8 .spareIdle
    | some l => (s.identified port id).surveyPort port l id)) = _
  rw [hlogical, hl]

end

/-- A port whose link is up before the transfers that wait go on. -/
def State.broughtUp (s : State) (port level result : Nat) : State :=
  (s.modPort port (fun p => { p with state := .up, level := level, result := result, failures := 0, surveying := false })).event 0x4801

/-- A port that was not dead comes up at once. -/
theorem State.bringUp_eq {port : Nat} (hdead : (s.port port).wasDead = false) (level result : Nat) :
    s.bringUp port level result = (s.broughtUp port level result).pumpTransfers := by
  unfold State.bringUp State.broughtUp
  dsimp only
  rw [hdead]
  rfl

theorem State.broughtUp_port (port level result : Nat) : (s.broughtUp port level result).port port =
    { s.port port with state := .up, level := level, result := result, failures := 0, surveying := false } :=
  (s.port_modPort port port _).trans (if_pos rfl)

section
variable {s} {port l : Nat} {cable : Bool} {id : LinkIdentity} (hplan : planState (s.planOf l) = 1)
  (hlevel : max (s.firmware.level - 1) id.loLevel ≤ min s.firmware.level id.hiLevel)
include hplan hlevel

/-- A port that sees its planned peer comes up at the common level (R374). -/
theorem surveyPort_matches (hpeer : planPeer (s.planOf l) = identitySeen id) :
    s.surveyPort port l id = s.bringUp port (min s.firmware.level id.hiLevel) (s.port port).matched := by
  rw [State.surveyPort]
  simp only [hplan, hpeer, Nat.not_lt.2 hlevel]
  simp

/-- A port that sees a peer which nothing expects stays down (R374). -/
theorem surveyPort_differs (hpeer : planPeer (s.planOf l) ≠ identitySeen id) (hswap : s.swapOf l (identitySeen id) = none) :
    s.surveyPort port l id = (s.keepDown port 3 .down).event 0x5002 := by
  rw [State.surveyPort]
  simp only [hplan, hpeer, Nat.not_lt.2 hlevel, hswap]
  simp

end

/-- What a port that trained and exchanged identities becomes (R374). -/
theorem linkTrained_results {port l : Nat} (hon : s.portOn port = true) (hl : s.logicalPort port = some l)
    (hplan : planState (s.planOf l) = 1) (cable : Bool) (id : LinkIdentity) (hfrozen : (s.port port).frozen = false)
    (hagain : (s.port port).surveying = false) (hdown : (s.port port).isUp = false) (hheld : (s.port port).state ≠ .holddown)
    (hcable : cable = true ∨ portClass port = 0)
    (hlevel : max (s.firmware.level - 1) id.loLevel ≤ min s.firmware.level id.hiLevel) :
    (planPeer (s.planOf l) = identitySeen id → (s.port port).wasDead = false →
      ∃ t, exec (.linkTrained port cable id) s = .next t ∧ (t.port port).state = .up ∧ (t.port port).result = (s.port port).matched ∧
        (t.port port).level = min s.firmware.level id.hiLevel ∧ (t.port port).seen = some (identitySeen id) ∧
        (∃ g, Out.linkFrame port (frameBytes g) ∈ t.out ∧ g.type = 2 ∧ g.seq = (s.port port).txSeq ∧
          g.payload = identityBytes (s.ownIdentity port)) ∧
        (s.lnk.transfers = [] → ∃ e ∈ t.mgt.events, e.code = 0x4801)) ∧
    (planPeer (s.planOf l) ≠ identitySeen id → s.swapOf l (identitySeen id) = none →
      ∃ t, exec (.linkTrained port cable id) s = .next t ∧ (t.port port).state = .down ∧ (t.port port).result = 3 ∧
        ∃ e ∈ t.mgt.events, e.code = 0x5002) := by
  obtain ⟨-, hplanOf, hfirmware, hswapOf, htransfers⟩ := s.identified_keeps port id
  rw [linkTrained_surveys hon hl hfrozen hagain hdown hheld hcable]
  rw [← hplanOf] at hplan
  rw [← hfirmware] at hlevel
  refine ⟨fun hpeer hdead => ?_, fun hpeer hswap => ?_⟩
  · obtain ⟨peers, hid⟩ := s.identified_eq port id
    have hport : ((s.identified port id).port port).standing =
        Port.standing { s.port port with seen := some (identitySeen id), rxSeq := (s.port port).rxSeq + 1 } := by
      rw [hid]
      exact s.exchanged_port port id
    have hwas : ((s.identified port id).port port).wasDead = false := (Port.wasDead_of_standing hport :).trans hdead
    have hresult : ((s.identified port id).port port).result = (s.port port).result :=
      (congrArg Port.result hport :)
    have hmatched : ((s.identified port id).port port).matched = (s.port port).matched := by
      rw [Port.matched, hresult, Port.matched]
    obtain ⟨g, hg, hframe⟩ := s.exchanged_out port id
    have hgid : Out.linkFrame port (frameBytes g) ∈ (s.identified port id).out := by
      rw [hid]
      exact hg
    rw [surveyPort_matches hplan hlevel (by rw [hplanOf]; exact hpeer), State.bringUp_eq _ hwas, hmatched, hfirmware]
    generalize hu : (s.identified port id).broughtUp port (min s.firmware.level id.hiLevel) (s.port port).matched = u
    have huport := (s.identified port id).broughtUp_port port (min s.firmware.level id.hiLevel) (s.port port).matched
    have huout : u.out = (s.identified port id).out := by rw [← hu]; rfl
    have hutransfers : u.lnk.transfers = s.lnk.transfers := by rw [← htransfers, ← hu]; rfl
    rw [hu] at huport
    obtain ⟨hsettled, hout, hevents⟩ := u.pumpTransfers.settleSurvey_frame
    have hstand := portsStand_closed.pumpTransfers u
    have hend := hstand.port port
    rw [huport] at hend
    refine ⟨_, rfl, ?_, ?_, ?_, ?_, ⟨g, ?_, hframe⟩, fun hnil => ?_⟩
    · rw [hsettled]; exact Port.state_of_standing hend
    · rw [hsettled]; exact Port.result_of_standing hend
    · rw [hsettled]; exact Port.level_of_standing hend
    · rw [hsettled]; exact (Port.seen_of_standing hend).trans (Port.seen_of_standing hport)
    · exact hout.subset (hstand.out.subset (huout ▸ hgid))
    · refine (hevents 0x4801 ?_).exists_mem
      rw [State.pumpTransfers_of_nil (hutransfers.trans hnil), ← hu]
      exact State.recent_event _ _
  · rw [surveyPort_differs hplan hlevel (by rw [hplanOf]; exact hpeer) (by rw [hswapOf]; exact hswap)]
    have hdownPort : (((s.identified port id).keepDown port 3 .down).event 0x5002).port port =
        { (s.identified port id).port port with state := .down, result := 3 } :=
      (State.port_modPort _ _ _ _).trans (if_pos rfl)
    obtain ⟨hsettled, -, hevents⟩ := (((s.identified port id).keepDown port 3 .down).event 0x5002).settleSurvey_frame
    exact ⟨_, rfl, by rw [hsettled, hdownPort], by rw [hsettled, hdownPort], (hevents 0x5002 (State.recent_event _ _)).exists_mem⟩

/-! ### A port that does not train (R374) -/

/-- A planned port that has not trained. -/
def State.untrained (s : State) (port : Nat) : State :=
  ((s.keepDown port 4 .down).modPort port fun p => { p with failures := p.failures + 1 }).event 0x5003

theorem State.untrained_port (port : Nat) : (s.untrained port).port port =
    { s.port port with state := .down, result := 4, failures := (s.port port).failures + 1 } := by
  have h : (s.untrained port).port port =
      { (s.keepDown port 4 .down).port port with failures := ((s.keepDown port 4 .down).port port).failures + 1 } :=
    (State.port_modPort _ _ _ _).trans (if_pos rfl)
  rw [h, State.keepDown, State.port_modPort, if_pos rfl]

/-- A planned port that has not trained in time stays down with result 4, and its failures are counted. -/
theorem portTrainTimeout_planned {port l : Nat} (hon : s.portOn port = true) (hl : s.logicalPort port = some l)
    (hplan : planState (s.planOf l) = 1) (signal : Bool) (hagain : (s.port port).surveying = false)
    (hstate : (s.port port).state = .training ∨ (s.port port).state = .down ∨ (s.port port).state = .dead) :
    ∃ t, exec (.portTrainTimeout port signal) s = .next t ∧ (t.port port).state = .down ∧ (t.port port).result = 4 ∧
      (t.port port).failures = (s.port port).failures + 1 ∧ ∃ e ∈ t.mgt.events, e.code = 0x5003 := by
  have hx : exec (.portTrainTimeout port signal) s = .next (if 3 ≤ (s.port port).failures + 1 then (s.untrained port).askSpare port
      else s.untrained port).settleSurvey := by
    rw [exec_portTrainTimeout, execPortTrainTimeout]
    simp only [hon, hl, hplan, hagain, Port.isUp]
    rcases hstate with h | h | h <;> simp only [h] <;> rfl
  have hasked : ((s.untrained port).askSpare port).port port = (s.untrained port).port port := by
    rw [State.port, State.askSpare_lnk, State.port]
  obtain ⟨u, hu, hport, hmgt⟩ : ∃ u : State, exec (.portTrainTimeout port signal) s = .next u.settleSurvey ∧
      u.port port = (s.untrained port).port port ∧ u.mgt = (s.untrained port).mgt := by
    by_cases h3 : 3 ≤ (s.port port).failures + 1
    · exact ⟨_, by rw [hx, if_pos h3], hasked, State.askSpare_mgt _ _⟩
    · exact ⟨_, by rw [hx, if_neg h3], rfl, rfl⟩
  obtain ⟨hsettled, -, hevents⟩ := u.settleSurvey_frame
  rw [s.untrained_port port] at hport
  refine ⟨_, hu, ?_, ?_, ?_, (hevents 0x5003 ?_).exists_mem⟩
  · rw [hsettled, hport]
  · rw [hsettled, hport]
  · rw [hsettled, hport]
  · rw [hmgt]
    exact State.recent_event _ _

/-! ### The whole survey (R374) -/

/-- From s to t a survey has gone over other ports than p. -/
structure SurveysOthers (p : Nat) (s t : State) : Prop where
  frame : t = { s with lnk := { s.lnk with ports := t.lnk.ports }, out := t.out, counters := t.counters }
  port : t.port p = s.port p

theorem SurveysOthers.trans {p : Nat} {s t u : State} (h : SurveysOthers p s t) (k : SurveysOthers p t u) : SurveysOthers p s u :=
  ⟨by rw [k.frame, h.frame], k.port.trans h.port⟩

theorem SurveysOthers.modPort {p q : Nat} (hq : q ≠ p) (f : Port → Port) : SurveysOthers p s (s.modPort q f) :=
  ⟨rfl, (s.port_modPort q p f).trans (if_neg hq.symm)⟩

/-- The survey of a port leaves every other one alone. -/
theorem State.resurvey_others {p q : Nat} (hq : q ≠ p) : SurveysOthers p s (s.resurvey q) := by
  have hrefl : SurveysOthers p s s := ⟨rfl, rfl⟩
  have hmod (f : Port → Port) := SurveysOthers.modPort s hq f
  have hasks (t : State) : SurveysOthers p t (t.askIdentity q) :=
    ⟨rfl, (State.port_putSequenced _ q p _).trans (if_neg hq.symm)⟩
  unfold State.resurvey
  dsimp only
  split
  · exact rel_ite hrefl (hmod _)
  · exact rel_ite ((hmod _).trans (hasks _)) (rel_ite hrefl (rel_ite (hmod _) (rel_ite (hmod _) (hmod _))))

/-- A survey of ports without p leaves p alone. -/
theorem State.foldl_resurvey_others {p : Nat} (l : List Nat) (hp : p ∉ l) :
    SurveysOthers p s (l.foldl (fun (s : State) q => s.resurvey q) s) := by
  induction l generalizing s with
  | nil => exact ⟨rfl, rfl⟩
  | cons q l ih =>
    exact (s.resurvey_others (List.ne_of_not_mem_cons hp).symm).trans (ih _ (List.not_mem_of_not_mem_cons hp))

/-- A survey trains a planned port that is down, whatever the others are. -/
theorem State.surveyAll_trains_port {p l : Nat} (hp : p < 104) (hl : s.logicalPort p = some l) (hplan : planState (s.planOf l) = 1)
    (hdown : (s.port p).state = .down) (hfrozen : (s.port p).frozen = false) (hclass : portClass l ≠ 3) :
    (s.surveyAll.port p).state = .training ∧ s.surveyAll.lnk.surveyBusy = true := by
  obtain ⟨before, after, hsplit⟩ := List.append_of_mem (List.mem_range.2 hp)
  have hnodup : (before ++ p :: after).Nodup := hsplit ▸ List.nodup_range
  obtain ⟨hnot, -⟩ := List.nodup_cons.1 (List.nodup_middle.1 hnodup)
  have hbefore := State.foldl_resurvey_others { s with lnk := { s.lnk with surveyBusy := true } } before
    fun h => hnot (List.mem_append_left _ h)
  have hsurveying : s.surveying = after.foldl (fun (s : State) q => s.resurvey q)
      ((before.foldl (fun (s : State) q => s.resurvey q) { s with lnk := { s.lnk with surveyBusy := true } }).resurvey p) := by
    rw [State.surveying, hsplit, List.foldl_append, List.foldl_cons]
  generalize before.foldl (fun (s : State) q => s.resurvey q) { s with lnk := { s.lnk with surveyBusy := true } } = t at *
  have htrain : (t.resurvey p).port p = { (t.port p).fresh with state := .training, result := 0 } := by
    have hlogical : t.logicalPort p = some l := by rw [hbefore.frame]; exact hl
    have hplanned : planState (t.planOf l) = 1 := by rw [hbefore.frame]; exact hplan
    have hstate : (t.port p).state = .down := by rw [hbefore.port]; exact hdown
    have hthawed : (t.port p).frozen = false := by rw [hbefore.port]; exact hfrozen
    have hx : t.resurvey p = t.modPort p fun r => { r.fresh with state := .training, result := 0 } := by
      unfold State.resurvey
      simp only [hlogical, Port.isUp, hstate, hthawed, hplanned, hclass]
      rfl
    rw [hx, State.port_modPort, if_pos rfl]
  have hbusy : (t.resurvey p).lnk.surveyBusy = true := by
    have hkeep := t.resurvey_others (p := p + 1) (q := p) (by omega)
    rw [hkeep.frame, hbefore.frame]
  have hafter := (t.resurvey p).foldl_resurvey_others after fun h => hnot (List.mem_append_right _ h)
  rw [← hsurveying] at hafter
  have hend : (s.surveying.port p).state = .training := by rw [hafter.port, htrain]
  rw [State.surveyAll_eq, State.settleSurvey_trains hp hend]
  exact ⟨hend, by rw [hafter.frame]; exact hbusy⟩

/-- A write of go surveys the ports, unless a survey runs. -/
theorem rteSurveyGo_surveys {port l : Nat} (hl : s.logicalPort port = some l) (hplan : planState (s.planOf l) = 1) (v : W32)
    (hopen : s.barOpen 0 = true) (hwait : s.hostWaits = false) (hruns : s.runsFree 254 = true) (hgo : bitAt v.toNat 0 = true) :
    (s.lnk.surveyBusy = true → exec (.rteSurveyGo v) s = .next s) ∧
    (s.lnk.surveyBusy = false → port < 104 → (s.port port).state = .down → (s.port port).frozen = false → portClass l ≠ 3 →
      ∃ t, exec (.rteSurveyGo v) s = .next t ∧ (t.port port).state = .training ∧ t.lnk.surveyBusy = true) := by
  rw [exec_rteSurveyGo, execRteSurveyGo, State.hostTo_runs _ _ hwait (State.runsFree_of_barOpen hopen) (by simp [hruns]), hopen, hgo]
  refine ⟨fun hbusy => by rw [hbusy]; rfl, fun hbusy hport hdown hfrozen hclass => ⟨s.surveyAll, by rw [hbusy]; rfl, ?_⟩⟩
  exact s.surveyAll_trains_port hport hl hplan hdown hfrozen hclass

/-! ### Spare ports (R375) -/

/-- A spare that fits is the physical port of no other logical port. -/
theorem State.physPort_ne_of_spareFits {k p : Nat} (hk : k < 104) (hfit : s.spareFits k p = true) : s.physPort k ≠ p := by
  intro hphys
  simp only [State.spareFits, Bool.and_eq_true, decide_eq_true_eq] at hfit
  obtain ⟨⟨⟨⟨hclass, -⟩, hlogical⟩, hclassK⟩, -⟩ := hfit
  have hkp : k ≠ p := fun h => hclassK (h ▸ hclass)
  unfold State.logicalPort at hlogical
  split at hlogical
  · next l hl =>
    have hne := List.find?_some hl
    simp only [Bool.and_eq_true, decide_eq_true_eq] at hne
    exact hne.1 (Option.some.inj hlogical)
  · next hnone =>
    have hk' := List.find?_eq_none.1 hnone k (List.mem_range.2 hk)
    simp [hkp, hphys] at hk'

/-- A spare that takes over leaves the port that it replaces spare idle, and every other logical port where it was. -/
theorem State.takeSpare_replaces {k p : Nat} (hne : s.physPort k ≠ p) :
    ((s.takeSpare k p).port (s.physPort k)).state = .spareIdle ∧ ∀ j, j ≠ k → (s.takeSpare k p).physPort j = s.physPort j := by
  refine ⟨?_, fun j hj => ?_⟩
  · have h (u : State) (g : Port → Port) : ((u.modPort p g).event 0x5005).port (s.physPort k) = u.port (s.physPort k) :=
      (State.port_modPort u p _ g).trans (if_neg hne)
    rw [State.takeSpare, h, State.port_modPort, if_pos rfl]
  · have hmap : (s.takeSpare k p).lnk.portMap = Tab.set s.lnk.portMap k p := rfl
    rw [State.physPort, hmap, Tab.find_set_of_ne _ _ hj, State.physPort]

/-- A remap of a logical port is refused while it is up, and gives it a fitting spare otherwise. -/
theorem rtePortMapWrite_remaps (v : W32) {k : Nat} (hopen : s.barOpen 0 = true) (hwait : s.hostWaits = false)
    (hruns : s.runsFree 254 = true) (hk : k < 104) :
    ((s.port (s.physPort k)).isUp = true → exec (.rtePortMapWrite k v) s = .next (s.event 0x5006)) ∧
    ((s.port (s.physPort k)).isUp = false → s.spareFits k (v.toNat % 128) = true →
      ∃ t, exec (.rtePortMapWrite k v) s = .next t ∧ t.physPort k = v.toNat % 128 ∧
        (t.port (v.toNat % 128)).state = .training ∧ (t.port (s.physPort k)).state = .spareIdle ∧
        (∀ j, j ≠ k → t.physPort j = s.physPort j) ∧ ∃ e ∈ t.mgt.events, e.code = 0x5005) := by
  rw [exec_rtePortMapWrite, execRtePortMapWrite, State.hostTo_runs _ _ hwait (State.runsFree_of_barOpen hopen) (by simp [hruns])]
  dsimp only
  rw [if_neg (by simp [hopen, hk])]
  refine ⟨fun hup => by rw [if_pos hup], fun hdown hfit => ?_⟩
  obtain ⟨hphys, htrain, hevent⟩ := s.takeSpare_frame k (v.toNat % 128)
  obtain ⟨hidle, hothers⟩ := s.takeSpare_replaces (s.physPort_ne_of_spareFits hk hfit)
  exact ⟨_, by rw [if_neg (by simp [hdown]), if_pos hfit], hphys, htrain, hidle, hothers, hevent⟩

end

/-- Settles O48: each command by its own lemma; the end of a survey leaves the ports alone (`State.settleSurvey_frame`). -/
theorem portSurveys : Obligations.PortSurveys := by
  unfold Obligations.PortSurveys
  rintro s port l p rfl hon hl hplan
  exact ⟨fun cable id hfrozen hagain hdown hheld hcable hlevel =>
      linkTrained_results s hon hl hplan cable id hfrozen hagain hdown hheld hcable hlevel,
    fun signal hagain hstate => portTrainTimeout_planned s hon hl hplan signal hagain hstate,
    fun v hopen hwait hruns hgo => rteSurveyGo_surveys s hl hplan v hopen hwait hruns hgo,
    fun v k hopen hwait hruns hk => rtePortMapWrite_remaps s v hopen hwait hruns hk⟩

end Sys2Proof.Machine
end

section
/-! PROOFS. Why the clause on puts does not hold of every state (14 R366, R367): the statement admits states that no run reaches, among them
one whose table of cores is not in key order. -/

namespace Sys2Proof.Machine

/-- The module of the tests with cores 1 and 0, listed in this order, both logical core 0 of panel 0 with context 7 resident; core 0 is on its
way to another power state, so that the wake of its panel lists it anew, in front. -/
def twoCores : State :=
  { Tests.sMsg with cores := [(1, Tests.sMsg.core 0), (0, { Tests.sMsg.core 0 with cTarget := some 1 })] }

/-- The byte at 0x40 of core 1's slice after a put of one byte 5 there. -/
def twoCoresByte : Option Byte :=
  match exec (.linkMessageRx 0 (Tests.put7 0) [5] true) twoCores with
  | .next t => some ((t.core 1).slice.mem.read 0x40)
  | _ => none

/-- The put names core 1 as the message comes in, but writes into core 0, which the wake of the panel has listed first. -/
theorem twoCoresByte_eq : twoCoresByte = some 0 := by decide +kernel

/-- Refutes O49: its clause on a put names the core by the order of the table of cores as the message comes in, and the put goes to the
core that is listed first once its panel is awake. In a table in key order, which every run has, the two are one; in `twoCores` they are
not. -/
theorem not_linkMessages : ¬ Obligations.LinkMessages := by
  unfold Obligations.LinkMessages
  intro h
  obtain ⟨hrx, -⟩ := h twoCores (by decide +kernel) (by decide +kernel) (by decide +kernel) (by decide +kernel)
  obtain ⟨-, hways⟩ := hrx 0 (Tests.put7 0) [5] true (by decide +kernel) (by decide +kernel)
  obtain ⟨-, -, hput, -⟩ := hways (by decide) (by decide) (by decide) (by decide)
  obtain ⟨-, htake⟩ := hput 7 (twoCores.ctx 7) rfl rfl (by decide +kernel) rfl (by decide +kernel) (by decide +kernel)
  obtain ⟨t, ht, hmem, -⟩ := htake 1 _ (by decide +kernel) (by decide +kernel) rfl rfl
    (by decide +kernel) rfl (by decide) (by decide +kernel) (by decide +kernel) (by decide +kernel) (by decide +kernel) rfl
    (by decide +kernel) (by decide +kernel)
  have hbyte : twoCoresByte = some ((t.core 1).slice.mem.read 0x40) := by rw [twoCoresByte, ht]
  have hwritten : (t.core 1).slice.mem.read 0x40 = 5 := (hmem 0x40).trans (by decide +kernel)
  rw [twoCoresByte_eq, hwritten] at hbyte
  exact absurd hbyte (by decide)

end Sys2Proof.Machine
end

section
/-! PROOFS. Link transfers and collectives (14 R370, R371, R377 to R379): what their parts keep, and what each command ends with. -/

namespace Sys2Proof.Machine

/-! ### Acknowledgements and collectives keep what a send keeps -/

/-- The port that acknowledgements take is up. -/
theorem State.port_of_ackPath {s : State} {k : Nat} {p : Nat × List Nat} (h : s.ackPath k = some p) : (s.port p.1).isUp = true := by
  unfold State.ackPath at h
  dsimp only at h
  split at h
  · next hup =>
    cases h
    exact hup
  · obtain ⟨r, hr, rfl⟩ := Option.map_eq_some_iff.1 h
    exact State.port_of_route hr

section
variable {R : State → State → Prop} (hR : SendClosed R) (s : State)
include hR

theorem SendClosed.sendAcks (k : Nat) : R s (s.sendAcks k) := by
  unfold State.sendAcks
  refine rel_ite (hR.refl s) ?_
  split
  · exact hR.refl s
  next p hp =>
  have hup := State.port_of_ackPath hp
  exact hR.trans (hR.trans (hR.emit s _) (hR.queues _ _ _ _ _ _ _)) (hR.launch _ _ _ _ hup)

theorem SendClosed.oweAck (h : MsgHdr) (refused : Bool) : R s (s.oweAck h refused) := by
  have howed : R s (s.modRx (streamKey h.src h.vc) (fun st =>
      if h.vc = 5 then { st with dueKeys := st.dueKeys ++ [h.key], lastUse := s.time }
      else if refused then { st with refused := st.refused ++ [h.seq], lastUse := s.time }
      else { st with due := st.due ++ [h.seq], lastUse := s.time })) := hR.modRx s _ _
  exact rel_ite (hR.trans howed (hR.sendAcks _ _)) howed

theorem SendClosed.collRead (c : Collective) (dst : Bool) (blk off n : Nat) : R s (s.collRead c dst blk off n).2 := by
  have hread := hR.readBy s .dma c.ctx (c.b (if dst then 24 else 16) 6 + blk * c.blockBytes + off) n
  unfold State.collRead
  dsimp only
  split <;> exact hread

theorem SendClosed.collWrite (c : Collective) (blk off : Nat) (bs : List Byte) : R s (s.collWrite c blk off bs) := by
  have hdrawn : R s (if c.overlaps then s.drawBytes bs.length else (bs, s)).2 := rel_iteAns (hR.drawBytes s _) (hR.refl s)
  have hwritten := hR.trans hdrawn (hR.writeBy _ .dma c.ctx (c.b 24 6 + (if c.op = 3 then 0 else blk) * c.blockBytes + off)
    (if c.overlaps then s.drawBytes bs.length else (bs, s)).1)
  exact rel_ite hwritten (hR.trans hwritten (hR.failTransfer _ _ _ _))

theorem SendClosed.collWith (c : Collective) (dst : Bool) (blk off n : Nat) {f : List Byte → State → State} (hf : ∀ bs t, R t (f bs t)) :
    R s (s.collWith c dst blk off n f) := by
  have hread := hR.collRead s c dst blk off n
  unfold State.collWith
  dsimp only
  split
  · exact hR.trans hread (hf _ _)
  · exact hR.trans hread (hR.failTransfer _ _ _ _)

theorem SendClosed.sendChunk (c : Collective) (step chunk to' : Nat) (data : List Byte) : R s (s.sendChunk c step chunk to' data) :=
  hR.sendOrWait s _ _ _ _ _

theorem SendClosed.collCopy (c : Collective) (srcBlk j : Nat) : R s (s.collCopy c srcBlk j) :=
  hR.collWith s c _ _ _ _ fun _ t => hR.collWrite t c _ _ _

theorem SendClosed.collStart (c : Collective) : R s (s.collStart c) := by
  unfold State.collStart
  refine rel_ite ?_ (rel_ite ?_ ?_)
  · exact hR.foldl s (fun t j => hR.collWith t c _ _ _ _ fun _ u => hR.sendChunk u c _ _ _ _) _
  · exact hR.foldl s (fun t j => hR.trans (hR.collCopy t c _ _) (hR.collWith _ c _ _ _ _ fun _ u => hR.sendChunk u c _ _ _ _)) _
  · exact hR.foldl s (fun t j => hR.trans (hR.collCopy t c _ _)
      (hR.foldl _ (fun u q => hR.collWith u c _ _ _ _ fun _ v => hR.sendChunk v c _ _ _ _) _)) _

theorem SendClosed.collGather (c : Collective) (chunk : Nat) : R s (s.collGather c chunk) :=
  rel_ite (hR.collWith s c _ _ _ _ fun _ t => hR.sendChunk t c _ _ _ _) (hR.refl s)

theorem SendClosed.collTake (c : Collective) (from' step chunk : Nat) (data : List Byte) :
    R s (s.collTake c from' step chunk data) := by
  unfold State.collTake
  refine rel_ite (hR.collWrite s c _ _ _) (rel_ite (hR.collWith s c _ _ _ _ fun bs t => ?_) ?_)
  · exact rel_ite (hR.trans (hR.collWrite t c _ _ _) (hR.collGather _ c _)) (hR.sendChunk t c _ _ _ _)
  · have hwritten := hR.collWrite s c ((c.rank + 2 * c.n - 1 - (step - c.rsSteps)) % c.n) (4096 * chunk) data
    exact rel_ite (hR.trans hwritten (hR.sendChunk _ c _ _ _ _)) hwritten

section
variable (hcoll : ∀ (s : State) (cs : List Collective), R s { s with lnk := { s.lnk with collectives := cs } })
include hcoll

theorem SendClosed.collEngines : R s s.collEngines := by
  unfold State.collEngines
  exact hR.foldl s (fun t (c : Collective) => rel_ite (hR.refl t) (hR.trans (hcoll t _) (hR.collStart _ _))) _

theorem SendClosed.postCollective (x : Transfer) : R s (s.postCollective x) := by
  have hblock := hR.readBy s .dma x.ctx (x.b 8 6) 128
  unfold State.postCollective
  dsimp only
  split
  · exact hR.trans hblock (hR.failTransfer _ _ _ _)
  · exact hR.trans hblock (hR.failTransfer _ _ _ _)
  next b _ =>
  refine rel_ite (hR.trans hblock (hR.failTransfer _ _ _ _)) ?_
  have hmembers := hR.trans hblock (hR.readBy _ .dma x.ctx (fieldAt b 32 6) (4 * fieldAt b 8 2))
  split
  · exact hR.trans hmembers (hR.failTransfer _ _ _ _)
  · exact hR.trans hmembers (hR.failTransfer _ _ _ _)
  refine rel_ite (hR.trans hmembers (hR.failTransfer _ _ _ _)) ?_
  split
  · exact hR.trans hmembers (hR.failTransfer _ _ _ _)
  · exact hR.trans (hR.trans hmembers (hcoll _ _)) (SendClosed.collEngines hR _ hcoll)

end

end

end Sys2Proof.Machine
end

section
/-! PROOFS. Link transfers and collectives (14 R370, R371, R377 to R379): what each command ends with. -/

namespace Sys2Proof.Machine

/-! ### Transfers that go on -/

theorem Transfer.Advances.refl (x : Transfer) : x.Advances x := ⟨⟨x.sent, x.since, x.status, rfl⟩, fun _ => rfl⟩

theorem Transfer.Advances.trans {x y z : Transfer} (h : x.Advances y) (k : y.Advances z) : x.Advances z := by
  obtain ⟨⟨_, _, _, hy⟩, hstatus⟩ := h
  obtain ⟨⟨sent, since, status, hz⟩, kstatus⟩ := k
  refine ⟨⟨sent, since, status, by rw [hz, hy]⟩, fun hx => ?_⟩
  rw [kstatus (by rw [hstatus hx]; exact hx), hstatus hx]

/-- Every transfer of s is under way in t, or further. -/
def TransfersGoOn (s t : State) : Prop := ∀ x ∈ s.lnk.transfers, ∃ y ∈ t.lnk.transfers, x.Advances y

theorem TransfersGoOn.of_eq {s t : State} (h : t.lnk.transfers = s.lnk.transfers) : TransfersGoOn s t :=
  fun x hx => ⟨x, h ▸ hx, .refl x⟩

/-- Whatever sends messages lets the transfers go on. -/
theorem transfersGoOn_closed : SendClosed TransfersGoOn where
  refl _ := .of_eq rfl
  trans h k := fun x hx => by
    obtain ⟨y, hy, hxy⟩ := h x hx
    obtain ⟨z, hz, hyz⟩ := k y hy
    exact ⟨z, hz, hxy.trans hyz⟩
  hbm h := .of_eq (by rw [h.lnk])
  emit _ _ := .of_eq rfl
  charge _ _ _ _ := .of_eq rfl
  tokens _ _ _ _ := .of_eq rfl
  queues _ _ _ _ _ _ _ := .of_eq rfl
  transfers _ f hf := fun x hx => ⟨f x, List.mem_map_of_mem hx, hf x⟩
  slice _ _ _ _ := .of_eq rfl
  launch s h data port _ := .of_eq (by rw [(s.launch_portsOnly h data port).eq])

/-- From s to t the collectives stay. -/
def SameCollectives (s t : State) : Prop := t.lnk.collectives = s.lnk.collectives

/-- Whatever sends messages leaves the collectives alone. -/
theorem sameCollectives_closed : SendClosed SameCollectives where
  refl _ := rfl
  trans h k := k.trans h
  hbm h := by rw [SameCollectives, h.lnk]
  emit _ _ := rfl
  charge _ _ _ _ := rfl
  tokens _ _ _ _ := rfl
  queues _ _ _ _ _ _ _ := rfl
  transfers _ _ _ := rfl
  slice _ _ _ _ := rfl
  launch s h data port _ := by rw [SameCollectives, (s.launch_portsOnly h data port).eq]

section
variable (s : State)

theorem exec_linkPostTrigger (ctx slot : Nat) : exec (.linkPostTrigger ctx slot) s = execLinkPostTrigger ctx slot s := rfl
theorem exec_linkTransferComplete (ctx slot : Nat) :
    exec (.linkTransferComplete ctx slot) s = execLinkTransferComplete ctx slot s := rfl
theorem exec_collectiveChunkRx (die : Nat) (h : MsgHdr) (data : List Byte) :
    exec (.collectiveChunkRx die h data) s = execCollectiveChunkRx die h data s := rfl
theorem exec_collectiveTimeout (die i : Nat) : exec (.collectiveTimeout die i) s = execCollectiveTimeout die i s := rfl

/-! ### Triggers (R370, R371) -/

/-- The transfer that a trigger of a registered slot adds. -/
def PostReg.transfer (g : PostReg) (ctx slot : Nat) (post : List Byte) (table : Nat) : Transfer :=
  { ctx := ctx, gen := g.gen, panel := g.panel, slot := slot, frame := g.frame, keySlot := g.keySlot, post := post, table := table }

/-- The place of a post in its page. -/
def postAt (g : PostReg) (slot : Nat) : Nat := g.frame * 65536 + slot * 64

/-- The state once a post has been read. -/
def State.postRead (s : State) (g : PostReg) (slot : Nat) : State :=
  (s.hbmRead (postAt g slot) 64 (s.hreq g.keySlot (s.sysWays (postAt g slot)))).2

/-- The state in which a new transfer stands in the table, and its panel's step has posted. -/
def State.postTaken (s : State) (g : PostReg) (x : Transfer) : State :=
  let t := s.postRead g x.slot
  ({ t with lnk := { t.lnk with transfers := t.lnk.transfers ++ [x] } } : State).modPanel g.panel fun pn =>
    { pn with running := pn.running.map fun st => { st with posted := true } }

theorem State.postRead_only (g : PostReg) (slot : Nat) : HbmOnly s (s.postRead g slot) := by
  conv in @State.postRead => delta State.postRead
  exact s.hbmRead_only _ _ _

theorem State.postTaken_transfers (g : PostReg) (x : Transfer) : (s.postTaken g x).lnk.transfers = s.lnk.transfers ++ [x] := by
  have hread : (s.postRead g x.slot).lnk = s.lnk := (s.postRead_only g x.slot).lnk
  have htaken : (s.postTaken g x).lnk.transfers = (s.postRead g x.slot).lnk.transfers ++ [x] := rfl
  rw [htaken, hread]

theorem State.postOk_postTaken (g : PostReg) (x y : Transfer) : (s.postTaken g x).postOk y = s.postOk y := by
  have h := s.postRead_only g x.slot
  obtain ⟨events, seq, hmgt⟩ := h.mgt
  have hphys (panel l : Nat) : (s.postTaken g x).physIn panel l = s.physIn panel l := State.physIn_congr h.cores h.pins panel l
  have hme : (s.postTaken g x).me = s.me := (congrArg Mgt.moduleId hmgt :)
  unfold State.postOk
  simp only [hphys, hme]

/-- No transfer of a slot is under way. -/
theorem not_any_of_free {s : State} {ctx slot : Nat} (hfree : ∀ y ∈ s.lnk.transfers, y.ctx ≠ ctx ∨ y.slot ≠ slot) :
    ¬ s.lnk.transfers.any (fun t => decide (t.ctx = ctx) && decide (t.slot = slot)) = true := by
  simp only [List.any_eq_true, Bool.and_eq_true, decide_eq_true_eq, not_exists, not_and]
  exact fun y hy hctx hyslot => (hfree y hy).elim (· hctx) (· hyslot)

/-- A failure of the new transfer is its alone. -/
theorem State.failTransfer_postTaken {s : State} {x : Transfer} (hnone : x.status = none)
    (hfree : ∀ y ∈ s.lnk.transfers, y.ctx ≠ x.ctx ∨ y.slot ≠ x.slot) (g : PostReg) (status : Half) :
    ((s.postTaken g x).failTransfer x.ctx x.slot status).lnk.transfers = s.lnk.transfers ++ [{ x with status := some status }] := by
  have hothers : s.lnk.transfers.map (fun t => if t.ctx = x.ctx ∧ t.slot = x.slot ∧ t.status = none then
      { t with status := some status } else t) = s.lnk.transfers := by
    refine (List.map_congr_left fun y hy => if_neg fun h => ?_).trans (List.map_id _)
    exact (hfree y hy).elim (· h.1) (· h.2.1)
  unfold State.failTransfer
  dsimp only
  rw [s.postTaken_transfers, List.map_append, hothers]
  simp [hnone]

section
variable {s} {ctx slot : Nat} {g : PostReg} {post : List Byte} {x : Transfer}
  (hg : s.lnk.posts.find? (fun g => decide (g.ctx = ctx)) = some g) (hslot : slot < 1024)
  (hon : s.islandOn (224 + stackOf (g.frame * 65536)) = true)
  (hpost : post = (s.hbmRead (postAt g slot) 64 (s.hreq g.keySlot (s.sysWays (postAt g slot)))).1.bytesOr 64)
  (hop : fieldAt post 0 1 % 8 ≠ 0)
  (hx : x = g.transfer ctx slot post (s.ctxNow ctx).1.table.toNat)
include hg hslot hon hpost hop hx

/-- What a trigger of a registered slot does. -/
theorem linkPostTrigger_eq : exec (.linkPostTrigger ctx slot) s =
    if s.lnk.transfers.any (fun t => decide (t.ctx = ctx) && decide (t.slot = slot)) = true then .next (s.event 0x4804)
    else if s.postsFull x = true then .next s
    else if (!(s.postTaken g x).postOk x) = true then .next ((s.postTaken g x).failTransfer ctx slot 2)
    else if (s.ctxNow ctx).1.linkSlot = 0 then .next ((s.postTaken g x).failTransfer ctx slot 5)
    else if x.op = 4 then .next ((s.postTaken g x).postCollective x)
    else .next (s.postTaken g x).pumpTransfers := by
  have hlegal : ¬ (!s.islandOn (224 + stackOf (g.frame * 65536)) || decide (1024 ≤ slot) || decide (fieldAt post 0 1 % 8 = 0)) = true := by
    simp [hon, hop]
    omega
  have hread : s.postRead g slot = (s.hbmRead (postAt g slot) 64 (s.hreq g.keySlot (s.sysWays (postAt g slot)))).2 := rfl
  have htaken : s.postTaken g x =
      ({ s.postRead g slot with lnk := { (s.postRead g slot).lnk with transfers := (s.postRead g slot).lnk.transfers ++ [x] } } : State).modPanel
        g.panel fun pn => { pn with running := pn.running.map fun st => { st with posted := true } } := by
    rw [State.postTaken, hx]
    rfl
  have hnew : (⟨ctx, g.gen, g.panel, slot, g.frame, g.keySlot, post, (s.ctxNow ctx).1.table.toNat, 0, 0, none, none⟩ : Transfer) = x :=
    hx.symm
  unfold postAt at *
  rw [exec_linkPostTrigger, execLinkPostTrigger, hg]
  dsimp only
  rw [← hpost, hnew, ← hread, ← htaken, if_neg hlegal]

/-- A trigger of a slot at work changes the log alone. -/
theorem linkPostTrigger_busy (hbusy : ∃ y ∈ s.lnk.transfers, y.ctx = ctx ∧ y.slot = slot) :
    exec (.linkPostTrigger ctx slot) s = .next (s.event 0x4804) := by
  obtain ⟨y, hy, hctx, hyslot⟩ := hbusy
  rw [linkPostTrigger_eq hg hslot hon hpost hop hx, if_pos (List.any_eq_true.2 ⟨y, hy, by simp [hctx, hyslot]⟩)]

section
variable (hfree : ∀ y ∈ s.lnk.transfers, y.ctx ≠ ctx ∨ y.slot ≠ slot)
include hfree

/-- A trigger with an illegal post gives its transfer the status of a bad parameter. -/
theorem linkPostTrigger_illegal (hroom : s.postsFull x = false) (hbad : s.postOk x = false) :
    ∃ t, exec (.linkPostTrigger ctx slot) s = .next t ∧ t.lnk.transfers = s.lnk.transfers ++ [{ x with status := some 2 }] := by
  have hfails : ((s.postTaken g x).failTransfer ctx slot 2).lnk.transfers = s.lnk.transfers ++ [{ x with status := some 2 }] := by
    subst hx
    exact State.failTransfer_postTaken (x := g.transfer ctx slot post _) rfl hfree g 2
  refine ⟨_, ?_, hfails⟩
  rw [linkPostTrigger_eq hg hslot hon hpost hop hx, if_neg (not_any_of_free hfree), if_neg (by simp [hroom]),
    if_pos (by rw [s.postOk_postTaken, hbad]; rfl)]

/-- Any other trigger adds its transfer. -/
theorem linkPostTrigger_adds (hroom : s.postsFull x = false) (hok : s.postOk x = true) :
    ∃ t y, exec (.linkPostTrigger ctx slot) s = .next t ∧ y ∈ t.lnk.transfers ∧ y.ctx = ctx ∧ y.slot = slot ∧ y.post = post ∧
      y.gen = g.gen := by
  have hmem : x ∈ (s.postTaken g x).lnk.transfers := by
    rw [s.postTaken_transfers]
    exact List.mem_append_right _ (List.mem_singleton_self x)
  obtain ⟨t, ht, hgo⟩ : ∃ t, exec (.linkPostTrigger ctx slot) s = .next t ∧ TransfersGoOn (s.postTaken g x) t := by
    rw [linkPostTrigger_eq hg hslot hon hpost hop hx, if_neg (not_any_of_free hfree), if_neg (by simp [hroom]),
      if_neg (by rw [s.postOk_postTaken, hok]; simp)]
    split
    · exact ⟨_, rfl, transfersGoOn_closed.failTransfer _ _ _ _⟩
    · split
      · exact ⟨_, rfl, transfersGoOn_closed.postCollective _ (fun _ _ => .of_eq rfl) _⟩
      · exact ⟨_, rfl, transfersGoOn_closed.pumpTransfers _⟩
  obtain ⟨y, hy, ⟨sent, since, status, hxy⟩, -⟩ := hgo x hmem
  subst hx
  exact ⟨t, y, ht, hy, by rw [hxy]; rfl, by rw [hxy]; rfl, by rw [hxy]; rfl, by rw [hxy]; rfl⟩

end

end

/-! ### The end of a transfer (R371) -/

theorem State.collEngines_of_nil {s : State} (h : s.lnk.collectives = []) : s.collEngines = s := by
  simp [State.collEngines, h]

/-- The one transfer of the module, which is done, writes its status and raises its counter. -/
theorem linkTransferComplete_ends (h0 : s.dieCtl 0 = true) (h1 : s.dieCtl 1 = true) {x : Transfer} {p : Nat}
    (hone : s.lnk.transfers = [x]) (hnone : s.lnk.collectives = []) (hdone : s.transferDone x = true)
    (hphys : s.physIn x.panel (x.b 2 1) = some p) : ∃ t, exec (.linkTransferComplete x.ctx x.slot) s = .next t ∧
      t.lnk.transfers = [] ∧ signalled { core := p, signal := true, signalCtr := BitVec.ofNat 8 (x.b 1 1) } s t ∧
      t.hbm = (s.hbmWrite (x.frame * 65536 + x.slot * 64 + 48) (leBytes 2 (x.status.getD 0).toNat ++ zeros 6 ++ leBytes 8 s.time)
        (s.hreq x.keySlot (s.sysWays (x.frame * 65536)))).hbm := by
  have hwrite := s.hbmWrite_only (x.frame * 65536 + x.slot * 64 + 48)
    (leBytes 2 (x.status.getD 0).toNat ++ zeros 6 ++ leBytes 8 s.time) (s.hreq x.keySlot (s.sysWays (x.frame * 65536)))
  generalize hv : s.hbmWrite (x.frame * 65536 + x.slot * 64 + 48) (leBytes 2 (x.status.getD 0).toNat ++ zeros 6 ++ leBytes 8 s.time)
    (s.hreq x.keySlot (s.sysWays (x.frame * 65536))) = v at hwrite
  have hraise : v.raiseIn x.panel (x.b 2 1) (x.b 1 1) = v.signal { core := p, signal := true, signalCtr := BitVec.ofNat 8 (x.b 1 1) } := by
    rw [State.raiseIn, State.physIn_congr hwrite.cores hwrite.pins, hphys]
    rfl
  have hsig := v.signal_arrival { core := p, signal := true, signalCtr := BitVec.ofNat 8 (x.b 1 1) }
  generalize hw : v.signal { core := p, signal := true, signalCtr := BitVec.ofNat 8 (x.b 1 1) } = w at hraise hsig
  have hwlnk : w.lnk = s.lnk := by rw [← hw, State.signal_lnk, hwrite.lnk]
  have hwhbm : w.hbm = v.hbm := by rw [← hw, State.signal_hbm]
  obtain ⟨u, hu, hcores, hpins, hlnk, hhbm⟩ : ∃ u : State, (if x.op = 4 ∧ x.status = none then w.count (lnkReg 0x128) 1 else w) = u ∧
      u.cores = w.cores ∧ u.pins = w.pins ∧ u.lnk = w.lnk ∧ u.hbm = w.hbm := by
    split
    · exact ⟨_, rfl, rfl, rfl, rfl, rfl⟩
    · exact ⟨_, rfl, rfl, rfl, rfl, rfl⟩
  have hx : exec (.linkTransferComplete x.ctx x.slot) s = .next (u.dropTransfer x.ctx x.slot).collEngines.pumpTransfers := by
    rw [exec_linkTransferComplete, execLinkTransferComplete, hone]
    simp only [List.find?_cons, decide_true, Bool.and_self, h0, h1, hdone]
    rw [if_neg (by simp), hv, hraise, hu]
  have hcoll : (u.dropTransfer x.ctx x.slot).lnk.collectives = [] := by
    unfold State.dropTransfer
    dsimp only
    rw [hlnk, hwlnk, hnone]
    rfl
  have htrans : (u.dropTransfer x.ctx x.slot).lnk.transfers = [] := by
    unfold State.dropTransfer
    dsimp only
    rw [hlnk, hwlnk, hone]
    simp
  rw [State.collEngines_of_nil hcoll, State.pumpTransfers_of_nil htrans] at hx
  refine ⟨_, hx, htrans, fun q c => ?_, hhbm.trans hwhbm⟩
  have hsame : (u.dropTransfer x.ctx x.slot).arrival q c = w.arrival q c := State.arrival_congr hcores hpins q c
  rw [hsame, hsig q c, State.arrival_congr hwrite.cores hwrite.pins]

/-! ### Collectives (R378, R379) -/

section
variable {s} {die : Nat} {h : MsgHdr} {data : List Byte} {c : Collective}
  (hon : s.linksOn = true) (hdie : s.dieCtl die = true)
  (hfind : s.lnk.collectives.find? (fun c => decide (c.die = die) && decide (c.ctx = h.dstCtx.toNat) &&
    decide (c.id.toNat = h.key.toNat % 2 ^ 32) && c.engine) = some c)
  (htenant : (s.ctx c.ctx).f.tenant = h.tenant)
include hon hdie hfind htenant

/-- A chunk of a collective that has failed here is dropped. -/
theorem collectiveChunkRx_failed (hfailed : ∃ x ∈ s.lnk.transfers, x.ctx = c.ctx ∧ x.slot = c.slot ∧ x.status.isSome = true) :
    exec (.collectiveChunkRx die h data) s = .next s.noteLinkDrop := by
  obtain ⟨x, hx, hctx, hslot, hstatus⟩ := hfailed
  rw [exec_collectiveChunkRx, execCollectiveChunkRx]
  simp only [hfind, hon, hdie, htenant]
  rw [if_neg (by simp), if_pos (List.any_eq_true.2 ⟨x, hx, by simp [hctx, hslot, hstatus]⟩)]

/-- A collective that has taken a chunk. -/
def Collective.takes (c : Collective) (h : MsgHdr) : Collective := { c with seen := (h.src, h.key) :: c.seen }

/-- The state in which a collective has taken a chunk. -/
def State.chunkTaken (s : State) (c : Collective) (h : MsgHdr) : State :=
  { s with lnk := { s.lnk with collectives := s.lnk.collectives.map fun y => if y.ctx = c.ctx ∧ y.slot = c.slot then c.takes h else y } }

section
variable (hgen : h.ctxGen = (s.ctx c.ctx).gen) (hkey : s.genCurrent (s.ctx c.ctx).f.linkSlot.toNat h.keyGen = true)
  (hlives : ∀ x ∈ s.lnk.transfers, x.ctx = c.ctx → x.slot = c.slot → x.status = none)
include hgen hkey hlives

/-- What a chunk of a collective at work does. -/
theorem collectiveChunkRx_eq : ∃ rank, exec (.collectiveChunkRx die h data) s =
    if c.seen.contains (h.src, h.key) then .next ((s.count (lnkReg 0x118) 1).oweAck h false)
    else .next ((((s.chunkTaken c h).count (lnkReg 0x108) 1).oweAck h false).collTake (c.takes h) rank (h.key.toNat / 2 ^ 32 % 65536)
      (h.key.toNat / 2 ^ 48) data) := by
  have hnone : ¬ s.lnk.transfers.any (fun t => decide (t.ctx = c.ctx) && decide (t.slot = c.slot) && t.status.isSome) = true := by
    simp only [List.any_eq_true, Bool.and_eq_true, decide_eq_true_eq, not_exists, not_and]
    exact fun x hx hctx hsome => by simp [hlives x hx hctx.1 hctx.2] at hsome
  refine ⟨((c.members.zipIdx.find? (fun m => decide (m.1 = (h.src, h.srcCtx.toNat)))).map Prod.snd).getD 0, ?_⟩
  rw [exec_collectiveChunkRx, execCollectiveChunkRx]
  simp only [hfind, hon, hdie, htenant]
  rw [if_neg (by simp), if_neg hnone, if_neg (by simp [hgen, hkey])]
  rfl

/-- A chunk that was taken already is acknowledged again. -/
theorem collectiveChunkRx_again (hseen : (h.src, h.key) ∈ c.seen) :
    exec (.collectiveChunkRx die h data) s = .next ((s.count (lnkReg 0x118) 1).oweAck h false) := by
  obtain ⟨rank, heq⟩ := collectiveChunkRx_eq (data := data) hon hdie hfind htenant hgen hkey hlives
  rw [heq, if_pos (List.contains_iff_mem.2 hseen)]

/-- A new chunk is taken once. -/
theorem collectiveChunkRx_takes (hnew : (h.src, h.key) ∉ c.seen) :
    ∃ t y, exec (.collectiveChunkRx die h data) s = .next t ∧ y ∈ t.lnk.collectives ∧
      y = { c with seen := (h.src, h.key) :: c.seen } := by
  obtain ⟨rank, heq⟩ := collectiveChunkRx_eq (data := data) hon hdie hfind htenant hgen hkey hlives
  rw [heq, if_neg (by simpa using hnew)]
  have hkept := sameCollectives_closed.trans (sameCollectives_closed.trans (sameCollectives_closed.count (s.chunkTaken c h) (lnkReg 0x108) 1)
    (sameCollectives_closed.oweAck _ h false)) (sameCollectives_closed.collTake _ (c.takes h) rank (h.key.toNat / 2 ^ 32 % 65536)
      (h.key.toNat / 2 ^ 48) data)
  refine ⟨_, c.takes h, rfl, ?_, rfl⟩
  rw [hkept]
  exact List.mem_map.2 ⟨c, List.mem_of_find?_eq_some hfind, if_pos ⟨rfl, rfl⟩⟩

end

end

/-- A transfer that was failed has a status. -/
theorem State.failTransfer_status (c slot : Nat) (status : Half) :
    ∀ x ∈ (s.failTransfer c slot status).lnk.transfers, x.ctx = c → x.slot = slot → x.status ≠ none := by
  intro x hx hctx hslot
  obtain ⟨y, -, rfl⟩ := List.mem_map.1 hx
  by_cases hy : y.ctx = c ∧ y.slot = slot ∧ y.status = none
  · rw [if_pos hy]
    exact Option.some_ne_none _
  · rw [if_neg hy] at hctx hslot ⊢
    exact fun hnone => hy ⟨hctx, hslot, hnone⟩

/-- A collective without progress fails its transfer. -/
theorem collectiveTimeout_fails {die i : Nat} {c : Collective} (hdie : s.dieCtl die = true)
    (hc : (s.lnk.collectives.filter (fun c => decide (c.die = die) && c.engine))[i]? = some c) :
    ∃ t, exec (.collectiveTimeout die i) s = .next t ∧
      (∀ x ∈ t.lnk.transfers, x.ctx = c.ctx → x.slot = c.slot → x.status ≠ none) ∧
      t = { s with lnk := { s.lnk with transfers := t.lnk.transfers } } := by
  refine ⟨s.failTransfer c.ctx c.slot 0x0A02, ?_, s.failTransfer_status _ _ _, rfl⟩
  rw [exec_collectiveTimeout, execCollectiveTimeout, hc]
  exact if_pos hdie

theorem exec_giveupTimeout (dest vc : Nat) : exec (.giveupTimeout dest vc) s = execGiveupTimeout dest vc s := rfl

/-- Failing the owners of messages changes the transfers alone. -/
theorem State.foldl_failOwner (ms : List SentMsg) (status : Half) : ∃ transfers : List Transfer,
    ms.foldl (fun (s : State) m => s.failOwner m status) s = { s with lnk := { s.lnk with transfers := transfers } } := by
  have hstep (t : State) (m : SentMsg) : ∃ transfers : List Transfer,
      t.failOwner m status = { t with lnk := { t.lnk with transfers := transfers } } := by
    unfold State.failOwner
    split
    · exact ⟨_, rfl⟩
    · exact ⟨t.lnk.transfers, rfl⟩
  induction ms generalizing s with
  | nil => exact ⟨s.lnk.transfers, rfl⟩
  | cons m ms ih =>
    obtain ⟨first, hfirst⟩ := hstep s m
    obtain ⟨rest, hrest⟩ := ih (s.failOwner m status)
    exact ⟨rest, by rw [List.foldl_cons, hrest, hfirst]⟩

/-- What giving a stream up leaves. -/
theorem giveupTimeout_eq (hon : s.pins.dieOn = true) {dest vc : Nat} {st : TxStream}
    (hst : st = Tab.get {} s.lnk.tx (streamKey dest vc)) (hsome : st.unacked ≠ []) (hstream : s.streamOn (streamKey dest vc) = true) :
    ∃ transfers, exec (.giveupTimeout dest vc) s = .next { s with lnk := { s.lnk with
        transfers := transfers, tx := Tab.set s.lnk.tx (streamKey dest vc) { st with unacked := [], lastUse := s.time } } } ∧
      transfers = (st.unacked.foldl (fun (s : State) m => s.failOwner m 0x0A02) s).lnk.transfers := by
  obtain ⟨transfers, hfailed⟩ := s.foldl_failOwner st.unacked 0x0A02
  refine ⟨transfers, ?_, by rw [hfailed]⟩
  have hempty : st.unacked.isEmpty = false := by simpa using hsome
  rw [exec_giveupTimeout, execGiveupTimeout]
  simp only [← hst, hon, hstream, hempty, hfailed]
  rfl

/-- The owners of messages that fail have a status. -/
theorem State.foldl_failOwner_status (ms : List SentMsg) (status : Half) {m : SentMsg} {c slot : Nat} (hm : m ∈ ms)
    (howner : m.owner = some (c, slot)) : ∀ x ∈ (ms.foldl (fun (s : State) m => s.failOwner m status) s).lnk.transfers,
      x.ctx = c → x.slot = slot → x.status ≠ none := by
  have hkeeps (t : State) (m' : SentMsg) (ht : ∀ x ∈ t.lnk.transfers, x.ctx = c → x.slot = slot → x.status ≠ none) :
      ∀ x ∈ (t.failOwner m' status).lnk.transfers, x.ctx = c → x.slot = slot → x.status ≠ none := by
    unfold State.failOwner
    split
    · next c' slot' _ =>
      intro x hx hctx hslot
      obtain ⟨y, hy, rfl⟩ := List.mem_map.1 hx
      by_cases hfails : y.ctx = c' ∧ y.slot = slot' ∧ y.status = none
      · rw [if_pos hfails]
        exact Option.some_ne_none _
      · rw [if_neg hfails] at hctx hslot ⊢
        exact ht y hy hctx hslot
    · exact ht
  obtain ⟨before, after, rfl⟩ := List.append_of_mem hm
  rw [List.foldl_append, List.foldl_cons]
  refine List.foldlRecOn (motive := fun t : State => ∀ x ∈ t.lnk.transfers, x.ctx = c → x.slot = slot → x.status ≠ none) after _ ?_
    fun t ht m' _ => hkeeps t m' ht
  rw [State.failOwner, howner]
  exact State.failTransfer_status _ _ _ _

end

/-- Settles O50: each command by its own lemma; what a transfer sends after it was added lets it go on (`transfersGoOn_closed`), and what a
collective does with a chunk leaves the collectives alone (`sameCollectives_closed`). -/
theorem linkTransfers : Obligations.LinkTransfers := by
  unfold Obligations.LinkTransfers
  refine fun s hon h0 h1 => ⟨fun ctx slot g post x hg hslot hisland hpost hop hx => ⟨fun hbusy => ?_, fun hfree hfull => ?_, fun hfree hroom =>
      ⟨fun hbad => ?_, fun hok => ?_⟩⟩, fun x p hone hnone hdone hphys => linkTransferComplete_ends s h0 h1 hone hnone hdone hphys,
    fun die h data c hdie hfind htenant hgen hkey => ⟨fun hfailed => ?_, fun hlives => ⟨fun hseen => ?_, fun hnew => ?_⟩⟩,
    fun die i c hdie hc => collectiveTimeout_fails s hdie hc, fun dest vc m c slot hm howner hstream => ?_⟩
  · exact linkPostTrigger_busy hg hslot hisland hpost hop hx hbusy
  · rw [linkPostTrigger_eq hg hslot hisland hpost hop hx, if_neg (not_any_of_free hfree), if_pos hfull]
  · exact linkPostTrigger_illegal hg hslot hisland hpost hop hx hfree hroom hbad
  · exact linkPostTrigger_adds hg hslot hisland hpost hop hx hfree hroom hok
  · exact collectiveChunkRx_failed hon hdie hfind htenant hfailed
  · exact collectiveChunkRx_again hon hdie hfind htenant hgen hkey hlives hseen
  · exact collectiveChunkRx_takes hon hdie hfind htenant hgen hkey hlives hnew
  · have hdieOn : s.pins.dieOn = true := by
      simp only [State.linksOn, Bool.and_eq_true] at hon
      exact hon.1
    obtain ⟨transfers, hx, htransfers⟩ := giveupTimeout_eq s hdieOn rfl (List.ne_nil_of_mem hm) hstream
    refine ⟨_, hx, ?_⟩
    rw [htransfers]
    exact s.foldl_failOwner_status _ 0x0A02 hm howner

end Sys2Proof.Machine
end

section
/-! PROOFS. Class-0 admission and the shapers of its messages (13 R339 to R341). -/

namespace Sys2Proof.Machine

section
variable (s : State) (k : Nat)

theorem exec_c0AdmissionLapse : exec (.c0AdmissionLapse k) s = execC0AdmissionLapse k s := rfl
theorem exec_c0AdmissionReturn : exec (.c0AdmissionReturn k) s = execC0AdmissionReturn k s := rfl
theorem exec_declaredWindowEnd : exec (.declaredWindowEnd k) s = execDeclaredWindowEnd k s := rfl
theorem exec_shaperRelease (rsp : Bool) (payload waited : Nat) :
    exec (.shaperRelease k rsp payload waited) s = execShaperRelease k rsp payload waited s := rfl

/-! ### Admission (R339, R341) -/

/-- A panel of an admitted context of which a condition fails lapses, which is counted and reported. -/
theorem c0AdmissionLapse_lapses (hon : s.cmdIsland (some k) = true) (hadmitted : (s.panel k).admitted = true)
    (hfails : s.c0Holds k = false) : ∃ t, exec (.c0AdmissionLapse k) s = .next t ∧ (t.panel k).admitted = false ∧
      (t.panel k).lapse = true ∧ countersMoved [(panelReg k 0x58, 1)] s t ∧ t.mgt.events = (s.event 0x6010).mgt.events ∧
      t.cores = s.cores ∧ ∀ j, j ≠ k → t.panel j = s.panel j := by
  obtain ⟨-, hpanel⟩ := s.evalAdmission_frame k
  have hx : exec (.c0AdmissionLapse k) s = .next (s.evalAdmission k) := by
    rw [exec_c0AdmissionLapse, execC0AdmissionLapse, if_pos (by simp [hon, hadmitted, hfails])]
  refine ⟨_, hx, ?_, ?_, ?_, ?_, ?_, fun j hj => (hpanel j).trans (if_neg hj)⟩
  · rw [hpanel, if_pos rfl, State.marks, hfails]
  · rw [hpanel, if_pos rfl, State.marks, hadmitted, hfails]
    simp
  all_goals
    unfold State.evalAdmission
    dsimp only
    rw [hadmitted, hfails, if_pos (by rfl)]
    split
  · exact countersMoved_count s _ _
  · exact countersMoved_count s _ _
  all_goals rfl

/-- A panel of which every condition holds again is admitted. -/
theorem c0AdmissionReturn_admits (hon : s.cmdIsland (some k) = true) (hbarred : (s.panel k).admitted = false)
    (hholds : s.c0Holds k = true) : ∃ t, exec (.c0AdmissionReturn k) s = .next t ∧ (t.panel k).admitted = true ∧
      (t.panel k).lapse = (s.panel k).lapse ∧ (∀ j, j ≠ k → t.panel j = s.panel j) ∧ t = { s with cmd := t.cmd } := by
  obtain ⟨-, hpanel⟩ := s.evalAdmission_frame k
  have hx : exec (.c0AdmissionReturn k) s = .next (s.evalAdmission k) := by
    rw [exec_c0AdmissionReturn, execC0AdmissionReturn, if_pos (by simp [hon, hbarred, hholds])]
  refine ⟨_, hx, ?_, ?_, fun j hj => (hpanel j).trans (if_neg hj), ?_⟩
  · rw [hpanel, if_pos rfl, State.marks, hholds]
  · rw [hpanel, if_pos rfl, State.marks, hbarred]
    simp
  · unfold State.evalAdmission
    dsimp only
    rw [hbarred, if_neg (by simp)]
    rfl

/-! ### The declared window (R339, 06 R171) -/

/-- A change of several cores, each once or oftener, that does the same when it is done again. -/
theorem State.foldl_modCore {f : Core → Core} (hf : ∀ c, f (f c) = f c) (ps : List Nat) :
    (∀ q, (ps.foldl (fun (s : State) p => s.modCore p f) s).core q = if q ∈ ps then f (s.core q) else s.core q) ∧
    ps.foldl (fun (s : State) p => s.modCore p f) s =
      { s with cores := (ps.foldl (fun (s : State) p => s.modCore p f) s).cores } := by
  induction ps generalizing s with
  | nil => simp
  | cons p ps ih =>
    obtain ⟨hcore, hframe⟩ := ih (s.modCore p f)
    refine ⟨fun q => ?_, by rw [List.foldl_cons, hframe]; rfl⟩
    rw [List.foldl_cons, hcore, State.core_modCore]
    by_cases hq : q = p
    · subst hq
      simp [hf]
    · simp [hq]

/-- The end of a declared window lets the row test of its cores go on. -/
theorem declaredWindowEnd_resumes {st : Step} (hon : s.cmdIsland (some k) = true) (hrun : (s.panel k).running = some st)
    (hopen : (s.panel k).windowOpen = true) (hsome : fieldAt st.params 96 4 ≠ 0)
    (hover : st.start.toNat + 1000 * fieldAt st.params 96 4 ≤ s.time) :
    ∃ t, exec (.declaredWindowEnd k) s = .next t ∧ (t.panel k).windowOpen = false ∧
      (∀ p ∈ s.panelCores k, (t.core p).slice = { (s.core p).slice with testSuspended := false }) ∧
      (∀ p, p ∉ s.panelCores k → t.core p = s.core p) ∧ t = { s with cores := t.cores, cmd := t.cmd } := by
  have hx : exec (.declaredWindowEnd k) s = .next ((s.panelCores k).foldl
      (fun (s : State) p => s.modCore p fun c => { c with slice := { c.slice with testSuspended := false } })
      (s.modPanel k fun pn => { pn with windowOpen := false })) := by
    rw [exec_declaredWindowEnd, execDeclaredWindowEnd]
    simp only [hrun]
    rw [if_pos (by simp [hon, hopen, hsome, hover])]
    rfl
  obtain ⟨hcore, hframe⟩ := State.foldl_modCore (s.modPanel k fun pn => { pn with windowOpen := false })
    (f := fun c => { c with slice := { c.slice with testSuspended := false } }) (fun _ => rfl) (s.panelCores k)
  refine ⟨_, hx, ?_, fun p hp => ?_, fun p hp => ?_, ?_⟩
  · rw [hframe]
    exact congrArg Panel.windowOpen ((s.panel_modPanel k k _).trans (if_pos rfl))
  · rw [hcore, if_pos hp]
    rfl
  · rw [hcore, if_neg hp]
    rfl
  · rw [hframe]
    rfl

/-! ### The shapers (R340) -/

/-- The channel of a put of a panel. -/
theorem State.postVc_of_class0 {x : Transfer} (hpanel : x.panel = k) (hclass : x.flag 3 = true) (i : Nat) :
    s.postVc x i = if (s.panel k).admitted = false then (2, false)
      else if ((s.entryNow k).envPkt.toNat + 1) * 64 < x.piece i then (2, true) else (0, false) := by
  subst hpanel
  rw [State.postVc, hclass, State.envLimit]
  cases (s.panel x.panel).admitted <;> rfl

section
variable {s k} {h : MsgHdr} {rsp : Bool} (hadmitted : (s.panel k).admitted = true) (hpanel : s.panelNow h.srcCtx.toNat = k)
  (hvc : h.vc = if rsp then 1 else 0) (hkind : h.kind = if rsp then 3 else 1)
include hadmitted hpanel hvc hkind

/-- A put, or the data of a get, of an admitted panel leaves through its bucket. -/
theorem State.shaper_of_admitted : s.shaper h = some (k, h.vc) := by
  unfold State.shaper
  rw [hpanel]
  cases rsp <;> simp_all

omit hadmitted hpanel in
/-- The number of such a message spreads it over the links. -/
theorem spreadOf_of_admitted (seq : W32) : spreadOf { h with seq := if h.vc = 5 then 0 else seq } = seq.toNat := by
  have hne : h.vc ≠ 5 := by cases rsp <;> simp_all
  simp [spreadOf, hne]

section
variable {p : Path} (hroute : s.route h.dest (s.msgTable h) (s.msgLevel h) (Tab.get {} s.lnk.tx (streamKey h.dest h.vc)).nextSeq.toNat = some p)
include hroute

/-- A message whose bucket lacks its payload waits. -/
theorem State.sendMsg_shaped {data : List Byte} (owner : Option (Nat × Nat)) (hlacks : s.tokens k h.vc < data.length * 1000) :
    s.sendMsg h data owner = (.wait, s) := by
  have hheld : s.shaperHolds h data.length = false := by
    rw [State.shaperHolds, State.shaper_of_admitted hadmitted hpanel hvc hkind]
    exact decide_eq_false (by omega)
  unfold State.sendMsg
  dsimp only
  rw [spreadOf_of_admitted hvc hkind, hroute]
  dsimp only
  rw [if_pos (by simp [hheld])]

/-- A message that leaves takes its payload from its bucket. -/
theorem State.sendMsg_takes {data : List Byte} {owner : Option (Nat × Nat)} (hsent : (s.sendMsg h data owner).1 = .sent) :
    (s.sendMsg h data owner).2.cmd = (s.takeTokens k h.vc data.length).cmd := by
  have hshape : s.shape h data.length = s.takeTokens k h.vc data.length := by
    rw [State.shape, State.shaper_of_admitted hadmitted hpanel hvc hkind]
  have hlaunch (t : State) (g : MsgHdr) (port : Nat) : (t.launch g data port).cmd = t.cmd := by
    rw [(t.launch_portsOnly g data port).eq]
  revert hsent
  unfold State.sendMsg
  dsimp only
  rw [spreadOf_of_admitted hvc hkind, hroute, hshape]
  dsimp only
  split
  · exact nofun
  · split
    · exact nofun
    · intro _
      rw [hlaunch]
      split <;> rfl

end

end

/-- A command that releases a packet sends what may leave and counts the wait. -/
theorem shaperRelease_releases (hon : s.cmdIsland (some k) = true) (hadmitted : (s.panel k).admitted = true) (rsp : Bool)
    (payload waited : Nat) :
    let side := if rsp then 1 else 0
    (payload ∈ s.shaperQueue k side → payload * 1000 ≤ s.tokens k side →
      exec (.shaperRelease k rsp payload waited) s =
        .next (((s.namedWait k side payload).pumpBacklog.eduPump.pumpTransfers).count (panelReg k 0x60) waited)) ∧
    (payload ∉ s.shaperQueue k side ∨ s.tokens k side < payload * 1000 → exec (.shaperRelease k rsp payload waited) s = .next s) := by
  intro side
  rw [exec_shaperRelease, execShaperRelease]
  refine ⟨fun hwaits hholds => ?_, fun hno => ?_⟩
  · rw [if_neg]
    simpa [hon, hadmitted] using And.intro hwaits hholds
  · rw [if_pos]
    rcases hno with hno | hno
    · simp [hno, side]
    · simp [hno, side]

end

/-- Settles O37: each command and each way of a shaped message by its own lemma. -/
theorem classZeroAdmission : Obligations.ClassZeroAdmission := by
  unfold Obligations.ClassZeroAdmission
  rintro s k pn rfl hon
  refine ⟨fun hadmitted hfails => c0AdmissionLapse_lapses s k hon hadmitted hfails,
    fun hbarred hholds => c0AdmissionReturn_admits s k hon hbarred hholds, fun rsp payload waited hadmitted => ?_,
    fun x i hpanel hclass => s.postVc_of_class0 k hpanel hclass i,
    fun st hrun hopen hsome hover => declaredWindowEnd_resumes s k hon hrun hopen hsome hover⟩
  obtain ⟨hrelease, hstays⟩ := shaperRelease_releases s k hon hadmitted rsp payload waited
  refine ⟨?_, hrelease, hstays, fun h data owner p hpanel hvc hkind hroute => ⟨fun hlacks => ?_, fun hsent => ?_⟩⟩
  · cases rsp <;> rfl
  · exact State.sendMsg_shaped hadmitted hpanel hvc hkind hroute owner (hvc ▸ hlacks)
  · have hcmd := State.sendMsg_takes hadmitted hpanel hvc hkind hroute hsent
    have hpanelAt (j : Nat) : (s.sendMsg h data owner).2.panel j = (s.takeTokens k h.vc data.length).panel j := by
      rw [State.panel, hcmd, State.panel]
    refine ⟨?_, ?_, fun j hj => ?_⟩
    · rw [hpanelAt, State.takeTokens, State.panel_modPanel, if_pos rfl, hvc]
      cases rsp <;> rfl
    · rw [hpanelAt, State.takeTokens, State.panel_modPanel, if_pos rfl]
    · rw [hpanelAt, State.takeTokens, State.panel_modPanel, if_neg hj]

end Sys2Proof.Machine
end

section
/-! PROOFS. Records of stopped steps, and counters that they leave alone (12 R312, R314). -/

namespace Sys2Proof.Machine

/-! ### Counters -/

/-- The counters that `p` names stand in t as in s. -/
def SameCounters (p : Nat → Prop) (s t : State) : Prop := ∀ off, p off → t.counter off = s.counter off

section
variable {p q : Nat → Prop} {s t u : State}

theorem SameCounters.refl (p : Nat → Prop) (s : State) : SameCounters p s s := fun _ _ => rfl

theorem SameCounters.trans (h : SameCounters p s t) (k : SameCounters p t u) : SameCounters p s u :=
  fun off hp => (k off hp).trans (h off hp)

theorem SameCounters.of_eq (h : t.counters = s.counters) : SameCounters p s t := fun off _ => by
  rw [State.counter, h, State.counter]

theorem SameCounters.count (h : SameCounters p s t) {off : Nat} (hp : ¬ p off) (n : Nat) : SameCounters p s (t.count off n) := by
  intro j hj
  have hne : j ≠ off := fun he => hp (he ▸ hj)
  rw [State.counter_count, if_neg hne, h j hj]

end

/-- A register that counts no completion record, notice or ring error. -/
def NoRecordReg (off : Nat) : Prop := off ≠ cmdReg 0x110 ∧ off ≠ cmdReg 0x118 ∧ off ≠ cmdReg 0x128

theorem State.putItem_counters (s : State) (k : Nat) (i : CqItem) : SameCounters NoRecordReg s (s.putItem k i) := by
  have hfull (t : State) : SameCounters NoRecordReg t (t.noteFull k) := by
    unfold State.noteFull
    split <;> exact .of_eq rfl
  have hmsix (t : State) (on : Bool) : SameCounters NoRecordReg t (if on = true then t.msix (k / 256) (k % 256) else t) := by
    unfold State.msix
    split_ifs <;> exact .of_eq rfl
  unfold State.putItem State.writeItem
  split
  · refine .trans (.trans ?_ (hmsix _ _)) (hfull _)
    cases i with
    | record r irq slots => exact SameCounters.count (.of_eq rfl) (fun h => h.1 rfl) 1
    | notice n => exact SameCounters.count (.of_eq rfl) (fun h => h.2.1 rfl) 1
  · exact .of_eq rfl

theorem State.ringError_counters (s : State) (k : Nat) (status : Half) (service : Bool) :
    SameCounters NoRecordReg s (s.ringError k status service) :=
  SameCounters.count (t := (((s.modWindow k _).putItem k _).event 0x6003))
    (SameCounters.trans (SameCounters.trans (.of_eq rfl) (State.putItem_counters _ k _)) (.of_eq rfl)) (fun h => h.2.2 rfl) 1

/-! ### The record of a stopped step (R314) -/

/-- From s to t records were written and registrations ended: windows, accounts, registrations, the log, counters, free values and what is out
changed, and nothing else. -/
structure RecordOnly (s t : State) : Prop where
  frame : t = { s with
    cmd := { s.cmd with windows := t.cmd.windows, ctxs := t.cmd.ctxs }, kvs := t.kvs, lnk := { s.lnk with posts := t.lnk.posts },
    mgt := t.mgt, counters := t.counters, draws := t.draws, out := t.out }
  ctx (c : Nat) : t.ctx c = { s.ctx c with account := (t.ctx c).account, usage := (t.ctx c).usage }
  counters : SameCounters NoRecordReg s t

section
variable {s t u : State}

theorem RecordOnly.refl (s : State) : RecordOnly s s := ⟨rfl, fun _ => rfl, .refl _ s⟩

theorem RecordOnly.trans (h : RecordOnly s t) (k : RecordOnly t u) : RecordOnly s u :=
  ⟨by rw [k.frame, h.frame], fun c => by rw [k.ctx, h.ctx], h.counters.trans k.counters⟩

theorem QueueOnly.recordOnly {k : Nat} (h : QueueOnly k s t) (hcounters : SameCounters NoRecordReg s t) : RecordOnly s t :=
  ⟨by rw [h.frame], fun c => by rw [h.ctx], hcounters⟩

theorem RecordOnly.modWindow (s : State) (k : Nat) (f : Window → Window) : RecordOnly s (s.modWindow k f) :=
  ⟨rfl, fun _ => rfl, .of_eq rfl⟩

/-- A ring error is written into its window, which stops, and is counted. -/
theorem State.ringError_recordOnly (s : State) (k : Nat) (status : Half) (service : Bool) : RecordOnly s (s.ringError k status service) := by
  have hput := (s.modWindow k fun w => { w with error := true, errStatus := status, errRing := service }).putItem_only k (.record
    { tag := 0xFFFFFFFF, status := status, ctx := (s.window k).ctx.getD 0, start := s.clk.now, duration := 0, service := service } false 0)
  have hframe := hput.frame
  refine ⟨?_, fun c => ?_, s.ringError_counters k status service⟩
  · unfold State.ringError
    dsimp only
    rw [hframe]
    rfl
  · have hctx := ((hput.event 0x6003).count (cmdReg 0x128) 1).ctx c
    unfold State.ringError
    dsimp only
    rw [hctx]
    rfl

theorem State.writeRecord_recordOnly (s : State) (st : Step) (status : Half) (energy : W32) :
    RecordOnly s (s.writeRecord st status false energy) :=
  (RecordOnly.modWindow s st.window _).trans ((State.putItem_only _ _ _).recordOnly (State.putItem_counters _ _ _))

/-- The status of the record of a stopped step. -/
def State.stopStatus (s : State) (st : Step) (status : Half) : Half := if s.stopping st.ctx then 0x000B else status

/-- A stopped step is charged to its context. -/
def State.chargeStop (s : State) (st : Step) : State := (s.stepEnergy.2).modCtx st.ctx fun x => x.takeAccount st s.stepEnergy.1

/-- A stopped step is charged and its record is written. -/
def State.stopRecord (s : State) (st : Step) (status : Half) : State :=
  (s.chargeStop st).writeRecord st (s.stopStatus st status) false s.stepEnergy.1

theorem State.recordStop_eq (s : State) (st : Step) (status : Half) : s.recordStop st status =
    if st.recorded then s else if s.stopStatus st status = 0x000B then (s.stopRecord st status).ringError st.window (s.stopStatus st status) false
      else s.stopRecord st status := rfl

theorem State.chargeStop_recordOnly (s : State) (st : Step) : RecordOnly s (s.chargeStop st) := by
  refine ⟨rfl, fun c => ?_, .of_eq rfl⟩
  have hctx : (s.chargeStop st).ctx c = if c = st.ctx then (s.ctx st.ctx).takeAccount st s.stepEnergy.1 else s.ctx c :=
    State.ctx_modCtx _ _ _ _
  rw [hctx]
  split
  · next h => rw [h]; rfl
  · rfl

/-- The record of a step whose context is frozen is written, and stops the window's rings. -/
theorem State.recordStop_recordOnly (s : State) (st : Step) (status : Half) : RecordOnly s (s.recordStop st status) := by
  have hwritten : RecordOnly s (s.stopRecord st status) := (s.chargeStop_recordOnly st).trans (State.writeRecord_recordOnly _ st _ _)
  rw [State.recordStop_eq]
  split_ifs
  · exact .refl s
  · exact hwritten.trans (State.ringError_recordOnly _ _ _ _)
  · exact hwritten

theorem State.unregister_recordOnly (s : State) (c : Nat) : RecordOnly s (s.unregister c) := by
  have hkvs : RecordOnly s (s.unregisterKvs c) :=
    List.foldlRecOn (motive := RecordOnly s) (List.range 8) _ (.refl s) fun t ht h _ => ht.trans ⟨rfl, fun _ => rfl, .of_eq rfl⟩
  exact hkvs.trans ⟨rfl, fun _ => rfl, .of_eq rfl⟩

theorem RecordOnly.panel (h : RecordOnly s t) (k : Nat) : t.panel k = s.panel k := by rw [State.panel, h.frame, State.panel]

end

end Sys2Proof.Machine
end

section
/-! PROOFS. Freeze records, claims and watchdogs (16 R419 to R421). -/

namespace Sys2Proof.Machine

section
variable (s : State)

theorem exec_relFrzPop (v : W32) : exec (.relFrzPop v) s = execRelFrzPop v s := rfl
theorem exec_claimWindowExpiry (c : Nat) : exec (.claimWindowExpiry c) s = execClaimWindowExpiry c s := rfl
theorem exec_rstRecover (v : W32) : exec (.rstRecover v) s = execRstRecover v s := rfl
theorem exec_rstClaim (v : W32) : exec (.rstClaim v) s = execRstClaim v s := rfl
theorem exec_watchdogExpiry (k : Nat) : exec (.watchdogExpiry k) s = execWatchdogExpiry k s := rfl
theorem exec_haltWatchdogExpiry (k : Nat) : exec (.haltWatchdogExpiry k) s = execHaltWatchdogExpiry k s := rfl

/-! ### Recoveries that are asked for (R420, R422) -/

/-- A recovery of a bound context that has none ends its claim window and waits for a place. -/
theorem State.requestRecovery_asks {c : Nat} (hbound : (s.ctx c).bound = true) (hnone : (s.ctx c).recovering = false) (code : Half)
    (claimed : Bool) : let t := s.requestRecovery c code claimed
    (t.ctx c).recovering = true ∧ (t.ctx c).claimOpen = false ∧ (∀ i, i ≠ c → t.ctx i = s.ctx i) ∧
      (∃ r, t.rel.queued = s.rel.queued ++ [r] ∧ r.ctx = c ∧ r.code = code) ∧ t.cores = s.cores := by
  have heq : s.requestRecovery c code claimed =
      let u := s.modCtx c fun x => { x with recovering := true, claimOpen := false, claimed := false }
      { u with rel := { u.rel with queued := u.rel.queued ++ [{ ctx := c, code := code, claimed := claimed }] } } := by
    rw [State.requestRecovery, hbound, hnone]
    rfl
  have hctx (i : Nat) : (s.requestRecovery c code claimed).ctx i =
      if i = c then { s.ctx c with recovering := true, claimOpen := false, claimed := false } else s.ctx i := by
    rw [heq]
    exact State.ctx_modCtx _ _ _ _
  refine ⟨?_, ?_, fun i hi => ?_, ⟨{ ctx := c, code := code, claimed := claimed }, by rw [heq]; rfl, rfl, rfl⟩, by rw [heq]; rfl⟩
  · rw [hctx, if_pos rfl]
  · rw [hctx, if_pos rfl]
  · rw [hctx, if_neg hi]

/-- A claim window that ends asks for the recovery. -/
theorem claimWindowExpiry_eq {c : Nat} (hon : s.islandOn 251 = true) (hopen : (s.ctx c).claimOpen = true) :
    exec (.claimWindowExpiry c) s = .next (s.requestRecovery c (s.ctx c).claimCode false) := by
  rw [exec_claimWindowExpiry, execClaimWindowExpiry, if_pos (by simp [hon, hopen])]

section
variable {s} {v : W32} (hbar : s.barOpen 0 = true) (hwait : s.hostWaits = false) (hruns : s.runsFree 251 = true)
  (hgo : bitAt v.toNat 10 = true)
include hbar hwait hruns hgo

/-- A PF write asks for the recovery of a context. -/
theorem rstRecover_eq : exec (.rstRecover v) s = .next (s.commandRecovery (v.toNat % 1024)) := by
  rw [exec_rstRecover, execRstRecover, State.hostTo_runs _ _ hwait (State.runsFree_of_barOpen hbar) (by simp [hruns]), hbar, hgo]
  rfl

/-- A claim without an open window is reported. -/
theorem rstClaim_late (hclosed : (s.ctx (v.toNat % 1024)).claimOpen = false) : exec (.rstClaim v) s = .next (s.event 0x8812) := by
  rw [exec_rstClaim, execRstClaim, State.hostTo_runs _ _ hwait (State.runsFree_of_barOpen hbar) (by simp [hruns])]
  dsimp only
  rw [hbar, hgo, hclosed]
  rfl

/-- The context of a claim within its window. -/
def State.claimCtx (s : State) (c : Nat) : State := s.modCtx c fun y => { y with claimOpen := false, claimed := true }

/-- A claim within its window takes the context. -/
theorem rstClaim_takes (hopen : (s.ctx (v.toNat % 1024)).claimOpen = true) (hus : (s.ctx (v.toNat % 1024)).f.claimUs ≠ 0) :
    exec (.rstClaim v) s =
      .next (((s.claimCtx (v.toNat % 1024)).recordClaimed (v.toNat % 1024)).count (rstReg 0x110) 1) := by
  rw [exec_rstClaim, execRstClaim, State.hostTo_runs _ _ hwait (State.runsFree_of_barOpen hbar) (by simp [hruns])]
  dsimp only
  rw [hbar, hgo, hopen, if_neg (by simp), if_neg (by simpa using hus)]
  rfl

end

/-! ### What a claim records (R420, 12 R314) -/

/-- The records of the running steps of a claimed context. -/
def State.claimRecords (s : State) (c : Nat) : State :=
  (s.runningOf c).foldl (fun s (x : Nat × Step) =>
    if x.2.isComp then s else (s.recordStop (x.2.addBusy (s.busySums x.1)) 0x000B).unregister c) s

theorem State.recordClaimed_eq (c : Nat) :
    s.recordClaimed c = (s.claimRecords c).modRunningOf c fun st => if st.isComp then st else { st with recorded := true } := rfl

theorem State.claimRecords_only (c : Nat) : RecordOnly s (s.claimRecords c) := by
  refine List.foldlRecOn (motive := RecordOnly s) _ _ (.refl s) fun t ht x _ => ?_
  split
  · exact ht
  · exact (ht.trans (State.recordStop_recordOnly _ _ _)).trans (State.unregister_recordOnly _ _)

/-- The running step of a panel after a change of the running steps of a context. -/
theorem State.running_modRunningOf (c : Nat) (f : Step → Step) (k : Nat) : ((s.modRunningOf c f).panel k).running =
    (s.panel k).running.map fun st => if st.ctx = c then f st else st := by
  have hfind : Tab.find (s.modRunningOf c f).cmd.panels k = (Tab.find s.cmd.panels k).map fun pn => { pn with
      running := pn.running.map fun st => if st.ctx = c then f st else st } :=
    Tab.find_map_val s.cmd.panels (fun _ (pn : Panel) =>
      ({ pn with running := pn.running.map fun (st : Step) => if st.ctx = c then f st else st } : Panel)) k
  rw [State.panel, Tab.get, hfind, State.panel, Tab.get]
  cases Tab.find s.cmd.panels k <;> rfl

/-- What a claim that is taken leaves (R420). -/
theorem State.claim_spec (c : Nat) : let t := ((s.claimCtx c).recordClaimed c).count (rstReg 0x110) 1
    (t.ctx c).claimed = true ∧ (t.ctx c).claimOpen = false ∧ t.counter (rstReg 0x110) = s.counter (rstReg 0x110) + 1 ∧
      t.cores = s.cores ∧ t.rel = s.rel ∧
      ∀ k st, (s.panel k).running = some st → st.ctx = c → st.isComp = false →
        (t.panel k).running = some { st with recorded := true } := by
  intro t
  have honly := (s.claimCtx c).claimRecords_only c
  have hctx : t.ctx c = ((s.claimCtx c).claimRecords c).ctx c := rfl
  have hclaimed : (s.claimCtx c).ctx c = { s.ctx c with claimOpen := false, claimed := true } :=
    (State.ctx_modCtx _ _ _ _).trans (if_pos rfl)
  have hfree : NoRecordReg (rstReg 0x110) := by unfold NoRecordReg; decide
  refine ⟨?_, ?_, ?_, ?_, ?_, fun k st hrun hst hcomp => ?_⟩
  · rw [hctx, honly.ctx, hclaimed]
  · rw [hctx, honly.ctx, hclaimed]
  · have hcount : t.counter (rstReg 0x110) = ((s.claimCtx c).claimRecords c).counter (rstReg 0x110) + 1 :=
      (State.counter_count _ _ _ _).trans (if_pos rfl)
    rw [hcount, honly.counters _ hfree]
    rfl
  · have hcores : t.cores = ((s.claimCtx c).claimRecords c).cores := rfl
    rw [hcores, honly.frame]
    rfl
  · have hrel : t.rel = ((s.claimCtx c).claimRecords c).rel := rfl
    rw [hrel, honly.frame]
    rfl
  · have hpanel : t.panel k = ((s.claimCtx c).recordClaimed c).panel k := rfl
    have hsame : ((s.claimCtx c).claimRecords c).panel k = s.panel k := honly.panel k
    rw [hpanel, State.recordClaimed_eq, State.running_modRunningOf, hsame, hrun]
    simp [hst, hcomp]

/-! ### Watchdogs (R421) -/

/-- A panel that is stopped has every core frozen. -/
theorem State.stopPanel_stops (k : Nat) :
    (∀ p, (s.stopPanel k).core p = if p ∈ s.panelCores k then
      { s.core p with seq := { (s.core p).seq with state := .frozen, held := none } } else s.core p) ∧
    s.stopPanel k = { s with cores := (s.stopPanel k).cores } :=
  State.foldl_modCore s (f := fun c => { c with seq := { c.seq with state := .frozen, held := none } }) (fun _ => rfl) (s.panelCores k)

/-- A watchdog that fires freezes its panel's cores, posts its record and opens the claim window of the context. -/
theorem State.watchdogFires_spec {k code : Nat} {st : Step} (hwatched : s.watched st = true) (hroom : s.rel.frozen.length < 128) :
    let t := s.watchdogFires k code st
    (∀ p ∈ s.panelCores k, (t.core p).seq.state = .frozen) ∧ (∀ p, p ∉ s.panelCores k → t.core p = s.core p) ∧
      t.rel.frozen = placeFreeze s.rel.frozen { time := s.clk.now, subsystem := 17, master := k, code := BitVec.ofNat 16 code,
                                                ctx := st.ctx, gen := (s.ctx st.ctx).gen, ctxValid := true } ∧
      (t.ctx st.ctx).claimOpen = true ∧ countersMoved [(rstReg 0x108, 1)] s t := by
  intro t
  obtain ⟨hcore, hframe⟩ := s.stopPanel_stops k
  simp only [State.watched, Bool.and_eq_true, Bool.not_eq_true'] at hwatched
  obtain ⟨⟨⟨-, hopen⟩, hclaimed⟩, hrecovering⟩ := hwatched
  have hroom' : (s.stopPanel k).rel.frozen.length < 128 := by rw [hframe]; exact hroom
  have hpost := State.core_postFreeze (s.stopPanel k) 17 k code
  have hrel := State.rel_postFreeze (s.stopPanel k) 17 k code st.ctx (s.ctx st.ctx).gen hroom'
  have hctx := State.ctx_postFreeze (s.stopPanel k) 17 k code st.ctx (s.ctx st.ctx).gen st.ctx
  have hcounters : (((s.stopPanel k).postFreeze 17 k code (some (st.ctx, (s.ctx st.ctx).gen)))).counters = s.counters := by
    rw [State.postFreeze, if_pos hroom', hframe]
    rfl
  have hcoreAt (p : Nat) : t.core p = (s.stopPanel k).core p := hpost p _
  refine ⟨fun p hp => ?_, fun p hp => ?_, ?_, ?_, fun j => ?_⟩
  · rw [hcoreAt, hcore, if_pos hp]
  · rw [hcoreAt, hcore, if_neg hp]
  · have hfrozen : t.rel.frozen = ((s.stopPanel k).postFreeze 17 k code (some (st.ctx, (s.ctx st.ctx).gen))).rel.frozen := rfl
    rw [hfrozen, hrel, hframe]
  · have hctxAt : t.ctx st.ctx = ((s.stopPanel k).postFreeze 17 k code (some (st.ctx, (s.ctx st.ctx).gen))).ctx st.ctx := rfl
    have hsame : (s.stopPanel k).ctx st.ctx = s.ctx st.ctx := by rw [hframe]; rfl
    rw [hctxAt, hctx, if_pos rfl, hsame, Ctx.openClaim, hopen, hclaimed, hrecovering]
    rfl
  · have hmoved := countersMoved_count ((s.stopPanel k).postFreeze 17 k code (some (st.ctx, (s.ctx st.ctx).gen))) (rstReg 0x108) 1 j
    have hbefore : ((s.stopPanel k).postFreeze 17 k code (some (st.ctx, (s.ctx st.ctx).gen))).counter j = s.counter j := by
      rw [State.counter, hcounters, State.counter]
    rw [hbefore] at hmoved
    exact hmoved

end

/-- Settles O41: each command by its own lemma; the records that a claim writes leave the rest alone (`RecordOnly`). -/
theorem claimsAndWatchdogs : Obligations.ClaimsAndWatchdogs := by
  unfold Obligations.ClaimsAndWatchdogs
  intro s asks
  refine ⟨fun v hbar hwait hruns hgo r rest hfrozen => ?pop, fun c hon hopen hbound hnone =>
      ⟨_, claimWindowExpiry_eq s hon hopen, s.requestRecovery_asks hbound hnone _ _⟩, fun v hbar hwait hruns hgo => ⟨fun hbound hnone hclaimed
      hclosed => ⟨_, rstRecover_eq hbar hwait hruns hgo, ?recover⟩, fun hopen hus => ⟨_, rstClaim_takes hbar hwait hruns hgo hopen hus,
      s.claim_spec _⟩, fun hclosed => rstClaim_late hbar hwait hruns hgo hclosed⟩, fun k st hrun hwatched hroom => ⟨fun hnone hdue =>
      ⟨_, ?watchdog, s.watchdogFires_spec hwatched hroom⟩, fun h hhalt hdue => ⟨_, ?haltWatchdog, s.watchdogFires_spec hwatched hroom⟩⟩⟩
  case pop =>
    rw [exec_relFrzPop, execRelFrzPop, State.hostTo_runs _ _ hwait (State.runsFree_of_barOpen hbar) (by simp [hruns])]
    dsimp only
    rw [hbar, hgo, hfrozen]
    rfl
  case recover =>
    rw [State.commandRecovery, if_neg (by simp [hclaimed, hclosed])]
    exact s.requestRecovery_asks hbound hnone _ _
  case watchdog =>
    rw [exec_watchdogExpiry, execWatchdogExpiry]
    simp only [hrun]
    rw [if_pos (by simp [hwatched, hnone, hdue])]
  case haltWatchdog =>
    rw [exec_haltWatchdogExpiry, execHaltWatchdogExpiry]
    simp only [hrun, hhalt]
    rw [if_pos (by simp [hwatched, hdue])]

end Sys2Proof.Machine
end

section
/-! PROOFS. Translations that are dropped, and what that leaves alone (09 R241). -/

namespace Sys2Proof.Machine

/-- From s to t translations were dropped: translation caches, the walker, windows, the log, counters, free values and what is out changed,
and nothing else. -/
structure DropsTranslations (s t : State) : Prop where
  frame : t = { s with
    cores := t.cores, walker := t.walker, cmd := { s.cmd with windows := t.cmd.windows }, mgt := t.mgt, counters := t.counters,
    draws := t.draws, out := t.out }
  core (p : Nat) : t.core p = { s.core p with tc := (t.core p).tc }

section
variable {s t u : State}

theorem DropsTranslations.refl (s : State) : DropsTranslations s s := ⟨rfl, fun _ => rfl⟩

theorem DropsTranslations.trans (h : DropsTranslations s t) (k : DropsTranslations t u) : DropsTranslations s u :=
  ⟨by rw [k.frame, h.frame], fun p => by rw [k.core, h.core]⟩

theorem DropsTranslations.foldl {α : Type} {g : State → α → State} (h : ∀ s a, DropsTranslations s (g s a)) (l : List α) (s : State) :
    DropsTranslations s (l.foldl g s) :=
  List.foldlRecOn (motive := DropsTranslations s) l g (.refl s) fun t ht a _ => ht.trans (h t a)

theorem DropsTranslations.modTc (s : State) (p : Nat) (f : Core → TransCache) :
    DropsTranslations s (s.modCore p fun c => { c with tc := f c }) := by
  refine ⟨rfl, fun q => ?_⟩
  rw [State.core_modCore]
  split_ifs with h
  · rw [h]
  · rfl

theorem State.invCore_drops (s : State) (v : Inv) (p : Nat) : DropsTranslations s (s.invCore v p) := by
  unfold State.invCore
  dsimp only
  split_ifs
  · exact .refl s
  · exact (DropsTranslations.modTc s p _).trans ⟨rfl, fun _ => rfl⟩

theorem State.invApply_drops (s : State) (v : Inv) : DropsTranslations s (s.invApply v) :=
  .trans (.foldl (fun s p => s.invCore_drops v p) _ s) ⟨rfl, fun _ => rfl⟩

theorem State.invMark_drops (s : State) (v : Inv) (redo : Bool) : DropsTranslations s (s.invMark v redo) :=
  .foldl (fun s p => .modTc s p _) _ s

theorem State.endPacket_drops (s : State) (k : Nat) (service : Bool) (p : Packet) (status : Half) (done : Nat) :
    DropsTranslations s (s.endPacket k service p status done) := by
  have hframe := (s.endPacket_only k service p status done).frame
  exact ⟨by rw [hframe]; rfl, fun q => by rw [hframe]; rfl⟩

theorem State.invEnd_drops (s : State) (v : Inv) : DropsTranslations s (s.invEnd v) := by
  have h := (s.invApply_drops v).trans (State.invMark_drops _ v false)
  unfold State.invEnd
  dsimp only
  split
  · exact h.trans ⟨rfl, fun _ => rfl⟩
  · exact h
  · split
    · exact h.trans (State.endPacket_drops _ _ _ _ _ _)
    · exact h

theorem State.invNow_drops (s : State) (scope ctx pages page : Nat) : DropsTranslations s (s.invNow scope ctx pages page) := by
  have hfresh : DropsTranslations s { s with walker := { s.walker with running := none, queue := [] } } := ⟨rfl, fun _ => rfl⟩
  have hdrain : DropsTranslations s s.invDrain := hfresh.trans (.foldl State.invEnd_drops _ _)
  exact hdrain.trans (State.invApply_drops _ _)

end

/-- A destroyed context leaves the recoveries alone. -/
theorem State.destroyCtx_rel (s : State) (c : Nat) : (s.destroyCtx c).rel = s.rel := by
  by_cases hbound : (s.ctx c).bound = true
  · have heq : (s.destroyCtx c).rel = (((s.unbindWindow c).unregister c).invNow 1 c 0 0).rel := by
      simp only [State.destroyCtx, hbound, Bool.not_true, Bool.false_eq_true, if_false]
      rfl
    rw [heq, (State.invNow_drops _ 1 c 0 0).frame, (State.unregister_recordOnly _ c).frame]
    rfl
  · simp [State.destroyCtx, hbound]

/-- A context that is destroyed is that of a fresh entry but for its tags. -/
theorem State.destroyCtx_ctx {s : State} {c : Nat} (hbound : (s.ctx c).bound = true) :
    (s.destroyCtx c).ctx c = { gen := (s.ctx c).gen, genUsed := (s.ctx c).genUsed } := by
  obtain ⟨u, -, hcmd⟩ := State.destroyCtx_cmd hbound
  rw [State.ctx, hcmd]
  exact Tab.get_set_self _ _ _ _

end Sys2Proof.Machine
end

section
/-! PROOFS. Recoveries of contexts (16 R422 to R424). -/

namespace Sys2Proof.Machine

section
variable (s : State)

theorem exec_contextRecovery (c : Nat) : exec (.contextRecovery c) s = execContextRecovery c s := rfl
theorem exec_recoveryDrainTimeout (c : Nat) : exec (.recoveryDrainTimeout c) s = execRecoveryDrainTimeout c s := rfl
theorem exec_tagReuseWaitExpiry (c : Nat) : exec (.tagReuseWaitExpiry c) s = execTagReuseWaitExpiry c s := rfl

/-! ### The end of a recovery (phases 4 to 6) -/

/-- The context of a recovery is out of it, and the recovery record names it. -/
structure Recovered (c : Nat) (r : Recovery) (t : State) : Prop where
  recovering : (t.ctx c).recovering = false
  claimed : (t.ctx c).claimed = false
  claimOpen : (t.ctx c).claimOpen = false
  root : (t.ctx c).f.root = 0
  moved : (t.ctx c).moved = []
  running : ∀ x ∈ t.rel.running, x.ctx ≠ c
  recCtx : t.rel.recCtx = c
  recCode : t.rel.recCode = r.code
  recClaimed : t.rel.recClaimed = r.claimed

/-- Phase 4 and the first part of phase 5: the context's steps end, its translations are dropped, its sessions revoked. -/
def State.clearRecovered (s : State) (r : Recovery) : State :=
  (((((s.killWhere (fun st => decide (st.ctx = r.ctx)) 0x000B).withdrawWhere (fun st => decide (st.ctx = r.ctx)) 0x000B).dropPackets r.ctx
    0x000B).dropSwitched r.ctx).invNow 1 r.ctx 0 0).revokeSessions r.ctx

/-- Phase 6: the context's entry is closed and the recovery record is written. -/
def State.closeRecovered (s : State) (r : Recovery) : State :=
  let old := (s.ctx r.ctx).f.root
  let t := s.modCtx r.ctx fun x => { x with
    f := { x.f with root := 0 }, moved := [], recovering := false, claimed := false, claimOpen := false }
  ({ t with rel := { t.rel with
      running := t.rel.running.filter fun x => decide (x.ctx ≠ r.ctx),
      recTime := t.clk.now, recCtx := r.ctx, recGen := (t.ctx r.ctx).gen, recCode := r.code, recClaimed := r.claimed,
      recOldRoot := BitVec.ofNat 64 (old.toNat / 256 % 2 ^ 40) } }.count (rstReg 0x100) 1).event 0x8810

theorem State.finishRecovery_eq (r : Recovery) : s.finishRecovery r =
    let t := (s.clearRecovered r).closeRecovered r
    if (t.ctx r.ctx).destroyWait then (t.destroyCtx r.ctx).mbxReply 0 else t := by
  unfold State.finishRecovery State.closeRecovered State.clearRecovered
  rfl

theorem State.closeRecovered_recovered (r : Recovery) : Recovered r.ctx r (s.closeRecovered r) := by
  have hctx : (s.closeRecovered r).ctx r.ctx = { s.ctx r.ctx with
      f := { (s.ctx r.ctx).f with root := 0 }, moved := [], recovering := false, claimed := false, claimOpen := false } :=
    (State.ctx_modCtx _ _ _ _).trans (if_pos rfl)
  refine ⟨by rw [hctx], by rw [hctx], by rw [hctx], by rw [hctx], by rw [hctx], fun x hx => ?_, rfl, rfl, rfl⟩
  exact of_decide_eq_true (List.mem_filter.mp hx).2

/-- A context that waited for its destruction is out of its recovery all the same. -/
theorem Recovered.destroyCtx {c : Nat} {r : Recovery} {t : State} (h : Recovered c r t) : Recovered c r (t.destroyCtx c) := by
  have hrel := t.destroyCtx_rel c
  by_cases hbound : (t.ctx c).bound = true
  · have hctx := State.destroyCtx_ctx hbound
    exact ⟨by rw [hctx], by rw [hctx], by rw [hctx], by rw [hctx], by rw [hctx], by rw [hrel]; exact h.running, by rw [hrel]; exact h.recCtx,
      by rw [hrel]; exact h.recCode, by rw [hrel]; exact h.recClaimed⟩
  · have hsame : t.destroyCtx c = t := by simp [State.destroyCtx, hbound]
    rwa [hsame]

theorem Recovered.mbxReply {c : Nat} {r : Recovery} {t : State} (h : Recovered c r t) (st : Half) (data : List Byte) :
    Recovered c r (t.mbxReply st data) := by
  obtain ⟨h1, h2, h3, h4, h5, h6, h7, h8, h9⟩ := h
  constructor <;> simpa using ‹_›

theorem State.finishRecovery_recovered (r : Recovery) : Recovered r.ctx r (s.finishRecovery r) := by
  have hclosed := State.closeRecovered_recovered (s.clearRecovered r) r
  rw [State.finishRecovery_eq]
  dsimp only
  split
  · exact hclosed.destroyCtx.mbxReply 0 []
  · exact hclosed

/-! ### The beginning of a recovery (phases 1 to 3) -/

/-- The keys of a table with one more entry. -/
theorem Tab.mem_keys_set {α : Type} (t : Tab α) (k j : Nat) (v : α) : j ∈ Tab.keys (Tab.set t k v) ↔ j = k ∨ j ∈ Tab.keys t := by
  induction t with
  | nil => simp [Tab.set, Tab.keys]
  | cons e rest ih =>
    simp only [Tab.set]
    split_ifs with heq hlt
    · simp [Tab.keys, heq]
    · simp [Tab.keys]
    · simp only [Tab.keys, List.map_cons, List.mem_cons] at ih ⊢
      rw [ih]
      tauto

/-- The panels have the same steps and cores, and the cores the same transactions. -/
structure SamePanels (s t : State) : Prop where
  panels : t.cmd.panels = s.cmd.panels
  listed (p : Nat) : p ∈ Tab.keys t.cores ↔ p ∈ Tab.keys s.cores
  panel (p : Nat) : (t.core p).panel = (s.core p).panel
  str (p : Nat) : (t.core p).str = (s.core p).str

section
variable {s}
variable {t u : State}

theorem SamePanels.refl (s : State) : SamePanels s s := ⟨rfl, fun _ => .rfl, fun _ => rfl, fun _ => rfl⟩

theorem SamePanels.trans (h : SamePanels s t) (k : SamePanels t u) : SamePanels s u :=
  ⟨k.panels.trans h.panels, fun p => (k.listed p).trans (h.listed p), fun p => (k.panel p).trans (h.panel p),
    fun p => (k.str p).trans (h.str p)⟩

theorem State.core_congr (hcores : t.cores = s.cores) (hpins : t.pins = s.pins) (p : Nat) : t.core p = s.core p := by
  rw [State.core, hcores, hpins, State.core]

theorem SamePanels.of_eq (hcmd : t.cmd.panels = s.cmd.panels) (hcores : t.cores = s.cores) (hpins : t.pins = s.pins) : SamePanels s t := by
  have hcore := State.core_congr hcores hpins
  exact ⟨hcmd, fun p => by rw [hcores], fun p => by rw [hcore], fun p => by rw [hcore]⟩

theorem SamePanels.mem_panelCores (h : SamePanels s t) (k p : Nat) : p ∈ t.panelCores k ↔ p ∈ s.panelCores k := by
  simp only [State.panelCores, List.mem_filter, h.listed, h.panel]

theorem SamePanels.runningOf (h : SamePanels s t) (c : Nat) : t.runningOf c = s.runningOf c := by
  simp only [State.runningOf, State.panel, h.panels]

theorem SamePanels.mustDrain (h : SamePanels s t) (c : Nat) : t.mustDrain c = s.mustDrain c := by
  rw [Bool.eq_iff_iff]
  simp only [State.mustDrain, h.runningOf, List.any_eq_true, h.mem_panelCores, h.str]

/-- A change of listed cores that leaves their panels and transactions. -/
theorem State.foldl_modCore_samePanels (s : State) {f : Core → Core} (hpanel : ∀ c, (f c).panel = c.panel) (hstr : ∀ c, (f c).str = c.str)
    (ps : List Nat) (hlisted : ∀ p ∈ ps, p ∈ Tab.keys s.cores) : SamePanels s (ps.foldl (fun (s : State) p => s.modCore p f) s) := by
  refine List.foldlRecOn (motive := SamePanels s) ps _ (.refl s) fun t ht p hp => ht.trans ⟨rfl, fun q => ?_, fun q => ?_, fun q => ?_⟩
  · have hkeys : q ∈ Tab.keys (t.modCore p f).cores ↔ q = p ∨ q ∈ Tab.keys t.cores := Tab.mem_keys_set _ _ _ _
    rw [hkeys]
    exact ⟨fun h => h.elim (fun he => he ▸ (ht.listed p).mpr (hlisted p hp)) id, Or.inr⟩
  · rw [State.core_modCore]
    split_ifs with h
    · rw [h, hpanel]
    · rfl
  · rw [State.core_modCore]
    split_ifs with h
    · rw [h, hstr]
    · rfl

end

/-- A slice whose resident is context c takes the context's new tag. -/
def Core.raiseTag (c : Nat) (old : BitVec 8) (x : Core) : Core :=
  { x with slice := if x.slice.resident.map Prod.fst = some c then { x.slice with resident := some (c, old + 1) } else x.slice }

theorem Core.raiseTag_twice (c : Nat) (old : BitVec 8) (x : Core) : (x.raiseTag c old).raiseTag c old = x.raiseTag c old := by
  unfold Core.raiseTag
  split_ifs <;> simp_all

/-- Phase 1: the tag is raised in the context's entry and in every slice that holds it. -/
theorem State.raiseTag_spec (c : Nat) : let t := s.raiseTag c
    SamePanels s t ∧ (t.ctx c).gen = (s.ctx c).gen + 1 ∧ t.rel = s.rel ∧
      ∀ p ∈ Tab.keys s.cores, t.core p = (s.core p).raiseTag c (s.ctx c).gen := by
  let old := (s.ctx c).gen
  let u := s.modCtx c fun x => { x with
    gen := old + 1, genUsed := (old, s.time) :: x.genUsed.filter fun u => decide (s.time < u.2 + 20000000) }
  have heq : s.raiseTag c = (Tab.keys u.cores).foldl (fun (s : State) p => s.modCore p (Core.raiseTag c old)) u := rfl
  obtain ⟨hcore, hframe⟩ := State.foldl_modCore u (Core.raiseTag_twice c old) (Tab.keys u.cores)
  rw [← heq] at hcore hframe
  have hctx : (s.raiseTag c).ctx c = u.ctx c := by rw [hframe]; rfl
  have hold : u.ctx c = _ := (State.ctx_modCtx s c c _).trans (if_pos rfl)
  refine ⟨?_, ?_, ?_, fun p hp => ?_⟩
  · exact SamePanels.trans (t := u) (.of_eq rfl rfl rfl)
      (heq ▸ u.foldl_modCore_samePanels (f := Core.raiseTag c old) (fun _ => rfl) (fun _ => rfl) _ fun _ h => h)
  · rw [hctx, hold]
  · rw [hframe]
    rfl
  · exact (hcore p).trans (if_pos hp)

theorem State.stopPanel_samePanels (k : Nat) : SamePanels s (s.stopPanel k) :=
  s.foldl_modCore_samePanels (f := fun c => { c with seq := { c.seq with state := .frozen, held := none } }) (fun _ => rfl) (fun _ => rfl) _
    fun _ hp => (List.mem_filter.mp hp).1

/-- Phase 2: the cores of several panels are stopped. -/
theorem State.foldl_stopPanel (l : List (Nat × Step)) : let t := l.foldl (fun (s : State) x => s.stopPanel x.1) s
    SamePanels s t ∧ t = { s with cores := t.cores } ∧ (∀ p, (t.core p).slice = (s.core p).slice) ∧
      (∀ p, (s.core p).seq.state = .frozen → (t.core p).seq.state = .frozen) ∧
      ∀ x ∈ l, ∀ p ∈ s.panelCores x.1, (t.core p).seq.state = .frozen := by
  induction l generalizing s with
  | nil => exact ⟨.refl s, rfl, fun _ => rfl, fun _ h => h, fun _ hx => absurd hx List.not_mem_nil⟩
  | cons x l ih =>
    obtain ⟨hcore, hframe⟩ := s.stopPanel_stops x.1
    obtain ⟨hsame, hrest, hslice, hfrozen, hstopped⟩ := ih (s.stopPanel x.1)
    have hfirst := s.stopPanel_samePanels x.1
    refine ⟨hfirst.trans hsame, ?_, fun p => ?_, fun p hp => hfrozen p ?_, fun y hy p hp => ?_⟩
    · rw [List.foldl_cons, hrest, hframe]
    · rw [List.foldl_cons, hslice, hcore]
      split_ifs <;> rfl
    · rw [hcore]
      split_ifs
      · rfl
      · exact hp
    · rcases List.mem_cons.mp hy with rfl | hy
      · refine hfrozen p ?_
        rw [hcore, if_pos hp]
      · exact hstopped y hy p ((hfirst.mem_panelCores y.1 p).mpr hp)

/-- Phase 3: the selectors, the exchange and the links lose the context's work; nothing else changes. -/
theorem State.cancelWork_frame (c : Nat) : let t := s.cancelWork c
    t = { s with kvs := t.kvs, edu := t.edu, lnk := t.lnk } := by
  have hreqs : s.cancelReqs c = { s with kvs := (s.cancelReqs c).kvs } :=
    List.foldlRecOn (motive := fun t : State => t = { s with kvs := t.kvs }) (List.range 8) _ rfl fun t ht h _ => by
      simp only [State.modSelector]
      rw [ht]
  have hdrop (u : State) : u.cancelTransfers c = { u with lnk := (u.cancelTransfers c).lnk } := by
    have hfold := List.foldlRecOn (motive := fun t : State => t = { u with lnk := t.lnk })
      (u.lnk.transfers.filter fun t => decide (t.ctx = c)) (fun s t => s.dropTransfer c t.slot) (b := u) rfl fun t ht x _ => by
        simp only [State.dropTransfer]
        rw [ht]
    unfold State.cancelTransfers
    dsimp only
    rw [hfold]
  intro t
  have heq : t = ((s.cancelReqs c).eduCancel c).cancelTransfers c := rfl
  rw [heq, hdrop, State.eduCancel, hreqs]

/-- Phases 1 to 3 of a recovery. -/
def State.stopRecovered (s : State) (c : Nat) : State :=
  (((s.raiseTag c).runningOf c).foldl (fun (s : State) (x : Nat × Step) => s.stopPanel x.1) (s.raiseTag c)).cancelWork c

/-- A recovery takes its place and drains. -/
def State.startDrain (s : State) (r : Recovery) : State :=
  { s with rel := { s.rel with
      running := s.rel.running.filter (fun x => decide (x.ctx ≠ r.ctx)) ++ [{ r with draining := true, tagWait := false }] } }

theorem State.startDrain_queued (r : Recovery) : (s.startDrain r).rel.queued = s.rel.queued := rfl
theorem State.startDrain_ctx (r : Recovery) (c : Nat) : (s.startDrain r).ctx c = s.ctx c := rfl
theorem State.startDrain_core (r : Recovery) (p : Nat) : (s.startDrain r).core p = s.core p := rfl

theorem State.startDrain_place (r : Recovery) : { r with draining := true, tagWait := false } ∈ (s.startDrain r).rel.running :=
  List.mem_append_right _ (List.mem_singleton_self _)

theorem State.beginRecovery_eq (r : Recovery) : s.beginRecovery r =
    if (s.stopRecovered r.ctx).mustDrain r.ctx then (s.stopRecovered r.ctx).startDrain r else (s.stopRecovered r.ctx).finishRecovery r := rfl

theorem State.stopRecovered_spec (c : Nat) : let t := s.stopRecovered c
    SamePanels s t ∧ (t.ctx c).gen = (s.ctx c).gen + 1 ∧ t.rel = s.rel ∧
      (∀ x ∈ s.runningOf c, ∀ p ∈ s.panelCores x.1, (t.core p).seq.state = .frozen) ∧
      ∀ p ∈ Tab.keys s.cores, (s.core p).slice.resident.map Prod.fst = some c → (t.core p).slice.resident = some (c, (s.ctx c).gen + 1) := by
  obtain ⟨hraised, hgen, hrel, hcore⟩ := s.raiseTag_spec c
  obtain ⟨hsame, hframe, hslice, -, hfrozen⟩ := (s.raiseTag c).foldl_stopPanel ((s.raiseTag c).runningOf c)
  have hcancel := State.cancelWork_frame (((s.raiseTag c).runningOf c).foldl (fun (s : State) x => s.stopPanel x.1) (s.raiseTag c)) c
  dsimp only at hcancel
  have hcores : (s.stopRecovered c).cores =
      (((s.raiseTag c).runningOf c).foldl (fun (s : State) x => s.stopPanel x.1) (s.raiseTag c)).cores := by
    rw [State.stopRecovered, hcancel]
  have hcmd : (s.stopRecovered c).cmd = (s.raiseTag c).cmd := by rw [State.stopRecovered, hcancel, hframe]
  have hpins : (s.stopRecovered c).pins =
      (((s.raiseTag c).runningOf c).foldl (fun (s : State) x => s.stopPanel x.1) (s.raiseTag c)).pins := by
    rw [State.stopRecovered, hcancel]
  have hcoreAt := State.core_congr hcores hpins
  refine ⟨(hraised.trans hsame).trans (.of_eq ?_ hcores hpins), ?_, ?_, fun x hx p hp => ?_, fun p hp hres => ?_⟩
  · rw [hcmd, hframe]
  · rw [State.ctx, hcmd]
    exact hgen
  · rw [State.stopRecovered, hcancel, hframe]
    exact hrel
  · rw [hcoreAt]
    exact hfrozen x ((hraised.runningOf c).symm ▸ hx) p ((hraised.mem_panelCores x.1 p).mpr hp)
  · rw [hcoreAt]
    refine (congrArg Slice.resident ((hslice p).trans (congrArg Core.slice (hcore p hp)))).trans ?_
    simp [Core.raiseTag, hres]

/-- A recovery that begins drains while transactions are in flight, and is over otherwise. -/
theorem State.beginRecovery_drains {r : Recovery} (hdrain : s.mustDrain r.ctx = true) : let t := s.beginRecovery r
    (t.ctx r.ctx).gen = (s.ctx r.ctx).gen + 1 ∧ t.rel.queued = s.rel.queued ∧
      (∃ x ∈ t.rel.running, x.ctx = r.ctx ∧ x.draining = true ∧ x.code = r.code) ∧
      (∀ x ∈ s.runningOf r.ctx, ∀ p ∈ s.panelCores x.1, (t.core p).seq.state = .frozen) ∧
      ∀ p, p ∈ Tab.keys s.cores → (s.core p).slice.resident.map Prod.fst = some r.ctx →
        (t.core p).slice.resident = some (r.ctx, (s.ctx r.ctx).gen + 1) := by
  obtain ⟨hsame, hgen, hrel, hfrozen, hresident⟩ := s.stopRecovered_spec r.ctx
  rw [(s.beginRecovery_eq r).trans (if_pos ((hsame.mustDrain _).trans hdrain))]
  refine ⟨?_, ?_, ⟨_, State.startDrain_place _ r, rfl, rfl, rfl⟩, fun x hx p hp => ?_, fun p hp hres => ?_⟩
  · rw [State.startDrain_ctx, hgen]
  · rw [State.startDrain_queued, hrel]
  · rw [State.startDrain_core, hfrozen x hx p hp]
  · rw [State.startDrain_core, hresident p hp hres]

theorem State.beginRecovery_recovered {r : Recovery} (hdrain : s.mustDrain r.ctx = false) : Recovered r.ctx r (s.beginRecovery r) := by
  have hsame := (s.stopRecovered_spec r.ctx).1
  have hmust : ¬ (s.stopRecovered r.ctx).mustDrain r.ctx = true := by simp [hsame.mustDrain, hdrain]
  rw [(s.beginRecovery_eq r).trans (if_neg hmust)]
  exact State.finishRecovery_recovered _ r

/-! ### The commands -/

/-- A recovery that drains ends at the next command for it. -/
theorem contextRecovery_drained {c : Nat} {r : Recovery} (hon : s.islandOn 251 = true)
    (hfind : s.rel.running.find? (fun x => decide (x.ctx = c)) = some r) (hdraining : r.draining = true) :
    exec (.contextRecovery c) s = .next (s.finishRecovery r) := by
  rw [exec_contextRecovery, execContextRecovery, hon, hfind]
  simp only [hdraining]
  rfl

/-- The first recovery that waits is taken from the queue. -/
def State.takeRecovery (s : State) (rest : List Recovery) : State := { s with rel := { s.rel with queued := rest } }

/-- A recovery that takes a place runs, unless its tag is still blocked. -/
theorem contextRecovery_takes {r : Recovery} {rest : List Recovery} (hon : s.islandOn 251 = true)
    (hfind : s.rel.running.find? (fun x => decide (x.ctx = r.ctx)) = none) (hqueued : s.rel.queued = r :: rest)
    (hroom : s.rel.running.length < 4) : exec (.contextRecovery r.ctx) s = .next (
      if s.tagBlocked r.ctx ((s.ctx r.ctx).gen + 1) then
        { s with rel := { s.rel with queued := rest, running := s.rel.running ++ [{ r with tagWait := true }] } }
      else (s.takeRecovery rest).beginRecovery r) := by
  rw [exec_contextRecovery, execContextRecovery, hon, hfind, hqueued]
  dsimp only
  rw [if_neg (by simp), if_neg (by simpa using hroom)]
  have hblocked : (s.takeRecovery rest).tagBlocked r.ctx (((s.takeRecovery rest).ctx r.ctx).gen + 1) =
      s.tagBlocked r.ctx ((s.ctx r.ctx).gen + 1) := rfl
  have hstate : ({ s with rel := { s.rel with queued := rest } } : State) = s.takeRecovery rest := rfl
  rw [hstate, hblocked]
  split_ifs <;> rfl

/-- A recovery whose tag is free leaves its place, to begin. -/
def State.leavePlace (s : State) (c : Nat) : State :=
  { s with rel := { s.rel with running := s.rel.running.filter fun x => decide (x.ctx ≠ c) } }

theorem tagReuseWaitExpiry_eq {c : Nat} {r : Recovery} (hon : s.islandOn 251 = true)
    (hfind : s.rel.running.find? (fun x => decide (x.ctx = c) && x.tagWait) = some r)
    (hfree : s.tagBlocked c ((s.ctx c).gen + 1) = false) :
    exec (.tagReuseWaitExpiry c) s = .next ((s.leavePlace c).beginRecovery { r with tagWait := false }) := by
  rw [exec_tagReuseWaitExpiry, execTagReuseWaitExpiry, hfind]
  simp only [hon, hfree]
  rfl

theorem recoveryDrainTimeout_eq {c : Nat} {r : Recovery} (hon : s.islandOn 251 = true)
    (hfind : s.rel.running.find? (fun x => decide (x.ctx = c) && x.draining) = some r) :
    exec (.recoveryDrainTimeout c) s = .next (s.finishRecovery r) := by
  rw [exec_recoveryDrainTimeout, execRecoveryDrainTimeout, hfind]
  simp only [hon]
  rfl

end

/-- Settles O42: the end of every recovery is `State.finishRecovery_recovered`, its beginning `State.beginRecovery_drains`. -/
theorem contextRecoveries : Obligations.ContextRecoveries := by
  unfold Obligations.ContextRecoveries
  intro s c r hon hrc done drains
  subst hrc
  have hdone {t : State} {q : Recovery} (h : Recovered r.ctx q t) (hcode : q.code = r.code) (hclaimed : q.claimed = r.claimed) : done t :=
    ⟨h.recovering, h.claimed, h.claimOpen, h.root, h.moved, h.running, h.recCtx, hcode ▸ h.recCode, hclaimed ▸ h.recClaimed⟩
  refine ⟨fun hfind hdraining => ⟨_, contextRecovery_drained s hon hfind hdraining, hdone (s.finishRecovery_recovered r) rfl rfl⟩,
    fun hfind => ⟨_, recoveryDrainTimeout_eq s hon hfind, hdone (s.finishRecovery_recovered r) rfl rfl⟩,
    fun rest hfind hqueued hroom => ⟨fun hblocked => ?blocked, fun hfree => ?free⟩, fun hfind hfree => ⟨fun hdrain => ?tagDrains, fun hdrain => ?tagDone⟩⟩
  case blocked =>
    rw [contextRecovery_takes s hon hfind hqueued hroom, hblocked]
    rfl
  case free =>
    have heq : exec (.contextRecovery r.ctx) s = .next ((s.takeRecovery rest).beginRecovery r) := by
      rw [contextRecovery_takes s hon hfind hqueued hroom, hfree]
      rfl
    refine ⟨fun hdrain => ?_, fun hdrain => ⟨_, heq, hdone ((s.takeRecovery rest).beginRecovery_recovered hdrain) rfl rfl⟩⟩
    obtain ⟨hgen, hrest, hdrains⟩ := (s.takeRecovery rest).beginRecovery_drains hdrain
    exact ⟨_, heq, hrest, hgen, hdrains⟩
  case tagDrains =>
    obtain ⟨hgen, -, hdrains⟩ := (s.leavePlace r.ctx).beginRecovery_drains (r := { r with tagWait := false }) hdrain
    exact ⟨_, tagReuseWaitExpiry_eq s hon hfind hfree, hgen, hdrains⟩
  case tagDone =>
    exact ⟨_, tagReuseWaitExpiry_eq s hon hfind hfree,
      hdone ((s.leavePlace r.ctx).beginRecovery_recovered (r := { r with tagWait := false }) hdrain) rfl rfl⟩

end Sys2Proof.Machine
end

section
/-! PROOFS. Cage grants and pre-ramps (15 R390, R399, R400). -/

namespace Sys2Proof.Machine

section
variable (s : State)

theorem exec_cageGrantRx (id w us : Nat) : exec (.cageGrantRx id w us) s = execCageGrantRx id w us s := rfl
theorem exec_grantLate : exec .grantLate s = execGrantLate s := rfl
theorem exec_grantValidExpiry : exec .grantValidExpiry s = execGrantValidExpiry s := rfl
theorem exec_preRampFallback (k : Nat) : exec (.preRampFallback k) s = execPreRampFallback k s := rfl

/-! ### Requests (R399) -/

/-- From s to t the governor's need of grants moved, with what went out. -/
def GrantsMove (s t : State) : Prop := t = { s with gov := t.gov, out := t.out }

section
variable {s}
variable {t u : State}

theorem GrantsMove.trans (h : GrantsMove s t) (k : GrantsMove t u) : GrantsMove s u := by
  unfold GrantsMove at *
  rw [k, h]

theorem State.sendRequest_of_nil (h : s.gov.waiting = []) : s.sendRequest = s := by
  rw [State.sendRequest, h]

theorem State.sendRequest_of_pending (h : s.gov.pendingW ≠ 0) : s.sendRequest = s := by
  unfold State.sendRequest
  split
  · rfl
  · rw [if_pos h]

/-- The request of the oldest need goes out, where none is out. -/
theorem State.sendRequest_sends {x : Nat × Nat} {rest : List (Nat × Nat)} (hwaiting : s.gov.waiting = x :: rest) (hnone : s.gov.pendingW = 0) :
    s.sendRequest = { s.emit (.grantRequest (s.gov.requestId + 1) x.2 false) with
      gov := { s.gov with pendingW := x.2, requestId := s.gov.requestId + 1, requestTime := s.time } } := by
  rw [State.sendRequest, hwaiting]
  exact if_neg (by simp [hnone])

/-- A request that is sent changes the request alone. -/
theorem State.sendRequest_frame (s : State) : s.sendRequest = { s with
    gov := { s.gov with
      pendingW := s.sendRequest.gov.pendingW, requestId := s.sendRequest.gov.requestId, requestTime := s.sendRequest.gov.requestTime }
    out := s.sendRequest.out } := by
  unfold State.sendRequest
  split
  · rfl
  · split <;> rfl

end

/-! ### Grants (R400) -/

/-- The state at a grant, before it is applied. -/
def State.takeGrant (s : State) (watts us : Nat) : State :=
  { s.count (govReg 0x140) 1 with gov := { s.gov with pendingW := 0, grantW := watts, grantUntil := s.time + us * 1000 } }

theorem cageGrantRx_eq (watts us : Nat) (hon : s.islandOn 244 = true) (hpending : s.gov.pendingW ≠ 0) :
    exec (.cageGrantRx s.gov.requestId watts us) s = .next (s.takeGrant watts us).applyGrant.sendRequest := by
  rw [exec_cageGrantRx, execCageGrantRx, if_neg (by simp [hon, hpending])]
  rfl

/-- A step that a grant lets go on. -/
def Step.grantAt (time key : Nat) (st : Step) : Step :=
  if st.needKey = key ∧ st.granted = false then
    { st with granted := true, grantUs := st.grantUs + (time - st.waitSince) / 1000 } else st

theorem Step.granted_grantAt {time key : Nat} {st : Step} (h : (st.grantAt time key).needKey = key) : (st.grantAt time key).granted = true := by
  unfold Step.grantAt at h ⊢
  split_ifs at h ⊢ with hst
  · rfl
  · by_contra hgranted
    exact hst ⟨h, by simpa using hgranted⟩

/-- A change of every step that waits. -/
def State.mapQueues (s : State) (f : Step → Step) : State :=
  { s with cmd := { s.cmd with panels := s.cmd.panels.map fun (e : Nat × Panel) => (e.1, { e.2 with queue := e.2.queue.map f }) } }

theorem State.panel_mapQueues (f : Step → Step) (k : Nat) :
    (s.mapQueues f).panel k = { s.panel k with queue := (s.panel k).queue.map f } := by
  have hfind : Tab.find (s.mapQueues f).cmd.panels k = (Tab.find s.cmd.panels k).map fun pn => { pn with queue := pn.queue.map f } :=
    Tab.find_map_val s.cmd.panels (fun _ (pn : Panel) => ({ pn with queue := pn.queue.map f } : Panel)) k
  rw [State.panel, Tab.get, hfind, State.panel, Tab.get]
  cases Tab.find s.cmd.panels k <;> rfl

/-- A grant ends the wait of the oldest need. -/
theorem State.applyGrant_eq {key w : Nat} {rest : List (Nat × Nat)} (hwaiting : s.gov.waiting = (key, w) :: rest) :
    s.applyGrant = ({ s with gov := { s.gov with waiting := rest } } : State).mapQueues (Step.grantAt s.time key) := by
  rw [State.applyGrant, hwaiting]
  rfl

/-- What a grant leaves (R400). -/
theorem State.takeGrant_spec {key w : Nat} {rest : List (Nat × Nat)} (watts us : Nat) (hwaiting : s.gov.waiting = (key, w) :: rest) :
    let t := (s.takeGrant watts us).applyGrant.sendRequest
    t.gov.grantW = watts ∧ t.gov.grantUntil = s.time + us * 1000 ∧ t.gov.waiting = rest ∧ countersMoved [(govReg 0x140, 1)] s t ∧
      (∀ k, ∀ st ∈ (t.panel k).queue, st.needKey = key → st.granted = true) ∧
      (rest = [] → t.gov.pendingW = 0 ∧ t.out = s.out) ∧
      (∀ x, rest.head? = some x → t.gov.pendingW = x.2 ∧ t.gov.requestId = s.gov.requestId + 1 ∧
        t.out = s.out ++ [.grantRequest (s.gov.requestId + 1) x.2 false]) := by
  have happly : (s.takeGrant watts us).applyGrant =
      ({ s.takeGrant watts us with gov := { (s.takeGrant watts us).gov with waiting := rest } } : State).mapQueues (Step.grantAt s.time key) :=
    State.applyGrant_eq _ hwaiting
  dsimp only
  rw [happly, State.sendRequest_frame]
  refine ⟨rfl, rfl, rfl, countersMoved_count s (govReg 0x140) 1, fun k st hst hkey => ?_, fun hnil => ?_, fun x hx => ?_⟩
  · have hqueue := congrArg Panel.queue (State.panel_mapQueues
      { s.takeGrant watts us with gov := { (s.takeGrant watts us).gov with waiting := rest } } (Step.grantAt s.time key) k)
    obtain ⟨old, -, rfl⟩ := List.mem_map.mp (hqueue ▸ hst :)
    exact Step.granted_grantAt hkey
  · rw [State.sendRequest_of_nil (by exact hnil)]
    exact ⟨rfl, rfl⟩
  · obtain ⟨rest', rfl⟩ := List.head?_eq_some_iff.mp hx
    rw [State.sendRequest_sends (x := x) (rest := rest') rfl rfl]
    exact ⟨rfl, rfl, rfl⟩

/-! ### A grant that lapses (R400) -/

/-- A step that a grant admitted, and that has not taken it up. -/
def Step.lapses (st : Step) : Bool := st.granted && decide (st.needW ≠ 0) && !st.prepared

/-- A step whose grant lapses waits again. -/
def Step.waitAgain (time : Nat) (st : Step) : Step := if st.lapses then { st with granted := false, waitSince := time } else st

theorem Step.waitAgain_granted {time : Nat} {st : Step} (h : (st.waitAgain time).granted = true) :
    (st.waitAgain time).needW = 0 ∨ (st.waitAgain time).prepared = true := by
  unfold Step.waitAgain at h ⊢
  split_ifs at h ⊢ with hlapses
  · simp [Step.lapses, h] at hlapses
    tauto

/-- The state after a lapse, before a request. -/
def State.lapseGrant (s : State) : State :=
  ({ s with gov := { s.gov with
      grantW := 0, waiting := s.gov.waiting ++ (s.cmd.panels.flatMap fun e => e.2.queue.filter Step.lapses).map fun st => (st.needKey, st.needW) }
      } : State).mapQueues (Step.waitAgain s.time)

theorem grantValidExpiry_eq (hon : s.islandOn 244 = true) (hgrant : s.gov.grantW ≠ 0) (hdue : s.gov.grantUntil ≤ s.time) :
    exec .grantValidExpiry s = .next s.lapseGrant.sendRequest := by
  rw [exec_grantValidExpiry, execGrantValidExpiry]
  dsimp only
  rw [if_neg (by simp [hon, hgrant, hdue])]
  rfl

theorem State.lapseGrant_panel (k : Nat) : s.lapseGrant.panel k = { s.panel k with queue := (s.panel k).queue.map (Step.waitAgain s.time) } :=
  State.panel_mapQueues _ _ _

/-! ### Needs that end (R311, R390) -/

theorem State.dropNeed_waiting (key : Nat) : (s.dropNeed key).gov.waiting = s.gov.waiting.filter (fun x => decide (x.1 ≠ key)) := by
  rw [State.dropNeed, State.sendRequest_frame]

theorem State.dropNeed_moves (key : Nat) : GrantsMove s (s.dropNeed key) := by
  unfold GrantsMove State.dropNeed
  dsimp only
  rw [State.sendRequest_frame]

/-- A need that ends changes the queue of needs and the request alone. -/
theorem State.dropNeed_frame (key : Nat) : (s.dropNeed key).gov = { s.gov with
    waiting := (s.dropNeed key).gov.waiting, pendingW := (s.dropNeed key).gov.pendingW, requestId := (s.dropNeed key).gov.requestId,
    requestTime := (s.dropNeed key).gov.requestTime } := by
  unfold State.dropNeed
  dsimp only
  rw [State.sendRequest_frame]

/-- Where the request of the need was out, the next need's goes out. -/
theorem State.dropNeed_next {key : Nat} (hfirst : s.gov.waiting.head?.map Prod.fst = some key) {x : Nat × Nat}
    (hnext : (s.dropNeed key).gov.waiting.head? = some x) : (s.dropNeed key).gov.pendingW = x.2 ∧
      (s.dropNeed key).out = s.out ++ [.grantRequest (s.gov.requestId + 1) x.2 false] := by
  rw [State.dropNeed_waiting] at hnext
  obtain ⟨rest, hrest⟩ := List.head?_eq_some_iff.mp hnext
  unfold State.dropNeed
  dsimp only
  rw [State.sendRequest_sends (x := x) (rest := rest) hrest (by simp [hfirst])]
  exact ⟨rfl, rfl⟩

/-- Another request that is out stays out. -/
theorem State.dropNeed_silent {key : Nat} (hother : s.gov.waiting.head?.map Prod.fst ≠ some key) (hpending : s.gov.pendingW ≠ 0) :
    (s.dropNeed key).out = s.out := by
  unfold State.dropNeed
  dsimp only
  rw [State.sendRequest_of_pending (by simpa [hother] using hpending)]

/-- A pre-ramp whose phase is late ends with its need. -/
theorem preRampFallback_eq {k : Nat} {h : Hint} (hon : s.islandOn 244 = true) (hhint : s.lastHint k = some h)
    (hramp : (Tab.find s.gov.preRamp k).isSome = true) (hphase : Tab.find s.gov.phaseOn k = none)
    (hrun : ∀ r, h.run = some r → r.start + 1000000 ≤ s.time) (hposted : h.run = none → h.posted + 1000000 ≤ s.time) :
    exec (.preRampFallback k) s =
      .next (({ s with gov := { s.gov with preRamp := Tab.erase s.gov.preRamp k } } : State).dropNeed (0x10000 + k)) := by
  rw [exec_preRampFallback, execPreRampFallback, hhint]
  cases hr : h.run with
  | none =>
    dsimp only
    simp only [hr]
    exact if_pos (by simp [hon, hramp, hphase, hposted hr])
  | some r =>
    dsimp only
    simp only [hr]
    exact if_pos (by simp [hon, hramp, hphase, hrun r hr])

end

/-- Settles O39: the commands by the lemmas above; the requests by `State.sendRequest_sends` and `State.dropNeed_next`. -/
theorem cageGrants : Obligations.CageGrants := by
  unfold Obligations.CageGrants
  intro s hon
  refine ⟨fun key w rest watts us hpending hwaiting => ⟨_, cageGrantRx_eq s watts us hon hpending, s.takeGrant_spec watts us hwaiting⟩,
    fun hpending hdue => ?late, fun hgrant hdue => ?lapse, fun k h hhint hramp hphase hrun hposted => ?fallback⟩
  case late =>
    rw [exec_grantLate, execGrantLate]
    dsimp only
    rw [if_pos (by simp [hon, hpending, hdue])]
    exact ⟨_, rfl, rfl, rfl, rfl⟩
  case lapse =>
    refine ⟨_, grantValidExpiry_eq s hon hgrant hdue, ?_⟩
    rw [State.sendRequest_frame]
    refine ⟨rfl, fun k st hst hgranted => ?_, fun k => (congrArg Panel.running (s.lapseGrant_panel k) :), rfl⟩
    obtain ⟨old, -, rfl⟩ := List.mem_map.mp (congrArg Panel.queue (s.lapseGrant_panel k) ▸ hst :)
    exact Step.waitAgain_granted hgranted
  case fallback =>
    let u : State := { s with gov := { s.gov with preRamp := Tab.erase s.gov.preRamp k } }
    have hgov := u.dropNeed_frame (0x10000 + k)
    refine ⟨_, preRampFallback_eq s hon hhint hramp hphase hrun hposted, ?_, fun j hj => ?_, u.dropNeed_waiting _,
      fun hfirst x hx => u.dropNeed_next hfirst hx, fun hother hp => u.dropNeed_silent hother hp, ?_⟩
    · rw [hgov]
      exact (Tab.find_erase _ _ _).trans (if_pos rfl)
    · rw [hgov]
      exact (Tab.find_erase _ _ _).trans (if_neg hj)
    · rw [u.dropNeed_moves (0x10000 + k)]

end Sys2Proof.Machine
end

section
/-! PROOFS. The governor's band and mode (15 R384, R385, R388). -/

namespace Sys2Proof.Machine

section
variable (s : State)

/-! ### A floor that is raised (R385) -/

/-- A raise of the floor without a need that waits, beyond what the allowance admits, or within it. -/
theorem State.raiseFloor_of_nil {floor : Nat} (hnil : s.gov.waiting = []) : s.raiseFloor floor =
    if floor - max s.gov.draw s.gov.floor = 0 ∨ s.gov.authority = 0 ∨ s.gov.authority = 3 then s
    else if floor - max s.gov.draw s.gov.floor ≤ s.allowance then s.takeRise (floor - max s.gov.draw s.gov.floor)
    else ({ s.takeRise s.allowance with
      gov := { (s.takeRise s.allowance).gov with floorWas := floor - (floor - max s.gov.draw s.gov.floor - s.allowance) } } : State).waitGrant
        floorKey (floor - max s.gov.draw s.gov.floor - s.allowance) := by
  have hdrop : s.dropNeed floorKey = s := by
    have hsame : ({ s with gov := { s.gov with waiting := [], pendingW := s.gov.pendingW } } : State) = s := by
      rw [← hnil]
    rw [State.dropNeed, hnil]
    exact hsame ▸ State.sendRequest_of_nil (by exact rfl)
  have hfloor : s.gov.floorNow = s.gov.floor := by rw [Gov.floorNow, hnil]; rfl
  rw [State.raiseFloor, hdrop, hfloor]

/-- From s to t the needs of grants moved, with the rises, the request and what went out. -/
structure NeedsMove (s t : State) : Prop where
  frame : t = { s with gov := t.gov, out := t.out }
  gov : t.gov = { s.gov with
    waiting := t.gov.waiting, pendingW := t.gov.pendingW, requestId := t.gov.requestId, requestTime := t.gov.requestTime,
    rises := t.gov.rises, floorWas := t.gov.floorWas }

section
variable {s}
variable {t u : State}

theorem NeedsMove.refl (s : State) : NeedsMove s s := ⟨rfl, rfl⟩

theorem NeedsMove.trans (h : NeedsMove s t) (k : NeedsMove t u) : NeedsMove s u :=
  ⟨by rw [k.frame, h.frame], by rw [k.gov, h.gov]⟩

theorem State.sendRequest_needs (s : State) : NeedsMove s s.sendRequest := by
  rw [State.sendRequest_frame]
  exact ⟨rfl, rfl⟩

theorem State.dropNeed_needs (s : State) (key : Nat) : NeedsMove s (s.dropNeed key) :=
  NeedsMove.trans (t := { s with gov := { s.gov with
    waiting := s.gov.waiting.filter (fun x => decide (x.1 ≠ key)),
    pendingW := if decide ((s.gov.waiting.head?.map Prod.fst) = some key) then 0 else s.gov.pendingW } }) ⟨rfl, rfl⟩ (State.sendRequest_needs _)

theorem State.waitGrant_needs (s : State) (key w : Nat) : NeedsMove s (s.waitGrant key w) :=
  NeedsMove.trans (t := { s with gov := { s.gov with waiting := s.gov.waiting ++ [(key, w)] } }) ⟨rfl, rfl⟩ (State.sendRequest_needs _)

theorem State.takeRise_eq (s : State) (w : Nat) : ∃ rises, s.takeRise w = { s with gov := { s.gov with rises := rises } } := by
  unfold State.takeRise
  split
  · exact ⟨s.gov.rises, rfl⟩
  · exact ⟨_, rfl⟩

theorem State.takeRise_needs (s : State) (w : Nat) : NeedsMove s (s.takeRise w) := by
  obtain ⟨rises, heq⟩ := s.takeRise_eq w
  rw [heq]
  exact ⟨rfl, rfl⟩

/-- The only need that waits is asked for. -/
theorem State.waitGrant_sends {s : State} (key w : Nat) (hnil : s.gov.waiting = []) (hnone : s.gov.pendingW = 0) : let t := s.waitGrant key w
    t.gov.waiting = [(key, w)] ∧ t.gov.pendingW = w ∧ t.gov.floorWas = s.gov.floorWas ∧
      t.out = s.out ++ [.grantRequest (s.gov.requestId + 1) w false] := by
  have hsend : s.waitGrant key w = _ :=
    State.sendRequest_sends (s := { s with gov := { s.gov with waiting := s.gov.waiting ++ [(key, w)] } }) (x := (key, w)) (rest := [])
      (by simp [hnil]) hnone
  rw [hsend]
  exact ⟨by simp [hnil], rfl, rfl, rfl⟩

/-- A raise of the floor moves the needs alone. -/
theorem State.raiseFloor_needs (s : State) (floor : Nat) : NeedsMove s (s.raiseFloor floor) := by
  have hdrop := s.dropNeed_needs floorKey
  have hwas (t : State) (n : Nat) : NeedsMove t { t with gov := { t.gov with floorWas := n } } := ⟨rfl, rfl⟩
  unfold State.raiseFloor
  dsimp only
  split_ifs
  · exact hdrop
  · exact hdrop.trans (State.takeRise_needs _ _)
  · exact hdrop.trans ((State.takeRise_needs _ _).trans ((hwas _ _).trans (State.waitGrant_needs _ _ _)))

end

/-! ### The writes (R384, R388) -/

/-- The band that a write sets. -/
def State.setBand (s : State) (cap floor ramp : Nat) : State := { s with gov := { s.gov with cap := cap, floor := floor, ramp := ramp } }

section
variable {s} {v : W32} (hbar : s.barOpen 0 = true) (hwait : s.hostWaits = false) (hruns : s.runsFree 244 = true)
  (hunlocked : s.locked 1 = false)
include hbar hwait hruns hunlocked

theorem govBandWrite_takes (hok : s.bandOk (bits v.toNat 10 0) (bits v.toNat 21 11) (bits v.toNat 28 22) = true) :
    exec (.govBandWrite v) s =
      .next ((s.raiseFloor (bits v.toNat 21 11)).setBand (bits v.toNat 10 0) (bits v.toNat 21 11) (bits v.toNat 28 22)) := by
  rw [exec_govBandWrite, execGovBandWrite, State.hostTo_runs _ _ hwait (State.runsFree_of_barOpen hbar) (by simp [hruns])]
  dsimp only
  rw [hbar, hunlocked, hok]
  rfl

theorem govBandWrite_refuses (hbad : s.bandOk (bits v.toNat 10 0) (bits v.toNat 21 11) (bits v.toNat 28 22) = false) :
    exec (.govBandWrite v) s = .next (s.event 0x6801) := by
  rw [exec_govBandWrite, execGovBandWrite, State.hostTo_runs _ _ hwait (State.runsFree_of_barOpen hbar) (by simp [hruns])]
  dsimp only
  rw [hbar, hunlocked, hbad]
  rfl

theorem govModeWrite_eq : exec (.govModeWrite v) s = .next (
    if !(List.range 4).all (fun d => (orderCodes (bits v.toNat 9 2)).contains d) then s.event 0x6801
    else { s with gov := { s.gov with learned := bitAt v.toNat 0, order := BitVec.ofNat 8 (bits v.toNat 9 2) } }) := by
  rw [exec_govModeWrite, execGovModeWrite, State.hostTo_runs _ _ hwait (State.runsFree_of_barOpen hbar) (by simp [hruns])]
  dsimp only
  rw [if_neg (by simp [hbar]), if_neg (by simp [hunlocked])]
  split_ifs <;> rfl

end

/-- A raise beyond the allowance asks for a grant (R385, R399). -/
theorem State.raiseFloor_asks {floor : Nat} (hnil : s.gov.waiting = []) (hnone : s.gov.pendingW = 0) (h0 : s.gov.authority ≠ 0)
    (h3 : s.gov.authority ≠ 3) (hbeyond : 0 < floor - max s.gov.draw s.gov.floor - s.allowance) : let t := s.raiseFloor floor
    let w := floor - max s.gov.draw s.gov.floor - s.allowance
    t.gov.waiting = [(floorKey, w)] ∧ t.gov.pendingW = w ∧ t.gov.floorWas = floor - w ∧
      t.out = s.out ++ [.grantRequest (s.gov.requestId + 1) w false] := by
  have hrise : ¬ (floor - max s.gov.draw s.gov.floor = 0 ∨ s.gov.authority = 0 ∨ s.gov.authority = 3) := by
    simp only [h0, h3, or_self, or_false]
    omega
  have hallow : ¬ floor - max s.gov.draw s.gov.floor ≤ s.allowance := by omega
  dsimp only
  obtain ⟨rises, hrises⟩ := s.takeRise_eq s.allowance
  rw [s.raiseFloor_of_nil hnil, if_neg hrise, if_neg hallow, hrises]
  exact State.waitGrant_sends floorKey _ hnil hnone

end

end Sys2Proof.Machine
end

section
/-! PROOFS. The governor's tick (15 R383 to R395, R410). -/

namespace Sys2Proof.Machine

section
variable (s : State)

theorem exec_governorTick (r : GovReading) : exec (.governorTick r) s = execGovernorTick r s := rfl

/-! ### What the parts of a tick leave alone -/

/-- What the readings and the registers set of a governor. -/
def Gov.shown (g : Gov) : Gov :=
  { ({} : Gov) with
    cap := g.cap, floor := g.floor, ramp := g.ramp, draw := g.draw, exempt := g.exempt, deadW := g.deadW, vinMv := g.vinMv,
    junction := g.junction, throttleL := g.throttleL, emergency := g.emergency, thermalHold := g.thermalHold }

/-- What is shown, and the energy that is not counted yet. -/
def Gov.readings (g : Gov) : Gov := { g.shown with energyAcc := g.energyAcc }

/-- The readings and the limits. -/
def Gov.limited (g : Gov) : Gov := { g.readings with limits := g.limits }

/-- The readings, the limits and the reasons. -/
def Gov.settled (g : Gov) : Gov := { g.limited with reasons := g.reasons }

/-- The governor's energy counter. -/
def IsEnergy (off : Nat) : Prop := off = govReg 0x128

/-- From s to t a part of a tick ran that leaves alone what `f` shows of the governor, the time, HBM, the energy counter, the admissions, and
which cores each panel has. -/
structure TickKeeps (f : Gov → Gov) (s t : State) : Prop where
  gov : f t.gov = f s.gov
  clk : t.clk = s.clk
  hbm : t.hbm = s.hbm
  energy : SameCounters IsEnergy s t
  admitted (k : Nat) : (t.panel k).admitted = (s.panel k).admitted
  listed (p : Nat) : p ∈ Tab.keys t.cores ↔ p ∈ Tab.keys s.cores
  corePanel (p : Nat) : (t.core p).panel = (s.core p).panel

section
variable {s}
variable {t u : State} {f : Gov → Gov}

theorem TickKeeps.refl (f : Gov → Gov) (s : State) : TickKeeps f s s := ⟨rfl, rfl, rfl, .refl _ s, fun _ => rfl, fun _ => .rfl, fun _ => rfl⟩

theorem TickKeeps.trans (h : TickKeeps f s t) (k : TickKeeps f t u) : TickKeeps f s u where
  gov := k.gov.trans h.gov
  clk := k.clk.trans h.clk
  hbm := k.hbm.trans h.hbm
  energy := h.energy.trans k.energy
  admitted i := (k.admitted i).trans (h.admitted i)
  listed p := (k.listed p).trans (h.listed p)
  corePanel p := (k.corePanel p).trans (h.corePanel p)

theorem TickKeeps.readings (h : TickKeeps Gov.settled s t) : TickKeeps Gov.readings s t :=
  { h with gov := (congrArg Gov.readings h.gov :) }

theorem TickKeeps.reasons (h : TickKeeps Gov.settled s t) : t.gov.reasons = s.gov.reasons := (congrArg Gov.reasons h.gov :)

theorem TickKeeps.limits (h : TickKeeps Gov.limited s t) : t.gov.limits = s.gov.limits := (congrArg Gov.limits h.gov :)

/-- The fields that are shown. -/
theorem Gov.shown_fields {g g' : Gov} (h : g'.shown = g.shown) :
    (g'.cap = g.cap ∧ g'.floor = g.floor ∧ g'.ramp = g.ramp) ∧
    (g'.draw = g.draw ∧ g'.exempt = g.exempt ∧ g'.deadW = g.deadW ∧ g'.vinMv = g.vinMv ∧ g'.junction = g.junction) ∧
    g'.throttleL = g.throttleL ∧ g'.emergency = g.emergency ∧ g'.thermalHold = g.thermalHold := by
  have field {α : Type} (f : Gov → α) : f g'.shown = f g.shown := congrArg f h
  exact ⟨⟨field Gov.cap, field Gov.floor, field Gov.ramp⟩, ⟨field Gov.draw, field Gov.exempt, field Gov.deadW, field Gov.vinMv, field Gov.junction⟩,
    field Gov.throttleL, field Gov.emergency, field Gov.thermalHold⟩

theorem TickKeeps.shown (h : TickKeeps Gov.readings s t) : t.gov.shown = s.gov.shown := (congrArg Gov.shown h.gov :)

theorem TickKeeps.energyAcc (h : TickKeeps Gov.readings s t) : t.gov.energyAcc = s.gov.energyAcc := (congrArg Gov.energyAcc h.gov :)

theorem TickKeeps.readingsOfLimited (h : TickKeeps Gov.limited s t) : TickKeeps Gov.readings s t :=
  { h with gov := (congrArg Gov.readings h.gov :) }

theorem TickKeeps.limited (h : TickKeeps Gov.settled s t) : TickKeeps Gov.limited s t :=
  { h with gov := (congrArg Gov.limited h.gov :) }

/-- A change of several listed cores that keeps their panels. -/
theorem State.foldl_modCore_keeps (s : State) {g : Core → Core} (hpanel : ∀ c, (g c).panel = c.panel) (hstr : ∀ c, (g c).str = c.str)
    (ps : List Nat) (hlisted : ∀ p ∈ ps, p ∈ Tab.keys s.cores) : TickKeeps f s (ps.foldl (fun (s : State) p => s.modCore p g) s) := by
  have hsame := s.foldl_modCore_samePanels hpanel hstr ps hlisted
  have hframe : ps.foldl (fun (s : State) p => s.modCore p g) s = { s with cores := (ps.foldl (fun (s : State) p => s.modCore p g) s).cores } :=
    List.foldlRecOn (motive := fun t : State => t = { s with cores := t.cores }) ps _ rfl fun t ht p _ => by
      rw [State.modCore, State.setCore, ht]
  exact ⟨by rw [hframe], by rw [hframe], by rw [hframe], .of_eq (by rw [hframe]), fun k => by rw [hframe]; rfl, hsame.listed, hsame.panel⟩

/-- A part that changes only the governor, and what it logs and sends. -/
theorem TickKeeps.of_gov (he : t = { s with gov := t.gov, mgt := t.mgt, draws := t.draws, out := t.out }) (hgov : f t.gov = f s.gov) :
    TickKeeps f s t := by
  refine ⟨hgov, by rw [he], by rw [he], .of_eq (by rw [he]), fun k => by rw [he]; rfl, fun p => by rw [he], fun p => by rw [he]; rfl⟩

theorem TickKeeps.count (h : TickKeeps f s t) {off : Nat} (hoff : off ≠ govReg 0x128) (n : Nat) : TickKeeps f s (t.count off n) :=
  h.trans { TickKeeps.refl f t with energy := (SameCounters.refl IsEnergy t).count (off := off) hoff n }

theorem TickKeeps.foldl {α : Type} {g : State → α → State} (l : List α) (h : ∀ s, ∀ a ∈ l, TickKeeps f s (g s a)) (s : State) :
    TickKeeps f s (l.foldl g s) :=
  List.foldlRecOn (motive := TickKeeps f s) l g (.refl f s) fun t ht a ha => ht.trans (h t a ha)

theorem TickKeeps.of_needs (h : NeedsMove s t) : TickKeeps Gov.settled s t :=
  .of_gov (by rw [h.frame]) (by rw [h.gov]; rfl)

end

theorem State.event_keeps (f : Gov → Gov) (code : Nat) : TickKeeps f s (s.event code) := .of_gov rfl rfl

theorem State.eventPerMs_keeps (f : Gov → Gov) (code : Nat) : TickKeeps f s (s.eventPerMs code) := by
  unfold State.eventPerMs
  dsimp only
  split
  · split
    · exact .refl f s
    · exact .of_gov rfl rfl
  · exact .of_gov rfl rfl

/-! ### Readings and thermal response (R383, R410) -/

/-- The governor of a tick's readings. -/
def Gov.readAt (g : Gov) (r : GovReading) : Gov :=
  { g with
    draw := r.draw, exempt := r.exempt, deadW := r.dead, vinMv := r.vinMv, junction := r.junction,
    throttleL := g.throttled r.junction, emergency := decide (100 < r.junction),
    thermalHold := if 105 ≤ r.junction then true else if r.junction < 100 then false else g.thermalHold }

/-- From s to t the governor is g, and the panels' admissions, the log, counters and free values moved. -/
structure ReadsTick (g : Gov) (s t : State) : Prop where
  frame : t = { s with gov := g, cmd := t.cmd, mgt := t.mgt, draws := t.draws, counters := t.counters }
  energy : SameCounters IsEnergy s t

theorem ReadsTick.fields {g : Gov} {s t : State} (h : ReadsTick g s t) : t.gov = g ∧ t.cores = s.cores ∧ t.pins = s.pins ∧ t.hbm = s.hbm :=
  ⟨by rw [h.frame], by rw [h.frame], by rw [h.frame], by rw [h.frame]⟩

theorem State.evalAdmission_reads (k : Nat) : ReadsTick s.gov s (s.evalAdmission k) := by
  have hother : ¬ IsEnergy (panelReg k 0x58) := by
    unfold IsEnergy panelReg govReg
    omega
  unfold State.evalAdmission
  dsimp only
  split
  · split <;> exact ⟨rfl, SameCounters.count (.of_eq rfl) hother 1⟩
  · exact ⟨rfl, .of_eq rfl⟩

theorem ReadsTick.foldl {α : Type} {g : State → α → State} (l : List α) (h : ∀ s a, ReadsTick s.gov s (g s a)) (s : State) :
    ReadsTick s.gov s (l.foldl g s) :=
  List.foldlRecOn (motive := ReadsTick s.gov s) l g ⟨rfl, .refl _ s⟩ fun t ht a _ => by
    have hstep := h t a
    have hgov : t.gov = s.gov := by rw [ht.frame]
    exact ⟨by rw [hstep.frame, hgov, ht.frame], ht.energy.trans hstep.energy⟩

/-- The thermal response sets the governor's thermal state and may log it. -/
theorem State.thermal_reads (j : Nat) : ReadsTick
    { s.gov with
      throttleL := s.gov.throttled j, emergency := decide (100 < j),
      thermalHold := if 105 ≤ j then true else if j < 100 then false else s.gov.thermalHold } s (s.thermal j) := by
  unfold State.thermal
  dsimp only
  split_ifs <;> exact ⟨rfl, .of_eq rfl⟩

theorem State.tickReadings_reads (r : GovReading) : ReadsTick (s.gov.readAt r) s (s.tickReadings r) := by
  let u : State := { s with gov := { s.gov with draw := r.draw, exempt := r.exempt, deadW := r.dead, vinMv := r.vinMv, junction := r.junction } }
  have hthermal := u.thermal_reads r.junction
  have hgov : (u.thermal r.junction).gov = s.gov.readAt r := by rw [hthermal.frame]; rfl
  have hfold := ReadsTick.foldl (u.thermal r.junction).panels State.evalAdmission_reads (u.thermal r.junction)
  have heq : s.tickReadings r = (u.thermal r.junction).panels.foldl (fun s k => s.evalAdmission k) (u.thermal r.junction) := rfl
  rw [heq]
  refine ⟨?_, ?_⟩
  · rw [hfold.frame, hgov, hthermal.frame]
  · exact (SameCounters.of_eq (s := s) (t := u) rfl).trans (hthermal.energy.trans hfold.energy)

/-! ### Energy (13 R352) -/

/-- A tick adds its draw to the energy counter. -/
theorem State.tickEnergy_counter (r : GovReading) :
    (s.tickEnergy r).counter (govReg 0x128) = s.counter (govReg 0x128) + BitVec.ofNat 64 ((s.gov.energyAcc + r.draw) / 100) := by
  unfold State.tickEnergy
  dsimp only
  rw [State.counter_count, if_neg (by decide), State.counter_count, if_neg (by decide), State.counter_count, if_pos rfl]
  rfl

/-- The energy is all that the energy of a tick moves. -/
theorem State.tickEnergy_frame (r : GovReading) : let t := s.tickEnergy r
    t.gov.shown = s.gov.shown ∧ t.gov.limits = s.gov.limits ∧ t.gov.reasons = s.gov.reasons ∧ t.cores = s.cores ∧ t.pins = s.pins ∧
      t.hbm = s.hbm := ⟨rfl, rfl, rfl, rfl, rfl, rfl⟩

/-! ### Phases and pre-ramps (R389, R390) -/

theorem State.phaseStep_keeps (k : Nat) : TickKeeps Gov.settled s (s.phaseStep k) := by
  have hend : TickKeeps Gov.settled s (match Tab.find s.gov.phaseOn k with
      | some r => if r.stop ≤ s.time ∨ (s.lastHint k).bind Hint.run ≠ some r then s.endPhase k r else s
      | none => s) := by
    split
    · split
      · exact .of_gov rfl rfl
      · exact .refl _ s
    · exact .refl _ s
  have hdrop (t : State) (key : Nat) : TickKeeps Gov.settled t (t.dropNeed key) := .of_needs (t.dropNeed_needs key)
  unfold State.phaseStep
  dsimp only
  split
  · split
    · refine hend.trans (.trans ?_ (hdrop _ _))
      exact .of_gov rfl rfl
    · exact hend
  · exact hend

theorem State.startPreRamp_keeps (k : Nat) : TickKeeps Gov.settled s (s.startPreRamp k) := by
  unfold State.startPreRamp
  split
  · exact .refl _ s
  · split
    · exact .refl _ s
    · split
      · exact .refl _ s
      · next e _ =>
        have hramp : TickKeeps Gov.settled s { s with gov := { s.gov with preRamp := Tab.set s.gov.preRamp k (e.draw - s.panelDraw k) } } :=
          .of_gov rfl rfl
        dsimp only
        split
        · exact .refl _ s
        · split
          · exact hramp
          · split
            · exact hramp.trans (.of_needs (State.takeRise_needs _ _))
            · exact hramp.trans (.of_needs ((State.takeRise_needs _ _).trans (State.waitGrant_needs _ _ _)))

theorem State.tickPhases_keeps : TickKeeps Gov.settled s s.tickPhases :=
  .foldl _ (fun s k _ => (s.phaseStep_keeps k).trans (State.startPreRamp_keeps _ k)) s

/-! ### Allocation (R388, R392, R394) -/

theorem State.releaseCores_keeps : TickKeeps Gov.settled s s.releaseCores := by
  unfold State.releaseCores
  dsimp only
  refine TickKeeps.trans (.foldl _ (fun s k _ => ?_) s) (.of_gov rfl rfl)
  split
  · split
    · exact .of_gov rfl rfl
    · exact .refl _ s
  · exact .of_gov rfl rfl

/-- The limits of a core after they are set. -/
def State.tickLimit (s : State) (g : Gives) (p : Nat) : Limit :=
  match (s.core p).panel with
  | some k => s.limitFor g p k
  | none => {}

/-- The limits of one core are set. -/
def State.setLimit (s : State) (g : Gives) (L : Tab Limit) (p : Nat) : Tab Limit :=
  match (s.core p).panel with
  | some k => Tab.set L p (s.limitFor g p k)
  | none => Tab.erase L p

theorem State.get_setLimit (g : Gives) (L : Tab Limit) (p q : Nat) :
    Tab.get {} (s.setLimit g L p) q = if q = p then s.tickLimit g p else Tab.get {} L q := by
  unfold State.setLimit State.tickLimit
  cases (s.core p).panel with
  | some k => exact Tab.get_set _ _ _ _ _
  | none =>
    simp only [Tab.get, Tab.find_erase]
    split_ifs <;> rfl

theorem State.get_foldl_setLimit (g : Gives) (ps : List Nat) (L : Tab Limit) (q : Nat) :
    Tab.get {} (ps.foldl (s.setLimit g) L) q = if q ∈ ps then s.tickLimit g q else Tab.get {} L q := by
  induction ps generalizing L with
  | nil => simp
  | cons p ps ih =>
    rw [List.foldl_cons, ih, State.get_setLimit]
    by_cases hq : q = p
    · simp [hq]
    · simp [hq]

/-- The limits of every core are those of its panel. -/
theorem State.setLimits_eq (g : Gives) : s.setLimits g =
    { s with gov := { s.gov with limits := (Tab.keys s.cores).foldl (s.setLimit g) s.gov.limits } } := by
  have hstep (ps : List Nat) (L : Tab Limit) : ps.foldl (fun (s : State) p =>
      match (s.core p).panel with
      | some k => { s with gov := { s.gov with limits := Tab.set s.gov.limits p (s.limitFor g p k) } }
      | none => { s with gov := { s.gov with limits := Tab.erase s.gov.limits p } }) { s with gov := { s.gov with limits := L } } =
        { s with gov := { s.gov with limits := ps.foldl (s.setLimit g) L } } := by
    induction ps generalizing L with
    | nil => rfl
    | cons p ps ih =>
      rw [List.foldl_cons, List.foldl_cons, ← ih]
      congr 1
      unfold State.setLimit
      have hcore : ({ s with gov := { s.gov with limits := L } } : State).core p = s.core p := rfl
      rw [hcore]
      cases (s.core p).panel <;> rfl
  exact hstep (Tab.keys s.cores) s.gov.limits

/-- Under the thermal hold every array is held without dead work, and otherwise the cores of admitted panels have no limit (R394, R410). -/
def State.LimitsHold (s : State) : Prop :=
  ∀ p ∈ Tab.keys s.cores, ∀ k, (s.core p).panel = some k →
    (s.gov.thermalHold = true → (Tab.get {} s.gov.limits p).hold = true ∧ (Tab.get {} s.gov.limits p).f = 0) ∧
    (s.gov.thermalHold = false → (s.panel k).admitted = true → Tab.get {} s.gov.limits p = {})

theorem State.tickEnergy_limits (r : GovReading) (h : s.LimitsHold) : (s.tickEnergy r).LimitsHold := h

theorem TickKeeps.limitsHold {s t : State} (h : TickKeeps Gov.limited s t) (hs : s.LimitsHold) : t.LimitsHold := by
  have hlimits : t.gov.limits = s.gov.limits := (congrArg Gov.limits h.gov :)
  have hhold : t.gov.thermalHold = s.gov.thermalHold := (congrArg Gov.thermalHold h.gov :)
  intro p hp k hk
  rw [hlimits, hhold, h.admitted]
  exact hs p ((h.listed p).mp hp) k ((h.corePanel p).symm.trans hk)

theorem State.setLimits_hold (g : Gives) : (s.setLimits g).LimitsHold := by
  rw [State.setLimits_eq]
  intro p hp k hk
  have hget : Tab.get {} ((Tab.keys s.cores).foldl (s.setLimit g) s.gov.limits) p = s.limitFor g p k := by
    have hcore : (s.core p).panel = some k := hk
    rw [State.get_foldl_setLimit, if_pos hp, State.tickLimit, hcore]
  refine ⟨fun hhold => ?_, fun hhold hadmitted => ?_⟩
  · have hlimit : s.limitFor g p k = { l := s.gov.throttleL, f := 0, hold := true, q := 1 } := if_pos hhold
    exact ⟨by rw [hget, hlimit], by rw [hget, hlimit]⟩
  · exact hget.trans ((if_neg (ne_true_of_eq_false hhold)).trans (if_pos hadmitted))

theorem State.setLimits_keeps (g : Gives) : TickKeeps Gov.readings s (s.setLimits g) := by
  rw [State.setLimits_eq]
  exact .of_gov rfl rfl

/-- One array runs dead work at its level. -/
def State.runDead (level : Nat → Nat) (s : State) (x : Nat × Nat) : State :=
  { s with gov := { s.gov with limits := Tab.set s.gov.limits x.1 { Tab.get {} s.gov.limits x.1 with f := level x.2 } } }

/-- Dead work on several arrays changes their limits alone. -/
theorem State.foldl_runDead (level : Nat → Nat) (l : List (Nat × Nat)) : let t := l.foldl (State.runDead level) s
    t = { s with gov := { s.gov with limits := t.gov.limits } } ∧
      ∀ q, q ∉ l.map Prod.fst → Tab.get {} t.gov.limits q = Tab.get {} s.gov.limits q := by
  induction l generalizing s with
  | nil => exact ⟨rfl, fun _ _ => rfl⟩
  | cons x l ih =>
    obtain ⟨hframe, hother⟩ := ih (s.runDead level x)
    refine ⟨by rw [List.foldl_cons, hframe]; rfl, fun q hq => ?_⟩
    simp only [List.map_cons, List.mem_cons, not_or] at hq
    rw [List.foldl_cons, hother q hq.2]
    exact Tab.get_set_of_ne _ _ _ hq.1

/-- The level of the i-th of n arrays that share so many slots. -/
def deadLevel (n slots i : Nat) : Nat := if 64 * n ≤ slots then 64 else slots / n + (if i < slots % n then 1 else 0)

/-- Dead work of `need` on the arrays that may run it. -/
def State.fillDead (s : State) (need : Nat) : State :=
  s.deadArrays.zipIdx.foldl (State.runDead (deadLevel s.deadArrays.length (ceilDiv (need * 4) 25))) s

theorem State.spreadDead_eq (need low : Nat) : s.spreadDead need low =
    if 64 * s.deadArrays.length < ceilDiv (low * 4) 25 then (s.fillDead need).eventPerMs 0x6802 else s.fillDead need := rfl

/-- A held array runs no dead work, and no core of an admitted panel does. -/
theorem State.not_mem_deadArrays {p k : Nat} (hk : (s.core p).panel = some k)
    (hfree : (s.panel k).admitted = true ∨ (Tab.get {} s.gov.limits p).hold = true) : p ∉ s.deadArrays := by
  intro hp
  have harray := (List.mem_filter.mp hp).2
  rcases hfree with hfree | hfree <;> simp [State.deadArray, hk, hfree] at harray

theorem State.fillDead_hold (need : Nat) (h : s.LimitsHold) : (s.fillDead need).LimitsHold := by
  obtain ⟨hframe, hother⟩ := s.foldl_runDead (deadLevel s.deadArrays.length (ceilDiv (need * 4) 25)) s.deadArrays.zipIdx
  rw [List.zipIdx_map_fst] at hother
  rw [State.fillDead, hframe]
  intro p hp k hk
  obtain ⟨hhold, hfree⟩ := h p hp k hk
  refine ⟨fun hthermal => ?_, fun hthermal hadmitted => ?_⟩
  · obtain ⟨hheld, hnone⟩ := hhold hthermal
    have hsame := hother p (s.not_mem_deadArrays hk (.inr hheld))
    exact ⟨(congrArg Limit.hold hsame).trans hheld, (congrArg Limit.f hsame).trans hnone⟩
  · exact (hother p (s.not_mem_deadArrays hk (.inl hadmitted))).trans (hfree hthermal hadmitted)

theorem State.fillDead_keeps (need : Nat) : TickKeeps Gov.readings s (s.fillDead need) := by
  have hframe := (s.foldl_runDead (deadLevel s.deadArrays.length (ceilDiv (need * 4) 25)) s.deadArrays.zipIdx).1
  rw [State.fillDead, hframe]
  exact .of_gov rfl rfl

theorem State.spreadDead_hold (need low : Nat) (h : s.LimitsHold) :
    TickKeeps Gov.readings s (s.spreadDead need low) ∧ (s.spreadDead need low).LimitsHold := by
  have hfill := s.fillDead_hold need h
  rw [State.spreadDead_eq]
  split
  · exact ⟨(s.fillDead_keeps need).trans (State.eventPerMs_keeps _ _ _), (State.eventPerMs_keeps _ Gov.limited _).limitsHold hfill⟩
  · exact ⟨s.fillDead_keeps need, hfill⟩

/-- The reserve of a tick. -/
def State.setReserve (s : State) (n : Nat) : State := { s with gov := { s.gov with reserve := n } }

/-- An allocation sets limits and spreads dead work over them. -/
theorem State.tickAllocate_eq (r : GovReading) : ∃ n g need low, s.tickAllocate r =
    if ((s.releaseCores.setReserve n).setLimits g).parking then (s.releaseCores.setReserve n).setLimits g
    else ((s.releaseCores.setReserve n).setLimits g).spreadDead need low := ⟨_, _, _, _, rfl⟩

theorem State.tickAllocate_hold (r : GovReading) : TickKeeps Gov.readings s (s.tickAllocate r) ∧ (s.tickAllocate r).LimitsHold := by
  obtain ⟨n, g, need, low, heq⟩ := s.tickAllocate_eq r
  have hreserve : TickKeeps Gov.readings s.releaseCores (s.releaseCores.setReserve n) := .of_gov rfl rfl
  have hset := s.releaseCores_keeps.readings.trans (hreserve.trans (State.setLimits_keeps _ g))
  have hlimits := (s.releaseCores.setReserve n).setLimits_hold g
  rw [heq]
  split
  · exact ⟨hset, hlimits⟩
  · obtain ⟨hkeeps, hhold⟩ := State.spreadDead_hold _ need low hlimits
    exact ⟨hset.trans hkeeps, hhold⟩

/-! ### Throttle reasons (R395, R396) -/

theorem State.tickReason_keeps {i : Nat} (hi : i < 5) (on : Bool) (level : Nat) : TickKeeps Gov.settled s (s.tickReason i on level) := by
  have hoff : govReg (0x100 + 8 * i) ≠ govReg 0x128 := by
    unfold govReg
    omega
  have hcount (t : State) (ht : TickKeeps Gov.settled s t) : TickKeeps Gov.settled s (t.count (govReg (0x100 + 8 * i)) 10) := ht.count hoff 10
  unfold State.tickReason
  dsimp only
  split
  · split
    · exact hcount _ (.of_gov rfl rfl)
    · split
      · exact .of_gov rfl rfl
      · exact .refl _ s
  · split
    · exact hcount _ (.of_gov rfl rfl)
    · exact .refl _ s

/-- Every reason at a tick moves its counter and the ring, and the register of reasons. -/
theorem State.tickReasons_keeps {rs : List (Bool × Nat)} (hrs : rs.length ≤ 5) : TickKeeps Gov.limited s (s.tickReasons rs) := by
  have hfold : TickKeeps Gov.settled s (rs.zipIdx.foldl (fun s x => s.tickReason x.2 x.1.1 x.1.2) s) := by
    refine TickKeeps.foldl _ (fun t x hx => ?_) s
    obtain ⟨-, hlt, -⟩ := List.mem_zipIdx hx
    exact t.tickReason_keeps (by omega) _ _
  exact hfold.limited.trans (.of_gov rfl rfl)

theorem testBit_foldl_or (l : List Nat) (m i : Nat) (h : m.testBit i = true ∨ i ∈ l) :
    (l.foldl (fun m i => m ||| 2 ^ i) m).testBit i = true := by
  induction l generalizing m with
  | nil => exact h.resolve_right List.not_mem_nil
  | cons j l ih =>
    refine ih _ ?_
    rcases h with h | h
    · exact .inl (by simp [Nat.testBit_or, h])
    · rcases List.mem_cons.mp h with rfl | h
      · exact .inl (by simp [Nat.testBit_or, Nat.testBit_two_pow_self])
      · exact .inr h

/-- A reason that is active shows in the register of reasons. -/
theorem bitAt_maskOf {l : List Nat} {i : Nat} (hi : i < 5) (h : i ∈ l) : bitAt (BitVec.ofNat 5 (maskOf l)).toNat i = true := by
  have hbit : (maskOf l).testBit i = true := testBit_foldl_or l 0 i (.inr h)
  have hmod : (maskOf l % 2 ^ 5).testBit i = true := by rw [Nat.testBit_mod_two_pow, hbit, decide_eq_true hi]; rfl
  simpa [bitAt, Nat.testBit_eq_decide_div_mod_eq] using hmod

/-- The first reason is reported when it is active. -/
theorem State.tickReasons_first {rs : List (Bool × Nat)} {level : Nat} (hfirst : rs[0]? = some (true, level)) :
    bitAt (s.tickReasons rs).gov.reasons.toNat 0 = true := by
  refine bitAt_maskOf (by decide) ?_
  refine List.mem_map.mpr ⟨((true, level), 0), List.mem_filter.mpr ⟨?_, rfl⟩, rfl⟩
  exact List.mk_mem_zipIdx_iff_getElem?.mpr hfirst

/-- The cap is reported where 34 A at the input voltage set it (19 R501). -/
theorem State.reasonsNow_first (r : GovReading) (h : s.gov.inputLimit < 100 * s.gov.cap) :
    (s.reasonsNow r)[0]? = some (true, s.lowestL) := by
  simp [State.reasonsNow, h]

theorem State.markLimited_keeps : TickKeeps Gov.settled s s.markLimited := by
  refine TickKeeps.foldl _ (fun t k _ => ?_) s
  dsimp only
  split
  · refine ⟨rfl, rfl, rfl, .of_eq rfl, fun j => ?_, fun _ => .rfl, fun _ => rfl⟩
    rw [State.panel_modPanel]
    split_ifs with hj
    · rw [hj]
    · rfl
  · exact .refl _ t

/-! ### Power states (R406) -/

theorem State.denyState_keeps : TickKeeps Gov.settled s s.denyState :=
  ((TickKeeps.refl _ s).count (off := govReg 0x148) (by decide) 1).trans (State.eventPerMs_keeps _ _ _)

theorem State.pickState_keeps (k : Nat) (cs : List Nat) : TickKeeps Gov.settled s (s.pickState k cs).2 := by
  induction cs generalizing s with
  | nil => exact .refl _ s
  | cons c cs ih =>
    rw [State.pickState]
    split_ifs
    · exact ih s
    · exact s.denyState_keeps.trans (ih s.denyState)
    · exact .refl _ s

theorem State.mem_panelCores_listed {k : Nat} : ∀ p ∈ s.panelCores k, p ∈ Tab.keys s.cores := fun _ hp => (List.mem_filter.mp hp).1

theorem State.askState_keeps (k c : Nat) : TickKeeps Gov.settled s (s.askState k c) :=
  State.foldl_modCore_keeps s (g := fun x => { x with cTarget := if x.cState = c then none else some c }) (fun _ => rfl) (fun _ => rfl) _
    s.mem_panelCores_listed

theorem State.chooseState_keeps (k : Nat) : TickKeeps Gov.settled s (s.chooseState k) := by
  unfold State.chooseState
  dsimp only
  split
  · exact .refl _ s
  · exact (s.pickState_keeps k _).trans (State.askState_keeps _ k _)

theorem State.askAtLeast_keeps (k c : Nat) : TickKeeps Gov.settled s (s.askAtLeast k c) :=
  State.foldl_modCore_keeps s (g := fun x => { x with cTarget := if x.cState < c then some c else none }) (fun _ => rfl) (fun _ => rfl) _
    s.mem_panelCores_listed

/-- The module state that the choice goes to. -/
def State.goTo (s : State) (m : MState) (c : Nat) : State :=
  if s.gov.mState = m ∨ s.gov.mTarget = some m then s
  else s.panels.foldl (fun s k => s.askAtLeast k c) { s with gov := { s.gov with mTarget := some m } }

theorem State.goTo_keeps (m : MState) (c : Nat) : TickKeeps Gov.settled s (s.goTo m c) := by
  unfold State.goTo
  split
  · exact .refl _ s
  · refine .trans ?_ (.foldl _ (fun t k _ => t.askAtLeast_keeps k c) _)
    exact .of_gov rfl rfl

theorem State.chooseModule_keeps : TickKeeps Gov.settled s s.chooseModule := by
  have hdeny : TickKeeps Gov.settled s (if (s.gov.parkEn && s.moduleGap 3500000) && !s.canHold (Config.stateDrop 0 5) (fun _ => false) then s.denyState
      else s) := by
    split
    · exact s.denyState_keeps
    · exact .refl _ s
  unfold State.chooseModule
  dsimp only
  split
  · split
    · exact .refl _ s
    · exact .of_gov rfl rfl
  · split
    · exact s.goTo_keeps .park 3
    · split
      · exact hdeny.trans (State.goTo_keeps _ .idle 2)
      · split
        · exact hdeny.trans (State.denyState_keeps _)
        · exact hdeny

/-! ### The whole tick (R383) -/

/-- A tick up to its allocation. -/
def State.tickFill (s : State) (r : GovReading) : State :=
  let u := (s.tickReadings r).tickPhases.tickAllocate r
  if u.rampExceeded s.gov then u.event 0x6803 else u

/-- A tick up to its reasons, without its energy. -/
def State.tickLimits (s : State) (r : GovReading) : State := ((s.tickFill r).tickReasons ((s.tickFill r).reasonsNow r)).markLimited

/-- The end of a tick: power states are chosen. -/
def State.tickChoose (s : State) (now : Nat) : State :=
  let u := (s.panels.foldl (fun s k => s.chooseState k) s).chooseModule
  { u with gov := { u.gov with lastTick := now } }

theorem governorTick_ready {r : GovReading} (hon : s.islandOn 244 = true) (hready : s.mgt.state = .ready) :
    exec (.governorTick r) s = .next (((s.tickLimits r).tickEnergy r).tickChoose s.time) := by
  rw [exec_governorTick, execGovernorTick, if_neg (by simp [hon]), if_neg (by simp [hready])]
  unfold State.tickChoose State.tickLimits State.tickFill
  dsimp only

theorem governorTick_waiting {r : GovReading} (hon : s.islandOn 244 = true) (hwaiting : s.mgt.state ≠ .ready) :
    exec (.governorTick r) s = .next
      { (s.tickReadings r).tickEnergy r with gov := { ((s.tickReadings r).tickEnergy r).gov with lastTick := s.time } } := by
  rw [exec_governorTick, execGovernorTick, if_neg (by simp [hon]), if_pos hwaiting]

theorem State.tickChoose_keeps (now : Nat) : TickKeeps Gov.settled s (s.tickChoose now) := by
  have hchosen : TickKeeps Gov.settled s (s.panels.foldl (fun s k => s.chooseState k) s).chooseModule :=
    (TickKeeps.foldl _ (fun t k _ => t.chooseState_keeps k) s).trans (State.chooseModule_keeps _)
  refine hchosen.trans ?_
  exact .of_gov rfl rfl

theorem State.tickFill_hold (r : GovReading) : TickKeeps Gov.readings (s.tickReadings r) (s.tickFill r) ∧ (s.tickFill r).LimitsHold := by
  obtain ⟨hallocate, hhold⟩ := (s.tickReadings r).tickPhases.tickAllocate_hold r
  have hkeeps := (State.tickPhases_keeps (s.tickReadings r)).readings.trans hallocate
  unfold State.tickFill
  dsimp only
  split
  · exact ⟨hkeeps.trans (State.event_keeps _ _ _), (State.event_keeps _ Gov.limited _).limitsHold hhold⟩
  · exact ⟨hkeeps, hhold⟩

/-- The limits and the reasons of a tick. -/
theorem State.tickLimits_spec (r : GovReading) : let t := s.tickLimits r
    TickKeeps Gov.readings (s.tickReadings r) t ∧ t.LimitsHold ∧
      ((s.tickReadings r).gov.inputLimit < 100 * (s.tickReadings r).gov.cap → bitAt t.gov.reasons.toNat 0 = true) := by
  obtain ⟨hfill, hhold⟩ := s.tickFill_hold r
  have hreasons := (s.tickFill r).tickReasons_keeps (rs := (s.tickFill r).reasonsNow r) (by simp [State.reasonsNow])
  have hmark := ((s.tickFill r).tickReasons ((s.tickFill r).reasonsNow r)).markLimited_keeps
  have hlimited : TickKeeps Gov.limited (s.tickFill r) (s.tickLimits r) := hreasons.trans hmark.limited
  have hsame : (s.tickLimits r).gov.reasons = _ := hmark.reasons
  refine ⟨hfill.trans hlimited.readingsOfLimited, hlimited.limitsHold hhold, fun hcap => ?_⟩
  obtain ⟨⟨hgcap, -, -⟩, ⟨-, -, -, hvin, -⟩, -⟩ := Gov.shown_fields hfill.shown
  rw [hsame]
  exact (s.tickFill r).tickReasons_first ((s.tickFill r).reasonsNow_first r (by rw [Gov.inputLimit, hvin, hgcap]; exact hcap))

/-- The thermal hold of a tick in one formula. -/
theorem Gov.readAt_thermalHold (g : Gov) (r : GovReading) :
    (g.readAt r).thermalHold = (decide (105 ≤ r.junction) || (decide (100 ≤ r.junction) && g.thermalHold)) := by
  unfold Gov.readAt
  dsimp only
  split_ifs with h105 h100
  · simp [h105]
  · simp [h105, show ¬ 100 ≤ r.junction by omega]
  · simp [h105, show 100 ≤ r.junction by omega]

/-- What is shown after a tick's readings (R383, R410). -/
theorem Gov.shown_readAt {g g' : Gov} {r : GovReading} (h : g'.shown = (g.readAt r).shown) :
    (g'.cap = g.cap ∧ g'.floor = g.floor ∧ g'.ramp = g.ramp) ∧
    (g'.draw = r.draw ∧ g'.exempt = r.exempt ∧ g'.deadW = r.dead ∧ g'.vinMv = r.vinMv ∧ g'.junction = r.junction) ∧
    g'.throttleL = g.throttled r.junction ∧ g'.emergency = decide (100 < r.junction) ∧
    g'.thermalHold = (decide (105 ≤ r.junction) || (decide (100 ≤ r.junction) && g.thermalHold)) := by
  obtain ⟨hband, hread, hthrottle, hemergency, hhold⟩ := Gov.shown_fields h
  exact ⟨hband, hread, hthrottle, hemergency, hhold.trans (g.readAt_thermalHold r)⟩

/-- A tick of a running module: what it shows, its limits, its reasons and its energy (R383, R388, R394, R410). -/
theorem State.tick_spec (r : GovReading) : let t := ((s.tickLimits r).tickEnergy r).tickChoose s.time
    t.gov.shown = (s.gov.readAt r).shown ∧ t.LimitsHold ∧
      (34 * r.vinMv / 10 < 100 * s.gov.cap → bitAt t.gov.reasons.toNat 0 = true) ∧
      t.counter (govReg 0x128) = s.counter (govReg 0x128) + BitVec.ofNat 64 ((s.gov.energyAcc + r.draw) / 100) ∧ t.hbm = s.hbm ∧
      (∀ p, p ∈ Tab.keys t.cores ↔ p ∈ Tab.keys s.cores) ∧ ∀ p, (t.core p).panel = (s.core p).panel := by
  obtain ⟨hkeeps, hhold, hcap⟩ := s.tickLimits_spec r
  obtain ⟨hgov, hcores, hpins, hhbm⟩ := (s.tickReadings_reads r).fields
  have hshown := hkeeps.shown
  have hacc := hkeeps.energyAcc
  rw [hgov] at hcap hshown hacc
  obtain ⟨hshownE, -, hreasonsE, hcoresE, hpinsE, hhbmE⟩ := (s.tickLimits r).tickEnergy_frame r
  have hchoose := ((s.tickLimits r).tickEnergy r).tickChoose_keeps s.time
  have hcounted := ((s.tickReadings_reads r).energy.trans hkeeps.energy) _ rfl
  refine ⟨?_, hchoose.limited.limitsHold ((s.tickLimits r).tickEnergy_limits r hhold), fun h => ?_, ?_, ?_, fun p => ?_, fun p => ?_⟩
  · rw [hchoose.readings.shown, hshownE, hshown]
  · rw [hchoose.reasons, hreasonsE]
    exact hcap h
  · rw [hchoose.energy _ rfl, State.tickEnergy_counter, hcounted, hacc]
    rfl
  · rw [hchoose.hbm, hhbmE, hkeeps.hbm, hhbm]
  · rw [hchoose.listed, hcoresE, hkeeps.listed, hcores]
  · rw [hchoose.corePanel, State.core_congr hcoresE hpinsE, hkeeps.corePanel, State.core_congr hcores hpins]

/-- A tick of a module that does not run takes its readings, its thermal response and its energy (18 R471). -/
theorem State.tickWaiting_spec (r : GovReading) : let t := (s.tickReadings r).tickEnergy r
    t.gov.shown = (s.gov.readAt r).shown ∧
      t.counter (govReg 0x128) = s.counter (govReg 0x128) + BitVec.ofNat 64 ((s.gov.energyAcc + r.draw) / 100) ∧
      t.gov.limits = s.gov.limits ∧ t.gov.reasons = s.gov.reasons ∧ t.cores = s.cores ∧ t.hbm = s.hbm := by
  obtain ⟨hgov, hcores, -, hhbm⟩ := (s.tickReadings_reads r).fields
  obtain ⟨hshownE, hlimitsE, hreasonsE, hcoresE, -, hhbmE⟩ := (s.tickReadings r).tickEnergy_frame r
  have hcount := (s.tickReadings r).tickEnergy_counter r
  rw [(s.tickReadings_reads r).energy _ rfl, hgov] at hcount
  exact ⟨by rw [hshownE, hgov], hcount, by rw [hlimitsE, hgov]; rfl, by rw [hreasonsE, hgov]; rfl, by rw [hcoresE, hcores], by rw [hhbmE, hhbm]⟩

end

/-- Settles O38: the writes of the band and the mode by the lemmas of 15 R384 and R385; the parts of a tick keep its readings, its limits and its
reasons (`TickKeeps`). -/
theorem governorTicksAndBand : Obligations.GovernorTicksAndBand := by
  unfold Obligations.GovernorTicksAndBand
  intro s
  refine ⟨fun v hbar hwait hruns => ?writes, fun r hon hready => ⟨_, governorTick_ready s hon hready, ?ready⟩,
    fun r hon hwaiting => ⟨_, governorTick_waiting s hon hwaiting, ?waiting⟩⟩
  case writes =>
    intro cap floor ramp
    refine ⟨fun hlocked => ?locked, fun hfree hok => ⟨?band, fun hnil => ⟨fun hnone => ?plain, fun hpending h0 h3 => ?asks⟩⟩,
      fun hfree hbad => govBandWrite_refuses hbar hwait hruns hfree hbad, fun hfree horder => ?mode, fun hfree hbad => ?badMode⟩
    case locked =>
      obtain ⟨hgov, -, hfrozen, hoffset, hvalid, -⟩ := s.pfLocked_keeps (govReg 0)
      exact ⟨_, govBandWrite_locked v hbar hwait hruns hlocked, hgov, hoffset, hvalid, hfrozen⟩
    case band =>
      refine ⟨_, govBandWrite_takes hbar hwait hruns hfree hok, ?_⟩
      have hmoves := s.raiseFloor_needs floor
      exact ⟨rfl, rfl, rfl, (congrArg Gov.draw hmoves.gov :), (congrArg Gov.order hmoves.gov :),
        (congrArg Gov.learned hmoves.gov :), (congrArg Gov.limits hmoves.gov :), by rw [State.setBand, hmoves.frame]⟩
    case plain =>
      rw [govBandWrite_takes hbar hwait hruns hfree hok, s.raiseFloor_of_nil hnil, if_pos (hnone.imp_left Nat.sub_eq_zero_of_le)]
      rfl
    case asks =>
      intro w hw
      obtain ⟨hwaits, hpendingW, hwas, hout⟩ := s.raiseFloor_asks hnil hpending h0 h3 hw
      have hkey : (s.raiseFloor floor).gov.waiting.any (fun x => decide (x.1 = floorKey)) = true := by rw [hwaits]; rfl
      have hnow : ((s.raiseFloor floor).setBand cap floor ramp).gov.floorNow = (s.raiseFloor floor).gov.floorWas := if_pos hkey
      exact ⟨_, govBandWrite_takes hbar hwait hruns hfree hok, hwaits, hpendingW, rfl, hnow.trans hwas, hout⟩
    case mode =>
      rw [govModeWrite_eq hbar hwait hruns hfree, if_neg (by simpa using horder)]
    case badMode =>
      rw [govModeWrite_eq hbar hwait hruns hfree, if_pos (by simpa using hbad)]
  case ready =>
    obtain ⟨hshown, hlimits, hcap, henergy, hhbm, hlisted, hpanel⟩ := s.tick_spec r
    obtain ⟨⟨hgcap, hfloor, hramp⟩, ⟨hdraw, hexempt, hdead, hvin, hjunction⟩, hthrottle, hemergency, hhold⟩ := Gov.shown_readAt hshown
    refine ⟨hdraw, hexempt, hdead, hjunction, hvin, ?_, hcap, hgcap, hfloor, hramp, rfl, hthrottle, hemergency, hhold, fun p hp k hk => ?_,
      henergy, hhbm⟩
    · rw [Gov.capNow, Gov.inputLimit, hgcap, hvin]
    · exact hlimits p ((hlisted p).mpr hp) k ((hpanel p).trans hk)
  case waiting =>
    obtain ⟨hshown, henergy, hlimits, hreasons, hcores, hhbm⟩ := s.tickWaiting_spec r
    obtain ⟨-, ⟨hdraw, -, hdead, hvin, hjunction⟩, hthrottle, hemergency, -⟩ := Gov.shown_readAt hshown
    exact ⟨hdraw, hdead, hjunction, hvin, rfl, hthrottle, hemergency, henergy, hlimits, hreasons, hcores, hhbm⟩

end Sys2Proof.Machine
end

section
/-! PROOFS. Scrubbing, poison, canary windows and die-to-die lanes (16 R426 to R434). -/

namespace Sys2Proof.Machine

section
variable (s : State)

theorem exec_hbmScrub (off : Nat) (find : ScrubFind) : exec (.hbmScrub off find) s = execHbmScrub off find s := rfl
theorem exec_relUnpoisonGo (v : W64) : exec (.relUnpoisonGo v) s = execRelUnpoisonGo v s := rfl
theorem exec_canaryWindowStart : exec .canaryWindowStart s = execCanaryWindowStart s := rfl
theorem exec_canaryWindowEnd (pass hot : Bool) (cal : Int) : exec (.canaryWindowEnd pass hot cal) s = execCanaryWindowEnd pass hot cal s := rfl
theorem exec_d2dLaneRetrain (die lane : Nat) : exec (.d2dLaneRetrain die lane) s = execD2dLaneRetrain die lane s := rfl

/-! ### The scrubber's read (R426, 09 R229) -/

/-- The counters of reads at a controller, and those of reliability. -/
def ReadOrRelReg (h off : Nat) : Prop := off = hbmReg h 0x100 ∨ relReg 0 ≤ off

/-- From s to t the cache and counters moved, but no read of controller h was counted. -/
structure CacheOnly (h : Nat) (s t : State) : Prop where
  frame : t = { s with msc := t.msc, counters := t.counters }
  counters : SameCounters (ReadOrRelReg h) s t

/-- From s to t controller h was read once: the cache and counters moved. -/
structure ReadsOnce (h : Nat) (s t : State) : Prop where
  frame : t = { s with msc := t.msc, counters := t.counters }
  read : t.counter (hbmReg h 0x100) = s.counter (hbmReg h 0x100) + 64
  counters : SameCounters (fun off => relReg 0 ≤ off) s t

section
variable {s}
variable {t u : State} {h : Nat}

theorem CacheOnly.refl (h : Nat) (s : State) : CacheOnly h s s := ⟨rfl, .refl _ s⟩

theorem CacheOnly.trans (a : CacheOnly h s t) (b : CacheOnly h t u) : CacheOnly h s u :=
  ⟨by rw [b.frame, a.frame], a.counters.trans b.counters⟩

theorem CacheOnly.msc (m : Msc) : CacheOnly h s { s with msc := m } := ⟨rfl, .of_eq rfl⟩

theorem CacheOnly.countMsc {g : Nat} (hg : g < 8) {off : Nat} (hoff : off < 0x10000) (n : Nat) (hh : h < 8) : CacheOnly h s (s.count (mscReg g off) n) := by
  refine ⟨rfl, (SameCounters.refl _ s).count ?_ n⟩
  unfold ReadOrRelReg mscReg hbmReg relReg
  omega

theorem CacheOnly.countWrites {g : Nat} (hg : g < 8) (n : Nat) : CacheOnly h s (s.count (hbmReg g 0x108) n) := by
  refine ⟨rfl, (SameCounters.refl _ s).count ?_ n⟩
  unfold ReadOrRelReg hbmReg relReg
  omega

theorem ReadsOnce.of_count (hh : h < 8) : ReadsOnce h s (s.count (hbmReg h 0x100) 64) := by
  refine ⟨rfl, (State.counter_count _ _ _ _).trans (if_pos rfl), (SameCounters.refl _ s).count ?_ 64⟩
  unfold hbmReg relReg
  omega

theorem CacheOnly.reads (a : CacheOnly h s t) (b : ReadsOnce h t u) : ReadsOnce h s u :=
  ⟨by rw [b.frame, a.frame], by rw [b.read, a.counters _ (.inl rfl)], fun off hoff => (b.counters off hoff).trans (a.counters off (.inr hoff))⟩

theorem ReadsOnce.cache (a : ReadsOnce h s t) (b : CacheOnly h t u) : ReadsOnce h s u :=
  ⟨by rw [b.frame, a.frame], by rw [b.counters _ (.inl rfl), a.read], fun off hoff => (b.counters off (.inr hoff)).trans (a.counters off hoff)⟩

end

theorem stackOf_lt (off : Nat) : stackOf off < 8 := by
  unfold stackOf chanSet
  omega

variable {h : Nat} (hh : h < 8)
include hh

theorem State.mscDrop_cacheOnly (line : Nat) (back : Bool) : CacheOnly h s (s.mscDrop line back) := by
  have hg := stackOf_lt (line * 128)
  unfold State.mscDrop
  split
  · exact .refl h s
  · dsimp only
    split
    · exact (CacheOnly.msc _).trans ((CacheOnly.countMsc hg (off := 0x110) (by decide) 1 hh).trans (CacheOnly.countWrites hg _))
    · exact .msc _

theorem State.mscRoom_cacheOnly (line ways : Nat) : CacheOnly h s (s.mscRoom line ways).2 := by
  unfold State.mscRoom
  dsimp only
  split
  · exact .refl h s
  · split
    · exact s.mscDrop_cacheOnly hh _ _
    · exact .refl h s

omit hh in
theorem State.mscPut_cacheOnly (line sec : Nat) (l : MscLine) (write : Bool) : CacheOnly h s (s.mscPut line sec l write) := .msc _

theorem State.fillTouch_reads : ReadsOnce h s (s.fillTouch h false true) := .of_count hh

theorem State.dramTouch_reads : ReadsOnce h s (s.dramTouch h false true) := .of_count hh

omit hh

/-- A read that misses the cache is one read at its controller. -/
theorem State.mscMiss_reads (off : Nat) (r : HReq) : ReadsOnce (stackOf off) s (s.mscMiss off r false true) := by
  have hh := stackOf_lt off
  have hmiss : CacheOnly (stackOf off) s (s.count (mscReg (stackOf off) 0x108) 1) := .countMsc hh (by decide) 1 hh
  unfold State.mscMiss
  dsimp only
  split
  · exact hmiss.reads (State.dramTouch_reads _ hh)
  · exact (hmiss.trans (State.mscRoom_cacheOnly _ hh _ _)).reads ((State.fillTouch_reads _ hh).cache (State.mscPut_cacheOnly _ _ _ _ _))

/-- The scrubber reads its word once, also where the cache holds it. -/
theorem State.scrubRead_reads (off : Nat) : ReadsOnce (stackOf off) s (s.scrubRead off) := by
  have hh := stackOf_lt off
  have hcount (reg : Nat) (hreg : reg < 0x10000) : CacheOnly (stackOf off) s (s.count (mscReg (stackOf off) reg) 1) := .countMsc hh hreg 1 hh
  unfold State.scrubRead State.scrubReq State.mscAccess
  cases hline : Tab.find s.msc.lines (off / 128) with
  | none =>
    simp only [hline, Bool.false_eq_true, if_false]
    exact s.mscMiss_reads off (s.hreq 0 (s.sysWays off))
  | some l =>
    cases hvalid : l.valid.getD (off / 64 % 2) false with
    | true =>
      simp only [hline, hvalid, and_self, if_true]
      exact ((hcount 0x100 (by decide)).trans (State.mscPut_cacheOnly _ _ _ _ _)).reads (State.dramTouch_reads _ hh)
    | false =>
      simp only [hline, hvalid, and_self, if_true, Bool.false_eq_true, if_false]
      split
      · exact (hcount 0x108 (by decide)).reads (State.dramTouch_reads _ hh)
      · exact (hcount 0x108 (by decide)).reads ((State.fillTouch_reads _ hh).cache (State.mscPut_cacheOnly _ _ _ _ _))

/-- The position of the scrubber. -/
def State.scrubAt (s : State) (off : Nat) : State := { s with rel := { s.rel with scrubPos := off } }

/-- The scrubber on a good place of a frame that is not poisoned. -/
structure Scrubs (s : State) (off : Nat) : Prop where
  on : s.islandOn (224 + stackOf off) = true
  enabled : s.rel.scrubOn = true
  inside : off < hbmSize
  stays : s.scrubSkips (chanSet off) = false
  good : s.isPoisoned (frameOf off) = false
  clean : s.hbm.bad.contains (off / 64) = false

/-- A corrected word is written back, and noted for its frame. -/
def State.noteCorrected (s : State) (off : Nat) : State :=
  let t := ((s.scrubAt off).scrubRead off).dramTouch (stackOf off) true true
  { t with hbm := { t.hbm with corrected := Tab.set t.hbm.corrected (frameOf off) (s.recentCorrected (frameOf off) ++ [s.time]) } }

/-- What the scrubber does with what it finds. -/
theorem hbmScrub_eq {off : Nat} (h : Scrubs s off) (find : ScrubFind) : exec (.hbmScrub off find) s = .next (match find with
    | .clean => (s.scrubAt off).scrubRead off
    | .corrected => (s.noteCorrected off).count (relReg 0x120) 1
    | .uncorrectable => (((s.scrubAt off).scrubRead off).count (relReg 0x128) 1).poisonFrame (frameOf off) false) := by
  obtain ⟨hon, henabled, hinside, hstays, hgood, hclean⟩ := h
  rw [exec_hbmScrub, execHbmScrub]
  dsimp only
  rw [if_neg (by simp [hon, henabled, hinside, hstays]), hgood, hclean]
  cases find <;> rfl

/-- What the scrubber counts of a corrected word. -/
theorem State.noteCorrected_spec (off : Nat) : let t := (s.noteCorrected off).count (relReg 0x120) 1
    t.counter (relReg 0x120) = s.counter (relReg 0x120) + 1 ∧
      t.counter (hbmReg (stackOf off) 0x100) = s.counter (hbmReg (stackOf off) 0x100) + 64 ∧
      s.time ∈ Tab.get [] t.hbm.corrected (frameOf off) ∧ t.hbm = { s.hbm with corrected := t.hbm.corrected } := by
  have hh := stackOf_lt off
  have hread := (s.scrubAt off).scrubRead_reads off
  have hwrite : CacheOnly (stackOf off) ((s.scrubAt off).scrubRead off) (((s.scrubAt off).scrubRead off).dramTouch (stackOf off) true true) :=
    CacheOnly.countWrites hh 64
  have hboth := hread.cache hwrite
  have hrel : relReg 0x120 ≠ hbmReg (stackOf off) 0x100 := by
    unfold relReg hbmReg
    omega
  have hhbm : (((s.scrubAt off).scrubRead off).dramTouch (stackOf off) true true).hbm = s.hbm := by rw [hboth.frame]; rfl
  refine ⟨?_, ?_, ?_, ?_⟩
  · rw [State.counter_count, if_pos rfl]
    exact congrArg (· + 1) (hboth.counters _ (by unfold relReg; omega))
  · rw [State.counter_count, if_neg hrel.symm]
    exact hboth.read
  · have hget : Tab.get [] ((s.noteCorrected off).count (relReg 0x120) 1).hbm.corrected (frameOf off) =
        s.recentCorrected (frameOf off) ++ [s.time] := Tab.get_set_self _ _ _ _
    rw [hget]
    exact List.mem_append_right _ (List.mem_singleton_self _)
  · have hnote : ((s.noteCorrected off).count (relReg 0x120) 1).hbm = { (((s.scrubAt off).scrubRead off).dramTouch (stackOf off) true true).hbm with
        corrected := ((s.noteCorrected off).count (relReg 0x120) 1).hbm.corrected } := rfl
    rw [hnote, hhbm]

/-! ### Poison (R428, R430) -/

/-- A frame is poisoned, and what stands elsewhere stays. -/
theorem State.poisonOnly_spec (f : Nat) (demand : Bool) : let t := s.poisonOnly f demand
    t.isPoisoned f = true ∧ (∀ g, g ≠ f → t.isPoisoned g = s.isPoisoned g) ∧
      (∀ a, a / 65536 ≠ f → t.hbm.mem.read a = s.hbm.mem.read a) ∧ SameCounters (fun off => relReg 0 ≤ off) s t := by
  refine ⟨?_, fun g hg => ?_, fun a ha => ?_, ?_⟩
  · simp [State.poisonOnly, State.isPoisoned, State.logPoison, State.event]
  · have hlist : (s.poisonOnly f demand).hbm.poisoned = f :: s.hbm.poisoned.filter (fun g => decide (g ≠ f)) := rfl
    rw [State.isPoisoned, hlist, State.isPoisoned]
    simp [List.contains_eq_mem, hg]
  · have hmem : (s.poisonOnly f demand).hbm.mem = Mem.zeroRange s.hbm.mem (f * 65536) (f * 65536 + 65536) := rfl
    rw [hmem]
    exact Mem.read_zeroRange_of_out _ (by omega)
  · have hcount : SameCounters (fun off => relReg 0 ≤ off) s (s.count (hbmReg (stackOf (f * 65536)) 0x108) 65536) := by
      refine (SameCounters.refl _ s).count ?_ _
      have := stackOf_lt (f * 65536)
      unfold relReg hbmReg
      omega
    exact hcount

/-- A frame that no repair covers stays poisoned. -/
theorem State.poisonFrame_of_unrepaired {f : Nat} (hnone : s.repairFor f = none) (demand : Bool) :
    s.poisonFrame f demand = s.poisonOnly f demand := by
  have hsame : (s.poisonOnly f demand).repairFor f = none := hnone
  rw [State.poisonFrame, State.repairFrame, hsame]

/-- A frame that is filled with +0 loses its poison; it stands under the material, and the other frames as they were. -/
theorem State.zeroFrame_unpoison_spec (f material : Nat) : let t := (s.zeroFrame f material).unpoison f
    t.isPoisoned f = false ∧ (∀ a, a / 65536 = f → t.hbm.mem.read a = 0) ∧ (∀ w, w / 1024 = f → t.wordTag w = material) ∧
      ∀ a, a / 65536 ≠ f → t.hbm.mem.read a = s.hbm.mem.read a := by
  have hmem : ((s.zeroFrame f material).unpoison f).hbm.mem = Mem.zeroRange s.hbm.mem (f * 65536) (f * 65536 + 65536) := rfl
  refine ⟨?_, fun a ha => ?_, fun w hw => ?_, fun a ha => ?_⟩
  · simp [State.isPoisoned, State.unpoison]
  · rw [hmem, Mem.read_zeroRange, if_pos (by omega)]
  · have htags : ((s.zeroFrame f material).unpoison f).hbm.tags =
        (List.range 1024).foldl (fun t i => Tab.set t (f * 1024 + i) material) s.hbm.tags := by
      unfold State.unpoison State.zeroFrame
      generalize List.range 1024 = l
      rfl
    have hmap : (List.range 1024).foldl (fun t i => Tab.set t (f * 1024 + i) material) s.hbm.tags =
        ((List.range 1024).map (f * 1024 + ·)).foldl (fun t i => Tab.set t i material) s.hbm.tags := by rw [List.foldl_map]
    rw [State.wordTag, htags, hmap, Tab.get_foldl_set, if_pos]
    exact List.mem_map.mpr ⟨w % 1024, List.mem_range.mpr (Nat.mod_lt _ (by decide)), by omega⟩
  · rw [hmem]
    exact Mem.read_zeroRange_of_out _ (by omega)

/-- What is named to be filled. -/
def State.unpoisonAt (s : State) (f slot : Nat) : State := { s with rel := { s.rel with unpFrame := f, unpSlot := slot } }

/-- A frame that is in use is not filled, nor under a slot that is none of memory. -/
theorem relUnpoisonGo_eq {v : W64} {n : Nat} {s1 : State} (hbar : s.barOpen 0 = true) (hwait : s.hostWaits = false)
    (hruns : s.runsFree 250 = true) (hgo : bitAt v.toNat 31 = true) (hframe : bits v.toNat 22 0 < hbmSize / 65536)
    (hread : (s.unpoisonAt (bits v.toNat 22 0) (bits v.toNat 30 23)).readCount .sys (bits v.toNat 22 0) = (n, s1)) :
    exec (.relUnpoisonGo v) s = .next (if n ≠ 0 ∨ (s.slot (bits v.toNat 30 23)).type ≠ 1 then s1.event 0x8008
      else (s1.zeroFrame (bits v.toNat 22 0) (s.slot (bits v.toNat 30 23)).material).unpoison (bits v.toNat 22 0)) := by
  rw [exec_relUnpoisonGo, execRelUnpoisonGo, State.hostTo_runs _ _ hwait (State.runsFree_of_barOpen hbar) (by simp [hruns])]
  dsimp only
  unfold State.unpoisonAt at hread
  rw [if_neg (by simp [hbar]), if_neg (by simpa [hgo] using hframe), hread]
  split_ifs <;> rfl

/-! ### Canary windows (R431 to R433) -/

/-- The panel of a core runs a step. -/
def State.panelRuns (s : State) (p : Nat) : Bool :=
  match (s.core p).panel with
  | some k => (s.panel k).running.isSome
  | none => false

/-- A core as it is retired: let go, or still at work. -/
def Core.retire (runs : Bool) (c : Core) : Core := if runs then { c with retired := true } else { c with retired := true }.letGo

/-- A core that is retired is noted, and its panel has a spare in its place. -/
def State.holdOff (s : State) (p : Nat) : State :=
  let u := ({ s with rel := { s.rel with
    retired := s.rel.retired ++ [p], canaryFirst := s.rel.canaryFirst.filter (fun q => decide (q ≠ p)) } } : State).modCore p
      (Core.retire (s.panelRuns p))
  { u with cmd := { u.cmd with panels := u.cmd.panels.map (fun (e : Nat × Panel) => (e.1, e.2.replaceCore p u.nextSpare)) } }

theorem State.core_holdOff (p : Nat) : (s.holdOff p).core p = (s.core p).retire (s.panelRuns p) :=
  (State.core_modCore s p p (Core.retire (s.panelRuns p))).trans (if_pos rfl)

/-- A core that is retired is let go, unless its panel runs a step. -/
theorem State.retireCore_spec {p : Nat} (hkept : (s.core p).retired = false) : let t := s.retireCore p
    t.core p = (s.core p).retire (s.panelRuns p) ∧
      p ∈ t.rel.retired ∧ t.rel.canaryState = s.rel.canaryState ∧ t.rel.canaryPassed = s.rel.canaryPassed ∧
      SameCounters (fun off => off ≠ relReg 0x150) s t := by
  have heq : s.retireCore p = ((s.holdOff p).count (relReg 0x150) 1).event 0x8005 := by
    rw [State.retireCore, if_neg (by simp [hkept])]
    rfl
  have hcore : (((s.holdOff p).count (relReg 0x150) 1).event 0x8005).core p = _ := s.core_holdOff p
  have hcounters : SameCounters (fun off => off ≠ relReg 0x150) s (s.holdOff p) := .of_eq rfl
  rw [heq]
  exact ⟨hcore, List.mem_append_right _ (List.mem_singleton_self _), rfl, rfl, hcounters.count (fun h => h rfl) 1⟩

/-- The slice of the tested core has its words back, and the window is over. -/
def State.endCanary (s : State) (p : Nat) (sl : Slice) (pass hot : Bool) : State :=
  let t := s.modSlice p fun x => x.reload sl
  let others := t.rel.canaryPassed.filter fun q => decide (q ≠ p)
  { t with rel := { t.rel with
      canaryState := .waiting, canarySaved := none, canaryPass := pass, noHotSpot := hot || !t.rel.hotSpot,
      canaryFirst := t.rel.canaryFirst.filter fun q => decide (q ≠ p),
      canaryNext := if t.rel.canaryFirst.contains p then t.rel.canaryNext else (p + 1) % 160,
      canaryPassed := if pass then others ++ [p] else others } }

theorem canaryWindowEnd_eq {p : Nat} {sl : Slice} (pass hot : Bool) (cal : Int) (hon : s.islandOn 250 = true)
    (hstate : s.rel.canaryState ≠ .waiting) (hcore : s.rel.canaryCore = p) (hsaved : s.rel.canarySaved = some sl)
    (hlight : s.gov.loaded = false) : exec (.canaryWindowEnd pass hot cal) s = .next (
      if pass then (s.endCanary p sl pass hot).count (relReg 0x138) 1
      else ((((s.endCanary p sl pass hot).count (relReg 0x138) 1).count (relReg 0x140) 1).event 0x8004).retireCore p) := by
  rw [exec_canaryWindowEnd, execCanaryWindowEnd, if_neg (by simp [hon, hstate])]
  dsimp only
  rw [hlight, hcore]
  simp only [Bool.false_eq_true, if_false, hsaved]
  cases pass <;> rfl

theorem State.core_endCanary (p : Nat) (sl : Slice) (pass hot : Bool) (q : Nat) : (s.endCanary p sl pass hot).core q =
    if q = p then { s.core p with slice := (s.core p).slice.reload sl } else s.core q :=
  State.core_modCore s p q fun c => { c with slice := c.slice.reload sl }

/-- What a window that its core fails leaves (R433). -/
theorem State.failCanary_spec {p : Nat} (sl : Slice) (hot : Bool) (hkept : (s.core p).retired = false) :
    let t := ((((s.endCanary p sl false hot).count (relReg 0x138) 1).count (relReg 0x140) 1).event 0x8004).retireCore p
    (t.core p).retired = true ∧
      (∀ k st, (s.core p).panel = some k → (s.panel k).running = some st → (t.core p).slice = (s.core p).slice.reload sl) ∧
      ((∀ k, (s.core p).panel = some k → (s.panel k).running = none) → (t.core p).panel = none ∧ (t.core p).logical = 0xFF ∧
        ∀ i, i < 32 → (t.core p).slice.tile i = .off) ∧
      p ∈ t.rel.retired ∧ t.rel.canaryState = .waiting ∧ p ∉ t.rel.canaryPassed ∧
      t.counter (relReg 0x140) = s.counter (relReg 0x140) + 1 := by
  let u := (((s.endCanary p sl false hot).count (relReg 0x138) 1).count (relReg 0x140) 1).event 0x8004
  have hcore : u.core p = { s.core p with slice := (s.core p).slice.reload sl } := (s.core_endCanary p sl false hot p).trans (if_pos rfl)
  have hruns : u.panelRuns p = s.panelRuns p := by
    rw [State.panelRuns, hcore]
    rfl
  obtain ⟨hretired, hmem, hstate, hpassed, hcounters⟩ := u.retireCore_spec (p := p) (by rw [hcore]; exact hkept)
  rw [hcore, hruns] at hretired
  refine ⟨?_, fun k st hk hrun => ?_, fun hnone => ?_, hmem, hstate, ?_, ?_⟩
  · rw [hretired, Core.retire]
    split <;> rfl
  · have hrunning : s.panelRuns p = true := by simp [State.panelRuns, hk, hrun]
    rw [hretired, Core.retire, if_pos hrunning]
  · have hidle : s.panelRuns p = false := by
      cases hk : (s.core p).panel with
      | none => simp [State.panelRuns, hk]
      | some k => simp [State.panelRuns, hk, hnone k hk]
    rw [hretired, Core.retire, if_neg (by simp [hidle])]
    exact ⟨rfl, rfl, fun i hi => Slice.tile_allOff _ hi⟩
  · have hlist : u.rel.canaryPassed = s.rel.canaryPassed.filter fun q => decide (q ≠ p) := rfl
    rw [hpassed, hlist]
    simp
  · have hcount : u.counter (relReg 0x140) = ((s.endCanary p sl false hot).count (relReg 0x138) 1).counter (relReg 0x140) + 1 :=
      (State.counter_count _ _ _ _).trans (if_pos rfl)
    have hother : ((s.endCanary p sl false hot).count (relReg 0x138) 1).counter (relReg 0x140) = s.counter (relReg 0x140) :=
      (State.counter_count _ _ _ _).trans (if_neg (by decide))
    rw [hcounters _ (by decide), hcount, hother]

/-- What a window that its core passes leaves. -/
theorem State.passCanary_spec (p : Nat) (sl : Slice) (hot : Bool) : let t := (s.endCanary p sl true hot).count (relReg 0x138) 1
    (t.core p).slice = (s.core p).slice.reload sl ∧ (t.core p).retired = (s.core p).retired ∧ t.rel.canaryState = .waiting ∧
      t.rel.canarySaved = none ∧ t.rel.canaryPass = true ∧ p ∈ t.rel.canaryPassed ∧ (∀ q, q ≠ p → t.core q = s.core q) ∧
      countersMoved [(relReg 0x138, 1)] s t := by
  have hcore (q : Nat) : ((s.endCanary p sl true hot).count (relReg 0x138) 1).core q = _ := s.core_endCanary p sl true hot q
  refine ⟨?_, ?_, rfl, rfl, rfl, List.mem_append_right _ (List.mem_singleton_self _), fun q hq => ?_, countersMoved_count s _ 1⟩
  · rw [hcore, if_pos rfl]
  · rw [hcore, if_pos rfl]
  · rw [hcore, if_neg hq]

end

/-- Settles O43: each command by its own lemma above. -/
theorem reliabilityUpkeep : Obligations.ReliabilityUpkeep := by
  unfold Obligations.ReliabilityUpkeep
  intro s
  refine ⟨fun off hon hscrub hinside hstays hgood hclean => ?scrub, fun v s1 n => ?unpoison, fun p hon hcanary hstate hpick => ?start,
    fun p sl hot cal hon hstate hcore hsaved hlight => ⟨⟨_, canaryWindowEnd_eq s true hot cal hon hstate hcore hsaved hlight,
      s.passCanary_spec p sl hot⟩, fun hkept => ⟨_, canaryWindowEnd_eq s false hot cal hon hstate hcore hsaved hlight,
      s.failCanary_spec sl hot hkept⟩⟩, fun die lane hon hdie => ⟨fun hroom => ?lane, fun hfull => ?full⟩⟩
  case scrub =>
    have hscrubs : Scrubs s off := ⟨hon, hscrub, hinside, hstays, hgood, hclean⟩
    have hread := (s.scrubAt off).scrubRead_reads off
    refine ⟨⟨_, hbmScrub_eq s hscrubs .clean, by rw [hread.frame]; rfl, hread.read, ?_⟩,
      ⟨_, hbmScrub_eq s hscrubs .corrected, s.noteCorrected_spec off⟩, fun hunrepaired => ⟨_, hbmScrub_eq s hscrubs .uncorrectable, ?_⟩⟩
    · dsimp only
      rw [hread.frame]
      rfl
    · have hnone : (((s.scrubAt off).scrubRead off).count (relReg 0x128) 1).repairFor (frameOf off) = none := by
        rw [hread.frame]
        exact hunrepaired
      have hcount : (((s.scrubAt off).scrubRead off).count (relReg 0x128) 1).counter (relReg 0x128) = s.counter (relReg 0x128) + 1 :=
        (State.counter_count _ _ _ _).trans ((if_pos rfl).trans (congrArg (· + 1) (hread.counters _ (by unfold relReg; omega))))
      obtain ⟨hpoisoned, hothers, hmem, hcounters⟩ := State.poisonOnly_spec (((s.scrubAt off).scrubRead off).count (relReg 0x128) 1) (frameOf off) false
      dsimp only
      rw [State.poisonFrame_of_unrepaired _ hnone]
      have hhbm : (((s.scrubAt off).scrubRead off).count (relReg 0x128) 1).hbm = s.hbm := by rw [hread.frame]; rfl
      refine ⟨hpoisoned, fun f hf => (hothers f hf).trans ?_, fun a ha => (hmem a ha).trans (by rw [hhbm]), (hcounters _ (by unfold relReg; omega)).trans hcount⟩
      rw [State.isPoisoned, hhbm, State.isPoisoned]
  case unpoison =>
    intro f slot hbar hwait hruns hgo hframe hread
    have heq := relUnpoisonGo_eq s hbar hwait hruns hgo hframe hread
    refine ⟨fun hn htype => ⟨_, heq.trans (congrArg _ (if_neg (by rintro (h | h); exacts [h hn, h htype]))), s1.zeroFrame_unpoison_spec f _⟩,
      fun hor => heq.trans (congrArg _ (if_pos hor))⟩
  case start =>
    rw [exec_canaryWindowStart, execCanaryWindowStart, if_neg (by simp [hon, hcanary, hstate]), hpick]
  case lane =>
    rw [exec_d2dLaneRetrain, execD2dLaneRetrain]
    dsimp only
    rw [if_neg (by simp [hon, hdie]), if_pos hroom]
    refine ⟨_, rfl, fun d => (Tab.get_set _ _ _ _ _).trans ?_, rfl⟩
    split
    · next h => rw [h]
    · rfl
  case full =>
    rw [exec_d2dLaneRetrain, execD2dLaneRetrain]
    dsimp only
    rw [if_neg (by simp [hon, hdie]), if_neg (by omega)]

end Sys2Proof.Machine
end

section
/-! PROOFS. Key slots: what an operation on one of them leaves alone, and what it leaves in it (17 R441 to R447). -/

namespace Sys2Proof.Machine

/-- From s to t one key slot moved, with the cache, counters, the numbers of materials, the sessions and the initial vectors. -/
structure KeysMove (slot : Nat) (s t : State) : Prop where
  frame : t = { s with sec := t.sec, msc := t.msc, counters := t.counters }
  sec : t.sec = { s.sec with slots := t.sec.slots, materials := t.sec.materials, ivs := t.sec.ivs, sessions := t.sec.sessions }
  other (i : Nat) : i ≠ slot → t.slot i = s.slot i

section
variable {s t u : State} {slot : Nat}

theorem KeysMove.refl (slot : Nat) (s : State) : KeysMove slot s s := ⟨rfl, rfl, fun _ _ => rfl⟩

theorem KeysMove.trans (h : KeysMove slot s t) (k : KeysMove slot t u) : KeysMove slot s u :=
  ⟨by rw [k.frame, h.frame], by rw [k.sec, h.sec], fun i hi => (k.other i hi).trans (h.other i hi)⟩

theorem KeysMove.modSlot (s : State) (slot : Nat) (f : KeySlot → KeySlot) : KeysMove slot s (s.modSlot slot f) :=
  ⟨rfl, rfl, fun i hi => (State.slot_modSlot s slot i f).trans (if_neg hi)⟩

/-- The users of a slot and what else reads no secret stay. -/
theorem KeysMove.fields (h : KeysMove slot s t) :
    t.out = s.out ∧ t.mgt = s.mgt ∧ t.cmd = s.cmd ∧ t.walker = s.walker ∧ t.sec.genWait = s.sec.genWait ∧ t.sec.rewriteWait = s.sec.rewriteWait ∧
      t.sec.shareWait = s.sec.shareWait ∧ t.sec.eraseWait = s.sec.eraseWait :=
  ⟨by rw [h.frame], by rw [h.frame], by rw [h.frame], by rw [h.frame], by rw [h.sec], by rw [h.sec], by rw [h.sec], by rw [h.sec]⟩

end

section
variable (s : State) (slot : Nat)

theorem State.slot_modSlot_self (f : KeySlot → KeySlot) : (s.modSlot slot f).slot slot = f (s.slot slot) :=
  (State.slot_modSlot s slot slot f).trans (if_pos rfl)

theorem State.dropGenLines_moves (g : BitVec 8) : KeysMove slot s (s.dropGenLines slot g) := ⟨rfl, rfl, fun _ _ => rfl⟩

theorem State.noteDestroyed_moves (g : BitVec 8) : KeysMove slot s (s.noteDestroyed slot g) :=
  (KeysMove.modSlot s slot _).trans ⟨rfl, rfl, fun _ _ => rfl⟩

/-! ### The destruction of generations (R445 to R447) -/

/-- The retiring generation of a slot that has none. -/
theorem State.destroyRetiring_of_none (h : (s.slot slot).retiring = none) : s.destroyRetiring slot = s := by
  rw [State.destroyRetiring, h]

/-- A retiring generation that is destroyed is noted, and its material is gone. -/
theorem State.destroyRetiring_of_some {g : BitVec 8} (h : (s.slot slot).retiring = some g) : s.destroyRetiring slot =
    ((s.modSlot slot fun k => { k with retiring := none, retMaterial := 0 }).dropGenLines slot g).noteDestroyed slot g := by
  rw [State.destroyRetiring, h]

theorem State.destroyRetiring_moves : KeysMove slot s (s.destroyRetiring slot) := by
  cases h : (s.slot slot).retiring with
  | none => rw [s.destroyRetiring_of_none slot h]; exact .refl slot s
  | some g =>
    rw [s.destroyRetiring_of_some slot h]
    exact ((KeysMove.modSlot s slot _).trans (State.dropGenLines_moves _ slot g)).trans (State.noteDestroyed_moves _ slot g)

/-- A slot with its retiring generation destroyed. -/
theorem State.slot_noteDestroyed (g : BitVec 8) : (s.noteDestroyed slot g).slot slot =
    { s.slot slot with destroyed := (g, s.time) :: (s.slot slot).destroyed.filter fun d => decide (d.1 ≠ g) } :=
  s.slot_modSlot_self slot _

/-- What stands in a slot once its retiring generation is destroyed. -/
theorem State.destroyRetiring_slot : let k := (s.destroyRetiring slot).slot slot
    k = { s.slot slot with retiring := none, retMaterial := k.retMaterial, destroyed := k.destroyed } ∧
      ((s.slot slot).retiring ≠ none → k.retMaterial = 0) ∧ (s.destroyRetiring slot).sec.materials = s.sec.materials := by
  cases h : (s.slot slot).retiring with
  | none =>
    rw [s.destroyRetiring_of_none slot h]
    refine ⟨?_, fun hne => absurd rfl hne, rfl⟩
    rw [← h]
  | some g =>
    rw [s.destroyRetiring_of_some slot h]
    have hfirst : ((s.modSlot slot fun k => { k with retiring := none, retMaterial := 0 }).dropGenLines slot g).slot slot =
        { s.slot slot with retiring := none, retMaterial := 0 } := s.slot_modSlot_self slot _
    dsimp only
    rw [State.slot_noteDestroyed, hfirst]
    exact ⟨rfl, fun _ => rfl, rfl⟩

/-- The counter of destroyed generations counts that of a slot which has one. -/
theorem State.destroyRetiring_counter {g : BitVec 8} (h : (s.slot slot).retiring = some g) :
    (s.destroyRetiring slot).counter (secReg 0x128) = s.counter (secReg 0x128) + 1 := by
  rw [s.destroyRetiring_of_some slot h]
  exact (State.counter_count _ _ _ _).trans (if_pos rfl)

/-- Both generations of a slot are destroyed. -/
def State.destroyBoth (s : State) (slot : Nat) : State :=
  ((s.destroyRetiring slot).dropGenLines slot (s.slot slot).gen).noteDestroyed slot (s.slot slot).gen

/-- A slot without material. -/
def KeySlot.emptied (k : KeySlot) : KeySlot := { k with type := 0, tenant := 0, material := 0, shared := false, closing := false }

/-- The session of a slot ends. -/
def State.endSession (s : State) (slot : Nat) : State := { s with sec := { s.sec with sessions := Tab.erase s.sec.sessions slot } }

theorem State.emptySlot_eq : s.emptySlot slot =
    if (s.slot slot).type = 0 then s.modSlot slot fun k => { k with closing := false }
    else ((s.destroyBoth slot).modSlot slot KeySlot.emptied).endSession slot := rfl

theorem State.destroyBoth_moves : KeysMove slot s (s.destroyBoth slot) :=
  ((s.destroyRetiring_moves slot).trans (State.dropGenLines_moves _ slot _)).trans (State.noteDestroyed_moves _ slot _)

/-- A slot that is emptied has lost both generations and its session. -/
theorem State.emptySlot_moves : KeysMove slot s (s.emptySlot slot) := by
  have hend (t : State) : KeysMove slot t (t.endSession slot) := ⟨rfl, rfl, fun _ _ => rfl⟩
  rw [State.emptySlot_eq]
  split
  · exact .modSlot s slot _
  · exact ((s.destroyBoth_moves slot).trans (.modSlot _ slot _)).trans (hend _)

/-- What stands in a slot that was emptied. -/
theorem State.emptySlot_slot (htype : (s.slot slot).type ≠ 0) : let k := (s.emptySlot slot).slot slot
    k.type = 0 ∧ k.material = 0 ∧ k.retiring = none ∧ k.gen = (s.slot slot).gen := by
  obtain ⟨hslot, -, -⟩ := s.destroyRetiring_slot slot
  have hnoted := State.slot_noteDestroyed ((s.destroyRetiring slot).dropGenLines slot (s.slot slot).gen) slot (s.slot slot).gen
  have hbefore : ((s.destroyRetiring slot).dropGenLines slot (s.slot slot).gen).slot slot = (s.destroyRetiring slot).slot slot := rfl
  have hend (t : State) : (t.endSession slot).slot slot = t.slot slot := rfl
  rw [hbefore, hslot] at hnoted
  rw [State.emptySlot_eq, if_neg htype, hend, State.slot_modSlot_self, State.destroyBoth, hnoted]
  exact ⟨rfl, rfl, rfl, rfl⟩

/-! ### Erasing (R446) -/

theorem State.mscClean_frame : s.mscClean slot = { s with msc := (s.mscClean slot).msc, counters := (s.mscClean slot).counters } :=
  List.foldlRecOn (motive := fun t : State => t = { s with msc := t.msc, counters := t.counters }) _ _ rfl fun t ht e _ => by
    dsimp only
    rw [ht]
    rfl

theorem State.beginErase_moves : KeysMove slot s (s.beginErase slot) := by
  have hclean : KeysMove slot s (s.mscClean slot) := by
    rw [s.mscClean_frame slot]
    exact ⟨rfl, rfl, fun _ _ => rfl⟩
  exact hclean.trans (.modSlot _ slot _)

/-- A slot that is being erased takes no new captures. -/
theorem State.beginErase_slot : (s.beginErase slot).slot slot = { s.slot slot with closing := true } := by
  have hsame : (s.mscClean slot).slot slot = s.slot slot := by
    rw [s.mscClean_frame slot]
    rfl
  rw [State.beginErase, State.slot_modSlot_self, hsame]

/-! ### New material (R445, R459) -/

/-- What a key command installs in its slot: new material, with what it replaces retiring. -/
structure Installed (s t : State) (slot type tenant : Nat) (g : BitVec 8) (shared : Bool) : Prop where
  type : (t.slot slot).type = type
  tenant : (t.slot slot).tenant = tenant
  gen : (t.slot slot).gen = g
  material : (t.slot slot).material = s.sec.materials + 1
  shared : (t.slot slot).shared = shared
  closing : (t.slot slot).closing = false
  retiring : (t.slot slot).retiring = if (s.slot slot).type = 0 then none else some (s.slot slot).gen
  retMaterial : (s.slot slot).type ≠ 0 → (t.slot slot).retMaterial = (s.slot slot).material
  other (i : Nat) : i ≠ slot → t.slot i = s.slot i

/-- New material in a slot, offered to the modules of a mask. -/
def State.newKey (s : State) (slot type tenant : Nat) (g : BitVec 8) (shared : Bool) (mask : Nat) : State :=
  ((s.destroyRetiring slot).installKey slot type tenant g shared).modSlot slot fun k => { k with mask := mask }

/-- A slot with new material. -/
def KeySlot.renew (type tenant : Nat) (g : BitVec 8) (material : Nat) (shared : Bool) (k : KeySlot) : KeySlot :=
  { k with
    type := type, tenant := tenant, gen := g, material := material,
    retiring := if k.type = 0 then none else some k.gen, retMaterial := if k.type = 0 then 0 else k.material,
    shared := shared, closing := false }

/-- The initial vectors of a slot's links are gone. -/
def State.dropIvs (s : State) (slot : Nat) : State :=
  { s with sec := { s.sec with ivs := s.sec.ivs.filter (fun e => decide (e.1 / 256 ≠ slot)) } }

theorem State.installKey_eq (type tenant : Nat) (g : BitVec 8) (shared : Bool) : s.installKey slot type tenant g shared =
    (s.newMaterial.2.modSlot slot (KeySlot.renew type tenant g (s.sec.materials + 1) shared)).dropIvs slot := rfl

theorem State.installKey_moves (type tenant : Nat) (g : BitVec 8) (shared : Bool) : KeysMove slot s (s.installKey slot type tenant g shared) := by
  have hdraw : KeysMove slot s s.newMaterial.2 := ⟨rfl, rfl, fun _ _ => rfl⟩
  have hivs (t : State) : KeysMove slot t (t.dropIvs slot) := ⟨rfl, rfl, fun _ _ => rfl⟩
  rw [State.installKey_eq]
  exact (hdraw.trans (.modSlot _ slot _)).trans (hivs _)

theorem State.installKey_slot (type tenant : Nat) (g : BitVec 8) (shared : Bool) :
    (s.installKey slot type tenant g shared).slot slot = (s.slot slot).renew type tenant g (s.sec.materials + 1) shared := by
  have hivs (t : State) : (t.dropIvs slot).slot slot = t.slot slot := rfl
  rw [State.installKey_eq, hivs, State.slot_modSlot_self]
  rfl

theorem State.newKey_moves (type tenant : Nat) (g : BitVec 8) (shared : Bool) (mask : Nat) :
    KeysMove slot s (s.newKey slot type tenant g shared mask) :=
  ((s.destroyRetiring_moves slot).trans (State.installKey_moves _ slot type tenant g shared)).trans (.modSlot _ slot _)

theorem State.newKey_installed (type tenant : Nat) (g : BitVec 8) (shared : Bool) (mask : Nat) :
    Installed s (s.newKey slot type tenant g shared mask) slot type tenant g shared ∧
      ((s.newKey slot type tenant g shared mask).slot slot).mask = mask := by
  obtain ⟨hslot, -, hmaterials⟩ := s.destroyRetiring_slot slot
  have hkey : (s.newKey slot type tenant g shared mask).slot slot =
      { ((s.destroyRetiring slot).slot slot).renew type tenant g ((s.destroyRetiring slot).sec.materials + 1) shared with mask := mask } := by
    rw [State.newKey, State.slot_modSlot_self, State.installKey_slot]
  rw [hslot, hmaterials] at hkey
  refine ⟨⟨?_, ?_, ?_, ?_, ?_, ?_, ?_, fun hne => ?_, (s.newKey_moves slot type tenant g shared mask).other⟩, ?_⟩ <;> rw [hkey, KeySlot.renew]
  exact if_neg hne

end

end Sys2Proof.Machine
end

section
/-! PROOFS. Steps that are stopped: what that leaves alone (16 R422, 17 R447). -/

namespace Sys2Proof.Machine

/-- From s to t steps ended or were stopped: the keys stand as they did, the contexts are bound as they were, and what runs ran before, for the
same context and under the same keys. -/
structure StopsSteps (s t : State) : Prop where
  sec : t.sec = s.sec
  bound (c : Nat) : (t.ctx c).bound = (s.ctx c).bound
  entry (c : Nat) : (t.ctx c).f = (s.ctx c).f
  runs (k : Nat) (st : Step) : (t.panel k).running = some st →
    ∃ old, (s.panel k).running = some old ∧ old.ctx = st.ctx ∧ old.keyGens = st.keyGens

section
variable {s t u : State}

theorem StopsSteps.refl (s : State) : StopsSteps s s := ⟨rfl, fun _ => rfl, fun _ => rfl, fun _ st h => ⟨st, h, rfl, rfl⟩⟩

theorem StopsSteps.trans (h : StopsSteps s t) (k : StopsSteps t u) : StopsSteps s u where
  sec := k.sec.trans h.sec
  bound c := (k.bound c).trans (h.bound c)
  entry c := (k.entry c).trans (h.entry c)
  runs p st hst := by
    obtain ⟨mid, hmid, hctx, hkeys⟩ := k.runs p st hst
    obtain ⟨old, hold, hctx', hkeys'⟩ := h.runs p mid hmid
    exact ⟨old, hold, hctx'.trans hctx, hkeys'.trans hkeys⟩

theorem StopsSteps.foldl {α : Type} {g : State → α → State} (h : ∀ s a, StopsSteps s (g s a)) (l : List α) (s : State) :
    StopsSteps s (l.foldl g s) :=
  List.foldlRecOn (motive := StopsSteps s) l g (.refl s) fun t ht a _ => ht.trans (h t a)

theorem StopsSteps.ite {c : Prop} [Decidable c] (h : StopsSteps s t) (k : StopsSteps s u) : StopsSteps s (if c then t else u) := by
  split
  · exact h
  · exact k

/-- A step that leaves the command processor and the keys alone. -/
theorem StopsSteps.of_cmd (hcmd : t.cmd = s.cmd) (hsec : t.sec = s.sec) : StopsSteps s t := by
  refine ⟨hsec, fun c => by rw [State.ctx, hcmd, State.ctx], fun c => by rw [State.ctx, hcmd, State.ctx], fun k st h => ⟨st, ?_, rfl, rfl⟩⟩
  rw [State.panel, hcmd] at h
  exact h

theorem StopsSteps.of_windows {ws : Tab Window} (hcmd : t.cmd = { s.cmd with windows := ws }) (hsec : t.sec = s.sec) : StopsSteps s t := by
  refine ⟨hsec, fun c => by rw [State.ctx, hcmd, State.ctx], fun c => by rw [State.ctx, hcmd, State.ctx], fun k st h => ⟨st, ?_, rfl, rfl⟩⟩
  rw [State.panel, hcmd] at h
  exact h

theorem DropsTranslations.stops (h : DropsTranslations s t) : StopsSteps s t := .of_windows (by rw [h.frame]) (by rw [h.frame])

theorem RecordOnly.stops (h : RecordOnly s t) : StopsSteps s t := by
  refine ⟨by rw [h.frame], fun c => by rw [h.ctx], fun c => by rw [h.ctx], fun k st hst => ⟨st, ?_, rfl, rfl⟩⟩
  rw [← h.panel]
  exact hst

/-- A change of one context's account and usage. -/
theorem StopsSteps.modCtx (s : State) (c : Nat) {f : Ctx → Ctx} (hbound : ∀ x, (f x).bound = x.bound) (hentry : ∀ x, (f x).f = x.f) :
    StopsSteps s (s.modCtx c f) := by
  refine ⟨rfl, fun i => ?_, fun i => ?_, fun k st hst => ⟨st, hst, rfl, rfl⟩⟩ <;> rw [State.ctx_modCtx] <;> split_ifs with h
  · rw [hbound, h]
  · rfl
  · rw [hentry, h]
  · rfl

/-- A change of one panel that keeps its step, or takes it off. -/
theorem StopsSteps.modPanel (s : State) (k : Nat) {f : Panel → Panel} (hf : ∀ pn, (f pn).running = pn.running ∨ (f pn).running = none) :
    StopsSteps s (s.modPanel k f) := by
  refine ⟨rfl, fun _ => rfl, fun _ => rfl, fun j st hst => ⟨st, ?_, rfl, rfl⟩⟩
  rw [State.panel_modPanel] at hst
  split_ifs at hst with h
  · rcases hf (s.panel k) with hkeep | hnone
    · rw [h, ← hkeep, hst]
    · rw [hnone] at hst
      exact absurd hst (by simp)
  · exact hst

/-- A change of every panel that keeps its step, for the same context and under the same keys. -/
theorem StopsSteps.mapPanels (s : State) {f : Panel → Panel}
    (hf : ∀ pn st, (f pn).running = some st → ∃ old, pn.running = some old ∧ old.ctx = st.ctx ∧ old.keyGens = st.keyGens) :
    StopsSteps s { s with cmd := { s.cmd with panels := s.cmd.panels.map fun e => (e.1, f e.2) } } := by
  refine ⟨rfl, fun _ => rfl, fun _ => rfl, fun k st hst => ?_⟩
  have hfind := Tab.find_map_val s.cmd.panels (fun _ pn => f pn) k
  rw [State.panel, Tab.get, hfind] at hst
  rw [State.panel, Tab.get]
  cases hk : Tab.find s.cmd.panels k with
  | none =>
    rw [hk] at hst
    exact absurd hst (by simp)
  | some pn =>
    rw [hk] at hst
    exact hf pn st hst

end

section
variable (s : State)

theorem State.stopPanel_stopsSteps (k : Nat) : StopsSteps s (s.stopPanel k) := by
  have hframe := (s.stopPanel_stops k).2
  exact .of_cmd (by rw [hframe]) (by rw [hframe])

theorem State.cancelWork_stopsSteps (c : Nat) : StopsSteps s (s.cancelWork c) := by
  have hframe := s.cancelWork_frame c
  dsimp only at hframe
  exact .of_cmd (by rw [hframe]) (by rw [hframe])

theorem State.foldl_modCore_stopsSteps (f : Core → Core) (ps : List Nat) :
    StopsSteps s (ps.foldl (fun (s : State) p => s.modCore p f) s) :=
  .foldl (fun s p => StopsSteps.of_cmd (t := s.modCore p f) rfl rfl) ps s

theorem State.clearPanel_stopsSteps (k c : Nat) : StopsSteps s (s.clearPanel k c) :=
  (s.foldl_modCore_stopsSteps Core.cleared _).trans (State.invNow_drops _ 1 c 0 0).stops

theorem State.freePanel_stopsSteps (k : Nat) : StopsSteps s (s.freePanel k) :=
  (StopsSteps.modPanel s k (fun _ => .inr rfl)).trans
    (State.foldl_modCore_stopsSteps _ (fun c => { c with slice := { c.slice with testSuspended := false } }) _)

/-- A panel that is free runs nothing. -/
theorem State.freePanel_running (k : Nat) : ((s.freePanel k).panel k).running = none := by
  have hcmd (t : State) (ps : List Nat) :
      (ps.foldl (fun (s : State) p => s.modSlice p (fun sl => { sl with testSuspended := false })) t).cmd = t.cmd :=
    List.foldlRecOn (motive := fun u : State => u.cmd = t.cmd) ps _ rfl fun _ hu _ _ => hu
  have hpanel := State.panel_modPanel s k k fun pn => { pn with state := .idle, running := none, windowOpen := false, haltSince := none }
  rw [State.freePanel, State.panel, hcmd]
  exact congrArg Panel.running (hpanel.trans (if_pos rfl))

theorem State.release_stopsSteps (c : Nat) : StopsSteps s (s.release c) := by
  have hkvs (t : State) : StopsSteps t (t.unregisterKvs c) := .foldl (fun t h => StopsSteps.of_cmd (t := t.modSelector h _) rfl rfl) _ t
  have hpost (t : State) : StopsSteps t (t.unregisterPost c) := .of_cmd rfl rfl
  have hboth (p q : Bool) : StopsSteps s (if q then (if p then s else s.unregisterKvs c) else (if p then s else s.unregisterKvs c).unregisterPost c) :=
    .ite (.ite (.refl s) (hkvs s)) (.trans (.ite (.refl s) (hkvs s)) (hpost _))
  exact hboth _ _

theorem State.dropNeed_stopsSteps (key : Nat) : StopsSteps s (s.dropNeed key) := by
  have hframe := (s.dropNeed_needs key).frame
  exact .of_cmd (by rw [hframe]) (by rw [hframe])

theorem State.dropCompanion_stopsSteps (w : Nat) : StopsSteps s (s.dropCompanion w) := by
  refine .trans (StopsSteps.mapPanels s (f := fun pn => { pn with queue := pn.queue.filter fun y => decide (y.window ≠ w) || !y.isComp })
    fun pn st h => ⟨st, h, rfl, rfl⟩) (State.dropNeed_stopsSteps _ _)

/-- A change of main steps that keeps their contexts and keys. -/
theorem State.modMain_stopsSteps (w : Nat) {f : Step → Step} (hctx : ∀ st, (f st).ctx = st.ctx) (hkeys : ∀ st, (f st).keyGens = st.keyGens) :
    StopsSteps s (s.modMain w f) := by
  refine StopsSteps.mapPanels s (f := fun pn => { pn with
    running := pn.running.map fun st => if st.window = w ∧ st.isComp = false then f st else st,
    queue := pn.queue.map fun st => if st.window = w ∧ st.isComp = false then f st else st,
    switched := pn.switched.map fun v => { v with step := if v.step.window = w ∧ v.step.isComp = false then f v.step else v.step } })
    fun pn st h => ?_
  obtain ⟨old, hold, rfl⟩ := Option.map_eq_some_iff.mp h
  refine ⟨old, hold, ?_, ?_⟩ <;> split_ifs
  · exact (hctx old).symm
  · rfl
  · exact (hkeys old).symm
  · rfl

theorem State.stepEnergy_stopsSteps : StopsSteps s s.stepEnergy.2 := .of_cmd rfl rfl

theorem State.takeAccount_stopsSteps (c : Nat) (st : Step) (e : W32) : StopsSteps s (s.modCtx c fun x => x.takeAccount st e) :=
  .modCtx s c (fun _ => rfl) fun _ => rfl

theorem State.endCompanion_stopsSteps (st : Step) (e : W32) : StopsSteps s (s.endCompanion st e) := by
  unfold State.endCompanion
  exact s.modMain_stopsSteps _ (fun _ => rfl) fun _ => rfl

theorem State.stopCompanion_stopsSteps (st : Step) (status : Half) : StopsSteps s (s.stopCompanion st status) :=
  (s.stepEnergy_stopsSteps.trans (State.endCompanion_stopsSteps _ _ _)).trans (State.takeAccount_stopsSteps _ _ _ _)

theorem State.denyState_stopsSteps : StopsSteps s s.denyState := by
  unfold State.denyState State.eventPerMs
  dsimp only
  split
  · split <;> exact .of_cmd rfl rfl
  · exact .of_cmd rfl rfl

theorem State.pickState_stopsSteps (k : Nat) (cs : List Nat) : StopsSteps s (s.pickState k cs).2 := by
  induction cs generalizing s with
  | nil => exact .refl s
  | cons c cs ih =>
    rw [State.pickState]
    split_ifs
    · exact ih s
    · exact s.denyState_stopsSteps.trans (ih s.denyState)
    · exact .refl s

theorem State.chooseState_stopsSteps (k : Nat) : StopsSteps s (s.chooseState k) := by
  unfold State.chooseState
  dsimp only
  split
  · exact .refl s
  · exact (s.pickState_stopsSteps k _).trans (State.foldl_modCore_stopsSteps _ (fun x => { x with cTarget := if x.cState = _ then none else some _ }) _)

/-! ### Running steps that are stopped -/

/-- What ends with a step that is stopped: its companion's part, or its registrations, its companion and its record. -/
def State.endStopped (s : State) (st full : Step) (status : Half) : State :=
  if st.isComp then s.stopCompanion full status else ((s.release st.ctx).dropCompanion st.window).recordStop full status

theorem State.endStopped_stopsSteps (st full : Step) (status : Half) : StopsSteps s (s.endStopped st full status) := by
  unfold State.endStopped
  split
  · exact s.stopCompanion_stopsSteps full status
  · exact ((s.release_stopsSteps _).trans (State.dropCompanion_stopsSteps _ _)).trans (State.recordStop_recordOnly _ _ _).stops

/-- A panel whose step was stopped, its cores clear. -/
def State.clearStopped (s : State) (k : Nat) (st : Step) : State := (((s.stopPanel k).cancelWork st.ctx).clearPanel k st.ctx).freePanel k

theorem State.killRunning_eq (k : Nat) (st : Step) (status : Half) : s.killRunning k st status =
    ((s.clearStopped k st).endStopped st (st.addBusy (s.busySums k)) status).chooseState k := by
  unfold State.killRunning State.endStopped State.clearStopped
  dsimp only

theorem State.clearStopped_stopsSteps (k : Nat) (st : Step) : StopsSteps s (s.clearStopped k st) :=
  (((s.stopPanel_stopsSteps k).trans (State.cancelWork_stopsSteps _ _)).trans (State.clearPanel_stopsSteps _ k _)).trans
    (State.freePanel_stopsSteps _ k)

/-- A step that is stopped runs no more. -/
theorem State.killRunning_stops (k : Nat) (st : Step) (status : Half) :
    StopsSteps s (s.killRunning k st status) ∧ ((s.killRunning k st status).panel k).running = none := by
  have hrest := (State.endStopped_stopsSteps (s.clearStopped k st) st (st.addBusy (s.busySums k)) status).trans (State.chooseState_stopsSteps _ k)
  rw [State.killRunning_eq]
  refine ⟨(s.clearStopped_stopsSteps k st).trans hrest, ?_⟩
  rw [Option.eq_none_iff_forall_ne_some]
  intro x hx
  obtain ⟨old, hold, -⟩ := hrest.runs k x hx
  have hfree : ((s.clearStopped k st).panel k).running = none := State.freePanel_running _ k
  rw [hfree] at hold
  exact absurd hold (by simp)

/-- A test of a step that asks for its context and its keys alone. -/
def OfContext (p : Step → Bool) : Prop := ∀ a b : Step, a.ctx = b.ctx → a.keyGens = b.keyGens → p a = p b

/-- The running step of one panel is stopped, if the test holds for it. -/
def State.killAt (s : State) (p : Step → Bool) (status : Half) (k : Nat) : State :=
  match (s.panel k).running with
  | some st => if p st then s.killRunning k st status else s
  | none => s

theorem State.killAt_stops (p : Step → Bool) (status : Half) (k : Nat) :
    StopsSteps s (s.killAt p status k) ∧ ∀ st, ((s.killAt p status k).panel k).running = some st → p st = false := by
  unfold State.killAt
  split
  · next st hst =>
    obtain ⟨hstops, hnone⟩ := s.killRunning_stops k st status
    split_ifs with hp
    · exact ⟨hstops, fun x hx => absurd (hnone.symm.trans hx) (by simp)⟩
    · refine ⟨.refl s, fun x hx => ?_⟩
      obtain rfl : st = x := Option.some.inj (hst.symm.trans hx)
      simpa using hp
  · next hnone => exact ⟨.refl s, fun x hx => absurd (hnone.symm.trans hx) (by simp)⟩

theorem State.foldl_killAt {p : Step → Bool} (hp : OfContext p) (status : Half) (ks : List Nat) :
    StopsSteps s (ks.foldl (fun s k => s.killAt p status k) s) ∧
      ∀ k ∈ ks, ∀ st, ((ks.foldl (fun s k => s.killAt p status k) s).panel k).running = some st → p st = false := by
  induction ks generalizing s with
  | nil => exact ⟨.refl s, fun k hk => absurd hk List.not_mem_nil⟩
  | cons j ks ih =>
    obtain ⟨hfirst, hkilled⟩ := s.killAt_stops p status j
    obtain ⟨hrest, hothers⟩ := ih (s.killAt p status j)
    refine ⟨hfirst.trans hrest, fun k hk st hst => ?_⟩
    rcases List.mem_cons.mp hk with rfl | hk
    · obtain ⟨old, hold, hctx, hkeys⟩ := hrest.runs k st hst
      rw [← hp old st hctx hkeys]
      exact hkilled old hold
    · exact hothers k hk st hst

/-- Every running step for which the test holds is stopped. -/
theorem State.killWhere_stops {p : Step → Bool} (hp : OfContext p) (status : Half) :
    StopsSteps s (s.killWhere p status) ∧ ∀ k < 16, ∀ st, ((s.killWhere p status).panel k).running = some st → p st = false := by
  obtain ⟨hstops, hkilled⟩ := s.foldl_killAt hp status (List.range 16)
  have heq : s.killWhere p status = (List.range 16).foldl (fun s k => s.killAt p status k) s := rfl
  rw [heq]
  exact ⟨hstops, fun k hk => hkilled k (List.mem_range.mpr hk)⟩

/-! ### Queued steps and packets that end -/

/-- The same step of a window: the main one, or its companion. -/
def Step.sameAs (st y : Step) : Bool := decide (y.window = st.window) && (y.isComp == st.isComp)

/-- A step that waits, with the time that it was switched out. -/
def State.awaited (s : State) (k : Nat) (st : Step) : Step :=
  ((s.panel k).switched.find? (fun v => st.sameAs v.step)).elim st fun v => { st with switchedNs := st.switchedNs + (s.time - v.since) }

/-- A panel whose queue and switched-out steps one step leaves. -/
def Panel.leave (st : Step) (pn : Panel) : Panel :=
  { pn with queue := pn.queue.filter (fun y => !st.sameAs y), switched := pn.switched.filter (fun v => !st.sameAs v.step) }

/-- A step that waits leaves its panel's queue. -/
def State.leaveQueue (s : State) (k : Nat) (st : Step) : State := (s.modPanel k (Panel.leave st)).dropNeed (s.awaited k st).needKey

theorem State.withdraw_eq (k : Nat) (st : Step) (status : Half) :
    s.withdraw k st status = (s.leaveQueue k st).endStopped (s.awaited k st) (s.awaited k st) status := by
  unfold State.withdraw State.endStopped State.leaveQueue State.awaited Panel.leave Step.sameAs
  dsimp only
  cases (s.panel k).switched.find? (fun v => decide (v.step.window = st.window) && (v.step.isComp == st.isComp)) <;> rfl

theorem State.withdraw_stopsSteps (k : Nat) (st : Step) (status : Half) : StopsSteps s (s.withdraw k st status) := by
  have hleave : StopsSteps s (s.leaveQueue k st) :=
    (StopsSteps.modPanel s k (f := Panel.leave st) fun _ => .inl rfl).trans (State.dropNeed_stopsSteps _ _)
  rw [State.withdraw_eq]
  exact hleave.trans (State.endStopped_stopsSteps _ _ _ _)

theorem State.withdrawWhere_stopsSteps (p : Step → Bool) (status : Half) : StopsSteps s (s.withdrawWhere p status) :=
  .foldl (fun s k => .foldl (fun s st => s.withdraw_stopsSteps k st status) _ s) _ s

theorem State.dropPackets_stopsSteps (c : Nat) (status : Half) : StopsSteps s (s.dropPackets c status) := by
  refine .foldl (fun t k => ?_) _ s
  split
  · split
    · have hend := (t.endPacket_drops k false ‹Packet› status 0).stops
      dsimp only
      split
      · exact hend.trans (State.ringError_recordOnly _ _ _ _).stops
      · exact hend
    · exact .refl t
  · exact .refl t

end

end Sys2Proof.Machine
end

section
/-! PROOFS. Key commands (17 R441, R444 to R447, R459). -/

namespace Sys2Proof.Machine

section
variable (s : State)

theorem exec_keyGen (slot type tenant : Nat) : exec (.keyGen slot type tenant) s = execKeyGen slot type tenant s := rfl
theorem exec_keyShare (slot type tenant mask : Nat) : exec (.keyShare slot type tenant mask) s = execKeyShare slot type tenant mask s := rfl
theorem exec_keyShareInstall (slot type tenant gen mask : Nat) :
    exec (.keyShareInstall slot type tenant gen mask) s = execKeyShareInstall slot type tenant gen mask s := rfl
theorem exec_keySharePeerTimeout : exec .keySharePeerTimeout s = execKeySharePeerTimeout s := rfl
theorem exec_generationReuseWaitExpiry (slot : Nat) :
    exec (.generationReuseWaitExpiry slot) s = execGenerationReuseWaitExpiry slot s := rfl
theorem exec_keyErase (slot : Nat) : exec (.keyErase slot) s = execKeyErase slot s := rfl
theorem exec_keyRevoke (slot : Nat) : exec (.keyRevoke slot) s = execKeyRevoke slot s := rfl
theorem exec_generationDestroy (slot : Nat) : exec (.generationDestroy slot) s = execGenerationDestroy slot s := rfl

/-! ### Replies -/

theorem State.mbxReply_sec (st : Half) (data : List Byte) : (s.mbxReply st data).sec = s.sec := by
  obtain ⟨_, _, _, _, _, h⟩ := s.mbxReply_frame st data
  rw [h]

/-- A reply stands while the mailbox does and nothing of what went out is lost. -/
theorem replied_of_mgt {s t : State} {st : Half} {data : List Byte} (h : replied st data s) (hmgt : t.mgt = s.mgt)
    (hout : ∀ o ∈ s.out, o ∈ t.out) : replied st data t := by
  obtain ⟨hbusy, hbar, hdoor⟩ := h
  refine ⟨?_, ?_, ?_⟩ <;> rw [hmgt]
  · exact hbusy
  · exact hbar
  · exact fun hne => hout _ (hdoor hne)

/-! ### New generations -/

/-- Nothing waits for a slot. -/
theorem State.retryKeys_of_none (hrewrite : s.sec.rewriteWait = none) (hgen : s.sec.genWait = none) (hshare : s.sec.shareWait = none) :
    s.retryKeys = s := by
  unfold State.retryKeys
  rw [hrewrite]
  dsimp only
  rw [hgen]
  dsimp only
  rw [hshare]

/-- A generation whose value has become free goes on. -/
theorem State.retryKeys_gen {w : GenWait} (hrewrite : s.sec.rewriteWait = none) (hgen : s.sec.genWait = some w)
    (hshare : (({ s with sec := { s.sec with genWait := none } } : State).tryKey w).sec.shareWait = none) :
    s.retryKeys = ({ s with sec := { s.sec with genWait := none } } : State).tryKey w := by
  unfold State.retryKeys
  rw [hrewrite]
  dsimp only
  rw [hgen]
  dsimp only
  rw [hshare]

/-- The other modules of a mask. -/
def State.sharers (s : State) (mask : Nat) : List Nat :=
  ((onesOf mask 8).filter (fun m => decide (m ≠ s.walker.boardSlot))).map (fun m => s.me / 8 * 8 + m)

/-- A key of this module alone is installed at once. -/
theorem State.finishKey_alone {w : GenWait} (hmask : w.mask = 0) :
    s.finishKey w = (s.newKey w.slot w.type w.tenant w.gen false 0).mbxReply 0 (leBytes 1 w.gen.toNat) := by
  have hpeers : ((onesOf 0 8).filter (fun m => decide (m ≠ s.walker.boardSlot))).map (fun m => s.me / 8 * 8 + m) = [] := by
    have hnone : onesOf 0 8 = [] := by decide
    rw [hnone]
    rfl
  unfold State.finishKey
  rw [hmask]
  dsimp only
  rw [hpeers]
  rfl

/-- A shared key of this module that is offered to others. -/
def State.offerKey (s : State) (w : GenWait) : State :=
  { s.newKey w.slot w.type w.tenant w.gen true w.mask with
    sec := { (s.newKey w.slot w.type w.tenant w.gen true w.mask).sec with shareSlot := w.slot, sharePeers := s.sharers w.mask }
    out := (s.newKey w.slot w.type w.tenant w.gen true w.mask).out ++ (s.sharers w.mask).map fun m => .share m w.slot w.gen }

/-- A shared key is installed and offered to the others. -/
theorem State.finishKey_shared {w : GenWait} (hmask : w.mask ≠ 0) (hown : bitAt w.mask s.walker.boardSlot = true)
    (hpeers : s.sharers w.mask ≠ []) : s.finishKey w = s.offerKey w := by
  have hsome : (s.sharers w.mask).isEmpty = false := by simpa using hpeers
  have hfinish : s.finishKey w = (s.sharers w.mask).foldl (fun s m => s.emit (.share m w.slot w.gen))
      { s.newKey w.slot w.type w.tenant w.gen true w.mask with
        sec := { (s.newKey w.slot w.type w.tenant w.gen true w.mask).sec with shareSlot := w.slot, sharePeers := s.sharers w.mask } } := by
    unfold State.sharers at hsome ⊢
    unfold State.finishKey State.newKey
    dsimp only
    rw [hsome, if_pos (Or.inr hown), decide_eq_true hmask]
    rfl
  rw [hfinish, State.foldl_emit, State.offerKey]

theorem State.offerKey_spec (w : GenWait) : let t := s.offerKey w
    Installed s t w.slot w.type w.tenant w.gen true ∧ (t.slot w.slot).mask = w.mask ∧ t.sec.sharePeers = s.sharers w.mask ∧
      t.sec.shareSlot = w.slot ∧ t.out = s.out ++ (s.sharers w.mask).map (fun m => .share m w.slot w.gen) ∧ t.mgt = s.mgt := by
  obtain ⟨hnew, hmasked⟩ := s.newKey_installed w.slot w.type w.tenant w.gen true w.mask
  obtain ⟨hout, hmgt, -⟩ := (s.newKey_moves w.slot w.type w.tenant w.gen true w.mask).fields
  have hoffered : (s.offerKey w).out = (s.newKey w.slot w.type w.tenant w.gen true w.mask).out ++
      (s.sharers w.mask).map (fun m => .share m w.slot w.gen) := rfl
  refine ⟨⟨hnew.type, hnew.tenant, hnew.gen, hnew.material, hnew.shared, hnew.closing, hnew.retiring, hnew.retMaterial, hnew.other⟩, hmasked,
    rfl, rfl, ?_, hmgt⟩
  rw [hoffered, hout]

/-- A command whose slot is free goes on. -/
theorem State.tryKey_finishes {w : GenWait} (hfree : s.genBlocked w.slot w.gen = false) (hmay : s.mayInstall w.slot w.gen = true)
    (hopen : (s.slot w.slot).closing = false) : s.tryKey w = s.finishKey w := by
  rw [State.tryKey, if_neg (by simp [hfree]), if_neg (by simp [hmay, hopen])]

/-- A key that is installed with a reply. -/
theorem State.newKey_reply (slot type tenant : Nat) (g : BitVec 8) :
    let t := (s.newKey slot type tenant g false 0).mbxReply 0 (leBytes 1 g.toNat)
    Installed s t slot type tenant g false ∧ replied 0 (leBytes 1 g.toNat) t := by
  have hinstalled := (s.newKey_installed slot type tenant g false 0).1
  have hslot (i : Nat) : ((s.newKey slot type tenant g false 0).mbxReply 0 (leBytes 1 g.toNat)).slot i = (s.newKey slot type tenant g false 0).slot i := by
    rw [State.slot, State.mbxReply_sec, State.slot]
  refine ⟨?_, State.mbxReply_replied _ _ _⟩
  obtain ⟨h1, h2, h3, h4, h5, h6, h7, h8, h9⟩ := hinstalled
  constructor <;> simp only [hslot] <;> assumption

section
variable {s} {slot type tenant : Nat} (hruns : s.mbxRuns 0x0220 = true) (hgen : s.sec.genWait = none) (hrewrite : s.sec.rewriteWait = none)
include hruns hgen hrewrite

theorem keyGen_refused (hbad : s.keyRefusal slot type tenant ≠ 0) :
    exec (.keyGen slot type tenant) s = .next (s.mbxReply (s.keyRefusal slot type tenant)) := by
  rw [exec_keyGen, execKeyGen, if_neg (by simp [hruns, hgen, hrewrite])]
  exact if_pos hbad

theorem keyGen_tries (hok : s.keyRefusal slot type tenant = 0) :
    exec (.keyGen slot type tenant) s = .next (s.tryKey { slot := slot, type := type, tenant := tenant, gen := s.nextGen slot }) := by
  rw [exec_keyGen, execKeyGen, if_neg (by simp [hruns, hgen, hrewrite])]
  exact if_neg (by simp [hok])

end

section
variable {s} {slot type tenant mask : Nat} (hruns : s.mbxRuns 0x0221 = true) (hgen : s.sec.genWait = none) (hrewrite : s.sec.rewriteWait = none)
  (hpeers : s.sec.sharePeers = [])
include hruns hgen hrewrite hpeers

theorem keyShare_refused (hbad : s.keyRefusal slot type tenant ≠ 0) :
    exec (.keyShare slot type tenant mask) s = .next (s.mbxReply (s.keyRefusal slot type tenant)) := by
  rw [exec_keyShare, execKeyShare, if_neg (by simp [hruns, hgen, hrewrite, hpeers])]
  exact if_pos hbad

theorem keyShare_tries (hok : s.keyRefusal slot type tenant = 0) (hmask : mask ≠ 0) (hlt : mask < 256) :
    exec (.keyShare slot type tenant mask) s =
      .next (s.tryKey { slot := slot, type := type, tenant := tenant, gen := s.nextGen slot, mask := mask }) := by
  rw [exec_keyShare, execKeyShare, if_neg (by simp [hruns, hgen, hrewrite, hpeers])]
  dsimp only
  rw [if_neg (by simp [hok]), if_neg (by omega)]

end

/-! ### Erasing and revoking (R446, R447) -/

/-- What an erase that is done leaves: the reply that it owes, and nothing of the slots. -/
theorem State.eraseDone_spec (slot : Nat) : let t := s.eraseDone slot
    t.sec.slots = s.sec.slots ∧ t.cmd = s.cmd ∧ t.sec.genWait = s.sec.genWait ∧ t.sec.rewriteWait = s.sec.rewriteWait ∧
      t.sec.shareWait = s.sec.shareWait ∧ (s.sec.eraseWait = some slot → replied 0 [] t) := by
  let u : State := if s.sec.eraseWait = some slot then ({ s with sec := { s.sec with eraseWait := none } } : State).mbxReply 0 else s
  have hu : u.sec.slots = s.sec.slots ∧ u.cmd = s.cmd ∧ u.sec.genWait = s.sec.genWait ∧ u.sec.rewriteWait = s.sec.rewriteWait ∧
      u.sec.shareWait = s.sec.shareWait ∧ (s.sec.eraseWait = some slot → replied 0 [] u) := by
    by_cases h : s.sec.eraseWait = some slot
    · have hsec := State.mbxReply_sec { s with sec := { s.sec with eraseWait := none } } 0 []
      have heq : u = ({ s with sec := { s.sec with eraseWait := none } } : State).mbxReply 0 := if_pos h
      rw [heq, hsec]
      exact ⟨rfl, State.mbxReply_cmd _ _ _, rfl, rfl, rfl, fun _ => State.mbxReply_replied _ _ _⟩
    · have heq : u = s := if_neg h
      rw [heq]
      exact ⟨rfl, rfl, rfl, rfl, rfl, fun h' => absurd h' h⟩
  have hdone : s.eraseDone slot = match u.sec.closeWait.find? (fun x => decide (x.1 = slot)) with
      | none => u
      | some (_, fn) => { u with sec := { u.sec with closeWait := u.sec.closeWait.filter (fun x => decide (x.1 ≠ slot)) } }.emit
          (.spdm (.doe fn) [0]) := rfl
  obtain ⟨hslots, hcmd, hgen, hrewrite, hshare, hreplied⟩ := hu
  rw [hdone]
  split
  · exact ⟨hslots, hcmd, hgen, hrewrite, hshare, hreplied⟩
  · exact ⟨hslots, hcmd, hgen, hrewrite, hshare, fun h => replied_of_mgt (hreplied h) rfl fun o ho => List.mem_append_left _ ho⟩

/-- The erase of a slot without users ends. -/
theorem State.settleErase_of_unused {slot : Nat} (hclosing : (s.slot slot).closing = true) (hunused : s.slotUsers slot = 0) :
    s.settleErase slot = (s.emptySlot slot).eraseDone slot := by
  rw [State.settleErase, hclosing, hunused]
  rfl

theorem State.settleErase_of_used {slot : Nat} (hused : s.slotUsers slot ≠ 0) : s.settleErase slot = s := by
  rw [State.settleErase, if_neg (by simp [hused])]

theorem keyErase_begins {slot : Nat} (hruns : s.mbxRuns 0x0222 = true) (hnone : s.sec.eraseWait = none) (hok : slotRefusal slot = 0)
    (htype : (s.slot slot).type ≠ 0) : exec (.keyErase slot) s =
      .next ((({ s with sec := { s.sec with eraseWait := some slot } } : State).beginErase slot).settleErase slot) := by
  rw [exec_keyErase, execKeyErase, if_neg (by simp [hruns, hnone]), if_neg (by simp [hok]), if_neg htype]

/-- The state of an erase that has begun. -/
def State.eraseStarted (s : State) (slot : Nat) : State := ({ s with sec := { s.sec with eraseWait := some slot } } : State).beginErase slot

theorem State.eraseStarted_moves (slot : Nat) :
    KeysMove slot { s with sec := { s.sec with eraseWait := some slot } } (s.eraseStarted slot) := State.beginErase_moves _ slot

theorem State.eraseStarted_slot (slot : Nat) : (s.eraseStarted slot).slot slot = { s.slot slot with closing := true } :=
  State.beginErase_slot { s with sec := { s.sec with eraseWait := some slot } } slot

/-- An erase without users empties its slot and replies. -/
theorem State.eraseStarted_ends {slot : Nat} (htype : (s.slot slot).type ≠ 0) : let t := ((s.eraseStarted slot).emptySlot slot).eraseDone slot
    replied 0 [] t ∧ (t.slot slot).type = 0 ∧ (t.slot slot).material = 0 ∧ (t.slot slot).retiring = none ∧
      (t.slot slot).gen = (s.slot slot).gen ∧ ∀ i, i ≠ slot → t.slot i = s.slot i := by
  have hstarted := s.eraseStarted_slot slot
  have hempty := (s.eraseStarted slot).emptySlot_moves slot
  obtain ⟨-, -, -, -, -, -, -, hwait⟩ := hempty.fields
  obtain ⟨-, -, -, -, -, -, -, hwait'⟩ := (s.eraseStarted_moves slot).fields
  obtain ⟨hslots, -, -, -, -, hreplied⟩ := ((s.eraseStarted slot).emptySlot slot).eraseDone_spec slot
  obtain ⟨htype0, hmaterial, hretiring, hgen⟩ := (s.eraseStarted slot).emptySlot_slot slot (by rw [hstarted]; exact htype)
  have hslot (i : Nat) : (((s.eraseStarted slot).emptySlot slot).eraseDone slot).slot i = ((s.eraseStarted slot).emptySlot slot).slot i := by
    rw [State.slot, hslots, State.slot]
  rw [hstarted] at hgen
  dsimp only
  simp only [hslot]
  exact ⟨hreplied (hwait.trans hwait'), htype0, hmaterial, hretiring, hgen,
    fun i hi => (hempty.other i hi).trans ((s.eraseStarted_moves slot).other i hi)⟩

/-- A step that a revocation stops: it captured the slot, and its context is not frozen. -/
def State.revokes (s : State) (slot : Nat) (st : Step) : Bool := s.capturedBy slot st && !s.stopping st.ctx

theorem State.revokes_ofContext (slot : Nat) : OfContext (s.revokes slot) := fun a b hctx hkeys => by
  rw [State.revokes, State.capturedBy, hctx, hkeys, State.revokes, State.capturedBy]

/-- The users of a slot are stopped. -/
def State.stopUsers (s : State) (slot : Nat) : State := (s.killWhere (s.revokes slot) 7).withdrawWhere (s.revokes slot) 7

/-- The users of a slot are stopped and their work is cancelled. -/
def State.abortUsers (s : State) (slot : Nat) : State :=
  ((Tab.keys (s.stopUsers slot).cmd.ctxs).filter fun c =>
    ((s.stopUsers slot).ctx c).bound && (ctxSlots ((s.stopUsers slot).ctx c).f).contains slot).foldl (fun s c => s.cancelWork c) (s.stopUsers slot)

theorem State.revokeSlot_eq {slot : Nat} (htype : (s.slot slot).type ≠ 0) :
    s.revokeSlot slot = ((s.abortUsers slot).emptySlot slot).eraseDone slot := by
  have hrevokes : s.revokes slot = fun st => s.capturedBy slot st && !s.stopping st.ctx := rfl
  unfold State.revokeSlot State.abortUsers State.stopUsers
  rw [if_neg htype, hrevokes]

theorem State.abortUsers_stops (slot : Nat) : StopsSteps s (s.abortUsers slot) ∧
    ∀ k < 16, ∀ st, ((s.abortUsers slot).panel k).running = some st → s.revokes slot st = false := by
  obtain ⟨hkill, hkilled⟩ := s.killWhere_stops (s.revokes_ofContext slot) 7
  have hrest : StopsSteps (s.killWhere (s.revokes slot) 7) (s.abortUsers slot) :=
    (State.withdrawWhere_stopsSteps _ _ 7).trans (.foldl (fun t c => t.cancelWork_stopsSteps c) _ _)
  refine ⟨hkill.trans hrest, fun k hk st hst => ?_⟩
  obtain ⟨old, hold, hctx, hkeys⟩ := hrest.runs k st hst
  rw [← s.revokes_ofContext slot old st hctx hkeys]
  exact hkilled k hk old hold

/-- What the revocation of a slot leaves (R447). -/
theorem State.revokeSlot_spec {slot : Nat} (htype : (s.slot slot).type ≠ 0) : let t := s.revokeSlot slot
    (t.slot slot).type = 0 ∧ (t.slot slot).material = 0 ∧ (t.slot slot).retiring = none ∧
      t.sec.genWait = s.sec.genWait ∧ t.sec.rewriteWait = s.sec.rewriteWait ∧ t.sec.shareWait = s.sec.shareWait ∧
      ∀ k < 16, ∀ st, (t.panel k).running = some st → s.revokes slot st = false := by
  obtain ⟨habort, hkilled⟩ := s.abortUsers_stops slot
  have hbefore : (s.abortUsers slot).slot slot = s.slot slot := by rw [State.slot, habort.sec, State.slot]
  obtain ⟨hslots, hcmd, hgen, hrewrite, hshare, -⟩ := ((s.abortUsers slot).emptySlot slot).eraseDone_spec slot
  obtain ⟨-, -, hcmd', -, hgen', hrewrite', hshare', -⟩ := ((s.abortUsers slot).emptySlot_moves slot).fields
  obtain ⟨htype0, hmaterial, hretiring, -⟩ := (s.abortUsers slot).emptySlot_slot slot (by rw [hbefore]; exact htype)
  have hslot : (((s.abortUsers slot).emptySlot slot).eraseDone slot).slot slot = ((s.abortUsers slot).emptySlot slot).slot slot := by
    rw [State.slot, hslots, State.slot]
  have hpanel (k : Nat) : (((s.abortUsers slot).emptySlot slot).eraseDone slot).panel k = (s.abortUsers slot).panel k := by
    rw [State.panel, hcmd, hcmd', State.panel]
  rw [s.revokeSlot_eq htype]
  dsimp only
  rw [hslot, hgen, hrewrite, hshare, hgen', hrewrite', hshare', habort.sec]
  simp only [hpanel]
  exact ⟨htype0, hmaterial, hretiring, trivial, trivial, trivial, hkilled⟩

end

/-- Settles O44: the installation of keys by `State.newKey_installed`, erasing by `State.eraseStarted_ends`, revocation by
`State.revokeSlot_spec`. -/
theorem keyCommands : Obligations.KeyCommands := by
  unfold Obligations.KeyCommands
  intro s slot type tenant k hk hgenWait hrewriteWait hshareWait hpeersNone heraseWait
  subst hk
  intro g free others installed
  have hinstalled {t : State} {g' : BitVec 8} {shared : Bool} (h : Installed s t slot type tenant g' shared) : installed t g' shared :=
    ⟨h.type, h.tenant, h.gen, h.material, h.shared, h.closing, h.retiring, h.retMaterial, h.other⟩
  refine ⟨fun hruns => ?gen, fun mask hruns => ?share, fun gen mask hlinks hpos hlt htype0 htype4 => ?install,
    fun w hslot htype htenant hmask hon hfree hmay hopen => ?reuse, fun p ps hruns => ?timeout, fun hruns hok => ?erase,
    fun hruns hok htype => ?revoke, fun r hon hopen hretiring hunused => ?destroy⟩
  case gen =>
    refine ⟨fun hbad => ⟨_, keyGen_refused hruns hgenWait hrewriteWait hbad, State.mbxReply_replied _ _ _, State.mbxReply_sec _ _ _⟩,
      fun hok hblocked => ⟨_, keyGen_tries hruns hgenWait hrewriteWait hok, ?_⟩, fun hok hfree hwait => ?_, fun hok hfree => ?_⟩
    · rw [State.tryKey, if_pos hblocked]
      exact ⟨rfl, rfl, rfl⟩
    · rw [keyGen_tries hruns hgenWait hrewriteWait hok, State.tryKey, if_neg (by simpa using hfree), if_pos (by simpa using hwait)]
    · obtain ⟨hblocked, hmay, hopen⟩ := hfree
      obtain ⟨hnew, hreplied⟩ := s.newKey_reply slot type tenant g
      refine ⟨_, (keyGen_tries hruns hgenWait hrewriteWait hok).trans ?_, hinstalled hnew, hreplied⟩
      rw [State.tryKey_finishes s hblocked hmay hopen, State.finishKey_alone s rfl]
  case share =>
    refine ⟨fun hbad => ⟨_, keyShare_refused hruns hgenWait hrewriteWait hpeersNone hbad, State.mbxReply_replied _ _ _, State.mbxReply_sec _ _ _⟩,
      fun hok hfree hlt hown hpeers => ?_⟩
    obtain ⟨hblocked, hmay, hopen⟩ := hfree
    have hmask : mask ≠ 0 := by
      rintro rfl
      simp [bitAt] at hown
    obtain ⟨hnew, hmasked, hpeersNow, hslotNow, hout, hmgt⟩ := s.offerKey_spec { slot := slot, type := type, tenant := tenant, gen := g, mask := mask }
    have heq := keyShare_tries hruns hgenWait hrewriteWait hpeersNone hok hmask hlt
    rw [State.tryKey_finishes s hblocked hmay hopen, State.finishKey_shared s (w := ⟨slot, type, tenant, g, mask⟩) hmask hown hpeers] at heq
    exact ⟨_, heq, hinstalled hnew, hmasked, hpeersNow, hslotNow, hout, hmgt⟩
  case install =>
    have heq : exec (.keyShareInstall slot type tenant gen mask) s =
        .next (s.tryShare { slot := slot, type := type, tenant := tenant, gen := BitVec.ofNat 8 gen, mask := mask }) := by
      rw [exec_keyShareInstall, execKeyShareInstall, if_neg]
      simp only [hlinks, hshareWait, Bool.not_true, Option.isSome_none, Bool.or_false, Bool.false_or, decide_eq_true_eq]
      omega
    refine ⟨fun hmay hopen => ?_, fun hwait => ?_⟩
    · obtain ⟨hnew, hmasked⟩ := s.newKey_installed slot type tenant (BitVec.ofNat 8 gen) true mask
      have hout := (s.newKey_moves slot type tenant (BitVec.ofNat 8 gen) true mask).fields.1
      have hshare : s.tryShare { slot := slot, type := type, tenant := tenant, gen := BitVec.ofNat 8 gen, mask := mask } =
          (s.newKey slot type tenant (BitVec.ofNat 8 gen) true mask).emit (.shareAnswer slot (BitVec.ofNat 8 gen)) := by
        rw [State.tryShare, if_neg (by simp [hmay, hopen])]
        rfl
      exact ⟨_, heq.trans (congrArg _ hshare), hinstalled ⟨hnew.type, hnew.tenant, hnew.gen, hnew.material, hnew.shared, hnew.closing,
        hnew.retiring, hnew.retMaterial, hnew.other⟩, hmasked, congrArg (· ++ [_]) hout⟩
    · rw [heq, State.tryShare, if_pos (by simpa using hwait)]
  case reuse =>
    obtain ⟨wslot, wtype, wtenant, wgen, wmask⟩ := w
    obtain rfl : wslot = slot := hslot
    obtain rfl : wtype = type := htype
    obtain rfl : wtenant = tenant := htenant
    obtain rfl : wmask = 0 := hmask
    let u : State := { s with sec := { s.sec with genWait := none } }
    have htry : u.tryKey ⟨wslot, wtype, wtenant, wgen, 0⟩ = (u.newKey wslot wtype wtenant wgen false 0).mbxReply 0 (leBytes 1 wgen.toNat) := by
      rw [State.tryKey_finishes u (w := ⟨wslot, wtype, wtenant, wgen, 0⟩) hfree hmay hopen, State.finishKey_alone u rfl]
    obtain ⟨hnew, hreplied⟩ := u.newKey_reply wslot wtype wtenant wgen
    obtain ⟨-, -, -, -, hgen, -, hshare, -⟩ := (u.newKey_moves wslot wtype wtenant wgen false 0).fields
    have hsec := State.mbxReply_sec (u.newKey wslot wtype wtenant wgen false 0) 0 (leBytes 1 wgen.toNat)
    have hretry := State.retryKeys_gen { s with sec := { s.sec with genWait := some ⟨wslot, wtype, wtenant, wgen, 0⟩ } } hrewriteWait rfl
      ((congrArg (fun t : State => t.sec.shareWait) htry).trans ((congrArg Sec.shareWait hsec).trans (hshare.trans hshareWait)))
    refine ⟨_, (exec_generationReuseWaitExpiry _ _).trans ((if_pos ?_).trans (congrArg _ (hretry.trans htry))), hinstalled ?_, hreplied,
      (congrArg Sec.genWait hsec).trans hgen⟩
    · exact Bool.and_eq_true_iff.mpr ⟨hon, by simp⟩
    · exact ⟨hnew.type, hnew.tenant, hnew.gen, hnew.material, hnew.shared, hnew.closing, hnew.retiring, hnew.retMaterial, hnew.other⟩
  case timeout =>
    refine ⟨_, (exec_keySharePeerTimeout _).trans (if_pos ?_), State.mbxReply_replied _ _ _, ?_, ?_⟩
    · exact Bool.and_eq_true_iff.mpr ⟨hruns, rfl⟩
    · rw [State.mbxReply_sec]
    · rw [State.mbxReply_sec]
  case erase =>
    refine ⟨fun hempty => ⟨_, ?_, State.mbxReply_replied _ _ _, State.mbxReply_sec _ _ _⟩, ?_⟩
    · rw [exec_keyErase, execKeyErase, if_neg (by simp [hruns, heraseWait]), if_neg (by simp [hok]), if_pos hempty]
    · have hclosing : ((s.eraseStarted slot).slot slot).closing = true := by rw [s.eraseStarted_slot]
      refine ⟨fun htype hunused => ⟨_, (keyErase_begins s hruns heraseWait hok htype).trans
        (congrArg _ (State.settleErase_of_unused _ hclosing hunused)), s.eraseStarted_ends htype⟩, fun htype hused => ⟨?_, s.eraseStarted_slot slot, ?_⟩⟩
      · rw [keyErase_begins s hruns heraseWait hok htype, State.settleErase_of_used _ hused]
      · exact (s.eraseStarted_moves slot).other
  case revoke =>
    obtain ⟨htype0, hmaterial, hretiring, hgen, hrewrite, hshare, hkilled⟩ := s.revokeSlot_spec htype
    have heq : exec (.keyRevoke slot) s = .next ((s.revokeSlot slot).mbxReply 0) := by
      rw [exec_keyRevoke, execKeyRevoke, if_neg (by simp [hruns]), if_neg (by simp [hok]),
        State.retryKeys_of_none _ (hrewrite.trans hrewriteWait) (hgen.trans hgenWait) (hshare.trans hshareWait)]
    have hslot (i : Nat) : ((s.revokeSlot slot).mbxReply 0).slot i = (s.revokeSlot slot).slot i := by
      rw [State.slot, State.mbxReply_sec, State.slot]
    refine ⟨_, heq, State.mbxReply_replied _ _ _, ?_, ?_, ?_, fun p hp st hst hfree => ?_⟩
    · rw [hslot, htype0]
    · rw [hslot, hmaterial]
    · rw [hslot, hretiring]
    · rw [State.panel_mbxReply] at hst
      have hnot := hkilled p hp st hst
      rw [State.revokes, hfree] at hnot
      simpa using hnot
  case destroy =>
    obtain ⟨hslot, hzero, -⟩ := s.destroyRetiring_slot slot
    have hmoves := s.destroyRetiring_moves slot
    obtain ⟨-, -, -, -, hgen, hrewrite, hshare, -⟩ := hmoves.fields
    have heq : exec (.generationDestroy slot) s = .next (s.destroyRetiring slot) := by
      rw [exec_generationDestroy, execGenerationDestroy, if_neg (by simp [hon])]
      dsimp only
      rw [if_neg (by simp [hopen]), hretiring]
      dsimp only
      rw [if_pos hunused, State.retryKeys_of_none _ (hrewrite.trans hrewriteWait) (hgen.trans hgenWait) (hshare.trans hshareWait)]
    refine ⟨_, heq, by rw [hslot], hzero (by simp [hretiring]), by rw [hslot], by rw [hslot], hmoves.other,
      s.destroyRetiring_counter slot hretiring⟩

end Sys2Proof.Machine
end

section
/-! PROOFS. SPDM requests and sessions (17 R451 to R453). -/

namespace Sys2Proof.Machine

section
variable (s : State)

theorem exec_sessionOpen (fn ctx : Nat) (key nonce : List Byte) : exec (.sessionOpen fn ctx key nonce) s = execSessionOpen fn ctx key nonce s := rfl
theorem exec_sessionClose (fn slot : Nat) : exec (.sessionClose fn slot) s = execSessionClose fn slot s := rfl

/-- A request at an open door is answered there. -/
theorem State.spdm_of_open {d : SpdmDoor} (hopen : s.spdmOpen d = true) (data : List Byte) : s.spdm d data = .next (s.emit (.spdm d data)) :=
  if_pos hopen

/-! ### Opening a session (R452) -/

/-- A session in its slot. -/
def State.startSession (s : State) (i ctx fn : Nat) : State :=
  let t := s.installKey i 3 (s.ctx ctx).f.tenant.toNat (s.nextGen i) false
  { t with sec := { t.sec with sessions := Tab.set t.sec.sessions i { ctx := ctx, fn := fn } } }

/-- The answer to a session that opens. -/
def State.answerSession (s : State) (i fn : Nat) (g : BitVec 8) : State :=
  ((s.drawBytes 225).2.count (secReg 0x100) 1).emit (.spdm (.doe fn) (leBytes 2 0 ++ leBytes 1 i ++ leBytes 1 g.toNat ++ (s.drawBytes 225).1))

theorem sessionOpen_opens {fn ctx i : Nat} (key nonce : List Byte) (hopen : s.spdmOpen (.doe fn) = true) (hbound : (s.ctx ctx).bound = true)
    (hsecure : (s.ctx ctx).f.secure = true) (hfn : (s.ctx ctx).f.fn.toNat = fn) (hdeployed : s.sec.lifecycle = .deployed)
    (hhealthy : s.sec.healthy = true) (hfree : s.freeSlot = some i) :
    exec (.sessionOpen fn ctx key nonce) s = .next ((s.startSession i ctx fn).answerSession i fn (s.nextGen i)) := by
  rw [exec_sessionOpen, execSessionOpen]
  dsimp only
  rw [if_neg (by simp [hopen]), if_neg (by simp [hbound, hsecure, hfn]), if_neg (by simp [hdeployed]), if_neg (by simp [hhealthy]), hfree]
  rfl

theorem sessionOpen_refuses {fn ctx : Nat} (key nonce : List Byte) (hopen : s.spdmOpen (.doe fn) = true)
    (hbad : (s.ctx ctx).bound = false ∨ (s.ctx ctx).f.secure = false ∨ (s.ctx ctx).f.fn.toNat ≠ fn) :
    exec (.sessionOpen fn ctx key nonce) s = .next (s.emit (.spdm (.doe fn) (leBytes 2 2))) := by
  have hrefused : (!(s.ctx ctx).bound || !(s.ctx ctx).f.secure || decide ((s.ctx ctx).f.fn.toNat ≠ fn)) = true := by
    rcases hbad with h | h | h <;> simp [h]
  rw [exec_sessionOpen, execSessionOpen]
  dsimp only
  rw [if_neg (by simp [hopen]), if_pos hrefused]

/-- A session that starts moves the keys and the sessions alone. -/
theorem State.startSession_frame (i ctx fn : Nat) : ∃ ivs, s.startSession i ctx fn = { s with sec := { s.sec with
    slots := (s.installKey i 3 (s.ctx ctx).f.tenant.toNat (s.nextGen i) false).sec.slots, materials := s.sec.materials + 1, ivs := ivs,
    sessions := Tab.set s.sec.sessions i { ctx := ctx, fn := fn } } } := ⟨_, rfl⟩

/-- What a session that opens leaves. -/
theorem State.startSession_spec (i ctx fn : Nat) : let t := (s.startSession i ctx fn).answerSession i fn (s.nextGen i)
    (t.slot i).type = 3 ∧ (t.slot i).tenant = (s.ctx ctx).f.tenant.toNat ∧ (t.slot i).gen = s.nextGen i ∧
      (t.slot i).material = s.sec.materials + 1 ∧ Tab.find t.sec.sessions i = some { ctx := ctx, fn := fn } ∧
      (∀ j, j ≠ i → t.slot j = s.slot j ∧ Tab.find t.sec.sessions j = Tab.find s.sec.sessions j) ∧
      t.out = s.out ++ [.spdm (.doe fn) (leBytes 2 0 ++ leBytes 1 i ++ leBytes 1 (s.nextGen i).toNat ++ ((s.startSession i ctx fn).drawBytes 225).1)] ∧
      countersMoved [(secReg 0x100, 1)] s t := by
  have hinstalled := s.installKey_slot i 3 (s.ctx ctx).f.tenant.toNat (s.nextGen i) false
  have hmoves := s.installKey_moves i 3 (s.ctx ctx).f.tenant.toNat (s.nextGen i) false
  obtain ⟨ivs, hframe⟩ := s.startSession_frame i ctx fn
  have hslot (j : Nat) : ((s.startSession i ctx fn).answerSession i fn (s.nextGen i)).slot j =
      (s.installKey i 3 (s.ctx ctx).f.tenant.toNat (s.nextGen i) false).slot j := by
    rw [hframe]
    rfl
  have hsessions : ((s.startSession i ctx fn).answerSession i fn (s.nextGen i)).sec.sessions =
      Tab.set s.sec.sessions i { ctx := ctx, fn := fn } := by
    rw [hframe]
    rfl
  dsimp only
  simp only [hslot, hsessions]
  rw [hinstalled]
  refine ⟨rfl, rfl, rfl, rfl, Tab.find_set_self _ _ _, fun j hj => ⟨hmoves.other j hj, Tab.find_set_of_ne _ _ hj⟩, ?_, ?_⟩
  · rw [hframe]
    rfl
  · rw [hframe]
    exact countersMoved_count s _ 1

/-! ### Closing a session (R453) -/

/-- A session's close that waits for its slot. -/
def State.closing (s : State) (slot fn : Nat) : State := ({ s with sec := { s.sec with closeWait := [(slot, fn)] } } : State).beginErase slot

theorem sessionClose_begins {fn slot : Nat} {ses : Session} (hopen : s.spdmOpen (.doe fn) = true)
    (hfind : Tab.find s.sec.sessions slot = some ses) (hfn : ses.fn = fn) (hnil : s.sec.closeWait = []) :
    exec (.sessionClose fn slot) s = .next ((s.closing slot fn).settleErase slot) := by
  rw [exec_sessionClose, execSessionClose, if_neg (by simp [hopen]), hfind]
  dsimp only
  rw [if_neg (by simp [hfn]), hnil]
  rfl

theorem sessionClose_unknown {fn slot : Nat} (hopen : s.spdmOpen (.doe fn) = true) (hnone : Tab.find s.sec.sessions slot = none) :
    exec (.sessionClose fn slot) s = .next (s.emit (.spdm (.doe fn) (leBytes 2 2))) := by
  rw [exec_sessionClose, execSessionClose, if_neg (by simp [hopen]), hnone]

theorem State.closing_moves (slot fn : Nat) : KeysMove slot { s with sec := { s.sec with closeWait := [(slot, fn)] } } (s.closing slot fn) :=
  State.beginErase_moves _ slot

theorem State.closing_slot (slot fn : Nat) : (s.closing slot fn).slot slot = { s.slot slot with closing := true } :=
  State.beginErase_slot { s with sec := { s.sec with closeWait := [(slot, fn)] } } slot

/-- An erase that a session alone waits for answers the session. -/
theorem State.eraseDone_session {slot fn : Nat} (herase : s.sec.eraseWait ≠ some slot) (hclose : s.sec.closeWait = [(slot, fn)]) :
    s.eraseDone slot = ({ s with sec := { s.sec with closeWait := [] } } : State).emit (.spdm (.doe fn) [0]) := by
  have hfind : [(slot, fn)].find? (fun x => decide (x.1 = slot)) = some (slot, fn) := by simp
  have hrest : [(slot, fn)].filter (fun x => decide (x.1 ≠ slot)) = [] := by simp
  unfold State.eraseDone
  rw [if_neg herase]
  dsimp only
  rw [hclose, hfind]
  dsimp only
  rw [hrest]

theorem KeysMove.closeWait {slot : Nat} {s t : State} (h : KeysMove slot s t) : t.sec.closeWait = s.sec.closeWait := by rw [h.sec]

/-- A slot that is emptied has no session. -/
theorem State.emptySlot_sessions {slot : Nat} (htype : (s.slot slot).type ≠ 0) : Tab.find (s.emptySlot slot).sec.sessions slot = none := by
  rw [State.emptySlot_eq, if_neg htype]
  exact (Tab.find_erase _ slot slot).trans (if_pos rfl)

/-- What a session that closes leaves. -/
theorem State.closing_ends {slot fn : Nat} (htype : (s.slot slot).type ≠ 0) (herase : s.sec.eraseWait ≠ some slot) :
    let t := ((s.closing slot fn).emptySlot slot).eraseDone slot
    (t.slot slot).type = 0 ∧ (t.slot slot).material = 0 ∧ Tab.find t.sec.sessions slot = none ∧ t.out = s.out ++ [.spdm (.doe fn) [0]] := by
  have hstarted := s.closing_slot slot fn
  have htype' : ((s.closing slot fn).slot slot).type ≠ 0 := by rw [hstarted]; exact htype
  have hmoves := (s.closing_moves slot fn).trans ((s.closing slot fn).emptySlot_moves slot)
  obtain ⟨hout, -, -, -, -, -, -, hwait⟩ := hmoves.fields
  have heq := ((s.closing slot fn).emptySlot slot).eraseDone_session (slot := slot) (fn := fn) (by rw [hwait]; exact herase) hmoves.closeWait
  obtain ⟨htype0, hmaterial, -, -⟩ := (s.closing slot fn).emptySlot_slot slot htype'
  have hsessions := (s.closing slot fn).emptySlot_sessions htype'
  rw [heq]
  exact ⟨htype0, hmaterial, hsessions, congrArg (· ++ [_]) hout⟩

end

/-- Settles O46: the requests by `State.spdm_of_open`, the sessions by the lemmas above. -/
theorem spdmAndSessions : Obligations.SpdmAndSessions := by
  unfold Obligations.SpdmAndSessions
  intro s
  refine ⟨fun d nonce off len hopen => ?requests, fun fn hopen => ⟨fun ctx i key nonce hbound hsecure hfn hdeployed hhealthy hfree =>
      ⟨_, _, sessionOpen_opens s key nonce hopen hbound hsecure hfn hdeployed hhealthy hfree, s.startSession_spec i ctx fn⟩,
    fun ctx key nonce hbad => sessionOpen_refuses s key nonce hopen hbad, fun slot ses hfind hfn htype herase hnil => ?close,
    fun slot hnone => sessionClose_unknown s hopen hnone⟩⟩
  case requests =>
    exact ⟨s.spdm_of_open hopen _, s.spdm_of_open hopen _, s.spdm_of_open hopen _, s.spdm_of_open hopen _, s.spdm_of_open hopen _,
      s.spdm_of_open hopen _, s.spdm_of_open hopen _⟩
  case close =>
    have hbegins := sessionClose_begins s hopen hfind hfn hnil
    have hclosing : ((s.closing slot fn).slot slot).closing = true := by rw [s.closing_slot]
    refine ⟨fun hunused => ⟨_, hbegins.trans (congrArg _ (State.settleErase_of_unused _ hclosing hunused)), s.closing_ends htype herase⟩,
      fun hused => ⟨hbegins.trans (congrArg _ (State.settleErase_of_used _ hused)), hclosing⟩⟩

end Sys2Proof.Machine
end

section
/-! PROOFS. Tenants that go (17 R464 to R466). -/

namespace Sys2Proof.Machine

/-- A context without an entry is fresh. -/
theorem State.ctx_of_not_mem {s : State} {c : Nat} (h : c ∉ Tab.keys s.cmd.ctxs) : s.ctx c = {} := by
  cases hfind : Tab.find s.cmd.ctxs c with
  | none => rw [State.ctx, Tab.get, hfind]; rfl
  | some x => exact absurd (List.mem_map.mpr ⟨_, Tab.mem_of_find hfind, rfl⟩) h

/-! ### What the end of a tenant leaves alone -/

/-- From s to t slots may have become empty: none has new material, the lifecycle and the fuses stand, and the contexts are bound as they
were. -/
structure KeysFade (s t : State) : Prop where
  lifecycle : t.sec.lifecycle = s.sec.lifecycle
  fuses : t.sec.fusesLeft = s.sec.fusesLeft
  empty (i : Nat) : (s.slot i).type = 0 → (t.slot i).type = 0
  bound (c : Nat) : (t.ctx c).bound = (s.ctx c).bound
  entry (c : Nat) : (t.ctx c).f = (s.ctx c).f

section
variable {s t u : State}

theorem KeysFade.refl (s : State) : KeysFade s s := ⟨rfl, rfl, fun _ => id, fun _ => rfl, fun _ => rfl⟩

theorem KeysFade.trans (h : KeysFade s t) (k : KeysFade t u) : KeysFade s u :=
  ⟨k.lifecycle.trans h.lifecycle, k.fuses.trans h.fuses, fun i => k.empty i ∘ h.empty i, fun c => (k.bound c).trans (h.bound c),
    fun c => (k.entry c).trans (h.entry c)⟩

theorem KeysFade.foldl {α : Type} {g : State → α → State} (h : ∀ s a, KeysFade s (g s a)) (l : List α) (s : State) :
    KeysFade s (l.foldl g s) :=
  List.foldlRecOn (motive := KeysFade s) l g (.refl s) fun t ht a _ => ht.trans (h t a)

theorem StopsSteps.fades (h : StopsSteps s t) : KeysFade s t :=
  ⟨by rw [h.sec], by rw [h.sec], fun i hi => by rw [State.slot, h.sec]; exact hi, h.bound, h.entry⟩

theorem HbmOnly.fades (h : HbmOnly s t) : KeysFade s t := (StopsSteps.of_cmd h.cmd h.sec).fades

/-- A context of the tenant stays one of it. -/
theorem KeysFade.tenantCtxs (h : KeysFade s t) {c tenant : Nat} (hc : c ∈ s.tenantCtxs tenant) : c ∈ t.tenantCtxs tenant := by
  simp only [State.tenantCtxs, List.mem_filter, Bool.and_eq_true, decide_eq_true_eq] at hc ⊢
  obtain ⟨-, hbound, htenant⟩ := hc
  have hbound' := (h.bound c).trans hbound
  refine ⟨?_, hbound', by rw [h.entry, htenant]⟩
  by_contra hnone
  rw [State.ctx_of_not_mem hnone] at hbound'
  exact absurd hbound' (by decide)

end

section
variable (s : State)

theorem State.emptySlot_fades (slot : Nat) : KeysFade s (s.emptySlot slot) := by
  have hmoves := s.emptySlot_moves slot
  obtain ⟨-, -, hcmd, -⟩ := hmoves.fields
  refine ⟨by rw [hmoves.sec], by rw [hmoves.sec], fun i hi => ?_, fun c => by rw [State.ctx, hcmd, State.ctx],
    fun c => by rw [State.ctx, hcmd, State.ctx]⟩
  by_cases h : i = slot
  · subst h
    rw [State.emptySlot_eq, if_pos hi, State.slot_modSlot_self]
    exact hi
  · rw [hmoves.other i h, hi]

/-- A slot that is emptied is empty, whatever it held. -/
theorem State.emptySlot_type (slot : Nat) : ((s.emptySlot slot).slot slot).type = 0 := by
  by_cases h : (s.slot slot).type = 0
  · exact (s.emptySlot_fades slot).empty slot h
  · exact (s.emptySlot_slot slot h).1

/-- An erase that is done moves in the security engine what waited for it. -/
theorem State.eraseDone_sec (slot : Nat) : ∃ wait close, (s.eraseDone slot).sec = { s.sec with eraseWait := wait, closeWait := close } := by
  have hfirst : ∃ wait, (if s.sec.eraseWait = some slot then ({ s with sec := { s.sec with eraseWait := none } } : State).mbxReply 0 else s).sec =
      { s.sec with eraseWait := wait } := by
    split
    · exact ⟨none, State.mbxReply_sec _ _ _⟩
    · exact ⟨_, rfl⟩
  obtain ⟨wait, hwait⟩ := hfirst
  unfold State.eraseDone
  dsimp only
  split
  · exact ⟨wait, s.sec.closeWait, hwait⟩
  · exact ⟨wait, _, by rw [State.emit, hwait]⟩

theorem State.eraseDone_fades (slot : Nat) : KeysFade s (s.eraseDone slot) := by
  obtain ⟨wait, close, hsec⟩ := s.eraseDone_sec slot
  obtain ⟨-, hcmd, -⟩ := s.eraseDone_spec slot
  exact ⟨by rw [hsec], by rw [hsec], fun i hi => by rw [State.slot, hsec]; exact hi, fun c => by rw [State.ctx, hcmd, State.ctx],
    fun c => by rw [State.ctx, hcmd, State.ctx]⟩

theorem State.revokeSlot_fades (slot : Nat) : KeysFade s (s.revokeSlot slot) := by
  by_cases htype : (s.slot slot).type = 0
  · have hsame : s.revokeSlot slot = s := if_pos htype
    rw [hsame]
    exact .refl s
  · rw [s.revokeSlot_eq htype]
    exact ((s.abortUsers_stops slot).1.fades.trans (State.emptySlot_fades _ slot)).trans (State.eraseDone_fades _ slot)

theorem State.revokeSlot_type (slot : Nat) : ((s.revokeSlot slot).slot slot).type = 0 := by
  by_cases htype : (s.slot slot).type = 0
  · exact (s.revokeSlot_fades slot).empty slot htype
  · exact (s.revokeSlot_spec htype).1

/-- Every slot of a list is revoked. -/
theorem State.foldl_revokeSlot (l : List Nat) : KeysFade s (l.foldl (fun s i => s.revokeSlot i) s) ∧
    ∀ i ∈ l, ((l.foldl (fun s i => s.revokeSlot i) s).slot i).type = 0 := by
  induction l generalizing s with
  | nil => exact ⟨.refl s, fun i hi => absurd hi List.not_mem_nil⟩
  | cons j l ih =>
    obtain ⟨hrest, hempty⟩ := ih (s.revokeSlot j)
    refine ⟨(s.revokeSlot_fades j).trans hrest, fun i hi => ?_⟩
    rcases List.mem_cons.mp hi with rfl | hi
    · exact hrest.empty i (s.revokeSlot_type i)
    · exact hempty i hi

theorem State.dropSwitched_stopsSteps (c : Nat) : StopsSteps s (s.dropSwitched c) :=
  .mapPanels s (f := fun pn => { pn with switched := pn.switched.filter fun v => decide (v.step.ctx ≠ c) }) fun _ st h => ⟨st, h, rfl, rfl⟩

/-! ### Phases 1 and 2 (R465) -/

/-- The cores of some contexts stop. -/
def State.haltCtxs (s : State) (cs : List Nat) : State :=
  cs.foldl (fun s c => (s.runningOf c).foldl (fun s (x : Nat × Step) => s.stopPanel x.1) s) s

/-- The steps of some contexts end with ST_REVOKED, with their packets and their work. -/
def State.revokeSteps (s : State) (cs : List Nat) : State :=
  cs.foldl (fun s c => ((s.dropPackets c 7).cancelWork c).dropSwitched c)
    ((s.killWhere (fun st => cs.contains st.ctx) 7).withdrawWhere (fun st => cs.contains st.ctx) 7)

/-- Contexts that are to go take no doorbells and no claims. -/
def Ctx.leaving (x : Ctx) : Ctx := { x with ignoreDb := true, claimOpen := false, claimed := false }

/-- Recoveries of some contexts are forgotten. -/
def State.dropRecoveries (s : State) (cs : List Nat) : State :=
  { s with rel := { s.rel with
      running := s.rel.running.filter fun r => !cs.contains r.ctx, queued := s.rel.queued.filter fun r => !cs.contains r.ctx } }

/-- A removal before the slots are revoked. -/
def State.endSteps (s : State) (cs : List Nat) : State :=
  ((cs.foldl (fun s c => s.modCtx c Ctx.leaving) (s.haltCtxs cs)).revokeSteps cs).dropRecoveries cs

theorem State.beginRemoval_eq (tenant : Nat) : s.beginRemoval tenant =
    ((s.endSteps (s.tenantCtxs tenant)).tenantSlots tenant).foldl (fun s i => s.revokeSlot i) (s.endSteps (s.tenantCtxs tenant)) := rfl

theorem State.revokeSteps_stopsSteps (cs : List Nat) : StopsSteps s (s.revokeSteps cs) := by
  have hof : OfContext fun st => cs.contains st.ctx := fun a b hctx _ => by dsimp only; rw [hctx]
  refine .trans ((s.killWhere_stops hof 7).1.trans (State.withdrawWhere_stopsSteps _ _ 7)) (.foldl (fun t c => ?_) _ _)
  exact ((t.dropPackets_stopsSteps c 7).trans (State.cancelWork_stopsSteps _ c)).trans (State.dropSwitched_stopsSteps _ c)

theorem State.endSteps_stopsSteps (cs : List Nat) : StopsSteps s (s.endSteps cs) := by
  have hhalt : StopsSteps s (s.haltCtxs cs) :=
    .foldl (fun t c => .foldl (g := fun s (x : Nat × Step) => s.stopPanel x.1) (fun u x => u.stopPanel_stopsSteps x.1) (t.runningOf c) t) cs s
  have hleave (t : State) : StopsSteps t (cs.foldl (fun s c => s.modCtx c Ctx.leaving) t) :=
    .foldl (fun s c => .modCtx s c (f := Ctx.leaving) (fun _ => rfl) fun _ => rfl) cs t
  exact ((hhalt.trans (hleave _)).trans (State.revokeSteps_stopsSteps _ cs)).trans (.of_cmd rfl rfl)

/-- A slot of a tenant is listed while its keys stand. -/
theorem State.tenantSlots_congr {t : State} (h : t.sec = s.sec) (tenant : Nat) : t.tenantSlots tenant = s.tenantSlots tenant := by
  have hslot (i : Nat) : t.slot i = s.slot i := by rw [State.slot, h, State.slot]
  simp only [State.tenantSlots, h, hslot]

theorem State.beginRemoval_spec (tenant : Nat) : KeysFade s (s.beginRemoval tenant) ∧
    ∀ i ∈ s.tenantSlots tenant, ((s.beginRemoval tenant).slot i).type = 0 := by
  have hsteps := s.endSteps_stopsSteps (s.tenantCtxs tenant)
  obtain ⟨hrevoke, hempty⟩ := State.foldl_revokeSlot (s.endSteps (s.tenantCtxs tenant)) ((s.endSteps (s.tenantCtxs tenant)).tenantSlots tenant)
  rw [s.beginRemoval_eq]
  refine ⟨hsteps.fades.trans hrevoke, fun i hi => hempty i ?_⟩
  rw [s.tenantSlots_congr hsteps.sec]
  exact hi

/-! ### Phases 4 and 5 (R465) -/

theorem State.readTable_only (base n : Nat) : HbmOnly s (s.readTable base n).2 := by
  refine List.foldlRecOn (motive := fun acc : List W64 × State => HbmOnly s acc.2) _ _ (.refl s) fun acc h i _ => ?_
  dsimp only
  split
  · exact h
  · exact h.trans (State.hbmRead_only _ _ _ _)

theorem State.readTables_only (bases : List Nat) (n : Nat) : HbmOnly s (s.readTables bases n).2 :=
  List.foldlRecOn (motive := fun acc : List W64 × State => HbmOnly s acc.2) _ _ (.refl s) fun _ h b _ => h.trans (State.readTable_only _ b n)

/-- An answer that stands beside the state. -/
theorem HbmOnly.beside {α : Type} {a : α} {t : State} (h : HbmOnly s t) : HbmOnly s (a, t).2 := h

theorem State.ctxFrames_only (c : Nat) : HbmOnly s (s.ctxFrames c).2 := by
  unfold State.ctxFrames
  extract_lets x ring pool
  have hring : HbmOnly s ring.2 := by
    unfold ring
    split
    · exact s.readTable_only _ _
    · exact .refl s
  split
  · exact hring
  · next base _ =>
    split
    · exact hring
    · extract_lets e1 t2 e2 t3 e3
      have hfirst : HbmOnly s e1.2 := hring.trans (ring.2.readTables_only [base] 16384)
      clear_value e1 t2
      have hsecond : HbmOnly s e2.2 := hfirst.trans (e1.2.readTables_only t2 8192)
      clear_value e2 t3
      have hthird : HbmOnly s e3.2 := hsecond.trans (e2.2.readTables_only t3 32)
      exact HbmOnly.beside s hthird

theorem State.writeCount_only (u : Use) (f v : Nat) : HbmOnly s (s.writeCount u f v) := State.hbmWrite_only _ _ _ _

theorem State.clearTenant_only (tenant : Nat) : HbmOnly s (s.clearTenant tenant) := by
  have hread : HbmOnly s ((s.tenantCtxs tenant).foldl (fun (acc : List Nat × State) c => (acc.1 ++ (acc.2.ctxFrames c).1, (acc.2.ctxFrames c).2))
      (([] : List Nat), s)).2 :=
    List.foldlRecOn (motive := fun acc : List Nat × State => HbmOnly s acc.2) _ _ (.refl s) fun _ h c _ => h.trans (State.ctxFrames_only _ c)
  have hzero (fs : List Nat) (t : State) : HbmOnly t (fs.foldl (fun (s : State) f => s.zeroFrame f (s.slot 0).material) t) :=
    .foldl (fun s f => s.zeroFrame_only f _) fs t
  have hcount (fs : List Nat) (t : State) : HbmOnly t (fs.foldl (fun (s : State) f => s.writeCount .sys f 0) t) :=
    .foldl (fun s f => s.writeCount_only .sys f 0) fs t
  unfold State.clearTenant
  dsimp only
  refine HbmOnly.trans ?_ (State.mscDropAll_only _ _)
  exact (hread.trans (hzero _ _)).trans (hcount _ _)

theorem State.destroyCtx_sec (c : Nat) : (s.destroyCtx c).sec = s.sec := by
  by_cases hbound : (s.ctx c).bound = true
  · have heq : (s.destroyCtx c).sec = (((s.unbindWindow c).unregister c).invNow 1 c 0 0).sec := by
      simp only [State.destroyCtx, hbound, Bool.not_true, Bool.false_eq_true, if_false]
      rfl
    rw [heq, (State.invNow_drops _ 1 c 0 0).frame, (State.unregister_recordOnly _ c).frame]
    rfl
  · have heq : s.destroyCtx c = s := by simp [State.destroyCtx, hbound]
    rw [heq]

/-- A context that is destroyed is bound no more, and every other is as it was. -/
theorem State.destroyCtx_bound (c i : Nat) : ((s.destroyCtx c).ctx i).bound = if i = c then false else (s.ctx i).bound := by
  by_cases hbound : (s.ctx c).bound = true
  · obtain ⟨hself, -, hother, -⟩ := State.destroyCtx_frame hbound
    split_ifs with h
    · rw [h, hself]
    · exact (hother i h).1
  · have heq : s.destroyCtx c = s := by simp [State.destroyCtx, hbound]
    rw [heq]
    split_ifs with h
    · rw [h]; simpa using hbound
    · rfl

theorem State.foldl_destroyCtx (cs : List Nat) : (cs.foldl (fun s c => s.destroyCtx c) s).sec = s.sec ∧
    ∀ c ∈ cs, ((cs.foldl (fun s c => s.destroyCtx c) s).ctx c).bound = false := by
  induction cs generalizing s with
  | nil => exact ⟨rfl, fun c hc => absurd hc List.not_mem_nil⟩
  | cons d cs ih =>
    obtain ⟨hsec, hgone⟩ := ih (s.destroyCtx d)
    refine ⟨hsec.trans (s.destroyCtx_sec d), fun c hc => ?_⟩
    have hstays : ∀ (cs : List Nat) (t : State), (t.ctx c).bound = false → ((cs.foldl (fun s c => s.destroyCtx c) t).ctx c).bound = false :=
      fun cs t ht => List.foldlRecOn (motive := fun u : State => (u.ctx c).bound = false) cs _ ht fun u hu e _ => by
        rw [u.destroyCtx_bound, hu, ite_self]
    by_cases h : c ∈ cs
    · exact hgone c h
    · obtain rfl : c = d := (List.mem_cons.mp hc).resolve_right h
      exact hstays cs _ ((s.destroyCtx_bound c c).trans (if_pos rfl))

/-- The slices of some panels are cleared. -/
def State.clearSlices (s : State) (ks : List Nat) : State :=
  ks.foldl (fun s k => (s.panelCores k).foldl (fun s p => s.modContents p Slice.cleared) s) s

/-- The idle panels of a tenant. -/
def State.idlePanels (s : State) (tenant : Nat) : List Nat := (s.tenantPanels tenant).filter fun k => (s.panel k).running.isNone

/-- A removal whose contexts are gone. -/
def State.destroyTenant (s : State) (tenant : Nat) : State :=
  (s.tenantCtxs tenant).foldl (fun s c => s.destroyCtx c) ((s.clearTenant tenant).clearSlices (s.idlePanels tenant))

/-- The slots of some keys are emptied. -/
def State.emptySlots (s : State) (l : List Nat) : State := l.foldl (fun s i => s.emptySlot i) s

/-- No removal is at work. -/
def State.noRemoval (s : State) : State := { s with sec := { s.sec with removal := none } }

theorem State.finishRemoval_eq (tenant : Nat) : s.finishRemoval tenant =
    (((s.destroyTenant tenant).emptySlots ((s.destroyTenant tenant).tenantSlots tenant)).noRemoval).mbxReply 0 := rfl

theorem State.modContents_stopsSteps (p : Nat) (f : Slice → Slice) : StopsSteps s (s.modContents p f) := by
  unfold State.modContents
  exact .ite (.of_cmd rfl rfl) (.of_cmd rfl rfl)

theorem State.clearSlices_stopsSteps (ks : List Nat) : StopsSteps s (s.clearSlices ks) :=
  .foldl (fun t k => .foldl (fun u p => u.modContents_stopsSteps p Slice.cleared) (t.panelCores k) t) ks s

/-- The contexts of a tenant that is destroyed are gone, and the keys stand as they did. -/
theorem State.destroyTenant_spec (tenant : Nat) : (s.destroyTenant tenant).sec = s.sec ∧
    ∀ c ∈ s.tenantCtxs tenant, ((s.destroyTenant tenant).ctx c).bound = false := by
  have hclear := (StopsSteps.of_cmd (s.clearTenant_only tenant).cmd (s.clearTenant_only tenant).sec).trans
    (State.clearSlices_stopsSteps _ (s.idlePanels tenant))
  obtain ⟨hsec, hgone⟩ := State.foldl_destroyCtx ((s.clearTenant tenant).clearSlices (s.idlePanels tenant)) (s.tenantCtxs tenant)
  exact ⟨hsec.trans hclear.sec, hgone⟩

theorem State.emptySlots_fades (l : List Nat) : KeysFade s (s.emptySlots l) := .foldl (fun s i => s.emptySlot_fades i) l s

/-- The contexts and the slots of a tenant are gone once its removal is finished. -/
theorem State.finishRemoval_spec (tenant : Nat) : let t := s.finishRemoval tenant
    replied 0 [] t ∧ (∀ c ∈ s.tenantCtxs tenant, (t.ctx c).bound = false) ∧ (∀ i, (s.slot i).type = 0 → (t.slot i).type = 0) ∧
      t.sec.removal = none := by
  obtain ⟨hsec, hgone⟩ := s.destroyTenant_spec tenant
  have hfades := (s.destroyTenant tenant).emptySlots_fades ((s.destroyTenant tenant).tenantSlots tenant)
  have hreply (u : State) : (u.mbxReply 0).sec = u.sec ∧ ∀ c, (u.mbxReply 0).ctx c = u.ctx c :=
    ⟨State.mbxReply_sec _ _ _, fun c => by rw [State.ctx, State.mbxReply_cmd, State.ctx]⟩
  obtain ⟨hreplySec, hreplyCtx⟩ := hreply (((s.destroyTenant tenant).emptySlots ((s.destroyTenant tenant).tenantSlots tenant)).noRemoval)
  have hsame (u : State) (i : Nat) : u.noRemoval.slot i = u.slot i := rfl
  have hctx (u : State) (c : Nat) : u.noRemoval.ctx c = u.ctx c := rfl
  rw [s.finishRemoval_eq]
  refine ⟨State.mbxReply_replied _ _ _, fun c hc => ?_, fun i hi => ?_, ?_⟩
  · rw [hreplyCtx, hctx, hfades.bound, hgone c hc]
  · rw [State.slot, hreplySec, ← State.slot, hsame]
    exact hfades.empty i (by rw [State.slot, hsec]; exact hi)
  · rw [hreplySec]
    rfl

theorem exec_tenantRemove (tenant : Nat) : exec (.tenantRemove tenant) s = execTenantRemove tenant s := rfl

/-- A tenant without shared slots is removed at once. -/
theorem tenantRemove_alone {tenant : Nat} (hruns : s.mbxRuns 0x0225 = true) (hnone : s.sec.removal = none) (hlt : tenant < 64)
    (hshared : ∀ i ∈ s.tenantSlots tenant, (s.slot i).shared = false) :
    exec (.tenantRemove tenant) s = .next ((s.beginRemoval tenant).finishRemoval tenant) := by
  have hmask : (s.tenantSlots tenant).foldl (fun m i => if (s.slot i).shared then m ||| (s.slot i).mask else m) 0 = 0 :=
    List.foldlRecOn (motive := fun m : Nat => m = 0) _ _ rfl fun m hm i hi => by rw [hshared i hi, hm]; rfl
  have hones : onesOf 0 8 = [] := by decide
  rw [exec_tenantRemove, execTenantRemove, if_neg (by simp [hruns, hnone]), if_neg (by omega), hmask]
  dsimp only
  rw [hones]
  rfl

theorem tenantRemove_spec {tenant : Nat} (hruns : s.mbxRuns 0x0225 = true) (hnone : s.sec.removal = none) (hlt : tenant < 64)
    (hshared : ∀ i ∈ s.tenantSlots tenant, (s.slot i).shared = false) :
    ∃ t, exec (.tenantRemove tenant) s = .next t ∧ replied 0 [] t ∧ (∀ c ∈ s.tenantCtxs tenant, (t.ctx c).bound = false) ∧
      (∀ i ∈ s.tenantSlots tenant, (t.slot i).type = 0) ∧ t.sec.removal = none := by
  obtain ⟨hfades, hempty⟩ := s.beginRemoval_spec tenant
  obtain ⟨hreplied, hgone, hstay, hover⟩ := (s.beginRemoval tenant).finishRemoval_spec tenant
  exact ⟨_, tenantRemove_alone s hruns hnone hlt hshared, hreplied, fun c hc => hgone c (hfades.tenantCtxs hc),
    fun i hi => hstay i (hempty i hi), hover⟩

end

end Sys2Proof.Machine
end

section
/-! PROOFS. Lifecycle, tamper and the notices of a removal (17 R460 to R466). -/

namespace Sys2Proof.Machine

section
variable (s : State)

theorem exec_tenantClear (tenant : Nat) (all : Bool) : exec (.tenantClear tenant all) s = execTenantClear tenant all s := rfl
theorem exec_tenantDrainTimeout (peer : Nat) : exec (.tenantDrainTimeout peer) s = execTenantDrainTimeout peer s := rfl
theorem exec_drainNotice (peer tenant : Nat) (drained : Bool) : exec (.drainNotice peer tenant drained) s = execDrainNotice peer tenant drained s := rfl
theorem exec_lifecycleSet (target : Nat) (auth : List Byte) : exec (.lifecycleSet target auth) s = execLifecycleSet target auth s := rfl
theorem exec_tamperClear (standing : List TamperCause) : exec (.tamperClear standing) s = execTamperClear standing s := rfl
theorem exec_tamperDetect (cause : TamperCause) : exec (.tamperDetect cause) s = execTamperDetect cause s := rfl
theorem exec_entropyFail : exec .entropyFail s = execEntropyFail s := rfl
theorem exec_entropyRecover : exec .entropyRecover s = execEntropyRecover s := rfl

theorem State.slot_mbxReply (st : Half) (data : List Byte) (i : Nat) : (s.mbxReply st data).slot i = s.slot i := by
  rw [State.slot, State.mbxReply_sec, State.slot]

/-! ### Clearing HBM (R464) -/

/-- A clear of everything before HBM takes it: the cache is empty, and the fills are counted. -/
def State.countFills (s : State) : State :=
  (List.range 8).foldl (fun t h => t.count (hbmReg h 0x108)
    (hbmSize / 8 - 65536 * (s.hbm.poisoned.filter (fun f => decide (stackOf (f * 65536) = h))).length)) (s.mscDropAll (fun _ _ => true))

theorem State.countFills_frame : s.countFills = { s with msc := { s.msc with lines := [] }, counters := s.countFills.counters } := by
  have hlines : s.msc.lines.filter (fun _ => !true) = [] := by simp
  have hdrop : s.mscDropAll (fun _ _ => true) = { s with msc := { s.msc with lines := [] } } := by
    unfold State.mscDropAll
    dsimp only
    rw [hlines]
  unfold State.countFills
  rw [hdrop]
  exact List.foldlRecOn (motive := fun u : State => u = { s with msc := { s.msc with lines := [] }, counters := u.counters }) _ _ rfl
    fun u hu h _ => by
      rw [hu]
      rfl

/-- HBM without a word, under the material of slot 0. -/
def State.fillHbm (s : State) : State :=
  { s with hbm := { s.hbm with mem := [], tags := [], bad := [], fill := (s.slot 0).material } }

theorem State.zeroAll_eq : s.zeroAll = s.countFills.fillHbm := by
  unfold State.zeroAll State.countFills State.fillHbm
  rfl

/-- What a clear of everything leaves: HBM without a word, counters and an empty cache. -/
theorem State.zeroAll_frame : s.zeroAll = { s with
    msc := { s.msc with lines := [] }, counters := s.zeroAll.counters,
    hbm := { s.hbm with mem := [], tags := [], bad := [], fill := (s.slot 0).material } } := by
  have hfill (t : State) : t.fillHbm.counters = t.counters := rfl
  have hframe := s.countFills_frame
  rw [s.zeroAll_eq, hfill]
  generalize s.countFills = t at hframe ⊢
  rw [hframe]
  rfl

theorem tenantClear_all {tenant : Nat} (hruns : s.mbxRuns 0x0224 = true) (hnone : ∀ c ∈ Tab.keys s.cmd.ctxs, (s.ctx c).bound = false) :
    exec (.tenantClear tenant true) s = .next (s.zeroAll.mbxReply 0) := by
  have hany : (Tab.keys s.cmd.ctxs).any (fun c => (s.ctx c).bound) = false := by simpa using hnone
  rw [exec_tenantClear, execTenantClear, if_neg (by simp [hruns]), if_pos rfl, hany]
  rfl

theorem State.zeroAll_reply : let t := s.zeroAll.mbxReply 0
    replied 0 [] t ∧ (∀ a, t.hbm.mem.read a = 0) ∧ (∀ w, t.wordTag w = (s.slot 0).material) ∧ t.msc.lines = [] ∧
      t.hbm.poisoned = s.hbm.poisoned ∧ t.cores = s.cores := by
  obtain ⟨_, _, _, _, _, hframe⟩ := s.zeroAll.mbxReply_frame 0 []
  refine ⟨State.mbxReply_replied _ _ _, ?_⟩
  rw [hframe, s.zeroAll_frame]
  exact ⟨fun _ => rfl, fun _ => rfl, rfl, rfl, rfl⟩

theorem tenantClear_bound {tenant c : Nat} (hruns : s.mbxRuns 0x0224 = true) (hc : c ∈ Tab.keys s.cmd.ctxs) (hbound : (s.ctx c).bound = true) :
    exec (.tenantClear tenant true) s = .next (s.mbxReply 2) := by
  have hany : (Tab.keys s.cmd.ctxs).any (fun c => (s.ctx c).bound) = true := List.any_eq_true.mpr ⟨c, hc, hbound⟩
  rw [exec_tenantClear, execTenantClear, if_neg (by simp [hruns]), if_pos rfl, hany]
  rfl

theorem tenantClear_one {tenant : Nat} (hruns : s.mbxRuns 0x0224 = true) (hlt : tenant < 64) :
    exec (.tenantClear tenant false) s = .next ((s.clearTenant tenant).mbxReply 0) := by
  rw [exec_tenantClear, execTenantClear, if_neg (by simp [hruns]), if_neg (by decide), if_neg (by omega)]

/-! ### Notices (R466) -/

/-- The board-local links to a peer. -/
def State.linksTo (s : State) (peer : Nat) : List Nat :=
  (List.range 104).filter fun p => decide (portClass p = 0) && (s.port p).hears && (s.port p).seen.any fun x => decide (x.1 = peer)

/-- A removal that some peers have not acknowledged. -/
def State.setRemoval (s : State) (r : Removal) : State := { s with sec := { s.sec with removal := some r } }

/-- A removal without one peer. -/
def Removal.without (r : Removal) (peer : Nat) : Removal := { r with peers := r.peers.filter fun m => decide (m ≠ peer) }

theorem State.removalPeer_waits {r : Removal} {peer : Nat} (hremoval : s.sec.removal = some r) (hmore : ∃ m ∈ r.peers, m ≠ peer) :
    s.removalPeer peer = s.setRemoval (r.without peer) := by
  obtain ⟨m, hm, hne⟩ := hmore
  have hleft : (r.peers.filter fun m => decide (m ≠ peer)).isEmpty = false := by
    rw [List.isEmpty_eq_false_iff]
    exact List.ne_nil_of_mem (List.mem_filter.mpr ⟨hm, decide_eq_true hne⟩)
  unfold State.removalPeer
  rw [hremoval]
  dsimp only
  rw [hleft]
  rfl

theorem State.diedPort_sec (port : Nat) : (s.diedPort port).sec = s.sec := by
  have hask (t : State) : (t.askSpare port).sec = t.sec := by
    rcases t.askSpare_cases port with h | ⟨l, h⟩ <;> rw [h]
    rfl
  unfold State.diedPort
  dsimp only
  rw [apply_ite State.sec, hask, ite_self, apply_ite State.sec]
  exact ite_self _

theorem State.portDead_sec (port : Nat) : (s.portDead port).sec = s.sec := by
  have h := (s.diedPort port).resendWhere_only fun m => decide (m.port = port)
  rw [s.portDead_eq, h]
  exact s.diedPort_sec port

theorem State.portDead_hears (port j : Nat) : ((s.portDead port).port j).hears = if j = port then false else (s.port j).hears := by
  split_ifs with h
  · rw [h, s.portDead_port port]
    rfl
  · rw [Port.hears, Port.state_of_standing (s.portDead_other h), Port.hears]

/-- Links that are reset hear nothing, and the security engine is as before. -/
theorem State.foldl_portDead (ps : List Nat) : (ps.foldl (fun s p => s.portDead p) s).sec = s.sec ∧
    ∀ p ∈ ps, ((ps.foldl (fun s p => s.portDead p) s).port p).hears = false := by
  induction ps generalizing s with
  | nil => exact ⟨rfl, fun p hp => absurd hp List.not_mem_nil⟩
  | cons q ps ih =>
    obtain ⟨hsec, hsilent⟩ := ih (s.portDead q)
    refine ⟨hsec.trans (s.portDead_sec q), fun p hp => ?_⟩
    have hstays : ∀ (ps : List Nat) (t : State), (t.port p).hears = false → ((ps.foldl (fun s p => s.portDead p) t).port p).hears = false :=
      fun ps t ht => List.foldlRecOn (motive := fun u : State => (u.port p).hears = false) ps _ ht fun u hu e _ => by
        rw [u.portDead_hears, hu, ite_self]
    by_cases h : p ∈ ps
    · exact hsilent p h
    · obtain rfl : p = q := (List.mem_cons.mp hp).resolve_right h
      exact hstays ps _ ((s.portDead_hears p p).trans (if_pos rfl))

/-- The links to a peer that is silent are reset, which is reported. -/
def State.resetLinks (s : State) (peer : Nat) : State := ((s.linksTo peer).foldl (fun s p => s.portDead p) s).event 0x7807

theorem tenantDrainTimeout_resets {r : Removal} {peer : Nat} (hon : s.islandOn 243 = true) (hremoval : s.sec.removal = some r)
    (hpeer : peer ∈ r.peers) : exec (.tenantDrainTimeout peer) s = .next ((s.resetLinks peer).removalPeer peer) := by
  rw [exec_tenantDrainTimeout, execTenantDrainTimeout, if_neg (by simp [hon, hremoval, hpeer])]
  rfl

/-- A peer that has not acknowledged leaves the removal, its links reset. -/
theorem State.resetLinks_spec {r : Removal} {peer : Nat} (hremoval : s.sec.removal = some r) (hmore : ∃ m ∈ r.peers, m ≠ peer) :
    let t := (s.resetLinks peer).removalPeer peer
    t.sec.removal = some (r.without peer) ∧ (∃ e ∈ t.mgt.events, e.code = 0x7807) ∧ ∀ p < 104, portClass p = 0 → (s.port p).hears = true →
      (∃ x, (s.port p).seen = some x ∧ x.1 = peer) → (t.port p).hears = false := by
  obtain ⟨hsec, hsilent⟩ := s.foldl_portDead (s.linksTo peer)
  have hstill : (s.resetLinks peer).sec.removal = some r := by
    have hsame : (s.resetLinks peer).sec = ((s.linksTo peer).foldl (fun s p => s.portDead p) s).sec := rfl
    rw [hsame, hsec, hremoval]
  dsimp only
  rw [State.removalPeer_waits _ hstill hmore]
  refine ⟨rfl, (State.recent_event _ 0x7807).exists_mem, fun p hp hclass hhears hseen => ?_⟩
  obtain ⟨x, hx, hxpeer⟩ := hseen
  exact hsilent p (List.mem_filter.mpr ⟨List.mem_range.mpr hp, by simp [hclass, hhears, hx, hxpeer]⟩)

theorem drainNotice_acknowledged {r : Removal} {peer : Nat} (hlinks : s.linksOn = true) (hremoval : s.sec.removal = some r)
    (hpeer : peer ∈ r.peers) (hmore : ∃ m ∈ r.peers, m ≠ peer) :
    exec (.drainNotice peer r.tenant true) s = .next (s.setRemoval (r.without peer)) := by
  rw [exec_drainNotice, execDrainNotice, if_neg (by simp [hlinks]), if_pos rfl, if_pos (by simp [hremoval, hpeer]),
    s.removalPeer_waits hremoval hmore]

theorem drainNotice_answered {peer tenant : Nat} (hlinks : s.linksOn = true) (hnone : s.sec.drains = []) (hdrained : s.drained peer tenant = true) :
    exec (.drainNotice peer tenant false) s = .next (s.emit (.drain peer tenant true)) := by
  have hasked (u : State) : ({ s with sec := { s.sec with drains := [(peer, tenant)] } } : State).drained peer tenant = true := hdrained
  have hready : [(peer, tenant)].filter (fun d => ({ s with sec := { s.sec with drains := [(peer, tenant)] } } : State).drained d.1 d.2) =
      [(peer, tenant)] := by
    rw [List.filter_singleton, hasked s]
    rfl
  have hrest : [(peer, tenant)].filter (fun d => !({ s with sec := { s.sec with drains := [(peer, tenant)] } } : State).drained d.1 d.2) = [] := by
    rw [List.filter_singleton, hasked s]
    rfl
  have hsame : ({ s with sec := { s.sec with drains := [] } } : State) = s := by rw [← hnone]
  rw [exec_drainNotice, execDrainNotice, if_neg (by simp [hlinks]), if_neg (by decide), hnone, State.settleDrains]
  dsimp only [List.nil_append]
  rw [hready, hrest]
  exact congrArg (fun t : State => Host.Outcome.next (t.emit (.drain peer tenant true))) hsame

/-! ### Lifecycle (R461, R462) -/

theorem State.drawWords_frame (n : Nat) : (s.drawWords n).2 = { s with draws := (s.drawWords n).2.draws } := rfl

theorem State.newChallenge_frame : s.newChallenge = { s with
    draws := s.newChallenge.draws, sec := { s.sec with challenge := s.newChallenge.sec.challenge } } := rfl

/-- A reply after a new challenge. -/
theorem State.newChallenge_reply (st : Half) : let t := s.newChallenge.mbxReply st
    replied st [] t ∧ t.sec = { s.sec with challenge := t.sec.challenge } ∧ t.hbm = s.hbm ∧ t.cores = s.cores ∧ t.cmd = s.cmd ∧
      t.mgt.events = s.mgt.events := by
  obtain ⟨_, _, _, _, _, hframe⟩ := s.newChallenge.mbxReply_frame st []
  have hdrawn := s.newChallenge_frame
  generalize s.newChallenge = u at hframe hdrawn ⊢
  refine ⟨State.mbxReply_replied _ _ _, ?_⟩
  rw [hframe, hdrawn]
  exact ⟨rfl, rfl, rfl, rfl, rfl⟩

theorem lifecycleSet_refused {target : Nat} {l : Lifecycle} {auth : List Byte} (hruns : s.mbxRuns 0x0226 = true)
    (htarget : lifecycleOf target = some l) (hbad : s.lifecycleStatus l auth ≠ 0) :
    exec (.lifecycleSet target auth) s = .next (s.newChallenge.mbxReply (s.lifecycleStatus l auth)) := by
  rw [exec_lifecycleSet, execLifecycleSet, if_neg (by simp [hruns]), htarget]
  exact if_neg hbad

theorem lifecycleSet_moves {target : Nat} {l : Lifecycle} {auth : List Byte} (hruns : s.mbxRuns 0x0226 = true)
    (htarget : lifecycleOf target = some l) (hok : s.lifecycleStatus l auth = 0) :
    exec (.lifecycleSet target auth) s = .next ((s.transition l auth).newChallenge.mbxReply 0) := by
  rw [exec_lifecycleSet, execLifecycleSet, if_neg (by simp [hruns]), htarget]
  exact if_pos hok

/-- Some slots are revoked, and every step ends with ST_REVOKED. -/
def State.revokeAll (s : State) (slots : List Nat) : State :=
  ((slots.foldl (fun s i => s.revokeSlot i) s).killWhere (fun _ => true) 7).withdrawWhere (fun _ => true) 7

/-- The listed contexts end with their packets and their work. -/
def State.endCtxs (s : State) (cs : List Nat) : State := cs.foldl (fun s c => ((s.dropPackets c 7).cancelWork c).destroyCtx c) s

/-- No context is listed, and no recovery. -/
def State.noCtxs (s : State) : State := { s with cmd := { s.cmd with ctxs := [] }, rel := { s.rel with running := [], queued := [] } }

/-- What a lifecycle transition clears with some slots: steps, contexts, secure tiles and HBM, under a new slot 0. -/
def State.clearedOf (s : State) (slots : List Nat) : State :=
  ((((s.revokeAll slots).endCtxs (Tab.keys (s.revokeAll slots).cmd.ctxs)).noCtxs).wipeTiles).zeroAll.newSlot0

/-- The slots but slot 0. -/
def hostSlots : List Nat := (List.range 256).filter fun i => decide (i ≠ 0)

theorem mem_hostSlots {i : Nat} : i ∈ hostSlots ↔ 0 < i ∧ i < 256 := by
  rw [hostSlots, List.mem_filter, List.mem_range, decide_eq_true_eq]
  omega

/-- The state of a lifecycle transition before its fuse is burned. -/
def State.cleared (s : State) : State := s.clearedOf hostSlots

/-- A fuse is burned for a lifecycle state. -/
def State.burn (s : State) (l : Lifecycle) (owner : Option (List Byte)) : State :=
  { s with sec := { s.sec with lifecycle := l, fusesLeft := s.sec.fusesLeft - 1, ownerHash := owner } }

theorem State.transition_eq (l : Lifecycle) (auth : List Byte) : s.transition l auth =
    (s.cleared.burn l (if s.sec.lifecycle = .provisioned ∧ l = .deployed then some auth else s.cleared.sec.ownerHash)).event 0x7805 := by
  unfold State.transition State.cleared State.clearedOf State.revokeAll State.endCtxs State.noCtxs State.burn hostSlots
  rfl

/-- What a lifecycle state that is burned leaves alone. -/
theorem State.burn_reply (l : Lifecycle) (owner : Option (List Byte)) : let t := ((s.burn l owner).event 0x7805).newChallenge.mbxReply 0
    replied 0 [] t ∧ t.sec.lifecycle = l ∧ t.sec.fusesLeft = s.sec.fusesLeft - 1 ∧ t.hbm = s.hbm ∧ (∀ c, t.ctx c = s.ctx c) ∧
      (∀ i, t.slot i = s.slot i) ∧ ∃ e ∈ t.mgt.events, e.code = 0x7805 := by
  obtain ⟨hreplied, hsec, hhbm, -, hcmd, hevents⟩ := ((s.burn l owner).event 0x7805).newChallenge_reply 0
  have hevent := (State.recent_event (s.burn l owner) 0x7805).exists_mem
  refine ⟨hreplied, congrArg Sec.lifecycle hsec, congrArg Sec.fusesLeft hsec, hhbm, fun c => ?_, fun i => ?_, ?_⟩
  · rw [State.ctx, hcmd]
    rfl
  · rw [State.slot, hsec]
    rfl
  · rw [hevents]
    exact hevent

theorem State.revokeAll_spec (slots : List Nat) : KeysFade s (s.revokeAll slots) ∧ ∀ i ∈ slots, ((s.revokeAll slots).slot i).type = 0 := by
  have hof : OfContext fun _ => true := fun _ _ _ _ => rfl
  obtain ⟨hrevoke, hempty⟩ := s.foldl_revokeSlot slots
  have hkill := ((State.killWhere_stops (slots.foldl (fun s i => s.revokeSlot i) s) hof 7).1.trans
    (State.withdrawWhere_stopsSteps _ (fun _ => true) 7)).fades
  exact ⟨hrevoke.trans hkill, fun i hi => hkill.empty i (hempty i hi)⟩

theorem State.endCtxs_sec (cs : List Nat) : (s.endCtxs cs).sec = s.sec :=
  List.foldlRecOn (motive := fun t : State => t.sec = s.sec) cs _ rfl fun t ht c _ => by
    rw [State.destroyCtx_sec, (State.cancelWork_stopsSteps _ c).sec, (t.dropPackets_stopsSteps c 7).sec, ht]

/-- Wiping moves slices alone. -/
theorem State.wipeTiles_frame : s.wipeTiles = { s with cores := s.wipeTiles.cores, rel := s.wipeTiles.rel } := by
  have hfold (ps : List Nat) (t : State) : ps.foldl (fun (s : State) p => s.modSlice p Slice.wipeMarked) t =
      { t with cores := (ps.foldl (fun (s : State) p => s.modSlice p Slice.wipeMarked) t).cores } :=
    List.foldlRecOn (motive := fun u : State => u = { t with cores := u.cores }) ps _ rfl fun u hu p _ => by
      rw [hu]
      rfl
  unfold State.wipeTiles
  dsimp only
  rw [hfold]

/-- Before the fuse is burned HBM, the contexts and the slots are empty, and the fuses stand. -/
theorem State.clearedOf_spec (slots : List Nat) : let t := s.clearedOf slots
    t.sec.fusesLeft = s.sec.fusesLeft ∧ (∀ a, t.hbm.mem.read a = 0) ∧ (∀ c, (t.ctx c).bound = false) ∧
      ∀ i ∈ slots, 0 < i → (t.slot i).type = 0 := by
  obtain ⟨hfades, hempty⟩ := s.revokeAll_spec slots
  have hended := State.endCtxs_sec (s.revokeAll slots) (Tab.keys (s.revokeAll slots).cmd.ctxs)
  have hwiped := State.wipeTiles_frame (((s.revokeAll slots).endCtxs (Tab.keys (s.revokeAll slots).cmd.ctxs)).noCtxs)
  unfold State.clearedOf
  generalize s.revokeAll slots = u at hfades hempty hended hwiped ⊢
  have hsec := (congrArg State.sec hwiped).trans hended
  have hctxs := congrArg (fun t : State => t.cmd.ctxs) hwiped
  generalize (u.endCtxs (Tab.keys u.cmd.ctxs)).noCtxs.wipeTiles = v at hsec hctxs ⊢
  have hzero := v.zeroAll_frame
  have hnew (t : State) (i : Nat) (hi : 0 < i) : t.newSlot0.slot i = t.slot i :=
    (State.slot_modSlot t.newMaterial.2 0 i _).trans (if_neg (by omega))
  have hfuses (t : State) : t.newSlot0.sec.fusesLeft = t.sec.fusesLeft := rfl
  have hctx (t : State) (c : Nat) : t.newSlot0.ctx c = t.ctx c := rfl
  have hhbm (t : State) : t.newSlot0.hbm = t.hbm := rfl
  refine ⟨?_, fun a => ?_, fun c => ?_, fun i hi hpos => ?_⟩
  · rw [hfuses, hzero, ← hfades.fuses, ← hsec]
  · rw [hhbm, hzero]
    rfl
  · rw [hctx, hzero, State.ctx, hctxs]
    rfl
  · have hslot : v.zeroAll.slot i = v.slot i := by rw [hzero]; rfl
    rw [hnew _ i hpos, hslot, State.slot, hsec]
    exact hempty i hi

/-- A lifecycle transition clears HBM, contexts and keys and burns one fuse (R462). -/
theorem State.transition_spec (l : Lifecycle) (auth : List Byte) : let t := (s.transition l auth).newChallenge.mbxReply 0
    replied 0 [] t ∧ t.sec.lifecycle = l ∧ t.sec.fusesLeft = s.sec.fusesLeft - 1 ∧ (∀ a, t.hbm.mem.read a = 0) ∧
      (∀ c, (t.ctx c).bound = false) ∧ (∀ i, 0 < i → i < 256 → (t.slot i).type = 0) ∧ ∃ e ∈ t.mgt.events, e.code = 0x7805 := by
  obtain ⟨hfuses, hmem, hctx, hslots⟩ := s.clearedOf_spec hostSlots
  rw [s.transition_eq]
  unfold State.cleared
  generalize s.clearedOf hostSlots = u at hfuses hmem hctx hslots ⊢
  obtain ⟨hreplied, hlife, hfuses', hhbm, hctx', hslots', hevent⟩ :=
    u.burn_reply l (if s.sec.lifecycle = .provisioned ∧ l = .deployed then some auth else u.sec.ownerHash)
  refine ⟨hreplied, hlife, by rw [hfuses', hfuses], fun a => by rw [hhbm, hmem], fun c => by rw [hctx', hctx], fun i hpos hlt => ?_, hevent⟩
  rw [hslots']
  exact hslots i (mem_hostSlots.mpr ⟨hpos, hlt⟩) hpos

/-! ### Tamper (R463) -/

theorem tamperClear_outside_hold {standing : List TamperCause} (hruns : s.mbxRuns 0x0227 = true) (hstate : s.mgt.state ≠ .hold) :
    exec (.tamperClear standing) s = .next (({ s with sec := { s.sec with tamper := tamperMask standing } } : State).mbxReply 0) := by
  have hkeeps : (({ s with sec := { s.sec with tamper := tamperMask standing } } : State).mbxReply 0).mgt.state = s.mgt.state :=
    State.mbxReply_mgt_field _ _ _ Mgt.state fun _ _ _ _ => rfl
  rw [exec_tamperClear, execTamperClear, if_neg (by simp [hruns])]
  exact if_neg fun h => hstate (hkeeps.symm.trans h.1)

/-- Stage 2 leaves the latch, the lifecycle, the count of tampers and every slot but slot 0. -/
theorem State.bootSecurity_keeps : s.bootSecurity.sec.tamper = s.sec.tamper ∧ s.bootSecurity.sec.lifecycle = s.sec.lifecycle ∧
    s.bootSecurity.sec.tamperCount = s.sec.tamperCount ∧ ∀ i, i ≠ 0 → s.bootSecurity.slot i = s.slot i := by
  have hnew (u : State) (i : Nat) (hi : i ≠ 0) : u.newSlot0.slot i = u.slot i := (State.slot_modSlot u.newMaterial.2 0 i _).trans (if_neg hi)
  have hchallenge (u : State) (i : Nat) : u.newChallenge.slot i = u.slot i := rfl
  refine ⟨rfl, rfl, rfl, fun i hi => ?_⟩
  rw [State.bootSecurity, hchallenge, hnew _ i hi]
  rfl

/-- What a boot under a tamper latch leaves: HOLD with cause 6, and the security engine as it was but for slot 0. -/
structure TamperHolds (s t : State) : Prop where
  state : t.mgt.state = .hold
  cause : t.mgt.holdCause = 6
  tamper : t.sec.tamper = s.sec.tamper
  lifecycle : t.sec.lifecycle = s.sec.lifecycle
  count : t.sec.tamperCount = s.sec.tamperCount
  slot (i : Nat) : i ≠ 0 → t.slot i = s.slot i

theorem State.bootConfig_tamperHolds (hlatched : s.sec.tamper ≠ 0) : TamperHolds s s.bootSecurity.bootConfig := by
  obtain ⟨htamper, hlife, hcount, hslot⟩ := s.bootSecurity_keeps
  rw [State.bootConfig_cases, if_pos (by rw [htamper]; exact hlatched)]
  exact ⟨rfl, rfl, htamper, hlife, hcount, hslot⟩

theorem TamperHolds.congr {u t : State} (h : TamperHolds u t) (hsec : u.sec = s.sec) : TamperHolds s t :=
  ⟨h.state, h.cause, by rw [h.tamper, hsec], by rw [h.lifecycle, hsec], by rw [h.count, hsec],
    fun i hi => by rw [h.slot i hi, State.slot, hsec, State.slot]⟩

theorem State.enterHold_tamperHolds : TamperHolds s (s.enterHold 6) := ⟨rfl, rfl, rfl, rfl, rfl, fun _ _ => rfl⟩

theorem State.boot_tamperHolds (hlatched : s.sec.tamper ≠ 0) : TamperHolds s s.boot := by
  have htries (u : State) (slot : Bool) (trial : Option Nat) (hu : u.sec = s.sec) :
      TamperHolds s (u.tries slot trial).bootSecurity.bootConfig :=
    have hsame : (u.tries slot trial).sec = s.sec := hu
    (State.bootConfig_tamperHolds (u.tries slot trial) (by rw [hsame]; exact hlatched)).congr s hsame
  rw [State.boot_eq, if_pos hlatched]
  split_ifs
  · exact htries s _ _ rfl
  · exact htries (s.event 4) _ _ rfl
  · exact (State.enterHold_tamperHolds _).congr s rfl

/-- Emptying slots leaves the pins, the lifecycle and the tampers. -/
theorem State.emptySlots_keeps (l : List Nat) : let t := s.emptySlots l
    t.pins = s.pins ∧ t.sec.lifecycle = s.sec.lifecycle ∧ t.sec.tamper = s.sec.tamper ∧ t.sec.tamperCount = s.sec.tamperCount :=
  List.foldlRecOn (motive := fun t : State => t.pins = s.pins ∧ t.sec.lifecycle = s.sec.lifecycle ∧ t.sec.tamper = s.sec.tamper ∧
    t.sec.tamperCount = s.sec.tamperCount) l _ ⟨rfl, rfl, rfl, rfl⟩ fun t ht i _ => by
      have hmoves := t.emptySlot_moves i
      obtain ⟨hpins, hlife, htamper, hcount⟩ := ht
      refine ⟨?_, ?_, ?_, ?_⟩
      · rw [hmoves.frame, hpins]
      · rw [hmoves.sec, hlife]
      · rw [hmoves.sec, htamper]
      · rw [hmoves.sec, hcount]

/-- Every slot is emptied, and what waits for keys is forgotten. -/
theorem State.destroyAll_keeps : let t := s.destroyAll
    t.pins = s.pins ∧ t.sec.lifecycle = s.sec.lifecycle ∧ t.sec.tamper = s.sec.tamper ∧ t.sec.tamperCount = s.sec.tamperCount :=
  s.emptySlots_keeps (Tab.keys s.sec.slots)

theorem State.abortKeyCommand_keeps : s.abortKeyCommand.pins = s.pins ∧ s.abortKeyCommand.sec = s.sec := by
  unfold State.abortKeyCommand
  split
  · obtain ⟨_, _, _, _, _, hframe⟩ := s.mbxReply_frame 7 []
    rw [hframe]
    exact ⟨rfl, rfl⟩
  · exact ⟨rfl, rfl⟩

/-- The keys and the secure tiles are gone. -/
def State.destroySecrets (s : State) : State := s.destroyAll.wipeTiles.abortKeyCommand

theorem State.destroySecrets_keeps : let t := s.destroySecrets
    t.pins = s.pins ∧ t.sec.lifecycle = s.sec.lifecycle ∧ t.sec.tamper = s.sec.tamper ∧ t.sec.tamperCount = s.sec.tamperCount := by
  obtain ⟨hpins, hlife, htamper, hcount⟩ := s.destroyAll_keeps
  obtain ⟨hpins', hsec'⟩ := s.destroyAll.wipeTiles.abortKeyCommand_keeps
  have hwipePins : s.destroyAll.wipeTiles.pins = s.destroyAll.pins := (congrArg State.pins (State.wipeTiles_frame s.destroyAll) :)
  have hwipeSec : s.destroyAll.wipeTiles.sec = s.destroyAll.sec := (congrArg State.sec (State.wipeTiles_frame s.destroyAll) :)
  have hsec : s.destroySecrets.sec = s.destroyAll.sec := hsec'.trans hwipeSec
  dsimp only
  rw [hsec]
  exact ⟨(hpins'.trans hwipePins).trans hpins, hlife, htamper, hcount⟩

/-- A count of tamper events that stops at its largest value. -/
def raised (n : Half) : Half := if n = 0xFFFF then n else n + 1

theorem raised_toNat (n : Half) : (raised n).toNat = min 0xFFFF (n.toNat + 1) := by
  unfold raised
  split_ifs with h
  · rw [h]
    rfl
  · have hne : n.toNat ≠ 65535 := fun hn => h (BitVec.eq_of_toNat_eq hn)
    have hlt := n.isLt
    have hone : (1 : Half).toNat = 1 := rfl
    rw [BitVec.toNat_add, hone]
    omega

/-- A tamper cause is latched and reported. -/
def State.latchTamper (s : State) (cause : TamperCause) : State :=
  (({ s with sec := { s.sec with tamper := s.sec.tamper ||| tamperMask [cause], tamperCount := raised s.sec.tamperCount } } : State).event
    0x7801).count (secReg 0x138) 1

theorem tamperDetect_resets {cause : TamperCause} (hstandby : s.pins.standby = true) (hdie : s.pins.dieOn = true) (hperst : s.pins.perst = false) :
    exec (.tamperDetect cause) s = .next (s.destroySecrets.latchTamper cause).moduleReset := by
  have hpins : (s.destroySecrets.latchTamper cause).pins = s.pins := s.destroySecrets_keeps.1
  have hcond : ((s.destroySecrets.latchTamper cause).pins.dieOn && !(s.destroySecrets.latchTamper cause).pins.perst) = true := by
    rw [hpins, hdie, hperst]
    rfl
  rw [exec_tamperDetect, execTamperDetect, if_neg (by simp [hstandby])]
  exact congrArg Host.Outcome.next (if_pos hcond)

/-- A latch with one more cause has the cause's bit. -/
theorem tamper_latched (t : BitVec 4) (cause : TamperCause) : bitAt (t ||| tamperMask [cause]).toNat (tamperBit cause) = true := by
  have hbit : ∀ c : TamperCause, (tamperMask [c]).toNat.testBit (tamperBit c) = true := fun c => by cases c <;> decide
  rw [bitAt, ← Nat.testBit_eq_decide_div_mod_eq, BitVec.toNat_or, Nat.testBit_or, hbit, Bool.or_true]

/-- What a tamper leaves (R463). -/
theorem State.latchTamper_reset (cause : TamperCause) : let t := (s.destroySecrets.latchTamper cause).moduleReset
    t.mgt.state = .hold ∧ t.mgt.holdCause = 6 ∧ bitAt t.sec.tamper.toNat (tamperBit cause) = true ∧
      (∀ i, i ≠ 0 → (t.slot i).type = 0 ∧ (t.slot i).material = 0) ∧ (∀ p a, (t.core p).slice.mem.read a = 0) ∧
      t.sec.lifecycle = s.sec.lifecycle ∧ t.sec.tamperCount.toNat = min 0xFFFF (s.sec.tamperCount.toNat + 1) := by
  obtain ⟨-, hlife, -, hcount⟩ := s.destroySecrets_keeps
  have hbit := tamper_latched s.destroySecrets.sec.tamper cause
  have hlatched : (s.destroySecrets.latchTamper cause).clearModule.sec.tamper ≠ 0 := by
    have hsame : (s.destroySecrets.latchTamper cause).clearModule.sec.tamper = s.destroySecrets.sec.tamper ||| tamperMask [cause] := rfl
    rw [hsame]
    intro hzero
    rw [hzero] at hbit
    simp [bitAt] at hbit
  have hholds := (s.destroySecrets.latchTamper cause).clearModule.boot_tamperHolds hlatched
  obtain ⟨-, hslices, -⟩ := (s.destroySecrets.latchTamper cause).moduleReset_wasReset
  refine ⟨hholds.state, hholds.cause, ?_, fun i hi => ?_, hslices, hholds.lifecycle.trans hlife, ?_⟩
  · rw [State.moduleReset, hholds.tamper]
    exact hbit
  · rw [State.moduleReset, hholds.slot i hi]
    exact ⟨rfl, rfl⟩
  · have hraised : (s.destroySecrets.latchTamper cause).clearModule.sec.tamperCount = raised s.destroySecrets.sec.tamperCount := rfl
    rw [State.moduleReset, hholds.count, hraised, raised_toNat, hcount]

/-! ### Entropy (R460) -/

theorem entropyFail_stops (hon : s.islandOn 243 = true) (hhealthy : s.sec.healthy = true) :
    exec .entropyFail s = .next ((({ s with sec := { s.sec with healthy := false } } : State).event 0x7802).count (secReg 0x130) 1) := by
  rw [exec_entropyFail, execEntropyFail, if_pos (by simp [hon, hhealthy])]

end

/-- Settles O45: the clears by `State.zeroAll_reply`, a removal by `tenantRemove_spec` and its notices by the lemmas above, the lifecycle by
`State.transition_spec`, and a tamper by `State.latchTamper_reset`. -/
theorem tenantsAndDeviceState : Obligations.TenantsAndDeviceState := by
  unfold Obligations.TenantsAndDeviceState
  intro s
  refine ⟨fun hruns => ⟨fun tenant hnone => ⟨_, tenantClear_all s hruns hnone, s.zeroAll_reply⟩,
      fun tenant c hc hbound => ⟨_, tenantClear_bound s hruns hc hbound, State.mbxReply_replied _ _ _, State.mbxReply_hbm _ _ _⟩,
      fun tenant hlt => ⟨tenantClear_one s hruns hlt, State.mbxReply_replied _ _ _⟩⟩,
    fun tenant hruns hnone hlt hshared => tenantRemove_spec s hruns hnone hlt hshared, fun r peer hremoval hpeer hmore => ⟨fun hon => ?timeout,
    fun hlinks => drainNotice_acknowledged s hlinks hremoval hpeer hmore⟩, fun peer tenant hlinks hnone hdrained =>
      ⟨_, drainNotice_answered s hlinks hnone hdrained, rfl, rfl⟩, fun target l auth hruns htarget => ⟨fun hbad => ?refused, fun hok =>
      ⟨_, lifecycleSet_moves s hruns htarget hok, s.transition_spec l auth⟩⟩, fun standing hruns hstate =>
      ⟨_, tamperClear_outside_hold s hruns hstate, State.mbxReply_replied _ _ _, State.mbxReply_sec _ _ _⟩, fun cause hstandby hdie hperst =>
      ⟨_, tamperDetect_resets s hstandby hdie hperst, s.latchTamper_reset cause⟩, fun hon hhealthy => ?fail, fun hon => if_pos hon⟩
  case timeout =>
    obtain ⟨hleft, hevent, hsilent⟩ := s.resetLinks_spec hremoval hmore
    exact ⟨_, tenantDrainTimeout_resets s hon hremoval hpeer, hleft, hevent, hsilent⟩
  case refused =>
    obtain ⟨hreplied, hsec, hhbm, hcores, -⟩ := s.newChallenge_reply (s.lifecycleStatus l auth)
    exact ⟨_, lifecycleSet_refused s hruns htarget hbad, hreplied, hsec, hhbm, hcores⟩
  case fail =>
    exact ⟨_, entropyFail_stops s hon hhealthy, rfl, countersMoved_count _ _ _, rfl⟩

end Sys2Proof.Machine
end

section
/-! PROOFS. Pins, power, PCIe functions and the sideband (15 R410; 16 R425; 19 R502 to R511). -/

namespace Sys2Proof.Machine

section
variable (s : State)

/-! ### Resets and power (R410, R425, R502 to R504) -/

/-- From s to t the module lost what it holds: no context, empty slices and slots, and no island up. -/
structure Cleared (t : State) : Prop where
  ctx (c : Nat) : (t.ctx c).bound = false
  slice (p a : Nat) : (t.core p).slice.mem.read a = 0
  slot (i : Nat) : (t.slot i).type = 0
  groups : t.clk.groupsUp = 0

/-- Every slice is empty after a cold reset. -/
theorem State.clearCold_mem (p : Nat) : (s.clearCold.core p).slice.mem = [] := by
  have hfind : Tab.find s.clearCold.cores p = if p ∈ s.rel.retired then some (retiredAtReset s.pins.spares p) else none :=
    Tab.find_foldl_set (retiredAtReset s.pins.spares) _ [] p
  rw [State.core, hfind]
  split <;> exact coreAtReset_mem _ _

theorem State.clearCold_cleared : Cleared s.clearCold :=
  ⟨fun _ => rfl, fun p a => by rw [s.clearCold_mem]; rfl, fun _ => rfl, rfl⟩

theorem State.losePower_cleared : Cleared s.losePower :=
  ⟨fun _ => rfl, fun p a => by rw [s.losePower_mem]; rfl, fun _ => rfl, rfl⟩

/-- What the pins and a console's text do not touch stays cleared. -/
theorem Cleared.congr {t u : State} (h : Cleared t) (hcmd : u.cmd = t.cmd) (hcores : u.cores = t.cores) (hspares : u.pins.spares = t.pins.spares)
    (hsec : u.sec = t.sec) (hclk : u.clk = t.clk) : Cleared u where
  ctx c := by rw [State.ctx, hcmd]; exact h.ctx c
  slice p a := by
    have hcore : u.core p = t.core p := by rw [State.core, hcores, hspares, State.core]
    rw [hcore, h.slice]
  slot i := by rw [State.slot, hsec]; exact h.slot i
  groups := by rw [hclk, h.groups]

theorem State.powerOff_cleared : Cleared s.powerOff := s.clearCold_cleared.congr rfl rfl rfl rfl rfl

/-- From s to t the dies and HBM lost their contents; fuses and flash stay. -/
structure TurnedOff (s t : State) : Prop extends Cleared t where
  mem (a : Nat) : t.hbm.mem.read a = 0
  lifecycle : t.sec.lifecycle = s.sec.lifecycle
  config : t.mgt.config = s.mgt.config

theorem State.powerOff_off : TurnedOff s s.powerOff := ⟨s.powerOff_cleared, fun _ => rfl, rfl, rfl⟩

theorem State.losePower_off : TurnedOff s s.losePower := ⟨s.losePower_cleared, fun _ => rfl, rfl, rfl⟩

/-- The pins and what goes out are no part of what power keeps. -/
theorem TurnedOff.with_pins {t : State} (h : TurnedOff s t) (pins : Pins) (draws : Nat) (out : List Out) (hspares : pins.spares = t.pins.spares) :
    TurnedOff s { t with pins := pins, draws := draws, out := out } :=
  ⟨h.toCleared.congr rfl rfl hspares rfl rfl, h.mem, h.lifecycle, h.config⟩

theorem exec_perstAssert : exec .perstAssert s = execPerstAssert s := rfl
theorem exec_modEnAssert : exec .modEnAssert s = execModEnAssert s := rfl
theorem exec_modEnDeassert : exec .modEnDeassert s = execModEnDeassert s := rfl
theorem exec_inputTrip : exec .inputTrip s = execInputTrip s := rfl
theorem exec_inputRangeExcursion (high : Bool) : exec (.inputRangeExcursion high) s = execInputRangeExcursion high s := rfl
theorem exec_standbyPowerChange (on : Bool) : exec (.standbyPowerChange on) s = execStandbyPowerChange on s := rfl
theorem exec_tsyncEdge : exec .tsyncEdge s = execTsyncEdge s := rfl
theorem exec_ptmMessage (time : W64) : exec (.ptmMessage time) s = execPtmMessage time s := rfl
theorem exec_functionLevelReset (fn : Nat) : exec (.functionLevelReset fn) s = execFunctionLevelReset fn s := rfl
theorem exec_pciePowerStateChange (fn : Nat) (on : Bool) : exec (.pciePowerStateChange fn on) s = execPciePowerStateChange fn on s := rfl
theorem exec_pcieLinkTrained (rate width : Nat) (flit : Bool) : exec (.pcieLinkTrained rate width flit) s = execPcieLinkTrained rate width flit s := rfl
theorem exec_configurationRequest (r : CfgReq) : exec (.configurationRequest r) s = execConfigurationRequest r s := rfl
theorem exec_uartRxByte (b : Byte) : exec (.uartRxByte b) s = execUartRxByte b s := rfl
theorem exec_jtagInstruction (op : W32) : exec (.jtagInstruction op) s = execJtagInstruction op s := rfl

/-- The state of a trip after the text of its cause was drawn. -/
def State.tripped (s : State) : State :=
  if (s.losePower.drawBytes 1).2.mgtUp then (s.losePower.drawBytes 1).2.emit (.console (s.losePower.drawBytes 1).1) else (s.losePower.drawBytes 1).2

/-- A trip of the input leaves the management processor up, which reports it. -/
theorem State.tripped_spec : let t := s.tripped
    t.pins.dieOn = false ∧ TurnedOff s t ∧ t.mgt.events = s.mgt.events ∧ t.mgt.chainAddr = s.mgt.chainAddr ∧
      (s.mgtUp = true → ∃ text, t.out = s.out ++ [.console text]) := by
  have hdrawn (draws : Nat) (out : List Out) : TurnedOff s { s.losePower with draws := draws, out := out } :=
    s.losePower_off.with_pins s s.losePower.pins draws out rfl
  have hup : (s.losePower.drawBytes 1).2.mgtUp = s.mgtUp := rfl
  unfold State.tripped
  rw [hup]
  split_ifs with h
  · exact ⟨rfl, hdrawn _ _, rfl, rfl, fun _ => ⟨_, rfl⟩⟩
  · exact ⟨rfl, hdrawn _ _, rfl, rfl, fun h' => absurd h' h⟩

/-- The limit of a sensor is noted, and reported when it changed. -/
theorem State.noteLimit_spec (sensor limit : Nat) : Tab.get 0 (s.noteLimit sensor limit).mgt.sensorLimits sensor = limit ∧
    (s.noteLimit sensor limit).mgt.events = s.mgt.events := by
  unfold State.noteLimit
  split_ifs with h
  · exact ⟨h, rfl⟩
  · exact ⟨Tab.get_set_self _ _ _ _, rfl⟩

theorem inputRangeExcursion_reports (high : Bool) (hup : s.mgtUp = true) : ∃ t, exec (.inputRangeExcursion high) s = .next t ∧
    (∃ e ∈ t.mgt.events, e.code = if high then 0x000D else 0x000C) ∧ Tab.get 0 t.mgt.sensorLimits 2 = if high then 2 else 1 := by
  obtain ⟨hlimit, hevents⟩ := (s.event (if high then 0x000D else 0x000C)).noteLimit_spec 2 (if high then 2 else 1)
  refine ⟨_, (exec_inputRangeExcursion s high).trans (if_pos hup), ?_, hlimit⟩
  rw [hevents]
  cases high
  · exact (s.recent_event 0x000C).exists_mem
  · exact (s.recent_event 0x000D).exists_mem

/-! ### The time base (R509) -/

/-- A count of ignored edges that stops at its largest value. -/
theorem saturated_toNat (n : Half) : (if n = 0xFFFF then n else n + 1).toNat = min 0xFFFF (n.toNat + 1) := by
  split_ifs with h
  · rw [h]
    rfl
  · have hne : n.toNat ≠ 65535 := fun hn => h (BitVec.eq_of_toNat_eq hn)
    have hlt := n.isLt
    have hone : (1 : Half).toNat = 1 := rfl
    rw [BitVec.toNat_add, hone]
    omega

theorem tsyncEdge_latches (hclock : s.clockUp = true) (hon : s.islandOn 245 = true) (hpin : s.clk.tsyncOn = true)
    (hfar : ∀ t0, s.clk.tsyncLast = some t0 → t0 + 1000 ≤ s.time) : exec .tsyncEdge s =
      .next { s with clk := { s.clk with tsyncLast := some s.time, tsyncCap := s.clk.now, tsyncValid := true } } := by
  have hrun : (!(s.clockUp && s.islandOn 245) || !s.clk.tsyncOn) = false := by simp [hclock, hon, hpin]
  rw [exec_tsyncEdge, execTsyncEdge]
  dsimp only
  rw [hrun]
  cases hlast : s.clk.tsyncLast with
  | none => rfl
  | some t0 =>
    have hfar : decide (s.time < t0 + 1000) = false := decide_eq_false (Nat.not_lt.mpr (hfar t0 hlast))
    exact (if_neg Bool.false_ne_true).trans (if_neg (ne_true_of_eq_false hfar))

theorem tsyncEdge_ignored {t0 : Nat} (hclock : s.clockUp = true) (hon : s.islandOn 245 = true) (hpin : s.clk.tsyncOn = true)
    (hlast : s.clk.tsyncLast = some t0) (hnear : s.time < t0 + 1000) : exec .tsyncEdge s =
      .next { s with clk := { s.clk with
        tsyncLast := some s.time
        tsyncIgnored := if s.clk.tsyncIgnored = 0xFFFF then s.clk.tsyncIgnored else s.clk.tsyncIgnored + 1 } } := by
  have hrun : (!(s.clockUp && s.islandOn 245) || !s.clk.tsyncOn) = false := by simp [hclock, hon, hpin]
  rw [exec_tsyncEdge, execTsyncEdge]
  dsimp only
  rw [hrun, hlast]
  exact if_pos (decide_eq_true hnear)

/-! ### Functions (R425, R505, R506) -/

/-- Commanded recoveries move contexts and the queue of recoveries. -/
theorem State.commandRecovery_asksOnly (c : Nat) :
    s.commandRecovery c = { s with cmd := { s.cmd with ctxs := (s.commandRecovery c).cmd.ctxs }, rel := (s.commandRecovery c).rel } := by
  unfold State.commandRecovery State.requestRecovery
  dsimp only
  split <;> rfl

theorem State.commandRecovery_ctx (c i : Nat) : ((s.commandRecovery c).ctx i).recovering =
    if i = c ∧ (s.ctx c).bound = true then true else (s.ctx i).recovering := by
  unfold State.commandRecovery State.requestRecovery
  dsimp only
  by_cases hbound : (s.ctx c).bound = true
  · by_cases hrec : (s.ctx c).recovering = true
    · rw [if_pos (by simp [hrec])]
      split_ifs with h
      · rw [h.1, hrec]
      · rfl
    · rw [if_neg (by simp [hbound, hrec])]
      have hctx := State.ctx_modCtx s c i fun x => { x with recovering := true, claimOpen := false, claimed := false }
      refine (congrArg Ctx.recovering hctx).trans ?_
      by_cases h : i = c
      · rw [if_pos h, if_pos ⟨h, hbound⟩]
      · rw [if_neg h, if_neg fun hc => h hc.1]
  · rw [if_pos (by simp [hbound]), if_neg fun h => hbound h.2]

theorem State.commandRecovery_bound (c i : Nat) : ((s.commandRecovery c).ctx i).bound = (s.ctx i).bound := by
  unfold State.commandRecovery State.requestRecovery
  dsimp only
  split
  · rfl
  · refine (congrArg Ctx.bound (State.ctx_modCtx s c i fun x => { x with recovering := true, claimOpen := false, claimed := false })).trans ?_
    split_ifs with h
    · rw [h]
    · rfl

/-- Commanded recoveries of listed contexts. -/
def State.recoverAll (s : State) (cs : List Nat) : State := cs.foldl (fun s c => s.commandRecovery c) s

theorem State.recoverAll_frame (cs : List Nat) :
    s.recoverAll cs = { s with cmd := { s.cmd with ctxs := (s.recoverAll cs).cmd.ctxs }, rel := (s.recoverAll cs).rel } :=
  List.foldlRecOn (motive := fun t : State => t = { s with cmd := { s.cmd with ctxs := t.cmd.ctxs }, rel := t.rel }) cs _ rfl
    fun t ht c _ => by
      rw [t.commandRecovery_asksOnly c, ht]

theorem State.recoverAll_recovering (cs : List Nat) {c : Nat} (hbound : (s.ctx c).bound = true) (h : c ∈ cs ∨ (s.ctx c).recovering = true) :
    ((s.recoverAll cs).ctx c).recovering = true := by
  induction cs generalizing s with
  | nil => exact h.resolve_left List.not_mem_nil
  | cons d cs ih =>
    refine ih (s.commandRecovery d) ((s.commandRecovery_bound d c).trans hbound) ?_
    rw [s.commandRecovery_ctx]
    rcases h with h | h
    · rcases List.mem_cons.mp h with rfl | h
      · exact .inr (if_pos ⟨rfl, hbound⟩)
      · exact .inl h
    · rw [h, ite_self]
      exact .inr rfl

/-- The windows of a function are disabled. -/
def State.disableFn (s : State) (fn : Nat) : State :=
  ((Tab.keys s.cmd.windows).filter fun k => decide (k / 256 = fn)).foldl (fun s k => s.modWindow k fun w => { w with enable := false }) s

theorem State.foldl_disable (ks : List Nat) (k : Nat) :
    (ks.foldl (fun (s : State) k => s.modWindow k fun w => { w with enable := false }) s).window k =
      if k ∈ ks then { s.window k with enable := false } else s.window k := by
  induction ks generalizing s with
  | nil => exact (if_neg List.not_mem_nil).symm
  | cons j ks ih =>
    rw [List.foldl_cons, ih, State.window_modWindow]
    by_cases hj : k = j
    · subst hj
      rw [if_pos rfl, if_pos List.mem_cons_self, ite_self]
    · rw [if_neg hj]
      simp [hj]

theorem State.window_disableFn (fn k : Nat) :
    (s.disableFn fn).window k = if k / 256 = fn ∧ k ∈ Tab.keys s.cmd.windows then { s.window k with enable := false } else s.window k := by
  rw [State.disableFn, s.foldl_disable]
  simp only [List.mem_filter, decide_eq_true_eq, and_comm]

theorem State.disableFn_frame (fn : Nat) : s.disableFn fn = { s with cmd := { s.cmd with windows := (s.disableFn fn).cmd.windows } } :=
  List.foldlRecOn (motive := fun t : State => t = { s with cmd := { s.cmd with windows := t.cmd.windows } }) _ _ rfl fun t ht k _ => by
    rw [ht]
    rfl

/-- A window without an entry is disabled. -/
theorem State.window_of_not_mem {k : Nat} (h : k ∉ Tab.keys s.cmd.windows) : (s.window k).enable = false := by
  cases hfind : Tab.find s.cmd.windows k with
  | none => rw [State.window, Tab.get, hfind]; rfl
  | some w => exact absurd (List.mem_map.mpr ⟨_, Tab.mem_of_find hfind, rfl⟩) h

/-- The bound contexts of a function. -/
def State.fnCtxs (s : State) (fn : Nat) : List Nat :=
  (Tab.keys s.cmd.ctxs).filter fun c => (s.ctx c).bound && decide ((s.ctx c).f.fn.toNat = fn)

theorem State.mem_fnCtxs {fn c : Nat} (hbound : (s.ctx c).bound = true) (hfn : (s.ctx c).f.fn.toNat = fn) : c ∈ s.fnCtxs fn := by
  refine List.mem_filter.mpr ⟨?_, by simp [hbound, hfn]⟩
  cases hfind : Tab.find s.cmd.ctxs c with
  | none =>
    rw [State.ctx, Tab.get, hfind] at hbound
    exact absurd hbound (by decide)
  | some x => exact List.mem_map.mpr ⟨_, Tab.mem_of_find hfind, rfl⟩

/-- A function-level reset disables the function's windows and asks for the recovery of its contexts. -/
theorem functionLevelReset_resets {fn : Nat} (hlink : s.barLink = true) (hfn : s.hasFn fn = true) (hne : fn ≠ 0) :
    exec (.functionLevelReset fn) s = .next ((s.disableFn fn).recoverAll ((s.disableFn fn).fnCtxs fn)) := by
  rw [exec_functionLevelReset, execFunctionLevelReset, if_neg (by simp [hlink, hfn, hne])]
  rfl

theorem State.resetFn_spec (fn : Nat) : let t := (s.disableFn fn).recoverAll ((s.disableFn fn).fnCtxs fn)
    t.hif = s.hif ∧ (∀ w < 256, (t.window (winKey fn w)).enable = false) ∧
      (∀ f w, f ≠ fn → w < 256 → t.window (winKey f w) = s.window (winKey f w)) ∧
      ∀ c, (s.ctx c).bound = true → (s.ctx c).f.fn.toNat = fn → (t.ctx c).recovering = true := by
  have hframe := (s.disableFn fn).recoverAll_frame ((s.disableFn fn).fnCtxs fn)
  have hdisabled := s.disableFn_frame fn
  have hwin (k : Nat) : ((s.disableFn fn).recoverAll ((s.disableFn fn).fnCtxs fn)).window k = (s.disableFn fn).window k := by
    rw [hframe]
    rfl
  have hctx (c : Nat) : (s.disableFn fn).ctx c = s.ctx c := by
    rw [hdisabled]
    rfl
  have hdiv (f w : Nat) (hw : w < 256) : winKey f w / 256 = f := by
    rw [winKey]
    omega
  refine ⟨?_, fun w hw => ?_, fun f w hf hw => ?_, fun c hbound hfn => ?_⟩
  · rw [hframe, hdisabled]
  · rw [hwin, s.window_disableFn]
    by_cases hlisted : winKey fn w ∈ Tab.keys s.cmd.windows
    · rw [if_pos ⟨hdiv fn w hw, hlisted⟩]
    · rw [if_neg fun h => hlisted h.2, s.window_of_not_mem hlisted]
  · rw [hwin, s.window_disableFn, if_neg fun h => hf ((hdiv f w hw).symm.trans h.1)]
  · have hbound' : ((s.disableFn fn).ctx c).bound = true := by rw [hctx, hbound]
    exact (s.disableFn fn).recoverAll_recovering _ hbound' (.inl (State.mem_fnCtxs _ hbound' (by rw [hctx, hfn])))

/-- A function that leaves D3hot, before its interrupt. -/
def State.leaveD3 (s : State) (fn : Nat) : State :=
  ((Tab.keys s.cmd.windows).filter fun k => decide (k / 256 = fn)).foldl (fun s k => s.drainHeld k (s.window k).held)
    { s with hif := { s.hif with d3hot := s.hif.d3hot.filter fun i => decide (i ≠ fn) } }

/-- What was held goes out; the interface has the function in D0. -/
theorem State.leaveD3_hif (fn : Nat) : (s.leaveD3 fn).hif = { s.hif with d3hot := s.hif.d3hot.filter fun i => decide (i ≠ fn) } :=
  List.foldlRecOn (motive := fun t : State => t.hif = { s.hif with d3hot := s.hif.d3hot.filter fun i => decide (i ≠ fn) }) _ _ rfl
    fun t ht k _ => by
      rw [(State.drainHeld_only (t.window k).held k t).frame]
      exact ht

/-- The mailbox's interrupt that was held goes out. -/
def State.raiseHeld (s : State) : State := { s.msix 0 256 with hif := { (s.msix 0 256).hif with mbxIrqHeld := false } }

theorem State.wakeFn_eq (fn : Nat) : s.wakeFn fn =
    if (decide (fn = 0) && (s.leaveD3 fn).hif.mbxIrqHeld) = true then (s.leaveD3 fn).raiseHeld else s.leaveD3 fn := rfl

theorem State.raiseHeld_spec : s.raiseHeld.hif = { s.hif with mbxIrqHeld := false } ∧ (0 ∈ s.hif.msixOn → Out.msix 0 256 ∈ s.raiseHeld.out) := by
  have hmsix : (s.msix 0 256).hif = s.hif := by
    unfold State.msix
    split <;> rfl
  refine ⟨?_, fun hon => ?_⟩
  · rw [State.raiseHeld, hmsix]
  · have hout : (s.msix 0 256).out = s.out ++ [.msix 0 256] := by
      rw [State.msix, if_pos (by simpa using hon)]
      rfl
    exact hout ▸ List.mem_append_right _ (List.mem_singleton.mpr rfl)

theorem State.wakeFn_spec {fn : Nat} : let t := s.wakeFn fn
    fn ∉ t.hif.d3hot ∧ (fn = 0 → s.hif.mbxIrqHeld = true → t.hif.mbxIrqHeld = false ∧ (0 ∈ s.hif.msixOn → Out.msix 0 256 ∈ t.out)) := by
  have hleft := s.leaveD3_hif fn
  obtain ⟨hraised, hout⟩ := (s.leaveD3 fn).raiseHeld_spec
  have hgone : fn ∉ s.hif.d3hot.filter fun i => decide (i ≠ fn) := by simp
  rw [s.wakeFn_eq]
  dsimp only
  split_ifs with h
  · rw [hraised, hleft]
    rw [hleft] at hout
    exact ⟨hgone, fun _ _ => ⟨rfl, hout⟩⟩
  · rw [hleft]
    refine ⟨hgone, fun hfn hheld => absurd ?_ h⟩
    rw [hleft]
    simp [hfn, hheld]

theorem pciePowerStateChange_sleeps {fn : Nat} (hlink : s.barLink = true) (hfn : s.hasFn fn = true) (hawake : fn ∉ s.hif.d3hot) :
    exec (.pciePowerStateChange fn true) s = .next { s with hif := { s.hif with d3hot := s.hif.d3hot ++ [fn] } } := by
  rw [exec_pciePowerStateChange, execPciePowerStateChange, if_neg (by simp [hlink, hfn, hawake]), if_pos rfl]

theorem pciePowerStateChange_wakes {fn : Nat} (hlink : s.barLink = true) (hfn : s.hasFn fn = true) (hasleep : fn ∈ s.hif.d3hot) :
    exec (.pciePowerStateChange fn false) s = .next (s.wakeFn fn) := by
  rw [exec_pciePowerStateChange, execPciePowerStateChange, if_neg (by simp [hlink, hfn, hasleep]), if_neg (by decide)]

/-! ### The link and configuration space (R504, R505) -/

/-- A trained link: the new rate and width, counted unless it trained for the first time. -/
def State.linkTrained (s : State) (rate width : Nat) (flit : Bool) : State :=
  { (if s.hif.rate = 0 then s else s.count (hifReg 0x100) 1) with hif := { s.hif with rate := rate, width := width, flit := flit } }

theorem pcieLinkTrained_eq {rate width : Nat} {flit : Bool} (hlink : s.barLink = true) (hlo : 1 ≤ rate) (hhi : rate ≤ 6)
    (hwidth : width = 8 ∨ width = 16) : exec (.pcieLinkTrained rate width flit) s =
      .next (if rate = 6 ∧ width = 16 then s.linkTrained rate width flit else (s.linkTrained rate width flit).event 0x5801) := by
  have hpos : rate ≠ 0 := by omega
  have hdegraded : (s.linkTrained rate width flit).hif.degraded = true ↔ ¬(rate = 6 ∧ width = 16) := by
    by_cases h6 : rate = 6 <;> by_cases h16 : width = 16 <;> simp [State.linkTrained, Hif.degraded, hpos, h6, h16]
  have hstate : exec (.pcieLinkTrained rate width flit) s = .next (if (s.linkTrained rate width flit).hif.degraded
      then (s.linkTrained rate width flit).event 0x5801 else s.linkTrained rate width flit) := by
    rw [exec_pcieLinkTrained, execPcieLinkTrained, if_neg (by simp [hlink, hlo, hhi, hwidth]), State.linkTrained]
    split <;> rfl
  rw [hstate]
  by_cases h : rate = 6 ∧ width = 16
  · rw [if_pos h, if_neg fun hd => hdegraded.mp hd h]
  · rw [if_neg h, if_pos (hdegraded.mpr h)]

theorem State.linkTrained_spec (rate width : Nat) (flit : Bool) : let t := s.linkTrained rate width flit
    t.hif = { s.hif with rate := rate, width := width, flit := flit } ∧
      countersMoved (if s.hif.rate = 0 then [] else [(hifReg 0x100, 1)]) s t ∧ t.mgt = s.mgt := by
  unfold State.linkTrained
  split_ifs
  · exact ⟨rfl, fun _ => by simp [State.counter], rfl⟩
  · exact ⟨rfl, countersMoved_count _ _ _, rfl⟩

section
variable {s} (hdie : s.pins.dieOn = true) (hperst : s.pins.perst = false) (hclocked : s.clk.held.contains 240 = false)
include hdie hperst hclocked

theorem configurationRequest_retry (r : CfgReq) (hnone : s.clk.groupsUp = 0) : exec (.configurationRequest r) s = .next (s.emit (.cfg true)) := by
  rw [exec_configurationRequest, execConfigurationRequest, if_neg (by simp only [hdie, hperst, hclocked]; decide), if_pos hnone]

theorem configurationRequest_read (off : Nat) (hup : 0 < s.clk.groupsUp) :
    exec (.configurationRequest (.read off)) s = .next (s.emit (.cfg false)) := by
  rw [exec_configurationRequest, execConfigurationRequest, if_neg (by simp only [hdie, hperst, hclocked]; decide), if_neg (by omega)]

theorem configurationRequest_vfs {n : Nat} (hup : 0 < s.clk.groupsUp) (hn : n ≤ 64) : exec (.configurationRequest (.writeNumVfs n)) s =
    .next (({ s with hif := { s.hif with numVfs := n } } : State).emit (.cfg false)) := by
  rw [exec_configurationRequest, execConfigurationRequest, if_neg (by simp only [hdie, hperst, hclocked]; decide), if_neg (by omega)]
  exact congrArg Host.Outcome.next (if_pos hn)

/-- A function raises its vectors, or no more. -/
def State.setMsix (s : State) (fn : Nat) (on : Bool) : State :=
  let others := s.hif.msixOn.filter fun i => decide (i ≠ fn)
  { s with hif := { s.hif with msixOn := if on then others ++ [fn] else others } }

omit hdie hperst hclocked in
theorem State.mem_setMsix (fn : Nat) (on : Bool) (j : Nat) :
    j ∈ (s.setMsix fn on).hif.msixOn ↔ if j = fn then on = true else j ∈ s.hif.msixOn := by
  cases on <;> by_cases h : j = fn <;> simp [State.setMsix, h]

theorem configurationRequest_msix {fn : Nat} (on : Bool) (hup : 0 < s.clk.groupsUp) (hfn : s.hasFn fn = true) :
    exec (.configurationRequest (.writeMsixEnable fn on)) s = .next ((s.emit (.cfg false)).setMsix fn on) := by
  rw [exec_configurationRequest, execConfigurationRequest, if_neg (by simp only [hdie, hperst, hclocked]; decide), if_neg (by omega)]
  exact congrArg Host.Outcome.next (if_pos hfn)

end

/-! ### The sideband (R510, R511) -/

theorem jtagInstruction_idcode (hdie : s.pins.dieOn = true) : exec (.jtagInstruction 1) s =
    .next (({ s with pins := { s.pins with jtag := 1 } } : State).emit (.regRead 0x14800ABF)) := by
  rw [exec_jtagInstruction, execJtagInstruction, if_neg (by simp [hdie])]
  rfl

/-- Outside factory access a vendor instruction selects the bypass. -/
theorem jtagInstruction_vendor {op : W32} (hdie : s.pins.dieOn = true) (hfactory : s.factoryMode = false) (hop : 8 < op.toNat) :
    exec (.jtagInstruction op) s = .next { s with pins := { s.pins with jtag := 0xFFFFFFFF } } := by
  have hne (k : W32) (hk : k.toNat ≤ 8) : op ≠ k := fun h => by rw [h] at hop; omega
  have hruns : s.jtagRuns op = 0xFFFFFFFF := by
    rw [State.jtagRuns, if_neg, if_neg, hfactory, if_neg (by decide)]
    · rintro (h | h | h)
      · exact hne 0 (by decide) h
      · exact hne 4 (by decide) h
      · exact hne 8 (by decide) h
    · rintro (h | h)
      · exact hne 1 (by decide) h
      · exact hne 2 (by decide) h
  rw [exec_jtagInstruction, execJtagInstruction, if_neg (by simp [hdie]), hruns]
  exact congrArg Host.Outcome.next (if_neg (hne 1 (by decide)))

end

/-- Settles O57: the resets by `State.clearCold_cleared` and `State.powerOff_off`, a function's reset by `State.resetFn_spec`, its return to
D0 by `State.wakeFn_spec`, the rest by the lemma of each event. -/
theorem pinsAndPcie : Obligations.PinsAndPcie := by
  unfold Obligations.PinsAndPcie
  intro s cleared off
  have hcleared {t : State} (h : Cleared t) : cleared t := ⟨h.ctx, h.slice, h.slot, h.groups⟩
  have hoff {t : State} (h : TurnedOff s t) : off t := ⟨hcleared h.toCleared, h.mem, h.lifecycle, h.config⟩
  have hpins (pins : Pins) (hspares : pins.spares = s.powerOff.pins.spares) : off { s.powerOff with pins := pins } :=
    hoff (s.powerOff_off.with_pins s pins s.powerOff.draws s.powerOff.out hspares)
  refine ⟨fun hstandby hmod => ?perst, fun hstandby hmod => ?modOn, fun hmod => ?modOff, fun hdie => ?trip,
    fun high hup => inputRangeExcursion_reports s high hup, fun on hne => ?standby, fun hclock hon hpin =>
      ⟨tsyncEdge_latches s hclock hon hpin, fun t0 hlast hnear => ⟨_, tsyncEdge_ignored s hclock hon hpin hlast hnear, rfl, saturated_toNat _⟩⟩,
    fun time hclock hon hport => ?ptm, fun fn hlink hfn => ⟨fun hne => ⟨_, functionLevelReset_resets s hlink hfn hne, s.resetFn_spec fn⟩,
      pciePowerStateChange_sleeps s hlink hfn, fun hasleep => ⟨_, pciePowerStateChange_wakes s hlink hfn hasleep, s.wakeFn_spec⟩⟩,
    fun rate width flit hlink hlo hhi hwidth => ?trained, fun hdie hperst hclocked => ⟨configurationRequest_retry hdie hperst hclocked,
      fun hup => ⟨fun off => configurationRequest_read hdie hperst hclocked off hup,
        fun n hn => configurationRequest_vfs hdie hperst hclocked hup hn, fun fn on hfn => ?msix⟩⟩, fun b hup => ?uart, fun hdie =>
      ⟨⟨_, jtagInstruction_idcode s hdie, rfl, rfl⟩, fun hfactory op hop => jtagInstruction_vendor s hdie hfactory hop⟩⟩
  case perst =>
    refine ⟨_, (exec_perstAssert s).trans (if_pos (by simp [hstandby, hmod])), rfl, rfl, hcleared (s.clearCold_cleared.congr ?_ ?_ ?_ ?_ ?_),
      rfl, rfl, rfl, rfl⟩ <;> rfl
  case modOn =>
    exact ⟨_, (exec_modEnAssert s).trans (if_pos (by simp [hstandby, hmod])), rfl, rfl, rfl, rfl, hpins _ rfl⟩
  case modOff =>
    exact ⟨_, (exec_modEnDeassert s).trans (if_pos hmod), rfl, rfl, hpins _ rfl, rfl⟩
  case trip =>
    obtain ⟨hdieOff, hturned, hevents, hchain, hconsole⟩ := s.tripped_spec
    exact ⟨_, (exec_inputTrip s).trans (if_pos hdie), hdieOff, hoff hturned, hevents, hchain, hconsole⟩
  case standby =>
    exact ⟨_, (exec_standbyPowerChange s on).trans (if_neg hne), rfl, rfl, hpins _ rfl⟩
  case ptm =>
    exact ⟨_, (exec_ptmMessage s time).trans (if_pos (by simp [hclock, hon, hport])), rfl, rfl, rfl⟩
  case trained =>
    obtain ⟨hhif, hcounters, hmgt⟩ := s.linkTrained_spec rate width flit
    have heq := pcieLinkTrained_eq s (flit := flit) hlink hlo hhi hwidth
    by_cases h : rate = 6 ∧ width = 16
    · rw [if_pos h] at heq
      exact ⟨_, heq, hhif, hcounters, fun _ => hmgt, fun h' => absurd h h'⟩
    · rw [if_neg h] at heq
      exact ⟨_, heq, hhif, hcounters, fun h' => absurd h' h, fun _ => (State.recent_event _ 0x5801).exists_mem⟩
  case msix =>
    exact ⟨_, configurationRequest_msix hdie hperst hclocked on hup hfn, (State.mem_setMsix fn on fn).trans (by simp),
      fun j hj => (State.mem_setMsix fn on j).trans (by rw [if_neg hj]; rfl)⟩
  case uart =>
    refine ⟨fun hfactory => (exec_uartRxByte s b).trans (if_pos (by simp [hup, hfactory])), fun hfactory =>
      (exec_uartRxByte s b).trans (if_neg (by simp [hfactory]))⟩

end Sys2Proof.Machine
end

section
/-! PROOFS. The tally, the management chain, the headframes and the sensors (18 R479 to R492). -/

namespace Sys2Proof.Machine

section
variable (s : State)

theorem exec_tallyArm (time : W64) (n : Half) : exec (.tallyArm time n) s = execTallyArm time n s := rfl
theorem exec_mgtTallyGo (v : W32) : exec (.mgtTallyGo v) s = execMgtTallyGo v s := rfl
theorem exec_tallyLatch (i : Nat) : exec (.tallyLatch i) s = execTallyLatch i s := rfl
theorem exec_tallyIslandRecord : exec .tallyIslandRecord s = execTallyIslandRecord s := rfl
theorem exec_chainFrameRx (up : Bool) (f : ChainFrame) (crcOk acked : Bool) :
    exec (.chainFrameRx up f crcOk acked) s = execChainFrameRx up f crcOk acked s := rfl
theorem exec_chainAckTimeout (up : Bool) : exec (.chainAckTimeout up) s = execChainAckTimeout up s := rfl
theorem exec_chainBackoffExpiry (up : Bool) : exec (.chainBackoffExpiry up) s = execChainBackoffExpiry up s := rfl
theorem exec_enumerationFrame (v : Nat) : exec (.enumerationFrame v) s = execEnumerationFrame v s := rfl
theorem exec_chainAddressTimeout : exec .chainAddressTimeout s = execChainAddressTimeout s := rfl
theorem exec_heartbeatSend (r : HfRole) : exec (.heartbeatSend r) s = execHeartbeatSend r s := rfl
theorem exec_heartbeatRx (r : HfRole) (epoch : W32) (m : Nat) : exec (.heartbeatRx r epoch m) s = execHeartbeatRx r epoch m s := rfl
theorem exec_headframeTakeover (r : HfRole) : exec (.headframeTakeover r) s = execHeadframeTakeover r s := rfl
theorem exec_grantRequestRx (m id w : Nat) (stamp : W64) : exec (.grantRequestRx m id w stamp) s = execGrantRequestRx m id w stamp s := rfl
theorem exec_sensorUpdate (vs : List Nat) : exec (.sensorUpdate vs) s = execSensorUpdate vs s := rfl
theorem exec_pldmRequest (t n : Nat) : exec (.pldmRequest t n) s = execPldmRequest t n s := rfl

/-! ### Tallies (R488 to R490) -/

/-- A tally that the mailbox arms. -/
def State.armedBy (s : State) (time : W64) (n : Half) : State :=
  ({ s with mgt := { s.mgt with tallyTime := time, tallyNumber := n } } : State).armTally time n

theorem tallyArm_arms {time : W64} {n : Half} (hruns : s.mbxRuns 0x020B = true) (hfree : s.tallyRefused time.toNat = false) :
    exec (.tallyArm time n) s = .next ((s.armedBy time n).mbxReply 0) := by
  rw [exec_tallyArm, execTallyArm, if_neg (by simp [hruns]), if_neg (by simp [hfree])]
  rfl

theorem tallyArm_refused {time : W64} {n : Half} (hruns : s.mbxRuns 0x020B = true) (hbad : s.tallyRefused time.toNat = true) :
    exec (.tallyArm time n) s = .next ((s.event 5).mbxReply 0x0105) := by
  rw [exec_tallyArm, execTallyArm, if_neg (by simp [hruns]), if_pos hbad]

/-- A reply of the mailbox leaves the tally and the log alone. -/
theorem State.mbxReply_tally (st : Half) : let t := s.mbxReply st
    t.mgt.tallyPending = s.mgt.tallyPending ∧ t.mgt.armTime = s.mgt.armTime ∧ t.mgt.armNumber = s.mgt.armNumber ∧ t.mgt.events = s.mgt.events := by
  obtain ⟨_, _, _, _, _, hframe⟩ := s.mbxReply_frame st []
  rw [hframe]
  exact ⟨rfl, rfl, rfl, rfl⟩

section
variable {v : W32} (hbar : s.barOpen 0 = true) (hwait : s.hostWaits = false) (hruns : s.runsFree 245 = true)
include hbar hwait hruns

theorem mgtTallyGo_arms (hgo : bitAt v.toNat 16 = true) (hfree : s.tallyRefused s.mgt.tallyTime.toNat = false) :
    exec (.mgtTallyGo v) s = .next (({ s with mgt := { s.mgt with tallyNumber := BitVec.ofNat 16 v.toNat } } : State).armTally s.mgt.tallyTime
      (BitVec.ofNat 16 v.toNat)) := by
  have hfree' : ({ s with mgt := { s.mgt with tallyNumber := BitVec.ofNat 16 v.toNat } } : State).tallyRefused s.mgt.tallyTime.toNat = false :=
    hfree
  rw [exec_mgtTallyGo, execMgtTallyGo, State.hostTo_runs _ _ hwait (State.runsFree_of_barOpen hbar) (by simp [hruns])]
  dsimp only
  rw [if_neg (by simp [hbar]), if_neg (by simp [hgo]), hfree']
  rfl

theorem mgtTallyGo_numbers (hgo : bitAt v.toNat 16 = false) :
    exec (.mgtTallyGo v) s = .next { s with mgt := { s.mgt with tallyNumber := BitVec.ofNat 16 v.toNat } } := by
  rw [exec_mgtTallyGo, execMgtTallyGo, State.hostTo_runs _ _ hwait (State.runsFree_of_barOpen hbar) (by simp [hruns])]
  dsimp only
  rw [if_neg (by simp [hbar]), hgo]
  rfl

end

/-- Entries of a table with distinct keys, each put under its own key. -/
theorem Tab.find_foldl_put {α β : Type} (f : Nat × α → β) (es : List (Nat × α)) (t : Tab β) (k : Nat) (hkeys : (es.map Prod.fst).Nodup) :
    (∀ v, (k, v) ∈ es → Tab.find (es.foldl (fun t e => Tab.set t e.1 (f e)) t) k = some (f (k, v))) ∧
      ((∀ v, (k, v) ∉ es) → Tab.find (es.foldl (fun t e => Tab.set t e.1 (f e)) t) k = Tab.find t k) := by
  induction es generalizing t with
  | nil => exact ⟨fun v hv => absurd hv List.not_mem_nil, fun _ => rfl⟩
  | cons e es ih =>
    obtain ⟨hnew, hrest⟩ := List.nodup_cons.mp hkeys
    obtain ⟨hin, hout⟩ := ih (Tab.set t e.1 (f e)) hrest
    refine ⟨fun v hv => ?_, fun hnone => ?_⟩
    · rcases List.mem_cons.mp hv with rfl | hv
      · refine (hout fun w hw => hnew (List.mem_map.mpr ⟨_, hw, rfl⟩)).trans ?_
        exact Tab.find_set_self _ _ _
      · exact hin v hv
    · refine (hout fun v hv => hnone v (List.mem_cons_of_mem _ hv)).trans (Tab.find_set_of_ne _ _ ?_)
      rintro rfl
      exact hnone e.2 List.mem_cons_self

/-- The value at a key of a table with distinct keys. -/
theorem Tab.eq_of_mem {α : Type} {t : Tab α} {k : Nat} {v w : α} (hkeys : (t.map Prod.fst).Nodup) (hfind : Tab.find t k = some v)
    (hmem : (k, w) ∈ t) : w = v := by
  have hv := Tab.mem_of_find hfind
  exact congrArg Prod.snd (List.inj_on_of_nodup_map hkeys hmem hv rfl)

/-- What a latch puts into the shadows: the counters of its island, and nothing else. -/
theorem State.latchShadows_find (island : Nat) (n : Half) {off : Nat} {v : W64} (hfind : Tab.find s.counters off = some v)
    (hkeys : (s.counters.map Prod.fst).Nodup) : Tab.find (s.latchShadows island n) off =
      if islandOfReg off = island then some (shadowOf off v n) else Tab.find s.shadows off := by
  have hfiltered : ((s.counters.filter fun e => decide (islandOfReg e.1 = island)).map Prod.fst).Nodup :=
    hkeys.sublist (List.filter_sublist.map _)
  obtain ⟨hin, hout⟩ := Tab.find_foldl_put (fun e => shadowOf e.1 e.2 n) (s.counters.filter fun e => decide (islandOfReg e.1 = island))
    s.shadows off hfiltered
  split_ifs with h
  · exact hin v (List.mem_filter.mpr ⟨Tab.mem_of_find hfind, decide_eq_true h⟩)
  · exact hout fun w hw => h (of_decide_eq_true (List.mem_filter.mp hw).2)

/-- What an island's entry becomes with its latch. -/
def State.latchEntry (s : State) (i : Nat) : TallyIsland :=
  { Tab.get ({} : TallyIsland) s.mgt.islands i with lastTime := s.time, lastNumber := s.mgt.armNumber }

/-- An island with its counters latched. -/
def State.latched (s : State) (i : Nat) : State :=
  { s with
    shadows := s.latchShadows i s.mgt.armNumber
    mgt := { s.mgt with islands := Tab.set s.mgt.islands i (s.latchEntry i) } }

section
variable {i : Nat} (hpending : s.mgt.tallyPending = true) (hi : i < 256) (hdue : s.mgt.armTime.toNat ≤ s.time)
  (honce : (Tab.get ({} : TallyIsland) s.mgt.islands i).lastTime < s.mgt.armTime.toNat)
include hpending hi hdue honce

theorem tallyLatch_latches (hruns : s.islandRuns i = true) : exec (.tallyLatch i) s = .next (s.latched i) := by
  rw [exec_tallyLatch, execTallyLatch]
  dsimp only
  rw [if_neg]
  · rfl
  · simp only [hpending, decide_eq_true hi, decide_eq_true hdue, decide_eq_true honce, hruns]
    decide

omit hpending hi hdue honce in
theorem tallyLatch_held (hheld : s.islandRuns i = false) : exec (.tallyLatch i) s = .next s := by
  rw [exec_tallyLatch, execTallyLatch]
  exact if_pos (by simp [hheld])

end

/-- What a latch leaves. -/
theorem State.latched_spec (i : Nat) : let t := s.latched i
    t.counters = s.counters ∧ (∀ off v, Tab.find s.counters off = some v → (s.counters.map Prod.fst).Nodup →
      (islandOfReg off = i → Tab.find t.shadows off = some (shadowOf off v s.mgt.armNumber)) ∧
        (islandOfReg off ≠ i → Tab.find t.shadows off = Tab.find s.shadows off)) ∧
      (Tab.get ({} : TallyIsland) t.mgt.islands i).lastTime = s.time := by
  refine ⟨rfl, fun off v hfind hkeys => ?_, ?_⟩
  · have hshadow := s.latchShadows_find i s.mgt.armNumber hfind hkeys
    exact ⟨fun h => hshadow.trans (if_pos h), fun h => hshadow.trans (if_neg h)⟩
  · exact congrArg TallyIsland.lastTime (Tab.get_set_self {} s.mgt.islands i (s.latchEntry i))

/-- A tally that is recorded. -/
def State.tallyRecorded (s : State) : State :=
  let es := (List.range 256).map fun i => (i, recordIsland s.mgt.armTime.toNat (Tab.get {} s.mgt.islands i))
  { s with mgt := { s.mgt with
      islands := es, tallyPending := false, tallyLast := s.mgt.armNumber, tallyStale := (es.filter fun e => e.2.stale).length } }

theorem tallyIslandRecord_records (hpending : s.mgt.tallyPending = true) (hruns : s.islandRuns 245 = true)
    (hdue : s.mgt.armTime.toNat + 1000 ≤ s.time) : exec .tallyIslandRecord s = .next s.tallyRecorded := by
  rw [exec_tallyIslandRecord, execTallyIslandRecord]
  exact if_neg (by simp [hpending, hruns, hdue])

/-- The value at a key of a table of a list of keys. -/
theorem Tab.find_map_keys {α : Type} (f : Nat → α) (ks : List Nat) (k : Nat) (hk : k ∈ ks) :
    Tab.find (ks.map fun i => (i, f i)) k = some (f k) := by
  induction ks with
  | nil => exact absurd hk List.not_mem_nil
  | cons j ks ih =>
    rw [List.map_cons, Tab.find]
    split_ifs with h
    · rw [h]
    · exact ih ((List.mem_cons.mp hk).resolve_left (Ne.symm h))

theorem State.tallyRecorded_stale {i : Nat} (hi : i < 256) : (Tab.get ({} : TallyIsland) s.tallyRecorded.mgt.islands i).stale =
    decide ((Tab.get ({} : TallyIsland) s.mgt.islands i).lastTime < s.mgt.armTime.toNat) := by
  have hfind := Tab.find_map_keys (fun i => recordIsland s.mgt.armTime.toNat (Tab.get {} s.mgt.islands i)) (List.range 256) i
    (List.mem_range.mpr hi)
  have hislands : s.tallyRecorded.mgt.islands =
      (List.range 256).map fun i => (i, recordIsland s.mgt.armTime.toNat (Tab.get {} s.mgt.islands i)) := rfl
  rw [hislands, Tab.get, hfind]
  rfl

/-! ### The chain (R479 to R481) -/

theorem State.chainTx_setTx (up : Bool) (t : ChainTx) : (s.setTx up t).chainTx up = t := by
  cases up <;> rfl

theorem State.chainTx_setTx_other (up : Bool) (t : ChainTx) : (s.setTx up t).chainTx (!up) = s.chainTx (!up) := by
  cases up <;> rfl

/-- What the drive of a segment leaves alone. -/
theorem State.chainDrive_keeps (up : Bool) : (∀ w, (s.chainDrive up).chainTx w = s.chainTx w) ∧ (s.chainDrive up).mgt.events = s.mgt.events := by
  unfold State.chainDrive
  split
  · exact ⟨fun _ => rfl, rfl⟩
  · exact ⟨fun w => by cases w <;> rfl, rfl⟩

theorem State.chainDrive_out {up : Bool} {f : ChainFrame} {rest : List ChainFrame} (hqueue : (s.chainTx up).queue = f :: rest) :
    (s.chainDrive up).out = s.out ++ [.chain up f] := by
  unfold State.chainDrive
  rw [hqueue]
  rfl

/-- The first frame of a segment is done. -/
theorem State.chainPop_spec {up : Bool} {f : ChainFrame} {rest : List ChainFrame} (hqueue : (s.chainTx up).queue = f :: rest) :
    let t := s.chainPop up
    (t.chainTx up).queue = rest ∧ (t.chainTx up).tries = 0 ∧ t.mgt.events = s.mgt.events := by
  obtain ⟨htx, hevents⟩ := (s.setTx up { queue := (s.chainTx up).queue.drop 1, tries := 0, backoff := 0 }).chainDrive_keeps up
  have hset : (s.setTx up { queue := (s.chainTx up).queue.drop 1, tries := 0, backoff := 0 }).mgt.events = s.mgt.events := by
    cases up <;> rfl
  rw [State.chainPop]
  refine ⟨?_, ?_, hevents.trans hset⟩ <;> rw [htx, State.chainTx_setTx]
  rw [hqueue]
  rfl

section
variable {s} {up : Bool} {f : ChainFrame} (hup : s.chainUp = true)
include hup

/-- A frame while this end drives nothing meets no collision. -/
theorem chainFrameRx_bad (hidle : (s.chainTx up).queue = []) : exec (.chainFrameRx up f false false) s = .next (s.count 0x118 1) := by
  have hcollide : s.chainCollide up = s := by simp [State.chainCollide, hidle]
  rw [exec_chainFrameRx, execChainFrameRx, if_neg (by simp [hup]), if_neg (by decide), hcollide]
  rfl

theorem chainFrameRx_good (hidle : (s.chainTx up).queue = []) : exec (.chainFrameRx up f true false) s =
    .next (if s.mgt.chainAddr = some f.dst then (s.count 0x108 1).emit (.chainAck up)
      else ((s.count 0x108 1).emit (.chainAck up)).chainForward up f) := by
  have hcollide : s.chainCollide up = s := by simp [State.chainCollide, hidle]
  rw [exec_chainFrameRx, execChainFrameRx, if_neg (by simp [hup]), if_neg (by decide), hcollide]
  rfl

omit hup in
/-- A frame for a module on the side that it came from goes no further. -/
theorem State.chainForward_back {a : Nat} (haddr : s.mgt.chainAddr = some a) (hone : f.dst ≠ 15) (hside : if up then f.dst < a else a < f.dst) :
    s.chainForward up f = s := by
  have hon : (decide (f.dst = 15) || (if up then decide (a < f.dst) else decide (f.dst < a))) = false := by
    rw [decide_eq_false hone]
    cases up
    · exact decide_eq_false (Nat.lt_asymm hside)
    · exact decide_eq_false (Nat.lt_asymm hside)
  unfold State.chainForward
  rw [haddr]
  dsimp only
  rw [hon]
  rfl

theorem chainFrameRx_acked {rest : List ChainFrame} {g : ChainFrame} (hqueue : (s.chainTx up).queue = f :: rest)
    (hback : (s.chainTx up).backoff = 0) : exec (.chainFrameRx up g true true) s = .next (s.chainPop up) := by
  rw [exec_chainFrameRx, execChainFrameRx, if_neg (by simp [hup]), if_pos rfl, if_neg (by simp [hqueue, hback])]

/-- A frame that is sent once more. -/
def State.chainAgain (s : State) (up : Bool) : State :=
  (s.setTx up { s.chainTx up with tries := (s.chainTx up).tries + 1 }).chainDrive up

theorem chainAckTimeout_again {rest : List ChainFrame} (hqueue : (s.chainTx up).queue = f :: rest) (hback : (s.chainTx up).backoff = 0)
    (htries : (s.chainTx up).tries < 3) : exec (.chainAckTimeout up) s = .next (s.chainAgain up) := by
  rw [exec_chainAckTimeout, execChainAckTimeout]
  exact (if_neg (by simp [hup, hqueue, hback])).trans (if_pos htries)

theorem chainAckTimeout_drops {rest : List ChainFrame} (hqueue : (s.chainTx up).queue = f :: rest) (hback : (s.chainTx up).backoff = 0)
    (htries : 3 ≤ (s.chainTx up).tries) : exec (.chainAckTimeout up) s = .next ((s.event 0x000A).chainPop up) := by
  rw [exec_chainAckTimeout, execChainAckTimeout]
  exact (if_neg (by simp [hup, hqueue, hback])).trans (if_neg (Nat.not_lt.mpr htries))

theorem chainBackoffExpiry_drives (hback : (s.chainTx up).backoff ≠ 0) :
    exec (.chainBackoffExpiry up) s = .next ((s.setTx up { s.chainTx up with backoff := 0 }).chainDrive up) := by
  rw [exec_chainBackoffExpiry, execChainBackoffExpiry]
  exact if_neg (by simp [hup, hback])

theorem enumerationFrame_takes {v : Nat} (hlo : 1 ≤ v) (hhi : v ≤ 8) (hnone : s.mgt.chainAddr = none) :
    exec (.enumerationFrame v) s = .next (s.takeAddress v) := by
  rw [exec_enumerationFrame, execEnumerationFrame, if_neg (by simp [hup]), hnone]
  exact if_pos ⟨hlo, hhi⟩

theorem enumerationFrame_again {v : Nat} (haddr : s.mgt.chainAddr = some v) (hclosed : s.mgt.chainOpen = false) :
    exec (.enumerationFrame v) s = .next s := by
  rw [exec_enumerationFrame, execEnumerationFrame, if_neg (by simp [hup]), haddr]
  exact if_pos ⟨rfl, by simp [hclosed]⟩

theorem enumerationFrame_other {v a : Nat} (haddr : s.mgt.chainAddr = some a) (hclosed : s.mgt.chainOpen = false) (hne : v ≠ a) :
    exec (.enumerationFrame v) s = .next (s.event 9) := by
  rw [exec_enumerationFrame, execEnumerationFrame, if_neg (by simp [hup]), haddr]
  exact (if_neg fun h => hne h.1).trans (if_neg fun h => by rw [hclosed] at h; exact absurd h.1 (by decide))

end

/-- A chain address that is taken, before what a boot in HOLD does with it. -/
def State.addressed (s : State) (v : Nat) : State :=
  let t := ({ s with
    mgt := { s.mgt with chainAddr := some v, chainOpen := false }, walker := { s.walker with boardSlot := v - 1 } } : State).emit
      (.enumerate (v + 1))
  if s.pins.straps ≠ v - 1 then t.event 0x000B else t

theorem State.addressed_spec (v : Nat) : (s.addressed v).mgt.chainAddr = some v ∧ (s.addressed v).walker.boardSlot = v - 1 ∧
    (s.addressed v).out = s.out ++ [.enumerate (v + 1)] ∧ (s.addressed v).mgt.state = s.mgt.state := by
  unfold State.addressed
  dsimp only
  split_ifs <;> exact ⟨rfl, rfl, rfl, rfl⟩

theorem State.takeAddress_outside_hold {v : Nat} (hstate : s.mgt.state ≠ .hold) : s.takeAddress v = s.addressed v := by
  have hkeeps := (s.addressed_spec v).2.2.2
  have heq : s.takeAddress v = if (s.addressed v).mgt.state = .hold ∧ (s.addressed v).mgt.holdCause = 7 then (s.addressed v).bootLinks
      else s.addressed v := rfl
  rw [heq, if_neg fun h => hstate (hkeeps.symm.trans h.1)]

/-! ### Headframes (R400, R482, R483) -/

theorem State.role_setRole (r : HfRole) (x : RoleState) : (s.setRole r x).role r = x := by
  cases r <;> rfl

/-- Serving grants moves what goes out, the grants and the requests. -/
theorem State.serveGrants_frame (qs : List GrantReq) : let t := s.serveGrants qs
    t = { s with mgt := { s.mgt with grants := t.mgt.grants, grantReqs := t.mgt.grantReqs }, out := t.out } := by
  induction qs generalizing s with
  | nil => rfl
  | cons q rest ih =>
    rw [State.serveGrants]
    split_ifs
    · exact (ih _).trans rfl
    · rfl

theorem State.settleGrants_frame : let t := s.settleGrants
    t = { s with mgt := { s.mgt with grants := t.mgt.grants, grantReqs := t.mgt.grantReqs }, out := t.out } := by
  unfold State.settleGrants
  split
  · split_ifs
    · exact s.serveGrants_frame _
    · rfl
  · rfl

theorem State.role_settleGrants (r : HfRole) : s.settleGrants.role r = s.role r := by
  rw [s.settleGrants_frame]
  cases r <;> rfl

section
variable {s} (hup : s.mgtUp = true)
include hup

theorem heartbeatSend_sends {r : HfRole} (hhead : (s.role r).head = true) (hnone : s.grantRole = none) :
    exec (.heartbeatSend r) s = .next (s.emit (.heartbeat r (s.role r).epoch)) := by
  have hnone' : (s.emit (.heartbeat r (s.role r).epoch)).grantRole = none := hnone
  rw [exec_heartbeatSend, execHeartbeatSend, if_pos (by simp [hup, hhead]), State.settleGrants, hnone']

theorem heartbeatRx_yields {r : HfRole} {epoch : W32} {m : Nat} (hhead : (s.role r).head = true)
    (hhigher : (s.role r).epoch.toNat < epoch.toNat ∨ (epoch = (s.role r).epoch ∧ m < s.me)) : exec (.heartbeatRx r epoch m) s =
      .next (s.setRole r { head := false, standby := true, epoch := epoch, heard := some m, last := s.time }) := by
  rw [exec_heartbeatRx, execHeartbeatRx]
  exact ((if_neg (by simp [hup])).trans (if_pos hhead)).trans (if_pos hhigher)

theorem heartbeatRx_ignores {r : HfRole} {epoch : W32} {m : Nat} (hhead : (s.role r).head = true)
    (hlower : epoch.toNat < (s.role r).epoch.toNat) : exec (.heartbeatRx r epoch m) s = .next s := by
  rw [exec_heartbeatRx, execHeartbeatRx]
  refine ((if_neg (by simp [hup])).trans (if_pos hhead)).trans (if_neg ?_)
  rintro (h | ⟨h, -⟩)
  · exact absurd (Nat.lt_trans h hlower) (Nat.lt_irrefl _)
  · exact absurd hlower (by rw [h]; exact Nat.lt_irrefl _)

theorem headframeTakeover_takes {r : HfRole} (hstandby : (s.role r).standby = true) (hnot : (s.role r).head = false)
    (hmissed : (s.role r).last + 3 * s.mgt.heartbeatMs * 1000000 ≤ s.time) : exec (.headframeTakeover r) s =
      .next ((s.setRole r { s.role r with head := true, standby := false, epoch := (s.role r).epoch + 1 }).event 6).settleGrants := by
  rw [exec_headframeTakeover, execHeadframeTakeover]
  exact if_pos (by simp [hup, hstandby, hnot, hmissed])

end

theorem State.takeover_spec (r : HfRole) (x : RoleState) : let t := ((s.setRole r x).event 6).settleGrants
    t.role r = x ∧ ∃ e ∈ t.mgt.events, e.code = 6 := by
  have hevents : ((s.setRole r x).event 6).settleGrants.mgt.events = ((s.setRole r x).event 6).mgt.events := by
    rw [State.settleGrants_frame]
  have hrole : ((s.setRole r x).event 6).role r = (s.setRole r x).role r := by cases r <;> rfl
  refine ⟨?_, ?_⟩
  · rw [State.role_settleGrants, hrole, State.role_setRole]
  · rw [hevents]
    exact (State.recent_event _ 6).exists_mem

/-- A request that waits alone. -/
def State.asked (s : State) (q : GrantReq) : State := { s with mgt := { s.mgt with grantReqs := [q] } }

/-- A request to a headframe or a standby that holds no other is served, if the role is held. -/
theorem grantRequestRx_alone {r : HfRole} {m id w : Nat} {stamp : W64} (hup : s.mgtUp = true) (hrole : s.grantRole = some r)
    (hholds : (s.role r).head = true ∨ (s.role r).standby = true) (hnone : s.mgt.grantReqs = []) : exec (.grantRequestRx m id w stamp) s =
      .next (s.asked { module := m, id := id, watts := w, stamp := stamp.toNat }).settleGrants := by
  rw [exec_grantRequestRx, execGrantRequestRx, hrole]
  dsimp only
  rw [if_neg (by rcases hholds with h | h <;> simp [hup, h]), hnone]
  rfl

theorem State.asked_grants {r : HfRole} {q : GrantReq} (hrole : s.grantRole = some r) (hhead : (s.role r).head = true)
    (hfits : s.grantFits q.watts = true) : let t := (s.asked q).settleGrants
    t.out = s.out ++ [.grant q.module q.id q.watts s.gov.validUs] ∧ t.mgt.grants = s.windowGrants ++ [(s.time, q.watts)] ∧ t.mgt.grantReqs = [] := by
  have hrole' : (s.asked q).grantRole = some r := hrole
  have hhead' : ((s.asked q).role r).head = true := by cases r <;> exact hhead
  have hfits' : (s.asked q).grantFits q.watts = true := hfits
  have hqueue : (s.asked q).mgt.grantReqs = [q] := rfl
  rw [State.settleGrants, hrole']
  dsimp only
  rw [if_pos hhead', hqueue, State.serveGrants, if_pos hfits']
  exact ⟨rfl, rfl, rfl⟩

theorem State.asked_waits {r : HfRole} {q : GrantReq} (hrole : s.grantRole = some r)
    (hwaits : (s.role r).head = true → s.grantFits q.watts = false) : (s.asked q).settleGrants = s.asked q := by
  have hrole' : (s.asked q).grantRole = some r := hrole
  have hsame : (s.asked q).role r = s.role r := by cases r <;> rfl
  have hqueue : (s.asked q).mgt.grantReqs = [q] := rfl
  rw [State.settleGrants, hrole']
  dsimp only
  rw [hsame]
  split_ifs with hhead
  · have hfull : (s.asked q).grantFits q.watts = false := hwaits hhead
    rw [hqueue, State.serveGrants, hfull]
    rfl
  · rfl

/-! ### Sensors (R492) -/

/-- The thresholds of some sensors are noted, numbered from 1. -/
def State.noteReadings (s : State) (vs is : List Nat) : State :=
  is.foldl (fun s i => s.noteLimit (i + 1) (s.gov.sensorLimit (i + 1) (vs.getD i 0))) s

theorem State.noteLimit_frame (n limit : Nat) : let t := s.noteLimit n limit
    t = { s with mgt := { s.mgt with sensorLimits := t.mgt.sensorLimits }, out := t.out } ∧ s.out <+: t.out ∧
      (∀ j, j ≠ n → Tab.get 0 t.mgt.sensorLimits j = Tab.get 0 s.mgt.sensorLimits j) ∧
      (limit ≠ Tab.get 0 s.mgt.sensorLimits n → Out.pldm [n, limit] ∈ t.out) := by
  unfold State.noteLimit
  split_ifs with h
  · exact ⟨rfl, List.prefix_refl _, fun _ _ => rfl, fun hne => absurd h.symm hne⟩
  · exact ⟨rfl, List.prefix_append _ _, fun j hj => Tab.get_set_of_ne _ _ _ hj, fun _ => List.mem_append_right _ List.mem_cons_self⟩

/-- From s to t thresholds were noted, and what was sent stays sent. -/
structure NotesLimits (s t : State) : Prop where
  frame : t = { s with mgt := { s.mgt with sensorLimits := t.mgt.sensorLimits }, out := t.out }
  out : s.out <+: t.out

theorem State.noteReadings_spec (vs is : List Nat) : let t := s.noteReadings vs is
    NotesLimits s t ∧ ∀ i ∈ is, s.gov.sensorLimit (i + 1) (vs.getD i 0) ≠ Tab.get 0 s.mgt.sensorLimits (i + 1) →
      Out.pldm [i + 1, s.gov.sensorLimit (i + 1) (vs.getD i 0)] ∈ t.out := by
  induction is generalizing s with
  | nil => exact ⟨⟨rfl, List.prefix_refl _⟩, fun i hi => absurd hi List.not_mem_nil⟩
  | cons j is ih =>
    obtain ⟨hframe, hout, hother, hsent⟩ := s.noteLimit_frame (j + 1) (s.gov.sensorLimit (j + 1) (vs.getD j 0))
    obtain ⟨⟨hframe', hout'⟩, hsent'⟩ := ih (s.noteLimit (j + 1) (s.gov.sensorLimit (j + 1) (vs.getD j 0)))
    have hgov : (s.noteLimit (j + 1) (s.gov.sensorLimit (j + 1) (vs.getD j 0))).gov = s.gov := by rw [hframe]
    have hcons : s.noteReadings vs (j :: is) = (s.noteLimit (j + 1) (s.gov.sensorLimit (j + 1) (vs.getD j 0))).noteReadings vs is := rfl
    rw [hcons]
    rw [hgov] at hsent'
    refine ⟨⟨?_, hout.trans hout'⟩, fun i hi hne => ?_⟩
    · rw [hframe', hframe]
    · by_cases hij : i = j
      · subst hij
        exact hout'.subset (hsent hne)
      · refine hsent' i ((List.mem_cons.mp hi).resolve_left hij) ?_
        rw [hother (i + 1) (by omega)]
        exact hne

/-- The readings of the 17 sensors. -/
def State.readings (s : State) (vs : List Nat) : List Nat :=
  (List.range 15).map (fun i => vs.getD i 0) ++ [(s.counter (govReg 0x128)).toNat, s.stateSensor]

theorem State.readings_spec (vs : List Nat) : (∀ i < 15, (s.readings vs)[i]? = some (vs.getD i 0)) ∧
    (s.readings vs)[15]? = some (s.counter (govReg 0x128)).toNat := by
  refine ⟨fun i hi => ?_, rfl⟩
  rw [State.readings, List.getElem?_append_left (by simpa using hi), List.getElem?_map, List.getElem?_range hi]
  rfl

/-- The readings stand. -/
def State.read17 (s : State) (vs : List Nat) : State := { s with mgt := { s.mgt with sensors := s.readings vs } }

theorem sensorUpdate_senses (vs : List Nat) (hup : s.mgtUp = true) :
    exec (.sensorUpdate vs) s = .next ((s.read17 vs).noteReadings (s.readings vs) (List.range 17)) := by
  rw [exec_sensorUpdate, execSensorUpdate, if_neg (by simp [hup])]
  rfl

theorem State.sensed_spec (vs : List Nat) : let t := (s.read17 vs).noteReadings (s.readings vs) (List.range 17)
    (∀ i < 15, t.mgt.sensors[i]? = some (vs.getD i 0)) ∧ t.mgt.sensors[15]? = some (s.counter (govReg 0x128)).toNat ∧
      ∀ i < 15, s.gov.sensorLimit (i + 1) (vs.getD i 0) ≠ Tab.get 0 s.mgt.sensorLimits (i + 1) →
        Out.pldm [i + 1, s.gov.sensorLimit (i + 1) (vs.getD i 0)] ∈ t.out := by
  obtain ⟨hnotes, hsent⟩ := (s.read17 vs).noteReadings_spec (s.readings vs) (List.range 17)
  obtain ⟨hfirst, hlast⟩ := s.readings_spec vs
  have hsensors : ((s.read17 vs).noteReadings (s.readings vs) (List.range 17)).mgt.sensors = s.readings vs := by
    rw [hnotes.frame]
    rfl
  dsimp only
  rw [hsensors]
  refine ⟨hfirst, hlast, fun i hi hne => ?_⟩
  have hvalue : (s.readings vs).getD i 0 = vs.getD i 0 := by rw [List.getD_eq_getElem?_getD, hfirst i hi]; rfl
  have hsent' := hsent i (List.mem_range.mpr (by omega))
  rw [hvalue] at hsent'
  exact hsent' hne

theorem pldmRequest_reads {n v : Nat} (hup : s.mgtUp = true) (hpos : 1 ≤ n) (hvalue : s.mgt.sensors[n - 1]? = some v) :
    exec (.pldmRequest 2 n) s = .next (s.emit (.pldm [n, v])) := by
  rw [exec_pldmRequest, execPldmRequest, if_neg (by simp [hup]), if_pos rfl, hvalue]
  dsimp only
  rw [if_pos hpos]

end

/-- Settles O56: tallies, the chain, the headframes and the sensors by the lemmas above, clause by clause. -/
theorem tallyAndChain : Obligations.TallyAndChain := by
  unfold Obligations.TallyAndChain
  intro s
  refine ⟨fun time n hruns => ⟨fun hfree => ?arm, fun hbad => ?refused⟩, fun v hbar hwait hruns => ⟨fun hgo hfree =>
      ⟨_, mgtTallyGo_arms s hbar hwait hruns hgo hfree, rfl, rfl, rfl⟩, fun hgo => mgtTallyGo_numbers s hbar hwait hruns hgo⟩,
    fun i hpending hi hdue honce => ⟨fun hruns => ⟨_, tallyLatch_latches s hpending hi hdue honce hruns, s.latched_spec i⟩,
      tallyLatch_held s⟩, fun hpending hruns hdue =>
      ⟨_, tallyIslandRecord_records s hpending hruns hdue, rfl, rfl, fun i hi => s.tallyRecorded_stale hi⟩,
    fun hup => ⟨fun up f hidle => ⟨?bad, fun haddr => ?mine, fun a haddr hne hone hside => ?back⟩, fun up f rest hqueue hback =>
      ⟨?acked, fun htries => ?again, fun htries => ?dropped⟩, fun up f rest hqueue hback => ?backoff,
      fun v hlo hhi hnone hstate => ?address, fun v a haddr hclosed => ⟨fun heq => ?same, enumerationFrame_other hup haddr hclosed⟩,
      fun hstate hcause hnone => ?timeout⟩,
    fun hup => ⟨fun r hhead hnone => heartbeatSend_sends hup hhead hnone, fun r epoch m hhead => ⟨fun hhigher => ?yields,
        heartbeatRx_ignores hup hhead⟩, fun r hstandby hnot hmissed => ?takeover, fun r m id w stamp hrole hnone =>
        ⟨fun hhead hfits => ?grants, fun hwaits => ?waits⟩, fun vs => ⟨_, sensorUpdate_senses s vs hup, s.sensed_spec vs⟩,
      fun n v hpos hvalue => pldmRequest_reads s hup hpos hvalue⟩⟩
  case arm =>
    obtain ⟨hpending, htime, hnumber, -⟩ := (s.armedBy time n).mbxReply_tally 0
    exact ⟨_, tallyArm_arms s hruns hfree, State.mbxReply_replied _ _ _, hpending, htime, hnumber⟩
  case refused =>
    obtain ⟨hpending, -, -, hevents⟩ := (s.event 5).mbxReply_tally 0x0105
    refine ⟨_, tallyArm_refused s hruns hbad, State.mbxReply_replied _ _ _, hpending, ?_⟩
    rw [hevents]
    exact (s.recent_event 5).exists_mem
  case bad =>
    exact ⟨_, chainFrameRx_bad hup hidle, countersMoved_count _ _ _, rfl⟩
  case mine =>
    exact ⟨_, (chainFrameRx_good hup hidle).trans (congrArg _ (if_pos haddr)), countersMoved_count _ _ _, rfl⟩
  case back =>
    have hnot : s.mgt.chainAddr ≠ some f.dst := fun h => hne (Option.some.inj (haddr.symm.trans h))
    have hback := ((s.count 0x108 1).emit (.chainAck up)).chainForward_back haddr hone hside
    exact ⟨_, (chainFrameRx_good hup hidle).trans (congrArg _ ((if_neg hnot).trans hback)), rfl, by cases up <;> rfl⟩
  case acked =>
    obtain ⟨hrest, htries, -⟩ := s.chainPop_spec hqueue
    exact ⟨_, chainFrameRx_acked hup hqueue hback, hrest, htries⟩
  case again =>
    have hset := s.chainTx_setTx up { s.chainTx up with tries := (s.chainTx up).tries + 1 }
    have hout := State.chainDrive_out (s.setTx up { s.chainTx up with tries := (s.chainTx up).tries + 1 }) (f := f) (rest := rest)
      (by rw [hset]; exact hqueue)
    exact ⟨_, chainAckTimeout_again hup hqueue hback htries, hout, ((State.chainDrive_keeps _ up).1 up).trans hset⟩
  case dropped =>
    have hqueue' : ((s.event 0x000A).chainTx up).queue = f :: rest := by rw [← hqueue]; cases up <;> rfl
    obtain ⟨hrest, -, hevents⟩ := (s.event 0x000A).chainPop_spec hqueue'
    refine ⟨_, chainAckTimeout_drops hup hqueue hback htries, hrest, ?_⟩
    rw [hevents]
    exact (s.recent_event 0x000A).exists_mem
  case backoff =>
    have hset := s.chainTx_setTx up { s.chainTx up with backoff := 0 }
    have hout := State.chainDrive_out (s.setTx up { s.chainTx up with backoff := 0 }) (f := f) (rest := rest) (by rw [hset]; exact hqueue)
    exact ⟨_, chainBackoffExpiry_drives hup hback, hout, ((State.chainDrive_keeps _ up).1 up).trans hset⟩
  case address =>
    obtain ⟨haddr, hslot, hout, -⟩ := s.addressed_spec v
    exact ⟨_, (enumerationFrame_takes hup hlo hhi hnone).trans (congrArg _ (s.takeAddress_outside_hold hstate)), haddr, hslot, hout⟩
  case same =>
    subst heq
    exact enumerationFrame_again hup haddr hclosed
  case timeout =>
    rw [exec_chainAddressTimeout, execChainAddressTimeout, if_pos (by simp [hup, hstate, hcause, hnone])]
  case yields =>
    refine ⟨_, heartbeatRx_yields hup hhead hhigher, ?_, ?_, ?_⟩ <;> rw [State.role_setRole]
  case takeover =>
    obtain ⟨hrole, hevent⟩ := s.takeover_spec r { s.role r with head := true, standby := false, epoch := (s.role r).epoch + 1 }
    refine ⟨_, headframeTakeover_takes hup hstandby hnot hmissed, ?_, ?_, hevent⟩ <;> rw [hrole]
  case grants =>
    exact ⟨_, grantRequestRx_alone s hup hrole (.inl hhead) hnone, s.asked_grants hrole hhead hfits⟩
  case waits =>
    have hholds : (s.role r).head = true ∨ (s.role r).standby = true := hwaits.imp And.left And.right
    have hrest := s.asked_waits (q := { module := m, id := id, watts := w, stamp := stamp.toNat }) hrole fun hhead => by
      rcases hwaits with h | h
      · exact h.2
      · rw [h.1] at hhead
        exact absurd hhead (by decide)
    exact ⟨_, (grantRequestRx_alone s hup hrole hholds hnone).trans (congrArg _ hrest), rfl, rfl⟩

end Sys2Proof.Machine
end

section
/-! PROOFS. Compaction and sealed outputs of a step that ends (10 R270; 17 R454 to R457): what they leave alone. -/

namespace Sys2Proof.Machine

/-- A step but for what becomes of its sequences. -/
def Step.bare (st : Step) : Step := { st with seqs := [] }

/-- From s to t memories, messages, sessions and the marks of running sequences moved: the windows, the PCIe functions and the rest of each
running step stay. -/
structure StepWrites (s t : State) : Prop where
  windows : t.cmd.windows = s.cmd.windows
  hif : t.hif = s.hif
  running (k : Nat) : (t.panel k).running.map Step.bare = (s.panel k).running.map Step.bare

section
variable {s t u : State}

theorem StepWrites.refl (s : State) : StepWrites s s := ⟨rfl, rfl, fun _ => rfl⟩

theorem StepWrites.trans (h : StepWrites s t) (k : StepWrites t u) : StepWrites s u :=
  ⟨k.windows.trans h.windows, k.hif.trans h.hif, fun i => (k.running i).trans (h.running i)⟩

theorem StepWrites.of_tables (hwin : t.cmd.windows = s.cmd.windows) (hpanels : t.cmd.panels = s.cmd.panels) (hhif : t.hif = s.hif) :
    StepWrites s t := ⟨hwin, hhif, fun k => by rw [State.panel, hpanels, State.panel]⟩

/-- A change of one panel that keeps its running step, its sequences aside. -/
theorem StepWrites.modPanel (s : State) (k : Nat) {f : Panel → Panel}
    (hf : ∀ pn, (f pn).running.map Step.bare = pn.running.map Step.bare) : StepWrites s (s.modPanel k f) := by
  refine ⟨rfl, rfl, fun j => ?_⟩
  rw [State.panel_modPanel]
  split_ifs with h
  · rw [hf, h]
  · rfl

theorem StepWrites.takeTokens (s : State) (k side n : Nat) : StepWrites s (s.takeTokens k side n) := by
  unfold State.takeTokens
  exact .modPanel s k fun pn => by split <;> rfl

/-- Whatever reads and writes memory or sends messages leaves the step alone. -/
theorem stepWrites_closed : SendClosed StepWrites where
  refl := .refl
  trans := .trans
  hbm h := .of_tables (by rw [h.cmd]) (by rw [h.cmd]) h.hif
  emit _ _ := .of_tables rfl rfl rfl
  charge _ _ _ _ := .of_tables rfl rfl rfl
  tokens := .takeTokens
  queues _ _ _ _ _ _ _ := .of_tables rfl rfl rfl
  transfers _ _ _ := .of_tables rfl rfl rfl
  slice _ _ _ _ := .of_tables rfl rfl rfl
  launch s h data port _ := .of_tables (by rw [(s.launch_portsOnly h data port).eq]) (by rw [(s.launch_portsOnly h data port).eq])
    (by rw [(s.launch_portsOnly h data port).eq])

end

section
variable (s : State)

theorem State.readVa_writes (c va n : Nat) : StepWrites s (s.readVa c va n).2 := stepWrites_closed.readBy s _ c va n

theorem State.writeVa_writes (c va : Nat) (bs : List Byte) : StepWrites s (s.writeVa c va bs).2 := stepWrites_closed.writeBy s _ c va bs

/-! ### Compaction (10 R270) -/

/-- A fold that carries two answers before the state. -/
theorem StepWrites.foldl_third {α β γ : Type} {g : β × γ × State → α → β × γ × State} (h : ∀ a x, StepWrites a.2.2 (g a x).2.2) (l : List α)
    (a : β × γ × State) : StepWrites a.2.2 (l.foldl g a).2.2 :=
  List.foldlRecOn (motive := fun b : β × γ × State => StepWrites a.2.2 b.2.2) l g (.refl _) fun b hb x _ => hb.trans (h b x)

theorem State.movePos_writes (c dir src dst : Nat) : StepWrites s (s.movePos c dir src dst).2 := by
  unfold State.movePos
  have hread (t : State) (va n : Nat) : StepWrites t (t.readVa c va n).2 := t.readVa_writes c va n
  -- The read becomes a variable, which the kernel does not compute.
  obtain ⟨read, heq⟩ : ∃ read, State.readVa = read := ⟨_, rfl⟩
  rw [heq] at hread ⊢
  extract_lets f p d z code ra rb ea eb pa pb js jd k ks sa sb vals s0 cmd s1 w1 w2
  have hreads : StepWrites s sb.2 :=
    (hread _ _ _).trans ((hread _ _ _).trans ((hread _ _ _).trans
      ((hread _ _ _).trans ((hread _ _ _).trans (hread _ _ _)))))
  have hvals : StepWrites s vals.2.2 := hreads.trans (.foldl_third (fun a _ => hread a.2.2 _ _) _ ([], true, sb.2))
  have hclamped : StepWrites s s1 := rel_ite (hvals.trans (.of_tables rfl rfl rfl)) hvals
  have hwritten : StepWrites s w2.2 := hclamped.trans ((State.writeVa_writes _ c _ _).trans (State.writeVa_writes _ c _ _))
  refine rel_iteAns ?_ hvals
  refine hwritten.trans (stepWrites_closed.foldl_snd (fun a v => ?_) _ (w1.1 && w2.1, w2.2))
  exact (hread a.2 _ _).trans (State.writeVa_writes _ c _ _)

theorem State.compactSeq_writes (st : Step) (q : SeqEntry) : StepWrites s (s.compactSeq st q).2 := by
  unfold State.compactSeq
  extract_lets par v x path mine moved
  have hread : StepWrites s v.2 := s.readVa_writes _ _ _
  refine rel_iteAns hread (hread.trans ?_)
  refine stepWrites_closed.foldl_snd (fun a dir => ?_) mine (true, v.2)
  refine stepWrites_closed.foldl_snd (fun a j => ?_) _ a
  exact rel_iteAns (.refl _) (State.movePos_writes a.2 _ _ _ _)

/-- Compaction changes what the record says of the sequences alone. -/
theorem State.compactTrees_writes (st : Step) : StepWrites s (s.compactTrees st).2 ∧ (s.compactTrees st).1.bare = st.bare := by
  refine ⟨stepWrites_closed.foldl_snd (fun a q => ?_) st.seqs ([], s), rfl⟩
  exact rel_iteAns (State.compactSeq_writes a.2 st q) (.refl _)

/-! ### Sealed entries (17 R454 to R457) -/

theorem State.sealDone_writes (c at' : Nat) (e : List Byte) (status : Half) : StepWrites s (s.sealDone c at' e status) :=
  (s.writeVa_writes c _ _).trans (State.writeVa_writes _ c _ _)

theorem State.modSession_writes (slot : Nat) (f : Session → Session) : StepWrites s (s.modSession slot f) := by
  unfold State.modSession
  split <;> exact .of_tables rfl rfl rfl

theorem State.beginErase_writes (slot : Nat) : StepWrites s (s.beginErase slot) := by
  rw [State.beginErase, s.mscClean_frame slot]
  exact .of_tables rfl rfl rfl

theorem State.count_writes (off n : Nat) : StepWrites s (s.count off n) := stepWrites_closed.count s off n

theorem State.openInput_writes (st : Step) (e : List Byte) : StepWrites s (s.openInput st e).2 := by
  unfold State.openInput
  extract_lets c slot ctr n p v ok d s0 s1 s2
  split
  · exact .refl s
  have hdrawn : StepWrites s s0 := rel_ite (.of_tables rfl rfl rfl) (.of_tables rfl rfl rfl)
  have hplain : StepWrites s s1 := hdrawn.trans (.of_tables rfl rfl rfl)
  have hused : StepWrites s s2 := (hplain.trans (State.modSession_writes _ _ _)).trans (State.count_writes _ _ _)
  refine rel_iteAns (.refl s) (rel_iteAns (.refl s) (rel_iteAns (.of_tables rfl rfl rfl) (rel_iteAns ?refused (rel_iteAns ?ok ?bad))))
  case refused => exact hdrawn.trans (State.count_writes _ _ _)
  case ok => exact rel_ite (hused.trans (State.beginErase_writes _ _)) hused
  case bad => exact hplain.trans (.of_tables rfl rfl rfl)

theorem State.sealOutput_writes (st : Step) (at' : Nat) (e : List Byte) : StepWrites s (s.sealOutput st at' e).2 := by
  unfold State.sealOutput
  extract_lets c slot n p d t s1
  split
  · exact .refl s
  extract_lets ctr w s2
  have hread : StepWrites s s1 := ((((stepWrites_closed.noteReads s _ _).trans (stepWrites_closed.portBRead _ _ _ _)).trans
    (stepWrites_closed.drawBytes _ _)).trans (stepWrites_closed.drawBytes _ _)).trans (stepWrites_closed.emit _ _)
  have hwritten : StepWrites s s2 := (hread.trans (State.writeVa_writes s1 _ _ _)).trans
    ((State.modSession_writes _ _ _).trans (State.count_writes _ _ _))
  refine rel_iteAns (.refl s) (rel_iteAns (.refl s) (rel_iteAns (State.count_writes s _ _) ?_))
  split
  · exact stepWrites_closed.noteBad s _ _
  · exact rel_ite (hwritten.trans (State.beginErase_writes _ _)) hwritten

theorem State.failSeqs_writes (k : Nat) (status : Half) (p : SeqEntry → Bool) : StepWrites s (s.failSeqs k status p) := by
  refine .modPanel s k fun pn => ?_
  rw [Option.map_map]
  rfl

theorem State.runSealed_writes (k : Nat) (st : Step) (kind : Nat) : StepWrites s (s.runSealed k st kind) := by
  unfold State.runSealed
  refine rel_ite (.refl s) (stepWrites_closed.foldl s (fun s i => ?_) _)
  extract_lets at' a
  have hread : StepWrites s a.2 := s.readVa_writes _ _ _
  split
  · next e _ =>
    extract_lets r s1
    have hentry : StepWrites s s1 := by
      refine (hread.trans ?_).trans (State.sealDone_writes _ _ _ _ _)
      exact rel_iteAns (State.openInput_writes _ _ _) (State.sealOutput_writes _ _ _ _)
    exact rel_ite hread (rel_ite hentry (hentry.trans (State.failSeqs_writes _ _ _ _)))
  · exact hread

end

end Sys2Proof.Machine
end

section
/-! PROOFS. Writes of HBM: the counters of the panels stay, and the bytes outside a range of whole words (09 R206, R228 to R230). -/

namespace Sys2Proof.Machine

/-! ### Counters -/

/-- The counters of switches, and whatever shares their place in a block of registers. -/
def IsSwitches (off : Nat) : Prop := off % 0x100 = 0x48

section
variable {s t u : State}

theorem SameCounters.same {p : Nat → Prop} (h : SameCounters p s t) (hu : u.counters = t.counters) : SameCounters p s u :=
  h.trans (.of_eq hu)

/-- The cache and its controller count in registers of other places. -/
theorem SameCounters.mscCount (h : SameCounters IsSwitches s t) (c n : Nat) {off : Nat} (hoff : off ∈ [0x100, 0x108, 0x110, 0x118]) :
    SameCounters IsSwitches s (t.count (mscReg c off) n) :=
  h.count (by
    simp only [List.mem_cons, List.not_mem_nil, or_false] at hoff
    unfold IsSwitches mscReg
    omega) n

theorem SameCounters.hbmCount (h : SameCounters IsSwitches s t) (c n : Nat) {off : Nat} (hoff : off ∈ [0x100, 0x108]) :
    SameCounters IsSwitches s (t.count (hbmReg c off) n) :=
  h.count (by
    simp only [List.mem_cons, List.not_mem_nil, or_false] at hoff
    unfold IsSwitches hbmReg
    omega) n

end

section
variable (s : State)

theorem State.mscDrop_switches (line : Nat) (back : Bool) : SameCounters IsSwitches s (s.mscDrop line back) := by
  unfold State.mscDrop
  split
  · exact .refl _ s
  · dsimp only
    split
    · exact ((SameCounters.of_eq rfl).mscCount _ _ (by simp)).hbmCount _ _ (by simp)
    · exact .of_eq rfl

theorem State.mscRoom_switches (line ways : Nat) : SameCounters IsSwitches s (s.mscRoom line ways).2 := by
  unfold State.mscRoom
  dsimp only
  split
  · exact .refl _ s
  · split
    · exact s.mscDrop_switches _ _
    · exact .refl _ s

theorem State.dramTouch_switches (h : Nat) (write full : Bool) : SameCounters IsSwitches s (s.dramTouch h write full) := by
  have hread : SameCounters IsSwitches s (if (!write || !full) = true then s.count (hbmReg h 0x100) 64 else s) := by
    split
    · exact (SameCounters.refl _ s).hbmCount _ _ (by simp)
    · exact .refl _ s
  unfold State.dramTouch
  dsimp only
  cases write
  · exact hread
  · exact hread.hbmCount _ _ (by simp)

theorem State.fillTouch_switches (h : Nat) (write full : Bool) : SameCounters IsSwitches s (s.fillTouch h write full) := by
  unfold State.fillTouch
  split
  · exact .refl _ s
  · exact SameCounters.hbmCount (.refl _ s) _ _ (by simp)

theorem State.mscMiss_switches (off : Nat) (r : HReq) (write full : Bool) : SameCounters IsSwitches s (s.mscMiss off r write full) := by
  have hcount := (SameCounters.refl IsSwitches s).mscCount (stackOf off) 1 (off := 0x108) (by simp)
  unfold State.mscMiss
  dsimp only
  split
  · exact hcount.trans (State.dramTouch_switches _ _ _ _)
  · exact ((hcount.trans (State.mscRoom_switches _ _ _)).trans (State.fillTouch_switches _ _ _ _)).same rfl

theorem State.mscAccess_switches (off : Nat) (r : HReq) (write full : Bool) :
    SameCounters IsSwitches s (s.mscAccess off r write full) := by
  have hhit := (SameCounters.refl IsSwitches s).mscCount (stackOf off) 1 (off := 0x100) (by simp)
  have hmiss := (SameCounters.refl IsSwitches s).mscCount (stackOf off) 1 (off := 0x108) (by simp)
  have hother := (SameCounters.refl IsSwitches s).mscCount (stackOf off) 1 (off := 0x118) (by simp)
  unfold State.mscAccess
  dsimp only
  split
  · split_ifs
    · exact hhit.same rfl
    · exact hmiss.trans (State.dramTouch_switches _ _ _ _)
    · exact (hmiss.trans (State.fillTouch_switches _ _ _ _)).same rfl
    · exact (hother.trans (State.mscDrop_switches _ _ _)).trans (State.mscMiss_switches _ _ _ _ _)
  · exact s.mscMiss_switches _ _ _ _

theorem State.remapFrame_switches (f : Nat) : SameCounters IsSwitches s (s.remapFrame f) :=
  (((SameCounters.of_eq rfl).hbmCount _ _ (by simp)).hbmCount _ _ (by simp)).same rfl

theorem State.zeroFrame_switches (f material : Nat) : SameCounters IsSwitches s (s.zeroFrame f material) :=
  ((SameCounters.of_eq rfl).hbmCount _ _ (by simp)).same rfl

theorem State.poisonOnly_switches (f : Nat) (demand : Bool) : SameCounters IsSwitches s (s.poisonOnly f demand) :=
  ((SameCounters.of_eq rfl).hbmCount _ _ (by simp)).same rfl

theorem State.repairFrame_switches (f : Nat) : SameCounters IsSwitches s (s.repairFrame f) := by
  have hrepaired (t : State) : SameCounters IsSwitches t
      (((((t.remapFrame f).unpoison f).markRepaired f).count (relReg 0x130) 1).event 0x8003) :=
    (SameCounters.count ((t.remapFrame_switches f).same (u := ((t.remapFrame f).unpoison f).markRepaired f) rfl)
      (by unfold IsSwitches relReg; omega) 1).same rfl
  unfold State.repairFrame
  split
  · exact .refl _ s
  · extract_lets ok data s1 hbm s2
    split
    · exact .of_eq rfl
    · have hdrawn : SameCounters IsSwitches s data.2 := .of_eq rfl
      have hzero : SameCounters IsSwitches s s1 := hdrawn.trans (State.zeroFrame_switches _ _ _)
      exact (hzero.same (u := s2) rfl).trans (hrepaired s2)

theorem State.hbmWriteWord_switches (w pos : Nat) (bs : List Byte) (r : HReq) :
    SameCounters IsSwitches s (s.hbmWriteWord w pos bs r) := by
  unfold State.hbmWriteWord
  extract_lets full s1 old
  split_ifs
  · exact .refl _ s
  · exact (s.poisonOnly_switches _ _).trans (State.repairFrame_switches _ _)
  · exact (s.mscAccess_switches _ _ _ _).same rfl

/-- A write of HBM leaves the switches that are counted. -/
theorem State.hbmWrite_switches (off : Nat) (bs : List Byte) (r : HReq) : SameCounters IsSwitches s (s.hbmWrite off bs r) :=
  List.foldlRecOn (motive := SameCounters IsSwitches s) (wordsOf off bs.length) _ (.refl _ s)
    fun _ ht _ _ => ht.trans (State.hbmWriteWord_switches _ _ _ _ _)

/-! ### Bytes outside a range of whole words -/

/-- A write of a whole word leaves the bytes of every other word, whether the word is poisoned or not. -/
theorem State.read_hbmWriteWord_other {w : Nat} {bs : List Byte} (r : HReq) (hlen : bs.length = 64) {a : Nat} (ha : a / 64 ≠ w) :
    (s.hbmWriteWord w 0 bs r).hbm.mem.read a = s.hbm.mem.read a := by
  cases hp : s.isPoisoned (w / 1024) with
  | true => rw [State.hbmWriteWord, if_pos hp]
  | false => exact State.read_hbmWriteWord_of_ne hlen hp ha

/-- The words of a range of whole words, and the bytes that each takes. -/
theorem mem_wordsOf_whole {off n w : Nat} (hoff : off % 64 = 0) (hn : n % 64 = 0) (hw : w ∈ wordsOf off n) :
    off ≤ w * 64 ∧ w * 64 + 64 ≤ off + n := by
  unfold wordsOf at hw
  split at hw
  · simp at hw
  · obtain ⟨i, hi, rfl⟩ := List.mem_map.mp hw
    rw [List.mem_range] at hi
    omega

/-- A write of whole words leaves every byte outside. -/
theorem State.read_hbmWrite_out {off : Nat} {bs : List Byte} (r : HReq) (hoff : off % 64 = 0) (hlen : bs.length % 64 = 0) {a : Nat}
    (ha : a < off ∨ off + bs.length ≤ a) : (s.hbmWrite off bs r).hbm.mem.read a = s.hbm.mem.read a := by
  refine List.foldlRecOn (motive := fun t : State => t.hbm.mem.read a = s.hbm.mem.read a) (wordsOf off bs.length) _ rfl
    fun t ht w hw => ?_
  obtain ⟨hlo, hhi⟩ := mem_wordsOf_whole hoff hlen hw
  have hword : (slicedAt bs (w * 64 - off) (w * 64 + 64 - w * 64)).length = 64 := by
    simp only [slicedAt, List.length_take, List.length_drop]
    omega
  dsimp only
  rw [max_eq_right hlo, min_eq_right hhi, Nat.sub_self, State.read_hbmWriteWord_other t r hword (by omega)]
  exact ht

end

end Sys2Proof.Machine
end

section
/-! PROOFS. Steps that end or leave their panel (12 R311 to R313; 13 R333, R334, R347, R348; 16 R416). -/

namespace Sys2Proof.Machine

section
variable (s : State) (k : Nat)

theorem exec_stepComplete : exec (.stepComplete k) s = execStepComplete k s := rfl
theorem exec_deadlineCheckpoint : exec (.deadlineCheckpoint k) s = execDeadlineCheckpoint k s := rfl
theorem exec_deadlineGrantWithdraw (c : Nat) : exec (.deadlineGrantWithdraw c) s = execDeadlineGrantWithdraw c s := rfl
theorem exec_preemptSwitch : exec (.preemptSwitch k) s = execPreemptSwitch k s := rfl

end

/-! ### A panel that is free again -/

/-- From s to t the command processor's tables, the PCIe functions, the dispatch unit and HBM stay. -/
structure KeepsTables (s t : State) : Prop where
  cmd : t.cmd = s.cmd
  hif : t.hif = s.hif
  edu : t.edu = s.edu
  hbm : t.hbm = s.hbm

section
variable {s t u : State}

theorem KeepsTables.refl (s : State) : KeepsTables s s := ⟨rfl, rfl, rfl, rfl⟩

theorem KeepsTables.trans (h : KeepsTables s t) (k : KeepsTables t u) : KeepsTables s u :=
  ⟨k.cmd.trans h.cmd, k.hif.trans h.hif, k.edu.trans h.edu, k.hbm.trans h.hbm⟩

theorem KeepsTables.foldl {α : Type} {g : State → α → State} (h : ∀ s a, KeepsTables s (g s a)) (l : List α) (s : State) :
    KeepsTables s (l.foldl g s) :=
  List.foldlRecOn (motive := KeepsTables s) l g (.refl s) fun t ht a _ => ht.trans (h t a)

theorem KeepsTables.panel (h : KeepsTables s t) (k : Nat) : t.panel k = s.panel k := by rw [State.panel, h.cmd, State.panel]

end

section
variable (s : State)

theorem State.modCore_keepsTables (p : Nat) (f : Core → Core) : KeepsTables s (s.modCore p f) := ⟨rfl, rfl, rfl, rfl⟩

theorem State.modCores_keepsTables (f : Core → Core) (ps : List Nat) :
    KeepsTables s (ps.foldl (fun (s : State) p => s.modCore p f) s) :=
  .foldl (fun t p => t.modCore_keepsTables p f) ps s

theorem State.denyState_keepsTables : KeepsTables s s.denyState := by
  unfold State.denyState State.eventPerMs
  dsimp only
  split
  · split <;> exact ⟨rfl, rfl, rfl, rfl⟩
  · exact ⟨rfl, rfl, rfl, rfl⟩

theorem State.pickState_keepsTables (k : Nat) (cs : List Nat) : KeepsTables s (s.pickState k cs).2 := by
  induction cs generalizing s with
  | nil => exact .refl s
  | cons c cs ih =>
    rw [State.pickState]
    split_ifs
    · exact ih s
    · exact s.denyState_keepsTables.trans (ih s.denyState)
    · exact .refl s

theorem State.chooseState_keepsTables (k : Nat) : KeepsTables s (s.chooseState k) := by
  unfold State.chooseState State.askState
  dsimp only
  split
  · exact .refl s
  · exact (s.pickState_keepsTables k _).trans (State.modCores_keepsTables _ (fun x => { x with cTarget := if x.cState = _ then none else some _ }) _)

theorem State.modSelector_keepsTables (h : Nat) (f : Selector → Selector) : KeepsTables s (s.modSelector h f) := ⟨rfl, rfl, rfl, rfl⟩

theorem State.unregisterKvs_keepsTables (c : Nat) : KeepsTables s (s.unregisterKvs c) := by
  unfold State.unregisterKvs
  exact .foldl (fun t h => t.modSelector_keepsTables h _) _ s

theorem State.unregisterPost_keepsTables (c : Nat) : KeepsTables s (s.unregisterPost c) := ⟨rfl, rfl, rfl, rfl⟩

theorem State.release_keepsTables (c : Nat) : KeepsTables s (s.release c) := by
  have hkvs (p : Bool) : KeepsTables s (if p then s else s.unregisterKvs c) := by
    cases p
    · exact s.unregisterKvs_keepsTables c
    · exact .refl s
  have hboth (p q : Bool) : KeepsTables s (if q then (if p then s else s.unregisterKvs c) else (if p then s else s.unregisterKvs c).unregisterPost c) := by
    cases q
    · exact (hkvs p).trans (State.unregisterPost_keepsTables _ c)
    · exact hkvs p
  exact hboth _ _

/-- A panel that nothing runs on. -/
def Panel.freed (pn : Panel) : Panel := { pn with state := .idle, running := none, windowOpen := false, haltSince := none }

theorem State.freePanel_keepsTables (k : Nat) : KeepsTables (s.modPanel k Panel.freed) (s.freePanel k) :=
  State.modCores_keepsTables _ (fun c => { c with slice := { c.slice with testSuspended := false } }) _

/-- A panel that a step left has nothing to run, and the jobs of the step's context are gone. -/
theorem State.leavePanel_spec (k : Nat) (st : Step) : (s.leavePanel k st).cmd = (s.modPanel k Panel.freed).cmd ∧
    (s.leavePanel k st).hif = s.hif ∧ ∀ j ∈ (s.leavePanel k st).edu.jobs, j.ctx ≠ st.ctx := by
  have hfree := s.freePanel_keepsTables k
  have hrest := (State.release_keepsTables (((s.freePanel k).eduCancel st.ctx).count (panelReg k 0x40) 1) st.ctx).trans
    (State.chooseState_keepsTables _ k)
  unfold State.leavePanel
  dsimp only
  rw [hrest.cmd, hrest.hif, hrest.edu]
  refine ⟨hfree.cmd, hfree.hif, fun j hj => ?_⟩
  simpa using (List.mem_filter.mp hj).2

theorem State.panel_freed (k : Nat) : (s.modPanel k Panel.freed).panel k = (s.panel k).freed :=
  (State.panel_modPanel _ _ _ _).trans (if_pos rfl)

/-! ### The record of a step -/

/-- A record leaves the panels, the dispatch unit and HBM as they are. -/
theorem QueueOnly.others {w : Nat} {s t : State} (h : QueueOnly w s t) : t.cmd.panels = s.cmd.panels ∧ t.edu = s.edu ∧ t.hbm = s.hbm :=
  ⟨by rw [h.frame], by rw [h.frame], by rw [h.frame]⟩

/-- The step ring's packet has ended. -/
def Window.stepEnded (w : Window) : Window := { w with stepPkt := none }

/-- The record of a step whose window has space is written at the tail, and the step ring's packet has ended. -/
theorem State.putItem_stepRecord {w : Nat} (hcan : (s.window w).canStart = true) (hawake : s.asleep w = false) (r : Record) (irq : Bool)
    (slots : Nat) :
    let t := (s.modWindow w Window.stepEnded).putItem w (.record r irq slots)
    Out.hostBytes (s.window w).cqAddr ({ r with duration := s.since r.start }.bytes (s.window w).phase) ∈ t.out ∧
      (t.window w).stepPkt = none ∧ QueueOnly w (s.modWindow w Window.stepEnded) t := by
  intro t
  have hended : (s.modWindow w Window.stepEnded).window w = (s.window w).stepEnded := (State.window_modWindow _ _ _ _).trans (if_pos rfl)
  have ht : t = (s.modWindow w Window.stepEnded).writeItem w (.record r irq slots) := by
    refine if_pos ?_
    rw [hended, Bool.and_eq_true]
    exact ⟨hcan, by simpa [State.asleep] using hawake⟩
  obtain ⟨⟨raised, hwin⟩, rest, hout, -⟩ := State.writeItem_record (s.modWindow w Window.stepEnded) w r irq slots
  rw [State.recordOut, hended] at hout
  rw [hended] at hwin
  refine ⟨?_, ?_, State.putItem_only _ _ _⟩
  · rw [ht, hout]
    exact List.mem_append_right _ List.mem_cons_self
  · rw [ht, hwin]
    rfl

/-- What a step keeps through its compaction and its sealed outputs. -/
theorem Step.bare_fields {a b : Step} (h : a.bare = b.bare) : a.tag = b.tag ∧ a.ctx = b.ctx ∧ a.start = b.start ∧ a.window = b.window := by
  have field {α : Type} (f : Step → α) : f a.bare = f b.bare := congrArg f h
  exact ⟨field Step.tag, field Step.ctx, field Step.start, field Step.window⟩

/-- The running step of a panel after writes on its behalf. -/
theorem StepWrites.running_some {s t : State} {k : Nat} {st : Step} (h : StepWrites (s.modPanel k fun pn => { pn with running := some st }) t) :
    ((t.panel k).running.getD st).bare = st.bare := by
  have hrunning := h.running k
  rw [State.panel_modPanel, if_pos rfl] at hrunning
  cases hr : (t.panel k).running with
  | none => rfl
  | some x =>
    rw [hr] at hrunning
    exact Option.some.inj hrunning

/-- The record of a step that left its panel (R312). -/
theorem State.writeRecord_spec {w : Nat} {st : Step} (hwindow : st.window = w) (hcan : (s.window w).canStart = true) (hawake : s.asleep w = false)
    (status : Half) (energy : W32) :
    let t := s.writeRecord st status true energy
    ∃ r : Record, Out.hostBytes (s.window w).cqAddr (r.bytes (s.window w).phase) ∈ t.out ∧ r.tag = st.tag ∧ r.ctx = st.ctx ∧
      r.start = st.start ∧ r.service = false ∧ (t.window w).stepPkt = none ∧ t.edu = s.edu ∧ t.cmd.panels = s.cmd.panels := by
  subst hwindow
  have hput := State.putItem_stepRecord
    (s.emit (.hostBytes (BitVec.ofNat 64 (fieldAt st.params 40 8)) (st.seqs.flatMap outcomeEntry))) (w := st.window) hcan hawake
  obtain ⟨hout, hpkt, honly⟩ := hput
    { tag := st.tag, status := status, ctx := st.ctx, start := st.start, duration := s.since st.start, energy := energy,
      grantWait := BitVec.ofNat 16 (min 0xFFFF st.grantUs), refused := BitVec.ofNat 16 (min 0xFFFF st.refused), flags := st.flags true }
    st.irq (((s.window st.window).stepPkt.map Packet.slots).getD 0)
  obtain ⟨hpanels, hedu, -⟩ := honly.others
  exact ⟨_, hout, rfl, rfl, rfl, rfl, hpkt, hedu, hpanels⟩

/-- A main step that ended: its record is out, its panel is free, and its jobs are gone. -/
theorem State.endStep_main {st : Step} (hmain : st.isComp = false) (hcan : (s.window st.window).canStart = true)
    (hawake : s.asleep st.window = false) (k : Nat) :
    let t := s.endStep k st []
    ∃ r : Record, (t.panel k).running = none ∧ (t.panel k).state = .idle ∧
      Out.hostBytes (s.window st.window).cqAddr (r.bytes (s.window st.window).phase) ∈ t.out ∧ r.tag = st.tag ∧ r.ctx = st.ctx ∧
      r.start = st.start ∧ r.service = false ∧ (t.window st.window).stepPkt = none ∧ ∀ j ∈ t.edu.jobs, j.ctx ≠ st.ctx := by
  intro t
  have hmarked : (if st.rerun ∨ st.isComp ∨ st.f.rcPolicy ≠ 0 then st.markSuspect [] else st) = st := ite_self _
  have ht : t = s.endStep k st [] := rfl
  unfold State.endStep at ht
  rw [hmarked] at ht
  extract_lets e st1 c s1 st2 at ht
  rw [if_neg (by simp [hmain])] at ht
  obtain ⟨hcompacted, hcbare⟩ := e.2.compactTrees_writes st1
  have hsealed : StepWrites (c.2.modPanel k fun pn => { pn with running := some c.1 }) s1 := State.runSealed_writes _ _ _ _
  have hwindows : s1.cmd.windows = s.cmd.windows := hsealed.windows.trans hcompacted.windows
  have hhif : s1.hif = s.hif := hsealed.hif.trans hcompacted.hif
  obtain ⟨htag, hctx, hstart, hwindow⟩ := Step.bare_fields (hsealed.running_some.trans hcbare : st2.bare = st1.bare)
  obtain ⟨hcmd, hhif', hjobs⟩ := (s1.modCtx st.ctx fun x => x.takeAccount st2 e.1).leavePanel_spec k st2
  generalize (s1.modCtx st.ctx fun x => x.takeAccount st2 e.1).leavePanel k st2 = left at ht hcmd hhif' hjobs
  have hwin (w : Nat) : left.window w = s.window w := by
    rw [State.window, hcmd]
    exact congrArg (fun ws => Tab.get {} ws w) hwindows
  have hasleep : left.asleep st.window = false := by
    rw [State.asleep, (hhif'.trans hhif : left.hif = s.hif)]
    exact hawake
  have hpanel : left.panel k = (s1.panel k).freed := by
    rw [State.panel, hcmd]
    exact State.panel_freed _ _
  obtain ⟨r, hout, hrtag, hrctx, hrstart, hservice, hpkt, hedu, hpanels⟩ :=
    left.writeRecord_spec hwindow (by rw [hwin]; exact hcan) hasleep st2.status (e.1 + st2.coEnergy)
  rw [← ht] at hout hpkt hedu hpanels
  rw [hwin] at hout
  have htpanel : t.panel k = (s1.panel k).freed := by rw [State.panel, hpanels, ← State.panel, hpanel]
  refine ⟨r, by rw [htpanel]; rfl, by rw [htpanel]; rfl, hout, hrtag.trans htag, hrctx.trans hctx, hrstart.trans hstart, hservice, hpkt,
    fun j hj => ?_⟩
  rw [hedu] at hj
  exact fun hj' => hjobs j hj (hj'.trans hctx.symm)

/-- A companion that ended: its panel is free, and the step ring of its window goes on as it did. -/
theorem State.endStep_companion {st : Step} (hcomp : st.isComp = true) (k : Nat) (bad : List Nat) :
    let t := s.endStep k st bad
    (t.panel k).running = none ∧ (t.panel k).state = .idle ∧ (t.window st.window).stepPkt = (s.window st.window).stepPkt := by
  intro t
  have ht : t = s.endStep k st bad := rfl
  unfold State.endStep at ht
  extract_lets e st1 at ht
  rw [if_pos hcomp] at ht
  obtain ⟨hcmd, -, -⟩ := ((e.2.endCompanion st1 e.1).modCtx st.ctx fun x => x.takeAccount st1 e.1).leavePanel_spec k st1
  rw [← ht] at hcmd
  refine ⟨?_, ?_, ?_⟩
  · rw [State.panel, hcmd]
    exact congrArg Panel.running (State.panel_freed _ k)
  · rw [State.panel, hcmd]
    exact congrArg Panel.state (State.panel_freed _ k)
  · rw [State.window, hcmd]
    rfl

/-! ### STEP_COMPLETE -/

/-- A step of which everything has ended is run once more, or ends. -/
theorem stepComplete_eq {k : Nat} {st : Step} (hon : s.cmdIsland (some k) = true) (hmem : s.memFree = true)
    (hrunning : (s.panel k).running = some st) (hhanded : st.handed ≠ 0) (hhalted : s.allHalted st = true) (hreqs : s.reqsOpen st.ctx = false)
    (hedu : s.eduOpen st.ctx = false) (htransfers : s.transfersOpen st.ctx = false) (hcompanion : st.companion = none)
    (hawake : s.asleep st.window = false) (hrecovering : (s.ctx st.ctx).recovering = false) (hopen : (s.ctx st.ctx).claimOpen = false)
    (hclaimed : (s.ctx st.ctx).claimed = false) :
    exec (.stepComplete k) s = .next (if !(s.violators st).isEmpty && st.mayRerun then s.rerunStep k st (s.violators st)
      else s.endStep k st (s.violators st)) := by
  rw [exec_stepComplete, execStepComplete, hrunning]
  dsimp only
  rw [if_neg (by simp [State.cmdMem, hon, hmem, hhanded, hhalted, hreqs, hedu, htransfers, hcompanion, hawake, hrecovering, hopen, hclaimed])]
  split <;> rfl

/-! ### DEADLINE_CHECKPOINT (R347, R348) -/

theorem State.panel_modRunning {k : Nat} {r : Step} (hrunning : (s.panel k).running = some r) (f : Step → Step) :
    ((s.modRunning k f).panel k).running = some (f r) := by
  rw [State.modRunning, State.panel_modPanel, if_pos rfl]
  exact congrArg (Option.map f) hrunning

/-- A step whose sequence of a slot is moved. -/
def Step.markMoved (slot : Nat) (st : Step) : Step :=
  { st with seqs := st.seqs.map fun y => if y.slot = slot then { y with moved := true } else y }

/-- A context whose moved set a slot joins. -/
def Ctx.join (slot : Nat) (x : Ctx) : Ctx := { x with moved := x.moved ++ [slot] }

/-- One eligible sequence of a panel's step joins the moved set of a context. -/
def State.moveSeq (s : State) (k c : Nat) (q : SeqEntry) : State :=
  if (s.ctx c).moved.contains q.slot then s.modRunning k (Step.markMoved q.slot)
  else if 4096 ≤ (s.ctx c).moved.length then s.event 0x6013
  else ((s.modCtx c (Ctx.join q.slot)).count (panelReg k 0x70) 1).modRunning k (Step.markMoved q.slot)

theorem State.moveSeqs_eq (k : Nat) (st : Step) :
    s.moveSeqs k st = (st.seqs.filter fun q => q.eligible && !q.fallback).foldl (fun s q => s.moveSeq k st.ctx q) s := rfl

/-- Moving sequences of a step: those listed join the moved set, in which those that were there stay. -/
structure SeqsMoved (k c : Nat) (moving : List SeqEntry) (r : Step) (s t : State) : Prop where
  runs : ∃ r', (t.panel k).running = some r' ∧ r'.overrun = r.overrun ∧ r'.checkpoints = r.checkpoints
  joins : ∀ q ∈ moving, q.slot ∈ (t.ctx c).moved
  stays : ∀ i ∈ (s.ctx c).moved, i ∈ (t.ctx c).moved
  grows : (t.ctx c).moved.length ≤ (s.ctx c).moved.length + moving.length

variable {s} in
/-- One sequence joins a set with room. -/
theorem State.moveSeq_joins {k c : Nat} {r : Step} (hrunning : (s.panel k).running = some r) (hroom : (s.ctx c).moved.length < 4096)
    (q : SeqEntry) : SeqsMoved k c [q] r s (s.moveSeq k c q) := by
  unfold State.moveSeq
  split_ifs with hin
  · refine ⟨⟨_, State.panel_modRunning s hrunning _, rfl, rfl⟩, fun x hx => ?_, fun i hi => hi, Nat.le_add_right _ _⟩
    obtain rfl := List.mem_singleton.mp hx
    have hmem : x.slot ∈ (s.ctx c).moved := by simpa using hin
    exact hmem
  · omega
  · have hmoved : ((((s.modCtx c (Ctx.join q.slot)).count (panelReg k 0x70) 1).modRunning k
        (Step.markMoved q.slot)).ctx c).moved = (s.ctx c).moved ++ [q.slot] :=
      congrArg Ctx.moved ((State.ctx_modCtx s c c (Ctx.join q.slot)).trans (if_pos rfl))
    refine ⟨⟨_, State.panel_modRunning _ hrunning _, rfl, rfl⟩, fun x hx => ?_, fun i hi => ?_, ?_⟩
    · rw [hmoved, List.mem_singleton.mp hx]
      exact List.mem_append_right _ (List.mem_singleton_self _)
    · rw [hmoved]
      exact List.mem_append_left _ hi
    · rw [hmoved, List.length_append]
      rfl

variable {s} in
/-- Several sequences join a set with room for them all. -/
theorem State.foldl_moveSeq {k c : Nat} {r : Step} (moving : List SeqEntry) (hrunning : (s.panel k).running = some r)
    (hroom : (s.ctx c).moved.length + moving.length ≤ 4096) :
    SeqsMoved k c moving r s (moving.foldl (fun s q => s.moveSeq k c q) s) := by
  induction moving generalizing s r with
  | nil => exact ⟨⟨r, hrunning, rfl, rfl⟩, fun _ h => absurd h List.not_mem_nil, fun _ h => h, Nat.le_refl _⟩
  | cons q rest ih =>
    rw [List.length_cons] at hroom
    have hfirst := State.moveSeq_joins hrunning (c := c) (by omega) q
    obtain ⟨r', hrunning', hoverrun, hcheckpoints⟩ := hfirst.runs
    have hgrows : ((s.moveSeq k c q).ctx c).moved.length ≤ (s.ctx c).moved.length + 1 := hfirst.grows
    have hrest := ih hrunning' (by omega)
    obtain ⟨r'', hrunning'', hoverrun', hcheckpoints'⟩ := hrest.runs
    refine ⟨⟨r'', hrunning'', hoverrun'.trans hoverrun, hcheckpoints'.trans hcheckpoints⟩, fun x hx => ?_,
      fun i hi => hrest.stays i (hfirst.stays i hi), ?_⟩
    · rcases List.mem_cons.mp hx with rfl | hx
      · exact hrest.stays _ (hfirst.joins _ (List.mem_singleton_self _))
      · exact hrest.joins x hx
    · have hlast := hrest.grows
      rw [List.length_cons]
      exact hlast.trans (by omega)

/-- A checkpoint that is due is counted. -/
def Step.atCheckpoint (st : Step) : Step := { st with checkpoints := st.checkpoints + 1 }

/-- A step for which an overrun was predicted. -/
def Step.overruns (st : Step) : Step := { st with overrun := true }

theorem deadlineCheckpoint_eq {k : Nat} {st : Step} (hon : s.cmdIsland (some k) = true) (hrunning : (s.panel k).running = some st)
    (hhanded : st.handed ≠ 0) (hmain : st.isComp = false) (hdue : s.checkpointDue st = true) :
    exec (.deadlineCheckpoint k) s = .next (if st.overrun || !s.predictsOverrun st then s.modRunning k Step.atCheckpoint
      else ((s.modRunning k Step.atCheckpoint).modRunning k Step.overruns).moveSeqs k st) := by
  rw [exec_deadlineCheckpoint, execDeadlineCheckpoint, hrunning]
  dsimp only
  rw [if_neg (by simp [hon, hhanded, hmain, hdue])]
  split <;> rfl

/-- A checkpoint without a new prediction is counted, and that is all. -/
theorem deadlineCheckpoint_counts {k : Nat} {st : Step} (hon : s.cmdIsland (some k) = true) (hrunning : (s.panel k).running = some st)
    (hhanded : st.handed ≠ 0) (hmain : st.isComp = false) (hdue : s.checkpointDue st = true)
    (hquiet : st.overrun = true ∨ s.predictsOverrun st = false) :
    ∃ t, exec (.deadlineCheckpoint k) s = .next t ∧ (t.panel k).running = some { st with checkpoints := st.checkpoints + 1 } ∧
      t = { s with cmd := t.cmd } := by
  rw [deadlineCheckpoint_eq s hon hrunning hhanded hmain hdue, if_pos (by rcases hquiet with h | h <;> simp [h])]
  exact ⟨_, rfl, State.panel_modRunning s hrunning _, rfl⟩

/-- The first predicted overrun moves the eligible sequences. -/
theorem deadlineCheckpoint_moves {k : Nat} {st : Step} (hon : s.cmdIsland (some k) = true) (hrunning : (s.panel k).running = some st)
    (hhanded : st.handed ≠ 0) (hmain : st.isComp = false) (hdue : s.checkpointDue st = true) (hfirst : st.overrun = false)
    (hpredicts : s.predictsOverrun st = true) (hroom : (s.ctx st.ctx).moved.length + st.seqs.length ≤ 4096) :
    ∃ t r, exec (.deadlineCheckpoint k) s = .next t ∧ (t.panel k).running = some r ∧ r.overrun = true ∧
      r.checkpoints = st.checkpoints + 1 ∧ (∀ q ∈ st.seqs, q.eligible = true → q.fallback = false → q.slot ∈ (t.ctx st.ctx).moved) ∧
      ∀ i ∈ (s.ctx st.ctx).moved, i ∈ (t.ctx st.ctx).moved := by
  have hfilter := List.length_filter_le (fun q : SeqEntry => q.eligible && !q.fallback) st.seqs
  have hmarked := State.panel_modRunning _ (State.panel_modRunning s hrunning Step.atCheckpoint) Step.overruns
  have hroom' : (((s.modRunning k Step.atCheckpoint).modRunning k Step.overruns).ctx st.ctx).moved.length +
      (st.seqs.filter fun q => q.eligible && !q.fallback).length ≤ 4096 := le_trans (Nat.add_le_add_left hfilter _) hroom
  have hmoved := State.foldl_moveSeq _ hmarked hroom'
  obtain ⟨r, hruns, hover, hcount⟩ := hmoved.runs
  rw [deadlineCheckpoint_eq s hon hrunning hhanded hmain hdue, if_neg (by simp [hfirst, hpredicts]), State.moveSeqs_eq]
  exact ⟨_, r, rfl, hruns, hover, hcount, fun q hq helig hfb => hmoved.joins q (List.mem_filter.mpr ⟨hq, by simp [helig, hfb]⟩), hmoved.stays⟩

/-! ### DEADLINE_GRANT_WITHDRAW (R311) -/

/-- A panel whose queue a step left. -/
def Panel.dequeue (st : Step) (pn : Panel) : Panel :=
  { pn with queue := pn.queue.filter fun y => decide (y.window ≠ st.window) || (y.isComp != st.isComp) }

theorem Panel.not_mem_dequeue (pn : Panel) (st : Step) : st ∉ (pn.dequeue st).queue := by simp [Panel.dequeue]

/-- A step that ends before it started: its record is out, with its status. -/
theorem State.endUnstarted_spec {st : Step} (hcan : (s.window st.window).canStart = true) (hawake : s.asleep st.window = false)
    (status : Half) (us : Nat) :
    let t := s.endUnstarted st status us
    ∃ r : Record, Out.hostBytes (s.window st.window).cqAddr (r.bytes (s.window st.window).phase) ∈ t.out ∧ r.tag = st.tag ∧
      r.status = status ∧ (t.window st.window).stepPkt = none ∧ t.cmd.panels = s.cmd.panels ∧ t.hbm = s.hbm := by
  have hrelease := s.release_keepsTables st.ctx
  have hwindow : (s.release st.ctx).window st.window = s.window st.window := by rw [State.window, hrelease.cmd, State.window]
  have hput := (s.release st.ctx).putItem_stepRecord (w := st.window) (hwindow ▸ hcan)
    (by rw [State.asleep, hrelease.hif]; exact hawake)
  obtain ⟨hout, hpkt, honly⟩ := hput
    { tag := st.tag, status := status, ctx := st.ctx, start := st.start, duration := s.since st.start, grantWait := BitVec.ofNat 16 (min 0xFFFF us) }
    st.irq (((s.window st.window).stepPkt.map Packet.slots).getD 0)
  rw [hwindow] at hout
  obtain ⟨hpanels, -, hhbm⟩ := honly.others
  exact ⟨_, hout, rfl, rfl, hpkt, hpanels.trans (congrArg Cmd.panels hrelease.cmd :), hhbm.trans hrelease.hbm⟩

/-- A step whose grant has not come by its deadline ends with ST_NO_GRANT. -/
theorem deadlineGrantWithdraw_ends {c k : Nat} {st : Step} (hon : s.cmdIsland (some k) = true) (hwaits : s.waitingStep c = some (k, st))
    (hmain : st.isComp = false) (hdeadline : deadlineNs st.params ≠ 0) (hlate : deadlineNs st.params ≤ s.time)
    (hcan : (s.window st.window).canStart = true) (hawake : s.asleep st.window = false) :
    ∃ t, ∃ r : Record, exec (.deadlineGrantWithdraw c) s = .next t ∧
      Out.hostBytes (s.window st.window).cqAddr (r.bytes (s.window st.window).phase) ∈ t.out ∧ r.tag = st.tag ∧ r.status = 0xA ∧
      (t.window st.window).stepPkt = none ∧ st ∉ (t.panel k).queue ∧ t.hbm = s.hbm := by
  have hx : exec (.deadlineGrantWithdraw c) s =
      .next (((s.modPanel k (Panel.dequeue st)).dropNeed st.needKey).endUnstarted st 0xA ((s.time - st.waitSince) / 1000)) := by
    rw [exec_deadlineGrantWithdraw, execDeadlineGrantWithdraw, hwaits]
    dsimp only
    exact if_neg (by simp [hon, hmain, hdeadline, hlate])
  have hneed := (s.modPanel k (Panel.dequeue st)).dropNeed_moves st.needKey
  unfold GrantsMove at hneed
  generalize (s.modPanel k (Panel.dequeue st)).dropNeed st.needKey = u at hx hneed
  have hwindow : u.window st.window = s.window st.window := by rw [hneed]; rfl
  have hasleep : u.asleep st.window = false := by rw [hneed]; exact hawake
  obtain ⟨r, hout, htag, hstatus, hpkt, hpanels, hhbm⟩ :=
    u.endUnstarted_spec (by rw [hwindow]; exact hcan) hasleep 0xA ((s.time - st.waitSince) / 1000)
  rw [hwindow] at hout
  have hqueue : ((u.endUnstarted st 0xA ((s.time - st.waitSince) / 1000)).panel k) = (s.panel k).dequeue st := by
    rw [State.panel, hpanels, hneed]
    exact (State.panel_modPanel s k k _).trans (if_pos rfl)
  refine ⟨_, r, hx, hout, htag, hstatus, hpkt, ?_, hhbm.trans (by rw [hneed]; rfl)⟩
  rw [hqueue]
  exact Panel.not_mem_dequeue _ st

/-! ### PREEMPT_SWITCH (R333, R334) -/

/-- A change of listed cores lists no other. -/
theorem State.listed_foldl_modCore (f : Core → Core) {ps : List Nat} (hlisted : ∀ p ∈ ps, p ∈ Tab.keys s.cores) (q : Nat) :
    q ∈ Tab.keys (ps.foldl (fun (s : State) p => s.modCore p f) s).cores ↔ q ∈ Tab.keys s.cores := by
  refine List.foldlRecOn (motive := fun t : State => q ∈ Tab.keys t.cores ↔ q ∈ Tab.keys s.cores) ps _ .rfl fun t ht p hp => ?_
  have hkeys : q ∈ Tab.keys (t.modCore p f).cores ↔ q = p ∨ q ∈ Tab.keys t.cores := Tab.mem_keys_set _ _ _ _
  rw [hkeys, ht]
  exact ⟨fun h => h.elim (fun he => he ▸ hlisted p hp) id, Or.inr⟩

/-- The cores of a panel after a switch has left them. -/
def State.vacated (s : State) (k : Nat) : State := (s.panelCores k).foldl (fun (s : State) p => s.modCore p Core.vacate) s

theorem State.core_vacated (k p : Nat) : (s.vacated k).core p = if p ∈ s.panelCores k then (s.core p).vacate else s.core p :=
  (State.foldl_modCore s (f := Core.vacate) (fun _ => rfl) (s.panelCores k)).1 p

theorem State.vacated_frame (k : Nat) : s.vacated k = { s with cores := (s.vacated k).cores } :=
  (State.foldl_modCore s (f := Core.vacate) (fun _ => rfl) (s.panelCores k)).2

theorem State.mem_panelCores_vacated (k p : Nat) : p ∈ (s.vacated k).panelCores k ↔ p ∈ s.panelCores k := by
  have hlisted := State.listed_foldl_modCore s Core.vacate (ps := s.panelCores k) (fun _ hp => (List.mem_filter.mp hp).1) p
  have hpanel : ((s.vacated k).core p).panel = (s.core p).panel := by
    rw [State.core_vacated]
    split_ifs <;> rfl
  rw [State.panelCores, State.panelCores, List.mem_filter, List.mem_filter, hpanel]
  exact and_congr_left' hlisted

/-- What the cores of a panel keep when it is free. -/
theorem State.core_freePanel (k p : Nat) : (s.freePanel k).core p =
    if p ∈ s.panelCores k then { s.core p with slice := { (s.core p).slice with testSuspended := false } } else s.core p :=
  (State.foldl_modCore (s.modPanel k Panel.freed) (f := fun c => { c with slice := { c.slice with testSuspended := false } })
    (fun _ => rfl) (s.panelCores k)).1 p

/-- The block of a core in a save area is 2,048 B (R90). -/
theorem Sequencer.length_block (q : Sequencer) {head : List Byte} (hhead : head.length = 512) : (q.block head).length = 2048 := by
  simp only [Sequencer.block, padTo, zeros, List.length_append, List.length_take, List.length_replicate, hhead]
  omega

/-- One block of a save area is written. -/
def State.saveBlock (s : State) (ways base : Nat) (v : SavedCore × Nat) : State :=
  let d := s.drawBytes 512
  d.2.hbmWrite (base + 2048 * v.2) (v.1.seq.block d.1) (d.2.hreq 0 ways)

/-- A block is written to HBM alone, and touches no counter of switches. -/
theorem State.saveBlock_only (ways base : Nat) (v : SavedCore × Nat) :
    HbmOnly s (s.saveBlock ways base v) ∧ SameCounters IsSwitches s (s.saveBlock ways base v) := by
  have hdraw := HbmOnly.draw s 512
  have hsame : SameCounters IsSwitches s (s.drawBytes 512).2 := .of_eq rfl
  unfold State.saveBlock
  generalize s.drawBytes 512 = d at hdraw hsame ⊢
  exact ⟨hdraw.trans (State.hbmWrite_only _ _ _ _), hsame.trans (State.hbmWrite_switches _ _ _ _)⟩

/-- A block leaves every byte outside. -/
theorem State.read_saveBlock (ways : Nat) {base : Nat} (haligned : base % 64 = 0) (v : SavedCore × Nat) {a : Nat}
    (ha : a < base + 2048 * v.2 ∨ base + 2048 * v.2 + 2048 ≤ a) : (s.saveBlock ways base v).hbm.mem.read a = s.hbm.mem.read a := by
  have hhead : (s.drawBytes 512).1.length = 512 := by rw [State.drawBytes, List.length_map, List.length_range]
  have hsame : (s.drawBytes 512).2.hbm = s.hbm := rfl
  unfold State.saveBlock
  generalize s.drawBytes 512 = d at hhead hsame ⊢
  have hlen := v.1.seq.length_block hhead
  rw [← hsame]
  refine d.2.read_hbmWrite_out _ (by omega) (by rw [hlen]) ?_
  rw [hlen]
  exact ha

theorem State.writeSaveArea_eq (st : Step) (vs : List SavedCore) : s.writeSaveArea st vs = (s.ownHbm st.f.saveArea.toNat).elim s fun base =>
    vs.zipIdx.foldl (fun s v => s.saveBlock st.entry.wayMask.toNat base v) s := by
  unfold State.writeSaveArea State.saveBlock
  cases s.ownHbm st.f.saveArea.toNat <;> rfl

/-- A switch writes to HBM alone: what it saves of cores does not touch the counters of switches. -/
theorem State.writeSaveArea_only (st : Step) (vs : List SavedCore) :
    HbmOnly s (s.writeSaveArea st vs) ∧ SameCounters IsSwitches s (s.writeSaveArea st vs) := by
  rw [State.writeSaveArea_eq]
  cases s.ownHbm st.f.saveArea.toNat with
  | none => exact ⟨.refl s, .refl _ s⟩
  | some base =>
    refine List.foldlRecOn (motive := fun t : State => HbmOnly s t ∧ SameCounters IsSwitches s t) vs.zipIdx _ ⟨.refl s, .refl _ s⟩ ?_
    intro t ⟨honly, hsame⟩ v _
    obtain ⟨hblock, hcounts⟩ := t.saveBlock_only st.entry.wayMask.toNat base v
    exact ⟨honly.trans hblock, hsame.trans hcounts⟩

/-- A switch writes nothing outside the blocks of the cores that it saves. -/
theorem State.read_writeSaveArea {st : Step} {base : Nat} (hbase : s.ownHbm st.f.saveArea.toNat = some base) (haligned : base % 64 = 0)
    (vs : List SavedCore) {a : Nat} (ha : a < base ∨ base + 2048 * vs.length ≤ a) :
    (s.writeSaveArea st vs).hbm.mem.read a = s.hbm.mem.read a := by
  rw [State.writeSaveArea_eq, hbase]
  refine List.foldlRecOn (motive := fun t : State => t.hbm.mem.read a = s.hbm.mem.read a) vs.zipIdx _ rfl fun t ht v hv => ?_
  have hindex := List.snd_lt_of_mem_zipIdx hv
  exact (t.read_saveBlock _ haligned v (by omega)).trans ht

/-- A panel that its running step left by a switch. -/
def Panel.switch (r q : Step) (now : Nat) (cores : List SavedCore) (pn : Panel) : Panel :=
  { pn with
    queue := pn.queue ++ [r],
    switched := pn.switched.map (fun y => { y with paid := y.paid || (decide (y.step.window = q.window) && (y.step.isComp == q.isComp)) }) ++
      [{ step := r, since := now, cores := cores }] }

/-- The state in which a switch has saved and charged what it saves. -/
def State.switchSaved (s : State) (k : Nat) (st : Step) (vs : List SavedCore) : State :=
  ((s.vacated k).writeSaveArea st vs).charge st.ctx 40 (savedBytes vs)

/-- What a switch saves of the cores of a panel. -/
def State.panelSaved (s : State) (k : Nat) : List SavedCore := (s.panelCores k).map fun p => (s.core p).save p

theorem preemptSwitch_eq {k : Nat} {st q : Step} (hon : s.cmdIsland (some k) = true) (hmem : s.memFree = true)
    (hpreemptor : s.preemptor k = some (st, q)) (hready : s.switchReady k st.ctx = true) (hrecovering : (s.ctx st.ctx).recovering = false)
    (hopen : (s.ctx st.ctx).claimOpen = false) (hclaimed : (s.ctx st.ctx).claimed = false) : ∃ ns, exec (.preemptSwitch k) s =
      .next (((((s.switchSaved k st (s.panelSaved k)).freePanel k).modPanel k (Panel.switch (st.addBusy (s.busySums k)) q s.time (s.panelSaved k))).count
        (panelReg k 0x48) 1).count (panelReg k 0x50) ns) := by
  rw [exec_preemptSwitch, execPreemptSwitch, hpreemptor]
  dsimp only
  rw [if_neg (by simp [State.cmdMem, hon, hmem, hready, hrecovering, hopen, hclaimed])]
  exact ⟨_, rfl⟩

theorem State.ownHbm_vacated (k pa : Nat) : (s.vacated k).ownHbm pa = s.ownHbm pa := by
  rw [s.vacated_frame k]
  rfl

/-- A step that is switched out leaves its panel free and waits in its queue; its cores are idle, and what it saved is kept. -/
theorem preemptSwitch_leaves {k : Nat} {st q : Step} (hon : s.cmdIsland (some k) = true) (hmem : s.memFree = true)
    (hpreemptor : s.preemptor k = some (st, q)) (hready : s.switchReady k st.ctx = true) (hrecovering : (s.ctx st.ctx).recovering = false)
    (hopen : (s.ctx st.ctx).claimOpen = false) (hclaimed : (s.ctx st.ctx).claimed = false) :
    ∃ t r, exec (.preemptSwitch k) s = .next t ∧ r = st.addBusy (s.busySums k) ∧
      (t.panel k).running = none ∧ (t.panel k).state = .idle ∧ (t.panel k).queue = (s.panel k).queue ++ [r] ∧
      (t.panel k).switched = (s.panel k).switched.map (fun y => { y with paid := y.paid ||
        (decide (y.step.window = q.window) && (y.step.isComp == q.isComp)) }) ++
        [{ step := r, since := s.time, cores := (s.panelCores k).map (fun p => (s.core p).save p) }] ∧
      (∀ p, p ∉ s.panelCores k → t.core p = s.core p) ∧
      (∀ p ∈ s.panelCores k, (t.core p).seq.state = .idle ∧ (t.core p).slice.mem = (s.core p).slice.mem) ∧
      t.counter (panelReg k 0x48) = s.counter (panelReg k 0x48) + 1 ∧
      (s.ownHbm st.f.saveArea.toNat = none → t.hbm = s.hbm) ∧
      (∀ base a, s.ownHbm st.f.saveArea.toNat = some base → base % 64 = 0 → s.hbm.bad = [] →
        a < base ∨ base + 2048 * (s.panelCores k).length ≤ a → t.hbm.mem.read a = s.hbm.mem.read a) := by
  obtain ⟨ns, hx⟩ := preemptSwitch_eq s hon hmem hpreemptor hready hrecovering hopen hclaimed
  obtain ⟨honly, hsame⟩ := (s.vacated k).writeSaveArea_only st (s.panelSaved k)
  have hcores : (s.switchSaved k st (s.panelSaved k)).cores = (s.vacated k).cores := honly.cores
  have hpanels : (s.switchSaved k st (s.panelSaved k)).cmd.panels = s.cmd.panels := by
    refine (congrArg Cmd.panels honly.cmd :).trans ?_
    rw [s.vacated_frame k]
  have hpins : (s.switchSaved k st (s.panelSaved k)).pins = (s.vacated k).pins := honly.pins
  have hcore (p : Nat) : (s.switchSaved k st (s.panelSaved k)).core p = (s.vacated k).core p := by rw [State.core, hcores, hpins, State.core]
  have hlisted (p : Nat) : p ∈ (s.switchSaved k st (s.panelSaved k)).panelCores k ↔ p ∈ s.panelCores k := by
    rw [← s.mem_panelCores_vacated k p, State.panelCores, State.panelCores, List.mem_filter, List.mem_filter, hcores, hcore]
  have hvacated : (s.vacated k).counters = s.counters ∧ (s.vacated k).hbm = s.hbm := by
    rw [s.vacated_frame k]
    exact ⟨rfl, rfl⟩
  have hcount : (s.switchSaved k st (s.panelSaved k)).counter (panelReg k 0x48) = s.counter (panelReg k 0x48) := by
    refine (hsame (panelReg k 0x48) (by unfold IsSwitches panelReg; omega) :).trans ?_
    rw [State.counter, hvacated.1, State.counter]
  have hhbm : (s.switchSaved k st (s.panelSaved k)).hbm = ((s.vacated k).writeSaveArea st (s.panelSaved k)).hbm := rfl
  generalize s.switchSaved k st (s.panelSaved k) = u at hx hcore hlisted hpanels hcount hhbm
  have hfree := u.freePanel_keepsTables k
  have hfreePanel : (u.freePanel k).panel k = (s.panel k).freed := by
    rw [hfree.panel, u.panel_freed, State.panel, hpanels, State.panel]
  have hpanel : (((((u.freePanel k).modPanel k (Panel.switch (st.addBusy (s.busySums k)) q s.time (s.panelSaved k))).count
      (panelReg k 0x48) 1).count (panelReg k 0x50) ns).panel k) = Panel.switch (st.addBusy (s.busySums k)) q s.time (s.panelSaved k) (s.panel k).freed := by
    rw [← hfreePanel]
    exact (State.panel_modPanel _ _ _ _).trans (if_pos rfl)
  have hfreeCount : (u.freePanel k).counter (panelReg k 0x48) = s.counter (panelReg k 0x48) := by
    have hcounters : (u.freePanel k).counters = u.counters :=
      (congrArg State.counters (State.foldl_modCore (u.modPanel k Panel.freed) (f := fun c => { c with slice := { c.slice with testSuspended := false } })
        (fun _ => rfl) (u.panelCores k)).2 :)
    rw [State.counter, hcounters]
    exact hcount
  refine ⟨_, _, hx, rfl, by rw [hpanel]; rfl, by rw [hpanel]; rfl, by rw [hpanel]; rfl, by rw [hpanel]; rfl, fun p hp => ?other,
    fun p hp => ?left, ?counted, fun hnone => ?nothing, fun base a hbase haligned _ ha => ?outside⟩
  case other =>
    refine (u.core_freePanel k p).trans ?_
    rw [if_neg (by rwa [hlisted]), hcore, s.core_vacated, if_neg hp]
  case left =>
    have hat : (u.freePanel k).core p = { (s.core p).vacate with slice := { (s.core p).vacate.slice with testSuspended := false } } := by
      rw [u.core_freePanel, if_pos ((hlisted p).mpr hp), hcore, s.core_vacated, if_pos hp]
    exact ⟨(congrArg (fun c : Core => c.seq.state) hat :), (congrArg (fun c : Core => c.slice.mem) hat :)⟩
  case counted =>
    rw [State.counter_count, if_neg (by unfold panelReg; omega), State.counter_count, if_pos rfl]
    exact congrArg (· + 1) hfreeCount
  case nothing =>
    refine hfree.hbm.trans (hhbm.trans ?_)
    rw [State.writeSaveArea_eq, s.ownHbm_vacated, hnone]
    exact hvacated.2
  case outside =>
    refine (congrArg (fun m : Hbm => m.mem.read a) (hfree.hbm.trans hhbm) :).trans ?_
    rw [(s.vacated k).read_writeSaveArea (base := base) (by rw [s.ownHbm_vacated, hbase]) haligned _ (by simpa [State.panelSaved] using ha), hvacated.2]

end

/-- Settles O36: each command by its own lemma. -/
theorem stepsEnd : Obligations.StepsEnd := by
  unfold Obligations.StepsEnd
  intro s k st hon
  refine ⟨fun hmem hrunning hhanded hhalted hreqs hedu htransfers hcompanion hawake hrecovering hopen hclaimed => ?complete,
    fun hrunning hhanded hmain hdue => ⟨fun hquiet => deadlineCheckpoint_counts s hon hrunning hhanded hmain hdue hquiet,
      fun hfirst hpredicts hroom => deadlineCheckpoint_moves s hon hrunning hhanded hmain hdue hfirst hpredicts hroom⟩,
    fun c hwaits hmain hdeadline hlate hcan hawake => deadlineGrantWithdraw_ends s hon hwaits hmain hdeadline hlate hcan hawake,
    fun q hmem hpreemptor hready hrecovering hopen hclaimed =>
      preemptSwitch_leaves s hon hmem hpreemptor hready hrecovering hopen hclaimed⟩
  have hx := stepComplete_eq s hon hmem hrunning hhanded hhalted hreqs hedu htransfers hcompanion hawake hrecovering hopen hclaimed
  refine ⟨fun hmain hclean hcan => ?main, fun hcomp hend => ?companion, fun hviolated hpolicy hrerun hposted hfree => ?rerun⟩
  case main =>
    rw [hclean] at hx
    obtain ⟨r, hspec⟩ := s.endStep_main hmain hcan hawake k
    exact ⟨_, r, hx, hspec⟩
  case companion =>
    rw [if_neg (by rcases hend with h | h <;> simp [h])] at hx
    exact ⟨_, hx, s.endStep_companion hcomp k _⟩
  case rerun =>
    rw [if_pos (by simp [Step.mayRerun, hviolated, hpolicy, hrerun, hposted, hfree])] at hx
    exact hx

end Sys2Proof.Machine
end

section
/-! PROOFS. Steps that start: STEP_RUN, and what a step that has passed point 4 leaves (12 R309, R332; 13 R349). -/

namespace Sys2Proof.Machine

section
variable (s : State)

theorem exec_stepRun (fn w : Nat) : exec (.stepRun fn w) s = execStepRun fn w s := rfl
theorem exec_panelReset (k : Nat) : exec (.panelReset k) s = execPanelReset k s := rfl
theorem exec_stepHandoff (k : Nat) : exec (.stepHandoff k) s = execStepHandoff k s := rfl

/-! ### STEP_RUN (R309) -/

/-- A packet at its start. -/
def Packet.startedAt (p : Packet) (now : W64) : Packet := { p with start := now }

/-- What STEP_RUN comes to once its window may run it: its status, or its place at point 4. -/
def State.runStep (s : State) (k c : Nat) (p : Packet) : State :=
  let p1 := p.startedAt s.clk.now
  let table := s.stepTable c p.params
  if !s.keysOk c p.params table then s.endPacket k false p1 5
  else if s.point2 p.params c = 0x1100 then (s.event 0x8006).endPacket k false p1 0x1100
  else if s.point2 p.params c ≠ 0 then s.endPacket k false p1 (BitVec.ofNat 16 (s.point2 p.params c))
  else
    let r := (s.evalAdmission (s.ctx c).f.panel.toNat).point3 c p.params table
    if r.1.status ≠ 0 then r.2.endPacket k false p1 (BitVec.ofNat 16 r.1.status) else r.2.enqueueStep c k p1 r.1

theorem stepRun_eq {fn w c : Nat} {p : Packet} (hpkt : (s.window (winKey fn w)).stepPkt = some p)
    (hctx : (s.window (winKey fn w)).ctx = some c) (hop : p.opcode = 0x0101) (hmem : s.cmdMem (some (s.ctx c).f.panel.toNat) = true)
    (hnone : s.hasStep (winKey fn w) = false) (hrecovering : (s.ctx c).recovering = false) :
    exec (.stepRun fn w) s = .next (s.runStep (winKey fn w) c p) := by
  rw [exec_stepRun, execStepRun]
  dsimp only
  rw [hpkt, hctx]
  dsimp only
  rw [if_neg (by simp [hop, hmem, hnone, hrecovering])]
  unfold State.runStep Packet.startedAt
  dsimp only
  split_ifs <;> rfl

/-- Waking a panel leaves the authority over the module's power. -/
theorem State.wakePanel_authority (k : Nat) : (s.wakePanel k).gov.authority = s.gov.authority := by
  have hwake (u : State) : u.wakeModule.gov.authority = u.gov.authority := by
    unfold State.wakeModule
    split_ifs <;> rfl
  have hfold (u : State) (l : List Nat) : (l.foldl (fun (s : State) p => s.modCore p fun c => { c with cTarget := some 0 }) u).gov = u.gov :=
    List.foldlRecOn (motive := fun t : State => t.gov = u.gov) l _ rfl fun _ ht _ _ => ht
  unfold State.wakePanel
  dsimp only
  rw [hwake, hfold]
  split_ifs <;> rfl

/-- A step that needs no grant joins the queue of its panel, and nothing of its context changes. -/
theorem State.joinQueue_free {k : Nat} (hfree : s.grantFree k = true) (st : Step) (model : Half) :
    ((s.joinQueue k st model).panel k).queue = (s.panel k).queue ++ [st] ∧ (s.joinQueue k st model).cmd.ctxs = s.cmd.ctxs ∧
      (s.joinQueue k st model).edu = s.edu ∧ (s.joinQueue k st model).out = s.out := by
  have hframe := s.wakePanel_frame k
  have hgov : (s.wakePanel k).gov.authority = s.gov.authority := s.wakePanel_authority k
  have hfree' : (s.wakePanel k).grantFree k = true := by
    have hpanel : (s.wakePanel k).panel k = s.panel k := by rw [hframe]; rfl
    rwa [State.grantFree, hgov, hpanel]
  unfold State.joinQueue
  extract_lets u rise need
  have hu : u = { s with cores := u.cores, gov := u.gov } := hframe
  rw [if_pos hfree']
  rw [hu]
  exact ⟨congrArg Panel.queue ((State.panel_modPanel _ _ _ _).trans (if_pos rfl)), rfl, rfl, rfl⟩

/-- The step that a checked packet becomes (R309). -/
def State.checkedStep (s : State) (c k : Nat) (p : Packet) (r : Point3) : Step :=
  { window := k, ctx := c, cls := (s.ctx c).f.cls.toNat, gen := (s.ctx c).gen, tag := p.tag, irq := p.irq, params := p.params,
    seqs := r.seqs, parents := r.parents, blocks := r.blocks, start := s.clk.now, doorbell := p.doorbell,
    keyGens := (ctxSlots (s.ctx c).f).map (fun i => (i, (s.slot i).gen)), hints := p.heavy, nextEvent := p.nextEvent, f := (s.ctx c).f,
    entry := (s.panel (s.ctx c).f.panel.toNat).entry, place := s.stepTable c p.params, kv := r.kv
    placeNew := decide ((s.edu.takePending c (fieldAt p.params 84 4)).current ≠ s.edu.current) }

theorem State.enqueueStep_eq (c k : Nat) (p : Packet) (r : Point3) :
    s.enqueueStep c k p r = s.joinQueue (s.ctx c).f.panel.toNat (s.checkedStep c k p r) (s.ctx c).f.model := rfl

/-- STEP_RUN under each outcome of its checks. -/
theorem State.runStep_cases (k c : Nat) (p : Packet) :
    let p1 := p.startedAt s.clk.now
    let table := s.stepTable c p.params
    let pn := (s.ctx c).f.panel.toNat
    (s.keysOk c p.params table = false → s.runStep k c p = s.endPacket k false p1 5) ∧
    (s.keysOk c p.params table = true → s.point2 p.params c ≠ 0 → s.point2 p.params c ≠ 0x1100 →
      s.runStep k c p = s.endPacket k false p1 (BitVec.ofNat 16 (s.point2 p.params c))) ∧
    (s.keysOk c p.params table = true → s.point2 p.params c = 0x1100 → s.runStep k c p = (s.event 0x8006).endPacket k false p1 0x1100) ∧
    ∀ r s1, s.keysOk c p.params table = true → s.point2 p.params c = 0 → (s.evalAdmission pn).point3 c p.params table = (r, s1) →
      (r.status ≠ 0 → s.runStep k c p = s1.endPacket k false p1 (BitVec.ofNat 16 r.status)) ∧
      (r.status = 0 → s.runStep k c p = s1.enqueueStep c k p1 r) := by
  intro p1 table pn
  unfold State.runStep
  dsimp only
  refine ⟨fun hkeys => ?_, fun hkeys hbad hother => ?_, fun hkeys hcore => ?_, fun r s1 hkeys hok hpoint => ⟨fun hbad => ?_, fun hgood => ?_⟩⟩
  · rw [if_pos (by rw [hkeys]; rfl)]
  · rw [if_neg (by rw [hkeys]; simp), if_neg hother, if_pos hbad]
  · rw [if_neg (by rw [hkeys]; simp), if_pos hcore]
  · rw [if_neg (by rw [hkeys]; simp), if_neg (by rw [hok]; simp), if_neg (by simp [hok]), hpoint]
    exact if_pos hbad
  · rw [if_neg (by rw [hkeys]; simp), if_neg (by rw [hok]; simp), if_neg (by simp [hok]), hpoint]
    exact if_neg (by simp [hgood])

/-! ### Point 4 (R309, R332; 13 R349) -/

/-- From s to t no moved set and nothing of the dispatch unit changes. -/
structure KeepsMoved (s t : State) : Prop where
  moved (c : Nat) : (t.ctx c).moved = (s.ctx c).moved
  edu : t.edu = s.edu

variable {s} in
theorem KeepsMoved.of_ctxs {t : State} (hctxs : t.cmd.ctxs = s.cmd.ctxs) (hedu : t.edu = s.edu) : KeepsMoved s t :=
  ⟨fun c => by rw [State.ctx, hctxs, State.ctx], hedu⟩

theorem keepsMoved_closed : SendClosed KeepsMoved where
  refl _ := ⟨fun _ => rfl, rfl⟩
  trans h k := ⟨fun c => (k.moved c).trans (h.moved c), k.edu.trans h.edu⟩
  hbm h := .of_ctxs (by rw [h.cmd]) h.edu
  emit _ _ := .of_ctxs rfl rfl
  charge s c off n := by
    refine ⟨fun i => ?_, rfl⟩
    rw [State.charge, State.ctx_modCtx]
    split_ifs with h
    · rw [h]
    · rfl
  tokens _ _ _ _ := .of_ctxs rfl rfl
  queues _ _ _ _ _ _ _ := .of_ctxs rfl rfl
  transfers _ _ _ := .of_ctxs rfl rfl
  slice _ _ _ _ := .of_ctxs rfl rfl
  launch s h data port _ := .of_ctxs (by rw [(s.launch_portsOnly h data port).eq]) (by rw [(s.launch_portsOnly h data port).eq])

theorem State.modSelector_keepsMoved (h : Nat) (f : Selector → Selector) : KeepsMoved s (s.modSelector h f) := .of_ctxs rfl rfl

theorem State.installKv_keepsMoved (g : KvsReg) : KeepsMoved s (s.installKv g) := by
  unfold State.installKv
  exact keepsMoved_closed.trans (keepsMoved_closed.foldl s (fun t i => t.modSelector_keepsMoved i _) _) (State.modSelector_keepsMoved _ _ _)

theorem State.checkKv_keepsMoved (c : Nat) : KeepsMoved s (s.checkKv c).2 := by
  unfold State.checkKv
  extract_lets x pn va a
  have hwalk : KeepsMoved s a.2 := keepsMoved_closed.walk s _ _ _ _ _ _ _ _
  -- The lookup of an address becomes a variable: the kernel would compute its products by 2 ^ 16.
  obtain ⟨own, hown⟩ : ∃ own, State.ownHbm = own := ⟨_, rfl⟩
  rw [hown]
  refine rel_iteAns (keepsMoved_closed.refl s) ?_
  split
  · exact hwalk
  · split
    · exact hwalk
    · exact rel_iteAns hwalk hwalk

theorem State.registerKv_keepsMoved (c : Nat) : KeepsMoved s (s.registerKv c).2 := by
  have hcheck := s.checkKv_keepsMoved c
  unfold State.registerKv State.offerKv
  dsimp only
  split
  · split
    · exact hcheck
    · exact keepsMoved_closed.trans hcheck (State.installKv_keepsMoved _ _)
  · exact hcheck

theorem State.registerPost_keepsMoved (c : Nat) : KeepsMoved s (s.registerPost c).2 := by
  unfold State.registerPost
  extract_lets x a
  have hwalk : KeepsMoved s a.2 := keepsMoved_closed.walkBy s _ _ _ _
  refine rel_iteAns (keepsMoved_closed.refl s) ?_
  split
  · exact hwalk
  · exact hwalk
  · exact rel_iteAns hwalk (keepsMoved_closed.trans hwalk (.of_ctxs rfl rfl))

theorem State.joinQueue_keepsMoved (k : Nat) (st : Step) (model : Half) : KeepsMoved s (s.joinQueue k st model) := by
  have hrise (t : State) (w : Nat) : KeepsMoved t (t.takeRise w) := by
    obtain ⟨rises, h⟩ := t.takeRise_eq w
    rw [h]
    exact .of_ctxs rfl rfl
  unfold State.joinQueue
  extract_lets u rise need
  have hwake : KeepsMoved s u := by
    have hframe : u = { s with cores := u.cores, gov := u.gov } := s.wakePanel_frame k
    rw [hframe]
    exact .of_ctxs rfl rfl
  have hqueue (f : Panel → Panel) : KeepsMoved s (u.modPanel k f) := keepsMoved_closed.trans hwake (.of_ctxs rfl rfl)
  refine rel_ite (hqueue _) (rel_ite (keepsMoved_closed.trans (hqueue _) (hrise _ _)) ?_)
  have hwait (t : State) (key w : Nat) : KeepsMoved t (t.waitGrant key w) := by
    have hneeds := t.waitGrant_needs key w
    exact .of_ctxs (by rw [hneeds.frame]) (by rw [hneeds.frame])
  exact keepsMoved_closed.trans (keepsMoved_closed.trans (hqueue _) (hrise _ _)) (hwait _ _ _)

theorem State.startCompanion_keepsMoved (st : Step) (fb : Nat) (t : Fallback) (out : List SeqEntry) (kv : Option KvsReg) :
    KeepsMoved s (s.startCompanion st fb t out kv) := s.joinQueue_keepsMoved _ _ _

theorem State.release_keepsMoved (c : Nat) : KeepsMoved s (s.release c) := by
  have h := s.release_keepsTables c
  exact .of_ctxs (by rw [h.cmd]) h.edu

/-- A step's moved sequences, by the moved set as it stands. -/
def State.movedNow (s : State) (st : Step) : List SeqEntry := st.seqs.filter fun q => q.eligible && decide (q.slot ∈ (s.ctx st.ctx).moved)

/-- A context whose moved set loses slots that are not eligible, with the tags that a step captured. -/
def Ctx.atPoint4 (st : Step) (x : Ctx) : Ctx :=
  { x with
    moved := x.moved.filter (fun i => !((st.seqs.filter (fun x => !x.eligible)).map SeqEntry.slot).contains i),
    capGens := st.keyGens.map Prod.snd }

/-- The state of a step that has passed point 4, before its moved sequences are marked. -/
def State.atPoint4 (s : State) (st : Step) : State := (s.takePlacement st).modCtx st.ctx (Ctx.atPoint4 st)

/-- A slot that every sequence of the step in it is eligible for stays in the set. -/
theorem Ctx.mem_moved_atPoint4 (x : Ctx) (st : Step) (i : Nat) :
    i ∈ (x.atPoint4 st).moved ↔ i ∈ x.moved ∧ ∀ q ∈ st.seqs, q.slot = i → q.eligible = true := by
  have hstay : i ∈ (st.seqs.filter (fun x => !x.eligible)).map SeqEntry.slot ↔ ∃ q ∈ st.seqs, q.slot = i ∧ q.eligible = false := by
    simp only [List.mem_map, List.mem_filter, Bool.not_eq_true']
    exact ⟨fun ⟨q, ⟨hq, he⟩, hs⟩ => ⟨q, hq, hs, he⟩, fun ⟨q, hq, hs, he⟩ => ⟨q, ⟨hq, he⟩, hs⟩⟩
  rw [Ctx.atPoint4, List.mem_filter, Bool.not_eq_true', ← Bool.not_eq_true, List.contains_iff_mem, hstay]
  refine and_congr_right fun _ => ⟨fun h q hq hs => ?_, fun h ⟨q, hq, hs, he⟩ => ?_⟩
  · by_contra he
    exact h ⟨q, hq, hs, by simpa using he⟩
  · exact absurd (h q hq hs) (by simp [he])

theorem State.takePlacement_frame (st : Step) : (s.takePlacement st).cmd = s.cmd ∧
    (s.takePlacement st).edu.current = if st.placeNew then [(st.ctx, st.place)] else s.edu.current := by
  unfold State.takePlacement
  cases st.placeNew <;> exact ⟨rfl, rfl⟩

theorem State.ctx_atPoint4 (st : Step) (c : Nat) : (s.atPoint4 st).ctx c = if c = st.ctx then (s.ctx c).atPoint4 st else s.ctx c := by
  have hctx (i : Nat) : (s.takePlacement st).ctx i = s.ctx i := by rw [State.ctx, (s.takePlacement_frame st).1, State.ctx]
  rw [State.atPoint4, State.ctx_modCtx, hctx, hctx]
  split_ifs with h
  · rw [h]
  · rfl

/-- With one sequence for each slot, those that leave for the companion are those that stand in the moved set with eligible = 1. -/
theorem State.movedOut_atPoint4 (st : Step) :
    ((s.atPoint4 st).movedOut st.ctx st.seqs).Sublist (s.movedNow st) ∧
      ((st.seqs.map SeqEntry.slot).Nodup → (s.atPoint4 st).movedOut st.ctx st.seqs = s.movedNow st) := by
  have hmem (q : SeqEntry) (hq : q.eligible = true) : ((s.atPoint4 st).ctx st.ctx).moved.contains q.slot = true ↔
      q.slot ∈ (s.ctx st.ctx).moved ∧ ∀ x ∈ st.seqs, x.slot = q.slot → x.eligible = true := by
    rw [List.contains_iff_mem, s.ctx_atPoint4, if_pos rfl, Ctx.mem_moved_atPoint4]
  unfold State.movedOut State.movedNow
  refine ⟨List.monotone_filter_right _ fun q hq => ?_, fun hnodup => List.filter_congr fun q hq => ?_⟩
  · rw [Bool.and_eq_true] at hq ⊢
    exact ⟨hq.1, decide_eq_true ((hmem q hq.1).mp hq.2).1⟩
  · cases he : q.eligible with
    | false => rfl
    | true =>
      rw [Bool.true_and, Bool.true_and, Bool.eq_iff_iff, hmem q he, decide_eq_true_eq]
      refine and_iff_left fun x hx hs => ?_
      rw [List.inj_on_of_nodup_map hnodup hx hq hs, he]

theorem State.fallbackOf_atPoint4 (st : Step) (c : Nat) (fb : Option Nat) : (s.atPoint4 st).fallbackOf c fb = s.fallbackOf c fb := by
  have hfallback (i : Nat) : ((s.atPoint4 st).ctx i).fallback = (s.ctx i).fallback := by
    rw [s.ctx_atPoint4]
    split_ifs <;> rfl
  have hbound (i : Nat) : ((s.atPoint4 st).ctx i).bound = (s.ctx i).bound := by
    rw [s.ctx_atPoint4]
    split_ifs <;> rfl
  unfold State.fallbackOf
  simp only [hfallback, hbound]

/-- A sequence that its step's companion takes, or that fails with it. -/
def SeqEntry.markOut (out : List SeqEntry) (bad : Half) (x : SeqEntry) : SeqEntry :=
  if out.any (fun y => decide (y.slot = x.slot)) then { x with fallback := true, status := if bad = 0 then x.status else bad } else x

theorem SeqEntry.slot_markOut (out : List SeqEntry) (bad : Half) (x : SeqEntry) : (x.markOut out bad).slot = x.slot := by
  unfold SeqEntry.markOut
  split <;> rfl

/-- A step whose moved sequences go to a companion. -/
def Step.markOut (out : List SeqEntry) (bad : Half) (companion : Option Nat) (st : Step) : Step :=
  { st with seqs := st.seqs.map (SeqEntry.markOut out bad), companion := companion }

/-- What registers for a companion: its request page, and its link post page where the first translates. -/
def State.registerBoth (s : State) (fb : Nat) : Bool × State :=
  if (s.registerKv fb).1.1 then (s.registerKv fb).2.registerPost fb else (true, (s.registerKv fb).2)

/-- The status of a companion's registrations. -/
def State.companionStatus (s : State) (fb : Nat) : Half :=
  if !(s.registerKv fb).1.1 then 0x0802 else if !(s.registerBoth fb).1 then 0x0A00 else 0

/-- A step gives its moved sequences to a companion in a fallback context, or fails them. -/
def State.giveOut (s : State) (st : Step) (out : List SeqEntry) (fb : Nat × Fallback) : Step × State :=
  if s.companionStatus fb.1 = 0 then
    (st.markOut out (s.companionStatus fb.1) (some fb.1), (s.registerBoth fb.1).2.startCompanion st fb.1 fb.2 out (s.registerKv fb.1).1.2)
  else (st.markOut out (s.companionStatus fb.1) st.companion, (s.registerBoth fb.1).2.release fb.1)

theorem State.passPoint4_eq (st : Step) : s.passPoint4 st =
    let s1 := s.atPoint4 st
    let out := s1.movedOut st.ctx st.seqs
    if out.isEmpty then (st, s1) else (s.fallbackOf st.ctx (fallbackCtx st.params)).elim (st, s1.event 0x6012) (s1.giveOut st out) := by
  rw [← s.fallbackOf_atPoint4 st]
  have hs1 : (s.takePlacement st).modCtx st.ctx (Ctx.atPoint4 st) = s.atPoint4 st := rfl
  unfold Ctx.atPoint4 at hs1
  unfold State.passPoint4
  dsimp only
  rw [hs1]
  generalize s.atPoint4 st = s1
  cases s1.fallbackOf st.ctx (fallbackCtx st.params) <;> rfl

theorem State.companionStatus_cases (fb : Nat) :
    s.companionStatus fb = 0 ∨ s.companionStatus fb = 0x0802 ∨ s.companionStatus fb = 0x0A00 := by
  unfold State.companionStatus
  split_ifs <;> simp

/-- What a step that gives its moved sequences away leaves. -/
theorem State.giveOut_spec (st : Step) (out : List SeqEntry) (fb : Nat × Fallback) : KeepsMoved s (s.giveOut st out fb).2 ∧
    ∃ bad companion, (s.giveOut st out fb).1 = st.markOut out bad companion ∧ (companion = some fb.1 ∨ bad = 0x0802 ∨ bad = 0x0A00) := by
  have hkv := s.registerKv_keepsMoved fb.1
  have hboth : KeepsMoved s (s.registerBoth fb.1).2 := by
    unfold State.registerBoth
    generalize s.registerKv fb.1 = a at hkv ⊢
    split
    · exact keepsMoved_closed.trans hkv (a.2.registerPost_keepsMoved _)
    · exact hkv
  unfold State.giveOut
  generalize (s.registerBoth fb.1).2 = u at hboth ⊢
  split_ifs with hok
  · exact ⟨keepsMoved_closed.trans hboth (u.startCompanion_keepsMoved _ _ _ _ _), _, _, rfl, .inl rfl⟩
  · refine ⟨keepsMoved_closed.trans hboth (u.release_keepsMoved _), _, _, rfl, .inr ?_⟩
    exact (s.companionStatus_cases fb.1).resolve_left hok

/-- Each sequence that is marked is one that leaves, where no two share a slot. -/
theorem SeqEntry.fallback_markOut {st : Step} (hnodup : (st.seqs.map SeqEntry.slot).Nodup) {q : SeqEntry} (hq : q ∈ st.seqs) (bad : Half) :
    (q.markOut (s.movedNow st) bad).fallback = (q.fallback || decide (q ∈ s.movedNow st)) ∧
      (q ∈ s.movedNow st → bad ≠ 0 → (q.markOut (s.movedNow st) bad).status = bad) := by
  have hany : (s.movedNow st).any (fun y => decide (y.slot = q.slot)) = decide (q ∈ s.movedNow st) := by
    rw [Bool.eq_iff_iff, List.any_eq_true, decide_eq_true_eq]
    refine ⟨fun ⟨y, hy, hslot⟩ => ?_, fun h => ⟨q, h, by simp⟩⟩
    rwa [← List.inj_on_of_nodup_map hnodup (List.mem_filter.mp hy).1 hq (by simpa using hslot)]
  unfold SeqEntry.markOut
  rw [hany]
  by_cases hout : q ∈ s.movedNow st
  · rw [if_pos (by simpa using hout)]
    exact ⟨by simp [hout], fun _ hbad => if_neg hbad⟩
  · rw [if_neg (by simpa using hout)]
    exact ⟨by simp [hout], fun h => absurd h hout⟩

/-- A step that has passed point 4: its table is in force, the moved set holds eligible slots alone, and its moved sequences are marked. -/
theorem State.passPoint4_spec (st : Step) :
    let out := s.movedNow st
    let a := s.passPoint4 st
    (∀ i, i ∈ (a.2.ctx st.ctx).moved ↔ i ∈ (s.ctx st.ctx).moved ∧ ∀ q ∈ st.seqs, q.slot = i → q.eligible = true) ∧
    (a.2.edu.current = if st.placeNew then [(st.ctx, st.place)] else s.edu.current) ∧
    (out = [] → a.1 = st ∧ a.2.out = (s.takePlacement st).out) ∧
    (out ≠ [] → (st.seqs.map SeqEntry.slot).Nodup → s.fallbackOf st.ctx (fallbackCtx st.params) = none →
      a.1 = st ∧ a.2.mgt.events = ((s.takePlacement st).event 0x6012).mgt.events) ∧
    (∀ fb, out ≠ [] → s.fallbackOf st.ctx (fallbackCtx st.params) = some fb → (st.seqs.map SeqEntry.slot).Nodup →
      (∀ q ∈ st.seqs, ∃ y ∈ a.1.seqs, y.slot = q.slot ∧ y.fallback = (q.fallback || decide (q ∈ out))) ∧
      (a.1.companion = some fb.1 ∨ ∀ q ∈ out, ∃ y ∈ a.1.seqs, y.slot = q.slot ∧ (y.status = 0x0802 ∨ y.status = 0x0A00))) := by
  intro out a
  obtain ⟨hsub, hsame⟩ := s.movedOut_atPoint4 st
  have ha : a = _ := s.passPoint4_eq st
  dsimp only at ha
  have hkeeps : KeepsMoved (s.atPoint4 st) a.2 := by
    rw [ha]
    refine rel_iteAns (keepsMoved_closed.refl _) ?_
    cases s.fallbackOf st.ctx (fallbackCtx st.params) with
    | none => exact keepsMoved_closed.event _ _
    | some fb => exact (State.giveOut_spec _ _ _ _).1
  have hmarked (fb : Nat × Fallback) (hout : out ≠ []) (hfb : s.fallbackOf st.ctx (fallbackCtx st.params) = some fb)
      (hnodup : (st.seqs.map SeqEntry.slot).Nodup) : ∃ bad companion, a.1 = st.markOut out bad companion ∧
        (companion = some fb.1 ∨ bad = 0x0802 ∨ bad = 0x0A00) := by
    rw [ha, hsame hnodup, hfb, if_neg (by simpa using hout)]
    exact (State.giveOut_spec _ _ _ _).2
  refine ⟨fun i => ?moved, ?table, fun hnil => ?stays, fun hout hnodup hnone => ?lost, fun fb hout hfb hnodup => ?given⟩
  case moved => rw [hkeeps.moved, s.ctx_atPoint4, if_pos rfl, Ctx.mem_moved_atPoint4]
  case table => exact (congrArg Edu.current hkeeps.edu :).trans (s.takePlacement_frame st).2
  case stays =>
    have hempty : (s.atPoint4 st).movedOut st.ctx st.seqs = [] := List.sublist_nil.mp ((hnil : s.movedNow st = []) ▸ hsub)
    rw [ha, hempty]
    exact ⟨rfl, rfl⟩
  case lost =>
    rw [ha, hsame hnodup, hnone, if_neg (by simpa using hout)]
    exact ⟨rfl, rfl⟩
  case given =>
    obtain ⟨bad, companion, hmark, hend⟩ := hmarked fb hout hfb hnodup
    have hmem {q : SeqEntry} (hq : q ∈ st.seqs) : q.markOut out bad ∈ a.1.seqs := by
      rw [hmark]
      exact List.mem_map_of_mem hq
    refine ⟨fun q hq => ⟨_, hmem hq, q.slot_markOut _ _, (SeqEntry.fallback_markOut s hnodup hq bad).1⟩, ?_⟩
    rcases hend with hcomp | hbad
    · exact .inl (by rw [hmark]; exact hcomp)
    · refine .inr fun q hq => ?_
      have hq' : q ∈ st.seqs := (List.mem_filter.mp hq).1
      refine ⟨_, hmem hq', q.slot_markOut _ _, ?_⟩
      rw [(SeqEntry.fallback_markOut s hnodup hq' bad).2 hq (by rcases hbad with h | h <;> simp [h])]
      exact hbad

end

end Sys2Proof.Machine
end

section
/-! PROOFS. Panel resets (13 R331; 03 R88; 06 R154, R169). -/

namespace Sys2Proof.Machine

/-! ### A slice after its reset -/

/-- A slice that holds +0 everywhere, has no resident, and takes the masks of its panel's entry. -/
structure Slice.Blank (on ret : W32) (sl : Slice) : Prop where
  zero (a : Nat) : sl.mem.read a = 0
  bad : sl.bad = []
  weak : sl.weak = []
  resident : sl.resident = none
  tileOn : sl.tileOn = on
  tileRet : sl.tileRet = ret

theorem Slice.panelReset_blank (sl : Slice) (on ret : W32) : (sl.panelReset on ret).Blank on ret := ⟨fun _ => rfl, rfl, rfl, rfl, rfl, rfl⟩

theorem Slice.Blank.allOff {on ret : W32} {sl : Slice} (h : sl.Blank on ret) : sl.allOff.Blank on ret :=
  ⟨fun _ => rfl, rfl, rfl, h.resident, h.tileOn, h.tileRet⟩

theorem Slice.Blank.zeroTile {on ret : W32} {sl : Slice} (h : sl.Blank on ret) (t : Nat) : (sl.zeroTile t).Blank on ret := by
  refine ⟨fun a => ?_, ?_, ?_, h.resident, h.tileOn, h.tileRet⟩
  · rw [Slice.zeroTile, Mem.read_zeroRange]
    split_ifs
    · rfl
    · exact h.zero a
  · simp [Slice.zeroTile, h.bad]
  · simp [Slice.zeroTile, h.weak]

theorem Slice.Blank.tiles {on ret : W32} {sl : Slice} (h : sl.Blank on ret) (ts : Tab TileState) (ps : List Nat) :
    ({ sl with tiles := ts, parked := ps } : Slice).Blank on ret :=
  ⟨h.zero, h.bad, h.weak, h.resident, h.tileOn, h.tileRet⟩

theorem Slice.Blank.reach {on ret : W32} {sl : Slice} (h : sl.Blank on ret) (t : Nat) : (sl.reach t).Blank on ret := by
  unfold Slice.reach
  split
  · dsimp only
    split
    · exact (h.zeroTile t).tiles _ _
    · exact h.tiles _ _
  · exact h

theorem Slice.Blank.enterC2 {on ret : W32} {sl : Slice} (h : sl.Blank on ret) : sl.enterC2.Blank on ret := by
  have hreached (ts : List Nat) : (ts.foldl Slice.reach sl).Blank on ret :=
    List.foldlRecOn (motive := fun x : Slice => x.Blank on ret) ts _ h fun _ hx t _ => hx.reach t
  exact (hreached _).tiles _ _

/-- A panel reset leaves a slice blank, in every power state of its core. -/
theorem Core.resetSlice_blank (c : Core) (on ret : W32) (sl : Slice) : (c.resetSlice on ret sl).Blank on ret := by
  have hreset := sl.panelReset_blank on ret
  unfold Core.resetSlice
  dsimp only
  split_ifs
  · exact hreset.allOff
  · exact hreset.enterC2
  · exact hreset

theorem Slice.secure_reach (sl : Slice) (t : Nat) : (sl.reach t).secure = sl.secure := by
  unfold Slice.reach
  split
  · dsimp only
    split <;> rfl
  · rfl

/-- A panel reset keeps the secure mark of a slice (06 R174). -/
theorem Core.secure_resetSlice (c : Core) (on ret : W32) (sl : Slice) : (c.resetSlice on ret sl).secure = sl.secure := by
  have hreached (ts : List Nat) (x : Slice) : (ts.foldl Slice.reach x).secure = x.secure :=
    List.foldlRecOn (motive := fun y : Slice => y.secure = x.secure) ts _ rfl fun y hy t _ => (y.secure_reach t).trans hy
  unfold Core.resetSlice
  dsimp only
  split_ifs
  · rfl
  · exact hreached _ _
  · rfl

/-! ### Changes of several cores, one after the other -/

/-- The counters of panel resets, and whatever shares their place in a block of registers. -/
def IsResets (off : Nat) : Prop := off % 0x100 = 0x78

/-- From s to t core p changed by f; counters of its translations and the canary's saved words may have moved. -/
structure ChangesCore (f : Core → Core) (p : Nat) (s t : State) : Prop where
  frame : t = { s with cores := t.cores, counters := t.counters, rel := t.rel }
  core (q : Nat) : t.core q = if q = p then f (s.core p) else s.core q
  listed (q : Nat) : q ∈ Tab.keys t.cores → q = p ∨ q ∈ Tab.keys s.cores
  stays (q : Nat) : q ∈ Tab.keys s.cores → q ∈ Tab.keys t.cores
  resets : SameCounters IsResets s t

/-- From s to t the listed cores of a list changed, each by its function, once or oftener. -/
structure ChangesCores (f : Nat → Core → Core) (ps : List Nat) (s t : State) : Prop where
  frame : t = { s with cores := t.cores, counters := t.counters, rel := t.rel }
  listed (q : Nat) : q ∈ Tab.keys t.cores ↔ q ∈ Tab.keys s.cores
  resets : SameCounters IsResets s t
  other (q : Nat) : q ∉ ps → t.core q = s.core q
  same {α : Type} (h : Core → α) (q : Nat) : (∀ c, h (f q c) = h c) → h (t.core q) = h (s.core q)
  each (Q : Core → Prop) (q : Nat) : q ∈ ps → (∀ c, Q (f q c)) → Q (t.core q)

section
variable {s t u : State}

theorem ChangesCore.trans {f g : Core → Core} {p : Nat} (h : ChangesCore f p s t) (k : ChangesCore g p t u) : ChangesCore (fun c => g (f c)) p s u where
  frame := by rw [k.frame, h.frame]
  core q := by
    rw [k.core]
    split_ifs with hq
    · rw [h.core, if_pos rfl]
    · rw [h.core, if_neg hq]
  listed q hq := (k.listed q hq).elim .inl (h.listed q)
  stays q hq := k.stays q (h.stays q hq)
  resets := h.resets.trans k.resets

theorem State.listed_modCore (s : State) (p : Nat) (f : Core → Core) (q : Nat) :
    q ∈ Tab.keys (s.modCore p f).cores ↔ q = p ∨ q ∈ Tab.keys s.cores := Tab.mem_keys_set _ _ _ _

theorem ChangesCore.modCore (s : State) (p : Nat) (f : Core → Core) : ChangesCore f p s (s.modCore p f) where
  frame := rfl
  core _ := State.core_modCore _ _ _ _
  listed q hq := (s.listed_modCore p f q).mp hq
  stays q hq := (s.listed_modCore p f q).mpr (.inr hq)
  resets := .of_eq rfl

/-- A core without translations. -/
def Core.dropped (c : Core) : Core := { c with tc := { c.tc with entries := [] } }

theorem ChangesCore.dropTc (s : State) (p : Nat) : ChangesCore Core.dropped p s (s.dropTc p) := by
  unfold State.dropTc
  dsimp only
  split_ifs with hnil
  · refine ⟨rfl, fun q => ?_, fun q hq => .inr hq, fun q hq => hq, .refl _ s⟩
    split_ifs with hq
    · have hempty := List.eq_nil_of_length_eq_zero hnil
      rw [hq]
      unfold Core.dropped
      rw [← hempty]
    · rfl
  · have hmod := ChangesCore.modCore s p Core.dropped
    exact { hmod with
      frame := rfl
      resets := hmod.resets.count (by unfold IsResets coreReg; omega) _ }

theorem ChangesCores.refl (f : Nat → Core → Core) (s : State) : ChangesCores f [] s s :=
  ⟨rfl, fun _ => .rfl, .refl _ s, fun _ _ => rfl, fun _ _ _ => rfl, fun _ _ h => absurd h List.not_mem_nil⟩

/-- One core after the others. -/
theorem ChangesCores.cons {f : Nat → Core → Core} {p : Nat} {ps : List Nat} (h : ChangesCore (f p) p s t) (hp : p ∈ Tab.keys s.cores)
    (k : ChangesCores f ps t u) : ChangesCores f (p :: ps) s u where
  frame := by rw [k.frame, h.frame]
  listed q := (k.listed q).trans ⟨fun hq => (h.listed q hq).elim (fun he => he ▸ hp) id, h.stays q⟩
  resets := h.resets.trans k.resets
  other q hq := by
    rw [List.mem_cons, not_or] at hq
    rw [k.other q hq.2, h.core, if_neg hq.1]
  same g q hg := by
    rw [k.same g q hg, h.core]
    split_ifs with hq
    · subst hq
      exact hg _
    · rfl
  each Q q hq hQ := by
    by_cases hrest : q ∈ ps
    · exact k.each Q q hrest hQ
    · obtain rfl : q = p := (List.mem_cons.mp hq).resolve_right hrest
      rw [k.other q hrest, h.core, if_pos rfl]
      exact hQ _

/-- A fold over listed cores that changes each. -/
theorem ChangesCores.foldl {f : Nat → Core → Core} {g : State → Nat → State} (hg : ∀ s p, ChangesCore (f p) p s (g s p)) (ps : List Nat) (s : State)
    (hlisted : ∀ p ∈ ps, p ∈ Tab.keys s.cores) : ChangesCores f ps s (ps.foldl g s) := by
  induction ps generalizing s with
  | nil => exact .refl f s
  | cons p ps ih =>
    exact .cons (hg s p) (hlisted p List.mem_cons_self)
      (ih (g s p) fun q hq => (hg s p).stays q (hlisted q (List.mem_cons_of_mem _ hq)))

end

/-! ### Pairings (03 R88) -/

/-- A core that a panel's pairing names. -/
def Core.paired (k l : Nat) (c : Core) : Core := { c with logical := l, panel := some k }

/-- From s to t the cores of a pairing took their logical ids on a panel. -/
structure Pairs (k : Nat) (pr : List (Nat × Nat)) (s t : State) : Prop where
  frame : t = { s with cores := t.cores }
  listed (q : Nat) : q ∈ Tab.keys t.cores ↔ q ∈ Tab.keys s.cores ∨ ∃ l, (l, q) ∈ pr
  other (q : Nat) : (¬ ∃ l, (l, q) ∈ pr) → t.core q = s.core q
  same {α : Type} (h : Core → α) (q : Nat) : (∀ c l, h (c.paired k l) = h c) → h (t.core q) = h (s.core q)
  paired (q : Nat) : (∃ l, (l, q) ∈ pr) → (t.core q).panel = some k ∧ (∃ l, (l, q) ∈ pr ∧ (t.core q).logical = l)

/-- The cores of a pairing take their ids in turn. -/
theorem State.foldl_paired (k : Nat) (pr : List (Nat × Nat)) (s : State) :
    Pairs k pr s (pr.foldl (fun (s : State) e => s.modCore e.2 (Core.paired k e.1)) s) := by
  induction pr generalizing s with
  | nil => exact ⟨rfl, fun q => by simp, fun _ _ => rfl, fun _ _ _ => rfl, fun q h => by simp at h⟩
  | cons e rest ih =>
    obtain ⟨l, p⟩ := e
    have hfirst := ChangesCore.modCore s p (Core.paired k l)
    have hrest := ih (s.modCore p (Core.paired k l))
    have hmem (q : Nat) : (∃ l', (l', q) ∈ (l, p) :: rest) ↔ q = p ∨ ∃ l', (l', q) ∈ rest := by
      simp only [List.mem_cons, Prod.mk.injEq, exists_or, exists_eq_left]
    refine ⟨?_, fun q => ?_, fun q hq => ?_, fun h q hh => ?_, fun q hq => ?_⟩
    · rw [List.foldl_cons, hrest.frame]
      rfl
    · rw [List.foldl_cons, hrest.listed, hmem, State.listed_modCore]
      tauto
    · rw [hmem, not_or] at hq
      rw [List.foldl_cons, hrest.other q hq.2, hfirst.core, if_neg hq.1]
    · rw [List.foldl_cons, hrest.same h q hh, hfirst.core]
      split_ifs with hqp
      · rw [hqp]
        exact hh _ _
      · rfl
    · rw [List.foldl_cons]
      by_cases hin : ∃ l', (l', q) ∈ rest
      · obtain ⟨hpanel, l', hl', hlogical⟩ := hrest.paired q hin
        exact ⟨hpanel, l', List.mem_cons_of_mem _ hl', hlogical⟩
      · obtain rfl : q = p := ((hmem q).mp hq).resolve_right hin
        rw [hrest.other q hin, hfirst.core, if_pos rfl]
        exact ⟨rfl, l, List.mem_cons_self, rfl⟩

/-- A core of a panel at a pairing: one that the pairing names waits for its id, any other is let go. -/
def Core.unpaired (pr : List (Nat × Nat)) (p : Nat) (c : Core) : Core :=
  if pr.any (fun e => decide (e.2 = p)) then { c with logical := 0xFF, panel := none } else c.letGo

theorem Core.unpaired_letGo {pr : List (Nat × Nat)} {p : Nat} (h : ¬ ∃ l, (l, p) ∈ pr) (c : Core) : c.unpaired pr p = c.letGo := by
  refine if_neg fun hany => h ?_
  obtain ⟨⟨l, q⟩, he, hq⟩ := List.any_eq_true.mp hany
  exact ⟨l, by simpa using (of_decide_eq_true hq) ▸ he⟩

/-- The state of a reset after its panel's translations went and its cores were let go. -/
def State.unpairedCores (s : State) (k : Nat) : State :=
  (s.panelCores k).foldl (fun (s : State) p => s.modCore p (Core.unpaired (s.panel k).pairing p)) s

/-! ### The reset -/

/-- A core after a panel reset: its slice as the masks ask, and no translation. -/
def Core.panelReset (on ret : W32) (c : Core) : Core := ({ c with slice := c.resetSlice on ret c.slice } : Core).dropped

theorem ChangesCore.panelReset (s : State) (p : Nat) (on ret : W32) :
    ChangesCore (Core.panelReset on ret) p s ((s.modContents p ((s.core p).resetSlice on ret)).dropTc p) := by
  have hcontents : ChangesCore (fun c => { c with slice := c.resetSlice on ret c.slice }) p s (s.modContents p ((s.core p).resetSlice on ret)) := by
    have hmod := ChangesCore.modCore s p fun c => { c with slice := (s.core p).resetSlice on ret c.slice }
    have hcore (q : Nat) : (s.modSlice p ((s.core p).resetSlice on ret)).core q =
        if q = p then { s.core p with slice := (s.core p).resetSlice on ret (s.core p).slice } else s.core q := hmod.core q
    unfold State.modContents
    dsimp only
    split_ifs
    · exact ⟨rfl, hcore, hmod.listed, hmod.stays, .of_eq rfl⟩
    · exact ⟨rfl, hcore, hmod.listed, hmod.stays, .of_eq rfl⟩
  exact hcontents.trans (ChangesCore.dropTc _ p)

/-- The cores that a panel has after its pairing was applied, and what of each stays. -/
structure Repaired (k : Nat) (s t : State) : Prop where
  frame : t = { s with cores := t.cores, counters := t.counters, rel := t.rel }
  resets : SameCounters IsResets s t
  cores (p : Nat) : p ∈ t.panelCores k ↔ ∃ l, (l, p) ∈ (s.panel k).pairing
  logical (p : Nat) : (∃ l, (l, p) ∈ (s.panel k).pairing) → ∃ l, (l, p) ∈ (s.panel k).pairing ∧ (t.core p).logical = l
  secure (p : Nat) : (t.core p).slice.secure = (s.core p).slice.secure
  letGo (p : Nat) : p ∈ s.panelCores k → (¬ ∃ l, (l, p) ∈ (s.panel k).pairing) →
    (t.core p).logical = 0xFF ∧ (t.core p).panel = none ∧ ∀ i, i < 32 → (t.core p).slice.tile i = .off

theorem State.listed_of_panelCores {s : State} {k : Nat} : ∀ p ∈ s.panelCores k, p ∈ Tab.keys s.cores := fun _ hp => (List.mem_filter.mp hp).1

theorem State.mem_panelCores_iff (s : State) (k p : Nat) : p ∈ s.panelCores k ↔ p ∈ Tab.keys s.cores ∧ (s.core p).panel = some k := by
  rw [State.panelCores, List.mem_filter, decide_eq_true_eq]

/-- The panel's translations go, and its pairing is applied. -/
theorem State.applyPairing_repairs (s : State) (k : Nat) :
    Repaired k s (((s.panelCores k).foldl (fun s p => s.dropTc p) s).applyPairing k) := by
  have hdrop := ChangesCores.foldl (f := fun _ => Core.dropped) ChangesCore.dropTc (s.panelCores k) s State.listed_of_panelCores
  generalize (s.panelCores k).foldl (fun s p => s.dropTc p) s = u at hdrop ⊢
  have hpanel : u.panel k = s.panel k := by rw [hdrop.frame]; rfl
  have hcores (p : Nat) : p ∈ u.panelCores k ↔ p ∈ s.panelCores k := by
    rw [State.mem_panelCores_iff, State.mem_panelCores_iff, hdrop.listed, hdrop.same Core.panel p fun _ => rfl]
  have hlet := ChangesCores.foldl (f := Core.unpaired (s.panel k).pairing) (fun t p => ChangesCore.modCore t p _) (u.panelCores k) u
    State.listed_of_panelCores
  have hpairs := State.foldl_paired k (s.panel k).pairing ((u.panelCores k).foldl (fun (t : State) p =>
    t.modCore p (Core.unpaired (s.panel k).pairing p)) u)
  have heq : u.applyPairing k = (s.panel k).pairing.foldl (fun (t : State) e => t.modCore e.2 (Core.paired k e.1))
      ((u.panelCores k).foldl (fun (t : State) p => t.modCore p (Core.unpaired (s.panel k).pairing p)) u) := by
    rw [← hpanel]
    rfl
  rw [heq]
  generalize (u.panelCores k).foldl (fun (t : State) p => t.modCore p (Core.unpaired (s.panel k).pairing p)) u = v at hlet hpairs ⊢
  generalize (s.panel k).pairing.foldl (fun (t : State) e => t.modCore e.2 (Core.paired k e.1)) v = w at hpairs ⊢
  have hgone {p : Nat} (hp : p ∈ s.panelCores k) (hno : ¬ ∃ l, (l, p) ∈ (s.panel k).pairing) :
      (w.core p).logical = 0xFF ∧ (w.core p).panel = none ∧ ∀ i, i < 32 → (w.core p).slice.tile i = .off := by
    rw [hpairs.other p hno]
    refine hlet.each (fun c => c.logical = 0xFF ∧ c.panel = none ∧ ∀ i, i < 32 → c.slice.tile i = .off) p ((hcores p).mpr hp) fun c => ?_
    rw [c.unpaired_letGo hno]
    exact ⟨rfl, rfl, fun i hi => Slice.tile_allOff _ hi⟩
  refine ⟨?frame, ?resets, fun p => ?cores, fun p hp => (hpairs.paired p hp).2, fun p => ?secure, fun p => hgone⟩
  case frame => rw [hpairs.frame, hlet.frame, hdrop.frame]
  case resets =>
    refine (hdrop.resets.trans hlet.resets).same ?_
    rw [hpairs.frame]
  case cores =>
    rw [State.mem_panelCores_iff, hpairs.listed]
    refine ⟨fun ⟨hlisted, hat⟩ => ?_, fun h => ⟨.inr h, (hpairs.paired p h).1⟩⟩
    by_contra hno
    by_cases hp : p ∈ s.panelCores k
    · rw [(hgone hp hno).2.1] at hat
      exact absurd hat (by simp)
    · rw [hpairs.other p hno, hlet.other p (by rwa [hcores]), hdrop.other p hp] at hat
      exact hp ((s.mem_panelCores_iff k p).mpr ⟨by simpa [hlet.listed, hdrop.listed, hno] using hlisted, hat⟩)
  case secure =>
    refine (hpairs.same (fun c => c.slice.secure) p fun _ _ => rfl).trans ((hlet.same (fun c => c.slice.secure) p fun c => ?_).trans
      (hdrop.same (fun c => c.slice.secure) p fun _ => rfl))
    unfold Core.unpaired
    split <;> rfl

/-- A panel that was reset for its next step. -/
def Panel.wasReset (pn : Panel) : Panel := { pn with needsReset := false, resetFor := pn.next.map fun st => st.f.model }

/-- PANEL_RESET, when it is due. -/
theorem panelReset_eq {s : State} {k : Nat} (hon : s.cmdIsland (some k) = true) (hwritten : (s.panel k).written = true)
    (hidle : (s.panel k).running = none) (hdue : s.resetDue k = true) (htakes : s.takesRunning k = false) :
    let u := ((s.panelCores k).foldl (fun s p => s.dropTc p) s).applyPairing k
    let v := (u.panelCores k).foldl (fun t p => (t.modContents p
      ((t.core p).resetSlice (s.panel k).entry.tileOn (s.panel k).entry.tileRet)).dropTc p) u
    exec (.panelReset k) s = .next (((v.event 0x6014).count (panelReg k 0x78) 1).modPanel k Panel.wasReset) := by
  rw [exec_panelReset, execPanelReset]
  dsimp only
  exact if_neg (by simp [hon, hwritten, hidle, hdue, htakes])

/-- A panel reset leaves the panel paired as its entry says, its slices blank and the others let go. -/
theorem panelReset_resets {s : State} {k : Nat} (hon : s.cmdIsland (some k) = true) (hwritten : (s.panel k).written = true)
    (hidle : (s.panel k).running = none) (hdue : s.resetDue k = true) (htakes : s.takesRunning k = false) :
    ∃ t, exec (.panelReset k) s = .next t ∧ (t.panel k).needsReset = false ∧ (t.panel k).resetFor = (s.panel k).next.map (fun st => st.f.model) ∧
      (∀ p, p ∈ t.panelCores k ↔ ∃ l, (l, p) ∈ (s.panel k).pairing) ∧
      (∀ p ∈ t.panelCores k, (∀ a, (t.core p).slice.mem.read a = 0) ∧ (t.core p).slice.bad = [] ∧ (t.core p).slice.weak = [] ∧
        (t.core p).slice.secure = (s.core p).slice.secure ∧ (t.core p).slice.resident = none ∧ (t.core p).tc.entries = [] ∧
        (t.core p).slice.tileOn = (s.panel k).entry.tileOn ∧ (t.core p).slice.tileRet = (s.panel k).entry.tileRet ∧
        ∃ l, (l, p) ∈ (s.panel k).pairing ∧ (t.core p).logical = l) ∧
      (∀ p ∈ s.panelCores k, p ∉ t.panelCores k → (t.core p).logical = 0xFF ∧ (t.core p).panel = none ∧
        ∀ i, i < 32 → (t.core p).slice.tile i = .off) ∧
      t.counter (panelReg k 0x78) = s.counter (panelReg k 0x78) + 1 ∧ t.hbm = s.hbm := by
  have hx := panelReset_eq hon hwritten hidle hdue htakes
  have hpaired := s.applyPairing_repairs k
  dsimp only at hx
  generalize ((s.panelCores k).foldl (fun s p => s.dropTc p) s).applyPairing k = u at hx hpaired
  have hreset := ChangesCores.foldl (f := fun _ => Core.panelReset (s.panel k).entry.tileOn (s.panel k).entry.tileRet)
    (fun t p => ChangesCore.panelReset t p _ _) (u.panelCores k) u State.listed_of_panelCores
  generalize (u.panelCores k).foldl (fun t p => (t.modContents p
    ((t.core p).resetSlice (s.panel k).entry.tileOn (s.panel k).entry.tileRet)).dropTc p) u = v at hx hreset
  have hcores (p : Nat) : p ∈ v.panelCores k ↔ ∃ l, (l, p) ∈ (s.panel k).pairing := by
    rw [← hpaired.cores, State.mem_panelCores_iff, State.mem_panelCores_iff, hreset.listed, hreset.same Core.panel p fun _ => rfl]
  have hpanel : v.panel k = s.panel k := by
    rw [hreset.frame, hpaired.frame]
    rfl
  have hlast : (((v.event 0x6014).count (panelReg k 0x78) 1).modPanel k Panel.wasReset).panel k = (s.panel k).wasReset := by
    rw [State.panel_modPanel, if_pos rfl, ← hpanel]
    rfl
  refine ⟨_, hx, by rw [hlast]; rfl, by rw [hlast]; rfl, hcores, fun p hp => ?blank, fun p hp hno => ?gone, ?counted, ?hbm⟩
  case blank =>
    have hin : ∃ l, (l, p) ∈ (s.panel k).pairing := (hcores p).mp hp
    obtain ⟨hblank, htc⟩ := hreset.each (fun c => c.slice.Blank (s.panel k).entry.tileOn (s.panel k).entry.tileRet ∧ c.tc.entries = []) p
      ((hpaired.cores p).mpr hin) fun c => ⟨c.resetSlice_blank _ _ _, rfl⟩
    obtain ⟨l, hl, hlogical⟩ := hpaired.logical p hin
    refine ⟨hblank.zero, hblank.bad, hblank.weak, ?_, hblank.resident, htc, hblank.tileOn, hblank.tileRet, l, hl, ?_⟩
    · exact (hreset.same (fun c => c.slice.secure) p fun c => c.secure_resetSlice _ _ _).trans (hpaired.secure p)
    · exact (hreset.same Core.logical p fun _ => rfl).trans hlogical
  case gone =>
    have hout : ¬ ∃ l, (l, p) ∈ (s.panel k).pairing := fun h => hno ((hcores p).mpr h)
    have hsame : v.core p = u.core p := hreset.other p fun h => hout ((hpaired.cores p).mp h)
    obtain ⟨hlogical, hnone, hoff⟩ := hpaired.letGo p hp hout
    rw [← hsame] at hlogical hnone hoff
    exact ⟨hlogical, hnone, hoff⟩
  case counted =>
    refine (State.counter_count (v.event 0x6014) (panelReg k 0x78) 1 (panelReg k 0x78)).trans ?_
    rw [if_pos rfl]
    exact congrArg (· + 1) ((hpaired.resets.trans hreset.resets) (panelReg k 0x78) (by unfold IsResets panelReg; omega))
  case hbm =>
    show v.hbm = s.hbm
    rw [hreset.frame, hpaired.frame]

end Sys2Proof.Machine
end

section
/-! PROOFS. Hand-offs and restores (12 R308, R309; 13 R332, R334; 03 R89, R90). -/

namespace Sys2Proof.Machine

/-! ### STEP_HANDOFF (R332) -/

/-- The same step of a window as one that was switched out. -/
def SavedStep.isOf (st : Step) (y : SavedStep) : Bool := decide (y.step.window = st.window) && (y.step.isComp == st.isComp)

section
variable {s : State} {k : Nat} {st : Step}

/-- The next step starts, or the one that was switched out is restored. -/
theorem stepHandoff_next (hmem : s.cmdMem (some k) = true) (hidle : (s.panel k).running = none) (hnext : (s.panel k).next = some st)
    (hgranted : st.granted = true) (hreset : s.resetDue k = false) (hawake : s.panelAwake k = true)
    (hrecovering : (s.ctx st.ctx).recovering = false) (hcanary : s.canaryOn k = false) :
    exec (.stepHandoff k) s = .next (((s.panel k).switched.find? (SavedStep.isOf st)).elim (s.beginStep k st) fun sv =>
      (s.takeStep k st).restoreStep k { sv with step := { sv.step with granted := true } }) := by
  rw [exec_stepHandoff, execStepHandoff]
  dsimp only
  rw [if_neg (by simp [hmem]), hidle, hnext]
  dsimp only
  rw [if_neg (by simp [hgranted, hreset, hawake, hrecovering]), if_neg (by simp [hcanary]), if_neg (by simp [hcanary])]
  unfold SavedStep.isOf
  cases (s.panel k).switched.find? fun y => decide (y.step.window = st.window) && (y.step.isComp == st.isComp) <;> rfl

/-- A step whose tiles have reached their states is handed off. -/
theorem stepHandoff_finishes (hmem : s.cmdMem (some k) = true) (hrunning : (s.panel k).running = some st) (hprepared : st.prepared = true)
    (hhanded : st.handed = 0) (hinputs : s.inputWaits st = false)
    (hreached : (s.panelCores k).all (fun p => (s.core p).slice.tilesReached && s.clocked p) = true) :
    exec (.stepHandoff k) s = .next (s.finishHandoff k st) := by
  rw [exec_stepHandoff, execStepHandoff]
  dsimp only
  rw [if_neg (by simp [hmem]), hrunning]
  dsimp only
  rw [if_pos (by simp [hprepared, hhanded]), State.tryHandoff, if_neg (by simp [hinputs]), if_pos hreached]

end

/-! ### Cores that are restored (R90, R334) -/

/-- A core takes back what a switch saved of it, on top of what it held. -/
structure Restored (ctxId : Nat) (v : SavedCore) (old c : Core) : Prop where
  pc : c.seq.pc = v.seq.pc
  regs : c.seq.regs = v.seq.regs
  loops : c.seq.loops = v.seq.loops
  offsets : c.seq.offsets = v.seq.offsets
  faultCode : c.seq.faultCode = old.seq.faultCode
  acc : c.mx.acc = v.mx.acc
  live : c.mx.live = v.mx.live
  maps : c.mx.maps = v.mx.maps
  descs : c.vx.descs = v.vx.descs
  unit : c.vx.unit = v.vx.unit
  viol : c.str.viol = old.str.viol
  ctx : c.ctx = ctxId

section
variable (s : State)

theorem State.installKv_frame (g : KvsReg) : s.installKv g = { s with kvs := (s.installKv g).kvs } := by
  have hfold (l : List Nat) : l.foldl (fun (s : State) i => s.modSelector i fun l => { l with regs := l.regs.filter fun x => decide (x.panel ≠ g.panel) }) s =
      { s with kvs := (l.foldl (fun (s : State) i => s.modSelector i fun l => { l with regs := l.regs.filter fun x => decide (x.panel ≠ g.panel) }) s).kvs } :=
    List.foldlRecOn (motive := fun t : State => t = { s with kvs := t.kvs }) l _ rfl fun t ht i _ => by
      rw [State.modSelector, ht]
  unfold State.installKv
  dsimp only
  rw [hfold]
  rfl

theorem State.startKv_frame (st : Step) : s.startKv st = { s with kvs := (s.startKv st).kvs } := by
  unfold State.startKv
  split
  · exact s.installKv_frame _
  · rfl

theorem State.core_dropForeign (p ctxId q : Nat) : (s.dropForeign p ctxId).core q = s.core q ∨
    q = p ∧ (s.dropForeign p ctxId).core q = (s.core p).dropped := by
  unfold State.dropForeign
  split_ifs
  · exact .inl rfl
  · have hdrop := (ChangesCore.dropTc s p).core q
    split_ifs at hdrop with hq
    · exact .inr ⟨hq, hdrop⟩
    · exact .inl hdrop

theorem State.trackHostHalt_cores (p : Nat) : (s.trackHostHalt p).cores = s.cores ∧ (s.trackHostHalt p).pins = s.pins := by
  unfold State.trackHostHalt
  split
  · exact ⟨rfl, rfl⟩
  · split <;> exact ⟨rfl, rfl⟩

/-- Where every transaction knows its descriptor, a reissue changes the unit alone. -/
theorem State.core_strReissue (p : Nat) (hdescs : ∀ d ∈ (s.core p).str.slots, d.desc ≠ []) (q : Nat) :
    (s.strReissue p).core q = if q = p then (s.core p).resumes else s.core q := by
  have hat : (s.modCore p Core.resumes).core p = (s.core p).resumes := (State.core_modCore _ _ _ _).trans (if_pos rfl)
  have hnone : ((s.modCore p Core.resumes).core p).str.slots.filter (fun d => d.desc.isEmpty) = [] := by
    rw [hat, List.filter_eq_nil_iff]
    intro d hd
    obtain ⟨d', hd', rfl⟩ := List.mem_map.mp hd
    rw [(StrSlot.rewind_frame d' _).2.1]
    simpa using hdescs d' hd'
  have heq : s.strReissue p = (s.modCore p Core.resumes).trackHostHalt p := by
    show (((s.modCore p Core.resumes).core p).str.slots.filter (fun d => d.desc.isEmpty)).foldl (fun s d => s.strCapture p d)
      ((s.modCore p Core.resumes).trackHostHalt p) = _
    rw [hnone]
    rfl
  obtain ⟨hcores, hpins⟩ := (s.modCore p Core.resumes).trackHostHalt_cores p
  rw [heq, State.core, hcores, hpins]
  exact State.core_modCore _ _ _ _

/-- What a core takes back. -/
def Core.takeBack (st : Step) (v : SavedCore) (c : Core) : Core :=
  ({ c with
    seq := c.seq.restore v.seq, mx := c.mx.restore v.mx, vx := c.vx.restore v.vx st, str := c.str.restore v.str,
    slice := c.slice.takeBack v.slice st, rcViolated := v.rcViolated, haltReported := v.haltReported, started := v.started } : Core).capture st

/-- A restore changes its core alone, which takes back what was saved of it. -/
theorem State.restoreCore_restores (st : Step) (v : SavedCore) (hdescs : ∀ d ∈ v.str.slots, d.desc ≠ []) :
    Restored st.ctx v (s.core v.core) ((s.restoreCore st v).core v.core) ∧ ∀ q, q ≠ v.core → (s.restoreCore st v).core q = s.core q := by
  have heq : s.restoreCore st v = ((s.dropForeign v.core st.ctx).modCore v.core (Core.takeBack st v)).strReissue v.core := rfl
  have htaken : ((s.dropForeign v.core st.ctx).modCore v.core (Core.takeBack st v)).core v.core =
      ((s.dropForeign v.core st.ctx).core v.core).takeBack st v := (State.core_modCore _ _ _ _).trans (if_pos rfl)
  have hreissued := State.core_strReissue ((s.dropForeign v.core st.ctx).modCore v.core (Core.takeBack st v)) v.core
    (by rw [htaken]; exact hdescs)
  refine ⟨?_, fun q hq => ?_⟩
  · rw [heq, hreissued, if_pos rfl, htaken]
    rcases s.core_dropForeign v.core st.ctx v.core with h | ⟨-, h⟩ <;> rw [h] <;> exact ⟨rfl, rfl, rfl, rfl, rfl, rfl, rfl, rfl, rfl, rfl, rfl, rfl⟩
  · rw [heq, hreissued, if_neg hq, State.core_modCore, if_neg hq]
    exact (s.core_dropForeign v.core st.ctx q).resolve_right fun h => hq h.1

/-- Restores of different cores: each takes back its own. -/
theorem State.foldl_restoreCore (st : Step) (vs : List SavedCore) (hnodup : (vs.map SavedCore.core).Nodup)
    (hdescs : ∀ v ∈ vs, ∀ d ∈ v.str.slots, d.desc ≠ []) :
    (∀ v ∈ vs, Restored st.ctx v (s.core v.core) ((vs.foldl (fun s v => s.restoreCore st v) s).core v.core)) ∧
      ∀ q, (∀ v ∈ vs, q ≠ v.core) → (vs.foldl (fun s v => s.restoreCore st v) s).core q = s.core q := by
  induction vs generalizing s with
  | nil => exact ⟨fun v hv => absurd hv List.not_mem_nil, fun _ _ => rfl⟩
  | cons v rest ih =>
    rw [List.map_cons, List.nodup_cons] at hnodup
    obtain ⟨hfirst, hothers⟩ := s.restoreCore_restores st v (hdescs v List.mem_cons_self)
    obtain ⟨hrest, hstay⟩ := ih (s.restoreCore st v) hnodup.2 fun x hx => hdescs x (List.mem_cons_of_mem _ hx)
    have hne : ∀ x ∈ rest, x.core ≠ v.core := fun x hx he => hnodup.1 (he ▸ List.mem_map_of_mem hx)
    refine ⟨fun x hx => ?_, fun q hq => ?_⟩
    · rcases List.mem_cons.mp hx with rfl | hx
      · rw [List.foldl_cons, hstay _ fun y hy => (hne y hy).symm]
        exact hfirst
      · rw [List.foldl_cons, ← hothers x.core (hne x hx)]
        exact hrest x hx
    · rw [List.foldl_cons, hstay q fun x hx => hq x (List.mem_cons_of_mem _ hx), hothers q (hq v List.mem_cons_self)]

/-- A saved core at the place that holds its logical id now. -/
def SavedCore.at' (v : SavedCore) (p : Nat) : SavedCore := { v with core := p }

/-- A step that was switched out and runs again. -/
def Step.resumed (st : Step) (now since : Nat) (base : List Nat) : Step :=
  { st with restored := now, switchedNs := st.switchedNs + (now - since), base := base }

/-- The step of a saved step, its cores by the places that hold their ids now. -/
def State.stepNow (s : State) (k : Nat) (sv : SavedStep) : Step :=
  { sv.step with cores := sv.step.cores.map fun (x : Nat × Nat) =>
      (((sv.cores.find? fun v => decide (v.core = x.1)).map (s.coreNow k)).getD x.1, x.2) }

/-- The saved cores of a step, by the places that hold their ids now. -/
def State.savedNow (s : State) (k : Nat) (sv : SavedStep) : List SavedCore := sv.cores.map fun v => v.at' (s.coreNow k v)

/-- A panel whose switched-out step goes on. -/
def Panel.takeOut (st : Step) (pn : Panel) : Panel :=
  { pn with switched := pn.switched.filter fun y => decide (y.step.window ≠ st.window) || (y.step.isComp != st.isComp) }

/-- The state of a restore before its cores take back what was saved. -/
def State.restoring (s : State) (k : Nat) (sv : SavedStep) : State :=
  ((s.modPanel k (Panel.takeOut (s.stepNow k sv))).startKv (s.stepNow k sv)).charge sv.step.ctx 32 (savedBytes (s.savedNow k sv))

/-- A panel on which a restored step runs. -/
def Panel.resume (st : Step) (now : Nat) (pn : Panel) : Panel := { pn with state := .running, progress := now, running := some st }

theorem State.restoreStep_eq (k : Nat) (sv : SavedStep) : ∃ base, s.restoreStep k sv =
    let u := (s.savedNow k sv).foldl (fun u v => u.restoreCore (s.stepNow k sv) v) (s.restoring k sv)
    (if sv.paid then u else u.count (panelReg k 0x50) ({ sv with cores := s.savedNow k sv, step := s.stepNow k sv } : SavedStep).restoreNs).modPanel k
      (Panel.resume ((s.stepNow k sv).resumed s.time sv.since base) s.time) := ⟨_, rfl⟩

theorem State.core_restoring (k : Nat) (sv : SavedStep) (q : Nat) : (s.restoring k sv).core q = s.core q := by
  unfold State.restoring
  rw [State.startKv_frame]
  rfl

/-- A restore leaves the step running on its panel, and each core with what was saved of it. -/
theorem State.restoreStep_spec (k : Nat) (sv : SavedStep) (hnodup : (sv.cores.map (s.coreNow k)).Nodup)
    (hdescs : ∀ v ∈ sv.cores, ∀ d ∈ v.str.slots, d.desc ≠ []) :
    (∃ base, ((s.restoreStep k sv).panel k).running = some ((s.stepNow k sv).resumed s.time sv.since base)) ∧
      ((s.restoreStep k sv).panel k).state = .running ∧
      ∀ v ∈ sv.cores, Restored sv.step.ctx v (s.core (s.coreNow k v)) ((s.restoreStep k sv).core (s.coreNow k v)) := by
  obtain ⟨base, heq⟩ := s.restoreStep_eq k sv
  have hcores := State.foldl_restoreCore (s.restoring k sv) (s.stepNow k sv) (s.savedNow k sv) (by rw [State.savedNow, List.map_map]; exact hnodup)
    fun v hv => by
      obtain ⟨x, hx, rfl⟩ := List.mem_map.mp hv
      exact hdescs x hx
  obtain ⟨hrestored, -⟩ := hcores
  dsimp only at heq
  generalize (s.savedNow k sv).foldl (fun u v => u.restoreCore (s.stepNow k sv) v) (s.restoring k sv) = u at heq hrestored
  have hcount (n : Nat) : (if sv.paid then u else u.count (panelReg k 0x50) n).cores = u.cores ∧
      (if sv.paid then u else u.count (panelReg k 0x50) n).pins = u.pins := by
    split <;> exact ⟨rfl, rfl⟩
  rw [heq]
  generalize hw : (if sv.paid then u else u.count (panelReg k 0x50) ({ sv with cores := s.savedNow k sv, step := s.stepNow k sv } : SavedStep).restoreNs) = w
  have hsame : w.cores = u.cores ∧ w.pins = u.pins := hw ▸ hcount _
  have hpanel : (w.modPanel k (Panel.resume ((s.stepNow k sv).resumed s.time sv.since base) s.time)).panel k =
      (w.panel k).resume ((s.stepNow k sv).resumed s.time sv.since base) s.time := (State.panel_modPanel _ _ _ _).trans (if_pos rfl)
  refine ⟨⟨base, by rw [hpanel]; rfl⟩, by rw [hpanel]; rfl, fun v hv => ?_⟩
  have hv' := hrestored _ (List.mem_map_of_mem (f := fun v => v.at' (s.coreNow k v)) hv)
  rw [s.core_restoring] at hv'
  have hcore : (w.modPanel k (Panel.resume ((s.stepNow k sv).resumed s.time sv.since base) s.time)).core (s.coreNow k v) = u.core (s.coreNow k v) := by
    show (Tab.find w.cores _).getD (coreAtReset w.pins.spares _) = _
    rw [hsame.1, hsame.2]
    rfl
  rw [hcore]
  exact ⟨hv'.pc, hv'.regs, hv'.loops, hv'.offsets, hv'.faultCode, hv'.acc, hv'.live, hv'.maps, hv'.descs, hv'.unit, hv'.viol, hv'.ctx⟩

theorem State.takeStep_frame (k : Nat) (st : Step) : s.takeStep k st = { s with kvs := (s.takeStep k st).kvs, cmd := (s.takeStep k st).cmd } := by
  unfold State.takeStep
  rw [s.startKv_frame]
  rfl

/-- A step that was switched out is restored where its logical ids are now. -/
theorem stepHandoff_restores {k : Nat} {st : Step} {sv : SavedStep} (hmem : s.cmdMem (some k) = true) (hidle : (s.panel k).running = none)
    (hnext : (s.panel k).next = some st) (hgranted : st.granted = true) (hreset : s.resetDue k = false) (hawake : s.panelAwake k = true)
    (hrecovering : (s.ctx st.ctx).recovering = false) (hcanary : s.canaryOn k = false)
    (hsaved : (s.panel k).switched.find? (SavedStep.isOf st) = some sv) (hnodup : (sv.cores.map (s.coreNow k)).Nodup)
    (hdescs : ∀ v ∈ sv.cores, ∀ d ∈ v.str.slots, d.desc ≠ []) :
    ∃ t r, exec (.stepHandoff k) s = .next t ∧ (t.panel k).running = some r ∧ (t.panel k).state = .running ∧
      r.tag = sv.step.tag ∧ r.handed = sv.step.handed ∧ r.seqs = sv.step.seqs ∧ r.switchedNs = sv.step.switchedNs + (s.time - sv.since) ∧
      ∀ v ∈ sv.cores, Restored sv.step.ctx v (s.core (s.coreNow k v)) (t.core (s.coreNow k v)) := by
  have hx := stepHandoff_next hmem hidle hnext hgranted hreset hawake hrecovering hcanary
  rw [hsaved] at hx
  have hnow (v : SavedCore) : (s.takeStep k st).coreNow k v = s.coreNow k v := by
    rw [s.takeStep_frame]
    rfl
  have hcore (q : Nat) : (s.takeStep k st).core q = s.core q := by
    rw [s.takeStep_frame]
    rfl
  have htime : (s.takeStep k st).time = s.time := by
    rw [s.takeStep_frame]
    rfl
  obtain ⟨⟨base, hrunning⟩, hstate, hrestored⟩ :=
    (s.takeStep k st).restoreStep_spec k { sv with step := { sv.step with granted := true } }
      (by rw [funext hnow]; exact hnodup) hdescs
  rw [htime] at hrunning
  simp only [hnow, hcore] at hrestored
  exact ⟨_, _, hx, hrunning, hstate, rfl, rfl, rfl, rfl, hrestored⟩

/-! ### A core that starts (03 R89) -/

theorem State.startCore_eq {st : Step} (hmain : st.isComp = false) (cores : List (Nat × Nat × Nat × Nat)) (p b i entry : Nat) :
    s.startCore st cores (p, b, i, entry) = s.modCore p fun c => c.handoff st entry
      (stepArgs (bucketList st.params b) b i (st.bucketSeqs b).length (cores.filter (fun y => decide (y.2.1 = b))).length
        (fieldAt st.params 48 8) (fieldAt st.params 84 4) (fieldAt st.params 12 4)) := by
  unfold State.startCore
  simp only [hmain]
  rfl

/-- The argument registers of a core. -/
theorem get_stepArgs (list b i seqs cores arg step user : Nat) :
    let r (n : Nat) := Tab.get (0 : W32) (stepArgs list b i seqs cores arg step user) n
    r 0 = 0 ∧ r 1 = BitVec.ofNat 32 list ∧ r 2 = BitVec.ofNat 32 (list / 2 ^ 32 % 65536 + b % 256 * 65536 + i % 256 * 2 ^ 24) ∧
      r 3 = BitVec.ofNat 32 seqs ∧ r 4 = BitVec.ofNat 32 cores ∧ r 5 = BitVec.ofNat 32 arg ∧
      r 6 = BitVec.ofNat 32 (arg / 2 ^ 32 % 65536) ∧ r 7 = BitVec.ofNat 32 step ∧ r 8 = BitVec.ofNat 32 user ∧ ∀ n, 9 ≤ n → r n = 0 := by
  have hlow (x : Nat) : BitVec.ofNat 32 (x % 2 ^ 32) = BitVec.ofNat 32 x := by
    apply BitVec.eq_of_toNat_eq
    simp
  have hargs : stepArgs list b i seqs cores arg step user =
      [(1, BitVec.ofNat 32 (list % 2 ^ 32)), (2, BitVec.ofNat 32 (list / 2 ^ 32 % 65536 + b % 256 * 65536 + i % 256 * 2 ^ 24)),
        (3, BitVec.ofNat 32 seqs), (4, BitVec.ofNat 32 cores), (5, BitVec.ofNat 32 (arg % 2 ^ 32)),
        (6, BitVec.ofNat 32 (arg / 2 ^ 32 % 65536)), (7, BitVec.ofNat 32 step), (8, BitVec.ofNat 32 user)] := rfl
  intro r
  refine ⟨rfl, hlow list, rfl, rfl, rfl, hlow arg, rfl, rfl, rfl, fun n hn => ?_⟩
  have hnone : Tab.find (stepArgs list b i seqs cores arg step user) n = none := by
    rw [hargs]
    simp only [Tab.find]
    repeat' rw [if_neg (by omega)]
  show (Tab.find _ n).getD 0 = 0
  rw [hnone]
  rfl

/-- A slice at a hand-off counts from 0 and belongs to the step's context (06 R174, R177). -/
theorem Slice.handoff_fields (sl : Slice) (ctxId : Nat) (gen : BitVec 8) (secure : Bool) :
    (∀ a, Tab.get 0 (sl.handoff ctxId gen secure).arrival a = 0) ∧ (sl.handoff ctxId gen secure).secure = secure ∧
      (sl.handoff ctxId gen secure).resident = some (ctxId, gen) := ⟨fun _ => rfl, rfl, rfl⟩

/-- The arguments that a core takes at its start in a bucket. -/
def Step.argsOf (st : Step) (cores : List (Nat × Nat × Nat × Nat)) (b i : Nat) : Tab W32 :=
  stepArgs (bucketList st.params b) b i (st.bucketSeqs b).length (cores.filter (fun y => decide (y.2.1 = b))).length
    (fieldAt st.params 48 8) (fieldAt st.params 84 4) (fieldAt st.params 12 4)

/-- A start changes its core alone. -/
theorem State.core_startCore {st : Step} (hmain : st.isComp = false) (cores : List (Nat × Nat × Nat × Nat)) (p b i entry q : Nat) :
    (s.startCore st cores (p, b, i, entry)).core q = if q = p then (s.core p).handoff st entry (st.argsOf cores b i) else s.core q := by
  rw [s.startCore_eq hmain]
  exact State.core_modCore _ _ _ _

/-- A core that starts reads its arguments in S1 to S8 and 0 in every other register. -/
theorem Core.reg_handoff (c : Core) (st : Step) (cores : List (Nat × Nat × Nat × Nat)) (b i entry : Nat) :
    let q := (c.handoff st entry (st.argsOf cores b i)).seq
    q.reg 0 = 0 ∧ q.reg 1 = BitVec.ofNat 32 (bucketList st.params b) ∧
      q.reg 2 = BitVec.ofNat 32 (bucketList st.params b / 2 ^ 32 % 65536 + b % 256 * 65536 + i % 256 * 2 ^ 24) ∧
      q.reg 3 = BitVec.ofNat 32 (st.bucketSeqs b).length ∧
      q.reg 4 = BitVec.ofNat 32 (cores.filter (fun y => decide (y.2.1 = b))).length ∧
      q.reg 5 = BitVec.ofNat 32 (fieldAt st.params 48 8) ∧ q.reg 6 = BitVec.ofNat 32 (fieldAt st.params 48 8 / 2 ^ 32 % 65536) ∧
      q.reg 7 = BitVec.ofNat 32 (fieldAt st.params 84 4) ∧ q.reg 8 = BitVec.ofNat 32 (fieldAt st.params 12 4) ∧
      ∀ r : BitVec 5, 9 ≤ r.toNat → q.reg r = 0 := by
  intro q
  obtain ⟨-, h1, h2, h3, h4, h5, h6, h7, h8, hrest⟩ := get_stepArgs (bucketList st.params b) b i (st.bucketSeqs b).length
    (cores.filter (fun y => decide (y.2.1 = b))).length (fieldAt st.params 48 8) (fieldAt st.params 84 4) (fieldAt st.params 12 4)
  have hreg (r : BitVec 5) (hr : r ≠ 0) : q.reg r = Tab.get 0 (st.argsOf cores b i) r.toNat := if_neg hr
  refine ⟨rfl, (hreg 1 (by decide)).trans h1, (hreg 2 (by decide)).trans h2, (hreg 3 (by decide)).trans h3, (hreg 4 (by decide)).trans h4,
    (hreg 5 (by decide)).trans h5, (hreg 6 (by decide)).trans h6, (hreg 7 (by decide)).trans h7, (hreg 8 (by decide)).trans h8, fun r hr => ?_⟩
  exact (hreg r (by rintro rfl; simp at hr)).trans (hrest r.toNat hr)

end

/-- Settles O35: STEP_RUN by `stepRun_eq`, point 4 by `State.passPoint4_spec`, and the panel's commands by their own lemmas. -/
theorem stepsStart : Obligations.StepsStart := by
  unfold Obligations.StepsStart
  refine ⟨?run, fun s st => s.passPoint4_spec st, ?reset, ?handoff, ?start⟩
  case run =>
    rintro s fn w k c p p1 rfl hpkt hctx hop hmem hnone hrecovering rfl
    have hx := stepRun_eq s hpkt hctx hop hmem hnone hrecovering
    obtain ⟨hkeys, hbad, hcore, hpoint⟩ := s.runStep_cases (winKey fn w) c p
    dsimp only
    refine ⟨fun h => hx.trans (congrArg _ (hkeys h)), fun h h2 h3 => hx.trans (congrArg _ (hbad h h2 h3)),
      fun h h2 => hx.trans (congrArg _ (hcore h h2)), fun r s1 h h2 h3 => ⟨fun h4 => hx.trans (congrArg _ ((hpoint r s1 h h2 h3).1 h4)),
        fun h4 hpanel hfree => ?_⟩⟩
    have heq := hx.trans (congrArg Host.Outcome.next ((hpoint r s1 h h2 h3).2 h4))
    rw [State.enqueueStep_eq, hpanel] at heq
    obtain ⟨hqueue, hctxs, hedu, hout⟩ := s1.joinQueue_free hfree (s1.checkedStep c (winKey fn w) (p.startedAt s.clk.now) r) (s1.ctx c).f.model
    refine ⟨_, heq, hqueue.trans ?_, hctxs, hedu, hout⟩
    rw [State.checkedStep, hpanel]
    rfl
  case reset =>
    rintro s k pn rfl hon hwritten hidle hdue htakes
    exact panelReset_resets hon hwritten hidle hdue htakes
  case handoff =>
    rintro s k st pn rfl hmem
    refine ⟨fun hidle hnext hgranted hreset hawake hrecovering hcanary => ⟨fun hnone => ?_, fun sv hsaved hnodup hdescs => ?_⟩,
      fun hrunning hprepared hhanded hinputs hreached => stepHandoff_finishes hmem hrunning hprepared hhanded hinputs hreached⟩
    · have hx := stepHandoff_next hmem hidle hnext hgranted hreset hawake hrecovering hcanary
      rw [show (s.panel k).switched.find? (SavedStep.isOf st) = none from hnone] at hx
      exact ⟨fun hmain => hx.trans (congrArg Host.Outcome.next (if_neg (by simp [hmain]))),
        fun hcomp => hx.trans (congrArg Host.Outcome.next (if_pos hcomp))⟩
    · obtain ⟨t, r, hx, hrunning, hstate, htag, hhanded, hseqs, htime, hrestored⟩ :=
        stepHandoff_restores s hmem hidle hnext hgranted hreset hawake hrecovering hcanary hsaved hnodup hdescs
      refine ⟨t, r, hx, hrunning, hstate, htag, hhanded, hseqs, htime, fun v hv => ?_⟩
      have h := hrestored v hv
      exact ⟨h.pc, h.regs, h.loops, h.offsets, h.faultCode, h.acc, h.live, h.maps, h.descs, h.unit, h.viol, h.ctx⟩
  case start =>
    rintro s p b i entry st cores c hmain rfl
    have hcore := s.core_startCore hmain cores p b i entry
    obtain ⟨h0, h1, h2, h3, h4, h5, h6, h7, h8, hrest⟩ := (s.core p).reg_handoff st cores b i entry
    obtain ⟨harrival, hsecure, hresident⟩ := ((s.core p).handoff st entry (st.argsOf cores b i)).slice.handoff_fields st.ctx st.gen st.f.secure
    rw [(hcore p).trans (if_pos rfl)]
    exact ⟨rfl, rfl, rfl, fun e => by cases e <;> rfl, fun _ => rfl, rfl, h0, h1, h2, h3, h4, h5, h6, h7, h8, hrest, rfl, rfl, rfl, rfl,
      fun _ => rfl, rfl, rfl, rfl, rfl, rfl, rfl, rfl, rfl, rfl, rfl, rfl, fun q hq => (hcore q).trans (if_neg hq),
      harrival, hsecure, hresident⟩

end Sys2Proof.Machine
end

section
/-! PROOFS. The canonical form of the memories (State.memWf): what keeps it, from the shared operations up. -/

namespace Sys2Proof.Machine

/-! ### States, answers, and the relation -/

/-- Every memory of a state is in its one canonical form. -/
def Canon (s : State) : Prop := s.memWf = true

/-- Every next state of an answer has canonical memories. -/
def CanonNext (a : Answer) : Prop := ∀ t, a = .next t → Canon t

/-- From s to t the memories stay as they are. -/
structure SameMemories (s t : State) : Prop where
  hbm : t.hbm.mem = s.hbm.mem
  cores : t.cores = s.cores
  panels : t.cmd.panels = s.cmd.panels
  saved : t.rel.canarySaved = s.rel.canarySaved
  params : t.mgt.mbxParams = s.mgt.mbxParams
  resp : t.mgt.mbxResp = s.mgt.mbxResp

/-- A change after which the memories are canonical if they were before. -/
def KeepsCanon (s t : State) : Prop := Canon s → Canon t

section
variable {s t u : State}

theorem Canon.same (h : Canon s) (hst : SameMemories s t) : Canon t := by
  unfold Canon State.memWf at h ⊢
  rw [hst.hbm, hst.cores, hst.panels, hst.saved, hst.params, hst.resp]
  exact h

/-- A change beside the memories: none of them moved, as `rfl` sees. -/
theorem Canon.side (h : Canon s) (hst : (t.hbm.mem, t.cores, t.cmd.panels, t.rel.canarySaved, t.mgt.mbxParams, t.mgt.mbxResp) =
    (s.hbm.mem, s.cores, s.cmd.panels, s.rel.canarySaved, s.mgt.mbxParams, s.mgt.mbxResp)) : Canon t := by
  simp only [Prod.mk.injEq] at hst
  obtain ⟨hhbm, hcores, hpanels, hsaved, hparams, hresp⟩ := hst
  exact h.same ⟨hhbm, hcores, hpanels, hsaved, hparams, hresp⟩

theorem Canon.hbmOnly (h : Canon s) (hst : HbmOnly s t) : Canon t := hst.memWf h

theorem Canon.ite {c : Prop} [Decidable c] (h : Canon t) (k : Canon u) : Canon (if c then t else u) := by
  split
  · exact h
  · exact k

theorem Canon.iteAns {α : Type} {c : Prop} [Decidable c] {x y : α × State} (h : Canon x.2) (k : Canon y.2) : Canon (if c then x else y).2 := by
  split
  · exact h
  · exact k

/-- A state beside an answer. -/
theorem Canon.beside {α : Type} {a : α} (h : Canon s) : Canon (a, s).2 := h

/-- A state beside two answers. -/
theorem Canon.besideTwo {α β : Type} {a : α} {b : β} (h : Canon s) : Canon (a, b, s).2.2 := h

/-- An answer under the name of a `let`: the kernel compares the answers once, as a whole, and
does not compute their second component. -/
theorem Canon.snd_of {α : Type} {q : α × State} (h : Canon q.2) (a : α × State) (ha : a = q) : Canon a.2 := ha ▸ h

/-- A fold of steps that each keep the form. -/
theorem Canon.foldl {α : Type} {g : State → α → State} (h : Canon s) (hg : ∀ t a, Canon t → Canon (g t a)) (l : List α) : Canon (l.foldl g s) :=
  List.foldlRecOn (motive := Canon) l g h fun t ht a _ => hg t a ht

/-- The same for a fold that carries an answer before the state. -/
theorem Canon.foldl_snd {α β : Type} {g : β × State → α → β × State} {a : β × State} (h : Canon a.2)
    (hg : ∀ b x, Canon b.2 → Canon (g b x).2) (l : List α) : Canon (l.foldl g a).2 :=
  List.foldlRecOn (motive := fun b : β × State => Canon b.2) l g h fun b hb x _ => hg b x hb

/-- An answer whose state is in canonical form. Under this name the kernel compares two answers as
wholes and does not compute their second component. -/
def CanonAns {α : Type} (a : α × State) : Prop := Canon a.2

theorem Canon.ans {α : Type} {a : α} (h : Canon s) : CanonAns (a, s) := h

theorem CanonAns.ite {α : Type} {c : Prop} [Decidable c] {a b : α × State} (h : CanonAns a) (k : CanonAns b) : CanonAns (if c then a else b) := by
  split
  · exact h
  · exact k

theorem CanonAns.foldl {α β : Type} {g : β × State → α → β × State} {a : β × State} (h : CanonAns a)
    (hg : ∀ b x, CanonAns b → CanonAns (g b x)) (l : List α) : CanonAns (l.foldl g a) :=
  List.foldlRecOn (motive := CanonAns) l g h fun b hb x _ => hg b x hb

theorem CanonNext.next (h : Canon s) : CanonNext (.next s) := fun _ ht => (Host.Outcome.next.inj ht) ▸ h

theorem CanonNext.ite {c : Prop} [Decidable c] {a b : Answer} (h : CanonNext a) (k : CanonNext b) : CanonNext (if c then a else b) := by
  split
  · exact h
  · exact k

/-! ### Cores and panels -/

theorem Canon.core (h : Canon s) (p : Nat) : Mem.wf (s.core p).slice.mem = true := State.memWf_core h p

/-- A change of a core that keeps its slice's form. -/
theorem Canon.modCore (h : Canon s) (p : Nat) {f : Core → Core} (hf : ∀ c, Mem.wf c.slice.mem = true → Mem.wf (f c).slice.mem = true) :
    Canon (s.modCore p f) := State.memWf_modCore h p (hf _ (h.core p))

/-- A change of a core beside its slice's memory. -/
theorem Canon.modCoreSame (h : Canon s) (p : Nat) {f : Core → Core} (hf : ∀ c, (f c).slice.mem = c.slice.mem) : Canon (s.modCore p f) :=
  h.modCore p fun c hc => by rwa [hf]

theorem Canon.modSeq (h : Canon s) (p : Nat) (f : Sequencer → Sequencer) : Canon (s.modSeq p f) := State.memWf_modSeq h p f

theorem Canon.modSlice (h : Canon s) (p : Nat) {f : Slice → Slice} (hf : ∀ sl, Mem.wf sl.mem = true → Mem.wf (f sl).mem = true) :
    Canon (s.modSlice p f) := State.memWf_modSlice h p hf

theorem Canon.modSliceSame (h : Canon s) (p : Nat) {f : Slice → Slice} (hf : ∀ sl, (f sl).mem = sl.mem) : Canon (s.modSlice p f) :=
  h.modSlice p fun sl hsl => by rwa [hf]

/-- A change of a panel that keeps, or drops, what switches saved on it. -/
theorem Canon.modPanel (h : Canon s) (k : Nat) {f : Panel → Panel} (hf : ∀ pn, ∀ v ∈ (f pn).switched, v ∈ pn.switched) :
    Canon (s.modPanel k f) := State.memWf_modPanel h k fun pn _ hv => .inl (hf pn _ hv)

/-- A change of a panel beside what switches saved on it. -/
theorem Canon.modPanelSame (h : Canon s) (k : Nat) {f : Panel → Panel} (hf : ∀ pn, (f pn).switched = pn.switched) :
    Canon (s.modPanel k f) :=
  h.modPanel k fun pn _ hv => hf pn ▸ hv

/-- What the switched-out steps of a panel saved is canonical. -/
def Panel.Canon (pn : Panel) : Prop := ∀ v ∈ pn.switched, ∀ x ∈ v.cores, Mem.wf x.slice.mem = true

theorem Canon.panel (h : Canon s) (k : Nat) : (s.panel k).Canon := by
  obtain ⟨-, -, hpanels, -⟩ := (State.memWf_iff s).1 h
  unfold State.panel Tab.get
  cases hfind : Tab.find s.cmd.panels k with
  | none => exact fun v hv => absurd hv List.not_mem_nil
  | some pn => exact hpanels (k, pn) (Tab.mem_of_find hfind)

/-- A change of a panel that keeps the form of what switches saved on it. -/
theorem Canon.modPanelCanon (h : Canon s) (k : Nat) {f : Panel → Panel} (hf : ∀ pn, pn.Canon → (f pn).Canon) : Canon (s.modPanel k f) := by
  obtain ⟨hhbm, hcores, hpanels, hrest⟩ := (State.memWf_iff s).1 h
  refine (State.memWf_iff _).2 ⟨hhbm, hcores, fun e he => ?_, hrest⟩
  rcases Tab.mem_set he with rfl | hold
  · exact hf _ (h.panel k)
  · exact hpanels e hold

/-- A change of every panel that keeps the form of what switches saved. -/
theorem Canon.mapPanels (h : Canon s) {f : Panel → Panel} (hf : ∀ pn, pn.Canon → (f pn).Canon) :
    Canon { s with cmd := { s.cmd with panels := s.cmd.panels.map fun e => (e.1, f e.2) } } := by
  obtain ⟨hhbm, hcores, hpanels, hrest⟩ := (State.memWf_iff s).1 h
  refine (State.memWf_iff _).2 ⟨hhbm, hcores, fun e he => ?_, hrest⟩
  obtain ⟨x, hx, rfl⟩ := List.mem_map.mp he
  exact hf x.2 (hpanels x hx)

/-! ### Counters, events, charges and tables that hold no memory -/

theorem Canon.count (h : Canon s) (off n : Nat) : Canon (s.count off n) := h
theorem Canon.event (h : Canon s) (code : Nat) : Canon (s.event code) := h
theorem Canon.emit (h : Canon s) (o : Out) : Canon (s.emit o) := h
theorem Canon.charge (h : Canon s) (c off n : Nat) : Canon (s.charge c off n) := h
theorem Canon.modCtx (h : Canon s) (c : Nat) (f : Ctx → Ctx) : Canon (s.modCtx c f) := h
theorem Canon.modWindow (h : Canon s) (k : Nat) (f : Window → Window) : Canon (s.modWindow k f) := h
theorem Canon.modSlot (h : Canon s) (i : Nat) (f : KeySlot → KeySlot) : Canon (s.modSlot i f) := h
theorem Canon.modPort (h : Canon s) (p : Nat) (f : Port → Port) : Canon (s.modPort p f) := h
theorem Canon.modSelector (h : Canon s) (k : Nat) (f : Selector → Selector) : Canon (s.modSelector k f) := h
theorem Canon.drawBytes (h : Canon s) (n : Nat) : Canon (s.drawBytes n).2 := h
theorem Canon.drawWords (h : Canon s) (n : Nat) : Canon (s.drawWords n).2 := h

theorem Canon.msix (h : Canon s) (fn vector : Nat) : Canon (s.msix fn vector) := (Canon.emit h _).ite h

theorem Canon.tick (h : Canon s) : Canon s.tick := Canon.ite (t := { s with clk := s.clk.tick }) h h

theorem Canon.eventPerMs (h : Canon s) (code : Nat) : Canon (s.eventPerMs code) := by
  unfold State.eventPerMs
  dsimp only
  split
  · split <;> exact h
  · exact h

theorem Canon.wakeModule (h : Canon s) : Canon s.wakeModule := h.ite (h.side rfl)

theorem Canon.wakePanel (h : Canon s) (k : Nat) : Canon (s.wakePanel k) := by
  have hqueued : ∀ c : Bool, Canon (if c then { s with gov := { s.gov with waking := s.gov.waking ++ [k] } } else s) := fun _ => .ite (h.side rfl) h
  exact ((hqueued _).foldl (fun _ p ht => (ht.modCoreSame p fun _ => by rfl)) _).wakeModule

/-- The records of freezes with one more, or with the overflow noted. -/
theorem Canon.postFreeze (h : Canon s) (sub master code : Nat) (cx : Option (Nat × BitVec 8)) : Canon (s.postFreeze sub master code cx) := by
  unfold State.postFreeze
  extract_lets rec' rel s' ev rel' s1
  have hrecord : Canon s1 := Canon.ite (h.side rfl) (Canon.ite (h.count _ _) (h.side rfl))
  split
  · exact hrecord.modCtx _ _
  · exact hrecord

theorem Canon.freezeCore (h : Canon s) (p code : Nat) : Canon (s.freezeCore p code) := (h.modSeq p _).postFreeze _ _ _ _

theorem Canon.freezeSeq (h : Canon s) (p code : Nat) : Canon (s.freezeSeq p code) := (h.freezeCore p code).modSeq p _

theorem Canon.progress (h : Canon s) (p : Nat) : Canon (s.progress p) := by
  unfold State.progress
  split
  · exact h.modPanelSame _ fun _ => rfl
  · exact h

theorem Canon.pfLocked (h : Canon s) (off : Nat) : Canon (s.pfLocked off) :=
  Canon.same (Canon.postFreeze (s := { s.event 1 with mgt := { (s.event 1).mgt with
    lockedOffset := off, lockedWriter := 0, lockedOpcode := 0, lockedValid := true } }) h 11 0 0x5820 none) ⟨rfl, rfl, rfl, rfl, rfl, rfl⟩

theorem Slice.wf_allOff (sl : Slice) : Mem.wf sl.allOff.mem = true := Mem.wf_nil

theorem Panel.switched_replaceCore (pn : Panel) (p : Nat) (spare : Option Nat) : (pn.replaceCore p spare).switched = pn.switched := by
  unfold Panel.replaceCore
  split <;> rfl

theorem Core.wf_letGo (c : Core) : Mem.wf c.letGo.slice.mem = true := Mem.wf_nil

theorem Canon.retireCore (h : Canon s) (p : Nat) : Canon (s.retireCore p) := by
  unfold State.retireCore
  refine h.ite ?_
  extract_lets rel s1 running s2 spare cmd s3
  have hretired : Canon s2 := by
    refine Canon.modCore (s := s1) (h.side rfl) p fun c hc => ?_
    split
    · exact hc
    · exact Core.wf_letGo _
  have hspare : Canon s3 := hretired.mapPanels (f := fun pn => pn.replaceCore p spare) fun pn hpn v hv =>
    hpn v (pn.switched_replaceCore p spare ▸ hv)
  exact hspare.side rfl

theorem CanonNext.hostTo (h : Canon s) {i : Instr} {islands : List Nat} {f : State → Answer} (hf : CanonNext (f s)) :
    CanonNext (s.hostTo i islands f) := by
  have hdefer : CanonNext (.next (s.deferHost i)) := .next h
  exact .ite hdefer (.ite hf hdefer)

theorem Canon.noteReads (h : Canon s) (p : Nat) (rs : List (Nat × Nat)) : Canon (s.noteReads p rs) := h.ite (h.count _ _)

theorem Canon.noteBad (h : Canon s) (p w : Nat) : Canon (s.noteBad p w) := ((h.modSliceSame p fun _ => by rfl).count _ _).event _

theorem Canon.noteRefused (h : Canon s) (p : Nat) : Canon (s.noteRefused p) := h

theorem Canon.noteSecure (h : Canon s) (p : Nat) : Canon (s.noteSecure p) := h

theorem Canon.raiseCtr (h : Canon s) (p : Nat) (c : BitVec 8) : Canon (s.raiseCtr p c) := State.memWf_raiseCtr h p c

theorem Canon.signal (h : Canon s) (x : InsnHdr) : Canon (s.signal x) := State.memWf_signal h x

theorem Canon.canaryLead (h : Canon s) (p : Nat) : Canon (s.canaryLead p) := h.side rfl

theorem Canon.setArrival (h : Canon s) (p : Nat) (c : BitVec 8) (v : Half) : Canon (s.setArrival p c v) := h.modCoreSame p fun _ => rfl

/-! ### HBM: reads, writes and the operations of a frame (09) -/

theorem Canon.hbmRead (h : Canon s) (off n : Nat) (r : HReq) : Canon (s.hbmRead off n r).2 := h.hbmOnly (s.hbmRead_only off n r)
theorem Canon.hbmReadWord (h : Canon s) (w : Nat) (r : HReq) : Canon (s.hbmReadWord w r).2 := h.hbmOnly (s.hbmReadWord_only w r)
theorem Canon.hbmWrite (h : Canon s) (off : Nat) (bs : List Byte) (r : HReq) : Canon (s.hbmWrite off bs r) := h.hbmOnly (s.hbmWrite_only off bs r)
theorem Canon.zeroFrame (h : Canon s) (f material : Nat) : Canon (s.zeroFrame f material) := h.hbmOnly (s.zeroFrame_only f material)
theorem Canon.poisonFrame (h : Canon s) (f : Nat) (demand : Bool) : Canon (s.poisonFrame f demand) := h.hbmOnly (s.poisonFrame_only f demand)
theorem Canon.poisonOnly (h : Canon s) (f : Nat) (demand : Bool) : Canon (s.poisonOnly f demand) := h.hbmOnly (s.poisonOnly_only f demand)
theorem Canon.remapFrame (h : Canon s) (f : Nat) : Canon (s.remapFrame f) := h.hbmOnly (s.remapFrame_only f)
theorem Canon.mscAccess (h : Canon s) (off : Nat) (r : HReq) (write full : Bool) : Canon (s.mscAccess off r write full) :=
  h.hbmOnly (s.mscAccess_only off r write full)
theorem Canon.mscDrop (h : Canon s) (line : Nat) (back : Bool) : Canon (s.mscDrop line back) := h.hbmOnly (s.mscDrop_only line back)
theorem Canon.mscDropAll (h : Canon s) (p : Nat → MscLine → Bool) : Canon (s.mscDropAll p) := h.hbmOnly (s.mscDropAll_only p)
theorem Canon.dramTouch (h : Canon s) (st : Nat) (write full : Bool) : Canon (s.dramTouch st write full) := h.hbmOnly (s.dramTouch_only st write full)

theorem Canon.mscClean (h : Canon s) (slot : Nat) : Canon (s.mscClean slot) := h.foldl (fun _ _ ht => ht.side (by rfl)) _

theorem canon_execFrameRetire (h : Canon s) (frame : Nat) : CanonNext (execFrameRetire frame s) := by
  have hpoisoned : Canon (if s.isPoisoned frame then s else s.poisonOnly frame false) := h.ite (h.poisonOnly frame false)
  exact .ite (.next h) (.ite (.next (h.remapFrame frame)) (.next (hpoisoned.side rfl)))

/-! ### Command windows (12) -/

theorem Canon.noteFull (h : Canon s) (k : Nat) : Canon (s.noteFull k) := ((h.event _).modWindow k _).ite h

theorem Canon.writeItem (h : Canon s) (k : Nat) (i : CqItem) : Canon (s.writeItem k i) := by
  unfold State.writeItem
  dsimp only
  refine Canon.noteFull (.ite (.msix ?_ _ _) ?_) k <;> (split <;> exact h)

theorem Canon.putItem (h : Canon s) (k : Nat) (i : CqItem) : Canon (s.putItem k i) := (h.writeItem k i).ite (h.modWindow k _)

theorem Canon.drainHeld (h : Canon s) (k : Nat) (items : List CqItem) : Canon (s.drainHeld k items) := by
  induction items generalizing s with
  | nil => exact h
  | cons i rest ih => exact h.ite (ih ((h.modWindow k _).writeItem k i))

theorem Canon.ringError (h : Canon s) (k : Nat) (status : Half) (service : Bool) : Canon (s.ringError k status service) :=
  (((h.modWindow k _).putItem k _).event _).count _ _

theorem Canon.endPacket (h : Canon s) (k : Nat) (service : Bool) (p : Packet) (status : Half) (done : Nat) :
    Canon (s.endPacket k service p status done) := (h.modWindow k _).putItem k _

theorem Canon.unboundDb (h : Canon s) (k : Nat) : Canon (s.unboundDb k) := h.ite ((h.event _).modWindow k _)

theorem Canon.ringDb (h : Canon s) (k : Nat) (service : Bool) (tail : Nat) : Canon (s.ringDb k service tail) :=
  .ite (h.ringError k _ service) (h.modWindow k _)

theorem Canon.submitDb (h : Canon s) (fn w : Nat) (service : Bool) (v : W32) : Canon (s.submitDb fn w service v) :=
  h.ite ((h.unboundDb _).ite (h.ite ((h.ringDb _ _ _).wakePanel _)))

theorem Canon.takeHead (h : Canon s) (k head : Nat) : Canon (s.takeHead k head) :=
  (((h.modWindow k _).modWindow k _).drainHeld k _).noteFull k

theorem Canon.postHint (h : Canon s) (k : Nat) (x : Hint) : Canon (s.postHint k x) := h.side rfl

theorem Canon.startPacket (h : Canon s) (k : Nat) (service : Bool) (p : Packet) (c : Nat) : Canon (s.startPacket k service p c) := by
  have hnext := (h.modWindow k fun w => if service then { w with svcPkt := some p } else { w with stepPkt := some p }).modPanelSame
    (s.ctx c).f.panel.toNat (f := fun pan => { pan with nextEvent := (p.nextEvent.getD 0).toNat }) fun _ => by rfl
  exact hnext.ite hnext

theorem Canon.takePacket (h : Canon s) (k : Nat) (service : Bool) (bs : List Byte) : Canon (s.takePacket k service bs) :=
  (h.ringError k _ service).ite ((h.modWindow k _).ite
    (.ite (((h.modWindow k _).count _ _).endPacket k service _ _ _) (((h.modWindow k _).count _ _).startPacket k service _ _)))

theorem canon_execCmdStepDb (h : Canon s) (fn w : Nat) (v : W32) : CanonNext (execCmdStepDb fn w v s) :=
  .hostTo h (.next (h.submitDb fn w false v))

theorem canon_execCmdSvcDb (h : Canon s) (fn w : Nat) (v : W32) : CanonNext (execCmdSvcDb fn w v s) :=
  .hostTo h (.next (h.submitDb fn w true v))

theorem canon_execCmdCqDb (h : Canon s) (fn w : Nat) (v : W32) : CanonNext (execCmdCqDb fn w v s) :=
  .hostTo h (.ite (.next h) (.ite (.next (h.unboundDb _)) (.ite (.next h) (.next (h.takeHead _ _)))))

theorem canon_execCmdRingCtrlWrite (h : Canon s) (fn w : Nat) (v : W32) : CanonNext (execCmdRingCtrlWrite fn w v s) :=
  .hostTo h (.ite (.next h) (.ite (.ite (.next (((h.modWindow _ _).drainHeld _ _).noteFull _)) (.next h)) (.next h)))

theorem canon_execCmdRingCfgWrite (h : Canon s) (fn w off : Nat) (v : W64) : CanonNext (execCmdRingCfgWrite fn w off v s) :=
  .hostTo h (.ite (.next h) (.ite (.next h) (.next h)))

theorem canon_execPacketFetch (h : Canon s) (fn w : Nat) (service : Bool) (read : HostRead) : CanonNext (execPacketFetch fn w service read s) := by
  refine .ite (.next h) ?_
  split
  · exact .next (h.ringError _ _ _)
  · exact .next (h.takePacket _ _ _)

theorem canon_execStepMark (h : Canon s) (fn w : Nat) : CanonNext (execStepMark fn w s) := by
  unfold execStepMark
  dsimp only
  split
  · exact .ite (.next (h.endPacket _ _ _ _ _)) (.next h)
  · exact .next h

theorem canon_execSvcFence (h : Canon s) (fn w : Nat) : CanonNext (execSvcFence fn w s) := by
  unfold execSvcFence
  dsimp only
  split
  · exact .ite (.next h) (.ite (.next (h.endPacket _ _ _ _ _)) (.ite (.next (h.endPacket _ _ _ _ _)) (.next h)))
  · exact .next h

theorem Canon.mbxReply (h : Canon s) (st : Half) (data : List Byte) : Canon (s.mbxReply st data) := State.memWf_mbxReply h st data

end

/-- Whatever reads and writes memory or sends messages keeps the form. -/
theorem keepsCanon_closed : SendClosed KeepsCanon where
  refl _ h := h
  trans h k hs := k (h hs)
  hbm h hs := hs.hbmOnly h
  emit _ _ h := h
  charge _ _ _ _ h := h
  tokens s k side n h := Canon.modPanelSame h k fun _ => by rfl
  queues _ _ _ _ _ _ _ h := h
  transfers _ _ _ h := h
  slice s p f hf h := Canon.modSliceSame h p hf
  launch s h data port _ hs := hs.same (by
    have heq := (s.launch_portsOnly h data port).eq
    refine ⟨?_, ?_, ?_, ?_, ?_, ?_⟩ <;> rw [heq])

end Sys2Proof.Machine
end

section
/-! PROOFS. The canonical form of the memories: ports, shapers, slices, power states, the mesh and the sequencers (03, 06, 13 to 15). -/

namespace Sys2Proof.Machine

section
variable {s t : State}

/-! ### Ports (14 R359 to R362) -/

theorem Canon.putFrame (h : Canon s) (port : Nat) (f : LinkFrame) : Canon (s.putFrame port f) := (h.emit _).count _ _

theorem Canon.putIdle (h : Canon s) (port : Nat) (nak : Bool) : Canon (s.putIdle port nak) := by
  unfold State.putIdle
  dsimp only
  split
  · exact (h.modPort _ _).putFrame _ _
  · exact h.putFrame _ _

theorem Canon.returnCredits (h : Canon s) (fuel port : Nat) : Canon (State.returnCredits fuel port s) := by
  induction fuel generalizing s with
  | zero => exact h
  | succ n ih => exact (ih (h.putIdle port false)).ite h

theorem Canon.putSequenced (h : Canon s) (port : Nat) (f : LinkFrame) : Canon (s.putSequenced port f) := (h.modPort _ _).putFrame _ _

theorem Canon.pumpPort (h : Canon s) (fuel port : Nat) : Canon (State.pumpPort fuel port s) := by
  induction fuel generalizing s with
  | zero => exact h
  | succ n ih =>
    unfold State.pumpPort
    dsimp only
    split
    · exact h
    · exact h.ite (ih (((h.drawBytes _).modPort _ _).putSequenced _ _))

theorem Canon.portBytes (h : Canon s) (port vc lane : Nat) (own : Option LinkShare) (bs : List Byte) :
    Canon (s.portBytes port vc lane own bs) := (h.modPort _ _).pumpPort _ _

theorem Canon.replayAll (h : Canon s) (port : Nat) : Canon (s.replayAll port) :=
  h.ite ((Canon.foldl (h.modPort _ _) (fun _ _ ht => ht.putFrame _ _) _).count _ _)

theorem Canon.takeAck (h : Canon s) (port : Nat) (f : LinkFrame) : Canon (s.takeAck port f) := h.modPort _ _

theorem Canon.goOn (h : Canon s) (port : Nat) (nak : Bool) : Canon (s.goOn port nak) := ((h.replayAll port).ite h).pumpPort _ _

theorem Canon.discipline (h : Canon s) : Canon s.discipline := h.side rfl

theorem canon_execTimeFrameTx (h : Canon s) (port : Nat) : CanonNext (execTimeFrameTx port s) := .ite (.next (h.putSequenced _ _)) (.next h)

theorem Canon.putIdentity (h : Canon s) (port : Nat) (id : LinkIdentity) : Canon (s.putIdentity port id) := (h.emit _).putSequenced _ _

/-! ### Class 0 and the need of a grant (13, 15) -/

theorem Canon.evalAdmission (h : Canon s) (k : Nat) : Canon (s.evalAdmission k) := by
  unfold State.evalAdmission
  extract_lets now was d i p g f s1 s2
  have hset : Canon s1 := h.modPanelSame k fun _ => rfl
  refine .ite ?_ hset
  split
  · exact ((hset.event _).count _ _).charge _ _ _
  · exact (hset.event _).count _ _

theorem canon_execC0AdmissionLapse (h : Canon s) (k : Nat) : CanonNext (execC0AdmissionLapse k s) := .ite (.next (h.evalAdmission k)) (.next h)

theorem canon_execC0AdmissionReturn (h : Canon s) (k : Nat) : CanonNext (execC0AdmissionReturn k s) := .ite (.next (h.evalAdmission k)) (.next h)

theorem Canon.takeTokens (h : Canon s) (k side n : Nat) : Canon (s.takeTokens k side n) := h.modPanelSame k fun _ => rfl

theorem canon_execDeclaredWindowEnd (h : Canon s) (k : Nat) : CanonNext (execDeclaredWindowEnd k s) := by
  unfold execDeclaredWindowEnd
  dsimp only
  split
  · exact .ite (.next ((h.modPanelSame k fun _ => by rfl).foldl (fun _ p ht => (ht.modSliceSame p fun _ => by rfl)) _)) (.next h)
  · exact .next h

theorem Canon.takeRise (h : Canon s) (w : Nat) : Canon (s.takeRise w) := h.ite (h.side (by rfl))

theorem Canon.sendRequest (h : Canon s) : Canon s.sendRequest := by
  unfold State.sendRequest
  split
  · exact h
  · exact h.ite (h.side (by rfl))

theorem Canon.waitGrant (h : Canon s) (key w : Nat) : Canon (s.waitGrant key w) :=
  Canon.sendRequest (s := { s with gov := { s.gov with waiting := s.gov.waiting ++ [(key, w)] } }) (h.side (by rfl))

theorem Canon.dropNeed (h : Canon s) (key : Nat) : Canon (s.dropNeed key) := by
  unfold State.dropNeed
  exact Canon.sendRequest (Canon.side h (by rfl))

/-! ### Slices: the tiles (06 R166, R167) -/

theorem Slice.mem_startTile (sl : Slice) (t want : Nat) : (sl.startTile t want).mem = sl.mem := by
  unfold Slice.startTile
  split
  · rfl
  · dsimp only
    split_ifs <;> rfl

theorem Slice.mem_retarget (sl : Slice) : sl.retarget.mem = sl.mem :=
  List.foldlRecOn (motive := fun x : Slice => x.mem = sl.mem) _ _ rfl fun x hx t _ => (x.mem_startTile t _).trans hx

theorem Slice.wf_reach {sl : Slice} (h : Mem.wf sl.mem = true) (t : Nat) : Mem.wf (sl.reach t).mem = true := by
  unfold Slice.reach
  split
  · dsimp only
    split
    · exact Mem.wf_zeroRange _ _ _ h
    · exact h
  · exact h

theorem Slice.wf_enterC2 {sl : Slice} (h : Mem.wf sl.mem = true) : Mem.wf sl.enterC2.mem = true := by
  have hparked (on : List Nat) : Mem.wf (on.foldl Slice.reach sl).mem = true :=
    List.foldlRecOn (motive := fun x : Slice => Mem.wf x.mem = true) _ _ h fun _ hx t _ => Slice.wf_reach hx t
  exact hparked _

theorem Slice.mem_leaveC2 (sl : Slice) : sl.leaveC2.mem = sl.mem := by
  unfold Slice.leaveC2
  exact Slice.mem_retarget _

theorem Slice.mem_leaveC3 (sl : Slice) : sl.leaveC3.mem = sl.mem := by
  unfold Slice.leaveC3
  dsimp only

theorem Slice.mem_found (sl : Slice) (fs : Finds) : (sl.found fs).mem = sl.mem := by
  refine List.foldlRecOn (motive := fun x : Slice => x.mem = sl.mem) _ _ rfl fun x hx f _ => ?_
  split_ifs <;> exact hx

theorem Slice.mem_skipTiles (fuel : Nat) (sl : Slice) : (Slice.skipTiles fuel sl).mem = sl.mem := by
  induction fuel generalizing sl with
  | zero => rfl
  | succ n ih =>
    unfold Slice.skipTiles
    split
    · rfl
    · exact ih _

theorem Slice.wf_when {c : Prop} [Decidable c] {x y : Slice} (h : Mem.wf x.mem = true) (k : Mem.wf y.mem = true) :
    Mem.wf (if c then x else y).mem = true := by
  split
  · exact h
  · exact k

theorem Core.wf_applyState {c : Core} (h : Mem.wf c.slice.mem = true) (t : Nat) : Mem.wf (c.applyState t).slice.mem = true := by
  unfold Core.applyState
  extract_lets out sl
  have hleft2 : Mem.wf c.slice.leaveC2.mem = true := c.slice.mem_leaveC2.symm ▸ h
  have hleft3 : Mem.wf c.slice.leaveC3.mem = true := c.slice.mem_leaveC3.symm ▸ h
  have hout : Mem.wf out.mem = true := by
    unfold out
    split_ifs
    · exact h
    · exact hleft3
    · exact hleft2
    · exact h
  clear_value out
  have hentered : Mem.wf out.enterC2.mem = true := Slice.wf_enterC2 hout
  unfold sl
  dsimp only
  split_ifs
  · exact Mem.wf_nil
  · exact hentered
  · exact hout

/-! ### Slices: packets, port B and the row test (06) -/

theorem canon_execTileStateReached (h : Canon s) (p tile : Nat) : CanonNext (execTileStateReached p tile s) := by
  unfold execTileStateReached
  refine .ite ?_ (.next h)
  split
  · have hreach : Mem.wf ((s.core p).slice.reach tile).mem = true := Slice.wf_reach (h.core p) tile
    exact .next (h.modSlice p fun _ _ => Slice.wf_when ((Slice.mem_retarget _).symm ▸ hreach) hreach)
  · exact .next h

theorem canon_execSpmTileMaskWrite (h : Canon s) (p : Nat) (ret : Bool) (v : W32) : CanonNext (execSpmTileMaskWrite p ret v s) := by
  refine .hostTo h (.ite (.next h) (.ite (.next (h.modSlice p fun sl hsl => ?_)) (.next (h.event _))))
  have hmask : Mem.wf (if ret then { sl with tileRet := v } else { sl with tileOn := v }).mem = true := Slice.wf_when hsl hsl
  exact Slice.wf_when ((Slice.mem_retarget _).symm ▸ hmask) hmask

/-- A change of the contents of a slice, and of what a canary window saved of it. -/
theorem Canon.modContents (h : Canon s) (p : Nat) {f : Slice → Slice} (hf : ∀ sl, Mem.wf sl.mem = true → Mem.wf (f sl).mem = true) :
    Canon (s.modContents p f) := by
  have hslice := h.modSlice p hf
  refine .ite ?_ hslice
  obtain ⟨hhbm, hcores, hpanels, hsaved, hrest⟩ := (State.memWf_iff _).1 hslice
  refine (State.memWf_iff _).2 ⟨hhbm, hcores, hpanels, fun sl hsl => ?_, hrest⟩
  obtain ⟨x, hx, rfl⟩ := Option.mem_map.mp hsl
  exact hf x (hsaved x hx)

theorem Canon.noteDropped (h : Canon s) (p : Nat) : Canon (s.noteDropped p) := (h.count _ _).ite (((h.count _ _).event _).modSliceSame p fun _ => by rfl)

theorem Canon.deliver (h : Canon s) (p : Nat) (k : WritePkt) : Canon (s.deliver p k).2 := by
  have hwritten : Canon (s.modSlice p fun sl => sl.write k.addr k.data) := h.modSlice p fun sl hsl => sl.wf_write _ _ hsl
  exact .iteAns (h.noteDropped p) (.iteAns (h.noteSecure p) (.iteAns (h.noteRefused p) ((hwritten.raiseCtr _ _).ite hwritten)))

theorem Canon.incoming (h : Canon s) (p : Nat) (k : WritePkt) (collided : Bool) : Canon (s.incoming p k collided) := (h.deliver p k).emit _

theorem Canon.meetWord (h : Canon s) (p : Nat) (b : PortB) (a : PortA) : Canon (s.meetWord p b a) :=
  h.ite ((Canon.modSliceSame ((h.count _ _).ite h) p fun _ => by rfl).count _ _)

theorem Canon.portBRead (h : Canon s) (p off n : Nat) : Canon (s.portBRead p off n).2 := .iteAns h ((h.drawBytes n).modSliceSame p fun _ => by rfl)

theorem Canon.portBAccess (h : Canon s) (p : Nat) (b : PortB) : Canon (s.portBAccess p b) :=
  .ite (h.noteSecure p) (.ite (h.noteRefused p) (.ite (h.modSlice p fun sl hsl => sl.wf_write _ _ hsl)
    (.ite (h.noteBad p _) (h.noteReads p _))))

theorem canon_execPortBDeferStart (h : Canon s) (p : Nat) (b : PortB) (waited : Nat) (meets : Option PortA) :
    CanonNext (execPortBDeferStart p b waited meets s) := by
  have hserved := ((h.count (sliceReg p 0x108) waited).modSliceSame p
    (f := fun sl => { sl with starved := sl.starved.filter (fun i => decide (i ≠ b.id)) }) fun _ => by rfl).portBAccess p b
  refine .ite (.next h) ?_
  cases meets with
  | none => exact .next hserved
  | some a => exact .next ((hserved.meetWord p b a).ite hserved)

theorem canon_execPortBStarve (h : Canon s) (w : BWait) : CanonNext (execPortBStarve w s) := .ite (.next h) (.next ((h.event _).modSliceSame _ fun _ => by rfl))

theorem Canon.failWord (h : Canon s) (p tile row col : Nat) : Canon (s.failWord p tile row col) :=
  .ite ((h.modSliceSame p fun _ => by rfl).event _) (((h.modSliceSame p fun _ => by rfl).event _).retireCore p)

theorem canon_execRowTest (h : Canon s) (p : Nat) (r : RowResult) : CanonNext (execRowTest p r s) := by
  unfold execRowTest
  extract_lets sl row weak tested s1 s2
  have hmem : Mem.wf sl.mem = true := (Slice.mem_skipTiles _ _).symm ▸ h.core p
  have htested : Canon s1 := by
    refine (Canon.modSlice h p ?_).count _ _
    exact fun _ _ => hmem
  have hcounted : Canon s2 := htested.ite (htested.count _ _)
  exact .ite (.next h) (.next (hcounted.foldl (fun _ c ht => ht.failWord p _ _ c) _))

theorem canon_execRowTestIntervalExpiry (h : Canon s) (p : Nat) : CanonNext (execRowTestIntervalExpiry p s) :=
  .ite (.next (h.modSliceSame p fun _ => by rfl)) (.next h)

theorem canon_execSeqCtrlWrite (h : Canon s) (p : Nat) (v : W32) : CanonNext (execSeqCtrlWrite p v s) :=
  .hostTo h (.ite (.next h) (.ite (.next (h.modSeq p _)) (.next (h.event _))))

theorem canon_execMxCtrlWrite (h : Canon s) (p : Nat) (v : W32) : CanonNext (execMxCtrlWrite p v s) :=
  .hostTo h (.ite (.next h) (.ite (.next (h.modCoreSame p fun _ => by rfl)) (.next (h.event _))))

/-! ### Power states (15 R402 to R407) -/

theorem Canon.denyState (h : Canon s) : Canon s.denyState := (h.count _ _).eventPerMs _

theorem Canon.pickState (h : Canon s) (k : Nat) (cs : List Nat) : Canon (s.pickState k cs).2 := by
  induction cs generalizing s with
  | nil => exact h
  | cons c rest ih => exact .iteAns (ih h) (.iteAns (ih h.denyState) h)

theorem Canon.askState (h : Canon s) (k c : Nat) : Canon (s.askState k c) := h.foldl (fun _ p ht => (ht.modCoreSame p fun _ => by rfl)) _

theorem Canon.chooseState (h : Canon s) (k : Nat) : Canon (s.chooseState k) := h.ite ((h.pickState k _).askState k _)

theorem canon_execCorePowerStateReached (h : Canon s) (p : Nat) : CanonNext (execCorePowerStateReached p s) := by
  unfold execCorePowerStateReached
  extract_lets c
  split
  · extract_lets s0 gov s1
    have hstate : Canon s0 := h.modCore p fun _ hc => Core.wf_applyState hc _
    have hwaking : Canon s1 := hstate.ite (hstate.side (by rfl))
    exact .ite (.next h) (.ite (.next h) (.next ((hwaking.modPanelSame _ fun _ => by rfl).ite hwaking)))
  · exact .next h

theorem Canon.askAtLeast (h : Canon s) (k c : Nat) : Canon (s.askAtLeast k c) := h.foldl (fun _ p ht => (ht.modCoreSame p fun _ => by rfl)) _

theorem Canon.chooseModule (h : Canon s) : Canon s.chooseModule := by
  unfold State.chooseModule
  extract_lets go gov park s1 idle
  have hgo (t : MState) (c : Nat) (u : State) (hu : Canon u) : Canon (go t c u) :=
    hu.ite (Canon.foldl (s := { u with gov := { u.gov with mTarget := some t } }) (hu.side (by rfl)) (fun _ k ht => ht.askAtLeast k c) _)
  have hdenied : Canon s1 := h.denyState.ite h
  exact .ite (h.ite (h.side (by rfl))) (.ite (hgo _ _ _ h) (.ite (hgo _ _ _ hdenied) (hdenied.denyState.ite hdenied)))

theorem canon_execModulePowerStateReached (h : Canon s) : CanonNext (execModulePowerStateReached s) := by
  unfold execModulePowerStateReached
  split
  · exact .next h
  · next t _ =>
    have hstate : Canon { s with gov := { s.gov with mState := t, mTarget := none } } := h.side rfl
    exact .ite (.next h) (.next ((hstate.foldl (fun _ l ht => ht.mscDrop l true) _).ite hstate))

/-! ### The mesh (05) -/

theorem Canon.setNetBuf (h : Canon s) (p cls : Nat) (l : List NetPkt) : Canon (s.setNetBuf p cls l) := h.side rfl
theorem Canon.setFifo (h : Canon s) (p : Nat) (l : List NetPkt) : Canon (s.setFifo p l) := h.side rfl

theorem Canon.netArrive (h : Canon s) (last : Nat) (n : NetPkt) : Canon (s.netArrive last n) :=
  .ite (h.incoming _ _ _) (.ite (h.setFifo _ _) (h.setNetBuf _ _ _))

theorem Canon.netGo (h : Canon s) (path : List Nat) (last : Nat) (n : NetPkt) : Canon (s.netGo path last n) := by
  induction path generalizing last with
  | nil => exact h.netArrive last n
  | cons p rest ih => exact .ite (ih p) (h.setNetBuf _ _ _)

theorem Canon.netSend (h : Canon s) (dst : Nat) (p : WritePkt) : Canon (s.netSend dst p) := h.netGo _ _ _

theorem Canon.commitIngress (h : Canon s) (p : Nat) : Canon (s.commitIngress p) :=
  Canon.foldl (h.modSliceSame p fun _ => by rfl) (fun _ k ht => ht.incoming p k false) _

theorem Canon.drainFifo (h : Canon s) (p : Nat) : Canon (s.drainFifo p) := (((h.modSliceSame p fun _ => by rfl).setFifo p _).commitIngress p).ite h

theorem Canon.drainBuf (h : Canon s) (n p cls : Nat) : Canon (s.drainBuf n p cls) := by
  induction n generalizing s with
  | zero => exact h
  | succ n ih =>
    unfold State.drainBuf
    split
    · exact h
    · exact (ih ((h.setNetBuf _ _ _).netGo _ _ _)).ite h

theorem Canon.netDrain (h : Canon s) (n : Nat) : Canon (s.netDrain n) := by
  induction n generalizing s with
  | zero => exact h
  | succ n ih =>
    have hfifos : Canon ((Tab.keys s.clk.fifos).foldl (fun s p => s.drainFifo p) s) := h.foldl (fun _ p ht => ht.drainFifo p) _
    exact h.ite (ih (hfifos.foldl (fun _ p ht => ht.foldl (fun _ cls hu => hu.drainBuf _ p cls) _) _))

theorem Canon.netResume (h : Canon s) : Canon s.netResume := h.netDrain _

theorem canon_execIncomingWritePacket (h : Canon s) (p : Nat) (k : TakenPkt) : CanonNext (execIncomingWritePacket p k s) :=
  .ite (.next (h.incoming _ _ _)) (.next h)

/-! ### Sequencers (03) -/

theorem Canon.leaveCheck (h : Canon s) (p pc : Nat) : Canon (s.leaveCheck p pc) := ((h.modSeq p _).freezeSeq p _).ite h

theorem canon_seqFinish (h : Canon s) (op : SeqOp) (x : InsnHdr) (o : SeqOps) : Canon (seqFinish op x o s) := by
  unfold seqFinish
  extract_lets p s1 s2
  have hcounter : Canon s1 := by
    unfold s1
    split
    · exact h.setArrival _ _ _
    · exact h
  have hafter : Canon s2 := hcounter.modSeq _ _
  exact (((hafter.ite (hafter.signal x)).count _ _).progress p).leaveCheck p _

theorem canon_seqProceed (h : Canon s) (op : SeqOp) (x : InsnHdr) (o : SeqOps) : Canon (seqProceed op x o s) :=
  .ite (h.modSeq _ _) (.ite (h.modSeq _ _) (canon_seqFinish h op x o))

theorem Canon.noteMismatch (h : Canon s) (p : Nat) : Canon (s.noteMismatch p) := by
  unfold State.noteMismatch
  extract_lets times s1 rel s2
  have hnoted : Canon s1 := h.modSeq p _
  have htimes : Canon s2 := hnoted.side rfl
  exact (htimes.retireCore p).ite htimes

theorem canon_seqDecode (h : Canon s) (op : SeqOp) (x : InsnHdr) (o : SeqOps) : Canon (seqDecode op x o s) := by
  unfold seqDecode
  dsimp only
  refine h.ite ?_
  split
  · exact canon_seqProceed (h.modSeq _ _) op x o
  · exact (h.noteMismatch _).freezeSeq _ _
  · exact h.freezeSeq _ _

theorem canon_engPush (h : Canon s) (e : Engine) (x : QEntry) : Canon (engPush e x s) :=
  .ite (h.modSeq _ _) (.ite (((h.modSeq _ _).noteMismatch _).freezeSeq _ _)
    ((((h.modSeq _ _).count _ _).progress _).leaveCheck _ _))

theorem canon_engDecodeAs (h : Canon s) (w : Insn) (e : Engine) (x : InsnHdr) (op : EngineOp) (ok : Bool) :
    Canon (engDecodeAs w e x op ok s) := by
  unfold engDecodeAs
  dsimp only
  refine h.ite ?_
  split
  · split
    · exact canon_engPush (h.modSeq _ _) e _
    · exact h
  · exact h.freezeSeq _ _

theorem canon_engDecode (h : Canon s) (e : Engine) (x : InsnHdr) (op : EngineOp) (ok : Bool) : Canon (engDecode e x op ok s) :=
  canon_engDecodeAs h _ e x op ok

theorem canon_execSeqStallResume (h : Canon s) (p : Nat) : CanonNext (execSeqStallResume p s) := by
  unfold execSeqStallResume
  refine .ite (.next h) ?_
  split
  · exact .next (canon_seqProceed h _ _ _)
  · exact .next (canon_seqProceed h _ _ _)
  · exact .next (canon_engPush h _ _)
  · exact .next h

theorem canon_execCoreHaltReport (h : Canon s) (p : Nat) : CanonNext (execCoreHaltReport p s) :=
  .ite (.next ((h.signal _).modCoreSame p fun _ => by rfl)) (.next h)

theorem canon_execFetchWordArrive (h : Canon s) (p : Nat) (word : FetchRead) : CanonNext (execFetchWordArrive p word s) := by
  unfold execFetchWordArrive
  extract_lets a st s0 sl mark free met w s1
  have hfound : Canon s0 := h.modSlice p fun sl hsl => (sl.mem_found _).symm ▸ hsl
  have htaken : Canon s1 := (Canon.modSliceSame ((hfound.drawBytes 64).ite hfound) p fun _ => by rfl).modSeq p _
  exact .ite (.next h) (.ite (.next (htaken.noteRefused p)) (.ite (.next (htaken.noteBad p _)) (.next (htaken.noteReads p _))))

theorem canon_execIllegalInstruction (h : Canon s) (p : Nat) (word : Insn) : CanonNext (execIllegalInstruction p word s) :=
  .ite (.next h) (.ite (.next (h.freezeSeq p _)) (.ite (.next h) (.next (h.freezeSeq p _))))

end

end Sys2Proof.Machine
end

section
/-! PROOFS. The canonical form of the memories: reads and writes for a context, and the stream units (07, 09 R246, 14). -/

namespace Sys2Proof.Machine

section
variable {s t : State}

/-! ### What a context sends, reads and writes -/

theorem Canon.shape (h : Canon s) (x : MsgHdr) (n : Nat) : Canon (s.shape x n) := keepsCanon_closed.shape s x n h
theorem Canon.sendOrWait (h : Canon s) (x : MsgHdr) (data : List Byte) (owner : Option (Nat × Nat)) (coll since : Option Nat) :
    Canon (s.sendOrWait x data owner coll since) := keepsCanon_closed.sendOrWait s x data owner coll since h
theorem Canon.pumpBacklog (h : Canon s) : Canon s.pumpBacklog := keepsCanon_closed.pumpBacklog s h
theorem Canon.resendMsg (h : Canon s) (m : SentMsg) : Canon (s.resendMsg m).2 := keepsCanon_closed.resendMsg s m h
theorem Canon.resendStream (h : Canon s) (k : Nat) : Canon (s.resendStream k) := keepsCanon_closed.resendStream s k h
theorem Canon.resendWhere (h : Canon s) (p : SentMsg → Bool) : Canon (s.resendWhere p) := keepsCanon_closed.resendWhere s p h
theorem Canon.failTransfer (h : Canon s) (c slot : Nat) (status : Half) : Canon (s.failTransfer c slot status) := h.side rfl
theorem Canon.peerRequest (h : Canon s) (c slot keySlot : Nat) (gen : BitVec 8) (write : Bool) (addr n : Nat) (data : List Byte) :
    Canon (s.peerRequest c slot keySlot gen write addr n data) := keepsCanon_closed.peerRequest s c slot keySlot gen write addr n data h
theorem Canon.askPeer (h : Canon s) (c keySlot addr : Nat) (write : Bool) (n : Nat) (data : List Byte) :
    Canon (s.askPeer c keySlot addr write n data) := keepsCanon_closed.askPeer s c keySlot addr write n data h
theorem Canon.readPte (h : Canon s) (u : Use) (table idx : Nat) : Canon (s.readPte u table idx).2 := keepsCanon_closed.readPte s u table idx h
theorem Canon.cachedPte (h : Canon s) (u : Use) (cached pin : Bool) (c level va table : Nat) :
    Canon (s.cachedPte u cached pin c level va table).2 := keepsCanon_closed.cachedPte s u cached pin c level va table h
theorem Canon.findLeaf (h : Canon s) (u : Use) (cached pin : Bool) (c root va : Nat) : Canon (s.findLeaf u cached pin c root va).2 :=
  keepsCanon_closed.findLeaf s u cached pin c root va h
theorem Canon.boardCount (h : Canon s) (u : Use) (c frame : Nat) : Canon (s.boardCount u c frame).2 := keepsCanon_closed.boardCount s u c frame h
theorem Canon.checkLeaf (h : Canon s) (u : Use) (c : Nat) (e : W64) (large : Bool) (tenant setMask : Nat) (write : Bool) :
    Canon (s.checkLeaf u c e large tenant setMask write).2 := keepsCanon_closed.checkLeaf s u c e large tenant setMask write h
theorem Canon.walk (h : Canon s) (u : Use) (pin : Bool) (c root tenant setMask va : Nat) (write : Bool) :
    Canon (s.walk u pin c root tenant setMask va write).2 := keepsCanon_closed.walk s u pin c root tenant setMask va write h
theorem Canon.walkBy (h : Canon s) (g : Agent) (c va : Nat) (write : Bool) : Canon (s.walkBy g c va write).2 :=
  keepsCanon_closed.walkBy s g c va write h
theorem Canon.walkOwn (h : Canon s) (c va : Nat) (write : Bool) : Canon (s.walkOwn c va write).2 := h.walkBy _ c va write
theorem Canon.readBy (h : Canon s) (g : Agent) (c va n : Nat) : Canon (s.readBy g c va n).2 := keepsCanon_closed.readBy s g c va n h
theorem Canon.readVa (h : Canon s) (c va n : Nat) : Canon (s.readVa c va n).2 := h.readBy _ c va n
theorem Canon.writeBy (h : Canon s) (g : Agent) (c va : Nat) (bs : List Byte) : Canon (s.writeBy g c va bs).2 :=
  keepsCanon_closed.writeBy s g c va bs h
theorem Canon.writeVa (h : Canon s) (c va : Nat) (bs : List Byte) : Canon (s.writeVa c va bs).2 := h.writeBy _ c va bs
theorem Canon.readCount (h : Canon s) (u : Use) (f : Nat) : Canon (s.readCount u f).2 := h.hbmRead _ _ _
theorem Canon.writeCount (h : Canon s) (u : Use) (f v : Nat) : Canon (s.writeCount u f v) := h.hbmWrite _ _ _
theorem Canon.pumpTransfers (h : Canon s) : Canon s.pumpTransfers := keepsCanon_closed.pumpTransfers s h

theorem Canon.peerAnswer (h : Canon s) : Canon s.peerAnswer.2 := h.drawBytes 1

theorem Canon.rangeKind (h : Canon s) (g : Agent) (c va n : Nat) (write : Bool) : Canon (s.rangeKind g c va n write).2 := by
  refine Canon.foldl_snd (a := (0, s)) h (fun a p ha => .iteAns ha ?_) _
  dsimp only
  split <;> exact ha.walkBy g c _ write

theorem Canon.dropTc (h : Canon s) (p : Nat) : Canon (s.dropTc p) := h.ite ((h.modCoreSame p fun _ => by rfl).count _ _)

/-! ### Stream units: faults, captured descriptors and the start (07) -/

theorem Canon.strViolate (h : Canon s) (p code slot : Nat) (x : QEntry) : Canon (s.strViolate p code slot x) :=
  Canon.freezeCore (h.modCoreSame p fun _ => by rfl) p code

theorem Canon.strReport (h : Canon s) (p : Nat) (f : StrFault) : Canon (s.strReport p f) := h.modCoreSame p fun _ => rfl

theorem Canon.modStr (h : Canon s) (p slot : Nat) (f : StrSlot → StrSlot) : Canon (s.modStr p slot f) := h.modCoreSame p fun _ => rfl

theorem Canon.strCapture (h : Canon s) (p : Nat) (d : StrSlot) : Canon (s.strCapture p d) := by
  unfold State.strCapture
  dsimp only
  refine .ite ((h.noteRefused p).strReport p _) ?_
  split
  · exact (h.noteBad p _).strViolate p _ _ _
  · have hread : Canon ((s.noteReads p [(d.descAddr, 64)]).portBRead p d.descAddr 64).2 := (h.noteReads p _).portBRead p _ _
    exact .ite (hread.modStr p _ _) (hread.strViolate p _ _ _)

theorem canon_startStream (h : Canon s) (p : Nat) : Canon (startStream p s) := by
  unfold startStream
  dsimp only
  split
  · exact h
  · refine h.ite ?_
    split
    · refine .ite (h.strViolate p _ _ _) (.ite (.strViolate ?_ p _ _ _) (.strCapture ?_ p _))
      · exact h.modCoreSame p fun _ => rfl
      · exact Canon.modCoreSame (h.modCoreSame p fun _ => by rfl) p fun _ => by rfl
    · exact h

/-! ### Stream units: the issue of transactions -/

theorem Canon.readElems (h : Canon s) (p : Nat) (d : StrSlot) (ks : List Nat) : Canon (s.readElems p d ks) :=
  h.foldl (fun _ _ ht => ht.ite (((ht.noteReads p _).portBRead p _ _).modStr p _ _)) _

theorem Canon.issueTxn (h : Canon s) (p : Nat) (d : StrSlot) (i : Nat) (x : Txn) : Canon (s.issueTxn p d i x) := by
  unfold State.issueTxn
  dsimp only
  refine .ite (h.modStr p _ _) ?_
  split
  · exact h
  · next e _ =>
    have htouched : Canon ((s.modCore p fun c => { c with tc := c.tc.touch e }).count (coreReg p 0x2900) 1) := (h.modCoreSame p fun _ => by rfl).count _ _
    exact .ite ((htouched.count _ _).strReport p _) (htouched.modStr p _ _)

theorem Canon.issueOne (h : Canon s) (p : Nat) : Canon (s.issueOne p) := by
  unfold State.issueOne
  extract_lets c
  refine h.ite ?_
  split
  · exact h
  · extract_lets ks s' c' d far s1
    have helems : Canon s' := h.readElems p _ ks
    have hreached : Canon s1 := helems.modStr p _ _
    split
    · exact (Canon.ite (helems.noteBad p _) helems).strViolate p _ _ _
    · exact (helems.noteRefused p).strReport p _
    · exact helems.strReport p _
    · split
      · exact hreached
      · exact hreached.ite ((hreached.issueTxn p _ _ _).ite hreached)

theorem canon_issueCycle (h : Canon s) (p q : Nat) (ready : W64) (c : Nat) : Canon (issueCycle p q ready s c) :=
  h.ite ((h.issueOne p).ite ((h.count _ _).ite h))

theorem canon_streamWindow (h : Canon s) (p q : Nat) (ready : W64) : Canon (streamWindow p q ready s) :=
  Canon.foldl (h.modCoreSame p fun _ => by rfl) (fun _ c ht => canon_issueCycle ht p q ready c) _

/-! ### Stream units: what a transaction moves (07 R195 to R202, 09 R246) -/

theorem Canon.txnDone (h : Canon s) (p slot i nIn nOut : Nat) : Canon (s.txnDone p slot i nIn nOut) :=
  ((((h.modStr p slot _).count _ _).count _ _).count _ _).progress p

theorem Canon.txnLoad (h : Canon s) (p i : Nat) (d : StrSlot) (x : Txn) (data : List Byte) : Canon (s.txnLoad p i d x data) :=
  .ite ((h.noteRefused p).strReport p _) ((h.modSlice p fun sl hsl => sl.wf_writeAll _ hsl).txnDone p _ _ _ _)

theorem Canon.txnHbm (h : Canon s) (p : Nat) (d : StrSlot) (x : IssuedTxn) (out : List Byte) : Canon (s.txnHbm p d x out) := by
  conv in @State.txnHbm => delta State.txnHbm
  -- The lookup of an address becomes a variable: the kernel would compute its products by 2 ^ 16.
  obtain ⟨own, hown⟩ : ∃ own, State.ownHbm = own := ⟨_, rfl⟩
  rw [hown]
  extract_lets c u pa bad r ws s0 s1 a bs
  have hbad (k : Nat) (v : State) (hv : Canon v) : Canon (bad k v) := hv.strReport p _
  split
  · next off _ =>
    refine .ite (hbad _ _ h) ?_
    extract_lets rd
    refine .ite (((h.foldl (fun _ w ht => ?_) _).charge _ _ _).txnDone p _ _ _ _) ?_
    · exact ht.hbmOnly (State.hbmWriteWord_only _ _ _ _ _)
    · have hread : Canon rd.2 := (h.hbmRead off (64 * u.n) r).snd_of rd rfl
      split
      · exact hbad _ _ hread
      · exact (hread.charge _ _ _).txnLoad p _ _ _ _
  · have hasked : Canon s0 := (h.foldl (fun _ w ht => ht.peerRequest _ _ _ _ _ _ _ _) _).ite (h.peerRequest _ _ _ _ _ _ _ _)
    have hanswer : Canon a.2 := ((hasked.charge _ _ _).charge _ _ _).peerAnswer
    refine h.ite ?_
    split
    · exact hbad _ _ hanswer
    · exact (hanswer.txnDone p _ _ _ _).ite (hbad _ _ hanswer)
    · exact (hanswer.txnDone p _ _ _ _).ite ((hanswer.drawBytes _).txnLoad p _ _ _ _)

theorem Canon.txnFar (h : Canon s) (p : Nat) (d : StrSlot) (x : IssuedTxn) : Canon (s.txnFar p d x) := by
  unfold State.txnFar
  dsimp only
  refine .ite (.ite ((h.noteRefused p).strReport p _) ?_) (h.txnHbm p d x _)
  split
  · exact (h.noteBad p _).strReport p _
  · exact ((h.noteReads p _).portBRead p _ _).txnHbm p d x _

theorem Canon.txnSend (h : Canon s) (p q : Nat) (d : StrSlot) (x : IssuedTxn) : Canon (s.txnSend p q d x) := by
  unfold State.txnSend
  extract_lets c u mine theirs rd last cuts r
  refine .ite ((h.noteRefused p).strReport p _) (.ite ((h.noteSecure p).strReport p _) ?_)
  split
  · exact (h.noteBad p _).strReport p _
  · have hread : Canon rd.2 := (h.noteReads p _).portBRead p _ _
    have hsent : Canon r.2 := by
      refine Canon.foldl_snd (a := (false, rd.2)) hread (fun a k ha => ?_) _
      dsimp only
      exact ha.deliver q _
    exact .ite (hsent.strReport p _) (hsent.txnDone p _ _ _ _)

theorem Canon.txnFetch (h : Canon s) (p q : Nat) (d : StrSlot) (x : IssuedTxn) : Canon (s.txnFetch p q d x) := by
  unfold State.txnFetch
  dsimp only
  refine .ite ((h.noteDropped q).txnDone p _ _ _ _) (.ite ((h.noteSecure q).strReport p _) (.ite ((h.noteSecure p).strReport p _)
    (.ite ((h.noteRefused q).strReport p _) ?_)))
  split
  · exact (h.noteBad q _).strReport p _
  · exact .ite ((h.noteRefused p).strReport p _) (((h.noteReads q _).portBRead q _ _).txnLoad p _ _ _ _)

theorem Canon.runTxn (h : Canon s) (p : Nat) (d : StrSlot) (x : IssuedTxn) : Canon (s.runTxn p d x) := by
  refine .ite ?_ (h.txnFar p d x)
  unfold State.txnRemote
  split
  · exact h.strReport p _
  · exact .ite (h.txnSend p _ d x) (h.txnFetch p _ d x)

/-! ### Stream units: transactions done again, and the end of a descriptor (07 R201) -/

theorem Canon.putDest (h : Canon s) (d : TxnDest) (bs : List Byte) : Canon (s.putDest d bs) := by
  cases d with
  | slice q off => exact h.modSlice q fun _ hsl => Mem.wf_writeN _ _ _ hsl
  | hbm off => exact h.hbmOnly (.hbm s _ (Mem.wf_writeN _ _ _))

theorem Canon.scrambleTxn (h : Canon s) (p : Nat) (d : StrSlot) (x : IssuedTxn) : Canon (s.scrambleTxn p d x) := by
  unfold State.scrambleTxn
  split
  · exact (h.drawBytes _).putDest _ _
  · exact h

theorem Canon.hideAgain (h : Canon s) (p slot : Nat) (x : IssuedTxn) : Canon (s.hideAgain p slot x) := by
  unfold State.hideAgain
  split
  · exact h
  · refine h.ite ?_
    split
    · exact (h.modStr p _ _).scrambleTxn p _ x
    · exact h

theorem Canon.showLatent (h : Canon s) (p : Nat) (d : StrSlot) : Canon (s.showLatent p d) := by
  refine h.foldl (fun t e ht => ?_) _
  split
  · exact ht.foldl (fun _ w hu => hu.putDest _ _) _
  · exact ht.foldl (fun _ w hu => hu.putDest _ _) _
  · exact ht

theorem canon_execStreamTxnComplete (h : Canon s) (p slot txn : Nat) (r : TxnRead) : CanonNext (execStreamTxnComplete p slot txn r s) := by
  unfold execStreamTxnComplete
  dsimp only
  refine .ite (.next h) ?_
  split
  · exact .next h
  · split
    · exact .next h
    · have hfound (q : Nat) : Canon ((if r.collided = 0 then s else s.count (coreReg p 0x2128) r.collided).modSlice q fun sl => sl.found r.finds) :=
        Canon.modSliceSame (h.ite (h.count _ _)) q fun sl => sl.mem_found _
      exact .ite (.next h) (.next (((hfound _).runTxn p _ _).hideAgain p slot _))

theorem Canon.strRetire (h : Canon s) (p cycles : Nat) : Canon (s.strRetire p cycles) := by
  unfold State.strRetire
  extract_lets c
  split
  · exact h
  · extract_lets s1
    have hcounted : Canon s1 := (Canon.count (Canon.modCoreSame (h.showLatent p _) p fun _ => by rfl) _ _).count _ _
    exact ((hcounted.raiseCtr _ _).ite hcounted).progress p |>.ite h

theorem Canon.strRetireAll (h : Canon s) (p n : Nat) : Canon (s.strRetireAll p n) := by
  induction n generalizing s with
  | zero => exact h
  | succ n ih => exact ih (h.strRetire p 0)

theorem canon_execStreamDescComplete (h : Canon s) (d : DescEnd) : CanonNext (execStreamDescComplete d s) := .ite (.next (h.strRetire _ _)) (.next h)

theorem canon_execStreamFaultHalt (h : Canon s) (p : Nat) : CanonNext (execStreamFaultHalt p s) := .ite (.next (h.modCoreSame p fun _ => by rfl)) (.next h)

/-! ### Stream units: halted, resumed and skipped (07 R201, R202) -/

theorem Canon.trackHostHalt (h : Canon s) (p : Nat) : Canon (s.trackHostHalt p) := by
  unfold State.trackHostHalt
  split
  · exact h
  · refine .ite (h.modPanelSame _ fun _ => by rfl) (h.modPanelSame _ fun pn => ?_)
    split <;> rfl

theorem Canon.scrambleHalted (h : Canon s) (p : Nat) : Canon (s.scrambleHalted p) :=
  h.foldl (fun _ _ ht => ht.foldl (fun _ _ hu => hu.scrambleTxn p _ _) _) _

theorem Canon.strReissue (h : Canon s) (p : Nat) : Canon (s.strReissue p) := by
  unfold State.strReissue
  extract_lets s1
  have hreset : Canon s1 := h.modCoreSame p fun _ => rfl
  exact (hreset.trackHostHalt p).foldl (fun _ d ht => ht.strCapture p d) _

theorem Canon.strRetry (h : Canon s) (p : Nat) : Canon (s.strRetry p) := (h.strReissue p).ite (h.event _)

theorem Canon.failReaders (h : Canon s) (p : Nat) : Canon (s.failReaders p) := by
  unfold State.failReaders
  split
  · exact h
  · exact (h.drawBytes _).modPanelSame _ fun _ => by rfl

theorem Canon.strSkip (h : Canon s) (p : Nat) : Canon (s.strSkip p) := by
  unfold State.strSkip
  extract_lets c f s1
  have hissued : Canon s1 := (((h.strReissue p).failReaders p)).ite (h.strReissue p)
  refine .ite (h.event _) (.ite hissued ?_)
  split
  · exact hissued
  · extract_lets ts
    split
    · exact (hissued.modStr p _ _).ite hissued
    · split
      · exact hissued
      · exact .ite ((hissued.modStr p _ _).txnDone p _ _ _ _) (hissued.txnLoad p _ _ _ _)

theorem canon_execStrResumeRetry (h : Canon s) (p : Nat) : CanonNext (execStrResumeRetry p s) := .hostTo h (.ite (.next (h.strRetry p)) (.next h))

theorem canon_execStrResumeSkip (h : Canon s) (p : Nat) : CanonNext (execStrResumeSkip p s) := .hostTo h (.ite (.next (h.strSkip p)) (.next h))

end

end Sys2Proof.Machine
end

section
/-! PROOFS. The canonical form of the memories: walks, invalidations, page faults and the service commands (09, 12). -/

namespace Sys2Proof.Machine

section
variable {s t : State}

/-! ### Walks and invalidations (09 R239 to R241) -/

theorem canon_execPageWalk (h : Canon s) (p : Nat) (va : BitVec 48) (write : Bool) : CanonNext (execPageWalk p va write s) :=
  .ite (.next h) (.next ((h.modCoreSame p fun _ => by rfl).count _ _))

theorem canon_execPageWalkComplete (h : Canon s) (p : Nat) : CanonNext (execPageWalkComplete p s) := by
  unfold execPageWalkComplete
  extract_lets c
  split
  · exact .next h
  · next w rest _ =>
    refine .ite (.next h) ?_
    extract_lets wait u a s1
    have hwalked : Canon s1 := (h.walk _ _ _ _ _ _ _ _).modCoreSame p fun _ => by rfl
    clear_value wait
    split
    · exact .next (hwalked.modCoreSame p fun _ => by rfl)
    · split
      · exact .next (hwalked.strReport p _)
      · exact .next hwalked

theorem Canon.invCore (h : Canon s) (v : Inv) (p : Nat) : Canon (s.invCore v p) := h.ite ((h.modCoreSame p fun _ => by rfl).count _ _)

theorem Canon.invApply (h : Canon s) (v : Inv) : Canon (s.invApply v) := by
  have hcores := h.foldl (g := fun s p => s.invCore v p) (fun _ p ht => ht.invCore v p) (Tab.keys s.cores)
  exact hcores.side rfl

theorem Canon.invMark (h : Canon s) (v : Inv) (redo : Bool) : Canon (s.invMark v redo) := h.foldl (fun _ p ht => (ht.modCoreSame p fun _ => by rfl)) _

theorem Canon.invEnd (h : Canon s) (v : Inv) : Canon (s.invEnd v) := by
  have hdone := (h.invApply v).invMark v false
  unfold State.invEnd
  dsimp only
  split
  · exact hdone.side rfl
  · exact hdone
  · split
    · exact hdone.endPacket _ _ _ _ _
    · exact hdone

theorem Canon.invDrain (h : Canon s) : Canon s.invDrain :=
  Canon.foldl (s := { s with walker := { s.walker with running := none, queue := [] } }) (h.side (by rfl)) (fun _ v ht => ht.invEnd v) _

theorem Canon.invNow (h : Canon s) (scope c pages page : Nat) : Canon (s.invNow scope c pages page) := h.invDrain.invApply _

theorem canon_execXlInvGo (h : Canon s) (v : W32) : CanonNext (execXlInvGo v s) :=
  .hostTo h (.ite (.next h) (.ite (.next (h.event _)) (.ite (.next (h.side (by rfl))) (.next (h.side (by rfl))))))

theorem canon_execInvalidationRun (h : Canon s) : CanonNext (execInvalidationRun s) := by
  unfold execInvalidationRun
  split
  · next v rest _ _ =>
    have hrunning : Canon { s with walker := { s.walker with running := some v, queue := rest } } := h.side rfl
    exact .ite (.next (hrunning.invMark v true)) (.next h)
  · exact .next h

theorem canon_execInvalidationComplete (h : Canon s) : CanonNext (execInvalidationComplete s) := by
  unfold execInvalidationComplete
  split
  · exact .next h
  · next v _ =>
    have hidle : Canon { s with walker := { s.walker with running := none } } := h.side rfl
    exact .ite (.next h) (.next (hidle.invEnd v))

/-! ### Table positions, counts and pools (09 R242 to R245) -/

theorem Canon.posAt (h : Canon s) (u : Use) (table idx : Nat) : Canon (s.posAt u table idx).2 := by
  have hread := h.readPte u table idx
  unfold State.posAt
  dsimp only
  split <;> exact hread

theorem Canon.leafPos (h : Canon s) (u : Use) (root va : Nat) (large : Bool) : Canon (s.leafPos u root va large).2 := by
  unfold State.leafPos
  refine .iteAns h ?_
  extract_lets a1
  have hfirst : Canon a1.2 := h.posAt u _ _
  split
  · refine .iteAns hfirst ?_
    extract_lets a2
    have hsecond : Canon a2.2 := hfirst.posAt u _ _
    split
    · exact .iteAns hsecond (.iteAns hsecond.beside (.iteAns hsecond.beside (hsecond.posAt u _ _)))
    · exact hsecond.beside
  · exact hfirst.beside

theorem Canon.writePte (h : Canon s) (u : Use) (off : Nat) (e : W64) : Canon (s.writePte u off e) := h.hbmWrite _ _ _

theorem Canon.setBoardCount (h : Canon s) (u : Use) (c frame v : Nat) : Canon (s.setBoardCount u c frame v) := by
  conv in @State.setBoardCount => delta State.setBoardCount
  -- The lookup of an address becomes a variable: the kernel would compute its products by 2 ^ 16.
  obtain ⟨own, hown⟩ : ∃ own, State.ownHbm = own := ⟨_, rfl⟩
  simp only [hown]
  split
  · exact h.writeCount u _ _
  · exact h.peerRequest _ _ _ _ _ _ _ _

theorem Canon.lowerCount (h : Canon s) (u : Use) (c frame : Nat) : Canon (s.lowerCount u c frame) :=
  .ite (h.boardCount u c frame) ((h.boardCount u c frame).setBoardCount u c frame _)

theorem Canon.readPool (h : Canon s) (c : Nat) : Canon (s.readPool c).2 := by
  unfold State.readPool
  dsimp only
  split
  · exact h
  · split <;> exact (h.hbmRead _ _ _).beside

theorem Canon.writePool (h : Canon s) (c : Nat) (l : List (Nat × Bool)) : Canon (s.writePool c l) := by
  unfold State.writePool
  dsimp only
  split
  · exact h.modCtx c _
  · exact (h.modCtx c _).hbmWrite _ _ _

theorem Canon.pushPool (h : Canon s) (c : Nat) (e : Nat × Bool) : Canon (s.pushPool c e) := by
  unfold State.pushPool
  dsimp only
  split
  · exact h.modCtx c _
  · exact (h.modCtx c _).hbmWrite _ _ _

theorem Canon.takeFrom (h : Canon s) (c : Nat) (large : Bool) (kept pool : List (Nat × Bool)) :
    Canon (s.takeFrom c large kept pool).2.2 := by
  induction pool generalizing s kept with
  | nil => exact h
  | cons e rest ih =>
    unfold State.takeFrom
    dsimp only
    have hread := h.boardCount (s.cmdUse c) c e.1
    split
    · exact ih h _
    · split
      · exact hread.besideTwo
      · exact ih (hread.event _) _

theorem Canon.takePool (h : Canon s) (c : Nat) (large : Bool) : Canon (s.takePool c large).2 := by
  have htaken := (h.readPool c).takeFrom c large [] (s.readPool c).1
  unfold State.takePool
  dsimp only
  split
  · exact htaken
  · exact htaken.writePool c _

theorem Canon.copyPage (h : Canon s) (c src dst slot bytes : Nat) : Canon (s.copyPage c src dst slot bytes).2 := by
  unfold State.copyPage
  extract_lets u d rd
  have hread : Canon rd.2 := by
    unfold rd
    split
    · exact h.hbmRead _ _ _
    · exact ((h.peerRequest _ _ _ _ _ _ _ _).drawBytes _).beside
  split
  · exact hread.beside
  · split
    · exact (hread.hbmWrite _ _ _).beside
    · exact (hread.peerRequest _ _ _ _ _ _ _ _).beside

/-! ### Halts and copies on a write (09 R245; 07 R201) -/

theorem Canon.haltNotice (h : Canon s) (p : Nat) : Canon (s.haltNotice p) := by
  unfold State.haltNotice
  dsimp only
  split
  · exact h
  · split
    · exact h
    · exact (h.putItem _ _).modPanelSame _ fun _ => by rfl

theorem canon_execStreamHaltRecord (h : Canon s) (p : Nat) : CanonNext (execStreamHaltRecord p s) := by
  unfold execStreamHaltRecord
  refine .ite (.next h) ?_
  extract_lets s1
  have hretired : Canon s1 := h.strRetireAll p 16
  split
  · exact .next (hretired.modCoreSame p fun _ => by rfl)
  · extract_lets s2 s3
    have hhalted : Canon s2 := (hretired.scrambleHalted p).modCoreSame p fun _ => by rfl
    have hcounted : Canon s3 := (hhalted.count _ _).event _
    exact .next ((hcounted.ite (hcounted.haltNotice p)).trackHostHalt p)

theorem Canon.leaveHalt (h : Canon s) (p : Nat) : Canon (s.leaveHalt p) := (Canon.haltNotice (h.modCoreSame p fun _ => by rfl) p).trackHostHalt p

theorem Canon.repaired (h : Canon s) (p : Nat) : Canon (s.repaired p) := h.ite (h.strRetry p)

theorem Canon.cowCopy (h : Canon s) (p off : Nat) (e : W64) (large : Bool) : Canon (s.cowCopy p off e large) := by
  unfold State.cowCopy
  extract_lets c t
  have htaken : Canon t.2 := h.takePool _ _
  split
  · exact (htaken.event _).leaveHalt p
  · extract_lets cp l u s1 s2 s3
    have hcopied : Canon cp.2 := (htaken.copyPage c.ctx _ _ _ _).snd_of cp rfl
    have hlist : Canon l.2 := (hcopied.readPool c.ctx).snd_of l rfl
    have hleaf : Canon s1 := hcopied.writePte u off _
    have hcounts : Canon s2 := (hleaf.setBoardCount u _ _ _).lowerCount u _ _
    have hcharged : Canon s3 := (hcounts.charge _ _ _).charge _ _ _
    exact .ite (Canon.leaveHalt ((hlist.writePool _ _).modCoreSame p fun _ => by rfl) p) (((hcharged.count _ _).invNow _ _ _ _).repaired p)

theorem canon_execCowResolve (h : Canon s) (p : Nat) : CanonNext (execCowResolve p s) := by
  unfold execCowResolve
  extract_lets c u a2 a3 found
  have hsecond : Canon a2.2 := h.leafPos u _ _ _
  have hthird : Canon a3.2 := hsecond.leafPos u _ _ _
  have hfound : Canon found.2 := by
    unfold found
    split
    · refine .iteAns hsecond.beside ?_
      split <;> exact hthird.beside
    · exact hsecond.beside
  refine .ite (.next h) ?_
  split
  · exact .next (hfound.repaired p)
  · have hcount (f : Nat) : Canon (found.2.boardCount u c.ctx f).2 := hfound.boardCount u _ _
    exact .ite (.next (hfound.repaired p)) (.ite (.next ((hcount _).repaired p)) (.next ((hcount _).cowCopy p _ _ _)))

/-! ### Service commands (12 R318 to R325) -/

theorem Canon.runEntries (h : Canon s) {f : List Byte → State → EntryAns} (hf : ∀ e t, Canon t → Canon (f e t).2) (es : List (List Byte))
    (done : Nat) : Canon (s.runEntries f es done).2.2 := by
  induction es generalizing s done with
  | nil => exact h
  | cons e rest ih =>
    unfold State.runEntries
    dsimp only
    split
    · exact ih (hf e s h) _
    · exact (hf e s h).besideTwo

theorem Canon.raiseCount (h : Canon s) (c frame : Nat) (large : Bool) : Canon (s.raiseCount c frame large).2 := by
  unfold State.raiseCount
  extract_lets u n s1
  have hread : Canon n.2 := (h.boardCount u c frame).snd_of n rfl
  have hraised : Canon s1 := hread.setBoardCount u c frame _
  have hinvalidated : Canon (if n.1 = 1 then s1.invNow 2 0 (pageUnits large) frame else s1) := (hraised.invNow _ _ _ _).ite hraised
  exact .iteAns hread.beside hinvalidated.beside

theorem canon_mapEntry (h : Canon s) (c : Nat) (e : List Byte) : Canon (mapEntry c e s).2 := by
  unfold mapEntry
  extract_lets f u va fl large share src a n b
  have hpos : Canon a.2 := (h.leafPos u f.root.toNat va large).snd_of a rfl
  have hraised : Canon n.2 := (hpos.raiseCount c (src / 65536) large).snd_of n rfl
  have hsource : Canon b.2 := (hpos.leafPos u f.root.toNat src large).snd_of b rfl
  refine .iteAns h.beside ?_
  split
  · exact hpos.beside
  · exact hpos.beside
  · exact hpos.beside
  · refine .iteAns hpos.beside (.iteAns (.iteAns hpos.beside (.iteAns hraised (hraised.writePte u _ _).beside)) ?_)
    split
    · next se _ =>
      -- The raised count becomes a variable, which the kernel does not compute.
      obtain ⟨m, hm⟩ : ∃ m, b.2.raiseCount c (pteFrame se) large = m := ⟨_, rfl⟩
      have hshared : Canon m.2 := hm ▸ hsource.raiseCount c (pteFrame se) large
      rw [hm]
      exact .iteAns hsource.beside (.iteAns hshared ((hshared.writePte u _ _).writePte u _ _).beside)
    · exact hsource.beside
    · exact hsource.beside

theorem canon_unmapEntry (h : Canon s) (c : Nat) (e : List Byte) : Canon (unmapEntry c e s).2 := by
  unfold unmapEntry
  extract_lets f u va large a
  have hpos : Canon a.2 := h.leafPos u _ _ _
  refine .iteAns h.beside ?_
  split
  · exact .iteAns hpos.beside (((hpos.writePte u _ _).lowerCount u _ _).invNow _ _ _ _).beside
  · exact hpos.beside
  · exact hpos.beside

theorem canon_poolEntry (h : Canon s) (c : Nat) (e : List Byte) : Canon (poolEntry c e s).2 := .iteAns h (h.pushPool c _).beside

theorem Canon.runHeaded (h : Canon s) {f : List Byte → State → EntryAns} (hf : ∀ e t, Canon t → Canon (f e t).2) (k : Nat) (p : Packet)
    (size maxCount : Nat) : Canon (s.runHeaded k p size maxCount f) := by
  unfold State.runHeaded
  split
  · exact h.endPacket _ _ _ _ _
  · exact (h.runEntries hf _ _).endPacket _ _ _ _ _

theorem canon_execMap (h : Canon s) (fn w : Nat) : CanonNext (execMap fn w s) := by
  unfold execMap
  dsimp only
  split
  · exact .next (h.runHeaded (fun e _ ht => canon_mapEntry ht _ e) _ _ _ _)
  · exact .next h

theorem canon_execUnmap (h : Canon s) (fn w : Nat) : CanonNext (execUnmap fn w s) := by
  unfold execUnmap
  dsimp only
  split
  · exact .next (h.runHeaded (fun e _ ht => canon_unmapEntry ht _ e) _ _ _ _)
  · exact .next h

theorem canon_execPoolAdd (h : Canon s) (fn w : Nat) : CanonNext (execPoolAdd fn w s) := by
  unfold execPoolAdd
  dsimp only
  split
  · split
    · exact .ite (.next (h.endPacket _ _ _ _ _)) (.next (h.runHeaded (fun e _ ht => canon_poolEntry ht _ e) _ _ _ _))
    · exact .next (h.endPacket _ _ _ _ _)
  · exact .next h

theorem canon_execInvalidate (h : Canon s) (fn w : Nat) : CanonNext (execInvalidate fn w s) := by
  unfold execInvalidate
  dsimp only
  split
  · exact .next h
  · refine .ite (.next h) ?_
    split
    · exact .next (h.endPacket _ _ _ _ _)
    · exact .next (h.side (by rfl))

theorem canon_execStreamResume (h : Canon s) (fn w : Nat) : CanonNext (execStreamResume fn w s) := by
  unfold execStreamResume
  dsimp only
  split
  · exact .next h
  · have hresume (act q : Nat) (t : State) (ht : Canon t) : Canon (if act = 1 then t.strRetry q else t.strSkip q) :=
      (ht.strRetry q).ite (ht.strSkip q)
    refine .ite (.next (h.endPacket _ _ _ _ _)) (.ite (.ite (.next (h.endPacket _ _ _ _ _)) (.next ?_))
      (.ite (.next (h.endPacket _ _ _ _ _)) ?_))
    · exact (h.foldl (fun t q ht => hresume _ q t ht) _).endPacket _ _ _ _ _
    · split
      · exact .next (h.endPacket _ _ _ _ _)
      · exact .next ((hresume _ _ s h).endPacket _ _ _ _ _)

end

end Sys2Proof.Machine
end

section
/-! PROOFS. The canonical form of the memories: the matrix and vector engines (04, 05). -/

namespace Sys2Proof.Machine

section
variable {s t : State}

/-! ### Flags, faults and range checks of the matrix engine -/

theorem Canon.raiseMx (h : Canon s) (p : Nat) (f : FFlags) : Canon (s.raiseMx p f) := h.modCoreSame p fun _ => rfl
theorem Canon.raiseVx (h : Canon s) (p : Nat) (f : FFlags) : Canon (s.raiseVx p f) := h.modCoreSame p fun _ => rfl

theorem Canon.noteRange (h : Canon s) (p : Nat) (index : Half) (r : Nat) (kind : Bool) : Canon (s.noteRange p index r kind) := by
  unfold State.noteRange
  extract_lets c s1 rel s2 k ev rel2
  have hviolated : Canon s1 := (h.modCoreSame p fun _ => by rfl).count _ _
  have hnoted : Canon s2 := hviolated.side rfl
  exact hnoted.ite (hnoted.side (by rfl))

theorem Canon.checkRow (h : Canon s) (p : Nat) (a : MxActive) (r : Nat) (xs : List W32) : Canon (s.checkRow p a r xs) := by
  unfold State.checkRow
  refine h.ite ?_
  split
  · exact h.count _ _
  · refine .ite ?_ (h.count _ _)
    split
    · exact (h.count _ _).noteRange p _ _ _
    · exact h.count _ _

theorem Canon.mxFault (h : Canon s) (p code : Nat) (x : QEntry) : Canon (s.mxFault p code x) := Canon.freezeCore (h.modCoreSame p fun _ => by rfl) p code

theorem Canon.refusedA (h : Canon s) (p : Nat) : Canon (s.refusedA p) := (h.noteRefused p).freezeCore p _

theorem Canon.mxBad (h : Canon s) (p w : Nat) (x : QEntry) : Canon (s.mxBad p w x) := (h.noteBad p w).mxFault p _ x

/-! ### Starts of the matrix engine -/

theorem Canon.mxStart (h : Canon s) (p : Nat) (a : MxActive) (f : Matrix → Matrix) : Canon (s.mxStart p a f) := h.modCoreSame p fun _ => rfl

theorem canon_startMxl (h : Canon s) (p : Nat) (x : QEntry) (o : MxlOps) (pva : Bool) : Canon (startMxl p x o pva s) :=
  .ite h (.ite (h.mxFault p _ x) (.ite (h.mxFault p _ x) (.ite (h.mxFault p _ x) (h.mxStart p _ _))))

theorem Canon.withBound (h : Canon s) (p : Nat) (x : QEntry) (drains : Bool) {go : Half → Option W32 → State → State}
    (hgo : ∀ i b, Canon (go i b s)) : Canon (s.withBound p x drains go) := by
  unfold State.withBound
  dsimp only
  refine .ite (hgo _ _) ?_
  split
  · exact hgo _ _
  · exact h.refusedA p
  · exact h.mxBad p _ x

theorem canon_startMms (h : Canon s) (p : Nat) (x : QEntry) (o : MmsOps) (pva : Bool) : Canon (startMms p x o pva s) := by
  have hfault (code : Nat) : Canon (s.mxFault p code x) := h.mxFault p code x
  unfold startMms
  extract_lets c m pn pl rows im om k earlier before
  refine .ite h (.ite h (.ite (hfault _) (.ite (hfault _) (.ite (hfault _) (.ite (hfault _) (.ite (hfault _) (.ite (hfault _)
    (.ite (hfault _) (h.withBound p x _ fun _ _ => ?_)))))))))
  exact (Canon.ite (h.count _ _) h).mxStart p _ _

theorem canon_startMxd (h : Canon s) (p : Nat) (x : QEntry) (o : MxdOps) : Canon (startMxd p x o s) :=
  .ite h (.ite h (.ite (h.mxFault p _ x) (.ite (h.mxFault p _ x) (.ite (h.mxFault p _ x)
    (h.withBound p x _ fun _ _ => h.mxStart p _ _)))))

theorem canon_startMxclr (h : Canon s) (p : Nat) (x : QEntry) (o : MxdOps) : Canon (startMxclr p x o s) :=
  .ite h (.ite (h.mxFault p _ x) (.ite (h.mxFault p _ x) (h.mxStart p _ _)))

theorem canon_startMxmap (h : Canon s) (p : Nat) (x : QEntry) (o : MxmapOps) : Canon (startMxmap p x o s) :=
  .ite (h.mxFault p _ x) (.ite (h.mxFault p _ x) (h.mxStart p _ _))

theorem canon_startMatrix (h : Canon s) (p : Nat) : Canon (startMatrix p s) := by
  unfold startMatrix
  split
  · exact h
  · refine h.ite ?_
    split
    · exact canon_startMxl h p _ _ _
    · exact canon_startMms h p _ _ _
    · exact canon_startMxd h p _ _
    · exact canon_startMxclr h p _ _
    · exact canon_startMxmap h p _ _
    · exact h

/-! ### Rows and ends of the matrix engine -/

theorem canon_finishMxl (h : Canon s) (p : Nat) (a : MxActive) (o : MxlOps) : Canon (finishMxl p a o s).1 := by
  unfold finishMxl
  extract_lets sl fmt setPl hdr bitmap base image
  have hplane (pl : Plane) : Canon (setPl pl s) := h.modCoreSame p fun _ => rfl
  split
  · exact (hplane _).refusedA p
  · exact (hplane _).mxBad p _ _
  · split
    · exact (hplane _).mxFault p _ _
    · split
      · exact (hplane _).refusedA p
      · exact (hplane _).mxBad p _ _
      · split
        · exact (hplane _).mxFault p _ _
        · exact hplane _

theorem canon_mmsRow (h : Canon s) (p : Nat) (a : MxActive) (o : MmsOps) (pl : Plane) (i : Nat) : Canon (mmsRow p a o pl s i) := by
  unfold mmsRow
  extract_lets c r old zeroT setAcc x xs s1 s2 d
  have hset (ys : List W32) : Canon (setAcc ys s) := h.modCoreSame p fun _ => rfl
  have hrow : Canon s2 := (hset xs).ite (((hset xs).count _ _).count _ _)
  have hdrained : Canon (s2.modSlice p fun sl => sl.writeAll d.1) := hrow.modSlice p fun sl hsl => sl.wf_writeAll _ hsl
  exact .ite ((hset _).count _ _) (.ite ((hdrained.raiseMx p _).checkRow p a _ _) hrow)

theorem Canon.scrambleAcc (h : Canon s) (p : Nat) (rs : List Nat) : Canon (s.scrambleAcc p rs) :=
  h.foldl (fun _ _ ht => (Canon.modCoreSame (ht.drawWords 128) p fun _ => by rfl)) _

theorem Canon.modActive (h : Canon s) (p i : Nat) (f : MxActive → MxActive) : Canon (s.modActive p i f) := h.modCoreSame p fun _ => rfl

theorem Canon.rowFault (h : Canon s) (p : Nat) (a : MxActive) (rows accBase : Nat) (k : PortCheck) : Canon (s.rowFault p a rows accBase k) := by
  unfold State.rowFault
  extract_lets s1
  have hfree : Canon s1 := h.scrambleAcc p _
  split
  · exact hfree.mxBad p _ _
  · exact hfree.refusedA p

theorem canon_mmsAdmit {u : RowRun} (h : Canon u.s) (p i : Nat) (a : MxActive) (o : MmsOps) (pl : Plane) (rows r : Nat) :
    Canon (mmsAdmit p i a o pl rows u r).s := by
  unfold mmsAdmit
  extract_lets sl real rg s1
  have hrow : Canon s1 := (canon_mmsRow h p a o pl r).modActive p i _
  split
  · exact h
  · split
    · exact Canon.ite (hrow.modCoreSame p fun _ => by rfl) hrow
    · exact h.rowFault p a _ _ _

theorem canon_runMms (h : Canon s) (p i n : Nat) (a : MxActive) (o : MmsOps) (rows : Nat) : Canon (runMms p i n a o rows s).s :=
  List.foldlRecOn (motive := fun u : RowRun => Canon u.s) _ _ h fun _ hu r _ => canon_mmsAdmit hu p i a o _ rows r

theorem canon_mxdDrain {u : RowRun} (h : Canon u.s) (p i : Nat) (a : MxActive) (o : MxdOps) (r : Nat) : Canon (mxdDrain p i a o u r).s := by
  unfold mxdDrain
  extract_lets row xs d s1 s2
  have hwritten : Canon (u.s.modSlice p fun sl => sl.writeAll d.1) := h.modSlice p fun sl hsl => sl.wf_writeAll _ hsl
  have hchecked : Canon s1 := (hwritten.raiseMx p _).checkRow p a _ _
  have hfreed : Canon s2 := Canon.ite (hchecked.modCoreSame p fun _ => by rfl) hchecked
  split
  · exact h
  · split
    · exact h.rowFault p a _ _ _
    · exact hfreed.modActive p i _

theorem canon_runMxd (h : Canon s) (p i n : Nat) (a : MxActive) (o : MxdOps) : Canon (runMxd p i n a o s).s :=
  List.foldlRecOn (motive := fun u : RowRun => Canon u.s) _ _ h fun _ hu r _ => canon_mxdDrain hu p i a o r

theorem canon_finishMxclr (h : Canon s) (p : Nat) (o : MxdOps) : Canon (finishMxclr p o s).1 := h.modCoreSame p fun _ => rfl

theorem canon_completeMatrix (h : Canon s) (p i cycles stalls : Nat) : Canon (completeMatrix p i cycles stalls s) := by
  unfold completeMatrix
  extract_lets m
  split
  · exact h
  · next a _ =>
    refine h.ite ?_
    extract_lets r s1 s2
    have hdone : Canon r.1 := by
      unfold r
      split
      · exact canon_finishMxl h p _ _
      · exact canon_runMms h p _ _ _ _ _
      · exact canon_runMxd h p _ _ _ _
      · exact canon_finishMxclr h p _
      · exact h
    have hleft : Canon s1 := hdone.modCoreSame p fun _ => rfl
    have hcounted : Canon s2 := (hleft.count _ _).count _ _
    exact ((hcounted.signal _).progress p).ite hcounted

/-! ### Windows of the matrix engine (04 R117 to R119) -/

/-- An active instruction that faulted leaves the list. -/
theorem Canon.dropActive (h : Canon s) (p i : Nat) (bad : Bool) :
    Canon (if bad then s.modCore p (fun c => { c with mx := { c.mx with active := c.mx.active.eraseIdx i } }) else s) :=
  Canon.ite (h.modCoreSame p fun _ => by rfl) h

theorem canon_admitFrom {x : State × Nat} (h : Canon x.1) (p i : Nat) : Canon (admitFrom p x i).1 := by
  unfold admitFrom
  extract_lets c
  split
  · split
    · split
      · exact (canon_runMms h p i _ _ _ _).dropActive p i _
      · exact h
    · exact h
  · exact h

theorem canon_drainFrom (h : Canon s) (p i : Nat) : Canon (drainFrom p s i) := by
  unfold drainFrom
  extract_lets c
  split
  · split
    · exact .ite ((canon_runMxd h p i 64 _ _).dropActive p i _) h
    · exact h
  · exact h

theorem canon_matrixWindow (h : Canon s) (p : Nat) (g : Limit) (ready : W64) : Canon (matrixWindow p g ready s) := by
  unfold matrixWindow
  extract_lets c held w d s1 s2 s3
  have hlimit : Canon s1 := Canon.modCoreSame (h.drawWords _) p fun _ => by rfl
  have hadmitted : Canon s2 :=
    List.foldlRecOn (motive := fun x : State × Nat => Canon x.1) _ _ hlimit fun _ hx i _ => canon_admitFrom hx p i
  have hdrained : Canon s3 := hadmitted.foldl (fun _ i ht => canon_drainFrom ht p i) _
  exact (hdrained.count _ _).count _ _

theorem canon_execBusyPeriodEnd (h : Canon s) (p : Nat) : CanonNext (execBusyPeriodEnd p s) := .ite (.next (h.modCoreSame p fun _ => by rfl)) (.next h)

theorem canon_execActivityReport (h : Canon s) (island : Nat) (counts : List Nat) (below : Nat) :
    CanonNext (execActivityReport island counts below s) := .ite (.next (h.side (by rfl))) (.next h)

/-! ### The vector engine (05) -/

theorem Canon.vxFault (h : Canon s) (p code : Nat) (x : QEntry) : Canon (s.vxFault p code x) := Canon.freezeCore (h.modCoreSame p fun _ => by rfl) p code

theorem Canon.scrambleRanges (h : Canon s) (p : Nat) (rs : List (Nat × Nat)) : Canon (s.scrambleRanges p rs) :=
  h.foldl (fun _ r ht => (ht.drawBytes r.2).modSlice p fun sl hsl => Slice.wf_when (sl.wf_write _ _ hsl) hsl) _

theorem Canon.vxTake (h : Canon s) (p k : Nat) : Canon (s.vxTake p k) := h.modCoreSame p fun _ => rfl

theorem canon_startUnit (h : Canon s) (p : Nat) (xs : List QEntry) : Canon (startUnit p xs s) := by
  unfold startUnit
  split
  · exact h.vxFault p _ _
  · exact h.vxTake p _

theorem canon_startVector (h : Canon s) (p : Nat) : Canon (startVector p s) := by
  unfold startVector
  extract_lets c
  split
  · exact h
  · refine .ite h (.ite (.ite (h.vxFault p _ _) (.ite (h.vxFault p _ _) (h.vxTake p 1))) (.ite h ?_))
    split
    · exact .ite (h.vxFault p _ _) (canon_startUnit h p _)
    · exact .ite (h.vxFault p _ _) (canon_startUnit h p _)

theorem canon_execVectorChainStart (h : Canon s) (p : Nat) : CanonNext (execVectorChainStart p s) := by
  unfold execVectorChainStart
  extract_lets c
  split
  · exact .next h
  · refine .ite (.next h) ?_
    split
    · exact .next h
    · exact .next (h.vxFault p _ _)
    · exact .next (canon_startUnit h p _)

theorem Canon.vxEnd (h : Canon s) (p : Nat) (xs : List QEntry) (cycles beats opbeats stalls : Nat) :
    Canon (s.vxEnd p xs cycles beats opbeats stalls) := by
  have hidle : Canon (s.modCore p fun c => { c with vx := { c.vx with unit := [] } }) := h.modCoreSame p fun _ => rfl
  exact ((((((hidle.foldl (fun _ x ht => ht.signal _) xs).count _ _).count _ _).count _ _).count _ _).count _ _).progress p

theorem Canon.freeRanges (h : Canon s) (p : Nat) (rs : List (Nat × Nat)) : Canon (s.freeRanges p rs) :=
  h.foldl (fun _ r ht => (ht.drawBytes r.2).modSlice p fun sl hsl => sl.wf_write _ _ hsl) _

theorem Canon.readView (h : Canon s) (p : Nat) (rs : List (Nat × Nat)) : Canon (s.readView p rs).2 := by
  refine Canon.foldl_snd (a := ((s.core p).slice, s)) h (fun _ r ha => ?_) _
  dsimp only
  exact ha.drawBytes r.2

theorem Canon.vxRow (h : Canon s) (p : Nat) (v : VectorEngine) (u : VUnit) (sl : Slice) (r : Nat) : Canon (s.vxRow p v u sl r) :=
  (h.modSlice p fun x hx => x.wf_writeAll _ hx).raiseVx p _

/-- The engine leaves its unit when it faults. -/
theorem Canon.dropUnit (h : Canon s) (p : Nat) : Canon (s.modCore p fun c => { c with vx := { c.vx with unit := [] } }) := h.modCoreSame p fun _ => rfl

theorem canon_finishRows (h : Canon s) (p : Nat) (xs : List QEntry) (u : VUnit) (stalls : Nat) : Canon (finishRows p xs u stalls s) := by
  unfold finishRows
  extract_lets c rd wr beats v
  split
  · exact (((h.scrambleRanges p wr).noteRefused p).dropUnit p).freezeCore p _
  · exact ((h.scrambleRanges p wr).noteBad p _).vxFault p _ _
  · have hview : Canon v.2 := h.readView p _
    exact ((hview.foldl (fun _ r ht => ht.vxRow p _ u _ r) _).freeRanges p _).vxEnd p _ _ _ _ _

theorem canon_finishMoves (h : Canon s) (p : Nat) (x : QEntry) (m : VMember) (u : VUnit) (stalls : Nat) :
    Canon (finishMoves p x m u stalls s) := by
  unfold finishMoves
  extract_lets c ix mv good ea ed wr reads beats
  split
  · exact ((h.noteRefused p).dropUnit p).freezeCore p _
  · exact (h.noteBad p _).vxFault p _ x
  · refine .ite ((h.scrambleRanges p wr).vxFault p _ x) ?_
    split
    · exact (((h.scrambleRanges p wr).noteRefused p).dropUnit p).freezeCore p _
    · exact ((h.scrambleRanges p wr).noteBad p _).vxFault p _ x
    · refine (h.foldl (fun t q ht => .ite ((ht.freeRanges p _).raiseVx p _) ?_) good).vxEnd p _ _ _ _ _
      exact (ht.modSlice p fun sl hsl => sl.wf_write _ _ hsl).raiseVx p _

theorem canon_completeVector (h : Canon s) (p stalls : Nat) : Canon (completeVector p stalls s) := by
  unfold completeVector
  extract_lets v
  split
  · exact h
  · refine .ite (Canon.vxEnd (h.modCoreSame p fun _ => by rfl) p _ _ _ _ _) ?_
    split
    · exact h.vxFault p _ _
    · split
      · exact .ite (canon_finishMoves h p _ _ _ _) (canon_finishRows h p _ _ _)
      · exact canon_finishRows h p _ _ _

theorem canon_execAVop (h : Canon s) (x : InsnHdr) (o : AvopOps) : CanonNext (execAVop x o s) := by
  unfold execAVop
  split
  · exact .next (canon_engDecodeAs h _ _ _ _ _)
  · exact .next (canon_engDecodeAs h _ _ _ _ _)

end

end Sys2Proof.Machine
end

section
/-! PROOFS. The canonical form of the memories: the KV selectors (10). -/

namespace Sys2Proof.Machine

section
variable {s t : State}

theorem Canon.readRecords (h : Canon s) (c dir size : Nat) (is : List Nat) : Canon (s.readRecords c dir size is).2.2 := by
  induction is generalizing s with
  | nil => exact h
  | cons i rest ih =>
    unfold State.readRecords
    extract_lets w a b
    have hwalk : Canon w.2 := h.walkBy _ _ _ _
    have hread : Canon a.2 := hwalk.readBy _ _ _ _
    have hrest : Canon b.2.2 := ih hread
    split
    · exact hwalk.besideTwo
    · exact hwalk.besideTwo
    · split
      · exact hread.besideTwo
      · exact hread.besideTwo
      · exact hrest.besideTwo

theorem Canon.failedReq (h : Canon s) (r : KvsReq) (f : CtxFields) (status : Half) : Canon (s.failedReq r f status).2 := (h.drawBytes 4).beside

theorem Canon.countScored (h : Canon s) (ks : List KvsRecord) : Canon (s.countScored ks) := h.foldl (fun _ _ ht => ht.count _ _) _

theorem Canon.kvSelect (h : Canon s) (k : Nat) (r : KvsReq) (f : CtxFields) : Canon (s.kvSelect k r f).2 := by
  unfold State.kvSelect
  extract_lets n rd s1 mand cand best out pad host
  have hread : Canon s1 := (h.readRecords _ _ _ _).charge _ _ _
  exact .iteAns (hread.failedReq r f _) (.iteAns (hread.failedReq r f _) ((hread.countScored cand).count _ _).beside)

theorem Canon.kvSeal (h : Canon s) (k : Nat) (r : KvsReq) (f : CtxFields) : Canon (s.kvSeal k r f).2 := by
  unfold State.kvSeal
  extract_lets rec' c scaleN own sc en va ks sum w1 w2 w3
  have hown : Canon own.2 := h.rangeKind _ _ _ _ _
  have hscales : Canon sc.2 := hown.readBy _ _ _ _
  have hentry : Canon en.2 := hscales.readBy _ _ _ _
  have hkeys : Canon ks.2 := hentry.readBy _ _ _ _
  have hsummary : Canon w1.2 := hkeys.writeBy _ _ _ _
  have hcount : Canon w2.2 := hsummary.writeBy _ _ _ _
  have hsealed : Canon w3.2 := hcount.writeBy _ _ _ _
  exact .iteAns (hown.failedReq r f _) (.iteAns (hkeys.failedReq r f _) (.iteAns (hkeys.failedReq r f _) (hsealed.count _ _).beside))

/-- The end of a capture: the request fails, selects or seals, and its answer is on its way. -/
theorem Canon.kvAnswer (h : Canon s) (k : Nat) (r : KvsReq) (f : CtxFields) {poisoned bad selects : Prop} [Decidable poisoned] [Decidable bad]
    [Decidable selects] : Canon (if poisoned then s.failedReq r f 0x0006 else if bad then s.failedReq r f 0x0800
      else if selects then s.kvSelect k r f else s.kvSeal k r f).2 :=
  .iteAns (h.failedReq r f _) (.iteAns (h.failedReq r f _) (.iteAns (h.kvSelect k r f) (h.kvSeal k r f)))

theorem Canon.kvCapture (h : Canon s) (k : Nat) (g : KvsReg) (slot : Nat) : Canon (s.kvCapture k g slot) := by
  refine Canon.modSelector (Canon.kvAnswer ?_ k _ _) k _
  refine Canon.ite (Canon.modPanelSame (Canon.count ?_ _ _) g.panel fun _ => by rfl) ?_
  · exact (h.hbmRead _ _ _).hbmRead _ _ _
  · exact (h.hbmRead _ _ _).hbmRead _ _ _

theorem canon_execKvsTrigger (h : Canon s) (off : Nat) : CanonNext (execKvsTrigger off s) := by
  unfold execKvsTrigger
  dsimp only
  split
  · exact .next h
  · exact .ite (.next h) (.ite (.next ((h.count _ _).event _)) (.ite (.next (h.kvCapture _ _ _)) (.next (h.modSelector _ _))))

theorem canon_execKvsCapture (h : Canon s) (k : Nat) : CanonNext (execKvsCapture k s) := by
  unfold execKvsCapture
  dsimp only
  split
  · exact .next h
  · exact .ite (.next ((h.modSelector k _).kvCapture k _ _)) (.next h)

theorem Canon.deliverAll (h : Canon s) (p : Nat) (r : KvsReq) (ps : List (Nat × List Byte)) : Canon (s.deliverAll p r ps) := by
  induction ps generalizing s with
  | nil => exact h
  | cons x rest ih => exact ih (h.netSend p _)

theorem Canon.failSeqs (h : Canon s) (k : Nat) (status : Half) (p : SeqEntry → Bool) : Canon (s.failSeqs k status p) := h.modPanelSame k fun _ => rfl

theorem Canon.noteHostPages (h : Canon s) (k slot : Nat) (noticed : Bool) : Canon (s.noteHostPages k slot noticed) := h.modPanelSame k fun _ => rfl

theorem Canon.pageInNotice (h : Canon s) (r : KvsReq) : Canon (s.pageInNotice r) := by
  unfold State.pageInNotice
  split
  · exact h
  · extract_lets w size es s1 s2 s3
    have hbytes : Canon s1 := h.foldl (fun _ _ ht => ht.emit _) _
    have hindex : Canon s2 := hbytes.modWindow _ _
    have hnotice : Canon s3 := hindex.putItem _ _
    exact .ite ((h.count _ _).noteHostPages _ _ _) (hnotice.noteHostPages _ _ _)

theorem Canon.reportReq (h : Canon s) (k : Nat) (r : KvsReq) : Canon (s.reportReq k r) := (((h.count _ _).event _).modSelector k _).failSeqs _ _ _

theorem canon_execKvsResultDeliver (h : Canon s) (k index : Nat) : CanonNext (execKvsResultDeliver k index s) := by
  unfold execKvsResultDeliver
  split
  · exact .next h
  · next r _ =>
    extract_lets s1 s2 s3
    have hleft : Canon s1 := h.modSelector k _
    have hreported : Canon s2 := hleft.ite (hleft.reportReq k r)
    have hdelivered : Canon s3 := by
      unfold s3
      split
      · exact (hreported.deliverAll _ r _).ite hreported
      · exact hreported
    exact .ite (.next h) (.next (hdelivered.ite (hdelivered.pageInNotice r)))

theorem Canon.cancelReqs (h : Canon s) (c : Nat) : Canon (s.cancelReqs c) := h.foldl (fun _ k ht => ht.modSelector k _) _

theorem Canon.installKv (h : Canon s) (g : KvsReg) : Canon (s.installKv g) := (h.foldl (fun _ k ht => ht.modSelector k _) _).modSelector _ _

theorem Canon.offerKv (h : Canon s) (g : KvsReg) : Canon (s.offerKv g) := h.ite (h.installKv g)

theorem Canon.startKv (h : Canon s) (st : Step) : Canon (s.startKv st) := by
  unfold State.startKv
  split
  · exact h.installKv _
  · exact h

theorem Canon.unregisterKvs (h : Canon s) (c : Nat) : Canon (s.unregisterKvs c) := h.foldl (fun _ k ht => ht.modSelector k _) _

end

end Sys2Proof.Machine
end

section
/-! PROOFS. The canonical form of the memories: the dispatch unit (11). -/

namespace Sys2Proof.Machine

section
variable {s t : State}

/-! ### Jobs, counters and failures -/

theorem Canon.modJob (h : Canon s) (i : Nat) (f : EduJob → EduJob) : Canon (s.modJob i f) := h.side rfl

theorem Canon.raiseIn (h : Canon s) (k p c : Nat) : Canon (s.raiseIn k p c) := by
  unfold State.raiseIn
  split
  · exact h.raiseCtr _ _
  · exact h

theorem Canon.eduSendRaise (h : Canon s) (i : Nat) (j : EduJob) : Canon (s.eduSendRaise i j) := h.ite ((h.raiseIn _ _ _).modJob i _)
theorem Canon.eduRecvRaise (h : Canon s) (i : Nat) (j : EduJob) : Canon (s.eduRecvRaise i j) := h.ite ((h.raiseIn _ _ _).modJob i _)
theorem Canon.eduCombRaise (h : Canon s) (i : Nat) (j : EduJob) : Canon (s.eduCombRaise i j) := h.ite ((h.raiseIn _ _ _).modJob i _)
theorem Canon.loadAdd (h : Canon s) (layer expert req ref : Nat) : Canon (s.loadAdd layer expert req ref) := h.side rfl
theorem Canon.eduReport (h : Canon s) (j : EduJob) (status : Half) : Canon (s.eduReport j status) := h.side rfl
theorem Canon.eduFailToks (h : Canon s) (j : EduJob) (status : Half) (p : Nat → Bool) : Canon (s.eduFailToks j status p) := h.failSeqs _ _ _

theorem Canon.combineRow (h : Canon s) (j : EduJob) (tok : Nat) : Canon (s.combineRow j tok).2 := by
  unfold State.combineRow
  extract_lets hid ret size mine ranks rd comb w
  have hread : Canon rd.2.2 := by
    refine List.foldlRecOn (motive := fun a : Half × List (W32 × List Byte) × State => Canon a.2.2) _ _ h fun a ha r _ => ?_
    exact Canon.besideTwo (ha.readBy _ _ _ _)
  have hwritten : Canon w.2 := hread.writeBy _ _ _ _
  exact .iteAns hread.beside hwritten.beside

theorem Canon.eduCountRefused (h : Canon s) (j : EduJob) (xs : List (Nat × Nat)) : Canon (s.eduCountRefused j xs) :=
  Canon.modPanelSame ((h.foldl (fun _ _ ht => ht.loadAdd _ _ _ _) _).count _ _) j.panel fun _ => by rfl

theorem Canon.eduRefuseAll (h : Canon s) (j : EduJob) : Canon (s.eduRefuseAll j) :=
  .ite ((h.foldl (fun _ _ ht => ht.loadAdd _ _ _ _) _).eduCountRefused j _) (h.eduCountRefused j _)

theorem Canon.eduFail (h : Canon s) (i : Nat) (status : Half) : Canon (s.eduFail i status) := by
  unfold State.eduFail
  split
  · exact h
  · next j _ =>
    extract_lets s0 s1 s2 s3
    have hrefused : Canon s0 := h.eduRefuseAll j
    have hcombined : Canon s1 := hrefused.foldl (fun _ tok ht => ht.combineRow _ tok) _
    have hraised : Canon s2 := ((hcombined.eduSendRaise i j).eduRecvRaise i j).eduCombRaise i j
    have hfailed : Canon s3 := hraised.failSeqs _ _ _
    exact ((hfailed.modJob i _).eduReport j status).count _ _

theorem Canon.eduPoisonTok (h : Canon s) (i : Nat) (j : EduJob) (tok : Nat) : Canon (s.eduPoisonTok i j tok) :=
  (((h.eduCountRefused j _).modJob i _).eduFailToks j 6 _).eduReport j 6

theorem Canon.eduCombine (h : Canon s) (i tok : Nat) : Canon (s.eduCombine i tok) := by
  unfold State.eduCombine
  split
  · exact h
  · next j _ =>
    extract_lets a z
    have hrow : Canon a.2 := h.combineRow j tok
    have hagain : Canon z.2 := (hrow.eduPoisonTok i j tok).combineRow _ tok
    exact .ite hrow (.ite (hagain.ite (hagain.eduFail i _)) (hrow.eduFail i _))

theorem Canon.eduLose (h : Canon s) (i m : Nat) (status : Half) : Canon (s.eduLose i m status) := by
  unfold State.eduLose
  split
  · exact h
  · exact ((h.failSeqs _ _ _).modJob i _).eduReport _ _

/-! ### What a job sends, places and returns -/

theorem Canon.eduGate (h : Canon s) (j : EduJob) : Canon (s.eduGate j).2 := by
  unfold State.eduGate
  extract_lets size
  refine Canon.foldl_snd (a := (({} : GateRead), s)) h (fun a tok ha => .iteAns ha ?_) _
  extract_lets g
  have hread : Canon g.2 := ha.readBy _ _ _ _
  split
  · exact hread.beside
  · exact hread.beside
  · split
    · exact hread.beside
    · exact hread.beside

theorem Canon.eduMsg (h : Canon s) (dest : Nat) (j : EduJob) (x : EduHdr) (data : List Byte) : Canon (s.eduMsg dest j x data) :=
  h.foldl (fun _ _ ht => ht.sendOrWait _ _ _ _ _) _

theorem Canon.eduGo (h : Canon s) (i : Nat) (j : EduJob) : Canon (s.eduGo i j) := by
  unfold State.eduGo
  extract_lets a
  have hread : Canon a.2 := h.readBy _ _ _ _
  split
  · exact hread.eduFail i _
  · exact hread.eduFail i _
  · extract_lets j1 g own j2 cs s0 s1 s2
    have hgate : Canon g.2 := hread.eduGate j1
    have hcounts : Canon s0 := hgate.modJob i _
    have hfailed : Canon s1 := by
      unfold s1
      split
      · exact hcounts.eduFailToks j2 _ _
      · exact hcounts
    have hpoison : Canon s2 := hfailed.ite (((hfailed.eduFailToks j2 6 _).eduCountRefused j2 _).eduReport j2 6)
    exact .ite ((hgate.modJob i _).eduFail i _) (hpoison.foldl (fun _ m ht => ht.eduMsg m j2 _ _) _)

theorem Canon.eduDrop (h : Canon s) (die c : Nat) : Canon (s.eduDrop die c) := (h.count _ _).ite (h.side (by rfl))

theorem Canon.eduRefusals (h : Canon s) (j : EduJob) : Canon (s.eduRefusals j) :=
  (h.foldl (fun _ _ ht => ht.loadAdd _ _ _ _) _).eduCountRefused j _

theorem Canon.eduPlace (h : Canon s) (i : Nat) (j : EduJob) (inst row slot tok rank : Nat) (data : List Byte) :
    Canon (s.eduPlace i j inst row slot tok rank data) := by
  unfold State.eduPlace
  extract_lets loc size base a b
  have hrow : Canon a.2 := h.writeBy _ _ _ _
  have htag : Canon b.2 := hrow.writeBy _ _ _ _
  exact .ite (htag.modJob i _) (htag.eduFail i _)

theorem Canon.eduArrive (h : Canon s) (i tok r : Nat) (data : List Byte) : Canon (s.eduArrive i tok r data) := by
  unfold State.eduArrive
  split
  · exact h
  · extract_lets a j1 s1
    have hwritten : Canon a.2 := h.writeBy _ _ _ _
    have hnoted : Canon s1 := hwritten.modJob i _
    exact .ite (hwritten.eduFail i _) ((hnoted.eduCombine i tok).ite hnoted)

theorem Canon.eduClose (h : Canon s) (i : Nat) : Canon (s.eduClose i) := by
  unfold State.eduClose
  split
  · exact h
  · next j _ =>
    have hraised := h.eduCombRaise i j
    exact .ite h (.ite ((hraised.modJob i _).count _ _) hraised)

theorem Canon.eduReturnRow (h : Canon s) (i : Nat) (j : EduJob) (x : Instance × Nat) (a : Nat) : Canon (s.eduReturnRow i j x a) := by
  unfold State.eduReturnRow
  extract_lets own ret n base o g tag late src tok rank bad data hdr
  have hrow : Canon o.2 := h.readBy _ _ _ _
  have htag : Canon g.2 := hrow.readBy _ _ _ _
  refine .ite (htag.eduFail i _) (.ite ?_ ((htag.eduMsg _ j _ _).count _ _))
  split
  · exact htag
  · exact .ite ((htag.eduPoisonTok i j _).eduCombine i _) ((Canon.ite (htag.eduFailToks j _ _) htag).eduArrive i _ _ _)

theorem Canon.eduReturn (h : Canon s) (i : Nat) (j : EduJob) : Canon (s.eduReturn i j) := by
  refine Canon.eduClose (Canon.foldl (h.modJob i _) (fun t x ht => ht.foldl (fun u a hu => ?_) _) _) i
  split
  · exact hu.ite (hu.eduReturnRow i _ x a)
  · exact hu

theorem Canon.eduReceive (h : Canon s) (i : Nat) : Canon (s.eduReceive i) := by
  unfold State.eduReceive
  split
  · exact h
  · next j _ =>
    extract_lets own w s2
    have hwritten : Canon w.2 := Canon.foldl_snd (a := (true, s)) h (fun _ x ha => (ha.writeBy _ _ _ _).beside) _
    have hraised : Canon s2 := hwritten.eduRecvRaise i j
    exact .ite h (.ite (hwritten.eduFail i _) ((hraised.eduReturn i _).ite hraised))

theorem Canon.eduSendRow (h : Canon s) (i : Nat) (a : Nat × Nat × Nat × Nat) : Canon (s.eduSendRow i a) := by
  unfold State.eduSendRow
  split
  · exact h
  · next j _ =>
    extract_lets n rd own host
    have hread : Canon rd.2 := h.readBy _ _ _ _
    refine .ite h ?_
    split
    · exact hread.eduFail i _
    · exact hread.eduPoisonTok i j _
    · exact .ite (hread.eduPlace i j _ _ _ _ _ _) ((hread.eduMsg _ j _ _).count _ _)

theorem Canon.eduSend (h : Canon s) (i : Nat) (j : EduJob) : Canon (s.eduSend i j) := by
  unfold State.eduSend
  extract_lets s1
  have hrows : Canon s1 := h.foldl (fun _ a ht => ht.eduSendRow i a) _
  split
  · exact hrows
  · next j1 _ =>
    have hsent := (hrows.eduSendRaise i j1).modJob i fun j => { j with phase := if j.back then .returning else .waitReturn }
    exact .ite hrows (((hsent.foldl (fun _ tok ht => ht.eduCombine i tok) _).eduReceive i).eduClose i)

theorem Canon.eduPump (h : Canon s) : Canon s.eduPump := by
  refine h.foldl (fun t i ht => ?_) _
  split
  · exact (ht.eduSend i _).ite ht
  · exact ht

/-! ### Placement revisions and the commands of the unit -/

theorem Canon.placePending (h : Canon s) (c : Nat) (tb : List Byte) : Canon (s.placePending c tb) := h.side rfl

theorem Canon.writeRevision (h : Canon s) (c : Nat) (tb : List Byte) : Canon (s.writeRevision c tb) := by
  have hrevised : Canon { s with edu := { s.edu with revisions := Tab.set s.edu.revisions c (s.time, tb) } } := h.side rfl
  exact Canon.foldl ((hrevised.placePending c tb).ite hrevised) (fun _ _ ht => ht.emit _) _

theorem Canon.reviseAgain (h : Canon s) (c : Nat) : Canon (s.reviseAgain c) := by
  unfold State.reviseAgain
  split
  · exact (h.writeRevision c _).ite h
  · exact h

theorem canon_execEduGoWrite (h : Canon s) (off : Nat) : CanonNext (execEduGoWrite off s) := by
  unfold execEduGoWrite
  split
  · exact .next h
  · exact .ite (.next h) (.ite (.next (h.eduGo _ _).eduPump) (.next (h.event _)))

theorem canon_execEduCountMsg (h : Canon s) (x : EduHdr) (counts : List Nat) : CanonNext (execEduCountMsg x counts s) := by
  have hdrop (die c : Nat) : CanonNext (.next (s.eduDrop die c)) := .next (h.eduDrop die c)
  refine .ite (.next h) ?_
  split
  · exact hdrop _ _
  · exact .ite (hdrop _ _) (.ite (.next h) (.ite (hdrop _ _) (.ite (.next ((h.eduLose _ _ _).reviseAgain _)) (.ite (hdrop _ _)
      (.next (h.modJob _ _))))))

theorem canon_execEduCapacityAssign (h : Canon s) (die job : Nat) : CanonNext (execEduCapacityAssign die job s) := by
  unfold execEduCapacityAssign
  split
  · exact .next h
  · exact .ite (.next h) (.next (((h.modJob job _).eduRefusals _).eduReceive job).eduPump)

theorem canon_execEduDispatchMsg (h : Canon s) (x : EduHdr) (row : List Byte) : CanonNext (execEduDispatchMsg x row s) := by
  refine .ite (.next h) ?_
  split
  · exact .next (h.eduDrop _ _)
  · exact .ite (.next h) (.ite (.next (h.eduDrop _ _)) (.next (((h.eduPlace _ _ _ _ _ _ _ _).count _ _).eduReceive _).eduPump))

theorem canon_execEduReturnWrite (h : Canon s) (off : Nat) : CanonNext (execEduReturnWrite off s) := by
  unfold execEduReturnWrite
  split
  · exact .next h
  · exact .ite (.next h) (.ite (.next (h.event _)) (.ite (.next (h.eduReturn _ _).eduPump) (.next (h.modJob _ _))))

theorem canon_execEduReturnMsg (h : Canon s) (x : EduHdr) (row : List Byte) : CanonNext (execEduReturnMsg x row s) := by
  refine .ite (.next h) ?_
  split
  · exact .next (h.eduDrop _ _)
  · next j i _ =>
    split
    · exact .next (h.eduDrop _ _)
    · next y _ =>
      have hzeroed : Canon (if x.zeroed then (s.eduFailToks j 0x902 (fun tok => decide (tok = y.1))).eduReport j 0x902 else s) :=
        ((h.eduFailToks j _ _).eduReport j _).ite h
      exact .ite (.next h) (.ite (.next (h.eduDrop _ _)) (.ite (.next (((h.eduPoisonTok i j _).eduCombine i _).eduClose i).eduPump)
        (.next ((hzeroed.eduArrive i _ _ row).eduClose i).eduPump)))

theorem canon_execEduCountTimeout (h : Canon s) (die job : Nat) : CanonNext (execEduCountTimeout die job s) := by
  unfold execEduCountTimeout
  split
  · exact .next h
  · exact .ite (.next h) (.next (h.foldl (fun _ m ht => ht.eduLose job m _) _))

theorem canon_execEduRecvTimeout (h : Canon s) (die job : Nat) : CanonNext (execEduRecvTimeout die job s) := by
  unfold execEduRecvTimeout
  split
  · exact .next h
  · next j _ =>
    have hzeroed (missing : List (Nat × Nat)) (f : Nat × Nat → Nat) (n : Nat) :
        Canon (missing.foldl (fun s m => s.eduPlace job j m.1 m.2 (f m) 0 0 (zeros n)) s) :=
      h.foldl (fun _ m ht => ht.eduPlace job j _ _ _ _ _ _) _
    exact .ite (.next h) (.next ((((hzeroed _ _ _).modJob job _).eduReport j _).eduReceive job).eduPump)

theorem Canon.eduCancel (h : Canon s) (c : Nat) : Canon (s.eduCancel c) := h.side rfl

end

end Sys2Proof.Machine
end

section
/-! PROOFS. The canonical form of the memories: key slots, STEP_RUN, and what a step writes at its ends (10 R270, 12, 13, 17). -/

namespace Sys2Proof.Machine

section
variable {s t : State}

/-! ### Key slots (17 R441 to R447) -/

theorem Canon.newMaterial (h : Canon s) : Canon s.newMaterial.2 := h.side rfl
theorem Canon.dropGenLines (h : Canon s) (slot : Nat) (g : BitVec 8) : Canon (s.dropGenLines slot g) := h.mscDropAll _
theorem Canon.noteDestroyed (h : Canon s) (slot : Nat) (g : BitVec 8) : Canon (s.noteDestroyed slot g) := (h.modSlot slot _).count _ _

theorem Canon.destroyRetiring (h : Canon s) (slot : Nat) : Canon (s.destroyRetiring slot) := by
  unfold State.destroyRetiring
  split
  · exact h
  · exact ((h.modSlot slot _).dropGenLines slot _).noteDestroyed slot _

theorem Canon.emptySlot (h : Canon s) (slot : Nat) : Canon (s.emptySlot slot) := by
  unfold State.emptySlot
  extract_lets k s1 s2
  have hdestroyed : Canon s1 := ((h.destroyRetiring slot).dropGenLines slot _).noteDestroyed slot _
  have hempty : Canon s2 := hdestroyed.modSlot slot _
  exact .ite (h.modSlot slot _) (hempty.side (by rfl))

theorem Canon.installKey (h : Canon s) (slot type tenant : Nat) (g : BitVec 8) (shared : Bool) :
    Canon (s.installKey slot type tenant g shared) := by
  unfold State.installKey
  extract_lets m s1
  have hslot : Canon s1 := h.newMaterial.modSlot slot _
  exact hslot.side rfl

theorem Canon.newSlot0 (h : Canon s) : Canon s.newSlot0 := h.newMaterial.modSlot 0 _

theorem Canon.beginErase (h : Canon s) (slot : Nat) : Canon (s.beginErase slot) := (h.mscClean slot).modSlot slot _

/-! ### Registrations of a context (10 R275, 14 R370) -/

theorem Canon.rangesKind (h : Canon s) (g : Agent) (c : Nat) (rs : List (Nat × Nat × Bool)) : Canon (s.rangesKind g c rs).2 :=
  Canon.foldl_snd (a := (0, s)) h (fun _ _ ha => .iteAns ha (ha.rangeKind g c _ _ _)) _

theorem Canon.checkKv (h : Canon s) (c : Nat) : Canon (s.checkKv c).2 := by
  unfold State.checkKv
  extract_lets x pn va a
  have hwalk : Canon a.2 := h.walk _ _ _ _ _ _ _ _
  -- The lookup of an address becomes a variable: the kernel would compute its products by 2 ^ 16.
  obtain ⟨own, hown⟩ : ∃ own, State.ownHbm = own := ⟨_, rfl⟩
  rw [hown]
  refine .iteAns h ?_
  split
  · exact hwalk.beside
  · split
    · exact hwalk.beside
    · exact .iteAns hwalk.beside hwalk.beside

theorem Canon.registerKv (h : Canon s) (c : Nat) : Canon (s.registerKv c).2 := by
  unfold State.registerKv
  dsimp only
  split
  · exact (h.checkKv c).offerKv _
  · exact h.checkKv c

theorem Canon.registerPost (h : Canon s) (c : Nat) : Canon (s.registerPost c).2 := by
  unfold State.registerPost
  extract_lets x a
  have hwalk : Canon a.2 := h.walkBy _ _ _ _
  refine .iteAns h ?_
  split
  · exact hwalk.beside
  · exact hwalk.beside
  · exact .iteAns hwalk.beside (hwalk.side (by rfl)).beside

theorem Canon.unregisterPost (h : Canon s) (c : Nat) : Canon (s.unregisterPost c) := h.side rfl
theorem Canon.unregister (h : Canon s) (c : Nat) : Canon (s.unregister c) := (h.unregisterKvs c).unregisterPost c

theorem Canon.release (h : Canon s) (c : Nat) : Canon (s.release c) := by
  unfold State.release
  extract_lets of s1
  have hkvs : Canon s1 := h.ite (h.unregisterKvs c)
  exact hkvs.ite (hkvs.unregisterPost c)

/-! ### STEP_RUN (12 R309) -/

theorem Canon.readBlock (h : Canon s) (c va : Nat) (table : List Byte) : Canon (s.readBlock c va table).2.2 := by
  unfold State.readBlock
  extract_lets none' g r a
  have hgo : Canon g.2 := (h.walkOwn c va true).snd_of g rfl
  have hreturn : Canon r.2 := (hgo.walkOwn c (va + 64) true).snd_of r rfl
  have hread : Canon a.2 := (hreturn.readVa c va 256).snd_of a rfl
  split
  · exact h.besideTwo
  · split
    · split
      · exact hread.besideTwo
      · exact (hread.rangesKind _ _ _).besideTwo
    · exact hread.besideTwo
    · exact hread.besideTwo

theorem Canon.readBlocks (h : Canon s) (c : Nat) (table : List Byte) (vas : List Nat) : Canon (s.readBlocks c table vas).2.2 := by
  refine List.foldlRecOn (motive := fun a : Nat × List StepBlock × State => Canon a.2.2) _ _ h fun a ha va _ => ?_
  split
  · exact ha
  · exact (ha.readBlock c va table).besideTwo

theorem Canon.point3b (h : Canon s) (c : Nat) (ps table : List Byte) : Canon (s.point3b c ps table).2 := by
  unfold State.point3b
  extract_lets a b d kv po
  have hlists : Canon d.2 := Canon.readVa (Canon.readVa (h.readVa _ _ _) _ _ _) _ _ _
  have hkv : Canon kv.2 := hlists.registerKv c
  have hpost : Canon po.2 := hkv.registerPost c
  split
  · extract_lets q par bl
    exact .iteAns hlists.beside (.iteAns hkv.beside (.iteAns hpost.beside (.iteAns hpost.beside (hpost.readBlocks c table _).beside)))
  · exact hlists.beside

theorem Canon.point3 (h : Canon s) (c : Nat) (ps table : List Byte) : Canon (s.point3 c ps table).2 := by
  unfold State.point3
  extract_lets k r
  have htables : Canon k.2 := h.rangesKind _ _ _
  have hread : Canon r.2 := htables.point3b c ps table
  exact .iteAns htables.beside (.iteAns hread (hread.release c).beside)

theorem Canon.joinQueue (h : Canon s) (k : Nat) (st : Step) (model : Half) : Canon (s.joinQueue k st model) := by
  have hawake := h.wakePanel k
  exact .ite (hawake.modPanelSame k fun _ => by rfl) (.ite (Canon.takeRise (hawake.modPanelSame k fun _ => by rfl) _)
    ((Canon.takeRise (hawake.modPanelSame k fun _ => by rfl) _).waitGrant _ _))

theorem Canon.startCompanion (h : Canon s) (st : Step) (fb : Nat) (tp : Fallback) (out : List SeqEntry) (kv : Option KvsReg) :
    Canon (s.startCompanion st fb tp out kv) := h.joinQueue _ _ _

theorem Canon.takePlacement (h : Canon s) (st : Step) : Canon (s.takePlacement st) := h.ite (h.side (by rfl))

theorem Canon.enqueueStep (h : Canon s) (c k : Nat) (p : Packet) (r : Point3) : Canon (s.enqueueStep c k p r) := h.joinQueue _ _ _

theorem Canon.giveOut (h : Canon s) (st : Step) (out : List SeqEntry) (fb : Nat × Fallback) : Canon (s.giveOut st out fb).2 := by
  have hkv := h.registerKv fb.1
  have hboth : Canon (s.registerBoth fb.1).2 := .iteAns (hkv.registerPost _) hkv.beside
  exact .iteAns (hboth.startCompanion _ _ _ _ _).beside (hboth.release _).beside

theorem Canon.passPoint4 (h : Canon s) (st : Step) : Canon (s.passPoint4 st).2 := by
  have hpoint : Canon (s.atPoint4 st) := (h.takePlacement st).modCtx _ _
  rw [State.passPoint4_eq]
  refine .iteAns hpoint ?_
  cases s.fallbackOf st.ctx (fallbackCtx st.params) with
  | none => exact (hpoint.event _).beside
  | some fb => exact hpoint.giveOut st _ fb

theorem canon_execStepRun (h : Canon s) (fn w : Nat) : CanonNext (execStepRun fn w s) := by
  unfold execStepRun
  extract_lets k
  split
  · next p c _ _ =>
    extract_lets p1 table e r
    have hread : Canon r.2 := (h.evalAdmission _).point3 c p.params table
    exact .ite (.next h) (.ite (.next (h.endPacket _ _ _ _ _)) (.ite (.next ((h.event _).endPacket _ _ _ _ _))
      (.ite (.next (h.endPacket _ _ _ _ _)) (.ite (.next (hread.endPacket _ _ _ _ _)) (.next (hread.enqueueStep c k p1 _))))))
  · exact .next h

/-! ### Tree blocks, buckets and compaction (13 R331, 10 R270) -/

theorem Canon.writeTrees (h : Canon s) (st : Step) : Canon (s.writeTrees st) := h.foldl (fun _ _ ht => (ht.drawBytes 512).writeVa _ _ _) _

theorem Canon.writeBuckets (h : Canon s) (st : Step) : Canon (s.writeBuckets st) := h.foldl (fun _ _ ht => ht.writeVa _ _ _) _

theorem Canon.movePos (h : Canon s) (c dir src dst : Nat) : Canon (s.movePos c dir src dst).2 := by
  unfold State.movePos
  extract_lets f p d z code ra rb ea eb pa pb js jd k ks sa sb vals s0 cmd s1 w1 w2
  have hpages : Canon eb.2 := (h.readVa c _ _).readVa c _ _
  have hreads : Canon sb.2 := (((hpages.readVa c _ _).readVa c _ _).readVa c _ _).readVa c _ _
  have hvals : Canon vals.2.2 := by
    refine List.foldlRecOn (motive := fun a : List (Nat × Bool) × Bool × State => Canon a.2.2) _ _ hreads fun a ha e _ => ?_
    exact Canon.besideTwo (ha.readVa c _ _)
  have hclamped : Canon s1 := Canon.ite (hvals.side (by rfl)) hvals
  have hwritten : Canon w2.2 := (hclamped.writeVa c _ _).writeVa c _ _
  refine .iteAns (Canon.foldl_snd (a := (w1.1 && w2.1, w2.2)) hwritten (fun a v ha => ?_) _) hvals.beside
  exact Canon.beside ((ha.readVa c _ _).writeVa c _ _)

theorem Canon.compactSeq (h : Canon s) (st : Step) (q : SeqEntry) : Canon (s.compactSeq st q).2 := by
  unfold State.compactSeq
  extract_lets par v x path mine moved
  have hread : Canon v.2 := (h.readVa st.ctx (treeAt st.params q.ordinal + 17408) 64).snd_of v rfl
  have hmoved : CanonAns moved := by
    refine CanonAns.foldl (a := (true, v.2)) hread.ans (fun a dir ha => ?_) mine
    refine CanonAns.foldl (a := a) ha (fun b j hb => ?_) _
    exact .ite hb (Canon.ans (Canon.movePos hb _ _ _ _))
  exact .iteAns hread.beside (Canon.beside hmoved)

theorem Canon.compactTrees (h : Canon s) (st : Step) : Canon (s.compactTrees st).2 := by
  refine Canon.foldl_snd (a := (([] : List SeqEntry), s)) h (fun a q ha => ?_) st.seqs
  exact .iteAns (ha.compactSeq st q).beside ha.beside

/-! ### Sealed entries (17 R454 to R457) -/

theorem Canon.sealDone (h : Canon s) (c at' : Nat) (e : List Byte) (status : Half) : Canon (s.sealDone c at' e status) :=
  (h.writeVa c _ _).writeVa c _ _

theorem Canon.modSession (h : Canon s) (slot : Nat) (f : Session → Session) : Canon (s.modSession slot f) := by
  unfold State.modSession
  split
  · exact h.side rfl
  · exact h

theorem Canon.openInput (h : Canon s) (st : Step) (e : List Byte) : Canon (s.openInput st e).2 := by
  unfold State.openInput
  extract_lets c slot ctr n p v ok d s0 s1 s2
  split
  · exact h.beside
  have hdrawn : Canon s0 := ((h.drawBytes 1).drawBytes n).ite (h.drawBytes 1)
  have hplain : Canon s1 := hdrawn.modSlice p fun sl hsl => sl.wf_write _ _ hsl
  have hused : Canon s2 := (hplain.modSession _ _).count _ _
  have hclosed : Canon (if ctr = 2 ^ 64 - 1 then s2.beginErase slot else s2) := (hused.beginErase slot).ite hused
  exact .iteAns h.beside (.iteAns h.beside (.iteAns ((h.event _).count _ _).beside (.iteAns (hdrawn.noteRefused p).beside
    (.iteAns hclosed.beside ((hplain.event _).count _ _).beside))))

theorem Canon.sealOutput (h : Canon s) (st : Step) (at' : Nat) (e : List Byte) : Canon (s.sealOutput st at' e).2 := by
  unfold State.sealOutput
  extract_lets c slot n p d tag s1
  split
  · exact h.beside
  extract_lets ctr w s2
  have hread : Canon s1 := ((((h.noteReads p _).portBRead p _ _).drawBytes _).drawBytes _).emit _
  have hwritten : Canon s2 := Canon.count (Canon.modSession (hread.writeVa _ _ _) _ _) _ _
  have hclosed : Canon (if ctr = BitVec.ofNat 64 (2 ^ 64 - 1) then s2.beginErase slot else s2) := (hwritten.beginErase slot).ite hwritten
  refine .iteAns h.beside (.iteAns h.beside (.iteAns (h.noteRefused p).beside ?_))
  split
  · exact (h.noteBad p _).beside
  · exact hclosed.beside

theorem Canon.runSealed (h : Canon s) (k : Nat) (st : Step) (kind : Nat) : Canon (s.runSealed k st kind) := by
  unfold State.runSealed
  refine .ite h (h.foldl (fun t i ht => ?_) _)
  extract_lets at' a
  have hread : Canon a.2 := ht.readVa _ _ _
  split
  · next e _ =>
    extract_lets r s1
    have hentry : Canon r.2 := .iteAns (hread.openInput st e) (hread.sealOutput st at' e)
    have hdone : Canon s1 := hentry.sealDone _ _ _ _
    exact .ite hread (.ite hdone (hdone.failSeqs k _ _))
  · exact hread

end

end Sys2Proof.Machine
end

section
/-! PROOFS. The canonical form of the memories: hand-offs, ends, switches and restores of steps (13). -/

namespace Sys2Proof.Machine

section
variable {s t : State}

/-! ### What hand-offs, resets and restores leave in a slice -/

theorem Slice.wf_wipeSecure {sl : Slice} (h : Mem.wf sl.mem = true) : Mem.wf sl.wipeSecure.mem = true := by
  refine List.foldlRecOn (motive := fun x : Slice => Mem.wf x.mem = true) _ _ h fun x hx tile _ => ?_
  split
  · exact Mem.wf_zeroRange _ _ _ hx
  · exact Mem.wf_zeroRange _ _ _ hx

theorem Slice.wf_handoff {sl : Slice} (h : Mem.wf sl.mem = true) (c : Nat) (gen : BitVec 8) (secure : Bool) :
    Mem.wf (sl.handoff c gen secure).mem = true := by
  have hwiped := Slice.wf_wipeSecure h
  unfold Slice.handoff
  dsimp only
  split
  · exact hwiped
  · exact h

theorem Core.wf_resetSlice (c : Core) (on ret : W32) (sl : Slice) : Mem.wf (c.resetSlice on ret sl).mem = true := by
  have hreset : Mem.wf (sl.panelReset on ret).mem = true := Mem.wf_nil
  have hentered := Slice.wf_enterC2 hreset
  unfold Core.resetSlice
  dsimp only
  split
  · exact Slice.wf_allOff _
  · split
    · exact hentered
    · exact hreset

/-- Cells that are written one after another. -/
theorem Mem.wf_foldl_write {m : Mem} (h : Mem.wf m = true) (cells : List (Nat × Byte)) :
    Mem.wf (cells.foldl (fun m c => Mem.write m c.1 c.2) m) = true :=
  List.foldlRecOn (motive := fun x : Mem => Mem.wf x = true) _ _ h fun x hx c _ => Mem.wf_write x c.1 c.2 hx

theorem Slice.wf_takeBack {sl : Slice} (h : Mem.wf sl.mem = true) (v : Slice) (st : Step) : Mem.wf (sl.takeBack v st).mem = true := by
  have hwiped := Slice.wf_wipeSecure h
  unfold Slice.takeBack
  extract_lets on sl0 sl1 cells
  have hstart : Mem.wf sl0.mem = true := Slice.wf_when hwiped h
  clear_value sl0
  have hzeroed : Mem.wf sl1.mem = true :=
    List.foldlRecOn (motive := fun x : Slice => Mem.wf x.mem = true) _ _ hstart fun x hx tile _ => Mem.wf_zeroRange _ _ _ hx
  clear_value sl1 cells
  rw [Slice.mem_retarget]
  exact Mem.wf_foldl_write hzeroed cells

theorem Slice.wf_reload {v : Slice} (h : Mem.wf v.mem = true) (sl : Slice) : Mem.wf (sl.reload v).mem = true := Mem.wf_filter _ _ h

/-! ### Panel resets (13 R349) -/

theorem Canon.applyPairing (h : Canon s) (k : Nat) : Canon (s.applyPairing k) := by
  unfold State.applyPairing
  extract_lets pr s1
  have hlet : Canon s1 := by
    refine h.foldl (fun t p ht => ht.modCore p fun c hc => ?_) _
    split
    · exact hc
    · exact Core.wf_letGo _
  exact hlet.foldl (fun _ e ht => (ht.modCoreSame e.2 fun _ => by rfl)) _

theorem canon_execPanelReset (h : Canon s) (k : Nat) : CanonNext (execPanelReset k s) := by
  unfold execPanelReset
  extract_lets pn s1 s2
  have hpaired : Canon s1 := (h.foldl (fun _ p ht => ht.dropTc p) _).applyPairing k
  have hreset : Canon s2 := by
    refine hpaired.foldl (fun t p ht => (ht.modContents p fun sl _ => ?_).dropTc p) _
    exact Core.wf_resetSlice _ _ _ _
  exact .ite (.next h) (.next (Canon.modPanelSame ((hreset.event _).count _ _) k fun _ => by rfl))

/-! ### Hand-offs (13 R331, R332) -/

theorem Canon.postJobs (h : Canon s) (k : Nat) (st : Step) : Canon (s.postJobs k st) := by
  unfold State.postJobs
  extract_lets step e jobs s1 clear
  have hjobs : Canon s1 := h.side rfl
  exact hjobs.foldl (fun _ b ht => (ht.hbmWrite _ _ _).hbmWrite _ _ _) _

theorem Canon.modRunning (h : Canon s) (k : Nat) (f : Step → Step) : Canon (s.modRunning k f) := h.modPanelSame k fun _ => rfl

theorem Canon.prepareStep (h : Canon s) (k : Nat) (st : Step) : Canon (s.prepareStep k st) := by
  unfold State.prepareStep
  extract_lets pe x s1 s2
  have hhint : Canon s1 := h.ite (h.postHint k _)
  have hwritten : Canon s2 := hhint.ite (((hhint.writeTrees st).writeBuckets st).postJobs k st)
  refine hwritten.foldl (fun t p ht => ht.modSliceSame p ?_) _
  exact fun _ => Slice.mem_retarget _

theorem Canon.endUnstarted (h : Canon s) (st : Step) (status : Half) (wait : Nat) : Canon (s.endUnstarted st status wait) :=
  Canon.putItem ((h.release _).modWindow _ _) _ _

theorem Canon.dropCompanion (h : Canon s) (w : Nat) : Canon (s.dropCompanion w) :=
  Canon.dropNeed (h.mapPanels (f := fun pn => { pn with queue := pn.queue.filter (fun y => decide (y.window ≠ w) || !y.isComp) })
    fun _ hpn => hpn) _

theorem Canon.freePanel (h : Canon s) (k : Nat) : Canon (s.freePanel k) := Canon.foldl (h.modPanelSame k fun _ => by rfl) (fun _ p ht => (ht.modSliceSame p fun _ => by rfl)) _

theorem Canon.dropForeign (h : Canon s) (p c : Nat) : Canon (s.dropForeign p c) := h.ite (h.dropTc p)

theorem Canon.startCore (h : Canon s) (st : Step) (cores : List (Nat × Nat × Nat × Nat)) (x : Nat × Nat × Nat × Nat) :
    Canon (s.startCore st cores x) := by
  have hdrawn : Canon (if st.isComp then s.drawWords 2 else ([0, 0], s)).2 := .iteAns (h.drawWords 2) h.beside
  exact Canon.modCoreSame hdrawn x.1 fun _ => by rfl

theorem Canon.copyImage (h : Canon s) (p at' : Nat) (bs : List Byte) : Canon (s.copyImage p at' bs) := by
  refine h.foldl (fun t c ht => .ite (ht.noteSecure p) (.ite ?_ (ht.noteRefused p))) _
  exact ht.modSlice p fun sl hsl => sl.wf_write _ _ hsl

theorem Canon.copyProgram (h : Canon s) (st : Step) (cores : List (Nat × Nat × Nat × Nat)) {u : State} (hu : s.copyProgram st cores = some u) :
    Canon u := by
  unfold State.copyProgram at hu
  split at hu
  · exact Option.some.inj hu ▸ h
  · have hread := h.readVa st.ctx (fieldAt st.params 56 8) (progBytes st.params)
    generalize s.readVa st.ctx (fieldAt st.params 56 8) (progBytes st.params) = a at hu hread
    dsimp only at hu
    split at hu
    · rw [← Option.some.inj hu]
      refine hread.foldl (fun t x ht => ?_) _
      exact ht.copyImage _ _ _
    · exact absurd hu nofun

theorem Canon.finishHandoff (h : Canon s) (k : Nat) (st : Step) : Canon (s.finishHandoff k st) := by
  unfold State.finishHandoff
  extract_lets cores
  split
  · exact (((h.freePanel k).eduCancel st.ctx).dropCompanion st.window).endUnstarted st _ _
  · next s1 hs1 =>
    have hcopied : Canon s1 := h.copyProgram st cores hs1
    extract_lets s2 s3 s4 base s5
    have hslices : Canon s2 := by
      refine hcopied.foldl (fun t p ht => (ht.dropForeign p _).modSlice p ?_) _
      exact fun _ hsl => Slice.wf_handoff hsl _ _ _
    have hsealed : Canon s3 := hslices.ite (hslices.runSealed k st 1)
    have hstarted : Canon s4 := hsealed.foldl (fun _ y ht => ht.startCore st cores y) _
    have hhanded : Canon s5 := Canon.modPanelSame (hstarted.modRunning k _) k fun _ => by rfl
    exact hhanded.side rfl

theorem Canon.tryHandoff (h : Canon s) (k : Nat) (st : Step) : Canon (s.tryHandoff k st) := h.ite ((h.finishHandoff k st).ite h)

/-! ### Steps that come back (13 R334) -/

theorem Canon.restoreCore (h : Canon s) (st : Step) (v : SavedCore) : Canon (s.restoreCore st v) := by
  refine Canon.strReissue (Canon.modCore (h.dropForeign v.core st.ctx) v.core fun c hc => ?_) v.core
  exact Slice.wf_takeBack hc v.slice st

theorem Canon.restoreStep (h : Canon s) (k : Nat) (sv : SavedStep) : Canon (s.restoreStep k sv) := by
  unfold State.restoreStep
  extract_lets move step sv1 s0 s1 base
  have hleft : Canon s0 := h.modPanel k fun _ _ hv => List.mem_of_mem_filter hv
  have hcores : Canon s1 := ((hleft.startKv _).charge _ _ _).foldl (fun _ v ht => ht.restoreCore _ v) _
  exact Canon.modPanelSame (hcores.ite (hcores.count _ _)) k fun _ => by rfl

theorem Canon.canarySaved (h : Canon s) {sl : Slice} (hsl : s.rel.canarySaved = some sl) : Mem.wf sl.mem = true :=
  ((State.memWf_iff s).1 h).2.2.2.1 sl hsl

/-- A canary window that ends keeps nothing of its slice. -/
theorem Canon.dropSaved (h : Canon s) (hrest : s.hbm.mem = t.hbm.mem ∧ s.cores = t.cores ∧ s.cmd.panels = t.cmd.panels ∧
    s.mgt.mbxParams = t.mgt.mbxParams ∧ s.mgt.mbxResp = t.mgt.mbxResp) (hnone : t.rel.canarySaved = none) : Canon t := by
  obtain ⟨hhbm, hcores, hpanels, -, hparams, hresp⟩ := (State.memWf_iff s).1 h
  obtain ⟨ehbm, ecores, epanels, eparams, eresp⟩ := hrest
  refine (State.memWf_iff t).2 ⟨ehbm ▸ hhbm, ecores ▸ hcores, epanels ▸ hpanels, fun sl hsl => ?_, eparams ▸ hparams, eresp ▸ hresp⟩
  exact absurd (hnone ▸ hsl) nofun

theorem Canon.canaryAbort (h : Canon s) : Canon s.canaryAbort := by
  unfold State.canaryAbort
  extract_lets p s1
  have hback : Canon s1 := by
    unfold s1
    split
    · next sl hsl => exact h.modSlice p fun x _ => Slice.wf_reload (h.canarySaved hsl) x
    · exact h
  exact hback.dropSaved ⟨rfl, rfl, rfl, rfl, rfl⟩ rfl

theorem Canon.takeStep (h : Canon s) (k : Nat) (st : Step) : Canon (s.takeStep k st) := (h.startKv st).modPanelSame k fun _ => by rfl

theorem Canon.enterStep (h : Canon s) (k : Nat) (st : Step) : Canon (s.enterStep k st) := by
  unfold State.enterStep
  extract_lets st1 open' s1 s2 s3
  have htaken : Canon s1 := (h.takeStep k st1).modPanelSame k fun _ => by rfl
  have hsuspended : Canon s2 := htaken.foldl (fun _ p ht => (ht.modSliceSame p fun _ => by rfl)) _
  have hcounted : Canon s3 := hsuspended.ite (hsuspended.count _ _)
  exact (hcounted.prepareStep k st1).tryHandoff k st1

theorem Canon.beginStep (h : Canon s) (k : Nat) (st : Step) : Canon (s.beginStep k st) :=
  (h.enterStep k st).ite ((h.passPoint4 st).enterStep k _)

theorem canon_execStepHandoff (h : Canon s) (k : Nat) : CanonNext (execStepHandoff k s) := by
  unfold execStepHandoff
  extract_lets pn s1
  have haborted : Canon s1 := h.canaryAbort.ite h
  refine .ite (.next h) ?_
  split
  · exact .ite (.next (h.tryHandoff k _)) (.next h)
  · exact .next h
  · refine .ite (.next h) (.ite (.next h) ?_)
    split
    · exact .next ((haborted.takeStep k _).restoreStep k _)
    · exact .next (haborted.beginStep k _)

/-! ### Ends of steps (13 R333, R347, R348) -/

theorem Canon.writeRecord (h : Canon s) (st : Step) (status : Half) (outcome : Bool) (energy : W32) :
    Canon (s.writeRecord st status outcome energy) := (((h.emit _).ite h).modWindow _ _).putItem _ _

/-- A panel with a change of all its steps: the running, the queued and the switched ones. -/
def Panel.mapSteps (pn : Panel) (g : Step → Step) : Panel :=
  { pn with running := pn.running.map g, queue := pn.queue.map g, switched := pn.switched.map (fun v => { v with step := g v.step }) }

theorem Canon.modMain (h : Canon s) (w : Nat) (f : Step → Step) : Canon (s.modMain w f) := by
  unfold State.modMain
  extract_lets g
  refine h.mapPanels (f := fun pn => pn.mapSteps g) fun pn hpn v hv => ?_
  obtain ⟨y, hy, rfl⟩ := List.mem_map.mp hv
  exact hpn y hy

theorem Canon.endCompanion (h : Canon s) (st : Step) (energy : W32) : Canon (s.endCompanion st energy) := h.modMain _ _

theorem Canon.stepEnergy (h : Canon s) : Canon s.stepEnergy.2 := (h.drawWords 1).beside

theorem Canon.leavePanel (h : Canon s) (k : Nat) (st : Step) : Canon (s.leavePanel k st) :=
  (Canon.release (((h.freePanel k).eduCancel st.ctx).count _ _) _).chooseState k

theorem Canon.rotateFirst (h : Canon s) (st : Step) (bad : List Nat) : Canon (s.rotateFirst st bad) := h.side rfl

theorem Canon.endStep (h : Canon s) (k : Nat) (st : Step) (bad : List Nat) : Canon (s.endStep k st bad) := by
  unfold State.endStep
  extract_lets e st1 c s1 st2
  have henergy : Canon e.2 := (h.rotateFirst st bad).stepEnergy
  have htrees : Canon c.2 := henergy.compactTrees st1
  have hsealed : Canon s1 := Canon.runSealed (htrees.modPanelSame k fun _ => by rfl) k _ 2
  exact .ite (((henergy.endCompanion _ _).modCtx _ _).leavePanel k _) (((hsealed.modCtx _ _).leavePanel k _).writeRecord _ _ _ _)

theorem Canon.rerunStep (h : Canon s) (k : Nat) (st : Step) (bad : List Nat) : Canon (s.rerunStep k st bad) := by
  unfold State.rerunStep
  extract_lets old st1 s1
  have hagain : Canon s1 := Canon.count (h.modPanelSame k fun _ => by rfl) _ _
  exact (hagain.prepareStep k st1).tryHandoff k st1

theorem canon_execStepComplete (h : Canon s) (k : Nat) : CanonNext (execStepComplete k s) := by
  unfold execStepComplete
  split
  · exact .next h
  · exact .ite (.next h) (.ite (.next (h.rerunStep k _ _)) (.next (h.endStep k _ _)))

theorem Canon.moveSeqs (h : Canon s) (k : Nat) (st : Step) : Canon (s.moveSeqs k st) :=
  h.foldl (fun _ _ ht => .ite (ht.modRunning k _) (.ite (ht.event _) (((ht.modCtx _ _).count _ _).modRunning k _))) _

theorem canon_execDeadlineCheckpoint (h : Canon s) (k : Nat) : CanonNext (execDeadlineCheckpoint k s) := by
  unfold execDeadlineCheckpoint
  split
  · exact .next h
  · exact .ite (.next h) (.ite (.next (h.modRunning k _)) (.next (((h.modRunning k _).modRunning k _).moveSeqs k _)))

theorem canon_execDeadlineGrantWithdraw (h : Canon s) (c : Nat) : CanonNext (execDeadlineGrantWithdraw c s) := by
  unfold execDeadlineGrantWithdraw
  split
  · exact .next h
  · exact .ite (.next h) (.next (Canon.endUnstarted (Canon.dropNeed (h.modPanelSame _ fun _ => by rfl) _) _ _ _))

/-! ### Switches (13 R333, R334) -/

theorem Canon.writeSaveArea (h : Canon s) (st : Step) (vs : List SavedCore) : Canon (s.writeSaveArea st vs) := by
  unfold State.writeSaveArea
  split
  · exact h
  · exact h.foldl (fun _ _ ht => (ht.drawBytes 512).hbmWrite _ _ _) _

theorem canon_execPreemptSwitch (h : Canon s) (k : Nat) : CanonNext (execPreemptSwitch k s) := by
  unfold execPreemptSwitch
  split
  · exact .next h
  · next r q _ =>
    extract_lets ctxBad r1 saved isQ back ns s1
    have hsaved : ∀ x ∈ saved, Mem.wf x.slice.mem = true := by
      intro x hx
      obtain ⟨p, -, rfl⟩ := List.mem_map.mp hx
      exact h.core p
    have hvacated : Canon s1 := ((h.foldl (fun _ p ht => (ht.modCoreSame p fun _ => by rfl)) _).writeSaveArea r saved).charge _ _ _
    refine .ite (.next h) (.next (Canon.count (Canon.count ?_ _ _) _ _))
    refine (hvacated.freePanel k).modPanelCanon k fun pn hpn v hv => ?_
    rcases List.mem_append.mp hv with hold | hnew
    · obtain ⟨y, hy, rfl⟩ := List.mem_map.mp hold
      exact hpn y hy
    · rw [List.mem_singleton.mp hnew]
      exact hsaved

theorem canon_execAccountRead (h : Canon s) (fn w : Nat) : CanonNext (execAccountRead fn w s) := by
  unfold execAccountRead
  dsimp only
  split
  · exact .next h
  · exact .ite (.next (h.endPacket _ _ _ _ _)) (.next ((h.emit _).endPacket _ _ _ _ _))

end

end Sys2Proof.Machine
end

section
/-! PROOFS. The canonical form of the memories: messages, link transfers and collectives (14). -/

namespace Sys2Proof.Machine

section
variable {s t : State}

/-! ### Ports that go down, and frames (14 R359 to R362) -/

theorem Canon.askSpare (h : Canon s) (port : Nat) : Canon (s.askSpare port) := by
  unfold State.askSpare
  split
  · exact h.emit _
  · exact h

theorem Canon.portDead (h : Canon s) (port : Nat) : Canon (s.portDead port) := by
  unfold State.portDead
  extract_lets p times s1 s2 ev clk s3
  have hdead : Canon s2 := ((h.modPort port _).event _).count _ _
  have hslew : Canon s3 := Canon.ite (hdead.side (by rfl)) hdead
  exact ((hslew.askSpare port).ite hslew).resendWhere _

theorem Canon.replayOr (h : Canon s) (port : Nat) : Canon (s.replayOr port) := (h.portDead port).ite (h.replayAll port)

theorem canon_execLinkFrameRx (h : Canon s) (port : Nat) (f : LinkFrame) : CanonNext (execLinkFrameRx port f s) := by
  unfold execLinkFrameRx
  extract_lets s1 a s2 s3 s4
  have hcounted : Canon s1 := h.count _ _
  have hacked : Canon a := hcounted.takeAck port f
  have hgone : Canon s2 := hacked.goOn port _
  have htaken : Canon s3 := (hgone.modPort port _).count _ _
  have htimed : Canon s4 := htaken.discipline.ite htaken
  exact .ite (.next h) (.ite (.next ((hcounted.count _ _).putIdle port _)) (.ite (.next (hcounted.putIdle port _))
    (.ite (.next (hcounted.putIdle port _)) (.ite (.next (hacked.portDead port)) (.ite (.next hgone) (.next (htimed.putIdle port _)))))))

theorem canon_execReplayTimeout (h : Canon s) (port : Nat) : CanonNext (execReplayTimeout port s) := .ite (.next (h.replayOr port)) (.next h)

theorem Canon.freezePort (h : Canon s) (port code : Nat) : Canon (s.freezePort port code) :=
  ((h.postFreeze _ _ _ _).modPort port _).portDead port

/-! ### Acknowledgements and what a message writes (14 R366 to R369) -/

theorem Canon.sendAcks (h : Canon s) (k : Nat) : Canon (s.sendAcks k) := keepsCanon_closed.sendAcks s k h
theorem Canon.modRx (h : Canon s) (k : Nat) (f : RxStream → RxStream) : Canon (s.modRx k f) := h.side rfl
theorem Canon.oweAck (h : Canon s) (x : MsgHdr) (refused : Bool) : Canon (s.oweAck x refused) := keepsCanon_closed.oweAck s x refused h

theorem canon_execAckTimer (h : Canon s) (src vc : Nat) : CanonNext (execAckTimer src vc s) := .ite (.next (h.sendAcks _)) (.next h)

theorem Canon.takeSeq (h : Canon s) (x : MsgHdr) : Canon (s.takeSeq x).2 :=
  .iteAns ((h.count _ _).oweAck x _).beside (.iteAns h.beside ((h.modRx _ _).count _ _).beside)

theorem Canon.failOwner (h : Canon s) (m : SentMsg) (status : Half) : Canon (s.failOwner m status) := by
  unfold State.failOwner
  split
  · exact h.failTransfer _ _ _
  · exact h

theorem Canon.takeAckMsg (h : Canon s) (x : MsgHdr) : Canon (s.takeAckMsg x) := by
  unfold State.takeAckMsg
  extract_lets k st hit bad lnk s1
  have hacked : Canon s1 := h.side rfl
  exact hacked.foldl (fun _ m ht => ht.failOwner m _) _

theorem Canon.noteLinkDrop (h : Canon s) : Canon s.noteLinkDrop := (h.count _ _).eventPerMs _

theorem Canon.putSlice (h : Canon s) (die p at' : Nat) (bs : List Byte) (w : WritePkt) : Canon (s.putSlice die p at' bs w).2 := by
  refine Canon.foldl_snd (a := (true, s)) h (fun a c ha => ?_) _
  dsimp only
  exact ha.deliver p _

theorem Canon.putWrite (h : Canon s) (die : Nat) (x : MsgHdr) (data : List Byte) : Canon (s.putWrite die x data).2 := by
  unfold State.putWrite
  extract_lets c at'
  refine .iteAns h.beside (.iteAns ?_ (h.writeBy _ _ _ _))
  split
  · exact h.beside
  · exact h.putSlice die _ _ _ _

theorem Canon.msgRaise (h : Canon s) (x : MsgHdr) : Canon (s.msgRaise x) := by
  unfold State.msgRaise
  split
  · exact h.raiseCtr _ _
  · exact h

theorem Canon.spoil (h : Canon s) (k : Nat) (x : MsgHdr) : Canon (s.spoil k x) := h.modRx k _

theorem Canon.endTransfer (h : Canon s) (k : Nat) (x : MsgHdr) : Canon (s.endTransfer k x) := by
  unfold State.endTransfer
  extract_lets pair bad s1
  have hraised : Canon s1 := (h.msgRaise x).ite h
  exact (hraised.modRx k _).ite hraised

theorem Canon.runRaises (h : Canon s) (k : Nat) : Canon (s.runRaises k) := Canon.foldl (h.modRx k _) (fun _ x ht => ht.endTransfer k x) _

theorem Canon.getRead (h : Canon s) (x : MsgHdr) : Canon (s.getRead x).2 := by
  unfold State.getRead
  extract_lets c at' off a
  have hread : Canon a.2 := h.readBy _ _ _ _
  split
  · split
    · exact h.beside
    · refine .iteAns (h.noteSecure _).beside (.iteAns (h.noteRefused _).beside ?_)
      split
      · exact (h.noteBad _ _).beside
      · exact ((h.noteReads _ _).portBRead _ _ _).beside
  · split
    · exact hread.beside
    · exact hread.beside

theorem Canon.getWrite (h : Canon s) (die : Nat) (x : MsgHdr) (data : List Byte) : Canon (s.getWrite die x data) := by
  unfold State.getWrite
  extract_lets c slot i
  split
  · exact h
  · extract_lets loc k w s1
    have hwritten : Canon w.2 := by
      unfold w
      split
      · split
        · exact h.beside
        · exact h.putSlice die _ _ _ _
      · exact h.writeBy _ _ _ _
    have hfailed : Canon s1 := hwritten.ite (hwritten.failTransfer _ _ _)
    exact hfailed.side rfl

/-! ### Requests of board peers, and messages on their way -/

theorem Canon.servePeer (h : Canon s) (x : MsgHdr) (data : List Byte) : Canon (s.servePeer x data) := by
  unfold State.servePeer
  split
  · exact h.noteLinkDrop
  · next off r _ =>
    extract_lets reply a
    have hread : Canon a.2 := h.hbmRead _ _ _
    refine .ite ((h.hbmWrite _ _ _).sendOrWait _ _ _ _ _) ?_
    split
    · exact hread.sendOrWait _ _ _ _ _
    · exact hread.sendOrWait _ _ _ _ _

theorem Canon.peerResponse (h : Canon s) (x : MsgHdr) (data : List Byte) : Canon (s.peerResponse x data) := by
  refine h.ite ?_
  split
  · exact h
  · next q rest _ =>
    have hanswered : Canon { s with hif := { s.hif with peer := rest } } := h.side rfl
    exact hanswered.ite (hanswered.emit _)

theorem Canon.freeFrames (h : Canon s) (port : Nat) (x : MsgHdr) (n : Nat) : Canon (s.freeFrames port x n) :=
  Canon.returnCredits (h.modPort port _) 16 port

theorem Canon.launchForward (h : Canon s) (x : MsgHdr) (data : List Byte) (port lane : Nat) : Canon (s.launchForward x data port lane) :=
  ((h.drawBytes 16).emit _).portBytes _ _ _ _ _

theorem Canon.forward (h : Canon s) (x : MsgHdr) (data : List Byte) : Canon (s.forward x data) :=
  .ite (h.launchForward _ _ _ _) ((h.emit _).sendOrWait _ _ _ _ _)

theorem Canon.refuseMsg (h : Canon s) (x : MsgHdr) : Canon (s.refuseMsg x) := by
  have htaken := h.takeSeq x
  unfold State.refuseMsg
  dsimp only
  split
  · exact ((htaken.spoil _ x).noteLinkDrop).oweAck x _
  · exact htaken

theorem Canon.acceptMsg (h : Canon s) (die : Nat) (x : MsgHdr) (data : List Byte) : Canon (s.acceptMsg die x data) := by
  unfold State.acceptMsg
  extract_lets k a w s1 s2 r s3 s4
  have htaken : Canon a.2 := h.takeSeq x
  have hput : Canon w.2 := (htaken.charge _ _ _).putWrite die x data
  have hput1 : Canon s1 := hput.ite (hput.spoil k x).noteLinkDrop
  have hput2 : Canon s2 := (hput1.modRx k _).ite hput1
  have hget : Canon r.2 := htaken.getRead x
  have hget1 : Canon s3 := by
    unfold s3
    split
    · exact (hget.spoil k x).noteLinkDrop
    · exact hget.sendOrWait _ _ _ _ _
  have hget2 : Canon s4 := (hget1.modRx k _).ite hget1
  split
  · exact htaken
  · exact htaken
  · exact .ite ((hput2.runRaises k).oweAck x _) (.ite ((hget2.oweAck x _).runRaises k)
      ((((htaken.charge _ _ _).getWrite die x data).oweAck x _).runRaises k))

theorem Canon.keyedMsg (h : Canon s) (x : MsgHdr) : Canon (s.keyedMsg x) := by
  have hseen (keys : List (Nat × W64)) : Canon { s with lnk := { s.lnk with keysSeen := keys } } := h.side rfl
  exact .ite h.noteLinkDrop (.ite ((h.count _ _).oweAck x _) ((((hseen _).count _ _).charge _ _ _).oweAck x _))

/-! ### Messages for this module (14 R366 to R373) -/

theorem Canon.settleDrains (h : Canon s) : Canon s.settleDrains := by
  have hleft (ds : List (Nat × Nat)) : Canon { s with sec := { s.sec with drains := ds } } := h.side rfl
  exact Canon.foldl (hleft _) (fun _ _ ht => ht.emit _) _

theorem Canon.shareAnswered (h : Canon s) (peer slot : Nat) : Canon (s.shareAnswered peer slot) := by
  have hshares (left : List Nat) (k : Nat) : Canon { s with sec := { s.sec with sharePeers := left, shareSlot := k } } := h.side rfl
  exact .ite h (.ite ((hshares _ _).mbxReply _ _) (hshares _ _))

theorem Canon.nameParent (h : Canon s) (x : MsgHdr) : Canon (s.nameParent x) := by
  unfold State.nameParent
  split
  · exact .ite (h.side (by rfl)) h
  · exact h

theorem Canon.localMsg (h : Canon s) (port : Nat) (x : MsgHdr) (data : List Byte) (ok : Bool) : Canon (s.localMsg port x data ok) := by
  unfold State.localMsg
  extract_lets c y slot a s1
  have htaken : Canon a.2 := h.takeSeq x
  have howed : Canon s1 := htaken.wakeModule.oweAck x _
  refine .ite (.ite h.noteLinkDrop (.ite (h.refuseMsg x) (.ite (h.freezePort port _) (.ite (h.wakePanel _) (.ite h
    ((h.wakePanel _).acceptMsg _ x data)))))) (.ite (h.freezePort port _) (.ite (h.takeAckMsg x).pumpBacklog.eduPump.settleDrains (.ite h
    (.ite (h.keyedMsg x) (.ite h.wakeModule (.ite h ?_))))))
  split
  · exact .ite (howed.servePeer x data) (.ite (howed.peerResponse x data).settleDrains (.ite ((howed.nameParent x).shareAnswered _ _) howed))
  · exact htaken

theorem Canon.messageRx (h : Canon s) (port : Nat) (x : MsgHdr) (data : List Byte) (ok : Bool) : Canon (s.messageRx port x data ok) := by
  have hfreed := h.freeFrames port x data.length
  exact .ite (hfreed.freezePort port _) (.ite ((hfreed.ite (hfreed.modRx _ _)).localMsg port x data ok)
    (.ite (hfreed.forward x data) (hfreed.freezePort port _)))

theorem canon_execLinkMessageRx (h : Canon s) (port : Nat) (x : MsgHdr) (data : List Byte) (ok : Bool) :
    CanonNext (execLinkMessageRx port x data ok s) := .ite (.next h) (.next (h.messageRx port x data ok).pumpTransfers)

theorem canon_execE2eTimeout (h : Canon s) (dest vc : Nat) : CanonNext (execE2eTimeout dest vc s) := .ite (.next (h.resendStream _)) (.next h)

theorem canon_execGiveupTimeout (h : Canon s) (dest vc : Nat) : CanonNext (execGiveupTimeout dest vc s) := by
  have hfailed (ms : List SentMsg) : Canon (ms.foldl (fun s m => s.failOwner m 0x0A02) s) := h.foldl (fun _ m ht => ht.failOwner m _) ms
  exact .ite (.next h) (.next ((hfailed _).side (by rfl)))

theorem canon_execStreamReclaim (h : Canon s) (dest vc : Nat) : CanonNext (execStreamReclaim dest vc s) := .ite (.next h) (.next (h.side (by rfl)))

theorem canon_execPathBreakNotice (h : Canon s) (dest : Nat) (ports : List Nat) : CanonNext (execPathBreakNotice dest ports s) := by
  have hmarked (rs : List (Nat × List RoutePath)) : Canon { s with lnk := { s.lnk with routes := rs } } := h.side rfl
  exact .ite (.next h) (.next ((((hmarked _).event _).count _ _).resendWhere _))

/-! ### Transfers and collectives (14 R370, R371, R377 to R379) -/

theorem keepsCanon_collectives (s : State) (cs : List Collective) : KeepsCanon s { s with lnk := { s.lnk with collectives := cs } } :=
  fun h => h.side rfl

theorem Canon.collEngines (h : Canon s) : Canon s.collEngines := keepsCanon_closed.collEngines s keepsCanon_collectives h
theorem Canon.collTake (h : Canon s) (c : Collective) (src step chunk : Nat) (data : List Byte) : Canon (s.collTake c src step chunk data) :=
  keepsCanon_closed.collTake s c src step chunk data h
theorem Canon.postCollective (h : Canon s) (x : Transfer) : Canon (s.postCollective x) := keepsCanon_closed.postCollective s keepsCanon_collectives x h

theorem canon_execCollectiveChunkRx (h : Canon s) (die : Nat) (x : MsgHdr) (data : List Byte) :
    CanonNext (execCollectiveChunkRx die x data s) := by
  unfold execCollectiveChunkRx
  extract_lets k c0
  clear_value c0
  split
  · exact .next h
  · have hseen (cs : List Collective) : Canon { s with lnk := { s.lnk with collectives := cs } } := h.side rfl
    exact .ite (.next h) (.ite (.next h.noteLinkDrop) (.ite (.next h.noteLinkDrop) (.ite (.next ((h.count _ _).oweAck x _))
      (.next ((((hseen _).count _ _).oweAck x _).collTake _ _ _ _ data)))))

theorem canon_execCollectiveTimeout (h : Canon s) (die i : Nat) : CanonNext (execCollectiveTimeout die i s) := by
  unfold execCollectiveTimeout
  split
  · exact .ite (.next (h.failTransfer _ _ _)) (.next h)
  · exact .next h

theorem canon_execLinkPostTrigger (h : Canon s) (c slot : Nat) : CanonNext (execLinkPostTrigger c slot s) := by
  unfold execLinkPostTrigger
  have hreads (off n : Nat) (r : HReq) : Canon (s.hbmRead off n r).2 := h.hbmRead off n r
  -- The read becomes a variable, which the kernel does not compute.
  obtain ⟨read, hread⟩ : ∃ read, State.hbmRead = read := ⟨_, rfl⟩
  rw [hread] at hreads ⊢
  split
  · exact .next h
  · next g _ =>
    extract_lets f off a bytes post t lnk s1 s2
    have hlisted : Canon s1 := Canon.side (s := a.2) (hreads _ _ _) rfl
    have htaken : Canon s2 := hlisted.modPanelSame _ fun _ => rfl
    exact .ite (.next h) (.ite (.next (h.event _)) (.ite (.next h) (.ite (.next (htaken.failTransfer _ _ _)) (.ite
      (.next (htaken.failTransfer _ _ _)) (.ite (.next (htaken.postCollective _)) (.next htaken.pumpTransfers))))))

theorem Canon.dropTransfer (h : Canon s) (c slot : Nat) : Canon (s.dropTransfer c slot) := h.side rfl

theorem canon_execLinkTransferComplete (h : Canon s) (c slot : Nat) : CanonNext (execLinkTransferComplete c slot s) := by
  unfold execLinkTransferComplete
  split
  · exact .next h
  · extract_lets st s1 s2 s3
    have hwritten : Canon s1 := h.hbmWrite _ _ _
    have hraised : Canon s2 := hwritten.raiseIn _ _ _
    have hcounted : Canon s3 := (hraised.count _ _).ite hraised
    exact .ite (.next h) (.next (hcounted.dropTransfer _ _).collEngines.pumpTransfers)

theorem Canon.cancelTransfers (h : Canon s) (c : Nat) : Canon (s.cancelTransfers c) := by
  unfold State.cancelTransfers
  have hdropped (ts : List Transfer) : Canon (ts.foldl (fun s x => s.dropTransfer c x.slot) s) := by
    refine h.foldl (fun t x ht => ?_) ts
    exact ht.dropTransfer c x.slot
  exact (hdropped _).side rfl

end

end Sys2Proof.Machine
end

section
/-! PROOFS. The canonical form of the memories: stopped steps and revoked slots (16 R422, 17 R447), and the governor (15). -/

namespace Sys2Proof.Machine

section
variable {s t : State}

/-! ### Stopping and clearing a panel (16 R422) -/

theorem Slice.wf_fill {sl : Slice} (h : Mem.wf sl.mem = true) : Mem.wf sl.fill.mem = true := by
  refine List.foldlRecOn (motive := fun x : Slice => Mem.wf x.mem = true) _ _ h fun x hx tile _ => ?_
  split
  · exact Mem.wf_zeroRange _ _ _ hx
  · exact Mem.wf_zeroRange _ _ _ hx

theorem Slice.wf_cleared {sl : Slice} (h : Mem.wf sl.mem = true) : Mem.wf sl.cleared.mem = true := by
  unfold Slice.cleared
  extract_lets a
  have hwiped : Mem.wf a.mem = true := Slice.wf_wipeSecure (Slice.wf_fill h)
  clear_value a
  exact hwiped

theorem Core.wf_cleared (c : Core) (h : Mem.wf c.slice.mem = true) : Mem.wf c.cleared.slice.mem = true := Slice.wf_cleared h

theorem Canon.stopPanel (h : Canon s) (k : Nat) : Canon (s.stopPanel k) := h.foldl (fun _ p ht => ht.modSeq p _) _

theorem Canon.clearPanel (h : Canon s) (k c : Nat) : Canon (s.clearPanel k c) :=
  Canon.invNow (h.foldl (fun _ p ht => ht.modCore p Core.wf_cleared) _) 1 c 0 0

theorem Canon.cancelWork (h : Canon s) (c : Nat) : Canon (s.cancelWork c) := ((h.cancelReqs c).eduCancel c).cancelTransfers c

/-! ### Ending steps early -/

theorem Canon.recordStop (h : Canon s) (st : Step) (status : Half) : Canon (s.recordStop st status) := by
  unfold State.recordStop
  extract_lets st0 e s1
  have hwritten : Canon s1 := (h.stepEnergy.modCtx _ _).writeRecord _ _ _ _
  exact h.ite ((hwritten.ringError _ _ _).ite hwritten)

theorem Canon.stopCompanion (h : Canon s) (st : Step) (status : Half) : Canon (s.stopCompanion st status) :=
  (h.stepEnergy.endCompanion _ _).modCtx _ _

theorem Canon.withdraw (h : Canon s) (k : Nat) (st : Step) (status : Half) : Canon (s.withdraw k st status) := by
  unfold State.withdraw
  extract_lets same st1 s1
  have hleft : Canon s1 := Canon.dropNeed (h.modPanel k fun pn v hv => List.mem_of_mem_filter hv) _
  exact (hleft.stopCompanion st1 status).ite (((hleft.release _).dropCompanion _).recordStop st1 status)

theorem Canon.withdrawWhere (h : Canon s) (p : Step → Bool) (status : Half) : Canon (s.withdrawWhere p status) :=
  h.foldl (fun _ k ht => ht.foldl (fun _ st hu => hu.withdraw k st status) _) _

theorem Canon.killRunning (h : Canon s) (k : Nat) (st : Step) (status : Half) : Canon (s.killRunning k st status) := by
  unfold State.killRunning
  extract_lets s1 s2 s3
  have hfree : Canon s2 := ((h.stopPanel k).cancelWork st.ctx |>.clearPanel k st.ctx).freePanel k
  have hrecorded : Canon s3 := (hfree.stopCompanion _ _).ite (((hfree.release _).dropCompanion _).recordStop _ _)
  exact hrecorded.chooseState k

theorem Canon.killWhere (h : Canon s) (p : Step → Bool) (status : Half) : Canon (s.killWhere p status) := by
  refine h.foldl (fun t k ht => ?_) _
  split
  · exact (ht.killRunning k _ status).ite ht
  · exact ht

theorem Canon.dropPackets (h : Canon s) (c : Nat) (status : Half) : Canon (s.dropPackets c status) := by
  refine h.foldl (fun t k ht => ?_) _
  split
  · exact Canon.ite (((ht.endPacket _ _ _ _ _).ringError _ _ _).ite (ht.endPacket _ _ _ _ _)) ht
  · exact ht

/-! ### Revoked slots and destroyed contexts (17 R447, 16 R425) -/

theorem Canon.eraseDone (h : Canon s) (slot : Nat) : Canon (s.eraseDone slot) := by
  unfold State.eraseDone
  extract_lets sec s1
  have hwait (w : Option Nat) : Canon { s with sec := { s.sec with eraseWait := w } } := h.side rfl
  have hanswered : Canon s1 := ((hwait none).mbxReply 0 []).ite h
  split
  · exact hanswered
  · exact Canon.emit (hanswered.side (by rfl)) _

theorem Canon.revokeSlot (h : Canon s) (slot : Nat) : Canon (s.revokeSlot slot) := by
  unfold State.revokeSlot
  extract_lets hit s1 cs s2
  have hstopped : Canon s1 := (h.killWhere _ _).withdrawWhere _ _
  have hcancelled : Canon s2 := hstopped.foldl (fun _ c ht => ht.cancelWork c) _
  exact h.ite ((hcancelled.emptySlot slot).eraseDone slot)

theorem Canon.destroyCtx (h : Canon s) (c : Nat) : Canon (s.destroyCtx c) := by
  unfold State.destroyCtx
  extract_lets x w s1 s2
  have hleft : Canon s2 := ((h.modWindow w _).unregister c).invNow 1 c 0 0
  exact h.ite (hleft.side (by rfl))

/-! ### The governor's registers and limits (15 R384 to R392) -/

theorem Canon.raiseFloor (h : Canon s) (floor : Nat) : Canon (s.raiseFloor floor) := by
  unfold State.raiseFloor
  extract_lets s0 rise have'
  have hdropped : Canon s0 := h.dropNeed floorKey
  exact hdropped.ite ((hdropped.takeRise rise).ite (Canon.waitGrant ((hdropped.takeRise _).side (by rfl)) _ _))

theorem canon_execGovBandWrite (h : Canon s) (v : W32) : CanonNext (execGovBandWrite v s) :=
  .hostTo h (.ite (.next h) (.ite (.next (h.pfLocked _)) (.ite (.next (h.event _)) (.next ((h.raiseFloor _).side (by rfl))))))

theorem canon_execGovModeWrite (h : Canon s) (v : W32) : CanonNext (execGovModeWrite v s) :=
  .hostTo h (.ite (.next h) (.ite (.next (h.pfLocked _)) (.ite (.next (h.event _)) (.next (h.side (by rfl))))))

theorem Canon.thermal (h : Canon s) (junction : Nat) : Canon (s.thermal junction) := by
  unfold State.thermal
  extract_lets g em hold s1 s2
  have hset : Canon s1 := h.side rfl
  have hemergency : Canon s2 := (hset.event _).ite hset
  exact (hemergency.event _).ite hemergency

theorem Canon.endPhase (h : Canon s) (k : Nat) (r : PhaseRun) : Canon (s.endPhase k r) := (h.drawWords 1).side rfl

theorem Canon.phaseStep (h : Canon s) (k : Nat) : Canon (s.phaseStep k) := by
  unfold State.phaseStep
  extract_lets now s1
  have hended : Canon s1 := by
    unfold s1
    split
    · exact (h.endPhase k _).ite h
    · exact h
  clear_value s1 now
  split
  · exact Canon.ite (Canon.dropNeed (hended.side (by rfl)) _) hended
  · exact hended

theorem Canon.startPreRamp (h : Canon s) (k : Nat) : Canon (s.startPreRamp k) := by
  unfold State.startPreRamp
  split
  · exact h
  · split
    · exact h
    · split
      · exact h
      · have hset (w : Tab Nat) : Canon { s with gov := { s.gov with preRamp := w } } := h.side rfl
        exact h.ite ((hset _).ite (((hset _).takeRise _).ite (((hset _).takeRise _).waitGrant _ _)))

theorem canon_execPreRampFallback (h : Canon s) (k : Nat) : CanonNext (execPreRampFallback k s) :=
  .ite (.next (Canon.dropNeed (h.side (by rfl)) _)) (.next h)

/-! ### The governor's tick (15 R383) -/

theorem Canon.releaseCores (h : Canon s) : Canon s.releaseCores := by
  unfold State.releaseCores
  extract_lets start s1
  have hstart (t : State) (ht : Canon t) (k : Nat) : Canon (start t k) := by
    unfold start
    split
    · exact Canon.ite (ht.side (by rfl)) ht
    · exact ht.side rfl
  have hstarted : Canon s1 := h.foldl (fun t k ht => hstart t ht k) _
  exact hstarted.side rfl

theorem Canon.setLimits (h : Canon s) (g : Gives) : Canon (s.setLimits g) := by
  refine h.foldl (fun t p ht => ?_) _
  split
  · exact ht.side rfl
  · exact ht.side rfl

theorem Canon.spreadDead (h : Canon s) (need low : Nat) : Canon (s.spreadDead need low) := by
  unfold State.spreadDead
  extract_lets as slots n f s1
  have hspread : Canon s1 := h.foldl (fun _ _ ht => (ht.side (by rfl))) _
  exact (hspread.eventPerMs _).ite hspread

theorem Canon.tickReason (h : Canon s) (i : Nat) (on : Bool) (level : Nat) : Canon (s.tickReason i on level) := by
  unfold State.tickReason
  dsimp only
  split
  · exact Canon.ite (Canon.count (h.side (by rfl)) _ _) (Canon.ite (h.side (by rfl)) h)
  · exact Canon.ite (Canon.count (h.side (by rfl)) _ _) h

theorem Canon.tickReasons (h : Canon s) (rs : List (Bool × Nat)) : Canon (s.tickReasons rs) := by
  unfold State.tickReasons
  extract_lets s1
  have hticked : Canon s1 := h.foldl (fun _ x ht => ht.tickReason _ _ _) _
  exact hticked.side rfl

theorem Canon.markLimited (h : Canon s) : Canon s.markLimited := h.foldl (fun _ k ht => Canon.ite (ht.modPanelSame k fun _ => by rfl) ht) _

theorem Canon.tickEnergy (h : Canon s) (r : GovReading) : Canon (s.tickEnergy r) := by
  unfold State.tickEnergy
  exact Canon.count (Canon.count (Canon.count (h.side (by rfl)) _ _) _ _) _ _

theorem Canon.tickReadings (h : Canon s) (r : GovReading) : Canon (s.tickReadings r) := by
  unfold State.tickReadings
  extract_lets gov s1 s2
  have hread : Canon s1 := h.side rfl
  have hthermal : Canon s2 := hread.thermal _
  exact hthermal.foldl (fun _ k ht => ht.evalAdmission k) _

theorem Canon.tickPhases (h : Canon s) : Canon s.tickPhases := h.foldl (fun _ k ht => (ht.phaseStep k).startPreRamp k) _

theorem Canon.tickAllocate (h : Canon s) (r : GovReading) : Canon (s.tickAllocate r) := by
  unfold State.tickAllocate
  extract_lets s1 reserve taken avail wants gives gov s2 predicted want need
  have hreleased : Canon s1 := h.releaseCores
  have hreserved : Canon { s1 with gov := { s1.gov with reserve := reserve } } := hreleased.side rfl
  have hlimited : Canon s2 := hreserved.setLimits gives
  exact hlimited.ite (hlimited.spreadDead _ _)

theorem canon_execGovernorTick (h : Canon s) (r : GovReading) : CanonNext (execGovernorTick r s) := by
  unfold execGovernorTick
  extract_lets s1 gov s0 s1' s2 s3
  have hread : Canon s1 := (h.tickReadings r).tickEnergy r
  have hallocated : Canon s0 := (h.tickReadings r).tickPhases.tickAllocate r
  have hreported : Canon s1' := (hallocated.event _).ite hallocated
  have hticked : Canon s2 := ((hreported.tickReasons _).markLimited).tickEnergy r
  have hchosen : Canon s3 := (hticked.foldl (fun _ k ht => ht.chooseState k) _).chooseModule
  clear_value s1 s3
  exact .ite (.next h) (.ite (.next (hread.side (by rfl))) (.next (hchosen.side (by rfl))))

/-! ### Cage grants and islands (15 R399 to R401) -/

/-- A panel with a change of its queued steps. -/
def Panel.mapQueue (pn : Panel) (g : Step → Step) : Panel := { pn with queue := pn.queue.map g }

theorem Canon.mapQueues (h : Canon s) (g : Step → Step) :
    Canon { s with cmd := { s.cmd with panels := s.cmd.panels.map fun e => (e.1, e.2.mapQueue g) } } :=
  h.mapPanels (f := fun pn => pn.mapQueue g) fun _ hpn => hpn

theorem Canon.applyGrant (h : Canon s) : Canon s.applyGrant := by
  unfold State.applyGrant
  split
  · exact h
  · next key w rest _ =>
    have hfirst : Canon { s with gov := { s.gov with waiting := rest } } := h.side rfl
    exact hfirst.mapQueues _

theorem canon_execCageGrantRx (h : Canon s) (id watts valid : Nat) : CanonNext (execCageGrantRx id watts valid s) := by
  unfold execCageGrantRx
  extract_lets s1 gov s2
  have hcounted : Canon s1 := h.count _ _
  have hgranted : Canon s2 := hcounted.side rfl
  exact .ite (.next h) (.next hgranted.applyGrant.sendRequest)

theorem canon_execGrantLate (h : Canon s) : CanonNext (execGrantLate s) := by
  unfold execGrantLate
  exact .ite (.next (Canon.event (Canon.emit (h.side (by rfl)) _) _)) (.next h)

theorem canon_execGrantValidExpiry (h : Canon s) : CanonNext (execGrantValidExpiry s) := by
  unfold execGrantValidExpiry
  extract_lets g idle keys cmd s1
  have hwaiting (gov : Gov) : Canon { s with gov := gov } := h.side rfl
  have hagain : Canon s1 := (hwaiting _).mapQueues _
  exact .ite (.next h) (.next hagain.sendRequest)

theorem canon_execClockHold (h : Canon s) (island : Nat) : CanonNext (execClockHold island s) :=
  .ite (.next (Canon.event (h.side (by rfl)) _)) (.next h)

theorem canon_execClockResume (h : Canon s) (island : Nat) : CanonNext (execClockResume island s) :=
  .ite (.next (Canon.netResume (h.side (by rfl)))) (.next h)

end

end Sys2Proof.Machine
end

section
/-! PROOFS. The canonical form of the memories: recoveries and canary windows (16), and the survey of ports (14 R374, R375). -/

namespace Sys2Proof.Machine

section
variable {s t : State}

/-! ### Claims and watchdogs (16 R419 to R421) -/

theorem canon_execRelFrzPop (h : Canon s) (v : W32) : CanonNext (execRelFrzPop v s) := .hostTo h (.ite (.next h) (.next (h.side (by rfl))))

theorem Canon.requestRecovery (h : Canon s) (c : Nat) (code : Half) (claimed : Bool) : Canon (s.requestRecovery c code claimed) :=
  h.ite (Canon.side (h.modCtx c _) (by rfl))

theorem Canon.commandRecovery (h : Canon s) (c : Nat) : Canon (s.commandRecovery c) := h.requestRecovery c _ _

theorem canon_execClaimWindowExpiry (h : Canon s) (c : Nat) : CanonNext (execClaimWindowExpiry c s) :=
  .ite (.next (h.requestRecovery c _ _)) (.next h)

/-- A panel with a change of its running step. -/
def Panel.mapRunning (pn : Panel) (g : Step → Step) : Panel := { pn with running := pn.running.map g }

theorem Canon.modRunningOf (h : Canon s) (c : Nat) (f : Step → Step) : Canon (s.modRunningOf c f) :=
  h.mapPanels (f := fun pn => pn.mapRunning fun st => if st.ctx = c then f st else st) fun _ hpn => hpn

theorem Canon.recordClaimed (h : Canon s) (c : Nat) : Canon (s.recordClaimed c) := by
  unfold State.recordClaimed
  extract_lets s1
  have hrecorded : Canon s1 := h.foldl (fun _ x ht => ht.ite ((ht.recordStop _ _).unregister c)) _
  exact hrecorded.modRunningOf c _

theorem canon_execRstClaim (h : Canon s) (v : W32) : CanonNext (execRstClaim v s) :=
  .hostTo h (.ite (.next h) (.ite (.next (h.event _)) (.next (((h.modCtx _ _).recordClaimed _).count _ _))))

theorem canon_execRstRecover (h : Canon s) (v : W32) : CanonNext (execRstRecover v s) :=
  .hostTo h (.ite (.next (h.commandRecovery _)) (.next h))

theorem Canon.watchdogFires (h : Canon s) (k code : Nat) (st : Step) : Canon (s.watchdogFires k code st) :=
  ((h.stopPanel k).postFreeze _ _ _ _).count _ _

theorem canon_execWatchdogExpiry (h : Canon s) (k : Nat) : CanonNext (execWatchdogExpiry k s) := by
  unfold execWatchdogExpiry
  dsimp only
  split
  · exact .next h
  · exact .ite (.next (h.watchdogFires k _ _)) (.next h)

theorem canon_execHaltWatchdogExpiry (h : Canon s) (k : Nat) : CanonNext (execHaltWatchdogExpiry k s) := by
  unfold execHaltWatchdogExpiry
  dsimp only
  split
  · exact .ite (.next (h.watchdogFires k _ _)) (.next h)
  · exact .next h

/-! ### Recoveries (16 R422 to R424) -/

theorem Canon.raiseTag (h : Canon s) (c : Nat) : Canon (s.raiseTag c) := by
  unfold State.raiseTag
  extract_lets old s1
  have hraised : Canon s1 := h.modCtx c _
  refine hraised.foldl (fun t p ht => ht.modSliceSame p fun sl => ?_) _
  split <;> rfl

theorem Canon.revokeSessions (h : Canon s) (c : Nat) : Canon (s.revokeSessions c) := h.foldl (fun _ _ ht => ht.revokeSlot _) _

/-- A panel without the steps of a context that were switched out. -/
def Panel.dropSwitched (pn : Panel) (c : Nat) : Panel := { pn with switched := pn.switched.filter fun v => decide (v.step.ctx ≠ c) }

theorem Canon.dropSwitched (h : Canon s) (c : Nat) : Canon (s.dropSwitched c) :=
  h.mapPanels (f := fun pn => pn.dropSwitched c) fun _ hpn v hv => hpn v (List.mem_of_mem_filter hv)

theorem Canon.finishRecovery (h : Canon s) (r : Recovery) : Canon (s.finishRecovery r) := by
  unfold State.finishRecovery
  extract_lets c mine s1 s2 old s3 rel s4 s5
  have hstopped : Canon s1 := (((h.killWhere mine _).withdrawWhere mine _).dropPackets c _).dropSwitched c
  have hrevoked : Canon s2 := (hstopped.invNow 1 c 0 0).revokeSessions c
  have hclosed : Canon s3 := hrevoked.modCtx c _
  clear_value s3
  have hrecorded : Canon s4 := hclosed.side rfl
  have hcounted : Canon s5 := (hrecorded.count _ _).event _
  exact ((hcounted.destroyCtx c).mbxReply _ _).ite hcounted

theorem Canon.beginRecovery (h : Canon s) (r : Recovery) : Canon (s.beginRecovery r) := by
  unfold State.beginRecovery
  extract_lets c s1 s2 rel
  have hraised : Canon s1 := h.raiseTag c
  have hstopped : Canon s2 := by
    refine Canon.cancelWork (hraised.foldl (fun t x ht => ?_) _) c
    exact ht.stopPanel x.1
  clear_value s2
  exact Canon.ite (hstopped.side (by rfl)) (hstopped.finishRecovery r)

theorem canon_execContextRecovery (h : Canon s) (c : Nat) : CanonNext (execContextRecovery c s) := by
  unfold execContextRecovery
  refine .ite (.next h) ?_
  split
  · exact .ite (.next (h.finishRecovery _)) (.next h)
  · split
    · exact .next h
    · next r rest _ =>
      have hqueue : Canon { s with rel := { s.rel with queued := rest } } := h.side rfl
      exact .ite (.next h) (.ite (.next (hqueue.side (by rfl))) (.next (hqueue.beginRecovery r)))

theorem canon_execRecoveryDrainTimeout (h : Canon s) (c : Nat) : CanonNext (execRecoveryDrainTimeout c s) := by
  unfold execRecoveryDrainTimeout
  split
  · exact .ite (.next (h.finishRecovery _)) (.next h)
  · exact .next h

theorem canon_execTagReuseWaitExpiry (h : Canon s) (c : Nat) : CanonNext (execTagReuseWaitExpiry c s) := by
  unfold execTagReuseWaitExpiry
  split
  · exact .ite (.next (Canon.beginRecovery (h.side (by rfl)) _)) (.next h)
  · exact .next h

/-! ### Scrubbing, unpoisoning and canary windows (16 R426 to R434) -/

theorem Canon.scrubRead (h : Canon s) (off : Nat) : Canon (s.scrubRead off) := by
  have haccessed := h.mscAccess off (s.scrubReq off) false true
  exact (haccessed.dramTouch _ _ _).ite haccessed

theorem canon_execHbmScrub (h : Canon s) (off : Nat) (find : ScrubFind) : CanonNext (execHbmScrub off find s) := by
  unfold execHbmScrub
  extract_lets f rel s1 found s2
  have hmoved : Canon s1 := h.side rfl
  have hread : Canon s2 := hmoved.scrubRead off
  clear_value s1 s2 found
  refine .ite (.next h) (.ite (.next hmoved) ?_)
  split
  · exact .next hread
  · exact .next (Canon.count (Canon.side (hread.dramTouch _ _ _) (by rfl)) _ _)
  · exact .next ((hread.count _ _).poisonFrame f _)

theorem Canon.unpoison (h : Canon s) (f : Nat) : Canon (s.unpoison f) := h.side rfl

theorem canon_execRelUnpoisonGo (h : Canon s) (v : W64) : CanonNext (execRelUnpoisonGo v s) := by
  refine .hostTo h (.ite (.next h) ?_)
  extract_lets rel s1 n
  have hasked : Canon s1 := h.side rfl
  have hcount : Canon n.2 := hasked.readCount .sys _
  exact .ite (.next hasked) (.ite (.next (hcount.event _)) (.next ((hcount.zeroFrame _ _).unpoison _)))

theorem canon_execCanaryWindowStart (h : Canon s) : CanonNext (execCanaryWindowStart s) := by
  unfold execCanaryWindowStart
  refine .ite (.next h) ?_
  split
  · exact .next h
  · next p _ =>
    obtain ⟨hhbm, hcores, hpanels, -, hmbx⟩ := (State.memWf_iff s).1 h
    refine .next ((State.memWf_iff _).2 ⟨hhbm, hcores, hpanels, ?_, hmbx⟩)
    exact fun sl hsl => Option.some.inj hsl ▸ h.core p

theorem Canon.recalibrate (h : Canon s) (island : Nat) (offset : Int) : Canon (s.recalibrate island offset) := by
  unfold State.recalibrate
  extract_lets r setCal r1
  have hset (c : CalRecord) : Canon (setCal s c) := h.side rfl
  exact h.ite (((hset _).event _).ite (hset _))

theorem canon_execCanaryWindowEnd (h : Canon s) (pass noHotSpot : Bool) (offset : Int) :
    CanonNext (execCanaryWindowEnd pass noHotSpot offset s) := by
  unfold execCanaryWindowEnd
  extract_lets p s1 s2 others next rel s3 s4
  have hcalibrated : Canon s1 := (h.recalibrate _ _).ite h
  have hreloaded : Canon s2 := by
    unfold s2
    split
    · next sl hsl => exact hcalibrated.modSlice p fun x _ => Slice.wf_reload (hcalibrated.canarySaved hsl) x
    · exact hcalibrated
  have hended : Canon s3 := hreloaded.dropSaved ⟨rfl, rfl, rfl, rfl, rfl⟩ rfl
  have hcounted : Canon s4 := hended.count _ _
  exact .ite (.next h) (.ite (.next hcounted) (.next (((hcounted.count _ _).event _).retireCore p)))

theorem canon_execD2dLaneRetrain (h : Canon s) (die lane : Nat) : CanonNext (execD2dLaneRetrain die lane s) :=
  .ite (.next h) (.ite (.next (h.side (by rfl))) (.next (h.event _)))

/-! ### The survey of ports (14 R374, R375) -/

theorem Canon.bringUp (h : Canon s) (port level result : Nat) : Canon (s.bringUp port level result) :=
  (h.modPort port _).ite (Canon.pumpTransfers (Canon.event (h.modPort port _) _))

theorem Canon.keepDown (h : Canon s) (port result : Nat) (st : PortState) : Canon (s.keepDown port result st) := h.modPort port _

theorem Canon.becomeReady (h : Canon s) : Canon s.becomeReady := by
  unfold State.becomeReady
  extract_lets s1
  have hreported : Canon s1 := h.ite (h.event _)
  clear_value s1
  exact hreported.side rfl

theorem Canon.settleSurvey (h : Canon s) : Canon s.settleSurvey := by
  unfold State.settleSurvey
  extract_lets run lnk s1
  have hsurveyed : Canon s1 := h.side rfl
  clear_value s1
  exact hsurveyed.ite (hsurveyed.becomeReady.ite ((hsurveyed.mbxReply _ _).ite hsurveyed))

theorem canon_execLinkDead (h : Canon s) (port : Nat) : CanonNext (execLinkDead port s) := .ite (.next (h.portDead port)) (.next h)

theorem canon_execHolddownExpiry (h : Canon s) (port : Nat) : CanonNext (execHolddownExpiry port s) :=
  .ite (.next (Canon.pumpTransfers (Canon.event (h.modPort port _) _))) (.next h)

theorem Canon.askIdentity (h : Canon s) (port : Nat) : Canon (s.askIdentity port) := h.putIdentity port _

theorem Canon.swapPorts (h : Canon s) (l x : Nat) : Canon (s.swapPorts l x) := by
  unfold State.swapPorts
  extract_lets p q lnk s1 again
  have hmapped : Canon s1 := h.side rfl
  exact ((hmapped.modPort p _).modPort q _).event _

theorem Canon.surveyPort (h : Canon s) (port l : Nat) (id : LinkIdentity) : Canon (s.surveyPort port l id) := by
  unfold State.surveyPort
  dsimp only
  refine (h.keepDown _ _ _).ite (((h.keepDown _ _ _).event _).ite ((h.keepDown _ _ _).ite ((h.bringUp _ _ _).ite ?_)))
  split
  · exact (h.keepDown _ _ _).event _
  · split
    · exact h.keepDown _ _ _
    · exact ((h.keepDown _ _ _).event _).ite ((h.swapPorts _ _).ite ((h.keepDown _ _ _).event _))

theorem Canon.resurveyed (h : Canon s) (port : Nat) (id : LinkIdentity) : Canon (s.resurveyed port id) := by
  unfold State.resurveyed
  extract_lets own s1
  have hseen : Canon s1 := h.modPort port _
  split
  · exact (hseen.keepDown _ _ _).portDead port
  · exact ((hseen.modPort port _).portDead port).ite (((hseen.modPort port _).portDead port).ite
      ((hseen.modPort port _).ite (((hseen.modPort port _).event _).portDead port)))

theorem canon_execLinkTrained (h : Canon s) (port : Nat) (cableOk : Bool) (id : LinkIdentity) :
    CanonNext (execLinkTrained port cableOk id s) := by
  unfold execLinkTrained
  extract_lets p s1 walker s2
  have hasked : Canon s1 := (h.askIdentity port).modPort port _
  have hboard : Canon s2 := Canon.ite (hasked.side (by rfl)) hasked
  clear_value s2
  refine .ite (.next ((Canon.resurveyed (h.modPort port _) port id).settleSurvey)) (.ite (.next h) (.ite
    (.next (((h.keepDown _ _ _).event _).event _).settleSurvey) (.next (Canon.settleSurvey ?_))))
  split
  · exact hboard.keepDown _ _ _
  · exact hboard.surveyPort _ _ _

theorem canon_execPortTrainTimeout (h : Canon s) (port : Nat) (signal : Bool) : CanonNext (execPortTrainTimeout port signal s) := by
  unfold execPortTrainTimeout
  extract_lets p planned s1
  have hfailed : Canon s1 := Canon.event (Canon.modPort (h.keepDown _ _ _) port _) _
  exact .ite (.next ((Canon.portDead (Canon.event (h.modPort port _) _) port).settleSurvey)) (.ite (.next h) (.ite
    (.next ((h.keepDown _ _ _).event _).settleSurvey) (.ite (.next ((hfailed.askSpare port).ite hfailed).settleSurvey) (.ite
    (.next ((h.keepDown _ _ _).event _).settleSurvey) (.next (h.keepDown _ _ _).settleSurvey)))))

theorem Canon.resurvey (h : Canon s) (port : Nat) : Canon (s.resurvey port) := by
  unfold State.resurvey
  dsimp only
  split
  · exact h.ite (h.keepDown _ _ _)
  · exact ((h.modPort port _).askIdentity port).ite (h.ite ((h.keepDown _ _ _).ite ((h.keepDown _ _ _).ite (h.modPort port _))))

theorem Canon.surveyAll (h : Canon s) : Canon s.surveyAll :=
  Canon.settleSurvey (Canon.foldl (h.side (by rfl)) (fun _ p ht => ht.resurvey p) _)

theorem canon_execRteSurveyGo (h : Canon s) (v : W32) : CanonNext (execRteSurveyGo v s) := .hostTo h (.ite (.next h.surveyAll) (.next h))

theorem Canon.takeSpare (h : Canon s) (l p : Nat) : Canon (s.takeSpare l p) := by
  unfold State.takeSpare
  extract_lets old lnk s1 s2
  have hmapped : Canon s1 := h.side rfl
  have hidle : Canon s2 := hmapped.modPort old _
  exact (hidle.modPort p _).event _

theorem canon_execRtePortMapWrite (h : Canon s) (l : Nat) (v : W32) : CanonNext (execRtePortMapWrite l v s) :=
  .hostTo h (.ite (.next h) (.ite (.next (h.event _)) (.ite (.next (h.takeSpare l _)) (.next h))))

end

end Sys2Proof.Machine
end

section
/-! PROOFS. The canonical form of the memories: resets and boot (16 R425, 18 R469), and the commands of the security engine (17). -/

namespace Sys2Proof.Machine

section
variable {s t : State}

/-! ### Resets (16 R425) -/

theorem Core.moduleReset_mem (spares : List Nat) (p : Nat) (c : Core) : (c.moduleReset spares p).slice.mem = [] := coreAtReset_mem _ p

/-- The cores of a cold reset hold nothing. -/
theorem wf_coldCores (spares retired : List Nat) :
    ∀ e ∈ retired.foldl (fun t p => Tab.set t p { coreAtReset (p :: spares) p with retired := true }) ([] : Tab Core),
      Mem.wf e.2.slice.mem = true := by
  refine List.foldlRecOn (motive := fun t : Tab Core => ∀ e ∈ t, Mem.wf e.2.slice.mem = true) _ _ (fun _ he => absurd he List.not_mem_nil)
    fun t ht p _ e he => ?_
  rcases Tab.mem_set he with rfl | hold
  · exact (coreAtReset_mem (p :: spares) p).symm ▸ Mem.wf_nil
  · exact ht e hold

/-- A state whose panels saved nothing and which no canary window holds. -/
theorem canon_of_fresh (hpanels : t.cmd.panels = []) (hsaved : t.rel.canarySaved = none) (hhbm : Mem.wf t.hbm.mem = true)
    (hcores : ∀ e ∈ t.cores, Mem.wf e.2.slice.mem = true) (hparams : Mem.wf t.mgt.mbxParams = true) (hresp : Mem.wf t.mgt.mbxResp = true) :
    Canon t :=
  (State.memWf_iff t).2 ⟨hhbm, hcores, fun _ he => absurd (hpanels ▸ he) List.not_mem_nil, fun _ hsl => absurd (hsaved.symm.trans hsl) nofun,
    hparams, hresp⟩

theorem Canon.hbmMem (h : Canon s) : Mem.wf s.hbm.mem = true := ((State.memWf_iff s).1 h).1

theorem Canon.mailbox (h : Canon s) : Mem.wf s.mgt.mbxParams = true ∧ Mem.wf s.mgt.mbxResp = true := by
  obtain ⟨-, -, -, -, hmbx⟩ := (State.memWf_iff s).1 h
  exact hmbx

theorem Canon.clearModule (h : Canon s) : Canon s.clearModule := by
  refine canon_of_fresh rfl rfl h.hbmMem (fun e he => ?_) h.mailbox.1 h.mailbox.2
  obtain ⟨x, -, rfl⟩ := List.mem_map.mp he
  exact (Core.moduleReset_mem s.pins.spares x.1 x.2).symm ▸ Mem.wf_nil

theorem Canon.clearCold (h : Canon s) : Canon s.clearCold :=
  canon_of_fresh rfl rfl h.hbmMem (wf_coldCores _ _) Mem.wf_nil Mem.wf_nil

theorem Canon.losePower (h : Canon s) : Canon s.losePower :=
  canon_of_fresh rfl rfl Mem.wf_nil (wf_coldCores _ _) h.mailbox.1 h.mailbox.2

theorem canon_powerOff (s : State) : Canon s.powerOff :=
  canon_of_fresh rfl rfl Mem.wf_nil (wf_coldCores _ _) Mem.wf_nil Mem.wf_nil

/-! ### Boot (18 R469) -/

theorem State.applyConfig_mailbox (s : State) :
    s.applyConfig.mgt.mbxParams = s.mgt.mbxParams ∧ s.applyConfig.mgt.mbxResp = s.mgt.mbxResp := by
  unfold State.applyConfig
  dsimp only
  split <;> exact ⟨rfl, rfl⟩

theorem Canon.applyConfig (h : Canon s) : Canon s.applyConfig :=
  h.same ⟨rfl, rfl, rfl, rfl, s.applyConfig_mailbox.1, s.applyConfig_mailbox.2⟩

theorem Canon.enterHold (h : Canon s) (cause : Nat) : Canon (s.enterHold cause) := Canon.event (h.side (by rfl)) 2

theorem Canon.bootLinks (h : Canon s) : Canon s.bootLinks := by
  unfold State.bootLinks
  split
  · exact h.enterHold 7
  · extract_lets mgt m walker w s2
    have hsurveyed : Canon s2 := Canon.surveyAll (h.side (by rfl))
    exact hsurveyed.becomeReady.ite hsurveyed

theorem Canon.bootIslands (h : Canon s) : Canon s.bootIslands := by
  unfold State.bootIslands
  extract_lets x mgt s1
  have happlied : Canon x := h.applyConfig
  have hstage : Canon s1 := happlied.side rfl
  exact hstage.bootLinks.ite hstage

theorem Canon.bootConfig (h : Canon s) : Canon s.bootConfig := (h.enterHold 6).ite ((h.enterHold _).ite h.bootIslands)

theorem Canon.newChallenge (h : Canon s) : Canon s.newChallenge := Canon.side (h.drawWords 8) rfl

theorem Canon.bootSecurity (h : Canon s) : Canon s.bootSecurity := (Canon.newSlot0 (h.side (by rfl))).newChallenge

theorem Canon.boot (h : Canon s) : Canon s.boot := by
  unfold State.boot
  extract_lets first mgt s1 trial mgt1 x clk mgt2 s2
  have hevent : Canon s1 := h.event 4
  have hnone : Canon s2 := hevent.side rfl
  clear_value s2
  refine .ite (Canon.bootConfig (Canon.bootSecurity (h.side (by rfl)))) (.ite (Canon.bootConfig (Canon.bootSecurity (h.side (by rfl)))) (hnone.enterHold _))

theorem Canon.moduleReset (h : Canon s) : Canon s.moduleReset := h.clearModule.boot

theorem canon_execColdBoot (h : Canon s) : CanonNext (execColdBoot s) := .ite (.next h) (.next (Canon.boot (h.side (by rfl))))

theorem canon_execIslandGroupPowerUp (h : Canon s) : CanonNext (execIslandGroupPowerUp s) := by
  unfold execIslandGroupPowerUp
  extract_lets clk s1
  have hup : Canon s1 := h.side rfl
  exact .ite (.next h) (.next (hup.bootLinks.ite hup))

end

end Sys2Proof.Machine
end

section
/-! PROOFS. The canonical form of the memories: the commands of the security engine (17). -/

namespace Sys2Proof.Machine

section
variable {s t : State}

/-! ### KEY_GEN and KEY_SHARE (17 R444 to R447, R459) -/

theorem Canon.finishKey (h : Canon s) (w : GenWait) : Canon (s.finishKey w) := by
  unfold State.finishKey
  extract_lets s1 peers sec
  have hinstalled : Canon s1 := .ite (((h.destroyRetiring _).installKey _ _ _ _ _).modSlot _ _) h
  clear_value s1
  exact (hinstalled.mbxReply _ _).ite (Canon.foldl (hinstalled.side (by rfl)) (fun _ _ ht => ht.emit _) _)

theorem Canon.tryKey (h : Canon s) (w : GenWait) : Canon (s.tryKey w) := Canon.ite (h.side (by rfl)) (Canon.ite (h.side (by rfl)) (h.finishKey w))

theorem Canon.tryShare (h : Canon s) (w : GenWait) : Canon (s.tryShare w) :=
  Canon.ite (h.side (by rfl)) ((((h.destroyRetiring _).installKey _ _ _ _ _).modSlot _ _).emit _)

theorem Canon.retryKeys (h : Canon s) : Canon s.retryKeys := by
  unfold State.retryKeys
  extract_lets sec s1 sec1 s2 sec2
  have hrewrite : Canon s1 := by
    unfold s1
    split
    · exact Canon.tryKey (h.side (by rfl)) _
    · exact h
  clear_value s1
  have hgen : Canon s2 := by
    unfold s2
    split
    · exact Canon.tryKey (hrewrite.side (by rfl)) _
    · exact hrewrite
  clear_value s2
  split
  · exact Canon.tryShare (hgen.side (by rfl)) _
  · exact hgen

theorem canon_execKeyGen (h : Canon s) (slot type tenant : Nat) : CanonNext (execKeyGen slot type tenant s) :=
  .ite (.next h) (.ite (.next (h.mbxReply _ _)) (.next (h.tryKey _)))

theorem canon_execKeyShare (h : Canon s) (slot type tenant mask : Nat) : CanonNext (execKeyShare slot type tenant mask s) :=
  .ite (.next h) (.ite (.next (h.mbxReply _ _)) (.ite (.next (h.mbxReply _ _)) (.next (h.tryKey _))))

theorem canon_execKeyShareInstall (h : Canon s) (slot type tenant gen mask : Nat) : CanonNext (execKeyShareInstall slot type tenant gen mask s) :=
  .ite (.next h) (.next (h.tryShare _))

theorem canon_execKeySharePeerTimeout (h : Canon s) : CanonNext (execKeySharePeerTimeout s) :=
  .ite (.next (Canon.mbxReply (h.side (by rfl)) _ _)) (.next h)

theorem canon_execGenerationReuseWaitExpiry (h : Canon s) (slot : Nat) : CanonNext (execGenerationReuseWaitExpiry slot s) :=
  .ite (.next h.retryKeys) (.next h)

/-! ### Erase, revoke, destroy -/

theorem Canon.settleErase (h : Canon s) (slot : Nat) : Canon (s.settleErase slot) := ((h.emptySlot slot).eraseDone slot).ite h

theorem canon_execKeyErase (h : Canon s) (slot : Nat) : CanonNext (execKeyErase slot s) :=
  .ite (.next h) (.ite (.next (h.mbxReply _ _)) (.ite (.next (h.mbxReply _ _)) (.next (Canon.settleErase (Canon.beginErase (h.side (by rfl)) slot) slot))))

theorem canon_execKeyRevoke (h : Canon s) (slot : Nat) : CanonNext (execKeyRevoke slot s) :=
  .ite (.next h) (.ite (.next (h.mbxReply _ _)) (.next ((h.revokeSlot slot).retryKeys.mbxReply _ _)))

theorem canon_execGenerationDestroy (h : Canon s) (slot : Nat) : CanonNext (execGenerationDestroy slot s) := by
  refine .ite (.next h) (.ite (.next (h.settleErase slot).retryKeys) ?_)
  split
  · exact .ite (.next (h.destroyRetiring slot).retryKeys) (.next h)
  · exact .next h.retryKeys

/-! ### Tenants (17 R464 to R466) -/

theorem Canon.clearTenant (h : Canon s) (tenant : Nat) : Canon (s.clearTenant tenant) := h.hbmOnly (s.clearTenant_only tenant)

/-- A state whose HBM holds nothing in place of its own. -/
theorem Canon.emptyHbm (h : Canon s) (hmem : t.hbm.mem = []) (hrest : t.cores = s.cores ∧ t.cmd.panels = s.cmd.panels ∧
    t.rel.canarySaved = s.rel.canarySaved ∧ t.mgt.mbxParams = s.mgt.mbxParams ∧ t.mgt.mbxResp = s.mgt.mbxResp) : Canon t := by
  obtain ⟨hcores, hpanels, hsaved, hparams, hresp⟩ := hrest
  obtain ⟨-, kcores, kpanels, ksaved, kparams, kresp⟩ := (State.memWf_iff s).1 h
  exact (State.memWf_iff t).2 ⟨hmem ▸ Mem.wf_nil, hcores ▸ kcores, hpanels ▸ kpanels, hsaved ▸ ksaved, hparams ▸ kparams, hresp ▸ kresp⟩

theorem Canon.zeroAll (h : Canon s) : Canon s.zeroAll := by
  unfold State.zeroAll
  extract_lets s0 s1 hbm
  have hdropped : Canon s0 := h.mscDropAll _
  have hcounted : Canon s1 := hdropped.foldl (fun _ _ ht => ht.count _ _) _
  clear_value s1
  exact hcounted.emptyHbm rfl ⟨rfl, rfl, rfl, rfl, rfl⟩

theorem canon_execTenantClear (h : Canon s) (tenant : Nat) (all : Bool) : CanonNext (execTenantClear tenant all s) :=
  .ite (.next h) (.ite (.ite (.next (h.mbxReply _ _)) (.next (h.zeroAll.mbxReply _ _))) (.ite (.next (h.mbxReply _ _))
    (.next ((h.clearTenant tenant).mbxReply _ _))))

theorem Canon.finishRemoval (h : Canon s) (tenant : Nat) : Canon (s.finishRemoval tenant) := by
  unfold State.finishRemoval
  extract_lets cs ks s1 s2 s3 s4 sec
  have hframes : Canon s1 := h.clearTenant tenant
  have hslices : Canon s2 :=
    hframes.foldl (fun _ k ht => ht.foldl (fun _ p hu => hu.modContents p fun _ hsl => Slice.wf_cleared hsl) _) _
  have hcontexts : Canon s3 := hslices.foldl (fun _ c ht => ht.destroyCtx c) _
  have hslots : Canon s4 := hcontexts.foldl (fun _ i ht => ht.emptySlot i) _
  clear_value s4
  exact Canon.mbxReply (hslots.side (by rfl)) _ _

theorem Canon.removalPeer (h : Canon s) (peer : Nat) : Canon (s.removalPeer peer) := by
  unfold State.removalPeer
  split
  · exact h
  · extract_lets left sec s1
    have hheard : Canon s1 := h.side rfl
    exact (hheard.finishRemoval _).ite hheard

theorem Canon.beginRemoval (h : Canon s) (tenant : Nat) : Canon (s.beginRemoval tenant) := by
  unfold State.beginRemoval
  extract_lets cs s1 s2 mine s3 s4 rel s5
  have hstopped : Canon s1 := by
    refine h.foldl (fun _ c ht => ht.foldl (fun u x hu => ?_) _) _
    exact hu.stopPanel x.1
  have hignored : Canon s2 := hstopped.foldl (fun _ c ht => ht.modCtx c _) _
  have hended : Canon s3 := (hignored.killWhere mine 7).withdrawWhere mine 7
  have hdropped : Canon s4 := hended.foldl (fun _ c ht => ((ht.dropPackets c 7).cancelWork c).dropSwitched c) _
  clear_value s4
  have hleft : Canon s5 := hdropped.side rfl
  exact hleft.foldl (fun _ i ht => ht.revokeSlot i) _

theorem canon_execTenantRemove (h : Canon s) (tenant : Nat) : CanonNext (execTenantRemove tenant s) := by
  unfold execTenantRemove
  extract_lets mask peers s1 sec
  have hbegun : Canon s1 := h.beginRemoval tenant
  clear_value s1
  exact .ite (.next h) (.ite (.next (h.mbxReply _ _)) (.ite (.next (hbegun.finishRemoval tenant))
    (.next (Canon.foldl (hbegun.side (by rfl)) (fun _ _ ht => ht.emit _) _))))

theorem canon_execTenantDrainTimeout (h : Canon s) (peer : Nat) : CanonNext (execTenantDrainTimeout peer s) := by
  unfold execTenantDrainTimeout
  extract_lets ps
  have hdead : Canon (ps.foldl (fun s p => s.portDead p) s) := h.foldl (fun _ p ht => ht.portDead p) ps
  exact .ite (.next h) (.next ((hdead.event _).removalPeer peer))

theorem canon_execDrainNotice (h : Canon s) (peer tenant : Nat) (drained : Bool) : CanonNext (execDrainNotice peer tenant drained s) :=
  .ite (.next h) (.ite (.ite (.next (h.removalPeer peer)) (.next h)) (.next (Canon.settleDrains (h.side (by rfl)))))

/-! ### Lifecycle, tamper and entropy (17 R460 to R463) -/

theorem Slice.wf_wipeMarked {sl : Slice} (h : Mem.wf sl.mem = true) : Mem.wf sl.wipeMarked.mem = true :=
  Slice.wf_when (Slice.wf_wipeSecure h) h

theorem Canon.wipeTiles (h : Canon s) : Canon s.wipeTiles := by
  unfold State.wipeTiles
  extract_lets s1 rel
  have hwiped : Canon s1 := h.foldl (fun _ p ht => ht.modSlice p fun _ hsl => Slice.wf_wipeMarked hsl) _
  clear_value s1
  obtain ⟨hhbm, hcores, hpanels, hsaved, hmbx⟩ := (State.memWf_iff s1).1 hwiped
  refine (State.memWf_iff _).2 ⟨hhbm, hcores, hpanels, fun sl hsl => ?_, hmbx⟩
  obtain ⟨x, hx, rfl⟩ := Option.map_eq_some_iff.mp hsl
  exact Slice.wf_wipeMarked (hsaved x hx)

theorem Canon.transition (h : Canon s) (target : Lifecycle) (auth : List Byte) : Canon (s.transition target auth) := by
  unfold State.transition
  extract_lets s1 all s2 s3 cmd rel s4 s5 owner sec
  have hrevoked : Canon s1 := h.foldl (fun _ i ht => ht.revokeSlot i) _
  have hended : Canon s2 := (hrevoked.killWhere all 7).withdrawWhere all 7
  have hdestroyed : Canon s3 := hended.foldl (fun _ c ht => ((ht.dropPackets c 7).cancelWork c).destroyCtx c) _
  clear_value s3
  have hwiped : Canon s4 := Canon.wipeTiles (hdestroyed.side (by rfl))
  have hzeroed : Canon s5 := hwiped.zeroAll.newSlot0
  clear_value s5
  exact Canon.event (hzeroed.side (by rfl)) _

theorem canon_execLifecycleSet (h : Canon s) (target : Nat) (auth : List Byte) : CanonNext (execLifecycleSet target auth s) := by
  refine .ite (.next h) ?_
  split
  · exact .next (h.newChallenge.mbxReply _ _)
  · exact .ite (.next ((h.transition _ auth).newChallenge.mbxReply _ _)) (.next (h.newChallenge.mbxReply _ _))

theorem canon_execTamperClear (h : Canon s) (standing : List TamperCause) : CanonNext (execTamperClear standing s) := by
  unfold execTamperClear
  extract_lets sec s1
  have hcleared : Canon s1 := Canon.mbxReply (h.side (by rfl)) _ _
  exact .ite (.next h) (.ite (.ite (.next hcleared.bootConfig) (.next (hcleared.enterHold 8))) (.next hcleared))

theorem Canon.destroyAll (h : Canon s) : Canon s.destroyAll := by
  unfold State.destroyAll
  extract_lets s1 sec c
  have hempty : Canon s1 := h.foldl (fun _ i ht => ht.emptySlot i) _
  exact hempty.side rfl

theorem Canon.abortKeyCommand (h : Canon s) : Canon s.abortKeyCommand := (h.mbxReply _ _).ite h

theorem canon_execTamperDetect (h : Canon s) (cause : TamperCause) : CanonNext (execTamperDetect cause s) := by
  unfold execTamperDetect
  extract_lets s1 n sec s2 s3
  have hdestroyed : Canon s1 := h.destroyAll.wipeTiles.abortKeyCommand
  clear_value s1
  have hlatched : Canon s2 := hdestroyed.side rfl
  have hcounted : Canon s3 := (hlatched.event _).count _ _
  exact .ite (.next h) (.next (hcounted.moduleReset.ite hcounted))

theorem canon_execEntropyFail (h : Canon s) : CanonNext (execEntropyFail s) :=
  .ite (.next (Canon.count (Canon.event (h.side (by rfl)) _) _ _)) (.next h)

theorem canon_execEntropyRecover (h : Canon s) : CanonNext (execEntropyRecover s) := .ite (.next (h.side (by rfl))) (.next h)

/-! ### SPDM and sessions (17 R451 to R453) -/

theorem canon_spdm (h : Canon s) (d : SpdmDoor) (data : List Byte) : CanonNext (s.spdm d data) := .ite (.next (h.emit _)) (.next h)

theorem canon_execSessionOpen (h : Canon s) (fn ctx : Nat) (clientKey nonce : List Byte) :
    CanonNext (execSessionOpen fn ctx clientKey nonce s) := by
  unfold execSessionOpen
  extract_lets x refuse
  have hrefuse (st : Nat) : CanonNext (refuse st) := .next (h.emit _)
  refine .ite (.next h) (.ite (hrefuse _) (.ite (hrefuse _) (.ite (hrefuse _) ?_)))
  split
  · exact hrefuse _
  · next i _ =>
    extract_lets g s1 sec s2 d
    have hinstalled : Canon s1 := h.installKey i 3 _ g false
    clear_value s1
    have hsession : Canon s2 := hinstalled.side rfl
    exact .next (((hsession.drawBytes 225).count _ _).emit _)

theorem canon_execSessionClose (h : Canon s) (fn slot : Nat) : CanonNext (execSessionClose fn slot s) := by
  refine .ite (.next h) ?_
  split
  · exact .next (h.emit _)
  · refine .ite (.next (h.emit _)) (.next (Canon.settleErase (Canon.beginErase ?_ slot) slot))
    exact h.side rfl

end

end Sys2Proof.Machine
end

section
/-! PROOFS. The canonical form of the memories: mailbox commands, engines, and the management plane (18, 03). -/

namespace Sys2Proof.Machine

section
variable {s t : State}

/-! ### The mailbox and the module's commands (18 R471 to R485) -/

theorem Canon.mbxRefuse (h : Canon s) (door : Door) (seq : Half) : Canon (s.mbxRefuse door seq) := by
  unfold State.mbxRefuse
  extract_lets s1 mgt
  have hcounted : Canon s1 := h.count _ _
  split
  · exact hcounted.side rfl
  · exact hcounted.emit _

theorem Canon.mbxAccept (h : Canon s) (door : Door) (opcode seq : Half) : Canon (s.mbxAccept door opcode seq) := Canon.side (h.count _ _) rfl

theorem Canon.mbxArrive (h : Canon s) (door : Door) (opcode seq : Half) : Canon (s.mbxArrive door opcode seq) := by
  unfold State.mbxArrive
  extract_lets s1
  have htaken : Canon s1 := h.mbxAccept door opcode seq
  exact h.ite ((h.mbxRefuse door seq).ite ((htaken.mbxReply _ _).ite ((htaken.mbxReply _ _).ite htaken)))

theorem canon_execMbxCmd (h : Canon s) (door : Door) (opcode seq : Half) : CanonNext (execMbxCmd door opcode seq s) :=
  .ite (.hostTo h (.next (h.mbxArrive door opcode seq))) (.next (h.mbxArrive door opcode seq))

theorem canon_execModuleInfo (h : Canon s) : CanonNext (execModuleInfo s) := .ite (.next h) (.next (h.mbxReply _ _))

theorem canon_execModuleReset (h : Canon s) : CanonNext (execModuleReset s) := .ite (.next (h.mbxReply _ _).moduleReset) (.next h)

theorem canon_execConfigLoad (h : Canon s) (block : HostRead) : CanonNext (execConfigLoad block s) := by
  refine .ite (.next h) ?_
  split
  · exact .next (h.mbxReply _ _)
  · next bs =>
    extract_lets c mgt s1
    have hloaded : Canon s1 := Canon.mbxReply (h.side (by rfl)) _ _
    exact .ite (.next (h.mbxReply _ _)) (.ite (.next (h.mbxReply _ _)) (.ite (.next (h.mbxReply _ _))
      (.ite (.next hloaded.bootIslands) (.next hloaded))))

theorem canon_execConfigRead (h : Canon s) (offset len : Nat) : CanonNext (execConfigRead offset len s) :=
  .ite (.next h) (.ite (.next (h.mbxReply _ _)) (.next (h.mbxReply _ _)))

theorem Canon.writeFw (h : Canon s) (f : FwSlot) :
    Canon { s with mgt := if s.mgt.activeSlot then { s.mgt with fwA := f } else { s.mgt with fwB := f } } := by
  refine h.same ⟨rfl, rfl, rfl, rfl, ?_, ?_⟩
  · dsimp only
    split <;> rfl
  · dsimp only
    split <;> rfl

theorem canon_execFwInstall (h : Canon s) (image : HostRead) : CanonNext (execFwInstall image s) := by
  refine .ite (.next h) ?_
  split
  · exact .next (h.mbxReply _ _)
  · exact .ite (.next (h.mbxReply _ _)) (.next ((h.writeFw _).mbxReply _ _))

theorem Canon.markTrial (h : Canon s) (minutes : Nat) : Canon (s.markTrial minutes) := Canon.mbxReply (h.side (by rfl)) _ _

theorem canon_execFwActivate (h : Canon s) (revertMin : Nat) (approved : Bool) : CanonNext (execFwActivate revertMin approved s) := by
  refine .ite (.next h) ?_
  split
  · exact .ite (.next (h.markTrial _)) (.next (Canon.mbxReply (h.side (by rfl)) _ _))
  · exact .ite (.next (h.mbxReply _ _)) (.ite (.next (h.mbxReply _ _)) (.ite (.next (h.markTrial _)) (.next (Canon.emit (h.side (by rfl)) _))))

theorem canon_execFwApprovalTimeout (h : Canon s) : CanonNext (execFwApprovalTimeout s) := .ite (.next (Canon.mbxReply (h.side (by rfl)) _ _)) (.next h)

theorem Canon.revertFw (h : Canon s) : Canon s.revertFw := Canon.moduleReset (Canon.event (h.side (by rfl)) 3)

theorem canon_execFwRevert (h : Canon s) : CanonNext (execFwRevert s) := .ite (.next (h.mbxReply _ _).revertFw) (.next h)

theorem canon_execRevertTimerExpiry (h : Canon s) : CanonNext (execRevertTimerExpiry s) := .ite (.next h.revertFw) (.next h)

theorem canon_execLockSet (h : Canon s) (groups : BitVec 2) : CanonNext (execLockSet groups s) := .ite (.next (Canon.mbxReply (h.side (by rfl)) _ _)) (.next h)

theorem canon_execRelease (h : Canon s) (kind index : Nat) : CanonNext (execRelease kind index s) :=
  .ite (.next h) (.ite (.ite (.next (Canon.mbxReply (h.side (by rfl)) _ _)) (.next (h.mbxReply _ _))) (.ite (.ite (.next (h.mbxReply _ _))
    (.ite (.next (Canon.mbxReply (h.modPort _ _) _ _)) (.next (h.mbxReply _ _)))) (.next (h.mbxReply _ _))))

theorem canon_execEventRead (h : Canon s) (first : W32) (count : Nat) : CanonNext (execEventRead first count s) :=
  .ite (.next h) (.ite (.next (h.mbxReply _ _)) (.next (Canon.mbxReply (h.side (by rfl)) _ _)))

theorem canon_execIdentitySet (h : Canon s) (id : Nat) : CanonNext (execIdentitySet id s) :=
  .ite (.next h) (.ite (.next (h.mbxReply _ _)) (.next (Canon.mbxReply (h.side (by rfl)) _ _)))

theorem canon_execSurvey (h : Canon s) : CanonNext (execSurvey s) := .ite (.next h.surveyAll) (.next h)

theorem canon_execCalUnpin (h : Canon s) (island : Nat) : CanonNext (execCalUnpin island s) :=
  .ite (.next h) (.ite (.next (h.mbxReply _ _)) (.next (Canon.mbxReply (h.side (by rfl)) _ _)))

/-! ### Contexts and panels (13 R328 to R331, 18 R477, R478) -/

theorem Canon.bindWindow (h : Canon s) (c : Nat) (f : CtxFields) : Canon (s.bindWindow c f) := ((h.modWindow _ _).ite h).modWindow _ _

theorem canon_execContextWrite (h : Canon s) (c : Nat) (e : CtxFields) : CanonNext (execContextWrite c e s) := by
  unfold execContextWrite
  extract_lets old s1 s2
  have hbound : Canon s1 := (h.bindWindow c e).modCtx c _
  have hseen : Canon s2 := hbound.evalAdmission _
  exact .ite (.next h) (.ite (.next (h.mbxReply _ _)) (.next (((hseen.evalAdmission _).ite hseen).mbxReply _ _)))

theorem canon_execContextDestroy (h : Canon s) (c : Nat) : CanonNext (execContextDestroy c s) :=
  .ite (.next h) (.ite (.next (h.mbxReply _ _)) (.ite (.next ((h.modCtx c _).commandRecovery c))
    (.next (((h.destroyCtx c).evalAdmission _).mbxReply _ _))))

theorem canon_execContextRecover (h : Canon s) (c : Nat) : CanonNext (execContextRecover c s) :=
  .ite (.next h) (.ite (.next (h.mbxReply _ _)) (.next ((h.commandRecovery c).mbxReply _ _)))

theorem canon_execRootSet (h : Canon s) (c : Nat) (root : W64) : CanonNext (execRootSet c root s) :=
  .ite (.next h) (.ite (.next (h.mbxReply _ _)) (.next ((h.modCtx c _).mbxReply _ _)))

theorem canon_execFallbackSet (h : Canon s) (c fb : Nat) (entry : BitVec 21) (argBlock : W64) (firstCore coreCount : Nat) :
    CanonNext (execFallbackSet c fb entry argBlock firstCore coreCount s) :=
  .ite (.next h) (.ite (.next (h.mbxReply _ _)) (.next ((h.modCtx c _).mbxReply _ _)))

theorem canon_execPlacementWrite (h : Canon s) (c : Nat) (table : List Byte) : CanonNext (execPlacementWrite c table s) :=
  .ite (.next h) (.ite (.next (h.mbxReply _ _)) (.next ((h.placePending c table).mbxReply _ _)))

theorem canon_execPanelWrite (h : Canon s) (k : Nat) (e : PanelFields) (links : Bool) : CanonNext (execPanelWrite k e links s) := by
  unfold execPanelWrite
  extract_lets old pairing moved s1
  have hwritten : Canon s1 := h.modPanelSame k fun _ => rfl
  exact .ite (.next h) (.ite (.next (h.mbxReply _ _)) (.ite (.next (h.mbxReply _ _)) (.next ((hwritten.evalAdmission k).mbxReply _ _))))

theorem canon_execRouteWrite (h : Canon s) (table entry : Nat) (paths : List RoutePath) : CanonNext (execRouteWrite table entry paths s) :=
  .ite (.next h) (.ite (.next (h.mbxReply _ _)) (.ite (.next (h.mbxReply _ _)) (.next (Canon.mbxReply (Canon.pumpTransfers (h.side (by rfl))) _ _))))

theorem canon_execLevelPin (h : Canon s) (c level : Nat) : CanonNext (execLevelPin c level s) :=
  .ite (.next h) (.ite (.next (h.mbxReply _ _)) (.ite (.next (h.mbxReply _ _)) (.next ((h.modCtx c _).mbxReply _ _))))

theorem canon_execPortRemap (h : Canon s) (logical physical : Nat) : CanonNext (execPortRemap logical physical s) :=
  .ite (.next h) (.ite (.next (h.mbxReply _ _)) (.ite (.next (h.mbxReply _ _)) (.next ((h.takeSpare logical physical).mbxReply _ _))))

theorem canon_execRepairWrite (h : Canon s) (index frame : Nat) (replica : W64) (slot : Nat) :
    CanonNext (execRepairWrite index frame replica slot s) := by
  unfold execRepairWrite
  extract_lets rel e s1 bad
  have hentry : Canon s1 := h.side rfl
  have hrepaired (fs : List Nat) : Canon (fs.foldl (fun s f => s.repairFrame f) s1) :=
    hentry.foldl (fun t f ht => ht.hbmOnly (t.repairFrame_only f)) fs
  exact .ite (.next h) (.ite (.next (h.mbxReply _ _)) (.ite (.next (Canon.mbxReply (h.side (by rfl)) _ _)) (.next ((hrepaired _).mbxReply _ _))))

/-! ### Engines (03 R75, R76; 06 R163) -/

theorem canon_execEngineEntryStart (h : Canon s) (p : Nat) (e : Engine) : CanonNext (execEngineEntryStart p e s) := by
  refine .ite (.next h) ?_
  cases e with
  | matrix => exact .next (canon_startMatrix h p)
  | vector => exact .next (canon_startVector h p)
  | stream => exact .next (canon_startStream h p)

theorem Canon.hideWords (h : Canon s) (p : Nat) (ws : List Nat) : Canon (s.hideWords p ws) :=
  h.foldl (fun _ _ ht => (ht.drawBytes 64).modSlice p fun _ hsl => Mem.wf_writeN _ _ _ hsl) _

theorem Slice.wf_showWords {sl : Slice} (h : Mem.wf sl.mem = true) : Mem.wf sl.showWords.mem = true :=
  List.foldlRecOn (motive := fun m : Mem => Mem.wf m = true) _ _ h fun _ hm k _ => Mem.wf_writeN _ (k.1 * 64) k.2 hm

theorem Canon.withFreeReads (h : Canon s) (p : Nat) (rs : List (Nat × Nat)) {f : State → State} (hf : ∀ t, Canon t → Canon (f t)) :
    Canon (s.withFreeReads p rs f) := by
  unfold State.withFreeReads
  extract_lets ws s1 c1
  have hran : Canon s1 := (hf _ (h.hideWords p ws)).modSlice p fun _ hsl => Slice.wf_showWords hsl
  exact hran.modSliceSame p fun _ => rfl

theorem Canon.readWords (h : Canon s) (p : Nat) (rs : List (Nat × Nat)) (finds : Finds) : Canon (s.readWords p rs finds) := by
  unfold State.readWords
  extract_lets s1
  have hfound : Canon s1 := h.modSliceSame p fun sl => sl.mem_found _
  exact hfound.ite (hfound.noteReads p rs)

theorem canon_completeEngine (h : Canon s) (p : Nat) (e : Engine) (index cycles stalls : Nat) : Canon (completeEngine p e index cycles stalls s) := by
  cases e with
  | matrix => exact canon_completeMatrix h p index cycles stalls
  | vector => exact canon_completeVector h p stalls
  | stream => exact h.ite (h.strRetire p cycles)

theorem canon_execEngineInstructionComplete (h : Canon s) (p : Nat) (e : Engine) (index : Nat) (busy : Busy) (finds : Finds) :
    CanonNext (execEngineInstructionComplete p e index busy finds s) :=
  .ite (.next h) (.next ((h.readWords p _ finds).withFreeReads p _ fun _ ht => canon_completeEngine ht p e index _ _))

theorem canon_execIssueWindowStart (h : Canon s) (p : Nat) (stream : Bool) (ready : W64) (finds : Finds) :
    CanonNext (execIssueWindowStart p stream ready finds s) := by
  have hfound : Canon (s.modSlice p fun sl => sl.found finds) := h.modSliceSame p fun sl => sl.mem_found _
  exact .ite (.next h) (.ite (.next (canon_streamWindow hfound p _ ready))
    (.next ((h.readWords p _ finds).withFreeReads p _ fun _ ht => canon_matrixWindow ht p _ ready)))

/-! ### Tallies and placement revisions (18 R488 to R490, 11 R290) -/

theorem Canon.armTally (h : Canon s) (time : W64) (n : Half) : Canon (s.armTally time n) := h.side rfl

theorem canon_execTallyArm (h : Canon s) (time : W64) (n : Half) : CanonNext (execTallyArm time n s) := by
  unfold execTallyArm
  extract_lets mgt s1
  have hset : Canon s1 := h.side rfl
  exact .ite (.next h) (.ite (.next ((h.event _).mbxReply _ _)) (.next ((hset.armTally time n).mbxReply _ _)))

theorem canon_execMgtTallyGo (h : Canon s) (v : W32) : CanonNext (execMgtTallyGo v s) := by
  refine .hostTo h ?_
  extract_lets n mgt s1
  have hset : Canon s1 := h.side rfl
  exact .ite (.next h) (.ite (.next hset) (.ite (.next (hset.event _)) (.next (hset.armTally _ n))))

theorem canon_execTallyLatch (h : Canon s) (island : Nat) : CanonNext (execTallyLatch island s) := .ite (.next h) (.next (h.side (by rfl)))

theorem canon_execTallyIslandRecord (h : Canon s) : CanonNext (execTallyIslandRecord s) := .ite (.next h) (.next (h.side (by rfl)))

theorem Canon.armRevision (h : Canon s) (c : Nat) (table : List Byte) : Canon (s.armRevision c table) := by
  unfold State.armRevision
  extract_lets at' n s1
  have harmed : Canon s1 := Canon.foldl (h.armTally _ n) (fun _ _ ht => ht.emit _) _
  exact harmed.side rfl

theorem Canon.startRevision (h : Canon s) (c : Nat) (table : List Byte) : Canon (s.startRevision c table) := h.ite (h.armRevision c table)

theorem canon_execPlacementRevision (h : Canon s) (c : Nat) (table : List Byte) : CanonNext (execPlacementRevision c table s) := by
  refine .ite (.next h) ?_
  split
  · exact .next (h.startRevision c _)
  · exact .ite (.next (Canon.writeRevision (h.side (by rfl)) c _)) (.ite (.next h) (.next (h.startRevision c _)))

/-! ### The management chain (18 R479 to R481) -/

theorem Canon.setTx (h : Canon s) (up : Bool) (x : ChainTx) : Canon (s.setTx up x) := by
  cases up with
  | false => exact h.side rfl
  | true => exact h.side rfl

theorem Canon.chainDrive (h : Canon s) (up : Bool) : Canon (s.chainDrive up) := by
  unfold State.chainDrive
  split
  · exact h
  · exact Canon.emit (Canon.count (h.side (by rfl)) _ _) _

theorem Canon.chainSend (h : Canon s) (up : Bool) (f : ChainFrame) : Canon (s.chainSend up f) :=
  h.ite (((h.setTx up _).chainDrive up).ite (h.setTx up _))

theorem Canon.chainPop (h : Canon s) (up : Bool) : Canon (s.chainPop up) := (h.setTx up _).chainDrive up

theorem Canon.chainForward (h : Canon s) (up : Bool) (f : ChainFrame) : Canon (s.chainForward up f) := (h.chainSend (!up) f).ite h

theorem Canon.chainCollide (h : Canon s) (up : Bool) : Canon (s.chainCollide up) := (Canon.count (h.setTx up _) _ _).ite h

theorem canon_execChainFrameRx (h : Canon s) (up : Bool) (f : ChainFrame) (crcOk acked : Bool) :
    CanonNext (execChainFrameRx up f crcOk acked s) := by
  unfold execChainFrameRx
  extract_lets s1 s2
  have hyield : Canon s1 := h.chainCollide up
  have htaken : Canon s2 := (hyield.count _ _).emit _
  exact .ite (.next h) (.ite (.ite (.next h) (.next (h.chainPop up))) (.ite (.next (hyield.count _ _))
    (.next (htaken.ite (htaken.chainForward up f)))))

theorem canon_execChainAckTimeout (h : Canon s) (up : Bool) : CanonNext (execChainAckTimeout up s) :=
  .ite (.next h) (.ite (.next ((h.setTx up _).chainDrive up)) (.next ((h.event _).chainPop up)))

theorem canon_execChainBackoffExpiry (h : Canon s) (up : Bool) : CanonNext (execChainBackoffExpiry up s) :=
  .ite (.next h) (.next ((h.setTx up _).chainDrive up))

theorem Canon.takeAddress (h : Canon s) (v : Nat) : Canon (s.takeAddress v) := by
  unfold State.takeAddress
  extract_lets mgt walker s1 s2
  have haddressed : Canon s1 := Canon.emit (h.side (by rfl)) _
  have hstraps : Canon s2 := (haddressed.event _).ite haddressed
  exact hstraps.bootLinks.ite hstraps

theorem canon_execEnumerationFrame (h : Canon s) (v : Nat) : CanonNext (execEnumerationFrame v s) := by
  refine .ite (.next h) ?_
  split
  · exact .ite (.next (h.takeAddress v)) (.next (h.event _))
  · exact .ite (.next h) (.ite (.next (h.takeAddress v)) (.next (h.event _)))

theorem canon_execChainAddressTimeout (h : Canon s) : CanonNext (execChainAddressTimeout s) := .ite (.next (h.event _)) (.next h)

/-! ### Headframe roles and telemetry (18 R482, R483, R492) -/

theorem Canon.setRole (h : Canon s) (r : HfRole) (x : RoleState) : Canon (s.setRole r x) := by
  cases r with
  | board => exact h.side rfl
  | group => exact h.side rfl
  | site => exact h.side rfl

theorem Canon.serveGrants (h : Canon s) (qs : List GrantReq) : Canon (s.serveGrants qs) := by
  induction qs generalizing s with
  | nil => exact h.side rfl
  | cons q rest ih => exact Canon.ite (ih (Canon.emit (h.side (by rfl)) _)) (h.side (by rfl))

theorem Canon.settleGrants (h : Canon s) : Canon s.settleGrants := by
  unfold State.settleGrants
  split
  · exact (h.serveGrants _).ite h
  · exact h

theorem canon_execGrantRequestRx (h : Canon s) (m id watts : Nat) (stamp : W64) : CanonNext (execGrantRequestRx m id watts stamp s) := by
  unfold execGrantRequestRx
  split
  · exact .next h
  · exact .ite (.next h) (.next (Canon.settleGrants (h.side (by rfl))))

theorem canon_execHeartbeatSend (h : Canon s) (r : HfRole) : CanonNext (execHeartbeatSend r s) := .ite (.next (h.emit _).settleGrants) (.next h)

theorem canon_execHeartbeatRx (h : Canon s) (r : HfRole) (epoch : W32) (m : Nat) : CanonNext (execHeartbeatRx r epoch m s) :=
  .ite (.next h) (.ite (.ite (.next (h.setRole r _)) (.next h)) (.ite (.next h) (.next (h.setRole r _))))

theorem canon_execHeadframeTakeover (h : Canon s) (r : HfRole) : CanonNext (execHeadframeTakeover r s) :=
  .ite (.next ((h.setRole r _).event _).settleGrants) (.next h)

theorem Canon.noteLimit (h : Canon s) (sensor limit : Nat) : Canon (s.noteLimit sensor limit) := h.ite (Canon.emit (h.side (by rfl)) _)

theorem canon_execSensorUpdate (h : Canon s) (values : List Nat) : CanonNext (execSensorUpdate values s) := by
  unfold execSensorUpdate
  extract_lets vs mgt s1
  have hread : Canon s1 := h.side rfl
  exact .ite (.next h) (.next (hread.foldl (fun _ i ht => ht.noteLimit _ _) _))

theorem canon_execPldmRequest (h : Canon s) (type sensor : Nat) : CanonNext (execPldmRequest type sensor s) :=
  .ite (.next h) (.ite (.next (h.emit _)) (.ite (.next ((h.drawWords 1).emit _)) (.next (h.emit _))))

end

end Sys2Proof.Machine
end

section
/-! PROOFS. The canonical form of the memories: pins, PCIe, BAR2 and register writes (19, 20). -/

namespace Sys2Proof.Machine

section
variable {s t : State}

/-! ### Power, pins and PCIe (15 R410, 16 R425, 19) -/

theorem canon_execThermalTrip (h : Canon s) : CanonNext (execThermalTrip s) := .ite (.next h.losePower) (.next h)

theorem canon_execPerstAssert (h : Canon s) : CanonNext (execPerstAssert s) := .ite (.next (Canon.side h.clearCold (by rfl))) (.next (h.side (by rfl)))

theorem canon_execModEnAssert (h : Canon s) : CanonNext (execModEnAssert s) := .ite (.next (Canon.side (canon_powerOff s) (by rfl))) (.next h)

theorem canon_execModEnDeassert (h : Canon s) : CanonNext (execModEnDeassert s) := .ite (.next (Canon.side (canon_powerOff s) (by rfl))) (.next h)

theorem canon_execInputTrip (h : Canon s) : CanonNext (execInputTrip s) :=
  .ite (.next (((h.losePower.drawBytes 1).emit _).ite (h.losePower.drawBytes 1))) (.next h)

theorem canon_execInputRangeExcursion (h : Canon s) (high : Bool) : CanonNext (execInputRangeExcursion high s) :=
  .ite (.next ((h.event _).noteLimit _ _)) (.next h)

theorem canon_execStandbyPowerChange (h : Canon s) (on : Bool) : CanonNext (execStandbyPowerChange on s) :=
  .ite (.next h) (.next (Canon.side (canon_powerOff s) (by rfl)))

theorem canon_execTsyncEdge (h : Canon s) : CanonNext (execTsyncEdge s) := .ite (.next h) (.ite (.next (h.side (by rfl))) (.next (h.side (by rfl))))

theorem canon_execPtmMessage (h : Canon s) (time : W64) : CanonNext (execPtmMessage time s) := .ite (.next (h.side (by rfl))) (.next h)

theorem canon_execFunctionLevelReset (h : Canon s) (fn : Nat) : CanonNext (execFunctionLevelReset fn s) := by
  unfold execFunctionLevelReset
  extract_lets ks s1 cs
  have hdisabled : Canon s1 := h.foldl (fun _ k ht => ht.modWindow k _) _
  exact .ite (.next h) (.next (hdisabled.foldl (fun _ c ht => ht.commandRecovery c) _))

theorem Canon.wakeFn (h : Canon s) (fn : Nat) : Canon (s.wakeFn fn) := by
  unfold State.wakeFn
  extract_lets hif s1 ks s2 s3 hif3
  have hawake : Canon s1 := h.side rfl
  have hdrained : Canon s2 := hawake.foldl (fun _ k ht => ht.drainHeld k _) _
  have hirq : Canon s3 := hdrained.msix 0 256
  clear_value s3
  exact Canon.ite (hirq.side (by rfl)) hdrained

theorem canon_execPciePowerStateChange (h : Canon s) (fn : Nat) (d3 : Bool) : CanonNext (execPciePowerStateChange fn d3 s) :=
  .ite (.next h) (.ite (.next (h.side (by rfl))) (.next (h.wakeFn fn)))

theorem canon_execPcieLinkTrained (h : Canon s) (rate width : Nat) (flit : Bool) : CanonNext (execPcieLinkTrained rate width flit s) := by
  unfold execPcieLinkTrained
  extract_lets s1 hif s2
  have hcounted : Canon s1 := h.ite (h.count _ _)
  clear_value s1
  have htrained : Canon s2 := hcounted.side rfl
  exact .ite (.next h) (.next ((htrained.event _).ite htrained))

theorem canon_execConfigurationRequest (h : Canon s) (r : CfgReq) : CanonNext (execConfigurationRequest r s) := by
  have hanswered : Canon (s.emit (.cfg false)) := h.emit _
  refine .ite (.next h) (.ite (.next (h.emit _)) ?_)
  cases r with
  | read _ => exact .next hanswered
  | writeNumVfs n => exact .next (Canon.ite (hanswered.side (by rfl)) hanswered)
  | writeMsixEnable fn on => exact .next (Canon.ite (hanswered.side (by rfl)) hanswered)

theorem canon_execUartRxByte (h : Canon s) (b : Byte) : CanonNext (execUartRxByte b s) := .ite (.next (h.side (by rfl))) (.next h)

theorem canon_execJtagInstruction (h : Canon s) (op : W32) : CanonNext (execJtagInstruction op s) := by
  unfold execJtagInstruction
  extract_lets pins s1
  have hloaded : Canon s1 := h.side rfl
  exact .ite (.next h) (.next ((hloaded.emit _).ite hloaded))

/-! ### BAR2 (20 R521, R522) -/

theorem Canon.bar2Peer (h : Canon s) (off dest len : Nat) (write : Bool) (data : List Byte) : Canon (s.bar2Peer off dest len write data) :=
  Canon.sendOrWait (h.side (by rfl)) _ _ _ _ _

theorem Canon.bar2Refuse (h : Canon s) : Canon s.bar2Refuse := (h.eventPerMs _).emit _

theorem Canon.noteHostRefused (h : Canon s) (p a n : Nat) : Canon (s.noteHostRefused p a n) := (h.noteSecure p).ite (h.noteRefused p)

theorem Canon.bar2Answer (h : Canon s) (offset len : Nat) (finds : Finds) : Canon (s.bar2Answer offset len finds) := by
  unfold State.bar2Answer
  split
  · exact h.bar2Refuse
  · exact h.bar2Peer _ _ _ _ _
  · exact (h.hbmRead _ _ _).emit _
  · next p a _ =>
    extract_lets s1
    have hread : Canon s1 := Canon.noteReads (h.modSliceSame p fun sl => sl.mem_found _) p _
    refine .ite (h.noteHostRefused p a len).bar2Refuse ?_
    split
    · exact (hread.noteBad p _).emit _
    · exact (hread.portBRead p a len).emit _

theorem canon_execBar2Read (h : Canon s) (offset : Nat) (ask : Bar2Ask) : CanonNext (execBar2Read offset ask s) :=
  .hostTo h (.ite (.next h) (.ite (.next (h.emit _)) (.next (h.bar2Answer _ _ _))))

theorem Canon.bar2Store (h : Canon s) (offset : Nat) (data : List Byte) : Canon (s.bar2Store offset data) := by
  unfold State.bar2Store
  split
  · exact h.eventPerMs _
  · exact h.bar2Peer _ _ _ _ _
  · exact Canon.ite ((h.hbmWrite _ _ _).eventPerMs _) (h.hbmWrite _ _ _)
  · next p a _ => exact .ite ((h.noteHostRefused p a _).eventPerMs _) (h.modSlice p fun _ hsl => Mem.wf_writeN _ a data hsl)

theorem canon_execBar2Write (h : Canon s) (offset : Nat) (data : List Byte) : CanonNext (execBar2Write offset data s) :=
  .hostTo h (.ite (.next h) (.next (h.bar2Store offset data)))

theorem canon_execBar2PeerTimeout (h : Canon s) : CanonNext (execBar2PeerTimeout s) := by
  unfold execBar2PeerTimeout
  split
  · exact .next h
  · next q rest _ =>
    extract_lets hif s1
    have hdropped : Canon s1 := Canon.event (h.side (by rfl)) _
    exact .ite (.next h) (.next (hdropped.ite (hdropped.emit _)).settleDrains)

/-! ### Register writes (00 R6 to R8, 20 R520 to R525) -/

theorem Canon.writeCore (h : Canon s) (p o v : Nat) : Canon (s.writeCore p o v) := by
  unfold State.writeCore
  split
  · exact h.modCoreSame p fun _ => rfl
  · exact h.modCoreSame p fun _ => rfl
  · exact h

theorem Canon.writeSlice (h : Canon s) (p o v : Nat) : Canon (s.writeSlice p o v) := by
  unfold State.writeSlice
  split
  · exact h.modSliceSame p fun _ => rfl
  · exact h.modSliceSame p fun _ => rfl
  · exact h.modSliceSame p fun _ => rfl
  · exact h

theorem Canon.writeMsc (h : Canon s) (i o v : Nat) : Canon (s.writeMsc i o v) :=
  Canon.ite (Canon.foldl (h.side (by rfl)) (fun _ k ht => ht.evalAdmission k) _) h

theorem Canon.writeWalker (h : Canon s) (o v : Nat) : Canon (s.writeWalker o v) := by
  unfold State.writeWalker
  split
  · exact (h.pfLocked _).ite (h.side (by rfl))
  · exact h.side rfl
  · exact h

theorem Canon.writeEdu (h : Canon s) (o v : Nat) : Canon (s.writeEdu o v) := by
  unfold State.writeEdu
  split
  · exact h.side rfl
  · exact h.side rfl
  · exact h.side rfl
  · exact h

theorem Canon.writeLink (h : Canon s) (o v : Nat) : Canon (s.writeLink o v) := by
  unfold State.writeLink
  split
  · exact h.side rfl
  · exact h.side rfl
  · exact h.side rfl
  · exact h

theorem Canon.writeWindow (h : Canon s) (n v : Nat) : Canon (s.writeWindow n v) := h.side rfl

theorem Canon.writeGov (h : Canon s) (o v : Nat) : Canon (s.writeGov o v) := by
  unfold State.writeGov
  split
  · exact (h.pfLocked _).ite (h.side (by rfl))
  · exact h.side rfl
  · exact (h.pfLocked _).ite (Canon.ite (h.side (by rfl)) (h.event _))
  · exact h.side rfl
  · exact h

theorem Canon.writeRel (h : Canon s) (o v : Nat) : Canon (s.writeRel o v) := by
  unfold State.writeRel
  split
  · exact h.side rfl
  · exact h.side rfl
  · exact h.side rfl
  · exact h

theorem Canon.writeMgt (h : Canon s) (o v : Nat) : Canon (s.writeMgt o v) := by
  unfold State.writeMgt
  split
  · exact h.side rfl
  · exact h.side rfl
  · exact h

theorem Canon.writePanel (h : Canon s) (o v : Nat) : Canon (s.writePanel o v) := (h.modPanelSame _ fun _ => by rfl).ite h

theorem Canon.writeReg (h : Canon s) (off v : Nat) : Canon (s.writeReg off v) := by
  unfold State.writeReg
  extract_lets o
  split
  · exact h.writeMgt o v
  · exact h.writeCore _ _ v
  · exact h.writeSlice _ _ v
  · exact h.writeMsc _ _ v
  · exact h.writeWalker o v
  · exact (h.modSelector _ _).ite h
  · exact h.writeEdu o v
  · exact h.writeLink o v
  · exact (h.writeWindow _ v).ite h
  · exact h.writePanel o v
  · exact h.writeGov o v
  · exact Canon.ite (h.side (by rfl)) h
  · exact h.writeRel o v
  · exact Canon.ite (h.side (by rfl)) h
  · exact h

theorem Canon.badAccess (h : Canon s) : Canon s.badAccess := h.eventPerMs _

theorem Canon.barWrite (h : Canon s) (off size v : Nat) : Canon (s.barWrite off size v) := by
  unfold State.barWrite
  split
  · exact h
  · exact h.ite h.badAccess
  · exact h.badAccess.ite ((h.writeReg off v).ite h)

/-- A write of the mailbox's parameters. -/
theorem Canon.writeParams (h : Canon s) (off : Nat) (bs : List Byte) :
    Canon { s with mgt := { s.mgt with mbxParams := Mem.writeN s.mgt.mbxParams off bs } } := by
  obtain ⟨hhbm, hcores, hpanels, hsaved, hparams, hresp⟩ := (State.memWf_iff s).1 h
  exact (State.memWf_iff _).2 ⟨hhbm, hcores, hpanels, hsaved, Mem.wf_writeN _ off bs hparams, hresp⟩

theorem Canon.bar4Write (h : Canon s) (off size v : Nat) : Canon (s.bar4Write off size v) :=
  .ite (h.badAccess.ite (h.ite (h.writeParams off _))) (h.ite (h.badAccess.ite (Canon.ite (h.side (by rfl)) h)))

theorem canon_execRegisterWrite (h : Canon s) (bar : HostBar) (offset size : Nat) (v : W64) : CanonNext (execRegisterWrite bar offset size v s) := by
  refine .hostTo h ?_
  cases bar with
  | pf0 => exact .ite (.next (h.barWrite _ _ _)) (.next h)
  | vf0 fn => exact .ite (.next (h.barWrite _ _ _)) (.next h)
  | bar4 => exact .ite (.next (h.bar4Write _ _ _)) (.next h)

end

end Sys2Proof.Machine
end

section
/-! PROOFS. The canonical form of the memories: every command, the idle step, and O60. -/

namespace Sys2Proof.Machine

section
variable {s t : State}

theorem Canon.namedWait (h : Canon s) (k side payload : Nat) : Canon (s.namedWait k side payload) := by
  unfold State.namedWait
  split
  · exact h.side rfl
  · exact h.side rfl

theorem canon_execShaperRelease (h : Canon s) (k : Nat) (rsp : Bool) (payload waited : Nat) :
    CanonNext (execShaperRelease k rsp payload waited s) :=
  .ite (.next h) (.next (Canon.count (h.namedWait k _ payload).pumpBacklog.eduPump.pumpTransfers _ _))

/-- Every command keeps the memories canonical: one lemma per meaning, as the dispatch has one arm per command. -/
theorem canon_exec (h : Canon s) (i : Instr) : CanonNext (exec i s) := by
  cases i with
  | nop x o => exact .next (canon_seqDecode h _ x o)
  | halt x o => exact .next (canon_seqDecode h _ x o)
  | coreHaltReport core => exact canon_execCoreHaltReport h core
  | fence x o => exact .next (canon_seqDecode h _ x o)
  | seqStallResume core => exact canon_execSeqStallResume h core
  | br x o => exact .next (canon_seqDecode h _ x o)
  | brc x o => exact .next (canon_seqDecode h _ x o)
  | loop x o => exact .next (canon_seqDecode h _ x o)
  | loopi x o => exact .next (canon_seqDecode h _ x o)
  | li x o => exact .next (canon_seqDecode h _ x o)
  | add x o => exact .next (canon_seqDecode h _ x o)
  | addi x o => exact .next (canon_seqDecode h _ x o)
  | sub x o => exact .next (canon_seqDecode h _ x o)
  | mul x o => exact .next (canon_seqDecode h _ x o)
  | shift x o => exact .next (canon_seqDecode h _ x o)
  | logic x o => exact .next (canon_seqDecode h _ x o)
  | setoff x o => exact .next (canon_seqDecode h _ x o)
  | addoff x o => exact .next (canon_seqDecode h _ x o)
  | addoffi x o => exact .next (canon_seqDecode h _ x o)
  | cset x o => exact .next (canon_seqDecode h _ x o)
  | cadd x o => exact .next (canon_seqDecode h _ x o)
  | cread x o => exact .next (canon_seqDecode h _ x o)
  | time x o => exact .next (canon_seqDecode h _ x o)
  | aWaitall x o => exact .next (canon_seqDecode h _ x o)
  | aLoopn x o => exact .next (canon_seqDecode h _ x o)
  | aSync x o => exact .next (canon_seqDecode h _ x o)
  | aEnd x o => exact .next (canon_seqDecode h _ x o)
  | fetchWordArrive core word => exact canon_execFetchWordArrive h core word
  | engineEntryStart core e => exact canon_execEngineEntryStart h core e
  | engineInstructionComplete core e index busy finds => exact canon_execEngineInstructionComplete h core e index busy finds
  | mxl x _ => exact .next (canon_engDecode h _ x _ _)
  | mms x _ => exact .next (canon_engDecode h _ x _ _)
  | mxd x _ => exact .next (canon_engDecode h _ x _ _)
  | mxmap x _ => exact .next (canon_engDecode h _ x _ _)
  | mxclr x _ => exact .next (canon_engDecode h _ x _ _)
  | aMload x _ => exact .next (canon_engDecode h _ x _ _)
  | aMstream x _ => exact .next (canon_engDecode h _ x _ _)
  | issueWindowStart core stream ready finds => exact canon_execIssueWindowStart h core stream ready finds
  | activityReport island counts belowNs => exact canon_execActivityReport h island counts belowNs
  | busyPeriodEnd core => exact canon_execBusyPeriodEnd h core
  | vxdsc x _ => exact .next (canon_engDecode h _ x _ _)
  | vxdss x _ => exact .next (canon_engDecode h _ x _ _)
  | vxk x _ => exact .next (canon_engDecode h _ x _ _)
  | vadd x _ => exact .next (canon_engDecode h _ x _ _)
  | vsub x _ => exact .next (canon_engDecode h _ x _ _)
  | vmul x _ => exact .next (canon_engDecode h _ x _ _)
  | vfma x _ => exact .next (canon_engDecode h _ x _ _)
  | vmax x _ => exact .next (canon_engDecode h _ x _ _)
  | vmin x _ => exact .next (canon_engDecode h _ x _ _)
  | vabs x _ => exact .next (canon_engDecode h _ x _ _)
  | vneg x _ => exact .next (canon_engDecode h _ x _ _)
  | vcmp x _ => exact .next (canon_engDecode h _ x _ _)
  | vsel x _ => exact .next (canon_engDecode h _ x _ _)
  | vcvt x _ => exact .next (canon_engDecode h _ x _ _)
  | vexp x _ => exact .next (canon_engDecode h _ x _ _)
  | vlog x _ => exact .next (canon_engDecode h _ x _ _)
  | vrcp x _ => exact .next (canon_engDecode h _ x _ _)
  | vrsq x _ => exact .next (canon_engDecode h _ x _ _)
  | vtanh x _ => exact .next (canon_engDecode h _ x _ _)
  | vsigm x _ => exact .next (canon_engDecode h _ x _ _)
  | vrsum x _ => exact .next (canon_engDecode h _ x _ _)
  | vrmax x _ => exact .next (canon_engDecode h _ x _ _)
  | vrmin x _ => exact .next (canon_engDecode h _ x _ _)
  | vrssq x _ => exact .next (canon_engDecode h _ x _ _)
  | vscan x _ => exact .next (canon_engDecode h _ x _ _)
  | vsmax x _ => exact .next (canon_engDecode h _ x _ _)
  | vsexp x _ => exact .next (canon_engDecode h _ x _ _)
  | vssum x _ => exact .next (canon_engDecode h _ x _ _)
  | vtopk x _ => exact .next (canon_engDecode h _ x _ _)
  | vgath x _ => exact .next (canon_engDecode h _ x _ _)
  | vscat x _ => exact .next (canon_engDecode h _ x _ _)
  | vhash x _ => exact .next (canon_engDecode h _ x _ _)
  | vrope x _ => exact .next (canon_engDecode h _ x _ _)
  | aVop x o => exact canon_execAVop h x o
  | vectorChainStart core => exact canon_execVectorChainStart h core
  | srun x _ => exact .next (canon_engDecode h _ x _ _)
  | aXfer x _ => exact .next (canon_engDecode h _ x _ _)
  | streamTxnComplete core slot txn r => exact canon_execStreamTxnComplete h core slot txn r
  | streamDescComplete d => exact canon_execStreamDescComplete h d
  | streamFaultHalt core => exact canon_execStreamFaultHalt h core
  | streamHaltRecord core => exact canon_execStreamHaltRecord h core
  | strResumeRetry core => exact canon_execStrResumeRetry h core
  | strResumeSkip core => exact canon_execStrResumeSkip h core
  | incomingWritePacket slice p => exact canon_execIncomingWritePacket h slice p
  | portBDeferStart slice b waited meets => exact canon_execPortBDeferStart h slice b waited meets
  | portBStarve w => exact canon_execPortBStarve h w
  | tileStateReached slice tile => exact canon_execTileStateReached h slice tile
  | spmTileMaskWrite slice ret value => exact canon_execSpmTileMaskWrite h slice ret value
  | rowTest slice r => exact canon_execRowTest h slice r
  | rowTestIntervalExpiry slice => exact canon_execRowTestIntervalExpiry h slice
  | seqCtrlWrite core value => exact canon_execSeqCtrlWrite h core value
  | mxCtrlWrite core value => exact canon_execMxCtrlWrite h core value
  | pageWalk core va write => exact canon_execPageWalk h core va write
  | pageWalkComplete core => exact canon_execPageWalkComplete h core
  | xlInvGo value => exact canon_execXlInvGo h value
  | invalidationRun => exact canon_execInvalidationRun h
  | invalidationComplete => exact canon_execInvalidationComplete h
  | cowResolve core => exact canon_execCowResolve h core
  | frameRetire frame => exact canon_execFrameRetire h frame
  | kvsTrigger offset => exact canon_execKvsTrigger h offset
  | kvsCapture sel => exact canon_execKvsCapture h sel
  | kvsResultDeliver sel index => exact canon_execKvsResultDeliver h sel index
  | eduGoWrite offset => exact canon_execEduGoWrite h offset
  | eduCountMsg x counts => exact canon_execEduCountMsg h x counts
  | eduCapacityAssign die job => exact canon_execEduCapacityAssign h die job
  | eduDispatchMsg x row => exact canon_execEduDispatchMsg h x row
  | eduReturnWrite offset => exact canon_execEduReturnWrite h offset
  | eduReturnMsg x row => exact canon_execEduReturnMsg h x row
  | eduCountTimeout die job => exact canon_execEduCountTimeout h die job
  | eduRecvTimeout die job => exact canon_execEduRecvTimeout h die job
  | placementRevision ctx table => exact canon_execPlacementRevision h ctx table
  | bar2Read offset ask => exact canon_execBar2Read h offset ask
  | bar2Write offset data => exact canon_execBar2Write h offset data
  | registerWrite bar offset size value => exact canon_execRegisterWrite h bar offset size value
  | cmdStepDb fn window value => exact canon_execCmdStepDb h fn window value
  | cmdSvcDb fn window value => exact canon_execCmdSvcDb h fn window value
  | cmdCqDb fn window value => exact canon_execCmdCqDb h fn window value
  | cmdRingCtrlWrite fn window value => exact canon_execCmdRingCtrlWrite h fn window value
  | cmdRingCfgWrite fn window offset value => exact canon_execCmdRingCfgWrite h fn window offset value
  | packetFetch fn window service read => exact canon_execPacketFetch h fn window service read
  | stepRun fn window => exact canon_execStepRun h fn window
  | stepHandoff panel => exact canon_execStepHandoff h panel
  | stepComplete panel => exact canon_execStepComplete h panel
  | stepMark fn window => exact canon_execStepMark h fn window
  | map fn window => exact canon_execMap h fn window
  | unmap fn window => exact canon_execUnmap h fn window
  | invalidate fn window => exact canon_execInvalidate h fn window
  | poolAdd fn window => exact canon_execPoolAdd h fn window
  | streamResume fn window => exact canon_execStreamResume h fn window
  | svcFence fn window => exact canon_execSvcFence h fn window
  | accountRead fn window => exact canon_execAccountRead h fn window
  | deadlineCheckpoint panel => exact canon_execDeadlineCheckpoint h panel
  | deadlineGrantWithdraw ctx => exact canon_execDeadlineGrantWithdraw h ctx
  | preemptSwitch panel => exact canon_execPreemptSwitch h panel
  | panelReset panel => exact canon_execPanelReset h panel
  | c0AdmissionLapse panel => exact canon_execC0AdmissionLapse h panel
  | c0AdmissionReturn panel => exact canon_execC0AdmissionReturn h panel
  | shaperRelease panel rsp payload waitedNs => exact canon_execShaperRelease h panel rsp payload waitedNs
  | linkFrameRx port f => exact canon_execLinkFrameRx h port f
  | replayTimeout port => exact canon_execReplayTimeout h port
  | linkDead port => exact canon_execLinkDead h port
  | linkTrained port cableOk id => exact canon_execLinkTrained h port cableOk id
  | portTrainTimeout port signal => exact canon_execPortTrainTimeout h port signal
  | holddownExpiry port => exact canon_execHolddownExpiry h port
  | timeFrameTx port => exact canon_execTimeFrameTx h port
  | linkMessageRx port x payload tagOk => exact canon_execLinkMessageRx h port x payload tagOk
  | ackTimer src vc => exact canon_execAckTimer h src vc
  | e2eTimeout dest vc => exact canon_execE2eTimeout h dest vc
  | giveupTimeout dest vc => exact canon_execGiveupTimeout h dest vc
  | streamReclaim dest vc => exact canon_execStreamReclaim h dest vc
  | linkPostTrigger ctx slot => exact canon_execLinkPostTrigger h ctx slot
  | linkTransferComplete ctx slot => exact canon_execLinkTransferComplete h ctx slot
  | pathBreakNotice dest ports => exact canon_execPathBreakNotice h dest ports
  | rteSurveyGo value => exact canon_execRteSurveyGo h value
  | rtePortMapWrite logical value => exact canon_execRtePortMapWrite h logical value
  | collectiveChunkRx die x payload => exact canon_execCollectiveChunkRx h die x payload
  | collectiveTimeout die index => exact canon_execCollectiveTimeout h die index
  | governorTick r => exact canon_execGovernorTick h r
  | govBandWrite value => exact canon_execGovBandWrite h value
  | govModeWrite value => exact canon_execGovModeWrite h value
  | cageGrantRx requestId watts validUs => exact canon_execCageGrantRx h requestId watts validUs
  | grantLate => exact canon_execGrantLate h
  | grantValidExpiry => exact canon_execGrantValidExpiry h
  | preRampFallback panel => exact canon_execPreRampFallback h panel
  | corePowerStateReached core => exact canon_execCorePowerStateReached h core
  | thermalTrip => exact canon_execThermalTrip h
  | islandGroupPowerUp => exact canon_execIslandGroupPowerUp h
  | clockHold island => exact canon_execClockHold h island
  | clockResume island => exact canon_execClockResume h island
  | relFrzPop value => exact canon_execRelFrzPop h value
  | claimWindowExpiry ctx => exact canon_execClaimWindowExpiry h ctx
  | rstClaim value => exact canon_execRstClaim h value
  | rstRecover value => exact canon_execRstRecover h value
  | watchdogExpiry panel => exact canon_execWatchdogExpiry h panel
  | haltWatchdogExpiry panel => exact canon_execHaltWatchdogExpiry h panel
  | contextRecovery ctx => exact canon_execContextRecovery h ctx
  | recoveryDrainTimeout ctx => exact canon_execRecoveryDrainTimeout h ctx
  | hbmScrub offset find => exact canon_execHbmScrub h offset find
  | relUnpoisonGo value => exact canon_execRelUnpoisonGo h value
  | canaryWindowStart => exact canon_execCanaryWindowStart h
  | canaryWindowEnd pass noHotSpot calOffset => exact canon_execCanaryWindowEnd h pass noHotSpot calOffset
  | d2dLaneRetrain die lane => exact canon_execD2dLaneRetrain h die lane
  | keyGen slot type tenant => exact canon_execKeyGen h slot type tenant
  | keyShare slot type tenant mask => exact canon_execKeyShare h slot type tenant mask
  | keyShareInstall slot type tenant gen mask => exact canon_execKeyShareInstall h slot type tenant gen mask
  | keyErase slot => exact canon_execKeyErase h slot
  | keyRevoke slot => exact canon_execKeyRevoke h slot
  | generationDestroy slot => exact canon_execGenerationDestroy h slot
  | tenantClear tenant all => exact canon_execTenantClear h tenant all
  | tenantRemove tenant => exact canon_execTenantRemove h tenant
  | tenantDrainTimeout peer => exact canon_execTenantDrainTimeout h peer
  | drainNotice peer tenant drained => exact canon_execDrainNotice h peer tenant drained
  | lifecycleSet target auth => exact canon_execLifecycleSet h target auth
  | tamperClear standing => exact canon_execTamperClear h standing
  | tamperDetect cause => exact canon_execTamperDetect h cause
  | entropyFail => exact canon_execEntropyFail h
  | entropyRecover => exact canon_execEntropyRecover h
  | getVersion d => exact canon_spdm h d _
  | getCapabilities d => exact canon_spdm h d _
  | negotiateAlgorithms d => exact canon_spdm h d _
  | getDigests d => exact canon_spdm h d _
  | getCertificate d _ _ => exact canon_spdm h d _
  | challenge d _ => exact canon_spdm h d _
  | getMeasurements d _ => exact canon_spdm h d _
  | sessionOpen fn ctx clientKey nonce => exact canon_execSessionOpen h fn ctx clientKey nonce
  | sessionClose fn slot => exact canon_execSessionClose h fn slot
  | coldBoot => exact canon_execColdBoot h
  | mbxCmd door opcode seq => exact canon_execMbxCmd h door opcode seq
  | moduleInfo => exact canon_execModuleInfo h
  | moduleReset => exact canon_execModuleReset h
  | configLoad block => exact canon_execConfigLoad h block
  | configRead offset len => exact canon_execConfigRead h offset len
  | fwInstall image => exact canon_execFwInstall h image
  | fwActivate revertMin approved => exact canon_execFwActivate h revertMin approved
  | fwApprovalTimeout => exact canon_execFwApprovalTimeout h
  | fwRevert => exact canon_execFwRevert h
  | revertTimerExpiry => exact canon_execRevertTimerExpiry h
  | lockSet groups => exact canon_execLockSet h groups
  | release kind index => exact canon_execRelease h kind index
  | eventRead first count => exact canon_execEventRead h first count
  | tallyArm time number => exact canon_execTallyArm h time number
  | mgtTallyGo value => exact canon_execMgtTallyGo h value
  | tallyLatch island => exact canon_execTallyLatch h island
  | tallyIslandRecord => exact canon_execTallyIslandRecord h
  | identitySet moduleId => exact canon_execIdentitySet h moduleId
  | survey => exact canon_execSurvey h
  | calUnpin island => exact canon_execCalUnpin h island
  | contextWrite ctx e => exact canon_execContextWrite h ctx e
  | contextDestroy ctx => exact canon_execContextDestroy h ctx
  | contextRecover ctx => exact canon_execContextRecover h ctx
  | rootSet ctx root => exact canon_execRootSet h ctx root
  | panelWrite panel e linkAdmits => exact canon_execPanelWrite h panel e linkAdmits
  | fallbackSet ctx fallback entry argBlock firstCore coreCount => exact canon_execFallbackSet h ctx fallback entry argBlock firstCore coreCount
  | placementWrite ctx table => exact canon_execPlacementWrite h ctx table
  | routeWrite table entry paths => exact canon_execRouteWrite h table entry paths
  | levelPin ctx level => exact canon_execLevelPin h ctx level
  | portRemap logical physical => exact canon_execPortRemap h logical physical
  | repairWrite index frame replica slot => exact canon_execRepairWrite h index frame replica slot
  | chainFrameRx up f crcOk acked => exact canon_execChainFrameRx h up f crcOk acked
  | chainAckTimeout up => exact canon_execChainAckTimeout h up
  | chainBackoffExpiry up => exact canon_execChainBackoffExpiry h up
  | enumerationFrame value => exact canon_execEnumerationFrame h value
  | chainAddressTimeout => exact canon_execChainAddressTimeout h
  | heartbeatSend role => exact canon_execHeartbeatSend h role
  | heartbeatRx role epoch moduleId => exact canon_execHeartbeatRx h role epoch moduleId
  | headframeTakeover role => exact canon_execHeadframeTakeover h role
  | grantRequestRx moduleId requestId watts stamp => exact canon_execGrantRequestRx h moduleId requestId watts stamp
  | perstAssert => exact canon_execPerstAssert h
  | modEnAssert => exact canon_execModEnAssert h
  | modEnDeassert => exact canon_execModEnDeassert h
  | inputTrip => exact canon_execInputTrip h
  | inputRangeExcursion high => exact canon_execInputRangeExcursion h high
  | standbyPowerChange on => exact canon_execStandbyPowerChange h on
  | tsyncEdge => exact canon_execTsyncEdge h
  | functionLevelReset fn => exact canon_execFunctionLevelReset h fn
  | pciePowerStateChange fn d3hot => exact canon_execPciePowerStateChange h fn d3hot
  | pcieLinkTrained rate width flit => exact canon_execPcieLinkTrained h rate width flit
  | ptmMessage time => exact canon_execPtmMessage h time
  | bar2PeerTimeout => exact canon_execBar2PeerTimeout h
  | jtagInstruction op => exact canon_execJtagInstruction h op
  | uartRxByte b => exact canon_execUartRxByte h b
  | pldmRequest type sensor => exact canon_execPldmRequest h type sensor
  | sensorUpdate values => exact canon_execSensorUpdate h values
  | illegalInstruction core word => exact canon_execIllegalInstruction h core word
  | modulePowerStateReached => exact canon_execModulePowerStateReached h
  | configurationRequest r => exact canon_execConfigurationRequest h r
  | declaredWindowEnd panel => exact canon_execDeclaredWindowEnd h panel
  | tagReuseWaitExpiry ctx => exact canon_execTagReuseWaitExpiry h ctx
  | generationReuseWaitExpiry slot => exact canon_execGenerationReuseWaitExpiry h slot
  | keySharePeerTimeout => exact canon_execKeySharePeerTimeout h

theorem Canon.keepWaiting (h : Canon s) (rest : List Instr) : Canon (s.keepWaiting rest) := h.side rfl

theorem Canon.afterHost (h : Canon s) (i : Instr) (rest : List Instr) : Canon (s.afterHost i rest) :=
  (h.keepWaiting rest).tick.ite (h.keepWaiting rest)

theorem CanonNext.onNext {a : Answer} (h : CanonNext a) {f : State → State} (hf : ∀ t, Canon t → Canon (f t)) : CanonNext (onNext f a) := by
  cases a with
  | next t => exact .next (hf t (h t rfl))
  | fault e => exact fun _ ht => nomatch ht
  | refused r => exact fun _ ht => nomatch ht

theorem canon_idle (h : Canon s) : CanonNext (idle s) := by
  unfold idle
  split
  · next i rest _ => exact .ite (.next h.tick) (.onNext (canon_exec (h.side (by rfl)) i) fun _ ht => ht.afterHost i rest)
  · exact .next h.tick

theorem canon_step (h : Canon s) : CanonNext (step s) := by
  unfold step
  split
  · exact canon_idle h
  · exact canon_exec (h.side (by rfl)) _

end

/-- Settles O60, from one lemma per function of the model that says that it keeps the canonical form. -/
theorem stepKeepsMemWf : Obligations.StepKeepsMemWf := by
  unfold Obligations.StepKeepsMemWf
  intro s t h hstep
  exact canon_step h t hstep

end Sys2Proof.Machine
end
